-- ==== Sys2Proof/Word.lean ====
section
/-! DEFINITION. The word types of the NL5120: bytes, 32-bit registers and the numbers of its parts. -/

namespace Sys2Proof

/-- One byte. -/
abbrev Byte := BitVec 8

/-- One 32-bit register or register-sized value (R7). -/
abbrev W32 := BitVec 32

/-- A channel CH000 to CH511 (R1). -/
abbrev ChId := Fin 512

/-- A cluster CL00 to CL31, and the lane of that cluster (R1, R116). -/
abbrev CluId := Fin 32

/-- A Molno sequencer: lane c is `c`, the master is 32 (R116, R496). -/
abbrev SeqId := Fin 33

/-- A site S00 to S63 (R3). -/
abbrev SiteId := Fin 64

/-- An edge cell of a channel: 0 to 3 are D0 to D3, 4 is S0, 5 is S1 (R22, TIA_LINE). -/
abbrev CellId := Fin 6

end Sys2Proof
end

