-- ==== Sys2Proof/Syntax.lean ====
section
/-! DEFINITION. The commands and events of the NL5120: one constructor of `Instr` for each row of the opcode table.
The table gives no operand fields; the operands here are what the row's rule takes from outside the module: a register
write's value, data in host memory, the outcome of an analog measurement, or which instance the event concerns. A `cycle` or
`coarse` is a number of CK_EDGE cycles, counted from one origin for the whole module (DESIGN CHOICE, log 42). -/

namespace Sys2Proof

/-- What the SFDP read of R79 finds: no answer, a flash that breaks R77, or a flash the module supports.
`tppNs` is the largest page program time in nanoseconds (R483); `sizeLog2` is the log2 of the density in MiB. -/
inductive Sfdp where
  | absent
  | unsupported
  | ok (mfr : BitVec 8) (dev : BitVec 16) (sizeLog2 : BitVec 8) (tppNs : Nat)
  deriving DecidableEq, Repr

/-- What the reads of an execution or of an issue find (R119, R442, R443, R448): an ECC error in the microword itself; in the first
granule that the execution takes from the vector cache, with the macro of the cluster's eight and its row; in the queues and
tables, with the row; or, without an error, a fetch that is delayed at a window that the march engine has borrowed. -/
inductive Ecc where
  | clean
  | single
  | double
  | cacheSingle
  | cacheDouble (part : Fin 8) (row : Fin 512)
  | tableSingle
  | tableDouble (row : Fin 512)
  | delayed
  deriving DecidableEq, Repr

/-- What the read of one SRAM word finds in its ECC (R442). -/
inductive SramRead where
  | clean
  | corrected
  | lost
  deriving DecidableEq, Repr

/-- A Causeway port (R395). -/
inductive Port where
  | up
  | dn
  deriving DecidableEq, Repr

/-- What a partner sends in IDENT (R399), with the number of modules the segment would hold over this link (R404). -/
structure Peer where
  serial   : BitVec 64
  systemId : BitVec 16
  priority : BitVec 8
  port     : Port
  nodes    : Nat
  deriving DecidableEq, Repr

/-- One module of a segment, as the election cells report it (R403), with the LAT and DELAY of its upstream link (R400). -/
structure SegModule where
  serial   : BitVec 64
  priority : BitVec 8
  lat      : Nat
  delay    : Nat
  deriving DecidableEq, Repr

/-- A settled segment (R401): its modules in downstream order, from the head in a chain and from any module in a ring,
and which of them this module is. `excess`: the port of this module whose link brought the segment over 64 modules, if it is one of its own
(R404). -/
structure Segment where
  ring    : Bool
  modules : List SegModule
  self    : Nat
  excess  : Option Port
  deriving DecidableEq, Repr

/-- Where a pad lies with respect to a comparator's band (R241). -/
inductive BandPos where
  | below
  | within
  | above
  deriving DecidableEq, Repr

/-- The two comparator outputs, the observed state of R254. -/
structure CmpPair where
  hi : Bool
  lo : Bool
  deriving DecidableEq, Repr

/-- One temperature sensor's reading in units of 1/64 °C, and whether it passed its self-check (R522). -/
structure SensorReading where
  sensor : Fin 64
  temp   : BitVec 16
  check  : Bool
  deriving DecidableEq, Repr

/-- One reading of the four supply monitors (R527): voltages in mV, currents in mA. -/
structure SupplyReading where
  vinV : BitVec 16
  vinI : BitVec 16
  vphV : BitVec 16
  vphI : BitVec 16
  vplV : BitVec 16
  vplI : BitVec 16
  vioV : BitVec 16
  deriving DecidableEq, Repr

/-- The rows of one macro that fail a march (R449): failing rows 0 to rows−1, and failing spares 0 to 7. -/
structure MacroFails where
  macroNo : Nat
  rows    : List Nat
  spares  : List Nat
  deriving DecidableEq, Repr

/-- One value that a calibration step measures (R459, R467).
`corrClu` is the monitor correction of a cluster; `corrCh` is correction `index` of a channel record, counted in words
from byte 0 (R471); `kpad` is the pad correction of a cell; `ref` the reference tip delay, with whether the measurement
was plausible (R386). -/
inductive CalValue where
  | corrClu (c : CluId) (g o : BitVec 16)
  | corrCh (ch : ChId) (index : Fin 23) (g o : BitVec 16)
  | table (ch : ChId) (line : CellId) (hits : List Nat)
  | kpad (ch : ChId) (cell : CellId) (value : BitVec 16) (plausible : Bool)
  | ref (ch : ChId) (value : BitVec 16) (plausible : Bool)
  deriving DecidableEq, Repr

/-- A BAR0 access of a form that R423 names. -/
inductive BadForm where
  | partialWrite
  | partialRead
  | unsupportedRead
  | unsupportedWrite
  deriving DecidableEq, Repr

/-- The two bases and sizes that a pair of registers holds: the lower or the upper of the pair. -/
inductive Half where
  | lo
  | hi
  deriving DecidableEq, Repr

/-- The five device FL_ registers of R276. -/
inductive FlReg where
  | recSize
  | geom
  | bmpEnLo
  | bmpEnHi
  | rcLimit
  deriving DecidableEq, Repr

/-- What falls in the same cycle as a host read of a register: the counters that increment, and what the read of an SRAM word finds
(R8, R442). -/
structure ReadNow where
  incNow : W32
  read   : SramRead
  deriving DecidableEq, Repr

/-- A sequencer at a boundary, with the CK_SEQ cycles that its wait has counted or its hold has taken up to it (R122, R143). -/
structure SeqPause where
  q      : SeqId
  cycles : Nat
  deriving DecidableEq, Repr

/-- A lane whose sequencer stands at such a boundary (R177). -/
structure LanePause where
  c      : CluId
  cycles : Nat
  deriving DecidableEq, Repr

/-- A strobe instant of a cluster (R225): that of the oldest marker that waits, else of the oldest host strobe, and the CK_EDGE cycle of ts. -/
structure StrobeNow where
  c      : CluId
  marker : Bool
  cycle  : Nat
  deriving DecidableEq, Repr

/-- A channel, and the CK_EDGE cycle in which a host write reaches it. -/
structure ChNow where
  ch    : ChId
  cycle : Nat
  deriving DecidableEq, Repr

/-- A cluster, and the CK_EDGE cycle in which a host write reaches its engine (R372). -/
structure CluNow where
  c     : CluId
  cycle : Nat
  deriving DecidableEq, Repr

/-- A port that trains, and whether it finds a partner (R398). -/
structure PortSeen where
  p       : Port
  partner : Bool
  deriving DecidableEq, Repr

/-- The march of one macro (R447, R442): the rows that fail, and what a preserving march's copy of the timing-set memory finds, with its row. -/
structure MarchTest where
  fails : MacroFails
  read  : SramRead
  row   : Fin 512
  deriving DecidableEq, Repr

/-- The commands and events of the NL5120, one constructor per row of the opcode table, in the table's order. -/
inductive Instr where
  -- supplies, resets and start-up
  | vinPowerUp
  | pfwNAssert
  | pfwShedEnd
  | pfwColdStart
  | vinPowerDown
  | rstNAssert
  | perstAssert
  | warmResetEnd
  | deviceResetStart
  | pcieLinkReset
  | sfdpRead (fuseError : Bool) (found : Sfdp)
  | persistentAreaScan
  | slotSelect
  | bodyStream
  | calBankSelect
  | configApply
  | patchApply
  | bootReady (us : W32)
  | rollbackBurn
  | bootMarch (fails : List MacroFails)
  | dramTraining (ok : Bool)
  | dramSelfRefreshExit
  -- the time base
  | epochTick
  | optimeMs
  | optimeCheckpoint
  | ageingUpdate
  | tempCorrectionUpdate
  | followerLock (offset : W32)
  | holdoverEntry (offset : W32)
  | holdoverReturn
  | clkEppPeriodWrite (v : W32)
  | clkEppWidthWrite (v : W32)
  | clkEppOffsetWrite (v : W32)
  -- host commands
  | commandFetch (entry : List Byte)
  | nop
  | run
  | masterStart (us : W32)
  | stop
  | stage (data : Option (List Byte))
  | jump
  | stream
  | streamBlockPost (c : CluId) (data : Option (List Byte))
  | creditTimeout (c : CluId)
  | read
  | write (data : Option (List Byte))
  | epoch
  | epochTakeEffect
  | sound
  | calibrate
  | march
  | image (data : Option (List Byte))
  | imageCommitted
  | logRead
  | deviceReset
  | cplStall
  -- BAR0, BAR2 and the rings
  | bar0BadAccess (off : BitVec 24) (form : BadForm)
  | bar0Unmapped (off : BitVec 24) (isWrite : Bool)
  | bar2Read (addr : Nat) (len : Nat)
  | bar2Write (addr : Nat) (data : List (Option Byte))
  | hstRingCtlWrite (v : W32)
  | hstCmdTailWrite (v : W32)
  | hstCplHeadWrite (v : W32)
  | hstVecAckWrite (half : Half) (v : W32) (setNow : W32)
  | msixUnmask (vec : Fin 64)
  | flagClear (off : BitVec 24) (v : W32) (setNow : W32)
  | readClear (off : BitVec 24) (now : ReadNow)
  | loReadLatch (off : BitVec 24)
  | hostWriteSealed (off : BitVec 24) (v : W32)
  | registerWrite (off : BitVec 24) (v : W32)
  | seqRoleWrite (c : CluId) (i : Fin 4) (v : W32)
  -- the event recorder
  | openRecordTimeout
  | logProgramDone (ok : Bool)
  | logBlockEraseDone (ok : Bool)
  | evrSlotWord0Read (slot : Option (Fin 1024))
  -- microwords
  | next (q : SeqId) (ecc : Ecc)
  | opcJump (q : SeqId) (ecc : Ecc)
  | call (q : SeqId) (ecc : Ecc)
  | ret (q : SeqId) (ecc : Ecc)
  | loop (q : SeqId) (ecc : Ecc)
  | wait (q : SeqId) (ecc : Ecc)
  | waitConditionMet (q : SeqId) (cycles : Nat)
  | waitTimeout (q : SeqId)
  | halt (q : SeqId) (ecc : Ecc)
  | setreg (q : SeqId) (ecc : Ecc)
  | seg (q : SeqId) (ecc : Ecc)
  | rtbl (q : SeqId) (ecc : Ecc)
  | sync (q : SeqId) (ecc : Ecc)
  | trap (q : SeqId) (ecc : Ecc)
  | lstart (q : SeqId) (ecc : Ecc)
  | lstop (q : SeqId) (ecc : Ecc)
  | brel (q : SeqId) (ecc : Ecc)
  | cwmsg (q : SeqId) (ecc : Ecc)
  | timerExpire (q : SeqId)
  | holdRelease (q : SeqId) (cycles : Nat)
  | interruptAccept (p : SeqPause)
  | mgtHeartbeat
  | wedge (cause : BitVec 8) (unit : BitVec 8) (elapsedUs : W32)
  -- lanes, vectors and edges
  | laneStart (c : CluId) (cycle : Nat)
  | vectorIssue (c : CluId) (ecc : Ecc)
  | edgeFormation (ch : ChId)
  | edgePlacement (ch : ChId)
  /-- `opens`: a window strobe opens. `trace`: the states that a window that closes has seen since its open (R256). -/
  | strobe (ch : ChId) (s1 opens : Bool) (trace : List CmpPair)
  | responseLookup (ch : ChId)
  -- the pin front end
  | hostLoadStrobe (c : CluId) (v : W32)
  | loadStrobe (i : StrobeNow)
  | rangingEnd (ch : ChId)
  | rampStep (ch : ChId)
  | peStagingWrite (ch : ChId) (i : Fin 10) (v : W32)
  | comparatorCrossing (ch : ChId) (low : Bool) (pos : BandPos) (latches : Bool)
  | monitorStart (c : CluId) (v : W32)
  | monitorConversionEnd (c : CluId) (code : BitVec 14) (recent : Bool)
  -- refill, jumps, sluice and plan end
  | refillBlockRequest (c : CluId)
  | refillBlockArrive (c : CluId)
  | jumpGrant (p : LanePause)
  | sluicePost (c : CluId) (v : W32)
  | sluiceCreditReturn (c : CluId)
  | plnSluiceConfigWrite (c : CluId) (size : Bool) (v : W32)
  | laneIdle (c : CluId)
  | planEnd
  | alignedStart (cycle : Nat)
  | alignedStartTimeout
  -- fail processing
  | strobeResultJudge (c : CluId)
  | failWriterDrain (c : CluId) (row : SramRead) (col : SramRead)
  | lostRecordWrite (c : CluId)
  | flSiteMaskWrite (half : Half) (v : W32)
  | flConfigWrite (r : FlReg) (v : W32)
  | flClear (v : W32)
  | flClearDone
  | failCounterWindowWrite (off : BitVec 20) (v : W32) (drain : Option CluId)
  -- time-interval analysers
  | tiaArm (ch : ChId)
  | tiaArmInstant (ch : ChId) (cycle : Nat)
  | tiaAbort (i : ChNow)
  | tiaNWrite (ch : ChId) (gate : Bool) (v : W32)
  | tiaConfigWrite (ch : ChId) (timeout : Bool) (v : W32)
  /-- `vec` and `edge`: the CK_VEC cycle and the CK_EDGE cycle in it. -/
  | transitionTimestamp (ch : ChId) (low : Bool) (rising : Bool) (vec : Nat) (edge : Fin 8) (bin : Nat)
  | tiaEvent (ch : ChId)
  | frequencyGateEnd (ch : ChId)
  | tiaTimeout (ch : ChId)
  | tiaRangeEnd (ch : ChId)
  | codeDensityStart (ch : ChId) (v : W32)
  | codeDensityEnd (ch : ChId) (line : CellId) (hits : List Nat)
  | lineLock (ch : ChId) (line : CellId)
  | lineUnlock (ch : ChId) (line : CellId)
  | lineAcquireTimeout (ch : ChId) (line : CellId)
  -- parametric units
  | pmuStagingWrite (ch : ChId) (i : Fin 5) (v : W32)
  | pmuSyncWrite (c : CluId) (v : W32)
  | syncReset (ch : ChId) (cycle : Nat)
  | resultWord (ch : ChId) (x : Int)
  | pmuDcbWrite (ch : ChId) (v : W32)
  | clampEntry (ch : ChId) (cycle : Nat)
  -- triggers and acquisition
  | acqArm (c : CluId)
  | acqArmInstant (c : CluId) (cycle : Nat)
  | acqAbort (c : CluId)
  | acqForce (c : CluId)
  | triggerSample (c : CluId)
  | stateTimeout (c : CluId)
  | rearmEnd (c : CluId)
  | spillRecord (c : CluId) (read : SramRead) (part : Fin 16) (row : Fin 512)
  | acqSpillRdWrite (c : CluId) (v : W32)
  | acqSpillConfigWrite (c : CluId) (size : Bool) (v : W32)
  | acqConfigWrite (c : CluId) (off : BitVec 12) (v : W32)
  -- waveform synthesis
  | ddsTokenIssue (c : CluId)
  | ddsEntryWrite (i : CluNow) (v : W32)
  | ddsEntryRead (c : CluId) (v : W32)
  -- touchdown and sounding
  | tdNTouchdown
  | tdNLiftoff
  | sndStart
  | sndClrMask
  | soundingPassStart
  | contactJudge
  | tdrHalfEnd
  | soundingPassEnd (us : W32)
  | soundingTimeout
  -- calibration
  | calAbort (us : W32)
  | calStepEnd (values : List CalValue)
  | calDone (us : W32)
  | calStoreStep (ok : Bool) (us : W32)
  | calStoreCommit (us : W32)
  -- the Causeway
  | portTrainRetry (x : PortSeen)
  | portTrained (p : Port)
  | identExchange (p : Port) (peer : Peer)
  /-- `meas` is, on the upstream port, the sum of the 256 round trips in grid steps; on the downstream port, the DELAY that the
  partner returns (R400). -/
  | linkCalibration (p : Port) (meas : Nat) (lat : Nat)
  | refusedRetry (p : Port)
  | electionCell
  | electionSettle (seg : Segment)
  | linkLoss (p : Port)
  | creditReturn (p : Port) (n : Nat)
  | cellInject (p : Port)
  | cwySendWrite (v : W32)
  | cwTrig (p : Port) (cell : BitVec 128)
  | cwJump (p : Port) (cell : BitVec 128)
  | cwTouch (p : Port) (cell : BitVec 128)
  | cwLift (p : Port) (cell : BitVec 128)
  | cwUser (p : Port) (cell : BitVec 128)
  | cwStart (p : Port) (cell : BitVec 128)
  | cwSummary (p : Port) (cell : BitVec 128)
  -- memories, retention and power
  | marchWindow (m : MarchTest)
  | heldRetire
  | retentionEntry (c : CluId)
  | retentionWake (c : CluId)
  | sensorRead (readings : List SensorReading) (supplies : SupplyReading)
  | suppliesInRange
  | pcieLinkUp (width : BitVec 3) (speed : BitVec 3)
  | phaseSlewEnd
  | modulatorOverload (ch : ChId) (cycle : Nat)
  | clampExit (ch : ChId) (cycle : Nat)
  deriving DecidableEq, Repr

end Sys2Proof
end

