-- ==== Sys2Proof/Decode.lean ====
section
/-! DEFINITION. The decoder of the rows that give bits. No row of spec/opcode_table.json gives any: every row is a step of the
block, so no word spells a command. -/

namespace Sys2Proof

/-- The command that an `nbits`-bit word spells: none, since the table gives no row any bits (DEDUCED, log 6). -/
def decodeTableWord (_nbits _w : Nat) : Option Instr := none

end Sys2Proof
end

