-- ==== Sys2Proof/Config.lean ====
section
/-! DEFINITION. What one unit fixes, and the free values: constants without a body, for what the spec leaves open. No proof
can learn anything about them. -/

namespace Sys2Proof

/-- The 64-bit unit serial number, fixed in fuses at manufacture (R14). -/
opaque Config.serial : BitVec 64

/-- SHA-384 of a byte string (R85, R88, R89). The spec names the standard and gives no algorithm (DEDUCED, log 10). -/
opaque Config.sha384 : List Byte → BitVec 384

/-- ECDSA over P-384 with SHA-384 (R89): key X, key Y, r, s, and the signed bytes. The spec names the standard (DEDUCED, log 10). -/
opaque Config.ecdsaOk : (x y r s msg : List Byte) → Bool

/-- AES-256-GCM under the family key in the fuses (R96): IV, additional data, tag and ciphertext give the plaintext, or none
where the tag fails. The spec names the standard and the key is secret (DEDUCED, log 10). -/
opaque Config.gcmOpen : (iv aad tag cipher : List Byte) → Option (List Byte)

/-- Whether the reported mean of TS00 to TS03 is rounded up where it is not a whole 1/64 °C (DESIGN CHOICE, log 14): R44 and the
CLK_XTAL_TEMP register do not say. -/
opaque Config.xtalMeanUp : Int → Bool

/-- Whether a clock edge half way between two grid points falls on the later one (DESIGN CHOICE, log 95): R66 says the nearest. Applied to
2^17 times its distance from the first rising edge. -/
opaque Config.clockTieUp : Nat → Bool

/-- Whether the mean of the four words of a contact test is rounded up where their sum is no multiple of 4 (DESIGN CHOICE, log 52):
R383 does not say. -/
opaque Config.contactMeanUp : Int → Bool

/-- A flash byte after an erase or a program of its place has failed, which R469 and R488 do not state: the free counter and the
address (DESIGN CHOICE, log 61). -/
opaque Config.failedByte : (n a : Nat) → Byte

/-- The values that the spec does not state where an effect runs on: the duration in CAL_TIME after an ABORT that a host write of
CAL_CTL gives, and ACQ_TRIG_INFO.WIN after a trigger by the timeout arc (DESIGN CHOICE, log 54). Applied to the free counter (DESIGN CHOICE, log 15). -/
opaque Config.freeWord : Nat → W32

/-- Whether the tap steps of R235 are in force where a high-speed driver takes up the formatter's level with no level change at the pad: at the
end of RANGING, or at a return to the formatter as source. Applied to the channel and to the time (DESIGN CHOICE, log 97). -/
opaque Config.resumeTapped : (n t : Nat) → Bool

/-- The CK_EDGE cycle of a general register write whose row carries none, where the effect depends on it: ABORT of TIA_CTL and GO of DDS_ADDR
(DESIGN CHOICE, log 15). Applied to the free counter. -/
opaque Config.freeCycle : Nat → Nat

/-- The factory record of R460: the 32 crystal table entries. -/
opaque Config.factoryXtal : Fin 32 → BitVec 16

/-- The factory record of R460: AGE_T0 in ms. -/
opaque Config.factoryAgeT0 : BitVec 40

/-- The factory record of R460: TC_D and TC_S of each channel. -/
opaque Config.factoryTc : Fin 512 → (strobe : Bool) → BitVec 16

/-- The arrival time of the timing reference step at each pad, in grid steps (R460). It enters only the measured values that a
calibration step carries as operands (DESIGN CHOICE, log 83). -/
opaque Config.factoryArrival : Fin 512 → BitVec 16

/-- The CK_SEQ cycles that a ROM microroutine takes (R172 names what it does and gives no count): the sequencer, and the
free counter (DESIGN CHOICE, log 16). -/
opaque Config.romCycles : (q n : Nat) → Nat

/-- The words of the on-die microcode ROM (R117), which the spec does not list (DESIGN CHOICE, log 16). -/
opaque Config.romWord : Nat → BitVec 192

/-- The address in the ROM area that a sequencer reports while it runs the ROM plan runner, which the spec does not give (DESIGN CHOICE, log 16). -/
opaque Config.runnerPc : Nat

end Sys2Proof
end

