-- ==== Sys2Proof/Machine/Bits.lean ====
section
/-! DEFINITION. Bit fields, signed narrowing, byte order and the two CRCs that the rules name. -/

namespace Sys2Proof.Machine

/-- Bits [msb:lsb] of a register as a number. -/
def fieldOf (v : W32) (msb lsb : Nat) : Nat := (v.toNat >>> lsb) % 2 ^ (msb + 1 - lsb)

/-- Bit n of a register. -/
def bitOf (v : W32) (n : Nat) : Bool := v.toNat.testBit n

/-- The mask with bits [msb:lsb] set. -/
def maskOf (msb lsb : Nat) : W32 := BitVec.ofNat 32 ((2 ^ (msb + 1) - 1) - (2 ^ lsb - 1))

/-- `v` with bits [msb:lsb] replaced by the low bits of `x`. -/
def withField (v : W32) (msb lsb : Nat) (x : Nat) : W32 :=
  (v &&& ~~~ maskOf msb lsb) ||| (BitVec.ofNat 32 (x <<< lsb) &&& maskOf msb lsb)

/-- The register with only bit n set. -/
def bit32 (n : Nat) : W32 := BitVec.ofNat 32 (2 ^ n)

/-- A register built from fields given as (lsb, value). -/
def pack (fs : List (Nat × Nat)) : W32 :=
  fs.foldl (fun acc f => acc ||| BitVec.ofNat 32 (f.2 <<< f.1)) 0

/-- A Bool as a bit. -/
def b2n (b : Bool) : Nat := if b then 1 else 0

/-- The signed reading of the low `w` bits of `x`. -/
def sext (w x : Nat) : Int :=
  let y := x % 2 ^ w
  if 2 ^ (w - 1) ≤ y then (y : Int) - (2 ^ w : Int) else (y : Int)

/-- An integer as a `w`-bit two's-complement field. -/
def toField (w : Nat) (x : Int) : Nat := (x % (2 ^ w : Int)).toNat

/-- `x` held within [lo, hi]. -/
def clampInt (lo hi x : Int) : Int := if x < lo then lo else if hi < x then hi else x

/-- Division rounded to nearest, ties away from zero (R199). -/
def divNearest (a b : Int) : Int :=
  if 0 ≤ a then (2 * a + b) / (2 * b) else - ((2 * (-a) + b) / (2 * b))

/-- The counter `x` raised by `n`, held at `top` (R439). -/
def satAdd (top x n : Nat) : Nat := min top (x + n)

/-- `x` lies in [lo, hi]. -/
def inRange (lo hi x : Nat) : Bool := decide (lo ≤ x ∧ x ≤ hi)

/-- Little-endian number of a list of bytes (R7). -/
def leNat : List Byte → Nat
  | [] => 0
  | b :: t => b.toNat + 256 * leNat t

/-- The low `n` bytes of `x`, least significant first. -/
def leBytes : Nat → Nat → List Byte
  | 0, _ => []
  | n + 1, x => BitVec.ofNat 8 x :: leBytes n (x / 256)

/-- One little-endian 32-bit word at byte offset `o` of a list. -/
def word32 (bs : List Byte) (o : Nat) : W32 := BitVec.ofNat 32 (leNat ((bs.drop o).take 4))

/-- The little-endian number of the `n` bytes at offset `o` of a list. -/
def leAt (bs : List Byte) (o n : Nat) : Nat := leNat ((bs.drop o).take n)

/-- One step of a reflected 32-bit CRC. -/
def crc32cBit (c : Nat) : Nat := if c % 2 = 1 then (c / 2) ^^^ 0x82F63B78 else c / 2

/-- One byte of CRC-32C. -/
def crc32cByte (c : Nat) (b : Byte) : Nat :=
  let x := c ^^^ b.toNat
  crc32cBit (crc32cBit (crc32cBit (crc32cBit (crc32cBit (crc32cBit (crc32cBit (crc32cBit x)))))))

/-- CRC-32C over a list of bytes. PRESUMED (log 12): the polynomial, initial value and final complement of the published
CRC-32C, which the spec names and does not spell out. -/
def crc32c (bs : List Byte) : Nat := (bs.foldl crc32cByte 0xFFFFFFFF) ^^^ 0xFFFFFFFF

/-- One bit of CRC-16 with polynomial 0x1021, most significant bit first (R397). -/
def crc16Bit (c : Nat) : Nat :=
  if 0x8000 ≤ c then ((c * 2) % 65536) ^^^ 0x1021 else (c * 2) % 65536

/-- One byte of CRC-16. -/
def crc16Byte (c : Nat) (b : Byte) : Nat :=
  let x := c ^^^ (b.toNat * 256)
  crc16Bit (crc16Bit (crc16Bit (crc16Bit (crc16Bit (crc16Bit (crc16Bit (crc16Bit x)))))))

/-- CRC-16 with polynomial 0x1021 and initial value 0xFFFF (R397). DEDUCED (log 13): bytes in the cell's order, each from
its most significant bit. -/
def crc16 (bs : List Byte) : Nat := bs.foldl crc16Byte 0xFFFF

/-- The positions of the set bits of `x` below `n`. -/
def bitList (n x : Nat) : List Nat := (List.range n).filter (fun i => x.testBit i)

/-- The number with exactly the bits of a list set. -/
def ofBits (l : List Nat) : Nat := l.foldl (fun a i => a ||| 2 ^ i) 0

/-- Adds `i` to an ascending list without repeats. -/
def insertNat (i : Nat) : List Nat → List Nat
  | [] => [i]
  | j :: t => if i < j then i :: j :: t else if i = j then j :: t else j :: insertNat i t

end Sys2Proof.Machine
end

