-- ==== Sys2Proof/Machine/RegMap.lean ====
section
/-! DEFINITION. The register map of BAR0 (R528 to R530): every register's offset, the kinds of its fields (R8) and its
reset value, as the register tables of the chapters give them, and the names of the offsets. -/

namespace Sys2Proof.Machine

/-- Where a register lies: once in the module, in each sequencer's space (a lane's cluster space and the MSEQ block,
R530), once in each cluster, or once in each channel page (R11). -/
inductive RegScope where
  | device
  | seq
  | cluster
  | channel
  deriving DecidableEq, Repr

/-- One register, or an array of them: `off` is the offset in its space, and the six masks give the bits of each access
kind of R8. Bits in no mask are reserved. -/
structure RegRow where
  scope  : RegScope
  off    : Nat
  stride : Nat
  count  : Nat
  rw     : Nat
  w1c    : Nat
  rc     : Nat
  wo     : Nat
  sl     : Nat
  ro     : Nat
  reset  : Nat
  deriving DecidableEq, Repr

/-- The single registers of the device blocks. Part 0. -/
def regRowsDevice0 : List RegRow := [
  { scope := .device, off := 0x0, stride := 0, count := 1, rw := 0x0, w1c := 0x0, rc := 0x0, wo := 0x0, sl := 0x0, ro := 0xFFFFFFFF, reset := 0x5120 },
  { scope := .device, off := 0x4, stride := 0, count := 1, rw := 0x0, w1c := 0x0, rc := 0x0, wo := 0x0, sl := 0x0, ro := 0xFFFF, reset := 0x4201 },
  { scope := .device, off := 0x8, stride := 0, count := 1, rw := 0x0, w1c := 0x0, rc := 0x0, wo := 0x0, sl := 0x0, ro := 0xFFFFFFFF, reset := 0x0 },
  { scope := .device, off := 0xC, stride := 0, count := 1, rw := 0x0, w1c := 0x0, rc := 0x0, wo := 0x0, sl := 0x0, ro := 0xFFFFFFFF, reset := 0x0 },
  { scope := .device, off := 0x10, stride := 0, count := 1, rw := 0x0, w1c := 0x0, rc := 0x0, wo := 0x0, sl := 0xFFFFFFFF, ro := 0x0, reset := 0x0 },
  { scope := .device, off := 0x10000, stride := 0, count := 1, rw := 0x0, w1c := 0x0, rc := 0x0, wo := 0x0, sl := 0x0, ro := 0xF, reset := 0x0 },
  { scope := .device, off := 0x10004, stride := 0, count := 1, rw := 0x0, w1c := 0xF, rc := 0x0, wo := 0x0, sl := 0x0, ro := 0x0, reset := 0x0 },
  { scope := .device, off := 0x10008, stride := 0, count := 1, rw := 0x0, w1c := 0x0, rc := 0xFFFFFFFF, wo := 0x0, sl := 0x0, ro := 0x0, reset := 0x0 },
  { scope := .device, off := 0x1000C, stride := 0, count := 1, rw := 0x0, w1c := 0x0, rc := 0x0, wo := 0x0, sl := 0xFFFF, ro := 0x0, reset := 0x0 },
  { scope := .device, off := 0x10010, stride := 0, count := 1, rw := 0x0, w1c := 0x0, rc := 0x0, wo := 0x0, sl := 0x0, ro := 0xFFFFFFFF, reset := 0x0 },
  { scope := .device, off := 0x10014, stride := 0, count := 1, rw := 0x0, w1c := 0x0, rc := 0x0, wo := 0x0, sl := 0x0, ro := 0xFFFFFFFF, reset := 0x0 },
  { scope := .device, off := 0x10018, stride := 0, count := 1, rw := 0x0, w1c := 0x0, rc := 0x0, wo := 0x0, sl := 0x0, ro := 0xFFFFFFFF, reset := 0x0 },
  { scope := .device, off := 0x1001C, stride := 0, count := 1, rw := 0x0, w1c := 0x0, rc := 0x0, wo := 0x0, sl := 0x0, ro := 0xFFFF, reset := 0x0 },
  { scope := .device, off := 0x10020, stride := 0, count := 1, rw := 0x0, w1c := 0x0, rc := 0x0, wo := 0x0, sl := 0x0, ro := 0xFFFFFFFF, reset := 0x0 },
  { scope := .device, off := 0x10024, stride := 0, count := 1, rw := 0x0, w1c := 0x0, rc := 0x0, wo := 0x0, sl := 0x0, ro := 0xFF, reset := 0x0 },
  { scope := .device, off := 0x10028, stride := 0, count := 1, rw := 0x0, w1c := 0x0, rc := 0x0, wo := 0x0, sl := 0x0, ro := 0xFFFFFF, reset := 0x0 },
  { scope := .device, off := 0x10030, stride := 0, count := 1, rw := 0x0, w1c := 0x0, rc := 0x0, wo := 0x0, sl := 0x0, ro := 0xFFFFFFFF, reset := 0x0 },
  { scope := .device, off := 0x10034, stride := 0, count := 1, rw := 0x0, w1c := 0x0, rc := 0x0, wo := 0x0, sl := 0x0, ro := 0xFFFFFFFF, reset := 0x0 },
  { scope := .device, off := 0x10040, stride := 0, count := 1, rw := 0x0, w1c := 0x0, rc := 0x0, wo := 0x0, sl := 0x7, ro := 0x0, reset := 0x0 },
  { scope := .device, off := 0x10044, stride := 0, count := 1, rw := 0xFFFFFFFF, w1c := 0x0, rc := 0x0, wo := 0x0, sl := 0x0, ro := 0x0, reset := 0x0 },
  { scope := .device, off := 0x10048, stride := 0, count := 1, rw := 0xFFFFFFFF, w1c := 0x0, rc := 0x0, wo := 0x0, sl := 0x0, ro := 0x0, reset := 0x0 },
  { scope := .device, off := 0x1004C, stride := 0, count := 1, rw := 0xFFFFFFFF, w1c := 0x0, rc := 0x0, wo := 0x0, sl := 0x0, ro := 0x0, reset := 0x0 },
  { scope := .device, off := 0x10050, stride := 0, count := 1, rw := 0x0, w1c := 0x0, rc := 0x0, wo := 0x0, sl := 0x0, ro := 0xFFFFFFFF, reset := 0xFFFFFFFF },
  { scope := .device, off := 0x10054, stride := 0, count := 1, rw := 0x0, w1c := 0x0, rc := 0x0, wo := 0x0, sl := 0x0, ro := 0xFFFFFFFF, reset := 0xFFFFFFFF },
  { scope := .device, off := 0x10058, stride := 0, count := 1, rw := 0x0, w1c := 0x0, rc := 0x0, wo := 0x0, sl := 0x0, ro := 0xFFFFFFFF, reset := 0xFFFFFFFF },
  { scope := .device, off := 0x1005C, stride := 0, count := 1, rw := 0x0, w1c := 0x0, rc := 0x0, wo := 0x0, sl := 0x0, ro := 0xFFFFFFFF, reset := 0xFFFF },
  { scope := .device, off := 0x20000, stride := 0, count := 1, rw := 0x0, w1c := 0x0, rc := 0x0, wo := 0x0, sl := 0x0, ro := 0xFF0FF7, reset := 0x0 },
  { scope := .device, off := 0x20004, stride := 0, count := 1, rw := 0x0, w1c := 0x0, rc := 0x0, wo := 0x0, sl := 0x0, ro := 0xFFFFFFFF, reset := 0x0 },
  { scope := .device, off := 0x20008, stride := 0, count := 1, rw := 0x0, w1c := 0x0, rc := 0x0, wo := 0x0, sl := 0x0, ro := 0xFFFFFFFF, reset := 0x0 },
  { scope := .device, off := 0x2000C, stride := 0, count := 1, rw := 0x0, w1c := 0x0, rc := 0x0, wo := 0x0, sl := 0x0, ro := 0xFFFFFFFF, reset := 0x0 },
  { scope := .device, off := 0x20010, stride := 0, count := 1, rw := 0x0, w1c := 0x0, rc := 0x0, wo := 0x0, sl := 0x0, ro := 0xFFFFFFFF, reset := 0x0 },
  { scope := .device, off := 0x20014, stride := 0, count := 1, rw := 0x0, w1c := 0x0, rc := 0x0, wo := 0x0, sl := 0x0, ro := 0xFF7F, reset := 0x0 },
  { scope := .device, off := 0x20018, stride := 0, count := 1, rw := 0x0, w1c := 0x0, rc := 0xFFFF, wo := 0x0, sl := 0x0, ro := 0x0, reset := 0x0 },
  { scope := .device, off := 0x2001C, stride := 0, count := 1, rw := 0x0, w1c := 0x0, rc := 0x0, wo := 0x0, sl := 0x0, ro := 0xFFFFFF, reset := 0x0 },
  { scope := .device, off := 0x20020, stride := 0, count := 1, rw := 0x0, w1c := 0x0, rc := 0x0, wo := 0x0, sl := 0x0, ro := 0xFF07, reset := 0x0 },
  { scope := .device, off := 0x30000, stride := 0, count := 1, rw := 0x0, w1c := 0x0, rc := 0x0, wo := 0x0, sl := 0x0, ro := 0x1FF, reset := 0x0 },
  { scope := .device, off := 0x30004, stride := 0, count := 1, rw := 0x0, w1c := 0x0, rc := 0x0, wo := 0x0, sl := 0x3F, ro := 0x0, reset := 0x0 },
  { scope := .device, off := 0x30008, stride := 0, count := 1, rw := 0x1, w1c := 0x0, rc := 0x0, wo := 0x0, sl := 0x0, ro := 0x0, reset := 0x0 },
  { scope := .device, off := 0x30010, stride := 0, count := 1, rw := 0xFFFFFFFF, w1c := 0x0, rc := 0x0, wo := 0x0, sl := 0x0, ro := 0x0, reset := 0x0 },
  { scope := .device, off := 0x30014, stride := 0, count := 1, rw := 0xFFFFFFFF, w1c := 0x0, rc := 0x0, wo := 0x0, sl := 0x0, ro := 0x0, reset := 0x0 } ]

/-- The single registers of the device blocks. Part 1. -/
def regRowsDevice1 : List RegRow := [
  { scope := .device, off := 0x30018, stride := 0, count := 1, rw := 0xFFFFFFFF, w1c := 0x0, rc := 0x0, wo := 0x0, sl := 0x0, ro := 0x0, reset := 0x0 },
  { scope := .device, off := 0x3001C, stride := 0, count := 1, rw := 0xFFFFFFFF, w1c := 0x0, rc := 0x0, wo := 0x0, sl := 0x0, ro := 0x0, reset := 0x0 },
  { scope := .device, off := 0x30020, stride := 0, count := 1, rw := 0xFFF, w1c := 0x0, rc := 0x0, wo := 0x0, sl := 0x0, ro := 0x0, reset := 0x0 },
  { scope := .device, off := 0x30024, stride := 0, count := 1, rw := 0x0, w1c := 0x0, rc := 0x0, wo := 0x0, sl := 0x0, ro := 0xFFF, reset := 0x0 },
  { scope := .device, off := 0x30028, stride := 0, count := 1, rw := 0xFFF, w1c := 0x0, rc := 0x0, wo := 0x0, sl := 0x0, ro := 0x0, reset := 0x0 },
  { scope := .device, off := 0x3002C, stride := 0, count := 1, rw := 0x0, w1c := 0x0, rc := 0x0, wo := 0x0, sl := 0x0, ro := 0x1FFF, reset := 0x0 },
  { scope := .device, off := 0x30030, stride := 0, count := 1, rw := 0x0, w1c := 0x3F, rc := 0x0, wo := 0x0, sl := 0x0, ro := 0x0, reset := 0x0 },
  { scope := .device, off := 0x30034, stride := 0, count := 1, rw := 0x0, w1c := 0x0, rc := 0x3FFFFFFF, wo := 0x0, sl := 0x0, ro := 0x0, reset := 0x0 },
  { scope := .device, off := 0x30038, stride := 0, count := 1, rw := 0x0, w1c := 0x0, rc := 0x0, wo := 0x0, sl := 0x0, ro := 0xFFFFFF, reset := 0x0 },
  { scope := .device, off := 0x3003C, stride := 0, count := 1, rw := 0x0, w1c := 0x0, rc := 0xFFFFFFFF, wo := 0x0, sl := 0x0, ro := 0x0, reset := 0x0 },
  { scope := .device, off := 0x30040, stride := 0, count := 1, rw := 0x0, w1c := 0x0, rc := 0x0, wo := 0x0, sl := 0x0, ro := 0xFFFFFFFF, reset := 0x0 },
  { scope := .device, off := 0x30044, stride := 0, count := 1, rw := 0x0, w1c := 0x0, rc := 0x0, wo := 0x0, sl := 0x0, ro := 0xFFFFFFFF, reset := 0x0 },
  { scope := .device, off := 0x30048, stride := 0, count := 1, rw := 0x0, w1c := 0x0, rc := 0x0, wo := 0xFFFFFFFF, sl := 0x0, ro := 0x0, reset := 0x0 },
  { scope := .device, off := 0x3004C, stride := 0, count := 1, rw := 0x0, w1c := 0x0, rc := 0x0, wo := 0xFFFFFFFF, sl := 0x0, ro := 0x0, reset := 0x0 },
  { scope := .device, off := 0x40000, stride := 0, count := 1, rw := 0x0, w1c := 0x0, rc := 0x0, wo := 0x0, sl := 0x0, ro := 0xFFBF0FF1, reset := 0x1000011 },
  { scope := .device, off := 0x40004, stride := 0, count := 1, rw := 0x0, w1c := 0x0, rc := 0x0, wo := 0x0, sl := 0xFFFFFF07, ro := 0x0, reset := 0x3 },
  { scope := .device, off := 0x40008, stride := 0, count := 1, rw := 0x0, w1c := 0x0, rc := 0x0, wo := 0x0, sl := 0xFFFFFFFF, ro := 0x0, reset := 0x0 },
  { scope := .device, off := 0x4000C, stride := 0, count := 1, rw := 0x0, w1c := 0x0, rc := 0x0, wo := 0x0, sl := 0x0, ro := 0xFF00FFFF, reset := 0x0 },
  { scope := .device, off := 0x40010, stride := 0, count := 1, rw := 0x0, w1c := 0x0, rc := 0x0, wo := 0x0, sl := 0x0, ro := 0xFF00FFFF, reset := 0x0 },
  { scope := .device, off := 0x40014, stride := 0, count := 1, rw := 0x0, w1c := 0x0, rc := 0x0, wo := 0x0, sl := 0x0, ro := 0xFFFFFFFF, reset := 0x0 },
  { scope := .device, off := 0x40018, stride := 0, count := 1, rw := 0x0, w1c := 0x0, rc := 0x0, wo := 0x0, sl := 0x0, ro := 0xFFFFFFFF, reset := 0x0 },
  { scope := .device, off := 0x4001C, stride := 0, count := 1, rw := 0x0, w1c := 0x0, rc := 0x0, wo := 0x0, sl := 0x0, ro := 0xFFFFFFFF, reset := 0x0 },
  { scope := .device, off := 0x40020, stride := 0, count := 1, rw := 0x0, w1c := 0x0, rc := 0x0, wo := 0x0, sl := 0x0, ro := 0xFFFFFFFF, reset := 0x0 },
  { scope := .device, off := 0x40024, stride := 0, count := 1, rw := 0x0, w1c := 0x0, rc := 0x0, wo := 0x0, sl := 0x0, ro := 0xFFFFFFFF, reset := 0x0 },
  { scope := .device, off := 0x40028, stride := 0, count := 1, rw := 0x0, w1c := 0x0, rc := 0x0, wo := 0x0, sl := 0x0, ro := 0xFFFFFFFF, reset := 0x0 },
  { scope := .device, off := 0x4002C, stride := 0, count := 1, rw := 0x0, w1c := 0x0, rc := 0x0, wo := 0x0, sl := 0x0, ro := 0xFFFF, reset := 0x0 },
  { scope := .device, off := 0x40030, stride := 0, count := 1, rw := 0x0, w1c := 0x0, rc := 0x0, wo := 0x0, sl := 0x0, ro := 0xFFFFFF, reset := 0x0 },
  { scope := .device, off := 0x40034, stride := 0, count := 1, rw := 0x0, w1c := 0x1F, rc := 0x0, wo := 0x0, sl := 0x0, ro := 0x0, reset := 0x0 },
  { scope := .device, off := 0x40038, stride := 0, count := 1, rw := 0x0, w1c := 0x0, rc := 0x3FFFFFFF, wo := 0x0, sl := 0x0, ro := 0x0, reset := 0x0 },
  { scope := .device, off := 0x4003C, stride := 0, count := 1, rw := 0x0, w1c := 0x0, rc := 0x0, wo := 0x0, sl := 0x0, ro := 0xFFFF, reset := 0x0 },
  { scope := .device, off := 0x40040, stride := 0, count := 1, rw := 0x0, w1c := 0x0, rc := 0x0, wo := 0x0, sl := 0x0, ro := 0x3FFFFFF, reset := 0x0 },
  { scope := .device, off := 0x40044, stride := 0, count := 1, rw := 0x0, w1c := 0x0, rc := 0x0, wo := 0x80FFFFFF, sl := 0x0, ro := 0x0, reset := 0x0 },
  { scope := .device, off := 0x40048, stride := 0, count := 1, rw := 0x0, w1c := 0x0, rc := 0x0, wo := 0x0, sl := 0xFF, ro := 0x0, reset := 0x64 },
  { scope := .device, off := 0x50000, stride := 0, count := 1, rw := 0x0, w1c := 0x0, rc := 0x0, wo := 0x0, sl := 0x0, ro := 0xFF07, reset := 0x0 },
  { scope := .device, off := 0x50004, stride := 0, count := 1, rw := 0x0, w1c := 0x3, rc := 0x0, wo := 0x0, sl := 0x0, ro := 0x0, reset := 0x0 },
  { scope := .device, off := 0x50008, stride := 0, count := 1, rw := 0x0, w1c := 0x0, rc := 0xFFFF, wo := 0x0, sl := 0x0, ro := 0x0, reset := 0x0 },
  { scope := .device, off := 0x5000C, stride := 0, count := 1, rw := 0x0, w1c := 0x0, rc := 0x0, wo := 0x0, sl := 0x0, ro := 0xFFFFFFFF, reset := 0x0 },
  { scope := .device, off := 0x50010, stride := 0, count := 1, rw := 0x0, w1c := 0x0, rc := 0x0, wo := 0x0, sl := 0x0, ro := 0xFFFFFFFF, reset := 0x0 },
  { scope := .device, off := 0x50014, stride := 0, count := 1, rw := 0x0, w1c := 0x0, rc := 0x0, wo := 0x0, sl := 0x0, ro := 0xFF7F07FF, reset := 0x0 },
  { scope := .device, off := 0x50018, stride := 0, count := 1, rw := 0x0, w1c := 0x0, rc := 0x0, wo := 0x0, sl := 0x0, ro := 0xFFFFFFFF, reset := 0x0 } ]

/-- The single registers of the device blocks. Part 2. -/
def regRowsDevice2 : List RegRow := [
  { scope := .device, off := 0x60000, stride := 0, count := 1, rw := 0x0, w1c := 0x0, rc := 0x0, wo := 0x0, sl := 0x0, ro := 0x707001F, reset := 0x7000010 },
  { scope := .device, off := 0x60004, stride := 0, count := 1, rw := 0x0, w1c := 0x0, rc := 0x0, wo := 0x1, sl := 0x0, ro := 0x0, reset := 0x0 },
  { scope := .device, off := 0x60008, stride := 0, count := 1, rw := 0x0, w1c := 0x1F, rc := 0x0, wo := 0x0, sl := 0x0, ro := 0x0, reset := 0x0 },
  { scope := .device, off := 0x6000C, stride := 0, count := 1, rw := 0x0, w1c := 0x0, rc := 0x3FFFFFFF, wo := 0x0, sl := 0x0, ro := 0x0, reset := 0x0 },
  { scope := .device, off := 0x60010, stride := 0, count := 1, rw := 0x0, w1c := 0x0, rc := 0x0, wo := 0x0, sl := 0x0, ro := 0xFFFFFFFF, reset := 0x0 },
  { scope := .device, off := 0x60014, stride := 0, count := 1, rw := 0x0, w1c := 0x0, rc := 0x0, wo := 0x0, sl := 0x0, ro := 0xFFFFFFFF, reset := 0x0 },
  { scope := .device, off := 0x60018, stride := 0, count := 1, rw := 0x0, w1c := 0x0, rc := 0x0, wo := 0x0, sl := 0x0, ro := 0xFF, reset := 0x0 },
  { scope := .device, off := 0x6001C, stride := 0, count := 1, rw := 0x0, w1c := 0x0, rc := 0x0, wo := 0x0, sl := 0x0, ro := 0xFFFFFF, reset := 0x0 },
  { scope := .device, off := 0x60020, stride := 0, count := 1, rw := 0x0, w1c := 0x0, rc := 0x0, wo := 0x0, sl := 0x0, ro := 0x3FFFF, reset := 0x0 },
  { scope := .device, off := 0x60024, stride := 0, count := 1, rw := 0x0, w1c := 0x0, rc := 0x0, wo := 0x0, sl := 0x0, ro := 0xFFFFFFFF, reset := 0x0 },
  { scope := .device, off := 0x60028, stride := 0, count := 1, rw := 0x0, w1c := 0x0, rc := 0x0, wo := 0x0, sl := 0x0, ro := 0xFFFFFFFF, reset := 0x0 },
  { scope := .device, off := 0x6002C, stride := 0, count := 1, rw := 0x0, w1c := 0x0, rc := 0x0, wo := 0x0, sl := 0x0, ro := 0xFFFFFFFF, reset := 0x0 },
  { scope := .device, off := 0x70000, stride := 0, count := 1, rw := 0x0, w1c := 0x0, rc := 0x0, wo := 0x0, sl := 0x0, ro := 0x80FF000F, reset := 0x0 },
  { scope := .device, off := 0x70004, stride := 0, count := 1, rw := 0x0, w1c := 0x0, rc := 0x0, wo := 0x0, sl := 0x0, ro := 0x7FF07FF, reset := 0x0 },
  { scope := .device, off := 0x70008, stride := 0, count := 1, rw := 0x0, w1c := 0x7, rc := 0x0, wo := 0x0, sl := 0x0, ro := 0x0, reset := 0x0 },
  { scope := .device, off := 0x7000C, stride := 0, count := 1, rw := 0x0, w1c := 0x0, rc := 0xFFFFFF, wo := 0x0, sl := 0x0, ro := 0x0, reset := 0x0 },
  { scope := .device, off := 0x70010, stride := 0, count := 1, rw := 0x0, w1c := 0x0, rc := 0xFFFFFFFF, wo := 0x0, sl := 0x0, ro := 0x0, reset := 0x0 },
  { scope := .device, off := 0x70014, stride := 0, count := 1, rw := 0x0, w1c := 0x0, rc := 0x0, wo := 0x0, sl := 0x0, ro := 0x7FF01FF, reset := 0x0 },
  { scope := .device, off := 0x70018, stride := 0, count := 1, rw := 0x0, w1c := 0x0, rc := 0xFFFFFFFF, wo := 0x0, sl := 0x0, ro := 0x0, reset := 0x0 },
  { scope := .device, off := 0x7001C, stride := 0, count := 1, rw := 0x0, w1c := 0x0, rc := 0x0, wo := 0x0, sl := 0x0, ro := 0xFFFFFFFF, reset := 0x0 },
  { scope := .device, off := 0x70020, stride := 0, count := 1, rw := 0x0, w1c := 0x0, rc := 0x0, wo := 0x0, sl := 0x0, ro := 0xFFFFFFFF, reset := 0x0 },
  { scope := .device, off := 0x70024, stride := 0, count := 1, rw := 0x0, w1c := 0x0, rc := 0x0, wo := 0x0, sl := 0x0, ro := 0xFFFFFFFF, reset := 0x0 },
  { scope := .device, off := 0x70028, stride := 0, count := 1, rw := 0x0, w1c := 0x0, rc := 0x0, wo := 0x0, sl := 0x0, ro := 0x1, reset := 0x0 },
  { scope := .device, off := 0x70030, stride := 0, count := 1, rw := 0xFFFFFFFF, w1c := 0x0, rc := 0x0, wo := 0x0, sl := 0x0, ro := 0x0, reset := 0x0 },
  { scope := .device, off := 0x70034, stride := 0, count := 1, rw := 0x0, w1c := 0x0, rc := 0x0, wo := 0x0, sl := 0x0, ro := 0xFFFFFFFF, reset := 0x0 },
  { scope := .device, off := 0x70038, stride := 0, count := 1, rw := 0x0, w1c := 0x0, rc := 0xFFFFFFFF, wo := 0x0, sl := 0x0, ro := 0x0, reset := 0x0 },
  { scope := .device, off := 0x70040, stride := 0, count := 1, rw := 0x0, w1c := 0x0, rc := 0x0, wo := 0x0, sl := 0x7FFF, ro := 0x0, reset := 0x0 },
  { scope := .device, off := 0x70044, stride := 0, count := 1, rw := 0x0, w1c := 0x0, rc := 0x0, wo := 0x0, sl := 0x7FFF, ro := 0x0, reset := 0x0 },
  { scope := .device, off := 0x70048, stride := 0, count := 1, rw := 0x0, w1c := 0x0, rc := 0x0, wo := 0x0, sl := 0x7FFF, ro := 0x0, reset := 0x0 },
  { scope := .device, off := 0x7004C, stride := 0, count := 1, rw := 0x0, w1c := 0x0, rc := 0x0, wo := 0x0, sl := 0x7FFF, ro := 0x0, reset := 0x0 },
  { scope := .device, off := 0x70050, stride := 0, count := 1, rw := 0x0, w1c := 0x0, rc := 0x0, wo := 0x0, sl := 0x7FFF, ro := 0x0, reset := 0x0 },
  { scope := .device, off := 0x70054, stride := 0, count := 1, rw := 0x0, w1c := 0x0, rc := 0x0, wo := 0x0, sl := 0x7FFF, ro := 0x0, reset := 0x0 },
  { scope := .device, off := 0x70060, stride := 0, count := 1, rw := 0x3FF07FF, w1c := 0x0, rc := 0x0, wo := 0x0, sl := 0x0, ro := 0x0, reset := 0x0 },
  { scope := .device, off := 0x70064, stride := 0, count := 1, rw := 0x0, w1c := 0x0, rc := 0x0, wo := 0x0, sl := 0x0, ro := 0x3FF000F, reset := 0x0 },
  { scope := .device, off := 0x70068, stride := 0, count := 1, rw := 0x0, w1c := 0x0, rc := 0x0, wo := 0x0, sl := 0x0, ro := 0x800001FF, reset := 0x0 },
  { scope := .device, off := 0x80000, stride := 0, count := 1, rw := 0x0, w1c := 0x0, rc := 0x0, wo := 0x3, sl := 0x0, ro := 0x0, reset := 0x0 },
  { scope := .device, off := 0x80004, stride := 0, count := 1, rw := 0x4, w1c := 0x0, rc := 0x0, wo := 0x0, sl := 0x3, ro := 0x0, reset := 0x3 },
  { scope := .device, off := 0x80008, stride := 0, count := 1, rw := 0x0, w1c := 0x0, rc := 0x0, wo := 0x0, sl := 0x0, ro := 0x700F7, reset := 0x4 },
  { scope := .device, off := 0x8000C, stride := 0, count := 1, rw := 0x0, w1c := 0x0, rc := 0x0, wo := 0x0, sl := 0xFFFFFFFF, ro := 0x0, reset := 0x2B33099A },
  { scope := .device, off := 0x80010, stride := 0, count := 1, rw := 0x0, w1c := 0x0, rc := 0x0, wo := 0x0, sl := 0x0, ro := 0xFFFFFFFF, reset := 0x0 } ]

/-- The single registers of the device blocks. Part 3. -/
def regRowsDevice3 : List RegRow := [
  { scope := .device, off := 0x80014, stride := 0, count := 1, rw := 0x0, w1c := 0x0, rc := 0x0, wo := 0x0, sl := 0x0, ro := 0xFFFFFFFF, reset := 0x0 },
  { scope := .device, off := 0x80018, stride := 0, count := 1, rw := 0x0, w1c := 0x0, rc := 0x0, wo := 0x0, sl := 0x0, ro := 0x3FFFFFFF, reset := 0x0 },
  { scope := .device, off := 0x8001C, stride := 0, count := 1, rw := 0x0, w1c := 0x0, rc := 0x0, wo := 0x0, sl := 0x0, ro := 0xFFFFFFFF, reset := 0x0 },
  { scope := .device, off := 0x80020, stride := 0, count := 1, rw := 0x0, w1c := 0xF, rc := 0x0, wo := 0x0, sl := 0x0, ro := 0x0, reset := 0x0 },
  { scope := .device, off := 0x80024, stride := 0, count := 1, rw := 0x0, w1c := 0x0, rc := 0xFFFFFFFF, wo := 0x0, sl := 0x0, ro := 0x0, reset := 0x0 },
  { scope := .device, off := 0x90000, stride := 0, count := 1, rw := 0x0, w1c := 0x0, rc := 0x0, wo := 0x0, sl := 0x0, ro := 0x3F, reset := 0x0 },
  { scope := .device, off := 0x90004, stride := 0, count := 1, rw := 0x0, w1c := 0x0, rc := 0x0, wo := 0x0, sl := 0xFFFF03FF, ro := 0x0, reset := 0x695F00FF },
  { scope := .device, off := 0x90008, stride := 0, count := 1, rw := 0x0, w1c := 0x7, rc := 0x0, wo := 0x0, sl := 0x0, ro := 0x0, reset := 0x0 },
  { scope := .device, off := 0x9000C, stride := 0, count := 1, rw := 0x0, w1c := 0x0, rc := 0xFFFFFF, wo := 0x0, sl := 0x0, ro := 0x0, reset := 0x0 },
  { scope := .device, off := 0x90010, stride := 0, count := 1, rw := 0x0, w1c := 0x0, rc := 0x0, wo := 0x0, sl := 0x0, ro := 0xFFFFFFFF, reset := 0x0 },
  { scope := .device, off := 0x90014, stride := 0, count := 1, rw := 0x0, w1c := 0x0, rc := 0x0, wo := 0x0, sl := 0x0, ro := 0xFFFFFFFF, reset := 0x0 },
  { scope := .device, off := 0x90018, stride := 0, count := 1, rw := 0x0, w1c := 0x0, rc := 0x0, wo := 0x0, sl := 0x0, ro := 0xFFFFFFFF, reset := 0x0 },
  { scope := .device, off := 0x9001C, stride := 0, count := 1, rw := 0x0, w1c := 0x0, rc := 0x0, wo := 0x0, sl := 0x0, ro := 0xFFFF, reset := 0x0 },
  { scope := .device, off := 0x90020, stride := 0, count := 1, rw := 0x0, w1c := 0x0, rc := 0x0, wo := 0x0, sl := 0x0, ro := 0x3FFFFF, reset := 0x0 },
  { scope := .device, off := 0xA0100, stride := 0, count := 1, rw := 0x0, w1c := 0x0, rc := 0x0, wo := 0x0, sl := 0x0, ro := 0xFFFFF, reset := 0x0 },
  { scope := .device, off := 0xA0104, stride := 0, count := 1, rw := 0x0, w1c := 0x0, rc := 0x0, wo := 0x0, sl := 0x0, ro := 0x3FF1FFF, reset := 0x0 },
  { scope := .device, off := 0xA0108, stride := 0, count := 1, rw := 0x0, w1c := 0x0, rc := 0x0, wo := 0x0, sl := 0x0, ro := 0xFFFF, reset := 0x0 },
  { scope := .device, off := 0xA010C, stride := 0, count := 1, rw := 0x0, w1c := 0x0, rc := 0x0, wo := 0x0, sl := 0x0, ro := 0xFFFFFFFF, reset := 0x0 },
  { scope := .device, off := 0xA0110, stride := 0, count := 1, rw := 0x0, w1c := 0x0, rc := 0x0, wo := 0x0, sl := 0x0, ro := 0xFFFFFFFF, reset := 0x0 },
  { scope := .device, off := 0xA0114, stride := 0, count := 1, rw := 0x0, w1c := 0x0, rc := 0x0, wo := 0x0, sl := 0x0, ro := 0xFFFFFFFF, reset := 0x0 },
  { scope := .device, off := 0xA1000, stride := 0, count := 1, rw := 0xFFFFFFFF, w1c := 0x0, rc := 0x0, wo := 0x0, sl := 0x0, ro := 0x0, reset := 0x0 },
  { scope := .device, off := 0xA1004, stride := 0, count := 1, rw := 0xFFFFFFFF, w1c := 0x0, rc := 0x0, wo := 0x0, sl := 0x0, ro := 0x0, reset := 0x0 },
  { scope := .device, off := 0xA1008, stride := 0, count := 1, rw := 0xFFFFFFFF, w1c := 0x0, rc := 0x0, wo := 0x0, sl := 0x0, ro := 0x0, reset := 0x0 },
  { scope := .device, off := 0xA100C, stride := 0, count := 1, rw := 0xFFFFFFFF, w1c := 0x0, rc := 0x0, wo := 0x0, sl := 0x0, ro := 0x0, reset := 0x0 },
  { scope := .device, off := 0xA1010, stride := 0, count := 1, rw := 0x1771F1F, w1c := 0x0, rc := 0x0, wo := 0x0, sl := 0x0, ro := 0x0, reset := 0x0 },
  { scope := .device, off := 0xA1014, stride := 0, count := 1, rw := 0xFF, w1c := 0x0, rc := 0x0, wo := 0x0, sl := 0x0, ro := 0x0, reset := 0x0 },
  { scope := .device, off := 0xA1018, stride := 0, count := 1, rw := 0xFFFF, w1c := 0x0, rc := 0x0, wo := 0x0, sl := 0x0, ro := 0x0, reset := 0x0 },
  { scope := .device, off := 0xA101C, stride := 0, count := 1, rw := 0x0, w1c := 0x0, rc := 0x0, wo := 0x8000007F, sl := 0x0, ro := 0x40000000, reset := 0x0 },
  { scope := .device, off := 0xA1020, stride := 0, count := 1, rw := 0x0, w1c := 0x3, rc := 0x0, wo := 0x0, sl := 0x0, ro := 0x0, reset := 0x0 },
  { scope := .device, off := 0xA1024, stride := 0, count := 1, rw := 0x0, w1c := 0x0, rc := 0xFFFF, wo := 0x0, sl := 0x0, ro := 0x0, reset := 0x0 },
  { scope := .device, off := 0xA1028, stride := 0, count := 1, rw := 0x0, w1c := 0x0, rc := 0x0, wo := 0x0, sl := 0x0, ro := 0xFFFFFFFF, reset := 0x0 },
  { scope := .device, off := 0xA102C, stride := 0, count := 1, rw := 0x0, w1c := 0x0, rc := 0x0, wo := 0x0, sl := 0x0, ro := 0xFFFFFFFF, reset := 0x0 },
  { scope := .device, off := 0xA1030, stride := 0, count := 1, rw := 0x0, w1c := 0x0, rc := 0x0, wo := 0x0, sl := 0x0, ro := 0xFFFFFFFF, reset := 0x0 },
  { scope := .device, off := 0xA1034, stride := 0, count := 1, rw := 0x0, w1c := 0x0, rc := 0x0, wo := 0x0, sl := 0x0, ro := 0xFFFFFFFF, reset := 0x0 },
  { scope := .device, off := 0xA1038, stride := 0, count := 1, rw := 0x0, w1c := 0x0, rc := 0x0, wo := 0x0, sl := 0x0, ro := 0xFFFFFFFF, reset := 0x0 },
  { scope := .device, off := 0xA103C, stride := 0, count := 1, rw := 0x0, w1c := 0x0, rc := 0x0, wo := 0x0, sl := 0x0, ro := 0xFFFFFFFF, reset := 0x0 } ]

/-- The single registers of the device blocks. -/
def regRowsDevice : List RegRow := regRowsDevice0 ++ regRowsDevice1 ++ regRowsDevice2 ++ regRowsDevice3

/-- The register arrays of the device blocks. Part 0. -/
def regRowsArray0 : List RegRow := [
  { scope := .device, off := 0x30400, stride := 4, count := 80, rw := 0x0, w1c := 0x0, rc := 0x0, wo := 0x0, sl := 0xBFBFBFBF, ro := 0x0, reset := 0x0 },
  { scope := .device, off := 0x40080, stride := 4, count := 32, rw := 0xFFFFFFFF, w1c := 0x0, rc := 0x0, wo := 0x0, sl := 0x0, ro := 0x0, reset := 0x0 },
  { scope := .device, off := 0x41000, stride := 32, count := 64, rw := 0x0, w1c := 0x0, rc := 0x0, wo := 0x0, sl := 0x0, ro := 0x800003FF, reset := 0x0 },
  { scope := .device, off := 0x41004, stride := 32, count := 64, rw := 0x0, w1c := 0x0, rc := 0x0, wo := 0x0, sl := 0x0, ro := 0xFFFFFFFF, reset := 0x0 },
  { scope := .device, off := 0x41008, stride := 32, count := 64, rw := 0x0, w1c := 0x0, rc := 0x0, wo := 0x0, sl := 0x0, ro := 0xFFFFFFFF, reset := 0x0 },
  { scope := .device, off := 0x4100C, stride := 32, count := 64, rw := 0x0, w1c := 0x0, rc := 0x0, wo := 0x0, sl := 0x0, ro := 0xFFFFFFFF, reset := 0x0 },
  { scope := .device, off := 0x41010, stride := 32, count := 64, rw := 0x0, w1c := 0x0, rc := 0x0, wo := 0x0, sl := 0x0, ro := 0xFFFFFFFF, reset := 0x0 },
  { scope := .device, off := 0x41014, stride := 32, count := 64, rw := 0x0, w1c := 0x0, rc := 0x0, wo := 0x0, sl := 0x0, ro := 0xFFFFFFFF, reset := 0x0 },
  { scope := .device, off := 0x41018, stride := 32, count := 64, rw := 0x0, w1c := 0x0, rc := 0x0, wo := 0x0, sl := 0x0, ro := 0xFFFFFFFF, reset := 0x0 },
  { scope := .device, off := 0x4101C, stride := 32, count := 64, rw := 0x0, w1c := 0x0, rc := 0x0, wo := 0x0, sl := 0x0, ro := 0x0, reset := 0x0 },
  { scope := .device, off := 0x41800, stride := 8, count := 64, rw := 0x0, w1c := 0x0, rc := 0x0, wo := 0x0, sl := 0x0, ro := 0xFFFFFFFF, reset := 0x0 },
  { scope := .device, off := 0x41804, stride := 8, count := 64, rw := 0x0, w1c := 0x0, rc := 0x0, wo := 0x0, sl := 0x0, ro := 0xFFFFFFFF, reset := 0x0 },
  { scope := .device, off := 0x50040, stride := 4, count := 8, rw := 0x0, w1c := 0x0, rc := 0x0, wo := 0x0, sl := 0x0, ro := 0xFFFFFFFF, reset := 0x0 },
  { scope := .device, off := 0x58000, stride := 4, count := 8192, rw := 0x0, w1c := 0x0, rc := 0x0, wo := 0x0, sl := 0x0, ro := 0xFFFFFFFF, reset := 0xFFFFFFFF },
  { scope := .device, off := 0x60100, stride := 4, count := 512, rw := 0x0, w1c := 0x0, rc := 0x0, wo := 0x0, sl := 0x0, ro := 0x3F, reset := 0x0 },
  { scope := .device, off := 0x81000, stride := 8, count := 512, rw := 0x0, w1c := 0x0, rc := 0x0, wo := 0x0, sl := 0x0, ro := 0xFFFF0F03, reset := 0x0 },
  { scope := .device, off := 0x81004, stride := 8, count := 512, rw := 0x0, w1c := 0x0, rc := 0x0, wo := 0x0, sl := 0x0, ro := 0xFFFFFF, reset := 0x0 },
  { scope := .device, off := 0x82000, stride := 4, count := 512, rw := 0x0, w1c := 0x0, rc := 0x0, wo := 0x0, sl := 0x0, ro := 0xFFFF, reset := 0xFFFF },
  { scope := .device, off := 0x90100, stride := 4, count := 64, rw := 0x0, w1c := 0x0, rc := 0x0, wo := 0x0, sl := 0x0, ro := 0x8000FFFF, reset := 0x0 },
  { scope := .device, off := 0xA1400, stride := 16, count := 64, rw := 0x0, w1c := 0x0, rc := 0x0, wo := 0x0, sl := 0x0, ro := 0xFFFFFFFF, reset := 0x0 },
  { scope := .device, off := 0xA1404, stride := 16, count := 64, rw := 0x0, w1c := 0x0, rc := 0x0, wo := 0x0, sl := 0x0, ro := 0xFFFFFFFF, reset := 0x0 },
  { scope := .device, off := 0xA1408, stride := 16, count := 64, rw := 0x0, w1c := 0x0, rc := 0x0, wo := 0x0, sl := 0x0, ro := 0x3FFF3FFF, reset := 0x0 },
  { scope := .device, off := 0xA140C, stride := 16, count := 64, rw := 0x0, w1c := 0x0, rc := 0x0, wo := 0x0, sl := 0x0, ro := 0xF, reset := 0x0 },
  { scope := .device, off := 0xA1800, stride := 4, count := 512, rw := 0x0, w1c := 0x0, rc := 0x0, wo := 0x0, sl := 0x0, ro := 0xFFFFFFFF, reset := 0x0 } ]

/-- The register arrays of the device blocks. -/
def regRowsArray : List RegRow := regRowsArray0

/-- The registers of each cluster space; those of scope `seq` also lie in the MSEQ block. Part 0. -/
def regRowsCluster0 : List RegRow := [
  { scope := .seq, off := 0x0, stride := 0, count := 1, rw := 0x0, w1c := 0x0, rc := 0x0, wo := 0x0, sl := 0x0, ro := 0x9F0F3FFF, reset := 0x0 },
  { scope := .seq, off := 0x4, stride := 0, count := 1, rw := 0x0, w1c := 0xF, rc := 0x0, wo := 0x0, sl := 0x0, ro := 0x0, reset := 0x0 },
  { scope := .seq, off := 0x8, stride := 0, count := 1, rw := 0x0, w1c := 0x0, rc := 0xFFFFFFFF, wo := 0x0, sl := 0x0, ro := 0x0, reset := 0x0 },
  { scope := .seq, off := 0xC, stride := 0, count := 1, rw := 0x0, w1c := 0x0, rc := 0x0, wo := 0x0, sl := 0x0, ro := 0xFF003FFF, reset := 0x0 },
  { scope := .seq, off := 0x10, stride := 0, count := 1, rw := 0x0, w1c := 0x0, rc := 0x0, wo := 0x0, sl := 0x0, ro := 0x1FFFFFF, reset := 0x0 },
  { scope := .seq, off := 0x20, stride := 0, count := 1, rw := 0x0, w1c := 0x0, rc := 0x0, wo := 0x0, sl := 0x0, ro := 0xFFFFFF, reset := 0x0 },
  { scope := .seq, off := 0x24, stride := 0, count := 1, rw := 0x0, w1c := 0x0, rc := 0x0, wo := 0x0, sl := 0x0, ro := 0xFFFFFF, reset := 0x0 },
  { scope := .seq, off := 0x28, stride := 0, count := 1, rw := 0x0, w1c := 0x0, rc := 0x0, wo := 0x0, sl := 0x0, ro := 0xFFFFFF, reset := 0x0 },
  { scope := .seq, off := 0x2C, stride := 0, count := 1, rw := 0x0, w1c := 0x0, rc := 0x0, wo := 0x0, sl := 0x0, ro := 0xFFFFFF, reset := 0x0 },
  { scope := .cluster, off := 0x30, stride := 0, count := 1, rw := 0x0, w1c := 0x0, rc := 0x0, wo := 0x0, sl := 0x0, ro := 0xFFFFFFFF, reset := 0x0 },
  { scope := .cluster, off := 0x34, stride := 0, count := 1, rw := 0x0, w1c := 0x0, rc := 0x0, wo := 0x0, sl := 0x0, ro := 0xFFFF000F, reset := 0x0 },
  { scope := .cluster, off := 0x40, stride := 0, count := 1, rw := 0xFFFFFFFF, w1c := 0x0, rc := 0x0, wo := 0x0, sl := 0x0, ro := 0x0, reset := 0x0 },
  { scope := .cluster, off := 0x44, stride := 0, count := 1, rw := 0xFFFFFFFF, w1c := 0x0, rc := 0x0, wo := 0x0, sl := 0x0, ro := 0x0, reset := 0x0 },
  { scope := .cluster, off := 0x48, stride := 0, count := 1, rw := 0xFFFFFFFF, w1c := 0x0, rc := 0x0, wo := 0x0, sl := 0x0, ro := 0x0, reset := 0x0 },
  { scope := .cluster, off := 0x4C, stride := 0, count := 1, rw := 0xFFFFFFFF, w1c := 0x0, rc := 0x0, wo := 0x0, sl := 0x0, ro := 0x0, reset := 0x0 },
  { scope := .cluster, off := 0x50, stride := 0, count := 1, rw := 0xFFFFFFFF, w1c := 0x0, rc := 0x0, wo := 0x0, sl := 0x0, ro := 0x0, reset := 0x76543210 },
  { scope := .cluster, off := 0x54, stride := 0, count := 1, rw := 0xFFFFFFFF, w1c := 0x0, rc := 0x0, wo := 0x0, sl := 0x0, ro := 0x0, reset := 0xFEDCBA98 },
  { scope := .cluster, off := 0x58, stride := 0, count := 1, rw := 0xFFFFFFFF, w1c := 0x0, rc := 0x0, wo := 0x0, sl := 0x0, ro := 0x0, reset := 0x76543210 },
  { scope := .cluster, off := 0x5C, stride := 0, count := 1, rw := 0xFFFFFFFF, w1c := 0x0, rc := 0x0, wo := 0x0, sl := 0x0, ro := 0x0, reset := 0xFEDCBA98 },
  { scope := .cluster, off := 0x60, stride := 0, count := 1, rw := 0xFFFF, w1c := 0x0, rc := 0x0, wo := 0x0, sl := 0x0, ro := 0x0, reset := 0x0 },
  { scope := .seq, off := 0x64, stride := 0, count := 1, rw := 0x0, w1c := 0x0, rc := 0x0, wo := 0x0, sl := 0x0, ro := 0xBFFFBFFF, reset := 0x0 },
  { scope := .seq, off := 0x68, stride := 0, count := 1, rw := 0x0, w1c := 0x0, rc := 0x0, wo := 0x0, sl := 0xFFFF, ro := 0x0, reset := 0x400 },
  { scope := .seq, off := 0x6C, stride := 0, count := 1, rw := 0x0, w1c := 0x0, rc := 0xFFFF, wo := 0x0, sl := 0x0, ro := 0x0, reset := 0x0 },
  { scope := .seq, off := 0x70, stride := 0, count := 1, rw := 0x0, w1c := 0x0, rc := 0x0, wo := 0x0, sl := 0x0, ro := 0x1F, reset := 0x0 },
  { scope := .seq, off := 0x74, stride := 0, count := 1, rw := 0x0, w1c := 0x0, rc := 0x0, wo := 0x0, sl := 0x0, ro := 0x7FF, reset := 0x0 },
  { scope := .seq, off := 0x78, stride := 0, count := 1, rw := 0x0, w1c := 0x0, rc := 0x0, wo := 0x0, sl := 0x0, ro := 0xFFFFFFFF, reset := 0x0 },
  { scope := .seq, off := 0x7C, stride := 0, count := 1, rw := 0x0, w1c := 0x0, rc := 0x0, wo := 0x0, sl := 0x0, ro := 0xFFFFFFFF, reset := 0x0 },
  { scope := .seq, off := 0x80, stride := 0, count := 1, rw := 0x0, w1c := 0x0, rc := 0x0, wo := 0x0, sl := 0x0, ro := 0x3F0FFF, reset := 0x0 },
  { scope := .cluster, off := 0x100, stride := 0, count := 1, rw := 0x0, w1c := 0x0, rc := 0x0, wo := 0x0, sl := 0x0, ro := 0x7FFF, reset := 0x0 },
  { scope := .cluster, off := 0x104, stride := 0, count := 1, rw := 0x0, w1c := 0x0, rc := 0x0, wo := 0x0, sl := 0x0, ro := 0xFFFFFF, reset := 0x0 },
  { scope := .cluster, off := 0x108, stride := 0, count := 1, rw := 0x0, w1c := 0x0, rc := 0x0, wo := 0x0, sl := 0x0, ro := 0x80000FFF, reset := 0x0 },
  { scope := .cluster, off := 0x10C, stride := 0, count := 1, rw := 0x0, w1c := 0x0, rc := 0xFFFFFFFF, wo := 0x0, sl := 0x0, ro := 0x0, reset := 0x0 },
  { scope := .cluster, off := 0x110, stride := 0, count := 1, rw := 0x0, w1c := 0xF, rc := 0x0, wo := 0x0, sl := 0x0, ro := 0x0, reset := 0x0 },
  { scope := .cluster, off := 0x114, stride := 0, count := 1, rw := 0x0, w1c := 0x0, rc := 0xFFFFFFFF, wo := 0x0, sl := 0x0, ro := 0x0, reset := 0x0 },
  { scope := .cluster, off := 0x118, stride := 0, count := 1, rw := 0x0, w1c := 0x0, rc := 0x0, wo := 0x0, sl := 0x0, ro := 0xFFFFFFFF, reset := 0x0 },
  { scope := .cluster, off := 0x11C, stride := 0, count := 1, rw := 0x0, w1c := 0x0, rc := 0x0, wo := 0x0, sl := 0x0, ro := 0xFFFFFFFF, reset := 0x0 },
  { scope := .cluster, off := 0x120, stride := 0, count := 1, rw := 0x0, w1c := 0x0, rc := 0x0, wo := 0x0, sl := 0x0, ro := 0xFFFF, reset := 0x0 },
  { scope := .cluster, off := 0x124, stride := 0, count := 1, rw := 0x0, w1c := 0x0, rc := 0x0, wo := 0x0, sl := 0x0, ro := 0xFFFFFFFF, reset := 0x0 },
  { scope := .cluster, off := 0x128, stride := 0, count := 1, rw := 0x0, w1c := 0x0, rc := 0x0, wo := 0x0, sl := 0x0, ro := 0xFFFF, reset := 0x0 },
  { scope := .cluster, off := 0x12C, stride := 0, count := 1, rw := 0x3FFFFFF, w1c := 0x0, rc := 0x0, wo := 0x0, sl := 0x0, ro := 0x0, reset := 0x0 } ]

/-- The registers of each cluster space; those of scope `seq` also lie in the MSEQ block. Part 1. -/
def regRowsCluster1 : List RegRow := [
  { scope := .cluster, off := 0x130, stride := 0, count := 1, rw := 0x1FF, w1c := 0x0, rc := 0x0, wo := 0x0, sl := 0x0, ro := 0x0, reset := 0x0 },
  { scope := .cluster, off := 0x134, stride := 0, count := 1, rw := 0x0, w1c := 0x0, rc := 0x0, wo := 0x1FF, sl := 0x0, ro := 0x1FF0000, reset := 0x0 },
  { scope := .cluster, off := 0x138, stride := 0, count := 1, rw := 0x0, w1c := 0x0, rc := 0x0, wo := 0x0, sl := 0x0, ro := 0xFFFF, reset := 0x0 },
  { scope := .cluster, off := 0x13C, stride := 0, count := 1, rw := 0x0, w1c := 0x0, rc := 0x0, wo := 0x0, sl := 0x0, ro := 0xFFF0FFF, reset := 0x0 },
  { scope := .cluster, off := 0x300, stride := 0, count := 1, rw := 0x0, w1c := 0x0, rc := 0x0, wo := 0x0, sl := 0x0, ro := 0xFFFFFFFF, reset := 0x0 },
  { scope := .cluster, off := 0x304, stride := 0, count := 1, rw := 0x0, w1c := 0x0, rc := 0x0, wo := 0x0, sl := 0x0, ro := 0xFFFFFFFF, reset := 0x0 },
  { scope := .cluster, off := 0x308, stride := 0, count := 1, rw := 0x0, w1c := 0x0, rc := 0x0, wo := 0x0, sl := 0x0, ro := 0xFFFFFFFF, reset := 0x0 },
  { scope := .cluster, off := 0x30C, stride := 0, count := 1, rw := 0x0, w1c := 0x0, rc := 0x0, wo := 0x0, sl := 0x0, ro := 0xFFFFFFFF, reset := 0x0 },
  { scope := .cluster, off := 0x310, stride := 0, count := 1, rw := 0x0, w1c := 0x0, rc := 0x0, wo := 0x0, sl := 0x0, ro := 0xFF003F0F, reset := 0x0 },
  { scope := .cluster, off := 0x400, stride := 0, count := 1, rw := 0x0, w1c := 0x0, rc := 0x0, wo := 0x1, sl := 0x0, ro := 0x0, reset := 0x0 },
  { scope := .cluster, off := 0x404, stride := 0, count := 1, rw := 0x0, w1c := 0x0, rc := 0x0, wo := 0x0, sl := 0x0, ro := 0xFFFFFFFF, reset := 0x0 },
  { scope := .cluster, off := 0x408, stride := 0, count := 1, rw := 0x0, w1c := 0x3, rc := 0x0, wo := 0x0, sl := 0x0, ro := 0x0, reset := 0x0 },
  { scope := .cluster, off := 0x40C, stride := 0, count := 1, rw := 0x0, w1c := 0x0, rc := 0xFFFF, wo := 0x0, sl := 0x0, ro := 0x0, reset := 0x0 },
  { scope := .cluster, off := 0x410, stride := 0, count := 1, rw := 0xFFFF0F0F, w1c := 0x0, rc := 0x0, wo := 0x1000, sl := 0x0, ro := 0x8000, reset := 0x100000 },
  { scope := .cluster, off := 0x414, stride := 0, count := 1, rw := 0x0, w1c := 0x0, rc := 0x80000000, wo := 0x0, sl := 0x0, ro := 0x7F3FFF, reset := 0x0 },
  { scope := .cluster, off := 0x418, stride := 0, count := 1, rw := 0x0, w1c := 0x0, rc := 0x0, wo := 0x0, sl := 0x0, ro := 0xFFFF, reset := 0x0 },
  { scope := .cluster, off := 0x500, stride := 0, count := 1, rw := 0x1, w1c := 0x0, rc := 0x0, wo := 0x0, sl := 0x0, ro := 0x0, reset := 0x0 },
  { scope := .cluster, off := 0x504, stride := 0, count := 1, rw := 0xC000FFFF, w1c := 0x0, rc := 0x0, wo := 0x0, sl := 0x0, ro := 0x0, reset := 0x0 },
  { scope := .cluster, off := 0x508, stride := 0, count := 1, rw := 0x0, w1c := 0x0, rc := 0x0, wo := 0x0, sl := 0x0, ro := 0x7, reset := 0x4 },
  { scope := .cluster, off := 0x50C, stride := 0, count := 1, rw := 0x0, w1c := 0x0, rc := 0x0, wo := 0x0, sl := 0x0, ro := 0xFFFFFFFF, reset := 0x0 },
  { scope := .cluster, off := 0x510, stride := 0, count := 1, rw := 0x0, w1c := 0x0, rc := 0x0, wo := 0x0, sl := 0x0, ro := 0xFFFFFFFF, reset := 0x0 },
  { scope := .cluster, off := 0x514, stride := 0, count := 1, rw := 0x0, w1c := 0x0, rc := 0x0, wo := 0x0, sl := 0x0, ro := 0x7FF07FF, reset := 0x0 },
  { scope := .cluster, off := 0x518, stride := 0, count := 1, rw := 0x0, w1c := 0x7, rc := 0x0, wo := 0x0, sl := 0x0, ro := 0x0, reset := 0x0 },
  { scope := .cluster, off := 0x51C, stride := 0, count := 1, rw := 0x0, w1c := 0x0, rc := 0xFFFFFF, wo := 0x0, sl := 0x0, ro := 0x0, reset := 0x0 },
  { scope := .cluster, off := 0x600, stride := 0, count := 1, rw := 0x0, w1c := 0x0, rc := 0x0, wo := 0xFFFF, sl := 0x0, ro := 0x0, reset := 0x0 },
  { scope := .cluster, off := 0x700, stride := 0, count := 1, rw := 0x0, w1c := 0x0, rc := 0x0, wo := 0x7, sl := 0x0, ro := 0x0, reset := 0x0 },
  { scope := .cluster, off := 0x704, stride := 0, count := 1, rw := 0x3, w1c := 0x0, rc := 0x0, wo := 0x0, sl := 0x0, ro := 0x0, reset := 0x0 },
  { scope := .cluster, off := 0x708, stride := 0, count := 1, rw := 0xFFFF, w1c := 0x0, rc := 0x0, wo := 0x0, sl := 0x0, ro := 0x0, reset := 0x0 },
  { scope := .cluster, off := 0x70C, stride := 0, count := 1, rw := 0xFFFFFFFF, w1c := 0x0, rc := 0x0, wo := 0x0, sl := 0x0, ro := 0x0, reset := 0x0 },
  { scope := .cluster, off := 0x710, stride := 0, count := 1, rw := 0xFFFF, w1c := 0x0, rc := 0x0, wo := 0x0, sl := 0x0, ro := 0x0, reset := 0x0 },
  { scope := .cluster, off := 0x714, stride := 0, count := 1, rw := 0x3FFFFF, w1c := 0x0, rc := 0x0, wo := 0x0, sl := 0x0, ro := 0x0, reset := 0x0 },
  { scope := .cluster, off := 0x718, stride := 0, count := 1, rw := 0xFFFFFFFF, w1c := 0x0, rc := 0x0, wo := 0x0, sl := 0x0, ro := 0x0, reset := 0x0 },
  { scope := .cluster, off := 0x71C, stride := 0, count := 1, rw := 0x0, w1c := 0x0, rc := 0x0, wo := 0x0, sl := 0x0, ro := 0x13F7, reset := 0x0 },
  { scope := .cluster, off := 0x720, stride := 0, count := 1, rw := 0x0, w1c := 0x0, rc := 0x0, wo := 0x0, sl := 0x0, ro := 0xFFFFFFFF, reset := 0x0 },
  { scope := .cluster, off := 0x724, stride := 0, count := 1, rw := 0x0, w1c := 0x0, rc := 0x0, wo := 0x0, sl := 0x0, ro := 0xFFFFFFFF, reset := 0x0 },
  { scope := .cluster, off := 0x728, stride := 0, count := 1, rw := 0x0, w1c := 0x0, rc := 0x0, wo := 0x0, sl := 0x0, ro := 0xFFFFFFFF, reset := 0x0 },
  { scope := .cluster, off := 0x72C, stride := 0, count := 1, rw := 0x0, w1c := 0x0, rc := 0x0, wo := 0x0, sl := 0x0, ro := 0xFFFFFFFF, reset := 0x0 },
  { scope := .cluster, off := 0x730, stride := 0, count := 1, rw := 0x0, w1c := 0x0, rc := 0x0, wo := 0x0, sl := 0x0, ro := 0xFFFFFFFF, reset := 0x0 },
  { scope := .cluster, off := 0x734, stride := 0, count := 1, rw := 0x0, w1c := 0x0, rc := 0x0, wo := 0x0, sl := 0x0, ro := 0xFFFFFFFF, reset := 0x0 },
  { scope := .cluster, off := 0x738, stride := 0, count := 1, rw := 0x0, w1c := 0x0, rc := 0x0, wo := 0x0, sl := 0x0, ro := 0xFFFF, reset := 0x0 } ]

/-- The registers of each cluster space; those of scope `seq` also lie in the MSEQ block. Part 2. -/
def regRowsCluster2 : List RegRow := [
  { scope := .cluster, off := 0x73C, stride := 0, count := 1, rw := 0x0, w1c := 0x0, rc := 0x0, wo := 0x0, sl := 0x0, ro := 0xFFFFFFFF, reset := 0x0 },
  { scope := .cluster, off := 0x740, stride := 0, count := 1, rw := 0xFF0F0003, w1c := 0x0, rc := 0x0, wo := 0x0, sl := 0x0, ro := 0x0, reset := 0x0 },
  { scope := .cluster, off := 0x744, stride := 0, count := 1, rw := 0xFF0F0003, w1c := 0x0, rc := 0x0, wo := 0x0, sl := 0x0, ro := 0x0, reset := 0x0 },
  { scope := .cluster, off := 0x748, stride := 0, count := 1, rw := 0xFF0F0003, w1c := 0x0, rc := 0x0, wo := 0x0, sl := 0x0, ro := 0x0, reset := 0x0 },
  { scope := .cluster, off := 0x74C, stride := 0, count := 1, rw := 0xFF0F0003, w1c := 0x0, rc := 0x0, wo := 0x0, sl := 0x0, ro := 0x0, reset := 0x0 },
  { scope := .cluster, off := 0x750, stride := 0, count := 1, rw := 0xFF0F0003, w1c := 0x0, rc := 0x0, wo := 0x0, sl := 0x0, ro := 0x0, reset := 0x0 },
  { scope := .cluster, off := 0x754, stride := 0, count := 1, rw := 0xFF0F0003, w1c := 0x0, rc := 0x0, wo := 0x0, sl := 0x0, ro := 0x0, reset := 0x0 },
  { scope := .cluster, off := 0x758, stride := 0, count := 1, rw := 0xFF0F0003, w1c := 0x0, rc := 0x0, wo := 0x0, sl := 0x0, ro := 0x0, reset := 0x0 },
  { scope := .cluster, off := 0x75C, stride := 0, count := 1, rw := 0xFF0F0003, w1c := 0x0, rc := 0x0, wo := 0x0, sl := 0x0, ro := 0x0, reset := 0x0 },
  { scope := .cluster, off := 0x760, stride := 0, count := 1, rw := 0xFFFF, w1c := 0x0, rc := 0x0, wo := 0x0, sl := 0x0, ro := 0x0, reset := 0x0 },
  { scope := .cluster, off := 0x764, stride := 0, count := 1, rw := 0xFFFF, w1c := 0x0, rc := 0x0, wo := 0x0, sl := 0x0, ro := 0x0, reset := 0x0 },
  { scope := .cluster, off := 0x768, stride := 0, count := 1, rw := 0x0, w1c := 0x0, rc := 0x0, wo := 0x0, sl := 0x0, ro := 0xFFFFFFF, reset := 0x0 },
  { scope := .cluster, off := 0x76C, stride := 0, count := 1, rw := 0xFFFFFFF, w1c := 0x0, rc := 0x0, wo := 0x0, sl := 0x0, ro := 0x0, reset := 0x0 },
  { scope := .cluster, off := 0x770, stride := 0, count := 1, rw := 0x0, w1c := 0x1F, rc := 0x0, wo := 0x0, sl := 0x0, ro := 0x0, reset := 0x0 },
  { scope := .cluster, off := 0x774, stride := 0, count := 1, rw := 0x0, w1c := 0x0, rc := 0x3FFFFFFF, wo := 0x0, sl := 0x0, ro := 0x0, reset := 0x0 },
  { scope := .cluster, off := 0x800, stride := 0, count := 1, rw := 0x0, w1c := 0x0, rc := 0x0, wo := 0x0, sl := 0x0, ro := 0x1FFFF01, reset := 0x0 },
  { scope := .cluster, off := 0x804, stride := 0, count := 1, rw := 0x3FF, w1c := 0x0, rc := 0x0, wo := 0x0, sl := 0x0, ro := 0x0, reset := 0x200 },
  { scope := .cluster, off := 0x808, stride := 0, count := 1, rw := 0x30000FF, w1c := 0x0, rc := 0x0, wo := 0xC0000000, sl := 0x0, ro := 0x0, reset := 0x0 },
  { scope := .cluster, off := 0x80C, stride := 0, count := 1, rw := 0xFFFFFFFF, w1c := 0x0, rc := 0x0, wo := 0x0, sl := 0x0, ro := 0x0, reset := 0x0 },
  { scope := .cluster, off := 0x810, stride := 0, count := 1, rw := 0xFFFFFFFF, w1c := 0x0, rc := 0x0, wo := 0x0, sl := 0x0, ro := 0x0, reset := 0x0 },
  { scope := .cluster, off := 0x814, stride := 0, count := 1, rw := 0x0, w1c := 0xF, rc := 0x0, wo := 0x0, sl := 0x0, ro := 0x0, reset := 0x0 },
  { scope := .cluster, off := 0x818, stride := 0, count := 1, rw := 0x0, w1c := 0x0, rc := 0xFFFFFFFF, wo := 0x0, sl := 0x0, ro := 0x0, reset := 0x0 },
  { scope := .cluster, off := 0x81C, stride := 0, count := 1, rw := 0x0, w1c := 0x0, rc := 0x0, wo := 0x0, sl := 0x0, ro := 0xFFFFFFFF, reset := 0x0 },
  { scope := .cluster, off := 0x820, stride := 0, count := 1, rw := 0x0, w1c := 0x0, rc := 0x0, wo := 0x0, sl := 0x0, ro := 0xFFFFFFFF, reset := 0x0 },
  { scope := .cluster, off := 0x824, stride := 0, count := 1, rw := 0x0, w1c := 0x0, rc := 0x0, wo := 0x0, sl := 0x0, ro := 0xFFFF, reset := 0x0 },
  { scope := .cluster, off := 0x828, stride := 0, count := 1, rw := 0x0, w1c := 0x0, rc := 0x0, wo := 0x0, sl := 0x0, ro := 0xFFFFFFFF, reset := 0x0 },
  { scope := .cluster, off := 0x82C, stride := 0, count := 1, rw := 0x0, w1c := 0x0, rc := 0x0, wo := 0x0, sl := 0x0, ro := 0xFFFF, reset := 0x0 },
  { scope := .cluster, off := 0x200, stride := 4, count := 64, rw := 0x0, w1c := 0x0, rc := 0x0, wo := 0x0, sl := 0x0, ro := 0xFFFFFFFF, reset := 0x0 },
  { scope := .cluster, off := 0x780, stride := 16, count := 8, rw := 0xFFF, w1c := 0x0, rc := 0x0, wo := 0x0, sl := 0x0, ro := 0x0, reset := 0x0 },
  { scope := .cluster, off := 0x784, stride := 16, count := 8, rw := 0xFFFFFFFF, w1c := 0x0, rc := 0x0, wo := 0x0, sl := 0x0, ro := 0x0, reset := 0x0 },
  { scope := .cluster, off := 0x788, stride := 16, count := 8, rw := 0xFFFFFFFF, w1c := 0x0, rc := 0x0, wo := 0x0, sl := 0x0, ro := 0x0, reset := 0x1 },
  { scope := .cluster, off := 0x78C, stride := 16, count := 8, rw := 0xFFFFFFFF, w1c := 0x0, rc := 0x0, wo := 0x0, sl := 0x0, ro := 0x0, reset := 0x0 } ]

/-- The registers of each cluster space; those of scope `seq` also lie in the MSEQ block. -/
def regRowsCluster : List RegRow := regRowsCluster0 ++ regRowsCluster1 ++ regRowsCluster2

/-- The registers of each channel page. Part 0. -/
def regRowsChannel0 : List RegRow := [
  { scope := .channel, off := 0x0, stride := 0, count := 1, rw := 0x0, w1c := 0x0, rc := 0x0, wo := 0x0, sl := 0x0, ro := 0xFFFFFFFF, reset := 0x0 },
  { scope := .channel, off := 0x4, stride := 0, count := 1, rw := 0x0, w1c := 0x0, rc := 0x0, wo := 0x0, sl := 0x0, ro := 0xFFFFFFFF, reset := 0x0 },
  { scope := .channel, off := 0x8, stride := 0, count := 1, rw := 0x0, w1c := 0x0, rc := 0x0, wo := 0x0, sl := 0x0, ro := 0xFFFFFFFF, reset := 0x0 },
  { scope := .channel, off := 0xC, stride := 0, count := 1, rw := 0x0, w1c := 0x0, rc := 0x0, wo := 0x0, sl := 0x0, ro := 0xFFFFFFFF, reset := 0x0 },
  { scope := .channel, off := 0x10, stride := 0, count := 1, rw := 0x0, w1c := 0x0, rc := 0x0, wo := 0x0, sl := 0x0, ro := 0xFFFFFFFF, reset := 0x0 },
  { scope := .channel, off := 0x14, stride := 0, count := 1, rw := 0x0, w1c := 0x0, rc := 0x0, wo := 0x0, sl := 0x0, ro := 0xFFFFFFFF, reset := 0x0 },
  { scope := .channel, off := 0x18, stride := 0, count := 1, rw := 0x0, w1c := 0x0, rc := 0x0, wo := 0x0, sl := 0x0, ro := 0xFFFFFFFF, reset := 0x0 },
  { scope := .channel, off := 0x1C, stride := 0, count := 1, rw := 0x0, w1c := 0x0, rc := 0x0, wo := 0x0, sl := 0x0, ro := 0xFFFFFFFF, reset := 0x0 },
  { scope := .channel, off := 0x20, stride := 0, count := 1, rw := 0x0, w1c := 0x0, rc := 0x0, wo := 0x0, sl := 0x0, ro := 0xFFFFFFFF, reset := 0x0 },
  { scope := .channel, off := 0x24, stride := 0, count := 1, rw := 0x0, w1c := 0x0, rc := 0x0, wo := 0x0, sl := 0x0, ro := 0xFFFFFFFF, reset := 0x0 },
  { scope := .channel, off := 0x28, stride := 0, count := 1, rw := 0x0, w1c := 0x0, rc := 0x0, wo := 0x0, sl := 0x0, ro := 0xFFFFFFFF, reset := 0x0 },
  { scope := .channel, off := 0x2C, stride := 0, count := 1, rw := 0x0, w1c := 0x0, rc := 0x0, wo := 0x0, sl := 0x0, ro := 0xFFFFFFFF, reset := 0x0 },
  { scope := .channel, off := 0x30, stride := 0, count := 1, rw := 0x0, w1c := 0x0, rc := 0x0, wo := 0x0, sl := 0x0, ro := 0xFFFFFFFF, reset := 0x0 },
  { scope := .channel, off := 0x34, stride := 0, count := 1, rw := 0x0, w1c := 0x0, rc := 0x0, wo := 0x0, sl := 0x0, ro := 0xFFFFFFFF, reset := 0x0 },
  { scope := .channel, off := 0x38, stride := 0, count := 1, rw := 0x0, w1c := 0x0, rc := 0x0, wo := 0x0, sl := 0x0, ro := 0xFFFFFFFF, reset := 0x0 },
  { scope := .channel, off := 0x3C, stride := 0, count := 1, rw := 0x0, w1c := 0x0, rc := 0x0, wo := 0x0, sl := 0x0, ro := 0xFFFFFFFF, reset := 0x0 },
  { scope := .channel, off := 0x40, stride := 0, count := 1, rw := 0x0, w1c := 0x0, rc := 0x0, wo := 0x0, sl := 0x0, ro := 0xFFFFFFFF, reset := 0x0 },
  { scope := .channel, off := 0x44, stride := 0, count := 1, rw := 0x0, w1c := 0x0, rc := 0x0, wo := 0x0, sl := 0x0, ro := 0xFFFF, reset := 0x0 },
  { scope := .channel, off := 0x48, stride := 0, count := 1, rw := 0x0, w1c := 0x0, rc := 0x0, wo := 0x0, sl := 0x0, ro := 0xFFFFFFFF, reset := 0x22222222 },
  { scope := .channel, off := 0x4C, stride := 0, count := 1, rw := 0x0, w1c := 0x0, rc := 0x0, wo := 0x0, sl := 0x0, ro := 0xFFFFFFFF, reset := 0x22222222 },
  { scope := .channel, off := 0x50, stride := 0, count := 1, rw := 0x0, w1c := 0x0, rc := 0x0, wo := 0x0, sl := 0x0, ro := 0xFFFFFFFF, reset := 0x22222222 },
  { scope := .channel, off := 0x54, stride := 0, count := 1, rw := 0x0, w1c := 0x0, rc := 0x0, wo := 0x0, sl := 0x0, ro := 0xFFFFFFFF, reset := 0x22222222 },
  { scope := .channel, off := 0x58, stride := 0, count := 1, rw := 0x73F, w1c := 0x0, rc := 0x0, wo := 0x0, sl := 0x0, ro := 0x0, reset := 0x0 },
  { scope := .channel, off := 0x5C, stride := 0, count := 1, rw := 0x0, w1c := 0x0, rc := 0x0, wo := 0x0, sl := 0x0, ro := 0xFFFFFF, reset := 0x0 },
  { scope := .channel, off := 0x60, stride := 0, count := 1, rw := 0x0, w1c := 0x0, rc := 0x0, wo := 0x0, sl := 0x0, ro := 0x1FF01FF, reset := 0x0 },
  { scope := .channel, off := 0x64, stride := 0, count := 1, rw := 0x0, w1c := 0x1F, rc := 0x0, wo := 0x0, sl := 0x0, ro := 0x0, reset := 0x0 },
  { scope := .channel, off := 0x68, stride := 0, count := 1, rw := 0x0, w1c := 0x0, rc := 0x3FFFFFFF, wo := 0x0, sl := 0x0, ro := 0x0, reset := 0x0 },
  { scope := .channel, off := 0x6C, stride := 0, count := 1, rw := 0x0, w1c := 0x0, rc := 0x0, wo := 0x0, sl := 0x1, ro := 0x6, reset := 0x0 },
  { scope := .channel, off := 0x100, stride := 0, count := 1, rw := 0xFFFF, w1c := 0x0, rc := 0x0, wo := 0x0, sl := 0x0, ro := 0x0, reset := 0x3000 },
  { scope := .channel, off := 0x104, stride := 0, count := 1, rw := 0xFFFF, w1c := 0x0, rc := 0x0, wo := 0x0, sl := 0x0, ro := 0x0, reset := 0x3000 },
  { scope := .channel, off := 0x108, stride := 0, count := 1, rw := 0xFFFF, w1c := 0x0, rc := 0x0, wo := 0x0, sl := 0x0, ro := 0x0, reset := 0x3000 },
  { scope := .channel, off := 0x10C, stride := 0, count := 1, rw := 0xFFFF, w1c := 0x0, rc := 0x0, wo := 0x0, sl := 0x0, ro := 0x0, reset := 0x3000 },
  { scope := .channel, off := 0x110, stride := 0, count := 1, rw := 0xFFFF, w1c := 0x0, rc := 0x0, wo := 0x0, sl := 0x0, ro := 0x0, reset := 0x3000 },
  { scope := .channel, off := 0x114, stride := 0, count := 1, rw := 0xFFFFFFFF, w1c := 0x0, rc := 0x0, wo := 0x0, sl := 0x0, ro := 0x0, reset := 0x0 },
  { scope := .channel, off := 0x118, stride := 0, count := 1, rw := 0x1FFF, w1c := 0x0, rc := 0x0, wo := 0x0, sl := 0x0, ro := 0x0, reset := 0x0 },
  { scope := .channel, off := 0x11C, stride := 0, count := 1, rw := 0xFFFFFFFF, w1c := 0x0, rc := 0x0, wo := 0x0, sl := 0x0, ro := 0x0, reset := 0x0 },
  { scope := .channel, off := 0x120, stride := 0, count := 1, rw := 0xFFFFFFFF, w1c := 0x0, rc := 0x0, wo := 0x0, sl := 0x0, ro := 0x0, reset := 0x0 },
  { scope := .channel, off := 0x124, stride := 0, count := 1, rw := 0xFFFFFFFF, w1c := 0x0, rc := 0x0, wo := 0x0, sl := 0x0, ro := 0x0, reset := 0x0 },
  { scope := .channel, off := 0x140, stride := 0, count := 1, rw := 0x0, w1c := 0x0, rc := 0x0, wo := 0x0, sl := 0x0, ro := 0xFFFF, reset := 0x3000 },
  { scope := .channel, off := 0x144, stride := 0, count := 1, rw := 0x0, w1c := 0x0, rc := 0x0, wo := 0x0, sl := 0x0, ro := 0xFFFF, reset := 0x3000 } ]

/-- The registers of each channel page. Part 1. -/
def regRowsChannel1 : List RegRow := [
  { scope := .channel, off := 0x148, stride := 0, count := 1, rw := 0x0, w1c := 0x0, rc := 0x0, wo := 0x0, sl := 0x0, ro := 0xFFFF, reset := 0x3000 },
  { scope := .channel, off := 0x14C, stride := 0, count := 1, rw := 0x0, w1c := 0x0, rc := 0x0, wo := 0x0, sl := 0x0, ro := 0xFFFF, reset := 0x3000 },
  { scope := .channel, off := 0x150, stride := 0, count := 1, rw := 0x0, w1c := 0x0, rc := 0x0, wo := 0x0, sl := 0x0, ro := 0xFFFF, reset := 0x3000 },
  { scope := .channel, off := 0x154, stride := 0, count := 1, rw := 0x0, w1c := 0x0, rc := 0x0, wo := 0x0, sl := 0x0, ro := 0xFFFFFFFF, reset := 0x0 },
  { scope := .channel, off := 0x158, stride := 0, count := 1, rw := 0x0, w1c := 0x0, rc := 0x0, wo := 0x0, sl := 0x0, ro := 0x1FFF, reset := 0x0 },
  { scope := .channel, off := 0x15C, stride := 0, count := 1, rw := 0x0, w1c := 0x0, rc := 0x0, wo := 0x0, sl := 0x0, ro := 0xFFFFFFFF, reset := 0x0 },
  { scope := .channel, off := 0x160, stride := 0, count := 1, rw := 0x0, w1c := 0x0, rc := 0x0, wo := 0x0, sl := 0x0, ro := 0xFFFFFFFF, reset := 0x0 },
  { scope := .channel, off := 0x164, stride := 0, count := 1, rw := 0x0, w1c := 0x0, rc := 0x0, wo := 0x0, sl := 0x0, ro := 0xFFFFFFFF, reset := 0x0 },
  { scope := .channel, off := 0x180, stride := 0, count := 1, rw := 0x0, w1c := 0x0, rc := 0x0, wo := 0x0, sl := 0x0, ro := 0xFFD, reset := 0x31 },
  { scope := .channel, off := 0x184, stride := 0, count := 1, rw := 0x0, w1c := 0xF, rc := 0x0, wo := 0x0, sl := 0x0, ro := 0x0, reset := 0x0 },
  { scope := .channel, off := 0x188, stride := 0, count := 1, rw := 0x0, w1c := 0x0, rc := 0xFFFFFFFF, wo := 0x0, sl := 0x0, ro := 0x0, reset := 0x0 },
  { scope := .channel, off := 0x18C, stride := 0, count := 1, rw := 0x3, w1c := 0x300, rc := 0x0, wo := 0x0, sl := 0x0, ro := 0x0, reset := 0x0 },
  { scope := .channel, off := 0x190, stride := 0, count := 1, rw := 0x0, w1c := 0x0, rc := 0xFFFFFFFF, wo := 0x0, sl := 0x0, ro := 0x0, reset := 0x0 },
  { scope := .channel, off := 0x194, stride := 0, count := 1, rw := 0x0, w1c := 0x0, rc := 0x0, wo := 0x0, sl := 0x0, ro := 0xFFFFFFFF, reset := 0x30003000 },
  { scope := .channel, off := 0x1A0, stride := 0, count := 1, rw := 0x0, w1c := 0x0, rc := 0x0, wo := 0x0, sl := 0xFFFFFFFF, ro := 0x0, reset := 0xFFFF0000 },
  { scope := .channel, off := 0x1A4, stride := 0, count := 1, rw := 0x0, w1c := 0x0, rc := 0x0, wo := 0x0, sl := 0x3FFFF, ro := 0x0, reset := 0x3FFFF },
  { scope := .channel, off := 0x200, stride := 0, count := 1, rw := 0x0, w1c := 0x0, rc := 0x0, wo := 0x0, sl := 0x7F, ro := 0x0, reset := 0x0 },
  { scope := .channel, off := 0x204, stride := 0, count := 1, rw := 0x0, w1c := 0x0, rc := 0x0, wo := 0x0, sl := 0x0, ro := 0xFFFFFFFF, reset := 0x0 },
  { scope := .channel, off := 0x208, stride := 0, count := 1, rw := 0x0, w1c := 0x0, rc := 0x0, wo := 0x0, sl := 0x0, ro := 0xFF, reset := 0x0 },
  { scope := .channel, off := 0x300, stride := 0, count := 1, rw := 0x77F6F, w1c := 0x0, rc := 0x0, wo := 0x0, sl := 0x0, ro := 0x0, reset := 0x0 },
  { scope := .channel, off := 0x304, stride := 0, count := 1, rw := 0x1FFFFFF, w1c := 0x0, rc := 0x0, wo := 0x0, sl := 0x0, ro := 0x0, reset := 0x1 },
  { scope := .channel, off := 0x308, stride := 0, count := 1, rw := 0xFFFFFFFF, w1c := 0x0, rc := 0x0, wo := 0x0, sl := 0x0, ro := 0x0, reset := 0x320 },
  { scope := .channel, off := 0x30C, stride := 0, count := 1, rw := 0xFFFF, w1c := 0x0, rc := 0x0, wo := 0x0, sl := 0x0, ro := 0x0, reset := 0x0 },
  { scope := .channel, off := 0x310, stride := 0, count := 1, rw := 0x0, w1c := 0x0, rc := 0x0, wo := 0x3, sl := 0x0, ro := 0x0, reset := 0x0 },
  { scope := .channel, off := 0x314, stride := 0, count := 1, rw := 0x0, w1c := 0x0, rc := 0x0, wo := 0x0, sl := 0x0, ro := 0x777, reset := 0x0 },
  { scope := .channel, off := 0x318, stride := 0, count := 1, rw := 0x0, w1c := 0x0, rc := 0x0, wo := 0x0, sl := 0x0, ro := 0x1FFFFFF, reset := 0x0 },
  { scope := .channel, off := 0x31C, stride := 0, count := 1, rw := 0x0, w1c := 0x0, rc := 0x0, wo := 0x0, sl := 0x0, ro := 0xFFFFFFFF, reset := 0x0 },
  { scope := .channel, off := 0x320, stride := 0, count := 1, rw := 0x0, w1c := 0x0, rc := 0x0, wo := 0x0, sl := 0x0, ro := 0xFFFFFFFF, reset := 0x0 },
  { scope := .channel, off := 0x324, stride := 0, count := 1, rw := 0x0, w1c := 0x0, rc := 0x0, wo := 0x0, sl := 0x0, ro := 0xFFFFFFFF, reset := 0x0 },
  { scope := .channel, off := 0x328, stride := 0, count := 1, rw := 0x0, w1c := 0x0, rc := 0x0, wo := 0x0, sl := 0x0, ro := 0xFFFFFFFF, reset := 0x0 },
  { scope := .channel, off := 0x32C, stride := 0, count := 1, rw := 0x0, w1c := 0x0, rc := 0x0, wo := 0x0, sl := 0x0, ro := 0xFFFFFFFF, reset := 0x0 },
  { scope := .channel, off := 0x330, stride := 0, count := 1, rw := 0x0, w1c := 0x0, rc := 0x0, wo := 0x0, sl := 0x0, ro := 0xFFFFFFFF, reset := 0x0 },
  { scope := .channel, off := 0x334, stride := 0, count := 1, rw := 0x0, w1c := 0x0, rc := 0x0, wo := 0x0, sl := 0x0, ro := 0xFFFFFFFF, reset := 0x0 },
  { scope := .channel, off := 0x338, stride := 0, count := 1, rw := 0x0, w1c := 0x0, rc := 0x0, wo := 0x0, sl := 0x0, ro := 0xFFFFFFFF, reset := 0x0 },
  { scope := .channel, off := 0x33C, stride := 0, count := 1, rw := 0x0, w1c := 0x0, rc := 0x0, wo := 0x0, sl := 0x0, ro := 0xFFFFFFFF, reset := 0x0 },
  { scope := .channel, off := 0x340, stride := 0, count := 1, rw := 0x0, w1c := 0x0, rc := 0x0, wo := 0x0, sl := 0x0, ro := 0xFFFFFFFF, reset := 0x0 },
  { scope := .channel, off := 0x344, stride := 0, count := 1, rw := 0x0, w1c := 0x0, rc := 0x0, wo := 0x0, sl := 0x0, ro := 0xFFFFFFFF, reset := 0x0 },
  { scope := .channel, off := 0x348, stride := 0, count := 1, rw := 0x0, w1c := 0x0, rc := 0x0, wo := 0x0, sl := 0x0, ro := 0xFFFFFFFF, reset := 0x0 },
  { scope := .channel, off := 0x34C, stride := 0, count := 1, rw := 0x0, w1c := 0x0, rc := 0x0, wo := 0x0, sl := 0x0, ro := 0xFFFFFFFF, reset := 0x0 },
  { scope := .channel, off := 0x350, stride := 0, count := 1, rw := 0x0, w1c := 0x0, rc := 0xFFFFFFFF, wo := 0x0, sl := 0x0, ro := 0x0, reset := 0x0 } ]

/-- The registers of each channel page. Part 2. -/
def regRowsChannel2 : List RegRow := [
  { scope := .channel, off := 0x354, stride := 0, count := 1, rw := 0x0, w1c := 0xF, rc := 0x0, wo := 0x0, sl := 0x0, ro := 0x0, reset := 0x0 },
  { scope := .channel, off := 0x358, stride := 0, count := 1, rw := 0x0, w1c := 0x0, rc := 0xFFFFFFFF, wo := 0x0, sl := 0x0, ro := 0x0, reset := 0x0 },
  { scope := .channel, off := 0x35C, stride := 0, count := 1, rw := 0x0, w1c := 0x0, rc := 0x0, wo := 0x0, sl := 0x0, ro := 0xFFF, reset := 0x0 },
  { scope := .channel, off := 0x360, stride := 0, count := 1, rw := 0x3F1F00, w1c := 0x0, rc := 0x0, wo := 0x1, sl := 0x0, ro := 0x83000000, reset := 0x1400 },
  { scope := .channel, off := 0x364, stride := 0, count := 1, rw := 0x701FF, w1c := 0x0, rc := 0x0, wo := 0x0, sl := 0x0, ro := 0x0, reset := 0x0 },
  { scope := .channel, off := 0x368, stride := 0, count := 1, rw := 0x0, w1c := 0x0, rc := 0x0, wo := 0x0, sl := 0x0, ro := 0xFFFF, reset := 0x0 },
  { scope := .channel, off := 0x400, stride := 0, count := 1, rw := 0xFFFFFFFF, w1c := 0x0, rc := 0x0, wo := 0x0, sl := 0x0, ro := 0x0, reset := 0x3000 },
  { scope := .channel, off := 0x404, stride := 0, count := 1, rw := 0xFFFFFFFF, w1c := 0x0, rc := 0x0, wo := 0x0, sl := 0x0, ro := 0x0, reset := 0xFFFF0000 },
  { scope := .channel, off := 0x408, stride := 0, count := 1, rw := 0xFFFFFFFF, w1c := 0x0, rc := 0x0, wo := 0x0, sl := 0x0, ro := 0x0, reset := 0x7FFF8000 },
  { scope := .channel, off := 0x40C, stride := 0, count := 1, rw := 0xFFFF0177, w1c := 0x0, rc := 0x0, wo := 0x0, sl := 0x0, ro := 0x0, reset := 0x0 },
  { scope := .channel, off := 0x410, stride := 0, count := 1, rw := 0x1F3FFF, w1c := 0x0, rc := 0x0, wo := 0x0, sl := 0x0, ro := 0x0, reset := 0x80C35 },
  { scope := .channel, off := 0x440, stride := 0, count := 1, rw := 0x0, w1c := 0x0, rc := 0x0, wo := 0x0, sl := 0x0, ro := 0xFFFFFFFF, reset := 0x3000 },
  { scope := .channel, off := 0x444, stride := 0, count := 1, rw := 0x0, w1c := 0x0, rc := 0x0, wo := 0x0, sl := 0x0, ro := 0xFFFFFFFF, reset := 0xFFFF0000 },
  { scope := .channel, off := 0x448, stride := 0, count := 1, rw := 0x0, w1c := 0x0, rc := 0x0, wo := 0x0, sl := 0x0, ro := 0xFFFFFFFF, reset := 0x7FFF8000 },
  { scope := .channel, off := 0x44C, stride := 0, count := 1, rw := 0x0, w1c := 0x0, rc := 0x0, wo := 0x0, sl := 0x0, ro := 0xFFFF0177, reset := 0x0 },
  { scope := .channel, off := 0x450, stride := 0, count := 1, rw := 0x0, w1c := 0x0, rc := 0x0, wo := 0x0, sl := 0x0, ro := 0x1F3FFF, reset := 0x80C35 },
  { scope := .channel, off := 0x480, stride := 0, count := 1, rw := 0x0, w1c := 0x0, rc := 0x0, wo := 0x0, sl := 0x0, ro := 0x3F, reset := 0x0 },
  { scope := .channel, off := 0x484, stride := 0, count := 1, rw := 0x0, w1c := 0x7, rc := 0x0, wo := 0x0, sl := 0x0, ro := 0x0, reset := 0x0 },
  { scope := .channel, off := 0x488, stride := 0, count := 1, rw := 0x0, w1c := 0x0, rc := 0xFFFFFF, wo := 0x0, sl := 0x0, ro := 0x0, reset := 0x0 },
  { scope := .channel, off := 0x48C, stride := 0, count := 1, rw := 0x0, w1c := 0x0, rc := 0x0, wo := 0x0, sl := 0x0, ro := 0xFFFFFFFF, reset := 0x0 },
  { scope := .channel, off := 0x490, stride := 0, count := 1, rw := 0x0, w1c := 0x0, rc := 0x0, wo := 0x0, sl := 0x0, ro := 0xFFFFFFFF, reset := 0x0 },
  { scope := .channel, off := 0x494, stride := 0, count := 1, rw := 0x80000000, w1c := 0x0, rc := 0x0, wo := 0x0, sl := 0x0, ro := 0xFFFFFF, reset := 0x0 },
  { scope := .channel, off := 0x498, stride := 0, count := 1, rw := 0xFFFFFF, w1c := 0x0, rc := 0x0, wo := 0x0, sl := 0x0, ro := 0x0, reset := 0x7FFFFF },
  { scope := .channel, off := 0x49C, stride := 0, count := 1, rw := 0xFFFFFF, w1c := 0x0, rc := 0x0, wo := 0x0, sl := 0x0, ro := 0x0, reset := 0x800000 },
  { scope := .channel, off := 0x4A0, stride := 0, count := 1, rw := 0x3, w1c := 0x300, rc := 0x0, wo := 0x0, sl := 0x0, ro := 0x0, reset := 0x0 },
  { scope := .channel, off := 0x4A4, stride := 0, count := 1, rw := 0x0, w1c := 0x0, rc := 0xFFFFFFFF, wo := 0x0, sl := 0x0, ro := 0x0, reset := 0x0 },
  { scope := .channel, off := 0x4B0, stride := 0, count := 1, rw := 0x0, w1c := 0x0, rc := 0x0, wo := 0x0, sl := 0xFFFFFFFF, ro := 0x0, reset := 0xFFFF0000 },
  { scope := .channel, off := 0x4B4, stride := 0, count := 1, rw := 0x0, w1c := 0x0, rc := 0x0, wo := 0x0, sl := 0xF, ro := 0x0, reset := 0xC },
  { scope := .channel, off := 0xF00, stride := 0, count := 1, rw := 0xFFFFFFFF, w1c := 0x0, rc := 0x0, wo := 0x0, sl := 0x0, ro := 0x0, reset := 0x0 },
  { scope := .channel, off := 0xF04, stride := 0, count := 1, rw := 0xFFFF, w1c := 0x80000000, rc := 0x0, wo := 0x0, sl := 0x0, ro := 0x0, reset := 0x0 },
  { scope := .channel, off := 0xF08, stride := 0, count := 1, rw := 0x0, w1c := 0x0, rc := 0xFF, wo := 0x0, sl := 0x0, ro := 0x0, reset := 0x0 } ]

/-- The registers of each channel page. -/
def regRowsChannel : List RegRow := regRowsChannel0 ++ regRowsChannel1 ++ regRowsChannel2

/-- Does offset `o` in a space fall on a row's register or on an element of its array? -/
def RegRow.hits (r : RegRow) (o : Nat) : Bool :=
  if r.count = 1 then o == r.off
  else decide (r.off ≤ o) && (o - r.off) % r.stride == 0 && decide ((o - r.off) / r.stride < r.count)

/-- The row of BAR0 offset `off`, by R10, R11, R528 and R530. None: the offset is unassigned (R424), or lies in a window
that is no register (the fail counter window of R281 and the MSI-X structures of R437). -/
def findRow (off : Nat) : Option RegRow :=
  if off < 0xA0000 then (regRowsDevice ++ regRowsArray).find? (fun r => r.hits off)
  else if off < 0xA0100 then
    regRowsCluster.find? (fun r => r.scope == .seq && r.hits (off - 0xA0000))
  else if off < 0x800000 then (regRowsDevice ++ regRowsArray).find? (fun r => r.hits off)
  else if off < 0xC00000 then
    let rel := (off - 0x800000) % 0x20000
    if rel < 0x10000 then regRowsCluster.find? (fun r => r.hits rel)
    else regRowsChannel.find? (fun r => r.hits (rel % 0x1000))
  else none

/-- The reset value of the register at an offset (R529). -/
def resetWord (off : Nat) : W32 :=
  match findRow off with
  | some r => BitVec.ofNat 32 r.reset
  | none => 0

/-- The offset of cluster register `o` of cluster `c` (R528). -/
def cluOff (c o : Nat) : Nat := 0x800000 + c * 0x20000 + o

/-- The offset of channel register `o` of channel `ch` (R1, R528). -/
def chOff (ch o : Nat) : Nat := 0x800000 + (ch / 16) * 0x20000 + 0x10000 + (ch % 16) * 0x1000 + o

/-- The offset of sequencer register `o`: in the cluster space for a lane, in the MSEQ block for the master (R530). -/
def seqOff (q o : Nat) : Nat := if q = 32 then 0xA0000 + o else cluOff q o

/-- ID_PART at 0x0. -/
abbrev Reg.idPart : Nat := 0x0
/-- ID_STEPPING at 0x4. -/
abbrev Reg.idStepping : Nat := 0x4
/-- ID_SERIAL_LO at 0x8. -/
abbrev Reg.idSerialLo : Nat := 0x8
/-- ID_SERIAL_HI at 0xC. -/
abbrev Reg.idSerialHi : Nat := 0xC
/-- ID_PEAT at 0x10. -/
abbrev Reg.idPeat : Nat := 0x10
/-- CLK_STATUS at 0x10000. -/
abbrev Reg.clkStatus : Nat := 0x10000
/-- CLK_FLAGS at 0x10004. -/
abbrev Reg.clkFlags : Nat := 0x10004
/-- CLK_FLAG_COUNT at 0x10008. -/
abbrev Reg.clkFlagCount : Nat := 0x10008
/-- CLK_AGE_COEF at 0x1000C. -/
abbrev Reg.clkAgeCoef : Nat := 0x1000C
/-- CLK_CORR at 0x10010. -/
abbrev Reg.clkCorr : Nat := 0x10010
/-- CLK_CORR_AGE at 0x10014. -/
abbrev Reg.clkCorrAge : Nat := 0x10014
/-- CLK_CORR_TEMP at 0x10018. -/
abbrev Reg.clkCorrTemp : Nat := 0x10018
/-- CLK_XTAL_TEMP at 0x1001C. -/
abbrev Reg.clkXtalTemp : Nat := 0x1001C
/-- CLK_OPTIME_LO at 0x10020. -/
abbrev Reg.clkOptimeLo : Nat := 0x10020
/-- CLK_OPTIME_HI at 0x10024. -/
abbrev Reg.clkOptimeHi : Nat := 0x10024
/-- CLK_PCYCLE at 0x10028. -/
abbrev Reg.clkPcycle : Nat := 0x10028
/-- CLK_EPOCH_LO at 0x10030. -/
abbrev Reg.clkEpochLo : Nat := 0x10030
/-- CLK_EPOCH_HI at 0x10034. -/
abbrev Reg.clkEpochHi : Nat := 0x10034
/-- CLK_OUT_CTL at 0x10040. -/
abbrev Reg.clkOutCtl : Nat := 0x10040
/-- CLK_EPP_PERIOD at 0x10044. -/
abbrev Reg.clkEppPeriod : Nat := 0x10044
/-- CLK_EPP_OFFSET at 0x10048. -/
abbrev Reg.clkEppOffset : Nat := 0x10048
/-- CLK_EPP_WIDTH at 0x1004C. -/
abbrev Reg.clkEppWidth : Nat := 0x1004C
/-- CLK_DOMAIN_ON0 at 0x10050. -/
abbrev Reg.clkDomainOn0 : Nat := 0x10050
/-- CLK_DOMAIN_ON1 at 0x10054. -/
abbrev Reg.clkDomainOn1 : Nat := 0x10054
/-- CLK_DOMAIN_ON2 at 0x10058. -/
abbrev Reg.clkDomainOn2 : Nat := 0x10058
/-- CLK_DOMAIN_ON3 at 0x1005C. -/
abbrev Reg.clkDomainOn3 : Nat := 0x1005C
/-- BOOT_STATUS at 0x20000. -/
abbrev Reg.bootStatus : Nat := 0x20000
/-- BOOT_FLASH at 0x20004. -/
abbrev Reg.bootFlash : Nat := 0x20004
/-- BOOT_SLOT_SEQ0 at 0x20008. -/
abbrev Reg.bootSlotSeq0 : Nat := 0x20008
/-- BOOT_SLOT_SEQ1 at 0x2000C. -/
abbrev Reg.bootSlotSeq1 : Nat := 0x2000C
/-- BOOT_TIME at 0x20010. -/
abbrev Reg.bootTime : Nat := 0x20010
/-- BOOT_FUSE at 0x20014. -/
abbrev Reg.bootFuse : Nat := 0x20014
/-- BOOT_SEALED_WR_CNT at 0x20018. -/
abbrev Reg.bootSealedWrCnt : Nat := 0x20018
/-- BOOT_SEALED_WR_ADDR at 0x2001C. -/
abbrev Reg.bootSealedWrAddr : Nat := 0x2001C
/-- BOOT_REWRITE at 0x20020. -/
abbrev Reg.bootRewrite : Nat := 0x20020
/-- HST_STATUS at 0x30000. -/
abbrev Reg.hstStatus : Nat := 0x30000
/-- HST_CFG at 0x30004. -/
abbrev Reg.hstCfg : Nat := 0x30004
/-- HST_RING_CTL at 0x30008. -/
abbrev Reg.hstRingCtl : Nat := 0x30008
/-- HST_CMD_BASE_LO at 0x30010. -/
abbrev Reg.hstCmdBaseLo : Nat := 0x30010
/-- HST_CMD_BASE_HI at 0x30014. -/
abbrev Reg.hstCmdBaseHi : Nat := 0x30014
/-- HST_CPL_BASE_LO at 0x30018. -/
abbrev Reg.hstCplBaseLo : Nat := 0x30018
/-- HST_CPL_BASE_HI at 0x3001C. -/
abbrev Reg.hstCplBaseHi : Nat := 0x3001C
/-- HST_CMD_TAIL at 0x30020. -/
abbrev Reg.hstCmdTail : Nat := 0x30020
/-- HST_CMD_HEAD at 0x30024. -/
abbrev Reg.hstCmdHead : Nat := 0x30024
/-- HST_CPL_HEAD at 0x30028. -/
abbrev Reg.hstCplHead : Nat := 0x30028
/-- HST_CPL_TAIL at 0x3002C. -/
abbrev Reg.hstCplTail : Nat := 0x3002C
/-- HST_FLAGS at 0x30030. -/
abbrev Reg.hstFlags : Nat := 0x30030
/-- HST_FLAG_COUNT at 0x30034. -/
abbrev Reg.hstFlagCount : Nat := 0x30034
/-- HST_BAD_ADDR at 0x30038. -/
abbrev Reg.hstBadAddr : Nat := 0x30038
/-- HST_CPL_DROP at 0x3003C. -/
abbrev Reg.hstCplDrop : Nat := 0x3003C
/-- HST_VEC_PEND_LO at 0x30040. -/
abbrev Reg.hstVecPendLo : Nat := 0x30040
/-- HST_VEC_PEND_HI at 0x30044. -/
abbrev Reg.hstVecPendHi : Nat := 0x30044
/-- HST_VEC_ACK_LO at 0x30048. -/
abbrev Reg.hstVecAckLo : Nat := 0x30048
/-- HST_VEC_ACK_HI at 0x3004C. -/
abbrev Reg.hstVecAckHi : Nat := 0x3004C
/-- CWY_STATUS at 0x40000. -/
abbrev Reg.cwyStatus : Nat := 0x40000
/-- CWY_CFG at 0x40004. -/
abbrev Reg.cwyCfg : Nat := 0x40004
/-- CWY_ASYM at 0x40008. -/
abbrev Reg.cwyAsym : Nat := 0x40008
/-- CWY_UP_CAL at 0x4000C. -/
abbrev Reg.cwyUpCal : Nat := 0x4000C
/-- CWY_DN_CAL at 0x40010. -/
abbrev Reg.cwyDnCal : Nat := 0x40010
/-- CWY_PEER_UP_LO at 0x40014. -/
abbrev Reg.cwyPeerUpLo : Nat := 0x40014
/-- CWY_PEER_UP_HI at 0x40018. -/
abbrev Reg.cwyPeerUpHi : Nat := 0x40018
/-- CWY_PEER_DN_LO at 0x4001C. -/
abbrev Reg.cwyPeerDnLo : Nat := 0x4001C
/-- CWY_PEER_DN_HI at 0x40020. -/
abbrev Reg.cwyPeerDnHi : Nat := 0x40020
/-- CWY_MASTER_LO at 0x40024. -/
abbrev Reg.cwyMasterLo : Nat := 0x40024
/-- CWY_MASTER_HI at 0x40028. -/
abbrev Reg.cwyMasterHi : Nat := 0x40028
/-- CWY_PATH_LAT at 0x4002C. -/
abbrev Reg.cwyPathLat : Nat := 0x4002C
/-- CWY_PATH_DELAY at 0x40030. -/
abbrev Reg.cwyPathDelay : Nat := 0x40030
/-- CWY_FLAGS at 0x40034. -/
abbrev Reg.cwyFlags : Nat := 0x40034
/-- CWY_FLAG_COUNT at 0x40038. -/
abbrev Reg.cwyFlagCount : Nat := 0x40038
/-- CWY_REFUSE at 0x4003C. -/
abbrev Reg.cwyRefuse : Nat := 0x4003C
/-- CWY_USER at 0x40040. -/
abbrev Reg.cwyUser : Nat := 0x40040
/-- CWY_SEND at 0x40044. -/
abbrev Reg.cwySend : Nat := 0x40044
/-- CWY_TMO at 0x40048. -/
abbrev Reg.cwyTmo : Nat := 0x40048
/-- EVR_STATUS at 0x50000. -/
abbrev Reg.evrStatus : Nat := 0x50000
/-- EVR_FLAGS at 0x50004. -/
abbrev Reg.evrFlags : Nat := 0x50004
/-- EVR_FLAG_COUNT at 0x50008. -/
abbrev Reg.evrFlagCount : Nat := 0x50008
/-- EVR_COMMIT at 0x5000C. -/
abbrev Reg.evrCommit : Nat := 0x5000C
/-- EVR_DROP at 0x50010. -/
abbrev Reg.evrDrop : Nat := 0x50010
/-- EVR_LOG at 0x50014. -/
abbrev Reg.evrLog : Nat := 0x50014
/-- EVR_LOG_BSEQ at 0x50018. -/
abbrev Reg.evrLogBseq : Nat := 0x50018
/-- CAL_STATUS at 0x60000. -/
abbrev Reg.calStatus : Nat := 0x60000
/-- CAL_CTL at 0x60004. -/
abbrev Reg.calCtl : Nat := 0x60004
/-- CAL_FLAGS at 0x60008. -/
abbrev Reg.calFlags : Nat := 0x60008
/-- CAL_FLAG_COUNT at 0x6000C. -/
abbrev Reg.calFlagCount : Nat := 0x6000C
/-- CAL_COUNT at 0x60010. -/
abbrev Reg.calCount : Nat := 0x60010
/-- CAL_LAST_OPT_LO at 0x60014. -/
abbrev Reg.calLastOptLo : Nat := 0x60014
/-- CAL_LAST_OPT_HI at 0x60018. -/
abbrev Reg.calLastOptHi : Nat := 0x60018
/-- CAL_LAST_PCYCLE at 0x6001C. -/
abbrev Reg.calLastPcycle : Nat := 0x6001C
/-- CAL_SCOPE at 0x60020. -/
abbrev Reg.calScope : Nat := 0x60020
/-- CAL_TIME at 0x60024. -/
abbrev Reg.calTime : Nat := 0x60024
/-- CAL_SEQ_A at 0x60028. -/
abbrev Reg.calSeqA : Nat := 0x60028
/-- CAL_SEQ_B at 0x6002C. -/
abbrev Reg.calSeqB : Nat := 0x6002C
/-- MEM_STATUS at 0x70000. -/
abbrev Reg.memStatus : Nat := 0x70000
/-- MEM_MARCH_PROG at 0x70004. -/
abbrev Reg.memMarchProg : Nat := 0x70004
/-- MEM_FLAGS at 0x70008. -/
abbrev Reg.memFlags : Nat := 0x70008
/-- MEM_FLAG_COUNT at 0x7000C. -/
abbrev Reg.memFlagCount : Nat := 0x7000C
/-- MEM_ECC_CNT at 0x70010. -/
abbrev Reg.memEccCnt : Nat := 0x70010
/-- MEM_ECC_ADDR at 0x70014. -/
abbrev Reg.memEccAddr : Nat := 0x70014
/-- MEM_COLLIDE at 0x70018. -/
abbrev Reg.memCollide : Nat := 0x70018
/-- MEM_REPAIR at 0x7001C. -/
abbrev Reg.memRepair : Nat := 0x7001C
/-- MEM_LOSS at 0x70020. -/
abbrev Reg.memLoss : Nat := 0x70020
/-- MEM_OOS at 0x70024. -/
abbrev Reg.memOos : Nat := 0x70024
/-- MEM_OOS_DEV at 0x70028. -/
abbrev Reg.memOosDev : Nat := 0x70028
/-- MEM_RET_EN at 0x70030. -/
abbrev Reg.memRetEn : Nat := 0x70030
/-- MEM_RET_STATE at 0x70034. -/
abbrev Reg.memRetState : Nat := 0x70034
/-- MEM_RET_WAKES at 0x70038. -/
abbrev Reg.memRetWakes : Nat := 0x70038
/-- MEM_VEC_BASE at 0x70040. -/
abbrev Reg.memVecBase : Nat := 0x70040
/-- MEM_VEC_SIZE at 0x70044. -/
abbrev Reg.memVecSize : Nat := 0x70044
/-- MEM_FAIL_BASE at 0x70048. -/
abbrev Reg.memFailBase : Nat := 0x70048
/-- MEM_FAIL_SIZE at 0x7004C. -/
abbrev Reg.memFailSize : Nat := 0x7004C
/-- MEM_SPILL_BASE at 0x70050. -/
abbrev Reg.memSpillBase : Nat := 0x70050
/-- MEM_SPILL_SIZE at 0x70054. -/
abbrev Reg.memSpillSize : Nat := 0x70054
/-- MEM_MACRO_SEL at 0x70060. -/
abbrev Reg.memMacroSel : Nat := 0x70060
/-- MEM_MACRO_INFO at 0x70064. -/
abbrev Reg.memMacroInfo : Nat := 0x70064
/-- MEM_MACRO_ROW at 0x70068. -/
abbrev Reg.memMacroRow : Nat := 0x70068
/-- SND_CTL at 0x80000. -/
abbrev Reg.sndCtl : Nat := 0x80000
/-- SND_CFG at 0x80004. -/
abbrev Reg.sndCfg : Nat := 0x80004
/-- SND_STATUS at 0x80008. -/
abbrev Reg.sndStatus : Nat := 0x80008
/-- SND_CT_LIM at 0x8000C. -/
abbrev Reg.sndCtLim : Nat := 0x8000C
/-- SND_MASK_LO at 0x80010. -/
abbrev Reg.sndMaskLo : Nat := 0x80010
/-- SND_MASK_HI at 0x80014. -/
abbrev Reg.sndMaskHi : Nat := 0x80014
/-- SND_SUMMARY at 0x80018. -/
abbrev Reg.sndSummary : Nat := 0x80018
/-- SND_TIME at 0x8001C. -/
abbrev Reg.sndTime : Nat := 0x8001C
/-- SND_FLAGS at 0x80020. -/
abbrev Reg.sndFlags : Nat := 0x80020
/-- SND_FLAG_COUNT at 0x80024. -/
abbrev Reg.sndFlagCount : Nat := 0x80024
/-- PWR_STATUS at 0x90000. -/
abbrev Reg.pwrStatus : Nat := 0x90000
/-- PWR_CFG at 0x90004. -/
abbrev Reg.pwrCfg : Nat := 0x90004
/-- PWR_FLAGS at 0x90008. -/
abbrev Reg.pwrFlags : Nat := 0x90008
/-- PWR_FLAG_COUNT at 0x9000C. -/
abbrev Reg.pwrFlagCount : Nat := 0x9000C
/-- PWR_VIN at 0x90010. -/
abbrev Reg.pwrVin : Nat := 0x90010
/-- PWR_VPH at 0x90014. -/
abbrev Reg.pwrVph : Nat := 0x90014
/-- PWR_VPL at 0x90018. -/
abbrev Reg.pwrVpl : Nat := 0x90018
/-- PWR_VIO at 0x9001C. -/
abbrev Reg.pwrVio : Nat := 0x9001C
/-- PWR_TEMP_MAX at 0x90020. -/
abbrev Reg.pwrTempMax : Nat := 0x90020
/-- PLN_STATE at 0xA0100. -/
abbrev Reg.plnState : Nat := 0xA0100
/-- PLN_RESULT at 0xA0104. -/
abbrev Reg.plnResult : Nat := 0xA0104
/-- PLN_BW at 0xA0108. -/
abbrev Reg.plnBw : Nat := 0xA0108
/-- PLN_SLOT_LO at 0xA010C. -/
abbrev Reg.plnSlotLo : Nat := 0xA010C
/-- PLN_SLOT_HI at 0xA0110. -/
abbrev Reg.plnSlotHi : Nat := 0xA0110
/-- PLN_LOAD_US at 0xA0114. -/
abbrev Reg.plnLoadUs : Nat := 0xA0114
/-- FL_SITE_MASK_LO at 0xA1000. -/
abbrev Reg.flSiteMaskLo : Nat := 0xA1000
/-- FL_SITE_MASK_HI at 0xA1004. -/
abbrev Reg.flSiteMaskHi : Nat := 0xA1004
/-- FL_BMP_EN_LO at 0xA1008. -/
abbrev Reg.flBmpEnLo : Nat := 0xA1008
/-- FL_BMP_EN_HI at 0xA100C. -/
abbrev Reg.flBmpEnHi : Nat := 0xA100C
/-- FL_GEOM at 0xA1010. -/
abbrev Reg.flGeom : Nat := 0xA1010
/-- FL_REC_SIZE at 0xA1014. -/
abbrev Reg.flRecSize : Nat := 0xA1014
/-- FL_RC_LIMIT at 0xA1018. -/
abbrev Reg.flRcLimit : Nat := 0xA1018
/-- FL_CLEAR at 0xA101C. -/
abbrev Reg.flClear : Nat := 0xA101C
/-- FL_DEV_FLAGS at 0xA1020. -/
abbrev Reg.flDevFlags : Nat := 0xA1020
/-- FL_DEV_FLAG_COUNT at 0xA1024. -/
abbrev Reg.flDevFlagCount : Nat := 0xA1024
/-- FL_SUM_FAIL_LO at 0xA1028. -/
abbrev Reg.flSumFailLo : Nat := 0xA1028
/-- FL_SUM_FAIL_HI at 0xA102C. -/
abbrev Reg.flSumFailHi : Nat := 0xA102C
/-- FL_SUM_UNREP_LO at 0xA1030. -/
abbrev Reg.flSumUnrepLo : Nat := 0xA1030
/-- FL_SUM_UNREP_HI at 0xA1034. -/
abbrev Reg.flSumUnrepHi : Nat := 0xA1034
/-- FL_SUM_INC_LO at 0xA1038. -/
abbrev Reg.flSumIncLo : Nat := 0xA1038
/-- FL_SUM_INC_HI at 0xA103C. -/
abbrev Reg.flSumIncHi : Nat := 0xA103C
/-- HST_ROUTE array, first at 0x30400. -/
abbrev Reg.hstRoute : Nat := 0x30400
/-- CWY_JGROUP array, first at 0x40080. -/
abbrev Reg.cwyJgroup : Nat := 0x40080
/-- CWY_SUM0 array, first at 0x41000. -/
abbrev Reg.cwySum0 : Nat := 0x41000
/-- CWY_SUM1 array, first at 0x41004. -/
abbrev Reg.cwySum1 : Nat := 0x41004
/-- CWY_SUM2 array, first at 0x41008. -/
abbrev Reg.cwySum2 : Nat := 0x41008
/-- CWY_SUM3 array, first at 0x4100C. -/
abbrev Reg.cwySum3 : Nat := 0x4100C
/-- CWY_SUM4 array, first at 0x41010. -/
abbrev Reg.cwySum4 : Nat := 0x41010
/-- CWY_SUM5 array, first at 0x41014. -/
abbrev Reg.cwySum5 : Nat := 0x41014
/-- CWY_SUM6 array, first at 0x41018. -/
abbrev Reg.cwySum6 : Nat := 0x41018
/-- CWY_POS_LO array, first at 0x41800. -/
abbrev Reg.cwyPosLo : Nat := 0x41800
/-- CWY_POS_HI array, first at 0x41804. -/
abbrev Reg.cwyPosHi : Nat := 0x41804
/-- EVR_OPEN array, first at 0x50040. -/
abbrev Reg.evrOpen : Nat := 0x50040
/-- EVR_RING array, first at 0x58000. -/
abbrev Reg.evrRing : Nat := 0x58000
/-- CAL_CH_FAIL array, first at 0x60100. -/
abbrev Reg.calChFail : Nat := 0x60100
/-- SND_MAP0 array, first at 0x81000. -/
abbrev Reg.sndMap0 : Nat := 0x81000
/-- SND_MAP1 array, first at 0x81004. -/
abbrev Reg.sndMap1 : Nat := 0x81004
/-- SND_REF array, first at 0x82000. -/
abbrev Reg.sndRef : Nat := 0x82000
/-- PWR_TS array, first at 0x90100. -/
abbrev Reg.pwrTs : Nat := 0x90100
/-- FL_SITE_FAIL array, first at 0xA1400. -/
abbrev Reg.flSiteFail : Nat := 0xA1400
/-- FL_SITE_INDET array, first at 0xA1404. -/
abbrev Reg.flSiteIndet : Nat := 0xA1404
/-- FL_SITE_MR array, first at 0xA1408. -/
abbrev Reg.flSiteMr : Nat := 0xA1408
/-- FL_SITE_STATUS array, first at 0xA140C. -/
abbrev Reg.flSiteStatus : Nat := 0xA140C
/-- FL_FIRST array, first at 0xA1800. -/
abbrev Reg.flFirst : Nat := 0xA1800
/-- SEQ_STATUS at cluster offset 0x0. -/
abbrev Reg.seqStatus : Nat := 0x0
/-- SEQ_FLAGS at cluster offset 0x4. -/
abbrev Reg.seqFlags : Nat := 0x4
/-- SEQ_FLAG_COUNT at cluster offset 0x8. -/
abbrev Reg.seqFlagCount : Nat := 0x8
/-- SEQ_FAULT at cluster offset 0xC. -/
abbrev Reg.seqFault : Nat := 0xC
/-- SEQ_REPEAT at cluster offset 0x10. -/
abbrev Reg.seqRepeat : Nat := 0x10
/-- SEQ_LC0 at cluster offset 0x20. -/
abbrev Reg.seqLc0 : Nat := 0x20
/-- SEQ_LC1 at cluster offset 0x24. -/
abbrev Reg.seqLc1 : Nat := 0x24
/-- SEQ_LC2 at cluster offset 0x28. -/
abbrev Reg.seqLc2 : Nat := 0x28
/-- SEQ_LC3 at cluster offset 0x2C. -/
abbrev Reg.seqLc3 : Nat := 0x2C
/-- SEQ_GEN_XY at cluster offset 0x30. -/
abbrev Reg.seqGenXy : Nat := 0x30
/-- SEQ_GEN_ZD at cluster offset 0x34. -/
abbrev Reg.seqGenZd : Nat := 0x34
/-- SEQ_ROLE0 at cluster offset 0x40. -/
abbrev Reg.seqRole0 : Nat := 0x40
/-- SEQ_ROLE1 at cluster offset 0x44. -/
abbrev Reg.seqRole1 : Nat := 0x44
/-- SEQ_ROLE2 at cluster offset 0x48. -/
abbrev Reg.seqRole2 : Nat := 0x48
/-- SEQ_ROLE3 at cluster offset 0x4C. -/
abbrev Reg.seqRole3 : Nat := 0x4C
/-- SEQ_XSCR0 at cluster offset 0x50. -/
abbrev Reg.seqXscr0 : Nat := 0x50
/-- SEQ_XSCR1 at cluster offset 0x54. -/
abbrev Reg.seqXscr1 : Nat := 0x54
/-- SEQ_YSCR0 at cluster offset 0x58. -/
abbrev Reg.seqYscr0 : Nat := 0x58
/-- SEQ_YSCR1 at cluster offset 0x5C. -/
abbrev Reg.seqYscr1 : Nat := 0x5C
/-- SEQ_SRC_MASK at cluster offset 0x60. -/
abbrev Reg.seqSrcMask : Nat := 0x60
/-- SEQ_IVEC at cluster offset 0x64. -/
abbrev Reg.seqIvec : Nat := 0x64
/-- SEQ_WDOG at cluster offset 0x68. -/
abbrev Reg.seqWdog : Nat := 0x68
/-- SEQ_ECC_CNT at cluster offset 0x6C. -/
abbrev Reg.seqEccCnt : Nat := 0x6C
/-- SEQ_PEND at cluster offset 0x70. -/
abbrev Reg.seqPend : Nat := 0x70
/-- SEQ_ISSUE at cluster offset 0x74. -/
abbrev Reg.seqIssue : Nat := 0x74
/-- SEQ_CYC_LO at cluster offset 0x78. -/
abbrev Reg.seqCycLo : Nat := 0x78
/-- SEQ_CYC_HI at cluster offset 0x7C. -/
abbrev Reg.seqCycHi : Nat := 0x7C
/-- SEQ_PATCH at cluster offset 0x80. -/
abbrev Reg.seqPatch : Nat := 0x80
/-- PLN_SEG at cluster offset 0x100. -/
abbrev Reg.plnSeg : Nat := 0x100
/-- PLN_PLAY at cluster offset 0x104. -/
abbrev Reg.plnPlay : Nat := 0x104
/-- PLN_JUMP at cluster offset 0x108. -/
abbrev Reg.plnJump : Nat := 0x108
/-- PLN_JUMP_CNT at cluster offset 0x10C. -/
abbrev Reg.plnJumpCnt : Nat := 0x10C
/-- PLN_FLAGS at cluster offset 0x110. -/
abbrev Reg.plnFlags : Nat := 0x110
/-- PLN_FLAG_COUNT at cluster offset 0x114. -/
abbrev Reg.plnFlagCount : Nat := 0x114
/-- PLN_GAP_CNT at cluster offset 0x118. -/
abbrev Reg.plnGapCnt : Nat := 0x118
/-- PLN_GAP_FIRST_LO at cluster offset 0x11C. -/
abbrev Reg.plnGapFirstLo : Nat := 0x11C
/-- PLN_GAP_FIRST_HI at cluster offset 0x120. -/
abbrev Reg.plnGapFirstHi : Nat := 0x120
/-- PLN_GAP_LEN_LO at cluster offset 0x124. -/
abbrev Reg.plnGapLenLo : Nat := 0x124
/-- PLN_GAP_LEN_HI at cluster offset 0x128. -/
abbrev Reg.plnGapLenHi : Nat := 0x128
/-- PLN_SLUICE_BASE at cluster offset 0x12C. -/
abbrev Reg.plnSluiceBase : Nat := 0x12C
/-- PLN_SLUICE_SIZE at cluster offset 0x130. -/
abbrev Reg.plnSluiceSize : Nat := 0x130
/-- PLN_SLUICE at cluster offset 0x134. -/
abbrev Reg.plnSluice : Nat := 0x134
/-- PLN_SLUICE_POS at cluster offset 0x138. -/
abbrev Reg.plnSluicePos : Nat := 0x138
/-- PLN_CACHE at cluster offset 0x13C. -/
abbrev Reg.plnCache : Nat := 0x13C
/-- TG_SETMASK_LO at cluster offset 0x300. -/
abbrev Reg.tgSetmaskLo : Nat := 0x300
/-- TG_SETMASK_HI at cluster offset 0x304. -/
abbrev Reg.tgSetmaskHi : Nat := 0x304
/-- TG_SCRMASK_LO at cluster offset 0x308. -/
abbrev Reg.tgScrmaskLo : Nat := 0x308
/-- TG_SCRMASK_HI at cluster offset 0x30C. -/
abbrev Reg.tgScrmaskHi : Nat := 0x30C
/-- TG_REFUSE at cluster offset 0x310. -/
abbrev Reg.tgRefuse : Nat := 0x310
/-- PE_LDSTB at cluster offset 0x400. -/
abbrev Reg.peLdstb : Nat := 0x400
/-- PE_LDSTB_CNT at cluster offset 0x404. -/
abbrev Reg.peLdstbCnt : Nat := 0x404
/-- PE_CL_FLAGS at cluster offset 0x408. -/
abbrev Reg.peClFlags : Nat := 0x408
/-- PE_CL_FLAG_COUNT at cluster offset 0x40C. -/
abbrev Reg.peClFlagCount : Nat := 0x40C
/-- PE_MON_CTL at cluster offset 0x410. -/
abbrev Reg.peMonCtl : Nat := 0x410
/-- PE_MON_RESULT at cluster offset 0x414. -/
abbrev Reg.peMonResult : Nat := 0x414
/-- PE_MON_MISMATCH at cluster offset 0x418. -/
abbrev Reg.peMonMismatch : Nat := 0x418
/-- FL_CTL at cluster offset 0x500. -/
abbrev Reg.flCtl : Nat := 0x500
/-- FL_MATCH at cluster offset 0x504. -/
abbrev Reg.flMatch : Nat := 0x504
/-- FL_STATUS at cluster offset 0x508. -/
abbrev Reg.flStatus : Nat := 0x508
/-- FL_REC_WR at cluster offset 0x50C. -/
abbrev Reg.flRecWr : Nat := 0x50C
/-- FL_REC_LOST at cluster offset 0x510. -/
abbrev Reg.flRecLost : Nat := 0x510
/-- FL_QUEUE at cluster offset 0x514. -/
abbrev Reg.flQueue : Nat := 0x514
/-- FL_FLAGS at cluster offset 0x518. -/
abbrev Reg.flFlags : Nat := 0x518
/-- FL_FLAG_COUNT at cluster offset 0x51C. -/
abbrev Reg.flFlagCount : Nat := 0x51C
/-- PMU_SYNC at cluster offset 0x600. -/
abbrev Reg.pmuSync : Nat := 0x600
/-- ACQ_CTL at cluster offset 0x700. -/
abbrev Reg.acqCtl : Nat := 0x700
/-- ACQ_CFG at cluster offset 0x704. -/
abbrev Reg.acqCfg : Nat := 0x704
/-- ACQ_PRE at cluster offset 0x708. -/
abbrev Reg.acqPre : Nat := 0x708
/-- ACQ_POST at cluster offset 0x70C. -/
abbrev Reg.acqPost : Nat := 0x70C
/-- ACQ_FRAMES at cluster offset 0x710. -/
abbrev Reg.acqFrames : Nat := 0x710
/-- ACQ_CAP_STB at cluster offset 0x714. -/
abbrev Reg.acqCapStb : Nat := 0x714
/-- ACQ_CAP_SRC at cluster offset 0x718. -/
abbrev Reg.acqCapSrc : Nat := 0x718
/-- ACQ_STATUS at cluster offset 0x71C. -/
abbrev Reg.acqStatus : Nat := 0x71C
/-- ACQ_FRAME_CNT at cluster offset 0x720. -/
abbrev Reg.acqFrameCnt : Nat := 0x720
/-- ACQ_MISSED at cluster offset 0x724. -/
abbrev Reg.acqMissed : Nat := 0x724
/-- ACQ_GAP_CNT at cluster offset 0x728. -/
abbrev Reg.acqGapCnt : Nat := 0x728
/-- ACQ_GAP_LEN at cluster offset 0x72C. -/
abbrev Reg.acqGapLen : Nat := 0x72C
/-- ACQ_DROP at cluster offset 0x730. -/
abbrev Reg.acqDrop : Nat := 0x730
/-- ACQ_TRIG_LO at cluster offset 0x734. -/
abbrev Reg.acqTrigLo : Nat := 0x734
/-- ACQ_TRIG_HI at cluster offset 0x738. -/
abbrev Reg.acqTrigHi : Nat := 0x738
/-- ACQ_TRIG_INFO at cluster offset 0x73C. -/
abbrev Reg.acqTrigInfo : Nat := 0x73C
/-- ACQ_COND0 at cluster offset 0x740. -/
abbrev Reg.acqCond0 : Nat := 0x740
/-- ACQ_COND1 at cluster offset 0x744. -/
abbrev Reg.acqCond1 : Nat := 0x744
/-- ACQ_COND2 at cluster offset 0x748. -/
abbrev Reg.acqCond2 : Nat := 0x748
/-- ACQ_COND3 at cluster offset 0x74C. -/
abbrev Reg.acqCond3 : Nat := 0x74C
/-- ACQ_COND4 at cluster offset 0x750. -/
abbrev Reg.acqCond4 : Nat := 0x750
/-- ACQ_COND5 at cluster offset 0x754. -/
abbrev Reg.acqCond5 : Nat := 0x754
/-- ACQ_COND6 at cluster offset 0x758. -/
abbrev Reg.acqCond6 : Nat := 0x758
/-- ACQ_COND7 at cluster offset 0x75C. -/
abbrev Reg.acqCond7 : Nat := 0x75C
/-- ACQ_SPILL_BASE at cluster offset 0x760. -/
abbrev Reg.acqSpillBase : Nat := 0x760
/-- ACQ_SPILL_SIZE at cluster offset 0x764. -/
abbrev Reg.acqSpillSize : Nat := 0x764
/-- ACQ_SPILL_WR at cluster offset 0x768. -/
abbrev Reg.acqSpillWr : Nat := 0x768
/-- ACQ_SPILL_RD at cluster offset 0x76C. -/
abbrev Reg.acqSpillRd : Nat := 0x76C
/-- ACQ_FLAGS at cluster offset 0x770. -/
abbrev Reg.acqFlags : Nat := 0x770
/-- ACQ_FLAG_COUNT at cluster offset 0x774. -/
abbrev Reg.acqFlagCount : Nat := 0x774
/-- DDS_STATUS at cluster offset 0x800. -/
abbrev Reg.ddsStatus : Nat := 0x800
/-- DDS_CTL at cluster offset 0x804. -/
abbrev Reg.ddsCtl : Nat := 0x804
/-- DDS_ADDR at cluster offset 0x808. -/
abbrev Reg.ddsAddr : Nat := 0x808
/-- DDS_DATA0 at cluster offset 0x80C. -/
abbrev Reg.ddsData0 : Nat := 0x80C
/-- DDS_DATA1 at cluster offset 0x810. -/
abbrev Reg.ddsData1 : Nat := 0x810
/-- DDS_FLAGS at cluster offset 0x814. -/
abbrev Reg.ddsFlags : Nat := 0x814
/-- DDS_FLAG_COUNT at cluster offset 0x818. -/
abbrev Reg.ddsFlagCount : Nat := 0x818
/-- DDS_MARK_CNT at cluster offset 0x81C. -/
abbrev Reg.ddsMarkCnt : Nat := 0x81C
/-- DDS_GRAN_LO at cluster offset 0x820. -/
abbrev Reg.ddsGranLo : Nat := 0x820
/-- DDS_GRAN_HI at cluster offset 0x824. -/
abbrev Reg.ddsGranHi : Nat := 0x824
/-- DDS_PHASE_LO at cluster offset 0x828. -/
abbrev Reg.ddsPhaseLo : Nat := 0x828
/-- DDS_PHASE_HI at cluster offset 0x82C. -/
abbrev Reg.ddsPhaseHi : Nat := 0x82C
/-- TG_PERIOD array, first at cluster offset 0x200. -/
abbrev Reg.tgPeriod : Nat := 0x200
/-- ACQ_ST_CTL array, first at cluster offset 0x780. -/
abbrev Reg.acqStCtl : Nat := 0x780
/-- ACQ_ST_NEXT array, first at cluster offset 0x784. -/
abbrev Reg.acqStNext : Nat := 0x784
/-- ACQ_ST_COUNT array, first at cluster offset 0x788. -/
abbrev Reg.acqStCount : Nat := 0x788
/-- ACQ_ST_TIMER array, first at cluster offset 0x78C. -/
abbrev Reg.acqStTimer : Nat := 0x78C
/-- TG_MODE0 at channel offset 0x0. -/
abbrev Reg.tgMode0 : Nat := 0x0
/-- TG_MODE1 at channel offset 0x4. -/
abbrev Reg.tgMode1 : Nat := 0x4
/-- TG_MODE2 at channel offset 0x8. -/
abbrev Reg.tgMode2 : Nat := 0x8
/-- TG_MODE3 at channel offset 0xC. -/
abbrev Reg.tgMode3 : Nat := 0xC
/-- TG_MODE4 at channel offset 0x10. -/
abbrev Reg.tgMode4 : Nat := 0x10
/-- TG_MODE5 at channel offset 0x14. -/
abbrev Reg.tgMode5 : Nat := 0x14
/-- TG_MODE6 at channel offset 0x18. -/
abbrev Reg.tgMode6 : Nat := 0x18
/-- TG_MODE7 at channel offset 0x1C. -/
abbrev Reg.tgMode7 : Nat := 0x1C
/-- TG_MODE8 at channel offset 0x20. -/
abbrev Reg.tgMode8 : Nat := 0x20
/-- TG_MODE9 at channel offset 0x24. -/
abbrev Reg.tgMode9 : Nat := 0x24
/-- TG_MODE10 at channel offset 0x28. -/
abbrev Reg.tgMode10 : Nat := 0x28
/-- TG_MODE11 at channel offset 0x2C. -/
abbrev Reg.tgMode11 : Nat := 0x2C
/-- TG_MODE12 at channel offset 0x30. -/
abbrev Reg.tgMode12 : Nat := 0x30
/-- TG_MODE13 at channel offset 0x34. -/
abbrev Reg.tgMode13 : Nat := 0x34
/-- TG_MODE14 at channel offset 0x38. -/
abbrev Reg.tgMode14 : Nat := 0x38
/-- TG_MODE15 at channel offset 0x3C. -/
abbrev Reg.tgMode15 : Nat := 0x3C
/-- TG_WIN at channel offset 0x40. -/
abbrev Reg.tgWin : Nat := 0x40
/-- TG_SCR_SRC at channel offset 0x44. -/
abbrev Reg.tgScrSrc : Nat := 0x44
/-- TG_SCR_ACT_LO at channel offset 0x48. -/
abbrev Reg.tgScrActLo : Nat := 0x48
/-- TG_SCR_ACT_HI at channel offset 0x4C. -/
abbrev Reg.tgScrActHi : Nat := 0x4C
/-- TG_SCR_STG_LO at channel offset 0x50. -/
abbrev Reg.tgScrStgLo : Nat := 0x50
/-- TG_SCR_STG_HI at channel offset 0x54. -/
abbrev Reg.tgScrStgHi : Nat := 0x54
/-- TG_EDGE_ADDR at channel offset 0x58. -/
abbrev Reg.tgEdgeAddr : Nat := 0x58
/-- TG_EDGE_DATA at channel offset 0x5C. -/
abbrev Reg.tgEdgeData : Nat := 0x5C
/-- TG_QUEUE at channel offset 0x60. -/
abbrev Reg.tgQueue : Nat := 0x60
/-- TG_FLAGS at channel offset 0x64. -/
abbrev Reg.tgFlags : Nat := 0x64
/-- TG_FLAG_COUNT at channel offset 0x68. -/
abbrev Reg.tgFlagCount : Nat := 0x68
/-- TG_PAIR at channel offset 0x6C. -/
abbrev Reg.tgPair : Nat := 0x6C
/-- PE_VIL at channel offset 0x100. -/
abbrev Reg.peVil : Nat := 0x100
/-- PE_VIH at channel offset 0x104. -/
abbrev Reg.peVih : Nat := 0x104
/-- PE_VOL at channel offset 0x108. -/
abbrev Reg.peVol : Nat := 0x108
/-- PE_VOH at channel offset 0x10C. -/
abbrev Reg.peVoh : Nat := 0x10C
/-- PE_VCOM at channel offset 0x110. -/
abbrev Reg.peVcom : Nat := 0x110
/-- PE_ILOAD at channel offset 0x114. -/
abbrev Reg.peIload : Nat := 0x114
/-- PE_CFG at channel offset 0x118. -/
abbrev Reg.peCfg : Nat := 0x118
/-- PE_TAPS at channel offset 0x11C. -/
abbrev Reg.peTaps : Nat := 0x11C
/-- PE_RAMP_SLOPE at channel offset 0x120. -/
abbrev Reg.peRampSlope : Nat := 0x120
/-- PE_RAMP_LEN at channel offset 0x124. -/
abbrev Reg.peRampLen : Nat := 0x124
/-- PE_ACT_VIL at channel offset 0x140. -/
abbrev Reg.peActVil : Nat := 0x140
/-- PE_ACT_VIH at channel offset 0x144. -/
abbrev Reg.peActVih : Nat := 0x144
/-- PE_ACT_VOL at channel offset 0x148. -/
abbrev Reg.peActVol : Nat := 0x148
/-- PE_ACT_VOH at channel offset 0x14C. -/
abbrev Reg.peActVoh : Nat := 0x14C
/-- PE_ACT_VCOM at channel offset 0x150. -/
abbrev Reg.peActVcom : Nat := 0x150
/-- PE_ACT_ILOAD at channel offset 0x154. -/
abbrev Reg.peActIload : Nat := 0x154
/-- PE_ACT_CFG at channel offset 0x158. -/
abbrev Reg.peActCfg : Nat := 0x158
/-- PE_ACT_TAPS at channel offset 0x15C. -/
abbrev Reg.peActTaps : Nat := 0x15C
/-- PE_ACT_RAMP_SLOPE at channel offset 0x160. -/
abbrev Reg.peActRampSlope : Nat := 0x160
/-- PE_ACT_RAMP_LEN at channel offset 0x164. -/
abbrev Reg.peActRampLen : Nat := 0x164
/-- PE_STATUS at channel offset 0x180. -/
abbrev Reg.peStatus : Nat := 0x180
/-- PE_FLAGS at channel offset 0x184. -/
abbrev Reg.peFlags : Nat := 0x184
/-- PE_FLAG_COUNT at channel offset 0x188. -/
abbrev Reg.peFlagCount : Nat := 0x188
/-- PE_WMON at channel offset 0x18C. -/
abbrev Reg.peWmon : Nat := 0x18C
/-- PE_WMON_CNT at channel offset 0x190. -/
abbrev Reg.peWmonCnt : Nat := 0x190
/-- PE_THR_NOW at channel offset 0x194. -/
abbrev Reg.peThrNow : Nat := 0x194
/-- PE_LIMIT_V at channel offset 0x1A0. -/
abbrev Reg.peLimitV : Nat := 0x1A0
/-- PE_LIMIT_CFG at channel offset 0x1A4. -/
abbrev Reg.peLimitCfg : Nat := 0x1A4
/-- FL_CH_SITE at channel offset 0x200. -/
abbrev Reg.flChSite : Nat := 0x200
/-- FL_CH_FAIL at channel offset 0x204. -/
abbrev Reg.flChFail : Nat := 0x204
/-- FL_CH_LAST at channel offset 0x208. -/
abbrev Reg.flChLast : Nat := 0x208
/-- TIA_CFG at channel offset 0x300. -/
abbrev Reg.tiaCfg : Nat := 0x300
/-- TIA_N at channel offset 0x304. -/
abbrev Reg.tiaN : Nat := 0x304
/-- TIA_GATE at channel offset 0x308. -/
abbrev Reg.tiaGate : Nat := 0x308
/-- TIA_TIMEOUT at channel offset 0x30C. -/
abbrev Reg.tiaTimeout : Nat := 0x30C
/-- TIA_CTL at channel offset 0x310. -/
abbrev Reg.tiaCtl : Nat := 0x310
/-- TIA_STATUS at channel offset 0x314. -/
abbrev Reg.tiaStatus : Nat := 0x314
/-- TIA_COUNT at channel offset 0x318. -/
abbrev Reg.tiaCount : Nat := 0x318
/-- TIA_FCNT at channel offset 0x31C. -/
abbrev Reg.tiaFcnt : Nat := 0x31C
/-- TIA_LAST_LO at channel offset 0x320. -/
abbrev Reg.tiaLastLo : Nat := 0x320
/-- TIA_LAST_HI at channel offset 0x324. -/
abbrev Reg.tiaLastHi : Nat := 0x324
/-- TIA_MEAN_LO at channel offset 0x328. -/
abbrev Reg.tiaMeanLo : Nat := 0x328
/-- TIA_MEAN_HI at channel offset 0x32C. -/
abbrev Reg.tiaMeanHi : Nat := 0x32C
/-- TIA_SDEV_LO at channel offset 0x330. -/
abbrev Reg.tiaSdevLo : Nat := 0x330
/-- TIA_SDEV_HI at channel offset 0x334. -/
abbrev Reg.tiaSdevHi : Nat := 0x334
/-- TIA_MIN_LO at channel offset 0x338. -/
abbrev Reg.tiaMinLo : Nat := 0x338
/-- TIA_MIN_HI at channel offset 0x33C. -/
abbrev Reg.tiaMinHi : Nat := 0x33C
/-- TIA_MAX_LO at channel offset 0x340. -/
abbrev Reg.tiaMaxLo : Nat := 0x340
/-- TIA_MAX_HI at channel offset 0x344. -/
abbrev Reg.tiaMaxHi : Nat := 0x344
/-- TIA_SKIP at channel offset 0x348. -/
abbrev Reg.tiaSkip : Nat := 0x348
/-- TIA_DISCARD at channel offset 0x34C. -/
abbrev Reg.tiaDiscard : Nat := 0x34C
/-- TIA_LOST at channel offset 0x350. -/
abbrev Reg.tiaLost : Nat := 0x350
/-- TIA_FLAGS at channel offset 0x354. -/
abbrev Reg.tiaFlags : Nat := 0x354
/-- TIA_FLAG_COUNT at channel offset 0x358. -/
abbrev Reg.tiaFlagCount : Nat := 0x358
/-- TIA_LINE at channel offset 0x35C. -/
abbrev Reg.tiaLine : Nat := 0x35C
/-- TIA_CD_CTL at channel offset 0x360. -/
abbrev Reg.tiaCdCtl : Nat := 0x360
/-- TIA_BW_ADDR at channel offset 0x364. -/
abbrev Reg.tiaBwAddr : Nat := 0x364
/-- TIA_BW_DATA at channel offset 0x368. -/
abbrev Reg.tiaBwData : Nat := 0x368
/-- PMU_FORCE at channel offset 0x400. -/
abbrev Reg.pmuForce : Nat := 0x400
/-- PMU_CLAMP_V at channel offset 0x404. -/
abbrev Reg.pmuClampV : Nat := 0x404
/-- PMU_CLAMP_I at channel offset 0x408. -/
abbrev Reg.pmuClampI : Nat := 0x408
/-- PMU_CFG at channel offset 0x40C. -/
abbrev Reg.pmuCfg : Nat := 0x40C
/-- PMU_FILT at channel offset 0x410. -/
abbrev Reg.pmuFilt : Nat := 0x410
/-- PMU_ACT_FORCE at channel offset 0x440. -/
abbrev Reg.pmuActForce : Nat := 0x440
/-- PMU_ACT_CLAMP_V at channel offset 0x444. -/
abbrev Reg.pmuActClampV : Nat := 0x444
/-- PMU_ACT_CLAMP_I at channel offset 0x448. -/
abbrev Reg.pmuActClampI : Nat := 0x448
/-- PMU_ACT_CFG at channel offset 0x44C. -/
abbrev Reg.pmuActCfg : Nat := 0x44C
/-- PMU_ACT_FILT at channel offset 0x450. -/
abbrev Reg.pmuActFilt : Nat := 0x450
/-- PMU_STATUS at channel offset 0x480. -/
abbrev Reg.pmuStatus : Nat := 0x480
/-- PMU_FLAGS at channel offset 0x484. -/
abbrev Reg.pmuFlags : Nat := 0x484
/-- PMU_FLAG_COUNT at channel offset 0x488. -/
abbrev Reg.pmuFlagCount : Nat := 0x488
/-- PMU_RESULT at channel offset 0x48C. -/
abbrev Reg.pmuResult : Nat := 0x48C
/-- PMU_WORDS at channel offset 0x490. -/
abbrev Reg.pmuWords : Nat := 0x490
/-- PMU_DCB at channel offset 0x494. -/
abbrev Reg.pmuDcb : Nat := 0x494
/-- PMU_WIN_HI at channel offset 0x498. -/
abbrev Reg.pmuWinHi : Nat := 0x498
/-- PMU_WIN_LO at channel offset 0x49C. -/
abbrev Reg.pmuWinLo : Nat := 0x49C
/-- PMU_WMON at channel offset 0x4A0. -/
abbrev Reg.pmuWmon : Nat := 0x4A0
/-- PMU_WMON_CNT at channel offset 0x4A4. -/
abbrev Reg.pmuWmonCnt : Nat := 0x4A4
/-- PMU_LIMIT_V at channel offset 0x4B0. -/
abbrev Reg.pmuLimitV : Nat := 0x4B0
/-- PMU_LIMIT_CFG at channel offset 0x4B4. -/
abbrev Reg.pmuLimitCfg : Nat := 0x4B4
/-- TG_CKM_PERIOD_LO at channel offset 0xF00. -/
abbrev Reg.tgCkmPeriodLo : Nat := 0xF00
/-- TG_CKM_PERIOD_HI at channel offset 0xF04. -/
abbrev Reg.tgCkmPeriodHi : Nat := 0xF04
/-- TG_CKM_ERR_CNT at channel offset 0xF08. -/
abbrev Reg.tgCkmErrCnt : Nat := 0xF08

end Sys2Proof.Machine
end

