-- ==== Sys2Proof/Machine/Tbl.lean ====
section
/-! DEFINITION. Sparse tables of plain data: a list of (key, value) pairs with strictly rising keys and no entry equal to
what an unlisted key reads as, so that equal tables are equal data. -/

namespace Sys2Proof.Machine

/-- A table from natural-number keys to values. -/
abbrev Tbl (α : Type) := List (Nat × α)

/-- What key `k` reads as: its entry, or the default `d k` when no entry is listed. -/
def Tbl.get {α : Type} (d : Nat → α) : Tbl α → Nat → α
  | [], k => d k
  | (j, v) :: t, k => if j = k then v else Tbl.get d t k

/-- The table without what it lists at key `k`. -/
def Tbl.drop {α : Type} (k : Nat) (t : Tbl α) : Tbl α := t.filter (fun e => !decide (e.1 = k))

/-- The entry `(k, v)` at its place among rising keys. -/
def Tbl.ins {α : Type} (k : Nat) (v : α) : Tbl α → Tbl α
  | [] => [(k, v)]
  | (j, w) :: t => if k < j then (k, v) :: (j, w) :: t else (j, w) :: Tbl.ins k v t

/-- Writes `v` at key `k`, keeping the canonical form. -/
def Tbl.set {α : Type} [DecidableEq α] (d : Nat → α) (t : Tbl α) (k : Nat) (v : α) : Tbl α :=
  if v = d k then Tbl.drop k t else Tbl.ins k v (Tbl.drop k t)

/-- Every key of the table is above `n`. -/
def Tbl.above {α : Type} (n : Nat) : Tbl α → Bool
  | [] => true
  | (j, _) :: t => decide (n < j) && Tbl.above n t

/-- The canonical form: keys strictly rise and no entry equals the default. -/
def Tbl.wf {α : Type} [DecidableEq α] (d : Nat → α) : Tbl α → Bool
  | [] => true
  | (j, v) :: t => decide (v ≠ d j) && Tbl.above j t && Tbl.wf d t

/-- Updates the value at `k` by `f`. -/
def Tbl.mod {α : Type} [DecidableEq α] (d : Nat → α) (t : Tbl α) (k : Nat) (f : α → α) : Tbl α :=
  Tbl.set d t k (f (Tbl.get d t k))

/-- Writes the values of a list at successive keys from `k`. -/
def Tbl.setList {α : Type} [DecidableEq α] (d : Nat → α) (t : Tbl α) (k : Nat) : List α → Tbl α
  | [] => t
  | v :: vs => Tbl.setList d (Tbl.set d t k v) (k + 1) vs

/-- Reads `n` values at successive keys from `k`. -/
def Tbl.getList {α : Type} (d : Nat → α) (t : Tbl α) (k : Nat) (n : Nat) : List α :=
  (List.range n).map (fun i => Tbl.get d t (k + i))

end Sys2Proof.Machine
end

