-- ==== Sys2Proof/Machine/State.lean ====
section
/-! DEFINITION. The state of the NL5120: every register by its BAR0 offset, and the memories, queues, engines and pins that
the rules give the module. -/

namespace Sys2Proof.Machine

/-! ### Device: boot, time, event recorder, host link -/

/-- Where the module stands between a supply edge and READY (R101, R499, R501, R515 to R517). -/
inductive Stage where
  /-- VIN below its operating range. -/
  | off
  /-- PFW_N asserted: shed, waiting for the cold start of R517. -/
  | powerFail
  /-- A warm reset is held (R502). -/
  | resetHeld
  /-- The boot phases P0 to P9 run; BOOT_STATUS.PHASE says which. -/
  | booting
  /-- READY. -/
  | ready
  /-- The boot stopped with a failure code (R107). -/
  | failed
  /-- The safe state of a wedge (R498, R499). -/
  | safe
  deriving DecidableEq, Repr

/-- One event record (R478), without its CRC, which its bytes determine. -/
structure EvRec where
  code   : Nat
  source : Nat
  rept   : Nat
  optime : Nat
  pcycle : Nat
  data   : BitVec 128
  deriving DecidableEq, Repr

/-- The boot: the slots tried, and what the first of them failed with (R104). -/
structure Boot where
  stage       : Stage
  /-- The next start is a cold one: VIN_POWER_UP or PFW_N came (R501, R502). -/
  cold        : Bool
  /-- Slots already tried at this start. -/
  tried       : List Nat
  /-- Failure code of the first slot tried (R104). -/
  firstCode   : Nat
  /-- The configuration is sealed (R109). -/
  sealed      : Bool
  /-- The DRAM is trained, or out of self-refresh (R102). -/
  dramUp      : Bool
  /-- The boot march has ended (R102, R445). -/
  marched     : Bool
  /-- A DEVICE_RESET command has completed and its reset is 10 µs away (R501). -/
  resetDue    : Bool
  /-- Milliseconds since the management controller's last heartbeat (R495). -/
  mgtAge      : Nat
  deriving DecidableEq, Repr

/-- The time base (R41 to R76). -/
structure Clk where
  epoch      : BitVec 64
  /-- The value of an EPOCH command that waits for its tick (R73). -/
  epochSet   : Option (BitVec 64)
  /-- A full reset has begun: the epoch holds 0 on the next tick (R72, R75). -/
  epochZero  : Bool
  optime     : BitVec 40
  pcycle     : BitVec 24
  /-- The index of the last CK_REF tick modulo 10, for REF10 (R63); none until the divider has started. -/
  ref10      : Option Nat
  /-- The EPOCH_OUT level of the last tick, before the enable of CLK_OUT_CTL. -/
  pulse      : Bool
  /-- The fractional step of the feedback ratio that the root PLL applies, in units of 2^-32 (R41, R42). -/
  frac       : Int
  /-- The enables of CLK_OUT_CTL that the reference outputs follow (R62, R75; DEDUCED, log 86). -/
  outEn      : Nat
  /-- CLK_CORR_TEMP when HOLDOVER was entered, and the held offset (R59). -/
  holdTemp   : W32
  holdBase   : W32
  deriving DecidableEq, Repr

/-- The event recorder (R477 to R491). -/
structure Evr where
  started    : Bool
  /-- False from PWR_WARN on (R484). -/
  accepting  : Bool
  openRec    : Option EvRec
  queue      : List EvRec
  /-- Drops not yet reported by an EVR_OVERFLOW record, with the OPTIME of the first and of the last (R481). -/
  pendDrops  : Nat
  firstDrop  : Nat
  lastDrop   : Nat
  /-- Source, code and data of the occurrences before the recorder started (R485). -/
  startBuf   : List (Nat × Nat × BitVec 128)
  startDrops : Nat
  /-- The on-die ring of 1,024 slots (R489). -/
  ring       : Tbl (Option EvRec)
  /-- The ring's one shadow: the marked slot and its copy (R489). -/
  ringShadow : Option (Nat × Option EvRec)
  /-- The shadow of EVR_OPEN0 to EVR_OPEN7 (R489). -/
  openShadow : Option (Option EvRec)
  /-- The records of the flash program in progress (R482). -/
  inProgram  : List EvRec
  /-- Log block whose erase is in progress (R487). -/
  erasing    : Option Nat
  /-- Log blocks that failed (R488). -/
  badBlocks  : List Nat
  deriving DecidableEq, Repr

/-- The flash and the fuses (R77 to R100). -/
structure Nvm where
  /-- Flash bytes by address; an unlisted byte is erased, 0xFF. -/
  flash    : Tbl Byte
  /-- Digest of each key slot that holds one (R88), by slot. -/
  keys     : List (Nat × BitVec 384)
  revoked  : BitVec 4
  /-- The 64-bit thermometer of R90. -/
  rollback : BitVec 64
  /-- Index of the next free 32-byte entry of the persistent area (R99, R100). -/
  persist  : Nat
  /-- The flash has answered and is in octal DTR mode (R79). -/
  up       : Bool
  /-- The persistent area has been scanned since the last cold start (P3). -/
  scanned  : Bool
  /-- The SFDP read has found no flash, or one that breaks R77 (R79). -/
  noFlash  : Bool
  deriving DecidableEq, Repr

/-- A command entry as fetched (R430), with its ring index. -/
structure Cmd where
  opcode  : Nat
  flags   : Nat
  tag     : Nat
  arg0    : Nat
  arg1    : Nat
  len     : Nat
  haddr   : Nat
  daddr   : Nat
  /-- The reserved bytes of the entry are 0. -/
  clean   : Bool
  index   : Nat
  /-- Fetched before a link reset: its completion is dropped (R422). -/
  dropped : Bool
  deriving DecidableEq, Repr

/-- A background command in progress (R434), with the blocks a STREAM has posted. -/
structure BgCmd where
  cmd    : Cmd
  posted : Nat
  deriving DecidableEq, Repr

/-- The host link (R421 to R440). -/
structure Hst where
  /-- Commands fetched and not started, oldest first (R428). -/
  fetched   : List Cmd
  /-- The foreground command in progress: RUN up to the master's start, or EPOCH (R434). -/
  fg        : Option Cmd
  bg        : List BgCmd
  /-- Completion slots reserved for commands in flight (R428). -/
  reserved  : Nat
  /-- The completion ring in host memory, as last written, by index (R429, R431). -/
  cplRing   : Tbl (BitVec 128)
  /-- Host memory by bus address, as far as the module has written it (READ, LOG_READ, completions) or fetched commands from it (R427). -/
  hostMem   : Tbl Byte
  /-- The MSI-X table, by word from 0x0003_8000, and the PBA (R437). -/
  msixTable : Tbl W32
  pba       : BitVec 64
  /-- Messages sent, by vector (R438). -/
  messages  : Tbl Nat
  /-- What the last BAR0 read returned. -/
  readData  : W32
  /-- What the last BAR2 read returned. -/
  bar2Data  : List Byte
  /-- The last BAR0 request was completed with Unsupported Request (R423). -/
  ur        : Bool
  deriving DecidableEq, Repr

/-! ### Device: memories, calibration, power -/

/-- The repair state of one SRAM macro (R449). -/
structure Macro where
  /-- Retired rows, in the order they were retired. -/
  retired   : List Nat
  /-- Assigned spares: (spare, row). -/
  used      : List (Nat × Nat)
  /-- Spares withdrawn because they failed. -/
  badSpares : List Nat
  deriving DecidableEq, Repr

/-- A host march in progress (R445 to R451). -/
structure March where
  preserving : Bool
  /-- Macros not yet finished. -/
  left       : List Nat
  anySpared  : Bool
  anyRetired : Bool
  deriving DecidableEq, Repr

/-- The on-die memories and the DRAM (R441 to R458). -/
structure Mem where
  macros   : Tbl Macro
  march    : Option March
  /-- Windows kept borrowed for a running plan: (macro, row) (R449). -/
  held     : List (Nat × Nat)
  /-- DRAM bytes by address. -/
  dram     : Tbl Byte
  /-- The refill blocks in the DRAM request queues, oldest first: (DRAM channel, lane) (R40, R180). -/
  dramQ    : List (Nat × Nat)
  /-- The timing-set memory by byte of its class: cluster × 18,432 + set × 288 + channel × 18 + cell × 3 (R202, R441; the order within a
  set: DEDUCED, log 97). -/
  timing   : Tbl Byte
  /-- The fail counter memory by byte, one byte per counter: site × 16384 + column select × 8192 + index (R281). -/
  failCnt  : Tbl Byte
  deriving DecidableEq, Repr

/-- A calibration in progress (R465 to R469). -/
structure CalRun where
  /-- ARG0 of the command. -/
  arg       : Nat
  /-- Items not yet ended, in the order of R459. -/
  left      : List Nat
  partly    : Bool
  /-- New values of the calibration store, by bank offset, which take effect together (R469). -/
  fresh     : Tbl (Option Byte)
  /-- Lines with a new bin-width table: (channel, cell). -/
  tables    : List (Nat × Nat)
  /-- The second half of the TIP step runs (R385, R467). -/
  half      : Bool
  /-- A touchdown or lift-off came during the TIP step (R466). -/
  disturbed : Bool
  /-- The measuring steps have ended and the values are in use (R469). -/
  applied   : Bool
  deriving DecidableEq, Repr

/-- The calibration store (R460 to R476). -/
structure Cal where
  /-- The on-die copy of the active bank, by bank offset (R470). -/
  bytes     : Tbl Byte
  /-- The store holds values from a bank (R468). -/
  fromBank  : Bool
  run       : Option CalRun
  /-- Step of R473 that a store is in, 0 when none is. -/
  storeStep : Nat
  /-- Base Kb of each cell, by 6 × channel + cell (R462). -/
  kb        : Tbl Int
  /-- Temperature term Kt of the drive (even) and strobe (odd) cells, by 2 × channel + kind (R463). -/
  kt        : Tbl Int
  deriving DecidableEq, Repr

/-- Supplies and sensors (R509 to R527). -/
structure Pwr where
  /-- The module drives PFW_N low. -/
  pfwLow    : Bool
  /-- Load was shed and the shedding has ended (R517). -/
  shedEnded : Bool
  /-- Sensors whose last reading was valid (R522). -/
  valid     : BitVec 64
  /-- Last valid reading of each sensor in 1/64 °C. -/
  temps     : Tbl (BitVec 16)
  deriving DecidableEq, Repr


/-! ### Sequencers, lanes and plans -/

/-- A 192-bit microword (R126). -/
abbrev UWord := BitVec 192

/-- Where a sequencer stands: at a control-store address, in the ROM plan runner of R172, or at word `i` of the default master
part of R162. -/
inductive Pos where
  | word (addr : Nat)
  | runner
  | dflt (i : Nat)
  deriving DecidableEq, Repr

/-- A stack frame (R131, R143): a call frame, or the interrupt frame of a line, with the executions still to run, the cycles a
WAIT or SYNC has counted, its barrier arrival and a release held with it. -/
structure Frame where
  line     : Option Nat
  pos      : Pos
  left     : Option Nat
  waiting  : Bool
  waited   : Nat
  arrived  : Option Nat
  released : Bool
  deriving DecidableEq, Repr

/-- Why a sequencer is held at a boundary (R122, R123, R409), or HOLD after its part has ended (R173). -/
inductive HoldWhy where
  | none
  | room
  | fetch
  | send
  | ended
  deriving DecidableEq, Repr

/-- The address and data generators of a lane (R133). -/
structure Gen where
  x       : Nat
  y       : Nat
  xbase   : Nat
  xmax    : Nat
  xstride : Nat
  ybase   : Nat
  ymax    : Nat
  ystride : Nat
  z       : Nat
  zbase   : Nat
  zmax    : Nat
  bg      : Nat
  walk    : Nat
  d       : Nat
  deriving DecidableEq, Repr

/-- One Molno sequencer (R116 to R148). -/
structure Seq where
  /-- 0 IDLE, 1 RUN, 2 HOLD, 3 WAIT, 4 FAULT_STOP (SEQ_STATUS.STATE). -/
  st       : Nat
  pos      : Pos
  /-- Executions of the current microword still to run; none before its first. -/
  left     : Option Nat
  lc       : Tbl Nat
  flags    : BitVec 4
  tload    : Nat
  timer    : Nat
  timerOn  : Bool
  /-- The timer has counted down to 0 (R132). -/
  tmr      : Bool
  stack    : List Frame
  /-- Pending interrupt lines 0 to 4 (R141). -/
  pend     : BitVec 5
  /-- Code and address of a fault that waits for its handler (R146). -/
  fault    : Option (Nat × Nat)
  /-- A hooked FAULT handler runs (R146, R151). -/
  inFault  : Bool
  holdWhy  : HoldWhy
  /-- In a WAIT or SYNC, with the cycles counted, the barrier arrived at and a release held (R130, R143). -/
  waiting  : Bool
  waited   : Nat
  arrived  : Option Nat
  released : Bool
  /-- Whether X, Y and Z carried in the last execution (R129). -/
  xc       : Bool
  yc       : Bool
  zc       : Bool
  gen      : Gen
  cyc      : BitVec 64
  /-- The master's runner has called MASTER_ENTRY. -/
  called   : Bool
  /-- Patch and routine words by address; an unlisted word is the trap word (R117, R118). -/
  store    : Tbl UWord
  /-- The 32 hook entries: (index, address, address fetched instead) (R151). -/
  hooks    : List (Nat × Nat × Nat)
  /-- The handler latches by interrupt line (R142); an unlisted one holds the trap word. -/
  latches  : Tbl UWord
  /-- The line whose handler latch holds the current microword, at a handler's first word (R142). -/
  latched  : Option Nat
  deriving DecidableEq, Repr

/-- One entry of a segment table (R163). -/
structure Segm where
  kind   : Nat
  fin    : Bool
  pin    : Bool
  sluice : Bool
  tset   : Nat
  next   : Nat
  rept   : Nat
  map    : Nat
  base   : Nat
  len    : Nat
  keepv  : W32
  deriving DecidableEq, Repr

/-- The addresses and the data word that a GEN vector carries (R138, R271). -/
structure GenTag where
  x : Nat
  y : Nat
  z : Nat
  d : Nat
  deriving DecidableEq, Repr

/-- A vector in the issue queue: its codes, the map and timing set it was posted with, the segment and play of the posting, and
whether it was inserted in a gap (R123, R167, R190). -/
structure Vec where
  codes : W32
  map   : Nat
  tset  : Nat
  seg   : Nat
  play  : Nat
  gap   : Bool
  gen   : Option GenTag
  deriving DecidableEq, Repr

/-- A DDS token (R361): the keep-alive vector it issues 64 times, the entry that its segment names, the entry it plays (none: it
plays IDLE_CODE under R364), its play and its granule, and whether it is the first since its segment was made current. -/
structure Token where
  keep  : Vec
  named : Option Nat
  entry : Option Nat
  play  : Nat
  g     : Nat
  enter : Bool
  deriving DecidableEq, Repr

/-- What the issue queue holds (R123, R124, R127): vectors, DDS tokens of 64 slots, and markers that take none: LDSTB, SCRLD,
SRCSEL. -/
inductive Item where
  | vec (v : Vec)
  | token (t : Token)
  | marker (ldstb scrld : Bool) (src : Nat)
  deriving DecidableEq, Repr

/-- A granule of the stream ring, or one that a refill request has named (R178, R180): its segment, its index in the play, its
granule in the vector region, and its 64 words once they have arrived. -/
structure Gran where
  seg  : Nat
  g    : Nat
  addr : Nat
  data : List W32
  deriving DecidableEq, Repr

/-- A place in the runner's order: segment, plays finished, next granule (R172). -/
structure Place where
  seg   : Nat
  plays : Nat
  g     : Nat
  deriving DecidableEq, Repr

/-- A refill block under way: its granules as the DRAM serves the request, whether a discard has overtaken it, the sluice blocks it
ends, and the DRAM channel that it lies on (R180, R185, R454). -/
structure Refill where
  grans   : List Gran
  dropped : Bool
  credits : Nat
  chan    : Nat
  deriving DecidableEq, Repr

/-- Frozen context of an issued vector (R30, R196, R261): its number since the lane start, its lane word, its start T, its timing set,
its segment and play, its pin states, its generator addresses and the sites masked. -/
structure IssVec where
  no     : Nat
  /-- The lane word that crosses to the pin die (R30). -/
  word   : BitVec 64
  t      : Nat
  tset   : Nat
  seg    : Nat
  play   : Nat
  pins   : List Nat
  gen    : Option GenTag
  masked : BitVec 64
  /-- The active response tables of the 16 channels, where some pin state is SCR; else none (R212). -/
  tables : List (BitVec 64)
  /-- The pin states of the vector before, where `tables` is not empty (R214). -/
  prev   : List Nat
  /-- The CK_EDGE cycle of the pad start of the lane's first vector (R171, R29). -/
  pad    : Nat
  deriving DecidableEq, Repr

/-- What an entry of an edge queue does when it is placed (R203, R206, R214). -/
inductive EdgeAct where
  /-- Edge D0: the driver turns on or off, at the held level or at the level of a merged D1; and the load of R205. -/
  | enable (on : Bool) (level : Option Bool) (load : Bool)
  /-- A level edge D1, D2 or D3. -/
  | level (v : Bool)
  /-- A strobe, in edge or window mode. -/
  | strobe (win : Bool)
  /-- A drive entry of an SCR vector that the lookup has not filled. -/
  | open_
  deriving DecidableEq, Repr

/-- One entry of an edge queue (R207): its cell, its time t, its placement code q, the delay stage that the line's correction table gave its
fine code when it was formed (R198, R311), and its vector. -/
structure Edge where
  cell  : Nat
  t     : Int
  q     : Int
  stage : Nat
  act   : EdgeAct
  vec  : IssVec
  pin  : Nat
  deriving DecidableEq, Repr

/-- The sense bit of one vector (R213); `pad` tells the vectors of one lane start from those of another. -/
structure Sense where
  pad   : Nat
  no    : Nat
  bit   : Bool
  indet : Bool
  t     : Int
  deriving DecidableEq, Repr

/-- A strobe result on its way to the fail logic (R31): the CK_VEC cycle of its strobe edge at the pad (R32, R264), its channel and strobe,
the window flag, its vector, the pin state and the result word. -/
structure Result where
  cycle : Int
  ch    : Nat
  s1    : Bool
  win   : Bool
  vec   : IssVec
  pin   : Nat
  word  : Nat
  deriving DecidableEq, Repr

/-- One entry of a fail queue (R269): KIND, site, result and SEQ. -/
structure FailEnt where
  kind   : Nat
  site   : Fin 64
  res    : Result
  seq    : Nat
  deriving DecidableEq, Repr

/-- The match verdict of a vector under way (R266): counted results still to come, whether one has come, and whether all were
PASS. -/
structure Verdict where
  pad  : Nat
  no   : Nat
  left : Nat
  any  : Bool
  pass : Bool
  deriving DecidableEq, Repr

/-- One lane beside its sequencer: its segment table and place, its vector cache and refill, its issue queue, its vectors and its
fail logic. -/
structure Lane where
  table     : List Segm
  entrySeg  : Nat
  /-- The current segment, its plays and its next granule (R172). -/
  place     : Place
  ranSeg    : Bool
  /-- Starts of R140 that are still to fall. -/
  due       : Nat
  /-- Armed for an aligned start (R414). -/
  armed     : Bool
  /-- From the lane start until the lane is idle. -/
  live      : Bool
  /-- The part has ended and the queue drains (R173). -/
  ended     : Bool
  queue     : List Item
  /-- Pinned granules in cache order (R178). -/
  pinned    : List (List W32)
  ring      : List Gran
  /-- Next place of the prediction; none where it stops (R179). -/
  pred      : Option Place
  inflight  : List Refill
  /-- Sluice blocks posted and not wholly read, granules read of the block at NEXT_READ, and credits due (R183 to R185). -/
  slBlocks  : Nat
  slIn      : Nat
  creditDue : Nat
  jump      : Option Nat
  /-- The pending request has been granted and its effect is still to come (R177). -/
  granted   : Bool
  inGap     : Bool
  /-- Vectors of the present keep-alive granule of R189 still to insert. -/
  fillLeft  : Nat
  /-- Vectors that the lane has issued (R190). -/
  issued    : Nat
  t         : Nat
  prevPins  : List Nat
  formQ     : List IssVec
  /-- Load strobes of markers that wait for their first vector (R225), and the load strobe at ts of an issued vector. -/
  ldstb     : Bool
  strobes   : List Nat
  failLatch : Bool
  matchV    : Bool
  flMatch   : W32
  verdicts  : List Verdict
  results   : List Result
  failQ     : List FailEnt
  seq       : Nat
  slot      : Nat
  /-- SEQ_ROLE0 to SEQ_ROLE3 and FL_CTL as the lane read them at its start (R154, R285). -/
  roles     : BitVec 128
  flCtl     : W32
  /-- The LOST record of this part has been written (R273). -/
  lostDone  : Bool
  /-- The CK_EDGE cycle of the pad start of the first vector of the current start (R29, R171). -/
  pad       : Nat
  /-- What PLN_SEG.SEG, PLN_SEG.KIND and PLN_PLAY hold from a load until the lane start that clears them (R194). -/
  was       : Option (Nat × Nat × Nat)
  deriving DecidableEq, Repr

/-- The plan and the master (R155 to R174): the plan that runs or loads, its causes of R174, and the shared-trigger latch. -/
structure Plan where
  lanes     : BitVec 32
  abort     : Bool
  aligned   : Bool
  /-- The load of a RUN command has passed and the master has not started. -/
  loading   : Option Cmd
  entry     : Option Nat
  faulted   : Bool
  stopped   : Bool
  underrun  : Bool
  gapped    : Bool
  /-- The cycle of the first LSTART of the run has come (R263). -/
  started   : Bool
  ext       : Bool
  /-- Start instants of R414 that are still to fall. -/
  startDue  : Nat
  /-- Plan bytes of each volatile slot: the number it holds (R157). -/
  slots     : Tbl Nat
  /-- The lengths of the plans in the slots. -/
  lens      : Tbl Nat
  /-- Sites that have posted FL_UNREPAIRABLE in this plan (R280). -/
  unrep     : BitVec 64
  /-- A FL_CLEAR in progress: the sites whose bitmaps are still to be zeroed (R283). -/
  clearing  : List Nat
  deriving DecidableEq, Repr

/-! ### Pin slices, TIAs, PMUs -/

/-- A captured staging set, by channel offset: PE_VIL to PE_RAMP_LEN and PMU_FORCE to PMU_FILT (R222, R321). -/
abbrev LevelSet := List (Nat × W32)

/-- One transition in the merged stream of a TIA (R293), or one that its line lost (R300); `line` is 6 × channel + cell. -/
structure TEvent where
  ts    : Nat
  start : Bool
  stop  : Bool
  low   : Bool
  rise  : Bool
  line  : Nat
  lost  : Bool
  deriving DecidableEq, Repr

/-- One time-interval analyser (R286 to R314). -/
structure Tia where
  heldStart : Option Nat
  heldStop  : Option Nat
  prev      : Option Nat
  gateNo    : Nat
  gateCount : Nat
  gateFirst : Nat
  gateLast  : Nat
  gateBad   : Bool
  events    : List TEvent
  n         : Nat
  sum       : Int
  sq        : Int
  minV      : Int
  maxV      : Int
  /-- A transition was lost since the last timestamp word. -/
  loss      : Bool
  /-- Lines that this measurement has timestamps on. -/
  lines     : List Nat
  /-- An ARM was taken and its arm instant is to come (R289). -/
  armDue    : Bool
  /-- The CK_EDGE cycle of the arm instant (R289). -/
  armAt     : Nat
  /-- Lines whose table has changed since this measurement had a timestamp on them (R314). -/
  changed   : List Nat
  deriving DecidableEq, Repr

/-- One parametric unit and its decimation chain (R317 to R336). -/
structure Pmu where
  /-- Words issued since the synchronising reset. -/
  k         : Nat
  /-- A synchronising reset has come since the chain was last held in reset (R330). -/
  live      : Bool
  /-- The CK_EDGE cycle of the last synchronising reset (R329). -/
  resetAt   : Nat
  /-- Synchronising resets still to come (R328). -/
  resets    : Nat
  /-- FREEZE held s at the last synchronising reset, so that word 0 does not reload it (R334). -/
  kept      : Bool
  /-- Offset s of the DC-blocking stage. -/
  s         : Int
  /-- Times in CK_EDGE cycles at which a clamp acted: entry, and exit once it has come; and at which the modulator overloaded. -/
  clamps    : List (Nat × Option Nat)
  overs     : List Nat
  deriving DecidableEq, Repr

/-- The last change of a comparator's output: whether it was the crossing that cleared HYST_INIT (R287), and whether it set a window
monitor latch whose input to the trigger engine still takes the time of this transition (R346). -/
structure Cross where
  cleared : Bool
  latched : Bool
  deriving DecidableEq, Repr

/-- One channel beside its registers. -/
structure Chan where
  formed    : Nat
  queue     : List Edge
  /-- Window strobes from their open to their close, and whether an instant since the open was indeterminate (R206, R257). -/
  watch     : List (Edge × Bool)
  /-- Cell, coarse count and delay stage of the last edge placed (R198, R311). -/
  placed    : Option (Nat × Int × Nat)
  /-- One more than the CK_EDGE cycle in which the line of each strobe cell last placed a strobe (R288); 0 for none. -/
  strobeAt  : Tbl Nat
  lastDrive : Option Int
  lastClose : Option Int
  /-- The last close of each strobe cell, for the spacing of a pair's cells (R211). -/
  close0    : Option Int
  close1    : Option Int
  held      : Bool
  /-- The formatter's drive state, and the level that it drives: what the drivers take when they act at the pad (R204, R206, R230). -/
  drive     : Bool
  level     : Bool
  /-- The last response of an SCR vector (R214), for a HOLD after it. -/
  resp      : Nat
  loadOn    : Bool
  sense     : List Sense
  /-- SCR vectors whose lookup is still to come. -/
  scrWait   : List IssVec
  /-- Edge codes of the timing-set mirror, by 6 × set + cell (R202). -/
  mirror    : Tbl Nat
  acc       : Int
  rampLeft  : Option Nat
  ramping   : Bool
  /-- Time, in grid steps from CK_EDGE cycle 0, and level of the last level change of the formatter that pre-emphasis acts on (R235). -/
  tapAt     : Option (Int × Bool)
  /-- The last output changes of the high and of the low comparator. -/
  crossHi   : Cross
  crossLo   : Cross
  /-- Clock-mode period code in force, and the vector boundary that the clock counts from, in grid steps from CK_EDGE cycle 0 (R66, R67). -/
  ckm       : Nat
  ckmAt     : Option Nat
  /-- High-speed driver source to return to after sounding or calibration, with the clock that it counts (R27, R67, R380). -/
  srcSaved  : Option (Nat × Nat × Option Nat)
  tia       : Tia
  pmu       : Pmu
  /-- Lines of a code-density test that have not ended (R312). -/
  cdLeft    : List Nat
  /-- Bin widths of the six lines, by 320 × cell + bin (R311), and the temperature at their test. -/
  widths    : Tbl Nat
  testTemp  : Tbl Int
  /-- TIA_BW_ADDR has been written since the last full reset (R316; DEDUCED, log 98). -/
  bwRead    : Bool
  /-- One more than the raw code of the last transition that each comparator's line accepted (R288); 0 for none. -/
  lastRaw   : Tbl Nat
  deriving DecidableEq, Repr

/-! ### Clusters: monitor, triggers, acquisition, synthesis -/

/-- A capture record of 16 bytes (R348). -/
abbrev CapRec := BitVec 128

/-- An input of the next sample (R341): its source, its local channel, the bit of SEL it can meet (a KIND, or 0 LATCH_LO and 1
LATCH_HI), its strobe, and the pad instant that R346 gives it in grid steps from CK_EDGE cycle 0, with the method. -/
structure AcqIn where
  src    : Nat
  ch     : Nat
  sel    : Nat
  s1     : Bool
  time   : Option Int
  interp : Nat
  deriving DecidableEq, Repr

/-- A strobe result offered to capture: vector, strobe, local channel, result word (R347). -/
structure StrobeOffer where
  no   : Nat
  s1   : Bool
  ch   : Nat
  word : Nat
  deriving DecidableEq, Repr

/-- Trigger engine and acquisition (R340 to R360). -/
structure Acq where
  /-- A taken ARM whose arm instant is to come (R351). -/
  armDue   : Bool
  /-- Number of the next sample, counted from the arm instant, and the CK_EDGE cycle of the arm instant (R340, R346). -/
  sample   : Nat
  armAt    : Nat
  /-- The state machine's counter, and samples since its state was entered (R342). -/
  count    : Nat
  timer    : Nat
  /-- Inputs gathered for the next sample. -/
  inputs   : List AcqIn
  strobes  : List StrobeOffer
  pmu      : List (Nat × W32)
  tia      : List (Nat × BitVec 64)
  /-- The slot that the next record takes, counted on without a wrap: place `p` is slot p modulo the usable slots (R352, R450). -/
  place    : Nat
  /-- Pre-trigger records with their places, oldest first, and the number written since ARMED began (R352). -/
  pre      : List (Nat × CapRec)
  k        : Nat
  /-- Records of frames in the capture SRAM that wait for their spill, with their places, oldest first (R358). -/
  spillQ   : List (Nat × CapRec)
  /-- TRIGGER, GAP and FRAME records that wait for a slot, oldest first; true for a GAP record of the pre-trigger (R357). -/
  waits    : List (Bool × CapRec)
  /-- Records that the capture SRAM has accepted in this CK_VEC cycle (R350). -/
  used     : Nat
  /-- The pad start of the lane when the ARM was taken: with ARM_SRC = 1 the arm instant is that of a later start (R351). -/
  armPad   : Nat
  /-- Records offered and kept since the trigger (R354). -/
  offered  : Nat
  kept     : Nat
  lastTime : Nat
  /-- The open gap: its first sample and last dropped sample, and the records dropped (R357). -/
  gap      : Option (Nat × Nat × Nat)
  /-- The open frame was triggered early (R353). -/
  early    : Bool
  /-- The CK_VEC cycle that starts at a trigger instant still to come (R345). -/
  trigAt   : Option Nat
  /-- The met bitmap of the last sample (R343). -/
  met      : Nat
  deriving DecidableEq, Repr

/-- The granule of an issued token: the entry that it names, the CK_EDGE cycle in which its first sample reaches the deglitcher at the pad, and
its 64 sample codes (R362, R367). -/
structure DdsGran where
  named : Option Nat
  cycle : Nat
  codes : List Nat
  deriving DecidableEq, Repr

/-- One DDS engine (R361 to R373). -/
structure Dds where
  freq     : Tbl Nat
  phase    : Tbl Nat
  amp      : Tbl Nat
  entries  : Tbl (BitVec 64)
  /-- The accumulator after the last sample (R365). -/
  acc      : Nat
  /-- The granules of issued tokens, oldest first, until their samples have left the pad behind (R362, R372). -/
  out      : List DdsGran
  /-- CK_EDGE cycles in which a marker leaves the DAC at the pad, oldest first (R373). -/
  marks    : List Nat
  deriving DecidableEq, Repr

/-- A cluster beside its registers, its sequencer and its lane. -/
structure Clu where
  /-- Host load strobes that wait for their strobe instants (R225). -/
  hostStrobe : Nat
  /-- The monitor's conversion in progress: source and local channel; a START behind it; the scan's next conversion. -/
  mon        : Option (Nat × Nat)
  monNext    : Option (Nat × Nat)
  scanAt     : Option Nat
  acq        : Acq
  dds        : Dds
  deriving DecidableEq, Repr

/-- A contact and TDR result of one channel in the pass (R383 to R386). -/
structure SndRes where
  /-- VALUE of result words 0 to 3, and whether one of them carried CLAMPED or OVERLOAD. -/
  words   : List Int
  bad     : Bool
  /-- One of the measured lines was not LOCKED or TABLE during the TDR half. -/
  lineBad : Bool
  contact : Nat
  deskew  : Nat
  delta   : Int
  deriving DecidableEq, Repr

/-- Touchdown and sounding (R377 to R393). -/
structure Snd where
  /-- A TD_N touchdown stands. -/
  tdLow    : Bool
  /-- Source of a pending request. -/
  request  : Option Nat
  res      : Tbl SndRes
  deriving DecidableEq, Repr

/-! ### The Causeway -/

/-- A message cell (R397): its 128 bits, with the CRC. -/
abbrev Cell := BitVec 128

/-- What an end of a link sends in IDENT (R399). -/
structure Ident where
  serial   : BitVec 64
  part     : W32
  stepping : W32
  peat     : W32
  systemId : Nat
  priority : Nat
  port     : Port
  deriving DecidableEq, Repr

/-- One Causeway port beside its registers: its credits, the forwarded cells that wait for one, oldest first, and the message
cell that last left on it (R408). -/
structure PortSt where
  credits : Nat
  queue   : List Cell
  lastOut : Option Cell
  /-- Cells in the receive buffer of 64: those that still wait at the other port (R408). -/
  held    : Nat
  /-- Credits returned to the partner since the port came UP (R408). -/
  back    : Nat
  /-- The identity last sent in IDENT (R399). -/
  sent    : Option Ident
  /-- DELAY and LAT last returned to the partner by the downstream end of the link (R400). -/
  calSent : Option (Nat × Nat)
  deriving DecidableEq, Repr

/-- A message of the send queue (R409): its SEQ once a cell of it has left, and the ports by which it has left. -/
structure Send where
  type    : Nat
  payload : Nat
  ext     : BitVec 64
  seq     : Option Nat
  up      : Bool
  dn      : Bool
  deriving DecidableEq, Repr

/-- The content of an election cell (R403). -/
structure ElectCell where
  serial   : BitVec 64
  priority : Nat
  head     : Bool
  timing   : Nat
  deriving DecidableEq, Repr

/-- A part of a SUMMARY received from an origin (R413). -/
structure SumPart where
  seq  : Nat
  plan : Nat
  part : Nat
  ext  : BitVec 64
  deriving DecidableEq, Repr

/-- The Causeway (R395 to R419). -/
structure Cwy where
  up      : PortSt
  dn      : PortSt
  /-- Send queue of 16 messages (R409), oldest first. -/
  sendQ   : List Send
  /-- Messages that the hardware itself sends and that wait for room in the send queue (R39, R409; DESIGN CHOICE, log 101). -/
  sendWait : List Send
  /-- SEQ of the next own cell. -/
  seq     : Nat
  /-- Last SEQ of each origin. -/
  lastSeq : Tbl (Option Nat)
  parts   : Tbl (List SumPart)
  /-- The root phase slews to a new DELAY (R405). -/
  slewing : Bool
  /-- The election cell last flooded (R403). -/
  election : Option ElectCell
  deriving DecidableEq, Repr

/-! ### The state -/

/-- Why the block stops with a fault. No constructor: every command of the NL5120 has an effect that the rules give, or
none (DEDUCED, log 1). -/
inductive Fault where
  deriving DecidableEq, Repr

/-- Why the block refuses a command. -/
inductive Refusal where
  /-- Raised by an arm of `exec` whose meaning is still to be written; safe: nothing can be proved of such a command. -/
  | notModelled (mnemonic : String)
  deriving DecidableEq, Repr

/-- The state of the NL5120. `regs` holds every BAR0 register that is stored, by offset; `shadows` the HI values that a read of
a LO register has latched (R76); the rest are the memories, queues and engines. `freeCtr` is the model's own: it numbers the
free values (DESIGN CHOICE, log 15). -/
structure State where
  /-- Commands that wait, first in, first out (DESIGN CHOICE, log 7, log 81). -/
  pending : List Instr
  freeCtr : Nat
  regs    : Tbl W32
  shadows : Tbl (Option W32)
  boot    : Boot
  clk     : Clk
  evr     : Evr
  nvm     : Nvm
  hst     : Hst
  mem     : Mem
  cal     : Cal
  pwr     : Pwr
  /-- Sequencers, lanes, clusters and channels by number; an unlisted one is as its reset leaves it. -/
  seqs    : Tbl Seq
  lanes   : Tbl Lane
  clus    : Tbl Clu
  chans   : Tbl Chan
  plan    : Plan
  snd     : Snd
  cwy     : Cwy
  deriving DecidableEq, Repr

/-! ### Reset values of the engines -/

/-- The generators at each plan start (R133). -/
def genReset : Gen :=
  { x := 0, y := 0, xbase := 0, xmax := 0xFFFF, xstride := 1, ybase := 0, ymax := 0xFFFF, ystride := 1, z := 0, zbase := 0,
    zmax := 0xF, bg := 0, walk := 1, d := 0 }

/-- A sequencer after reset (R118, R154). -/
def seqReset : Seq :=
  { st := 0, pos := .word 0, left := none, lc := [], flags := 0, tload := 0, timer := 0, timerOn := false, tmr := false, stack := [],
    pend := 0, fault := none, inFault := false, holdWhy := .none, waiting := false, waited := 0, arrived := none, released := false,
    xc := false, yc := false, zc := false, gen := { genReset with xmax := 0, ymax := 0, zmax := 0, xstride := 0, ystride := 0, walk := 0 },
    cyc := 0, called := false, store := [], hooks := [], latches := [], latched := none }

/-- A lane after reset. -/
def laneReset : Lane :=
  { table := [], entrySeg := 0, place := { seg := 0, plays := 0, g := 0 }, ranSeg := false, due := 0,
    armed := false, live := false, ended := false, queue := [], pinned := [], ring := [], pred := none, inflight := [], slBlocks := 0,
    slIn := 0, creditDue := 0, jump := none, granted := false, inGap := false, fillLeft := 0, issued := 0, t := 0,
    prevPins := List.replicate 16 2, formQ := [], ldstb := false, strobes := [], failLatch := false, matchV := false,
    flMatch := 0, verdicts := [], results := [], failQ := [], seq := 0, slot := 0,
    roles := 0, flCtl := 0, lostDone := false, pad := 0, was := none }

/-- No plan (R194). -/
def planReset : Plan :=
  { lanes := 0, abort := false, aligned := false, loading := none,
    entry := none, faulted := false, stopped := false, underrun := false, gapped := false, started := false, ext := false, startDue := 0,
    slots := [], lens := [], unrep := 0, clearing := [] }

/-- A TIA after reset. -/
def tiaReset : Tia :=
  { heldStart := none, heldStop := none, prev := none, gateNo := 0, gateCount := 0, gateFirst := 0, gateLast := 0, gateBad := false,
    events := [], n := 0, sum := 0, sq := 0, minV := 0, maxV := 0, loss := false, lines := [], armDue := false, armAt := 0, changed := [] }

/-- A parametric unit after reset: its mode is OFF, so its chain is held in reset (R330). -/
def pmuReset : Pmu := { k := 0, live := false, resetAt := 0, kept := false, resets := 0, s := 0, clamps := [], overs := [] }

/-- No output change that matters. -/
def crossNone : Cross := { cleared := false, latched := false }

/-- A channel after reset: parked (R228). -/
def chanReset : Chan :=
  { formed := 0, queue := [], watch := [], placed := none, strobeAt := [], lastDrive := none, lastClose := none, close0 := none, close1 := none, held := false, drive := false, level := false, resp := 2,
    loadOn := false, sense := [], scrWait := [], mirror := [], acc := 0, rampLeft := none, ramping := false,
    tapAt := none, ckm := 0, ckmAt := none, srcSaved := none, tia := tiaReset, pmu := pmuReset, cdLeft := [], widths := [], testTemp := [], bwRead := false,
    lastRaw := [], crossHi := crossNone, crossLo := crossNone }

/-- Trigger engine and acquisition after reset. -/
def acqReset : Acq :=
  { armDue := false, sample := 0, armAt := 0, count := 0, timer := 0, inputs := [], strobes := [], pmu := [], tia := [], place := 0, pre := [],
    k := 0, spillQ := [], waits := [], used := 0, armPad := 0, offered := 0, kept := 0, lastTime := 0, gap := none, early := false, trigAt := none, met := 0 }

/-- A DDS engine after reset (R368). -/
def ddsReset : Dds := { freq := [], phase := [], amp := [], entries := [], acc := 0, out := [], marks := [] }

/-- A cluster after reset. -/
def cluReset : Clu :=
  { hostStrobe := 0, mon := none, monNext := none, scanAt := none, acq := acqReset, dds := ddsReset }

/-- No pass (R394). -/
def sndReset : Snd := { tdLow := false, request := none, res := [] }

/-- A channel that the pass has not measured. -/
def sndResNone : SndRes := { words := [], bad := false, lineBad := false, contact := 0, deskew := 0, delta := 0 }

/-- A Causeway port that is not connected. -/
def portReset : PortSt := { credits := 0, queue := [], lastOut := none, held := 0, back := 0, sent := none, calSent := none }

/-- The Causeway alone (R420). -/
def cwyReset : Cwy :=
  { up := portReset, dn := portReset, sendQ := [], sendWait := [], seq := 0, lastSeq := [], parts := [], slewing := false, election := none }

/-- A recorder that has not started (R485). -/
def evrReset : Evr :=
  { started := false, accepting := true, openRec := none, queue := [], pendDrops := 0, firstDrop := 0, lastDrop := 0, startBuf := [],
    startDrops := 0, ring := [], ringShadow := none, openShadow := none, inProgram := [], erasing := none, badBlocks := [] }

/-- The host link after reset (R422, R435, R437). -/
def hstReset : Hst :=
  { fetched := [], fg := none, bg := [], reserved := 0, cplRing := [], hostMem := [], msixTable := [], pba := 0, messages := [],
    readData := 0, bar2Data := [], ur := false }

/-- The module right after reset, with VIN not yet applied: every register at its reset value, the flash and the fuses blank,
nothing in the DRAM (logs 2 to 5). -/
def State.reset : State :=
  { pending := [], freeCtr := 0, regs := [], shadows := [],
    boot := { stage := .off, cold := true, tried := [], firstCode := 0, sealed := false, dramUp := false, marched := false, resetDue := false, mgtAge := 0 },
    clk := { epoch := 0, epochSet := none, epochZero := true, optime := 0, pcycle := 0, ref10 := none, pulse := false, frac := 0, outEn := 0,
             holdTemp := 0, holdBase := 0 },
    evr := evrReset,
    nvm := { flash := [], keys := [], revoked := 0, rollback := 0, persist := 0, up := false, scanned := false, noFlash := false },
    hst := hstReset,
    mem := { macros := [], march := none, held := [], dram := [], dramQ := [], timing := [], failCnt := [] },
    cal := { bytes := [], fromBank := false, run := none, storeStep := 0, kb := [], kt := [] },
    pwr := { pfwLow := false, shedEnded := false, valid := 0, temps := [] },
    seqs := [], lanes := [], clus := [], chans := [], plan := planReset, snd := sndReset, cwy := cwyReset }

end Sys2Proof.Machine
end

