-- ==== Sys2Proof/Machine/Ops.lean ====
section
/-! DEFINITION. The named operations over registers, flags, events, completions and memories that every meaning shares. -/

namespace Sys2Proof.Machine

/-- What a meaning answers. -/
abbrev Out := Host.Outcome State Fault Refusal

/-! ### Registers (R7, R8) -/

/-- The stored value of the register at an offset. -/
def State.rd (s : State) (off : Nat) : W32 := Tbl.get resetWord s.regs off

/-- Stores a register's value. -/
def State.wr (s : State) (off : Nat) (v : W32) : State := { s with regs := Tbl.set resetWord s.regs off v }

/-- Bits [msb:lsb] of the register at an offset, as a number. -/
def State.rdF (s : State) (off msb lsb : Nat) : Nat := fieldOf (s.rd off) msb lsb

/-- Bit n of the register at an offset. -/
def State.rdB (s : State) (off n : Nat) : Bool := bitOf (s.rd off) n

/-- Stores bits [msb:lsb] of a register. -/
def State.wrF (s : State) (off msb lsb x : Nat) : State := s.wr off (withField (s.rd off) msb lsb x)

/-- Stores bit n of a register. -/
def State.wrB (s : State) (off n : Nat) (b : Bool) : State := s.wrF off n n (b2n b)

/-- A counter register that saturates at 0xFFFF_FFFF adds `n`. -/
def State.count (s : State) (off n : Nat) : State :=
  s.wr off (BitVec.ofNat 32 (satAdd 0xFFFFFFFF (s.rd off).toNat n))

/-- A counter field [msb:lsb] that saturates at its width adds `n`. -/
def State.countF (s : State) (off msb lsb n : Nat) : State :=
  s.wrF off msb lsb (satAdd (2 ^ (msb + 1 - lsb) - 1) (s.rdF off msb lsb) n)

/-- The 64-bit value of a LO and HI pair of registers. -/
def State.rd64 (s : State) (off : Nat) : Nat := (s.rd off).toNat + 2 ^ 32 * (s.rd (off + 4)).toNat

/-- Stores a LO and HI pair. -/
def State.wr64 (s : State) (off : Nat) (x : Nat) : State :=
  (s.wr off (BitVec.ofNat 32 x)).wr (off + 4) (BitVec.ofNat 32 (x / 2 ^ 32))

/-! ### Flags and occurrence counters (R439) -/

/-- The offset within its space of a cluster or channel register; a device offset stands for itself. -/
def localOff (off : Nat) : Nat :=
  if off < 0x800000 then off
  else
    let rel := (off - 0x800000) % 0x20000
    if rel < 0x10000 then rel else 0x10000 + rel % 0x1000

/-- The least significant bit and the width of the occurrence counter of bit `b` of the RW1C register at `off`, in the
register that follows it: 8 bits a flag where there are at most 4 flags, 6 where there are 5, 5 for the 6 of HST_FLAGS, 16 for
the two latches of a window monitor, 8 for TG_CKM_PERIOD_HI.ERR. -/
def flagCounter (off b : Nat) : Nat × Nat :=
  let l := localOff off
  if l = Reg.hstFlags then (5 * b, 5)
  else if l = Reg.cwyFlags ∨ l = Reg.calFlags ∨ l = Reg.acqFlags ∨ l = 0x10000 + Reg.tgFlags then (6 * b, 6)
  else if l = 0x10000 + Reg.peWmon ∨ l = 0x10000 + Reg.pmuWmon then (16 * (b - 8), 16)
  else if l = 0x10000 + Reg.tgCkmPeriodHi then (0, 8)
  else (8 * b, 8)

/-- The register at `off` belongs to a cluster in retention (R439, R452). -/
def State.retained (s : State) (off : Nat) : Bool :=
  decide (0x800000 ≤ off ∧ off < 0xC00000) && s.rdB Reg.memRetState ((off - 0x800000) / 0x20000)

/-- One set event of flag `b` of the register at `off`: the flag is set and its occurrence counter adds 1, saturating. A flag of a
cluster in retention receives none (R439). -/
def State.raise (s : State) (off b : Nat) : State :=
  if s.retained off then s
  else
    let c := flagCounter off b
    (s.wr off (s.rd off ||| bit32 b)).countF (off + 4) (c.1 + c.2 - 1) c.1 1

/-- Raises a flag when a condition holds. -/
def State.raiseIf (s : State) (p : Bool) (off b : Nat) : State := if p then s.raise off b else s

/-! ### MSI-X vectors (R437, R438) -/

/-- The word of the MSI-X table at word index `i` after a reset: each vector is masked (PRESUMED, log 82). -/
def msixDefault (i : Nat) : W32 := if i % 4 = 3 then 1 else 0

/-- The vector's mask bit in the MSI-X table (R437). -/
def State.masked (s : State) (v : Nat) : Bool := bitOf (Tbl.get msixDefault s.hst.msixTable (4 * v + 3)) 0

/-- One more message of vector `v` is sent. -/
def State.sendMsg (s : State) (v : Nat) : State :=
  { s with hst := { s.hst with messages := Tbl.mod (fun _ => 0) s.hst.messages v (· + 1) } }

/-- Sets or clears a PBA bit. -/
def State.setPba (s : State) (v : Nat) (b : Bool) : State :=
  let p := if b then s.hst.pba ||| BitVec.ofNat 64 (2 ^ v) else s.hst.pba &&& ~~~ BitVec.ofNat 64 (2 ^ v)
  { s with hst := { s.hst with pba := p } }

/-- The HST_VEC_PEND register that holds vector `v`. -/
def vecReg (v : Nat) : Nat := if v < 32 then Reg.hstVecPendLo else Reg.hstVecPendHi

/-- A pending bit is set: on its change from 0 to 1 the message is sent, or the PBA bit set if the vector is masked
(R438). -/
def State.pendVector (s : State) (v : Nat) : State :=
  if s.rdB (vecReg v) (v % 32) then s
  else
    let s1 := s.wrB (vecReg v) (v % 32) true
    if s1.masked v then s1.setPba v true else s1.sendMsg v

/-- An occurrence of source `src` sets the pending bit of its routed vector, once routing is enabled at P9 (R101, R438). -/
def State.route (s : State) (src : Nat) : State :=
  let f := s.rdF (Reg.hstRoute + 4 * (src / 4)) (8 * (src % 4) + 7) (8 * (src % 4))
  if 128 ≤ f ∧ s.rdF Reg.bootStatus 2 0 = 3 then s.pendVector (f % 64) else s

/-! ### The event recorder (R477 to R485) -/

/-- The codes of R479 that are closed at once. -/
def singleCode (code : Nat) : Bool :=
  [0x06, 0x10, 0x19, 0x28, 0x30, 0x31, 0x39, 0x3A, 0x3B, 0x3C, 0x40, 0x42, 0x43, 0x44, 0x45, 0x46].contains code

/-- The first 28 bytes of a record (R478). -/
def EvRec.body (r : EvRec) : List Byte :=
  leBytes 4 (r.code % 256 + 2 ^ 8 * (r.source % 512) + 2 ^ 17 * (r.rept % 2 ^ 15)) ++ leBytes 5 r.optime ++
    leBytes 3 r.pcycle ++ leBytes 16 r.data.toNat

/-- The 32 bytes of a record with its CRC (R478). -/
def EvRec.bytes (r : EvRec) : List Byte := r.body ++ leBytes 4 (crc32c r.body)

/-- Word `w` of a ring slot or of the open record: all ones where a ring slot holds no record (R489). -/
def slotWord (r : Option EvRec) (w : Nat) : W32 :=
  match r with
  | some r => word32 r.bytes (4 * w)
  | none => 0xFFFFFFFF

/-- Volatile mode (R488). -/
def State.logVolatile (s : State) : Bool := s.rdB Reg.evrStatus 1

/-- The queue depth of R483. -/
def State.qdepth (s : State) : Nat := s.rdF Reg.evrStatus 15 8

/-- Sets EVR_STATUS.OPEN from the open record. -/
def State.evrOpenBit (s : State) : State := s.wrB Reg.evrStatus 0 s.evr.openRec.isSome

/-- Flash byte at an address: 0xFF where nothing has been programmed since the erase. -/
def State.flashAt (s : State) (a : Nat) : Byte := Tbl.get (fun _ => 0xFF) s.nvm.flash a

/-- `n` flash bytes from an address. -/
def State.flashRd (s : State) (a n : Nat) : List Byte := Tbl.getList (fun _ => (0xFF : Byte)) s.nvm.flash a n

/-- The little-endian number of `n` flash bytes. -/
def State.flashLe (s : State) (a n : Nat) : Nat := leNat (s.flashRd a n)

/-- Programs bytes into the flash. -/
def State.flashWr (s : State) (a : Nat) (bs : List Byte) : State :=
  { s with nvm := { s.nvm with flash := Tbl.setList (fun _ => (0xFF : Byte)) s.nvm.flash a bs } }

/-- Erases `n` bytes from an address. -/
def State.flashErase (s : State) (a n : Nat) : State :=
  { s with nvm := { s.nvm with flash := s.nvm.flash.filter (fun e => decide (e.1 < a ∨ a + n ≤ e.1)) } }

/-- The flash address of a slot of the log region (R81, R486): block numbers have 7 bits and slot numbers 11. -/
def logAddr (block slot : Nat) : Nat := 0x600000 + block % 128 * 65536 + slot % 2048 * 32

/-- The record enters the on-die ring: EVR_COMMIT counts it (R482, R489). -/
def State.ringPut (s : State) (r : EvRec) : State :=
  let n := (s.rd Reg.evrCommit).toNat
  let s1 := { s with evr := { s.evr with ring := Tbl.set (fun _ => none) s.evr.ring (n % 1024) (some r) } }
  s1.wr Reg.evrCommit (BitVec.ofNat 32 (n + 1))

/-- The good blocks of the log ring: the first 120 in address order (R487). -/
def State.logRing (s : State) : List Nat :=
  ((List.range 128).filter (fun b => decide (b ∉ s.evr.badBlocks))).take 120

/-- The block of the ring after `b`, wrapping (R487). -/
def State.nextBlock (s : State) (b : Nat) : Nat :=
  let l := s.logRing
  match l.find? (fun x => decide (b < x)) with
  | some x => x
  | none => l.headD 0

/-- The bytes of a block header (R486). -/
def blockHeader (bseq : Nat) : List Byte :=
  let first := leBytes 4 0x474F4C45 ++ leBytes 4 bseq
  first ++ List.replicate 20 0xFF ++ leBytes 4 (crc32c first)

/-- Opens block `b` of the ring: its header is programmed with the next BSEQ, and the erase of the block after it starts
(R487). EVR_LOG.SLOT reads 0 from the last slot of a block until the next block opens (DESIGN CHOICE, log 20). -/
def State.openBlock (s : State) (b : Nat) : State :=
  let bseq := (s.rd Reg.evrLogBseq).toNat + 1
  let s1 := s.flashWr (logAddr b 0) (blockHeader bseq)
  let s2 := (s1.wrF Reg.evrLog 22 16 b).wrF Reg.evrLog 10 0 1
  let s3 := s2.wr Reg.evrLogBseq (BitVec.ofNat 32 bseq)
  { s3 with evr := { s3.evr with erasing := some (s3.nextBlock b) } }

/-- The writer takes records while it is idle (R482): in volatile mode each queued record goes to the ring alone; otherwise
one flash program takes every queued record that fits in the rest of the 256-byte page. A full block first opens the next,
which waits for that block's erase (R487). -/
def State.writerTake (s : State) : State :=
  if s.evr.inProgram ≠ [] ∨ s.evr.queue = [] then s
  else if s.logVolatile then
    let q := s.evr.queue
    q.foldl State.ringPut { s with evr := { s.evr with queue := [] } }
  else if s.rdF Reg.evrLog 10 0 = 0 ∧ s.evr.erasing.isSome then s
  else
    let s0 := if s.rdF Reg.evrLog 10 0 = 0 then s.openBlock (s.nextBlock (s.rdF Reg.evrLog 22 16)) else s
    let slot := s0.rdF Reg.evrLog 10 0
    let n := min (8 - slot % 8) s0.evr.queue.length
    let now := s0.evr.queue.take n
    let s1 := { s0 with evr := { s0.evr with queue := s0.evr.queue.drop n, inProgram := now } }
    now.foldl State.ringPut s1

/-- A record of the recorder's own enters the queue (R481). -/
def State.enqueueRec (s : State) (r : EvRec) : State :=
  { s with evr := { s.evr with queue := s.evr.queue ++ [r] } }

/-- The EVR_OVERFLOW record of the pending drops (R481). -/
def State.overflowRec (s : State) : EvRec :=
  { code := 0x44, source := 316, rept := 0, optime := s.evr.firstDrop, pcycle := s.clk.pcycle.toNat,
    data := BitVec.ofNat 128 (s.evr.pendDrops % 2 ^ 32 + 2 ^ 64 * s.evr.lastDrop) }

/-- When the queue has room and drops are pending, an EVR_OVERFLOW record enters it, and forming it is an occurrence of
EV316 (R477, R481). -/
def State.overflowEnter (s : State) : State :=
  if s.evr.pendDrops = 0 ∨ s.qdepth ≤ s.evr.queue.length then s
  else
    let s1 := (s.enqueueRec s.overflowRec).route 316
    let s2 := { s1 with evr := { s1.evr with pendDrops := 0 } }
    s2.raise Reg.evrFlags 0

/-- The writer and the overflow record, after the queue has changed. -/
def State.pump (s : State) : State := ((s.writerTake).overflowEnter).writerTake

/-- A closed record enters the write queue, or is dropped and counted when it is full (R481). -/
def State.closeInto (s : State) (r : EvRec) : State :=
  let s0 := s.pump
  if s0.evr.queue.length < s0.qdepth ∨ (s0.qdepth = 0 ∧ s0.evr.inProgram = [] ∧ s0.evr.queue = []) then
    (s0.enqueueRec r).pump
  else
    let s1 := s0.count Reg.evrDrop 1
    let first := if s1.evr.pendDrops = 0 then r.optime else s1.evr.firstDrop
    { s1 with evr := { s1.evr with pendDrops := s1.evr.pendDrops + 1, lastDrop := r.optime, firstDrop := first } }

/-- Closes the open record. -/
def State.closeOpen (s : State) : State :=
  match s.evr.openRec with
  | none => s
  | some r => (({ s with evr := { s.evr with openRec := none } } : State).closeInto r).evrOpenBit

/-- A new record from an occurrence now (R480). -/
def State.newRec (s : State) (src code : Nat) (data : BitVec 128) : EvRec :=
  { code := code, source := src, rept := 0, optime := s.clk.optime.toNat, pcycle := s.clk.pcycle.toNat, data := data }

/-- An occurrence becomes part of the log: it adds a repeat to the open record, or closes it and forms a new one, which is
closed at once if its code is single (R480). -/
def State.recordNow (s : State) (src code : Nat) (data : BitVec 128) : State :=
  match s.evr.openRec with
  | some r =>
    if ¬ singleCode code ∧ r.source = src ∧ r.code = code ∧ r.data = data ∧ s.clk.optime.toNat < r.optime + 1000 then
      let r' := { r with rept := r.rept + 1 }
      let s1 := { s with evr := { s.evr with openRec := some r' } }
      if r'.rept = 0x7FFF then s1.closeOpen else s1
    else
      let s1 := s.closeOpen
      let n := s1.newRec src code data
      if singleCode code then s1.closeInto n
      else ({ s1 with evr := { s1.evr with openRec := some n } } : State).evrOpenBit
  | none =>
    let n := s.newRec src code data
    if singleCode code then s.closeInto n
    else ({ s with evr := { s.evr with openRec := some n } } : State).evrOpenBit

/-- One occurrence of an event (R477): it sets the pending bit of its routed vector, and it is recorded, held in the start
buffer of 16 before the recorder starts (R485), or only routed once PWR_WARN has been formed (R484). -/
def State.post (s : State) (src code : Nat) (data : BitVec 128) : State :=
  let s1 := s.route src
  if s1.evr.started then
    if s1.evr.accepting then s1.recordNow src code data else s1
  else if s1.evr.startBuf.length < 16 then
    { s1 with evr := { s1.evr with startBuf := s1.evr.startBuf ++ [(src, code, data)] } }
  else { s1 with evr := { s1.evr with startDrops := s1.evr.startDrops + 1 } }

/-- DATA of an event from fields given as (lsb, value). -/
def evData (fs : List (Nat × Nat)) : BitVec 128 :=
  fs.foldl (fun acc f => acc ||| BitVec.ofNat 128 (f.2 <<< f.1)) 0

/-- The writer finishes the program in progress and writes the whole queue (R484): every queued record reaches the ring, and
outside volatile mode the log. -/
def State.writeLog (s : State) (r : EvRec) : State :=
  if s.logVolatile then s
  else
    let s0 := if s.rdF Reg.evrLog 10 0 = 0 then s.openBlock (s.nextBlock (s.rdF Reg.evrLog 22 16)) else s
    let b := s0.rdF Reg.evrLog 22 16
    let slot := s0.rdF Reg.evrLog 10 0
    let s1 := s0.flashWr (logAddr b slot) r.bytes
    s1.wrF Reg.evrLog 10 0 (if slot = 2047 then 0 else slot + 1)

/-- The records of the program in progress are in the flash (R482). -/
def State.programEnd (s : State) : State :=
  let l := s.evr.inProgram
  l.foldl State.writeLog { s with evr := { s.evr with inProgram := [] } }

/-- The flush of R484: the program in progress ends, then the queue is written in order. -/
def State.flushQueue (s : State) : State :=
  let s1 := (s.programEnd).overflowEnter
  let q := s1.evr.queue
  q.foldl (fun t r => (t.ringPut r).writeLog r) { s1 with evr := { s1.evr with queue := [] } }

/-! ### Completions (R429, R431) -/

/-- The 16 bytes of a completion entry (R431). -/
def cplEntry (c : Cmd) (status detail result : Nat) (phase : Bool) : BitVec 128 :=
  BitVec.ofNat 128 (c.tag + 2 ^ 16 * status + 2 ^ 24 * detail + 2 ^ 32 * result + 2 ^ 64 * (c.index % 4096 + 0x8000 * b2n phase))

/-- Writes host memory from bus address `a`. -/
def State.hostWr (s : State) (a : Nat) (bs : List Byte) : State :=
  { s with hst := { s.hst with hostMem := Tbl.setList (fun _ => (0 : Byte)) s.hst.hostMem a bs } }

/-- The bus address of entry `i` of the command ring, of 64-byte entries (R427). -/
def State.cmdAddr (s : State) (i : Nat) : Nat := (s.rd64 Reg.hstCmdBaseLo + 64 * i) % 2 ^ 64

/-- The bus address of entry `i` of the completion ring, of 16-byte entries (R427). -/
def State.cplAddr (s : State) (i : Nat) : Nat := (s.rd64 Reg.hstCplBaseLo + 16 * i) % 2 ^ 64

/-- A command ends: its completion is written to host memory at index CPL_TAIL of the ring, with the current phase, and the vector of
completions is set pending (R427, R429, R431, R438), or it is dropped and counted where a link reset came first (R422). -/
def State.complete (s : State) (c : Cmd) (status detail result : Nat) : State :=
  let s0 := { s with hst := { s.hst with reserved := s.hst.reserved - 1 } }
  if c.dropped then s0.count Reg.hstCplDrop 1
  else
    let tail := s0.rdF Reg.hstCplTail 11 0
    let ph := s0.rdB Reg.hstCplTail 12
    let entry := cplEntry c status detail result ph
    let ring := Tbl.set (fun _ => (0 : BitVec 128)) s0.hst.cplRing tail entry
    let s1 := ({ s0 with hst := { s0.hst with cplRing := ring } } : State).hostWr (s0.cplAddr tail) (leBytes 16 entry.toNat)
    let t' := (tail + 1) % 4096
    let s2 := s1.wr Reg.hstCplTail (pack [(0, t'), (12, b2n (if t' = 0 then !ph else ph))])
    s2.pendVector (s2.rdF Reg.hstCfg 5 0)

/-! ### DRAM (R425, R455) -/

/-- A DRAM byte. -/
def State.dramAt (s : State) (a : Nat) : Byte := Tbl.get (fun _ => 0) s.mem.dram a

/-- `n` DRAM bytes from an address. -/
def State.dramRd (s : State) (a n : Nat) : List Byte := Tbl.getList (fun _ => (0 : Byte)) s.mem.dram a n

/-- Writes DRAM bytes. -/
def State.dramWr (s : State) (a : Nat) (bs : List Byte) : State :=
  { s with mem := { s.mem with dram := Tbl.setList (fun _ => (0 : Byte)) s.mem.dram a bs } }

/-- One MiB. -/
abbrev mib : Nat := 0x100000

/-- Start and end in bytes of a sealed region; empty when its size is 0 (R455). -/
def State.region (s : State) (baseOff : Nat) : Nat × Nat :=
  let b := s.rdF baseOff 14 0 * mib
  (b, b + s.rdF (baseOff + 4) 14 0 * mib)

/-- Does a span touch a protected region (the plan region, or the fail region where it is present: R455, R458)? -/
def State.spanProtected (s : State) (a n : Nat) : Bool :=
  let f := s.region Reg.memFailBase
  decide (0 < n) && (decide (a < 320 * mib) || (decide (f.1 < f.2) && decide (a < f.2) && decide (f.1 < a + n)))

/-- The DRAM is in self-refresh (R457). -/
def State.sref (s : State) : Bool := s.rdB Reg.memStatus 3

/-! ### Defaults of the tables of State -/

/-- What an unwritten byte of the calibration store reads as (DESIGN CHOICE, log 21): 0, but 0xFF for REF, so that no REF is held (R471). -/
def calDefault (o : Nat) : Byte :=
  if 0x2000 ≤ o ∧ o < 0x12000 ∧ (o % 128 = 0x68 ∨ o % 128 = 0x69) then 0xFF else 0

/-! ### Free values -/

/-- A free 32-bit value and the state after it. -/
def State.freeWord (s : State) : W32 × State := (Config.freeWord s.freeCtr, { s with freeCtr := s.freeCtr + 1 })

/-- A free CK_EDGE cycle and the state after it. -/
def State.freeCycle (s : State) : Nat × State := (Config.freeCycle s.freeCtr, { s with freeCtr := s.freeCtr + 1 })

/-- An erase or a program of `n` flash bytes from `a` has failed: they hold free values (DESIGN CHOICE, log 61). -/
def State.flashLost (s : State) (a n : Nat) : State :=
  { s.flashWr a ((List.range n).map (fun k => Config.failedByte s.freeCtr (a + k))) with freeCtr := s.freeCtr + 1 }

end Sys2Proof.Machine
end

