-- ==== Sys2Proof/Machine/Clock.lean ====
section
/-! DEFINITION. The time base (R41 to R76): ticks, operating time, corrections, timing states and the epoch pulse. -/

namespace Sys2Proof.Machine

/-- Bytes of the calibration store at a bank offset (R470). -/
def State.calRd (s : State) (o n : Nat) : Nat := leNat (Tbl.getList calDefault s.cal.bytes o n)

/-- The bank offset of a byte of a channel record (R470). -/
def chanRec (ch o : Nat) : Nat := 0x2000 + 128 * ch + o

/-- A code `x` with gain correction `g`, in units of 2^-20, and offset correction `o`, in units of 1/16 code, about the code `x0` of 0 V or
0 A (R461). -/
def corrected (g o x x0 : Int) : Int := x + divNearest (g * (x - x0) + o * 65536) (2 ^ 20)

/-- A code under the correction at a bank offset: o in [15:0], g in [31:16] (R461, R470). -/
def State.correctAt (s : State) (off : Nat) (x x0 : Int) : Int :=
  corrected (sext 16 (s.calRd (off + 2) 2)) (sext 16 (s.calRd off 2)) x x0

/-! ### Operating time and its checkpoints (R68, R69, R99, R100) -/

/-- The 32 bytes of a persistent entry (R99). -/
def persistEntry (kind pcycle optime : Nat) : List Byte :=
  let b := leBytes 4 0x54535250 ++ leBytes 4 kind ++ leBytes 4 pcycle ++ leBytes 4 0 ++ leBytes 8 optime ++ leBytes 4 0
  b ++ leBytes 4 (crc32c b)

/-- The indices, in units of 32 bytes from `base`, of the slots of `n` bytes that hold a programmed byte. -/
def State.usedSlots (s : State) (base n : Nat) : List Nat :=
  (s.nvm.flash.filterMap (fun e => if base ≤ e.1 ∧ e.1 < base + n then some ((e.1 - base) / 32) else none)).foldl
    (fun l i => if l.head? = some i then l else i :: l) []

/-- Does the 32-byte slot at `a` end in the CRC-32C of its first 28 bytes? -/
def State.slotCrcOk (s : State) (a : Nat) : Bool := s.flashLe (a + 28) 4 == crc32c (s.flashRd a 28)

/-- An entry of the persistent area at flash address `a`: (KIND, PCYCLE, OPTIME), where it is valid (R99). -/
def State.persistAt (s : State) (a : Nat) : Option (Nat × Nat × Nat) :=
  if s.flashLe a 4 = 0x54535250 ∧ s.slotCrcOk a then some (s.flashLe (a + 4) 4, s.flashLe (a + 8) 3, s.flashLe (a + 0x10) 5) else none

/-- The valid entries of the persistent area: index, KIND, PCYCLE and OPTIME (R99). -/
def State.persistEntries (s : State) : List (Nat × Nat × Nat × Nat) :=
  (s.usedSlots 0 0x200000).filterMap (fun i => (s.persistAt (32 * i)).map (fun e => (i, e)))

/-- The later of two entries (R100): the higher PCYCLE, and of equal ones the higher OPTIME. -/
def laterEntry (a b : Nat × Nat × Nat × Nat) : Nat × Nat × Nat × Nat :=
  if a.2.2.1 < b.2.2.1 ∨ (a.2.2.1 = b.2.2.1 ∧ a.2.2.2 < b.2.2.2) then b else a

/-- The latest of a list of entries (R100). -/
def latestOf (l : List (Nat × Nat × Nat × Nat)) : Option (Nat × Nat × Nat × Nat) :=
  l.foldl (fun m e => match m with | some x => some (laterEntry x e) | none => some e) none

/-- The latest entry of the persistent area: its index, KIND, PCYCLE and OPTIME (R100). -/
def State.latestEntry (s : State) : Option (Nat × Nat × Nat × Nat) := latestOf s.persistEntries

/-- OPTIME of the last valid checkpoint, an entry of KIND 1 (R69, R70, R99). -/
def State.lastCheckpoint (s : State) : Option Nat := (latestOf (s.persistEntries.filter (fun e => e.2.1 == 1))).map (fun e => e.2.2.2)

/-- The index of the entry to write next: behind every used entry of the block that holds the latest (R99, R100). -/
def State.nextEntry (s : State) : Nat :=
  match s.latestEntry with
  | none => 0
  | some e => ((s.usedSlots 0 0x200000).filter (fun i => i / 2048 == e.1 / 2048)).foldl max e.1 + 1

/-- The index of the entry that a write takes: before the scan of P3 the flash alone says it (R69, R108; DEDUCED, log 76). -/
def State.entryIndex (s : State) : Nat := (if s.nvm.scanned then s.nvm.persist else s.nextEntry) % 65536

/-- Writes the next entry of the persistent area, unless the SFDP read has found no flash to write (R79); a new block is erased first
(R99, R100). -/
def State.persistWrite (s : State) (kind : Nat) : State :=
  if ¬ s.nvm.noFlash then
    let i := s.entryIndex
    let s0 := if i % 2048 = 0 then s.flashErase (32 * i) 65536 else s
    let s1 := s0.flashWr (32 * i) (persistEntry kind s0.clk.pcycle.toNat s0.clk.optime.toNat)
    { s1 with nvm := { s1.nvm with persist := i + 1 } }
  else s

/-- Operating time runs (R68): supplies are up. -/
def State.powered (s : State) : Bool := s.boot.stage != .off

/-- The heartbeat watchdog of R495 runs: from the end of P1 on, outside resets and the safe state. -/
def State.mgtWatched (s : State) : Bool :=
  s.boot.stage == .ready || s.boot.stage == .failed || (s.boot.stage == .booting && decide (2 ≤ s.rdF Reg.bootStatus 7 4))

/-- One millisecond of the heartbeat watchdog. -/
def State.mgtTick (s : State) : State :=
  if s.mgtWatched then { s with boot := { s.boot with mgtAge := s.boot.mgtAge + 1 } } else s

/-- OPTIME_MS: operating time advances by 1 ms; on reaching its top it saturates and sets OPTIME_SAT (R68), once (DEDUCED, log 87). -/
def State.optimeMs (s0 : State) : State :=
  let s := s0.mgtTick
  if s.powered then
    if s.clk.optime = 0xFFFFFFFFFF then s
    else
      let s1 := { s with clk := { s.clk with optime := s.clk.optime + 1 } }
      s1.raiseIf (s1.clk.optime == 0xFFFFFFFFFF) Reg.clkFlags 2
  else s

/-- OPTIME_CHECKPOINT: a checkpoint entry holds the present operating time (R69). -/
def State.checkpoint (s : State) : State := if s.powered then s.persistWrite 1 else s

/-! ### The epoch (R63, R64, R72, R73, R75) -/

/-- The value the epoch counter takes on the next tick if nothing sets it. -/
def State.epochNext (s : State) : BitVec 64 := if s.clk.epochZero then 0 else s.clk.epoch + 1

/-- The pulse of R64 for the pulse registers and an epoch. -/
def eppPulse (period offset width : W32) (epoch : BitVec 64) : Bool :=
  decide (period ≠ 0) && decide ((epoch - offset.zeroExtend 64).toNat % period.toNat < width.toNat)

/-- The fractional step of R41 nearest to a frequency correction in 2^-16 ppb, ties away from zero (R42): one step is 2^-32/64 of nominal,
10^9/2^38 ppb. -/
def pllStep (corr : W32) : Int := divNearest (corr.toInt * 4194304) 1000000000

/-- One CK_REF tick with the epoch value it brings: the pulse registers last taken come into force, EPOCH_OUT is evaluated,
the REF10 divider moves on, and the root PLL takes the step of CLK_CORR (R42, R63, R64; the states in which a loop steers the PLL:
DEDUCED, log 86). -/
def State.refTick (s : State) (epoch : BitVec 64) : State :=
  let p := s.rd Reg.clkEppPeriod
  let o := s.rd Reg.clkEppOffset
  let w := s.rd Reg.clkEppWidth
  let r := match s.clk.ref10 with | none => 0 | some i => (i + 1) % 10
  let f := pllStep (s.rd Reg.clkCorr)
  { s with clk := { s.clk with epoch := epoch, epochSet := none, epochZero := false, ref10 := some r, pulse := eppPulse p o w epoch, frac := f } }

/-- The feedback ratio of the root PLL, in units of 2^-32: nominally 64 (R41). -/
def State.pllRatio (s : State) : Int := 64 * 4294967296 + s.clk.frac

/-- The reference output balls during the present CK_REF tick (R62): REFOUT as the level of its P and N legs right after the tick's
rising edge, the level of REF10 and the level of EPOCH_OUT. -/
structure RefOut where
  refoutP  : Bool
  refoutN  : Bool
  ref10    : Bool
  epochOut : Bool
  deriving DecidableEq, Repr

/-- The REF10 divider is high during the ticks of index 0 to 4 modulo 10 (R63). -/
def State.ref10High (s : State) : Bool := match s.clk.ref10 with | some i => decide (i < 5) | none => false

/-- The levels of the reference outputs: a disabled one is held low, both legs of a differential pair (R62 to R64). -/
def State.refOut (s : State) : RefOut :=
  { refoutP := s.clk.ref10.isSome && s.clk.outEn.testBit 0, refoutN := false, ref10 := s.ref10High && s.clk.outEn.testBit 1,
    epochOut := s.clk.pulse && s.clk.outEn.testBit 2 }

/-- The tick at which an EPOCH command takes effect: the counter holds the new value, the command completes with the old one
and a TIME_SET record forms (R73). -/
def State.epochTake (s : State) (v : BitVec 64) : State :=
  let old := s.epochNext
  let s1 := (s.refTick v).post 305 0x39 (BitVec.ofNat 128 (old.toNat + 2 ^ 64 * v.toNat))
  match s1.hst.fg with
  | some c => ({ s1 with hst := { s1.hst with fg := none } } : State).complete c 0 0 (old.toNat % 2 ^ 32)
  | none => s1

/-- EPOCH_TICK (R72): the epoch increments, or holds 0 on the first tick of a full reset, or takes a set value (R73). -/
def State.epochTick (s : State) : State :=
  if s.powered then
    match s.clk.epochSet with
    | some v => s.epochTake v
    | none => s.refTick s.epochNext
  else s

/-! ### Corrections (R42 to R45, R463) -/

/-- The timing state: 0 FREE, 1 ACQUIRE, 2 LOCKED, 3 HOLDOVER (R56). -/
def State.timing (s : State) : Nat := s.rdF Reg.clkStatus 1 0

/-- CLK_CORR after a change of an error: the sum in FREE, the held offset plus the change of the temperature term in HOLDOVER
(R42, R59). -/
def State.corrUpdate (s : State) : State :=
  if s.timing = 0 then s.wr Reg.clkCorr (s.rd Reg.clkCorrAge + s.rd Reg.clkCorrTemp)
  else if s.timing = 3 then s.wr Reg.clkCorr (s.clk.holdBase + (s.rd Reg.clkCorrTemp - s.clk.holdTemp))
  else s

/-- The ageing error negated, in 2^-16 ppb, rounded once (R42, R43). -/
def ageCorr (coef : Int) (optime ageT0 : Nat) : Int :=
  - divNearest (coef * ((optime - ageT0) / 3600000 : Nat) * 65536) 24000

/-- AGEING_UPDATE (R43). -/
def State.ageing (s : State) : State :=
  let c := ageCorr (sext 16 (s.rdF Reg.clkAgeCoef 15 0)) s.clk.optime.toNat (s.calRd 0x28 5)
  (s.wr Reg.clkCorrAge (BitVec.ofInt 32 c)).corrUpdate

/-- The last valid reading of sensor `i`, in 1/64 °C. -/
def State.temp (s : State) (i : Nat) : Int := (Tbl.get (fun _ => 0) s.pwr.temps i).toInt

/-- Was the last reading of sensor `i` valid (R522)? -/
def State.tempValid (s : State) (i : Nat) : Bool := s.pwr.valid.getLsbD i

/-- Entry `i` of the crystal table in units of 0.1 ppb (R44, R471). -/
def State.xtalEntry (s : State) (i : Nat) : Int := sext 16 (s.calRd (0x30 + 2 * i) 2)

/-- The temperature error in 2^-16 ppb for a mean of m / n in 1/64 °C, interpolated linearly and rounded once (R42, R44,
R45). -/
def tempError (entry : Nat → Int) (m n : Int) : Int :=
  if m < 0 then divNearest (entry 0 * 65536) 10
  else if 124 * 64 * n ≤ m then divNearest (entry 31 * 65536) 10
  else
    let i := (m / (256 * n)).toNat
    let f := m - 256 * n * i
    divNearest ((entry i * (256 * n) + (entry (i + 1) - entry i) * f) * 65536) (2560 * n)

/-- The crystal part of TEMP_CORRECTION_UPDATE: CLK_XTAL_TEMP and CLK_CORR_TEMP from the valid sensors among TS00 to TS03;
with none valid the error holds its last value (R44, R45, R523). -/
def State.xtalUpdate (s : State) : State :=
  let l := (List.range 4).filter s.tempValid
  if l = [] then s
  else
    let n : Int := l.length
    let m : Int := (l.map s.temp).sum
    let mean := if m % n = 0 then m / n else if Config.xtalMeanUp m then m / n + 1 else m / n
    let s1 := s.wr Reg.clkXtalTemp (BitVec.ofNat 32 (toField 16 mean))
    let s2 := s1.raiseIf (decide (m < 0 ∨ 124 * 64 * n < m)) Reg.clkFlags 1
    (s2.wr Reg.clkCorrTemp (BitVec.ofInt 32 (- tempError s2.xtalEntry m n))).corrUpdate

/-- Kt of a channel's drive or strobe cells at a temperature (R463). -/
def State.ktOf (s : State) (ch : Nat) (strobe : Bool) (t : Int) : Int :=
  divNearest (sext 16 (s.calRd (chanRec ch (if strobe then 0x6C else 0x6A)) 2) * (t - sext 16 (s.calRd (chanRec ch 0x6E) 2))) 16384

/-- The base Kb of a cell (R462). -/
def State.kbOf (s : State) (ch cell : Nat) : Int := Tbl.get (fun _ => 0) s.cal.kb (6 * ch + cell)

/-- The sum Kb + Kt of a cell, before the limits of R463. -/
def State.kSum (s : State) (ch cell : Nat) : Int :=
  s.kbOf ch cell + Tbl.get (fun _ => 0) s.cal.kt (2 * ch + b2n (decide (4 ≤ cell)))

/-- The cell correction K, held at its limits (R198, R463). -/
def State.cellK (s : State) (ch cell : Nat) : Int := clampInt (-1024) 1023 (s.kSum ch cell)

/-- Does some cell of a channel stand at a limit that its sum exceeds? -/
def State.kSat (s : State) (ch : Nat) : Bool :=
  (List.range 6).any (fun j => decide (s.kSum ch j < -1024 ∨ 1023 < s.kSum ch j))

/-- The new Kt of one channel from its cluster's sensor, unless that is invalid (R463, R523). -/
def State.ktChannel (s : State) (ch : Nat) : State :=
  let i := 8 + ch / 16
  if s.tempValid i then
    let t0 := Tbl.set (fun _ => (0 : Int)) s.cal.kt (2 * ch) (s.ktOf ch false (s.temp i))
    let t1 := Tbl.set (fun _ => (0 : Int)) t0 (2 * ch + 1) (s.ktOf ch true (s.temp i))
    let s1 := { s with cal := { s.cal with kt := t1 } }
    s1.raiseIf (s1.kSat ch) Reg.calFlags 3
  else s

/-- KT_UPDATE of every channel (R463). -/
def State.ktUpdate (s : State) : State := (List.range 512).foldl State.ktChannel s

/-- TEMP_CORRECTION_UPDATE (R44, R463). -/
def State.tempUpdate (s : State) : State := s.xtalUpdate.ktUpdate

/-! ### Timing states (R56 to R60) -/

/-- FOLLOWER_LOCK: an acquiring follower enters LOCKED; CLK_CORR holds the loop's offset from the crystal (R58). -/
def State.followerLock (s : State) (offset : W32) : State :=
  if s.timing = 1 then
    (({ s with cwy := { s.cwy with slewing := false } } : State).wrF Reg.clkStatus 1 0 2).wr Reg.clkCorr offset
  else s

/-- HOLDOVER_ENTRY: a LOCKED or ACQUIRE follower loses the recovered clock (R59). `offset` is the mean of the last 100 ms. -/
def State.holdover (s : State) (offset : W32) : State :=
  let st := s.timing
  if st = 1 ∨ st = 2 then
    let s1 := { s with clk := { s.clk with holdTemp := s.rd Reg.clkCorrTemp, holdBase := offset } }
    let s2 := ((s1.wrF Reg.clkStatus 1 0 3).wr Reg.clkCorr offset).raise Reg.clkFlags 0
    s2.post 304 0x38 (BitVec.ofNat 128 st)
  else s

/-- HOLDOVER_RETURN: the upstream port delivers the time master's clock again (R60). -/
def State.holdoverReturn (s : State) : State :=
  if s.timing = 3 then s.wrF Reg.clkStatus 1 0 1 else s

/-! ### The epoch pulse registers (R64, R65) -/

/-- A write of CLK_EPP_PERIOD: rejected where a non-zero PERIOD is not above the current WIDTH. -/
def State.eppPeriodWrite (s : State) (v : W32) : State :=
  if v ≠ 0 ∧ v.toNat ≤ (s.rd Reg.clkEppWidth).toNat then s.raise Reg.clkFlags 3 else s.wr Reg.clkEppPeriod v

/-- A write of CLK_EPP_WIDTH: rejected where WIDTH is 0 or not below the current PERIOD. -/
def State.eppWidthWrite (s : State) (v : W32) : State :=
  if v = 0 ∨ (s.rd Reg.clkEppPeriod).toNat ≤ v.toNat then s.raise Reg.clkFlags 3 else s.wr Reg.clkEppWidth v

/-- A write of CLK_EPP_OFFSET, in force from the next tick. -/
def State.eppOffsetWrite (s : State) (v : W32) : State := s.wr Reg.clkEppOffset v

/-! ### Meanings -/

/-- OPTIME_MS (R68). -/
def execOptimeMs (s : State) : Out := .next s.optimeMs

/-- OPTIME_CHECKPOINT (R69). -/
def execOptimeCheckpoint (s : State) : Out := .next s.checkpoint

/-- AGEING_UPDATE (R43). -/
def execAgeingUpdate (s : State) : Out := .next (if s.powered then s.ageing else s)

/-- TEMP_CORRECTION_UPDATE (R44, R463). -/
def execTempCorrectionUpdate (s : State) : Out := .next (if s.powered then s.tempUpdate else s)

/-- FOLLOWER_LOCK (R58). -/
def execFollowerLock (offset : W32) (s : State) : Out := .next (s.followerLock offset)

/-- HOLDOVER_ENTRY (R59). -/
def execHoldoverEntry (offset : W32) (s : State) : Out := .next (s.holdover offset)

/-- HOLDOVER_RETURN (R60). -/
def execHoldoverReturn (s : State) : Out := .next s.holdoverReturn

end Sys2Proof.Machine
end

