-- ==== Sys2Proof/Machine/Recorder.lean ====
section
/-! DEFINITION. The event recorder's own steps (R477 to R491): its start, its writer, its log blocks, and its shadows. -/

namespace Sys2Proof.Machine

/-! ### The log region (R486 to R488) -/

/-- A log block whose header reads all 0xFF (R486). -/
def State.blockErased (s : State) (b : Nat) : Bool := (s.flashRd (logAddr b 0) 32).all (· == 0xFF)

/-- A log block with a good header (R486). -/
def State.blockGood (s : State) (b : Nat) : Bool :=
  s.flashLe (logAddr b 0) 4 == 0x474F4C45 && s.flashLe (logAddr b 0 + 28) 4 == crc32c (s.flashRd (logAddr b 0) 8) &&
    s.flashAt (logAddr b 0 + 8) != 0

/-- BSEQ of a block's header. -/
def State.blockSeq (s : State) (b : Nat) : Nat := s.flashLe (logAddr b 0 + 4) 4

/-- The log slots that hold records: (rank in log order, OPTIME), where the CRC holds (R478, R490). -/
def State.logRecords (s : State) : List (Nat × Nat) :=
  (s.usedSlots 0x600000 0x800000).filterMap (fun i =>
    let a := 0x600000 + 32 * i
    if i % 2048 ≠ 0 ∧ s.blockGood (i / 2048) ∧ s.slotCrcOk a then
      some (s.blockSeq (i / 2048) * 2048 + i % 2048, s.flashLe (a + 4) 5)
    else none)

/-- OPTIME of the last committed event record (R70), none where the log holds no record. -/
def State.lastRecordOptime (s : State) : Option Nat :=
  (s.logRecords.foldl (fun (b : Option (Nat × Nat)) r =>
    match b with
    | some x => if x.1 ≤ r.1 then some r else b
    | none => some r) none).map (fun r => r.2)

/-- A log block goes bad: its STATE is programmed to 0x00, EVR_LOG.BAD counts it, and EVR_SPARE is posted; with fewer than 120
good blocks left the recorder enters volatile mode (R488). -/
def State.blockBad (s : State) (b : Nat) : State :=
  let s1 := s.flashWr (logAddr b 0 + 8) [0]
  let s2 := { s1 with evr := { s1.evr with badBlocks := insertNat b s1.evr.badBlocks } }
  let bad := s2.evr.badBlocks.length
  let s3 := (s2.wrF Reg.evrLog 31 24 bad).raise Reg.evrFlags 1
  let vol := decide (128 - bad < 120) && !s3.logVolatile
  let s4 := if vol then s3.wrB Reg.evrStatus 1 true else s3
  let s5 := s4.post 318 0x46 (evData [(0, b), (8, bad)])
  if vol then s5.post 317 0x45 (evData [(0, bad)]) else s5

/-- LOG_PROGRAM_DONE (R482, R488): the records of the program are in the log and the writer goes on; or the program failed, the
block is bad, what its slots hold is free (DESIGN CHOICE, log 61), and the same records are written again in the next block (DEDUCED, log 107). -/
def State.logProgramDone (s : State) (ok : Bool) : State :=
  if s.evr.inProgram = [] then s
  else if ok then s.programEnd.pump
  else
    let b := s.rdF Reg.evrLog 22 16
    let slot := s.rdF Reg.evrLog 10 0
    let s0 := s.flashLost (logAddr b slot) (min (32 * s.evr.inProgram.length) (65536 - slot % 2048 * 32))
    let s1 := s0.blockBad b
    if s1.logVolatile then ({ s1 with evr := { s1.evr with inProgram := [] } } : State).pump
    else s1.wrF Reg.evrLog 10 0 0

/-- LOG_BLOCK_ERASE_DONE (R487, R488): the block ahead reads erased, or it is bad,
with free contents (DESIGN CHOICE, log 61), and the block after it is erased instead. -/
def State.logEraseDone (s : State) (ok : Bool) : State :=
  match s.evr.erasing with
  | none => s
  | some b =>
    if ok then
      let s1 := s.flashErase (logAddr b 0) 65536
      ({ s1 with evr := { s1.evr with erasing := none } } : State).pump
    else
      let s1 := (s.flashLost (logAddr b 0) 65536).blockBad b
      if s1.logVolatile then ({ s1 with evr := { s1.evr with erasing := none } } : State).pump
      else { s1 with evr := { s1.evr with erasing := some (s1.nextBlock (s1.rdF Reg.evrLog 22 16)) } }

/-! ### Start and flush (R484, R485) -/

/-- The scan of the block headers: writing resumes after the newest record; an empty log opens the first block of the ring; the
block after the current one is kept erased ahead (R485, R487). -/
def State.logScan (s : State) : State :=
  let bad := (List.range 128).filter (fun b => !(s.blockErased b) && !(s.blockGood b))
  let s1 := { s with evr := { s.evr with badBlocks := bad } }
  let s2 := s1.wrF Reg.evrLog 31 24 bad.length
  if 128 - bad.length < 120 then s2.wrB Reg.evrStatus 1 true
  else
    let good := (List.range 128).filter s2.blockGood
    match good with
    | [] => s2.openBlock (s2.logRing.headD 0)
    | g :: gs =>
      let newest := gs.foldl (fun m b => if s2.blockSeq m < s2.blockSeq b then b else m) g
      let top := (s2.usedSlots (logAddr newest 0) 65536).foldl max 0
      let s3 := (s2.wrF Reg.evrLog 22 16 newest).wrF Reg.evrLog 10 0 (if top = 2047 then 0 else top + 1)
      let s4 := s3.wr Reg.evrLogBseq (BitVec.ofNat 32 (s2.blockSeq newest))
      let ahead := s4.nextBlock newest
      if s4.blockErased ahead then s4 else { s4 with evr := { s4.evr with erasing := some ahead } }

/-- The occurrences held before the start become records stamped now, and those beyond 16 count as drops (R485). -/
def State.drainStart (s : State) : State :=
  let l := s.evr.startBuf
  let n := s.evr.startDrops
  let s1 := l.foldl (fun t o => t.recordNow o.1 o.2.1 o.2.2) { s with evr := { s.evr with startBuf := [], startDrops := 0 } }
  if n = 0 then s1
  else
    let s2 := s1.closeOpen.count Reg.evrDrop n
    let t := s2.clk.optime.toNat
    ({ s2 with evr := { s2.evr with pendDrops := n, firstDrop := t, lastDrop := t } } : State).pump

/-- The recorder starts (R485): in volatile mode where the boot found no flash it supports, else after the log scan. -/
def State.evrStart (s : State) (noFlash : Bool) : State :=
  if s.evr.started then s
  else
    let s1 := if noFlash then (s.wrB Reg.evrStatus 1 true).wrF Reg.evrStatus 15 8 32 else s.logScan
    let s2 : State := { s1 with evr := { s1.evr with started := true, accepting := true } }
    let s3 := s2.drainStart
    if s3.logVolatile ∧ ¬ noFlash then s3.post 317 0x45 (evData [(0, s3.evr.badBlocks.length)]) else s3

/-- QDEPTH and SLOW_NVM at the end of P2 (R483). -/
def qdepthOf (tppNs : Nat) : Option Nat :=
  ((List.range 33).reverse).find? (fun q => decide (((q + 1 + 7) / 8 + 3) * tppNs ≤ 250000))

/-- The largest QDEPTH of R483, and SLOW_NVM where none fits. -/
def State.setQdepth (s : State) (tppNs : Nat) : State :=
  match qdepthOf tppNs with
  | some q => s.wrF Reg.evrStatus 15 8 q
  | none => (s.wrF Reg.evrStatus 15 8 32).wrB Reg.evrStatus 2 true

/-- The flush at a warm reset and in the safe state (R484): the open record closes and the queue is written. -/
def State.evrFlush (s : State) : State := s.closeOpen.flushQueue

/-- The flush at PFW_N (R484): PWR_WARN stands behind the open record, whatever the queue holds, and the recorder stops
accepting. Forming PWR_WARN is an occurrence of EV312 (R477). -/
def State.evrPowerFail (s : State) : State :=
  let s1 := s.closeOpen
  let r := s1.newRec 312 0x40 0
  let s2 := (s1.enqueueRec r).route 312
  ({ s2 with evr := { s2.evr with accepting := false } } : State).flushQueue

/-- OPEN_RECORD_TIMEOUT (R480): the open record closes once 1,000 ms have passed since its OPTIME, which no longer shows at the top of the
operating time. -/
def State.openTimeout (s : State) : State :=
  match s.evr.openRec with
  | some r => if r.optime + 1000 ≤ s.clk.optime.toNat ∨ s.clk.optime = 0xFFFFFFFFFF then s.closeOpen else s
  | none => s

/-! ### Shadows (R489) -/

/-- EVR_SLOT_WORD0_READ: a read of word 0 of a ring slot, or of EVR_OPEN0, copies the record into the shadow and returns the
word. -/
def State.slotRead (s : State) (slot : Option (Fin 1024)) : State :=
  match slot with
  | some i =>
    let r := Tbl.get (fun _ => none) s.evr.ring i.val
    let s1 := { s with evr := { s.evr with ringShadow := some (i.val, r) } }
    { s1 with hst := { s1.hst with readData := slotWord r 0, ur := false } }
  | none =>
    let r := s.evr.openRec
    let s1 := { s with evr := { s.evr with openShadow := some r } }
    { s1 with hst := { s1.hst with readData := (match r with | some _ => slotWord r 0 | none => 0), ur := false } }

/-- Word `w` (1 to 7) of ring slot `i` as a read returns it. -/
def State.ringWord (s : State) (i w : Nat) : W32 :=
  match s.evr.ringShadow with
  | some (j, r) => if i = j then slotWord r w else slotWord (Tbl.get (fun _ => none) s.evr.ring i) w
  | none => slotWord (Tbl.get (fun _ => none) s.evr.ring i) w

/-- Word `w` (1 to 7) of the open record as a read returns it. -/
def State.openWord (s : State) (w : Nat) : W32 :=
  match s.evr.openShadow.getD s.evr.openRec with
  | some r => slotWord (some r) w
  | none => 0

/-! ### Meanings -/

/-- OPEN_RECORD_TIMEOUT (R480): the record has been open for one second. -/
def execOpenRecordTimeout (s : State) : Out := .next s.openTimeout

/-- LOG_PROGRAM_DONE (R482, R488). -/
def execLogProgramDone (ok : Bool) (s : State) : Out := .next (s.logProgramDone ok)

/-- LOG_BLOCK_ERASE_DONE (R487, R488). -/
def execLogBlockEraseDone (ok : Bool) (s : State) : Out := .next (s.logEraseDone ok)

end Sys2Proof.Machine
end

