-- ==== Sys2Proof/Machine/HostLink.lean ====
section
/-! DEFINITION. The host link (R421 to R440): BAR0 access rules, BAR2, the rings, MSI-X, and the commands that concern no
plan. -/

namespace Sys2Proof.Machine

/-! ### BAR0 (R106, R107, R423, R424, R499) -/

/-- Does the block that holds an offset respond now? Before READY only ID, CLK and BOOT do (R106); in FAILED also HST and EVR
(R107, R424), and the same blocks in the safe state (R499). -/
def State.responds (s : State) (off : Nat) : Bool :=
  match s.boot.stage with
  | .off => false
  | .ready => true
  | .failed => decide (off < 0x40000) || decide (0x50000 ≤ off ∧ off < 0x60000)
  | .safe => decide (off < 0x40000) || decide (0x50000 ≤ off ∧ off < 0x60000)
  | _ => decide (off < 0x30000)

/-- An offset that holds a register, or lies in the fail counter window or the MSI-X structures (R281, R424, R437). -/
def assigned (off : Nat) : Bool :=
  (findRow off).isSome || decide (0xC00000 ≤ off ∧ off < 0xD00000 ∧ off % 4 = 0) ||
    decide (0x38000 ≤ off ∧ off < 0x38400 ∧ off % 4 = 0) || decide (0x39000 ≤ off ∧ off < 0x39008 ∧ off % 4 = 0)

/-- An access to `off` reaches a register. -/
def State.reaches (s : State) (off : Nat) : Bool := assigned off && s.responds off

/-- Stores what a BAR0 read returns. -/
def State.setRead (s : State) (v : W32) : State := { s with hst := { s.hst with readData := v, ur := false } }

/-- The record of an access that BAR0 does not take: a HST_FLAGS bit and HST_BAD_ADDR (R423, R424). -/
def State.badAddr (s : State) (flag off : Nat) : State :=
  (s.raise Reg.hstFlags flag).wr Reg.hstBadAddr (BitVec.ofNat 32 (off % 2 ^ 24))

/-- BAR0_BAD_ACCESS (R423). -/
def State.badAccess (s : State) (off : Nat) (form : BadForm) : State :=
  let s1 := s.badAddr 0 off
  match form with
  | .partialWrite => s1
  | .partialRead => s1.setRead 0
  | .unsupportedRead => { s1 with hst := { s1.hst with ur := true } }
  | .unsupportedWrite => { s1 with hst := { s1.hst with ur := true } }

/-- An access to an unassigned offset (R424). -/
def State.unmapped (s : State) (off : Nat) (isWrite : Bool) : State :=
  let s1 := s.badAddr 1 off
  if isWrite then s1 else s1.setRead 0

/-- Runs a register write's effect where the offset responds, and records an unassigned access where it does not. -/
def State.onWrite (s : State) (off : Nat) (f : State → State) : State :=
  if s.boot.stage = .off then s else if s.reaches off then f s else s.unmapped off true

/-- A write's plain effect on a register: its RW fields take the value and its RW1C bits clear where a 1 is written (R7,
R8). -/
def takeFields (r : RegRow) (old v : W32) : W32 :=
  let rw := BitVec.ofNat 32 r.rw
  let c := BitVec.ofNat 32 r.w1c
  ((old &&& ~~~ rw) ||| (v &&& rw)) &&& ~~~ (v &&& c)

/-- The plain write of a register with no behaviour of its own. -/
def State.plainWrite (s : State) (off : Nat) (v : W32) : State :=
  match findRow off with
  | some r => s.wr off (takeFields r (s.rd off) v)
  | none => s

/-- Does a write of `v` differ from the register's SL fields (R8, R110)? -/
def State.sealedDiffers (s : State) (off : Nat) (v : W32) : Bool :=
  match findRow off with
  | some r => decide ((v ^^^ s.rd off) &&& BitVec.ofNat 32 r.sl ≠ 0)
  | none => false

/-- The record of a write that differs in SL bits (R110). -/
def State.sealedRecord (s : State) (off : Nat) (v : W32) : State :=
  if s.sealedDiffers off v then
    let s1 := (s.countF Reg.bootSealedWrCnt 15 0 1).wr Reg.bootSealedWrAddr (BitVec.ofNat 32 off)
    s1.post 309 0x3D (BitVec.ofNat 128 off)
  else s

/-! ### The function's configuration header (R421) -/

/-- One base address register pair: the size of its window, and whether it is prefetchable. All are 64 bits wide. -/
structure BarPair where
  size     : Nat
  prefetch : Bool
  deriving DecidableEq, Repr

/-- The base address register pairs by the number of their lower register; every other register reads 0 (R421). -/
def barPair (n : Nat) : Option BarPair :=
  if n = 0 then some { size := 2 ^ 24, prefetch := false }
  else if n = 2 then some { size := 2 ^ 34, prefetch := true }
  else none

/-- The bytes of the window of a base address register pair, 0 where there is none. -/
def barSize (n : Nat) : Nat := match barPair n with | some b => b.size | none => 0

/-- What a base address register reads after all ones are written to it: the size mask and the type bits of a 64-bit memory window, 0 for
the other registers (R421; PRESUMED, log 83: the layout is PCI Express's). -/
def barProbe (n : Nat) : W32 :=
  match barPair n, barPair (n - 1) with
  | some b, _ => BitVec.ofNat 32 (2 ^ 32 - b.size % 2 ^ 32) &&& 0xFFFFFFF0 ||| (if b.prefetch then 0xC else 4)
  | none, some b => if n % 2 = 1 then BitVec.ofNat 32 (2 ^ 32 - (b.size + 2 ^ 32 - 1) / 2 ^ 32) else 0
  | none, none => 0

/-- CLASS CODE and header type of the function (R421). -/
def classCode : BitVec 24 := 0xFF0000
abbrev headerType : BitVec 8 := 0

/-! ### BAR2 (R425, R426) -/

/-- The DRAM serves BAR2: it is trained and out of self-refresh (R102, R426). -/
def State.dramServes (s : State) : Bool := s.boot.dramUp && !s.sref

/-- BAR2_READ. -/
def State.bar2Read (s : State) (a n : Nat) : State :=
  if s.boot.stage = .off ∨ barSize 2 < a + n then s
  else if s.dramServes then { s with hst := { s.hst with bar2Data := s.dramRd a n } }
  else ({ s with hst := { s.hst with bar2Data := List.replicate n 0xFF } } : State).raise Reg.hstFlags 5

/-- Writes the enabled bytes of a BAR2 write. -/
def State.dramWrEn (s : State) (a : Nat) : List (Option Byte) → State
  | [] => s
  | some b :: t => (s.dramWr a [b]).dramWrEn (a + 1) t
  | none :: t => s.dramWrEn (a + 1) t

/-- BAR2_WRITE. -/
def State.bar2Write (s : State) (a : Nat) (d : List (Option Byte)) : State :=
  if s.boot.stage = .off ∨ barSize 2 < a + d.length then s
  else if ¬ s.dramServes then s.raise Reg.hstFlags 5
  else if s.spanProtected a d.length then s.raise Reg.hstFlags 2
  else s.dramWrEn a d

/-! ### Rings and vectors (R427 to R429, R437, R438) -/

/-- HST_RING_CTL_WRITE: on EN going from 0 to 1 the four indices become 0 and the phase 1 (R427). -/
def State.ringCtl (s : State) (v : W32) : State :=
  let was := s.rdB Reg.hstRingCtl 0
  let now := bitOf v 0
  let s1 := (s.wr Reg.hstRingCtl (v &&& 1)).wrB Reg.hstStatus 0 now
  if now && !was then
    (((s1.wr Reg.hstCmdTail 0).wr Reg.hstCmdHead 0).wr Reg.hstCplHead 0).wr Reg.hstCplTail 0x1000
  else s1

/-- A write of a ring base: discarded with BAD_ACCESS while EN = 1 (R427, R440). -/
def State.ringBase (s : State) (off : Nat) (v : W32) : State :=
  if s.rdB Reg.hstRingCtl 0 then s.badAddr 0 off else s.wr off v

/-- A write of HST_CMD_TAIL or HST_CPL_HEAD. -/
def State.ringIndex (s : State) (off : Nat) (v : W32) : State := s.wr off (v &&& 0xFFF)

/-- One vector of HST_VEC_ACK_WRITE: `ack` clears the pending bit, and a set in the same cycle keeps it set and sends one
further message (R438). -/
def State.ackOne (s : State) (vec : Nat) (ack setNow : Bool) : State :=
  if ack then
    let s1 := s.wrB (vecReg vec) (vec % 32) false
    if setNow then s1.pendVector vec else s1
  else if setNow then s.pendVector vec else s

/-- HST_VEC_ACK_WRITE of the lower or the upper 32 vectors. -/
def State.vecAck (s : State) (half : Half) (v setNow : W32) : State :=
  let base := match half with | .lo => 0 | .hi => 32
  (List.range 32).foldl (fun t i => t.ackOne (base + i) (bitOf v i) (bitOf setNow i)) s

/-- MSIX_UNMASK: the mask bit clears, and a PBA bit set sends its message (R438). -/
def State.unmask (s : State) (vec : Nat) : State :=
  let t := Tbl.set msixDefault s.hst.msixTable (4 * vec + 3) (Tbl.get msixDefault s.hst.msixTable (4 * vec + 3) &&& 0xFFFFFFFE)
  let s1 := { s with hst := { s.hst with msixTable := t } }
  if s1.hst.pba.getLsbD vec then (s1.setPba vec false).sendMsg vec else s1

/-- A host write of a word of the MSI-X table, by byte offset from 0x0003_8000 (R437): the vector control word masks or unmasks,
the others are stored. -/
def State.msixWrite (s : State) (o : Nat) (v : W32) : State :=
  if o % 16 = 12 ∧ ¬ bitOf v 0 then s.unmask (o / 16)
  else
    let w := if o % 16 = 12 then v &&& 1 else v
    { s with hst := { s.hst with msixTable := Tbl.set msixDefault s.hst.msixTable (o / 4) w } }

/-! ### Flags and read-clear counters (R8, R439) -/

/-- FLAG_CLEAR: the RW1C bits written 1 clear, the RW fields take the value, and each set event of the same cycle leaves its
flag set and counted (R439). -/
def State.flagClear (s : State) (off : Nat) (v setNow : W32) : State :=
  match findRow off with
  | some r =>
    let s1 := s.wr off (takeFields r (s.rd off) v)
    (bitList 32 (setNow &&& BitVec.ofNat 32 r.w1c).toNat).foldl (fun t b => t.raise off b) s1
  | none => s

/-- READ_CLEAR: the read returns the value `shown` and the RC fields clear; a counter that increments in the same cycle is left
at 1, and its flag is set (R8, R439). `incNow` has, for each such counter, a 1 in its lowest bit. No counter of a cluster in retention
increments. -/
def State.readClear (s : State) (off : Nat) (shown incNow : W32) : State :=
  match findRow off with
  | some r =>
    let rc := BitVec.ofNat 32 r.rc
    let inc := if s.retained off then 0 else incNow
    let s1 := (s.setRead shown).wr off ((s.rd off &&& ~~~ rc) ||| (inc &&& rc))
    match findRow (off - 4) with
    | some f =>
      if f.w1c = 0 then s1
      else (bitList 32 f.w1c).foldl
        (fun t b => if bitOf inc (flagCounter (off - 4) b).1 then t.wrB (off - 4) b true else t) s1
    | none => s1
  | none => s

/-! ### Commands (R428 to R436) -/

/-- Status codes of R436. -/
abbrev St.ok : Nat := 0
abbrev St.busy : Nat := 0x04
abbrev St.uncal : Nat := 0x05
abbrev St.badOpcode : Nat := 0x20
abbrev St.badField : Nat := 0x21
abbrev St.tooLong : Nat := 0x22
abbrev St.lengthAlign : Nat := 0x23
abbrev St.notSealed : Nat := 0x24
abbrev St.imageRejected : Nat := 0x25
abbrev St.noRing : Nat := 0x26
abbrev St.creditTimeout : Nat := 0x27
abbrev St.discarded : Nat := 0x28
abbrev St.protectedRegion : Nat := 0x29
abbrev St.dmaError : Nat := 0x2A

/-- The command entry of 64 bytes at ring index `i` (R430). -/
def parseCmd (e : List Byte) (i : Nat) : Cmd :=
  { opcode := leAt e 0 1, flags := leAt e 1 1, tag := leAt e 2 2, arg0 := leAt e 4 4, arg1 := leAt e 8 4, len := leAt e 0xC 3,
    haddr := leAt e 0x10 8, daddr := leAt e 0x18 8, clean := leAt e 0xF 1 == 0 && leAt e 0x20 32 == 0, index := i, dropped := false }

/-- Commands are fetched and executed: READY, FAILED, or the safe state's hardware fetcher (R106, R107, R499), and no
DEVICE_RESET has completed (R435). -/
def State.fetches (s : State) : Bool :=
  (s.boot.stage == .ready || s.boot.stage == .failed || s.boot.stage == .safe) && !s.boot.resetDue

/-- A completion slot can be reserved (R428). -/
def State.slotFree (s : State) : Bool :=
  decide ((s.rdF Reg.hstCplTail 11 0 + 4096 - s.rdF Reg.hstCplHead 11 0) % 4096 + s.hst.reserved < 4095)

/-- The status that refuses a command before it starts, by its opcode and the module's stage (R432, R435, R499). In FAILED an opcode that
R432 does not define answers BAD_OPCODE, ahead of the NOT_SEALED of R107 (DESIGN CHOICE, log 90). -/
def State.refusal (s : State) (c : Cmd) : Option Nat :=
  if s.boot.stage = .safe then if c.opcode = 0x0E then none else some St.busy
  else if 0x0E < c.opcode then some St.badOpcode
  else if s.boot.stage = .failed ∧ c.opcode ≠ 0x0C ∧ c.opcode ≠ 0x0D ∧ c.opcode ≠ 0x0E then some St.notSealed
  else none

/-- The commands at the front of the fetched list that are refused by their opcode complete at once, in ring order, while no
foreground command runs (R434). -/
def State.settle (s : State) : Nat → State
  | 0 => s
  | n + 1 =>
    match s.hst.fg, s.hst.fetched with
    | none, c :: t =>
      match s.refusal c with
      | some st => (({ s with hst := { s.hst with fetched := t } } : State).complete c st 0 0).settle n
      | none => s
    | _, _ => s

/-- `settle` over every fetched command. -/
def State.settleAll (s : State) : State := s.settle s.hst.fetched.length

/-- COMMAND_FETCH: the next pending command is fetched once a completion slot can be reserved for it (R428). `entry` is what the host
has placed at its index of the command ring in host memory (R427). -/
def State.fetch (s : State) (entry : List Byte) : State :=
  let h := s.rdF Reg.hstCmdHead 11 0
  if s.fetches ∧ s.rdB Reg.hstRingCtl 0 ∧ h ≠ s.rdF Reg.hstCmdTail 11 0 ∧ s.slotFree then
    let c := parseCmd entry h
    let s1 := (s.hostWr (s.cmdAddr h) (entry.take 64)).wr Reg.hstCmdHead (BitVec.ofNat 32 ((h + 1) % 4096))
    let s2 := { s1 with hst := { s1.hst with fetched := s1.hst.fetched ++ [c], reserved := s1.hst.reserved + 1 } }
    s2.settleAll
  else s

/-- The bits of ARG0 and ARG1 that an opcode does not define, where it uses the argument at all (R430, R432; DEDUCED, log 24). -/
def argReserved (c : Cmd) : Bool :=
  match c.opcode with
  | 0x01 => decide (c.arg0 / 2 ^ 10 ≠ 0)
  | 0x03 => decide (c.arg0 / 2 ^ 6 ≠ 0)
  | 0x04 => decide (c.arg1 / 2 ^ 12 ≠ 0)
  | 0x05 => decide (c.arg0 / 2 ^ 5 ≠ 0) || decide (c.arg1 / 2 ^ 16 ≠ 0)
  | 0x0A => decide (c.arg0 / 2 ^ 18 ≠ 0)
  | 0x0B => decide (c.arg0 / 2 ^ 18 ≠ 0)
  | _ => false

/-- The opcodes whose data lies at HADDR (R432). -/
def usesHaddr (op : Nat) : Bool := [0x03, 0x05, 0x06, 0x07, 0x0C, 0x0D].contains op

/-- A reserved bit set, or a misaligned HADDR (R430, R433). -/
def badFields (c : Cmd) : Bool :=
  !c.clean || decide (c.flags / 2 ≠ 0) || argReserved c || decide (c.haddr % 16 ≠ 0)

/-- A command fetched before a link reset that needs host memory: it ends as if a host read had failed (R422; DEDUCED, log 104). -/
def Cmd.cutOff (c : Cmd) : Bool := c.dropped && usesHaddr c.opcode && c.len != 0

/-- Runs the command at the front if it has opcode `op`, no foreground command runs and it is not refused: a bad field completes
it, else `f` gives its effect, where the command can still reach the host memory it needs (R422, R434). -/
def State.runCmd (s : State) (op : Nat) (f : Cmd → State → State) : State :=
  match s.hst.fg, s.hst.fetched with
  | none, c :: t =>
    if c.opcode = op ∧ s.fetches ∧ s.refusal c = none then
      let s1 : State := { s with hst := { s.hst with fetched := t } }
      (if badFields c then s1.complete c St.badField 0 0 else if c.cutOff then s1.complete c St.dmaError 0 0 else f c s1).settleAll
    else s
  | _, _ => s

/-- NOP. -/
def State.cmdNop (s : State) : State := s.runCmd 0x00 (fun c t => t.complete c St.ok 0 0)

/-- READ (R432, R433): DRAM data goes to host memory. -/
def State.cmdRead (s : State) : State :=
  s.runCmd 0x06 (fun c t =>
    if 2 ^ 34 < c.daddr + 16 * c.len then t.complete c St.tooLong 0 0
    else
      (t.hostWr c.haddr (t.dramRd c.daddr (16 * c.len))).complete c St.ok 0 0)

/-- WRITE (R432, R433). `data` is what the host memory at HADDR holds, none for a read error. -/
def State.cmdWrite (s : State) (data : Option (List Byte)) : State :=
  s.runCmd 0x07 (fun c t =>
    if 2 ^ 34 < c.daddr + 16 * c.len then t.complete c St.tooLong 0 0
    else if t.spanProtected c.daddr (16 * c.len) then t.complete c St.protectedRegion 0 0
    else
      match data with
      | none => t.complete c St.dmaError 0 0
      | some d => (t.dramWr c.daddr (d.take (16 * c.len))).complete c St.ok 0 0)

/-- EPOCH: the value waits for the next CK_REF tick (R73, R432). -/
def State.cmdEpoch (s : State) : State :=
  s.runCmd 0x08 (fun c t =>
    { t with hst := { t.hst with fg := some c },
             clk := { t.clk with epochSet := some (BitVec.ofNat 64 (c.arg0 + 2 ^ 32 * c.arg1)) } })

/-- EPOCH_TAKE_EFFECT: the tick that brings a set value (R73). -/
def State.epochTakeEffect (s : State) : State :=
  match s.clk.epochSet with
  | some v => if s.powered then (s.epochTake v).settleAll else s
  | none => s

/-- LOG_READ (R432, R433, R490). -/
def State.cmdLogRead (s : State) : State :=
  s.runCmd 0x0D (fun c t =>
    if 0x800000 < 32 * c.arg0 + 16 * c.len then t.complete c St.tooLong 0 0
    else if c.len % 2 = 1 then t.complete c St.lengthAlign 0 0
    else
      (t.hostWr c.haddr (t.flashRd (0x600000 + 32 * c.arg0) (16 * c.len))).complete c St.ok 0 0)

/-- DEVICE_RESET: the completion is written, and the warm reset is 10 µs away (R435, R501). -/
def State.cmdDeviceReset (s : State) : State :=
  s.runCmd 0x0E (fun c t =>
    let t1 := t.complete c St.ok 0 0
    { t1 with boot := { t1.boot with resetDue := true } })

/-- CPL_STALL: pending commands have waited 10 ms for a slot (R429). -/
def State.cplStall (s : State) : State :=
  if s.rdB Reg.hstRingCtl 0 ∧ s.rdF Reg.hstCmdHead 11 0 ≠ s.rdF Reg.hstCmdTail 11 0 ∧ ¬ s.slotFree then
    (s.raise Reg.hstFlags 4).post 281 0x21 (BitVec.ofNat 128 (s.rdF Reg.hstCmdHead 11 0))
  else s

/-- Marks a command as fetched before a link reset (R422). -/
def Cmd.drop (c : Cmd) : Cmd := { c with dropped := true }

/-- The background STREAMs end as if a host read had failed (R422, R433). -/
def State.endStreams (s : State) : State :=
  let l := s.hst.bg.filter (fun b => b.cmd.opcode == 0x05)
  let s1 := { s with hst := { s.hst with bg := s.hst.bg.filter (fun b => b.cmd.opcode != 0x05) } }
  l.foldl (fun t b => t.complete b.cmd St.dmaError 0 b.posted) s1

/-- PCIE_LINK_RESET (R422). -/
def State.linkReset (s : State) : State :=
  if s.powered then
    let fg := s.hst.fg.map Cmd.drop
    let bg := s.hst.bg.map (fun b => { b with cmd := b.cmd.drop })
    let s1 := { s with plan := { s.plan with loading := s.plan.loading.map Cmd.drop },
                       hst := { s.hst with fetched := s.hst.fetched.map Cmd.drop, fg := fg, bg := bg } }
    let s2 := ((s1.wr Reg.hstRingCtl 0).wr Reg.hstStatus (s1.rd Reg.hstStatus &&& 2)).endStreams
    (s2.raise Reg.hstFlags 3).post 280 0x20 0
  else s

/-- PCIE_LINK_UP (R421, R440): the trained width and speed. -/
def State.linkUp (s : State) (width speed : BitVec 3) : State :=
  if s.powered then
    ((s.wrB Reg.hstStatus 8 true).wrF Reg.hstStatus 7 5 width.toNat).wrF Reg.hstStatus 4 2 speed.toNat
  else s

/-! ### Meanings -/

/-- A host write of CLK_EPP_PERIOD (R64). -/
def execClkEppPeriodWrite (v : W32) (s : State) : Out :=
  .next (s.onWrite Reg.clkEppPeriod (fun t => t.eppPeriodWrite v))

/-- A host write of CLK_EPP_WIDTH (R64). -/
def execClkEppWidthWrite (v : W32) (s : State) : Out := .next (s.onWrite Reg.clkEppWidth (fun t => t.eppWidthWrite v))

/-- A host write of CLK_EPP_OFFSET (R64). -/
def execClkEppOffsetWrite (v : W32) (s : State) : Out := .next (s.onWrite Reg.clkEppOffset (fun t => t.eppOffsetWrite v))

/-- PCIE_LINK_RESET (R422). -/
def execPcieLinkReset (s : State) : Out := .next s.linkReset

/-- PCIE_LINK_UP (R421). -/
def execPcieLinkUp (width speed : BitVec 3) (s : State) : Out := .next (s.linkUp width speed)

/-- COMMAND_FETCH (R428). -/
def execCommandFetch (entry : List Byte) (s : State) : Out := .next (s.fetch entry)

/-- NOP (R432). -/
def execNop (s : State) : Out := .next s.cmdNop

/-- READ (R432, R433). -/
def execRead (s : State) : Out := .next s.cmdRead

/-- WRITE (R432, R433). -/
def execWrite (data : Option (List Byte)) (s : State) : Out := .next (s.cmdWrite data)

/-- EPOCH (R73, R432). -/
def execEpoch (s : State) : Out := .next s.cmdEpoch

/-- EPOCH_TICK (R72, R73): the next tick, which takes a value that an EPOCH command has set. -/
def execEpochTick (s : State) : Out := .next (if s.clk.epochSet.isSome then s.epochTakeEffect else s.epochTick)

/-- EPOCH_TAKE_EFFECT (R73). -/
def execEpochTakeEffect (s : State) : Out := .next s.epochTakeEffect

/-- LOG_READ (R490, R432). -/
def execLogRead (s : State) : Out := .next s.cmdLogRead

/-- DEVICE_RESET (R435). -/
def execDeviceReset (s : State) : Out := .next s.cmdDeviceReset

/-- CPL_STALL (R429). -/
def execCplStall (s : State) : Out := .next s.cplStall

/-- BAR0_BAD_ACCESS (R423). -/
def execBar0BadAccess (off : BitVec 24) (form : BadForm) (s : State) : Out :=
  .next (if s.powered then s.badAccess off.toNat form else s)

/-- BAR0_UNMAPPED (R424). -/
def execBar0Unmapped (off : BitVec 24) (isWrite : Bool) (s : State) : Out :=
  .next (if s.powered && !s.reaches off.toNat then s.unmapped off.toNat isWrite else s)

/-- BAR2_READ (R425, R426). -/
def execBar2Read (addr len : Nat) (s : State) : Out := .next (s.bar2Read addr len)

/-- BAR2_WRITE (R425, R426). -/
def execBar2Write (addr : Nat) (data : List (Option Byte)) (s : State) : Out := .next (s.bar2Write addr data)

/-- A host write of HST_RING_CTL (R427). -/
def execHstRingCtlWrite (v : W32) (s : State) : Out := .next (s.onWrite Reg.hstRingCtl (fun t => t.ringCtl v))

/-- A host write of HST_CMD_TAIL (R428). -/
def execHstCmdTailWrite (v : W32) (s : State) : Out := .next (s.onWrite Reg.hstCmdTail (fun t => t.ringIndex Reg.hstCmdTail v))

/-- A host write of HST_CPL_HEAD (R429). -/
def execHstCplHeadWrite (v : W32) (s : State) : Out := .next (s.onWrite Reg.hstCplHead (fun t => t.ringIndex Reg.hstCplHead v))

/-- A host write of HST_VEC_ACK (R438). -/
def execHstVecAckWrite (half : Half) (v setNow : W32) (s : State) : Out :=
  .next (s.onWrite (match half with | .lo => Reg.hstVecAckLo | .hi => Reg.hstVecAckHi) (fun t => t.vecAck half v setNow))

/-- MSIX_UNMASK (R438). -/
def execMsixUnmask (vec : Fin 64) (s : State) : Out := .next (if s.powered then s.unmask vec.val else s)

end Sys2Proof.Machine
end

