-- ==== Sys2Proof/Machine/Operands.lean ====
section
/-! DEFINITION. Operand forms: the engines by number, and the fields of microwords, segment entries, plan headers, timing-set
blocks and lists of bytes. -/

namespace Sys2Proof.Machine

/-! ### Engines by number -/

/-- Sequencer `q`: lane 0 to 31, or the master, 32. -/
def State.seq (s : State) (q : Nat) : Seq := Tbl.get (fun _ => seqReset) s.seqs q

/-- Stores a sequencer. -/
def State.setSeq (s : State) (q : Nat) (v : Seq) : State := { s with seqs := Tbl.set (fun _ => seqReset) s.seqs q v }

/-- Updates a sequencer. -/
def State.modSeq (s : State) (q : Nat) (f : Seq → Seq) : State := s.setSeq q (f (s.seq q))

/-- Lane `c`. -/
def State.lane (s : State) (c : Nat) : Lane := Tbl.get (fun _ => laneReset) s.lanes c

/-- Stores a lane. -/
def State.setLane (s : State) (c : Nat) (v : Lane) : State := { s with lanes := Tbl.set (fun _ => laneReset) s.lanes c v }

/-- Updates a lane. -/
def State.modLane (s : State) (c : Nat) (f : Lane → Lane) : State := s.setLane c (f (s.lane c))

/-- Cluster `c`. -/
def State.clu (s : State) (c : Nat) : Clu := Tbl.get (fun _ => cluReset) s.clus c

/-- Stores a cluster. -/
def State.setClu (s : State) (c : Nat) (v : Clu) : State := { s with clus := Tbl.set (fun _ => cluReset) s.clus c v }

/-- Updates a cluster. -/
def State.modClu (s : State) (c : Nat) (f : Clu → Clu) : State := s.setClu c (f (s.clu c))

/-- Channel `n`. -/
def State.chan (s : State) (n : Nat) : Chan := Tbl.get (fun _ => chanReset) s.chans n

/-- Stores a channel. -/
def State.setChan (s : State) (n : Nat) (v : Chan) : State := { s with chans := Tbl.set (fun _ => chanReset) s.chans n v }

/-- Updates a channel. -/
def State.modChan (s : State) (n : Nat) (f : Chan → Chan) : State := s.setChan n (f (s.chan n))

/-- Updates the trigger engine and acquisition of a cluster. -/
def State.modAcq (s : State) (c : Nat) (f : Acq → Acq) : State := s.modClu c (fun k => { k with acq := f k.acq })

/-- Updates the DDS engine of a cluster. -/
def State.modDds (s : State) (c : Nat) (f : Dds → Dds) : State := s.modClu c (fun k => { k with dds := f k.dds })

/-- Updates a channel's TIA. -/
def State.modTia (s : State) (n : Nat) (f : Tia → Tia) : State := s.modChan n (fun k => { k with tia := f k.tia })

/-- Updates a channel's parametric unit. -/
def State.modPmu (s : State) (n : Nat) (f : Pmu → Pmu) : State := s.modChan n (fun k => { k with pmu := f k.pmu })

/-- The 16 channels of cluster `c` (R1). -/
def chansOf (c : Nat) : List Nat := (List.range 16).map (fun k => 16 * c + k)

/-- The number of a sequencer in a lane mask of 32 bits. -/
def lanesOf (m : Nat) : List Nat := bitList 32 m

/-! ### Numbers of event sources (R139, R267, R479) -/

/-- EV(8c + k) of a cluster. -/
def evLane (c k : Nat) : Nat := 8 * c + k

/-! ### Microwords (R126) -/

/-- Bits [msb:lsb] of a microword. -/
def UWord.fld (w : UWord) (msb lsb : Nat) : Nat := (w.toNat >>> lsb) % 2 ^ (msb + 1 - lsb)

/-- Cycles of one execution (R120). -/
def UWord.cl (w : UWord) : Nat := if w.fld 5 0 = 0 then 64 else w.fld 5 0
def UWord.repeat_ (w : UWord) : Nat := w.fld 21 6
def UWord.rsrc (w : UWord) : Bool := w.fld 22 22 == 1
def UWord.opc (w : UWord) : Nat := w.fld 26 23
def UWord.cond (w : UWord) : Nat := w.fld 31 27
def UWord.cinv (w : UWord) : Bool := w.fld 32 32 == 1
def UWord.target (w : UWord) : Nat := w.fld 46 33
def UWord.lcsel (w : UWord) : Nat := w.fld 48 47
def UWord.lcop (w : UWord) : Nat := w.fld 50 49
def UWord.imm (w : UWord) : Nat := w.fld 74 51
def UWord.vop (w : UWord) : Nat := w.fld 78 76
def UWord.dir (w : UWord) : Bool := w.fld 79 79 == 1
def UWord.tset (w : UWord) : Nat := w.fld 85 80
/-- VCNT as a count, 0 meaning 256. -/
def UWord.vcnt (w : UWord) : Nat := if w.fld 93 86 = 0 then 256 else w.fld 93 86
def UWord.xop (w : UWord) : Nat := w.fld 99 96
def UWord.yop (w : UWord) : Nat := w.fld 103 100
def UWord.zop (w : UWord) : Nat := w.fld 105 104
def UWord.carry (w : UWord) : Nat := w.fld 107 106
def UWord.ascr (w : UWord) : Bool := w.fld 108 108 == 1
def UWord.dsrc (w : UWord) : Nat := w.fld 114 112
def UWord.dinv (w : UWord) : Bool := w.fld 115 115 == 1
def UWord.dop (w : UWord) : Nat := w.fld 117 116
def UWord.ldstb (w : UWord) : Bool := w.fld 120 120 == 1
def UWord.evp (w : UWord) : Bool := w.fld 121 121 == 1
def UWord.evsel (w : UWord) : Nat := w.fld 122 122
def UWord.scrld (w : UWord) : Bool := w.fld 123 123 == 1
def UWord.srcsel (w : UWord) : Nat := w.fld 125 124
def UWord.mark (w : UWord) : Bool := w.fld 126 126 == 1
def UWord.fop (w : UWord) : Nat := w.fld 128 127
def UWord.fsel (w : UWord) : Nat := w.fld 130 129
def UWord.top (w : UWord) : Nat := w.fld 132 131
def UWord.lanemask (w : UWord) : Nat := w.fld 175 144
def UWord.barsel (w : UWord) : Nat := w.fld 183 176

/-- A microword built from fields given as (lsb, value). -/
def uword (fs : List (Nat × Nat)) : UWord := fs.foldl (fun acc f => acc ||| BitVec.ofNat 192 (f.2 <<< f.1)) 0

/-- The trap word (R118). -/
def trapWord : UWord := uword [(23, 0xB)]

/-- The microword at byte offset `o` of a list of bytes (R150). -/
def uwordAt (bs : List Byte) (o : Nat) : UWord := BitVec.ofNat 192 (leAt bs o 24)

/-! ### Segment entries (R163) -/

/-- The fields of a segment entry of 192 bits. -/
def segmOf (x : Nat) : Segm :=
  let f := fun (msb lsb : Nat) => (x >>> lsb) % 2 ^ (msb + 1 - lsb)
  { kind := f 1 0, fin := f 2 2 == 1, pin := f 3 3 == 1, sluice := f 4 4 == 1, tset := f 13 8, next := f 27 16, rept := f 51 28,
    map := f 79 64, base := f 105 80, len := f 135 112, keepv := BitVec.ofNat 32 (f 191 160) }

/-- The reserved bits of a segment entry (R163): [7:5], [15:14], [63:52], [111:106], [159:136]. -/
def segmReserved (x : Nat) : Bool :=
  let f := fun (msb lsb : Nat) => (x >>> lsb) % 2 ^ (msb + 1 - lsb)
  decide (f 7 5 ≠ 0 ∨ f 15 14 ≠ 0 ∨ f 63 52 ≠ 0 ∨ f 111 106 ≠ 0 ∨ f 159 136 ≠ 0)

/-- A segment that no entry describes. -/
def segmNone : Segm :=
  { kind := 0, fin := true, pin := false, sluice := false, tset := 0, next := 0, rept := 1, map := 0x2222, base := 0, len := 4, keepv := 0 }

/-- Segment `i` of a lane's table. -/
def Lane.segm (l : Lane) (i : Nat) : Segm := (l.table[i]?).getD segmNone

/-- The current segment of a lane. -/
def Lane.cur (l : Lane) : Segm := l.segm l.place.seg

/-- The pin state of code `v` under a state map (R163). -/
def mapPin (map v : Nat) : Nat := (map >>> (4 * v)) % 16

/-- The code of local channel `k` in a vector word (R164). -/
def codeOf (w : W32) (k : Nat) : Nat := (w.toNat >>> (2 * k)) % 4

/-! ### Pin states (R168) -/

/-- The drive half of a resolved pin state: off, low or high. -/
def driveHalf (p : Nat) : Option Bool :=
  if p = 0 ∨ p = 8 then some false else if p = 1 ∨ p = 9 then some true else none

/-- The compare half of a resolved pin state (R168, R255). -/
inductive CmpHalf where
  | none
  | low
  | high
  | mid
  | valid
  | capture
  deriving DecidableEq, Repr

/-- The compare half of a resolved pin state. -/
def cmpHalf (p : Nat) : CmpHalf :=
  if p = 3 ∨ p = 8 ∨ p = 0xD then .low
  else if p = 4 ∨ p = 9 ∨ p = 0xE then .high
  else if p = 5 ∨ p = 0xF then .mid
  else if p = 6 then .valid
  else if p = 0xB then .capture
  else .none

/-- The active load is on in a resolved pin state (R168). -/
def loadHalf (p : Nat) : Bool := decide (0xD ≤ p)

/-! ### Tussock pairs (R4, R210) -/

/-- Channel `n` is the primary of a pair. -/
def State.primary (s : State) (n : Nat) : Bool := n % 2 == 0 && s.rdB (chOff n Reg.tgPair) 0

/-- Channel `n` is the secondary of a pair. -/
def State.secondary (s : State) (n : Nat) : Bool := n % 2 == 1 && s.rdB (chOff (n - 1) Reg.tgPair) 0

/-- The channel whose comparators serve channel `n`'s strobes and measurements (R211, R292). -/
def State.cmpChan (s : State) (n : Nat) : Nat := if s.secondary n then n - 1 else n

/-! ### Sites (R260) -/

/-- The site of a channel, none for a free channel. -/
def State.siteOf (s : State) (n : Nat) : Option Nat :=
  let v := s.rd (chOff n Reg.flChSite)
  if bitOf v 6 then some (fieldOf v 5 0) else none

/-- The effective site mask of R261: the host's mask and the contact mask. -/
def State.siteMask (s : State) : BitVec 64 :=
  BitVec.ofNat 64 (s.rd64 Reg.flSiteMaskLo ||| s.rd64 Reg.sndMaskLo)

/-! ### Response tables (R212) -/

/-- Entry `i` of a response table whose LO register lies at `off`. -/
def State.respEntry (s : State) (off i : Nat) : Nat :=
  fieldOf (s.rd (off + 4 * (i / 8))) (4 * (i % 8) + 3) (4 * (i % 8))

/-- Writes entry `i` of a response table. -/
def State.setRespEntry (s : State) (off i v : Nat) : State :=
  s.wrF (off + 4 * (i / 8)) (4 * (i % 8) + 3) (4 * (i % 8)) v

/-! ### Timing sets (R200 to R203, R219) -/

/-- PERIOD of timing set `t` of a cluster. -/
def State.period (s : State) (c t : Nat) : Nat := (s.rd (cluOff c (Reg.tgPeriod + 4 * t))).toNat

/-- The mode byte of timing set `t` on channel `n`: FMT in [3:0], the modes of S0 and S1 in [5:4] and [7:6]. -/
def State.modeByte (s : State) (n t : Nat) : Nat :=
  fieldOf (s.rd (chOff n (Reg.tgMode0 + 4 * (t / 4)))) (8 * (t % 4) + 7) (8 * (t % 4))

/-- The format of a mode byte. -/
def fmtOf (m : Nat) : Nat := m % 16

/-- The strobe mode of a mode byte: 0 off, 1 edge, 2 window. -/
def strobeMode (m : Nat) (s1 : Bool) : Nat := if s1 then m / 64 % 4 else m / 16 % 4

/-- Edge code of cell `j` of set `t` in the timing-set mirror. -/
def Chan.code (k : Chan) (t j : Nat) : Nat := Tbl.get (fun _ => 0) k.mirror (6 * t + j)

/-- The window width of a strobe (R201). -/
def State.window (s : State) (n : Nat) (s1 : Bool) : Nat :=
  if s1 then s.rdF (chOff n Reg.tgWin) 31 16 else s.rdF (chOff n Reg.tgWin) 15 0

/-- Drive cells that a format uses while its drive half is on: D0 to D3 (R203). -/
def driveCells (fmt : Nat) : List Nat :=
  match fmt with
  | 0 => [0, 1]
  | 1 => [0, 1, 2]
  | 2 => [0, 1, 2]
  | 3 => [0, 1, 2, 3]
  | 4 => [0, 1, 2, 3]
  | 5 => [0, 1, 2]
  | _ => [0]

/-- The level a format sets at cell D1, D2 or D3 for data `d` (R203). -/
def levelAt (fmt cell : Nat) (d : Bool) : Bool :=
  match fmt, cell with
  | 0, _ => d
  | 1, 1 => d
  | 1, _ => false
  | 2, 1 => d
  | 2, _ => true
  | 3, 2 => d
  | 3, _ => !d
  | 4, 2 => !d
  | 4, _ => d
  | 5, 1 => true
  | _, _ => false

/-! ### Vernier lines (R308, R311) -/

/-- Width of bin `r` of the line of cell `j`, in 2^-12 grid step (R311). -/
def Chan.width (k : Chan) (j r : Nat) : Nat := Tbl.get (fun _ => 4096) k.widths (320 * j + r)

/-- The lower edge P(r) of bin `r` (R311). -/
def Chan.edgeP (k : Chan) (j r : Nat) : Nat := (((List.range r).map (k.width j)).sum + 2048) / 4096

/-- The stage whose lower edge, from widths `w`, lies nearest to fine code `f`; the lower one of two (R311). -/
def nearestStage (w : Nat → Nat) (f : Nat) : Nat :=
  ((List.range 320).foldl (fun (a : Nat × Nat × Nat) r =>
    let p := (a.1 + 2048) / 4096
    let d := max (p - f) (f - p)
    (a.1 + w r, if d < a.2.2 then (r, d) else a.2)) (0, 0, 2 ^ 32)).2.1

/-- The delay stage that placement code `q` sets on the line of cell `j` (R198, R311). -/
def Chan.stage (k : Chan) (j : Nat) (q : Int) : Nat := nearestStage (k.width j) (q % 320).toNat

/-- A table change on the line of cell `j` of channel `n` is noted by the measurements that have timestamps on it (R314). -/
def State.tableNote (s : State) (n j : Nat) : State :=
  (chansOf (n / 16)).foldl (fun t m =>
    t.modTia m (fun a => if a.lines.contains (6 * n + j) then { a with changed := insertNat (6 * n + j) a.changed } else a)) s

/-- The line takes the uniform table (R308). -/
def State.uniform (s : State) (n j : Nat) : State :=
  if (s.chan n).widths.all (fun e => decide (e.1 < 320 * j ∨ 320 * j + 320 ≤ e.1)) then s
  else (s.modChan n (fun k => { k with widths := k.widths.filter (fun e => decide (e.1 < 320 * j ∨ 320 * j + 320 ≤ e.1)) })).tableNote n j

/-! ### Plan headers (R159, R160) -/

/-- A plan as the loader reads it: its first byte in the DRAM, the bytes its place allows, and the volatile slot it is in. -/
structure PlanRef where
  base : Nat
  len  : Nat
  slot : Option Nat
  deriving DecidableEq, Repr

/-- The little-endian number of `n` bytes at offset `o` of a plan. -/
def State.planLe (s : State) (p : PlanRef) (o n : Nat) : Nat := leNat (s.dramRd (p.base + o) n)

/-- Field `o` of `n` bytes of the lane directory entry of lane `c` (R160). -/
def State.laneDir (s : State) (p : PlanRef) (c o n : Nat) : Nat := s.planLe p (0x40 + 32 * c + o) n

/-- The first byte of a volatile slot (R455). -/
def slotBase (n : Nat) : Nat := 64 * mib + 4 * mib * n

/-- The plan that a number names (R156, R157): a volatile slot shadows the library. -/
def State.planOf (s : State) (number : Nat) : Option PlanRef :=
  match (List.range 64).find? (fun n => Tbl.get (fun _ => 0) s.plan.slots n == number + 1) with
  | some n => some { base := slotBase n, len := Tbl.get (fun _ => 0) s.plan.lens n, slot := some n }
  | none =>
    let off := leNat (s.dramRd (16 * number) 4)
    let len := leNat (s.dramRd (16 * number + 4) 4)
    if off = 0 then none else some { base := off, len := len, slot := none }

/-- Byte offset of the sub-parts of a lane part from the plan start (R161): registers, segments, words, timing block. -/
def State.lanePart (s : State) (p : PlanRef) (c : Nat) : Nat × Nat × Nat × Nat :=
  let o := s.laneDir p c 0 4
  let segs := s.laneDir p c 8 2
  let words := s.laneDir p c 0xC 2
  (o, o + 64, o + 64 + 24 * segs, o + 64 + 24 * segs + 24 * words)

/-- Segment entry `i` of a lane part, as 192 bits. -/
def State.planSeg (s : State) (p : PlanRef) (c i : Nat) : Nat := s.planLe p ((s.lanePart p c).2.1 + 24 * i) 24

/-- Routine word `i` of a lane part. -/
def State.planWord (s : State) (p : PlanRef) (c i : Nat) : UWord :=
  BitVec.ofNat 192 (s.planLe p ((s.lanePart p c).2.2.1 + 24 * i) 24)

/-- Routine word `i` of the master part (R162). -/
def State.masterWord (s : State) (p : PlanRef) (i : Nat) : UWord :=
  BitVec.ofNat 192 (s.planLe p (s.planLe p 0x14 4 + 24 * i) 24)

/-- SETMASK of a lane part's timing-set block (R200). -/
def State.setMask (s : State) (p : PlanRef) (c : Nat) : Nat := s.planLe p (s.lanePart p c).2.2.2 8

/-- Offset of the entry of timing set `t` in the plan: its rank among the sets present (R200). -/
def State.setOff (s : State) (p : PlanRef) (c t : Nat) : Nat :=
  (s.lanePart p c).2.2.2 + 0x90 + 336 * (bitList t (s.setMask p c)).length

/-- PERIOD of timing set `t` in a plan. -/
def State.planPeriod (s : State) (p : PlanRef) (c t : Nat) : Nat := s.planLe p (s.setOff p c t) 4

/-- Edge code `j` of local channel `k` in set `t` of a plan (R202). -/
def State.planCode (s : State) (p : PlanRef) (c t k j : Nat) : Nat := s.planLe p (s.setOff p c t + 0x10 + 20 * k + 3 * j) 3

/-- FMT and SM bytes of local channel `k` in set `t` of a plan (R202). -/
def State.planFmt (s : State) (p : PlanRef) (c t k : Nat) : Nat × Nat :=
  (s.planLe p (s.setOff p c t + 0x10 + 20 * k + 0x12) 1, s.planLe p (s.setOff p c t + 0x10 + 20 * k + 0x13) 1)

/-- Field of the channel word of local channel `k` (R201): W0 at 0, W1 at 2, SCR at 4. -/
def State.planChan (s : State) (p : PlanRef) (c k o : Nat) : Nat := s.planLe p ((s.lanePart p c).2.2.2 + 0x10 + 8 * k + o) 2

/-- The 64 words of granule `a` of the vector region (R164, R454). -/
def State.granule (s : State) (a : Nat) : List W32 :=
  let b := s.rdF Reg.memVecBase 14 0 * mib + 256 * a
  (List.range 64).map (fun j => BitVec.ofNat 32 (leNat (s.dramRd (b + 4 * j) 4)))

end Sys2Proof.Machine
end

