-- ==== Sys2Proof/Machine/Flags.lean ====
section
/-! DEFINITION. Flag computations: carries of the address generators, the conditions' flag sources, and the flags F0 to F3. -/

namespace Sys2Proof.Machine

/-- An address operation of R133 on a register with its base, limit and stride: the new value and whether it carried. -/
def addrOp (op x base limit stride imm : Nat) : Nat × Bool :=
  match op with
  | 1 => if limit < x + stride then (base, true) else (x + stride, false)
  | 2 => if x < base + stride then (limit, true) else (x - stride, false)
  | 3 => (base, false)
  | 4 => (limit, false)
  | 5 => (imm % 65536, false)
  | 6 => ((base + limit + 65536 - x) % 65536, false)
  | 7 => (x ^^^ (imm % 65536), false)
  | _ => (x, false)

/-- ZOP of R126 as an operation of R133: HOLD, INC, BASE, DEC. -/
def zopOf (z : Nat) : Nat :=
  match z with
  | 1 => 1
  | 2 => 3
  | 3 => 2
  | _ => 0

/-- The address operations of one execution under the carry chain (R134): the generators after it and the three carries. An
operation that does not apply does not carry. -/
def addrOps (g : Gen) (w : UWord) : Gen × Bool × Bool × Bool :=
  let xr := addrOp w.xop g.x g.xbase g.xmax g.xstride w.imm
  let yr := addrOp w.yop g.y g.ybase g.ymax g.ystride w.imm
  let zr := addrOp (zopOf w.zop) g.z g.zbase g.zmax 1 w.imm
  let xDo := if w.carry = 2 then yr.2 else true
  let yDo := if w.carry = 1 then xr.2 else true
  let xc := xDo && xr.2
  let yc := yDo && yr.2
  let zDo := if w.carry = 1 then yc else if w.carry = 2 then xc else true
  ({ g with x := if xDo then xr.1 else g.x, y := if yDo then yr.1 else g.y, z := if zDo then zr.1 % 16 else g.z },
    xc, yc, zDo && zr.2)

/-- Rotation of a 16-bit WALK left by 1 (R126). -/
def rotl16 (x : Nat) : Nat := (2 * x) % 65536 + x / 32768 % 2

/-- The data operation DOP (R126). -/
def dataOp (g : Gen) (dop : Nat) : Gen :=
  match dop with
  | 1 => { g with walk := rotl16 g.walk }
  | 2 => { g with walk := g.bg }
  | _ => g

/-- The parity of a 16-bit number. -/
def parity16 (x : Nat) : Bool := (bitList 16 x).length % 2 == 1

/-- 16 copies of a bit. -/
def rep16 (b : Bool) : Nat := if b then 0xFFFF else 0

/-- The data word D of a posting (R136), from the posted addresses `x` and `y`. -/
def dataWord (g : Gen) (x y dsrc : Nat) (dinv : Bool) : Nat :=
  let d :=
    match dsrc with
    | 0 => g.bg
    | 1 => g.bg ^^^ rep16 (x.testBit 0)
    | 2 => g.bg ^^^ rep16 (y.testBit 0)
    | 3 => g.bg ^^^ rep16 (x.testBit 0 != y.testBit 0)
    | 4 => g.bg ^^^ rep16 (parity16 x != parity16 y)
    | 5 => x
    | _ => g.walk
  if dinv then 0xFFFF ^^^ d else d

/-- The flag operation FOP on F0 to F3 (R126). -/
def flagOp (f : BitVec 4) (fop fsel : Nat) : BitVec 4 :=
  let b : BitVec 4 := BitVec.ofNat 4 (2 ^ fsel)
  match fop with
  | 1 => f ||| b
  | 2 => f &&& ~~~ b
  | 3 => f ^^^ b
  | _ => f

/-- A result word of R258. -/
def resultWordOf (hi lo : Bool) (kind : Nat) : Nat := 8 * b2n hi + 4 * b2n lo + kind

/-- Does an observed state pass a compare half (R255)? -/
def passes (h : CmpHalf) (o : CmpPair) : Bool :=
  match h with
  | .low => o.lo
  | .high => o.hi
  | .mid => !o.hi && !o.lo
  | .valid => o.hi || o.lo
  | .capture => true
  | .none => true

end Sys2Proof.Machine
end

