-- ==== Sys2Proof/Machine/Signals.lean ====
section
/-! DEFINITION. Signals between the engines: interrupt requests, the shared-trigger latch, inputs of the trigger engine, and the
plan's state and lanes. -/

namespace Sys2Proof.Machine

/-! ### Plans and lanes -/

/-- PLN_STATE.STATE: 0 IDLE, 1 LOADING, 2 STARTING, 3 RUNNING (R194). -/
def State.plnState (s : State) : Nat := s.rdF Reg.plnState 19 17

/-- The plan number in PLN_STATE. -/
def State.plnNumber (s : State) : Nat := s.rdF Reg.plnState 9 0

/-- A sequencer runs a part of a plan: not idle, not in FAULT_STOP, and its part has not ended (R141). -/
def Seq.inPart (z : Seq) : Bool := z.st != 0 && z.st != 4 && z.holdWhy != .ended

/-- A lane is idle (R173): its sequencer is IDLE, its last vector has been issued, no start is still to fall and it is not
armed. -/
def State.laneIdle (s : State) (c : Nat) : Bool :=
  (s.seq c).st == 0 && !(s.lane c).live && (s.lane c).due == 0 && !(s.lane c).armed

/-- Every lane of a mask is idle. -/
def State.lanesIdle (s : State) (m : Nat) : Bool := (lanesOf m).all s.laneIdle

/-- A lane is in the LANEMASK of a plan that is loading or starting (R224). -/
def State.laneStarting (s : State) (c : Nat) : Bool :=
  s.plan.lanes.getLsbD c && (s.plnState == 1 || s.plnState == 2)

/-- Vectors in a lane's issue queue, a token counting 64 (R123, R361). -/
def Lane.fill (l : Lane) : Nat :=
  (l.queue.map (fun i => match i with | .vec _ => 1 | .token _ => 64 | .marker _ _ _ => 0)).sum

/-- A sounding pass is running (SND_STATUS.BUSY). -/
def State.sounding (s : State) : Bool := s.rdB Reg.sndStatus 0

/-! ### Interrupt requests (R141) -/

/-- A request reaches line `n` of sequencer `q`: pending, or discarded where it runs no part of a plan. -/
def State.pendLine (s : State) (q n : Nat) : State :=
  if (s.seq q).inPart then s.modSeq q (fun z => { z with pend := z.pend ||| BitVec.ofNat 5 (2 ^ n) }) else s

/-- STOP is raised in the lanes of a mask. -/
def State.stopLanes (s : State) (m : Nat) : State := (lanesOf m).foldl (fun t c => t.pendLine c 1) s

/-- The plan is stopped in every lane: starts still to fall and armed lanes are given up, and STOP is raised in the others
(R173, R174; DEDUCED, log 37). -/
def State.planStop (s : State) : State :=
  let ls := lanesOf s.plan.lanes.toNat
  let s1 : State := ls.foldl (fun t c => t.modLane c (fun l => { l with due := 0, armed := false })) s
  let s2 : State := if s1.plnState = 2 then s1.wrF Reg.plnState 19 17 3 else s1
  let s3 : State := { s2 with plan := { s2.plan with startDue := 0 } }
  s3.stopLanes s3.plan.lanes.toNat

/-- A fault of R146 in sequencer `q`: it waits for its handler, or stops the sequencer where the FAULT handler runs. -/
def State.raiseFault (s : State) (q code pc : Nat) : State :=
  let z := s.seq q
  let off := seqOff q Reg.seqFault
  let s1 := s.wr off (pack [(0, pc % 16384), (24, code)])
  if z.inFault then s1.setSeq q { z with st := 4, waiting := false, holdWhy := .none }
  else s1.setSeq q { z with fault := some (code, pc % 16384), pend := z.pend ||| 1 }

/-- A read of row `r` of macro `m` finds an uncorrectable error (R442). -/
def State.eccUncorr (s : State) (m r : Nat) : State :=
  ((s.raise Reg.memFlags 0).wr Reg.memEccAddr (pack [(0, r), (16, m)])).post 290 0x2A (evData [(0, m), (16, r)])

/-- A read finds a single-bit error: the corrected word is used and written back (R442). -/
def State.eccCorrected (s : State) : State := s.count Reg.memEccCnt 1

/-! ### Inputs of the trigger engine (R340, R341) -/

/-- The trigger engine of cluster `c` evaluates samples: ARMED, in POST or in REARM, from the arm instant on (R340, R355). -/
def State.acqLive (s : State) (c : Nat) : Bool :=
  inRange 1 3 (s.rdF (cluOff c Reg.acqStatus) 2 0) && !(s.clu c).acq.armDue

/-- Something reaches the trigger and capture engines of cluster `c` for their next sample. -/
def State.acqOffer (s : State) (c : Nat) (f : Acq → Acq) : State := if s.acqLive c then s.modAcq c f else s

/-- An input reaches the trigger engine of cluster `c` in its next sample. -/
def State.acqIn (s : State) (c : Nat) (i : AcqIn) : State := s.acqOffer c (fun a => { a with inputs := a.inputs ++ [i] })

/-- An input without a channel: MARK (5), DDS_MARK (6), EXT (7), FORCE (8). -/
def plainIn (src : Nat) : AcqIn := { src := src, ch := 0, sel := 0, s1 := false, time := none, interp := 0 }

/-- The shared-trigger latch becomes set (R129, R412): line EXTI is raised where it is enabled, and the trigger engines see
it. A trigger that finds the latch set requests EXTI again and offers the trigger engines nothing (DESIGN CHOICE, log 91). -/
def State.setExt (s : State) : State :=
  let s1 := { s with plan := { s.plan with ext := true } }
  let s2 := (List.range 33).foldl (fun t q => if t.rdB (seqOff q Reg.seqIvec) 31 then t.pendLine q 4 else t) s1
  if s.plan.ext then s2 else (List.range 32).foldl (fun t c => t.acqIn c (plainIn 7)) s2

/-! ### Refill underrun (R190, R191) -/

/-- The flag and event of an underrun (R190). -/
def State.underrunMark (s : State) (c seg : Nat) : State :=
  (s.raise (cluOff c Reg.plnFlags) 0).post (evLane c 3) 0x05 (evData [(0, s.plnNumber), (16, seg)])

/-- A lane part ends (R173): it posts nothing more, its requests are discarded and its arrival is withdrawn; its queue drains. -/
def State.partEnd (s : State) (c : Nat) : State :=
  let s1 := s.modSeq c (fun z => { z with st := if z.st = 4 then 4 else 2, holdWhy := .ended, pend := 0, fault := none, inFault := false, stack := [],
                                           waiting := false, arrived := none, released := false })
  s1.modLane c (fun l => { l with ended := true, jump := none, granted := false })

/-- The master part ends. -/
def State.masterEnd (s : State) : State :=
  s.modSeq 32 (fun z => { z with st := if z.st = 4 then 4 else 0, holdWhy := .none, pend := 0, fault := none, inFault := false, stack := [],
                                 waiting := false, arrived := none, released := false })

/-- A part ends, of a lane or the master. -/
def State.anyEnd (s : State) (q : Nat) : State := if q = 32 then s.masterEnd else s.partEnd q

/-- An uncorrectable read of the queues and tables of sequencer `q`: the plan ends as after a fault of R146 in it (R443). -/
def State.tablesLost (s : State) (q row : Nat) : State :=
  let s1 := (s.eccUncorr (if q = 32 then 1089 else 1057 + q) row).anyEnd q
  ({ s1 with plan := { s1.plan with faulted := true } } : State).planStop.masterEnd

/-- An underrun under ABORT (R191): the lane part ends, STOP is raised in every other lane of the plan, and the master's part ends, so that
the plan ends. -/
def State.underrunAbort (s : State) (c : Nat) : State :=
  let s1 := (s.underrunMark c (s.lane c).place.seg).partEnd c
  let s2 := { s1 with plan := { s1.plan with underrun := true } }
  s2.planStop.masterEnd

/-! ### Conditions of the lanes (R129, R265) -/

/-- SITES_DONE of a cluster (R265): every unmasked site with a channel in the cluster has a non-zero fail count. -/
def State.sitesDone (s : State) (c : Nat) : Bool :=
  (chansOf c).all (fun n =>
    match s.siteOf n with
    | none => true
    | some k => s.siteMask.getLsbD k || decide (s.rd (Reg.flSiteFail + 16 * k) ≠ 0))

/-- A window monitor of the cluster has latched (WINMON): a pin's or a PMU's. -/
def State.winMon (s : State) (c : Nat) : Bool :=
  (chansOf c).any (fun n => decide (s.rdF (chOff n Reg.peWmon) 9 8 ≠ 0) || decide (s.rdF (chOff n Reg.pmuWmon) 9 8 ≠ 0))

/-- Barrier `b` that lane `c` has arrived at, also under a handler, and is not released from (R128, R143). -/
def State.atBarrier (s : State) (c b : Nat) : Bool :=
  let z := s.seq c
  (z.arrived == some b && !z.released) || z.stack.any (fun f => f.arrived == some b && !f.released)

end Sys2Proof.Machine
end

