-- ==== Sys2Proof/Machine/Sequencer.lean ====
section
/-! DEFINITION. The Molno sequencers (R116 to R148): one execution of the current microword, its class, and interrupts. -/

namespace Sys2Proof.Machine

/-! ### Fetch (R117 to R119, R151) -/

/-- The repair state of an SRAM macro that no march has touched. -/
def macroReset : Macro := { retired := [], used := [], badSpares := [] }

/-- The repair state of macro `m`. -/
def State.macro (s : State) (m : Nat) : Macro := Tbl.get (fun _ => macroReset) s.mem.macros m

/-- A control-store address lies in a retired row of sequencer `q` (R441, R450). -/
def State.rowRetired (s : State) (q a : Nat) : Bool := (s.macro (8 * q + a / 2048)).retired.contains (a % 2048 / 8)

/-- The address that a fetch of `a` reads: the TO of a hook, or `a` (R151). -/
def Seq.hooked (z : Seq) (a : Nat) : Nat :=
  match z.hooks.find? (fun h => h.2.1 == a) with
  | some h => h.2.2
  | none => a

/-- The word at a control-store address: the ROM's, or what the store holds, the trap word where nothing is placed. The ROM's
content is not in the spec (DESIGN CHOICE, log 16). -/
def Seq.wordAt (z : Seq) (a : Nat) : UWord :=
  if a < 0x2000 then Config.romWord a else Tbl.get (fun _ => trapWord) z.store a

/-- The word of a lane's plan runner at its place (R172): HALT or SEG to the successor after the last play, a CALL of a ROUTINE, or
the post of one granule. -/
def runnerWord (l : Lane) : UWord :=
  let g := l.cur
  if g.rept ≠ 0 ∧ l.place.plays = g.rept then
    if g.fin then uword [(23, 6)] else uword [(23, 8), (51, 0x1000)]
  else if g.kind = 1 then uword [(23, 2), (33, g.base % 16384)]
  else if g.kind = 2 then uword [(76, 4), (86, 1)]
  else uword [(76, 1), (86, 1)]

/-- The word of the master's plan runner (R170): a CALL of MASTER_ENTRY, then HALT. -/
def masterRunnerWord (z : Seq) (entry : Nat) : UWord :=
  if z.called then uword [(23, 6)] else uword [(23, 2), (33, entry)]

/-- The default master part (R162): LSTART of the plan, a WAIT on LANES_IDLE with the largest timeout, repeated, and HALT. -/
def defaultWord (number lanes i : Nat) (aligned : Bool) : UWord :=
  match i with
  | 0 => uword [(0, 1), (23, 0xC), (51, number + 0x400 * b2n aligned), (144, lanes)]
  | 1 => uword [(0, 1), (23, 5), (27, 0x17), (51, 0xFFFFFF), (144, lanes)]
  | _ => uword [(0, 1), (23, 6)]

/-- The address that SEQ_STATUS.PC reports and that a hook can name: the ROM runner and the default master part have none in the spec
(DESIGN CHOICE, log 16). -/
def Seq.pc (z : Seq) : Nat := match z.pos with | .word a => a | .runner => Config.runnerPc | .dflt i => Config.runnerPc + i

/-- What a handler latch holds (R142). -/
def Seq.latch (z : Seq) (line : Nat) : UWord := Tbl.get (fun _ => trapWord) z.latches line

/-- The word that sequencer `q` has at its place: its own microcode in the ROM runner and the default master part, else the word at
the address. -/
def State.placeWord (s : State) (q : Nat) : UWord :=
  let z := s.seq q
  match z.pos with
  | .word a => z.wordAt a
  | .runner => if q = 32 then masterRunnerWord z (s.plan.entry.getD 0) else runnerWord (s.lane q)
  | .dflt i => defaultWord s.plnNumber s.plan.lanes.toNat i s.plan.aligned

/-- The current microword of sequencer `q`: a handler's first word from its latch (R142); else the word of its place, or the word that a
hook on its address fetches instead (R151). -/
def State.curWord (s : State) (q : Nat) : UWord :=
  let z := s.seq q
  match z.latched with
  | some n => z.latch n
  | none => if z.hooked z.pc = z.pc then s.placeWord q else z.wordAt (z.hooked z.pc)

/-- CK_SEQ cycles of one execution: CL, or what the ROM runner takes (DESIGN CHOICE, log 16). -/
def State.execCycles (s : State) (q : Nat) (w : UWord) : Nat × State :=
  match (s.seq q).pos with
  | .runner => (Config.romCycles q s.freeCtr, { s with freeCtr := s.freeCtr + 1 })
  | _ => (w.cl, s)

/-- Adds cycles to SEQ_CYC. -/
def State.addCyc (s : State) (q n : Nat) : State := s.modSeq q (fun z => { z with cyc := z.cyc + BitVec.ofNat 64 n })

/-! ### Posting (R123, R124, R127, R137, R138, R172, R188) -/

/-- Slots of the issue queue that an execution needs. -/
def postRoom (w : UWord) : Nat :=
  match w.vop with
  | 1 => 64 * w.vcnt
  | 2 => w.vcnt
  | 3 => w.vcnt
  | 4 => 64 * w.vcnt
  | _ => 0

/-- The keep-alive vector of a lane's current segment (R163, R167). -/
def Lane.keepVec (l : Lane) (gap : Bool) : Vec :=
  { codes := l.cur.keepv, map := l.cur.map, tset := l.cur.tset, seg := l.place.seg, play := l.place.plays, gap := gap, gen := none }

/-- Appends vectors to the issue queue. -/
def Lane.pushVecs (l : Lane) (vs : List Vec) : Lane := { l with queue := l.queue ++ vs.map Item.vec }

/-- Every play of the current segment has been posted. -/
def Lane.exhausted (l : Lane) : Bool := l.cur.rept != 0 && l.place.plays == l.cur.rept

/-- Moves the place past one posted granule (R172). -/
def Lane.advance (l : Lane) : Lane :=
  let g := l.place.g + 1
  if g = l.cur.len then
    { l with place := { l.place with g := 0, plays := if l.cur.rept = 0 then min 0xFFFFFF (l.place.plays + 1) else l.place.plays + 1 } }
  else { l with place := { l.place with g := g } }

/-- Granules of pinned segments before segment `i` in the cache (R178). -/
def Lane.pinBase (l : Lane) (i : Nat) : Nat :=
  ((l.table.take i).map (fun g => if g.kind = 0 ∧ g.pin then g.len else 0)).sum

/-- The vectors of a granule's 64 words. -/
def Lane.granVecs (l : Lane) (ws : List W32) : List Vec := ws.map (fun c => { l.keepVec false with codes := c })

/-- The words of the granule that the place names, if the cache holds it: a pinned granule, or the front of the stream ring
(R178). -/
def Lane.resident (l : Lane) : Option (List W32) :=
  if l.cur.pin then l.pinned[l.pinBase l.place.seg + l.place.g]?
  else
    match l.ring with
    | r :: _ => if r.seg = l.place.seg ∧ r.g = l.place.g then some r.data else none
    | [] => none

/-- One granule of a STREAM post: 64 copies of the keep-alive vector where nothing is left to post, the granule where it is
resident, and where it is not, a refill miss: a keep-alive granule under HOLD, the end of the part under ABORT (R172, R188,
R191). The keep-alive granule of a miss counts toward the VCNT of a STREAM word, also in a routine, where R188 names the runner's post alone
(DESIGN CHOICE, log 93). A granule whose read is `lost` is a miss too, and is fetched again (R443, log 63). -/
def State.streamOne (s : State) (c : Nat) (lost : Option (Nat × Nat)) : State :=
  let l := s.lane c
  let miss := fun (t : State) =>
    if t.plan.abort then t.underrunAbort c else t.setLane c ((t.lane c).pushVecs (List.replicate 64 ((t.lane c).keepVec true)))
  if l.ended then s
  else if l.cur.kind ≠ 0 ∨ l.exhausted then s.setLane c (l.pushVecs (List.replicate 64 (l.keepVec false)))
  else
    match l.resident, lost with
    | some ws, none =>
      let l1 := if l.cur.pin then l else { l with ring := l.ring.tail }
      s.setLane c ((l1.pushVecs (l1.granVecs ws)).advance)
    | some _, some e =>
      let s1 := s.eccUncorr (264 + 8 * c + e.1) e.2
      if l.cur.pin then
        miss (s1.setLane c { l with pinned := l.pinned.set (l.pinBase l.place.seg + l.place.g) (s1.granule (l.cur.base + l.place.g)) })
      else
        match l.ring with
        | r :: t => miss (s1.setLane c { l with ring := { r with data := s1.granule r.addr } :: t })
        | [] => miss s1
    | none, _ => miss s

/-- Applies a post to a lane n times. -/
def State.times (f : State → State) : Nat → State → State
  | 0, s => s
  | n + 1, s => State.times f n (f s)

/-- Bit j of the posted address is bit SCR[j] of the logical one (R137). -/
def State.scramble (s : State) (lo x : Nat) : Nat :=
  ofBits ((List.range 16).filter (fun j => x.testBit (fieldOf (s.rd (lo + 4 * (j / 8))) (4 * (j % 8) + 3) (4 * (j % 8)))))

/-- The code that a role gives a channel (R137). -/
def roleCode (role x y z d : Nat) (read : Bool) : Nat :=
  let b := role % 32
  match role / 64 with
  | 0 => if read then role / 4 % 4 else role % 4
  | 1 => b2n (x.testBit b)
  | 2 => b2n (y.testBit b)
  | _ => if 16 ≤ b then b2n (z.testBit (b - 16)) else 2 * b2n read + b2n (d.testBit b)

/-- The role byte of local channel `k` of lane `c`, as the lane read it at its start. -/
def State.role (s : State) (c k : Nat) : Nat := (s.lane c).roles.toNat / 256 ^ k % 256

/-- A GEN post: VCNT vectors with one data word (R136 to R138). -/
def State.genPost (s : State) (c : Nat) (w : UWord) : State :=
  let z := s.seq c
  let g := z.gen
  let x := if w.ascr then s.scramble (cluOff c Reg.seqXscr0) g.x else g.x
  let y := if w.ascr then s.scramble (cluOff c Reg.seqYscr0) g.y else g.y
  let d := dataWord g x y w.dsrc w.dinv
  let codes := (List.range 16).foldl (fun a k => a + roleCode (s.role c k) x y g.z d w.dir * 4 ^ k) 0
  let l := s.lane c
  let v : Vec := { l.keepVec false with codes := BitVec.ofNat 32 codes, tset := w.tset, gen := some { x := g.x, y := g.y, z := g.z, d := d } }
  (s.setSeq c { z with gen := { g with d := d } }).setLane c (l.pushVecs (List.replicate w.vcnt v))

/-- The entry that a DDS segment names, if it is one and the entry is VALID (R364, R369). -/
def State.ddsEntry (s : State) (c : Nat) : Option Nat :=
  let g := (s.lane c).cur
  if g.kind = 2 ∧ (Tbl.get (fun _ => 0) (s.clu c).dds.entries g.base).getLsbD 63 then some g.base else none

/-- One token of a DDSGO post (R361, R364, R371). -/
def State.ddsOne (s : State) (c : Nat) : State :=
  let l := s.lane c
  if l.ended then s
  else
    let t : Token := { keep := l.keepVec false, named := if l.cur.kind = 2 then some l.cur.base else none, entry := s.ddsEntry c, play := l.place.plays, g := l.place.g,
                       enter := l.place.plays == 0 && l.place.g == 0 }
    let l1 := { l with queue := l.queue ++ [Item.token t] }
    let l2 := if l.cur.kind = 2 ∧ ¬ l.exhausted then l1.advance else l1
    let s1 := s.setLane c l2
    if l2.cur.kind = 2 ∧ l2.exhausted ∧ ¬ l.exhausted then s1.wrB (cluOff c Reg.ddsStatus) 24 true else s1

/-- A DDSGO execution: DDS_END is false from its post on, until the last token of the last play is posted (R361, R371). -/
def State.ddsGoPost (s : State) (c vcnt : Nat) : State :=
  if (s.lane c).ended then s else State.times (fun t => t.ddsOne c) vcnt (s.wrB (cluOff c Reg.ddsStatus) 24 false)

/-- The vector operation of one execution (R127). -/
def State.vopPost (s : State) (c : Nat) (w : UWord) (lost : Option (Nat × Nat)) : State :=
  match w.vop with
  | 1 => State.times (fun t => t.streamOne c none) (w.vcnt - 1) (s.streamOne c lost)
  | 2 => s.genPost c w
  | 3 => s.modLane c (fun l => l.pushVecs (List.replicate w.vcnt (l.keepVec false)))
  | 4 => s.ddsGoPost c w.vcnt
  | _ => s

/-- The markers of one execution, behind its vectors (R124). -/
def State.markers (s : State) (c : Nat) (w : UWord) : State :=
  if w.ldstb ∨ w.scrld ∨ w.srcsel ≠ 0 then
    s.modLane c (fun l => { l with queue := l.queue ++ [Item.marker w.ldstb w.scrld w.srcsel] })
  else s

/-! ### The cycles of an execution (R121) -/

/-- RTBL at the first cycle (R128, R139): one staged response-table entry. -/
def State.rtblWrite (s : State) (c : Nat) (w : UWord) : State :=
  if w.opc = 9 then
    s.setRespEntry (chOff (16 * c + w.imm % 16) Reg.tgScrStgLo) (w.imm / 16 % 16) (w.imm / 256 % 16)
  else s

/-- EVP (R139): the event source by EVSEL. -/
def State.evpPost (s : State) (q pc : Nat) (w : UWord) : State :=
  if w.evp then s.post (if q = 32 then 258 + w.evsel else evLane q 6 + w.evsel) 0x08 (BitVec.ofNat 128 pc) else s

/-- The timer operation TOP (R126, R132). -/
def timerOp (z : Seq) (top : Nat) : Seq :=
  match top with
  | 1 => { z with timer := z.tload, timerOn := true, tmr := false }
  | 2 => { z with timerOn := false }
  | _ => z

/-- First-cycle actions of an execution (R121). -/
def State.firstCycle (s : State) (q : Nat) (w : UWord) (lost : Option (Nat × Nat)) : State :=
  let pc := (s.seq q).pc
  let s0 := if q = 32 then s else (s.rtblWrite q w).vopPost q w lost
  let s1 := if q = 32 then s0 else s0.markers q w
  let s2 := s1.evpPost q pc w
  let s3 := if w.mark ∧ q ≠ 32 then s2.acqIn q (plainIn 5) else s2
  s3.modSeq q (fun z =>
    let z1 := if w.lcop = 1 then { z with lc := Tbl.set (fun _ => 0) z.lc w.lcsel w.imm } else z
    timerOp { z1 with flags := flagOp z1.flags w.fop w.fsel } w.top)

/-- The register that SETREG writes (R135). -/
def setReg (z : Seq) (imm : Nat) : Seq :=
  let v := imm % 65536
  let g := z.gen
  match imm / 2 ^ 20 with
  | 0 => { z with gen := { g with xbase := v } }
  | 1 => { z with gen := { g with xmax := v } }
  | 2 => { z with gen := { g with xstride := v } }
  | 3 => { z with gen := { g with ybase := v } }
  | 4 => { z with gen := { g with ymax := v } }
  | 5 => { z with gen := { g with ystride := v } }
  | 6 => { z with gen := { g with zbase := v % 16 } }
  | 7 => { z with gen := { g with zmax := v % 16 } }
  | 8 => { z with gen := { g with bg := v } }
  | 9 => { z with gen := { g with walk := v } }
  | 10 => { z with tload := imm % 2 ^ 20 }
  | _ => z

/-- LATCHCLR (R135): the fail latch of the lane, the shared-trigger latch. -/
def State.latchClr (s : State) (q imm : Nat) : State :=
  let s1 := if imm.testBit 0 ∧ q ≠ 32 then s.modLane q (fun l => { l with failLatch := false }) else s
  if imm.testBit 1 then { s1 with plan := { s1.plan with ext := false } } else s1

/-- Last-cycle actions of an execution (R121): address operations, DOP, LCOP decrement, SETREG. Where DOP and SETREG both write WALK, the
SETREG write stands (DESIGN CHOICE, log 91). -/
def State.lastCycle (s : State) (q : Nat) (w : UWord) : State :=
  let s1 := s.modSeq q (fun z =>
    let r := addrOps z.gen w
    let z1 := { z with gen := dataOp r.1 w.dop, xc := r.2.1, yc := r.2.2.1, zc := r.2.2.2 }
    let z2 := if w.lcop = 2 then { z1 with lc := Tbl.mod (fun _ => 0) z1.lc w.lcsel (· - 1) } else z1
    if w.opc = 7 then setReg z2 w.imm else z2)
  if w.opc = 7 ∧ w.imm / 2 ^ 20 = 0xB then s1.latchClr q w.imm else s1

/-! ### Conditions (R129, R130) -/

/-- A condition: address and loop conditions from the state `s` after the last cycle's updates, every other one from `e`, which is
how things stood at the start of the last cycle. -/
def State.cond (e s : State) (q : Nat) (w : UWord) : Bool :=
  let z := s.seq q
  let y := e.seq q
  let l := e.lane q
  let b :=
    match w.cond with
    | 0x00 => true
    | 0x01 => l.failLatch
    | 0x02 => l.matchV
    | 0x03 => e.sitesDone q
    | 0x04 => l.cur.kind != 1 && l.exhausted
    | 0x05 => z.xc
    | 0x06 => z.yc
    | 0x07 => z.zc
    | 0x08 => z.xc && z.yc
    | 0x09 => Tbl.get (fun _ => 0) z.lc 0 == 0
    | 0x0A => Tbl.get (fun _ => 0) z.lc 1 == 0
    | 0x0B => Tbl.get (fun _ => 0) z.lc 2 == 0
    | 0x0C => Tbl.get (fun _ => 0) z.lc 3 == 0
    | 0x0D => y.flags.getLsbD 0
    | 0x0E => y.flags.getLsbD 1
    | 0x0F => y.flags.getLsbD 2
    | 0x10 => y.flags.getLsbD 3
    | 0x11 => y.tmr
    | 0x12 => e.rdB (cluOff q Reg.acqStatus) 7
    | 0x13 => e.plan.ext
    | 0x14 => e.winMon q
    | 0x15 => e.rdB (cluOff q Reg.ddsStatus) 24
    | 0x16 => (lanesOf w.lanemask).all (fun c => e.atBarrier c w.barsel)
    | 0x17 => e.lanesIdle w.lanemask
    | _ => false
  b != w.cinv

/-! ### Places (R128, R131, R143) -/

/-- The next address after the current word; a runner stays in the runner. -/
def Seq.nextPos (z : Seq) : Pos :=
  match z.pos with
  | .word a => .word ((a + 1) % 16384)
  | .runner => .runner
  | .dflt i => .dflt (i + 1)

/-- TARGET; the default master part's timeout goes back to its WAIT (R162). -/
def Seq.targetPos (z : Seq) (w : UWord) : Pos :=
  match z.pos with
  | .dflt i => .dflt i
  | _ => .word w.target

/-- A sequencer at the start of its part: everything reset but its control store, hooks and handler latches (R132). -/
def Seq.fresh (z : Seq) : Seq := { seqReset with store := z.store, hooks := z.hooks, latches := z.latches }

/-- A handler latch takes a word (R142). -/
def Seq.loadLatch (z : Seq) (line : Nat) (w : UWord) : Seq := { z with latches := Tbl.set (fun _ => trapWord) z.latches line w }

/-- Goes to a word: none of its executions has run. -/
def Seq.goto (z : Seq) (p : Pos) : Seq := { z with pos := p, left := none, latched := none }

/-- The frame of the present place. -/
def Seq.frame (z : Seq) (line : Option Nat) (p : Pos) (left : Option Nat) : Frame :=
  { line := line, pos := p, left := left, waiting := z.waiting, waited := z.waited, arrived := z.arrived, released := z.released }

/-- The routine has returned to the runner: a granule boundary; its play counts unless it executed SEG (R165, R172). -/
def State.routineBack (s : State) (c : Nat) : State :=
  s.modLane c (fun l =>
    let l1 := if l.ranSeg then l
      else { l with place := { l.place with plays := if l.cur.rept = 0 then min 0xFFFFFF (l.place.plays + 1) else l.place.plays + 1 } }
    { l1 with ranSeg := false })

/-- A pending jump request is granted at this granule boundary (R177). -/
def State.atGranule (s : State) (c : Nat) : State := s.modLane c (fun l => { l with granted := l.jump.isSome })

/-- The segment `n` becomes current (R172). -/
def Lane.makeCurrent (l : Lane) (n : Nat) : Lane := { l with place := { seg := n, plays := 0, g := 0 } }

/-- The stream ring is discarded and the prediction restarts from the current segment (R179). -/
def Lane.discard (l : Lane) : Lane :=
  { l with ring := [], inflight := l.inflight.map (fun r => { r with dropped := true }), pred := some { seg := l.place.seg, plays := 0, g := 0 } }

/-! ### The Causeway's send queue (R409) -/

/-- A CWMSG finds room. -/
def State.sendRoom (s : State) : Bool := decide (s.cwy.sendQ.length < 16) && s.cwy.sendWait.isEmpty

/-- A message enters the send queue; one of the hardware's own waits for room (R39, R409; DESIGN CHOICE, log 101). -/
def State.sendMsgQ (s : State) (type payload : Nat) (ext : BitVec 64) : State :=
  let m : Send := { type := type, payload := payload, ext := ext, seq := none, up := false, dn := false }
  if s.sendRoom then { s with cwy := { s.cwy with sendQ := s.cwy.sendQ ++ [m] } }
  else { s with cwy := { s.cwy with sendWait := s.cwy.sendWait ++ [m] } }

/-! ### Classes (R128) -/

/-- The first LSTART of a run is the plan start: the sites' counts and first fails are cleared (R263, R264). -/
def State.planStart (s : State) : State :=
  if s.plan.started then s
  else
    let s1 := { s with plan := { s.plan with started := true, unrep := 0 } }
    (List.range 64).foldl (fun t k =>
      let t1 := ((t.wr (Reg.flSiteFail + 16 * k) 0).wr (Reg.flSiteIndet + 16 * k) 0).wrB (Reg.flSiteStatus + 16 * k) 1 false
      (List.range 8).foldl (fun u i => u.wr (Reg.flFirst + 32 * k + 4 * i) 0) t1) s1

/-- LSTART's first execution (R140, R414): a start of its lanes is due, or they are armed and the time master sends START. Whether a
lane is idle is judged when the start falls. -/
def State.lstart (s : State) (w : UWord) : State :=
  let s0 := s.planStart
  if w.imm.testBit 10 then
    let s1 : State := (lanesOf w.lanemask).foldl (fun t c => t.modLane c (fun l => { l with armed := true })) s0
    let s2 : State := s1.wrF Reg.plnState 19 17 2
    let role := s2.rdF Reg.clkStatus 3 2
    if role = 1 then s2.sendMsgQ 8 0 0
    else if role = 2 then s2
    else { s2 with plan := { s2.plan with startDue := s2.plan.startDue + 1 } }
  else
    (lanesOf w.lanemask).foldl (fun t c => t.modLane c (fun l => { l with due := l.due + 1 })) s0

/-- BREL (R128, R143): the lanes of the mask that have arrived are released, also under a handler. -/
def State.brel (s : State) (w : UWord) : State :=
  (lanesOf w.lanemask).foldl (fun t c => t.modSeq c (fun z =>
    let z1 := if z.arrived = some w.barsel then { z with released := true } else z
    { z1 with stack := z1.stack.map (fun f => if f.arrived = some w.barsel then { f with released := true } else f) })) s

/-- RET (R131, R143): the top frame is popped; a routine may have returned to the runner. -/
def State.retPop (s : State) (q : Nat) : State :=
  let z := s.seq q
  match z.stack with
  | [] => s.raiseFault q 0x04 z.pc
  | f :: t =>
    let z1 := { z with stack := t, pos := f.pos, left := f.left, latched := none, waiting := f.waiting, waited := f.waited, arrived := f.arrived,
                       released := f.released, st := if f.waiting then 3 else 1 }
    let s1 := s.setSeq q z1
    if f.line.isNone ∧ f.pos = .runner ∧ q ≠ 32 then (s1.routineBack q).atGranule q else s1

/-- CALL (R131): a call frame, or STACK_OVF in place of the push. A call of the runner begins a play: its routine has executed no SEG
yet (R165, R172). -/
def State.callPush (s : State) (q : Nat) (w : UWord) : State :=
  let z := s.seq q
  if 16 ≤ z.stack.length then s.raiseFault q 0x03 z.pc
  else
    let s1 := s.setSeq q ({ z with stack := z.frame none z.nextPos none :: z.stack, called := z.called || z.pos == Pos.runner }.goto (.word w.target))
    if z.pos = .runner ∧ q ≠ 32 then s1.modLane q (fun l => { l with ranSeg := false }) else s1

/-- The action of the class after the last execution; `e` is the state that the condition samples (R128). -/
def State.classAct (e s : State) (q : Nat) (w : UWord) : State :=
  let z := s.seq q
  let ok := State.cond e s q w
  let onward := s.setSeq q (z.goto z.nextPos)
  match w.opc with
  | 1 => if ok then s.setSeq q (z.goto (z.targetPos w)) else onward
  | 2 => if ok then s.callPush q w else onward
  | 3 => if ok then s.retPop q else onward
  | 4 =>
    let n := Tbl.get (fun _ => 0) z.lc w.lcsel - 1
    let z1 := { z with lc := Tbl.set (fun _ => 0) z.lc w.lcsel n }
    s.setSeq q (z1.goto (if n ≠ 0 then z.targetPos w else z.nextPos))
  | 5 => s.setSeq q { z with st := 3, waiting := true, waited := 0 }
  | 6 => s.anyEnd q
  | 8 =>
    let l := s.lane q
    let n := if w.imm.testBit 12 then l.cur.next else w.imm % 4096
    let l1 := l.makeCurrent n
    let l2 := if z.pos = .runner then l1 else { l1.discard with ranSeg := true }
    onward.setLane q l2
  | 10 => s.setSeq q { z with st := 3, waiting := true, waited := 0, arrived := some w.barsel, released := false }
  | 13 => onward.stopLanes w.lanemask
  | 14 => onward.brel w
  | _ => onward

/-! ### One execution (R120 to R123) -/

/-- The line of the innermost handler that runs, 5 where none does; the FAULT handler, which pushes no frame, is of line 0. -/
def Seq.handlerLine (z : Seq) : Nat := if z.inFault then 0 else ((z.stack.findSome? (fun f => f.line))).getD 5

/-- The line that is due for acceptance: the highest pending one, if no handler of equal or higher priority runs; FAULT always
(R144, R145). -/
def Seq.dueLine (z : Seq) : Option Nat :=
  match (List.range 5).find? (fun n => z.pend.getLsbD n) with
  | some n => if n = 0 ∨ n < z.handlerLine then some n else none
  | none => none

/-- A granted jump is due: no higher line is, and no handler of equal or higher priority runs (R141, R177). -/
def State.jumpDue (s : State) (c : Nat) : Bool :=
  let z := s.seq c
  (s.lane c).granted && decide (2 < z.handlerLine) && (match z.dueLine with | some n => decide (2 < n) | none => true)

/-- Sequencer `q` can run its next execution: it runs, and neither an interrupt nor a granted jump is due. -/
def State.canRun (s : State) (q : Nat) : Bool :=
  let z := s.seq q
  z.st == 1 && z.dueLine.isNone && !(decide (q < 32) && s.jumpDue q)

/-- Executions of a word (R120). -/
def Seq.executions (z : Seq) (w : UWord) : Nat :=
  (if w.rsrc then Tbl.get (fun _ => 0) z.lc w.lcsel else w.repeat_) + 1

/-- The next execution begins with a fetch from the control store: it is the first of its word, and no handler latch holds the word
(R142). -/
def Seq.fetches (z : Seq) : Bool := z.left.isNone && z.latched.isNone

/-- What the fetch of a word finds (R119, R146): a fault in place of the word. -/
def State.fetchFault (s : State) (q : Nat) (ecc : Ecc) : Option Nat :=
  let z := s.seq q
  if z.fetches then (if s.rowRetired q (z.hooked z.pc) then some 0x05 else if ecc = .double then some 0x01 else none)
  else none

/-- The march engine has borrowed a window of the control-store macro that the fetch reads (R447, R448). -/
def State.windowLent (s : State) (q : Nat) : Bool :=
  let m := 8 * q + (s.seq q).hooked (s.seq q).pc / 2048
  (match s.mem.march with | some r => r.preserving && r.left.contains m | none => false) || s.mem.held.any (fun h => h.1 == m)

/-- The fetch of the next word is delayed, and the sequencer is held for it (R122, R448). -/
def State.fetchDelayed (s : State) (q : Nat) (ecc : Ecc) : Bool := ecc == .delayed && (s.seq q).fetches && s.windowLent q

/-- A single-bit error corrected at the fetch (R119, R442). -/
def State.eccCorrect (s : State) (q : Nat) (ecc : Ecc) : State :=
  match ecc with
  | .single =>
    if (s.seq q).fetches then ((s.raise (seqOff q Reg.seqFlags) 2).countF (seqOff q Reg.seqEccCnt) 15 0 1).eccCorrected else s
  | .cacheSingle => s.eccCorrected
  | .tableSingle => s.eccCorrected
  | _ => s

/-- An uncorrectable fetch (R119, R442, R443): MEM_ECC besides the fault. -/
def State.eccLost (s : State) (q : Nat) : State :=
  let a := (s.seq q).hooked (s.seq q).pc
  s.eccUncorr (8 * q + a / 2048) (a % 2048 / 8)

/-- The sequencer is held at the boundary (R123, R409). -/
def State.hold (s : State) (q : Nat) (why : HoldWhy) : State := s.modSeq q (fun z => { z with st := 2, holdWhy := why })

/-- The execution itself: first cycle, last cycle, and after the last execution the class (R120, R121, R130). An LSTART acts, and a CWMSG
sends its message, at the first cycle of the first execution (R140, R409). -/
def State.execute (s : State) (q : Nat) (w : UWord) (lost : Option (Nat × Nat)) : State :=
  let z := s.seq q
  let n := z.left.getD (z.executions w)
  let first := z.left.isNone
  let atRunner := z.pos == .runner
  let r := s.execCycles q w
  let s0 := r.2.addCyc q r.1
  let s1 := s0.firstCycle q w lost
  let s2 := if first ∧ w.opc = 0xC then s1.lstart w else s1
  let s3 := if first ∧ w.opc = 0xF then s2.sendMsgQ (w.imm / 2 ^ 20) (w.imm % 2 ^ 20) 0 else s2
  let env := if w.cl = 1 then s0 else s3
  let s4 := s3.lastCycle q w
  let s5 := if q < 32 ∧ (s4.lane q).ended then s4
    else if 1 < n then s4.modSeq q (fun y => { y with left := some (n - 1) })
    else State.classAct env s4 q w
  if q < 32 ∧ atRunner ∧ (w.vop = 1 ∨ w.vop = 4) ∧ ¬ (s5.lane q).ended then s5.atGranule q else s5

/-- One execution of the current microword of sequencer `q`, if it is of class `opc`, with what its fetch finds. A word that would
post more than the queue has room for, that would send with the send queue full, or whose fetch is delayed, holds the sequencer instead. -/
def State.run1 (s : State) (q opc : Nat) (ecc : Ecc) : State :=
  let w := s.curWord q
  if ¬ s.canRun q ∨ w.opc ≠ opc then s
  else
    match s.fetchFault q ecc with
    | some code => (if code = 1 then s.eccLost q else s).raiseFault q code (s.seq q).pc
    | none =>
      let s0 := s.eccCorrect q ecc
      if opc = 0xB then s0.raiseFault q 0x02 (s.seq q).pc
      else if s0.fetchDelayed q ecc then s0.hold q .fetch
      else if q < 32 ∧ 1024 < (s0.lane q).fill + postRoom w then s0.hold q .room
      else if opc = 0xF ∧ (s0.seq q).left = none ∧ ¬ s0.sendRoom then s0.hold q .send
      else
        match ecc with
        | .tableDouble r => s0.tablesLost q r.val
        | .cacheDouble p r => s0.execute q w (some (p.val, r.val))
        | _ => s0.execute q w none

/-! ### Waits, holds and the timer (R122, R123, R130, R132) -/

/-- The wait ends and the word goes to next. -/
def Seq.endWait (z : Seq) (p : Pos) : Seq :=
  { z with st := 1, waiting := false, waited := 0, arrived := none, released := false }.goto p

/-- WAIT_CONDITION_MET: the condition of a WAIT holds, or a SYNC has been released. `cycles` is what the wait has taken in all. -/
def State.condMet (s : State) (q cycles : Nat) : State :=
  let z := s.seq q
  let w := s.curWord q
  if z.st = 3 ∧ z.waiting ∧ (if w.opc = 0xA then z.released else State.cond s s q w) then
    (s.setSeq q (z.endWait z.nextPos)).addCyc q (cycles - z.waited)
  else s

/-- WAIT_TIMEOUT: IMM cycles have passed without the condition or a release (R130). -/
def State.waitTimeout (s : State) (q : Nat) : State :=
  let z := s.seq q
  let w := s.curWord q
  if z.st = 3 ∧ z.waiting ∧ ¬ (if w.opc = 0xA then z.released else State.cond s s q w) then
    let s1 := (s.setSeq q (z.endWait (z.targetPos w))).addCyc q (w.imm - z.waited)
    (s1.raise (seqOff q Reg.seqFlags) 0).post (if q = 32 then 257 else evLane q 5) 0x07 (BitVec.ofNat 128 z.pc)
  else s

/-- TIMER_EXPIRE: the running timer has counted down to 0 (R132). -/
def State.timerExpire (s : State) (q : Nat) : State :=
  let z := s.seq q
  if z.timerOn then s.setSeq q { z with timer := 0, timerOn := false, tmr := true } else s

/-- HOLD_RELEASE: the reason of the hold is gone and the sequencer resumes after `cycles` of it. -/
def State.holdRelease (s : State) (q cycles : Nat) : State :=
  let z := s.seq q
  let ok : Bool := match z.holdWhy with
    | .room => decide ((s.lane q).fill + postRoom (s.curWord q) ≤ 1024)
    | .send => s.sendRoom
    | .fetch => true
    | .none => true
    | .ended => false
  if z.st = 2 ∧ ok then (s.setSeq q { z with st := 1, holdWhy := .none }).addCyc q cycles else s

/-! ### Interrupts (R141 to R146) -/

/-- The ROM FAULT handler (R146): it ends the part and reports the fault; the plan ends FAULTED in every lane. -/
def State.faultHandler (s : State) (q : Nat) : State :=
  let z := s.seq q
  let f := z.fault.getD (0, 0)
  let s1 := (s.raise (seqOff q Reg.seqFlags) 1).post (if q = 32 then 256 else evLane q 4) 0x06 (evData [(0, f.1), (16, f.2)])
  let s2 := s1.anyEnd q
  let s3 : State := { s2 with plan := { s2.plan with faulted := true } }
  s3.planStop.masterEnd

/-- The ROM STOP handler (R141, R173, R174): a lane ends its part; the master ends the plan in every lane. -/
def State.stopHandler (s : State) (q : Nat) : State :=
  if q = 32 then
    ({ s with plan := { s.plan with stopped := true } } : State).planStop.masterEnd
  else s.partEnd q

/-- Accepts line `n` with a frame and goes to a handler address, whose first word its latch holds (R142, R143). -/
def State.enterHandler (s : State) (q n a : Nat) : State :=
  let z := s.seq q
  let z1 := { z with stack := z.frame (some n) z.pos z.left :: z.stack, st := 1, holdWhy := .none, waiting := false, waited := 0,
                     arrived := none, released := false }
  s.setSeq q { z1.goto (.word a) with latched := some n }

/-- The address that a handler's ROM address is hooked to, if it is (R151). -/
def Seq.hookOf (z : Seq) (a : Nat) : Option Nat := if z.hooked a = a then none else some (z.hooked a)

/-- The cycles of the boundary before an acceptance (R122, R142, R143): `cycles` is what the hold has taken, or what the WAIT or SYNC has
counted toward its timeout in all. SEQ_CYC counts them, and a wait keeps its count. -/
def State.pause (s : State) (q cycles : Nat) : State :=
  let z := s.seq q
  if z.waiting then (s.setSeq q { z with waited := max z.waited cycles }).addCyc q (cycles - z.waited)
  else if z.st = 2 then s.addCyc q cycles
  else s

/-- Sequencer `q` can accept a request: it stands at a boundary, held, or in a wait, and a line is due (R142, R145). -/
def State.canAccept (s : State) (q : Nat) : Bool :=
  let z := s.seq q
  (z.st == 1 || z.st == 2 || z.st == 3) && z.holdWhy != .ended &&
    (match z.dueLine with | some n => !(decide (q < 32 ∧ 2 < n) && s.jumpDue q) | none => false)

/-- The acceptance of the highest line due (R131, R142, R143, R146). -/
def State.acceptDue (s : State) (q : Nat) : State :=
  let z := s.seq q
  match z.dueLine with
  | none => s
  | some 0 =>
    let s1 := (s.setSeq q { z with pend := z.pend &&& 0x1E, waiting := false }).addCyc q 3
    match z.hookOf 0x10 with
    | some a =>
      s1.modSeq q (fun y => { y.goto (.word a) with st := 1, holdWhy := .none, inFault := true, latched := some 0, waited := 0, arrived := none,
                                                    released := false })
    | none => s1.faultHandler q
  | some n =>
    if 16 ≤ z.stack.length then s.raiseFault q 0x03 z.pc
    else
      let s1 := (s.setSeq q { z with pend := z.pend &&& ~~~ BitVec.ofNat 5 (2 ^ n) }).addCyc q 3
      let v := s.rd (seqOff q Reg.seqIvec)
      match n with
      | 1 =>
        let s2 := if q = 32 then s1 else s1.modLane q (fun l => { l with jump := none, granted := false })
        match z.hookOf 0x20 with
        | some a => s2.enterHandler q 1 a
        | none => s2.stopHandler q
      | 3 => s1.enterHandler q 3 (fieldOf v 13 0)
      | _ => s1.enterHandler q 4 (fieldOf v 29 16)

/-- INTERRUPT_ACCEPT (R142 to R146): the highest line due is accepted at a boundary, or while the sequencer is held or waits. -/
def State.accept (s : State) (q cycles : Nat) : State := if s.canAccept q then (s.pause q cycles).acceptDue q else s

/-- The effect of a granted jump (R177): the target becomes current with its first granule whole, the stream ring is discarded, and the
runner goes on there; or a hooked handler takes it (R151). -/
def State.jumpTake (s : State) (c n : Nat) : State :=
  let l := s.lane c
  let z := s.seq c
  if 16 ≤ z.stack.length then s.raiseFault c 0x03 z.pc
  else
    let s1 := (s.countF (cluOff c Reg.plnJumpCnt) 31 16 1).addCyc c 3
    match z.hookOf 0x30 with
    | some a => (s1.enterHandler c 2 a).modLane c (fun k => { k with granted := false, jump := none })
    | none => s1.setLane c { (l.makeCurrent n).discard with jump := none, granted := false, ranSeg := false }

/-- JUMP_GRANT (R177); `cycles` as in `State.pause`. -/
def State.jumpGrant (s : State) (c cycles : Nat) : State :=
  let z := s.seq c
  match (s.lane c).jump with
  | some n =>
    if (z.st = 1 ∨ z.st = 2 ∨ z.st = 3) ∧ z.holdWhy ≠ .ended ∧ s.jumpDue c then (s.pause c cycles).jumpTake c n else s
  | none => s

/-! ### Meanings -/

/-- NEXT (R128). -/
def execNext (q : SeqId) (ecc : Ecc) (s : State) : Out := .next (s.run1 q.val 0x0 ecc)

/-- JUMP microword (R128). -/
def execOpcJump (q : SeqId) (ecc : Ecc) (s : State) : Out := .next (s.run1 q.val 0x1 ecc)

/-- CALL (R128, R131). -/
def execCall (q : SeqId) (ecc : Ecc) (s : State) : Out := .next (s.run1 q.val 0x2 ecc)

/-- RET (R128, R143). -/
def execRet (q : SeqId) (ecc : Ecc) (s : State) : Out := .next (s.run1 q.val 0x3 ecc)

/-- LOOP (R128). -/
def execLoop (q : SeqId) (ecc : Ecc) (s : State) : Out := .next (s.run1 q.val 0x4 ecc)

/-- WAIT (R128, R130). -/
def execWait (q : SeqId) (ecc : Ecc) (s : State) : Out := .next (s.run1 q.val 0x5 ecc)

/-- WAIT_CONDITION_MET (R130). -/
def execWaitConditionMet (q : SeqId) (cycles : Nat) (s : State) : Out := .next (s.condMet q.val cycles)

/-- WAIT_TIMEOUT (R130). -/
def execWaitTimeout (q : SeqId) (s : State) : Out := .next (s.waitTimeout q.val)

/-- HALT (R128). -/
def execHalt (q : SeqId) (ecc : Ecc) (s : State) : Out := .next (s.run1 q.val 0x6 ecc)

/-- SETREG (R128, R135). -/
def execSetreg (q : SeqId) (ecc : Ecc) (s : State) : Out := .next (s.run1 q.val 0x7 ecc)

/-- SEG (R128, R172). -/
def execSeg (q : SeqId) (ecc : Ecc) (s : State) : Out := .next (s.run1 q.val 0x8 ecc)

/-- RTBL (R128, R139). -/
def execRtbl (q : SeqId) (ecc : Ecc) (s : State) : Out := .next (s.run1 q.val 0x9 ecc)

/-- SYNC (R128, R130). -/
def execSync (q : SeqId) (ecc : Ecc) (s : State) : Out := .next (s.run1 q.val 0xA ecc)

/-- TRAP (R128, R146). -/
def execTrap (q : SeqId) (ecc : Ecc) (s : State) : Out := .next (s.run1 q.val 0xB ecc)

/-- LSTART (R128, R140). -/
def execLstart (q : SeqId) (ecc : Ecc) (s : State) : Out := .next (s.run1 q.val 0xC ecc)

/-- LSTOP (R128). -/
def execLstop (q : SeqId) (ecc : Ecc) (s : State) : Out := .next (s.run1 q.val 0xD ecc)

/-- BREL (R128). -/
def execBrel (q : SeqId) (ecc : Ecc) (s : State) : Out := .next (s.run1 q.val 0xE ecc)

/-- CWMSG (R128, R409). -/
def execCwmsg (q : SeqId) (ecc : Ecc) (s : State) : Out := .next (s.run1 q.val 0xF ecc)

/-- TIMER_EXPIRE (R132). -/
def execTimerExpire (q : SeqId) (s : State) : Out := .next (s.timerExpire q.val)

/-- HOLD_RELEASE (R123). -/
def execHoldRelease (q : SeqId) (cycles : Nat) (s : State) : Out := .next (s.holdRelease q.val cycles)

/-- INTERRUPT_ACCEPT (R142). -/
def execInterruptAccept (p : SeqPause) (s : State) : Out := .next (s.accept p.q.val p.cycles)

/-- JUMP_GRANT (R177). -/
def execJumpGrant (p : LanePause) (s : State) : Out := .next (s.jumpGrant p.c.val p.cycles)

end Sys2Proof.Machine
end

