-- ==== Sys2Proof/Machine/Memories.lean ====
section
/-! DEFINITION. The on-die memories (R441 to R453): withdrawn units, the march engine, spares and retirement, and retention. -/

namespace Sys2Proof.Machine

/-! ### Background commands (R434) -/

/-- Accepts a background command. -/
def State.bgStart (s : State) (c : Cmd) : State :=
  { s with hst := { s.hst with bg := s.hst.bg ++ [{ cmd := c, posted := 0 }] } }

/-- Completes every background command of one opcode. -/
def State.bgEnd (s : State) (op st detail : Nat) : State :=
  let l := s.hst.bg.filter (fun b => b.cmd.opcode == op)
  let s1 := { s with hst := { s.hst with bg := s.hst.bg.filter (fun b => b.cmd.opcode != op) } }
  l.foldl (fun t b => t.complete b.cmd st detail 0) s1

/-! ### What holds the module's resources -/

/-- A plan is running or loading (R192). -/
def State.planBusy (s : State) : Bool := s.plnState != 0

/-- A calibration runs: its steps or its store (R465, R473). -/
def State.calBusy (s : State) : Bool := s.cal.run.isSome

/-- A destructive host march runs. -/
def State.marchDestructive (s : State) : Bool := match s.mem.march with | some m => !m.preserving | none => false

/-! ### Withdrawn units (R441, R450, R451) -/

/-- Rows of a macro. -/
def macroRows (m : Nat) : Nat := if m < 264 then 256 else 512

/-- The units that a retired row withdraws: class, number in the class, bytes. -/
def unitsOf (m r : Nat) : List (Nat × Nat × Nat) :=
  if m < 264 then [(0, 256 * m + r, 192)]
  else if m < 520 then [(1, 256 * (m - 264) + r / 2, 256)]
  else if m < 1032 then [(2, 512 * m + r, 128)]
  else if m < 1041 then
    let b := (m - 1032) * 65536 + r * 128
    [(3, b / 288, 288), (3, (b + 127) / 288, 288)]
  else if m < 1057 then [(4, 512 * (m - 1041) + r, 128)]
  else [(5, m, 65536)]

/-- Every withdrawn unit, once. -/
def State.units (s : State) : List (Nat × Nat × Nat) :=
  (s.mem.macros.flatMap (fun e => e.2.retired.flatMap (unitsOf e.1))).eraseDups

/-- Some row of macro `m` is retired. -/
def State.anyRetired (s : State) (m : Nat) : Bool := !(s.macro m).retired.isEmpty

/-- Sequencer `q` is out of service (R450): a retired row in its ROM or patch area, or in its queue-and-table macro. -/
def State.outOfService (s : State) (q : Nat) : Bool :=
  (List.range 5).any (fun p => s.anyRetired (8 * q + p)) || s.anyRetired (if q = 32 then 1089 else 1057 + q)

/-- SEQ_STATUS.DEGRADED: control-store rows of `q` are retired. -/
def State.degraded (s : State) (q : Nat) : Bool := (List.range 8).any (fun p => s.anyRetired (8 * q + p))

/-- Withdrawn granules of the vector cache of cluster `c`, by number in the cache. -/
def State.lostGranules (s : State) (c : Nat) : List Nat :=
  ((List.range 8).flatMap (fun p => (s.macro (264 + 8 * c + p)).retired.map (fun r => 256 * p + r / 2))).eraseDups

/-- Timing set `t` of cluster `c` is withdrawn. -/
def State.setLost (s : State) (c t : Nat) : Bool := s.units.any (fun u => u.1 == 3 && u.2.1 == 64 * c + t)

/-- Site `k` has a retired row in the fail counter memory. -/
def State.siteLost (s : State) (k : Nat) : Bool := s.units.any (fun u => u.1 == 4 && u.2.1 / 128 == k)

/-- Record slots of cluster `c`'s capture SRAM that are still usable (R450). -/
def State.captureSlots (s : State) (c : Nat) : Nat :=
  65536 - 8 * ((List.range 16).map (fun p => (s.macro (520 + 16 * c + p)).retired.length)).sum

/-- MEM_REPAIR.RETIRED, MEM_LOSS, MEM_OOS and MEM_STATUS.DEGRADED after a retirement. -/
def State.memUpdate (s : State) : State :=
  let n := (s.mem.macros.map (fun e => e.2.retired.length)).sum
  let oos := ofBits ((List.range 32).filter s.outOfService)
  ((((s.wrF Reg.memRepair 31 16 n).wr Reg.memLoss (BitVec.ofNat 32 (s.units.map (fun u => u.2.2)).sum)).wr Reg.memOos
    (BitVec.ofNat 32 oos)).wrB Reg.memOosDev 0 (s.outOfService 32)).wrB Reg.memStatus 31 (decide (n ≠ 0))

/-! ### Spares and retirement (R449) -/

/-- The first free spare that has not failed. -/
def Macro.freeSpare (m : Macro) : Option Nat :=
  (List.range 8).find? (fun i => !m.badSpares.contains i && !m.used.any (fun u => u.1 == i))

/-- What one march finds in a macro: its state, the spares it assigned, and the rows that found no spare. -/
structure Found where
  mac     : Macro
  spared  : Nat
  noSpare : List Nat
  deriving DecidableEq, Repr

/-- A failing row takes a free spare, or finds none. -/
def Found.row (f : Found) (r : Nat) : Found :=
  match f.mac.freeSpare with
  | some i => { f with mac := { f.mac with used := f.mac.used ++ [(i, r)] }, spared := f.spared + 1 }
  | none => { f with noSpare := f.noSpare ++ [r] }

/-- The outcome of a march of one macro: failing spares are withdrawn, and their rows and the failing rows take free spares in
ascending row order. A row that a spare replaces, or that is retired or held, is not marched itself. -/
def Macro.march (m : Macro) (n : Nat) (rows spares held : List Nat) : Found :=
  let bad := spares.filter (· < 8)
  let moved := (m.used.filter (fun u => bad.contains u.1)).map (fun u => u.2)
  let m1 : Macro := { m with badSpares := bad.foldl (fun l i => insertNat i l) m.badSpares,
                             used := m.used.filter (fun u => !bad.contains u.1) }
  let new := rows.filter (fun r => decide (r < n) && !m.used.any (fun u => u.2 == r) && !m.retired.contains r && !held.contains r)
  let todo := (moved ++ new).foldl (fun l r => insertNat r l) []
  todo.foldl Found.row { mac := m1, spared := 0, noSpare := [] }

/-- Stores the repair state of a macro. -/
def State.setMacro (s : State) (m : Nat) (v : Macro) : State :=
  { s with mem := { s.mem with macros := Tbl.set (fun _ => macroReset) s.mem.macros m v } }

/-- A row is retired: MEM_RETIRE is posted and its flag set (R451). -/
def State.retireRow (s : State) (m r : Nat) : State :=
  let v := s.macro m
  let s1 := s.setMacro m { v with retired := v.retired ++ [r] }
  (s1.raise Reg.memFlags 1).post 289 0x29 (evData [(0, m), (16, r)])

/-- Does the running plan use macro `m` (DEDUCED, log 31)? -/
def State.planUses (s : State) (m : Nat) : Bool :=
  let lane := fun c => s.plan.lanes.getLsbD c
  s.planBusy &&
    (if m < 264 then m / 8 == 32 || lane (m / 8)
     else if m < 520 then lane ((m - 264) / 8)
     else if m < 1032 then lane ((m - 520) / 16)
     else if m < 1041 then
       (List.range 32).any (fun c => lane c && decide ((m - 1032) * 65536 < (c + 1) * 18432 ∧ c * 18432 < (m - 1031) * 65536))
     else if m < 1057 then true
     else m == 1089 || lane (m - 1057))

/-- The rows of macro `m` held with their windows. -/
def State.heldRows (s : State) (m : Nat) : List Nat := (s.mem.held.filter (fun h => h.1 == m)).map (fun h => h.2)

/-- One macro has been marched: its failing rows take spares, and the others are retired, or held while a plan uses the macro
(R449). -/
def State.marchMacro (s : State) (f : MacroFails) (preserving : Bool) : State :=
  let o := (s.macro f.macroNo).march (macroRows f.macroNo) f.rows f.spares (s.heldRows f.macroNo)
  let s1 := (s.setMacro f.macroNo o.mac).countF Reg.memRepair 15 0 o.spared
  if preserving ∧ s.planUses f.macroNo then
    o.noSpare.foldl (fun t r => ({ t with mem := { t.mem with held := t.mem.held ++ [(f.macroNo, r)] } } : State).raise Reg.memFlags 2) s1
  else (o.noSpare.foldl (fun t r => t.retireRow f.macroNo r) s1).memUpdate

/-! ### Host marches (R445 to R451) -/

/-- The macros that a MARCH command names (R445), in ascending order. -/
def marchMacros (arg : Nat) : List Nat :=
  let cls := fun b => arg.testBit b
  let dev := arg.testBit 1
  let first := arg / 2 ^ 8 % 32
  let last := arg / 2 ^ 13 % 32
  let inClu := fun c => decide (first ≤ c ∧ c ≤ last)
  (List.range 1090).filter (fun m =>
    if m < 256 then cls 2 && inClu (m / 8)
    else if m < 264 then cls 2 && dev
    else if m < 520 then cls 3 && inClu ((m - 264) / 8)
    else if m < 1032 then cls 4 && inClu ((m - 520) / 16)
    else if m < 1041 then cls 5 && dev
    else if m < 1057 then cls 6 && dev
    else if m < 1089 then cls 7 && inClu (m - 1057)
    else cls 7 && dev)

/-- The fields of a MARCH command that R446 refuses: CLASSES 0, LAST below FIRST, a destructive march of control stores. -/
def marchBad (arg : Nat) : Bool :=
  decide (arg / 4 % 64 = 0) || decide (arg / 2 ^ 13 % 32 < arg / 2 ^ 8 % 32) || (!arg.testBit 0 && arg.testBit 2)

/-- A destructive march leaves every word of the macro 0 (DESIGN CHOICE, log 32 says which contents nothing reads). -/
def State.zeroMacro (s : State) (m : Nat) : State :=
  if 520 ≤ m ∧ m < 1032 then
    s.modAcq ((m - 520) / 16) (fun a => { a with pre := a.pre.map (fun x => (x.1, 0)), spillQ := a.spillQ.map (fun x => (x.1, 0)) })
  else if 1032 ≤ m ∧ m < 1041 then
    let b := (m - 1032) * 65536
    { s with mem := { s.mem with timing := s.mem.timing.filter (fun e => decide (e.1 < b ∨ b + 65536 ≤ e.1)) } }
  else if 1041 ≤ m ∧ m < 1057 then
    let b := (m - 1041) * 65536
    { s with mem := { s.mem with failCnt := s.mem.failCnt.filter (fun e => decide (e.1 < b ∨ b + 65536 ≤ e.1)) } }
  else if 1057 ≤ m ∧ m < 1089 then
    let c := m - 1057
    let s1 := (chansOf c).foldl (fun t n =>
      (((t.wr (chOff n Reg.tgScrActLo) 0).wr (chOff n Reg.tgScrActHi) 0).wr (chOff n Reg.tgScrStgLo) 0).wr (chOff n Reg.tgScrStgHi) 0) s
    ((s1.wr (cluOff c Reg.plnSluice) 0).wr (cluOff c Reg.plnSluicePos) 0).modLane c (fun l => { l with slBlocks := 0, slIn := 0, creditDue := 0 })
  else s

/-- The clusters that a MARCH command names. -/
def marchClusters (arg : Nat) : List Nat :=
  (List.range 32).filter (fun c => decide (arg / 2 ^ 8 % 32 ≤ c ∧ c ≤ arg / 2 ^ 13 % 32))

/-- Every line of channel `n` is ACQUIRING, with the uniform table, from an ungating of its edge domain (R309). -/
def State.lineAcquire (s : State) (n : Nat) : State :=
  (List.range 6).foldl (fun t j => (t.uniform n j).wrF (chOff n Reg.tiaLine) (2 * j + 1) (2 * j) 1) s

/-- A cluster wakes from retention (R453). -/
def State.wake (s : State) (c : Nat) : State :=
  if s.rdB Reg.memRetState c then
    (chansOf c).foldl State.lineAcquire ((s.wrB Reg.memRetState c false).count Reg.memRetWakes 1)
  else s

/-- The march has ended: every macro is marched and no window is held (R447, R451; DEDUCED, log 33). -/
def State.marchEnd (s : State) : State :=
  match s.mem.march with
  | some m =>
    if m.left = [] ∧ s.mem.held = [] then
      let o := if m.anyRetired then 2 else if m.anySpared then 1 else 0
      let s1 : State := { s with mem := { s.mem with march := none } }
      let s2 := (s1.wrF Reg.memStatus 2 0 0).wrF Reg.memStatus 23 16 o
      let s3 := s2.post 288 0x28 (evData [(0, o), (32, s2.rdF Reg.memMarchProg 26 16)])
      s3.bgEnd 0x0B St.ok o
    else s
  | none => s

/-- MARCH (R445, R446). -/
def State.cmdMarch (s : State) : State :=
  s.runCmd 0x0B (fun c t =>
    let pres := c.arg0.testBit 0
    if marchBad c.arg0 then t.complete c St.badField 0 0
    else if t.mem.march.isSome ∨ (¬ pres ∧ (t.planBusy ∨ t.sounding ∨ t.calBusy)) then t.complete c St.busy 0 0
    else
      let l := marchMacros c.arg0
      let t1 := ((marchClusters c.arg0).foldl State.wake t).bgStart c
      let t2 : State := { t1 with mem := { t1.mem with march := some { preserving := pres, left := l, anySpared := false, anyRetired := false } } }
      let t3 := (t2.wrF Reg.memStatus 2 0 (if pres then 3 else 2)).wr Reg.memMarchProg (pack [(16, l.length)])
      t3.marchEnd)

/-- What the ECC finds as a preserving march copies out row `r` of macro `m` of the timing-set memory, which nothing else reads: an
uncorrectable word has no effect on placement (R442, R443; DEDUCED, log 105). -/
def State.timingCopy (s : State) (m : Nat) (read : SramRead) (r : Nat) : State :=
  if 1032 ≤ m ∧ m < 1041 then
    match read with
    | .clean => s
    | .corrected => s.eccCorrected
    | .lost => s.eccUncorr m r
  else s

/-- MARCH_WINDOW: the march of one macro ends with the rows and spares that failed (R447, R449); `read` is what the ECC found at the copy of
`row` (R442). -/
def State.marchWindow (s : State) (f : MacroFails) (read : SramRead) (row : Nat) : State :=
  match s.mem.march with
  | some m =>
    if m.left.contains f.macroNo then
      let s0 := if m.preserving then s.timingCopy f.macroNo read row else s.zeroMacro f.macroNo
      let before := s0.macro f.macroNo
      let s1 := s0.marchMacro f m.preserving
      let after := s1.macro f.macroNo
      let m1 : March := { m with left := m.left.filter (· ≠ f.macroNo),
                                 anySpared := m.anySpared || after.used.any (fun u => !before.used.contains u),
                                 anyRetired := m.anyRetired || after.retired.length != before.retired.length }
      let s2 : State := { s1 with mem := { s1.mem with march := some m1 } }
      (s2.countF Reg.memMarchProg 10 0 1).marchEnd
    else s
  | none => s

/-- HELD_RETIRE: the plan has become idle, and the rows of the held windows are retired (R449). -/
def State.heldRetire (s : State) : State :=
  if s.planBusy ∨ s.mem.held = [] then s
  else
    let l := s.mem.held
    let s1 : State := { s with mem := { s.mem with held := [] } }
    let s2 := (l.foldl (fun t h => t.retireRow h.1 h.2) s1).memUpdate
    let s3 := match s2.mem.march with
      | some m => { s2 with mem := { s2.mem with march := some { m with anyRetired := true } } }
      | none => s2
    s3.marchEnd

/-- BOOT_MARCH (R102, R445, R449): every assignment is made afresh. -/
def State.bootMarch (s : State) (fails : List MacroFails) : State :=
  if s.boot.stage = .booting ∧ ¬ s.boot.marched then
    let s1 : State := { s with mem := { s.mem with macros := [], held := [], march := none, failCnt := [], timing := [] },
                               boot := { s.boot with marched := true } }
    let s2 := s1.wr Reg.memRepair 0
    let s3 := (fails.foldl (fun t f => t.marchMacro f false) s2).memUpdate
    let o := if s3.rdF Reg.memRepair 31 16 ≠ 0 then 2 else if s3.rdF Reg.memRepair 15 0 ≠ 0 then 1 else 0
    let s4 := (s3.wrF Reg.memStatus 23 16 o).wr Reg.memMarchProg (pack [(0, 1090), (16, 1090)])
    s4.post 288 0x28 (evData [(0, o), (32, 1090)])
  else s

/-! ### Retention (R452, R453) -/

/-- The cluster that a macro belongs to (R441). -/
def macroClu (m : Nat) : Option Nat :=
  if m < 256 then some (m / 8)
  else if 264 ≤ m ∧ m < 520 then some ((m - 264) / 8)
  else if 520 ≤ m ∧ m < 1032 then some ((m - 520) / 16)
  else if 1057 ≤ m ∧ m < 1089 then some (m - 1057)
  else none

/-- Nothing needs cluster `c` (R452). -/
def State.cluAsleep (s : State) (c : Nat) : Bool :=
  let st := s.rdF (cluOff c Reg.acqStatus) 2 0
  s.laneIdle c && !s.laneStarting c && (st == 0 || st == 4) && (s.clu c).acq.spillQ.isEmpty && (s.clu c).acq.waits.isEmpty &&
    (chansOf c).all (fun n =>
      let t := s.rdF (chOff n Reg.tiaStatus) 2 0
      (t == 0 || t == 3) && s.rdF (chOff n Reg.pmuActCfg) 2 0 == 0) &&
    (s.clu c).mon.isNone && !s.rdB (cluOff c Reg.peMonCtl) 11 && !s.sounding && !s.calBusy &&
    (match s.mem.march with | some m => !m.left.any (fun i => macroClu i == some c) | none => true)

/-- RETENTION_ENTRY (R452). -/
def State.retentionEntry (s : State) (c : Nat) : State :=
  if s.boot.stage = .ready ∧ s.rdB Reg.memRetEn c ∧ s.cluAsleep c then s.wrB Reg.memRetState c true else s

/-! ### Meanings -/

/-- MARCH (R446). -/
def execMarch (s : State) : Out := .next s.cmdMarch

/-- MARCH_WINDOW (R447, R449). -/
def execMarchWindow (m : MarchTest) (s : State) : Out := .next (s.marchWindow m.fails m.read m.row.val)

/-- HELD_RETIRE (R449). -/
def execHeldRetire (s : State) : Out := .next s.heldRetire

/-- BOOT_MARCH (R445). -/
def execBootMarch (fails : List MacroFails) (s : State) : Out := .next (s.bootMarch fails)

/-- RETENTION_ENTRY (R452). -/
def execRetentionEntry (c : CluId) (s : State) : Out := .next (s.retentionEntry c.val)

/-- RETENTION_WAKE (R453). -/
def execRetentionWake (c : CluId) (s : State) : Out := .next (s.wake c.val)

end Sys2Proof.Machine
end

