-- ==== Sys2Proof/Machine/PlanCheck.lean ====
section
/-! DEFINITION. Load-time checks of a plan (R159 to R162, R192): format, segments, cache, timing sets, sluice rings, retired rows,
bandwidth, barriers and microwords. -/

namespace Sys2Proof.Machine

/-! ### Pieces of a plan (R159 to R162) -/

/-- LANEMASK of a plan. -/
def State.planLanes (s : State) (p : PlanRef) : List Nat := lanesOf (s.planLe p 0xC 4)

/-- MASTER_WORDS of a plan. -/
def State.masterWords (s : State) (p : PlanRef) : Nat := s.planLe p 0x18 2

/-- MASTER_ENTRY of a plan. -/
def State.masterEntry (s : State) (p : PlanRef) : Nat := s.planLe p 0x1A 2

/-- Segments of a lane part as 192-bit numbers. -/
def State.segWords (s : State) (p : PlanRef) (c : Nat) : List Nat :=
  (List.range (s.laneDir p c 8 2)).map (s.planSeg p c)

/-- Segments of a lane part. -/
def State.segs (s : State) (p : PlanRef) (c : Nat) : List Segm := (s.segWords p c).map segmOf

/-- Routine words of sequencer `q` in a plan. -/
def State.words (s : State) (p : PlanRef) (q : Nat) : List UWord :=
  if q = 32 then (List.range (s.masterWords p)).map (s.masterWord p)
  else (List.range (s.laneDir p q 0xC 2)).map (s.planWord p q)

/-- The 32-bit word at offset `o` of a lane part's register block (R161). -/
def State.regBlock (s : State) (p : PlanRef) (c o : Nat) : Nat := s.planLe p ((s.lanePart p c).1 + o) 4

/-- Timing sets present in a lane part. -/
def State.planSets (s : State) (p : PlanRef) (c : Nat) : List Nat := bitList 64 (s.setMask p c)

/-! ### PLAN_FORMAT (R159 to R162, R200) -/

/-- The `n` bytes at offset `o` are 0. -/
def State.planZero (s : State) (p : PlanRef) (o n : Nat) : Bool := s.planLe p o n == 0

/-- Handler entries of a lane part: the enabled addresses of SEQ_IVEC. -/
def State.handlers (s : State) (p : PlanRef) (c : Nat) : List Nat :=
  let v := s.regBlock p c 0x24
  (if v.testBit 15 then [v % 16384] else []) ++ (if v.testBit 31 then [v / 2 ^ 16 % 16384] else [])

/-- A register block that breaks R161. -/
def State.regBlockBad (s : State) (p : PlanRef) (c : Nat) : Bool :=
  let v := s.regBlock p c 0x24
  let w := s.laneDir p c 0xC 2
  decide (s.regBlock p c 0x20 / 2 ^ 16 ≠ 0) || v.testBit 14 || v.testBit 30 || !s.planZero p ((s.lanePart p c).1 + 0x28) 0x18 ||
    (s.handlers p c).any (fun a => decide (a < 0x2800 ∨ 0x2800 + w ≤ a))

/-- A timing-set block that breaks R200 to R202. -/
def State.timingBlockBad (s : State) (p : PlanRef) (c : Nat) : Bool :=
  let b := (s.lanePart p c).2.2.2
  let m := s.setMask p c
  decide (m = 0) || decide (s.planLe p (b + 8) 8 &&& m ≠ s.planLe p (b + 8) 8) ||
    (List.range 16).any (fun k => !s.planZero p (b + 0x10 + 8 * k + 6) 2) ||
    (s.planSets p c).any (fun t =>
      let e := s.setOff p c t
      !s.planZero p (e + 4) 12 ||
        (List.range 16).any (fun k => decide ((s.planFmt p c t k).1 / 16 ≠ 0) || decide ((s.planFmt p c t k).2 / 16 ≠ 0)))

/-- A directory entry or lane part that breaks R160, R161. -/
def State.lanePartBad (s : State) (p : PlanRef) (c : Nat) : Bool :=
  if (s.planLe p 0xC 4).testBit c then
    let segs := s.laneDir p c 8 2
    let words := s.laneDir p c 0xC 2
    decide (s.laneDir p c 0 4 % 8 ≠ 0) || decide (segs = 0 ∨ 4096 < segs) || decide (6144 < words) ||
      decide (s.laneDir p c 0xE 18 ≠ 0) ||
      decide (s.laneDir p c 4 4 ≠ 64 + 24 * segs + 24 * words + 144 + 336 * (s.planSets p c).length) ||
      s.regBlockBad p c || s.timingBlockBad p c
  else decide (s.laneDir p c 0 32 ≠ 0)

/-- The spans of a plan: header and directory, master part, lane parts (R162). -/
def State.planSpans (s : State) (p : PlanRef) : List (Nat × Nat) :=
  let m := s.masterWords p
  [(0, 1088)] ++ (if m = 0 then [] else [(s.planLe p 0x14 4, 24 * m)]) ++
    (s.planLanes p).map (fun c => (s.laneDir p c 0 4, s.laneDir p c 4 4))

/-- No two spans of a list overlap. -/
def spansApart : List (Nat × Nat) → Bool
  | [] => true
  | a :: t => t.all (fun b => decide (a.1 + a.2 ≤ b.1 ∨ b.1 + b.2 ≤ a.1)) && spansApart t

/-- A plan that breaks R159 to R162, its LENGTH above 4 MiB apart. -/
def State.planFormatBad (s : State) (p : PlanRef) : Bool :=
  let len := s.planLe p 8 4
  let m := s.masterWords p
  decide (s.planLe p 0 4 ≠ 0x4E414C50) || decide (s.planLe p 4 2 ≠ 1) || decide (1024 ≤ s.planLe p 6 2) ||
    decide (8 ≤ s.planLe p 0x10 4) || !s.planZero p 0x1C 0x24 || decide (p.len < len) ||
    decide (6144 < m) ||
    (decide (m ≠ 0) && (decide (s.planLe p 0x14 4 % 8 ≠ 0) || decide (s.masterEntry p < 0x2800 ∨ 0x2800 + m ≤ s.masterEntry p))) ||
    (List.range 32).any (s.lanePartBad p) ||
    !spansApart (s.planSpans p) || (s.planSpans p).any (fun a => decide (len < a.1 + a.2))

/-! ### Segments (R163, R178, R362, R364) -/

/-- SEG_FIELD for one segment entry of lane `c`. -/
def State.segFieldBad (s : State) (p : PlanRef) (c x : Nat) : Bool :=
  let g := segmOf x
  segmReserved x || g.kind == 3 || (g.kind != 0 && (g.pin || g.sluice)) || (g.pin && g.sluice) ||
    (g.sluice && g.base != 0) || (g.kind == 1 && decide (16384 ≤ g.base)) ||
    (g.kind == 2 && (decide (256 ≤ g.base) || !(s.setMask p c).testBit g.tset || s.planPeriod p c g.tset != 320))

/-- SEG_LENGTH for one segment. -/
def segLengthBad (g : Segm) : Bool := if g.kind = 1 then g.len != 0 else decide (g.len < 4)

/-- SEG_TARGET for one segment of a part with `n` segments and `w` words. -/
def segTargetBad (n w : Nat) (g : Segm) : Bool :=
  decide (n ≤ g.next) || (g.kind == 1 && decide (g.base < 0x2800 ∨ 0x2800 + w ≤ g.base))

/-- Granules of the vector region (R454). -/
def State.vecGranules (s : State) : Nat := s.rdF Reg.memVecSize 14 0 * 4096

/-- SEG_REGION for one segment: STORED granules outside the vector region, or a DDS segment whose entry is not VALID. -/
def State.segRegionBad (s : State) (c : Nat) (g : Segm) : Bool :=
  (g.kind == 0 && !g.sluice && decide (s.vecGranules < g.base + g.len)) ||
    (g.kind == 2 && !(Tbl.get (fun _ => 0) (s.clu c).dds.entries g.base).getLsbD 63)

/-- Pinned granules of a lane part, and whether it streams (R178). -/
def cacheNeeds (l : List Segm) : Nat × Bool :=
  ((l.map (fun g => if g.kind = 0 ∧ g.pin then g.len else 0)).sum, l.any (fun g => g.kind == 0 && !g.pin))

/-- Does a lane part break R178 over `n` granules? -/
def cacheBad (n : Nat) (l : List Segm) : Bool :=
  decide (n < (cacheNeeds l).1) || ((cacheNeeds l).2 && decide (n - (cacheNeeds l).1 < 256))

/-! ### Timing sets (R217) -/

/-- One channel's record of a set in a plan: format, strobe modes, edge codes D0 to D3, S0, S1. -/
structure SetRec where
  fmt   : Nat
  sm    : Nat
  codes : List Nat
  deriving DecidableEq, Repr

/-- The record of local channel `k` in set `t`. -/
def State.setRec (s : State) (p : PlanRef) (c t k : Nat) : SetRec :=
  let f := s.planFmt p c t k
  { fmt := f.1 % 16, sm := f.2 % 16, codes := (List.range 6).map (s.planCode p c t k) }

/-- Edge code `j` of a record. -/
def SetRec.code (r : SetRec) (j : Nat) : Nat := r.codes.getD j 0

/-- Mode of strobe 0 or 1 of a record. -/
def SetRec.mode (r : SetRec) (j : Nat) : Nat := r.sm / 4 ^ j % 4

/-- Used drive edges with the drive half on. -/
def SetRec.drive (r : SetRec) : List Nat := (driveCells r.fmt).map r.code

/-- Drive entries: a D1 with the code of D0 merges into it (R204, R207). -/
def SetRec.driveEntries (r : SetRec) : List Nat :=
  match r.drive with
  | a :: b :: t => if a = b then a :: t else a :: b :: t
  | l => l

/-- Used strobes: their index. -/
def SetRec.strobes (r : SetRec) : List Nat := [0, 1].filter (fun j => r.mode j != 0)

/-- The close of strobe `j` with window widths `w`. -/
def SetRec.close (r : SetRec) (w : List Nat) (j : Nat) : Nat := r.code (4 + j) + (if r.mode j = 2 then w.getD j 0 else 0)

/-- Window widths of local channel `k` (R201). -/
def State.planWins (s : State) (p : PlanRef) (c k : Nat) : List Nat := [s.planChan p c k 0, s.planChan p c k 2]

/-- A list is not ascending with steps of at least `gap`. -/
def tooClose (gap : Nat) : List Nat → Bool
  | a :: b :: t => decide (b < a + gap) || tooClose gap (b :: t)
  | _ => false

/-- The large-swing driver is at the pad of channel `n`. -/
def State.lsd (s : State) (n : Nat) : Bool := s.rdB (chOff n Reg.peActCfg) 0

/-- Channel `n` is of a tussock pair. -/
def State.paired (s : State) (n : Nat) : Bool := s.primary n || s.secondary n

/-- GAP_D of channel `n` (R208, R211). -/
def State.gapD (s : State) (n : Nat) : Nat := if !s.paired n && s.lsd n then 2560 else 144

/-- ORDER. -/
def orderBad (gap : Nat) (r : SetRec) : Bool :=
  match r.drive with
  | a :: b :: t => decide (b < a) || (a != b && decide (b - a < gap)) || tooClose gap (b :: t)
  | _ => false

/-- STROBE. -/
def strobeBad (w : List Nat) (r : SetRec) : Bool :=
  [0, 1].any (fun j => r.mode j == 2 && decide (w.getD j 0 < 320)) ||
    (r.mode 0 != 0 && r.mode 1 != 0 && decide (r.code 5 < r.close w 0 + 320))

/-- Merged strobes of a pair that follow the preceding close by less than 160 steps. -/
def mergedStrobes : List (Nat × Nat) → Bool
  | a :: b :: t => decide (b.1 < a.2 + 160) || mergedStrobes (b :: t)
  | _ => false

/-- TUSSOCK for the pair of local channels `k` and `k + 1`. -/
def State.tussockBad (s : State) (p : PlanRef) (c t k : Nat) : Bool :=
  let a := s.setRec p c t k
  let b := s.setRec p c t (k + 1)
  let st := fun (r : SetRec) (w : List Nat) => r.strobes.map (fun j => (r.code (4 + j), r.close w j))
  a.fmt != b.fmt || (s.planChan p c k 4).testBit 15 || (s.planChan p c (k + 1) 4).testBit 15 ||
    tooClose 144 (a.driveEntries ++ b.driveEntries) ||
    mergedStrobes (st a (s.planWins p c k) ++ st b (s.planWins p c (k + 1)))

/-- The local channels whose S0 a lookup of channel `k` uses: its own and the enabled sources (R201, R213). -/
def scrSources (scr k : Nat) : List Nat :=
  k :: (if scr.testBit 12 then [scr % 16] else []) ++ (if scr.testBit 13 then [scr / 16 % 16] else []) ++
    (if scr.testBit 14 then [scr / 256 % 16] else [])

/-- SCR for local channel `k` in set `t`. -/
def State.scrBad (s : State) (p : PlanRef) (c t k : Nat) : Bool :=
  let scr := s.planChan p c k 4
  let per := s.planPeriod p c t
  let r := s.setRec p c t k
  let src := scrSources scr k
  let s0 := (src.map (fun j => (s.setRec p c t j).code 4)).foldl max 0
  (s.planLe p ((s.lanePart p c).2.2.2 + 8) 8).testBit t && scr.testBit 15 &&
    (decide (per < 6554) || src.any (fun j => (s.setRec p c t j).mode 0 == 2) || decide (r.code 0 < s0 + 5735) ||
      r.drive.any (fun x => decide (per ≤ x)))

/-- The first reason of 0x03 to 0x08 that local channel `k` breaches in set `t`. -/
def State.chanReason (s : State) (p : PlanRef) (c t k : Nat) : Option Nat :=
  let n := 16 * c + k
  let r := s.setRec p c t k
  if decide (6 < r.fmt) || r.mode 0 == 3 || r.mode 1 == 3 then some 3
  else if orderBad (s.gapD n) r then some 4
  else if strobeBad (s.planWins p c k) r then some 5
  else if s.lsd n && decide (s.planPeriod p c t < 2560) then some 6
  else if s.paired n && s.tussockBad p c t (k / 2 * 2) then some 7
  else if s.scrBad p c t k then some 8
  else none

/-- Timing sets that a lane part names: its segments' and its GEN words' (R217). -/
def State.namedSets (s : State) (p : PlanRef) (c : Nat) : List Nat :=
  (s.segs p c).map (fun g => g.tset) ++ ((s.words p c).filter (fun w => w.vop == 2)).map (fun w => w.tset)

/-- The first breach of one set: reason and channel. -/
def State.setReason (s : State) (p : PlanRef) (c t : Nat) (named : List Nat) : Option (Nat × Nat) :=
  if ¬ (s.setMask p c).testBit t then (if named.contains t then some (1, 0) else none)
  else if s.planPeriod p c t < 320 then some (2, 0)
  else (List.range 16).findSome? (fun k => (s.chanReason p c t k).map (fun r => (r, k)))

/-- QUEUE_DEPTH: the first channel whose bound is above 256. -/
def State.queueReason (s : State) (p : PlanRef) (c pmin : Nat) : Option Nat :=
  (List.range 16).find? (fun k =>
    let rs := (s.planSets p c).map (fun t => s.setRec p c t k)
    let e := (rs.map (fun r => r.driveEntries.length + r.strobes.length)).foldl max 0
    let cm := (rs.flatMap (fun r => r.drive ++ r.strobes.map (fun j => r.code (4 + j)))).foldl max 0
    decide (256 < e * ((10240 + cm) / pmin + 1)))

/-- The first breach of R217 in a lane part: reason, set and channel. -/
def State.timingReason (s : State) (p : PlanRef) (c : Nat) : Option (Nat × Nat × Nat) :=
  let named := s.namedSets p c
  match (List.range 64).findSome? (fun t => (s.setReason p c t named).map (fun r => (r.1, t, r.2))) with
  | some r => some r
  | none =>
    let sets := s.planSets p c
    let pmin := (sets.map (s.planPeriod p c)).foldl min 0xFFFFFFFF
    (s.queueReason p c pmin).map (fun k => (9, (sets.find? (fun t => s.planPeriod p c t == pmin)).getD 0, k))

/-! ### Sluice rings, retired rows, bandwidth (R182, R183, R450) -/

/-- SLUICE_RANGE for a lane with a sluice segment. -/
def State.sluiceBad (s : State) (p : PlanRef) (c : Nat) : Bool :=
  let n := s.rdF (cluOff c Reg.plnSluiceSize) 8 0
  let b := s.rdF (cluOff c Reg.plnSluiceBase) 25 0
  (s.segs p c).any (fun g => g.sluice) && (decide (n < 2 ∨ 256 < n) || decide (b % 256 ≠ 0) || decide (s.vecGranules < b + 256 * n))

/-- The plan's routine words of sequencer `q` occupy a retired row. -/
def State.wordsRetired (s : State) (q n : Nat) : Bool := (List.range n).any (fun i => s.rowRetired q (0x2800 + i))

/-- RETIRED (R450). -/
def State.retiredBad (s : State) (p : PlanRef) : Bool :=
  s.outOfService 32 || s.wordsRetired 32 (s.masterWords p) ||
    (s.planLanes p).any (fun c =>
      s.outOfService c || s.wordsRetired c (s.laneDir p c 0xC 2) || cacheBad (2048 - (s.lostGranules c).length) (s.segs p c) ||
        (s.planSets p c).any (s.setLost c)) ||
    (List.range 64).any (fun k => s.rdB (if k < 32 then Reg.flBmpEnLo else Reg.flBmpEnHi) (k % 32) && s.siteLost k)

/-- The shortest period among the sets of a lane's streamed segments, 0 where it streams nothing. -/
def State.streamPeriod (s : State) (p : PlanRef) (c : Nat) : Nat :=
  let l := ((s.segs p c).filter (fun g => g.kind == 0 && !g.pin)).map (fun g => s.planPeriod p c g.tset)
  if l = [] then 0 else l.foldl min 0xFFFFFFFF

/-- The streaming demand in GB/s as a fraction (R182): the sum of 8192 / P over the lanes that stream. -/
def demandOf (ps : List Nat) : Nat × Nat :=
  ps.foldl (fun (a : Nat × Nat) p => if p = 0 then a else (a.1 * p + 8192 * a.2, a.2 * p)) (0, 1)

/-- PLN_BW for a demand: units of 0.1 GB/s, nearest, ties upward. -/
def demandUnits (d : Nat × Nat) : Nat := (20 * d.1 + d.2) / (2 * d.2)

/-- The demand of a plan. -/
def State.demand (s : State) (p : PlanRef) : Nat × Nat := demandOf ((s.planLanes p).map (s.streamPeriod p))

/-- The demand is above 512.0 GB/s. -/
def overBudget (d : Nat × Nat) : Bool := decide (512 * d.2 < d.1)

/-! ### Control flow of routines (R193, R531) -/

/-- A word whose condition always holds. -/
def alwaysTrue (w : UWord) : Bool := w.cond == 0 && !w.cinv

/-- Word `i` of a list of words, the trap word past its end. -/
def wordOf (ws : List UWord) (i : Nat) : UWord := ws.getD i trapWord

/-- The index of a word's TARGET among a plan's words; none for a target past them, where the trap word lies. `back` keeps the back edges
of LOOP, JUMP and CALL; without it a lower target is left out (R193). -/
def targetOf (ws : List UWord) (back : Bool) (i : Nat) : Option Nat :=
  let w := wordOf ws i
  let t := w.target - 0x2800
  if 0x2800 ≤ w.target ∧ t < ws.length ∧ (back ∨ i ≤ t ∨ ¬ [1, 2, 4].contains w.opc) then some t else none

/-- The word after word `i`. -/
def afterOf (ws : List UWord) (i : Nat) : List Nat := if i + 1 < ws.length then [i + 1] else []

/-- The words that follow word `i` in its own routine. After a CALL these are the word behind it where the CALL is not taken or not in the
graph, or where the routine called is among `rs`, those that can return; a RET has none but the word behind it where it is not taken (R193, R531). -/
def sameLevel (ws : List UWord) (back : Bool) (rs : List Nat) (i : Nat) : List Nat :=
  let w := wordOf ws i
  let next := afterOf ws i
  let tgt := (targetOf ws back i).toList
  match w.opc with
  | 1 => if alwaysTrue w then tgt else tgt ++ next
  | 2 => if ¬ alwaysTrue w ∨ (targetOf ws back i).isNone ∧ (targetOf ws true i).isSome ∨ tgt.any rs.contains then next else []
  | 3 => if alwaysTrue w then [] else next
  | 4 => tgt ++ next
  | 5 => tgt ++ next
  | 6 => []
  | 10 => tgt ++ next
  | 11 => []
  | _ => next

/-- The words from which a path in their own routine comes to a RET without passing a word that `stop` names, from fewer such words
`rs`. -/
def returning (ws : List UWord) (back : Bool) (stop : UWord → Bool) : Nat → List Nat → List Nat
  | 0, rs => rs
  | k + 1, rs =>
    let r := (List.range ws.length).filter (fun i =>
      !stop (wordOf ws i) && ((wordOf ws i).opc == 3 || (sameLevel ws back rs i).any rs.contains))
    if r.length = rs.length then rs else returning ws back stop k r

/-- The words reached from a list through `f`, which answers the further ones and is asked once for each word. -/
def reach (f : Nat → List Nat) : Nat → List Nat → List Nat → List Nat
  | 0, _, seen => seen
  | _ + 1, [], seen => seen
  | k + 1, x :: todo, seen => if seen.contains x then reach f k todo seen else reach f k (f x ++ todo) (x :: seen)

/-- The words that a CALL's routine returns to where word `j` is its RET: behind each CALL whose routine holds `j` (R531). -/
def returnsTo (ws : List UWord) (rs : List Nat) (j : Nat) : List Nat :=
  (List.range ws.length).flatMap (fun i =>
    match targetOf ws true i with
    | some t =>
      if (wordOf ws i).opc = 2 ∧ (reach (sameLevel ws true rs) (3 * ws.length + 2) [t] []).contains j then afterOf ws i else []
    | none => [])

/-- The barrier words that follow word `i` on some path with none between (R193; the paths through CALL and RET: DEDUCED, log 34). A place
is twice a word, plus 1 in the routine of `i` and in those that it returns to. -/
def nextBarriers (ws : List UWord) (isBar : UWord → Bool) (i : Nat) : List Nat :=
  let n := ws.length
  let rs := returning ws true (fun _ => false) n []
  let clear := returning ws false isBar n []
  let go := fun x =>
    let j := x / 2
    let w := wordOf ws j
    if isBar w then []
    else
      (sameLevel ws false clear j).map (fun k => 2 * k + x % 2) ++
        (if w.opc = 2 then (targetOf ws false j).toList.map (2 * ·) else []) ++
        (if w.opc = 3 ∧ x % 2 = 1 then (returnsTo ws rs j).map (fun k => 2 * k + 1) else [])
  let start := (sameLevel ws false clear i).map (fun k => 2 * k + 1)
  ((reach go ((2 * n + 2) * (n + 4)) start []).map (· / 2)).filter (fun j => isBar (wordOf ws j))

/-- A barrier word follows another on some path with a lower BARSEL (R193). -/
def barrierOrderBad (ws : List UWord) (isBar : UWord → Bool) : Bool :=
  (List.range ws.length).any (fun i =>
    isBar (wordOf ws i) && (nextBarriers ws isBar i).any (fun j => decide ((wordOf ws j).barsel < (wordOf ws i).barsel)))

/-- SYNC. -/
def isSync (w : UWord) : Bool := w.opc == 10

/-- The barrier words of the master: WAIT on BARRIER, and BREL. -/
def isMasterBar (w : UWord) : Bool := w.opc == 14 || (w.opc == 5 && w.cond == 0x16)

/-- CIRCULAR_WAIT (R193). -/
def State.circularBad (s : State) (p : PlanRef) : Bool :=
  let ms := s.words p 32
  barrierOrderBad ms isMasterBar ||
    (s.planLanes p).any (fun c =>
      let ws := s.words p c
      barrierOrderBad ws isSync ||
        (ws.filter isSync).any (fun w => !ms.any (fun m => m.opc == 14 && m.barsel == w.barsel && m.lanemask.testBit c)))

/-- A CALL depth above `top` is reached from an entry (R531). States are word × 8 + depth. A CALL adds one to the depth of what it reaches,
be that a word past the plan's; a RET returns to the depth of its caller. -/
def depthBad (ws : List UWord) (entries : List Nat) (top : Nat) : Bool :=
  let n := ws.length
  let rs := returning ws true (fun _ => false) n []
  let go := fun x =>
    (sameLevel ws true rs (x / 8)).map (fun k => 8 * k + x % 8) ++
      (if (wordOf ws (x / 8)).opc = 2 ∧ x % 8 < top then (targetOf ws true (x / 8)).toList.map (fun k => 8 * k + x % 8 + 1) else [])
  let start := entries.filterMap (fun a => if 0x2800 ≤ a ∧ a - 0x2800 < n then some (8 * (a - 0x2800)) else none)
  (reach go (40 * n + start.length + 8) start []).any (fun x => x % 8 == top && (wordOf ws (x / 8)).opc == 2)

/-! ### Microwords (R148) -/

/-- UWORD_RESERVED. -/
def uwordReserved (w : UWord) : Bool :=
  let imm := w.imm
  decide (w.fld 75 75 ≠ 0 ∨ w.fld 95 94 ≠ 0 ∨ w.fld 111 109 ≠ 0 ∨ w.fld 119 118 ≠ 0 ∨ w.fld 143 133 ≠ 0 ∨ w.fld 191 184 ≠ 0) ||
    w.lcop == 3 || decide (4 < w.vop) || decide (0x18 ≤ w.cond) || decide (8 ≤ w.xop) || decide (8 ≤ w.yop) || w.carry == 3 ||
    w.dsrc == 7 || w.dop == 3 || w.top == 3 || (w.opc == 7 && decide (0xC ≤ imm / 2 ^ 20)) || (w.opc == 8 && decide (2 ^ 13 ≤ imm)) ||
    (w.opc == 9 && decide (2 ^ 12 ≤ imm)) || (w.opc == 12 && decide (2 ^ 11 ≤ imm)) ||
    (w.opc == 15 &&
      (let k := imm / 2 ^ 20
       let pl := imm % 2 ^ 20
       decide (k = 0 ∨ 5 < k) || (decide (k = 1 ∨ k = 3 ∨ k = 4) && pl != 0) || (k == 2 && decide (2 ^ 17 ≤ pl))))

/-- Classes and conditions of one kind of sequencer only (R128, R129). -/
def uwordClass (master : Bool) (w : UWord) : Bool :=
  let c := w.cond
  w.opc == 11 ||
    (if master then
      [8, 9, 10].contains w.opc || decide (1 ≤ c ∧ c ≤ 8) || [0x12, 0x14, 0x15].contains c ||
        (w.opc == 7 && w.imm / 2 ^ 20 != 0xA && w.imm / 2 ^ 20 != 0xB) ||
        decide (w.fld 93 76 ≠ 0 ∨ w.fld 108 96 ≠ 0 ∨ w.fld 117 112 ≠ 0 ∨ w.fld 120 120 ≠ 0 ∨ w.fld 126 123 ≠ 0)
    else decide (12 ≤ w.opc) || c == 0x16 || c == 0x17 || w.lanemask != 0)

/-- UWORD_CONFLICT. -/
def uwordConflict (w : UWord) : Bool :=
  let uses := b2n (w.lcop == 1) + b2n (w.xop == 5 || w.xop == 7) + b2n (w.yop == 5 || w.yop == 7) +
    b2n ([5, 10, 7, 8, 9, 12, 15].contains w.opc)
  decide (1 < uses) || (w.opc == 4 && (w.lcop != 0 || w.cond != 0 || w.cinv)) ||
    ((w.opc == 5 || w.opc == 10) && (w.fld 5 0 != 1 || w.repeat_ != 0 || w.rsrc || w.vop != 0)) || (w.rsrc && w.lcop != 0)

/-- UWORD_TIMEOUT. -/
def uwordTimeout (w : UWord) : Bool := (w.opc == 5 || w.opc == 10) && w.imm == 0

/-- UWORD_TARGET, with `n` segments in the lane's table. -/
def uwordTarget (n : Nat) (w : UWord) : Bool :=
  ([1, 2, 4, 5, 10].contains w.opc && decide (w.target < 0x2800)) ||
    (w.opc == 8 && !w.imm.testBit 12 && decide (n ≤ w.imm % 4096))

/-- UWORD_RANGE of a word, in a plan with this number and LANEMASK. -/
def uwordRange (number lanes : Nat) (w : UWord) : Bool :=
  (w.opc == 7 && (w.imm / 2 ^ 20 == 2 || w.imm / 2 ^ 20 == 5) && w.imm % 65536 == 0) ||
    (w.opc == 12 && (w.imm % 1024 != number || w.lanemask &&& lanes != w.lanemask))

/-- An illegal role byte (R154). -/
def roleBad (b : Nat) : Bool :=
  match b / 64 with
  | 0 => b / 16 % 4 != 0
  | 3 => decide (20 ≤ b % 64)
  | _ => decide (16 ≤ b % 64)

/-- A SEQ_ROLE value with an illegal role. -/
def rolesBad (v : Nat) : Bool := (List.range 4).any (fun j => roleBad (v / 256 ^ j % 256))

/-- UWORD_POST. -/
def uwordPost (w : UWord) : Bool := (w.vop == 1 || w.vop == 4) && decide (w.fld 93 86 = 0 ∨ 16 < w.fld 93 86)

/-- UWORD_RATE: CL × 0.625 ns above VCNT × P, in grid steps (R195). -/
def uwordRate (period : Nat → Nat) (w : UWord) : Bool := w.vop == 2 && decide (w.vcnt * period w.tset < 1280 * w.cl)

/-- The sequencers of a plan: its lanes, and the master. -/
def State.planSeqs (s : State) (p : PlanRef) : List Nat := s.planLanes p ++ [32]

/-- Does some word of the plan's sequencers fail a check? -/
def State.anyWord (s : State) (p : PlanRef) (f : Nat → UWord → Bool) : Bool := (s.planSeqs p).any (fun q => (s.words p q).any (f q))

/-- UWORD_DEPTH (R531). -/
def State.depthsBad (s : State) (p : PlanRef) : Bool :=
  depthBad (s.words p 32) [s.masterEntry p] 6 ||
    (s.planLanes p).any (fun c =>
      depthBad (s.words p c) (((s.segs p c).filter (fun g => g.kind == 1)).map (fun g => g.base)) 6 ||
        depthBad (s.words p c) (s.handlers p c) 1)

/-! ### The order of R192 -/

/-- A resource that a run needs is taken: a plan, FL_CLEAR (R283), a pass or a pending request (R379), a calibration (R465), a
destructive march (R434; DEDUCED, log 35). -/
def State.runBusy (s : State) : Bool :=
  s.planBusy || !s.plan.clearing.isEmpty || s.sounding || s.snd.request.isSome || s.calBusy || s.marchDestructive

/-- The first check that fails, from a list of (code, failed). -/
def firstFail (l : List (Nat × Bool)) : Nat :=
  match l.find? (fun e => e.2) with
  | some e => e.1
  | none => 0

/-- The checks before TIMING_SET. -/
def State.checkA (s : State) (p : PlanRef) : Nat :=
  let ls := s.planLanes p
  let anySeg := fun (f : Nat → Segm → Bool) => ls.any (fun c => (s.segs p c).any (f c))
  firstFail
    [(0x02, s.planFormatBad p), (0x03, decide (0x400000 < s.planLe p 8 4)), (0x04, s.runBusy), (0x05, s.rdB Reg.calStatus 4),
     (0x06, ls.any (fun c => (s.segWords p c).any (s.segFieldBad p c))),
     (0x07, anySeg (fun _ g => segLengthBad g)),
     (0x08, ls.any (fun c => decide (s.laneDir p c 8 2 ≤ s.laneDir p c 0xA 2) ||
       (s.segs p c).any (segTargetBad (s.laneDir p c 8 2) (s.laneDir p c 0xC 2)))),
     (0x09, anySeg s.segRegionBad), (0x0A, ls.any (fun c => cacheBad 2048 (s.segs p c)))]

/-- The checks of microwords and barriers, after BANDWIDTH. -/
def State.checkC (s : State) (p : PlanRef) : Nat :=
  let n := s.planLe p 6 2
  let m := s.planLe p 0xC 4
  firstFail
    [(0x0F, s.circularBad p), (0x10, s.anyWord p (fun _ w => uwordReserved w)), (0x11, s.anyWord p (fun q w => uwordClass (q == 32) w)),
     (0x12, s.anyWord p (fun _ w => uwordConflict w)), (0x13, s.anyWord p (fun _ w => uwordTimeout w)),
     (0x14, s.anyWord p (fun q w => uwordTarget (if q = 32 then 0 else s.laneDir p q 8 2) w)),
     (0x15, s.anyWord p (fun _ w => uwordRange n m w) ||
       (s.planLanes p).any (fun c => (List.range 4).any (fun i => rolesBad (s.regBlock p c (4 * i))))),
     (0x16, s.anyWord p (fun _ w => uwordPost w)), (0x17, s.anyWord p (fun q w => uwordRate (s.planPeriod p q) w)),
     (0x18, s.depthsBad p)]

/-- TIMING_SET_CHECK: the first lane with a breach, which TG_REFUSE reports (R217). -/
def State.timingCheck (s : State) (p : PlanRef) : Option (Nat × Nat × Nat × Nat) :=
  (s.planLanes p).findSome? (fun c => (s.timingReason p c).map (fun r => (c, r.1, r.2.1, r.2.2)))

/-- LOAD_CHECK: every check of R192 in order, with what a refusal or the check of R182 writes; the code is 0 where the plan passes. -/
def State.loadCheck (s : State) (p : PlanRef) : State × Nat :=
  let a := s.checkA p
  if a ≠ 0 then (s, a)
  else
    match s.timingCheck p with
    | some r => (s.wr (cluOff r.1 Reg.tgRefuse) (pack [(0, r.2.2.2), (8, r.2.2.1), (24, r.2.1)]), 0x0B)
    | none =>
      let b := firstFail [(0x0C, (s.planLanes p).any (s.sluiceBad p)), (0x0D, s.retiredBad p)]
      if b ≠ 0 then (s, b)
      else
        let d := s.demand p
        let s1 := s.wrF Reg.plnBw 15 0 (demandUnits d)
        if overBudget d ∧ ¬ (s.planLe p 0x10 4).testBit 1 then (s1, 0x0E) else (s1, s.checkC p)

end Sys2Proof.Machine
end

