-- ==== Sys2Proof/Machine/PlanRun.lean ====
section
/-! DEFINITION. Running a plan (R155 to R191): loading, lane starts, vector issue, refill, sluice rings, jumps and the host commands
for them. -/

namespace Sys2Proof.Machine

/-! ### The vector region and the stream ring (R178 to R180) -/

/-- The next place of the prediction that streams a granule: segments that are pinned, ROUTINE or DDS are passed over, and it stops at
END = 1 and at a segment of that kind that plays without end (R179). -/
def Lane.predNorm (l : Lane) : Nat → Place → Option Place
  | 0, _ => none
  | k + 1, p =>
    let g := l.segm p.seg
    if g.rept ≠ 0 ∧ p.plays = g.rept then (if g.fin then none else l.predNorm k { seg := g.next, plays := 0, g := 0 })
    else if g.kind = 0 ∧ ¬ g.pin then some p
    else if g.rept = 0 ∨ g.fin then none
    else l.predNorm k { seg := g.next, plays := 0, g := 0 }

/-- Granules of the stream ring: the usable granules less the pinned ones (R178, R450). -/
def State.ringSize (s : State) (c : Nat) : Nat := 2048 - (s.lostGranules c).length - (cacheNeeds (s.lane c).table).1

/-- Granules in the ring and on their way to it. -/
def Lane.ringFill (l : Lane) : Nat :=
  l.ring.length + (l.inflight.map (fun r => if r.dropped then 0 else r.grans.length)).sum

/-- The next refill block (R180): its granules with their places in the vector region and what the DRAM holds there, and the place after
it; none where the prediction has stopped or the data of a sluice block is not posted. -/
def State.refillBlock (s : State) (c : Nat) : Option (List Gran × Place) :=
  let l := s.lane c
  match l.pred with
  | none => none
  | some p0 =>
    match l.predNorm (l.table.length + 2) p0 with
    | none => none
    | some p =>
      let g := l.segm p.seg
      if g.sluice ∧ l.slBlocks = 0 then none
      else
        let a := if g.sluice then s.rdF (cluOff c Reg.plnSluiceBase) 25 0 + 256 * s.rdF (cluOff c Reg.plnSluicePos) 15 8 + l.slIn else g.base + p.g
        let n := min (16 - a % 16) (g.len - p.g)
        let gs := (List.range n).map (fun i => { seg := p.seg, g := p.g + i, addr := a + i, data := s.granule (a + i) })
        some (gs, if p.g + n = g.len then { p with plays := p.plays + 1, g := 0 } else { p with g := p.g + n })

/-- The DRAM channel of a granule of the vector region, whose base is a whole number of MiB (R454). -/
def granuleChan (a : Nat) : Nat := a / 16 % 16

/-- REFILL_BLOCK_REQUEST (R180, R185): the block is requested once the ring has room for all of it. It enters the request queue of its
DRAM channel, and its granules are what the DRAM holds then: requests of a channel are served oldest first (R40), and every other
access of the model is served as it is made. -/
def State.refillRequest (s : State) (c : Nat) : State :=
  match s.refillBlock c with
  | none => s
  | some (gs, p) =>
    let l := s.lane c
    if s.ringSize c < l.ringFill + gs.length then s
    else
      let sl := match gs with | g :: _ => (l.segm g.seg).sluice | [] => false
      let last := sl && decide (l.slIn + gs.length = 256)
      let ch := granuleChan ((gs.head?.map (fun g => g.addr)).getD 0)
      let l1 := { l with pred := some p, inflight := l.inflight ++ [{ grans := gs, dropped := false, credits := b2n last, chan := ch }] }
      let l2 := if last then { l1 with slIn := 0, slBlocks := l1.slBlocks - 1 } else if sl then { l1 with slIn := l1.slIn + gs.length } else l1
      let s1 : State := { s.setLane c l2 with mem := { s.mem with dramQ := s.mem.dramQ ++ [(ch, c)] } }
      if last then
        let n := s1.rdF (cluOff c Reg.plnSluiceSize) 8 0
        s1.wrF (cluOff c Reg.plnSluicePos) 15 8 ((s1.rdF (cluOff c Reg.plnSluicePos) 15 8 + 1) % n)
      else s1

/-- The list without its first entry that is `x`. -/
def dropFirst (x : Nat × Nat) : List (Nat × Nat) → List (Nat × Nat)
  | [] => []
  | y :: t => if y = x then t else y :: dropFirst x t

/-- The oldest request in the queue of a DRAM channel is not another lane's (R40). -/
def State.oldestIs (s : State) (ch c : Nat) : Bool :=
  match s.mem.dramQ.find? (fun x => x.1 == ch) with
  | some x => x.2 == c
  | none => true

/-- The oldest block that lane `c` has requested reaches the stream ring, or is dropped where a discard overtook it (R179, R180). -/
def State.refillLand (s : State) (c : Nat) : State :=
  let l := s.lane c
  match l.inflight with
  | [] => s
  | r :: t =>
    let s1 : State := { s with mem := { s.mem with dramQ := dropFirst (r.chan, c) s.mem.dramQ } }
    s1.setLane c { l with inflight := t, ring := l.ring ++ (if r.dropped then [] else r.grans), creditDue := l.creditDue + r.credits }

/-- REFILL_BLOCK_ARRIVE: the block lands once its request is the oldest of its DRAM channel (R40, R180). -/
def State.refillArrive (s : State) (c : Nat) : State :=
  match (s.lane c).inflight with
  | [] => s
  | r :: _ => if s.oldestIs r.chan c then s.refillLand c else s

/-- SLUICE_CREDIT_RETURN (R185). -/
def State.creditReturn (s : State) (c : Nat) : State :=
  let l := s.lane c
  if l.creditDue = 0 then s
  else (s.setLane c { l with creditDue := l.creditDue - 1 }).wrF (cluOff c Reg.plnSluice) 24 16 (s.rdF (cluOff c Reg.plnSluice) 24 16 + 1)

/-- The stream ring is filled along the prediction before the start (R178). -/
def State.prefill (s : State) (c : Nat) : Nat → State
  | 0 => s
  | n + 1 =>
    let s1 := (s.refillRequest c).refillLand c
    if (s1.lane c).ring.length = (s.lane c).ring.length then s1 else s1.prefill c n

/-! ### Loading (R170) -/

/-- The routine words of a sequencer, in place of every word that its routine area held (R170). -/
def State.loadWords (s : State) (q : Nat) (ws : List UWord) : State :=
  s.modSeq q (fun z =>
    { z with store := Tbl.setList (fun _ => trapWord) (z.store.filter (fun e => decide (e.1 < 0x2800))) 0x2800 ws })

/-- The handler latches of lines 3 and 4 take the first words of the enabled handlers (R142). -/
def State.loadLatches (s : State) (q : Nat) : State :=
  let v := s.rd (seqOff q Reg.seqIvec)
  let s1 := if bitOf v 15 then s.modSeq q (fun z => z.loadLatch 3 (z.wordAt (fieldOf v 13 0))) else s
  if bitOf v 31 then s1.modSeq q (fun z => z.loadLatch 4 (z.wordAt (fieldOf v 29 16))) else s1

/-- The first byte of timing set `i` of cluster `c` in the timing-set memory (R441). -/
def timingAddr (c i : Nat) : Nat := 18432 * c + 288 * i

/-- The edge codes of the sets present go to the timing-set memory of the SQ die (R202). -/
def State.loadTimingMem (s : State) (p : PlanRef) (c : Nat) : State :=
  let set := fun i => (List.range 16).flatMap (fun k => ((List.range 6).flatMap (fun j => leBytes 3 ((s.setRec p c i k).code j))))
  { s with mem := { s.mem with
    timing := (bitList 64 (s.setMask p c)).foldl (fun (a : Tbl Byte) i => Tbl.setList (fun _ => (0 : Byte)) a (timingAddr c i) (set i)) s.mem.timing } }

/-- The timing sets of a lane part go to the timing-set memory, the TG_ registers and the mirror (R202, R219). -/
def State.loadTiming (s : State) (p : PlanRef) (c : Nat) : State :=
  let m := s.setMask p c
  let scr := s.planLe p ((s.lanePart p c).2.2.2 + 8) 8
  let per := fun t => if m.testBit t then s.planPeriod p c t else 0
  let s1 := (List.range 64).foldl (fun t i => t.wr (cluOff c (Reg.tgPeriod + 4 * i)) (BitVec.ofNat 32 (per i))) (s.loadTimingMem p c)
  let s2 := (s1.wr64 (cluOff c Reg.tgSetmaskLo) m).wr64 (cluOff c Reg.tgScrmaskLo) scr
  (List.range 16).foldl (fun t k =>
    let n := 16 * c + k
    let mode := fun i => if m.testBit i then (let r := s.setRec p c i k; r.fmt + 16 * r.sm) else 0
    let t1 := (List.range 16).foldl (fun u i =>
      u.wr (chOff n (Reg.tgMode0 + 4 * i)) (pack [(0, mode (4 * i)), (8, mode (4 * i + 1)), (16, mode (4 * i + 2)), (24, mode (4 * i + 3))])) t
    let t2 := (t1.wr (chOff n Reg.tgWin) (pack [(0, s.planChan p c k 0), (16, s.planChan p c k 2)])).wr (chOff n Reg.tgScrSrc)
      (BitVec.ofNat 32 (s.planChan p c k 4))
    t2.modChan n (fun ch =>
      { ch with mirror := (bitList 64 m).foldl (fun (a : Tbl Nat) i => Tbl.setList (fun _ => 0) a (6 * i) (s.setRec p c i k).codes) ch.mirror })) s2

/-- What PLN_SEG.SEG, PLN_SEG.KIND and PLN_PLAY hold: the present place, or what they held at a load until the next lane start (R194). -/
def Lane.segView (l : Lane) : Nat × Nat × Nat := l.was.getD (l.place.seg, l.cur.kind, l.place.plays)

/-- Step 3 and 4 of R170 for lane `c`. -/
def State.loadLane (s : State) (p : PlanRef) (c : Nat) : State :=
  let segs := s.segs p c
  let entry := s.laneDir p c 0xA 2
  let s0 := s.wake c
  let s1 := s0.loadWords c (s.words p c)
  let r := fun (t : State) off o => t.wr (cluOff c off) (BitVec.ofNat 32 (s.regBlock p c o))
  let s2 := (List.range 4).foldl (fun t i => r t (Reg.seqRole0 + 4 * i) (4 * i)) s1
  let s3 := (List.range 4).foldl (fun t i => r t (Reg.seqXscr0 + 4 * i) (0x10 + 4 * i)) s2
  let s4 := ((r (r s3 Reg.seqSrcMask 0x20) Reg.seqIvec 0x24).loadLatches c).loadTiming p c
  let pins := (segs.filter (fun g => g.kind == 0 && g.pin)).flatMap (fun g => (List.range g.len).map (fun i => s.granule (g.base + i)))
  let start : Place := { seg := entry, plays := 0, g := 0 }
  let s5 := s4.modLane c (fun l => { l with was := some l.segView, table := segs, entrySeg := entry, place := start, pinned := pins, ring := [],
                                            inflight := [], pred := some start, jump := none, granted := false, due := 0, armed := false })
  let s6 := s5.wr (cluOff c Reg.plnCache) (pack [(0, pins.length), (16, s5.ringSize c)])
  s6.prefill c 2048

/-- The loader accepts the plan (R170): PLN_RESULT and PLN_STATE name it, and its lanes and the master are loaded. No refill of an earlier
plan waits in a DRAM request queue any more: no lane runs, and a refill takes 1.0 µs (R180; DEDUCED, log 92). -/
def State.load (s : State) (p : PlanRef) (number : Nat) (cmd : Cmd) : State :=
  let flags := s.planLe p 0x10 4
  let waived := flags.testBit 1 && overBudget (s.demand p)
  let m := s.masterWords p
  let s1 := (s.wrF Reg.plnResult 7 0 0).wrB Reg.plnResult 12 waived
  let s2 := s1.wr Reg.plnState (pack [(0, number), (10, p.slot.getD 0), (16, b2n p.slot.isSome), (17, 1)])
  let s3 : State := { s2 with plan := { s2.plan with
    lanes := BitVec.ofNat 32 (s.planLe p 0xC 4), abort := flags.testBit 0, aligned := flags.testBit 2, loading := some cmd,
    entry := if m = 0 then none else some (s.masterEntry p), faulted := false, stopped := false, underrun := false, gapped := false,
    started := false, startDue := 0 } }
  let s4 : State := { s3 with mem := { s3.mem with dramQ := [] } }
  (((s.planLanes p).foldl (fun t c => t.loadLane p c) s4).loadWords 32 (s.words p 32)).loadLatches 32

/-- RUN (R170, R192): the plan is resolved, checked and loaded, or refused with the first status that applies. -/
def State.cmdRun (s : State) : State :=
  s.runCmd 0x01 (fun c t =>
    let n := c.arg0 % 1024
    let t0 := t.wrF Reg.plnResult 25 16 n
    match t0.planOf n with
    | none => (t0.wrF Reg.plnResult 7 0 1).complete c 1 0 0
    | some p =>
      let r := t0.loadCheck p
      if r.2 ≠ 0 then (r.1.wrF Reg.plnResult 7 0 r.2).complete c r.2 0 0
      else
        let t1 := r.1.load p n c
        { t1 with hst := { t1.hst with fg := some c } })

/-- MASTER_START (R170, R434): the master's part starts; a RUN completes here, or waits for the plan's end. -/
def State.masterStart (s : State) (us : W32) : State :=
  match s.plan.loading with
  | none => s
  | some c =>
    let s1 := (s.wr Reg.plnLoadUs us).wrF Reg.plnState 19 17 3
    let s2 := s1.modSeq 32 (fun z => { z.fresh with st := 1, pos := if s.plan.entry.isSome then .runner else .dflt 0 })
    let s3 : State := { s2 with plan := { s2.plan with loading := none }, hst := { s2.hst with fg := none } }
    (if c.flags % 2 = 1 then s3.bgStart c else s3.complete c St.ok 0 0).settleAll

/-! ### Lane starts (R132, R133, R140, R171, R194, R212, R263 to R273, R363) -/

/-- What a lane start resets in channel `n`. -/
def State.chanStart (s : State) (n : Nat) : State :=
  let s1 := ((s.wr (chOff n Reg.flChFail) 0).wrF (chOff n Reg.tgQueue) 24 16 0)
  let s2 := [Reg.tgScrActLo, Reg.tgScrActHi, Reg.tgScrStgLo, Reg.tgScrStgHi].foldl (fun t o => t.wr (chOff n o) 0x22222222) s1
  s2.modChan n (fun k => { k with held := false, lastDrive := none, lastClose := none, close0 := none, close1 := none, formed := 0, resp := 2 })

/-- The registers of lane `c` that its start clears. -/
def State.laneRegsStart (s : State) (c : Nat) : State :=
  [Reg.plnGapCnt, Reg.plnGapFirstLo, Reg.plnGapFirstHi, Reg.plnGapLenLo, Reg.plnGapLenHi, Reg.flRecWr, Reg.flRecLost, Reg.flQueue,
   Reg.ddsMarkCnt, Reg.ddsGranLo, Reg.ddsGranHi].foldl (fun t o => t.wr (cluOff c o) 0) s

/-- The four SEQ_ROLE registers of lane `c` as one value. -/
def State.rolesNow (s : State) (c : Nat) : BitVec 128 :=
  BitVec.ofNat 128 (((List.range 4).map (fun i => (s.rd (cluOff c (Reg.seqRole0 + 4 * i))).toNat * 2 ^ (32 * i))).sum)

/-- The lane beside its sequencer at its start: its table and caches stand, and its stream ring if it is the one filled for this
start. At a second start in one plan the ring is discarded and the prediction restarts, with no new prefill (DESIGN CHOICE, log 93). A
jump request latched before the start stands (R175). -/
def Lane.restart (l : Lane) (roles : BitVec 128) (flCtl flMatch : W32) : Lane :=
  let start : Place := { seg := l.entrySeg, plays := 0, g := 0 }
  let l1 := if l.place = start then l else { l with place := start }.discard
  { laneReset with
    table := l.table, entrySeg := l.entrySeg, place := start, pinned := l.pinned, ring := l1.ring, pred := l1.pred, inflight := l1.inflight,
    slBlocks := l.slBlocks, slIn := l.slIn, creditDue := l.creditDue, live := true, jump := l.jump, due := l.due, roles := roles, flCtl := flCtl, flMatch := flMatch,
    strobes := l.strobes, verdicts := l.verdicts, results := l.results, failQ := l.failQ }

/-- The start of lane `c` (R171): its first vector is issued 256 CK_SEQ cycles later, and reaches the pad 64 CK_VEC cycles after that,
1,536 CK_EDGE cycles in all (R29). -/
def State.startLane (s : State) (c cycle : Nat) : State :=
  let s1 := (chansOf c).foldl State.chanStart (s.laneRegsStart c)
  let s2 := s1.wrB (cluOff c Reg.ddsStatus) 24 false
  let s3 := s2.modDds c (fun d => { d with acc := 0 })
  let s4 := s3.modSeq c (fun z => { z.fresh with st := 1, pos := .runner, gen := genReset })
  s4.modLane c (fun l => { l.restart (s.rolesNow c) (s.rd (cluOff c Reg.flCtl)) (s.rd (cluOff c Reg.flMatch)) with pad := cycle + 1536 })

/-- The lane can start: its sequencer is IDLE, its last vector has been issued and it is not armed. Starts that fall later do not count
(R140, R173; DEDUCED, log 38). -/
def State.canStart (s : State) (c : Nat) : Bool := (s.seq c).st == 0 && !(s.lane c).live && !(s.lane c).armed

/-- LANE_START: a start that an LSTART has made due falls, and a lane that is not idle then ignores it (R140); it falls after the edges of
the lane's earlier vectors have been formed (DEDUCED, log 38). -/
def State.laneStart (s : State) (c cycle : Nat) : State :=
  if (s.lane c).due ≠ 0 ∧ (s.lane c).formQ = [] then
    let s1 := s.modLane c (fun l => { l with due := l.due - 1 })
    if s1.canStart c then s1.startLane c cycle else s1
  else s

/-- ALIGNED_START (R414): the lanes that are armed at the oldest start instant start. -/
def State.alignedStart (s : State) (cycle : Nat) : State :=
  let ls := (List.range 32).filter (fun c => (s.lane c).armed)
  if s.plan.startDue ≠ 0 ∧ ls.all (fun c => (s.lane c).formQ.isEmpty) then
    let s1 := ls.foldl (fun t c =>
      let t1 := t.modLane c (fun l => { l with armed := false })
      if t1.canStart c then t1.startLane c cycle else t1) s
    let s2 : State := { s1 with plan := { s1.plan with startDue := s1.plan.startDue - 1 } }
    if s2.plnState = 2 then s2.wrF Reg.plnState 19 17 3 else s2
  else s

/-- ALIGNED_START_TIMEOUT (R415): the armed lanes are given up and the plan ends as if stopped by the host. -/
def State.alignedTimeout (s : State) : State :=
  if (List.range 32).any (fun c => (s.lane c).armed) then
    let s1 : State := { s with plan := { s.plan with stopped := true } }
    (s1.raise Reg.cwyFlags 3).planStop.masterEnd
  else s

/-! ### Vector issue (R123 to R125, R167, R169, R189 to R191, R196, R215) -/

/-- The active response table of a channel as 64 bits. -/
def State.actTable (s : State) (n : Nat) : BitVec 64 := BitVec.ofNat 64 (s.rd64 (chOff n Reg.tgScrActLo))

/-- SCR_COMMIT (R212). -/
def State.scrCommit (s : State) (c : Nat) : State :=
  (chansOf c).foldl (fun t n =>
    (t.wr (chOff n Reg.tgScrActLo) (t.rd (chOff n Reg.tgScrStgLo))).wr (chOff n Reg.tgScrActHi) (t.rd (chOff n Reg.tgScrStgHi))) s

/-- A new source of channel `n`'s high-speed driver. No edge has set the level that a return to the formatter takes up (DESIGN CHOICE, log 97). -/
def State.setSource (s : State) (n src : Nat) : State :=
  (s.modChan n (fun k => { k with tapAt := none })).wrF (chOff n Reg.peStatus) 11 10 src

/-- Clock mode with a period code, counted from the instant `start` (R66). -/
def State.clockSource (s : State) (n p : Nat) (start : Option Nat) : State :=
  (s.modChan n (fun k => { k with ckm := p, ckmAt := start })).setSource n 2

/-- SRCSEL_CHANGE for one channel to source 0 formatter, 1 DDS, 2 clock mode; selecting clock mode reads the period code, or is
refused and keeps the source (R27, R67), and the clock counts from the instant `start`, in grid steps from CK_EDGE cycle 0: the vector boundary,
or none at a load strobe instant of sounding or calibration, to which the rules give no number (R66). The secondary of a pair follows its primary (R239). -/
def State.selectSource (s : State) (n src : Nat) (start : Option Nat) : State :=
  if s.secondary n then s
  else if src = 2 then
    let p := (s.rd (chOff n Reg.tgCkmPeriodLo)).toNat + 2 ^ 32 * s.rdF (chOff n Reg.tgCkmPeriodHi) 15 0
    if p < 0x2800000 then s.raise (chOff n Reg.tgCkmPeriodHi) 31
    else s.clockSource n p start
  else s.setSource n src

/-- The clock edge `h` halves of a period after the first rising edge, in grid steps after it (R66): even `h` are the rising edges, odd `h` the
falling ones. Each is the nearest point of the 2^-11 ns grid; which one, half way between two, R66 does not say (DESIGN CHOICE, log 95). -/
def Chan.clockEdge (k : Chan) (h : Nat) : Nat :=
  let x := h * k.ckm
  x / 131072 + (if x % 131072 < 65536 then 0 else if x % 131072 = 65536 then b2n (Config.clockTieUp x) else 1)

/-- Markers of one vector boundary (R124): LDSTB, SCRLD, and SRCSEL, of which a later one that names a source stands (DEDUCED, log 96: a
lane word has one SRCSEL field). -/
structure Marks where
  ldstb : Bool
  scrld : Bool
  src   : Nat
  deriving DecidableEq, Repr

/-- No marker. -/
def noMarks : Marks := { ldstb := false, scrld := false, src := 0 }

/-- The markers at the front of a queue, and the rest. -/
def frontMarkers : Marks → List Item → Marks × List Item
  | m, .marker a b d :: t => frontMarkers { ldstb := m.ldstb || a, scrld := m.scrld || b, src := if d = 0 then m.src else d } t
  | m, l => (m, l)

/-- The lane word of a vector with the markers that ride in it (R30). -/
def laneWord (v : Vec) (m : Marks) : BitVec 64 :=
  BitVec.ofNat 64 (v.codes.toNat + 2 ^ 32 * (v.map % 65536) + 2 ^ 48 * (v.tset % 64) + 2 ^ 54 * b2n m.ldstb + 2 ^ 55 * b2n m.scrld +
    2 ^ 56 * (m.src % 4))

/-- Bits [msb:lsb] of a lane word. -/
def laneFld (w : BitVec 64) (msb lsb : Nat) : Nat := (w.toNat >>> lsb) % 2 ^ (msb + 1 - lsb)

/-- The effects at a vector boundary of the markers in a lane word (R30, R124); the boundary's instant is `start`. -/
def State.applyMarker (s : State) (c : Nat) (w : BitVec 64) (start : Nat) : State :=
  let src := laneFld w 57 56
  let s1 := if laneFld w 55 55 = 1 then s.scrCommit c else s
  let s2 := if src = 0 then s1
    else (bitList 16 (s1.rdF (cluOff c Reg.seqSrcMask) 15 0)).foldl (fun t k => t.selectSource (16 * c + k) (src - 1) (some start)) s1
  if laneFld w 54 54 = 1 then s2.modLane c (fun l => { l with ldstb := true }) else s2

/-- The state expander: the pin state of local channel `k` that a lane word gives (R30, R168, R169, R215). HOLD takes the previous state,
and a HOLD after an SCR state waits for its lookup; an SCR state that cannot answer is DZ and sets SCR_UNARMED. -/
def State.expandPin (s : State) (c : Nat) (w : BitVec 64) (prev : List Nat) (k : Nat) : Nat × Bool :=
  let p0 := mapPin (laneFld w 47 32) (laneFld w (2 * k + 1) (2 * k))
  let tset := laneFld w 53 48
  let q := prev.getD k 2
  let p := if p0 = 0xA then (if q = 0xC then 0xA else q) else p0
  if p = 0xC then
    let armed := s.rdB (cluOff c (if tset < 32 then Reg.tgScrmaskLo else Reg.tgScrmaskHi)) (tset % 32) &&
      s.rdB (chOff (16 * c + k) Reg.tgScrSrc) 15
    if armed then (0xC, false) else (2, true)
  else (p, false)

/-- Results that the strobes of a vector's match channels will bring; the CAPTURED ones among them do not count (R266). -/
def State.matchCount (s : State) (c tset : Nat) (fm : W32) (pins : List Nat) : Nat :=
  ((List.range 16).map (fun k =>
    let h := cmpHalf (pins.getD k 2)
    if bitOf fm k && h != .none then
      let m := s.modeByte (16 * c + k) tset
      b2n (strobeMode m false != 0) + b2n (strobeMode m true != 0)
    else 0)).sum

/-- WMON_VECTOR_CLEAR for one channel: with CLR_MODE = 1 the latches of a window monitor clear at each vector start (R245, R336). -/
def State.wmonClear (s : State) (n : Nat) : State :=
  [chOff n Reg.peWmon, chOff n Reg.pmuWmon].foldl (fun t o => if t.rdB o 1 then t.wrF o 9 8 0 else t) s

/-- The gap account of R190 for an issued vector. -/
def State.gapAccount (s : State) (c : Nat) (v : Vec) : State :=
  let l := s.lane c
  let s1 := s.modLane c (fun k => { k with inGap := v.gap })
  if ¬ v.gap then s1
  else
    let cnt := cluOff c Reg.plnGapCnt
    let s2 := if l.inGap then s1
      else
        let s3 := if (s1.rd cnt).toNat = 0 then s1.wr64 (cluOff c Reg.plnGapFirstLo) (l.issued % 2 ^ 48) else s1
        let s4 := (s3.count cnt 1).underrunMark c v.seg
        { s4 with plan := { s4.plan with gapped := true } }
    s2.wr64 (cluOff c Reg.plnGapLenLo) ((s2.rd64 (cluOff c Reg.plnGapLenLo) + 1) % 2 ^ 48)

/-- One vector leaves for the pins with its markers: its lane word, its start T, its pin states and the context that its results will carry
(R30, R196, R271). -/
def State.issueVec (s : State) (c : Nat) (v : Vec) (m : Marks) : State :=
  let w := laneWord v m
  let sM := s.applyMarker c w (320 * (s.lane c).pad + (s.lane c).t)
  let s0 := sM.gapAccount c v
  let l := s0.lane c
  let ex := (List.range 16).map (s0.expandPin c w l.prevPins)
  let pins := ex.map (fun e => e.1)
  let s1 := (List.range 16).foldl (fun t k => t.raiseIf ((ex.getD k (2, false)).2) (chOff (16 * c + k) Reg.tgFlags) 2) s0
  let s2 := ((chansOf c).foldl State.wmonClear s1).wrB (cluOff c Reg.ddsStatus) 0 false
  let n := sM.matchCount c v.tset (if bitOf l.flMatch 31 then l.flMatch else 0) pins
  let iv : IssVec := { no := l.issued, word := w, t := l.t, tset := v.tset, seg := l.place.seg, play := l.place.plays, pins := pins, gen := v.gen,
                       masked := sM.siteMask, tables := if pins.contains 0xC then (chansOf c).map s0.actTable else [],
                       prev := if pins.contains 0xC then l.prevPins else [], pad := l.pad }
  s2.modLane c (fun k =>
    { k with issued := l.issued + 1, t := (l.t + sM.period c v.tset) % 2 ^ 64, prevPins := (List.range 16).map (fun i =>
               let p := pins.getD i 2; if p = 0xA then 0xC else p),
             formQ := k.formQ ++ [iv], strobes := if k.ldstb then k.strobes ++ [l.issued] else k.strobes, ldstb := false,
             verdicts := if n = 0 then k.verdicts else k.verdicts ++ [{ pad := l.pad, no := l.issued, left := n, any := false, pass := true }] })

/-- The vector at the front of the queue is issued with its markers; an empty queue is filled under HOLD, ends the part
under ABORT, and after the part's end is completed to a granule (R173, R189, R191). -/
def State.issueNext (s : State) (c : Nat) : State :=
  let l := s.lane c
  if ¬ l.live then s
  else
    let r := frontMarkers noMarks l.queue
    let put := fun (rest : List Item) (v : Vec) (left : Nat) =>
      ((s.modLane c (fun k => { k with queue := rest, fillLeft := left })).issueVec c v r.1)
    if l.fillLeft ≠ 0 then put r.2 (l.keepVec true) (l.fillLeft - 1)
    else
      match r.2 with
      | .vec v :: t => put t v 0
      | .token _ :: _ => s
      | .marker _ _ _ :: _ => s
      | [] =>
        if l.ended then (if l.issued % 64 = 0 then s else put [] (l.keepVec false) 0)
        else if s.plan.abort then s.underrunAbort c
        else put [] (l.keepVec true) (63 - l.issued % 64)

/-- VECTOR_ISSUE, with what the reads of the lane's queues and tables find (R442, R443). -/
def State.vectorIssue (s : State) (c : Nat) (ecc : Ecc) : State :=
  if ¬ (s.lane c).live then s
  else
    match ecc with
    | .tableDouble r => s.tablesLost c r.val
    | .tableSingle => s.eccCorrected.issueNext c
    | _ => s.issueNext c

/-- LANE_IDLE: the ended lane has issued its last vector (R173). -/
def State.laneGoesIdle (s : State) (c : Nat) : State :=
  let l := s.lane c
  let z := s.seq c
  if l.live ∧ l.ended ∧ l.fill = 0 ∧ l.issued % 64 = 0 ∧ z.st ≠ 4 then
    let s1 := s.wrB (cluOff c Reg.ddsStatus) 0 false
    (s1.setLane c { l with live := false, queue := [], jump := if l.due = 0 then none else l.jump }).setSeq c { z with st := 0, holdWhy := .none }
  else s

/-! ### Jumps (R175, R176) -/

/-- JUMP_REQUEST_LATCH in lane `c`: a lane that is idle under R173 discards the request; a lane whose start is still to fall, or whose ended
part drains, latches it (R175; DEDUCED, log 94). -/
def State.jumpRequest (s : State) (c n : Nat) : State :=
  let l := s.lane c
  if s.laneIdle c then s
  else if l.table.length ≤ n then s.raise (cluOff c Reg.plnFlags) 2
  else
    let s1 := if l.jump.isSome then s.countF (cluOff c Reg.plnJumpCnt) 15 0 1 else s
    (s1.modLane c (fun k => { k with jump := some n })).wrF (cluOff c Reg.plnJump) 11 0 n

/-- A jump request reaches the lanes of a mask. -/
def State.jumpAll (s : State) (mask n : Nat) : State := (lanesOf mask).foldl (fun t c => t.jumpRequest c n) s

/-- JUMP (R175, R432). -/
def State.cmdJump (s : State) : State := s.runCmd 0x04 (fun c t => (t.jumpAll c.arg0 (c.arg1 % 4096)).complete c St.ok 0 0)

/-- STOP (R141, R174, R432): STOP is raised in the master; where the master's part has already ended, its lanes are stopped. -/
def State.cmdStop (s : State) : State :=
  s.runCmd 0x02 (fun c t =>
    let t1 :=
      if ¬ t.planBusy then t
      else if (t.seq 32).inPart then t.pendLine 32 1
      else ({ t with plan := { t.plan with stopped := true } } : State).planStop
    t1.complete c St.ok 0 0)

/-! ### Volatile slots (R157, R158, R433) -/

/-- PLN_SLOT_LO and PLN_SLOT_HI. -/
def State.slotRegs (s : State) : State :=
  s.wr64 Reg.plnSlotLo (ofBits ((List.range 64).filter (fun n => Tbl.get (fun _ => 0) s.plan.slots n != 0)))

/-- The slot holds the plan that runs or loads. -/
def State.slotRuns (s : State) (n : Nat) : Bool := s.planBusy && s.rdB Reg.plnState 16 && s.rdF Reg.plnState 15 10 == n

/-- A slot holds plan `x`, or nothing where `x` is none. -/
def State.setSlot (s : State) (n : Nat) (x : Option Nat) (len : Nat) : State :=
  { s with plan := { s.plan with slots := Tbl.set (fun _ => 0) s.plan.slots n (match x with | some p => p + 1 | none => 0),
                                 lens := Tbl.set (fun _ => 0) s.plan.lens n len } }

/-- STAGE: `data` is what the host memory at HADDR holds, none for a read error. -/
def State.cmdStage (s : State) (data : Option (List Byte)) : State :=
  s.runCmd 0x03 (fun c t =>
    let n := c.arg0 % 64
    if 0x40000 < c.len then t.complete c 0x03 0 0
    else if t.slotRuns n then t.complete c St.busy 0 0
    else if c.len = 0 then ((t.setSlot n none 0).slotRegs).complete c St.ok 0 0
    else
      match data with
      | none => t.complete c St.dmaError 0 0
      | some d =>
        let t1 := t.dramWr (slotBase n) (d.take (16 * c.len))
        let p : PlanRef := { base := slotBase n, len := 16 * c.len, slot := some n }
        let len := t1.planLe p 8 4
        if t1.planFormatBad p ∨ (len + 15) / 16 ≠ c.len then t.complete c 0x02 0 0
        else
          let x := t1.planLe p 6 2
          let same := (List.range 64).filter (fun i => i != n && Tbl.get (fun _ => 0) t1.plan.slots i == x + 1)
          if same.any t1.slotRuns then t.complete c St.busy 0 0
          else
            let t2 := same.foldl (fun u i => u.setSlot i none 0) t1
            ((t2.setSlot n (some x) (16 * c.len)).slotRegs).complete c St.ok 0 0)

/-! ### Sluice rings (R183, R184, R433) -/

/-- A STREAM runs on lane `c`. -/
def State.streaming (s : State) (c : Nat) : Bool := s.hst.bg.any (fun b => b.cmd.opcode == 0x05 && b.cmd.arg0 % 32 == c)

/-- `n` blocks are posted: CREDITS falls and NEXT_POST advances (R184). -/
def State.postBlocks (s : State) (c n : Nat) : State :=
  let o := cluOff c Reg.plnSluice
  let size := s.rdF (cluOff c Reg.plnSluiceSize) 8 0
  let s1 := s.wrF o 24 16 (s.rdF o 24 16 - n)
  let s2 := s1.wrF (cluOff c Reg.plnSluicePos) 7 0 ((s1.rdF (cluOff c Reg.plnSluicePos) 7 0 + n) % size)
  s2.modLane c (fun l => { l with slBlocks := l.slBlocks + n })

/-- SLUICE_POST (R184, R433). -/
def State.sluicePost (s : State) (c : Nat) (v : W32) : State :=
  let n := fieldOf v 8 0
  if n = 0 then s
  else if s.streaming c ∨ s.rdF (cluOff c Reg.plnSluice) 24 16 < n then s.raise (cluOff c Reg.plnFlags) 1
  else s.postBlocks c n

/-- PLN_SLUICE_CONFIG_WRITE (R183). -/
def State.sluiceConfig (s : State) (c : Nat) (size : Bool) (v : W32) : State :=
  if s.planBusy ∧ s.plan.lanes.getLsbD c then s.raise (cluOff c Reg.plnFlags) 3
  else
    let s1 := if size then s.wr (cluOff c Reg.plnSluiceSize) (v &&& 0x1FF) else s.wr (cluOff c Reg.plnSluiceBase) (v &&& 0x3FFFFFF)
    let s2 := (s1.wrF (cluOff c Reg.plnSluice) 24 16 (s1.rdF (cluOff c Reg.plnSluiceSize) 8 0)).wr (cluOff c Reg.plnSluicePos) 0
    s2.modLane c (fun l => { l with slBlocks := 0, slIn := 0, creditDue := 0 })

/-- STREAM (R432, R433). -/
def State.cmdStream (s : State) : State :=
  s.runCmd 0x05 (fun c t =>
    let l := c.arg0 % 32
    if t.rdF (cluOff l Reg.plnSluiceSize) 8 0 = 0 then t.complete c St.noRing 0 0
    else if c.len % 4096 ≠ 0 then t.complete c St.lengthAlign 0 0
    else if t.streaming l then t.complete c St.busy 0 0
    else if c.len = 0 then t.complete c St.ok 0 0
    else t.bgStart c)

/-- The STREAM of lane `c` ends. -/
def State.streamEnd (s : State) (c st : Nat) : State :=
  let f := fun (b : BgCmd) => b.cmd.opcode == 0x05 && b.cmd.arg0 % 32 == c
  let l := s.hst.bg.filter f
  let s1 : State := { s with hst := { s.hst with bg := s.hst.bg.filter (fun b => !f b) } }
  l.foldl (fun t b => t.complete b.cmd st 0 b.posted) s1

/-- STREAM_BLOCK_POST: a block is copied into slot NEXT_POST and posted (R433). -/
def State.streamPost (s : State) (c : Nat) (data : Option (List Byte)) : State :=
  if s.streaming c ∧ s.rdF (cluOff c Reg.plnSluice) 24 16 ≠ 0 then
    match data with
    | none => s.streamEnd c St.dmaError
    | some d =>
      let slot := s.rdF (cluOff c Reg.plnSluicePos) 7 0
      let a := s.rdF Reg.memVecBase 14 0 * mib + 256 * (s.rdF (cluOff c Reg.plnSluiceBase) 25 0 + 256 * slot)
      let s1 := (s.dramWr a (d.take 65536)).postBlocks c 1
      let f := fun (b : BgCmd) => b.cmd.opcode == 0x05 && b.cmd.arg0 % 32 == c
      let s2 : State := { s1 with hst := { s1.hst with bg := s1.hst.bg.map (fun b => if f b then { b with posted := b.posted + 1 } else b) } }
      if s2.hst.bg.any (fun b => f b && decide (b.cmd.len / 4096 ≤ b.posted)) then s2.streamEnd c St.ok else s2
  else s

/-- CREDIT_TIMEOUT (R433). -/
def State.streamTimeout (s : State) (c : Nat) : State :=
  if s.streaming c ∧ s.rdF (cluOff c Reg.plnSluice) 24 16 = 0 then s.streamEnd c St.creditTimeout else s

/-! ### Meanings -/

/-- RUN (R170, R192). -/
def execRun (s : State) : Out := .next s.cmdRun

/-- MASTER_START (R170). -/
def execMasterStart (us : W32) (s : State) : Out := .next (s.masterStart us)

/-- STOP (R432). -/
def execStop (s : State) : Out := .next s.cmdStop

/-- STAGE (R157, R158). -/
def execStage (data : Option (List Byte)) (s : State) : Out := .next (s.cmdStage data)

/-- JUMP (R175). -/
def execJump (s : State) : Out := .next s.cmdJump

/-- STREAM (R433). -/
def execStream (s : State) : Out := .next s.cmdStream

/-- STREAM_BLOCK_POST (R433). -/
def execStreamBlockPost (c : CluId) (data : Option (List Byte)) (s : State) : Out := .next (s.streamPost c.val data)

/-- CREDIT_TIMEOUT (R433). -/
def execCreditTimeout (c : CluId) (s : State) : Out := .next (s.streamTimeout c.val)

/-- LANE_START (R171). -/
def execLaneStart (c : CluId) (cycle : Nat) (s : State) : Out := .next (s.laneStart c.val cycle)

/-- VECTOR_ISSUE (R123). -/
def execVectorIssue (c : CluId) (ecc : Ecc) (s : State) : Out := .next (s.vectorIssue c.val ecc)

/-- REFILL_BLOCK_REQUEST (R180). -/
def execRefillBlockRequest (c : CluId) (s : State) : Out := .next (s.refillRequest c.val)

/-- REFILL_BLOCK_ARRIVE (R180). -/
def execRefillBlockArrive (c : CluId) (s : State) : Out := .next (s.refillArrive c.val)

/-- A write of PLN_SLUICE.POST (R184). -/
def execSluicePost (c : CluId) (v : W32) (s : State) : Out :=
  .next (s.onWrite (cluOff c.val Reg.plnSluice) (fun t => t.sluicePost c.val v))

/-- SLUICE_CREDIT_RETURN (R185). -/
def execSluiceCreditReturn (c : CluId) (s : State) : Out := .next (s.creditReturn c.val)

/-- A write of PLN_SLUICE_BASE or PLN_SLUICE_SIZE (R183). -/
def execPlnSluiceConfigWrite (c : CluId) (size : Bool) (v : W32) (s : State) : Out :=
  .next (s.onWrite (cluOff c.val (if size then Reg.plnSluiceSize else Reg.plnSluiceBase)) (fun t => t.sluiceConfig c.val size v))

/-- LANE_IDLE (R173). -/
def execLaneIdle (c : CluId) (s : State) : Out := .next (s.laneGoesIdle c.val)

/-- ALIGNED_START (R414). -/
def execAlignedStart (cycle : Nat) (s : State) : Out := .next (s.alignedStart cycle)

/-- ALIGNED_START_TIMEOUT (R415). -/
def execAlignedStartTimeout (s : State) : Out := .next s.alignedTimeout

end Sys2Proof.Machine
end

