-- ==== Sys2Proof/Machine/Edge.lean ====
section
/-! DEFINITION. Edges and strobes (R195 to R216, R254 to R258): formation under the spacing rule, placement at the pad, strobe results
and same-cycle response. -/

namespace Sys2Proof.Machine

/-! ### Match verdicts (R266) -/

/-- Takes one result of vector `no` off the verdict under way, with its outcome where it counts and has come; the last one forms the
verdict. -/
def Lane.verdictTake (l : Lane) (pad no : Nat) (res : Option Bool) : Lane :=
  match l.verdicts.find? (fun v => v.pad == pad && v.no == no) with
  | none => l
  | some v =>
    let v1 : Verdict := { v with left := v.left - 1, any := v.any || res.isSome, pass := v.pass && res.getD true }
    if v1.left = 0 then
      { l with verdicts := l.verdicts.eraseP (fun x => x.pad == pad && x.no == no), matchV := if v1.any then v1.pass else l.matchV }
    else { l with verdicts := l.verdicts.map (fun x => if x.pad = pad ∧ x.no = no then v1 else x) }

/-- A strobe of match channel `n` with this compare half produces a result: it counts in the match verdict unless it comes as CAPTURED
(R206, R266). -/
def Lane.matchRes (l : Lane) (n : Nat) (h : CmpHalf) : Bool := bitOf l.flMatch 31 && bitOf l.flMatch (n % 16) && h != .none

/-! ### Formation (R204, R206 to R211) -/

/-- The pin state of channel `n` in an issued vector; HOLD takes the response of the SCR vector before (R169, R214). -/
def State.pinOf (s : State) (n : Nat) (iv : IssVec) : Nat :=
  let p := iv.pins.getD (n % 16) 2
  if p = 0xA then (s.chan n).resp else p

/-- Drive entries of a vector: the cell of each, with D1 merged into D0 where their codes are equal (R204, R207). `on` is the
drive half. -/
def Chan.driveEntries (k : Chan) (fmt t : Nat) (on : Bool) : List Nat :=
  let l := if on then driveCells fmt else [0]
  if l.contains 1 && k.code t 0 == k.code t 1 then l.filter (· != 1) else l

/-- What the drive entry of cell `j` does for drive half `d` (R203, R204). -/
def Chan.driveAct (k : Chan) (fmt t j : Nat) (d : Option Bool) (load : Bool) : EdgeAct :=
  match d with
  | none => .enable false none load
  | some d =>
    if j = 0 then
      .enable (fmt != 6) (if (driveCells fmt).contains 1 && k.code t 0 == k.code t 1 then some (levelAt fmt 1 d) else none) load
    else .level (levelAt fmt j d)

/-- The channel whose record keeps the spacing of channel `n`: the primary for a pair (R211). -/
def State.spacer (s : State) (n : Nat) : Nat := if s.secondary n then n - 1 else n

/-- The later of a time and a preceding limit. -/
def limitTo (lim : Option Int) (t : Int) : Int :=
  match lim with
  | some x => if t < x then x else t
  | none => t

/-- The entry of an edge of channel `n` at time `t`: its placement code, and the stage that the line's table gives its fine code now (R198,
R199, R311). -/
def State.edgeOf (s : State) (n : Nat) (iv : IssVec) (pin j : Nat) (t : Int) (act : EdgeAct) : Edge :=
  let q := t + 1024 + s.cellK n j
  { cell := j, t := t, q := q, stage := (s.chan n).stage j q, act := act, vec := iv, pin := pin }

/-- The CK_EDGE cycles that the cell counts before the edge (R198). -/
def Edge.coarse (e : Edge) : Int := e.q / 320

/-- The vernier's part of the placement code (R198). -/
def Edge.fine (e : Edge) : Nat := (e.q % 320).toNat

/-- The time of an edge or strobe at the pad, in grid steps from CK_EDGE cycle 0 (R196, R197). -/
def Edge.padTime (e : Edge) : Int := (320 * e.vec.pad : Nat) + e.t

/-- Forms one drive entry of channel `n` (R207). -/
def State.formDrive (s : State) (n : Nat) (iv : IssVec) (pin j : Nat) (act : EdgeAct) : State :=
  let p := s.spacer n
  let t0 : Int := (iv.t : Int) + (s.chan n).code iv.tset j
  let t := limitTo ((s.chan p).lastDrive.map (· + s.gapD n)) t0
  let s1 := s.raiseIf (decide (t ≠ t0)) (chOff n Reg.tgFlags) 0
  let s2 := s1.modChan p (fun k => { k with lastDrive := some t })
  s2.modChan n (fun k => { k with queue := k.queue ++ [s.edgeOf n iv pin j t act] })

/-- Forms one strobe entry of channel `n` (R207, R211). -/
def State.formStrobe (s : State) (n : Nat) (iv : IssVec) (pin : Nat) (s1 : Bool) : State :=
  let p := s.spacer n
  let j := if s1 then 5 else 4
  let win := strobeMode (s.modeByte n iv.tset) s1 == 2
  let t0 : Int := (iv.t : Int) + (s.chan n).code iv.tset j
  let gap : Int := if s.paired n then 160 else 320
  let own := if s1 then (s.chan n).close1 else (s.chan n).close0
  let t := limitTo (own.map (· + 320)) (limitTo ((s.chan p).lastClose.map (· + gap)) t0)
  let close := t + (if win then s.window n s1 else 0)
  let sA := s.raiseIf (decide (t ≠ t0)) (chOff n Reg.tgFlags) 0
  let sB := sA.modChan p (fun k => { k with lastClose := some close })
  sB.modChan n (fun k =>
    { k with queue := k.queue ++ [s.edgeOf n iv pin j t (.strobe win)], close0 := if s1 then k.close0 else some close, close1 := if s1 then some close else k.close1 })

/-- Strobes of set `t` on channel `n` that are not off. -/
def State.strobesOf (s : State) (n t : Nat) : List Bool := [false, true].filter (fun b => strobeMode (s.modeByte n t) b != 0)

/-- A strobe S0 has sampled the sense bit of a vector that some channel answers (R213). -/
def State.senseAdd (s : State) (n : Nat) (iv : IssVec) (bit indet : Bool) (t : Int) : State :=
  if iv.tables = [] then s
  else s.modChan n (fun k => { k with sense := k.sense ++ [{ pad := iv.pad, no := iv.no, bit := bit, indet := indet, t := t }] })

/-- Back-pressure: every edge and strobe of the vector is lost on channel `n` (R209). -/
def State.formLost (s : State) (n : Nat) (iv : IssVec) (pin : Nat) (strobes : List Bool) : State :=
  let s1 := s.raise (chOff n Reg.tgFlags) 4
  let h := cmpHalf pin
  let s2 := if (s.lane (n / 16)).matchRes n h then strobes.foldl (fun t _ => t.modLane (n / 16) (fun l => l.verdictTake iv.pad iv.no none)) s1 else s1
  if strobes.contains false then s2.senseAdd n iv false false ((iv.t : Int) + (s.chan n).code iv.tset 4) else s2

/-- Vectors that every channel of the lane has formed leave it. -/
def State.formDrop (s : State) (c : Nat) : State :=
  let l := s.lane c
  s.setLane c { l with formQ := l.formQ.filter (fun v => (chansOf c).any (fun n => decide ((s.chan n).formed ≤ v.no))) }

/-- Forms the entries of vector `iv` in channel `n` (R207, R209). -/
def State.formVec (s : State) (n : Nat) (iv : IssVec) : State :=
  let k := s.chan n
  let pin := s.pinOf n iv
  let fmt := fmtOf (s.modeByte n iv.tset)
  let scr := pin == 0xC
  let d := driveHalf pin
  let cells := k.driveEntries fmt iv.tset (scr || d.isSome)
  let strobes := s.strobesOf n iv.tset
  let fill := k.queue.length + cells.length + strobes.length
  let s0 := s.modChan n (fun k => { k with formed := iv.no + 1 })
  let s1 :=
    if 256 < fill then s0.formLost n iv pin strobes
    else
      let sA := cells.foldl (fun t j => t.formDrive n iv pin j (if scr then .open_ else k.driveAct fmt iv.tset j d (loadHalf pin))) s0
      let sB := strobes.foldl (fun t b => t.formStrobe n iv pin b) sA
      let sC := if scr then sB.modChan n (fun k => { k with scrWait := k.scrWait ++ [iv] }) else sB
      sC.wrF (chOff n Reg.tgQueue) 24 16 (max (sC.rdF (chOff n Reg.tgQueue) 24 16) fill)
  s1.formDrop (n / 16)

/-- Channel `n` can form vector `iv`: its pair's order is kept, and a HOLD after an SCR vector has its lookup behind it (DEDUCED, log 39). -/
def State.canForm (s : State) (n : Nat) (iv : IssVec) : Bool :=
  (if s.primary n then (s.chan (n + 1)).formed == (s.chan n).formed
   else if s.secondary n then (s.chan (n - 1)).formed == (s.chan n).formed + 1 else true) &&
    (iv.pins.getD (n % 16) 2 != 0xA || (s.chan n).scrWait.isEmpty)

/-- EDGE_FORMATION: the formatter of channel `n` forms the next vector. -/
def State.edgeForm (s : State) (n : Nat) : State :=
  match (s.lane (n / 16)).formQ.find? (fun v => v.no == (s.chan n).formed) with
  | some iv => if s.canForm n iv then s.formVec n iv else s
  | none => s

/-! ### Placement (R198, R203 to R205, R210, R235) -/

/-- The first entry of a queue that a test accepts, and the queue without it. -/
def takeFirst (p : Edge → Bool) : List Edge → Option (Edge × List Edge)
  | [] => none
  | e :: t =>
    if p e then some (e, t)
    else match takeFirst p t with
      | some (x, r) => some (x, e :: r)
      | none => none

/-- A register of a level set. -/
def LevelSet.val (l : LevelSet) (o : Nat) : W32 :=
  match l.find? (fun e => e.1 == o) with
  | some e => e.2
  | none => 0

/-- Sounding or calibration holds the pad of channel `n` (R337, R380). -/
def State.padHeld (s : State) (n : Nat) : Bool := s.rdB (chOff n Reg.pmuStatus) 5

/-- SND_STATUS.PHASE. -/
def State.sndPhase (s : State) : Nat := s.rdF Reg.sndStatus 18 16

/-- A tested channel of R381. -/
def State.tested (s : State) (n : Nat) : Bool := (s.siteOf n).isSome && !s.secondary n

/-- The contact test runs in channel `n`. -/
def State.contactOn (s : State) (n : Nat) : Bool := s.sounding && s.sndPhase == 3 && s.tested n

/-- The settings of the contact test in channel `n` (R383). -/
def State.contactSet (s : State) (n : Nat) : LevelSet :=
  let lim := s.rd (chOff n Reg.pmuLimitV)
  [(Reg.pmuForce, pack [(16, 0xC000)]), (Reg.pmuClampV, pack [(0, fieldOf lim 15 0), (16, min 0x5000 (fieldOf lim 31 16))]),
   (Reg.pmuCfg, pack [(0, 2), (4, 2), (16, 2500)]), (Reg.pmuFilt, pack [(0, 25), (12, 1)])]

/-- A register of the parametric unit's set that is in force: the active set's, or what sounding or calibration sets while it holds the pad:
the contact test's, else 0, which is OFF. -/
def State.pmuInForce (s : State) (n o : Nat) : W32 :=
  if s.padHeld n then (if s.contactOn n then (s.contactSet n).val o else 0) else s.rd (chOff n (o + 0x40))

/-- PMU_CFG in force. -/
def State.pmuCfg (s : State) (n : Nat) : W32 := s.pmuInForce n Reg.pmuCfg

/-- The parametric mode in force (R317). -/
def State.pmuMode (s : State) (n : Nat) : Nat := fieldOf (s.pmuCfg n) 2 0

/-- The TIP step of a calibration runs (R467). -/
def State.tipStep (s : State) : Bool := match s.cal.run with | some r => r.left.head? == some 5 | none => false

/-- Channel `n` runs the settings of R385: in a TDR half a tested channel with contact, in the TIP step every channel that calibration holds. A
secondary's driver joins its primary's (R239). -/
def State.tdrOn (s : State) (n : Nat) : Bool :=
  let x := s.spacer n
  s.padHeld x &&
    (if s.sounding then (s.sndPhase == 4 || s.sndPhase == 5) && s.tested x && (Tbl.get (fun _ => sndResNone) s.snd.res x).contact == 1
     else s.tipStep)

/-- The pin slice's settings of R385; VCOM, of a load that is off, and the ramp are at reset. -/
def tdrSet : LevelSet :=
  [(Reg.peVil, 0x3000), (Reg.peVih, 0x3CCD), (Reg.peVol, 0x4333), (Reg.peVoh, 0x3666), (Reg.peVcom, 0x3000), (Reg.peCfg, pack [(2, 10)])]

/-- A register of the pin slice's set that is in force at the pad: the active set's, or that of R385. -/
def State.pinInForce (s : State) (n o : Nat) : W32 := if s.tdrOn n then tdrSet.val o else s.rd (chOff n (o + 0x40))

/-- The drivers and the load of channel `n` act at its pad: it is not parked, in no range change, and its parametric unit is OFF (R228, R230,
R231, R318). -/
def State.padOn (s : State) (n : Nat) : Bool :=
  !s.rdB (chOff n Reg.peStatus) 0 && !s.rdB (chOff n Reg.peStatus) 2 && s.pmuMode n == 0

/-- The source of the high-speed driver of channel `n`: 0 formatter, 1 DDS, 2 clock mode; a secondary's is its primary's (R27, R239). -/
def State.hsSource (s : State) (n : Nat) : Nat := s.rdF (chOff (s.spacer n) Reg.peStatus) 11 10

/-- The formatter drives the selected driver of channel `n`: the large-swing driver always, the high-speed driver while it is its source
(R206, R238). -/
def State.fmtDrives (s : State) (n : Nat) : Bool := s.lsd n || s.hsSource n == 0

/-- The selected driver of channel `n` is on (PE_STATUS.DRV_ON). The DDS engine and the clock-mode generator turn no driver off (DEDUCED,
log 97). While the pad is held, the driver is on in the TDR settings alone (R385; DESIGN CHOICE, log 99). -/
def State.driverOn (s : State) (n : Nat) : Bool :=
  s.padOn n && (if s.padHeld n then s.tdrOn n else !s.fmtDrives n || (s.chan (s.spacer n)).drive)

/-- The active load of channel `n` is on (PE_STATUS.LOAD_ON; R205, R230, R248); it is off in the settings of R385. -/
def State.loadOn (s : State) (n : Nat) : Bool := s.padOn n && !s.padHeld n && (s.chan n).loadOn

/-- A level edge of the formatter: the held level follows, and a change starts pre-emphasis where the edge acts on the high-speed driver
at the pad (R204, R206, R231, R235). `turnOn` is edge D0 turning the driver on. -/
def State.driveLevel (s : State) (x : Nat) (v turnOn : Bool) (t : Int) : State :=
  let hs := s.padOn x && !s.padHeld x && s.hsSource x == 0 && !s.lsd x
  s.modChan x (fun k =>
    { k with held := v, level := v, tapAt := if hs && k.drive && (turnOn || k.level != v) then some (t, v) else k.tapAt })

/-- A drive edge of channel `n` acts at its pad; a secondary's acts at its primary's (R210, R240). -/
def State.placeDrive (s : State) (n : Nat) (e : Edge) : State :=
  let x := s.spacer n
  match e.act with
  | .enable on level load =>
    let was := (s.chan x).drive
    let s1 := s.modChan x (fun k => { k with drive := on, loadOn := if x = n then load else k.loadOn })
    if on then s1.driveLevel x (level.getD (s1.chan x).held) (!was) e.padTime else s1
  | .level v => s.driveLevel x v false e.padTime
  | .strobe _ => s
  | .open_ => s

/-- The edge leaves the queue `r` behind, and its cell places it: coarse count and delay stage (R198, R207, R311). A strobe's line accepts no
transition in that CK_EDGE cycle (R288). -/
def State.edgeLeaves (s : State) (n : Nat) (e : Edge) (r : List Edge) : State :=
  s.modChan n (fun k =>
    { k with queue := r, placed := some (e.cell, e.coarse, e.stage),
             strobeAt := if e.cell < 4 then k.strobeAt else Tbl.set (fun _ => 0) k.strobeAt e.cell ((e.vec.pad : Int) + e.coarse + 1).toNat })

/-- EDGE_PLACEMENT: the first drive edge in the queue of channel `n` is placed. -/
def State.edgePlace (s : State) (n : Nat) : State :=
  match takeFirst (fun e => decide (e.cell < 4)) (s.chan n).queue with
  | some (e, r) => if e.act = .open_ then s else (s.edgeLeaves n e r).placeDrive n e
  | none => s

/-! ### Strobes (R206, R211, R213, R232, R243, R254 to R258) -/

/-- The comparator outputs of channel `n` (R241). -/
def State.cmpNow (s : State) (n : Nat) : CmpPair := { hi := s.rdB (chOff n Reg.peStatus) 6, lo := s.rdB (chOff n Reg.peStatus) 7 }

/-- A strobe of channel `n` would be indeterminate now (R232, R243). -/
def State.indetNow (s : State) (n : Nat) : Bool :=
  let x := s.cmpChan n
  s.rdB (chOff n Reg.peStatus) 2 || s.rdB (chOff x Reg.peStatus) 2 || s.rdF (chOff x Reg.peStatus) 5 4 != 0

/-- The result word of a strobe with compare half `h` over its observed states (R255 to R258). -/
def strobeWord (h : CmpHalf) (obs : List CmpPair) (last : CmpPair) (indet : Bool) : Nat :=
  if indet then 2
  else if h = .capture then resultWordOf last.hi last.lo 3
  else
    match obs.find? (fun o => !passes h o) with
    | some o => resultWordOf o.hi o.lo 1
    | none => resultWordOf last.hi last.lo 0

/-- Puts a result in its place among those on their way: by CK_VEC cycle, then by channel, S0 before S1 (R264, R269). -/
def insertResult (r : Result) : List Result → List Result
  | [] => [r]
  | a :: t =>
    if r.cycle < a.cycle ∨ (r.cycle = a.cycle ∧ 2 * r.ch + b2n r.s1 < 2 * a.ch + b2n a.s1) then r :: a :: t else a :: insertResult r t

/-- A result goes to the fail logic, the trigger engine and the capture (R31, R341, R347). -/
def State.deliver (s : State) (r : Result) (time : Int) : State :=
  let c := r.ch / 16
  let s1 := s.modLane c (fun l => { l with results := insertResult r l.results })
  let s2 := s1.acqIn c { src := 1, ch := r.ch % 16, sel := r.word % 4, s1 := r.s1, time := some time, interp := 1 }
  s2.acqOffer c (fun a => { a with strobes := a.strobes ++ [{ no := r.vec.no, s1 := r.s1, ch := r.ch % 16, word := r.word }] })

/-- A window strobe opens: its edge is placed at its nominal time and the watch begins (R206, R207). -/
def State.strobeOpen (s : State) (n : Nat) (s1 : Bool) : State :=
  match takeFirst (fun e => e.cell == if s1 then 5 else 4) (s.chan n).queue with
  | none => s
  | some (e, r) =>
    if e.act = .strobe true then (s.edgeLeaves n e r).modChan n (fun k => { k with watch := k.watch ++ [(e, s.indetNow n)] }) else s

/-- The result of strobe `e` of channel `n`, whose edge at the pad is at `edge` in grid steps; `trace` are the states that a window has seen
before its close, and `indet` that an earlier instant of it was indeterminate. -/
def State.strobeResult (s : State) (n : Nat) (e : Edge) (edge : Int) (trace : List CmpPair) (indet : Bool) : State :=
  let s1 := e.cell == 5
  let win := decide (e.act = .strobe true)
  let now := s.cmpNow (s.cmpChan n)
  let ind := s.indetNow n || indet
  let h := cmpHalf e.pin
  let sB := if s1 then s else s.senseAdd n e.vec (now.hi && !ind) ind e.t
  if h = .none then sB
  else
    let w := strobeWord h (if win then trace ++ [now] else [now]) now ind
    sB.deliver { cycle := edge / 2560, ch := n, s1 := s1, win := win, vec := e.vec, pin := e.pin, word := w }
      ((320 * e.vec.pad + e.vec.t : Nat) + (s.chan n).code e.vec.tset e.cell : Int)

/-- STROBE of cell S0 or S1 of channel `n`. With `opens`, its next window strobe opens. Else a window strobe that is open closes: it has seen
the states `trace` since its open, and the present ones at its close (R256, R257; DEDUCED, log 40); with none open, its next edge
strobe samples the comparator outputs. -/
def State.strobe (s : State) (n : Nat) (s1 opens : Bool) (trace : List CmpPair) : State :=
  let cell := if s1 then 5 else 4
  if opens then s.strobeOpen n s1
  else
    match (s.chan n).watch.find? (fun x => x.1.cell == cell) with
    | some (e, ind) =>
      (s.modChan n (fun k => { k with watch := k.watch.eraseP (fun x => x.1.cell == cell) })).strobeResult n e
        (e.padTime + s.window n s1) trace ind
    | none =>
      match takeFirst (fun e => e.cell == cell) (s.chan n).queue with
      | none => s
      | some (e, r) => if e.act = .strobe true then s else (s.edgeLeaves n e r).strobeResult n e e.padTime trace false

/-! ### Same-cycle response (R212 to R216) -/

/-- The sources of channel `n`'s response: its own sense bit, and A, B and C where enabled (R201, R213). -/
def State.scrSrc (s : State) (n : Nat) : List (Option Nat) :=
  let v := s.rd (chOff n Reg.tgScrSrc)
  let src := fun (i : Nat) => if bitOf v (12 + i) then some (16 * (n / 16) + fieldOf v (4 * i + 3) (4 * i)) else none
  [some n, src 0, src 1, src 2]

/-- The sense of one source in vector `no`: none while its strobe S0 is still to come; a source that is off, or whose S0 is off,
gives 0 at no time (R213). -/
def State.senseOf (s : State) (iv : IssVec) (src : Option Nat) : Option (Bool × Bool × Option Int) :=
  match src with
  | none => some (false, false, none)
  | some m =>
    if strobeMode (s.modeByte m iv.tset) false = 0 then some (false, false, none)
    else ((s.chan m).sense.find? (fun x => x.pad == iv.pad && x.no == iv.no)).map (fun x => (x.bit, x.indet, some x.t))

/-- The drive half that entry `e` of a response table gives: 0 low, 1 high, 2 off; HOLD takes the previous one (R214). -/
def respHalf (e prev : Nat) : Nat :=
  let h := fun p => match driveHalf p with | some false => 0 | some true => 1 | none => 2
  if e = 0xA then h prev else if e = 0xC then 2 else h e

/-- What `fillResponse` answers: the queue, its last drive edge, and how many edges R216 and the spacing rule have moved. -/
structure Filled where
  queue : List Edge
  last  : Option Int
  late  : Nat
  moved : Nat
  deriving DecidableEq, Repr

/-- Fills the entries of an answered vector `iv` and moves an edge that breaks R216 or the spacing rule (R208): `lim` is the earliest response
edge, `gap` GAP_D, `stage` the stage of a placement code, and the last argument but one the drive edge before. -/
def fillResponse (iv : IssVec) (lim : Option Int) (gap : Int) (act : Nat → EdgeAct) (on : Bool) (stage : Nat → Int → Nat) :
    Option Int → List Edge → Filled
  | last, [] => { queue := [], last := last, late := 0, moved := 0 }
  | last, e :: r =>
    if e.cell < 4 then
      let mine := e.vec.pad = iv.pad ∧ e.vec.no = iv.no ∧ e.act = .open_
      if mine ∧ ¬ on ∧ e.cell ≠ 0 then fillResponse iv lim gap act on stage last r
      else
        let t1 := if mine then limitTo lim e.t else e.t
        let t2 := limitTo (last.map (· + gap)) t1
        let q := e.q + (t2 - e.t)
        let e1 : Edge := { e with act := if mine then act e.cell else e.act, t := t2, q := q, stage := if t2 = e.t then e.stage else stage e.cell q }
        let x := fillResponse iv lim gap act on stage (some t2) r
        { queue := e1 :: x.queue, last := x.last, late := x.late + (if t1 ≠ e.t then 1 else 0), moved := x.moved + (if t2 ≠ t1 then 1 else 0) }
    else
      let x := fillResponse iv lim gap act on stage last r
      { x with queue := e :: x.queue }

/-- The latest of some times. -/
def latest (l : List (Option Int)) : Option Int :=
  l.foldl (fun a x => match a, x with | some a, some x => some (if a < x then x else a) | none, x => x | a, none => a) none

/-- Sense bits up to those of vector `iv` that no channel of the cluster will look up again are forgotten. -/
def State.senseDrop (s : State) (c : Nat) (iv : IssVec) : State :=
  let upTo := fun pad no => decide (pad < iv.pad ∨ (pad = iv.pad ∧ no ≤ iv.no))
  if (chansOf c).any (fun n => (decide ((s.lane c).pad = iv.pad) && decide ((s.chan n).formed ≤ iv.no)) ||
      (s.chan n).scrWait.any (fun v => upTo v.pad v.no)) then s
  else (chansOf c).foldl (fun t n => t.modChan n (fun k => { k with sense := k.sense.filter (fun x => !upTo x.pad x.no) })) s

/-- The lookup of vector `iv` in channel `n` with its four senses. -/
def State.respond (s : State) (n : Nat) (iv : IssVec) (ss : List (Bool × Bool × Option Int)) : State :=
  let k := s.chan n
  let idx := ((ss.zip [1, 2, 4, 8]).map (fun x => if x.1.1 then x.2 else 0)).sum
  let tab := (iv.tables.getD (n % 16) 0x2222222222222222#64).toNat
  let e := (tab >>> (4 * idx)) % 16
  let p := iv.prev.getD (n % 16) 2
  let half := respHalf e (if p = 0xC then k.resp else p)
  let d := driveHalf half
  let fmt := fmtOf (s.modeByte n iv.tset)
  let lim := (latest (ss.map (fun x => x.2.2))).map (· + 5735)
  let f := fillResponse iv lim (s.gapD n) (fun j => k.driveAct fmt iv.tset j d false) d.isSome k.stage none k.queue
  let s1 := s.raiseIf (ss.any (fun x => x.2.1)) (chOff n Reg.tgFlags) 1
  let s2 := (List.range f.late).foldl (fun t _ => t.raise (chOff n Reg.tgFlags) 3) s1
  let s3 := (List.range f.moved).foldl (fun t _ => t.raise (chOff n Reg.tgFlags) 0) s2
  let s4 := s3.modChan n (fun k => { k with queue := f.queue, resp := half, scrWait := k.scrWait.tail, lastDrive := latest [k.lastDrive, f.last] })
  s4.senseDrop (n / 16) iv

/-- RESPONSE_LOOKUP: the oldest SCR vector of channel `n` is answered once its sense bits have been sampled. -/
def State.respLookup (s : State) (n : Nat) : State :=
  match (s.chan n).scrWait with
  | [] => s
  | iv :: _ =>
    let ss := (s.scrSrc n).map (s.senseOf iv)
    if ss.all Option.isSome then s.respond n iv (ss.map (fun x => x.getD (false, false, none))) else s

/-! ### Meanings -/

/-- EDGE_FORMATION (R207). -/
def execEdgeFormation (ch : ChId) (s : State) : Out := .next (s.edgeForm ch.val)

/-- EDGE_PLACEMENT (R198). -/
def execEdgePlacement (ch : ChId) (s : State) : Out := .next (s.edgePlace ch.val)

/-- STROBE (R206, R254). -/
def execStrobe (ch : ChId) (s1 opens : Bool) (trace : List CmpPair) (s : State) : Out :=
  .next (s.strobe ch.val s1 opens trace)

/-- RESPONSE_LOOKUP (R214). -/
def execResponseLookup (ch : ChId) (s : State) : Out := .next (s.respLookup ch.val)

end Sys2Proof.Machine
end

