-- ==== Sys2Proof/Machine/PinFront.lean ====
section
/-! DEFINITION. The pin front end (R220 to R253), with the part that the parametric unit has in the load strobe (R317 to R328): staging
and active sets, load strobes, range changes, ramps, comparators, window monitors and the monitor converter. -/

namespace Sys2Proof.Machine

/-! ### Level sets (R222, R321) -/

/-- Channel offsets of the staging registers: the pin slice's ten and the parametric unit's five. -/
def stagingRegs : List Nat :=
  [Reg.peVil, Reg.peVih, Reg.peVol, Reg.peVoh, Reg.peVcom, Reg.peIload, Reg.peCfg, Reg.peTaps, Reg.peRampSlope, Reg.peRampLen,
   Reg.pmuForce, Reg.pmuClampV, Reg.pmuClampI, Reg.pmuCfg, Reg.pmuFilt]

/-- The staging set of a channel. -/
def State.staged (s : State) (n : Nat) : LevelSet := stagingRegs.map (fun o => (o, s.rd (chOff n o)))

/-- The active set of a channel, under the offsets of the staging registers. -/
def State.active (s : State) (n : Nat) : LevelSet := stagingRegs.map (fun o => (o, s.rd (chOff n (o + 0x40))))

/-- Makes a set the active one. -/
def State.setActive (s : State) (n : Nat) (l : LevelSet) : State :=
  stagingRegs.foldl (fun t o => t.wr (chOff n (o + 0x40)) (l.val o)) s

/-! ### Staging writes (R223, R322) -/

/-- A value that a write of staging register `o` of the pin slice may take (R223). -/
def State.peLegal (s : State) (n o : Nat) (v : W32) : Bool :=
  let lv := s.rd (chOff n Reg.peLimitV)
  let lc := s.rd (chOff n Reg.peLimitCfg)
  if o = Reg.peVil ∨ o = Reg.peVih ∨ o = Reg.peVcom then inRange (fieldOf lv 15 0) (fieldOf lv 31 16) (fieldOf v 15 0)
  else if o = Reg.peIload then decide (fieldOf v 15 0 ≤ fieldOf lc 15 0 ∧ fieldOf v 31 16 ≤ fieldOf lc 15 0)
  else if o = Reg.peCfg then decide (fieldOf v 7 2 ≤ 50) && decide (fieldOf v 9 8 ≤ 2) && (!bitOf v 0 || bitOf lc 16)
  else if o = Reg.peTaps then fieldOf v 31 16 == 0 || inRange 160 2560 (fieldOf v 31 16)
  else if o = Reg.peRampSlope then decide (-0x1000000 ≤ v.toInt ∧ v.toInt ≤ 0x1000000)
  else true

/-- A value that a write of staging register `o` of the parametric unit may take (R322). -/
def State.pmuLegal (s : State) (n o : Nat) (v : W32) : Bool :=
  if o = Reg.pmuCfg then decide (fieldOf v 2 0 ≤ 5) && decide (fieldOf v 6 4 ≤ s.rdF (chOff n Reg.pmuLimitCfg) 2 0)
  else if o = Reg.pmuFilt then inRange 2 3125 (fieldOf v 11 0) && inRange 4 16 (fieldOf v 20 16)
  else true

/-- A host write of staging register `o`: taken, or refused whole with VALUE_REJECT. -/
def State.stagingWrite (s : State) (n o : Nat) (v : W32) : State :=
  if o < 0x400 then
    if s.peLegal n o v then s.plainWrite (chOff n o) v else s.raise (chOff n Reg.peFlags) 0
  else if s.pmuLegal n o v then s.plainWrite (chOff n o) v else s.raise (chOff n Reg.pmuFlags) 0

/-! ### The check of a captured set (R226, R234 to R240, R247, R248, R323) -/

/-- The driver, tap, ramp and load rules. -/
def State.pinRulesBad (s : State) (n : Nat) (l : LevelSet) : Bool :=
  let cfg := l.val Reg.peCfg
  let code := fun o => fieldOf (l.val o) 15 0
  let taps := l.val Reg.peTaps
  let swing := max (code Reg.peVih - code Reg.peVil) (code Reg.peVil - code Reg.peVih)
  (!bitOf cfg 0 && (!inRange 0x1000 0x9999 (code Reg.peVil) || !inRange 0x1000 0x9999 (code Reg.peVih) ||
      decide ((if s.primary n then 26214 else 13107) < swing))) ||
    (decide (fieldOf taps 15 0 ≠ 0) && decide (fieldOf taps 31 16 = 0)) ||
    (!bitOf cfg 0 && bitOf cfg 12 && !inRange 0x1000 0x9999 (code Reg.peVcom)) ||
    (decide (l.val Reg.peRampSlope ≠ 0) && decide (fieldOf cfg 11 10 = 0)) ||
    !inRange 0x1000 0xD000 (code Reg.peVcom) ||
    (decide (l.val Reg.peIload ≠ 0) && !s.rdB (chOff n Reg.peLimitCfg) 17)

/-- The rules of the parametric unit (R323). -/
def State.pmuRulesBad (s : State) (n : Nat) (l : LevelSet) : Bool :=
  let mode := fieldOf (l.val Reg.pmuCfg) 2 0
  let lim := s.rd (chOff n Reg.pmuLimitV)
  let okV := inRange (fieldOf lim 15 0) (fieldOf lim 31 16)
  let cv := l.val Reg.pmuClampV
  let ci := l.val Reg.pmuClampI
  if mode = 1 ∨ mode = 3 then
    !okV (fieldOf (l.val Reg.pmuForce) 15 0) || decide (sext 16 (fieldOf ci 31 16) ≤ sext 16 (fieldOf ci 15 0))
  else if mode = 2 ∨ mode = 4 then
    decide (fieldOf cv 31 16 ≤ fieldOf cv 15 0) || !okV (fieldOf cv 31 16) || !okV (fieldOf cv 15 0)
  else false

/-- A captured set that is not applied (R226). A secondary's set answers only for DRV_SEL and its parametric rules (R240). -/
def State.setBad (s : State) (n : Nat) (l : LevelSet) : Bool :=
  let mode := fieldOf (l.val Reg.pmuCfg) 2 0
  (bitOf (l.val Reg.peCfg) 0 && s.paired n) || s.pmuRulesBad n l ||
    (if s.secondary n then mode != 0 && mode != s.rdF (chOff (n - 1) Reg.pmuCfg) 2 0 else s.pinRulesBad n l)

/-! ### Range changes (R229 to R231, R319, R325) -/

/-- The pair of primary `n` combines its parametric units (R325). -/
def State.combined (s : State) (n : Nat) : Bool :=
  let a := s.pmuCfg n
  let b := s.pmuCfg (n + 1)
  s.primary n && fieldOf a 6 4 == 4 && fieldOf b 6 4 == 4 && fieldOf a 2 0 == fieldOf b 2 0 && fieldOf a 2 0 != 0 &&
    s.rdB (chOff n Reg.pmuLimitCfg) 3

/-- Channel `n` is of a pair that combines. -/
def State.combines (s : State) (n : Nat) : Bool := if s.secondary n then s.combined (n - 1) else s.combined n

/-- The parametric unit of channel `n` issues words: its mode is not OFF, and it is no secondary (R325, R330). -/
def State.pmuIssues (s : State) (n : Nat) : Bool := s.pmuMode n != 0 && !s.secondary n

/-- The change of a set is a range change of channel `n`: of a secondary, only its parametric range fields act (R229, R240, R319). -/
def State.rangeDiffers (s : State) (n : Nat) (a b : LevelSet) : Bool :=
  let d := fun o m l => fieldOf (a.val o) m l != fieldOf (b.val o) m l
  d Reg.pmuCfg 2 0 || d Reg.pmuCfg 6 4 || (!s.secondary n && d Reg.peCfg 1 0)

/-- Both channels of the pair of primary `n` report whether they combine: it follows their active sets at once (R325; DEDUCED, log 99). -/
def State.combineNote (s : State) (n : Nat) : State :=
  if s.primary n then (s.wrB (chOff n Reg.pmuStatus) 4 (s.combined n)).wrB (chOff (n + 1) Reg.pmuStatus) 4 (s.combined n) else s

/-- Window strobes that sample channel `n`'s comparators and are open are indeterminate from now on (R257); the secondary of a pair samples its
primary's (R211). -/
def State.watchLost (s : State) (n : Nat) : State :=
  let mark := fun (t : State) (x : Nat) => t.modChan x (fun k => { k with watch := k.watch.map (fun w => (w.1, true)) })
  if s.primary n then mark (mark s n) (n + 1) else mark s n

/-- A range change begins: the pad is held through the soft path (R230). -/
def State.rangeStart (s : State) (n : Nat) : State :=
  let s1 := ((s.watchLost n).modChan n (fun k => { k with tapAt := none })).wrB (chOff n Reg.peStatus) 2 true
  let s2 := (s1.wrB (chOff n Reg.pmuStatus) 0 false).wrB (chOff n Reg.pmuStatus) 1 false
  let off := decide (s.pmuMode n = 0)
  let s3 := if off then (s2.wrB (chOff n Reg.pmuStatus) 2 false).wrB (chOff n Reg.pmuStatus) 3 false else s2
  s3.modPmu n (fun p => { p with resets := if off then 0 else p.resets, live := p.live && !off })

/-- RANGING_END (R230, R231, R319, R328): the soft path opens, the unit connects, both comparators take HYST_INIT, and a synchronising
reset follows. -/
def State.rangeEnd (s : State) (n : Nat) : State :=
  let o := chOff n Reg.peStatus
  if s.rdB o 2 then
    let s1 := s.wr o ((s.rd o &&& ~~~ (0xC5 : W32)) ||| 0x30)
    let on := if s1.secondary n then s1.combines n else s1.pmuMode n != 0
    let s2 := s1.wrB (chOff n Reg.pmuStatus) 0 on
    s2.modPmu n (fun p => { p with resets := if s2.pmuIssues n then p.resets + 1 else 0 })
  else s

/-- The clamp that acts in channel `n` ends at the CK_EDGE cycle `at_`: its unit is disconnected there (R230, R324). -/
def State.clampCut (s : State) (n at_ : Nat) : State :=
  s.modPmu n (fun p => { p with clamps := p.clamps.map (fun i => if i.2 = none then (i.1, some at_) else i) })

/-- A range change begins at the CK_EDGE cycle of a strobe instant. -/
def State.rangeFrom (s : State) (n at_ : Nat) : State := (s.clampCut n at_).rangeStart n

/-! ### Ramps (R246, R247) -/

/-- Do two sets differ in a field that restarts the ramp (R247)? -/
def rampDiffers (a b : LevelSet) : Bool :=
  [Reg.peVol, Reg.peVoh, Reg.peRampSlope, Reg.peRampLen].any (fun o => a.val o != b.val o) ||
    fieldOf (a.val Reg.peCfg) 11 10 != fieldOf (b.val Reg.peCfg) 11 10

/-- The ramp restarts at a strobe instant (R246). -/
def State.rampStart (s : State) (n : Nat) : State :=
  let len := (s.rd (chOff n Reg.peActRampLen)).toNat
  let on := s.rdF (chOff n Reg.peActCfg) 11 10 != 0
  (s.wrB (chOff n Reg.peStatus) 3 on).modChan n (fun k =>
    { k with acc := 0, ramping := on, rampLeft := if len = 0 then none else some len })

/-- The exact threshold code of a ramp, before its limits: VOH for `hi`, else VOL. -/
def State.thrExact (s : State) (n : Nat) (hi : Bool) : Int :=
  let base := fieldOf (s.pinInForce n (if hi then Reg.peVoh else Reg.peVol)) 15 0
  if bitOf (s.pinInForce n Reg.peCfg) (if hi then 10 else 11) then base + (s.chan n).acc / 65536 else base

/-- The effective threshold code (R246). -/
def State.thrNow (s : State) (n : Nat) (hi : Bool) : Nat := (clampInt 0 0xFFFF (s.thrExact n hi)).toNat

/-- A threshold's ramp has passed a code limit. -/
def State.thrClamps (s : State) (n : Nat) (hi : Bool) : Bool := decide (s.thrExact n hi < 0 ∨ 0xFFFF < s.thrExact n hi)

/-- RAMP_STEP (R246). -/
def State.rampStep (s : State) (n : Nat) : State :=
  let k := s.chan n
  if k.ramping then
    let left := k.rampLeft.map (· - 1)
    let s1 := s.modChan n (fun k => { k with acc := k.acc + (s.rd (chOff n Reg.peActRampSlope)).toInt, rampLeft := left,
                                             ramping := left != some 0 })
    let s2 := s1.wrB (chOff n Reg.peStatus) 3 (left != some 0)
    [true, false].foldl (fun t h => t.raiseIf (t.thrClamps n h && !s.thrClamps n h) (chOff n Reg.peFlags) 3) s2
  else s

/-! ### The load strobe (R224 to R231, R328) -/

/-- Does a strobe without a range change reset the parametric chain (R328)? -/
def syncStrobe (a b : LevelSet) : Bool :=
  let d := fun o m l => fieldOf (a.val o) m l != fieldOf (b.val o) m l
  a.val Reg.pmuForce != b.val Reg.pmuForce || a.val Reg.pmuClampV != b.val Reg.pmuClampV || a.val Reg.pmuClampI != b.val Reg.pmuClampI ||
    d Reg.pmuFilt 13 0 || d Reg.pmuFilt 20 16 || bitOf (b.val Reg.pmuCfg) 8

/-- The set that a strobe captures in channel `n`: a marker strobe keeps the active DRV_SEL (R226). -/
def State.capture (s : State) (n : Nat) (marker : Bool) : LevelSet × Bool :=
  let l := s.staged n
  let held := marker && bitOf (l.val Reg.peCfg) 0 != s.rdB (chOff n Reg.peActCfg) 0
  if held then (l.map (fun e => if e.1 = Reg.peCfg then (e.1, e.2 ^^^ 1) else e), true) else (l, false)

/-- A strobe without a range change asks for a synchronising reset of channel `n`; during RANGING the request is left to the reset that the end
of RANGING sets (R328, R330). -/
def State.strobeReset (s : State) (n : Nat) (asks : Bool) : State :=
  if asks && s.pmuIssues n && !s.rdB (chOff n Reg.peStatus) 2 && !s.padHeld n then s.modPmu n (fun p => { p with resets := p.resets + 1 }) else s

/-- The strobe in channel `n` at the CK_EDGE cycle `at_`: the set is applied and its ramp, range change and reset follow, or it is rejected, where
a captured SYNC_LDSTB still resets the chain (R328). While sounding or calibration holds the pad, the held set and its ramp follow, and
nothing at the pad changes (R380; DEDUCED, log 99). -/
def State.strobeChan (s : State) (n : Nat) (marker : Bool) (at_ : Nat) : State :=
  let c := s.capture n marker
  let s0 := s.raiseIf c.2 (chOff n Reg.peFlags) 2
  if s0.setBad n c.1 then (s0.raise (chOff n Reg.peFlags) 1).strobeReset n (bitOf (c.1.val Reg.pmuCfg) 8)
  else
    let old := s0.active n
    let s1 := s0.setActive n c.1
    let s2 := if rampDiffers old c.1 && !s1.secondary n then s1.rampStart n else s1
    let first := s2.rdB (chOff n Reg.peStatus) 0 && !s2.rdB (chOff n Reg.peStatus) 2
    if s2.padHeld n then s2
    else if first || s2.rangeDiffers n old c.1 then s2.rangeFrom n at_
    else s2.strobeReset n (syncStrobe old c.1)

/-- A pair that enters or leaves the combined state runs the sequence in both channels (R325). -/
def State.combineRange (before s : State) (n at_ : Nat) : State :=
  if before.combined n != s.combined n && !s.padHeld n then ((s.rangeFrom n at_).rangeFrom (n + 1) at_).combineNote n else s

/-- The strobe instant of cluster `c`, at a CK_EDGE cycle (R225). -/
def State.strobeAll (s : State) (c : Nat) (marker : Bool) (at_ : Nat) : State :=
  let s1 := s.wr (cluOff c Reg.peLdstbCnt) (s.rd (cluOff c Reg.peLdstbCnt) + 1)
  let s2 := (chansOf c).foldl (fun t n => t.strobeChan n marker at_) s1
  (chansOf c).foldl (fun t n => s1.combineRange t n at_) s2

/-- A host write of PE_LDSTB (R224). -/
def State.hostStrobe (s : State) (c : Nat) (v : W32) : State :=
  if ¬ bitOf v 0 then s
  else
    let s0 := s.wake c
    if (s0.seq c).st ≠ 0 ∨ s0.laneStarting c then s0.raise (cluOff c Reg.peClFlags) 0
    else s0.modClu c (fun k => { k with hostStrobe := k.hostStrobe + 1 })

/-- LOAD_STROBE at a CK_EDGE cycle: the strobe instant of the oldest marker that waits for it, or of the oldest host strobe. -/
def State.loadStrobe (s : State) (c : Nat) (marker : Bool) (at_ : Nat) : State :=
  if marker then
    match (s.lane c).strobes with
    | [] => s
    | _ :: t => (s.modLane c (fun l => { l with strobes := t })).strobeAll c true at_
  else if (s.clu c).hostStrobe = 0 then s
  else (s.modClu c (fun k => { k with hostStrobe := k.hostStrobe - 1 })).strobeAll c false at_

/-- The pad of channel `n` is parked (R228, R532). -/
def State.parkPad (s : State) (n : Nat) : State :=
  let s1 := ((s.watchLost n).wr (chOff n Reg.peStatus) 0x31).wr (chOff n Reg.pmuStatus) 0
  s1.modChan n (fun k => { k with drive := false, loadOn := false, ramping := false, acc := 0, rampLeft := none, tapAt := none,
                                  srcSaved := none, pmu := { k.pmu with live := false, resets := 0, clamps := [], overs := [] } })

/-! ### What the driver puts on the pad (R66, R228, R230, R235 to R239) -/

/-- The DAC code of a level: 0 or 1023 (R235). -/
def levelCode (v : Bool) : Nat := if v then 1023 else 0

/-- The DAC code of a level `age` grid steps after its change, with the tap steps of PE_TAPS toward the other level (R235). -/
def tapCode (taps : W32) (v : Bool) (age : Nat) : Nat :=
  let dly := fieldOf taps 31 16
  let x := if age < dly then 0 else if age < 2 * dly then fieldOf taps 7 0 else fieldOf taps 7 0 + fieldOf taps 15 8
  if v then 1023 - x else x

/-- The tap steps long after a change. -/
def tapSettled (taps : W32) (v : Bool) : Nat := tapCode taps v (2 * fieldOf taps 31 16)

/-- The number of the last clock edge at or before a time after the first rising edge, in halves of a period (R66). -/
def Chan.clockHalf (k : Chan) (t : Nat) : Nat :=
  let h := t * 131072 / k.ckm
  if k.clockEdge (h + 1) ≤ t then h + 1 else h

/-- The DAC code of the high-speed driver of channel `n` at a time in grid steps from CK_EDGE cycle 0, under its formatter or clock mode
(R235). None where the instant that its clock counts from is not given. A level that no change at the pad has set stands in full or with both
taps (DESIGN CHOICE, log 97). -/
def State.dacCode (s : State) (n t : Nat) : Option Nat :=
  let k := s.chan n
  let taps := s.pinInForce n Reg.peTaps
  if s.hsSource n = 2 then
    k.ckmAt.map (fun a =>
      let h := k.clockHalf (t - a)
      tapCode taps (h % 2 == 0) (t - a - k.clockEdge h))
  else
    match k.tapAt with
    | some (te, v) => some (tapCode taps v ((t : Int) - te).toNat)
    | none => some (if Config.resumeTapped n t then tapSettled taps k.level else levelCode k.level)

/-- 1,023 times the voltage code that a DAC code sets: V(code) of R235 on the scale of R220. -/
def dacVolts (vil vih code : Nat) : Int := 1023 * vil + code * ((vih : Int) - vil)

/-- The deglitcher holds at a step from code `a` to code `b` (R236). -/
def glitchHolds (dgl a b : Nat) : Bool := dgl == 2 || (dgl == 1 && a / 256 != b / 256)

/-- The code that the deglitcher passes on `off` grid steps after a DAC update from `a` to `b`: it holds `a` from 31.25 ps before the update
until 78.125 ps after it (R236). -/
def deglitch (dgl a b : Nat) (off : Int) : Nat := if off < 0 ∨ (glitchHolds dgl a b ∧ off < 160) then a else b

/-- What the drivers put on a pad. -/
inductive PadOut where
  /-- Nothing (R228, R237, R238, R240, R318). -/
  | highZ
  /-- The soft path to the park source (R230). -/
  | softPath
  /-- The high-speed driver: 1,023 times its voltage code on the scale of R220, into the reference load (R233, R235). -/
  | highSpeed (v1023 : Int)
  /-- The large-swing driver: its open-circuit voltage code (R238). -/
  | largeSwing (code : Nat)
  /-- The back-termination, to a source of this voltage code (R237). -/
  | terminated (code : Nat)
  deriving DecidableEq, Repr

/-- A driver that the pin state has turned off: high-Z, or the termination at VCOM under DOFF while the load is off; DOFF is without effect on the
large-swing driver (R237, R238). -/
def State.offOut (s : State) (n : Nat) : PadOut :=
  let cfg := s.pinInForce n Reg.peCfg
  if !bitOf cfg 0 && bitOf cfg 12 && !s.loadOn n then .terminated (fieldOf (s.pinInForce n Reg.peVcom) 15 0) else .highZ

/-- What the drivers of channel `n` put on its pad while its DAC holds `code`, the DDS engine's or that of `State.dacCode`. A pair's VIL and VIH
are its primary's, and its secondary's pad is high-Z (R239, R240). While VPH or VPL is absent every pad is high-Z (R511). -/
def State.padOut (s : State) (n code : Nat) : PadOut :=
  let lv := fun o => fieldOf (s.pinInForce n o) 15 0
  if s.secondary n || !s.rdB Reg.pwrStatus 1 || !s.rdB Reg.pwrStatus 2 then .highZ
  else if s.rdB (chOff n Reg.peStatus) 2 then .softPath
  else if !s.padOn n || (s.padHeld n && !s.tdrOn n) then .highZ
  else if !s.driverOn n then s.offOut n
  else if bitOf (s.pinInForce n Reg.peCfg) 0 then .largeSwing (if (s.chan n).level then lv Reg.peVih else lv Reg.peVil)
  else .highSpeed (dacVolts (lv Reg.peVil) (lv Reg.peVih) code)

/-- The code that reaches DAC `i` of channel `n`, corrected and held in its range (R220, R248, R461): the DACs in the order of their corrections
in a channel record, VIL and VIH of the high-speed and of the large-swing driver, VOL, VOH, VCOM, and ISRC and ISNK on each load range. -/
def State.dacInput (s : State) (n i : Nat) : Nat :=
  let lv := fun o => fieldOf (s.pinInForce n o) 15 0
  let code : Nat :=
    if i = 0 ∨ i = 2 then lv Reg.peVil
    else if i = 1 ∨ i = 3 then lv Reg.peVih
    else if i = 4 then s.thrNow n false
    else if i = 5 then s.thrNow n true
    else if i = 6 then lv Reg.peVcom
    else if i = 7 ∨ i = 8 then lv Reg.peIload
    else fieldOf (s.pinInForce n Reg.peIload) 31 16
  (clampInt 0 0xFFFF (s.correctAt (chanRec n (4 * i)) code (if i < 7 then 0x3000 else 0))).toNat

/-! ### Comparators and window monitors (R241 to R244) -/

/-- A window monitor latch of channel `n` sets: bit 8 or 9 of PE_WMON, with its input to the trigger engine (R244, R341). -/
def State.wmonLatch (s : State) (n : Nat) (low : Bool) : State :=
  let o := chOff n Reg.peWmon
  let b := if low then 9 else 8
  let s1 := s.raise o b
  if s.rdB o b then s1
  else s1.acqIn (n / 16) { src := 2, ch := n % 16, sel := b2n (!low), s1 := false, time := none, interp := 0 }

/-- COMPARATOR_CROSSING: the pad of channel `n` comes to lie at `pos` about a comparator's band. `latches`: the excursion is large and
long enough for the window monitor (R244). -/
def State.crossing (s : State) (n : Nat) (low : Bool) (pos : BandPos) (latches : Bool) : State :=
  let o := chOff n Reg.peStatus
  if pos = .within then s
  else
    let out := if low then decide (pos = .below) else decide (pos = .above)
    let bit := if low then 7 else 6
    let init := if low then 5 else 4
    let rises := out && !s.rdB o bit
    let latch := rises && latches && s.rdB (chOff n Reg.peWmon) 0 && !s.secondary n
    let note : Cross := { cleared := s.rdB o init, latched := latch && !s.rdB (chOff n Reg.peWmon) (if low then 9 else 8) }
    let s1 := if out != s.rdB o bit then s.modChan n (fun k => if low then { k with crossLo := note } else { k with crossHi := note }) else s
    let s2 := (s1.wrB o init false).wrB o bit out
    if latch then s2.wmonLatch n low else s2

/-! ### The monitor converter (R249 to R251) -/

/-- The source and channel of conversion `i` of a scan pass (R250). -/
def scanStep (i : Nat) : Nat × Nat := if i < 112 then (i % 7, i / 7) else (7, 0)

/-- The converter takes its next conversion: a START, else the scan's. -/
def State.monGo (s : State) (c : Nat) : State :=
  let k := s.clu c
  let o := cluOff c Reg.peMonCtl
  if k.mon.isSome then s
  else
    match k.monNext with
    | some x => (s.modClu c (fun k => { k with mon := some x, monNext := none })).wrB o 15 true
    | none =>
      if s.rdB o 11 then
        let i := k.scanAt.getD 0
        let s1 := if i = 0 then s.wr (cluOff c Reg.peMonMismatch) 0 else s
        (s1.modClu c (fun k => { k with mon := some (scanStep i), scanAt := some ((i + 1) % 113) })).wrB o 15 true
      else s.wrB o 15 false

/-- MONITOR_START: a host write of PE_MON_CTL (R250). -/
def State.monStart (s : State) (c : Nat) (v : W32) : State :=
  let o := cluOff c Reg.peMonCtl
  let was := s.rdB o 11
  let s0 := (s.wake c).plainWrite o v
  let s1 := if bitOf v 11 && !was then s0.modClu c (fun k => { k with scanAt := some 0 })
    else if bitOf v 11 then s0 else s0.modClu c (fun k => { k with scanAt := none })
  let s2 := if bitOf v 12 then s1.modClu c (fun k => { k with monNext := some (fieldOf v 10 8, fieldOf v 3 0) }) else s1
  s2.monGo c

/-- The expected code of a source of a channel (R249). -/
def State.monExpect (s : State) (n src : Nat) : Nat :=
  if src = 7 then 0x2000
  else if src = 5 then fieldOf (s.pinInForce n Reg.peIload) 15 0 / 4
  else if src = 6 then fieldOf (s.pinInForce n Reg.peIload) 31 16 / 4
  else fieldOf (s.pinInForce n (Reg.peVil + 4 * src)) 15 0 / 4

/-- Source `src` is a threshold of channel `n` whose ramp is running: VOL under RAMP_LO, VOH under RAMP_HI (R246, R251). -/
def State.monRamps (s : State) (n src : Nat) : Bool :=
  (s.chan n).ramping && ((src == 2 && bitOf (s.pinInForce n Reg.peCfg) 11) || (src == 3 && bitOf (s.pinInForce n Reg.peCfg) 10))

/-- The result of a conversion of source `src` whose converter gave `raw`, corrected about the code of 0 V or 0 A and held within 14 bits
(R249, R461; DEDUCED, log 106). -/
def State.monResult (s : State) (c src raw : Nat) : Nat :=
  (clampInt 0 16383 (s.correctAt (0x1000 + 128 * c) raw (if src = 5 ∨ src = 6 then 0 else 0xC00))).toNat

/-- MONITOR_CONVERSION_END with what the converter gave; `recent`: the conversion began within 500 ns after a strobe instant (R251). -/
def State.monEnd (s : State) (c raw : Nat) (recent : Bool) : State :=
  match (s.clu c).mon with
  | none => s
  | some (src, ch) =>
    let n := 16 * c + ch
    let code := s.monResult c src raw
    let s1 := s.wr (cluOff c Reg.peMonResult) (pack [(31, 1), (20, src), (16, ch), (0, code)])
    let e := s.monExpect n src
    let skip := recent || (src != 7 && s.rdB (chOff n Reg.peStatus) 2) || s.monRamps n src
    let off := decide (s.rdF (cluOff c Reg.peMonCtl) 31 16 < max (code - e) (e - code))
    let s2 :=
      if !skip && off then
        let s3 := s1.raise (cluOff c Reg.peClFlags) 1
        if src = 7 then s3 else s3.wrB (cluOff c Reg.peMonMismatch) ch true
      else s1
    (s2.modClu c (fun k => { k with mon := none })).monGo c

/-! ### Meanings -/

/-- A host write of PE_LDSTB (R224). -/
def execHostLoadStrobe (c : CluId) (v : W32) (s : State) : Out :=
  .next (s.onWrite (cluOff c.val Reg.peLdstb) (fun t => t.hostStrobe c.val v))

/-- LOAD_STROBE (R225). -/
def execLoadStrobe (i : StrobeNow) (s : State) : Out := .next (s.loadStrobe i.c.val i.marker i.cycle)

/-- RANGING_END (R230). -/
def execRangingEnd (ch : ChId) (s : State) : Out := .next (s.rangeEnd ch.val)

/-- RAMP_STEP (R246). -/
def execRampStep (ch : ChId) (s : State) : Out := .next (s.rampStep ch.val)

/-- A host write of PE_VIL to PE_RAMP_LEN (R223). -/
def execPeStagingWrite (ch : ChId) (i : Fin 10) (v : W32) (s : State) : Out :=
  .next (s.onWrite (chOff ch.val (Reg.peVil + 4 * i.val)) (fun t => t.stagingWrite ch.val (Reg.peVil + 4 * i.val) v))

/-- COMPARATOR_CROSSING (R242, R244). -/
def execComparatorCrossing (ch : ChId) (low : Bool) (pos : BandPos) (latches : Bool) (s : State) : Out :=
  .next (s.crossing ch.val low pos latches)

/-- A host write of PE_MON_CTL (R250). -/
def execMonitorStart (c : CluId) (v : W32) (s : State) : Out :=
  .next (s.onWrite (cluOff c.val Reg.peMonCtl) (fun t => t.monStart c.val v))

/-- MONITOR_CONVERSION_END (R250, R251). -/
def execMonitorConversionEnd (c : CluId) (code : BitVec 14) (recent : Bool) (s : State) : Out :=
  .next (s.monEnd c.val code.toNat recent)

end Sys2Proof.Machine
end

