-- ==== Sys2Proof/Machine/Fail.lean ====
section
/-! DEFINITION. Fail capture and fail memory (R254 to R284): judgement, counters, match verdicts, the fail queue, records, bitmaps and
row and column counters. -/

namespace Sys2Proof.Machine

/-! ### Records (R271) -/

/-- The 32 bytes of a fail record. -/
def failRecord (kind site : Nat) (r : Result) (seq : Nat) : List Byte :=
  let g := r.vec.gen.getD { x := 0, y := 0, z := 0, d := 0 }
  leBytes 1 kind ++ leBytes 1 site ++
    leBytes 2 (r.ch + 2 ^ 9 * b2n r.s1 + 2 ^ 10 * b2n r.win + 2 ^ 11 * b2n r.vec.gen.isSome) ++
    leBytes 1 (r.pin + 16 * r.word) ++ leBytes 1 r.vec.tset ++ leBytes 2 (r.vec.seg + 2 ^ 12 * g.z) ++ leBytes 6 r.vec.no ++ leBytes 2 0 ++
    leBytes 3 r.vec.play ++ leBytes 1 0 ++ leBytes 2 g.x ++ leBytes 2 g.y ++ leBytes 2 g.d ++ leBytes 2 0 ++ leBytes 4 seq

/-- The 32 bytes of a LOST record (R273). -/
def lostRecord (lost seq : Nat) : List Byte :=
  leBytes 1 3 ++ leBytes 7 0 ++ leBytes 6 lost ++ leBytes 14 0 ++ leBytes 4 seq

/-! ### Judgement (R259 to R269) -/

/-- The bitmap of a site is enabled. -/
def State.bmpEn (s : State) (k : Nat) : Bool := (s.rd64 Reg.flBmpEnLo).testBit k

/-- An entry enters the fail queue with the next SEQ, or is dropped where the queue is full (R269); with no record buffer, no record is counted
lost (R272). -/
def State.failEnter (s : State) (c kind site : Nat) (r : Result) : State :=
  let l := s.lane c
  let s1 := s.setLane c { l with seq := l.seq + 1 }
  if 1024 ≤ l.failQ.length then
    let s2 := (if s1.rdF Reg.flRecSize 7 0 = 0 then s1 else s1.count (cluOff c Reg.flRecLost) 1).raise (cluOff c Reg.flFlags) 1
    if s2.bmpEn site then s2.wrB (Reg.flSiteStatus + 16 * site) 3 true else s2
  else
    let s2 := s1.modLane c (fun l => { l with failQ := l.failQ ++ [{ kind := kind, site := Fin.ofNat 64 site, res := r, seq := l.seq - 1 }] })
    let o := cluOff c Reg.flQueue
    s2.wrF o 26 16 (max (s2.rdF o 26 16) (l.failQ.length + 1))

/-- The first-fail capture of a site (R264). -/
def State.firstFail (s : State) (site : Nat) (bytes : List Byte) : State :=
  let o := Reg.flSiteStatus + 16 * site
  if s.rdB o 1 then s
  else (List.range 8).foldl (fun t w => t.wr (Reg.flFirst + 32 * site + 4 * w) (word32 bytes (4 * w))) (s.wrB o 1 true)

/-- A counted result of a site (R263 to R265, R269). -/
def State.siteResult (s : State) (c site : Nat) (r : Result) : State :=
  if r.word % 4 = 1 then
    let s1 := (s.count (Reg.flSiteFail + 16 * site) 1).count (chOff r.ch Reg.flChFail) 1
    let s2 := s1.firstFail site (failRecord 1 site r (s.lane c).seq)
    (s2.modLane c (fun l => { l with failLatch := true })).failEnter c 1 site r
  else if r.word % 4 = 2 then
    let s1 := s.count (Reg.flSiteIndet + 16 * site) 1
    if bitOf (s.lane c).flCtl 0 then s1.failEnter c 2 site r else s1
  else s

/-- Judges one result (R255, R259, R262, R266). A CAPTURED one only leaves the verdict under way. -/
def State.judge (s : State) (c : Nat) (r : Result) : State :=
  if r.word % 4 = 3 then
    (if (s.lane c).matchRes r.ch (cmpHalf r.pin) then s.modLane c (fun l => l.verdictTake r.vec.pad r.vec.no none) else s)
  else
    let o := chOff r.ch Reg.flChLast
    let s0 := if r.s1 then s.wrF o 7 4 r.word else s.wrF o 3 0 r.word
    let l := s0.lane c
    let m := l.matchRes r.ch (cmpHalf r.pin)
    let s1 := if m then s0.setLane c (l.verdictTake r.vec.pad r.vec.no (some (r.word % 4 == 0))) else s0
    if m && bitOf l.flMatch 30 then s1
    else
      match s1.siteOf r.ch with
      | none => s1
      | some k => if r.vec.masked.getLsbD k then s1 else s1.siteResult c k r

/-- STROBE_RESULT_JUDGE: the oldest result on its way to the fail logic of cluster `c` arrives. -/
def State.judgeNext (s : State) (c : Nat) : State :=
  match (s.lane c).results with
  | [] => s
  | r :: t => (s.modLane c (fun l => { l with results := t })).judge c r

/-! ### The fail region (R272, R275) -/

/-- The first byte of the fail region. -/
def State.failBase (s : State) : Nat := (s.region Reg.memFailBase).1

/-- MiB of a lane's record buffer. -/
def State.recMib (s : State) : Nat := s.rdF Reg.flRecSize 7 0

/-- XB, YB, ZB and DB of FL_GEOM. -/
def State.geom (s : State) : Nat × Nat × Nat × Nat :=
  let g := s.rd Reg.flGeom
  (fieldOf g 4 0, fieldOf g 12 8, fieldOf g 18 16, fieldOf g 22 20)

/-- Bytes of one site's bitmap for n address and data bits (R275). -/
def bmpBytes (n : Nat) : Nat := max (2 ^ n / 8) 64

/-- Bytes of one site's bitmap in the present geometry. -/
def State.bmpSize (s : State) : Nat :=
  let g := s.geom
  bmpBytes (g.1 + g.2.1 + g.2.2.1 + g.2.2.2)

/-- The first byte of the bitmap of site `k`. -/
def State.bmpBase (s : State) (k : Nat) : Nat := s.failBase + 32 * s.recMib * mib + k * s.bmpSize

/-- The first byte of slot `i` of lane `c`'s record buffer. -/
def State.slotAddr (s : State) (c i : Nat) : Nat := s.failBase + c * s.recMib * mib + 32 * i

/-- Writes the record of a drained entry, or counts it lost where slots 0 to N − 2 are full (R272). -/
def State.recordWrite (s : State) (c : Nat) (e : FailEnt) : State :=
  let n := s.recMib * 32768
  let i := (s.lane c).slot
  if n = 0 then s
  else if i + 2 ≤ n then
    let s1 := (s.dramWr (s.slotAddr c i) (failRecord e.kind e.site e.res e.seq)).dramWr (s.slotAddr c (i + 1)) [0]
    (s1.modLane c (fun l => { l with slot := i + 1 })).wr (cluOff c Reg.flRecWr) (BitVec.ofNat 32 (i + 1))
  else (s.count (cluOff c Reg.flRecLost) 1).raise (cluOff c Reg.flFlags) 0

/-! ### Bitmaps and counters (R277 to R280) -/

/-- The cell of a mappable FAIL: bit of the bitmap, row index and column index. -/
structure Cell3 where
  bit : Nat
  row : Nat
  col : Nat
  deriving DecidableEq, Repr

/-- The data bit that an entry meets under the first three conditions of R277, with its addresses. -/
def State.mapKey (s : State) (c : Nat) (e : FailEnt) : Option (GenTag × Nat) :=
  let role := s.role c (e.res.ch % 16)
  match e.res.vec.gen with
  | some g => if e.kind = 1 ∧ s.bmpEn e.site ∧ role / 64 = 3 ∧ role % 32 < 16 then some (g, role % 32) else none
  | none => none

/-- The cell of an entry's FAIL: none where it is not mappable; whether it lies outside the geometry (R277, R278). -/
def State.cellOf (s : State) (c : Nat) (e : FailEnt) : Option Cell3 × Bool :=
  match s.mapKey c e with
  | none => (none, false)
  | some (g, d) =>
    let m := s.geom
    if g.x < 2 ^ m.1 ∧ g.y < 2 ^ m.2.1 ∧ g.z < 2 ^ m.2.2.1 ∧ d < 2 ^ m.2.2.2 then
      let sel := s.rdB Reg.flGeom 24
      let ra := if sel then g.y else g.x
      let ca := if sel then g.x else g.y
      (some { bit := ((g.z * 2 ^ m.2.1 + g.y) * 2 ^ m.1 + g.x) * 2 ^ m.2.2.2 + d, row := ra % 8192,
              col := (ca * 2 ^ m.2.2.2 + d) % 8192 }, false)
    else (none, true)

/-- Byte `a` of the fail counter memory. -/
def State.failByte (s : State) (a : Nat) : Byte := Tbl.get (fun _ => 0) s.mem.failCnt a

/-- Writes byte `a` of the fail counter memory. -/
def State.setFailByte (s : State) (a : Nat) (v : Byte) : State :=
  { s with mem := { s.mem with failCnt := Tbl.set (fun _ => (0 : Byte)) s.mem.failCnt a v } }

/-- Byte addresses of a cell's row and column counters (R281). -/
def Cell3.counters (x : Cell3) (site : Nat) : Nat × Nat := (site * 0x4000 + x.row, site * 0x4000 + 0x2000 + x.col)

/-- One counter of a new cell rises; on crossing `spare` the must-repair field [msb:lsb] of the site rises (R279, R280). A counter
whose read is lost is rewritten as 255, and the site is INCOMPLETE (R443). -/
def State.cellCount (s : State) (site a spare msb lsb : Nat) (read : SramRead) : State :=
  match read with
  | .lost => ((s.eccUncorr (1041 + a / 65536) (a % 65536 / 128)).setFailByte a 255).wrB (Reg.flSiteStatus + 16 * site) 3 true
  | _ =>
    let s0 := if read = .corrected then s.eccCorrected else s
    let v := (s0.failByte a).toNat
    let s1 := s0.setFailByte a (BitVec.ofNat 8 (satAdd 255 v 1))
    if v = spare then s1.countF (Reg.flSiteMr + 16 * site) msb lsb 1 else s1

/-- A new cell of a site counts, and may make the site unrepairable where one of its counters has crossed (R279, R280). -/
def State.newCell (s : State) (c site : Nat) (x : Cell3) (row col : SramRead) : State :=
  let rows := s.rdF Reg.flRcLimit 7 0
  let cols := s.rdF Reg.flRcLimit 15 8
  let a := x.counters site
  let s1 := (s.cellCount site a.1 cols 13 0 row).cellCount site a.2 rows 29 16 col
  let mr := s1.rd (Reg.flSiteMr + 16 * site)
  let st := Reg.flSiteStatus + 16 * site
  if mr ≠ s.rd (Reg.flSiteMr + 16 * site) ∧ ¬ s1.rdB st 2 ∧ (rows < fieldOf mr 13 0 ∨ cols < fieldOf mr 29 16) then
    let s2 := s1.wrB st 2 true
    if s2.plan.unrep.getLsbD site then s2
    else
      let s3 : State := { s2 with plan := { s2.plan with unrep := s2.plan.unrep ||| BitVec.ofNat 64 (2 ^ site) } }
      s3.post (evLane c 1) 0x02 (evData [(0, site), (32, s3.plnNumber)])
  else s1

/-- The bit of a site's bitmap that a cell has: its byte and its place in it (R275). -/
def State.bmpBit (s : State) (site : Nat) (x : Cell3) : Nat × Nat := (s.bmpBase site + x.bit / 8, x.bit % 8)

/-- The entry's cell is a new one. -/
def State.isNewCell (s : State) (site : Nat) (x : Cell3) : Bool :=
  let b := s.bmpBit site x
  !(s.dramAt b.1).getLsbD b.2

/-- The bitmap update of a drained entry (R277, R279). -/
def State.bmpUpdate (s : State) (c : Nat) (e : FailEnt) (row col : SramRead) : State :=
  let r := s.cellOf c e
  let s0 := s.raiseIf r.2 (cluOff c Reg.flFlags) 2
  match r.1 with
  | none => s0
  | some x =>
    let b := s0.bmpBit e.site x
    let s1 := s0.dramWr b.1 [s0.dramAt b.1 ||| BitVec.ofNat 8 (2 ^ b.2)]
    if s0.isNewCell e.site x then s1.newCell c e.site x row col else s1

/-- FAIL_WRITER_DRAIN: the oldest entry of the fail queue is written and mapped (R270). -/
def State.failDrain (s : State) (c : Nat) (row col : SramRead) : State :=
  match (s.lane c).failQ with
  | [] => s
  | e :: t => ((s.modLane c (fun l => { l with failQ := t })).recordWrite c e).bmpUpdate c e row col

/-- The counter bytes that draining the oldest entry of lane `c` would write (R282). -/
def State.drainBytes (s : State) (c : Nat) : List Nat :=
  match (s.lane c).failQ with
  | [] => []
  | e :: _ =>
    match (s.cellOf c e).1 with
    | some x => if s.isNewCell e.site x then [(x.counters e.site).1, (x.counters e.site).2] else []
    | none => []

/-- Every strobe of lane `c`'s issued vectors has been judged and its queue has drained (R174, R273). -/
def State.laneDrained (s : State) (c : Nat) : Bool :=
  let l := s.lane c
  l.formQ.isEmpty && l.results.isEmpty && l.failQ.isEmpty && (chansOf c).all (fun n => (s.chan n).queue.isEmpty && (s.chan n).watch.isEmpty && (s.chan n).scrWait.isEmpty)

/-- LOST_RECORD_WRITE: the lane part has ended, everything has drained and records were lost (R273). -/
def State.lostWrite (s : State) (c : Nat) : State :=
  let l := s.lane c
  let lost := (s.rd (cluOff c Reg.flRecLost)).toNat
  let n := s.recMib * 32768
  if l.live ∨ l.issued = 0 ∨ l.lostDone ∨ lost = 0 ∨ n = 0 ∨ ¬ s.laneDrained c then s
  else
    let s1 := s.dramWr (s.slotAddr c l.slot) (lostRecord lost l.seq)
    let s2 := if l.slot + 1 < n then s1.dramWr (s.slotAddr c (l.slot + 1)) [0] else s1
    (s2.setLane c { l with slot := l.slot + 1, lostDone := true }).wr (cluOff c Reg.flRecWr) (BitVec.ofNat 32 (l.slot + 1))

/-! ### Host writes (R261, R276, R281 to R283) -/

/-- A host write of FL_SITE_MASK_LO or FL_SITE_MASK_HI (R261). -/
def State.siteMaskWrite (s : State) (h : Half) (v : W32) : State :=
  s.wr (match h with | .lo => Reg.flSiteMaskLo | .hi => Reg.flSiteMaskHi) v

/-- The offset of a register of R276. -/
def flOff (r : FlReg) : Nat :=
  match r with
  | .recSize => Reg.flRecSize
  | .geom => Reg.flGeom
  | .bmpEnLo => Reg.flBmpEnLo
  | .bmpEnHi => Reg.flBmpEnHi
  | .rcLimit => Reg.flRcLimit

/-- A value of FL_REC_SIZE, FL_GEOM or FL_RC_LIMIT that R276 refuses. -/
def State.flRefused (s : State) (r : FlReg) (v : W32) : Bool :=
  let l := match r with | .recSize => fieldOf v 7 0 | _ => s.recMib
  let g := match r with | .geom => v | _ => s.rd Reg.flGeom
  let n := fieldOf g 4 0 + fieldOf g 12 8 + fieldOf g 18 16 + fieldOf g 22 20
  let big := decide (s.rdF Reg.memFailSize 14 0 * mib < 32 * l * mib + 64 * bmpBytes n)
  match r with
  | .recSize => decide (128 < l) || big
  | .geom => decide (16 < fieldOf v 4 0) || decide (16 < fieldOf v 12 8) || decide (4 < fieldOf v 18 16) || decide (4 < fieldOf v 22 20) || big
  | .rcLimit => fieldOf v 7 0 == 255 || fieldOf v 15 8 == 255
  | _ => false

/-- FL_CONFIG_WRITE (R276). -/
def State.flConfig (s : State) (r : FlReg) (v : W32) : State :=
  if s.plnState ≠ 0 then s.raise Reg.flDevFlags 0
  else if s.flRefused r v then s.raise Reg.flDevFlags 1
  else s.plainWrite (flOff r) v

/-- The counters and results of a site are cleared (R283). -/
def State.siteClear (s : State) (k : Nat) : State :=
  let b := k * 0x4000
  let s1 : State := { s with mem := { s.mem with failCnt := s.mem.failCnt.filter (fun e => decide (e.1 < b ∨ b + 0x4000 ≤ e.1)) } }
  (s1.wr (Reg.flSiteMr + 16 * k) 0).wrF (Reg.flSiteStatus + 16 * k) 3 2 0

/-- FL_CLEAR (R283): the counters clear now, the bitmaps when FL_CLEAR_DONE comes. -/
def State.flClear (s : State) (v : W32) : State :=
  if ¬ bitOf v 31 then s
  else if s.plnState ≠ 0 then s.raise Reg.flDevFlags 0
  else
    let l := if bitOf v 6 then List.range 64 else [fieldOf v 5 0]
    let s1 := (l.foldl State.siteClear s).wrB Reg.flClear 30 true
    { s1 with plan := { s1.plan with clearing := l.foldl (fun a k => insertNat k a) s1.plan.clearing } }

/-- The bitmap of a site is zeroed. -/
def State.bmpZero (s : State) (k : Nat) : State :=
  let b := s.bmpBase k
  { s with mem := { s.mem with dram := s.mem.dram.filter (fun e => decide (e.1 < b ∨ b + s.bmpSize ≤ e.1)) } }

/-- FL_CLEAR_DONE (R283). -/
def State.flClearDone (s : State) : State :=
  if s.plan.clearing = [] then s
  else
    let s1 := (s.plan.clearing.foldl State.bmpZero s).wrB Reg.flClear 30 false
    { s1 with plan := { s1.plan with clearing := [] } }

/-- FAIL_COUNTER_WINDOW_WRITE (R281, R282, R444): the host writes a word of the fail counter memory; `drain` names a lane whose writer
drains an entry in the same cycle. Bytes that an increment writes keep it, and the collision is counted. -/
def State.windowWrite (s : State) (off : Nat) (v : W32) (drain : Option Nat) : State :=
  let inc := match drain with | some c => s.drainBytes c | none => []
  let s1 := match drain with | some c => s.failDrain c .clean .clean | none => s
  let s2 := (List.range 4).foldl (fun t i =>
    if inc.contains (off + i) then t else t.setFailByte (off + i) (BitVec.ofNat 8 (fieldOf v (8 * i + 7) (8 * i)))) s1
  if inc.any (fun a => decide (off ≤ a ∧ a < off + 4)) then s2.count Reg.memCollide 1 else s2

/-! ### Meanings -/

/-- STROBE_RESULT_JUDGE (R255). -/
def execStrobeResultJudge (c : CluId) (s : State) : Out := .next (s.judgeNext c.val)

/-- FAIL_WRITER_DRAIN (R270). -/
def execFailWriterDrain (c : CluId) (row col : SramRead) (s : State) : Out := .next (s.failDrain c.val row col)

/-- LOST_RECORD_WRITE (R273). -/
def execLostRecordWrite (c : CluId) (s : State) : Out := .next (s.lostWrite c.val)

/-- A host write of FL_SITE_MASK_LO or FL_SITE_MASK_HI (R261). -/
def execFlSiteMaskWrite (half : Half) (v : W32) (s : State) : Out :=
  .next (s.onWrite (match half with | .lo => Reg.flSiteMaskLo | .hi => Reg.flSiteMaskHi) (fun t => t.siteMaskWrite half v))

/-- A host write of a register of R276. -/
def execFlConfigWrite (r : FlReg) (v : W32) (s : State) : Out := .next (s.onWrite (flOff r) (fun t => t.flConfig r v))

/-- A host write of FL_CLEAR (R283). -/
def execFlClear (v : W32) (s : State) : Out := .next (s.onWrite Reg.flClear (fun t => t.flClear v))

/-- FL_CLEAR_DONE (R283). -/
def execFlClearDone (s : State) : Out := .next s.flClearDone

/-- A host write to the fail counter window (R282). -/
def execFailCounterWindowWrite (off : BitVec 20) (v : W32) (drain : Option CluId) (s : State) : Out :=
  .next (s.onWrite (0xC00000 + off.toNat) (fun t => t.windowWrite off.toNat v (drain.map (fun c => c.val))))

end Sys2Proof.Machine
end

