-- ==== Sys2Proof/Machine/Tia.lean ====
section
/-! DEFINITION. The time-interval analysers (R286 to R314): timestamps, modes, ends and statistics, and the vernier lines with their
bin-width tables. -/

namespace Sys2Proof.Machine

/-! ### Arithmetic (R304) -/

/-- The integer square root. -/
def isqrt (x : Nat) : Nat := (List.range 96).foldr (fun i r => if (r + 2 ^ i) * (r + 2 ^ i) ≤ x then r + 2 ^ i else r) 0

/-- The population standard deviation of n values from their sum and sum of squares, rounded to nearest (R304). -/
def stdDev (n : Nat) (sum sq : Int) : Nat := (isqrt (4 * (n * sq - sum * sum).toNat) + n) / (2 * n)

/-! ### Lines and tables (R308 to R314, R464) -/

/-- FIRST and LAST. -/
def calRange (arg : Nat) : Nat × Nat := (arg / 2 ^ 8 % 32, arg / 2 ^ 13 % 32)

/-- Cluster `c` is in scope. -/
def calClu (arg c : Nat) : Bool := inRange (calRange arg).1 (calRange arg).2 c

/-- The TIA step of a calibration tests the lines of channel `n` (R467). -/
def State.tiaStepOn (s : State) (n : Nat) : Bool :=
  match s.cal.run with
  | some r => r.left.head? == some 3 && calClu r.arg (n / 16)
  | none => false

/-- State of the line of cell `j`: 0 LOCKED, 1 ACQUIRING, 2 UNLOCKED, 3 TABLE. -/
def State.lineState (s : State) (n j : Nat) : Nat := s.rdF (chOff n Reg.tiaLine) (2 * j + 1) (2 * j)

/-- Sets the state of a line. -/
def State.setLine (s : State) (n j v : Nat) : State := s.wrF (chOff n Reg.tiaLine) (2 * j + 1) (2 * j) v

/-- The line of cell `j` takes a table of 320 widths (R311, R314). -/
def State.setTable (s : State) (n j : Nat) (ws : List Nat) : State :=
  (s.modChan n (fun k => { k with widths := Tbl.setList (fun _ => 4096) k.widths (320 * j) ws })).tableNote n j

/-- TCAL of a channel (R463). -/
def State.tcal (s : State) (n : Nat) : Int := sext 16 (s.calRd (chanRec n 0x6E) 2)

/-- Widths of line `j` of channel `n` in the calibration store (R470). -/
def State.calTable (s : State) (n j : Nat) : List Nat :=
  (List.range 320).map (fun r => s.calRd (0x12000 + (6 * n + j) * 640 + 2 * r) 2)

/-- A line that is UNLOCKED or ACQUIRING during a TDR half makes its result not plausible (R386). -/
def State.lineNote (s : State) (n j : Nat) : State :=
  if s.sounding ∧ 4 ≤ j then
    { s with snd := { s.snd with res := Tbl.mod (fun _ => sndResNone) s.snd.res n (fun r => { r with lineBad := true }) } }
  else s

/-- A line becomes UNLOCKED, and enters TABLE with its fallback table where the temperature allows (R464). -/
def State.lineOff (s : State) (n j : Nat) : State :=
  let s1 := s.setLine n j 2
  let d := s.temp (8 + n / 16) - s.tcal n
  if (s.calRd (chanRec n 0x70) 1).testBit j ∧ -320 ≤ d ∧ d ≤ 320 then
    ((s1.setTable n j (s.calTable n j)).setLine n j 3).modChan n (fun k => { k with testTemp := Tbl.set (fun _ => 0) k.testTemp j (s.tcal n) })
  else s1.lineNote n j

/-- A line is lost to R310: its flag and event. -/
def State.lineUnlock (s : State) (n j : Nat) : State :=
  ((s.raise (chOff n Reg.tiaFlags) 2).post (evLane (n / 16) 2) 0x04 (evData [(0, n % 16), (8, j)])).lineOff n j

/-- LINE_LOCK: the line meets the criterion of R308. -/
def State.lineLock (s : State) (n j : Nat) : State :=
  if s.lineState n j = 0 then s else (s.uniform n j).setLine n j 0

/-- LINE_UNLOCK (R310). -/
def State.lineFails (s : State) (n j : Nat) : State :=
  if s.lineState n j = 0 ∨ s.lineState n j = 1 then s.lineUnlock n j else s

/-- LINE_ACQUIRE_TIMEOUT (R309). -/
def State.acquireTimeout (s : State) (n j : Nat) : State := if s.lineState n j = 1 then s.lineUnlock n j else s

/-- TABLE_TEMP_RETURN (R313): a TABLE line whose sensor has moved more than 5 °C from its value at the test. -/
def State.tableReturn (s : State) (n : Nat) : State :=
  (List.range 6).foldl (fun t j =>
    let d := t.temp (8 + n / 16) - Tbl.get (fun _ => 0) (t.chan n).testTemp j
    if t.lineState n j = 3 ∧ (d < -320 ∨ 320 < d) then t.lineOff n j else t) s

/-- Index of the widest bin. -/
def widest (l : List Nat) : Nat := (l.zipIdx.foldl (fun (b : Nat × Nat) x => if b.1 < x.1 then x else b) (0, 0)).2

/-- The widths that `hits` give: rounded, with the residue on the widest bin (R312). -/
def densityTable (hits : List Nat) : List Nat :=
  let h := hits.sum
  let ws := hits.map (fun x => (2 * x * 1310720 + h) / (2 * h))
  let i := widest ws
  ws.zipIdx.map (fun x => if x.2 = i then x.1 + 1310720 - ws.sum else x.1)

/-- A test that R313 fails. -/
def densityFails (hits : List Nat) : Bool := hits.any (· == 0) || (densityTable hits).any (fun w => decide (16384 < w))

/-- log2 of the hits H of a code-density test in channel `n`: TIA_CD_CTL.HITS_LOG2, or 16 in a pass (R312, R382). -/
def State.hitsLog2 (s : State) (n : Nat) : Nat :=
  if s.sounding && s.padHeld n then 16 else s.rdF (chOff n Reg.tiaCdCtl) 12 8

/-- A code-density test of some lines starts (R312, R314). -/
def State.densityGo (s : State) (n : Nat) (lines : List Nat) : State :=
  if lines = [] then s
  else
    let o := chOff n Reg.tiaCdCtl
    ((s.wrB o 31 true).wrF o 25 24 0).modChan n (fun k => { k with cdLeft := lines })

/-- The test of one line ends once it has counted H hits (R312, R313). -/
def State.densityEnd (s : State) (n j : Nat) (hits : List Nat) : State :=
  if (s.chan n).cdLeft.contains j ∧ hits.sum = 2 ^ s.hitsLog2 n then
    let o := chOff n Reg.tiaCdCtl
    let left := (s.chan n).cdLeft.filter (· ≠ j)
    let s1 := (s.modChan n (fun k => { k with cdLeft := left })).wrB o 31 (decide (left ≠ []) || s.tiaStepOn n)
    if densityFails hits then (s1.raise (chOff n Reg.tiaFlags) 3).wrF o 25 24 2
    else
      let s2 := ((s1.setTable n j (densityTable hits)).setLine n j 3).modChan n (fun k =>
        { k with testTemp := Tbl.set (fun _ => 0) k.testTemp j (s1.temp (8 + n / 16)) })
      if s2.rdF o 25 24 = 2 then s2 else s2.wrF o 25 24 1
  else s

/-! ### Configuration (R303, R305 to R307) -/

/-- TIA_STATUS.STATE: 0 IDLE, 1 ARMED, 2 RUNNING, 3 DONE. -/
def State.tiaState (s : State) (n : Nat) : Nat := s.rdF (chOff n Reg.tiaStatus) 2 0

/-- Sounding or calibration holds the TIA (R307). -/
def State.tiaOwned (s : State) (n : Nat) : Bool := s.rdB (chOff n Reg.tiaStatus) 10

/-- The TIA takes host writes: IDLE or DONE, and not held (R305, R307). -/
def State.tiaFree (s : State) (n : Nat) : Bool := (s.tiaState n == 0 || s.tiaState n == 3) && !s.tiaOwned n

/-- The configuration in force: TIA_CFG, or that of the TDR pass (R385). -/
def State.tiaCfg (s : State) (n : Nat) : W32 :=
  if s.tiaOwned n then pack [(0, 1), (8, n % 16), (16, 1)] else s.rd (chOff n Reg.tiaCfg)

/-- The number of results in force. -/
def State.tiaN (s : State) (n : Nat) : Nat := if s.tiaOwned n then 256 else s.rdF (chOff n Reg.tiaN) 24 0

/-- TIA_CFG.MODE in force. -/
def State.tiaMode (s : State) (n : Nat) : Nat := fieldOf (s.tiaCfg n) 2 0

/-- A write that is ignored or refused under R305. -/
def State.tiaReject (s : State) (n : Nat) : State := s.raise (chOff n Reg.tiaFlags) 0

/-- The TIA enters ARMED with its counts cleared (R305). -/
def State.tiaEnter (s : State) (n : Nat) : State :=
  let o := chOff n Reg.tiaStatus
  let s1 := ((s.wrF o 2 0 1).wrB o 9 false).wrB o 8 false
  let s2 := [Reg.tiaCount, Reg.tiaSkip, Reg.tiaDiscard, Reg.tiaFcnt].foldl (fun t r => t.wr (chOff n r) 0) s1
  s2.modTia n (fun _ => { tiaReset with armDue := true })

/-- TIA_ARM: a host write of ARM (R305). -/
def State.tiaArm (s : State) (n : Nat) : State :=
  let s0 := s.wake (n / 16)
  if s0.tiaFree n ∧ s0.tiaMode n ≠ 0 then s0.tiaEnter n else s0.tiaReject n

/-- The arm instant of channel `n`'s measurement (R289). -/
def State.tiaBegin (s : State) (n cycle : Nat) : State :=
  if (s.chan n).tia.armDue then
    (s.wrF (chOff n Reg.tiaStatus) 2 0 2).modTia n (fun a => { a with armDue := false, armAt := cycle })
  else s

/-- TIA_ARM_INSTANT with the host as ARM_SRC. -/
def State.tiaArmInstant (s : State) (n cycle : Nat) : State := if fieldOf (s.tiaCfg n) 6 5 = 0 then s.tiaBegin n cycle else s

/-- TIA_N_WRITE: a host write of TIA_N or TIA_GATE (R303, R305). -/
def State.tiaNWrite (s : State) (n : Nat) (gate : Bool) (v : W32) : State :=
  if ¬ s.tiaFree n then s.tiaReject n
  else if gate then (if v = 0 then s.raise (chOff n Reg.tiaFlags) 1 else s.wr (chOff n Reg.tiaGate) v)
  else if fieldOf v 24 0 = 0 ∨ 0x1000000 < fieldOf v 24 0 then s.raise (chOff n Reg.tiaFlags) 1
  else s.plainWrite (chOff n Reg.tiaN) v

/-- TIA_CONFIG_WRITE: a host write of TIA_TIMEOUT or TIA_CFG (R305). -/
def State.tiaConfig (s : State) (n : Nat) (timeout : Bool) (v : W32) : State :=
  if ¬ s.tiaFree n then s.tiaReject n
  else if timeout then s.plainWrite (chOff n Reg.tiaTimeout) v
  else if fieldOf v 18 17 = 3 ∨ fieldOf v 14 13 = 3 ∨ 2 ≤ fieldOf v 6 5 ∨ 5 ≤ fieldOf v 2 0 then s.tiaReject n
  else s.plainWrite (chOff n Reg.tiaCfg) v

/-- CODE_DENSITY_START: a host write of TIA_CD_CTL (R314). -/
def State.densityWrite (s : State) (n : Nat) (v : W32) : State :=
  if fieldOf v 12 8 < 16 ∨ 24 < fieldOf v 12 8 then s.tiaReject n
  else
    let s1 := (s.wake (n / 16)).plainWrite (chOff n Reg.tiaCdCtl) v
    if ¬ bitOf v 0 then s1
    else if s1.laneIdle (n / 16) ∧ s1.tiaFree n then s1.densityGo n (bitList 6 (fieldOf v 21 16))
    else s1.tiaReject n

/-! ### Ends and results (R296, R301, R302, R304) -/

/-- Stores a 64-bit result register pair of channel `n`. -/
def State.tiaPut (s : State) (n lo : Nat) (v : Int) : State := s.wr64 (chOff n lo) (toField 64 v)

/-- A measurement ends: its statistics, DONE and TIA_DONE (R302, R304). -/
def State.tiaEnd (s : State) (n code : Nat) : State :=
  let a := (s.chan n).tia
  let z := a.n = 0
  let s1 := s.tiaPut n Reg.tiaMeanLo (if z then 0 else divNearest a.sum a.n)
  let s2 := s1.tiaPut n Reg.tiaSdevLo (if z then 0 else stdDev a.n a.sum a.sq)
  let s3 := (s2.tiaPut n Reg.tiaMinLo a.minV).tiaPut n Reg.tiaMaxLo a.maxV
  let s4 := (s3.wrF (chOff n Reg.tiaStatus) 2 0 3).wrF (chOff n Reg.tiaStatus) 6 4 code
  (s4.modTia n (fun a => { a with armDue := false, events := [], heldStart := none, heldStop := none, prev := none })).post
    (evLane (n / 16) 2) 0x03 (evData [(0, n % 16), (8, code)])

/-- The measurement ends COMPLETE where TIA_COUNT has reached N. -/
def State.tiaFull (s : State) (n : Nat) : State :=
  if s.tiaN n ≤ (s.rd (chOff n Reg.tiaCount)).toNat then s.tiaEnd n 1 else s

/-- One result in units of 2^-12 grid step (R296, R304). -/
def State.tiaResult (s : State) (n : Nat) (v : Int) (interval : Bool) : State :=
  let co := interval && v == 0
  let s1 := (s.tiaPut n Reg.tiaLastLo v).wrB (chOff n Reg.tiaStatus) 9 co
  let s2 := if co then s1.countF (chOff n Reg.tiaDiscard) 31 16 1 else s1
  let s3 := (s2.modTia n (fun a =>
    { a with n := a.n + 1, sum := a.sum + v, sq := a.sq + v * v, minV := if a.n = 0 then v else min a.minV v,
             maxV := if a.n = 0 then v else max a.maxV v })).countF (chOff n Reg.tiaCount) 24 0 1
  s3.tiaFull n

/-! ### Transitions (R286 to R293, R300) -/

/-- A slope selection takes a rising or a falling transition (R291). -/
def slopeMatch (sel : Nat) (rising : Bool) : Bool := sel == 2 || (sel == 0 && rising) || (sel == 1 && !rising)

/-- Does a transition of channel `x`'s comparators qualify as a start and as a stop of channel `n`'s TIA? (R291, R292) -/
def State.tiaMatch (s : State) (n x : Nat) (low rising : Bool) : Bool × Bool :=
  let v := s.tiaCfg n
  let stopCh := 16 * (n / 16) + fieldOf v 11 8
  (s.cmpChan n == x && bitOf v 12 == low && slopeMatch (fieldOf v 14 13) rising,
   s.cmpChan stopCh == x && bitOf v 16 == low && slopeMatch (fieldOf v 18 17) rising)

/-- The TIA of channel `n` is armed and names channel `x` (R287). -/
def State.tiaNames (s : State) (n x : Nat) : Bool :=
  (s.tiaState n == 1 || s.tiaState n == 2) &&
    (s.cmpChan n == x || s.cmpChan (16 * (n / 16) + fieldOf (s.tiaCfg n) 11 8) == x)

/-- Inserts an event in timestamp order, after those with the same time. -/
def insertEvent (e : TEvent) : List TEvent → List TEvent
  | [] => [e]
  | a :: t => if e.ts < a.ts ∨ (e.ts = a.ts ∧ e.start ∧ ¬ a.start) then e :: a :: t else a :: insertEvent e t

/-- A transition at `abs` grid steps from cycle 0, or its loss, reaches the TIA of channel `n`. -/
def State.tiaTake (s : State) (n x : Nat) (low rising lost : Bool) (abs : Int) : State :=
  let line := 6 * x + (if low then 5 else 4)
  let m := s.tiaMatch n x low rising
  let mode := s.tiaMode n
  let stamp := mode = 4 ∧ lost ∧ s.cmpChan n = x ∧ bitOf (s.tiaCfg n) 12 = low
  let feeds := m.1 ∨ (m.2 ∧ (mode = 1 ∨ (lost ∧ mode ≠ 4))) ∨ stamp
  let ts := abs - 320 * (s.chan n).tia.armAt
  if s.tiaState n ≠ 2 ∨ ts < 0 ∨ ¬ feeds then s
  else
    let e : TEvent := { ts := ts.toNat % 2 ^ 48, start := m.1, stop := m.2 && mode == 1, low := low, rise := rising, line := line, lost := lost }
    let s1 := s.wrB (chOff n Reg.tiaStatus) 8 (s.rdB (chOff n Reg.tiaStatus) 8 || (!lost && (s.chan n).tia.changed.contains line))
    s1.modTia n (fun a => { a with events := insertEvent e a.events, lines := if lost then a.lines else insertNat line a.lines })

/-- What channel `x`'s crossing notes of its high or low comparator. -/
def Chan.cross (k : Chan) (low : Bool) : Cross := if low then k.crossLo else k.crossHi

/-- The pin window monitor's input that this transition latched takes its time (R346; DEDUCED, log 44): the latch's own transition is one into the window's
outside, rising at the high comparator and falling at the low one. -/
def State.wmonTime (s : State) (x : Nat) (low rising : Bool) (abs : Int) : State :=
  if ((s.chan x).cross low).latched && rising == !low then
    let s1 := s.modAcq (x / 16) (fun a => { a with inputs := a.inputs.map (fun i =>
      if i.src = 2 ∧ i.ch = x % 16 ∧ i.sel = b2n (!low) ∧ i.time = none then { i with time := some abs, interp := 2 } else i) })
    s1.modChan x (fun k =>
      if low then { k with crossLo := { k.crossLo with latched := false } } else { k with crossHi := { k.crossHi with latched := false } })
  else s

/-- The line of strobe cell `j` of channel `x` places a strobe in CK_EDGE cycle `coarse`: one that has been placed, or one that its queue
holds (R197, R198, R288). -/
def State.strobeIn (s : State) (x j coarse : Nat) : Bool :=
  let k := s.chan x
  Tbl.get (fun _ => 0) k.strobeAt j == coarse + 1 ||
    k.queue.any (fun e => e.cell == j && decide ((e.vec.pad : Int) + e.coarse = coarse))

/-- TRANSITION_TIMESTAMP: a comparator transition of channel `x` falls in a bin of a CK_EDGE cycle (R286 to R290). The crossing that clears
HYST_INIT is not timestamped. -/
def State.transition (s : State) (x : Nat) (low rising : Bool) (coarse bin : Nat) : State :=
  let c := x / 16
  let o := chOff x Reg.peStatus
  if s.secondary x ∨ s.rdB o 2 ∨ s.rdB o (if low then 5 else 4) ∨ ((s.chan x).cross low).cleared ∨ ¬ (chansOf c).any (fun n => s.tiaNames n x) then s
  else
    let j := if low then 5 else 4
    let q := 320 * coarse + (s.chan x).edgeP j bin
    let last := Tbl.get (fun _ => 0) (s.chan x).lastRaw j
    let lost := s.strobeIn x j coarse || (decide (0 < last) && decide (q + 1 < last + 320))
    let abs : Int := (q : Int) - 1024 - s.cellK x j
    let s1 :=
      if lost then s.countF (chOff x Reg.tiaLost) (if low then 31 else 15) (if low then 16 else 0) 1
      else (s.modChan x (fun k => { k with lastRaw := Tbl.set (fun _ => 0) k.lastRaw j (q + 1) })).wmonTime x low rising abs
    (chansOf c).foldl (fun t n => t.tiaTake n x low rising lost abs) s1

/-! ### Events by mode (R294 to R299) -/

/-- A lost transition discards the result in progress (R300), or marks the next timestamp word (R299). -/
def State.tiaLost (s : State) (n mode : Nat) (start : Bool) : State :=
  if mode = 4 then s.modTia n (fun a => { a with loss := true })
  else
    (s.modTia n (fun a => { a with heldStart := none, heldStop := none, prev := none, gateBad := true,
                                   gateCount := if start then a.gateCount + 1 else a.gateCount })).countF (chOff n Reg.tiaDiscard) 15 0 1

/-- An interval event in ordered mode (R294). -/
def State.tiaOrdered (s : State) (n : Nat) (e : TEvent) : State :=
  let o := chOff n Reg.tiaSkip
  match (s.chan n).tia.heldStart with
  | none => if e.start then s.modTia n (fun a => { a with heldStart := some e.ts }) else s.countF o 15 0 1
  | some t =>
    if e.stop then (s.modTia n (fun a => { a with heldStart := none })).tiaResult n (((e.ts : Int) - t) * 4096) true
    else s.countF o 31 16 1

/-- An interval event in signed mode (R295). -/
def State.tiaSigned (s : State) (n : Nat) (e : TEvent) : State :=
  let o := chOff n Reg.tiaSkip
  let a := (s.chan n).tia
  let both := fun (t : State) =>
    match (t.chan n).tia.heldStart, (t.chan n).tia.heldStop with
    | some x, some y => (t.modTia n (fun a => { a with heldStart := none, heldStop := none })).tiaResult n (((y : Int) - x) * 4096) true
    | _, _ => t
  if e.start ∧ a.heldStart = none then both (s.modTia n (fun a => { a with heldStart := some e.ts }))
  else if e.stop ∧ a.heldStop = none then both (s.modTia n (fun a => { a with heldStop := some e.ts }))
  else if e.start then s.countF o 31 16 1
  else s.countF o 15 0 1

/-- The timestamp word of R299. -/
def timestampWord (n : Nat) (e : TEvent) (loss : Bool) : BitVec 64 :=
  BitVec.ofNat 64 (e.ts + 2 ^ 48 * (n % 16) + 2 ^ 53 * b2n e.low + 2 ^ 54 * b2n (!e.rise) + 2 ^ 55 * b2n loss)

/-- A start event in timestamp mode: a word goes to the capture (R299). -/
def State.tiaStamp (s : State) (n : Nat) (e : TEvent) : State :=
  let w := timestampWord n e (s.chan n).tia.loss
  let s1 := s.acqOffer (n / 16) (fun a => { a with tia := a.tia ++ [(n % 16, w)] })
  let s2 := (s1.modTia n (fun a => { a with loss := false })).countF (chOff n Reg.tiaCount) 24 0 1
  s2.tiaFull n

/-- One event of the merged stream is handled by the mode. -/
def State.tiaHandle (s : State) (n : Nat) (e : TEvent) : State :=
  let mode := s.tiaMode n
  if e.lost then s.tiaLost n mode e.start
  else
    match mode with
    | 1 => if bitOf (s.tiaCfg n) 3 then s.tiaSigned n e else s.tiaOrdered n e
    | 2 =>
      let s1 := s.modTia n (fun a => { a with prev := some e.ts })
      match (s.chan n).tia.prev with
      | some p => s1.tiaResult n (((e.ts : Int) - p) * 4096) false
      | none => s1
    | 3 => s.modTia n (fun a => { a with gateFirst := if a.gateCount = 0 then e.ts else a.gateFirst, gateLast := e.ts, gateCount := a.gateCount + 1 })
    | 4 => s.tiaStamp n e
    | _ => s

/-- The gate of frequency mode that a timestamp falls in (R298). -/
def State.gateOf (s : State) (n ts : Nat) : Nat := ts / (2560 * (s.rd (chOff n Reg.tiaGate)).toNat)

/-- TIA_EVENT: the first event of the merged stream (R293), with its start event to the trigger engine (R341). In frequency mode an event
of a later gate waits for the gate's end. -/
def State.tiaEvent (s : State) (n : Nat) : State :=
  match (s.chan n).tia.events with
  | [] => s
  | e :: t =>
    if s.tiaState n ≠ 2 ∨ (s.tiaMode n = 3 ∧ (s.chan n).tia.gateNo < s.gateOf n e.ts) then s
    else
      let s1 := s.modTia n (fun a => { a with events := t })
      let abs : Int := (e.ts + 320 * (s.chan n).tia.armAt : Nat)
      let s2 := if e.start && !e.lost then s1.acqIn (n / 16) { src := 4, ch := n % 16, sel := 0, s1 := false, time := some abs, interp := 2 } else s1
      s2.tiaHandle n e

/-- FREQUENCY_GATE_END (R298): the gate's events have all been taken. -/
def State.gateEnd (s : State) (n : Nat) : State :=
  let a := (s.chan n).tia
  if s.tiaState n ≠ 2 ∨ s.tiaMode n ≠ 3 ∨ a.events.any (fun e => decide (s.gateOf n e.ts ≤ a.gateNo)) then s
  else
    let s1 := (s.wr (chOff n Reg.tiaFcnt) (BitVec.ofNat 32 (satAdd 0xFFFFFFFF a.gateCount 0))).modTia n (fun a =>
      { a with gateNo := a.gateNo + 1, gateCount := 0, gateFirst := 0, gateLast := 0, gateBad := false })
    if a.gateBad ∨ a.gateCount < 2 then s1
    else s1.tiaResult n (divNearest (((a.gateLast : Int) - a.gateFirst) * 4096) (a.gateCount - 1)) false

/-! ### Ends by time and by ABORT (R301, R306, R307) -/

/-- The gates of frequency mode before gate `g` end: the one that runs with its result, and those after it with no event (R298). -/
def State.gatesTo (s : State) (n g : Nat) : State :=
  if s.tiaState n ≠ 2 ∨ s.tiaMode n ≠ 3 ∨ g ≤ (s.chan n).tia.gateNo then s
  else
    let s1 := s.gateEnd n
    if s1.tiaState n ≠ 2 ∨ g ≤ (s1.chan n).tia.gateNo then s1
    else (s1.wr (chOff n Reg.tiaFcnt) 0).modTia n (fun a => { a with gateNo := g })

/-- The first event of the merged stream is handled where its timestamp lies before `limit`. -/
def State.drainOne (n limit : Nat) (s : State) : State :=
  match (s.chan n).tia.events with
  | [] => s
  | e :: _ => if e.ts < limit then (s.gatesTo n (s.gateOf n e.ts)).tiaEvent n else s

/-- The events before `limit` grid steps from the arm instant are handled: a result completed by then counts (R301; DEDUCED, log 43). -/
def State.tiaDrain (s : State) (n limit : Nat) : State := State.times (State.drainOne n limit) (s.chan n).tia.events.length s

/-- The CK_VEC cycle after the arm instant in which the time of TIA_TIMEOUT is up: none with UNITS = 0 or a TIA that is held (R301). -/
def State.timeoutAt (s : State) (n : Nat) : Option Nat :=
  let u := s.rdF (chOff n Reg.tiaTimeout) 15 0
  if u = 0 ∨ s.tiaOwned n then none else some (u * 2 ^ 20)

/-- The CK_VEC cycle after the arm instant in which 2^48 grid steps have passed. -/
def rangeAt : Nat := 2 ^ 48 / 2560

/-- A RUNNING measurement ends in CK_VEC cycle `v` after its arm instant: with a result that this cycle completes, or with the lowest of the END
codes whose causes fall in it; `code` is the cause that has come (R301). -/
def State.tiaCut (s : State) (n v code : Nat) : State :=
  let limit := (v + 1) * 2560
  let s1 := s.tiaDrain n limit
  let s2 := s1.gatesTo n (s1.gateOf n limit)
  if s2.tiaState n ≠ 2 then s2
  else s2.tiaEnd n (if s.timeoutAt n = some v then 2 else if v = rangeAt then min 3 code else code)

/-- TIA_ABORT in the CK_EDGE cycle `cycle` (R306). -/
def State.tiaAbort (s : State) (n cycle : Nat) : State :=
  if s.tiaState n = 1 then s.tiaEnd n 4
  else if s.tiaState n = 2 then s.tiaCut n ((cycle - (s.chan n).tia.armAt) / 8) 4
  else s

/-- Sounding or calibration takes the TIA, or ends its own measurement: what it has timestamped is handled first (R307, R385). -/
def State.tiaStop (s : State) (n : Nat) : State :=
  if s.tiaState n = 1 ∨ s.tiaState n = 2 then
    let s1 := s.tiaDrain n (2 ^ 48)
    if s1.tiaState n = 3 then s1 else s1.tiaEnd n 4
  else s

/-- TIA_TIMEOUT (R301). -/
def State.tiaTimeout (s : State) (n : Nat) : State :=
  match s.timeoutAt n with
  | some v => if s.tiaState n = 2 then s.tiaCut n v 2 else s
  | none => s

/-- TIA_RANGE_END (R301). -/
def State.tiaRange (s : State) (n : Nat) : State := if s.tiaState n = 2 then s.tiaCut n rangeAt 3 else s

/-! ### Meanings -/

/-- A host write of TIA_CTL.ARM (R305). -/
def execTiaArm (ch : ChId) (s : State) : Out := .next (s.onWrite (chOff ch.val Reg.tiaCtl) (fun t => t.tiaArm ch.val))

/-- TIA_ARM_INSTANT (R289). -/
def execTiaArmInstant (ch : ChId) (cycle : Nat) (s : State) : Out := .next (s.tiaArmInstant ch.val cycle)

/-- A host write of TIA_CTL.ABORT (R306). -/
def execTiaAbort (i : ChNow) (s : State) : Out :=
  .next (s.onWrite (chOff i.ch.val Reg.tiaCtl) (fun t => t.tiaAbort i.ch.val i.cycle))

/-- A host write of TIA_N or TIA_GATE (R303). -/
def execTiaNWrite (ch : ChId) (gate : Bool) (v : W32) (s : State) : Out :=
  .next (s.onWrite (chOff ch.val (if gate then Reg.tiaGate else Reg.tiaN)) (fun t => t.tiaNWrite ch.val gate v))

/-- A host write of TIA_CFG or TIA_TIMEOUT (R305). -/
def execTiaConfigWrite (ch : ChId) (timeout : Bool) (v : W32) (s : State) : Out :=
  .next (s.onWrite (chOff ch.val (if timeout then Reg.tiaTimeout else Reg.tiaCfg)) (fun t => t.tiaConfig ch.val timeout v))

/-- TRANSITION_TIMESTAMP (R290). -/
def execTransitionTimestamp (ch : ChId) (low rising : Bool) (vec : Nat) (edge : Fin 8) (bin : Nat) (s : State) : Out :=
  .next (s.transition ch.val low rising (8 * vec + edge.val) bin)

/-- TIA_EVENT (R294). -/
def execTiaEvent (ch : ChId) (s : State) : Out := .next (s.tiaEvent ch.val)

/-- FREQUENCY_GATE_END (R298). -/
def execFrequencyGateEnd (ch : ChId) (s : State) : Out := .next (s.gateEnd ch.val)

/-- TIA_TIMEOUT (R301). -/
def execTiaTimeout (ch : ChId) (s : State) : Out := .next (s.tiaTimeout ch.val)

/-- TIA_RANGE_END (R301). -/
def execTiaRangeEnd (ch : ChId) (s : State) : Out := .next (s.tiaRange ch.val)

/-- A host write of TIA_CD_CTL (R314). -/
def execCodeDensityStart (ch : ChId) (v : W32) (s : State) : Out :=
  .next (s.onWrite (chOff ch.val Reg.tiaCdCtl) (fun t => t.densityWrite ch.val v))

/-- LINE_LOCK (R308). -/
def execLineLock (ch : ChId) (line : CellId) (s : State) : Out := .next (s.lineLock ch.val line.val)

/-- LINE_UNLOCK (R310). -/
def execLineUnlock (ch : ChId) (line : CellId) (s : State) : Out := .next (s.lineFails ch.val line.val)

/-- LINE_ACQUIRE_TIMEOUT (R309). -/
def execLineAcquireTimeout (ch : ChId) (line : CellId) (s : State) : Out := .next (s.acquireTimeout ch.val line.val)

end Sys2Proof.Machine
end

