-- ==== Sys2Proof/Machine/Pmu.lean ====
section
/-! DEFINITION. The parametric units (R317 to R337): synchronising resets, result words, the DC-blocking stage, window monitors and
clamps. -/

namespace Sys2Proof.Machine

/-! ### The decimation chain (R326, R327) -/

/-- PMU_FILT in force: the active set's, or that of the contact test (R383). -/
def State.pmuFilt (s : State) (n : Nat) : W32 := s.pmuInForce n Reg.pmuFilt

/-- What a parametric unit forces (R317, R320, R324): a voltage, as a code of R220, within current clamps; a current, as a signed code of its
range, within voltage clamps; or nothing. -/
inductive PmuForce where
  | off
  | volts (code : Nat) (low high : Int)
  | amps (code : Int) (low high : Nat)
  deriving DecidableEq, Repr

/-- What the parametric unit of channel `n` forces under the set in force; the secondary of a pair that combines follows its primary (R325). -/
def State.pmuForces (s : State) (n : Nat) : PmuForce :=
  let x := if s.secondary n && s.combines n then n - 1 else n
  let force := s.pmuInForce x Reg.pmuForce
  let mode := s.pmuMode x
  if mode = 1 ∨ mode = 3 then
    let i := s.pmuInForce x Reg.pmuClampI
    .volts (fieldOf force 15 0) (sext 16 (fieldOf i 15 0)) (sext 16 (fieldOf i 31 16))
  else if mode = 2 ∨ mode = 4 then
    let v := s.pmuInForce x Reg.pmuClampV
    .amps (sext 16 (fieldOf force 31 16)) (fieldOf v 15 0) (fieldOf v 31 16)
  else .off

/-- The code that reaches the force DAC of channel `n`'s unit, corrected and held in its range (R320, R461, R471). None while the unit forces
nothing. -/
def State.pmuForceInput (s : State) (n : Nat) : Option Int :=
  match s.pmuForces n with
  | .off => none
  | .volts code _ _ => some (clampInt 0 0xFFFF (s.correctAt (chanRec n 0x2C) code 0x3000))
  | .amps code _ _ => some (clampInt (-32768) 32767 (s.correctAt (chanRec n (0x34 + 8 * fieldOf (s.pmuInForce n Reg.pmuCfg) 6 4)) code 0))

/-- M of the filter in force. -/
def State.pmuM (s : State) (n : Nat) : Nat := fieldOf (s.pmuFilt n) 11 0

/-- Filter length L in modulator samples (R327). -/
def State.pmuL (s : State) (n : Nat) : Nat := if bitOf (s.pmuFilt n) 12 then 88 * s.pmuM n - 3 else 150 * s.pmuM n - 3

/-- Group delay G in modulator samples, at DC for the minimum phase (R327). -/
def State.pmuG (s : State) (n : Nat) : Nat := if bitOf (s.pmuFilt n) 12 then 21 * s.pmuM n - 2 else 75 * s.pmuM n - 2

/-- Total decimation D (R326). -/
def State.pmuD (s : State) (n : Nat) : Nat := 8 * s.pmuM n

/-- The span of word `k` in CK_EDGE cycles: the L modulator samples, of 256 cycles each, that end at its issue (DEDUCED, log 47). -/
def State.pmuSpan (s : State) (n k : Nat) : Nat × Nat :=
  let a := (s.chan n).pmu.resetAt + 256 * (k * s.pmuD n)
  (a, a + 256 * s.pmuL n)

/-- The instant that word `k` describes, in grid steps from CK_EDGE cycle 0 (R329). -/
def State.pmuTime (s : State) (n k : Nat) : Int :=
  320 * ((s.chan n).pmu.resetAt + 256 * (s.pmuL n - 1 - s.pmuG n + k * s.pmuD n) : Nat)

/-! ### Synchronising resets (R328 to R330) -/

/-- PMU_SYNC_WRITE for one channel: a reset is to come, unless the end of RANGING sets one, or the chain is held in reset. -/
def State.syncRequest (s : State) (n : Nat) : State :=
  if s.pmuIssues n ∧ ¬ s.rdB (chOff n Reg.peStatus) 2 ∧ ¬ s.padHeld n then s.modPmu n (fun p => { p with resets := p.resets + 1 }) else s

/-- PMU_SYNC_WRITE. -/
def State.pmuSync (s : State) (c : Nat) (v : W32) : State :=
  let l := bitList 16 (fieldOf v 15 0)
  if l = [] then s else l.foldl (fun t k => t.syncRequest (16 * c + k)) (s.wake c)

/-- SYNC_RESET at a CK_EDGE cycle: the history clears and the settle count starts; during RANGING the request is left to the reset at its
end (R330). -/
def State.syncReset (s : State) (n cycle : Nat) : State :=
  if (s.chan n).pmu.resets = 0 then s
  else
    let s1 := s.modPmu n (fun p => { p with resets := p.resets - 1 })
    if s1.rdB (chOff n Reg.peStatus) 2 ∨ ¬ s1.pmuIssues n then s1
    else
      let s2 := ((if s1.padHeld n then s1 else s1.wr (chOff n Reg.pmuWords) 0).wrB (chOff n Reg.pmuStatus) 2 true).wrB (chOff n Reg.pmuStatus) 3 false
      s2.modPmu n (fun p => { p with k := 0, live := true, resetAt := cycle, kept := s2.rdB (chOff n Reg.pmuDcb) 31, overs := [],
                                     clamps := p.clamps.filter (fun i => match i.2 with | none => true | some e => decide (cycle < e)) })

/-! ### Result words (R331 to R336) -/

/-- VALUE saturated to 24 bits. -/
def saturate24 (v : Int) : Int := clampInt (-0x800000) 0x7FFFFF v

/-- The result word of R331. -/
def pmuWord (first clamped overload current : Bool) (ch : Nat) (value : Int) : W32 :=
  pack [(31, b2n first), (30, b2n clamped), (29, b2n overload), (28, b2n current), (24, ch % 16), (0, toField 24 value)]

/-- The measured quantity is a current (R317). -/
def measuresCurrent (mode : Nat) : Bool := mode == 1 || mode == 4

/-- The next offset of the DC-blocking stage (R333), rounded toward zero (DEDUCED, log 48). -/
def dcbNext (s x : Int) (k : Nat) : Int := (s * 2 ^ k + (x - s)).tdiv (2 ^ k)

/-- A latch of a parametric window monitor sets: bit 8 LATCH_HI or 9 LATCH_LO (R335), with its input to the trigger engine. -/
def State.pmuLatch (s : State) (n : Nat) (low : Bool) (time : Int) : State :=
  let o := chOff n Reg.pmuWmon
  let b := if low then 9 else 8
  let s1 := s.raise o b
  if s.rdB o b then s1
  else s1.acqIn (n / 16) { src := 3, ch := n % 16, sel := b2n (!low), s1 := false, time := some time, interp := 3 }

/-- The window monitor compares a word's VALUE (R335). -/
def State.pmuWindow (s : State) (n : Nat) (value time : Int) : State :=
  if s.rdB (chOff n Reg.pmuWmon) 0 then
    let hi := sext 24 (s.rdF (chOff n Reg.pmuWinHi) 23 0)
    let lo := sext 24 (s.rdF (chOff n Reg.pmuWinLo) 23 0)
    let s1 := if hi < value then s.pmuLatch n false time else s
    if value < lo then s1.pmuLatch n true time else s1
  else s

/-- What a word carries: its VALUE, the bits CLAMPED and OVERLOAD, and the offset that the DC-blocking stage keeps after it. -/
structure WordParts where
  value   : Int
  clamped : Bool
  loaded  : Bool
  offset  : Int
  deriving DecidableEq, Repr

/-- The parts of the next word for the stage-3 output `x` (R331, R333, R334). -/
def State.wordParts (s : State) (n : Nat) (x : Int) : WordParts :=
  let p := (s.chan n).pmu
  let span := s.pmuSpan n p.k
  let filt := s.pmuFilt n
  let dcb := bitOf filt 13
  let track := dcb && !s.rdB (chOff n Reg.pmuDcb) 31
  let off := if track && p.k == 0 && !p.kept then x else p.s
  let raw := if dcb then x - off else x
  { value := saturate24 raw,
    clamped := p.clamps.any (fun i => decide (i.1 < span.2) && (match i.2 with | none => true | some e => decide (span.1 < e))),
    loaded := p.overs.any (fun t => decide (span.1 ≤ t ∧ t < span.2)) || saturate24 raw != raw,
    offset := if track then dcbNext off x (fieldOf filt 20 16) else off }

/-- The chain has issued a word: its count, its offset, and the clamp and overload times that later words still span. -/
def State.wordTaken (s : State) (n : Nat) (off : Int) : State :=
  let a := (s.pmuSpan n (s.chan n).pmu.k).1
  let s1 := (s.wrB (chOff n Reg.pmuStatus) 2 false).wrB (chOff n Reg.pmuStatus) 3 false
  s1.modPmu n (fun p => { p with k := p.k + 1, s := off, overs := p.overs.filter (fun t => decide (a ≤ t)),
                                 clamps := p.clamps.filter (fun i => match i.2 with | none => true | some e => decide (a < e)) })

/-- A word of the chain goes to PMU_RESULT, the window monitor, the trigger engine and the capture (R332). -/
def State.pmuIssue (s : State) (n : Nat) (x : Int) : State :=
  let w := s.wordParts n x
  let k := (s.chan n).pmu.k
  let word := pmuWord (k == 0) w.clamped w.loaded (measuresCurrent (s.pmuMode n)) n w.value
  let s1 := ((s.wr (chOff n Reg.pmuResult) word).count (chOff n Reg.pmuWords) 1).wrF (chOff n Reg.pmuDcb) 23 0 (toField 24 (saturate24 w.offset))
  ((s1.wordTaken n w.offset).pmuWindow n w.value (s.pmuTime n k)).acqOffer (n / 16) (fun a => { a with pmu := a.pmu ++ [(n % 16, word)] })

/-- A word of the contact test goes only to the pass (R337, R383). -/
def State.contactWord (s : State) (n : Nat) (x : Int) : State :=
  let w := s.wordParts n x
  let r := Tbl.get (fun _ => sndResNone) s.snd.res n
  let s1 := s.wordTaken n (s.chan n).pmu.s
  if r.words.length < 4 then
    let r' := { r with words := r.words ++ [w.value], bad := r.bad || w.clamped || w.loaded }
    { s1 with snd := { s1.snd with res := Tbl.set (fun _ => sndResNone) s1.snd.res n r' } }
  else s1

/-- RESULT_WORD: the stage-3 output `x` of the next word. -/
def State.resultWord (s : State) (n : Nat) (x : Int) : State :=
  if (s.chan n).pmu.live then (if s.padHeld n then s.contactWord n x else s.pmuIssue n x) else s

/-! ### Clamps and overload (R324, R331) -/

/-- A clamp is in force in channel `n`: its unit forces (R317), for the host or for a pass. -/
def State.clampable (s : State) (n : Nat) : Bool :=
  s.rdB (chOff n Reg.pmuStatus) 0 && !s.secondary n && inRange 1 4 (s.pmuMode n)

/-- CLAMP_ENTRY. -/
def State.clampIn (s : State) (n cycle : Nat) : State :=
  let o := chOff n Reg.pmuStatus
  if s.clampable n ∧ ¬ s.rdB o 1 then
    ((s.wrB o 1 true).raise (chOff n Reg.pmuFlags) 1).modPmu n (fun p => { p with clamps := p.clamps ++ [(cycle, none)] })
  else s

/-- CLAMP_EXIT. -/
def State.clampOut (s : State) (n cycle : Nat) : State :=
  let o := chOff n Reg.pmuStatus
  if s.rdB o 1 then
    (s.wrB o 1 false).modPmu n (fun p => { p with clamps := p.clamps.map (fun i => if i.2 = none then (i.1, some cycle) else i) })
  else s

/-- MODULATOR_OVERLOAD: STATUS.OVERLOAD reads 1 until the next word or reset (DESIGN CHOICE, log 49). -/
def State.overload (s : State) (n cycle : Nat) : State :=
  if s.rdB (chOff n Reg.pmuStatus) 0 ∧ ¬ s.secondary n then
    ((s.wrB (chOff n Reg.pmuStatus) 3 true).raise (chOff n Reg.pmuFlags) 2).modPmu n (fun p => { p with overs := p.overs ++ [cycle] })
  else s

/-! ### Meanings -/

/-- A host write of PMU_FORCE to PMU_FILT (R322). -/
def execPmuStagingWrite (ch : ChId) (i : Fin 5) (v : W32) (s : State) : Out :=
  .next (s.onWrite (chOff ch.val (Reg.pmuForce + 4 * i.val)) (fun t => t.stagingWrite ch.val (Reg.pmuForce + 4 * i.val) v))

/-- A host write of PMU_SYNC (R328). -/
def execPmuSyncWrite (c : CluId) (v : W32) (s : State) : Out :=
  .next (s.onWrite (cluOff c.val Reg.pmuSync) (fun t => t.pmuSync c.val v))

/-- SYNC_RESET (R328). -/
def execSyncReset (ch : ChId) (cycle : Nat) (s : State) : Out := .next (s.syncReset ch.val cycle)

/-- RESULT_WORD (R329). -/
def execResultWord (ch : ChId) (x : Int) (s : State) : Out := .next (s.resultWord ch.val x)

/-- A host write of PMU_DCB (R334). -/
def execPmuDcbWrite (ch : ChId) (v : W32) (s : State) : Out :=
  .next (s.onWrite (chOff ch.val Reg.pmuDcb) (fun t => t.plainWrite (chOff ch.val Reg.pmuDcb) v))

/-- CLAMP_ENTRY (R324). -/
def execClampEntry (ch : ChId) (cycle : Nat) (s : State) : Out := .next (s.clampIn ch.val cycle)

/-- CLAMP_EXIT (R324). -/
def execClampExit (ch : ChId) (cycle : Nat) (s : State) : Out := .next (s.clampOut ch.val cycle)

/-- MODULATOR_OVERLOAD (R331). -/
def execModulatorOverload (ch : ChId) (cycle : Nat) (s : State) : Out := .next (s.overload ch.val cycle)

end Sys2Proof.Machine
end

