-- ==== Sys2Proof/Machine/Acq.lean ====
section
/-! DEFINITION. Triggers and acquisition (R340 to R360): conditions, the state machine, capture records, gaps, frames and the spill. -/

namespace Sys2Proof.Machine

/-! ### Registers -/

/-- ACQ_STATUS.STATE: 0 IDLE, 1 ARMED, 2 POST, 3 REARM, 4 DONE. -/
def State.acqState (s : State) (c : Nat) : Nat := s.rdF (cluOff c Reg.acqStatus) 2 0

/-- The engine takes configuration writes and ARM: IDLE or DONE (R351, R360). -/
def State.acqFree (s : State) (c : Nat) : Bool := s.acqState c == 0 || s.acqState c == 4

/-- ACQ_FLAGS.CFG_REJECT (R360). -/
def State.acqReject (s : State) (c : Nat) : State := s.raise (cluOff c Reg.acqFlags) 0

/-- Slots of the spill ring (R358). -/
def State.spillSlots (s : State) (c : Nat) : Nat := s.rdF (cluOff c Reg.acqSpillSize) 15 0 * 4096

/-! ### Capture records (R348 to R350) -/

/-- A capture record: TYPE, TF, TIME, AUX and DATA (R348). -/
def capRecord (type tf time aux data : Nat) : CapRec :=
  BitVec.ofNat 128 (type + 2 ^ 4 * (tf % 16) + 2 ^ 8 * (time % 2 ^ 40) + 2 ^ 48 * (aux % 2 ^ 16) + 2 ^ 64 * (data % 2 ^ 64))

/-- STROBE records of one sample (R347, R349): for each vector and strobe with a qualifying result, all the results of that slot. -/
def strobeRecords (cap : W32) (n : Nat) (l : List StrobeOffer) : List CapRec :=
  let nos := l.foldl (fun a o => insertNat o.no a) []
  nos.zipIdx.flatMap (fun v =>
    [false, true].filterMap (fun b =>
      let mine := l.filter (fun o => o.no == v.1 && o.s1 == b)
      if bitOf cap (if b then 21 else 20) && mine.any (fun o => bitOf cap o.ch && bitOf cap (16 + o.word % 4)) then
        some (capRecord 1 (b2n b + 2 * (v.2 % 8)) n (ofBits (mine.map (fun o => o.ch)))
          (mine.foldl (fun a o => a ||| o.word <<< (4 * o.ch)) 0))
      else none))

/-- PMU records of one sample. -/
def pmuRecords (src : W32) (n : Nat) (l : List (Nat × W32)) : List CapRec :=
  (List.range 16).flatMap (fun k =>
    if bitOf src k then (l.filter (fun o => o.1 == k)).map (fun o => capRecord 2 0 n 0 o.2.toNat) else [])

/-- TIA records of one sample. -/
def tiaRecords (src : W32) (n : Nat) (l : List (Nat × BitVec 64)) : List CapRec :=
  (List.range 16).flatMap (fun k =>
    if bitOf src (16 + k) then (l.filter (fun o => o.1 == k)).map (fun o => capRecord 3 0 n 0 o.2.toNat) else [])

/-- The records of sample `n` in the order of R350. -/
def State.sampleRecords (s : State) (c n : Nat) : List CapRec :=
  let a := (s.clu c).acq
  let src := s.rd (cluOff c Reg.acqCapSrc)
  strobeRecords (s.rd (cluOff c Reg.acqCapStb)) n a.strobes ++ pmuRecords src n a.pmu ++ tiaRecords src n a.tia

/-! ### The capture ring (R352, R357) -/

/-- The last `n` elements of a list. -/
def lastN {α : Type} (n : Nat) (l : List α) : List α := l.drop (l.length - n)

/-- The next slot holds no record that waits for its spill, `j` places on (R357). -/
def Acq.slotFree (a : Acq) (n j : Nat) : Bool := decide (0 < n) && !a.spillQ.any (fun x => x.1 + n == a.place + j)

/-- Records that the ring still accepts in this CK_VEC cycle: at most 4 in all, and none while a TRIGGER, GAP or FRAME record waits (R350, R357). -/
def State.capRoom (s : State) (c : Nat) : Nat :=
  let a := (s.clu c).acq
  if a.waits = [] then min (4 - a.used) ((List.range 4).takeWhile (a.slotFree (s.captureSlots c))).length else 0

/-- A record takes the next slot: of the pre-trigger, or of the frame. -/
def State.capPut (s : State) (c : Nat) (toPre : Bool) (r : CapRec) : State :=
  let n := s.rdF (cluOff c Reg.acqPre) 15 0
  s.modAcq c (fun a =>
    let x := (a.place, r)
    if toPre then { a with pre := lastN n (a.pre ++ [x]), k := a.k + 1, place := a.place + 1, used := a.used + 1 }
    else { a with spillQ := a.spillQ ++ [x], place := a.place + 1, used := a.used + 1 })

/-- The oldest record that waits takes a slot where the ring accepts one (R357). -/
def State.waitOne (c : Nat) (s : State) : State :=
  let a := (s.clu c).acq
  match a.waits with
  | [] => s
  | w :: t =>
    if a.used < 4 ∧ a.slotFree (s.captureSlots c) 0 then (s.modAcq c (fun a => { a with waits := t })).capPut c (w.1 && s.acqState c == 1) w.2
    else s

/-- The records that wait take their slots, as far as the ring accepts them. -/
def State.waitsIn (s : State) (c : Nat) : State := State.times (State.waitOne c) (s.clu c).acq.waits.length s

/-- A TRIGGER, GAP or FRAME record takes a slot, or waits for one behind those that wait (R350, R357). -/
def State.capLate (s : State) (c : Nat) (toPre : Bool) (r : CapRec) : State :=
  (s.modAcq c (fun a => { a with waits := a.waits ++ [(toPre, r)] })).waitsIn c

/-- A gap closes: its GAP record, counters and flag (R357). -/
def State.gapClose (s : State) (c : Nat) : State :=
  match (s.clu c).acq.gap with
  | none => s
  | some (first, last, dropped) =>
    let len := last - first + 1
    let s1 := (s.modAcq c (fun a => { a with gap := none })).capLate c (s.acqState c == 1)
      (capRecord 4 0 first 0 (len % 2 ^ 40 + 2 ^ 40 * min dropped 0xFFFFFF))
    (((s1.count (cluOff c Reg.acqGapCnt) 1).count (cluOff c Reg.acqGapLen) len).count (cluOff c Reg.acqDrop) dropped).raise
      (cluOff c Reg.acqFlags) 3

/-- The open frame ends with its FRAME record (R354, R356). -/
def State.frameEnd (s : State) (c : Nat) (aborted : Bool) (time : Nat) : State :=
  let s1 := s.gapClose c
  let a := (s1.clu c).acq
  let cnt := cluOff c Reg.acqFrameCnt
  let r := capRecord 6 (b2n a.early + 2 * b2n aborted) time (s1.rd cnt).toNat
    (s1.rdF (cluOff c Reg.acqTrigInfo) 31 16 + 2 ^ 32 * (a.kept % 2 ^ 32))
  ((s1.capLate c false r).count cnt 1).wrF (cluOff c Reg.acqStatus) 2 0 3

/-- POST records have been offered: the frame ends. -/
def State.postFull (s : State) (c : Nat) : State :=
  let a := (s.clu c).acq
  if s.acqState c = 2 ∧ (s.rd (cluOff c Reg.acqPost)).toNat ≤ a.offered then s.frameEnd c false a.lastTime else s

/-- The records of sample `n` are offered to the ring (R350, R354, R357). A gap closes where none of them is dropped behind its GAP record; the
record of a gap that closes without a free slot waits (DEDUCED, log 100). -/
def State.capOffer (s : State) (c n : Nat) : State :=
  let all := s.sampleRecords c n
  let post := s.acqState c == 2
  let recs := if post then all.take ((s.rd (cluOff c Reg.acqPost)).toNat - (s.clu c).acq.offered) else all
  let gap := (s.clu c).acq.gap
  let room := s.capRoom c - b2n gap.isSome
  let drops := recs.length - room
  let s1 := if drops = 0 then s.gapClose c else s
  let s2 := (recs.take room).foldl (fun t r => t.capPut c (!post) r) s1
  let s3 :=
    if drops = 0 then s2
    else s2.modAcq c (fun a => { a with gap := some (match gap with | some (f, _, d) => (f, n, d + drops) | none => (n, n, drops)) })
  let s4 :=
    if post then
      s3.modAcq c (fun a =>
        { a with offered := a.offered + recs.length, kept := a.kept + min room recs.length, lastTime := if recs = [] then a.lastTime else n })
    else s3
  s4.postFull c

/-! ### Conditions and the state machine (R341 to R346) -/

/-- An input meets the condition with register `v`. -/
def inputMeets (v : W32) (i : AcqIn) : Bool :=
  let src := fieldOf v 31 28
  src != 0 && i.src == src && (decide (5 ≤ src) || i.ch == fieldOf v 27 24) &&
    (match src with
     | 1 => bitOf v (16 + i.sel) && bitOf v (if i.s1 then 1 else 0)
     | 2 => bitOf v (16 + i.sel)
     | 3 => bitOf v (16 + i.sel)
     | _ => true)

/-- Condition `i` of cluster `c`. -/
def State.acqCond (s : State) (c i : Nat) : W32 := s.rd (cluOff c (Reg.acqCond0 + 4 * i))

/-- The met bitmap of the inputs gathered. -/
def State.metBits (s : State) (c : Nat) : Nat :=
  ofBits ((List.range 8).filter (fun i => (s.clu c).acq.inputs.any (inputMeets (s.acqCond c i))))

/-- The earliest of some times. -/
def earliest (l : List Int) : Option Int :=
  l.foldl (fun a x => match a with | some a => some (if x < a then x else a) | none => some x) none

/-- The trigger time of R346 and its INTERP, for winning condition `w` in sample `n`. -/
def State.trigTime (s : State) (c w n : Nat) : Nat × Nat :=
  let a := (s.clu c).acq
  let won := a.inputs.filter (inputMeets (s.acqCond c w))
  match earliest (won.filterMap (fun i => i.time)), won.find? (fun i => i.time.isSome) with
  | some t, some i => (toField 48 (t - 320 * a.armAt), i.interp)
  | _, _ => (n * 2560 % 2 ^ 48, 0)

/-- A firing arc triggers the ARMED engine in sample `n` (R344, R345, R353). -/
def State.trigger (s : State) (c n met win src : Nat) (timeout : Bool) (time interp : Nat) : State :=
  let a := (s.clu c).acq
  let pre := s.rdF (cluOff c Reg.acqPre) 15 0
  let info := met + 2 ^ 8 * win + 2 ^ 11 * src
  let r := capRecord 5 (interp + 4 * b2n timeout) n info time
  let early := decide (a.k < pre)
  let s1 := ((s.wr64 (cluOff c Reg.acqTrigLo) time).wr (cluOff c Reg.acqTrigInfo)
    (pack [(16, a.pre.length), (0, info + 2 ^ 14 * interp)])).raiseIf early (cluOff c Reg.acqFlags) 1
  let s2 := (s1.wrF (cluOff c Reg.acqStatus) 2 0 2).wrB (cluOff c Reg.acqStatus) 12 timeout
  let s3 := s2.modAcq c (fun a => { a with spillQ := a.spillQ ++ a.pre, pre := [], offered := 0, kept := 0, lastTime := n, early := early,
                                           trigAt := some (n + 2) })
  (s3.capLate c false r).postFull c

/-- An arc fires (R344). -/
def State.fire (s : State) (c n met win src : Nat) (timeout : Bool) (time interp : Nat) : State :=
  if s.acqState c = 1 then s.trigger c n met win src timeout time interp
  else (s.count (cluOff c Reg.acqMissed) 1).raise (cluOff c Reg.acqFlags) 2

/-- Offset of register `r` of machine state `m`. -/
def acqSt (c r m : Nat) : Nat := cluOff c (r + 16 * m)

/-- The machine enters state `m` (R342). -/
def State.enterState (s : State) (c m : Nat) : State :=
  (s.wrF (cluOff c Reg.acqStatus) 6 4 m).modAcq c (fun a => { a with count := 0, timer := 0 })

/-- The machine's step in sample `n` (R343), but for the timeout arc. -/
def State.machineStep (s : State) (c n : Nat) : State :=
  let m := s.rdF (cluOff c Reg.acqStatus) 6 4
  let met := s.metBits c
  let hits := (List.range 8).filter (fun i => met.testBit i && s.rdB (acqSt c Reg.acqStCtl m) i)
  let s0 := s.modAcq c (fun a => { a with met := met, timer := a.timer + 1 })
  match hits with
  | [] => s0
  | w :: _ =>
    if (s0.clu c).acq.count + 1 = (s.rd (acqSt c Reg.acqStCount m)).toNat then
      let arc := s.rdF (acqSt c Reg.acqStNext m) (4 * w + 3) (4 * w)
      let t := s.trigTime c w n
      (if 8 ≤ arc then s0.fire c n met w m false t.1 t.2 else s0).enterState c (arc % 8)
    else s0.modAcq c (fun a => { a with count := a.count + 1 })

/-- The trigger instant at the start of cycle `n` (R345). -/
def State.trigInstant (s : State) (c n : Nat) : State :=
  if (s.clu c).acq.trigAt = some n then
    let s1 := (s.modAcq c (fun a => { a with trigAt := none })).wrB (cluOff c Reg.acqStatus) 7 true
    let s2 := if s1.rdB (cluOff c Reg.seqIvec) 15 then s1.pendLine c 3 else s1
    (chansOf c).foldl (fun t k => if fieldOf (t.tiaCfg k) 6 5 = 1 then t.tiaBegin k ((s.clu c).acq.armAt + 8 * n) else t) s2
  else s

/-- DDS markers whose sample leaves the DAC in CK_VEC cycle `n` reach the engine (R373). -/
def State.takeMarks (s : State) (c n : Nat) : State :=
  let a := (s.clu c).acq.armAt + 8 * n
  let ms := (s.clu c).dds.marks
  let s1 := if ms.any (fun m => decide (a ≤ m ∧ m < a + 8)) then s.acqIn c (plainIn 6) else s
  s1.modDds c (fun d => { d with marks := d.marks.filter (fun m => decide (a + 8 ≤ m)) })

/-- TRIGGER_SAMPLE: the next sample is evaluated and recorded (R340, R343, R347). -/
def State.triggerSample (s : State) (c : Nat) : State :=
  if ¬ s.acqLive c then s
  else
    let n := (s.clu c).acq.sample
    let s0 := ((s.takeMarks c n).modAcq c (fun a => { a with used := 0 })).waitsIn c
    let s1 := s0.trigInstant c n
    let s2 := if s1.acqState c = 3 then s1 else s1.capOffer c n
    (s2.machineStep c n).modAcq c (fun a => { a with sample := n + 1, inputs := [], strobes := [], pmu := [], tia := [] })

/-- STATE_TIMEOUT: the timer of the current state has expired in the last sample (R343). The spec names no winning condition for a timeout
arc: it is a free value (DESIGN CHOICE, log 54). -/
def State.stateTimeout (s : State) (c : Nat) : State :=
  let a := (s.clu c).acq
  let m := s.rdF (cluOff c Reg.acqStatus) 6 4
  let t := (s.rd (acqSt c Reg.acqStTimer m)).toNat
  if s.acqLive c ∧ t ≠ 0 ∧ t ≤ a.timer then
    let n := a.sample - 1
    let f := s.freeWord
    let ctl := s.rd (acqSt c Reg.acqStCtl m)
    (if bitOf ctl 11 then f.2.fire c n a.met (f.1.toNat % 8) m true (n * 2560 % 2 ^ 48) 0 else s).enterState c (fieldOf ctl 10 8)
  else s

/-! ### ARM, ABORT and REARM (R351, R355, R356) -/

/-- ACQ_ARM: a host write of ARM. -/
def State.acqArm (s : State) (c : Nat) : State :=
  let s0 := s.wake c
  if s0.acqFree c ∧ s0.spillSlots c ≠ 0 then
    let s1 := [Reg.acqFrameCnt, Reg.acqMissed, Reg.acqGapCnt, Reg.acqGapLen, Reg.acqDrop].foldl (fun t r => t.wr (cluOff c r) 0) s0
    let s2 := ((s1.wrF (cluOff c Reg.acqStatus) 2 0 1).wrF (cluOff c Reg.acqStatus) 9 8 0).enterState c 0
    s2.modAcq c (fun a => { acqReset with armDue := true, place := a.place, spillQ := a.spillQ, waits := a.waits, armPad := (s.lane c).pad })
  else s0.acqReject c

/-- A CK_EDGE cycle can be the arm instant: with ARM_SRC = 1, it is the pad start of the first vector of a lane start after the ARM (R351). -/
def State.armInstantOk (s : State) (c cycle : Nat) : Bool :=
  !s.rdB (cluOff c Reg.acqCfg) 0 || ((s.lane c).pad == cycle && (s.clu c).acq.armPad != cycle)

/-- ACQ_ARM_INSTANT: the first sample is the cycle that starts here. -/
def State.acqArmInstant (s : State) (c cycle : Nat) : State :=
  if (s.clu c).acq.armDue ∧ s.armInstantOk c cycle then s.modAcq c (fun a => { a with armDue := false, armAt := cycle, sample := 0 }) else s

/-- The acquisition ends: DONE with an end status, and ACQ_DONE. -/
def State.acqDone (s : State) (c code : Nat) : State :=
  let s1 := ((s.wrF (cluOff c Reg.acqStatus) 2 0 4).wrF (cluOff c Reg.acqStatus) 9 8 code).wrB (cluOff c Reg.acqStatus) 7 false
  let s2 := (s1.modAcq c (fun a =>
    { a with armDue := false, trigAt := none, inputs := [], strobes := [], pmu := [], tia := [], used := 0 })).waitsIn c
  s2.post (evLane c 0) 0x01 (evData [(0, code), (32, (s2.rd (cluOff c Reg.acqFrameCnt)).toNat)])

/-- ACQ_ABORT (R356; DEDUCED, log 55). -/
def State.acqAbort (s : State) (c : Nat) : State :=
  let st := s.acqState c
  if st = 2 then (s.frameEnd c true (s.clu c).acq.sample).acqDone c 2
  else if st = 1 ∨ st = 3 then (s.gapClose c).acqDone c 2
  else s

/-- REARM_END (R355). -/
def State.rearmEnd (s : State) (c : Nat) : State :=
  if s.acqState c = 3 then
    let s1 := (s.wrB (cluOff c Reg.acqStatus) 7 false).modAcq c (fun a => { a with k := 0, pre := [], trigAt := none })
    let s2 := if s1.rdB (cluOff c Reg.acqCfg) 1 then s1.enterState c 0 else s1
    let frames := s2.rdF (cluOff c Reg.acqFrames) 15 0
    if frames ≠ 0 ∧ frames ≤ (s2.rd (cluOff c Reg.acqFrameCnt)).toNat then s2.acqDone c 1
    else s2.wrF (cluOff c Reg.acqStatus) 2 0 1
  else s

/-- ACQ_FORCE: a host write of FORCE. -/
def State.acqForce (s : State) (c : Nat) : State := s.acqIn c (plainIn 8)

/-! ### The spill (R358, R359) -/

/-- The DRAM byte address of slot `i` of the spill ring. -/
def State.spillAddr (s : State) (c i : Nat) : Nat :=
  (s.region Reg.memSpillBase).1 + s.rdF (cluOff c Reg.acqSpillBase) 15 0 * 0x10000 + 16 * i

/-- The oldest record that waits for its spill is lost: it is dropped as under R357, and a GAP record of its own sample takes its
slot (R443; DEDUCED, log 64). -/
def State.spillLost (s : State) (c m row : Nat) : State :=
  match (s.clu c).acq.spillQ with
  | [] => s
  | r :: t =>
    let g := capRecord 4 0 (r.2.toNat / 2 ^ 8 % 2 ^ 40) 0 (1 + 2 ^ 40)
    let s1 := (s.eccUncorr m row).modAcq c (fun a => { a with spillQ := (r.1, g) :: t })
    (((s1.count (cluOff c Reg.acqGapCnt) 1).count (cluOff c Reg.acqGapLen) 1).count (cluOff c Reg.acqDrop) 1).raise
      (cluOff c Reg.acqFlags) 3

/-- A slot has become free after the acquisition has ended: a record that still waits takes it. -/
def State.slotFreed (s : State) (c : Nat) : State :=
  if s.acqLive c then s else (s.modAcq c (fun a => { a with used := 0 })).waitsIn c

/-- SPILL_RECORD: the oldest record of a frame moves to the spill ring, or the ring is full. -/
def State.spillNext (s : State) (c : Nat) : State :=
  let n := s.spillSlots c
  let wr := s.rdF (cluOff c Reg.acqSpillWr) 27 0
  match (s.clu c).acq.spillQ with
  | [] => s
  | r :: t =>
    if n = 0 ∨ ¬ s.dramServes then s
    else if (wr + 1) % n = s.rdF (cluOff c Reg.acqSpillRd) 27 0 then s.raise (cluOff c Reg.acqFlags) 4
    else
      let s1 := (s.modAcq c (fun a => { a with spillQ := t })).dramWr (s.spillAddr c wr) (leBytes 16 r.2.toNat)
      (s1.wr (cluOff c Reg.acqSpillWr) (BitVec.ofNat 32 ((wr + 1) % n))).slotFreed c

/-- SPILL_RECORD, with what the read of the capture SRAM finds (R442, R443). -/
def State.spillRecord (s : State) (c : Nat) (read : SramRead) (part row : Nat) : State :=
  if (s.clu c).acq.spillQ = [] then s
  else
    match read with
    | .clean => s.spillNext c
    | .corrected => s.eccCorrected.spillNext c
    | .lost => s.spillLost c (520 + 16 * c + part) row

/-- ACQ_SPILL_RD_WRITE (R359). -/
def State.spillRdWrite (s : State) (c : Nat) (v : W32) : State :=
  let n := s.spillSlots c
  let new := fieldOf v 27 0
  let rd := s.rdF (cluOff c Reg.acqSpillRd) 27 0
  let wr := s.rdF (cluOff c Reg.acqSpillWr) 27 0
  if new < n ∧ (new + n - rd) % n ≤ (wr + n - rd) % n then s.wr (cluOff c Reg.acqSpillRd) (BitVec.ofNat 32 new)
  else s.acqReject c

/-- ACQ_SPILL_CONFIG_WRITE: a host write of ACQ_SPILL_BASE or ACQ_SPILL_SIZE (R359, R360). -/
def State.spillConfig (s : State) (c : Nat) (size : Bool) (v : W32) : State :=
  let x := fieldOf v 15 0
  let base := if size then s.rdF (cluOff c Reg.acqSpillBase) 15 0 else x
  let n := if size then x else s.rdF (cluOff c Reg.acqSpillSize) 15 0
  if ¬ s.acqFree c ∨ (n ≠ 0 ∧ s.rdF Reg.memSpillSize 14 0 * 16 < base + n) then s.acqReject c
  else
    let s1 := s.wr (cluOff c (if size then Reg.acqSpillSize else Reg.acqSpillBase)) (BitVec.ofNat 32 x)
    (s1.wr (cluOff c Reg.acqSpillWr) 0).wr (cluOff c Reg.acqSpillRd) 0

/-! ### Configuration (R360) -/

/-- The registers whose writes R360 guards: ACQ_CFG to ACQ_CAP_SRC, the conditions and the state registers. -/
def acqConfigReg (o : Nat) : Bool :=
  o % 4 == 0 && (inRange Reg.acqCfg Reg.acqCapSrc o || inRange Reg.acqCond0 Reg.acqCond7 o || inRange 0x780 0x7FC o)

/-- A value that holds a reserved encoding, or a COUNT of 0. -/
def acqRefused (o : Nat) (v : W32) : Bool :=
  (inRange Reg.acqCond0 Reg.acqCond7 o && decide (8 < fieldOf v 31 28)) ||
    (decide (Reg.acqStCtl ≤ o) && o % 16 == 8 && decide (v = 0))

/-- A PRE that is not below the usable slots (R450). -/
def State.preRefused (s : State) (c o : Nat) (v : W32) : Bool := o == Reg.acqPre && decide (s.captureSlots c ≤ fieldOf v 15 0)

/-- ACQ_CONFIG_WRITE. -/
def State.acqConfig (s : State) (c o : Nat) (v : W32) : State :=
  if ¬ acqConfigReg o then s
  else if ¬ s.acqFree c ∨ acqRefused o v ∨ s.preRefused c o v then s.acqReject c
  else s.plainWrite (cluOff c o) v

/-! ### Meanings -/

/-- A host write of ACQ_CTL.ARM (R351). -/
def execAcqArm (c : CluId) (s : State) : Out := .next (s.onWrite (cluOff c.val Reg.acqCtl) (fun t => t.acqArm c.val))

/-- ACQ_ARM_INSTANT (R351). -/
def execAcqArmInstant (c : CluId) (cycle : Nat) (s : State) : Out := .next (s.acqArmInstant c.val cycle)

/-- A host write of ACQ_CTL.ABORT (R356). -/
def execAcqAbort (c : CluId) (s : State) : Out := .next (s.onWrite (cluOff c.val Reg.acqCtl) (fun t => t.acqAbort c.val))

/-- A host write of ACQ_CTL.FORCE (R341). -/
def execAcqForce (c : CluId) (s : State) : Out := .next (s.onWrite (cluOff c.val Reg.acqCtl) (fun t => t.acqForce c.val))

/-- TRIGGER_SAMPLE (R340). -/
def execTriggerSample (c : CluId) (s : State) : Out := .next (s.triggerSample c.val)

/-- STATE_TIMEOUT (R343). -/
def execStateTimeout (c : CluId) (s : State) : Out := .next (s.stateTimeout c.val)

/-- REARM_END (R355). -/
def execRearmEnd (c : CluId) (s : State) : Out := .next (s.rearmEnd c.val)

/-- SPILL_RECORD (R358). -/
def execSpillRecord (c : CluId) (read : SramRead) (part : Fin 16) (row : Fin 512) (s : State) : Out :=
  .next (s.spillRecord c.val read part.val row.val)

/-- A host write of ACQ_SPILL_RD (R359). -/
def execAcqSpillRdWrite (c : CluId) (v : W32) (s : State) : Out :=
  .next (s.onWrite (cluOff c.val Reg.acqSpillRd) (fun t => t.spillRdWrite c.val v))

/-- A host write of ACQ_SPILL_BASE or ACQ_SPILL_SIZE (R359). -/
def execAcqSpillConfigWrite (c : CluId) (size : Bool) (v : W32) (s : State) : Out :=
  .next (s.onWrite (cluOff c.val (if size then Reg.acqSpillSize else Reg.acqSpillBase)) (fun t => t.spillConfig c.val size v))

/-- A host write of an ACQ_ configuration register (R360). -/
def execAcqConfigWrite (c : CluId) (off : BitVec 12) (v : W32) (s : State) : Out :=
  .next (s.onWrite (cluOff c.val off.toNat) (fun t => t.acqConfig c.val off.toNat v))

end Sys2Proof.Machine
end

