-- ==== Sys2Proof/Machine/Dds.lean ====
section
/-! DEFINITION. Waveform synthesis (R361 to R376): the sine table, the play of a token, and the host's access to the tables. -/

namespace Sys2Proof.Machine

/-! ### The sine table and the sample code (R366, R367) -/

/-- 2^64: the fixed point of the sine series. -/
def sinOne : Nat := 0x10000000000000000

/-- π/2 in units of 2^-64. -/
def halfPi : Nat := 28976077832308491369

/-- One factor 1 − y / (2m(2m + 1)) × acc of the sine series. -/
def sinTerm (y m acc : Nat) : Nat := sinOne - y * acc / sinOne / (2 * m * (2 * m + 1))

/-- T[k] = round(131,071 × sin(π/2 × k/4,096)) (R366), from the sine's series to 2^-60. -/
def sineT (k : Nat) : Nat :=
  let th := halfPi * k / 4096
  let y := th * th / sinOne
  let acc := (List.range 14).foldr (fun i a => sinTerm y (i + 1) a) sinOne
  (2 * 131071 * (th * acc / sinOne) + sinOne) / (2 * sinOne)

/-- 1,024 times the magnitude m at a position p' in the quadrant. -/
def sineMag (p : Nat) : Nat :=
  let a := p / 1024
  1024 * sineT a + (sineT (a + 1) - sineT a) * (p % 1024)

/-- 2^27 times the sine value s of a phase (R366). -/
def sineOf (phase : Nat) : Int :=
  let q := phase / 2 ^ 46 % 4
  let p := phase / 2 ^ 24 % 2 ^ 22
  let m := sineMag (if q % 2 = 0 then p else 2 ^ 22 - p)
  if q < 2 then (m : Int) else -(m : Int)

/-- The sample code before its clamp (R367). -/
def sampleRaw (a o phase : Nat) : Int := ((o : Int) * 2 ^ 27 + (a : Int) * sineOf phase + 32 * 2 ^ 27) / (64 * 2 ^ 27)

/-! ### DDS entries (R369, R376) -/

/-- The fields of a DDS entry: DATA0 in its low word, DATA1 in its high word. -/
structure DdsEntry where
  fidx  : Nat
  pidx  : Nat
  aidx  : Nat
  steps : Nat
  dwell : Nat
  stepF : Bool
  stepP : Bool
  stepA : Bool
  mark  : Nat
  deriving DecidableEq, Repr

/-- The fields of an entry's 64 bits. -/
def ddsFields (x : Nat) : DdsEntry :=
  let f := fun (msb lsb : Nat) => (x >>> lsb) % 2 ^ (msb + 1 - lsb)
  { fidx := f 7 0, pidx := f 15 8, aidx := f 23 16, steps := if f 31 24 = 0 then 256 else f 31 24, dwell := f 47 32, stepF := f 48 48 == 1,
    stepP := f 49 49 == 1, stepA := f 50 50 == 1, mark := f 52 51 }

/-- Entry `i` of a cluster's DDS engine. -/
def State.ddsOf (s : State) (c i : Nat) : DdsEntry := ddsFields (Tbl.get (fun _ => 0) (s.clu c).dds.entries i).toNat

/-- A list index at step `j` (R370). -/
def listIndex (first steps j : Nat) (step : Bool) : Nat := if step then (first + j % steps) % 256 else first

/-! ### The play of a token (R364, R365, R370, R373) -/

/-- The phases of the 64 samples of a granule from `a` with frequency word `f`. -/
def granPhases (a f : Nat) : List Nat := (List.range 64).map (fun i => (a + i * f) % 2 ^ 48)

/-- A marker is due at this token (R373). -/
def markDue (e : DdsEntry) (t : Token) : Bool := (e.mark == 1 && t.enter) || (e.mark == 2 && t.g == 0)

/-- The accumulator is loaded at this token (R370). -/
def reloadDue (e : DdsEntry) (t : Token) : Bool := t.enter || (t.g % e.dwell == 0 && (e.stepF || e.stepP) && decide (1 < e.steps))

/-- A DDS marker leaves the DAC in a CK_EDGE cycle (R373). Markers whose CK_VEC cycle is over are forgotten: a vector is issued 512 cycles
before its pad start (R29). -/
def State.ddsMark (s : State) (c cycle : Nat) : State :=
  (s.count (cluOff c Reg.ddsMarkCnt) 1).modDds c (fun d => { d with marks := d.marks.filter (fun m => decide (cycle < m + 520)) ++ [cycle] })

/-- The granule of a token goes on its way to the pad; granules that a later sample has followed there are forgotten (R29, R236). -/
def State.ddsOut (s : State) (c : Nat) (g : DdsGran) : State :=
  s.modDds c (fun d => { d with out := d.out.filter (fun x => decide (g.cycle < x.cycle + 640)) ++ [g] })

/-- The engine plays a token's granule from its entry; `cycle` is its first sample's at the pad. Each clipped sample raises CLIP (R367). -/
def State.ddsPlay (s : State) (c i : Nat) (t : Token) (cycle : Nat) : State :=
  let d := (s.clu c).dds
  let e := s.ddsOf c i
  let j := t.g / e.dwell
  let f := Tbl.get (fun _ => 0) d.freq (listIndex e.fidx e.steps j e.stepF)
  let p := Tbl.get (fun _ => 0) d.phase (listIndex e.pidx e.steps j e.stepP)
  let amp := Tbl.get (fun _ => 0) d.amp (listIndex e.aidx e.steps j e.stepA)
  let a0 := if reloadDue e t then p * 2 ^ 32 else d.acc
  let raw := (granPhases a0 f).map (sampleRaw (amp % 2 ^ 15) (amp / 2 ^ 16))
  let clips := (raw.filter (fun x => decide (x < 0 ∨ 1023 < x))).length
  let s1 := (s.modDds c (fun d => { d with acc := (a0 + 64 * f) % 2 ^ 48 })).ddsOut c
    { named := t.named, cycle := cycle, codes := raw.map (fun x => (clampInt 0 1023 x).toNat) }
  let s2 := State.times (fun u => u.raise (cluOff c Reg.ddsFlags) 2) clips s1
  let s3 := (s2.wr64 (cluOff c Reg.ddsPhaseLo) a0).wrF (cluOff c Reg.ddsStatus) 23 16 (j % 256)
  if markDue e t then s3.ddsMark c cycle else s3

/-- A token that plays IDLE_CODE (R364). -/
def State.ddsIdle (s : State) (c : Nat) (t : Token) (cycle : Nat) : State :=
  let s1 := (s.raise (cluOff c Reg.ddsFlags) 3).wr64 (cluOff c Reg.ddsPhaseLo) (s.clu c).dds.acc
  s1.ddsOut c { named := t.named, cycle := cycle, codes := List.replicate 64 (s.rdF (cluOff c Reg.ddsCtl) 9 0) }

/-- The engine's part of an issued token. -/
def State.tokenPlay (s : State) (c : Nat) (t : Token) (cycle : Nat) : State :=
  let s1 := s.wr64 (cluOff c Reg.ddsGranLo) ((s.rd64 (cluOff c Reg.ddsGranLo) + 1) % 2 ^ 48)
  let s2 := match t.named with | some i => s1.wrF (cluOff c Reg.ddsStatus) 15 8 i | none => s1
  let s3 := match t.entry with | some i => s2.ddsPlay c i t cycle | none => s2.ddsIdle c t cycle
  s3.wrB (cluOff c Reg.ddsStatus) 0 true

/-- DDS_TOKEN_ISSUE: the token at the front of the queue issues 64 keep-alive vectors, and the engine plays its granule (R361). -/
def State.tokenIssue (s : State) (c : Nat) : State :=
  let l := s.lane c
  if ¬ l.live ∨ l.fillLeft ≠ 0 then s
  else
    let r := frontMarkers noMarks l.queue
    match r.2 with
    | .token t :: rest =>
      let s1 := (s.modLane c (fun k => { k with queue := rest })).issueVec c t.keep r.1
      (State.times (fun u => u.issueVec c t.keep noMarks) 63 s1).tokenPlay c t (l.pad + l.t / 320)
    | _ => s

/-! ### The engine's output (R236, R362, R363, R374) -/

/-- The code that the engine of cluster `c` gives the DAC in a CK_EDGE cycle at the pad: a token's sample, else IDLE_CODE (R362, R363). -/
def State.ddsCode (s : State) (c cycle : Nat) : Nat :=
  match (s.clu c).dds.out.find? (fun g => decide (g.cycle ≤ cycle ∧ cycle < g.cycle + 64)) with
  | some g => g.codes.getD (cycle - g.cycle) 0
  | none => s.rdF (cluOff c Reg.ddsCtl) 9 0

/-- The code that channel `n` drives under the DDS engine at a time in grid steps from CK_EDGE cycle 0, behind its deglitcher, which delays by
one CK_EDGE cycle (R236). DGL is the primary's in a pair (R239). -/
def State.ddsDac (s : State) (n t : Nat) : Nat :=
  let u : Int := (t : Int) - 320
  let x := (u + 64) / 320
  deglitch (fieldOf (s.pinInForce (s.spacer n) Reg.peCfg) 9 8) (s.ddsCode (n / 16) (x - 1).toNat) (s.ddsCode (n / 16) x.toNat) (u - 320 * x)

/-- What the drivers of channel `n` put on its pad at a time in grid steps from CK_EDGE cycle 0, from the DDS engine's code under its own levels, or
from its formatter or clock (R235, R374). None where the phase of its clock is not given. -/
def State.padDrive (s : State) (n t : Nat) : Option PadOut :=
  if s.hsSource n = 1 then some (s.padOut n (s.ddsDac n t)) else (s.dacCode n t).map (s.padOut n)

/-! ### The tables (R368, R372, R376) -/

/-- DDS entry `i` is engaged in a CK_EDGE cycle: the current segment names it, or one of its tokens is in the queue or has samples that have
not reached the pad, the deglitcher included (R236, R372; DEDUCED, log 58). -/
def State.ddsEngaged (s : State) (c cycle i : Nat) : Bool :=
  let l := s.lane c
  (l.live && !l.ended && l.cur.kind == 2 && l.cur.base == i) ||
    (s.clu c).dds.out.any (fun g => g.named == some i && decide (cycle < g.cycle + 65)) ||
    l.queue.any (fun x => match x with | .token t => t.named == some i | _ => false)

/-- Entry `i` of a list is engaged: an engaged DDS entry can reach it (R372). -/
def State.listEngaged (s : State) (c cycle : Nat) (first : DdsEntry → Nat) (i : Nat) : Bool :=
  (List.range 256).any (fun k => s.ddsEngaged c cycle k && decide ((i + 256 - first (s.ddsOf c k)) % 256 < (s.ddsOf c k).steps))

/-- The entry that DDS_ADDR names is engaged. -/
def State.tableEngaged (s : State) (c cycle table i : Nat) : Bool :=
  match table with
  | 0 => s.ddsEngaged c cycle i
  | 1 => s.listEngaged c cycle DdsEntry.fidx i
  | 2 => s.listEngaged c cycle DdsEntry.pidx i
  | _ => s.listEngaged c cycle DdsEntry.aidx i

/-- The values in DDS_DATA0 and DDS_DATA1 that a write refuses (R372). -/
def ddsIllegal (table : Nat) (d0 d1 : W32) : Bool :=
  match table with
  | 0 => fieldOf d1 30 21 != 0 || fieldOf d1 15 0 == 0 || fieldOf d1 20 19 == 3
  | 1 => fieldOf d1 31 15 != 0
  | 2 => fieldOf d0 31 16 != 0 || d1 != 0
  | _ => bitOf d0 15 || d1 != 0

/-- Stores an entry. -/
def State.tablePut (s : State) (c table i : Nat) (d0 d1 : W32) : State :=
  let x := d0.toNat + 2 ^ 32 * d1.toNat
  s.modDds c (fun d =>
    match table with
    | 0 => { d with entries := Tbl.set (fun _ => 0) d.entries i (BitVec.ofNat 64 x) }
    | 1 => { d with freq := Tbl.set (fun _ => 0) d.freq i x }
    | 2 => { d with phase := Tbl.set (fun _ => 0) d.phase i x }
    | _ => { d with amp := Tbl.set (fun _ => 0) d.amp i x })

/-- The 64 bits of an entry. -/
def State.tableGet (s : State) (c table i : Nat) : Nat :=
  let d := (s.clu c).dds
  match table with
  | 0 => (Tbl.get (fun _ => 0) d.entries i).toNat
  | 1 => Tbl.get (fun _ => 0) d.freq i
  | 2 => Tbl.get (fun _ => 0) d.phase i
  | _ => Tbl.get (fun _ => 0) d.amp i

/-- DDS_ENTRY_WRITE: GO writes the entry that TABLE and INDEX name, unless it is engaged or the value is illegal. -/
def State.ddsGo (s : State) (c cycle table i : Nat) : State :=
  let d0 := s.rd (cluOff c Reg.ddsData0)
  let d1 := s.rd (cluOff c Reg.ddsData1)
  let busy := s.tableEngaged c cycle table i
  let bad := ddsIllegal table d0 d1
  let s1 := (s.raiseIf busy (cluOff c Reg.ddsFlags) 0).raiseIf bad (cluOff c Reg.ddsFlags) 1
  if busy || bad then s1 else s1.tablePut c table i d0 d1

/-- DDS_ENTRY_READ: READ copies the entry into DDS_DATA0 and DDS_DATA1. -/
def State.ddsReadBack (s : State) (c table i : Nat) : State := s.wr64 (cluOff c Reg.ddsData0) (s.tableGet c table i)

/-- A host write of DDS_ADDR in a CK_EDGE cycle: TABLE and INDEX are stored, then GO and READ act. -/
def State.ddsAddr (s : State) (c cycle : Nat) (v : W32) : State :=
  let s1 := s.plainWrite (cluOff c Reg.ddsAddr) v
  let table := fieldOf v 25 24
  let i := fieldOf v 7 0
  let s2 := if bitOf v 31 then s1.ddsGo c cycle table i else s1
  if bitOf v 30 then s2.ddsReadBack c table i else s2

/-- A host write of DDS_ADDR whose row gives no instant: with GO, it is a free one (DESIGN CHOICE, log 15). -/
def State.ddsAddrFree (s : State) (c : Nat) (v : W32) : State :=
  if bitOf v 31 then
    let f := s.freeCycle
    f.2.ddsAddr c f.1 v
  else s.ddsAddr c 0 v

/-! ### Meanings -/

/-- DDS_TOKEN_ISSUE (R361). -/
def execDdsTokenIssue (c : CluId) (s : State) : Out := .next (s.tokenIssue c.val)

/-- A host write of DDS_ADDR that writes an entry (R372). -/
def execDdsEntryWrite (i : CluNow) (v : W32) (s : State) : Out :=
  .next (s.onWrite (cluOff i.c.val Reg.ddsAddr) (fun t => t.ddsAddr i.c.val i.cycle v))

/-- A host write of DDS_ADDR that reads an entry back (R376). -/
def execDdsEntryRead (c : CluId) (v : W32) (s : State) : Out :=
  .next (s.onWrite (cluOff c.val Reg.ddsAddr) (fun t => t.ddsAddrFree c.val v))

end Sys2Proof.Machine
end

