-- ==== Sys2Proof/Machine/Sound.lean ====
section
/-! DEFINITION. Touchdown and sounding (R377 to R394): requests, what a pass takes over, the contact test, the TDR pass, deskew and the
contact mask. -/

namespace Sys2Proof.Machine

/-! ### Reference corrections (R462, R471) -/

/-- Kpad of cell `j` of channel `n`. -/
def State.kpad (s : State) (n j : Nat) : Int := sext 16 (s.calRd (chanRec n (0x5C + 2 * j)) 2)

/-- REF of channel `n`: 0xFFFF for none. -/
def State.calRef (s : State) (n : Nat) : Nat := s.calRd (chanRec n 0x68) 2

/-- Kref of a cell from its Kpad and its channel's REF (R462). -/
def krefOf (kpad : Int) (ref j : Nat) : Int := if ref = 0xFFFF then kpad else if j < 4 then kpad - ref else kpad + ref

/-- Kref of cell `j` of channel `n`. -/
def State.kref (s : State) (n j : Nat) : Int := krefOf (s.kpad n j) (s.calRef n) j

/-- The six cells of channel `n` take Kref moved by DELTA as their bases (R387, R462). -/
def State.setBases (s : State) (n : Nat) (delta : Int) : State :=
  let f := fun (k : Tbl Int) (j : Nat) => Tbl.set (fun _ => (0 : Int)) k (6 * n + j) (if j < 4 then s.kref n j - delta else s.kref n j + delta)
  let s1 := { s with cal := { s.cal with kb := (List.range 6).foldl f s.cal.kb } }
  s1.raiseIf (s1.kSat n) Reg.calFlags 3

/-- Every cell takes Kref (R389, R462). -/
def State.allKref (s : State) : State := (List.range 512).foldl (fun t n => t.setBases n 0) s

/-! ### What a pass or a calibration takes (R380, R466) -/

/-- The parametric unit and the TIA of channel `n` and its pad are taken. -/
def State.takeChan (s : State) (n : Nat) : State :=
  let s1 := s.tiaStop n
  let s2 := ((s1.wrB (chOff n Reg.tiaStatus) 10 true).wr (chOff n Reg.pmuStatus) 0x20).modPmu n (fun p =>
    { p with live := false, resets := 0, clamps := [], overs := [] })
  (s2.modChan n (fun k => { k with srcSaved := some (s.rdF (chOff n Reg.peStatus) 11 10, k.ckm, k.ckmAt) })).rangeStart n

/-- Every channel of cluster `c` is taken, and the cluster wakes (R453). -/
def State.takeClu (s : State) (c : Nat) : State := (chansOf c).foldl State.takeChan (s.wake c)

/-- Channel `n` is released: its source stands as before, and its held set returns by the sequence of R230 (R27, R380). -/
def State.releaseChan (s : State) (n : Nat) : State :=
  if s.padHeld n then
    let s1 := s.tiaStop n
    let s2 := ((s1.wrB (chOff n Reg.tiaStatus) 10 false).wr (chOff n Reg.pmuStatus) 0).modPmu n (fun p =>
      { p with live := false, resets := 0, clamps := [], overs := [] })
    let s3 := match (s2.chan n).srcSaved with
      | some (v, p, a) => (s2.modChan n (fun k => { k with ckm := p, ckmAt := a })).setSource n v
      | none => s2
    ((s3.modChan n (fun k => { k with srcSaved := none })).rangeStart n).combineNote (if s3.secondary n then n - 1 else n)
  else s

/-- Every channel that is held is released. -/
def State.releaseAll (s : State) : State := (List.range 512).foldl State.releaseChan s

/-! ### Requests (R377 to R379) -/

/-- The tested channels of R381, in order. -/
def State.testedChans (s : State) : List Nat := (List.range 512).filter s.tested

/-- The clusters that have a tested channel. -/
def State.testedClus (s : State) : List Nat := (List.range 32).filter (fun c => (chansOf c).any s.tested)

/-- A sounding request of a source: pending until its pass starts, or discarded while a pass runs. -/
def State.soundRequest (s : State) (src : Nat) : State :=
  if s.sounding then s.raise Reg.sndFlags 2
  else
    let s1 := s.testedClus.foldl State.wake s
    let s2 := (s1.wrF Reg.sndStatus 7 6 src).wrF Reg.sndStatus 18 16 1
    { s2 with snd := { s2.snd with request := some src } }

/-- A touchdown or lift-off signalled during a calibration's TIP step (R466). -/
def State.tipDisturb (s : State) : State :=
  match s.cal.run with
  | some r =>
    if r.left.head? = some 5 then
      let s1 := s.raise Reg.calFlags 4
      { s1 with cal := { s1.cal with run := some { r with disturbed := true } } }
    else s
  | none => s

/-- A touchdown from TD_N or the Causeway (R377). -/
def State.touchdown (s : State) (src : Nat) : State :=
  let s1 := ((s.tipDisturb).wrB Reg.sndStatus 1 true).post 265 0x11 (evData [(8, src)])
  if s1.rdB Reg.sndCfg 0 then s1.soundRequest src else s1

/-- A host request (R377). -/
def State.hostRequest (s : State) : State := s.tipDisturb.soundRequest 2

/-- Ends the SOUND commands that wait. -/
def State.soundDone (s : State) (status detail : Nat) : State := s.bgEnd 0x09 status detail

/-- The pass is over: its results are forgotten and its channels released. -/
def State.passOver (s : State) : State :=
  let s1 := (s.wrB Reg.sndStatus 0 false).wrF Reg.sndStatus 18 16 0
  let s2 := (List.range 512).foldl (fun t n =>
    if t.padHeld n && !(t.chan n).cdLeft.isEmpty then (t.wrB (chOff n Reg.tiaCdCtl) 31 false).modChan n (fun k => { k with cdLeft := [] }) else t) s1
  ({ s2 with snd := { s2.snd with res := [] } } : State).releaseAll

/-- A pass ends with an end status: SND_DONE is posted, and the commands complete (R392). -/
def State.passDone (s : State) (code : Nat) : State :=
  let s1 := (s.passOver).wrF Reg.sndStatus 5 4 code
  let s2 := s1.post 264 0x10 (evData [(0, code), (32, (s1.rd Reg.sndSummary).toNat)])
  s2.soundDone St.ok code

/-- A lift-off from TD_N or the Causeway (R378). -/
def State.liftoff (s : State) (src : Nat) : State :=
  let s0 := s.tipDisturb
  let s1 := ((s0.wrB Reg.sndStatus 1 false).wrB Reg.sndStatus 2 true).wr64 Reg.sndMaskLo 0xFFFFFFFFFFFFFFFF
  let s2 := if s1.sounding then (s1.raise Reg.sndFlags 1).passDone 2 else s1
  let s3 := if s2.snd.request.isSome then
      (({ s2 with snd := { s2.snd with request := none } } : State).wrF Reg.sndStatus 18 16 0).soundDone St.discarded 0
    else s2
  s3.post 265 0x11 (evData [(0, 1), (8, src)])

/-- TD_N_TOUCHDOWN: TD_N has been low for 10 µs while it is sampled. -/
def State.tdTouch (s : State) : State :=
  if s.boot.stage = .ready ∧ s.rdB Reg.sndCfg 1 ∧ ¬ s.snd.tdLow then
    let s1 := ({ s with snd := { s.snd with tdLow := true } } : State).touchdown 0
    if s1.rdB Reg.cwyCfg 2 then s1.sendMsgQ 3 0 0 else s1
  else s

/-- TD_N_LIFTOFF: TD_N has been high for 10 µs after a touchdown of its own. -/
def State.tdLift (s : State) : State :=
  if s.boot.stage = .ready ∧ s.rdB Reg.sndCfg 1 ∧ s.snd.tdLow then
    let s1 := ({ s with snd := { s.snd with tdLow := false } } : State).liftoff 0
    if s1.rdB Reg.cwyCfg 2 then s1.sendMsgQ 4 0 0 else s1
  else s

/-- SOUND (R434). -/
def State.cmdSound (s : State) : State :=
  s.runCmd 0x09 (fun c t =>
    let run := t.sounding
    let t1 := t.hostRequest
    if run then t1.complete c St.discarded 0 0 else t1.bgStart c)

/-- SND_CLR_MASK (R390). -/
def State.clrMask (s : State) : State :=
  if s.sounding ∨ s.snd.request.isSome then s.raise Reg.sndFlags 2 else s.wr64 Reg.sndMaskLo 0

/-- A host write of SND_CTL. -/
def State.sndCtl (s : State) (v : W32) : State :=
  let s1 := if bitOf v 1 then s.clrMask else s
  if bitOf v 0 then s1.hostRequest else s1

/-! ### The start of a pass (R379 to R382) -/

/-- The result of channel `n` in the pass. -/
def State.sndRes (s : State) (n : Nat) : SndRes := Tbl.get (fun _ => sndResNone) s.snd.res n

/-- Updates the result of channel `n`. -/
def State.modRes (s : State) (n : Nat) (f : SndRes → SndRes) : State :=
  { s with snd := { s.snd with res := Tbl.mod (fun _ => sndResNone) s.snd.res n f } }

/-- The contact settings are strobed in the tested channels (R383). -/
def State.contactStart (s : State) : State :=
  let s1 := s.wrF Reg.sndStatus 18 16 3
  s1.testedChans.foldl State.rangeStart s1

/-- UNLOCKED lines of channel `n`. -/
def State.unlockedLines (s : State) (n : Nat) : List Nat := (List.range 6).filter (fun j => s.lineState n j == 2)

/-- The code-density test starts on the UNLOCKED lines of some channels (R314, R382). -/
def State.densityStart (s : State) (chans : List Nat) : State :=
  chans.foldl (fun t n =>
    let l := t.unlockedLines n
    if l = [] then t else t.densityGo n (l.foldl (fun a j => insertNat j a) (t.chan n).cdLeft)) s

/-- SOUNDING_PASS_START. -/
def State.passStart (s : State) : State :=
  if s.boot.stage = .ready ∧ s.snd.request.isSome ∧ s.plnState = 0 ∧ ¬ s.calBusy ∧ ¬ s.sounding then
    let s1 : State := { s with snd := { s.snd with request := none, res := [] } }
    let s2 := s1.testedClus.foldl State.takeClu (s1.wrB Reg.sndStatus 0 true)
    if s2.testedChans.any (fun n => !(s2.unlockedLines n).isEmpty) then (s2.wrF Reg.sndStatus 18 16 2).densityStart s2.testedChans
    else s2.contactStart
  else s

/-- CODE_DENSITY_END: the test of one line ends with its hits; the pass goes on once all its lines have ended (R312, R313, R382). -/
def State.densityNext (s : State) (n j : Nat) (hits : List Nat) : State :=
  let s1 := s.densityEnd n j hits
  if s1.sounding ∧ s1.sndPhase = 2 ∧ s1.testedChans.all (fun n => (s1.chan n).cdLeft.isEmpty) then s1.contactStart else s1

/-! ### The contact test (R384) -/

/-- V × 2^21 of a code on the scale of R220. -/
def codeVolts21 (code : Nat) : Int := -3145728 + 256 * code

/-- CONTACT of four words: 1 CONTACT, 2 OPEN, 3 SHORT. -/
def State.judgeContact (s : State) (r : SndRes) : Nat :=
  let sum := r.words.sum
  let lim := s.rd Reg.sndCtLim
  if r.bad ∨ sum ≤ 4 * codeVolts21 (fieldOf lim 15 0) then 2
  else if 4 * codeVolts21 (fieldOf lim 31 16) ≤ sum then 3
  else 1

/-- A channel that is measured in a TDR half: even local numbers in the first. -/
def State.inHalf (s : State) (second : Bool) (n : Nat) : Bool :=
  s.tested n && (s.sndRes n).contact == 1 && (n % 2 == 1) == second

/-- A line counts as plausible: LOCKED or TABLE (R386). -/
def State.lineOk (s : State) (n j : Nat) : Bool := s.lineState n j == 0 || s.lineState n j == 3

/-- Channel `n` in a TDR half: it sends the clock of 20 ns and its TIA is armed, or it drives a steady 0 V (R385). -/
def State.halfDrive (s : State) (n : Nat) (sends : Bool) : State :=
  if sends then (s.clockSource n 0xA0000000 none).tiaEnter n
  else (s.modChan n (fun k => { k with level := false, held := false })).setSource n 0

/-- A TDR half begins: its channels send the clock and their TIAs are armed, the others drive a steady 0 V (R385). -/
def State.halfStart (s : State) (second : Bool) : State :=
  let s1 := s.wrF Reg.sndStatus 18 16 (if second then 5 else 4)
  s1.testedChans.foldl (fun t n =>
    if (t.sndRes n).contact ≠ 1 then t
    else if s1.inHalf second n then
      (t.halfDrive n true).modRes n (fun r => { r with lineBad := !(s1.lineOk n 4 && s1.lineOk n 5) })
    else t.halfDrive n false) s1

/-- CONTACT_JUDGE: after word 3 every tested channel is judged, and the TDR settings are strobed. -/
def State.contactJudge (s : State) : State :=
  let l := s.testedChans
  if s.sounding ∧ s.sndPhase = 3 ∧ l.all (fun n => (s.sndRes n).words.length == 4) then
    let s1 := l.foldl (fun t n => t.modRes n (fun r => { r with contact := s.judgeContact r })) s
    let s2 := s1.halfStart false
    l.foldl State.rangeStart s2
  else s

/-! ### The TDR pass (R385, R386) -/

/-- DESKEW and DELTA of a measured channel (R386). -/
def State.judgeTdr (s : State) (n : Nat) : Nat × Int :=
  let lim := s.rd (chOff n Reg.peLimitV)
  let ref := s.calRef n
  let done := s.rdF (chOff n Reg.tiaStatus) 6 4 == 1
  let mean := sext 64 (s.rd64 (chOff n Reg.tiaMeanLo))
  let d := divNearest mean 8192
  let delta := clampInt (-32767) 32767 (d - ref)
  let out := (List.range 6).any (fun j =>
    let k := if j < 4 then s.kref n j - delta else s.kref n j + delta
    decide (k < -1024 ∨ 1023 < k))
  if 0x3000 < fieldOf lim 15 0 ∨ fieldOf lim 31 16 < 0x3CCD then (8, 0)
  else if ref = 0xFFFF then (7, 0)
  else if ¬ done then (3, 0)
  else if (s.sndRes n).lineBad ∨ 32768 < s.rd64 (chOff n Reg.tiaSdevLo) then (4, 0)
  else if d - ref < -51 ∨ 51 < d - ref then (2, delta)
  else if out then (5, 0)
  else (1, delta)

/-- A half has ended in channel `n`: an unfinished TIA is aborted, and the result is judged. -/
def State.halfChan (s : State) (n : Nat) : State :=
  let s1 := s.tiaStop n
  let r := s1.judgeTdr n
  s1.modRes n (fun x => { x with deskew := r.1, delta := r.2 })

/-- TDR_HALF_END of a sounding pass (R385). -/
def State.halfEnd (s : State) : State :=
  if ¬ s.sounding then s
  else if s.sndPhase = 4 then ((s.testedChans.filter (s.inHalf false)).foldl State.halfChan s).halfStart true
  else if s.sndPhase = 5 then ((s.testedChans.filter (s.inHalf true)).foldl State.halfChan s).wrF Reg.sndStatus 18 16 6
  else s

/-! ### The end of a pass (R387 to R393) -/

/-- A tested channel that is flagged (R388). -/
def State.flagged (s : State) (n : Nat) : Bool := s.tested n && (s.sndRes n).deskew != 1

/-- The mean of the four words; where it is no whole number, one of its two neighbours (R383; DESIGN CHOICE, log 52). -/
def vContact (r : SndRes) : Int :=
  if r.words.sum % 4 = 0 then r.words.sum / 4 else r.words.sum / 4 + (if Config.contactMeanUp r.words.sum then 1 else 0)

/-- The two words of a channel's map entry (R381, R393). -/
def State.mapEntry (s : State) (n : Nat) : W32 × W32 :=
  let m := if s.secondary n then n - 1 else n
  if s.tested m then
    let r := s.sndRes m
    (pack [(0, r.contact), (8, if s.secondary n then 6 else r.deskew), (16, toField 16 r.delta)], BitVec.ofNat 32 (toField 24 (vContact r)))
  else (0, 0)

/-- CONTACT of a channel's map entry is OPEN or SHORT. -/
def State.noContact (s : State) (n : Nat) : Bool := decide (2 ≤ fieldOf (s.mapEntry n).1 1 0)

/-- The contact mask of R390. -/
def State.contactMask (s : State) : Nat :=
  let skew := s.rdB Reg.sndCfg 2
  ofBits (((List.range 512).filter (fun n => s.noContact n || (skew && s.flagged n))).filterMap s.siteOf)

/-- The cells of a tested channel, and of its pair's secondary, take their new bases (R387, R388). -/
def State.deskewChan (s : State) (n : Nat) : State :=
  let r := s.sndRes n
  let d := if r.deskew = 1 then r.delta else 0
  let s1 := s.setBases n d
  if s.primary n then s1.setBases (n + 1) d else s1

/-- Tested channels whose CONTACT is `v`. -/
def State.contactCount (s : State) (v : Nat) : Nat := (s.testedChans.filter (fun n => (s.sndRes n).contact == v)).length

/-- SOUNDING_PASS_END: a completed pass (R389, R390, R392, R393). -/
def State.passEnd (s : State) (us : W32) : State :=
  if s.sounding ∧ s.sndPhase = 6 then
    let flags := (s.testedChans.filter s.flagged).length
    let s1 := s.testedChans.foldl State.deskewChan s
    let s2 := (List.range 512).foldl (fun t n =>
      (t.wr (Reg.sndMap0 + 8 * n) (s.mapEntry n).1).wr (Reg.sndMap1 + 8 * n) (s.mapEntry n).2) s1
    let s3 := (s2.wr64 Reg.sndMaskLo s.contactMask).raiseIf (decide (flags ≠ 0)) Reg.sndFlags 0
    let s4 := (s3.wr Reg.sndTime us).wr Reg.sndSummary (pack [(0, s.contactCount 2), (10, s.contactCount 3), (20, flags)])
    (s4.wrB Reg.sndStatus 2 false).passDone 1
  else s

/-- SOUNDING_TIMEOUT (R391). -/
def State.soundTimeout (s : State) : State := if s.sounding then (s.raise Reg.sndFlags 3).passDone 3 else s

/-! ### Meanings -/

/-- SOUND (R434). -/
def execSound (s : State) : Out := .next s.cmdSound

/-- TD_N_TOUCHDOWN (R377). -/
def execTdNTouchdown (s : State) : Out := .next s.tdTouch

/-- TD_N_LIFTOFF (R378). -/
def execTdNLiftoff (s : State) : Out := .next s.tdLift

/-- A host write of SND_CTL.START (R377). -/
def execSndStart (s : State) : Out := .next (s.onWrite Reg.sndCtl State.hostRequest)

/-- A host write of SND_CTL.CLR_MASK (R390). -/
def execSndClrMask (s : State) : Out := .next (s.onWrite Reg.sndCtl State.clrMask)

/-- SOUNDING_PASS_START (R379). -/
def execSoundingPassStart (s : State) : Out := .next s.passStart

/-- CODE_DENSITY_END (R312). -/
def execCodeDensityEnd (ch : ChId) (line : CellId) (hits : List Nat) (s : State) : Out := .next (s.densityNext ch.val line.val hits)

/-- CONTACT_JUDGE (R384). -/
def execContactJudge (s : State) : Out := .next s.contactJudge

/-- SOUNDING_PASS_END (R392). -/
def execSoundingPassEnd (us : W32) (s : State) : Out := .next (s.passEnd us)

/-- SOUNDING_TIMEOUT (R391). -/
def execSoundingTimeout (s : State) : Out := .next s.soundTimeout

end Sys2Proof.Machine
end

