-- ==== Sys2Proof/Machine/Calib.lean ====
section
/-! DEFINITION. Calibration (R459 to R476): the command, its steps and their limits, the end of the measuring steps, and the store of a
bank. -/

namespace Sys2Proof.Machine

/-! ### Scope (R465) -/

/-- ITEMS in the order of R459. -/
def calItems (arg : Nat) : List Nat := bitList 6 arg

/-- The calibration stores its result. -/
def calStores (arg : Nat) : Bool := arg.testBit 6

/-- The clusters and the channels in scope. -/
def calClus (arg : Nat) : List Nat := (List.range 32).filter (calClu arg)

/-- The channels in scope. -/
def calChans (arg : Nat) : List Nat := (calClus arg).flatMap chansOf

/-- The arguments that R465 refuses. -/
def calBad (arg : Nat) : Bool := (decide (arg % 64 = 0) && !calStores arg) || decide ((calRange arg).2 < (calRange arg).1)

/-! ### The calibration store (R461, R470, R471) -/

/-- Writes bytes of the calibration store at a bank offset. -/
def State.calWr (s : State) (o : Nat) (bs : List Byte) : State :=
  { s with cal := { s.cal with bytes := Tbl.setList calDefault s.cal.bytes o bs } }

/-- The calibration in progress with some bytes as new values. -/
def CalRun.put (r : CalRun) (o : Nat) (bs : List Byte) : CalRun := { r with fresh := Tbl.setList (fun _ => none) r.fresh o (bs.map some) }

/-- The little-endian number at a bank offset under the new values. -/
def State.calNew (s : State) (r : CalRun) (o n : Nat) : Nat :=
  leNat ((List.range n).map (fun i =>
    match Tbl.get (fun _ => none) r.fresh (o + i) with
    | some b => b
    | none => Tbl.get calDefault s.cal.bytes (o + i)))

/-- Updates the calibration in progress. -/
def State.modRun (s : State) (f : CalRun → CalRun) : State := { s with cal := { s.cal with run := s.cal.run.map f } }

/-- CAL_CH_FAIL of channel `n`. -/
def failReg (n : Nat) : Nat := Reg.calChFail + 4 * n

/-- An item of channel `n` keeps an old value (R468). -/
def State.calFail (s : State) (n item : Nat) : State :=
  let s1 := (s.wrB (failReg n) item true).raise Reg.calFlags 1
  (s1.post 298 0x32 (evData [(0, n), (16, 2 ^ item)])).modRun (fun r => { r with partly := true })

/-! ### Plausibility limits (R468) -/

/-- The change limits apply. -/
def State.driftLimited (s : State) (r : CalRun) : Bool := s.cal.fromBank && !r.arg.testBit 7

/-- Absolute value. -/
def within (lim x : Int) : Bool := decide (-lim ≤ x ∧ x ≤ lim)

/-- A new gain and offset correction passes, with the old value at bank offset `o`. -/
def State.corrOk (s : State) (r : CalRun) (off : Nat) (g o : BitVec 16) : Bool :=
  let oldO := sext 16 (s.calRd off 2)
  let oldG := sext 16 (s.calRd (off + 2) 2)
  within 20971 g.toInt && within 6400 o.toInt &&
    (!s.driftLimited r || (within 2097 (g.toInt - oldG) && within 640 (o.toInt - oldO)))

/-- The bytes of a correction: o in [15:0], g in [31:16]. -/
def corrBytes (g o : BitVec 16) : List Byte := leBytes 2 o.toNat ++ leBytes 2 g.toNat

/-- Every Kref of a channel lies in range for a REF, under the new values. -/
def State.krefsOk (s : State) (r : CalRun) (n ref : Nat) : Bool :=
  (List.range 6).all (fun j => within 1023 (krefOf (sext 16 (s.calNew r (chanRec n (0x5C + 2 * j)) 2)) ref j) ||
    krefOf (sext 16 (s.calNew r (chanRec n (0x5C + 2 * j)) 2)) ref j == -1024)

/-- A new REF passes. -/
def State.refOk (s : State) (r : CalRun) (n : Nat) (v : BitVec 16) (plausible : Bool) : Bool :=
  let old := s.calRef n
  plausible && decide (v.toNat ≤ 9728) && s.krefsOk r n v.toNat &&
    (!s.driftLimited r || decide (old = 0xFFFF) || within 51 ((v.toNat : Int) - old))

/-! ### Steps (R467, R468) -/

/-- A line of channel `n` has passed the test of the TIA step: TIA_CD_CTL.RESULT, unless another of its lines has failed (R316, R467). -/
def State.testPassed (s : State) (n : Nat) : State :=
  if s.rdF (chOff n Reg.tiaCdCtl) 25 24 = 2 then s else s.wrF (chOff n Reg.tiaCdCtl) 25 24 1

/-- The measured lines of channel `n` are plausible at this instant: the line of the cell for Kpad, the comparators' lines for REF (R309, R386,
R468; DEDUCED, log 60). -/
def State.linesOk (s : State) (n : Nat) (l : List Nat) : Bool := l.all (s.lineOk n)

/-- A new value is taken among the new ones, or its channels keep the old one. -/
def State.calTake (s : State) (r : CalRun) (item : Nat) (v : CalValue) : State :=
  match v with
  | .corrClu c g o =>
    if item ≠ 0 ∨ ¬ calClu r.arg c.val then s
    else if s.corrOk r (0x1000 + 128 * c.val) g o then s.modRun (fun r => r.put (0x1000 + 128 * c.val) (corrBytes g o))
    else (chansOf c.val).foldl (fun t n => t.calFail n 0) s
  | .corrCh ch i g o =>
    let n := ch.val
    let off := chanRec n (4 * i.val)
    if item ≠ (if i.val < 11 then 2 else 1) ∨ ¬ calClu r.arg (n / 16) ∨ (item = 2 ∧ s.rdB (failReg n) 1) then s
    else if s.corrOk r off g o then s.modRun (fun r => r.put off (corrBytes g o))
    else s.calFail n item
  | .table ch line hits =>
    let n := ch.val
    if item ≠ 3 ∨ ¬ calClu r.arg (n / 16) then s
    else if hits.sum ≠ 2 ^ 20 then s
    else if densityFails hits then ((s.raise (chOff n Reg.tiaFlags) 3).wrF (chOff n Reg.tiaCdCtl) 25 24 2).calFail n 3
    else (s.testPassed n).modRun (fun r =>
      let valid := s.calNew r (chanRec n 0x70) 1 ||| 2 ^ line.val
      let r1 : CalRun := r.put (0x12000 + (6 * n + line.val) * 640) ((densityTable hits).flatMap (leBytes 2))
      let r2 : CalRun := r1.put (chanRec n 0x70) (leBytes 1 valid)
      { r2 with tables := r.tables ++ [(n, line.val)] })
  | .kpad ch cell x ok =>
    let n := ch.val
    let off := chanRec n (0x5C + 2 * cell.val)
    if item ≠ 4 ∨ ¬ calClu r.arg (n / 16) then s
    else if ok ∧ s.linesOk n [cell.val] ∧ (¬ s.driftLimited r ∨ within 41 (x.toInt - s.kpad n cell.val)) then
      s.modRun (fun r => (r.put off (leBytes 2 x.toNat)).put (chanRec n 0x6E) (leBytes 2 (toField 16 (s.temp (8 + n / 16)))))
    else s.calFail n 4
  | .ref ch x ok =>
    let n := ch.val
    if item ≠ 5 ∨ ¬ calClu r.arg (n / 16) ∨ s.rdB (failReg n) 4 ∨ r.disturbed then s
    else if s.refOk r n x (ok && s.linesOk n [4, 5]) then s.modRun (fun r => r.put (chanRec n 0x68) (leBytes 2 x.toNat))
    else s.calFail n 5

/-- One value of the present step. -/
def State.calOne (s : State) (item : Nat) (v : CalValue) : State :=
  match s.cal.run with
  | some r => s.calTake r item v
  | none => s

/-- The channels whose item fails with an earlier one: LEVELS after a failed PMU, TIP after a failed Kpad or a disturbed step (R466,
R468; DEDUCED, log 60). -/
def State.calForced (s : State) (r : CalRun) (item : Nat) : List Nat :=
  (calChans r.arg).filter (fun n =>
    (item == 2 && s.rdB (failReg n) 1) || (item == 5 && (s.rdB (failReg n) 4 || r.disturbed)))

/-- CAL_STATUS.STEP of the item at the front. -/
def stepCode (l : List Nat) : Nat := match l with | i :: _ => i + 1 | [] => 0

/-- The channels whose pads the TIP step uses: a secondary's is high-Z (R240, R467). -/
def State.tipChans (s : State) (r : CalRun) : List Nat := (calChans r.arg).filter (fun n => !s.secondary n)

/-- A half of the TIP step begins, with the pads open (R385, R467). -/
def State.tipHalf (s : State) (r : CalRun) (second : Bool) : State :=
  (s.tipChans r).foldl (fun t n => t.halfDrive n ((n % 2 == 1) == second)) (s.modRun (fun r => { r with half := second }))

/-- The TIAs of a half of the TIP step that have not completed are aborted. -/
def State.tipStop (s : State) (r : CalRun) : State := (s.tipChans r).foldl State.tiaStop s

/-- What a step sets up when it begins: the TIA step tests the lines in scope, and the TIP step takes the settings of R385 (R316, R467). -/
def State.calStepBegin (s : State) : State :=
  match s.cal.run with
  | none => s
  | some r =>
    match r.left.head? with
    | some 3 => (calChans r.arg).foldl (fun t n => (t.wrB (chOff n Reg.tiaCdCtl) 31 true).wrF (chOff n Reg.tiaCdCtl) 25 24 0) s
    | some 5 => (s.tipChans r).foldl State.rangeStart (s.tipHalf r false)
    | _ => s

/-- What a step gives back when it ends: the TIA step's tests are over, and the TIP step's measurements with the source of each channel. -/
def State.calStepOver (s : State) (r : CalRun) (item : Nat) : State :=
  if item = 3 then (calChans r.arg).foldl (fun t n => t.wrB (chOff n Reg.tiaCdCtl) 31 (!(t.chan n).cdLeft.isEmpty)) s
  else if item = 5 then s.tipStop r
  else s

/-- TDR_HALF_END of the TIP step. -/
def State.tipHalfEnd (s : State) : State :=
  match s.cal.run with
  | some r => if s.tipStep ∧ ¬ r.half then (s.tipStop r).tipHalf r true else if s.tipStep then s.tipStop r else s
  | none => s

/-- CAL_STEP_END: the present step ends with the values it has measured. -/
def State.calStepEnd (s : State) (values : List CalValue) : State :=
  match s.cal.run with
  | none => s
  | some r =>
    match r.left with
    | [] => s
    | item :: rest =>
      let s1 := (s.calForced r item).foldl (fun t n => t.calFail n item) s
      let s2 := ((values.foldl (fun t v => t.calOne item v) s1).calStepOver r item).modRun (fun r => { r with left := rest })
      if rest = [] then s2 else (s2.wrF Reg.calStatus 18 16 (stepCode rest)).calStepBegin

/-! ### Start and end (R465, R466, R469) -/

/-- CALIBRATE. -/
def State.cmdCalibrate (s : State) : State :=
  s.runCmd 0x0A (fun c t =>
    let a := c.arg0
    if calBad a then t.complete c St.badField 0 0
    else if t.planBusy ∨ t.sounding ∨ t.snd.request.isSome ∨ t.calBusy ∨ t.marchDestructive then t.complete c St.busy 0 0
    else
      let items := calItems a
      let t1 := if items = [] then t else (calClus a).foldl State.takeClu t
      let t2 := (if items = [] then t1 else (calChans a).foldl (fun u n => u.wr (failReg n) 0) t1).densityStart (List.range 512)
      let t3 := (t2.wrF Reg.calStatus 18 16 (stepCode items)).bgStart c
      let r : CalRun := { arg := a, left := items, partly := false, fresh := [], tables := [], half := false, disturbed := false, applied := false }
      ({ t3 with cal := { t3.cal with storeStep := 0, run := some r } } : State).calStepBegin)

/-- The calibration is over: its outcome is reported (R469). -/
def State.calFinish (s : State) (r : CalRun) (outcome : Nat) (us : W32) : State :=
  let s1 : State := { s with cal := { s.cal with run := none, storeStep := 0 } }
  let s2 := (s1.wrF Reg.calStatus 26 24 outcome).wrF Reg.calStatus 18 16 0
  let s3 := (s2.wr Reg.calTime us).wr Reg.calScope (BitVec.ofNat 32 (r.arg % 2 ^ 18))
  (s3.post 296 0x30 (evData [(0, outcome), (32, r.arg % 2 ^ 18)])).bgEnd 0x0A St.ok outcome

/-- PASS or PARTIAL. -/
def CalRun.outcome (r : CalRun) : Nat := b2n r.partly

/-- The code-density tests that a calibration has started end with it: their lines keep what they have. -/
def State.testsOver (s : State) : State :=
  ((List.range 512).filter s.padHeld).foldl (fun t n => (t.wrB (chOff n Reg.tiaCdCtl) 31 false).modChan n (fun k => { k with cdLeft := [] })) s

/-- CAL_ABORT: a host write of ABORT (R466; DESIGN CHOICE, log 61). -/
def State.calAbort (s : State) (us : W32) : State :=
  match s.cal.run with
  | some r => (if r.applied then s else s.testsOver.releaseAll).calFinish r 3 us
  | none => s

/-- The new tables come into use: each line enters TABLE (R313). -/
def State.applyTables (s : State) (l : List (Nat × Nat)) : State :=
  l.foldl (fun t x =>
    ((t.setTable x.1 x.2 (t.calTable x.1 x.2)).setLine x.1 x.2 3).modChan x.1 (fun k =>
      { k with testTemp := Tbl.set (fun _ => 0) k.testTemp x.2 (t.temp (8 + x.1 / 16)) })) s

/-- The new values take effect together (R462, R469). -/
def State.calApply (s : State) (r : CalRun) : State :=
  let items := calItems r.arg
  let s1 := r.fresh.foldl (fun t e => match e.2 with | some b => t.calWr e.1 [b] | none => t) s
  let s2 := if items = [] then s1 else
    ((calChans r.arg).foldl (fun t n => t.calWr (chanRec n 0x72) (leBytes 2 (t.rdF (failReg n) 5 0))) s1).calWr 0x20 (leBytes 4 r.arg)
  let s3 := s2.applyTables r.tables
  if items.contains 4 || items.contains 5 then s3.allKref else s3

/-- CAL_DONE: the measuring steps have ended (R469). -/
def State.calDone (s : State) (us : W32) : State :=
  match s.cal.run with
  | some r =>
    if r.left = [] ∧ ¬ r.applied then
      let s1 := (s.calApply r).releaseAll
      if calStores r.arg then
        let s2 := s1.wrF Reg.calStatus 18 16 7
        { s2 with cal := { s2.cal with storeStep := 1, run := some { r with applied := true } } }
      else s1.calFinish r r.outcome us
    else s
  | none => s

/-! ### The store of a bank (R470 to R473) -/

/-- The first flash byte of bank A (0) or B (1) (R81). -/
def bankBase (b : Nat) : Nat := 0x200000 + 0x200000 * b

/-- The target bank: the one that is not active, A if none is (R473). -/
def State.targetBank (s : State) : Nat := if s.rdF Reg.calStatus 1 0 = 1 then 1 else 0

/-- The 4 KiB header that a store programs (R471). -/
def State.bankHeader (s : State) (b seq : Nat) : List Byte :=
  leBytes 4 0x424C4143 ++ leBytes 2 1 ++ leBytes 1 b ++ leBytes 1 0 ++ leBytes 4 seq ++ leBytes 4 s.clk.pcycle.toNat ++
    leBytes 8 s.clk.optime.toNat ++ leBytes 8 Config.serial.toNat ++ leBytes 4 (s.calRd 0x20 4) ++ leBytes 4 0 ++
    leBytes 8 (s.calRd 0x28 5) ++ (List.range 64).map (fun i => Tbl.get calDefault s.cal.bytes (0x30 + i)) ++ leBytes 3984 0

/-- `n` bytes of the calibration store at a bank offset. -/
def State.storeBytes (s : State) (o n : Nat) : List Byte := Tbl.getList calDefault s.cal.bytes o n

/-- The lines whose table is stored: (channel, cell). -/
def State.storedTables (s : State) : List (Nat × Nat) :=
  (List.range 512).flatMap (fun n => (bitList 6 (s.calRd (chanRec n 0x70) 1)).map (fun j => (n, j)))

/-- Step 4 of R473: the records and the valid tables are programmed. -/
def State.bankProgram (s : State) (b : Nat) : State :=
  s.storedTables.foldl (fun t x =>
    let o := 0x12000 + (6 * x.1 + x.2) * 640
    t.flashWr (bankBase b + o) (t.storeBytes o 640)) (s.flashWr (bankBase b + 0x1000) (s.storeBytes 0x1000 0x11000))

/-- CAL_SEQ_A or CAL_SEQ_B. -/
def seqReg (b : Nat) : Nat := if b = 0 then Reg.calSeqA else Reg.calSeqB

/-- CAL_COUNT + 1, the SEQ of the store. -/
def State.nextSeq (s : State) : Nat := ((s.rd Reg.calCount).toNat + 1) % 2 ^ 32

/-- The effect of step `k` of R473 on the flash. -/
def State.storeWork (s : State) (k : Nat) : State :=
  let b := s.targetBank
  match k with
  | 1 => ((s.flashErase (bankBase b) 65536).wrB Reg.calStatus (2 + b) false).wr (seqReg b) 0
  | 2 => (s.flashWr (bankBase b) (s.bankHeader b s.nextSeq)).wr (seqReg b) (BitVec.ofNat 32 s.nextSeq)
  | 3 => s.flashErase (bankBase b + 65536) (31 * 65536)
  | 4 => s.bankProgram b
  | _ => s

/-- Step `k` of R473 has failed: the flash that it works on holds free values (DESIGN CHOICE, log 61). -/
def State.storeLost (s : State) (k : Nat) : State :=
  let o := bankBase s.targetBank
  match k with
  | 1 => s.flashLost o 65536
  | 2 => s.flashLost o 4096
  | 3 => s.flashLost (o + 65536) (31 * 65536)
  | 4 => s.flashLost (o + 0x1000) 0x1FE000
  | _ => s

/-- CAL_STORE_STEP: step 1 to 5 of R473 has ended, or the flash reported an error. -/
def State.storeNext (s : State) (ok : Bool) (us : W32) : State :=
  match s.cal.run with
  | some r =>
    let k := s.cal.storeStep
    if ¬ r.applied ∨ k = 0 ∨ 5 < k then s
    else if ¬ ok then ((s.storeLost k).raise Reg.calFlags 2).calFinish r 2 us
    else
      let s1 := s.storeWork k
      { s1 with cal := { s1.cal with storeStep := k + 1 } }
  | none => s

/-- The commit marker of R472. -/
def bankMarker (seq dataCrc : Nat) : List Byte :=
  let b := leBytes 4 0x54494D43 ++ leBytes 4 seq ++ leBytes 4 dataCrc
  b ++ leBytes 4 (crc32c b)

/-- Bank `b` is active with the count and times of its header (R473, R475). -/
def State.bankActive (s : State) (b : Nat) : State :=
  let o := bankBase b
  let s1 := (((s.wrF Reg.calStatus 1 0 (b + 1)).wrB Reg.calStatus 4 false).wrB Reg.calStatus (2 + b) true).wrB Reg.bootStatus 10 false
  let s2 := ((s1.wr Reg.calCount (BitVec.ofNat 32 (s.flashLe (o + 8) 4))).wr64 Reg.calLastOptLo (s.flashLe (o + 0x10) 5)).wr Reg.calLastPcycle
    (BitVec.ofNat 32 (s.flashLe (o + 0xC) 3))
  { s2 with cal := { s2.cal with fromBank := true } }

/-- CAL_STORE_COMMIT: the marker is programmed, and the target is the active bank (R473). -/
def State.storeCommit (s : State) (us : W32) : State :=
  match s.cal.run with
  | some r =>
    if r.applied ∧ s.cal.storeStep = 6 then
      let b := s.targetBank
      let crc := crc32c (s.flashRd (bankBase b) 0x1FF000)
      let s1 := s.flashWr (bankBase b + 0x1FF000) (bankMarker (s.flashLe (bankBase b + 8) 4) crc)
      (s1.bankActive b).calFinish r r.outcome us
    else s
  | none => s

/-! ### Meanings -/

/-- CALIBRATE (R465). -/
def execCalibrate (s : State) : Out := .next s.cmdCalibrate

/-- A host write of CAL_CTL.ABORT (R466). -/
def execCalAbort (us : W32) (s : State) : Out := .next (s.onWrite Reg.calCtl (fun t => t.calAbort us))

/-- CAL_STEP_END (R467). -/
def execCalStepEnd (values : List CalValue) (s : State) : Out := .next (s.calStepEnd values)

/-- TDR_HALF_END (R385), in a sounding pass or in the TIP step of a calibration. -/
def execTdrHalfEnd (s : State) : Out := .next (if s.sounding then s.halfEnd else s.tipHalfEnd)

/-- CAL_DONE (R469). -/
def execCalDone (us : W32) (s : State) : Out := .next (s.calDone us)

/-- CAL_STORE_STEP (R473). -/
def execCalStoreStep (ok : Bool) (us : W32) (s : State) : Out := .next (s.storeNext ok us)

/-- CAL_STORE_COMMIT (R473). -/
def execCalStoreCommit (us : W32) (s : State) : Out := .next (s.storeCommit us)

end Sys2Proof.Machine
end

