-- ==== Sys2Proof/Machine/Causeway.lean ====
section
/-! DEFINITION. The Causeway (R395 to R420): ports, link calibration, election, messages, and the end of a plan, which sends the
site summary. -/

namespace Sys2Proof.Machine

/-! ### Ports (R398) -/

/-- The ports run: the configuration is sealed and no reset or safe state holds the module (R109, R498; DEDUCED, log 62). -/
def State.cwyRuns (s : State) : Bool := s.boot.sealed && (s.boot.stage == .booting || s.boot.stage == .ready)

/-- A port beside its registers. -/
def State.port (s : State) (p : Port) : PortSt := match p with | .up => s.cwy.up | .dn => s.cwy.dn

/-- Updates a port. -/
def State.modPort (s : State) (p : Port) (f : PortSt → PortSt) : State :=
  match p with
  | .up => { s with cwy := { s.cwy with up := f s.cwy.up } }
  | .dn => { s with cwy := { s.cwy with dn := f s.cwy.dn } }

/-- The other port. -/
def otherPort (p : Port) : Port := match p with | .up => .dn | .dn => .up

/-- 0 for the upstream port, 1 for the downstream. -/
def portNo (p : Port) : Nat := match p with | .up => 0 | .dn => 1

/-- The least significant bit of a port's state in CWY_STATUS. -/
def portLsb (p : Port) : Nat := match p with | .up => 4 | .dn => 8

/-- The state of a port, coded as in R398. -/
def State.portState (s : State) (p : Port) : Nat := s.rdF Reg.cwyStatus (portLsb p + 3) (portLsb p)

/-- Puts a port into a state. -/
def State.setPort (s : State) (p : Port) (v : Nat) : State := s.wrF Reg.cwyStatus (portLsb p + 3) (portLsb p) v

/-- A port moves from one state to another, where it is in the first. -/
def State.portStep (s : State) (p : Port) (old new : Nat) : State :=
  if s.cwyRuns ∧ s.portState p = old then s.setPort p new else s

/-- A port is refused (R399): the reason is shown, and CWY_LINK posted. -/
def State.portRefuse (s : State) (p : Port) (reason : Nat) : State :=
  let o := 8 * portNo p
  let s1 := ((s.setPort p 6).wrF Reg.cwyRefuse (o + 7) o reason).raise Reg.cwyFlags 1
  s1.post 272 0x18 (evData [(0, portNo p), (8, 6), (16, reason)])

/-- The refusal reason of R399 for what a partner sends in IDENT; 0 where there is none. -/
def State.identReason (s : State) (p : Port) (peer : Peer) : Nat :=
  if peer.port = p then 1
  else if peer.systemId.toNat ≠ s.rdF Reg.cwyCfg 31 16 then 2
  else if 64 < peer.nodes then 3
  else 0

/-- CWY_PEER_UP_LO or CWY_PEER_DN_LO. -/
def peerReg (p : Port) : Nat := match p with | .up => Reg.cwyPeerUpLo | .dn => Reg.cwyPeerDnLo

/-- What this module sends in IDENT by a port (R399). -/
def State.ident (s : State) (p : Port) : Ident :=
  { serial := Config.serial, part := s.rd Reg.idPart, stepping := s.rd Reg.idStepping, peat := s.rd Reg.idPeat,
    systemId := s.rdF Reg.cwyCfg 31 16, priority := s.rdF Reg.cwyCfg 15 8, port := p }

/-- IDENT_EXCHANGE (R399): the module sends its identity, the partner's serial number is shown, and the port goes on to CAL or is refused. -/
def State.identExchange (s : State) (p : Port) (peer : Peer) : State :=
  if s.cwyRuns ∧ s.portState p = 3 then
    let s1 := (s.modPort p (fun t => { t with sent := some (s.ident p) })).wr64 (peerReg p) peer.serial.toNat
    let r := s1.identReason p peer
    if r = 0 then s1.setPort p 4 else s1.portRefuse p r
  else s

/-- CWY_UP_CAL or CWY_DN_CAL. -/
def calReg (p : Port) : Nat := match p with | .up => Reg.cwyUpCal | .dn => Reg.cwyDnCal

/-- DELAY in grid steps from the sum of 256 round trips, with TURN = 25,600 steps and the asymmetry in 1/16 step (R400). -/
def linkDelay (sum : Nat) (asym : Int) : Nat := toField 16 (divNearest ((sum : Int) - 6553600 - 16 * asym) 512)

/-- The port is UP: it holds 64 credits, and its receive buffer holds what still waits at the other port (R408). -/
def State.portUp (s : State) (p : Port) : State :=
  (s.setPort p 5).modPort p (fun t => { t with credits := 64, queue := [], held := (s.port (otherPort p)).queue.length, back := 0 })

/-- LINK_CALIBRATION (R400): the port reports DELAY and LAT, the downstream end returns them to its partner, and the port is UP, or is refused
where LAT is too long (R399); a LAT above 255 shows as 255 (DESIGN CHOICE, log 102). A new DELAY of the upstream link moves a LOCKED
follower's target (R405). -/
def State.linkCal (s : State) (p : Port) (meas lat : Nat) : State :=
  if s.cwyRuns ∧ s.portState p = 4 then
    let delay := match p with | .up => linkDelay meas (sext 16 (s.rdF Reg.cwyAsym 15 0)) | .dn => meas % 65536
    let moved := p == .up && s.timing == 2 && delay != s.rdF (calReg p) 15 0
    let s1 := s.wr (calReg p) (pack [(0, delay), (24, min 255 lat)])
    let s2 := if p = .up then s1.modPort p (fun t => { t with calSent := some (delay, lat) }) else s1
    if 128 < lat then s2.portRefuse p 4
    else
      let s3 := s2.portUp p
      { s3 with cwy := { s3.cwy with slewing := s3.cwy.slewing || moved } }
  else s

/-! ### The send queue (R407 to R409) -/

/-- The segment is a ring. -/
def State.isRing (s : State) : Bool := s.rdB Reg.cwyStatus 31

/-- The module's own cells leave by a port: both in a chain, the downstream one in a ring, where it is UP (R407). -/
def State.sendsOn (s : State) (p : Port) : Bool := s.portState p == 5 && (p == .dn || !s.isRing)

/-- A message has left by a port. -/
def Send.left (m : Send) (p : Port) : Bool := match p with | .up => m.up | .dn => m.dn

/-- A message has left by every port that it leaves by. -/
def State.sendDone (s : State) (m : Send) : Bool :=
  m.seq.isSome && (m.up || !s.sendsOn .up) && (m.dn || !s.sendsOn .dn)

/-- Messages that have left leave the queue, and those that wait for room enter it. -/
def State.sendPurge (s : State) : State :=
  let q := s.cwy.sendQ.dropWhile (fun m => s.sendDone m)
  let n := 16 - q.length
  { s with cwy := { s.cwy with sendQ := q ++ s.cwy.sendWait.take n, sendWait := s.cwy.sendWait.drop n } }

/-- The least significant 48 bits of a cell. -/
def cellLow (type origin hops seq payload : Nat) : Nat :=
  type % 16 + 2 ^ 4 * (origin % 64) + 2 ^ 10 * (hops % 64) + 2 ^ 16 * (seq % 256) + 2 ^ 24 * (payload % 2 ^ 20)

/-- The CRC of a cell, over its bits [47:0] and [127:64] (R397). -/
def cellCrc (low ext : Nat) : Nat := crc16 (leBytes 6 low ++ leBytes 8 ext)

/-- A message cell (R397). -/
def mkCell (type origin hops seq payload : Nat) (ext : BitVec 64) : Cell :=
  let low := cellLow type origin hops seq payload
  BitVec.ofNat 128 (low + 2 ^ 48 * cellCrc low ext.toNat + 2 ^ 64 * ext.toNat)

/-- A field of a cell. -/
def Cell.fld (x : Cell) (msb lsb : Nat) : Nat := (x.toNat >>> lsb) % 2 ^ (msb + 1 - lsb)

/-- The CRC of a received cell holds. -/
def Cell.ok (x : Cell) : Bool := x.fld 63 48 == cellCrc (x.fld 47 0) (x.fld 127 64)

/-! ### Summaries (R413) -/

/-- The summary table entry of a position. -/
def sumEntry (pos : Nat) : Nat := Reg.cwySum0 + 32 * pos

/-- A complete summary enters the table. -/
def State.sumStore (s : State) (pos plan : Nat) (l : List SumPart) : State :=
  let s1 := l.zipIdx.foldl (fun t x => t.wr64 (sumEntry pos + 4 + 8 * x.2) x.1.ext.toNat) s
  s1.wr (sumEntry pos) (pack [(0, plan), (31, 1)])

/-- The parts held of an origin's summary after one more: they go on only with consecutive SEQ, the same plan and the next part. -/
def nextParts (l : List SumPart) (x : SumPart) : List SumPart :=
  match l.getLast? with
  | some y => if x.part = l.length ∧ x.plan = y.plan ∧ x.seq = (y.seq + 1) % 256 then l ++ [x] else if x.part = 0 then [x] else []
  | none => if x.part = 0 then [x] else []

/-- One part of a summary of an origin; whether it completes it. -/
def State.sumPart (s : State) (pos : Nat) (x : SumPart) : State × Bool :=
  let l := nextParts (Tbl.get (fun _ => []) s.cwy.parts pos) x
  let full := l.length == 3
  let keep := if full then [] else l
  let s1 : State := { s with cwy := { s.cwy with parts := Tbl.set (fun _ => []) s.cwy.parts pos keep } }
  (if full then s1.sumStore pos x.plan l else s1, full)

/-! ### Injection (R408, R412 to R414) -/

/-- What the origin itself does as its message leaves: the shared-trigger latch, the start instant that START sets, its own
summary table entry. -/
def State.ownEffect (s : State) (m : Send) (seq : Nat) : State :=
  match m.type with
  | 1 => s.setExt
  | 8 => { s with plan := { s.plan with startDue := s.plan.startDue + 1 } }
  | 9 => (s.sumPart (s.rdF Reg.cwyStatus 21 16)
      { seq := seq, plan := m.payload % 1024, part := m.payload / 1024 % 4, ext := m.ext }).1
  | _ => s

/-- The first message that has not left by a port, with its place. -/
def State.nextSend (s : State) (p : Port) : Option (Nat × Send) :=
  (s.cwy.sendQ.zipIdx.find? (fun x => !x.1.left p)).map (fun x => (x.2, x.1))

/-- A message leaves by a port, or without one where no port is UP (DEDUCED, log 65): its SEQ is given and its own effect falls as its first
cell leaves. -/
def State.sendOut (s : State) (p : Port) (i : Nat) (m : Send) (real : Bool) : State :=
  let seq := m.seq.getD s.cwy.seq
  let m1 : Send := { m with seq := some seq, up := m.up || p == .up, dn := m.dn || p == .dn }
  let s1 : State := { s with cwy := { s.cwy with sendQ := s.cwy.sendQ.set i m1, seq := if m.seq.isSome then s.cwy.seq else (s.cwy.seq + 1) % 256 } }
  let x := mkCell m.type (s.rdF Reg.cwyStatus 21 16) 0 seq m.payload m.ext
  let s2 := if real then s1.modPort p (fun t => { t with credits := t.credits - 1, lastOut := some x }) else s1
  (if m.seq.isSome then s2 else s2.ownEffect m seq).sendPurge

/-- CELL_INJECT (R408): the oldest own message not yet sent by a port leaves it while it holds at least 8 credits and no forwarded
cell waits. -/
def State.cellInject (s : State) (p : Port) : State :=
  if ¬ s.cwyRuns then s
  else
    match s.nextSend p with
    | none => s
    | some (i, m) =>
      if s.sendsOn p then
        if 8 ≤ (s.port p).credits ∧ (s.port p).queue = [] then s.sendOut p i m true else s
      else if ¬ s.sendsOn (otherPort p) ∧ i = 0 then s.sendOut p i m false
      else s

/-- Does a host write of CWY_SEND name a type and payload that R412 lets it send? -/
def sendLegal (type payload : Nat) : Bool :=
  match type with
  | 1 => payload == 0
  | 2 => payload / 2 ^ 17 == 0
  | 3 => payload == 0
  | 4 => payload == 0
  | 5 => true
  | _ => false

/-- CWY_SEND_WRITE (R409). -/
def State.sendWrite (s : State) (v : W32) : State :=
  if ¬ bitOf v 31 then s
  else if s.sendRoom && sendLegal (fieldOf v 23 20) (fieldOf v 19 0) then s.sendMsgQ (fieldOf v 23 20) (fieldOf v 19 0) 0
  else s.raise Reg.cwyFlags 4

/-! ### Reception (R407, R408, R410, R412) -/

/-- `k` cells leave the receive buffer of a port, and as many credits go back to its partner (R408). -/
def State.bufferFree (s : State) (p : Port) (k : Nat) : State := s.modPort p (fun t => { t with held := t.held - k, back := t.back + k })

/-- Forwarded cells leave a port as far as its credits go, and the other port's receive buffer. -/
def State.portDrain (s : State) (p : Port) : State :=
  let k := min (s.port p).credits (s.port p).queue.length
  (s.modPort p (fun t =>
    { t with credits := t.credits - k, queue := t.queue.drop k,
             lastOut := match (t.queue.take k).getLast? with | some x => some x | none => t.lastOut })).bufferFree (otherPort p) k

/-- CREDIT_RETURN (R408): credits come back, and waiting cells leave. -/
def State.portCredit (s : State) (p : Port) (n : Nat) : State :=
  if s.cwyRuns ∧ s.portState p = 5 then
    (s.modPort p (fun t => { t with credits := min 64 (t.credits + n) })).portDrain p
  else s

/-- CELL_FORWARD (R407): the cell goes on by the other port, with HOPS incremented, or its buffer is free again. -/
def State.forward (s : State) (p : Port) (x : Cell) : State :=
  let q := otherPort p
  let hops := x.fld 15 10 + 1
  if s.portState q = 5 ∧ hops < s.rdF Reg.cwyStatus 30 24 then
    let y := mkCell (x.fld 3 0) (x.fld 9 4) hops (x.fld 23 16) (x.fld 43 24) (BitVec.ofNat 64 (x.fld 127 64))
    (s.modPort q (fun t => { t with queue := t.queue ++ [y] })).portDrain q
  else s.bufferFree p 1

/-- The SEQ of an origin is tracked (R410). -/
def State.seqTrack (s : State) (x : Cell) : State :=
  let o := x.fld 9 4
  let n := x.fld 23 16
  let gap := match Tbl.get (fun _ => none) s.cwy.lastSeq o with | some k => n != (k + 1) % 256 | none => false
  let s1 : State := { s with cwy := { s.cwy with lastSeq := Tbl.set (fun _ => none) s.cwy.lastSeq o (some n) } }
  s1.raiseIf gap Reg.cwyFlags 2

/-- A message cell of type `type` arrives on a port, into the receive buffer: it is discarded where its CRC fails, else delivered by `f` and
forwarded. No cell arrives while the buffer is full: its partner holds no credit (R408). -/
def State.cwReceive (s : State) (p : Port) (x : Cell) (type : Nat) (f : State → State) : State :=
  if s.cwyRuns ∧ s.portState p = 5 ∧ (s.port p).held < 64 then
    let s1 := s.modPort p (fun t => { t with held := t.held + 1 })
    if x.ok = false then s1.bufferFree p 1
    else if x.fld 3 0 = type then (f (s1.seqTrack x)).forward p x
    else s
  else s

/-- JUMP: the request reaches the lanes of its group's mask (R412). -/
def State.cwJumpDo (s : State) (x : Cell) : State :=
  s.jumpAll (s.rd (Reg.cwyJgroup + 4 * x.fld 40 36)).toNat (x.fld 35 24)

/-- USER (R412). -/
def State.cwUserDo (s : State) (x : Cell) : State :=
  (s.wr Reg.cwyUser (pack [(0, x.fld 43 24), (20, x.fld 9 4)])).post 274 0x1A (evData [(0, x.fld 43 24), (24, x.fld 9 4)])

/-- CWY_STATUS.ALIGN_OK (R405): 1 but in a follower that is not LOCKED or is slewing. -/
def State.alignOk (s : State) : Bool := s.rdF Reg.clkStatus 3 2 != 2 || (s.timing == 2 && !s.cwy.slewing)

/-- START from position 0 (R414): a follower's armed lanes have a start instant, unless ALIGN_OK is 0. -/
def State.cwStartDo (s : State) (x : Cell) : State :=
  if s.rdF Reg.clkStatus 3 2 ≠ 2 ∨ x.fld 9 4 ≠ 0 then s
  else if s.alignOk then { s with plan := { s.plan with startDue := s.plan.startDue + 1 } }
  else s.raise Reg.cwyFlags 3

/-- SUMMARY (R413). -/
def State.cwSummaryDo (s : State) (x : Cell) : State :=
  let o := x.fld 9 4
  let r := s.sumPart o { seq := x.fld 23 16, plan := x.fld 33 24, part := x.fld 35 34, ext := BitVec.ofNat 64 (x.fld 127 64) }
  if r.2 then r.1.post 275 0x1B (evData [(0, x.fld 33 24), (16, o)]) else r.1

/-! ### Link loss and election (R401 to R406, R418) -/

/-- A port that has been UP stops: its credits and waiting cells are gone, and the other port's receive buffer is free of these. -/
def State.portStop (s : State) (p : Port) : State :=
  ((s.bufferFree (otherPort p) (s.port p).queue.length).modPort p (fun t => { t with credits := 0, queue := [], held := 0 })).sendPurge

/-- A port goes DOWN. -/
def State.portDown (s : State) (p : Port) : State := (s.setPort p 1).portStop p

/-- LINK_LOSS (R418). -/
def State.linkLoss (s : State) (p : Port) : State :=
  if s.cwyRuns ∧ s.portState p = 5 then
    ((s.portDown p).raise Reg.cwyFlags 0).post 272 0x18 (evData [(0, portNo p), (8, 1)])
  else s

/-- ELECTION_CELL (R403): the module floods its serial number, its PRIORITY, whether it is a head, and its timing state. -/
def State.electionCell (s : State) : State :=
  if s.cwyRuns ∧ (s.portState .up = 5 ∨ s.portState .dn = 5) then
    let x : ElectCell := { serial := Config.serial, priority := s.rdF Reg.cwyCfg 15 8, head := s.portState .up != 5, timing := s.timing }
    { s with cwy := { s.cwy with election := some x } }
  else s

/-- Does module `a` win over module `b` in a ring (R402)? -/
def segBeats (a b : SegModule) : Bool :=
  decide (b.priority.toNat < a.priority.toNat) || (a.priority == b.priority && decide (a.serial.toNat < b.serial.toNat))

/-- The index of the time master in the segment: the head of a chain, the winner of a ring (R402). -/
def segMaster (g : Segment) : Nat :=
  if g.ring then
    (g.modules.zipIdx.foldl (fun (b : Option (SegModule × Nat)) x =>
      match b with | some y => if segBeats x.1 y.1 then some x else some y | none => some x) none).elim 0 (fun x => x.2)
  else 0

/-- The module at a position, counted downstream from the time master (R406). -/
def segAt (g : Segment) (pos : Nat) : Option SegModule :=
  if pos < g.modules.length then g.modules[(segMaster g + pos) % g.modules.length]? else none

/-- This module's position. -/
def segPosition (g : Segment) : Nat := (g.self + g.modules.length - segMaster g) % g.modules.length

/-- The sum of a figure of the links from the time master to this module (R406). -/
def segPath (g : Segment) (f : SegModule → Nat) : Nat :=
  ((List.range (segPosition g)).map (fun i => ((segAt g (i + 1)).map f).getD 0)).sum

/-- The serial number at a position, 0 where none is. -/
def segSerialAt (g : Segment) (pos : Nat) : Nat := ((segAt g pos).map (fun m => m.serial.toNat)).getD 0

/-- A settled segment fits the module's own ports: a port is UP exactly where the segment has a neighbour there. -/
def State.segFits (s : State) (g : Segment) : Bool :=
  let n := g.modules.length
  decide (g.self < n) && ((s.portState .up == 5) == (g.ring || g.self != 0)) && ((s.portState .dn == 5) == (g.ring || g.self + 1 != n))

/-- The module becomes time master, follower, or has no partner (R56 to R60). While a follower slews in ACQUIRE, CLK_CORR keeps its last
value until FOLLOWER_LOCK reports the loop's offset (DESIGN CHOICE, log 86). -/
def State.setRole (s : State) (role : Nat) : State :=
  let s1 := s.wrF Reg.clkStatus 3 2 role
  if role = 2 then (if s1.timing = 0 then s1.wrF Reg.clkStatus 1 0 1 else s1)
  else
    let s2 : State := { s1 with cwy := { s1.cwy with slewing := false } }
    (s2.wrF Reg.clkStatus 1 0 0).corrUpdate

/-- A settled election clears the summary table and restarts the tracking of SEQ (R410, R413). -/
def State.trackRestart (s : State) : State :=
  let s1 := (List.range 512).foldl (fun t i => t.wr (Reg.cwySum0 + 4 * i) 0) s
  { s1 with cwy := { s1.cwy with lastSeq := [], parts := [] } }

/-- The registers that a settled election writes (R402, R406, R420). -/
def State.electionRegs (s : State) (g : Segment) : State :=
  let s1 := ((((s.wrB Reg.cwyStatus 31 g.ring).wrF Reg.cwyStatus 30 24 g.modules.length).wrB Reg.cwyStatus 23 false).wrF Reg.cwyStatus 21 16
    (segPosition g)).wr64 Reg.cwyMasterLo (segSerialAt g 0)
  let s2 := (s1.wr Reg.cwyPathLat (BitVec.ofNat 32 (segPath g (fun m => m.lat) % 2 ^ 16))).wr Reg.cwyPathDelay
    (BitVec.ofNat 32 (segPath g (fun m => m.delay) % 2 ^ 24))
  ((List.range 64).foldl (fun t i => t.wr64 (Reg.cwyPosLo + 8 * i) (segSerialAt g i)) s2).trackRestart

/-- A settled election changes the time master, the positions or NODES (R403). -/
def State.topoChanged (s : State) (g : Segment) : Bool :=
  s.rdF Reg.cwyStatus 30 24 != g.modules.length || s.rdF Reg.cwyStatus 21 16 != segPosition g || s.rd64 Reg.cwyMasterLo != segSerialAt g 0 ||
    (List.range 64).any (fun i => s.rd64 (Reg.cwyPosLo + 8 * i) != segSerialAt g i)

/-- A follower's path from the time master changes. -/
def State.pathChanged (s : State) (g : Segment) : Bool :=
  s.rd64 Reg.cwyMasterLo != segSerialAt g 0 || (s.rd Reg.cwyPathLat).toNat != segPath g (fun m => m.lat) % 2 ^ 16 ||
    (s.rd Reg.cwyPathDelay).toNat != segPath g (fun m => m.delay) % 2 ^ 24

/-- A follower whose path has changed loses ALIGN_OK, and ignores a START whose start instant is still to come (R419). -/
def State.pathMoved (s : State) : State :=
  let s1 : State := { s with cwy := { s.cwy with slewing := s.timing == 2 } }
  if s1.plan.startDue ≠ 0 then ({ s1 with plan := { s1.plan with startDue := 0 } } : State).raise Reg.cwyFlags 3 else s1

/-- CWY_TOPO (R403). -/
def State.topoPost (s : State) (ring : Bool) : State :=
  s.post 273 0x19 (evData [(0, s.rdF Reg.cwyStatus 30 24), (8, s.rdF Reg.cwyStatus 21 16), (16, b2n ring), (64, s.rd64 Reg.cwyMasterLo)])

/-- A segment of more than 64 modules elects no time master, and the link over which the count was exceeded is refused where this module has
it (R404). It has no positions: no serial number is shown, and NODES and POSITION keep their values (DESIGN CHOICE, log 103). -/
def State.tooMany (s : State) (g : Segment) : State :=
  let s1 := (s.setRole 0).wrB Reg.cwyStatus 23 true
  let s2 := ((List.range 64).foldl (fun t i => t.wr64 (Reg.cwyPosLo + 8 * i) 0) (s1.wr64 Reg.cwyMasterLo 0)).trackRestart
  let s3 := if s.rd64 Reg.cwyMasterLo ≠ 0 ∨ (List.range 64).any (fun i => s.rd64 (Reg.cwyPosLo + 8 * i) != 0) then s2.topoPost g.ring else s2
  match g.excess with
  | some p => if s3.portState p = 5 then (s3.portStop p).portRefuse p 3 else s3
  | none => s3

/-- This module and its links in a segment are what its own registers hold: its serial number, and the calibrations of its links (R400, R406). -/
def State.segOwn (s : State) (g : Segment) : Segment :=
  let n := g.modules.length
  let cal := fun (m : SegModule) (p : Port) => { m with lat := s.rdF (calReg p) 31 24, delay := s.rdF (calReg p) 15 0 }
  let l1 := g.modules.modify g.self (fun m =>
    let m1 := { m with serial := Config.serial }
    if s.portState .up = 5 then cal m1 .up else m1)
  { g with modules := if s.portState .dn = 5 then l1.modify ((g.self + 1) % n) (fun m => cal m .dn) else l1 }

/-- ELECTION_SETTLE (R401 to R406). -/
def State.electionSettle (s : State) (seg : Segment) : State :=
  let g := s.segOwn seg
  if ¬ s.cwyRuns ∨ ¬ s.segFits g then s
  else if 64 < g.modules.length then s.tooMany g
  else
    let changed := s.topoChanged g
    let role := if g.modules.length = 1 then 0 else if segPosition g = 0 then 1 else 2
    let moved := role == 2 && s.rdF Reg.clkStatus 3 2 == 2 && s.pathChanged g
    let s1 := (s.electionRegs g).setRole role
    let s2 := if moved then s1.pathMoved else s1
    if changed then s2.topoPost g.ring else s2

/-- PHASE_SLEW_END (R405). -/
def State.slewEnd (s : State) : State := { s with cwy := { s.cwy with slewing := false } }

/-! ### Plan end (R174, R284, R413) -/

/-- The plan has come to its end: the master part has halted, every lane is idle, every edge is placed, every result judged and every
fail queue drained (R174). -/
def State.planOver (s : State) : Bool :=
  decide (2 ≤ s.plnState) && s.plan.loading.isNone && (s.seq 32).st == 0 && s.lanesIdle s.plan.lanes.toNat &&
    (lanesOf s.plan.lanes.toNat).all s.laneDrained

/-- The end status: the highest that applies. -/
def Plan.endStatus (p : Plan) : Nat :=
  if p.faulted then 5 else if p.stopped then 4 else if p.underrun then 3 else if p.gapped then 2 else 1

/-- The sites, masked ones left out, that meet a condition. -/
def State.siteBits (s : State) (f : Nat → Bool) : Nat :=
  ofBits ((List.range 64).filter (fun k => !s.siteMask.getLsbD k && f k))

/-- SITE_SUMMARY_FREEZE (R284). -/
def State.freezeSummary (s : State) : State :=
  let st := fun k => Reg.flSiteStatus + 16 * k
  ((s.wr64 Reg.flSumFailLo (s.siteBits (fun k => decide (s.rd (Reg.flSiteFail + 16 * k) ≠ 0)))).wr64 Reg.flSumUnrepLo
    (s.siteBits (fun k => s.rdB (st k) 2))).wr64 Reg.flSumIncLo (s.siteBits (fun k => s.rdB (st k) 3))

/-- SUMMARY_SEND (R413): three SUMMARY cells in order. -/
def State.sendSummary (s : State) : State :=
  let n := s.plnNumber
  let ext := fun o => BitVec.ofNat 64 (s.rd64 o)
  ((s.sendMsgQ 9 n (ext Reg.flSumFailLo)).sendMsgQ 9 (n + 1024) (ext Reg.flSumUnrepLo)).sendMsgQ 9 (n + 2048) (ext Reg.flSumIncLo)

/-- PLAN_END (R174). -/
def State.planEnd (s : State) : State :=
  if s.planOver then
    let e := s.plan.endStatus
    let s1 := (s.wrF Reg.plnResult 11 8 e).wrF Reg.plnState 19 17 0
    (s1.freezeSummary.sendSummary).bgEnd 0x01 St.ok e
  else s

/-! ### Meanings -/

/-- PORT_TRAIN_RETRY (R398): a port that is DOWN trains, where a partner is found; one that trains and finds none is DOWN. -/
def execPortTrainRetry (x : PortSeen) (s : State) : Out :=
  .next (if x.partner then s.portStep x.p 1 2 else s.portStep x.p 2 1)

/-- PORT_TRAINED (R398). -/
def execPortTrained (p : Port) (s : State) : Out := .next (s.portStep p 2 3)

/-- IDENT_EXCHANGE (R399). -/
def execIdentExchange (p : Port) (peer : Peer) (s : State) : Out := .next (s.identExchange p peer)

/-- LINK_CALIBRATION (R400). -/
def execLinkCalibration (p : Port) (meas lat : Nat) (s : State) : Out := .next (s.linkCal p meas lat)

/-- REFUSED_RETRY (R398). -/
def execRefusedRetry (p : Port) (s : State) : Out := .next (s.portStep p 6 1)

/-- ELECTION_CELL (R403). -/
def execElectionCell (s : State) : Out := .next s.electionCell

/-- ELECTION_SETTLE (R403). -/
def execElectionSettle (seg : Segment) (s : State) : Out := .next (s.electionSettle seg)

/-- LINK_LOSS (R418). -/
def execLinkLoss (p : Port) (s : State) : Out := .next (s.linkLoss p)

/-- CREDIT_RETURN (R408). -/
def execCreditReturn (p : Port) (n : Nat) (s : State) : Out := .next (s.portCredit p n)

/-- CELL_INJECT (R408). -/
def execCellInject (p : Port) (s : State) : Out := .next (s.cellInject p)

/-- A host write of CWY_SEND (R409). -/
def execCwySendWrite (v : W32) (s : State) : Out := .next (s.onWrite Reg.cwySend (fun t => t.sendWrite v))

/-- TRIG (R412). -/
def execCwTrig (p : Port) (cell : BitVec 128) (s : State) : Out := .next (s.cwReceive p cell 1 State.setExt)

/-- JUMP message (R412). -/
def execCwJump (p : Port) (cell : BitVec 128) (s : State) : Out := .next (s.cwReceive p cell 2 (fun t => t.cwJumpDo cell))

/-- TOUCH (R412, R377). -/
def execCwTouch (p : Port) (cell : BitVec 128) (s : State) : Out := .next (s.cwReceive p cell 3 (fun t => t.touchdown 1))

/-- LIFT (R412, R378). -/
def execCwLift (p : Port) (cell : BitVec 128) (s : State) : Out := .next (s.cwReceive p cell 4 (fun t => t.liftoff 1))

/-- USER (R412). -/
def execCwUser (p : Port) (cell : BitVec 128) (s : State) : Out := .next (s.cwReceive p cell 5 (fun t => t.cwUserDo cell))

/-- START (R414). -/
def execCwStart (p : Port) (cell : BitVec 128) (s : State) : Out := .next (s.cwReceive p cell 8 (fun t => t.cwStartDo cell))

/-- SUMMARY (R413). -/
def execCwSummary (p : Port) (cell : BitVec 128) (s : State) : Out := .next (s.cwReceive p cell 9 (fun t => t.cwSummaryDo cell))

/-- PHASE_SLEW_END (R405). -/
def execPhaseSlewEnd (s : State) : Out := .next s.slewEnd

/-- PLAN_END (R174). -/
def execPlanEnd (s : State) : Out := .next s.planEnd

end Sys2Proof.Machine
end

