-- ==== Sys2Proof/Machine/Power.lean ====
section
/-! DEFINITION. Full resets, wedges, supplies and sensors (R492 to R527): shedding and the state after a reset, the safe state, the
power-fail warning, and the sensors. -/

namespace Sys2Proof.Machine

/-! ### What a full reset leaves (R501 to R503) -/

/-- The registers that a warm reset keeps: the locked lines of R308 run on. -/
def keptReg (off : Nat) : Bool := decide (0x800000 ≤ off) && localOff off == 0x10000 + Reg.tiaLine

/-- A channel across a warm reset: its lines keep their tables. -/
def Chan.warm (k : Chan) : Chan := { chanReset with widths := k.widths, testTemp := k.testTemp, lastRaw := k.lastRaw }

/-- Host memory and what the host has received stand; the MSI-X table stands where configuration space does. -/
def Hst.reset (h : Hst) (link : Bool) : Hst :=
  { hstReset with cplRing := h.cplRing, hostMem := h.hostMem, messages := h.messages, readData := h.readData, bar2Data := h.bar2Data,
                  msixTable := if link then h.msixTable else [] }

/-- The supplies' bits of PWR_STATUS, VIN_OK to VIO_OK. -/
def State.supplyBits (s : State) : Nat := s.rdF Reg.pwrStatus 3 0

/-- The volatile state after a full reset (R503). `warm`: the time base, the DRAM's contents and the lines' states stand. `link`: the
PCI Express link and its configuration space are kept. -/
def State.volatileReset (s : State) (warm link : Bool) : State :=
  let s1 : State := { s with
    regs := if warm then s.regs.filter (fun e => keptReg e.1) else [],
    shadows := [],
    boot := { stage := .resetHeld, cold := s.boot.cold || !warm, tried := [], firstCode := 0, sealed := false, dramUp := false,
              marched := false, resetDue := false, mgtAge := 0 },
    clk := { s.clk with epochSet := none, epochZero := true, holdTemp := 0, holdBase := 0 },
    evr := evrReset, hst := s.hst.reset link,
    mem := { macros := [], march := none, held := [], dram := s.mem.dram, dramQ := [], timing := [], failCnt := [] },
    cal := { bytes := [], fromBank := false, run := none, storeStep := 0, kb := [], kt := [] },
    pwr := { pfwLow := false, shedEnded := false, valid := 0, temps := [] },
    seqs := [], lanes := [], clus := [],
    chans := if warm then s.chans.filterMap (fun e => if e.2.warm = chanReset then none else some (e.1, e.2.warm)) else [],
    plan := planReset, snd := sndReset, cwy := cwyReset }
  let hs := if link then s.rdF Reg.hstStatus 8 2 else 0
  (s1.wrF Reg.hstStatus 8 2 hs).wrF Reg.pwrStatus 3 0 s.supplyBits

/-- The start of a warm reset (R502): load is shed, the recorder writes its queue (R484), the DRAM enters self-refresh (R457), and
the reset is held. -/
def State.warmReset (s : State) (link : Bool) : State :=
  let s1 := if s.evr.started then s.evrFlush else s
  (s1.volatileReset true link).wrB Reg.memStatus 3 true

/-- A warm reset starts, unless the module is off or waits for a cold start (R502). -/
def State.resetAsserted (s : State) (link : Bool) : State :=
  if s.boot.stage = .off ∨ s.boot.stage = .powerFail then s else s.warmReset link

/-! ### Cold starts (R71, R101, R517) -/

/-- The start of a cold start: phase P0, with the contents of the DRAM gone and every line ACQUIRING (R309). -/
def State.coldStart (s : State) (supplies : Nat) : State :=
  let s1 := s.volatileReset false false
  let s2 : State := { s1 with
    boot := { s1.boot with stage := .booting, cold := true },
    clk := { s1.clk with epoch := 0, ref10 := none, optime := 0, pcycle := 0, pulse := false, frac := 0, outEn := 0 },
    nvm := { s1.nvm with up := false, scanned := false, noFlash := false },
    mem := { s1.mem with dram := [] } }
  (List.range 512).foldl (fun t n => t.wr (chOff n Reg.tiaLine) 0x555) (s2.wrF Reg.pwrStatus 3 0 supplies)

/-- VIN_POWER_UP (R101, R501). -/
def State.powerUp (s : State) : State := if s.boot.stage = .off then s.coldStart 1 else s

/-- VIN_POWER_DOWN (R517): everything volatile is lost. -/
def State.powerDown (s : State) : State :=
  let s1 := s.volatileReset false false
  { s1 with regs := [], boot := { s1.boot with stage := .off, cold := true },
            clk := { s1.clk with epoch := 0, ref10 := none, optime := 0, pcycle := 0, pulse := false, frac := 0, outEn := 0 },
            nvm := { s1.nvm with up := false, scanned := false, noFlash := false },
            mem := { s1.mem with dram := [] } }

/-- PFW_N_ASSERT (R108, R457, R484, R515, R516): load is shed, PWR_WARN and the queue are written, then the checkpoint of R69, also during
a boot; the DRAM enters self-refresh, and a cold start is now certain (R501). -/
def State.pfwAssert (s : State) : State :=
  if s.boot.stage = .off ∨ s.boot.stage = .powerFail then s
  else
    let s1 := if s.evr.started then s.evrPowerFail else s
    let s2 := s1.persistWrite 1
    let s3 := ((s2.volatileReset false false).wrB Reg.pwrStatus 4 true).wrB Reg.memStatus 3 true
    { s3 with boot := { s3.boot with stage := .powerFail, cold := true }, pwr := { s3.pwr with pfwLow := true } }

/-- PFW_SHED_END (R517): the module releases PFW_N, and PWR_STATUS.PFW shows the ball high (R527). -/
def State.pfwRelease (s : State) : State :=
  if s.boot.stage = .powerFail ∧ s.pwr.pfwLow then
    ({ s with pwr := { s.pwr with pfwLow := false, shedEnded := true } } : State).wrB Reg.pwrStatus 4 false
  else s

/-- PFW_COLD_START (R517): every supply has stood in range. -/
def State.pfwCold (s : State) : State :=
  if s.boot.stage = .powerFail ∧ s.pwr.shedEnded then s.coldStart 0xF else s

/-- The phase of the boot. -/
def State.phase (s : State) : Nat := s.rdF Reg.bootStatus 7 4

/-- Sets the phase of the boot. -/
def State.setPhase (s : State) (n : Nat) : State := s.wrF Reg.bootStatus 7 4 n

/-- WARM_RESET_END (R101, R502): the boot begins, with P1; where a cold start had not yet counted itself, it begins again as one. -/
def State.warmEnd (s : State) : State :=
  if s.boot.stage = .resetHeld then
    if s.boot.cold then s.coldStart s.supplyBits
    else
      let s1 : State := { s with boot := { s.boot with stage := .booting }, nvm := { s.nvm with up := false, scanned := false, noFlash := false } }
      (s1.wrB Reg.bootStatus 11 true).setPhase 1
  else s

/-- SUPPLIES_IN_RANGE (R510): P0 ends. -/
def State.suppliesOk (s : State) : State :=
  if s.boot.stage = .booting then
    let s1 := s.wrF Reg.pwrStatus 3 1 7
    if s1.phase = 0 then s1.setPhase 1 else s1
  else s

/-! ### Wedges (R494 to R500) -/

/-- A sequencer that a wedge stops: FAULT_STOP stands until a full reset (R146). -/
def Seq.halted (z : Seq) : Seq := if z.st = 4 then z else seqReset

/-- The engines stop: no sequencer, lane, engine or measurement goes on, and FAULT_STOP stands; each line keeps its table. -/
def State.stopEngines (s : State) : State :=
  let s1 : State := { s with
    seqs := s.seqs.filterMap (fun e => if e.2.halted = seqReset then none else some (e.1, e.2.halted)), lanes := [], clus := [],
    chans := s.chans.filterMap (fun e => if e.2.warm = chanReset then none else some (e.1, e.2.warm)),
    plan := { planReset with slots := s.plan.slots, lens := s.plan.lens },
    snd := sndReset, cwy := cwyReset, cal := { s.cal with run := none, storeStep := 0 }, mem := { s.mem with march := none, held := [] } }
  let s2 := ((((s1.wrF Reg.plnState 19 17 0).wrB Reg.sndStatus 0 false).wrF Reg.sndStatus 18 16 0).wrF Reg.calStatus 18 16 0).wrF Reg.memStatus 2 0 0
  let s3 := (List.range 512).foldl (fun t n => (t.parkPad n).wrF (chOff n Reg.tiaStatus) 2 0 0) s2
  (List.range 32).foldl (fun t c => (t.wrF (cluOff c Reg.acqStatus) 2 0 0).wrB (cluOff c Reg.ddsStatus) 0 false) s3

/-- Every command fetched and not completed completes with BUSY (R499). -/
def State.busyAll (s : State) : State :=
  let l := s.hst.fg.toList ++ s.hst.bg.map (fun b => b.cmd) ++ s.hst.fetched
  l.foldl (fun t c => t.complete c St.busy 0 0) { s with hst := { s.hst with fg := none, bg := [], fetched := [] } }

/-- The watchdog of a cause has something to expire on (R496): causes whose wait the state shows. -/
def State.wedgeHolds (s : State) (cause unit : Nat) : Bool :=
  match cause with
  | 1 => decide (unit ≤ 32) && (s.seq unit).st == 2
  | 2 => decide (unit ≤ 32) && (s.seq unit).st == 4
  | 3 => decide (unit ≤ 33)
  | 4 => decide (unit ≤ 15) && s.boot.dramUp
  | 5 => decide (unit ≤ 0xA ∨ 0x80 ≤ unit ∧ unit < 0xA0)
  | 6 => unit == 0xFF && decide (100 ≤ s.boot.mgtAge)
  | 7 => unit == 0xFF && s.hst.fg.isSome
  | _ => false

/-- PC in the record: the address of the held microword (R498). -/
def State.wedgePc (s : State) (cause unit : Nat) : Nat := if cause = 1 ∨ cause = 2 then (s.seq unit).pc else 0

/-- The safe state of R498 and R499. -/
def State.safeState (s : State) : State :=
  let s1 := ((s.stopEngines).wrB Reg.memStatus 3 true).wrF Reg.bootRewrite 1 0 0
  let s2 := [Port.up, Port.dn].foldl (fun t p => if t.portState p = 0 then t else t.portDown p) s1
  ({ s2 with boot := { s2.boot with stage := .safe } } : State).busyAll

/-- WEDGE (R497, R498): the module enters the safe state and the WEDGE record is written. An EPOCH command that waits for its tick is
among those that complete with BUSY. -/
def State.wedge (s : State) (cause unit elapsed : Nat) : State :=
  if (s.boot.stage = .ready ∨ s.boot.stage = .failed ∨ s.boot.stage = .booting) ∧ s.wedgeHolds cause unit then
    let data := evData [(0, cause), (8, unit), (16, s.wedgePc cause unit), (32, elapsed)]
    let s1 := (s.raiseIf (cause == 1) (seqOff unit Reg.seqFlags) 3).safeState
    let s2 := ({ s1 with clk := { s1.clk with epochSet := none } } : State).post 314 0x42 data
    let s3 := if s2.evr.started then s2.evrFlush else s2
    if cause = 5 then s3.setRead 0 else s3
  else s

/-- MGT_HEARTBEAT (R495). -/
def State.heartbeat (s : State) : State := { s with boot := { s.boot with mgtAge := 0 } }

/-! ### Sensors and supplies (R521 to R527) -/

/-- A reading is valid (R522): −40 °C to +150 °C, with the self-check passed. -/
def readingValid (r : SensorReading) : Bool := r.check && decide (-2560 ≤ r.temp.toInt ∧ r.temp.toInt ≤ 9600)

/-- A crossing of a threshold is posted (R524). -/
def State.tempEvent (s : State) (i level temp : Nat) : State := s.post 313 0x41 (evData [(0, i), (8, level), (16, temp)])

/-- The crossings of R524 from one valid reading `old` of a sensor to the next, `new`, in 1/64 °C. -/
def State.tempCross (s : State) (i : Nat) (old new : Int) : State :=
  let w : Int := 64 * s.rdF Reg.pwrCfg 23 16
  let k : Int := 64 * s.rdF Reg.pwrCfg 31 24
  let x := toField 16 new
  let s1 := if old < w ∧ w ≤ new then (s.raise Reg.pwrFlags 0).tempEvent i 1 x else s
  let s2 := if old < k ∧ k ≤ new then (s1.raise Reg.pwrFlags 1).tempEvent i 2 x else s1
  if w - 320 ≤ old ∧ new < w - 320 then s2.tempEvent i 0 x else s2

/-- One sensor is read. -/
def State.sensorOne (s : State) (r : SensorReading) : State :=
  let i := r.sensor.val
  let ok := readingValid r
  let s1 := s.wr (Reg.pwrTs + 4 * i) (pack [(0, r.temp.toNat), (31, b2n ok)])
  if ok then
    let old := s1.temp i
    let s2 : State := { s1 with pwr := { s1.pwr with valid := s1.pwr.valid ||| BitVec.ofNat 64 (2 ^ i), temps := Tbl.set (fun _ => 0) s1.pwr.temps i r.temp } }
    let s3 := s2.tempCross i old r.temp.toInt
    if 8 ≤ i ∧ i < 40 then (chansOf (i - 8)).foldl State.tableReturn s3 else s3
  else
    ({ s1 with pwr := { s1.pwr with valid := s1.pwr.valid &&& ~~~ BitVec.ofNat 64 (2 ^ i) } } : State).raise Reg.pwrFlags 2

/-- The hottest valid sensor (R521). -/
def State.hottest (s : State) : Option Nat :=
  ((List.range 64).filter s.tempValid).foldl (fun b i => match b with | some j => if s.temp j < s.temp i then some i else some j | none => some i) none

/-- PWR_TEMP_MAX and THERM_N after the sensors have been read (R521, R524). -/
def State.thermUpdate (s : State) : State :=
  let k : Int := 64 * s.rdF Reg.pwrCfg 31 24
  let l := (List.range 64).filter s.tempValid
  let s1 := match s.hottest with
    | some i => s.wr Reg.pwrTempMax (pack [(0, toField 16 (s.temp i)), (16, i)])
    | none => s
  if l.any (fun i => decide (k ≤ s.temp i)) then s1.wrB Reg.pwrStatus 5 true
  else if l.all (fun i => decide (s.temp i < k - 320)) then s1.wrB Reg.pwrStatus 5 false
  else s1

/-- The supply monitors (R509, R527). -/
def State.supplyRead (s : State) (r : SupplyReading) : State :=
  let s1 := ((s.wr Reg.pwrVin (pack [(0, r.vinV.toNat), (16, r.vinI.toNat)])).wr Reg.pwrVph (pack [(0, r.vphV.toNat), (16, r.vphI.toNat)])).wr
    Reg.pwrVpl (pack [(0, r.vplV.toNat), (16, r.vplI.toNat)])
  let s2 := s1.wr Reg.pwrVio (pack [(0, r.vioV.toNat)])
  let ok := b2n (inRange 2700 5500 r.vinV.toNat) + 2 * b2n (inRange 7000 8000 r.vphV.toNat) +
    4 * b2n (decide (-3000 ≤ r.vplV.toInt ∧ r.vplV.toInt ≤ -2500)) + 8 * b2n (inRange 1710 1890 r.vioV.toNat)
  s2.wrF Reg.pwrStatus 3 0 ok

/-- SENSOR_READ (R522): every sensor and supply is read. -/
def State.sensorRead (s : State) (l : List SensorReading) (r : SupplyReading) : State :=
  if s.powered ∧ s.boot.stage ≠ .powerFail then ((l.foldl State.sensorOne s).thermUpdate).supplyRead r else s

/-! ### Meanings -/

/-- VIN_POWER_UP (R101). -/
def execVinPowerUp (s : State) : Out := .next s.powerUp

/-- PFW_N_ASSERT (R515). -/
def execPfwNAssert (s : State) : Out := .next s.pfwAssert

/-- PFW_SHED_END (R517). -/
def execPfwShedEnd (s : State) : Out := .next s.pfwRelease

/-- PFW_COLD_START (R517). -/
def execPfwColdStart (s : State) : Out := .next s.pfwCold

/-- VIN_POWER_DOWN (R517). -/
def execVinPowerDown (s : State) : Out := .next s.powerDown

/-- RST_N_ASSERT (R501). -/
def execRstNAssert (s : State) : Out := .next (s.resetAsserted true)

/-- PERST_ASSERT (R501). -/
def execPerstAssert (s : State) : Out := .next (s.resetAsserted false)

/-- WARM_RESET_END (R502). -/
def execWarmResetEnd (s : State) : Out := .next s.warmEnd

/-- DEVICE_RESET_START (R435, R501). -/
def execDeviceResetStart (s : State) : Out := .next (if s.boot.resetDue then s.resetAsserted true else s)

/-- SUPPLIES_IN_RANGE (R510). -/
def execSuppliesInRange (s : State) : Out := .next s.suppliesOk

/-- WEDGE (R497). -/
def execWedge (cause unit : BitVec 8) (elapsedUs : W32) (s : State) : Out :=
  .next (s.wedge cause.toNat unit.toNat elapsedUs.toNat)

/-- MGT_HEARTBEAT (R495). -/
def execMgtHeartbeat (s : State) : Out := .next s.heartbeat

/-- SENSOR_READ (R522). -/
def execSensorRead (readings : List SensorReading) (supplies : SupplyReading) (s : State) : Out := .next (s.sensorRead readings supplies)

end Sys2Proof.Machine
end

