-- ==== Sys2Proof/Machine/Boot.lean ====
section
/-! DEFINITION. Start-up and the Peat image (R77 to R115, R149 to R153): the flash, the slots and their checks, the calibration bank,
the configuration, the patches, sealing, and the rewrite of the image. -/

namespace Sys2Proof.Machine

/-! ### Slots (R81, R87, R104) -/

/-- The slot size S: 25 MiB on a 64 MiB flash, 34 MiB on the two larger ones that R77 allows (R81). -/
def State.slotSize (s : State) : Nat := if s.rdF Reg.bootFlash 7 0 = 6 then 0x1900000 else 0x2200000

/-- A density that R77 supports, as log2 of MiB: 64, 128 or 256 MiB. -/
def densityOk (sizeLog2 : BitVec 8) : Bool := decide (6 ≤ sizeLog2.toNat ∧ sizeLog2.toNat ≤ 8)

/-- The first flash byte of body slot `k`. -/
def State.bodyBase (s : State) (k : Nat) : Nat := 0xE00000 + k * s.slotSize

/-- The first flash byte of the trailer of slot `k`. -/
def State.trailer (s : State) (k : Nat) : Nat := s.bodyBase k + s.slotSize - 4096

/-- Slot `k` is committed (R87). -/
def State.committed (s : State) (k : Nat) : Bool :=
  let t := s.trailer k
  s.flashLe t 4 == 0x544F4C53 && s.flashLe (t + 12) 4 == crc32c (s.flashRd t 12) && s.flashLe (t + 8) 4 == s.flashLe (s.bodyBase k + 0xC) 4

/-- IMAGE_SEQ of slot `k`, 0 if it is not committed. -/
def State.imageSeq (s : State) (k : Nat) : Nat := if s.committed k then s.flashLe (s.trailer k + 4) 4 else 0

/-- BOOT_SLOT_SEQ0 or BOOT_SLOT_SEQ1. -/
def slotSeqReg (k : Nat) : Nat := if k = 0 then Reg.bootSlotSeq0 else Reg.bootSlotSeq1

/-- BOOT_SLOT_SEQ0 and BOOT_SLOT_SEQ1 follow the trailers. -/
def State.slotSeqs (s : State) : State :=
  (s.wr Reg.bootSlotSeq0 (BitVec.ofNat 32 (s.imageSeq 0))).wr Reg.bootSlotSeq1 (BitVec.ofNat 32 (s.imageSeq 1))

/-- The committed slots not yet tried at this start, the higher IMAGE_SEQ first (R104). -/
def State.slotsLeft (s : State) : List Nat :=
  let l := [0, 1].filter (fun k => s.committed k && !s.boot.tried.contains k)
  match l with
  | [a, b] => if s.imageSeq a < s.imageSeq b then [b, a] else l
  | l => l

/-! ### The header (R83 to R90) -/

/-- One section entry (R85). -/
structure Sect where
  type   : Nat
  off    : Nat
  len    : Nat
  zero   : Nat
  digest : List Byte
  deriving DecidableEq, Repr

/-- Section entry `i` of the body at flash address `b`. -/
def State.sect (s : State) (b i : Nat) : Sect :=
  let e := b + 0x80 + 64 * i
  { type := s.flashLe e 4, off := s.flashLe (e + 4) 4, len := s.flashLe (e + 8) 4, zero := s.flashLe (e + 12) 4, digest := s.flashRd (e + 16) 48 }

/-- A section of the body: its bytes. -/
def State.sectBytes (s : State) (b i : Nat) : List Byte := s.flashRd (b + (s.sect b i).off) (s.sect b i).len

/-- A section entry that breaks R83 or R85, in a body of `n` bytes. -/
def sectBad (i n : Nat) (e : Sect) : Bool :=
  e.type != i + 1 || e.zero != 0 ||
    (if e.len = 0 then e.off != 0 else decide (e.off % 4096 ≠ 0) || decide (e.off < 4096) || decide (n < e.off + e.len))

/-- The sections that are not empty stand in order and do not overlap (R83). -/
def sectsApart : List Sect → Bool
  | a :: b :: t => decide (a.off + a.len ≤ b.off) && sectsApart (b :: t)
  | _ => true

/-- A header that breaks R83, R85 or R86. -/
def State.headerBad (s : State) (b : Nat) : Bool :=
  let n := s.flashLe (b + 0xC) 4
  let l := (List.range 3).map (s.sect b)
  decide (s.flashLe b 4 ≠ 0x54414550) || decide (s.flashLe (b + 4) 2 ≠ 1) || decide (s.flashLe (b + 8) 2 ≠ 0x5120) ||
    decide (n % 4096 ≠ 0) || decide (n < 4096) || decide (s.slotSize - 4096 < n) || decide (64 < s.flashLe (b + 0x10) 2) || decide (3 < s.flashLe (b + 0x12) 1) ||
    decide (s.flashLe (b + 0x13) 1 ≠ 3) || decide (s.flashLe (b + 0x14) 12 ≠ 0) || decide (s.flashLe (b + 0x140) 0xE60 ≠ 0) ||
    (List.range 3).any (fun i => sectBad i n (s.sect b i)) || !sectsApart (l.filter (fun e => e.len != 0))

/-- The key of the header is the one of its fuse slot, present and not revoked (R88). -/
def State.keyOk (s : State) (b : Nat) : Bool :=
  let k := s.flashLe (b + 0x12) 1
  !s.nvm.revoked.getLsbD k && s.nvm.keys.any (fun e => e.1 == k && e.2 == Config.sha384 (s.flashRd (b + 0x20) 96))

/-- The rollback counter: consecutive 1 bits from bit 0 (R90). -/
def rollbackCount (x : BitVec 64) : Nat := ((List.range 64).takeWhile x.getLsbD).length

/-- The checks of P4 in the body at `b`: the failure code, 0 where it passes (R86 to R90). -/
def State.headerCode (s : State) (b : Nat) : Nat :=
  if s.headerBad b then 0x04
  else if 0x4201 < s.flashLe (b + 0xA) 2 then 0x05
  else if !s.keyOk b then 0x06
  else if !Config.ecdsaOk (s.flashRd (b + 0x20) 48) (s.flashRd (b + 0x50) 48) (s.flashRd (b + 0xFA0) 48) (s.flashRd (b + 0xFD0) 48) (s.flashRd b 0xFA0) then 0x07
  else if s.flashLe (b + 0x10) 2 < rollbackCount s.nvm.rollback then 0x09
  else 0

/-! ### The checks of P5 (R89, R92, R98) -/

/-- A section that is not empty has another digest than its entry. -/
def State.digestBad (s : State) (b i : Nat) : Bool :=
  (s.sect b i).len != 0 && (Config.sha384 (s.sectBytes b i)).toNat != (s.sect b i).digest.foldl (fun a x => a * 256 + x.toNat) 0

/-- A plan of the library extends beyond its section, or the index does (R98). The reserved bytes of an index entry are not judged
(DESIGN CHOICE, log 88). -/
def State.libraryBad (s : State) (b : Nat) : Bool :=
  let e := s.sect b 2
  let a := b + e.off
  e.len != 0 && (decide (e.len < 16384) ||
    (List.range 1024).any (fun p => s.flashLe (a + 16 * p) 4 != 0 && decide (e.len < s.flashLe (a + 16 * p) 4 + s.flashLe (a + 16 * p + 4) 4)))

/-- CONFIG_FORMAT: the length of a section that is not empty (R92). The reserved bytes of its header are not judged
(DESIGN CHOICE, log 88). -/
def State.cfgFormatBad (s : State) (b : Nat) : Bool :=
  let e := s.sect b 0
  e.len != 0 && decide (s.flashLe (b + e.off) 4 * 12 + 16 ≠ e.len)

/-- The checks of P5; the configuration section is staged there with its COUNT (R92, R101; DEDUCED, log 67). -/
def State.bodyCode (s : State) (b : Nat) : Nat :=
  if (List.range 3).any (s.digestBad b) then 0x08 else if s.cfgFormatBad b then 0x0A else if s.libraryBad b then 0x10 else 0

/-! ### The configuration (R92 to R94; DEDUCED, log 67) -/

/-- The entries: offset, mask, value. -/
def State.cfgEntries (s : State) (b : Nat) : List (Nat × W32 × W32) :=
  let e := s.sect b 0
  if e.len = 0 then []
  else (List.range (s.flashLe (b + e.off) 4)).map (fun i =>
    let a := b + e.off + 16 + 12 * i
    (s.flashLe a 4, BitVec.ofNat 32 (s.flashLe (a + 4) 4), BitVec.ofNat 32 (s.flashLe (a + 8) 4)))

/-- The value that an entry leaves in a register (R93). -/
def cfgMix (old mask v : W32) : W32 := (old &&& ~~~ mask) ||| (v &&& mask)

/-- Every bit of a row that is not reserved. -/
def rowBits (r : RegRow) : Nat := r.rw ||| r.w1c ||| r.rc ||| r.wo ||| r.sl ||| r.ro

/-- A field of the register at `off` that its chapter bounds alone lies outside its range. -/
def fieldBad (off : Nat) (v : W32) : Bool :=
  let l := localOff off
  if off = 0xA0000 + Reg.seqWdog then fieldOf v 15 0 == 0
  else if off = Reg.cwyTmo then fieldOf v 7 0 == 0
  else if off < 0x800000 then false
  else if l = Reg.seqWdog then fieldOf v 15 0 == 0
  else if l = 0x10000 + Reg.tgPair then decide ((off - 0x810000) % 0x20000 / 0x1000 % 2 = 1) && bitOf v 0
  else if l = 0x10000 + Reg.pmuLimitCfg then decide (4 < fieldOf v 2 0)
  else false

/-- The failure code of one entry, 0 where it is taken (R94). -/
def State.entryCode (s : State) (e : Nat × W32 × W32) : Nat :=
  match findRow e.1 with
  | none => 0x0B
  | some r =>
    if e.1 = Reg.idPeat ∨ e.2.1 &&& ~~~ BitVec.ofNat 32 r.sl ≠ 0 then 0x0B
    else if e.2.2 &&& ~~~ BitVec.ofNat 32 (rowBits r) ≠ 0 ∨ fieldBad e.1 (cfgMix (s.rd e.1) e.2.1 e.2.2) then 0x0C
    else 0

/-- The entries are applied in order, up to the first that is refused. -/
def State.cfgRun (s : State) : List (Nat × W32 × W32) → Nat × State
  | [] => (0, s)
  | e :: t =>
    if s.entryCode e = 0 then (s.wr e.1 (cfgMix (s.rd e.1) e.2.1 e.2.2)).cfgRun t else (s.entryCode e, s)

/-- Every SL field takes its reset value, as before the first entry of an image (R93). -/
def State.clearSealed (s : State) : State :=
  s.regs.foldl (fun t e =>
    match findRow e.1 with
    | some r => if r.sl = 0 then t else t.wr e.1 (cfgMix e.2 (BitVec.ofNat 32 r.sl) (BitVec.ofNat 32 r.reset))
    | none => t) s

/-- A sealed DRAM region in MiB: base and size. -/
def State.regionMib (s : State) (off : Nat) : Nat × Nat := (s.rdF off 14 0, s.rdF (off + 4) 14 0)

/-- The regions break R455. -/
def State.regionsBad (s : State) : Bool :=
  let v := s.regionMib Reg.memVecBase
  let f := s.regionMib Reg.memFailBase
  let p := s.regionMib Reg.memSpillBase
  let l := [v, f, p].filter (fun r => r.2 != 0)
  l.any (fun r => decide (r.1 < 320 ∨ 16384 < r.1 + r.2)) || decide (8192 < f.2) || decide (4096 < p.2) || !spansApart l

/-- The fields of PWR_CFG break its bounds. -/
def State.pwrBad (s : State) : Bool :=
  let th := s.rdF Reg.pwrCfg 9 0
  let k := s.rdF Reg.pwrCfg 31 24
  decide (th < 255 ∨ 520 < th) || decide (115 < k) || decide (k ≤ s.rdF Reg.pwrCfg 23 16)

/-- A register whose upper half is below its lower half. -/
def State.limitsCross (s : State) (off : Nat) : Bool := decide (s.rdF off 31 16 < s.rdF off 15 0)

/-- The joint checks of CONFIG_RANGE. -/
def State.jointBad (s : State) : Bool :=
  (List.range 512).any (fun n => s.limitsCross (chOff n Reg.peLimitV) || s.limitsCross (chOff n Reg.pmuLimitV)) ||
    decide (s.rdF Reg.sndCtLim 31 16 ≤ s.rdF Reg.sndCtLim 15 0) || s.pwrBad || s.regionsBad

/-- The site map breaks R3 or R35. -/
def State.siteMapBad (s : State) : Bool :=
  (List.range 64).any (fun k =>
    (List.range 256).any (fun n => s.siteOf n == some k) && (List.range 256).any (fun n => s.siteOf (256 + n) == some k)) ||
  (List.range 256).any (fun i => s.primary (2 * i) && s.siteOf (2 * i) != s.siteOf (2 * i + 1))

/-- P7: the failure code, and the state with the entries applied. -/
def State.cfgCheck (s : State) (b : Nat) : Nat × State :=
  let s0 := s.clearSealed
  let r := s0.cfgRun (s.cfgEntries b)
  if r.1 ≠ 0 then r
  else if r.2.jointBad then (0x0C, r.2)
  else if r.2.siteMapBad then (0x0D, r.2)
  else r

/-! ### Patches (R95, R96, R149 to R153) -/

/-- One record of the patch plaintext (R150). -/
structure PatchRec where
  type  : Nat
  idx   : Nat
  count : Nat
  addr  : Nat
  dest  : Nat
  mask  : Nat
  words : List UWord
  deriving DecidableEq, Repr

/-- The header of a record at the front of a list. -/
def patchHead (bs : List Byte) : PatchRec :=
  { type := leAt bs 0 1, idx := leAt bs 1 1, count := leAt bs 2 2, addr := leAt bs 4 2, dest := leAt bs 6 2, mask := leAt bs 8 8, words := [] }

/-- The `n` records of a plaintext, which end exactly at its end. -/
def patchRecs : Nat → List Byte → Option (List PatchRec)
  | 0, bs => if bs = [] then some [] else none
  | n + 1, bs =>
    if bs.length < 16 then none
    else
      let h := patchHead bs
      let k := if h.type = 1 then h.count else 0
      let rest := bs.drop 16
      if rest.length < 24 * k then none
      else (patchRecs n (rest.drop (24 * k))).map (fun l => { h with words := (List.range k).map (fun i => uwordAt rest (24 * i)) } :: l)

/-- A patched microword that R148 refuses in a lane or in the master; its TARGET lies in the ROM or patch area (R152; DEDUCED, log 66). -/
def patchWordBad (master : Bool) (w : UWord) : Bool :=
  uwordReserved w || uwordClass master w || uwordConflict w || uwordTimeout w || ([1, 2, 4, 5, 10].contains w.opc && decide (0x2800 ≤ w.target)) ||
    uwordRange (w.imm % 1024) w.lanemask w || uwordPost w

/-- A record outside the ranges of R150 and R152. -/
def PatchRec.bad (r : PatchRec) : Bool :=
  decide (r.mask = 0) || decide (2 ^ 33 ≤ r.mask) ||
    (match r.type with
     | 1 => r.idx != 0 || decide (r.count = 0 ∨ 2048 < r.count) || decide (r.addr < 0x2000 ∨ 0x2800 < r.addr + r.count) || r.dest != 0 ||
         r.words.any (fun w => (decide (r.mask % 2 ^ 32 ≠ 0) && patchWordBad false w) || (r.mask.testBit 32 && patchWordBad true w))
     | 2 => decide (31 < r.idx) || r.count != 0 || decide (0x2000 ≤ r.addr) || decide (r.dest < 0x2000 ∨ 0x2800 ≤ r.dest)
     | _ => true)

/-- Two records that R152 does not let stand together. -/
def patchClash (a b : PatchRec) : Bool :=
  decide (a.mask &&& b.mask ≠ 0) && a.type == b.type &&
    (if a.type = 1 then decide (a.addr < b.addr + b.count ∧ b.addr < a.addr + a.count) else a.idx == b.idx)

/-- No two records of a list clash. -/
def patchesApart : List PatchRec → Bool
  | [] => true
  | a :: t => t.all (fun b => !patchClash a b) && patchesApart t

/-- The records of a plaintext of `n` bytes that keeps R149 to R152. -/
def patchParse (bs : List Byte) (n : Nat) : Option (List PatchRec) :=
  if bs.length < 16 ∨ leAt bs 0 4 ≠ 0x4843504D ∨ leAt bs 4 2 ≠ 1 ∨ 4096 < leAt bs 6 2 ∨ leAt bs 8 4 ≠ n ∨ bs.length ≠ n ∨ leAt bs 12 4 ≠ 0 then none
  else
    match patchRecs (leAt bs 6 2) (bs.drop 16) with
    | some l => if l.any PatchRec.bad || !patchesApart l then none else some l
    | none => none

/-- A patch descriptor that breaks R95. -/
def State.patchDescBad (s : State) (b : Nat) : Bool :=
  let e := s.sect b 1
  let a := b + e.off
  decide (e.len < 64) || s.flashLe a 2 != s.flashLe (b + 0x10) 2 || s.flashLe (a + 2) 2 != 0 || s.flashLe (a + 4) 4 != e.len - 64 ||
    s.flashLe (a + 0x14) 12 != 0 || s.flashLe (a + 0x30) 16 != 0

/-- P8's checks: the failure code, and the records. -/
def State.patchCheck (s : State) (b : Nat) : Nat × List PatchRec :=
  let e := s.sect b 1
  let a := b + e.off
  if e.len = 0 then (0, [])
  else if s.patchDescBad b then (0x0E, [])
  else
    match Config.gcmOpen (s.flashRd (a + 8) 12) (s.flashRd a 32) (s.flashRd (a + 0x20) 16) (s.flashRd (a + 64) (e.len - 64)) with
    | none => (0x0F, [])
    | some p =>
      match patchParse p (e.len - 64) with
      | none => (0x0E, [])
      | some l => (0, l)

/-- One record reaches sequencer `q` (R151, R153). -/
def Seq.patch (z : Seq) (r : PatchRec) : Seq :=
  if r.type = 1 then { z with store := Tbl.setList (fun _ => trapWord) z.store r.addr r.words }
  else { z with hooks := z.hooks ++ [(r.idx, r.addr, r.dest)] }

/-- The handler latches of lines 0 to 2 where a hook replaces the ROM handler's first word (R142, R151); the ROM's own first word is not
listed, its handler's effect is (DESIGN CHOICE, log 16). -/
def Seq.romLatches (z : Seq) : Seq :=
  [(0, 0x10), (1, 0x20), (2, 0x30)].foldl (fun y e => if y.hooked e.2 = e.2 then y else y.loadLatch e.1 (y.wordAt (y.hooked e.2))) z

/-- The control store of sequencer `q` after the trap fill and the patches, and SEQ_PATCH (R118, R153). -/
def State.patchSeq (s : State) (l : List PatchRec) (q : Nat) : State :=
  let m := l.filter (fun r => r.mask.testBit q)
  let s1 := s.modSeq q (fun z => (m.foldl Seq.patch { z with store := [], hooks := [], latches := [] }).romLatches)
  s1.wr (seqOff q Reg.seqPatch) (pack [(0, (m.map (fun r => r.words.length)).sum), (16, (m.filter (fun r => r.type == 2)).length)])

/-! ### How a boot goes on and stops (R104, R107) -/

/-- The slot being tried. -/
def State.slot (s : State) : Nat := b2n (s.rdB Reg.bootStatus 8)

/-- The boot runs and stands in phase `n`. -/
def State.inPhase (s : State) (n : Nat) : Bool := s.boot.stage == .booting && s.phase == n

/-- The boot stops with a failure code (R107). -/
def State.bootFail (s : State) (code : Nat) : State :=
  let s1 := ((s.wrF Reg.bootStatus 2 0 4).wrF Reg.bootStatus 23 16 code).wrB Reg.hstStatus 1 true
  ({ s1 with boot := { s1.boot with stage := .failed } } : State).post 307 0x3B (evData [(0, code), (8, s.phase)])

/-- The slot being tried fails a check of P4 to P8: the other committed slot is tried, or the boot stops (R104). -/
def State.slotFail (s : State) (code : Nat) : State :=
  let first := if s.boot.tried = [] then code else s.boot.firstCode
  let s1 : State := { s with boot := { s.boot with tried := s.boot.tried ++ [s.slot], firstCode := first } }
  if s1.slotsLeft = [] then s1.bootFail first
  else (((s1.wrB Reg.bootStatus 9 true).post 306 0x3A (evData [(0, s.slot), (8, code)])).wrF Reg.bootStatus 2 0 1).setPhase 4

/-! ### Phases P1 to P3 (R79, R88, R90, R70, R71, R485) -/

/-- The boot stands in phase `n`, or has stopped before the recorder started and brings it up (R485). -/
def State.earlyPhase (s : State) (n : Nat) : Bool :=
  s.inPhase n || (s.boot.stage == .failed && !s.evr.started && s.nvm.up == (n == 3) && !s.nvm.scanned)

/-- BOOT_FUSE (R88, R90). -/
def State.fuseWord (s : State) : W32 :=
  pack [(0, rollbackCount s.nvm.rollback), (8, s.nvm.revoked.toNat), (12, ofBits ((s.nvm.keys.map (fun e => e.1)).filter (· < 4)))]

/-- No flash, or one that the module does not support: the boot stops with a code at P2, and the recorder starts in volatile mode (R79,
R485). BOOT_FLASH keeps its reset value (DESIGN CHOICE, log 88). -/
def State.flashRefused (s : State) (code : Nat) : State :=
  let s1 : State := { s with nvm := { s.nvm with noFlash := true } }
  (if s1.boot.stage = .booting then (s1.setPhase 2).bootFail code else s1).evrStart true

/-- The flash that SFDP shows (R77, R79, R483). -/
def State.sfdpTake (s : State) (found : Sfdp) : State :=
  match found with
  | .absent => s.flashRefused 1
  | .unsupported => s.flashRefused 2
  | .ok mfr dev size tpp =>
    if !densityOk size then s.flashRefused 2
    else
    let s1 : State := { s with nvm := { s.nvm with up := true } }
    let s2 := (s1.wr Reg.bootFlash (pack [(0, size.toNat), (8, dev.toNat), (24, mfr.toNat)])).setQdepth tpp
    if s2.boot.stage = .booting then s2.setPhase 3 else s2

/-- SFDP_READ: the fuses have been read and the flash has answered or not. -/
def State.sfdpRead (s : State) (fuseError : Bool) (found : Sfdp) : State :=
  if s.earlyPhase 1 then
    let s1 := if fuseError then s else s.wr Reg.bootFuse s.fuseWord
    let s2 := if fuseError ∧ s.boot.stage = .booting then s1.bootFail 0x12 else s1
    s2.sfdpTake found
  else s

/-- Operating time at a cold start (R70): one more than the larger of the last checkpoint and the last record's; 0 where the flash
holds neither (R82). -/
def State.restoredOptime (s : State) : Nat :=
  match s.lastCheckpoint, s.lastRecordOptime with
  | none, none => 0
  | c, r => max (c.getD 0) (r.getD 0) + 1

/-- The power-cycle count at a cold start (R71): one more than the latest entry's, saturating; 1 where there is none (R82). -/
def State.restoredPcycle (s : State) : Nat := match s.latestEntry with | some e => satAdd 0xFFFFFF e.2.2.1 1 | none => 1

/-- PERSISTENT_AREA_SCAN: operating time and power cycles are restored at a cold start, the power-cycle entry is written, and the
recorder starts (R68, R70, R71, R485). BOOT_STATUS.STATE goes from STARTING to LOADING at the end of P3 (DESIGN CHOICE, log 89). -/
def State.persistentScan (s : State) : State :=
  if s.earlyPhase 3 then
    let s1 : State := { s with nvm := { s.nvm with persist := s.nextEntry, scanned := true }, boot := { s.boot with cold := false } }
    let s2 :=
      if s.boot.cold then
        let o := min s.restoredOptime 0xFFFFFFFFFF
        let s2 : State := { s1 with clk := { s1.clk with optime := BitVec.ofNat 40 o, pcycle := BitVec.ofNat 24 s.restoredPcycle } }
        (s2.raiseIf (o == 0xFFFFFFFFFF) Reg.clkFlags 2).persistWrite 2
      else s1
    let s3 := s2.evrStart false
    if s3.boot.stage = .booting then (s3.setPhase 4).wrF Reg.bootStatus 2 0 1 else s3
  else s

/-! ### Phases P4 to P9 -/

/-- SLOT_SELECT (R104). -/
def State.slotSelect (s : State) : State :=
  if s.inPhase 4 then
    let s1 := s.slotSeqs
    match s1.slotsLeft with
    | [] => s1.bootFail 3
    | k :: _ =>
      let s2 := s1.wrB Reg.bootStatus 8 (k == 1)
      let c := s2.headerCode (s2.bodyBase k)
      if c = 0 then s2.setPhase 5 else s2.slotFail c
  else s

/-- BODY_STREAM (R89, R98, R455): the plan region is rebuilt from the library. -/
def State.bodyStream (s : State) : State :=
  if s.inPhase 5 ∧ s.boot.dramUp then
    let b := s.bodyBase s.slot
    let c := s.bodyCode b
    if c = 0 then
      let s1 : State := { s with mem := { s.mem with dram := s.mem.dram.filter (fun e => decide (320 * mib ≤ e.1)) } }
      (s1.dramWr 0 (s.sectBytes b 2)).setPhase 6
    else s.slotFail c
  else s

/-- The header and the marker of a bank agree (R472). -/
def State.bankHeadOk (s : State) (k : Nat) : Bool :=
  let o := bankBase k
  let m := o + 0x1FF000
  s.flashLe o 4 == 0x424C4143 && s.flashLe (o + 4) 2 == 1 && s.flashLe (o + 6) 1 == k && s.flashLe (o + 0x18) 8 == Config.serial.toNat &&
    s.flashLe m 4 == 0x54494D43 && s.flashLe (m + 12) 4 == crc32c (s.flashRd m 12) && s.flashLe (m + 4) 4 == s.flashLe (o + 8) 4

/-- A bank is valid (R472). -/
def State.bankValid (s : State) (k : Nat) : Bool :=
  s.bankHeadOk k && s.flashLe (bankBase k + 0x1FF008) 4 == crc32c (s.flashRd (bankBase k) 0x1FF000)

/-- Header SEQ of a bank, 0 where its MAGIC is wrong. -/
def State.bankSeq (s : State) (k : Nat) : Nat := if s.flashLe (bankBase k) 4 = 0x424C4143 then s.flashLe (bankBase k + 8) 4 else 0

/-- The active bank of R474. -/
def State.bankChoice (s : State) : Option Nat :=
  if s.bankValid 0 ∧ (¬ s.bankValid 1 ∨ s.bankSeq 1 ≤ s.bankSeq 0) then some 0 else if s.bankValid 1 then some 1 else none

/-- The highest header SEQ of a torn bank (R472). -/
def State.tornSeq (s : State) : Nat :=
  max (if s.bankValid 0 then 0 else s.bankSeq 0) (if s.bankValid 1 then 0 else s.bankSeq 1)

/-- Loads bytes of a bank into the calibration store. -/
def State.bankLoad (s : State) (k o n : Nat) : State := s.calWr o (s.flashRd (bankBase k + o) n)

/-- The factory record stands in for a bank (R460). -/
def State.factoryLoad (s : State) : State :=
  let s1 := s.calWr 0x28 (leBytes 5 Config.factoryAgeT0.toNat)
  let s2 := s1.calWr 0x30 ((List.finRange 32).flatMap (fun i => leBytes 2 (Config.factoryXtal i).toNat))
  (List.finRange 512).foldl (fun t n =>
    t.calWr (chanRec n.val 0x6A) (leBytes 2 (Config.factoryTc n false).toNat ++ leBytes 2 (Config.factoryTc n true).toNat)) s2

/-- The records of the active bank, its stored tables and CAL_CH_FAIL. -/
def State.recordsLoad (s : State) (k : Nat) : State :=
  let s1 := (s.bankLoad k 0x20 0x50).bankLoad k 0x1000 0x11000
  let s2 := s1.storedTables.foldl (fun t x => t.bankLoad k (0x12000 + (6 * x.1 + x.2) * 640) 640) s1
  (List.range 512).foldl (fun t n => t.wr (failReg n) (BitVec.ofNat 32 (t.calRd (chanRec n 0x72) 2 % 64))) s2

/-- Lines that are UNLOCKED enter TABLE where their fallback table is near enough (R464). -/
def State.linesLoad (s : State) : State :=
  (List.range 512).foldl (fun t n => (List.range 6).foldl (fun u j => if u.lineState n j = 2 then u.lineOff n j else u) t) s

/-- CAL_BANK_SELECT (R105, R462, R464, R474). -/
def State.calSelect (s : State) : State :=
  if s.inPhase 6 then
    let s0 : State := { s with cal := { s.cal with bytes := [], fromBank := false, kb := [], kt := [] } }
    let s1 := (s0.wr Reg.calSeqA (BitVec.ofNat 32 (s.bankSeq 0))).wr Reg.calSeqB (BitVec.ofNat 32 (s.bankSeq 1))
    let s2 := (s1.wrB Reg.calStatus 2 (s.bankValid 0)).wrB Reg.calStatus 3 (s.bankValid 1)
    let s3 := match s.bankChoice with
      | some k => (s2.bankActive k).recordsLoad k
      | none => s2.factoryLoad.wrB Reg.bootStatus 10 true
    let act := (match s.bankChoice with | some k => s.bankSeq k | none => 0)
    let s4 := if act < s.tornSeq then (s3.raise Reg.calFlags 0).post 297 0x31 (evData [(0, s.tornSeq), (32, act)]) else s3
    (s4.allKref.linesLoad).setPhase 7
  else s

/-- CONFIG_APPLY (R93, R94, R102): after the boot march. The reference outputs follow the enables that it has set (R62, R75; DEDUCED,
log 86). -/
def State.configApply (s : State) : State :=
  if s.inPhase 7 ∧ s.boot.marched then
    let r := s.cfgCheck (s.bodyBase s.slot)
    if r.1 = 0 then
      ({ r.2 with clk := { r.2.clk with outEn := r.2.rdF Reg.clkOutCtl 2 0 } } : State).setPhase 8
    else r.2.slotFail r.1
  else s

/-- The state of a port at sealing (R395, R398): DISABLED, or DOWN. -/
def State.portSealed (s : State) (p : Port) (bit : Nat) : State := s.setPort p (b2n (s.rdB Reg.cwyCfg bit))

/-- Sealing (R109). -/
def State.seal (s : State) (b : Nat) : State :=
  let s1 := s.wr Reg.idPeat (pack [(0, s.flashLe (b + 0x10) 2), (16, s.flashLe (b + 6) 2)])
  let s2 := (({ s1 with boot := { s1.boot with sealed := true } } : State).portSealed .up 0).portSealed .dn 1
  (s2.wrF Reg.bootStatus 2 0 2).setPhase 9

/-- PATCH_APPLY (R96, R109, R153). -/
def State.patchApply (s : State) : State :=
  if s.inPhase 8 then
    let b := s.bodyBase s.slot
    let r := s.patchCheck b
    if r.1 = 0 then ((List.range 33).foldl (fun t q => t.patchSeq r.2 q) s).seal b else s.slotFail r.1
  else s

/-- BOOT_READY (R101, R103): `us` is the time from t = 0. -/
def State.bootReady (s : State) (us : W32) : State :=
  if s.inPhase 9 then
    let s1 := (s.ageing.xtalUpdate.ktUpdate).wr Reg.bootTime us
    let s2 : State := { s1.wrF Reg.bootStatus 2 0 3 with boot := { s1.boot with stage := .ready } }
    s2.post 315 0x43 (evData [(0, s2.rdF Reg.bootStatus 11 11), (32, us.toNat)])
  else s

/-- ROLLBACK_BURN (R91): one fuse bit. -/
def State.rollbackBurn (s : State) : State :=
  let n := rollbackCount s.nvm.rollback
  if s.boot.stage = .ready ∧ n < s.rdF Reg.idPeat 15 0 then
    let s1 : State := { s with nvm := { s.nvm with rollback := s.nvm.rollback ||| BitVec.ofNat 64 (2 ^ n) } }
    s1.wrF Reg.bootFuse 6 0 (rollbackCount s1.nvm.rollback)
  else s

/-! ### The DRAM at a start (R102, R457) -/

/-- DRAM_TRAINING: of a cold start. -/
def State.dramTraining (s : State) (ok : Bool) : State :=
  if (s.boot.stage = .booting ∨ s.boot.stage = .failed) ∧ ¬ s.rdB Reg.bootStatus 11 ∧ ¬ s.boot.dramUp ∧ 1 ≤ s.phase then
    if ok then { s with boot := { s.boot with dramUp := true } }
    else if s.boot.stage = .booting then s.bootFail 0x11 else s
  else s

/-- DRAM_SELF_REFRESH_EXIT: of a warm reset. -/
def State.srefExit (s : State) : State :=
  if (s.boot.stage = .booting ∨ s.boot.stage = .failed) ∧ s.rdB Reg.bootStatus 11 ∧ s.sref then
    { s.wrB Reg.memStatus 3 false with boot := { s.boot with dramUp := true } }
  else s

/-! ### The rewrite of the image (R111 to R114) -/

/-- The target slot: the one that did not boot; where none did, the uncommitted one, or the one with the lower IMAGE_SEQ (R111). With
neither committed, or both with one IMAGE_SEQ, it is slot 0 (DESIGN CHOICE, log 88). -/
def State.rewriteTarget (s : State) : Nat :=
  if s.boot.stage = .ready then 1 - s.slot
  else if ¬ s.committed 0 then 0
  else if ¬ s.committed 1 then 1
  else if s.imageSeq 1 < s.imageSeq 0 then 1 else 0

/-- BOOT_REWRITE: STATE, and TARGET. -/
def State.rewriteState (s : State) (st k : Nat) : State := (s.wrF Reg.bootRewrite 1 0 st).wrB Reg.bootRewrite 2 (k == 1)

/-- The target slot is erased, trailer first. -/
def State.slotErase (s : State) (k : Nat) : State := ((s.flashErase (s.trailer k) 4096).flashErase (s.bodyBase k) s.slotSize).slotSeqs

/-- IMAGE (R111, R112, R433). `data` is what the host memory holds, none for a read error. -/
def State.cmdImage (s : State) (data : Option (List Byte)) : State :=
  s.runCmd 0x0C (fun c t =>
    let n := 16 * c.len
    let k := t.rewriteTarget
    if t.hst.bg.any (fun g => g.cmd.opcode == 0x0C) then t.complete c St.busy 0 0
    else if ¬ t.nvm.up then (t.wrF Reg.bootRewrite 15 8 1).complete c St.imageRejected 1 0
    else if t.slotSize - 4096 < n then (t.wrF Reg.bootRewrite 15 8 4).complete c St.imageRejected 4 0
    else
      let t1 := t.slotErase k
      match data with
      | none => (t1.rewriteState 0 k).complete c St.dmaError 0 0
      | some d => ((t1.flashWr (t.bodyBase k) (d.take n)).rewriteState 2 k).bgStart c)

/-- The checks of R111 in the body at `b`, written by a command of `n` bytes. -/
def State.imageCode (s : State) (b n : Nat) : Nat :=
  if s.flashLe (b + 0xC) 4 ≠ n then 4
  else if s.headerCode b ≠ 0 then s.headerCode b
  else if s.bodyCode b ≠ 0 then s.bodyCode b
  else (s.patchCheck b).1

/-- The 16 bytes of a slot trailer (R87). -/
def slotTrailer (seq len : Nat) : List Byte :=
  let b := leBytes 4 0x544F4C53 ++ leBytes 4 seq ++ leBytes 4 len
  b ++ leBytes 4 (crc32c b)

/-- IMAGE_COMMITTED: the checks of the body in flash have ended (R111, R112). The IMAGE_SEQ after 0xFFFF_FFFF is 0 (DESIGN CHOICE,
log 88). -/
def State.imageDone (s : State) : State :=
  match s.hst.bg.find? (fun g => g.cmd.opcode == 0x0C) with
  | none => s
  | some g =>
    let k := b2n (s.rdB Reg.bootRewrite 2)
    let b := s.bodyBase k
    let code := s.imageCode b (16 * g.cmd.len)
    if code ≠ 0 then ((s.rewriteState 0 k).wrF Reg.bootRewrite 15 8 code).bgEnd 0x0C St.imageRejected code
    else
      let seq := (max (s.imageSeq 0) (s.imageSeq 1) + 1) % 2 ^ 32
      let s1 := ((s.flashWr (s.trailer k) (slotTrailer seq (16 * g.cmd.len))).slotSeqs).rewriteState 3 k
      (s1.post 308 0x3C (evData [(0, k), (32, seq)])).bgEnd 0x0C St.ok 0

/-! ### Meanings -/

/-- SFDP_READ (R79). -/
def execSfdpRead (fuseError : Bool) (found : Sfdp) (s : State) : Out := .next (s.sfdpRead fuseError found)

/-- PERSISTENT_AREA_SCAN (R70, R100). -/
def execPersistentAreaScan (s : State) : Out := .next s.persistentScan

/-- SLOT_SELECT (R104). -/
def execSlotSelect (s : State) : Out := .next s.slotSelect

/-- BODY_STREAM (R101). -/
def execBodyStream (s : State) : Out := .next s.bodyStream

/-- CAL_BANK_SELECT (R474). -/
def execCalBankSelect (s : State) : Out := .next s.calSelect

/-- CONFIG_APPLY (R93). -/
def execConfigApply (s : State) : Out := .next s.configApply

/-- PATCH_APPLY (R153). -/
def execPatchApply (s : State) : Out := .next s.patchApply

/-- BOOT_READY (R101). -/
def execBootReady (us : W32) (s : State) : Out := .next (s.bootReady us)

/-- ROLLBACK_BURN (R91). -/
def execRollbackBurn (s : State) : Out := .next s.rollbackBurn

/-- DRAM_TRAINING (R102). -/
def execDramTraining (ok : Bool) (s : State) : Out := .next (s.dramTraining ok)

/-- DRAM_SELF_REFRESH_EXIT (R457). -/
def execDramSelfRefreshExit (s : State) : Out := .next s.srefExit

/-- IMAGE (R111). -/
def execImage (data : Option (List Byte)) (s : State) : Out := .next (s.cmdImage data)

/-- IMAGE_COMMITTED (R111). -/
def execImageCommitted (s : State) : Out := .next s.imageDone

end Sys2Proof.Machine
end

