-- ==== Sys2Proof/Machine/Regs.lean ====
section
/-! DEFINITION. What a BAR0 read returns, and where a host write goes (R7, R8, R76, R110, R424, R437, R439, R489, R528 to R530). -/

namespace Sys2Proof.Machine

/-! ### Registers that report the module's present state -/

/-- A view in a register of the device blocks: some where the register is not stored. -/
def State.devView (s : State) (off : Nat) : Option W32 :=
  if off = Reg.idSerialLo then some (BitVec.ofNat 32 Config.serial.toNat)
  else if off = Reg.idSerialHi then some (BitVec.ofNat 32 (Config.serial.toNat / 2 ^ 32))
  else if off = Reg.clkOptimeLo then some (BitVec.ofNat 32 s.clk.optime.toNat)
  else if off = Reg.clkOptimeHi then some (BitVec.ofNat 32 (s.clk.optime.toNat / 2 ^ 32))
  else if off = Reg.clkPcycle then some (BitVec.ofNat 32 s.clk.pcycle.toNat)
  else if off = Reg.clkEpochLo then some (BitVec.ofNat 32 s.clk.epoch.toNat)
  else if off = Reg.clkEpochHi then some (BitVec.ofNat 32 (s.clk.epoch.toNat / 2 ^ 32))
  else if off = Reg.cwyStatus then some (withField (s.rd off) 0 0 (b2n s.alignOk))
  else if 0x58000 ≤ off ∧ off < 0x60000 then
    some (if off % 32 = 0 then slotWord (Tbl.get (fun _ => none) s.evr.ring ((off - 0x58000) / 32)) 0
          else s.ringWord ((off - 0x58000) / 32) (off % 32 / 4))
  else if Reg.evrOpen = off then some (match s.evr.openRec with | some r => slotWord (some r) 0 | none => 0)
  else if Reg.evrOpen < off ∧ off < Reg.evrOpen + 32 then some (s.openWord ((off - Reg.evrOpen) / 4))
  else if 0x82000 ≤ off ∧ off < 0x82800 then some (BitVec.ofNat 32 (s.calRef ((off - 0x82000) / 4)))
  else none

/-- The module is at reset or boots (R101): no unit has been found idle yet. -/
def State.unsettled (s : State) : Bool :=
  s.boot.stage == .off || s.boot.stage == .powerFail || s.boot.stage == .resetHeld || s.boot.stage == .booting

/-- Domain `d` of R50 runs: a Causeway port's while its enable bit is 1 (R398), the others by R50 and R51 (DEDUCED, log 77). -/
def State.domainOn (s : State) (d : Nat) : Bool :=
  let slept := fun c => (s.rd Reg.memRetState).getLsbD c
  if d < 96 then !slept (d / 3)
  else if d = 96 then !(List.range 16).all slept
  else if d = 97 then !(List.range 16).all (fun c => slept (16 + c))
  else if d = 99 then !s.sref
  else if d = 102 then s.rdB Reg.cwyCfg 0
  else if d = 103 then s.rdB Reg.cwyCfg 1
  else if d = 106 then
    s.unsettled || s.evr.inProgram != [] || s.evr.erasing.isSome || s.cal.storeStep != 0 || s.hst.bg.any (fun g => g.cmd.opcode == 0x0C)
  else if d = 107 then s.mem.march.isSome || (s.unsettled && !s.boot.marched)
  else decide (d < 112)

/-- CLK_DOMAIN_ON0 to CLK_DOMAIN_ON3. -/
def State.domainWord (s : State) (i : Nat) : W32 :=
  BitVec.ofNat 32 (ofBits ((List.range 32).filter (fun b => s.domainOn (32 * i + b))))

/-- The macro that MEM_MACRO_SEL names, none for a number above 1,089 (DEDUCED, log 78). -/
def State.macroSel (s : State) : Option Macro :=
  let m := s.rdF Reg.memMacroSel 10 0
  if m ≤ 1089 then some (s.macro m) else none

/-- MEM_MACRO_INFO. -/
def State.macroInfo (s : State) : W32 :=
  match s.macroSel with
  | some m => pack [(0, m.used.length), (16, m.retired.length)]
  | none => 0

/-- MEM_MACRO_ROW. -/
def State.macroRow (s : State) : W32 :=
  match s.macroSel with
  | some m =>
    match m.retired[s.rdF Reg.memMacroSel 25 16]? with
    | some r => pack [(0, r), (31, 1)]
    | none => 0
  | none => 0

/-- A view in a register of CLK_DOMAIN_ON or of the memories. -/
def State.memView (s : State) (off : Nat) : Option W32 :=
  if Reg.clkDomainOn0 ≤ off ∧ off < Reg.clkDomainOn0 + 16 then some (s.domainWord ((off - Reg.clkDomainOn0) / 4))
  else if off = Reg.memMacroInfo then some s.macroInfo
  else if off = Reg.memMacroRow then some s.macroRow
  else if 0xA1400 ≤ off ∧ off < 0xA1800 ∧ off % 16 = 12 then
    some (withField (s.rd off) 0 0 (b2n (s.siteMask.getLsbD ((off - 0xA1400) / 16))))
  else none

/-- Executions of the current microword still to run (SEQ_REPEAT); 0 while the sequencer is IDLE (DESIGN CHOICE, log 91). -/
def State.leftNow (s : State) (q : Nat) : Nat :=
  let z := s.seq q
  if z.st = 0 then 0
  else match z.left with
    | some n => n
    | none => z.executions (s.curWord q)

/-- SEQ_STATUS (R154, R450). PC reads 0 while the sequencer is IDLE (DESIGN CHOICE, log 91). -/
def State.seqStatus (s : State) (q : Nat) : W32 :=
  let z := s.seq q
  pack [(0, if z.st = 0 then 0 else z.pc % 2 ^ 14), (16, z.st), (19, b2n (z.stack.any (fun f => f.line.isSome))), (24, z.stack.length), (31, b2n (s.degraded q))]

/-- A view in register `o` of sequencer `q`. -/
def State.seqView (s : State) (q o : Nat) : Option W32 :=
  let z := s.seq q
  if o = Reg.seqStatus then some (s.seqStatus q)
  else if o = Reg.seqRepeat then some (BitVec.ofNat 32 (s.leftNow q))
  else if Reg.seqLc0 ≤ o ∧ o < Reg.seqLc0 + 16 then some (BitVec.ofNat 32 (Tbl.get (fun _ => 0) z.lc ((o - Reg.seqLc0) / 4)))
  else if o = Reg.seqGenXy then some (pack [(0, z.gen.x), (16, z.gen.y)])
  else if o = Reg.seqGenZd then some (pack [(0, z.gen.z), (16, z.gen.d)])
  else if o = Reg.seqPend then some (BitVec.ofNat 32 z.pend.toNat ||| (if q < 32 ∧ (s.lane q).granted then 4 else 0))
  else if o = Reg.seqIssue then some (BitVec.ofNat 32 (if q < 32 then (s.lane q).fill else 0))
  else if o = Reg.seqCycLo then some (BitVec.ofNat 32 z.cyc.toNat)
  else if o = Reg.seqCycHi then some (BitVec.ofNat 32 (z.cyc.toNat / 2 ^ 32))
  else none

/-- A view in register `o` of cluster `c`. -/
def State.cluView (s : State) (c o : Nat) : Option W32 :=
  let l := s.lane c
  if o < 0x100 then s.seqView c o
  else if o = Reg.plnSeg then some (pack [(0, l.segView.1), (12, l.segView.2.1), (14, b2n (l.live && !l.ended))])
  else if o = Reg.plnPlay then some (BitVec.ofNat 32 (min l.segView.2.2 0xFFFFFF))
  else if o = Reg.plnJump then some (withField (s.rd (cluOff c o)) 31 31 (b2n l.jump.isSome))
  else if o = Reg.flStatus then some (pack [(0, b2n l.failLatch), (1, b2n l.matchV), (2, b2n (s.sitesDone c))])
  else if o = Reg.flQueue then some (withField (s.rd (cluOff c o)) 10 0 l.failQ.length)
  else none

/-- TG_EDGE_DATA of channel `n`; 0 for a cell that TG_EDGE_ADDR does not define (DEDUCED, log 78). -/
def State.edgeData (s : State) (n : Nat) : Nat :=
  let j := s.rdF (chOff n Reg.tgEdgeAddr) 10 8
  if 5 < j then 0 else (s.chan n).code (s.rdF (chOff n Reg.tgEdgeAddr) 5 0) j

/-- TIA_BW_DATA of channel `n`: its reset value until TIA_BW_ADDR has been written (DEDUCED, log 98), and 0 for a line or bin that does not
exist (DEDUCED, log 78). -/
def State.binData (s : State) (n : Nat) : Nat :=
  let j := s.rdF (chOff n Reg.tiaBwAddr) 18 16
  let r := s.rdF (chOff n Reg.tiaBwAddr) 8 0
  if ¬ (s.chan n).bwRead ∨ 5 < j ∨ 319 < r then 0 else (s.chan n).width j r

/-- A view in register `o` of channel `n`. -/
def State.chView (s : State) (n o : Nat) : Option W32 :=
  let k := s.chan n
  let v := s.rd (chOff n o)
  if o = Reg.tgQueue then some (withField v 8 0 k.queue.length)
  else if o = Reg.tgEdgeData then some (BitVec.ofNat 32 (s.edgeData n))
  else if o = Reg.tgPair then some (withField v 2 1 (if s.primary n then 1 else if s.secondary n then 2 else 0))
  else if o = Reg.peStatus then some (withField (withField v 8 8 (b2n (s.driverOn n))) 9 9 (b2n (s.loadOn n)))
  else if o = Reg.peThrNow then some (pack [(0, s.thrNow n false), (16, s.thrNow n true)])
  else if o = Reg.tiaBwData then some (BitVec.ofNat 32 (s.binData n))
  else none

/-- The channel of an offset of the cluster spaces that lies in a channel page (R1, R528). -/
def chanAt (off : Nat) : Nat := 16 * ((off - 0x800000) / 0x20000) + ((off - 0x800000) % 0x20000 - 0x10000) / 0x1000

/-- The view that the register at `off` is, if any. -/
def State.view (s : State) (off : Nat) : Option W32 :=
  if off < 0xA0000 then (match s.devView off with | some v => some v | none => s.memView off)
  else if off < 0xA0100 then s.seqView 32 (off - 0xA0000)
  else if off < 0x800000 then s.memView off
  else
    let rel := (off - 0x800000) % 0x20000
    if rel < 0x10000 then s.cluView ((off - 0x800000) / 0x20000) rel else s.chView (chanAt off) (rel % 0x1000)

/-! ### Reads (R7, R8, R76, R424, R437, R489) -/

/-- The value of a register at `off` as it stands, before a shadow and before write-only fields are left out. -/
def State.live (s : State) (off : Nat) : W32 := (s.view off).getD (s.rd off)

/-- The LO registers of R76's pairs: the offset within their space. -/
def loPair (off : Nat) : Bool :=
  [Reg.clkOptimeLo, Reg.clkEpochLo, Reg.calLastOptLo, 0xA0000 + Reg.seqCycLo].contains off ||
    (decide (0x800000 ≤ off ∧ off < 0xC00000) &&
      [Reg.seqCycLo, Reg.plnGapFirstLo, Reg.plnGapLenLo, Reg.acqTrigLo, Reg.ddsGranLo, Reg.ddsPhaseLo,
        0x10000 + Reg.tiaLastLo, 0x10000 + Reg.tiaMeanLo, 0x10000 + Reg.tiaSdevLo, 0x10000 + Reg.tiaMinLo, 0x10000 + Reg.tiaMaxLo].contains (localOff off))

/-- A word of the fail counter window (R281). -/
def State.windowWord (s : State) (o : Nat) : W32 :=
  BitVec.ofNat 32 (leNat ((List.range 4).map (fun i => Tbl.get (fun _ => (0 : Byte)) s.mem.failCnt (o + i))))

/-- What a read of `off` returns (R8, R76): a HI register its shadow, a write-only field 0. -/
def State.readReg (s : State) (off : Nat) : W32 :=
  if 0xC00000 ≤ off then s.windowWord (off - 0xC00000)
  else if 0x38000 ≤ off ∧ off < 0x38400 then Tbl.get msixDefault s.hst.msixTable ((off - 0x38000) / 4)
  else if 0x39000 ≤ off ∧ off < 0x39008 then BitVec.ofNat 32 (s.hst.pba.toNat / 2 ^ (8 * (off - 0x39000)))
  else
    match findRow off with
    | some r => ((Tbl.get (fun _ => none) s.shadows off).getD (s.live off)) &&& ~~~ BitVec.ofNat 32 r.wo
    | none => 0

/-- A read of a LO register copies its HI register into the shadow (R76). -/
def State.latchHi (s : State) (off : Nat) : State :=
  if loPair off then { s with shadows := Tbl.set (fun _ => none) s.shadows (off + 4) (some (s.live (off + 4))) } else s

/-- Word 0 of ring slot `i`, or of EVR_OPEN0, by its offset (R489). -/
def recordWord0 (off : Nat) : Option (Option (Fin 1024)) :=
  if off = Reg.evrOpen then some none
  else if h : 0x58000 ≤ off ∧ off < 0x60000 ∧ off % 32 = 0 then some (some ⟨(off - 0x58000) / 32, by omega⟩)
  else none

/-- A host read of a word of the fail counter window, with what its ECC finds (R281, R442). The counters of a lost word are rewritten as
255 and read so, and their site is INCOMPLETE (R443; DEDUCED, log 105). -/
def State.windowRead (s : State) (o : Nat) (read : SramRead) : State :=
  let s1 := match read with
    | .clean => s
    | .corrected => s.eccCorrected
    | .lost =>
      ((List.range 4).foldl (fun (t : State) i => t.setFailByte (o + i) 255) (s.eccUncorr (1041 + o / 65536) (o % 65536 / 128))).wrB
        (Reg.flSiteStatus + 16 * (o / 0x4000)) 3 true
  s1.setRead (s1.windowWord o)

/-- A BAR0 read of 32 bits, with the counters of the register that increment in the same cycle (R8, R424, R439), and what the ECC of a word
of the fail counter memory finds (R442). -/
def State.busRead (s : State) (off : Nat) (incNow : W32) (read : SramRead) : State :=
  if s.boot.stage = .off then s
  else if !s.reaches off then s.unmapped off false
  else
    match recordWord0 off with
    | some i => s.slotRead i
    | none =>
      match findRow off with
      | some _ => (s.latchHi off).readClear off (s.readReg off) incNow
      | none => if 0xC00000 ≤ off then s.windowRead (off - 0xC00000) read else s.setRead (s.readReg off)

/-! ### Writes (R7, R8, R110) -/

/-- The roles of the value are all legal (R154). -/
def State.roleWrite (s : State) (off : Nat) (v : W32) : State := if rolesBad v.toNat then s else s.wr off v

/-- A host write of TIA_CTL: ARM and ABORT, judged on the state before the write (DEDUCED, log 80). The instant of the ABORT is a free one here
(DESIGN CHOICE, log 15): the row that carries it is TIA_ABORT. -/
def State.tiaCtl (s : State) (n : Nat) (v : W32) : State :=
  if bitOf v 1 ∧ (s.tiaState n = 1 ∨ s.tiaState n = 2) then
    let f := s.freeCycle
    let s1 := f.2.tiaAbort n f.1
    if bitOf v 0 then s1.tiaReject n else s1
  else if bitOf v 0 then s.tiaArm n else s

/-- A host write of ACQ_CTL: ARM and ABORT, judged on the state before the write, and FORCE (DEDUCED, log 80). -/
def State.acqCtl (s : State) (c : Nat) (v : W32) : State :=
  let s1 := if bitOf v 2 then s.acqForce c else s
  if bitOf v 1 ∧ 1 ≤ s.acqState c ∧ s.acqState c ≤ 3 then
    let s2 := s1.acqAbort c
    if bitOf v 0 then s2.acqReject c else s2
  else if bitOf v 0 then s1.acqArm c else s1

/-- A host write of CAL_CTL. The duration that CAL_TIME reports is a free value here (DESIGN CHOICE, log 15): the row that carries it is CAL_ABORT. -/
def State.calCtl (s : State) (v : W32) : State :=
  if bitOf v 0 ∧ s.cal.run.isSome then
    let f := s.freeWord
    f.2.calAbort f.1
  else s

/-- A host write to a register of the device blocks. -/
def State.devWrite (s : State) (off : Nat) (v : W32) : State :=
  if off = Reg.clkEppPeriod then s.eppPeriodWrite v
  else if off = Reg.clkEppWidth then s.eppWidthWrite v
  else if off = Reg.clkEppOffset then s.eppOffsetWrite v
  else if off = Reg.hstRingCtl then s.ringCtl v
  else if Reg.hstCmdBaseLo ≤ off ∧ off ≤ Reg.hstCplBaseHi then s.ringBase off v
  else if off = Reg.hstCmdTail ∨ off = Reg.hstCplHead then s.ringIndex off v
  else if off = Reg.hstVecAckLo then s.vecAck .lo v 0
  else if off = Reg.hstVecAckHi then s.vecAck .hi v 0
  else if 0x38000 ≤ off ∧ off < 0x38400 then s.msixWrite (off - 0x38000) v
  else if 0x39000 ≤ off ∧ off < 0x39008 then s
  else if off = Reg.cwySend then s.sendWrite v
  else if off = Reg.calCtl then s.calCtl v
  else if off = Reg.sndCtl then s.sndCtl v
  else if off = Reg.flSiteMaskLo then s.siteMaskWrite .lo v
  else if off = Reg.flSiteMaskHi then s.siteMaskWrite .hi v
  else if off = Reg.flBmpEnLo then s.flConfig .bmpEnLo v
  else if off = Reg.flBmpEnHi then s.flConfig .bmpEnHi v
  else if off = Reg.flGeom then s.flConfig .geom v
  else if off = Reg.flRecSize then s.flConfig .recSize v
  else if off = Reg.flRcLimit then s.flConfig .rcLimit v
  else if off = Reg.flClear then s.flClear v
  else s.plainWrite off v

/-- A host write to register `o` of cluster `c`. -/
def State.cluWrite (s : State) (c o : Nat) (v : W32) : State :=
  let off := cluOff c o
  if Reg.seqRole0 ≤ o ∧ o ≤ Reg.seqRole3 then s.roleWrite off v
  else if o = Reg.peLdstb then s.hostStrobe c v
  else if o = Reg.peMonCtl then s.monStart c v
  else if o = Reg.pmuSync then s.pmuSync c v
  else if o = Reg.plnSluice then s.sluicePost c v
  else if o = Reg.plnSluiceBase then s.sluiceConfig c false v
  else if o = Reg.plnSluiceSize then s.sluiceConfig c true v
  else if o = Reg.acqCtl then s.acqCtl c v
  else if acqConfigReg o then s.acqConfig c o v
  else if o = Reg.acqSpillBase then s.spillConfig c false v
  else if o = Reg.acqSpillSize then s.spillConfig c true v
  else if o = Reg.acqSpillRd then s.spillRdWrite c v
  else if o = Reg.ddsAddr then s.ddsAddrFree c v
  else s.plainWrite off v

/-- A host write to register `o` of channel `n`. -/
def State.chWrite (s : State) (n o : Nat) (v : W32) : State :=
  if (Reg.peVil ≤ o ∧ o ≤ Reg.peRampLen) ∨ (Reg.pmuForce ≤ o ∧ o ≤ Reg.pmuFilt) then s.stagingWrite n o v
  else if o = Reg.tiaCfg then s.tiaConfig n false v
  else if o = Reg.tiaTimeout then s.tiaConfig n true v
  else if o = Reg.tiaN then s.tiaNWrite n false v
  else if o = Reg.tiaGate then s.tiaNWrite n true v
  else if o = Reg.tiaCtl then s.tiaCtl n v
  else if o = Reg.tiaCdCtl then s.densityWrite n v
  else if o = Reg.tiaBwAddr then (s.modChan n (fun k => { k with bwRead := true })).plainWrite (chOff n o) v
  else s.plainWrite (chOff n o) v

/-- The effect of a host write on a register or window that responds. -/
def State.regWrite (s : State) (off : Nat) (v : W32) : State :=
  if 0xC00000 ≤ off then s.windowWrite (off - 0xC00000) v none
  else if off < 0x800000 then s.devWrite off v
  else
    let rel := (off - 0x800000) % 0x20000
    if rel < 0x10000 then s.cluWrite ((off - 0x800000) / 0x20000) rel v else s.chWrite (chanAt off) (rel % 0x1000) v

/-- A host write of `v` to `off` (R8, R110, R424): a difference in an SL bit is recorded, and the other fields take the value as
their kinds allow. -/
def State.hostWrite (s : State) (off : Nat) (v : W32) : State :=
  s.onWrite off (fun t => (t.sealedRecord off v).regWrite off v)

/-! ### Meanings -/

/-- The register at `off` has RW1C flags. -/
def hasFlags (off : Nat) : Bool := match findRow off with | some r => r.w1c != 0 | none => false

/-- FLAG_CLEAR (R439): a host write to a register of flags, with the set events of the same cycle. -/
def execFlagClear (off : BitVec 24) (v setNow : W32) (s : State) : Out :=
  .next (if hasFlags off.toNat then s.onWrite off.toNat (fun t => t.flagClear off.toNat v setNow) else s.hostWrite off.toNat v)

/-- READ_CLEAR (R8, R439): a read of a register, or of a word of the fail counter window (R442). -/
def execReadClear (off : BitVec 24) (now : ReadNow) (s : State) : Out := .next (s.busRead off.toNat now.incNow now.read)

/-- LO_READ_LATCH (R76): a read of a LO register. -/
def execLoReadLatch (off : BitVec 24) (s : State) : Out := .next (s.busRead off.toNat 0 .clean)

/-- HOST_WRITE_SEALED (R110). -/
def execHostWriteSealed (off : BitVec 24) (v : W32) (s : State) : Out := .next (s.hostWrite off.toNat v)

/-- REGISTER_WRITE (R8). -/
def execRegisterWrite (off : BitVec 24) (v : W32) (s : State) : Out := .next (s.hostWrite off.toNat v)

/-- SEQ_ROLE_WRITE (R154). -/
def execSeqRoleWrite (c : CluId) (i : Fin 4) (v : W32) (s : State) : Out :=
  .next (s.onWrite (cluOff c.val (Reg.seqRole0 + 4 * i.val)) (fun t => t.roleWrite (cluOff c.val (Reg.seqRole0 + 4 * i.val)) v))

/-- EVR_SLOT_WORD0_READ (R489). -/
def execEvrSlotWord0Read (slot : Option (Fin 1024)) (s : State) : Out :=
  .next (s.busRead (match slot with | some i => Reg.evrRing + 32 * i.val | none => Reg.evrOpen) 0 .clean)

end Sys2Proof.Machine
end

