-- ==== Sys2Proof/Machine/Dispatch.lean ====
section
/-! DEFINITION. One arm for each constructor of `Instr`: the meaning of the command. -/

namespace Sys2Proof.Machine

/-- The effect of a command on everything but the queue. -/
def exec (i : Instr) (s : State) : Host.Outcome State Fault Refusal :=
  match i with
  | .vinPowerUp => Sys2Proof.Machine.execVinPowerUp s
  | .pfwNAssert => Sys2Proof.Machine.execPfwNAssert s
  | .pfwShedEnd => Sys2Proof.Machine.execPfwShedEnd s
  | .pfwColdStart => Sys2Proof.Machine.execPfwColdStart s
  | .vinPowerDown => Sys2Proof.Machine.execVinPowerDown s
  | .rstNAssert => Sys2Proof.Machine.execRstNAssert s
  | .perstAssert => Sys2Proof.Machine.execPerstAssert s
  | .warmResetEnd => Sys2Proof.Machine.execWarmResetEnd s
  | .deviceResetStart => Sys2Proof.Machine.execDeviceResetStart s
  | .pcieLinkReset => Sys2Proof.Machine.execPcieLinkReset s
  | .sfdpRead fuseError found => Sys2Proof.Machine.execSfdpRead fuseError found s
  | .persistentAreaScan => Sys2Proof.Machine.execPersistentAreaScan s
  | .slotSelect => Sys2Proof.Machine.execSlotSelect s
  | .bodyStream => Sys2Proof.Machine.execBodyStream s
  | .calBankSelect => Sys2Proof.Machine.execCalBankSelect s
  | .configApply => Sys2Proof.Machine.execConfigApply s
  | .patchApply => Sys2Proof.Machine.execPatchApply s
  | .bootReady us => Sys2Proof.Machine.execBootReady us s
  | .rollbackBurn => Sys2Proof.Machine.execRollbackBurn s
  | .bootMarch fails => Sys2Proof.Machine.execBootMarch fails s
  | .dramTraining ok => Sys2Proof.Machine.execDramTraining ok s
  | .dramSelfRefreshExit => Sys2Proof.Machine.execDramSelfRefreshExit s
  | .epochTick => Sys2Proof.Machine.execEpochTick s
  | .optimeMs => Sys2Proof.Machine.execOptimeMs s
  | .optimeCheckpoint => Sys2Proof.Machine.execOptimeCheckpoint s
  | .ageingUpdate => Sys2Proof.Machine.execAgeingUpdate s
  | .tempCorrectionUpdate => Sys2Proof.Machine.execTempCorrectionUpdate s
  | .followerLock offset => Sys2Proof.Machine.execFollowerLock offset s
  | .holdoverEntry offset => Sys2Proof.Machine.execHoldoverEntry offset s
  | .holdoverReturn => Sys2Proof.Machine.execHoldoverReturn s
  | .clkEppPeriodWrite v => Sys2Proof.Machine.execClkEppPeriodWrite v s
  | .clkEppWidthWrite v => Sys2Proof.Machine.execClkEppWidthWrite v s
  | .clkEppOffsetWrite v => Sys2Proof.Machine.execClkEppOffsetWrite v s
  | .commandFetch entry => Sys2Proof.Machine.execCommandFetch entry s
  | .nop => Sys2Proof.Machine.execNop s
  | .run => Sys2Proof.Machine.execRun s
  | .masterStart us => Sys2Proof.Machine.execMasterStart us s
  | .stop => Sys2Proof.Machine.execStop s
  | .stage data => Sys2Proof.Machine.execStage data s
  | .jump => Sys2Proof.Machine.execJump s
  | .stream => Sys2Proof.Machine.execStream s
  | .streamBlockPost c data => Sys2Proof.Machine.execStreamBlockPost c data s
  | .creditTimeout c => Sys2Proof.Machine.execCreditTimeout c s
  | .read => Sys2Proof.Machine.execRead s
  | .write data => Sys2Proof.Machine.execWrite data s
  | .epoch => Sys2Proof.Machine.execEpoch s
  | .epochTakeEffect => Sys2Proof.Machine.execEpochTakeEffect s
  | .sound => Sys2Proof.Machine.execSound s
  | .calibrate => Sys2Proof.Machine.execCalibrate s
  | .march => Sys2Proof.Machine.execMarch s
  | .image data => Sys2Proof.Machine.execImage data s
  | .imageCommitted => Sys2Proof.Machine.execImageCommitted s
  | .logRead => Sys2Proof.Machine.execLogRead s
  | .deviceReset => Sys2Proof.Machine.execDeviceReset s
  | .cplStall => Sys2Proof.Machine.execCplStall s
  | .bar0BadAccess off form => Sys2Proof.Machine.execBar0BadAccess off form s
  | .bar0Unmapped off isWrite => Sys2Proof.Machine.execBar0Unmapped off isWrite s
  | .bar2Read addr len => Sys2Proof.Machine.execBar2Read addr len s
  | .bar2Write addr data => Sys2Proof.Machine.execBar2Write addr data s
  | .hstRingCtlWrite v => Sys2Proof.Machine.execHstRingCtlWrite v s
  | .hstCmdTailWrite v => Sys2Proof.Machine.execHstCmdTailWrite v s
  | .hstCplHeadWrite v => Sys2Proof.Machine.execHstCplHeadWrite v s
  | .hstVecAckWrite half v setNow => Sys2Proof.Machine.execHstVecAckWrite half v setNow s
  | .msixUnmask vec => Sys2Proof.Machine.execMsixUnmask vec s
  | .flagClear off v setNow => Sys2Proof.Machine.execFlagClear off v setNow s
  | .readClear off now => Sys2Proof.Machine.execReadClear off now s
  | .loReadLatch off => Sys2Proof.Machine.execLoReadLatch off s
  | .hostWriteSealed off v => Sys2Proof.Machine.execHostWriteSealed off v s
  | .registerWrite off v => Sys2Proof.Machine.execRegisterWrite off v s
  | .seqRoleWrite c index v => Sys2Proof.Machine.execSeqRoleWrite c index v s
  | .openRecordTimeout => Sys2Proof.Machine.execOpenRecordTimeout s
  | .logProgramDone ok => Sys2Proof.Machine.execLogProgramDone ok s
  | .logBlockEraseDone ok => Sys2Proof.Machine.execLogBlockEraseDone ok s
  | .evrSlotWord0Read slot => Sys2Proof.Machine.execEvrSlotWord0Read slot s
  | .next q ecc => Sys2Proof.Machine.execNext q ecc s
  | .opcJump q ecc => Sys2Proof.Machine.execOpcJump q ecc s
  | .call q ecc => Sys2Proof.Machine.execCall q ecc s
  | .ret q ecc => Sys2Proof.Machine.execRet q ecc s
  | .loop q ecc => Sys2Proof.Machine.execLoop q ecc s
  | .wait q ecc => Sys2Proof.Machine.execWait q ecc s
  | .waitConditionMet q cycles => Sys2Proof.Machine.execWaitConditionMet q cycles s
  | .waitTimeout q => Sys2Proof.Machine.execWaitTimeout q s
  | .halt q ecc => Sys2Proof.Machine.execHalt q ecc s
  | .setreg q ecc => Sys2Proof.Machine.execSetreg q ecc s
  | .seg q ecc => Sys2Proof.Machine.execSeg q ecc s
  | .rtbl q ecc => Sys2Proof.Machine.execRtbl q ecc s
  | .sync q ecc => Sys2Proof.Machine.execSync q ecc s
  | .trap q ecc => Sys2Proof.Machine.execTrap q ecc s
  | .lstart q ecc => Sys2Proof.Machine.execLstart q ecc s
  | .lstop q ecc => Sys2Proof.Machine.execLstop q ecc s
  | .brel q ecc => Sys2Proof.Machine.execBrel q ecc s
  | .cwmsg q ecc => Sys2Proof.Machine.execCwmsg q ecc s
  | .timerExpire q => Sys2Proof.Machine.execTimerExpire q s
  | .holdRelease q cycles => Sys2Proof.Machine.execHoldRelease q cycles s
  | .interruptAccept p => Sys2Proof.Machine.execInterruptAccept p s
  | .mgtHeartbeat => Sys2Proof.Machine.execMgtHeartbeat s
  | .wedge cause unit elapsedUs => Sys2Proof.Machine.execWedge cause unit elapsedUs s
  | .laneStart c cycle => Sys2Proof.Machine.execLaneStart c cycle s
  | .vectorIssue c ecc => Sys2Proof.Machine.execVectorIssue c ecc s
  | .edgeFormation ch => Sys2Proof.Machine.execEdgeFormation ch s
  | .edgePlacement ch => Sys2Proof.Machine.execEdgePlacement ch s
  | .strobe ch s1 opens trace => Sys2Proof.Machine.execStrobe ch s1 opens trace s
  | .responseLookup ch => Sys2Proof.Machine.execResponseLookup ch s
  | .hostLoadStrobe c v => Sys2Proof.Machine.execHostLoadStrobe c v s
  | .loadStrobe x => Sys2Proof.Machine.execLoadStrobe x s
  | .rangingEnd ch => Sys2Proof.Machine.execRangingEnd ch s
  | .rampStep ch => Sys2Proof.Machine.execRampStep ch s
  | .peStagingWrite ch index v => Sys2Proof.Machine.execPeStagingWrite ch index v s
  | .comparatorCrossing ch low pos latches => Sys2Proof.Machine.execComparatorCrossing ch low pos latches s
  | .monitorStart c v => Sys2Proof.Machine.execMonitorStart c v s
  | .monitorConversionEnd c code recent => Sys2Proof.Machine.execMonitorConversionEnd c code recent s
  | .refillBlockRequest c => Sys2Proof.Machine.execRefillBlockRequest c s
  | .refillBlockArrive c => Sys2Proof.Machine.execRefillBlockArrive c s
  | .jumpGrant p => Sys2Proof.Machine.execJumpGrant p s
  | .sluicePost c v => Sys2Proof.Machine.execSluicePost c v s
  | .sluiceCreditReturn c => Sys2Proof.Machine.execSluiceCreditReturn c s
  | .plnSluiceConfigWrite c size v => Sys2Proof.Machine.execPlnSluiceConfigWrite c size v s
  | .laneIdle c => Sys2Proof.Machine.execLaneIdle c s
  | .planEnd => Sys2Proof.Machine.execPlanEnd s
  | .alignedStart cycle => Sys2Proof.Machine.execAlignedStart cycle s
  | .alignedStartTimeout => Sys2Proof.Machine.execAlignedStartTimeout s
  | .strobeResultJudge c => Sys2Proof.Machine.execStrobeResultJudge c s
  | .failWriterDrain c row col => Sys2Proof.Machine.execFailWriterDrain c row col s
  | .lostRecordWrite c => Sys2Proof.Machine.execLostRecordWrite c s
  | .flSiteMaskWrite half v => Sys2Proof.Machine.execFlSiteMaskWrite half v s
  | .flConfigWrite r v => Sys2Proof.Machine.execFlConfigWrite r v s
  | .flClear v => Sys2Proof.Machine.execFlClear v s
  | .flClearDone => Sys2Proof.Machine.execFlClearDone s
  | .failCounterWindowWrite off v drain => Sys2Proof.Machine.execFailCounterWindowWrite off v drain s
  | .tiaArm ch => Sys2Proof.Machine.execTiaArm ch s
  | .tiaArmInstant ch cycle => Sys2Proof.Machine.execTiaArmInstant ch cycle s
  | .tiaAbort x => Sys2Proof.Machine.execTiaAbort x s
  | .tiaNWrite ch gate v => Sys2Proof.Machine.execTiaNWrite ch gate v s
  | .tiaConfigWrite ch timeout v => Sys2Proof.Machine.execTiaConfigWrite ch timeout v s
  | .transitionTimestamp ch low rising vec edge bin => Sys2Proof.Machine.execTransitionTimestamp ch low rising vec edge bin s
  | .tiaEvent ch => Sys2Proof.Machine.execTiaEvent ch s
  | .frequencyGateEnd ch => Sys2Proof.Machine.execFrequencyGateEnd ch s
  | .tiaTimeout ch => Sys2Proof.Machine.execTiaTimeout ch s
  | .tiaRangeEnd ch => Sys2Proof.Machine.execTiaRangeEnd ch s
  | .codeDensityStart ch v => Sys2Proof.Machine.execCodeDensityStart ch v s
  | .codeDensityEnd ch line hits => Sys2Proof.Machine.execCodeDensityEnd ch line hits s
  | .lineLock ch line => Sys2Proof.Machine.execLineLock ch line s
  | .lineUnlock ch line => Sys2Proof.Machine.execLineUnlock ch line s
  | .lineAcquireTimeout ch line => Sys2Proof.Machine.execLineAcquireTimeout ch line s
  | .pmuStagingWrite ch index v => Sys2Proof.Machine.execPmuStagingWrite ch index v s
  | .pmuSyncWrite c v => Sys2Proof.Machine.execPmuSyncWrite c v s
  | .syncReset ch cycle => Sys2Proof.Machine.execSyncReset ch cycle s
  | .resultWord ch x => Sys2Proof.Machine.execResultWord ch x s
  | .pmuDcbWrite ch v => Sys2Proof.Machine.execPmuDcbWrite ch v s
  | .clampEntry ch cycle => Sys2Proof.Machine.execClampEntry ch cycle s
  | .acqArm c => Sys2Proof.Machine.execAcqArm c s
  | .acqArmInstant c cycle => Sys2Proof.Machine.execAcqArmInstant c cycle s
  | .acqAbort c => Sys2Proof.Machine.execAcqAbort c s
  | .acqForce c => Sys2Proof.Machine.execAcqForce c s
  | .triggerSample c => Sys2Proof.Machine.execTriggerSample c s
  | .stateTimeout c => Sys2Proof.Machine.execStateTimeout c s
  | .rearmEnd c => Sys2Proof.Machine.execRearmEnd c s
  | .spillRecord c read part row => Sys2Proof.Machine.execSpillRecord c read part row s
  | .acqSpillRdWrite c v => Sys2Proof.Machine.execAcqSpillRdWrite c v s
  | .acqSpillConfigWrite c size v => Sys2Proof.Machine.execAcqSpillConfigWrite c size v s
  | .acqConfigWrite c off v => Sys2Proof.Machine.execAcqConfigWrite c off v s
  | .ddsTokenIssue c => Sys2Proof.Machine.execDdsTokenIssue c s
  | .ddsEntryWrite x v => Sys2Proof.Machine.execDdsEntryWrite x v s
  | .ddsEntryRead c v => Sys2Proof.Machine.execDdsEntryRead c v s
  | .tdNTouchdown => Sys2Proof.Machine.execTdNTouchdown s
  | .tdNLiftoff => Sys2Proof.Machine.execTdNLiftoff s
  | .sndStart => Sys2Proof.Machine.execSndStart s
  | .sndClrMask => Sys2Proof.Machine.execSndClrMask s
  | .soundingPassStart => Sys2Proof.Machine.execSoundingPassStart s
  | .contactJudge => Sys2Proof.Machine.execContactJudge s
  | .tdrHalfEnd => Sys2Proof.Machine.execTdrHalfEnd s
  | .soundingPassEnd us => Sys2Proof.Machine.execSoundingPassEnd us s
  | .soundingTimeout => Sys2Proof.Machine.execSoundingTimeout s
  | .calAbort us => Sys2Proof.Machine.execCalAbort us s
  | .calStepEnd values => Sys2Proof.Machine.execCalStepEnd values s
  | .calDone us => Sys2Proof.Machine.execCalDone us s
  | .calStoreStep ok us => Sys2Proof.Machine.execCalStoreStep ok us s
  | .calStoreCommit us => Sys2Proof.Machine.execCalStoreCommit us s
  | .portTrainRetry x => Sys2Proof.Machine.execPortTrainRetry x s
  | .portTrained p => Sys2Proof.Machine.execPortTrained p s
  | .identExchange p peer => Sys2Proof.Machine.execIdentExchange p peer s
  | .linkCalibration p meas lat => Sys2Proof.Machine.execLinkCalibration p meas lat s
  | .refusedRetry p => Sys2Proof.Machine.execRefusedRetry p s
  | .electionCell => Sys2Proof.Machine.execElectionCell s
  | .electionSettle seg => Sys2Proof.Machine.execElectionSettle seg s
  | .linkLoss p => Sys2Proof.Machine.execLinkLoss p s
  | .creditReturn p n => Sys2Proof.Machine.execCreditReturn p n s
  | .cellInject p => Sys2Proof.Machine.execCellInject p s
  | .cwySendWrite v => Sys2Proof.Machine.execCwySendWrite v s
  | .cwTrig p cell => Sys2Proof.Machine.execCwTrig p cell s
  | .cwJump p cell => Sys2Proof.Machine.execCwJump p cell s
  | .cwTouch p cell => Sys2Proof.Machine.execCwTouch p cell s
  | .cwLift p cell => Sys2Proof.Machine.execCwLift p cell s
  | .cwUser p cell => Sys2Proof.Machine.execCwUser p cell s
  | .cwStart p cell => Sys2Proof.Machine.execCwStart p cell s
  | .cwSummary p cell => Sys2Proof.Machine.execCwSummary p cell s
  | .marchWindow m => Sys2Proof.Machine.execMarchWindow m s
  | .heldRetire => Sys2Proof.Machine.execHeldRetire s
  | .retentionEntry c => Sys2Proof.Machine.execRetentionEntry c s
  | .retentionWake c => Sys2Proof.Machine.execRetentionWake c s
  | .sensorRead readings supplies => Sys2Proof.Machine.execSensorRead readings supplies s
  | .suppliesInRange => Sys2Proof.Machine.execSuppliesInRange s
  | .pcieLinkUp width speed => Sys2Proof.Machine.execPcieLinkUp width speed s
  | .phaseSlewEnd => Sys2Proof.Machine.execPhaseSlewEnd s
  | .modulatorOverload ch cycle => Sys2Proof.Machine.execModulatorOverload ch cycle s
  | .clampExit ch cycle => Sys2Proof.Machine.execClampExit ch cycle s

end Sys2Proof.Machine
end

