-- ==== Sys2Proof/Safety.lean ====
section
/-! DEFINITION. What a statement says is left alone: the parts of the state, footprints, and frames. -/

namespace Sys2Proof.Machine

/-- One part of the state that a rule can leave unchanged: a register, a byte of a memory, an engine by its number, or a
group of fields that change together. -/
inductive Part where
  /-- The waiting commands. -/
  | pending
  | freeCtr
  /-- The register at a BAR0 offset. -/
  | reg (off : Nat)
  | shadows
  | boot
  | clk
  | evr
  /-- The pending bit array and the messages sent (R437, R438). -/
  | vectors
  /-- Commands fetched and running, reserved slots and the completions of the ring (R427 to R431). -/
  | rings
  | hostMem
  | msix
  /-- What the last host reads returned. -/
  | reads
  | flash (a : Nat)
  /-- Key slots and revocations, in fuses (R88). -/
  | keys
  /-- The rollback thermometer, in fuses (R90). -/
  | rollback
  /-- The flash interface and the persistent area's next entry. -/
  | flashPort
  | macros
  /-- The host march and the windows it borrows. -/
  | march
  /-- The refills that wait in the DRAM request queues (R40, R185). -/
  | refills
  /-- The timing-set memory (R202, R441). -/
  | timing
  /-- One DRAM byte. -/
  | dram (a : Nat)
  /-- One byte of the fail counter memory (R281). -/
  | failCnt (a : Nat)
  | cal
  | pwr
  | seq (q : Nat)
  | lane (c : Nat)
  | clu (c : Nat)
  | chan (n : Nat)
  | plan
  | snd
  | cwy
  deriving DecidableEq, Repr

/-- A part holds the same in two states. -/
def Part.same (p : Part) (s t : State) : Prop :=
  match p with
  | .pending => t.pending = s.pending
  | .freeCtr => t.freeCtr = s.freeCtr
  | .reg o => t.rd o = s.rd o
  | .shadows => t.shadows = s.shadows
  | .boot => t.boot = s.boot
  | .clk => t.clk = s.clk
  | .evr => t.evr = s.evr
  | .vectors => t.hst.pba = s.hst.pba ∧ t.hst.messages = s.hst.messages
  | .rings =>
    t.hst.fetched = s.hst.fetched ∧ t.hst.fg = s.hst.fg ∧ t.hst.bg = s.hst.bg ∧ t.hst.reserved = s.hst.reserved ∧
      t.hst.cplRing = s.hst.cplRing
  | .hostMem => t.hst.hostMem = s.hst.hostMem
  | .msix => t.hst.msixTable = s.hst.msixTable
  | .reads => t.hst.readData = s.hst.readData ∧ t.hst.bar2Data = s.hst.bar2Data ∧ t.hst.ur = s.hst.ur
  | .flash a => t.flashAt a = s.flashAt a
  | .keys => t.nvm.keys = s.nvm.keys ∧ t.nvm.revoked = s.nvm.revoked
  | .rollback => t.nvm.rollback = s.nvm.rollback
  | .flashPort =>
    t.nvm.persist = s.nvm.persist ∧ t.nvm.up = s.nvm.up ∧ t.nvm.scanned = s.nvm.scanned ∧ t.nvm.noFlash = s.nvm.noFlash
  | .macros => t.mem.macros = s.mem.macros
  | .march => t.mem.march = s.mem.march ∧ t.mem.held = s.mem.held
  | .refills => t.mem.dramQ = s.mem.dramQ
  | .timing => t.mem.timing = s.mem.timing
  | .dram a => t.dramAt a = s.dramAt a
  | .failCnt a => Tbl.get (fun _ => (0 : Byte)) t.mem.failCnt a = Tbl.get (fun _ => (0 : Byte)) s.mem.failCnt a
  | .cal => t.cal = s.cal
  | .pwr => t.pwr = s.pwr
  | .seq q => t.seq q = s.seq q
  | .lane c => t.lane c = s.lane c
  | .clu c => t.clu c = s.clu c
  | .chan n => t.chan n = s.chan n
  | .plan => t.plan = s.plan
  | .snd => t.snd = s.snd
  | .cwy => t.cwy = s.cwy

/-- An entry of a footprint: what a command may change. -/
inductive Foot where
  /-- Exactly one part. -/
  | one (p : Part)
  /-- Register `o` of every channel page. -/
  | chReg (o : Nat)
  /-- Register `o` of every cluster. -/
  | cluReg (o : Nat)
  /-- The register at an offset and the one after it: a flag register with its counters (R439), or a LO and HI pair. -/
  | pair (off : Nat)
  | chPair (o : Nat)
  | cluPair (o : Nat)
  /-- The registers from `lo` to below `hi` of every channel page, or of every cluster. -/
  | chRegs (lo hi : Nat)
  | cluRegs (lo hi : Nat)
  /-- The registers of the offsets from `lo` to below `hi`. -/
  | regs (lo hi : Nat)
  | allRegs
  /-- `n` bytes of a memory from `a`. -/
  | dram (a n : Nat)
  | failCnt (a n : Nat)
  | flash (a n : Nat)
  | drams
  | failCnts
  | flashes
  /-- The log region of the flash (R81). -/
  | log
  | seqs
  | lanes
  | clus
  | chans
  /-- What a vector's pending bit and its message can change (R438). -/
  | vector
  /-- What an occurrence of an event can change: the recorder and its registers, the log region of the flash, and the vector it routes to
  (R438, R477). -/
  | events
  /-- What a completion can change: the rings, with the entry in host memory, the completion index, the drop counter and the vector of
  completions (R427, R429). -/
  | completion
  /-- What a host access that R423, R424 or R440 turns away can change: HST_BAD_ADDR, HST_FLAGS and what the read returned. -/
  | hostError
  deriving DecidableEq, Repr

/-- The pending bits of the vectors. -/
def vectorReg (o : Nat) : Bool := o == Reg.hstVecPendLo || o == Reg.hstVecPendHi

/-- The registers of the recorder that an occurrence can change. -/
def recorderReg (o : Nat) : Bool :=
  [Reg.evrStatus, Reg.evrFlags, Reg.evrFlags + 4, Reg.evrDrop, Reg.evrCommit, Reg.evrLog, Reg.evrLogBseq].contains o

/-- Register `o` of some channel page (R11). -/
def isChReg (o off : Nat) : Bool :=
  decide (0x800000 ≤ off) && decide (0x10000 ≤ (off - 0x800000) % 0x20000) && decide ((off - 0x800000) % 0x1000 = o)

/-- Register `o` of some cluster. -/
def isCluReg (o off : Nat) : Bool := decide (0x800000 ≤ off) && decide ((off - 0x800000) % 0x20000 = o)

/-- A register from `lo` to below `hi` of some channel page. -/
def inChRegs (lo hi off : Nat) : Bool :=
  decide (0x800000 ≤ off) && decide (0x10000 ≤ (off - 0x800000) % 0x20000) &&
    decide (lo ≤ (off - 0x800000) % 0x1000 ∧ (off - 0x800000) % 0x1000 < hi)

/-- A register from `lo` to below `hi` of some cluster. -/
def inCluRegs (lo hi off : Nat) : Bool :=
  decide (0x800000 ≤ off) && decide (lo ≤ (off - 0x800000) % 0x20000 ∧ (off - 0x800000) % 0x20000 < hi)

/-- The parts that an entry of a footprint takes in. -/
def Foot.covers (k : Foot) (p : Part) : Bool :=
  match k, p with
  | .one q, p => decide (q = p)
  | .chReg o, .reg off => isChReg o off
  | .cluReg o, .reg off => isCluReg o off
  | .pair o, .reg off => off == o || off == o + 4
  | .chPair o, .reg off => isChReg o off || isChReg (o + 4) off
  | .cluPair o, .reg off => isCluReg o off || isCluReg (o + 4) off
  | .chRegs lo hi, .reg off => inChRegs lo hi off
  | .cluRegs lo hi, .reg off => inCluRegs lo hi off
  | .regs lo hi, .reg off => decide (lo ≤ off ∧ off < hi)
  | .allRegs, .reg _ => true
  | .dram a n, .dram b => decide (a ≤ b ∧ b < a + n)
  | .failCnt a n, .failCnt b => decide (a ≤ b ∧ b < a + n)
  | .flash a n, .flash b => decide (a ≤ b ∧ b < a + n)
  | .drams, .dram _ => true
  | .failCnts, .failCnt _ => true
  | .flashes, .flash _ => true
  | .seqs, .seq _ => true
  | .lanes, .lane _ => true
  | .clus, .clu _ => true
  | .chans, .chan _ => true
  | .vector, .vectors => true
  | .vector, .reg off => vectorReg off
  | .events, .evr => true
  | .events, .vectors => true
  | .log, .flash a => decide (0x600000 ≤ a ∧ a < 0xE00000)
  | .events, .flash a => decide (0x600000 ≤ a ∧ a < 0xE00000)
  | .events, .reg off => vectorReg off || recorderReg off
  | .completion, .rings => true
  | .completion, .hostMem => true
  | .completion, .vectors => true
  | .completion, .reg off => vectorReg off || off == Reg.hstCplTail || off == Reg.hstCplDrop
  | .hostError, .reads => true
  | .hostError, .reg off => [Reg.hstBadAddr, Reg.hstFlags, Reg.hstFlags + 4].contains off
  | _, _ => false

/-- From `s` to `t` nothing changes but what the footprint takes in. -/
def ChangesOnly (foot : List Foot) (s t : State) : Prop := ∀ p : Part, (∀ k ∈ foot, k.covers p = false) → p.same s t

/-- The registers, the byte memories and the tables of engines are in canonical form, so that equal contents are equal data. -/
def State.canonical (s : State) : Bool :=
  Tbl.wf resetWord s.regs && Tbl.wf (fun _ => (0xFF : Byte)) s.nvm.flash && Tbl.wf (fun _ => (0 : Byte)) s.mem.dram &&
    Tbl.wf (fun _ => (0 : Byte)) s.mem.failCnt && Tbl.wf (fun _ => seqReset) s.seqs && Tbl.wf (fun _ => laneReset) s.lanes &&
    Tbl.wf (fun _ => cluReset) s.clus && Tbl.wf (fun _ => chanReset) s.chans && Tbl.wf (fun _ => (0 : Byte)) s.mem.timing

/-- A command completes: executing it answers a next state with `post`, and nothing changes but what the footprint takes in. -/
def Completes (c : Instr) (s : State) (foot : List Foot) (post : State → Prop) : Prop :=
  ∃ t, exec c s = .next t ∧ post t ∧ ChangesOnly foot s t

/-- From `s` to `t` event `code` of source `src` occurs with its data, and what the command does besides stays inside the footprint
(R477). -/
def Posted (s t : State) (foot : List Foot) (src code : Nat) (data : BitVec 128) : Prop :=
  ∃ u : State, t = u.post src code data ∧ ChangesOnly foot s u

/-- Everything that a full reset can change: all but the flash, the fuses and the host's memory. -/
def volatileFoot : List Foot :=
  [.allRegs, .one .shadows, .one .boot, .one .clk, .one .evr, .one .vectors, .one .rings, .one .msix, .one .reads, .one .flashPort,
    .one .macros, .one .march, .one .refills, .one .timing, .drams, .failCnts, .one .cal, .one .pwr, .seqs, .lanes, .clus, .chans, .one .plan, .one .snd, .one .cwy]

/-- After a cold start: phase P0 with every register at its reset value, every line ACQUIRING, no command waiting and no operating
time yet (R101, R309, R503). -/
def ColdStarted (t : State) (supplies : Nat) : Prop :=
  t.boot.stage = .booting ∧ t.boot.cold = true ∧ t.boot.sealed = false ∧ t.phase = 0 ∧
  (∀ off, off ≠ Reg.pwrStatus → (∀ n : Fin 512, off ≠ chOff n Reg.tiaLine) → t.rd off = resetWord off) ∧
  t.rdF Reg.pwrStatus 3 0 = supplies ∧ (∀ n : Fin 512, t.rd (chOff n Reg.tiaLine) = 0x555) ∧
  t.clk.epoch = 0 ∧ t.clk.epochZero = true ∧ t.clk.optime = 0 ∧ t.clk.pcycle = 0 ∧ t.hst.fetched = [] ∧ t.hst.fg = none ∧ t.hst.bg = [] ∧
  t.seqs = [] ∧ t.nvm.up = false

/-- The boot has stopped with a failure code (R107). -/
def BootStopped (t : State) (code : Nat) : Prop :=
  t.boot.stage = .failed ∧ t.rdF Reg.bootStatus 2 0 = 4 ∧ t.rdF Reg.bootStatus 23 16 = code % 256 ∧ t.rdB Reg.hstStatus 1 = true

/-- The slot that was tried in `s` has failed with `code` (R104, R107): the other committed slot is tried from P4 on, or, where none is
left, the boot stops with the code of the first failure. -/
def SlotFailed (s t : State) (code : Nat) : Prop :=
  t.boot.tried = s.boot.tried ++ [s.slot] ∧ t.boot.firstCode = (if s.boot.tried = [] then code else s.boot.firstCode) ∧
  ((∀ k, k < 2 → s.committed k = true → k ∈ t.boot.tried) → BootStopped t t.boot.firstCode) ∧
  ((∃ k, k < 2 ∧ s.committed k = true ∧ k ∉ t.boot.tried) →
    t.boot.stage = s.boot.stage ∧ t.phase = 4 ∧ t.rdB Reg.bootStatus 9 = true ∧ t.rdF Reg.bootStatus 2 0 = 1)

/-- The command `c` has opcode `op`, is the oldest fetched command, no foreground command runs, and neither the stage nor the opcode
refuses it: it is taken (R434). `rest` are the commands fetched after it. -/
def Front (s : State) (op : Nat) (c : Cmd) (rest : List Cmd) : Prop :=
  s.hst.fg = none ∧ s.hst.fetched = c :: rest ∧ c.opcode = op ∧ s.fetches = true ∧ s.refusal c = none

/-- From `s` to `t` the command `c` has ended: its reserved slot is given up, and its completion entry stands at CPL_TAIL with the
current phase, in the ring and in host memory at CPL_BASE plus 16 bytes an index, CPL_TAIL has moved on, the phase has turned on the
wrap, and the vector of completions is pending (R427, R429, R431, R438); or, where a link reset came first, the completion is dropped and
counted (R422). -/
def Ended (s t : State) (c : Cmd) (status detail result : Nat) : Prop :=
  t.hst.reserved = s.hst.reserved - 1 ∧
  (c.dropped = true → t.rd Reg.hstCplDrop = BitVec.ofNat 32 (satAdd 0xFFFFFFFF (s.rd Reg.hstCplDrop).toNat 1) ∧
    t.hst.cplRing = s.hst.cplRing) ∧
  (c.dropped = false →
    Tbl.get (fun _ => (0 : BitVec 128)) t.hst.cplRing (s.rdF Reg.hstCplTail 11 0) =
      cplEntry c status detail result (s.rdB Reg.hstCplTail 12) ∧
    Tbl.getList (fun _ => (0 : Byte)) t.hst.hostMem (s.cplAddr (s.rdF Reg.hstCplTail 11 0)) 16 =
      leBytes 16 (cplEntry c status detail result (s.rdB Reg.hstCplTail 12)).toNat ∧
    t.rdF Reg.hstCplTail 11 0 = (s.rdF Reg.hstCplTail 11 0 + 1) % 4096 ∧
    t.rdB Reg.hstCplTail 12 = (if s.rdF Reg.hstCplTail 11 0 = 4095 then !s.rdB Reg.hstCplTail 12 else s.rdB Reg.hstCplTail 12) ∧
    t.rdB (vecReg (s.rdF Reg.hstCfg 5 0)) (s.rdF Reg.hstCfg 5 0 % 32) = true)

/-- The background command `c` at the front is accepted (R434): it keeps its reserved slot and nothing completes, and then the fetched
commands that are refused by their opcode end. -/
def Accepted (s t : State) (c : Cmd) (rest : List Cmd) : Prop :=
  ∃ u : State, t = u.settleAll ∧ u.hst.bg = s.hst.bg ++ [{ cmd := c, posted := 0 }] ∧ u.hst.fetched = rest ∧ u.hst.fg = none ∧
    u.hst.reserved = s.hst.reserved ∧ u.hst.cplRing = s.hst.cplRing

/-- No background command of opcode `op` waits any more, and the one that waited has ended with its completion (R434). -/
def BgEnded (s t : State) (op status detail : Nat) : Prop :=
  t.hst.bg = s.hst.bg.filter (fun g => g.cmd.opcode != op) ∧
  ∀ g, s.hst.bg.filter (fun g => g.cmd.opcode == op) = [g] → Ended s t g.cmd status detail 0

/-- The command `c` at the front ends at once with a completion, and then the fetched commands that are refused by their opcode
end too (R434). -/
def Finishes (s t : State) (c : Cmd) (rest : List Cmd) (status detail result : Nat) : Prop :=
  ∃ u : State, t = u.settleAll ∧ Ended s u c status detail result ∧ u.hst.fetched = rest ∧ u.hst.fg = none

/-- The STREAM of lane `l` has ended with `posted` blocks posted (R433, R434). -/
def StreamEnded (s t : State) (l status posted : Nat) : Prop :=
  t.streaming l = false ∧
  ∀ b, s.hst.bg.filter (fun b => b.cmd.opcode == 0x05 && b.cmd.arg0 % 32 == l) = [b] → Ended s t b.cmd status 0 (b.posted + posted)

/-- Strobe `e` of channel `n` has its result: S0 gives the vector's sense bit where some channel answers it (R213), and a compare half gives a
result word in its place among the results (R254 to R258, R264, R269). `seen` are the states that it observed before the present ones, `edge`
is its edge at the pad, and `indet` says that an earlier instant was indeterminate. -/
def StrobeTaken (s t : State) (n : Nat) (e : Edge) (edge : Int) (seen : List CmpPair) (indet : Bool) : Prop :=
  ∀ (c : Nat) (now : CmpPair) (ind : Bool) (h : CmpHalf), c = n / 16 → now = s.cmpNow (s.cmpChan n) → ind = (s.indetNow n || indet) →
    h = cmpHalf e.pin →
    (t.chan n).sense = (s.chan n).sense ++ (if e.cell ≠ 5 ∧ e.vec.tables ≠ []
      then [{ pad := e.vec.pad, no := e.vec.no, bit := now.hi && !ind, indet := ind, t := e.t }] else []) ∧
    (h = .none → (t.lane c).results = (s.lane c).results) ∧
    (h ≠ .none → ∃ w,
      (t.lane c).results = insertResult
        { cycle := edge / 2560, ch := n, s1 := e.cell == 5, win := decide (e.act = .strobe true), vec := e.vec, pin := e.pin, word := w }
        (s.lane c).results ∧
      (ind = true → w = 2) ∧ (ind = false → h = .capture → w = resultWordOf now.hi now.lo 3) ∧
      (ind = false → h ≠ .capture → (∀ o ∈ seen ++ [now], passes h o = true) → w = resultWordOf now.hi now.lo 0) ∧
      (∀ o, ind = false → h ≠ .capture → (seen ++ [now]).find? (fun o => !passes h o) = some o → w = resultWordOf o.hi o.lo 1))

/-! ### Microwords -/

/-- The cycles that a request's acceptance finds waited or held since SEQ_CYC last counted (R122, R142, R143). -/
def pauseCycles (z : Seq) (cycles : Nat) : Nat := if z.waiting then cycles - z.waited else if z.st = 2 then cycles else 0

/-- Sequencer `q` executes the word `w` of class `opc`, which its control store, a hook or a handler latch gives at the address it holds: its fetch finds
no fault, the issue queue and the send queue have room, and an underrun would not end the part. `n` executions are left with this
one (R120). -/
def Executes (s : State) (q : SeqId) (opc : Nat) (w : UWord) (n : Nat) : Prop :=
  s.canRun q = true ∧ s.curWord q = w ∧ w.opc = opc ∧ (∃ a, (s.seq q).pos = .word a) ∧ s.fetchFault q .clean = none ∧
  (q.val < 32 → (s.lane q).fill + postRoom w ≤ 1024 ∧ (s.lane q).ended = false) ∧ (opc = 0xF → s.sendRoom = true) ∧
  (w.vop = 1 → s.plan.abort = false) ∧ n = (s.seq q).left.getD ((s.seq q).executions w)

/-- What the operations of a microword beside its class can change (R121): the sequencer, its lane and cluster, and events. -/
def wordFoot (q : SeqId) : List Foot :=
  [.one (.seq q), .one (.lane q), .one (.clu q), .events, .one (.reg (cluOff q Reg.ddsStatus))]

/-- What a keep-alive vector of a gap accounts for besides its issue (R190): the gap registers, and the flag and event of a new gap. -/
def gapFoot (c : CluId) : List Foot :=
  [.one .plan, .one (.reg (cluOff c Reg.plnGapCnt)), .pair (cluOff c Reg.plnGapFirstLo), .pair (cluOff c Reg.plnGapLenLo),
    .pair (cluOff c Reg.plnFlags), .events]

/-- The sequencer with the carries and the loop counters of one execution of `w` (R126, R129, R134). -/
def carried (w : UWord) (z : Seq) : Seq :=
  let r := addrOps z.gen w
  let lc1 := if w.lcop = 1 then Tbl.set (fun _ => 0) z.lc w.lcsel w.imm else z.lc
  let lc2 := if w.lcop = 2 then Tbl.mod (fun _ => 0) lc1 w.lcsel (· - 1) else lc1
  { z with xc := r.2.1, yc := r.2.2.1, zc := r.2.2.2, lc := lc2 }

/-- The condition of `w` is met (`b`), where an execution takes one cycle, or where its condition is ALWAYS (R129, R130). -/
def Taken (s : State) (q : SeqId) (w : UWord) (b : Bool) : Prop :=
  (w.cl = 1 ∧ b = State.cond s (s.modSeq q (carried w)) q w) ∨ (w.cond = 0 ∧ b = !w.cinv)

/-- The START message of a time master (R414). -/
def startMsg : Send := { type := 8, payload := 0, ext := 0, seq := none, up := false, dn := false }

/-- A fault of R146 has been raised in `q` at its address: SEQ_FAULT shows it, and it waits for its handler, or stops the sequencer
where the FAULT handler runs. -/
def Faulted (s t : State) (q : SeqId) (code : Nat) : Prop :=
  t.rd (seqOff q Reg.seqFault) = pack [(0, (s.seq q).pc % 16384), (24, code)] ∧
  ((s.seq q).inFault = false → (t.seq q).fault = some (code, (s.seq q).pc % 16384) ∧ (t.seq q).pend.getLsbD 0 = true) ∧
  ((s.seq q).inFault = true → (t.seq q).st = 4)

/-- A host write to the register at an offset has no behaviour of its own: its fields take the value by their kinds (R7, R8). -/
def plainReg (off : Nat) : Bool :=
  if 0xC00000 ≤ off then false
  else if off < 0x800000 then
    !([Reg.clkEppPeriod, Reg.clkEppWidth, Reg.clkEppOffset, Reg.hstRingCtl, Reg.hstCmdTail, Reg.hstCplHead, Reg.hstVecAckLo,
        Reg.hstVecAckHi, Reg.cwySend, Reg.calCtl, Reg.sndCtl, Reg.flSiteMaskLo, Reg.flSiteMaskHi, Reg.flBmpEnLo, Reg.flBmpEnHi, Reg.flGeom,
        Reg.flRecSize, Reg.flRcLimit, Reg.flClear].contains off) &&
      !inRange Reg.hstCmdBaseLo Reg.hstCplBaseHi off && !inRange 0x38000 0x383FF off && !inRange 0x39000 0x39007 off
  else
    let rel := (off - 0x800000) % 0x20000
    if rel < 0x10000 then
      !([Reg.peLdstb, Reg.peMonCtl, Reg.pmuSync, Reg.plnSluice, Reg.plnSluiceBase, Reg.plnSluiceSize, Reg.acqCtl, Reg.acqSpillBase,
          Reg.acqSpillSize, Reg.acqSpillRd, Reg.ddsAddr].contains rel) && !inRange Reg.seqRole0 Reg.seqRole3 rel && !acqConfigReg rel
    else
      !inRange Reg.peVil Reg.peRampLen (rel % 0x1000) && !inRange Reg.pmuForce Reg.pmuFilt (rel % 0x1000) &&
        !([Reg.tiaCfg, Reg.tiaTimeout, Reg.tiaN, Reg.tiaGate, Reg.tiaCtl, Reg.tiaCdCtl, Reg.tiaBwAddr].contains (rel % 0x1000))

/-- Entries of a footprint for each of the 16 channels of cluster `c`. -/
def ofChans (c : Nat) (f : Nat → List Foot) : List Foot := (chansOf c).flatMap f

/-- What a load strobe of cluster `c` can change (R224 to R231). -/
def strobeFoot (c : Nat) : List Foot :=
  .one (.reg (cluOff c Reg.peLdstbCnt)) :: ofChans c (fun n =>
    [.one (.chan n), .one (.reg (chOff n Reg.peStatus)), .one (.reg (chOff n Reg.pmuStatus)), .pair (chOff n Reg.peFlags),
      .regs (chOff n 0x140) (chOff n 0x168), .regs (chOff n 0x440) (chOff n 0x454)])

/-- What waking a cluster from retention can change (R453). -/
def wakeFoot (c : Nat) : List Foot :=
  [.one (.reg Reg.memRetState), .one (.reg Reg.memRetWakes)] ++ ofChans c (fun n => [.one (.reg (chOff n Reg.tiaLine)), .one (.chan n)])

/-- The channels of cluster `c`. -/
def chansFoot (c : Nat) : List Foot := ofChans c (fun n => [.one (.chan n)])

/-- What the end of a measurement of channel `n` can change besides its event (R302). -/
def tiaStatFoot (n : Nat) : List Foot :=
  [.one (.chan n), .one (.reg (chOff n Reg.tiaStatus)), .pair (chOff n Reg.tiaMeanLo), .pair (chOff n Reg.tiaSdevLo),
    .pair (chOff n Reg.tiaMinLo), .pair (chOff n Reg.tiaMaxLo)]

/-- What the end of a measurement of channel `n` can change (R302). -/
def tiaEndFoot (n : Nat) : List Foot := .events :: tiaStatFoot n

/-- What the end of a RUNNING measurement of channel `n` can change besides its event: the events that it has timestamped come first (R301). -/
def tiaCutFoot (n : Nat) : List Foot :=
  tiaStatFoot n ++ [.one (.clu (n / 16)), .one (.reg (chOff n Reg.tiaFcnt)), .one (.reg (chOff n Reg.tiaCount)),
    .one (.reg (chOff n Reg.tiaDiscard)), .one (.reg (chOff n Reg.tiaSkip)), .pair (chOff n Reg.tiaLastLo)]

/-- The measurement of channel `n` in `s` has ended in `t` with an end status: its statistics over the results so far, DONE and TIA_DONE
(R302, R304). -/
def TiaEnded (s t : State) (n code : Nat) : Prop :=
  let a := (s.chan n).tia
  t.tiaState n = 3 ∧ t.rdF (chOff n Reg.tiaStatus) 6 4 = code ∧
  t.rd64 (chOff n Reg.tiaMeanLo) = toField 64 (if a.n = 0 then 0 else divNearest a.sum a.n) ∧
  t.rd64 (chOff n Reg.tiaSdevLo) = (if a.n = 0 then 0 else stdDev a.n a.sum a.sq) % 2 ^ 64 ∧
  t.rd64 (chOff n Reg.tiaMinLo) = toField 64 a.minV ∧ t.rd64 (chOff n Reg.tiaMaxLo) = toField 64 a.maxV ∧
  (t.chan n).tia.events = [] ∧ (t.chan n).tia.n = a.n ∧
  Posted s t (tiaStatFoot n) (evLane (n / 16) 2) 0x03 (evData [(0, n % 16), (8, code)])

/-- The END code of a measurement that CK_VEC cycle `v` after its arm instant ends for the cause `code`: the lowest of the codes whose causes fall
in that cycle (R301). -/
def cutCode (s : State) (n v code : Nat) : Nat := if s.timeoutAt n = some v then 2 else if v = rangeAt then min 3 code else code

/-- The RUNNING measurement of channel `n` in `s` has ended in `t` in CK_VEC cycle `v` after its arm instant: its events before the end of that
cycle are handled first, with the gates that they close, and it is COMPLETE where they complete it, and else ends with the lowest of the
codes (R301). -/
def TiaCut (s t : State) (n v code : Nat) : Prop :=
  let limit := (v + 1) * 2560
  let d := s.tiaDrain n limit
  let u := d.gatesTo n (d.gateOf n limit)
  t.tiaState n = 3 ∧ (t.chan n).tia.events = [] ∧
  (∃ e, (e = 1 ∨ e = cutCode s n v code) ∧ t.rdF (chOff n Reg.tiaStatus) 6 4 = e ∧
    Posted s t (tiaCutFoot n) (evLane (n / 16) 2) 0x03 (evData [(0, n % 16), (8, e)])) ∧
  (u.tiaState n = 2 → TiaEnded u t n (cutCode s n v code)) ∧ (u.tiaState n ≠ 2 → t = u) ∧
  (s.tiaMode n ≠ 3 → (∀ e ∈ (s.chan n).tia.events, limit ≤ e.ts) → TiaEnded s t n (cutCode s n v code))

/-- The TIA of channel `n` takes the result `v`, which is not its last one (R296, R304). -/
def TookResult (s t : State) (n : Nat) (v : Int) : Prop :=
  let a := (s.chan n).tia
  let b := (t.chan n).tia
  t.rd64 (chOff n Reg.tiaLastLo) = toField 64 v ∧
  (t.rd (chOff n Reg.tiaCount)).toNat = (s.rd (chOff n Reg.tiaCount)).toNat + 1 ∧ t.tiaState n = s.tiaState n ∧
  b.n = a.n + 1 ∧ b.sum = a.sum + v ∧ b.sq = a.sq + v * v ∧
  b.minV = (if a.n = 0 then v else min a.minV v) ∧ b.maxV = (if a.n = 0 then v else max a.maxV v)

/-- What ending the measurements of a pass or a calibration can change: what they have timestamped is handled first (R301, R307). -/
def measureFoot : List Foot :=
  [.events, .chans, .clus, .chReg Reg.tiaStatus, .chReg Reg.tiaCount, .chReg Reg.tiaSkip, .chReg Reg.tiaDiscard, .chReg Reg.tiaFcnt,
    .chPair Reg.tiaLastLo, .chPair Reg.tiaMeanLo, .chPair Reg.tiaSdevLo, .chPair Reg.tiaMinLo, .chPair Reg.tiaMaxLo]

/-- What taking or releasing channels can change (R27, R380, R466). -/
def releaseFoot : List Foot := [.chReg Reg.pmuStatus, .chReg Reg.peStatus] ++ measureFoot

/-- What the end of a sounding pass can change: its results, and every channel that it holds (R380, R392). -/
def passFoot : List Foot := [.completion, .one (.reg Reg.sndStatus), .one .snd, .chReg Reg.tiaCdCtl] ++ releaseFoot

/-- The pass has ended with an end status: no pass runs, every channel is released, and the SOUND commands have completed (R380, R392). -/
def PassEnded (s t : State) (code : Nat) : Prop :=
  t.sounding = false ∧ t.sndPhase = 0 ∧ t.rdF Reg.sndStatus 5 4 = code ∧ t.snd.res = [] ∧ (∀ n : ChId, t.padHeld n = false) ∧
  BgEnded s t 0x09 St.ok code

/-- The module asks for a message of its own of some type: it enters the send queue, or waits for room (R39, R409). -/
def Queued (s t : State) (type : Nat) : Prop :=
  let m : Send := { type := type, payload := 0, ext := 0, seq := none, up := false, dn := false }
  (s.sendRoom = true → t.cwy = { s.cwy with sendQ := s.cwy.sendQ ++ [m] }) ∧
  (s.sendRoom = false → t.cwy = { s.cwy with sendWait := s.cwy.sendWait ++ [m] })

/-- The calibration with ARG0 `arg` is over with an outcome, and its command has completed (R469). -/
def CalEnded (s t : State) (arg outcome : Nat) (us : W32) : Prop :=
  t.cal.run = none ∧ t.cal.storeStep = 0 ∧ t.rdF Reg.calStatus 26 24 = outcome ∧ t.rdF Reg.calStatus 18 16 = 0 ∧ t.rd Reg.calTime = us ∧
  t.rd Reg.calScope = BitVec.ofNat 32 (arg % 2 ^ 18) ∧ BgEnded s t 0x0A St.ok outcome

/-- What the end of a calibration can change (R469). -/
def calEndFoot : List Foot :=
  [.completion, .events, .one .cal, .one (.reg Reg.calStatus), .one (.reg Reg.calTime), .one (.reg Reg.calScope)]

/-- What the end of the step of `item` and the start of the next of `rest` can change besides the new values: the tests that the TIA step shows, and
the measurements and settings of the TIP step (R316, R467). -/
def calStepFoot (item : Nat) (rest : List Nat) : List Foot :=
  [.one .cal, .one (.reg Reg.calStatus)] ++ (if item = 3 ∨ rest.head? = some 3 then [.chReg Reg.tiaCdCtl] else []) ++
    (if item = 5 then measureFoot else []) ++ (if rest.head? = some 5 then releaseFoot else [])

/-- The present calibration holds `v` in the `n` bytes from bank offset `o` among its new values. -/
def HasNew (t : State) (o n v : Nat) : Prop := ∃ r, t.cal.run = some r ∧ t.calNew r o n = v

/-- The item of channel `n` has failed: its flag, CAL_FLAGS and a PARTIAL outcome (R468). -/
def CalFailed (t : State) (n item : Nat) : Prop :=
  t.rdB (failReg n) item = true ∧ t.rdB Reg.calFlags 1 = true ∧ ∃ r, t.cal.run = some r ∧ r.partly = true

/-- A cell of a type reaches the module by a port that is UP and has room for it (R397, R407, R408, R410). -/
def Arrives (s : State) (p : Port) (x : Cell) (type : Nat) : Prop :=
  s.cwyRuns = true ∧ s.portState p = 5 ∧ (s.port p).held < 64 ∧ x.ok = true ∧ x.fld 3 0 = type

/-- The cell's SEQ is tracked, and the cell goes on by the other port, where it is UP and another module follows, with HOPS one
higher; it leaves the receive buffer, and its credit goes back, as it leaves the other port, or at once where it goes no further (R407, R408,
R410). -/
def Passed (s t : State) (p : Port) (x : Cell) : Prop :=
  let o := s.port (otherPort p)
  let y := mkCell (x.fld 3 0) (x.fld 9 4) (x.fld 15 10 + 1) (x.fld 23 16) (x.fld 43 24) (BitVec.ofNat 64 (x.fld 127 64))
  Tbl.get (fun _ => none) t.cwy.lastSeq (x.fld 9 4) = some (x.fld 23 16) ∧
  (∀ k, Tbl.get (fun _ => none) s.cwy.lastSeq (x.fld 9 4) = some k → x.fld 23 16 ≠ (k + 1) % 256 → t.rdB Reg.cwyFlags 2 = true) ∧
  (s.portState (otherPort p) = 5 → x.fld 15 10 + 1 < s.rdF Reg.cwyStatus 30 24 →
    (o.queue = [] → 0 < o.credits →
      (t.port (otherPort p)).credits = o.credits - 1 ∧ (t.port (otherPort p)).queue = [] ∧ (t.port (otherPort p)).lastOut = some y ∧
      (t.port p).held = (s.port p).held ∧ (t.port p).back = (s.port p).back + 1) ∧
    (o.credits = 0 → (t.port (otherPort p)).queue = o.queue ++ [y] ∧ (t.port (otherPort p)).credits = 0 ∧
      (t.port p).held = (s.port p).held + 1 ∧ (t.port p).back = (s.port p).back)) ∧
  (s.portState (otherPort p) ≠ 5 ∨ s.rdF Reg.cwyStatus 30 24 ≤ x.fld 15 10 + 1 → t.port (otherPort p) = o ∧
    (t.port p).held = (s.port p).held ∧ (t.port p).back = (s.port p).back + 1)

/-- A port has been refused for a reason of R399; what the command changes besides stays inside the footprint. -/
def PortRefused (s t : State) (foot : List Foot) (p : Port) (reason : Nat) : Prop :=
  t.portState p = 6 ∧ t.rdF Reg.cwyRefuse (8 * portNo p + 7) (8 * portNo p) = reason ∧ t.rdB Reg.cwyFlags 1 = true ∧
  Posted s t foot 272 0x18 (evData [(0, portNo p), (8, 6), (16, reason)])

end Sys2Proof.Machine
end

