-- ==== Sys2Proof/Certificates/Slice0/Obligations.lean ====
section
/-! DEFINITION. The statements for the provers: what each command of the opcode table does where its own effect takes place,
what it leaves alone, and the rules about the whole machine. -/

open Sys2Proof Sys2Proof.Machine

/-- A step of the block: the command at the front of the queue runs on the state with the queue's rest, and on an empty queue the block idles
(the queue and the idling are the model's, log 7). -/
def Obligations.StepRunsTheFrontCommand : Prop :=
  (∀ (s : State) (c : Instr) (rest : List Instr), step { s with pending := c :: rest } = exec c { s with pending := rest }) ∧
  (∀ s : State, s.pending = [] → step s = .next s)

/-- The identity registers after reset (R12, R13): ID_PART reads 0x00005120 and, at stepping B1, ID_STEPPING reads 0x00004201. -/
def Obligations.IdentityAfterReset : Prop :=
  State.reset.rd 0x0 = 0x00005120 ∧ State.reset.rd 0x4 = 0x00004201

/-- The state after reset: without power, nothing listed in any memory and no command waiting (log 2 to log 5 for what the specification
leaves open), its registers at their reset values, and every table in canonical form. -/
def Obligations.ResetIsCanonical : Prop :=
  State.reset.canonical = true ∧ State.reset.pending = [] ∧ State.reset.boot.stage = .off ∧ State.reset.boot.sealed = false ∧
  (∀ off, State.reset.rd off = resetWord off) ∧ (∀ a, State.reset.flashAt a = 0xFF) ∧ (∀ a, State.reset.dramAt a = 0) ∧
  State.reset.rd Reg.clkEppPeriod = 0 ∧ State.reset.hst.fetched = []

/-- A completion entry (R431), byte for byte: TAG, STATUS, DETAIL, RESULT, the ring index of the command with the phase in bit 15, and zeros. -/
def Obligations.CompletionEntryLayout : Prop :=
  ∀ (c : Cmd) (status detail result : Nat) (phase : Bool), c.tag < 2 ^ 16 → c.index < 2 ^ 12 → status < 2 ^ 8 → detail < 2 ^ 8 →
    result < 2 ^ 32 → ∀ e, e = cplEntry c status detail result phase →
    (e.extractLsb' 0 16).toNat = c.tag ∧ (e.extractLsb' 16 8).toNat = status ∧ (e.extractLsb' 24 8).toNat = detail ∧
    (e.extractLsb' 32 32).toNat = result ∧ (e.extractLsb' 64 12).toNat = c.index ∧ e.extractLsb' 76 3 = 0 ∧ e.getLsbD 79 = phase ∧
    e.extractLsb' 80 48 = 0

/-- No command stops the block: each answers a next state, in every state, and leaves the commands that wait in the queue (log 1, log 75). -/
def Obligations.EveryCommandCompletes : Prop :=
  ∀ (c : Instr) (s : State), ∃ t, exec c s = .next t ∧ t.pending = s.pending

/-- EPOCH_TICK and EPOCH_TAKE_EFFECT (R64, R72, R73). With no EPOCH command waiting the epoch adds one, or is 0 on the first tick after a full
reset, and EPOCH_OUT is high exactly as R64 says for the pulse registers and the new epoch. Where an EPOCH command waits, the tick takes
its value, so that the next tick adds one to it; the command completes with the low word of the value that the counter would have held,
and a TIME_SET event carries the old and the new epoch. -/
def Obligations.EpochAdvances : Prop :=
  ∀ s : State, s.powered = true →
    (s.clk.epochSet = none → Completes .epochTick s [.one .clk] (fun t =>
      t.clk.epoch = (if s.clk.epochZero then 0 else s.clk.epoch + 1) ∧ t.clk.epochZero = false ∧ t.clk.epochSet = none ∧
      (t.clk.pulse = true ↔ s.rd Reg.clkEppPeriod ≠ 0 ∧
        (t.clk.epoch - (s.rd Reg.clkEppOffset).zeroExtend 64).toNat % (s.rd Reg.clkEppPeriod).toNat < (s.rd Reg.clkEppWidth).toNat) ∧
      t.clk.optime = s.clk.optime ∧ t.clk.pcycle = s.clk.pcycle)) ∧
    (∀ (v : BitVec 64) (c : Cmd) (old : BitVec 64), s.clk.epochSet = some v → s.hst.fg = some c →
      old = (if s.clk.epochZero then 0 else s.clk.epoch + 1) → ∀ i ∈ [Instr.epochTick, Instr.epochTakeEffect],
      Completes i s [.events, .one .clk, .completion] (fun t =>
        t.clk.epoch = v ∧ t.clk.epochSet = none ∧ t.clk.epochZero = false ∧ t.hst.fg = none ∧
        ∃ u, u = (s.refTick v).post 305 0x39 (BitVec.ofNat 128 (old.toNat + 2 ^ 64 * v.toNat)) ∧
          t = (({ u with hst := { u.hst with fg := none } } : State).complete c 0 0 (old.toNat % 2 ^ 32)).settleAll))

/-- The three writes of the epoch pulse registers (R64, R65): a write is taken unless it breaks the order of PERIOD and WIDTH, and a rejected
one sets CLK_FLAGS.EPP_REJECT and changes no pulse register. -/
def Obligations.EpochPulseWrites : Prop :=
  ∀ (s : State) (v : W32), s.boot.stage ≠ .off →
    (s.reaches Reg.clkEppPeriod = true →
      (v = 0 ∨ (s.rd Reg.clkEppWidth).toNat < v.toNat →
        Completes (.clkEppPeriodWrite v) s [.one (.reg Reg.clkEppPeriod)] (fun t => t.rd Reg.clkEppPeriod = v)) ∧
      (v ≠ 0 → v.toNat ≤ (s.rd Reg.clkEppWidth).toNat →
        Completes (.clkEppPeriodWrite v) s [.pair Reg.clkFlags] (fun t => t.rdB Reg.clkFlags 3 = true))) ∧
    (s.reaches Reg.clkEppWidth = true →
      (v ≠ 0 → v.toNat < (s.rd Reg.clkEppPeriod).toNat →
        Completes (.clkEppWidthWrite v) s [.one (.reg Reg.clkEppWidth)] (fun t => t.rd Reg.clkEppWidth = v)) ∧
      (v = 0 ∨ (s.rd Reg.clkEppPeriod).toNat ≤ v.toNat →
        Completes (.clkEppWidthWrite v) s [.pair Reg.clkFlags] (fun t => t.rdB Reg.clkFlags 3 = true))) ∧
    (s.reaches Reg.clkEppOffset = true →
      Completes (.clkEppOffsetWrite v) s [.one (.reg Reg.clkEppOffset)] (fun t => t.rd Reg.clkEppOffset = v))

/-- OPTIME_MS: operating time adds 1 ms and saturates at its top, where CLK_FLAGS.OPTIME_SAT is set (R68). OPTIME_CHECKPOINT: the next entry
of the persistent area holds operating time and the power cycle (R69, R99); where P1 found no flash to write, nothing changes (R79). Where
the specification leaves open what is said here, it is the model's choice: log 76, log 87. -/
def Obligations.OperatingTimeCounts : Prop :=
  ∀ s : State, s.powered = true →
    (s.clk.optime.toNat + 1 < 2 ^ 40 - 1 → Completes .optimeMs s [.one .boot, .one .clk] (fun t =>
      t.clk.optime.toNat = s.clk.optime.toNat + 1 ∧ t.clk.epoch = s.clk.epoch)) ∧
    (s.clk.optime.toNat + 1 = 2 ^ 40 - 1 → Completes .optimeMs s [.one .boot, .one .clk, .pair Reg.clkFlags] (fun t =>
      t.clk.optime = 0xFFFFFFFFFF ∧ t.rdB Reg.clkFlags 2 = true)) ∧
    (s.clk.optime = 0xFFFFFFFFFF → Completes .optimeMs s [.one .boot] (fun t => t.clk = s.clk)) ∧
    (s.nvm.noFlash = false →
      Completes .optimeCheckpoint s [.flash (65536 * (s.entryIndex / 2048)) 65536, .one .flashPort] (fun t =>
        t.flashRd (32 * s.entryIndex) 32 = persistEntry 1 s.clk.pcycle.toNat s.clk.optime.toNat ∧
        t.nvm.persist = s.entryIndex + 1)) ∧
    (s.nvm.noFlash = true → Completes .optimeCheckpoint s [] (fun _ => True))

/-- AGEING_UPDATE (R43): CLK_CORR_AGE is the ageing term of the whole operating hours since AGE_T0, and outside ACQUIRE and LOCKED CLK_CORR
follows. TEMP_CORRECTION_UPDATE (R44, R45): CLK_XTAL_TEMP is the mean of the valid ones among the four crystal sensors, here where it is a
whole number of units; with none valid nothing of the crystal's changes (R523). FOLLOWER_LOCK (R58), HOLDOVER_ENTRY (R59) and
HOLDOVER_RETURN (R60): the timing state and CLK_CORR. Where the specification leaves open what is said here, it is the model's choice: log
14. -/
def Obligations.CorrectionsAndTimingStates : Prop :=
  (∀ s : State, s.powered = true →
     Completes .ageingUpdate s [.one (.reg Reg.clkCorr), .one (.reg Reg.clkCorrAge)] (fun t =>
       t.rd Reg.clkCorrAge =
         BitVec.ofInt 32 (ageCorr (sext 16 (s.rdF Reg.clkAgeCoef 15 0)) s.clk.optime.toNat (s.calRd 0x28 5)) ∧
       (s.timing = 0 → t.rd Reg.clkCorr = t.rd Reg.clkCorrAge + s.rd Reg.clkCorrTemp) ∧
       (s.timing = 1 ∨ s.timing = 2 → t.rd Reg.clkCorr = s.rd Reg.clkCorr) ∧
       (s.timing = 3 → t.rd Reg.clkCorr = s.clk.holdBase + (s.rd Reg.clkCorrTemp - s.clk.holdTemp))) ∧
     (∀ n m : Int, ((List.range 4).filter s.tempValid).length = n → (((List.range 4).filter s.tempValid).map s.temp).sum = m * n → 0 < n →
       Completes .tempCorrectionUpdate s [.one (.reg Reg.clkCorr), .one (.reg Reg.clkCorrTemp), .one (.reg Reg.clkXtalTemp),
           .pair Reg.clkFlags, .pair Reg.calFlags, .one .cal] (fun t =>
         t.rd Reg.clkXtalTemp = BitVec.ofNat 32 (toField 16 m) ∧
         t.rd Reg.clkCorrTemp = BitVec.ofInt 32 (- tempError s.xtalEntry (m * n) n) ∧
         (m < 0 ∨ 124 * 64 < m → t.rdB Reg.clkFlags 1 = true) ∧
         (s.timing = 0 → t.rd Reg.clkCorr = s.rd Reg.clkCorrAge + t.rd Reg.clkCorrTemp))) ∧
     ((List.range 4).filter s.tempValid = [] →
       Completes .tempCorrectionUpdate s [.pair Reg.calFlags, .one .cal] (fun _ => True))) ∧
  (∀ (s : State) (offset : W32),
     (s.timing = 1 → Completes (.followerLock offset) s [.one (.reg Reg.clkCorr), .one (.reg Reg.clkStatus), .one .cwy] (fun t =>
       t.timing = 2 ∧ t.rd Reg.clkCorr = offset ∧ t.cwy.slewing = false)) ∧
     (s.timing = 1 ∨ s.timing = 2 →
       Completes (.holdoverEntry offset) s [.events, .pair Reg.clkFlags, .one (.reg Reg.clkCorr), .one (.reg Reg.clkStatus), .one .clk] (fun t =>
         t.timing = 3 ∧ t.rdB Reg.clkFlags 0 = true ∧ t.rd Reg.clkCorr = offset ∧
         Posted s t [.pair Reg.clkFlags, .one (.reg Reg.clkCorr), .one (.reg Reg.clkStatus), .one .clk] 304 0x38 (BitVec.ofNat 128 s.timing))) ∧
     (s.timing = 3 → Completes .holdoverReturn s [.one (.reg Reg.clkStatus)] (fun t => t.timing = 1)))

/-- Every command that ends writes its completion and makes the vector of completions pending (R429, R431, R438). NOP, READ, WRITE and
LOG_READ (R432, R433, R455, R490): what each moves between DRAM, flash and host memory, and the completion, with the refusals of spans
that are too long, protected or of odd length; the ring of completions lies apart from the host's buffer. One that a link reset has cut off
from host memory ends with DMA_ERROR (R422). Where the specification leaves open what is said here, it is the model's choice: log 24, log
104. -/
def Obligations.CompletionsAndDataCommands : Prop :=
  (∀ (s : State) (c : Cmd) (status detail result : Nat),
     Ended s (s.complete c status detail result) c status detail result ∧
     ChangesOnly [.completion] s (s.complete c status detail result)) ∧
  (∀ (s : State) (c : Cmd) (rest : List Cmd) (data : Option (List Byte)), badFields c = false → c.cutOff = true →
     ∀ i ∈ [(Instr.read, 0x06), (.write data, 0x07), (.logRead, 0x0D)], Front s i.2 c rest →
     Completes i.1 s [.completion] (fun t => Finishes s t c rest St.dmaError 0 0)) ∧
  (∀ (s : State) (c : Cmd) (rest : List Cmd), badFields c = false → c.cutOff = false →
     (Front s 0x00 c rest → Completes .nop s [.completion] (fun t => Finishes s t c rest St.ok 0 0)) ∧
     (Front s 0x06 c rest →
       (2 ^ 34 < c.daddr + 16 * c.len → Completes .read s [.completion] (fun t => Finishes s t c rest St.tooLong 0 0)) ∧
       (c.daddr + 16 * c.len ≤ 2 ^ 34 → Completes .read s [.completion] (fun t =>
         Finishes s t c rest St.ok 0 0 ∧
         ∀ a, (∀ i : Fin 4096, ¬ (s.cplAddr i ≤ a ∧ a < s.cplAddr i + 16)) →
           Tbl.get (fun _ => (0 : Byte)) t.hst.hostMem a =
           if c.haddr ≤ a ∧ a < c.haddr + 16 * c.len then s.dramAt (c.daddr + (a - c.haddr))
           else Tbl.get (fun _ => (0 : Byte)) s.hst.hostMem a))) ∧
     (Front s 0x07 c rest → ∀ d : List Byte,
       (2 ^ 34 < c.daddr + 16 * c.len → Completes (.write (some d)) s [.completion] (fun t => Finishes s t c rest St.tooLong 0 0)) ∧
       (c.daddr + 16 * c.len ≤ 2 ^ 34 → s.spanProtected c.daddr (16 * c.len) = true →
         Completes (.write (some d)) s [.completion] (fun t => Finishes s t c rest St.protectedRegion 0 0)) ∧
       (c.daddr + 16 * c.len ≤ 2 ^ 34 → s.spanProtected c.daddr (16 * c.len) = false →
         Completes (.write none) s [.completion] (fun t => Finishes s t c rest St.dmaError 0 0) ∧
         (d.length = 16 * c.len → Completes (.write (some d)) s [.completion, .dram c.daddr (16 * c.len)] (fun t =>
           Finishes s t c rest St.ok 0 0 ∧ t.dramRd c.daddr (16 * c.len) = d)))) ∧
     (Front s 0x0D c rest →
       (0x800000 < 32 * c.arg0 + 16 * c.len → Completes .logRead s [.completion] (fun t => Finishes s t c rest St.tooLong 0 0)) ∧
       (32 * c.arg0 + 16 * c.len ≤ 0x800000 → c.len % 2 = 1 →
         Completes .logRead s [.completion] (fun t => Finishes s t c rest St.lengthAlign 0 0)) ∧
       (32 * c.arg0 + 16 * c.len ≤ 0x800000 → c.len % 2 = 0 → Completes .logRead s [.completion] (fun t =>
         Finishes s t c rest St.ok 0 0 ∧
         ∀ a, (∀ i : Fin 4096, ¬ (s.cplAddr i ≤ a ∧ a < s.cplAddr i + 16)) → c.haddr ≤ a → a < c.haddr + 16 * c.len →
           Tbl.get (fun _ => (0 : Byte)) t.hst.hostMem a = s.flashAt (0x600000 + 32 * c.arg0 + (a - c.haddr))))))

/-- COMMAND_FETCH (R428): one entry is read at HST_CMD_HEAD, the index moves on, a completion slot is reserved, and the command waits behind
those fetched before it, its 64 bytes at the index's place in host memory; then the refused ones at the front end. A command with a reserved
bit set, or with a misaligned HADDR, completes BAD_FIELD and has no other effect (R430, R433): each of the fifteen command rows, at the
front of the fetched commands. EPOCH waits in the foreground for the next CK_REF tick with the value of ARG1 and ARG0 (R73, R432); DEVICE_RESET completes, and
the warm reset is due (R435, R501). Where the specification leaves open what is said here, it is the model's choice: log 24. -/
def Obligations.CommandsAreTaken : Prop :=
  (∀ (s : State) (entry : List Byte), s.fetches = true → s.rdB Reg.hstRingCtl 0 = true →
     s.rdF Reg.hstCmdHead 11 0 ≠ s.rdF Reg.hstCmdTail 11 0 → s.slotFree = true →
     Completes (.commandFetch entry) s [.one (.reg Reg.hstCmdHead), .completion] (fun t =>
       t.rdF Reg.hstCmdHead 11 0 = (s.rdF Reg.hstCmdHead 11 0 + 1) % 4096 ∧
       ∃ u : State, t = u.settleAll ∧ u.hst.fetched = s.hst.fetched ++ [parseCmd entry (s.rdF Reg.hstCmdHead 11 0)] ∧
         u.hst.reserved = s.hst.reserved + 1 ∧ u.hst.fg = s.hst.fg ∧ u.hst.bg = s.hst.bg ∧ u.hst.cplRing = s.hst.cplRing ∧
         (entry.length = 64 → Tbl.getList (fun _ => (0 : Byte)) u.hst.hostMem (s.cmdAddr (s.rdF Reg.hstCmdHead 11 0)) 64 = entry) ∧
         ChangesOnly [.one (.reg Reg.hstCmdHead), .one .rings, .one .hostMem] s u)) ∧
  (∀ (s : State) (c : Cmd) (rest : List Cmd) (data : Option (List Byte)), badFields c = true →
     ∀ i ∈ [(Instr.nop, 0x00), (.run, 0x01), (.stop, 0x02), (.stage data, 0x03), (.jump, 0x04), (.stream, 0x05), (.read, 0x06),
         (.write data, 0x07), (.epoch, 0x08), (.sound, 0x09), (.calibrate, 0x0A), (.march, 0x0B), (.image data, 0x0C),
         (.logRead, 0x0D), (.deviceReset, 0x0E)],
       Front s i.2 c rest →
       Completes i.1 s [.completion] (fun t => Finishes s t c rest St.badField 0 0)) ∧
  (∀ (s : State) (c : Cmd) (rest : List Cmd), badFields c = false →
     (Front s 0x08 c rest → Completes .epoch s [.completion, .one .clk] (fun t =>
       t.hst.fg = some c ∧ t.hst.fetched = rest ∧ t.clk.epochSet = some (BitVec.ofNat 64 (c.arg0 + 2 ^ 32 * c.arg1)) ∧
       t.clk.epoch = s.clk.epoch)) ∧
     (Front s 0x0E c rest → Completes .deviceReset s [.completion, .one .boot] (fun t =>
       Finishes s t c rest St.ok 0 0 ∧ t.boot = { s.boot with resetDue := true })))

/-- BAR0 accesses that the module does not take (R423, R424): the flag, HST_BAD_ADDR, and what a read returns. The link (R421, R422): a reset
clears HST_RING_CTL, ends the background STREAMs and marks every other command as dropped, and its flag and event stand; a link that trains
shows its width and speed. CPL_STALL (R429) raises its flag and posts. Where the specification leaves open what is said here, it is the model's choice: log 79. -/
def Obligations.AccessesNotTakenAndTheLink : Prop :=
  (∀ (s : State) (off : BitVec 24), s.powered = true →
     Completes (.bar0BadAccess off .partialWrite) s [.pair Reg.hstFlags, .one (.reg Reg.hstBadAddr)] (fun t =>
       t.rdB Reg.hstFlags 0 = true ∧ t.rd Reg.hstBadAddr = off.zeroExtend 32) ∧
     Completes (.bar0BadAccess off .partialRead) s [.hostError] (fun t =>
       t.rdB Reg.hstFlags 0 = true ∧ t.rd Reg.hstBadAddr = off.zeroExtend 32 ∧ t.hst.readData = 0 ∧ t.hst.ur = false) ∧
     Completes (.bar0BadAccess off .unsupportedRead) s [.hostError] (fun t =>
       t.rdB Reg.hstFlags 0 = true ∧ t.rd Reg.hstBadAddr = off.zeroExtend 32 ∧ t.hst.ur = true) ∧
     Completes (.bar0BadAccess off .unsupportedWrite) s [.hostError] (fun t =>
       t.rdB Reg.hstFlags 0 = true ∧ t.rd Reg.hstBadAddr = off.zeroExtend 32 ∧ t.hst.ur = true) ∧
     (s.reaches off.toNat = false →
       Completes (.bar0Unmapped off true) s [.pair Reg.hstFlags, .one (.reg Reg.hstBadAddr)] (fun t =>
         t.rdB Reg.hstFlags 1 = true ∧ t.rd Reg.hstBadAddr = off.zeroExtend 32) ∧
       Completes (.bar0Unmapped off false) s [.hostError] (fun t =>
         t.rdB Reg.hstFlags 1 = true ∧ t.rd Reg.hstBadAddr = off.zeroExtend 32 ∧ t.hst.readData = 0 ∧ t.hst.ur = false))) ∧
  (∀ (s : State) (width speed : BitVec 3), s.powered = true →
     Completes .pcieLinkReset s [.events, .pair Reg.hstFlags, .one .plan, .one .rings, .one (.reg Reg.hstCplDrop), .one (.reg Reg.hstStatus),
         .one (.reg Reg.hstRingCtl)] (fun t =>
       t.rd Reg.hstRingCtl = 0 ∧ t.rdB Reg.hstFlags 3 = true ∧ t.rd Reg.hstStatus = s.rd Reg.hstStatus &&& 2 ∧
       t.hst.fetched = s.hst.fetched.map Cmd.drop ∧ t.hst.fg = s.hst.fg.map Cmd.drop ∧
       t.plan = { s.plan with loading := s.plan.loading.map Cmd.drop } ∧
       t.hst.bg = (s.hst.bg.filter (fun b => b.cmd.opcode != 0x05)).map (fun b => { b with cmd := b.cmd.drop }) ∧
       t.hst.reserved = s.hst.reserved - (s.hst.bg.filter (fun b => b.cmd.opcode == 0x05)).length ∧ t.hst.cplRing = s.hst.cplRing ∧
       Posted s t [.pair Reg.hstFlags, .one .plan, .one .rings, .one (.reg Reg.hstCplDrop), .one (.reg Reg.hstStatus), .one (.reg Reg.hstRingCtl)]
         280 0x20 0) ∧
     Completes (.pcieLinkUp width speed) s [.one (.reg Reg.hstStatus)] (fun t =>
       t.rdB Reg.hstStatus 8 = true ∧ t.rdF Reg.hstStatus 7 5 = width.toNat ∧ t.rdF Reg.hstStatus 4 2 = speed.toNat) ∧
     (s.rdB Reg.hstRingCtl 0 = true → s.rdF Reg.hstCmdHead 11 0 ≠ s.rdF Reg.hstCmdTail 11 0 → s.slotFree = false →
       Completes .cplStall s [.events, .pair Reg.hstFlags] (fun t =>
         t = (s.raise Reg.hstFlags 4).post 281 0x21 (BitVec.ofNat 128 (s.rdF Reg.hstCmdHead 11 0)))))

/-- BAR2 (R425, R426, R455): a read returns the DRAM's bytes, or all ones with HST_FLAGS.BAR2_UNAVAIL where the DRAM is in self-refresh or not
yet trained; a write stores its enabled bytes, unless a byte of it lies in a protected region. -/
def Obligations.Bar2Accesses : Prop :=
  ∀ (s : State) (a n : Nat) (d : List (Option Byte)), s.boot.stage ≠ .off →
    (a + n ≤ 2 ^ 34 →
      (s.dramServes = true → Completes (.bar2Read a n) s [.one .reads] (fun t => t.hst.bar2Data = s.dramRd a n)) ∧
      (s.dramServes = false → Completes (.bar2Read a n) s [.one .reads, .pair Reg.hstFlags] (fun t =>
        t.hst.bar2Data = List.replicate n 0xFF ∧ t.rdB Reg.hstFlags 5 = true))) ∧
    (a + d.length ≤ 2 ^ 34 →
      (s.dramServes = false → Completes (.bar2Write a d) s [.pair Reg.hstFlags] (fun t => t.rdB Reg.hstFlags 5 = true)) ∧
      (s.dramServes = true → s.spanProtected a d.length = true →
        Completes (.bar2Write a d) s [.pair Reg.hstFlags] (fun t => t.rdB Reg.hstFlags 2 = true)) ∧
      (s.dramServes = true → s.spanProtected a d.length = false →
        Completes (.bar2Write a d) s [.dram a d.length] (fun t =>
          ∀ i, i < d.length → t.dramAt (a + i) = ((d.getD i none).getD (s.dramAt (a + i))))))

/-- The ring registers (R427): setting EN makes the four indices 0 and the phase 1; the two indices that the host writes take the low 12 bits.
Vectors (R437, R438): a write of HST_VEC_ACK clears the pending bit of each vector written 1, unless the vector is set in the same cycle,
which leaves it set; unmasking a vector with its PBA bit set sends one message and clears the bit. -/
def Obligations.RingsAndVectors : Prop :=
  (∀ (s : State) (v : W32), s.boot.stage ≠ .off →
     (s.reaches Reg.hstRingCtl = true →
       Completes (.hstRingCtlWrite v) s [.one (.reg Reg.hstRingCtl), .one (.reg Reg.hstStatus), .one (.reg Reg.hstCmdTail),
           .one (.reg Reg.hstCmdHead), .one (.reg Reg.hstCplHead), .one (.reg Reg.hstCplTail)] (fun t =>
         t.rdB Reg.hstRingCtl 0 = bitOf v 0 ∧ t.rdB Reg.hstStatus 0 = bitOf v 0 ∧
         (bitOf v 0 = true → s.rdB Reg.hstRingCtl 0 = false →
           t.rd Reg.hstCmdTail = 0 ∧ t.rd Reg.hstCmdHead = 0 ∧ t.rd Reg.hstCplHead = 0 ∧ t.rdF Reg.hstCplTail 11 0 = 0 ∧
           t.rdB Reg.hstCplTail 12 = true) ∧
         (bitOf v 0 = false ∨ s.rdB Reg.hstRingCtl 0 = true →
           t.rd Reg.hstCmdTail = s.rd Reg.hstCmdTail ∧ t.rd Reg.hstCmdHead = s.rd Reg.hstCmdHead ∧
           t.rd Reg.hstCplHead = s.rd Reg.hstCplHead ∧ t.rd Reg.hstCplTail = s.rd Reg.hstCplTail))) ∧
     (s.reaches Reg.hstCmdTail = true →
       Completes (.hstCmdTailWrite v) s [.one (.reg Reg.hstCmdTail)] (fun t => t.rd Reg.hstCmdTail = v &&& 0xFFF)) ∧
     (s.reaches Reg.hstCplHead = true →
       Completes (.hstCplHeadWrite v) s [.one (.reg Reg.hstCplHead)] (fun t => t.rd Reg.hstCplHead = v &&& 0xFFF))) ∧
  (∀ (s : State) (v setNow : W32), s.boot.stage ≠ .off →
     (s.reaches Reg.hstVecAckLo = true → Completes (.hstVecAckWrite .lo v setNow) s [.vector] (fun t =>
       ∀ i, i < 32 → t.rdB Reg.hstVecPendLo i = (bitOf setNow i || (s.rdB Reg.hstVecPendLo i && !bitOf v i)))) ∧
     (s.reaches Reg.hstVecAckHi = true → Completes (.hstVecAckWrite .hi v setNow) s [.vector] (fun t =>
       ∀ i, i < 32 → t.rdB Reg.hstVecPendHi i = (bitOf setNow i || (s.rdB Reg.hstVecPendHi i && !bitOf v i)))) ∧
     (∀ vec : Fin 64, Completes (.msixUnmask vec) s [.one .msix, .one .vectors] (fun t =>
       t.masked vec.val = false ∧ t.hst.pba.getLsbD vec.val = false ∧
       Tbl.get (fun _ => 0) t.hst.messages vec.val =
         Tbl.get (fun _ => 0) s.hst.messages vec.val + (if s.hst.pba.getLsbD vec.val then 1 else 0))))

/-- Host reads (R8, R76, R281, R424, R439, R442, R443, R489): a read returns the register, clears its RC fields but leaves at 1 a counter that
increments in the same cycle, with its flag set, where its cluster is not in retention; a read of the fail counter window returns its word,
corrects a single-bit error, and reads a lost word as four counters of 255; a read of a LO register copies its HI register into the shadow that later reads of HI return; a read of
word 0 of a record copies the record; and a read that reaches nothing returns 0 and is recorded. Where the specification leaves open what
is said here, it is the model's choice: log 77, log 78, log 79, log 105. -/
def Obligations.HostReads : Prop :=
  ∀ (s : State) (off : BitVec 24), s.boot.stage ≠ .off →
    (∀ (incNow inc : W32) (read : SramRead) (r : RegRow), s.reaches off.toNat = true → recordWord0 off.toNat = none →
      findRow off.toNat = some r → inc = (if s.retained off.toNat then 0 else incNow) →
      Completes (.readClear off ⟨incNow, read⟩) s [.one .reads, .one .shadows, .one (.reg off.toNat), .one (.reg (off.toNat - 4))] (fun t =>
        t.hst.readData = s.readReg off.toNat ∧ t.hst.ur = false ∧
        t.rd off.toNat = (s.rd off.toNat &&& ~~~ BitVec.ofNat 32 r.rc) ||| (inc &&& BitVec.ofNat 32 r.rc) ∧
        ∀ (f : RegRow) (b : Nat), findRow (off.toNat - 4) = some f → b < 32 → f.w1c.testBit b = true →
          t.rdB (off.toNat - 4) b = (s.rdB (off.toNat - 4) b || bitOf inc (flagCounter (off.toNat - 4) b).1))) ∧
    (∀ (incNow : W32) (o : Nat), s.reaches off.toNat = true → off.toNat = 0xC00000 + o →
      Completes (.readClear off ⟨incNow, .clean⟩) s [.one .reads] (fun t => t.hst.readData = s.windowWord o ∧ t.hst.ur = false) ∧
      Completes (.readClear off ⟨incNow, .corrected⟩) s [.one .reads, .one (.reg Reg.memEccCnt)] (fun t =>
        t.hst.readData = s.windowWord o ∧ (t.rd Reg.memEccCnt).toNat = satAdd 0xFFFFFFFF (s.rd Reg.memEccCnt).toNat 1) ∧
      Completes (.readClear off ⟨incNow, .lost⟩) s [.one .reads, .failCnt o 4, .events, .pair Reg.memFlags, .one (.reg Reg.memEccAddr),
          .one (.reg (Reg.flSiteStatus + 16 * (o / 0x4000)))] (fun t =>
        t.hst.readData = 0xFFFFFFFF ∧ (∀ i, i < 4 → Tbl.get (fun _ => (0 : Byte)) t.mem.failCnt (o + i) = 255) ∧
        t.rdB (Reg.flSiteStatus + 16 * (o / 0x4000)) 3 = true ∧ t.rdB Reg.memFlags 0 = true ∧
        t.rd Reg.memEccAddr = pack [(0, o % 65536 / 128), (16, 1041 + o / 65536)])) ∧
    (∀ r : RegRow, s.reaches off.toNat = true → loPair off.toNat = true → findRow off.toNat = some r → r.rc = 0 →
      Completes (.loReadLatch off) s [.one .reads, .one .shadows] (fun t =>
        t.hst.readData = s.readReg off.toNat ∧
        ∀ h : RegRow, findRow (off.toNat + 4) = some h →
          t.readReg (off.toNat + 4) = s.live (off.toNat + 4) &&& ~~~ BitVec.ofNat 32 h.wo)) ∧
    (∀ i : Fin 1024, s.reaches (Reg.evrRing + 32 * i) = true →
      Completes (.evrSlotWord0Read (some i)) s [.one .reads, .one .evr] (fun t =>
        t.hst.readData = slotWord (Tbl.get (fun _ => none) s.evr.ring i) 0 ∧
        t.evr = { s.evr with ringShadow := some (i.val, Tbl.get (fun _ => none) s.evr.ring i) })) ∧
    (s.reaches Reg.evrOpen = true → Completes (.evrSlotWord0Read none) s [.one .reads, .one .evr] (fun t =>
      t.evr = { s.evr with openShadow := some s.evr.openRec } ∧ ∀ w, t.openWord w = (match s.evr.openRec with
        | some r => slotWord (some r) w
        | none => 0))) ∧
    (s.reaches off.toNat = false → ∀ incNow read, ∀ i ∈ [Instr.readClear off ⟨incNow, read⟩, .loReadLatch off],
      Completes i s [.hostError] (fun t =>
        t.hst.readData = 0 ∧ t.hst.ur = false ∧ t.rdB Reg.hstFlags 1 = true ∧ t.rd Reg.hstBadAddr = off.zeroExtend 32))

/-- Host writes (R7, R8, R110, R154, R424, R439): the RW fields take the value, an RW1C flag written 1 clears unless a set event falls in the
same cycle, which stands and is counted where its cluster is not in retention; an SL field never changes, and a value that differs from it is counted, recorded and posted; a
write that reaches nothing is discarded and recorded. Where the specification leaves open what is said here, it is the model's choice: log
79, log 80. -/
def Obligations.HostWrites : Prop :=
  ∀ (s : State) (off : BitVec 24) (v : W32), s.boot.stage ≠ .off →
    (∀ (setNow : W32) (r : RegRow), s.reaches off.toNat = true → findRow off.toNat = some r → r.w1c ≠ 0 →
      Completes (.flagClear off v setNow) s [.pair off.toNat] (fun t =>
        (∀ b, b < 32 → r.w1c.testBit b = true → r.rw.testBit b = false →
          t.rdB off.toNat b = ((bitOf setNow b && !s.retained off.toNat) || (s.rdB off.toNat b && !bitOf v b))) ∧
        (∀ b, b < 32 → r.w1c.testBit b = false → t.rdB off.toNat b = (if r.rw.testBit b then bitOf v b else s.rdB off.toNat b)) ∧
        (setNow = 0 ∨ s.retained off.toNat = true → t.rd (off.toNat + 4) = s.rd (off.toNat + 4)) ∧
        (∀ b, b < 32 → r.w1c.testBit b = true → setNow = bit32 b → s.retained off.toNat = false → ∀ k, k = flagCounter off.toNat b → k.1 + k.2 ≤ 32 →
          t.rdF (off.toNat + 4) (k.1 + k.2 - 1) k.1 = satAdd (2 ^ k.2 - 1) (s.rdF (off.toNat + 4) (k.1 + k.2 - 1) k.1) 1))) ∧
    (∀ r : RegRow, s.reaches off.toNat = true → findRow off.toNat = some r → plainReg off.toNat = true →
      (s.sealedDiffers off.toNat v = false → ∀ i ∈ [Instr.registerWrite off v, .hostWriteSealed off v],
        Completes i s [.one (.reg off.toNat)] (fun t => ∀ b, b < 32 →
          t.rdB off.toNat b = ((if r.rw.testBit b then bitOf v b else s.rdB off.toNat b) && !(r.w1c.testBit b && bitOf v b)))) ∧
      (s.sealedDiffers off.toNat v = true → ∀ i ∈ [Instr.registerWrite off v, .hostWriteSealed off v],
        Completes i s [.events, .one (.reg Reg.bootSealedWrCnt), .one (.reg Reg.bootSealedWrAddr), .one (.reg off.toNat)] (fun t =>
          t.rd Reg.bootSealedWrAddr = off.zeroExtend 32 ∧
          t.rdF Reg.bootSealedWrCnt 15 0 = satAdd 0xFFFF (s.rdF Reg.bootSealedWrCnt 15 0) 1 ∧
          (∀ b, b < 32 → r.sl.testBit b = true → r.rw.testBit b = false → r.w1c.testBit b = false →
            t.rdB off.toNat b = s.rdB off.toNat b) ∧
          (∀ b, b < 32 → r.rw.testBit b = true → r.w1c.testBit b = false → t.rdB off.toNat b = bitOf v b) ∧
          ∃ u : State, t = (u.post 309 0x3D (BitVec.ofNat 128 off.toNat)).plainWrite off.toNat v ∧
            ChangesOnly [.one (.reg Reg.bootSealedWrCnt), .one (.reg Reg.bootSealedWrAddr)] s u))) ∧
    (∀ (c : CluId) (i : Fin 4), s.reaches (cluOff c (Reg.seqRole0 + 4 * i)) = true →
      (rolesBad v.toNat = false → Completes (.seqRoleWrite c i v) s [.one (.reg (cluOff c (Reg.seqRole0 + 4 * i)))] (fun t =>
        t.rd (cluOff c (Reg.seqRole0 + 4 * i)) = v)) ∧
      (rolesBad v.toNat = true → Completes (.seqRoleWrite c i v) s [] (fun _ => True))) ∧
    (s.reaches off.toNat = false → ∀ setNow, ∀ i ∈ [Instr.flagClear off v setNow, .registerWrite off v, .hostWriteSealed off v],
      Completes i s [.pair Reg.hstFlags, .one (.reg Reg.hstBadAddr)] (fun t =>
        t.rdB Reg.hstFlags 1 = true ∧ t.rd Reg.hstBadAddr = off.zeroExtend 32))

/-- The recorder's writer (R480, R482, R488): the record that has been open for a second closes and reaches the on-die ring; a program that
ends has put its records into the log; one that fails makes the block bad and the records stay for the next block. LOG_BLOCK_ERASE_DONE
(R487, R488): the block that was erased ahead reads erased; or it is bad, and the block after it is to be erased instead. Where the
specification leaves open what is said here, it is the model's choice: log 12, log 20, log 61, log 107. -/
def Obligations.RecorderWritesItsLog : Prop :=
  (∀ (s : State),
     (∀ r, s.evr.openRec = some r → r.optime + 1000 ≤ s.clk.optime.toNat ∨ s.clk.optime = 0xFFFFFFFFFF →
       s.evr.queue = [] → s.evr.inProgram = [] → s.evr.pendDrops = 0 → 0 < s.qdepth →
       (s.logVolatile = true ∨ s.rdF Reg.evrLog 10 0 ≠ 0) →
       Completes .openRecordTimeout s [.one .evr, .one (.reg Reg.evrStatus), .one (.reg Reg.evrCommit)] (fun t =>
         t.evr.openRec = none ∧ t.rdB Reg.evrStatus 0 = false ∧ t.rd Reg.evrCommit = s.rd Reg.evrCommit + 1 ∧
         Tbl.get (fun _ => none) t.evr.ring ((s.rd Reg.evrCommit).toNat % 1024) = some r ∧
         t.evr.inProgram = (if s.logVolatile then [] else [r]))) ∧
     ((∀ r, s.evr.openRec = some r → s.clk.optime.toNat < r.optime + 1000 ∧ s.clk.optime ≠ 0xFFFFFFFFFF) →
       Completes .openRecordTimeout s [] (fun _ => True)) ∧
     (s.evr.inProgram ≠ [] → s.evr.queue = [] → s.evr.pendDrops = 0 → s.logVolatile = false → s.rdF Reg.evrLog 10 0 ≠ 0 →
       s.rdF Reg.evrLog 10 0 % 8 + s.evr.inProgram.length ≤ 8 →
       Completes (.logProgramDone true) s [.one .evr, .one (.reg Reg.evrLog),
           .flash (logAddr (s.rdF Reg.evrLog 22 16) (s.rdF Reg.evrLog 10 0)) (32 * s.evr.inProgram.length)] (fun t =>
         t.evr.inProgram = [] ∧
         t.flashRd (logAddr (s.rdF Reg.evrLog 22 16) (s.rdF Reg.evrLog 10 0)) (32 * s.evr.inProgram.length) =
           s.evr.inProgram.flatMap EvRec.bytes ∧
         t.rdF Reg.evrLog 10 0 = (s.rdF Reg.evrLog 10 0 + s.evr.inProgram.length) % 2048)) ∧
     (s.evr.inProgram ≠ [] → s.logVolatile = false → 120 ≤ 128 - (insertNat (s.rdF Reg.evrLog 22 16) s.evr.badBlocks).length →
       Completes (.logProgramDone false) s [.events, .one .freeCtr] (fun t =>
         t.evr.inProgram = s.evr.inProgram ∧ s.rdF Reg.evrLog 22 16 ∈ t.evr.badBlocks ∧ t.rdF Reg.evrLog 10 0 = 0 ∧
         t.rdB Reg.evrFlags 1 = true ∧ t.flashAt (logAddr (s.rdF Reg.evrLog 22 16) 0 + 8) = 0)) ∧
     (s.evr.inProgram ≠ [] → s.logVolatile = true ∨ 128 - (insertNat (s.rdF Reg.evrLog 22 16) s.evr.badBlocks).length < 120 →
       Completes (.logProgramDone false) s [.events, .one .freeCtr] (fun t => t.logVolatile = true ∧ t.evr.inProgram = [])) ∧
     (s.evr.inProgram = [] → ∀ ok, Completes (.logProgramDone ok) s [] (fun _ => True))) ∧
  (∀ (s : State) (b : Nat), s.evr.erasing = some b →
     (s.evr.queue = [] → s.evr.pendDrops = 0 →
       Completes (.logBlockEraseDone true) s [.one .evr, .flash (logAddr b 0) 65536] (fun t =>
         t.evr.erasing = none ∧ ∀ i, i < 65536 → t.flashAt (logAddr b 0 + i) = 0xFF)) ∧
     (s.logVolatile = false → 120 ≤ 128 - (insertNat b s.evr.badBlocks).length →
       Completes (.logBlockEraseDone false) s [.events, .one .freeCtr] (fun t =>
         b ∈ t.evr.badBlocks ∧ t.rdB Reg.evrFlags 1 = true ∧ t.evr.erasing = some (t.nextBlock (t.rdF Reg.evrLog 22 16)))) ∧
     (s.logVolatile = true ∨ 128 - (insertNat b s.evr.badBlocks).length < 120 →
       Completes (.logBlockEraseDone false) s [.events, .one .freeCtr] (fun t => t.logVolatile = true ∧ b ∈ t.evr.badBlocks ∧ t.evr.erasing = none)))

/-- VIN_POWER_UP, PFW_COLD_START, and WARM_RESET_END where a cold start had not counted itself: the state of a cold start (R101, R309, R501,
R503, R517). The warm resets RST_N_ASSERT, PERST_ASSERT and DEVICE_RESET_START (R501 to R503): registers take their reset values, the time
base and the lines run on, the DRAM is in self-refresh, and PERST alone loses the link and the vector table; then WARM_RESET_END begins
the boot at P1. Where the specification leaves open what is said here, it is the model's choice: log 2, log 3, log 4, log 5, log 70. -/
def Obligations.FullResets : Prop :=
  (∀ s : State,
     (s.boot.stage = .off → Completes .vinPowerUp s volatileFoot (fun t => ColdStarted t 1)) ∧
     (s.boot.stage = .powerFail → s.pwr.shedEnded = true → Completes .pfwColdStart s volatileFoot (fun t => ColdStarted t 0xF)) ∧
     (s.boot.stage = .resetHeld → s.boot.cold = true →
       Completes .warmResetEnd s volatileFoot (fun t => ColdStarted t (s.rdF Reg.pwrStatus 3 0)))) ∧
  (∀ s : State,
     (s.boot.stage ≠ .off → s.boot.stage ≠ .powerFail →
       ∀ i ∈ [(Instr.rstNAssert, true), (.perstAssert, false)] ++ (if s.boot.resetDue then [(.deviceResetStart, true)] else []),
       Completes i.1 s [.allRegs, .one .shadows, .one .boot, .one .clk, .one .evr, .one .vectors, .one .rings, .one .msix, .one .reads, .log,
           .one .macros, .one .march, .one .refills, .one .timing, .failCnts, .one .cal, .one .pwr, .seqs, .lanes, .clus, .chans, .one .plan, .one .snd, .one .cwy] (fun t =>
         t.boot.stage = .resetHeld ∧ t.boot.cold = s.boot.cold ∧ t.boot.sealed = false ∧ t.boot.resetDue = false ∧
         (∀ off, off ≠ Reg.hstStatus → off ≠ Reg.pwrStatus → off ≠ Reg.memStatus → keptReg off = false → t.rd off = resetWord off) ∧
         (∀ off, keptReg off = true → t.rd off = s.rd off) ∧
         t.rdB Reg.memStatus 3 = true ∧ t.rdF Reg.pwrStatus 3 0 = s.rdF Reg.pwrStatus 3 0 ∧
         t.clk.epoch = s.clk.epoch ∧ t.clk.epochZero = true ∧ t.clk.optime = s.clk.optime ∧ t.clk.pcycle = s.clk.pcycle ∧
         t.hst.fetched = [] ∧ t.hst.fg = none ∧ t.hst.bg = [] ∧ t.evr = evrReset ∧ t.seqs = [] ∧ t.plan = planReset ∧
         t.rdF Reg.hstStatus 8 2 = (if i.2 then s.rdF Reg.hstStatus 8 2 else 0) ∧
         t.hst.msixTable = (if i.2 then s.hst.msixTable else []))) ∧
     (s.boot.stage = .resetHeld → s.boot.cold = false →
       Completes .warmResetEnd s [.one .boot, .one .flashPort, .one (.reg Reg.bootStatus)] (fun t =>
         t.boot.stage = .booting ∧ t.rdB Reg.bootStatus 11 = true ∧ t.phase = 1)))

/-- PFW_N_ASSERT (R69, R99, R108, R457, R515, R516), in every stage but off and powerFail: the checkpoint of operating time is in the flash,
unless P1 found none to write; every register but the three that show the supplies, the DRAM and the link takes its reset value; the DRAM
is in self-refresh and a cold start follows. PFW_SHED_END (R517) releases PFW_N. VIN_POWER_DOWN (R517), in every state: everything volatile
is lost. SUPPLIES_IN_RANGE (R510) in a boot ends P0; MGT_HEARTBEAT (R495), in every state, starts its watchdog anew; and WEDGE (R146, R497
to R499), where the watchdog of its cause holds, brings the safe state: no engine runs and FAULT_STOP stands, no command waits or runs, the
DRAM is in self-refresh. Where the specification leaves open what is said here, it is the model's choice: log 2, log 5, log 74, log 76. -/
def Obligations.PowerSuppliesAndWatchdogs : Prop :=
  (∀ s : State,
     (s.boot.stage ≠ .off → s.boot.stage ≠ .powerFail → Completes .pfwNAssert s (.flashes :: volatileFoot) (fun t =>
       t.boot.stage = .powerFail ∧ t.boot.cold = true ∧ t.pwr.pfwLow = true ∧ t.pwr.shedEnded = false ∧
       t.rdB Reg.pwrStatus 4 = true ∧ t.rdF Reg.pwrStatus 3 0 = s.rdF Reg.pwrStatus 3 0 ∧ t.rdB Reg.memStatus 3 = true ∧
       (∀ off, off ≠ Reg.hstStatus → off ≠ Reg.pwrStatus → off ≠ Reg.memStatus → t.rd off = resetWord off) ∧
       t.clk.optime = s.clk.optime ∧ t.clk.pcycle = s.clk.pcycle ∧ t.hst.fetched = [] ∧ t.hst.fg = none ∧ t.hst.bg = [] ∧
       t.seqs = [] ∧ t.lanes = [] ∧ t.clus = [] ∧ t.chans = [] ∧ t.plan = planReset ∧ t.snd = sndReset ∧ t.cwy = cwyReset ∧
       (s.nvm.noFlash = false → s.nvm.scanned = true ∨ s.evr.started = false →
         t.flashRd (32 * s.entryIndex) 32 = persistEntry 1 s.clk.pcycle.toNat s.clk.optime.toNat))) ∧
     (s.boot.stage = .powerFail → s.pwr.pfwLow = true → Completes .pfwShedEnd s [.one .pwr, .one (.reg Reg.pwrStatus)] (fun t =>
       t.pwr = { s.pwr with pfwLow := false, shedEnded := true } ∧ t.rdB Reg.pwrStatus 4 = false ∧
       ∀ b, b < 32 → b ≠ 4 → t.rdB Reg.pwrStatus b = s.rdB Reg.pwrStatus b)) ∧
     Completes .vinPowerDown s volatileFoot (fun t =>
       t.boot.stage = .off ∧ t.boot.cold = true ∧ t.boot.sealed = false ∧ (∀ off, t.rd off = resetWord off) ∧ (∀ a, t.dramAt a = 0) ∧
       t.clk.epoch = 0 ∧ t.clk.optime = 0 ∧ t.clk.pcycle = 0 ∧ t.evr = evrReset ∧ t.hst.fetched = [] ∧ t.hst.fg = none ∧ t.hst.bg = [] ∧
       t.seqs = [] ∧ t.lanes = [] ∧ t.clus = [] ∧ t.chans = [] ∧ t.plan = planReset ∧ t.snd = sndReset ∧ t.cwy = cwyReset ∧
       t.nvm.up = false ∧ t.nvm.scanned = false)) ∧
  (∀ s : State,
     (s.boot.stage = .booting → Completes .suppliesInRange s [.one (.reg Reg.pwrStatus), .one (.reg Reg.bootStatus)] (fun t =>
       t.rdF Reg.pwrStatus 3 1 = 7 ∧ t.phase = (if s.phase = 0 then 1 else s.phase))) ∧
     Completes .mgtHeartbeat s [.one .boot] (fun t => t.boot = { s.boot with mgtAge := 0 }) ∧
     (∀ (cause unit : BitVec 8) (us : W32), s.boot.stage = .ready ∨ s.boot.stage = .failed ∨ s.boot.stage = .booting →
       s.wedgeHolds cause.toNat unit.toNat = true →
       Completes (.wedge cause unit us) s ([.events, .completion, .one .boot, .one .clk, .one .reads, .one (.reg Reg.cwyStatus),
           .one (.reg Reg.bootRewrite), .one (.reg Reg.memStatus), .cluReg Reg.ddsStatus, .cluReg Reg.acqStatus, .chReg Reg.tiaStatus, .chans,
           .chReg Reg.pmuStatus, .chReg Reg.peStatus, .one (.reg Reg.calStatus), .one (.reg Reg.sndStatus), .one (.reg Reg.plnState),
           .one .march, .one .cal, .seqs, .lanes, .clus, .one .plan, .one .snd, .one .cwy] ++
           (if cause = 1 then [.pair (seqOff unit.toNat Reg.seqFlags)] else [])) (fun t =>
         t.boot.stage = .safe ∧ t.hst.fetched = [] ∧ t.hst.fg = none ∧ t.hst.bg = [] ∧ t.clk.epochSet = none ∧
         (s.canonical = true → ∀ q : SeqId, t.seq q = if (s.seq q).st = 4 then s.seq q else seqReset) ∧
         t.lanes = [] ∧ t.clus = [] ∧ t.snd = sndReset ∧ t.cal.run = none ∧ t.mem.march = none ∧ t.rdB Reg.memStatus 3 = true ∧
         (cause = 1 → s.retained (seqOff unit.toNat Reg.seqFlags) = false → t.rdB (seqOff unit.toNat Reg.seqFlags) 3 = true) ∧
         (cause = 5 → t.hst.readData = 0))))

/-- SENSOR_READ (R509, R521, R522, R524, R527): the last reading of each sensor stands in its register with its validity, the supplies stand
in theirs, PWR_TEMP_MAX holds the hottest valid sensor, and THERM_N is driven at the limit. Where the specification leaves open what is
said here, it is the model's choice: log 73. -/
def Obligations.SensorsAreRead : Prop :=
  ∀ (s : State) (l : List SensorReading) (p : SupplyReading), s.powered = true → s.boot.stage ≠ .powerFail →
    Completes (.sensorRead l p) s [.events, .pair Reg.pwrFlags, .regs Reg.pwrTs (Reg.pwrTs + 256), .one .pwr, .one (.reg Reg.pwrTempMax),
        .one (.reg Reg.pwrStatus), .one (.reg Reg.pwrVin), .one (.reg Reg.pwrVph), .one (.reg Reg.pwrVpl), .one (.reg Reg.pwrVio),
        .chReg Reg.tiaLine, .chans, .one .snd] (fun t =>
      (∀ (i : Fin 64) (r : SensorReading), (l.filter (fun x => x.sensor = i)).getLast? = some r →
        t.rd (Reg.pwrTs + 4 * i) = pack [(0, r.temp.toNat), (31, b2n (readingValid r))] ∧ t.tempValid i = readingValid r ∧
        (readingValid r = true → t.temp i = r.temp.toInt)) ∧
      (∀ i : Fin 64, l.filter (fun x => x.sensor = i) = [] → t.rd (Reg.pwrTs + 4 * i) = s.rd (Reg.pwrTs + 4 * i)) ∧
      (∀ i, i < 64 → t.tempValid i = true → t.temp i ≤ sext 16 (t.rdF Reg.pwrTempMax 15 0)) ∧
      ((∃ i, i < 64 ∧ t.tempValid i = true ∧ 64 * (s.rdF Reg.pwrCfg 31 24 : Int) ≤ t.temp i) → t.rdB Reg.pwrStatus 5 = true) ∧
      t.rd Reg.pwrVin = pack [(0, p.vinV.toNat), (16, p.vinI.toNat)] ∧ t.rd Reg.pwrVph = pack [(0, p.vphV.toNat), (16, p.vphI.toNat)] ∧
      t.rd Reg.pwrVpl = pack [(0, p.vplV.toNat), (16, p.vplI.toNat)] ∧ t.rd Reg.pwrVio = pack [(0, p.vioV.toNat)] ∧
      t.rdB Reg.pwrStatus 0 = inRange 2700 5500 p.vinV.toNat ∧ t.rdB Reg.pwrStatus 1 = inRange 7000 8000 p.vphV.toNat ∧
      t.rdB Reg.pwrStatus 2 = decide (-3000 ≤ p.vplV.toInt ∧ p.vplV.toInt ≤ -2500) ∧
      t.rdB Reg.pwrStatus 3 = inRange 1710 1890 p.vioV.toNat)

/-- SFDP_READ (R77, R79, R88, R90, R107, R483, R485) in phase P1: the fuses and the flash are shown and the queue depth follows from the page
program time; without a flash that the module supports, or with a fuse error, the boot stops. PERSISTENT_AREA_SCAN in phase P3 (R68, R70,
R71, R82, R99, R100, R485): after a cold start operating time goes on from the last checkpoint and the last record, power cycles go on from
the latest entry, and the entry of this power cycle is written; after a warm reset they stand. The recorder starts, and P4 follows. Where
the specification leaves open what is said here, it is the model's choice: log 12, log 71, log 88, log 89. -/
def Obligations.BootReadsFlashAndTime : Prop :=
  (∀ s : State, s.inPhase 1 = true →
     (∀ (mfr size : BitVec 8) (dev : BitVec 16) (tpp : Nat), densityOk size = true →
       Completes (.sfdpRead false (.ok mfr dev size tpp)) s [.one (.reg Reg.bootFuse), .one (.reg Reg.bootFlash), .one .flashPort,
           .one (.reg Reg.evrStatus), .one (.reg Reg.bootStatus)] (fun t =>
         t.rd Reg.bootFuse = s.fuseWord ∧ t.rdF Reg.bootFlash 7 0 = size.toNat ∧ t.rdF Reg.bootFlash 23 8 = dev.toNat ∧
         t.rdF Reg.bootFlash 31 24 = mfr.toNat ∧ t.nvm.up = true ∧ t.phase = 3 ∧
         (∀ q, qdepthOf tpp = some q → t.qdepth = q) ∧
         (qdepthOf tpp = none → t.qdepth = 32 ∧ t.rdB Reg.evrStatus 2 = true)) ∧
       Completes (.sfdpRead true (.ok mfr dev size tpp)) s [.one (.reg Reg.bootFlash), .one .flashPort, .one (.reg Reg.bootStatus),
           .one (.reg Reg.hstStatus), .one .boot, .events] (fun t => BootStopped t 0x12 ∧ t.nvm.up = true)) ∧
     (s.evr.started = false → ∀ (found : Sfdp) (code : Nat),
       (found = .absent ∧ code = 1) ∨ (found = .unsupported ∧ code = 2) ∨
         (∃ mfr dev size tpp, found = .ok mfr dev size tpp ∧ densityOk size = false ∧ code = 2) →
       Completes (.sfdpRead false found) s [.one (.reg Reg.bootFuse), .one (.reg Reg.bootStatus), .one (.reg Reg.hstStatus), .one .boot,
           .one .flashPort, .events] (fun t =>
         BootStopped t code ∧ t.phase = 2 ∧ t.nvm.noFlash = true ∧ t.evr.started = true ∧ t.logVolatile = true))) ∧
  (∀ s : State, s.inPhase 3 = true → s.nvm.noFlash = false →
     Completes .persistentAreaScan s ([.one .flashPort, .one .boot, .events, .one (.reg Reg.bootStatus)] ++
         (if s.boot.cold then [.one .clk, .pair Reg.clkFlags, .flash (32 * (s.nextEntry % 65536 / 2048 * 2048)) 65536] else [])) (fun t =>
       t.nvm.scanned = true ∧ t.boot.cold = false ∧ t.evr.started = true ∧ t.phase = 4 ∧ t.rdF Reg.bootStatus 2 0 = 1 ∧
       (s.boot.cold = true → ∀ i kind pcycle optime, s.latestEntry = some (i, kind, pcycle, optime) →
         t.clk.pcycle.toNat = min (pcycle + 1) 0xFFFFFF) ∧
       (s.boot.cold = true → s.latestEntry = none → t.clk.pcycle = 1) ∧
       (s.boot.cold = true → ∀ c r, (s.lastCheckpoint = some c ∧ s.lastRecordOptime = some r) ∨
           (s.lastCheckpoint = some c ∧ s.lastRecordOptime = none ∧ r = 0) ∨ (s.lastCheckpoint = none ∧ s.lastRecordOptime = some r ∧ c = 0) →
         t.clk.optime.toNat = min (max c r + 1) 0xFFFFFFFFFF) ∧
       (s.boot.cold = true → s.lastCheckpoint = none → s.lastRecordOptime = none → t.clk.optime = 0) ∧
       (s.boot.cold = true → t.clk.optime = 0xFFFFFFFFFF → t.rdB Reg.clkFlags 2 = true) ∧
       (s.boot.cold = true → t.flashRd (32 * (s.nextEntry % 65536)) 32 = persistEntry 2 t.clk.pcycle.toNat t.clk.optime.toNat) ∧
       (s.boot.cold = false → t.clk = s.clk)))

/-- SLOT_SELECT in P4 and BODY_STREAM in P5 (R86 to R90, R98, R104, R107, R455). CAL_BANK_SELECT in P6 (R105, R460, R474): both banks' counts
and validity are shown, the active bank is the valid one with the higher SEQ, and with none the factory record stands in. Where the
specification leaves open what is said here, it is the model's choice: log 21, log 67, log 68, log 69. -/
def Obligations.BootSelectsBodyAndBank : Prop :=
  (∀ s : State,
     (s.inPhase 4 = true →
       (s.slotsLeft = [] → Completes .slotSelect s [.one (.reg Reg.bootSlotSeq0), .one (.reg Reg.bootSlotSeq1), .one (.reg Reg.bootStatus),
           .one (.reg Reg.hstStatus), .one .boot, .events] (fun t => BootStopped t 3)) ∧
       (∀ k l, s.slotsLeft = k :: l →
         (s.headerCode (s.bodyBase k) = 0 →
           Completes .slotSelect s [.one (.reg Reg.bootSlotSeq0), .one (.reg Reg.bootSlotSeq1), .one (.reg Reg.bootStatus)] (fun t =>
             t.phase = 5 ∧ t.slot = k ∧ t.rd Reg.bootSlotSeq0 = BitVec.ofNat 32 (s.imageSeq 0) ∧
             t.rd Reg.bootSlotSeq1 = BitVec.ofNat 32 (s.imageSeq 1))) ∧
         (s.headerCode (s.bodyBase k) ≠ 0 →
           Completes .slotSelect s [.one (.reg Reg.bootSlotSeq0), .one (.reg Reg.bootSlotSeq1), .one (.reg Reg.bootStatus),
             .one (.reg Reg.hstStatus), .one .boot, .events] (fun t =>
             SlotFailed (s.wrB Reg.bootStatus 8 (k == 1)) t (s.headerCode (s.bodyBase k)))))) ∧
     (s.inPhase 5 = true → s.boot.dramUp = true →
       (s.bodyCode (s.bodyBase s.slot) = 0 →
         Completes .bodyStream s [.dram 0 (max (320 * mib) (s.sect (s.bodyBase s.slot) 2).len), .one (.reg Reg.bootStatus)] (fun t =>
           t.phase = 6 ∧ t.dramRd 0 (s.sect (s.bodyBase s.slot) 2).len = s.sectBytes (s.bodyBase s.slot) 2 ∧
           ∀ a, (s.sect (s.bodyBase s.slot) 2).len ≤ a → a < 320 * mib → t.dramAt a = 0)) ∧
       (s.bodyCode (s.bodyBase s.slot) ≠ 0 →
         Completes .bodyStream s [.one (.reg Reg.bootStatus), .one (.reg Reg.hstStatus), .one .boot, .events] (fun t =>
           SlotFailed s t (s.bodyCode (s.bodyBase s.slot)))))) ∧
  (∀ s : State, s.inPhase 6 = true →
     Completes .calBankSelect s [.one .cal, .one (.reg Reg.calSeqA), .one (.reg Reg.calSeqB), .one (.reg Reg.calStatus), .one (.reg Reg.calCount),
         .pair Reg.calLastOptLo, .one (.reg Reg.calLastPcycle), .regs Reg.calChFail (Reg.calChFail + 2048), .pair Reg.calFlags, .events,
         .one (.reg Reg.bootStatus), .chReg Reg.tiaLine, .chans, .one .snd] (fun t =>
       t.phase = 7 ∧ t.rd Reg.calSeqA = BitVec.ofNat 32 (s.bankSeq 0) ∧ t.rd Reg.calSeqB = BitVec.ofNat 32 (s.bankSeq 1) ∧
       t.rdB Reg.calStatus 2 = s.bankValid 0 ∧ t.rdB Reg.calStatus 3 = s.bankValid 1 ∧
       (∀ k, s.bankChoice = some k → t.rdF Reg.calStatus 1 0 = k + 1 ∧ t.rd Reg.calCount = BitVec.ofNat 32 (s.bankSeq k) ∧
         t.rdB Reg.bootStatus 10 = false ∧ t.cal.fromBank = true) ∧
       (s.bankChoice = none → t.rdB Reg.bootStatus 10 = true ∧ t.cal.fromBank = false)))

/-- CONFIG_APPLY in P7 (R93, R94, R104): the entries reach SL fields only, every other field stands, the reference outputs take their
enables, and the boot goes on to P8; an entry that is refused fails the slot. PATCH_APPLY in P8 (R96, R109, R153): the control stores hold the patches, the configuration is sealed and P9
follows; a patch that is refused fails the slot. BOOT_READY in P9 (R101, R103): the module is READY. Where the specification leaves open
what is said here, it is the model's choice: log 66, log 67, log 86. -/
def Obligations.BootConfiguresSealsAndReadies : Prop :=
  (∀ s : State, s.inPhase 7 = true → s.boot.marched = true →
     ((s.cfgCheck (s.bodyBase s.slot)).1 = 0 → s.canonical = true → Completes .configApply s [.allRegs, .one .clk] (fun t =>
       t.phase = 8 ∧ t.clk = { s.clk with outEn := t.rdF Reg.clkOutCtl 2 0 } ∧ (∀ off, off ≠ Reg.bootStatus → t.rd off = (s.cfgCheck (s.bodyBase s.slot)).2.rd off) ∧
       (∀ off r, off ≠ Reg.bootStatus → findRow off = some r →
         t.rd off &&& ~~~ BitVec.ofNat 32 r.sl = s.rd off &&& ~~~ BitVec.ofNat 32 r.sl) ∧
       (∀ off, findRow off = none → t.rd off = s.rd off))) ∧
     ((s.cfgCheck (s.bodyBase s.slot)).1 ≠ 0 → Completes .configApply s [.allRegs, .one .boot, .events] (fun t =>
       SlotFailed (s.cfgCheck (s.bodyBase s.slot)).2 t (s.cfgCheck (s.bodyBase s.slot)).1))) ∧
  (∀ s : State,
     (s.inPhase 8 = true →
       ((s.patchCheck (s.bodyBase s.slot)).1 = 0 →
         Completes .patchApply s [.seqs, .one (.reg (0xA0000 + Reg.seqPatch)), .cluReg Reg.seqPatch, .one (.reg Reg.idPeat),
             .one (.reg Reg.cwyStatus), .one (.reg Reg.bootStatus), .one .boot] (fun t =>
           t.boot.sealed = true ∧ t.phase = 9 ∧ t.rdF Reg.bootStatus 2 0 = 2 ∧
           t.rdF Reg.idPeat 15 0 = s.flashLe (s.bodyBase s.slot + 0x10) 2 ∧ t.rdF Reg.idPeat 31 16 = s.flashLe (s.bodyBase s.slot + 6) 2 ∧
           ∀ q, q < 33 → (t.seq q).store = (((s.patchCheck (s.bodyBase s.slot)).2.filter (fun r => r.mask.testBit q && r.type == 1)).foldl
             (fun m r => Tbl.setList (fun _ => trapWord) m r.addr r.words) []) ∧ (t.seq q).pc = (s.seq q).pc)) ∧
       ((s.patchCheck (s.bodyBase s.slot)).1 ≠ 0 →
         Completes .patchApply s [.one (.reg Reg.bootStatus), .one (.reg Reg.hstStatus), .one .boot, .events] (fun t =>
           SlotFailed s t (s.patchCheck (s.bodyBase s.slot)).1))) ∧
     (∀ us : W32, s.inPhase 9 = true → Completes (.bootReady us) s [.one (.reg Reg.clkCorrAge), .one (.reg Reg.clkCorrTemp),
         .one (.reg Reg.clkXtalTemp), .one (.reg Reg.clkCorr), .pair Reg.clkFlags, .pair Reg.calFlags, .one .cal, .one (.reg Reg.bootTime),
         .one (.reg Reg.bootStatus), .one .boot, .events] (fun t =>
       t.boot.stage = .ready ∧ t.rdF Reg.bootStatus 2 0 = 3 ∧ t.rd Reg.bootTime = us)))

/-- DRAM_TRAINING and DRAM_SELF_REFRESH_EXIT (R102, R457): the DRAM comes up, by training after a cold start and out of self-refresh after a
warm reset; training that fails stops the boot, and in a boot that has stopped already it changes nothing more. ROLLBACK_BURN (R91) in
READY: the fuse bit above the thermometer, where the running security version is higher, and none elsewhere. IMAGE and IMAGE_COMMITTED (R87,
R111, R112, R433): the target slot is erased and holds the image; once its checks pass its trailer is written with the next IMAGE_SEQ, and
otherwise the slot stays uncommitted and the command ends with IMAGE_REJECTED. Where the specification leaves open what is said here, it is
the model's choice: log 61, log 72, log 88, log 104. -/
def Obligations.DramFusesAndImages : Prop :=
  (∀ s : State,
     (s.boot.stage = .booting ∨ s.boot.stage = .failed → s.rdB Reg.bootStatus 11 = false → s.boot.dramUp = false → 1 ≤ s.phase →
       Completes (.dramTraining true) s [.one .boot] (fun t => t.boot = { s.boot with dramUp := true }) ∧
       (s.boot.stage = .booting →
         Completes (.dramTraining false) s [.one .boot, .one (.reg Reg.bootStatus), .one (.reg Reg.hstStatus), .events] (fun t =>
           BootStopped t 0x11 ∧ t.boot.dramUp = false)) ∧
       (s.boot.stage = .failed → Completes (.dramTraining false) s [] (fun _ => True))) ∧
     (s.boot.stage = .booting ∨ s.boot.stage = .failed → s.rdB Reg.bootStatus 11 = true → s.sref = true →
       Completes .dramSelfRefreshExit s [.one (.reg Reg.memStatus), .one .boot] (fun t =>
         t.sref = false ∧ t.boot = { s.boot with dramUp := true })) ∧
     (s.boot.stage = .ready → rollbackCount s.nvm.rollback < s.rdF Reg.idPeat 15 0 →
       Completes .rollbackBurn s [.one .rollback, .one (.reg Reg.bootFuse)] (fun t =>
         t.rdF Reg.bootFuse 6 0 = rollbackCount t.nvm.rollback ∧
         ∀ i, i < 64 → t.nvm.rollback.getLsbD i = (s.nvm.rollback.getLsbD i || i == rollbackCount s.nvm.rollback))) ∧
     (s.boot.stage ≠ .ready ∨ s.rdF Reg.idPeat 15 0 ≤ rollbackCount s.nvm.rollback → Completes .rollbackBurn s [] (fun _ => True))) ∧
  (∀ (s : State) (c : Cmd) (rest : List Cmd) (d : List Byte) (data : Option (List Byte)),
     (Front s 0x0C c rest → badFields c = false → c.cutOff = true →
       Completes (.image data) s [.completion] (fun t => Finishes s t c rest St.dmaError 0 0)) ∧
     (Front s 0x0C c rest → badFields c = false → c.cutOff = false →
       ((∃ g ∈ s.hst.bg, g.cmd.opcode = 0x0C) → Completes (.image data) s [.completion] (fun t => Finishes s t c rest St.busy 0 0)) ∧
       ((∀ g ∈ s.hst.bg, g.cmd.opcode ≠ 0x0C) →
         (s.nvm.up = false → Completes (.image data) s [.completion, .one (.reg Reg.bootRewrite)] (fun t =>
           Finishes s t c rest St.imageRejected 1 0 ∧ t.rdF Reg.bootRewrite 15 8 = 1)) ∧
         (s.nvm.up = true → s.slotSize - 4096 < 16 * c.len →
           Completes (.image data) s [.completion, .one (.reg Reg.bootRewrite)] (fun t =>
             Finishes s t c rest St.imageRejected 4 0 ∧ t.rdF Reg.bootRewrite 15 8 = 4)) ∧
         (s.nvm.up = true → 16 * c.len ≤ s.slotSize - 4096 →
           Completes (.image none) s [.completion, .one (.reg Reg.bootRewrite), .one (.reg Reg.bootSlotSeq0), .one (.reg Reg.bootSlotSeq1),
               .flash (s.bodyBase s.rewriteTarget) s.slotSize] (fun t =>
             Finishes s t c rest St.dmaError 0 0 ∧ t.committed s.rewriteTarget = false) ∧
           (d.length = 16 * c.len →
             Completes (.image (some d)) s [.completion, .one (.reg Reg.bootRewrite), .one (.reg Reg.bootSlotSeq0),
                 .one (.reg Reg.bootSlotSeq1), .flash (s.bodyBase s.rewriteTarget) s.slotSize] (fun t =>
               Accepted s t c rest ∧ t.flashRd (s.bodyBase s.rewriteTarget) (16 * c.len) = d ∧
               t.committed s.rewriteTarget = false ∧ t.rdF Reg.bootRewrite 1 0 = 2 ∧
               t.rdB Reg.bootRewrite 2 = (s.rewriteTarget == 1)))))) ∧
     (∀ g, s.hst.bg.find? (fun g => g.cmd.opcode == 0x0C) = some g →
       ∀ k b code, k = b2n (s.rdB Reg.bootRewrite 2) → b = s.bodyBase k → code = s.imageCode b (16 * g.cmd.len) →
       (code ≠ 0 → Completes .imageCommitted s [.completion, .one (.reg Reg.bootRewrite)] (fun t =>
         t.rdF Reg.bootRewrite 1 0 = 0 ∧ t.rdF Reg.bootRewrite 15 8 = code % 256 ∧ BgEnded s t 0x0C St.imageRejected code)) ∧
       (code = 0 → Completes .imageCommitted s [.completion, .one (.reg Reg.bootRewrite), .one (.reg Reg.bootSlotSeq0),
           .one (.reg Reg.bootSlotSeq1), .flash (s.trailer k) 16, .events] (fun t =>
         t.flashRd (s.trailer k) 16 = slotTrailer ((max (s.imageSeq 0) (s.imageSeq 1) + 1) % 2 ^ 32) (16 * g.cmd.len) ∧
         t.rdF Reg.bootRewrite 1 0 = 3 ∧ BgEnded s t 0x0C St.ok 0))))

/-- MARCH (R433, R445, R446, R453): refused, or accepted with the macros that it names still to be marched and the named clusters awake; one
that names no macro ends at once. MARCH_WINDOW (R447, R449, R451): the failing rows of the macro take spares in order, those that find
none are retired, or held where a preserving march meets a macro that the plan uses; the last window ends the march with the completion of
its command; a destructive march leaves the fail counters and the timing sets of the macro 0, and the ECC outcome of a preserving march's
copy of the timing-set memory is counted (R442). Where the specification leaves open what is said here, it is the model's choice: log 31,
log 32, log 33, log 105. -/
def Obligations.MarchesRepair : Prop :=
  (∀ (s : State) (c : Cmd) (rest : List Cmd), Front s 0x0B c rest → badFields c = false →
     (marchBad c.arg0 = true → Completes .march s [.completion] (fun t => Finishes s t c rest St.badField 0 0)) ∧
     (marchBad c.arg0 = false → s.mem.march.isSome = true ∨
         (c.arg0.testBit 0 = false ∧ (s.planBusy = true ∨ s.sounding = true ∨ s.calBusy = true)) →
       Completes .march s [.completion] (fun t => Finishes s t c rest St.busy 0 0)) ∧
     (marchBad c.arg0 = false → s.mem.march = none →
       (c.arg0.testBit 0 = true ∨ (s.planBusy = false ∧ s.sounding = false ∧ s.calBusy = false)) →
       (marchMacros c.arg0 ≠ [] → Completes .march s [.completion, .one (.reg Reg.memStatus), .one .march, .one (.reg Reg.memMarchProg),
           .chReg Reg.tiaLine, .chans, .one (.reg Reg.memRetWakes), .one (.reg Reg.memRetState)] (fun t =>
         Accepted s t c rest ∧
         t.mem.march = some { preserving := c.arg0.testBit 0, left := marchMacros c.arg0, anySpared := false, anyRetired := false } ∧
         t.rdF Reg.memStatus 2 0 = (if c.arg0.testBit 0 then 3 else 2) ∧
         t.rd Reg.memMarchProg = pack [(16, (marchMacros c.arg0).length)] ∧
         ∀ k : Fin 32, t.rdB Reg.memRetState k = (s.rdB Reg.memRetState k && !(marchClusters c.arg0).contains k.val))) ∧
       (marchMacros c.arg0 = [] → s.mem.held = [] → (∀ g ∈ s.hst.bg, g.cmd.opcode ≠ 0x0B) →
         Completes .march s [.completion, .events, .one (.reg Reg.memStatus), .one .march,
           .one (.reg Reg.memMarchProg), .chReg Reg.tiaLine, .chans, .one (.reg Reg.memRetWakes), .one (.reg Reg.memRetState)] (fun t =>
         Finishes s t c rest St.ok 0 0 ∧ t.mem.march = none ∧ t.rdF Reg.memStatus 2 0 = 0 ∧ t.rdF Reg.memStatus 23 16 = 0)))) ∧
  (∀ (s : State) (m : March) (f : MacroFails) (row : Fin 512) (read : SramRead), s.mem.march = some m → m.left.contains f.macroNo = true →
     read = .clean ∨ (m.preserving = true ∧ 1032 ≤ f.macroNo ∧ f.macroNo < 1041) →
     ∀ o, o = (s.macro f.macroNo).march (macroRows f.macroNo) f.rows f.spares (s.heldRows f.macroNo) →
     Completes (.marchWindow ⟨f, read, row⟩) s ([.completion, .events, .one (.reg Reg.memStatus), .one .march, .one (.reg Reg.memMarchProg),
         .pair Reg.memFlags, .one (.reg Reg.memRepair), .one .macros, .one (.reg Reg.memOosDev), .one (.reg Reg.memOos),
         .one (.reg Reg.memLoss)] ++
         (if read = .clean then [] else [.one (.reg Reg.memEccCnt), .one (.reg Reg.memEccAddr)]) ++
         (if m.preserving then [] else [.one .timing, .failCnt (65536 * (f.macroNo - 1041)) 65536, .one (.clu ((f.macroNo - 520) / 16)),
           .one (.lane (f.macroNo - 1057)), .one (.reg (cluOff (f.macroNo - 1057) Reg.plnSluicePos)),
           .one (.reg (cluOff (f.macroNo - 1057) Reg.plnSluice)), .chReg Reg.tgScrStgHi, .chReg Reg.tgScrStgLo, .chReg Reg.tgScrActHi,
           .chReg Reg.tgScrActLo])) (fun t =>
       (t.macro f.macroNo).used = o.mac.used ∧ (t.macro f.macroNo).badSpares = o.mac.badSpares ∧
       (∀ n, n ≠ f.macroNo → t.macro n = s.macro n) ∧
       (m.preserving = true → s.planUses f.macroNo = true →
         (t.macro f.macroNo).retired = (s.macro f.macroNo).retired ∧
         t.mem.held = s.mem.held ++ o.noSpare.map (fun r => (f.macroNo, r)) ∧ (o.noSpare ≠ [] → t.rdB Reg.memFlags 2 = true)) ∧
       (m.preserving = false ∨ s.planUses f.macroNo = false →
         (t.macro f.macroNo).retired = (s.macro f.macroNo).retired ++ o.noSpare ∧ t.mem.held = s.mem.held ∧
         (o.noSpare ≠ [] → t.rdB Reg.memFlags 1 = true)) ∧
       (∀ x, x ∈ m.left → x ≠ f.macroNo → ∃ m', t.mem.march = some m' ∧ m'.left = m.left.filter (· ≠ f.macroNo)) ∧
       ((∀ x ∈ m.left, x = f.macroNo) → t.mem.held = [] → t.mem.march = none ∧ t.rdF Reg.memStatus 2 0 = 0 ∧
         ∃ outcome, BgEnded s t 0x0B St.ok outcome ∧ t.rdF Reg.memStatus 23 16 = outcome) ∧
       (read = .corrected → (t.rd Reg.memEccCnt).toNat = min ((s.rd Reg.memEccCnt).toNat + 1) 0xFFFFFFFF) ∧
       (read = .lost → t.rd Reg.memEccAddr = pack [(0, row), (16, f.macroNo)] ∧ t.rdB Reg.memFlags 0 = true) ∧
       (m.preserving = false → 1041 ≤ f.macroNo → f.macroNo < 1057 → ∀ a, 65536 * (f.macroNo - 1041) ≤ a →
         a < 65536 * (f.macroNo - 1041) + 65536 → Tbl.get (fun _ => (0 : Byte)) t.mem.failCnt a = 0) ∧
       (m.preserving = false → 1032 ≤ f.macroNo → f.macroNo < 1041 → ∀ a, 65536 * (f.macroNo - 1032) ≤ a →
         a < 65536 * (f.macroNo - 1032) + 65536 → Tbl.get (fun _ => (0 : Byte)) t.mem.timing a = 0)))

/-- HELD_RETIRE (R449) once no plan is busy, with the end of a march that waited for it, and BOOT_MARCH (R102, R445, R449), which makes every assignment afresh. RETENTION_ENTRY and
RETENTION_WAKE (R309, R452, R453): a cluster that nothing needs sleeps where it may, and one that wakes has every line acquire anew, with
the uniform table.
Where the specification leaves open what is said here, it is the model's choice: log 31, log 32. -/
def Obligations.HeldRowsAndRetention : Prop :=
  (∀ s : State,
     (s.planBusy = false → s.mem.held ≠ [] → Completes .heldRetire s [.completion, .events, .one (.reg Reg.memStatus), .one .march,
         .one (.reg Reg.memOosDev), .one (.reg Reg.memOos), .one (.reg Reg.memLoss), .one (.reg Reg.memRepair), .pair Reg.memFlags,
         .one .macros] (fun t =>
       t.mem.held = [] ∧ t.rdB Reg.memFlags 1 = true ∧
       (∀ m, (t.macro m).retired = (s.macro m).retired ++ s.heldRows m ∧ (t.macro m).used = (s.macro m).used) ∧
       (∀ m, s.mem.march = some m → m.left = [] → t.mem.march = none ∧ t.rdF Reg.memStatus 23 16 = 2 ∧ BgEnded s t 0x0B St.ok 2))) ∧
     (s.boot.stage = .booting → s.boot.marched = false → ∀ fails : List MacroFails,
       Completes (.bootMarch fails) s [.events, .one (.reg Reg.memMarchProg), .one (.reg Reg.memStatus), .one (.reg Reg.memOosDev),
           .one (.reg Reg.memOos), .one (.reg Reg.memLoss), .one (.reg Reg.memRepair), .pair Reg.memFlags, .one .march, .one .macros, .one .boot,
           .one .timing, .failCnts] (fun t =>
         t.boot.marched = true ∧ t.rd Reg.memMarchProg = pack [(0, 1090), (16, 1090)] ∧
         (∀ m, (∀ f ∈ fails, f.macroNo ≠ m) → t.macro m = macroReset) ∧
         (∀ a, Tbl.get (fun _ => (0 : Byte)) t.mem.failCnt a = 0) ∧ t.mem.timing = [] ∧ t.mem.march = none))) ∧
  (∀ (s : State) (c : CluId),
     (s.boot.stage = .ready → s.rdB Reg.memRetEn c = true → s.cluAsleep c = true →
       Completes (.retentionEntry c) s [.one (.reg Reg.memRetState)] (fun t =>
         ∀ k : CluId, t.rdB Reg.memRetState k = (s.rdB Reg.memRetState k || k == c))) ∧
     (s.rdB Reg.memRetState c = true →
       Completes (.retentionWake c) s (wakeFoot c) (fun t =>
         (∀ k : CluId, t.rdB Reg.memRetState k = (s.rdB Reg.memRetState k && k != c)) ∧
         (t.rd Reg.memRetWakes).toNat = min ((s.rd Reg.memRetWakes).toNat + 1) 0xFFFFFFFF ∧
         ∀ (n : Fin 512) (j : Fin 6),
           t.lineState n j = (if n.val / 16 = c.val then 1 else s.lineState n j) ∧
             (n.val / 16 = c.val → ∀ f, f < 320 → (t.chan n).width j f = 4096))) ∧
     (s.rdB Reg.memRetState c = false → Completes (.retentionWake c) s [] (fun _ => True)))

/-- One execution that is not the last of its word, for every class but TRAP, and every execution of NEXT (R120, R121, R125, R126, R132 to
R136): the cycles count, the address and data generators, loop counters, flags and the timer take their operations, and the sequencer
stands at the word with one execution fewer, or, after the last of NEXT, goes on; a CWMSG sends its message in the first execution only
(R409). Where the specification leaves open what is said here,
it is the model's choice: log 16, log 63. -/
def Obligations.MicrowordsExecute : Prop :=
  ∀ (s : State) (q : SeqId) (w : UWord) (n : Nat),
    ∀ i ∈ [(Instr.next q .clean, 0x0), (.opcJump q .clean, 0x1), (.call q .clean, 0x2), (.ret q .clean, 0x3), (.loop q .clean, 0x4),
        (.wait q .clean, 0x5), (.halt q .clean, 0x6), (.setreg q .clean, 0x7), (.seg q .clean, 0x8), (.rtbl q .clean, 0x9), (.sync q .clean, 0xA),
        (.lstop q .clean, 0xD), (.brel q .clean, 0xE), (.cwmsg q .clean, 0xF)],
      Executes s q i.2 w n → (i.2 = 0 ∨ 1 < n) →
      Completes i.1 s (wordFoot q ++ (if i.2 = 7 then [.one .plan] else if i.2 = 9 then [.chRegs Reg.tgScrStgLo (Reg.tgScrStgLo + 8)]
          else if i.2 = 0xF then [.one .cwy] else [])) (fun t =>
        (t.seq q).cyc = (s.seq q).cyc + BitVec.ofNat 64 w.cl ∧
        (t.seq q).flags = flagOp (s.seq q).flags w.fop w.fsel ∧
        (t.seq q).xc = (addrOps (s.seq q).gen w).2.1 ∧ (t.seq q).yc = (addrOps (s.seq q).gen w).2.2.1 ∧
        (t.seq q).zc = (addrOps (s.seq q).gen w).2.2.2 ∧
        (t.seq q).gen.x = (addrOps (s.seq q).gen w).1.x ∧ (t.seq q).gen.y = (addrOps (s.seq q).gen w).1.y ∧
        (t.seq q).gen.z = (addrOps (s.seq q).gen w).1.z ∧
        (i.2 ≠ 7 → (t.seq q).gen.walk = (dataOp (s.seq q).gen w.dop).walk) ∧
        (∀ j, Tbl.get (fun _ => 0) (t.seq q).lc j = Tbl.get (fun _ => 0) (carried w (s.seq q)).lc j) ∧
        (w.top = 1 → (t.seq q).timer = (s.seq q).tload ∧ (t.seq q).timerOn = true ∧ (t.seq q).tmr = false) ∧
        (w.top = 2 → (t.seq q).timerOn = false) ∧
        (n ≤ 1 → (t.seq q).pos = (s.seq q).nextPos ∧ (t.seq q).left = none) ∧
        (1 < n → (t.seq q).pos = (s.seq q).pos ∧ (t.seq q).left = some (n - 1)) ∧
        (i.2 = 0xF → t.cwy = { s.cwy with sendQ := s.cwy.sendQ ++ (if (s.seq q).left = none then
          [{ type := w.imm / 2 ^ 20, payload := w.imm % 2 ^ 20, ext := 0, seq := none, up := false, dn := false }] else []) }))

/-- The vector operations of a lane's word, at NEXT (R123, R124, R127, R136 to R138, R172, R361): what enters the issue queue, with the marker
of the word behind it, and DDS_END after a DDSGO post (R371). The last execution of JUMP, CALL, RET and LOOP (R128, R131, R143): where the sequencer goes, what the stack holds,
and the faults of a stack that is full or empty. Where the specification leaves open what is said here, it is the model's choice: log 16. -/
def Obligations.WordsPostVectorsAndGoOn : Prop :=
  (∀ (s : State) (c : CluId) (w : UWord) (n : Nat) (q : SeqId), q.val = c.val → Executes s q 0 w n →
     ∀ m, m = (if w.ldstb = true ∨ w.scrld = true ∨ w.srcsel ≠ 0 then [Item.marker w.ldstb w.scrld w.srcsel] else []) →
     (w.vop = 0 → Completes (.next q .clean) s (wordFoot q) (fun t => (t.lane c).queue = (s.lane c).queue ++ m)) ∧
     (w.vop = 3 → Completes (.next q .clean) s (wordFoot q) (fun t =>
       (t.lane c).queue = (s.lane c).queue ++ List.replicate w.vcnt (Item.vec ((s.lane c).keepVec false)) ++ m ∧
       (t.lane c).place = (s.lane c).place)) ∧
     (∀ ws, w.vop = 1 → w.vcnt = 1 → (s.lane c).cur.kind = 0 → (s.lane c).exhausted = false → (s.lane c).resident = some ws →
       Completes (.next q .clean) s (wordFoot q) (fun t =>
         (t.lane c).queue = (s.lane c).queue ++ (ws.map (fun x => Item.vec { (s.lane c).keepVec false with codes := x })) ++ m ∧
         (t.lane c).place = (s.lane c).advance.place)) ∧
     (w.vop = 4 → w.vcnt = 1 → Completes (.next q .clean) s (wordFoot q) (fun t =>
       ∃ k : Token, (t.lane c).queue = (s.lane c).queue ++ [Item.token k] ++ m ∧ k.entry = s.ddsEntry c ∧ k.keep = (s.lane c).keepVec false ∧
       t.rdB (cluOff c Reg.ddsStatus) 24 = (decide ((s.lane c).cur.kind = 2) && !(s.lane c).exhausted && (s.lane c).advance.exhausted))) ∧
     (w.vop = 2 → Completes (.next q .clean) s (wordFoot q) (fun t =>
       ∀ x y d, x = (if w.ascr then s.scramble (cluOff c Reg.seqXscr0) (s.seq q).gen.x else (s.seq q).gen.x) →
         y = (if w.ascr then s.scramble (cluOff c Reg.seqYscr0) (s.seq q).gen.y else (s.seq q).gen.y) →
         d = dataWord (s.seq q).gen x y w.dsrc w.dinv →
         (t.seq q).gen.d = d ∧
         ∃ v : Vec, (t.lane c).queue = (s.lane c).queue ++ List.replicate w.vcnt (Item.vec v) ++ m ∧ v.tset = w.tset ∧
           v.gen = some { x := (s.seq q).gen.x, y := (s.seq q).gen.y, z := (s.seq q).gen.z, d := d } ∧
           ∀ k : Fin 16, fieldOf v.codes (2 * k.val + 1) (2 * k.val) = roleCode (s.role c k) x y (s.seq q).gen.z d w.dir))) ∧
  (∀ (s : State) (q : SeqId) (w : UWord) (n a : Nat) (b : Bool), n ≤ 1 → (s.seq q).pos = .word a →
     (Executes s q 0x1 w n → Taken s q w b → Completes (.opcJump q .clean) s (wordFoot q) (fun t =>
       (t.seq q).pos = .word (if b then w.target else (a + 1) % 16384) ∧ (t.seq q).left = none ∧ (t.seq q).stack = (s.seq q).stack)) ∧
     (Executes s q 0x2 w n → Taken s q w b →
       (b = true → (s.seq q).stack.length < 16 → Completes (.call q .clean) s (wordFoot q) (fun t =>
         (t.seq q).pos = .word w.target ∧ (t.seq q).left = none ∧
         ∃ f : Frame, (t.seq q).stack = f :: (s.seq q).stack ∧ f.line = none ∧ f.pos = .word ((a + 1) % 16384) ∧ f.left = none)) ∧
       (b = true → 16 ≤ (s.seq q).stack.length → Completes (.call q .clean) s (.one (.reg (seqOff q Reg.seqFault)) :: wordFoot q) (fun t =>
         Faulted s t q 0x03 ∧ (t.seq q).stack = (s.seq q).stack)) ∧
       (b = false → Completes (.call q .clean) s (wordFoot q) (fun t =>
         (t.seq q).pos = .word ((a + 1) % 16384) ∧ (t.seq q).stack = (s.seq q).stack))) ∧
     (Executes s q 0x3 w n → Taken s q w b →
       (∀ f l, b = true → (s.seq q).stack = f :: l → Completes (.ret q .clean) s (wordFoot q) (fun t =>
         (t.seq q).pos = f.pos ∧ (t.seq q).left = f.left ∧ (t.seq q).stack = l ∧ (t.seq q).arrived = f.arrived ∧
         (t.seq q).released = f.released ∧ (t.seq q).st = (if f.waiting then 3 else 1))) ∧
       (b = true → (s.seq q).stack = [] → Completes (.ret q .clean) s (.one (.reg (seqOff q Reg.seqFault)) :: wordFoot q) (fun t =>
         Faulted s t q 0x04)) ∧
       (b = false → Completes (.ret q .clean) s (wordFoot q) (fun t =>
         (t.seq q).pos = .word ((a + 1) % 16384) ∧ (t.seq q).stack = (s.seq q).stack))) ∧
     (Executes s q 0x4 w n → Completes (.loop q .clean) s (wordFoot q) (fun t =>
       ∀ x, x = Tbl.get (fun _ => 0) (carried w (s.seq q)).lc w.lcsel - 1 →
         Tbl.get (fun _ => 0) (t.seq q).lc w.lcsel = x ∧
         (t.seq q).pos = .word (if x = 0 then (a + 1) % 16384 else w.target) ∧ (t.seq q).left = none)))

/-- WAIT and SYNC (R128, R130): the sequencer waits; WAIT_CONDITION_MET lets it go on to the next word, and WAIT_TIMEOUT takes it to TARGET
with its flag and event. The last execution of HALT, SETREG, SEG and RTBL (R128, R135, R139, R172, R173). Where the specification leaves
open what is said here, it is the model's choice: log 16. -/
def Obligations.WordsWaitSetAndHalt : Prop :=
  (∀ (s : State) (q : SeqId) (w : UWord) (n : Nat),
     (n ≤ 1 → Executes s q 0x5 w n → Completes (.wait q .clean) s (wordFoot q) (fun t =>
       (t.seq q).st = 3 ∧ (t.seq q).waiting = true ∧ (t.seq q).waited = 0 ∧ (t.seq q).pos = (s.seq q).pos)) ∧
     (n ≤ 1 → Executes s q 0xA w n → Completes (.sync q .clean) s (wordFoot q) (fun t =>
       (t.seq q).st = 3 ∧ (t.seq q).waiting = true ∧ (t.seq q).arrived = some w.barsel ∧ (t.seq q).released = false ∧
       (t.seq q).pos = (s.seq q).pos)) ∧
     ((s.seq q).st = 3 → (s.seq q).waiting = true → s.curWord q = w →
       (∀ cycles, (if w.opc = 0xA then (s.seq q).released else State.cond s s q w) = true →
         Completes (.waitConditionMet q cycles) s [.one (.seq q)] (fun t =>
           (t.seq q).st = 1 ∧ (t.seq q).waiting = false ∧ (t.seq q).arrived = none ∧ (t.seq q).pos = (s.seq q).nextPos ∧
           (t.seq q).left = none ∧ (t.seq q).cyc = (s.seq q).cyc + BitVec.ofNat 64 (cycles - (s.seq q).waited))) ∧
       ((if w.opc = 0xA then (s.seq q).released else State.cond s s q w) = false →
         Completes (.waitTimeout q) s [.one (.seq q), .pair (seqOff q Reg.seqFlags), .events] (fun t =>
           (t.seq q).st = 1 ∧ (t.seq q).waiting = false ∧ (t.seq q).arrived = none ∧ (t.seq q).pos = (s.seq q).targetPos w ∧
           (t.seq q).cyc = (s.seq q).cyc + BitVec.ofNat 64 (w.imm - (s.seq q).waited) ∧
           (s.retained (seqOff q Reg.seqFlags) = false → t.rdB (seqOff q Reg.seqFlags) 0 = true) ∧
           Posted s t [.one (.seq q), .pair (seqOff q Reg.seqFlags)] (if q.val = 32 then 257 else evLane q 5) 0x07
             (BitVec.ofNat 128 (s.seq q).pc))))) ∧
  (∀ (s : State) (q : SeqId) (w : UWord) (n : Nat), n ≤ 1 →
     (Executes s q 0x6 w n → Completes (.halt q .clean) s (wordFoot q) (fun t =>
       (t.seq q).pend = 0 ∧ (t.seq q).stack = [] ∧ (t.seq q).fault = none ∧
       (q.val = 32 → (t.seq q).st = 0) ∧
       (q.val < 32 → (t.seq q).st = 2 ∧ (t.seq q).holdWhy = .ended ∧ (t.lane q).ended = true ∧ (t.lane q).jump = none))) ∧
     (Executes s q 0x7 w n → Completes (.setreg q .clean) s (.one .plan :: wordFoot q) (fun t =>
       (t.seq q).pos = (s.seq q).nextPos ∧
       (w.imm / 2 ^ 20 = 0 → (t.seq q).gen.xbase = w.imm % 65536) ∧ (w.imm / 2 ^ 20 = 1 → (t.seq q).gen.xmax = w.imm % 65536) ∧
       (w.imm / 2 ^ 20 = 2 → (t.seq q).gen.xstride = w.imm % 65536) ∧ (w.imm / 2 ^ 20 = 3 → (t.seq q).gen.ybase = w.imm % 65536) ∧
       (w.imm / 2 ^ 20 = 4 → (t.seq q).gen.ymax = w.imm % 65536) ∧ (w.imm / 2 ^ 20 = 5 → (t.seq q).gen.ystride = w.imm % 65536) ∧
       (w.imm / 2 ^ 20 = 6 → (t.seq q).gen.zbase = w.imm % 16) ∧ (w.imm / 2 ^ 20 = 7 → (t.seq q).gen.zmax = w.imm % 16) ∧
       (w.imm / 2 ^ 20 = 8 → (t.seq q).gen.bg = w.imm % 65536) ∧ (w.imm / 2 ^ 20 = 9 → (t.seq q).gen.walk = w.imm % 65536) ∧
       (w.imm / 2 ^ 20 = 10 → (t.seq q).tload = w.imm % 2 ^ 20) ∧
       (w.imm / 2 ^ 20 = 11 →
         (w.imm.testBit 0 = true → q.val < 32 → (t.lane q).failLatch = false) ∧ t.plan.ext = (s.plan.ext && !w.imm.testBit 1)) ∧
       (w.imm / 2 ^ 20 ≠ 11 → t.plan = s.plan))) ∧
     (Executes s q 0x8 w n → q.val < 32 → Completes (.seg q .clean) s (wordFoot q) (fun t =>
       (t.seq q).pos = (s.seq q).nextPos ∧ (t.lane q).ring = [] ∧ (t.lane q).ranSeg = true ∧
       (t.lane q).place = { seg := if w.imm.testBit 12 then (s.lane q).cur.next else w.imm % 4096, plays := 0, g := 0 })) ∧
     (Executes s q 0x9 w n → q.val < 32 →
       Completes (.rtbl q .clean) s (.one (.reg (chOff (16 * q + w.imm % 16) Reg.tgScrStgLo + 4 * (w.imm / 16 % 16 / 8))) :: wordFoot q) (fun t =>
         (t.seq q).pos = (s.seq q).nextPos ∧
         t.respEntry (chOff (16 * q + w.imm % 16) Reg.tgScrStgLo) (w.imm / 16 % 16) = w.imm / 256 % 16 ∧
         ∀ j, j < 16 → j ≠ w.imm / 16 % 16 →
           t.respEntry (chOff (16 * q + w.imm % 16) Reg.tgScrStgLo) j = s.respEntry (chOff (16 * q + w.imm % 16) Reg.tgScrStgLo) j)))

/-- LSTART on its first execution, LSTOP, BREL and CWMSG (R128, R140, R143, R263, R264, R409, R414). Faults of the words (R119, R146, R442,
R450): TRAP, and the fetch of any class, in a plan runner too, that finds an uncorrectable error or a retired row. A lane that LSTART names
has one more start to fall, and whether it is idle is judged then (R140). Where the specification leaves open what is
said here, it is the model's choice: log 16, log 64, log 101. -/
def Obligations.MasterWordsAndFaults : Prop :=
  (∀ (s : State) (q : SeqId) (w : UWord) (n : Nat), n ≤ 1 →
     (Executes s q 0xC w n → (s.seq q).left = none →
       Completes (.lstart q .clean) s (wordFoot q ++ [.lanes, .one .plan, .one (.reg Reg.plnState), .regs Reg.flSiteFail (Reg.flSiteFail + 1024),
           .regs Reg.flFirst (Reg.flFirst + 2048), .one .cwy]) (fun t =>
         (t.seq q).pos = (s.seq q).nextPos ∧ t.plan.started = true ∧
         (s.plan.started = false → ∀ k : Fin 64, t.rd (Reg.flSiteFail + 16 * k) = 0 ∧ t.rd (Reg.flSiteIndet + 16 * k) = 0) ∧
         (w.imm.testBit 10 = false → ∀ c : CluId,
           (t.lane c).due = (s.lane c).due + (if (lanesOf w.lanemask).contains c.val then 1 else 0) ∧ (t.lane c).armed = (s.lane c).armed) ∧
         (w.imm.testBit 10 = true →
           (∀ c : CluId, (t.lane c).armed = ((s.lane c).armed || (lanesOf w.lanemask).contains c.val)) ∧ t.plnState = 2 ∧
           (s.rdF Reg.clkStatus 3 2 = 1 →
             t.cwy.sendQ = s.cwy.sendQ ++ (if s.sendRoom then [startMsg] else []) ∧
             t.cwy.sendWait = s.cwy.sendWait ++ (if s.sendRoom then [] else [startMsg])) ∧
           (s.rdF Reg.clkStatus 3 2 = 0 → t.plan.startDue = s.plan.startDue + 1 ∧ t.cwy = s.cwy)))) ∧
     (Executes s q 0xD w n → Completes (.lstop q .clean) s (.seqs :: wordFoot q) (fun t =>
       (t.seq q).pos = (s.seq q).nextPos ∧
       ∀ c : CluId, c.val ≠ q.val → t.seq c = (if (lanesOf w.lanemask).contains c.val && (s.seq c).inPart
         then { s.seq c with pend := (s.seq c).pend ||| 2 } else s.seq c))) ∧
     (Executes s q 0xE w n → Completes (.brel q .clean) s (.seqs :: wordFoot q) (fun t =>
       (t.seq q).pos = (s.seq q).nextPos ∧
       ∀ c : CluId, c.val ≠ q.val →
         (t.seq c).released = ((s.seq c).released || ((lanesOf w.lanemask).contains c.val && (s.seq c).arrived == some w.barsel)) ∧
         (t.seq c).pos = (s.seq c).pos ∧ (t.seq c).arrived = (s.seq c).arrived)) ∧
     (Executes s q 0xF w n → Completes (.cwmsg q .clean) s (.one .cwy :: wordFoot q) (fun t =>
       (t.seq q).pos = (s.seq q).nextPos ∧ t.cwy = { s.cwy with sendQ := s.cwy.sendQ ++ (if (s.seq q).left = none then
         [{ type := w.imm / 2 ^ 20, payload := w.imm % 2 ^ 20, ext := 0, seq := none, up := false, dn := false }] else []) }))) ∧
  (∀ (s : State) (q : SeqId), s.canRun q = true →
     ((s.curWord q).opc = 0xB → s.fetchFault q .clean = none →
       Completes (.trap q .clean) s [.one (.seq q), .one (.reg (seqOff q Reg.seqFault))] (fun t =>
         Faulted s t q 0x02 ∧ (t.seq q).pos = (s.seq q).pos)) ∧
     (∀ ecc, ∀ i ∈ [(Instr.next q ecc, 0x0), (.opcJump q ecc, 0x1), (.call q ecc, 0x2), (.ret q ecc, 0x3), (.loop q ecc, 0x4),
         (.wait q ecc, 0x5), (.halt q ecc, 0x6), (.setreg q ecc, 0x7), (.seg q ecc, 0x8), (.rtbl q ecc, 0x9), (.sync q ecc, 0xA),
         (.trap q ecc, 0xB), (.lstart q ecc, 0xC), (.lstop q ecc, 0xD), (.brel q ecc, 0xE), (.cwmsg q ecc, 0xF)],
       (s.curWord q).opc = i.2 → (s.seq q).left = none → (s.seq q).latched = none →
       (s.rowRetired q ((s.seq q).hooked (s.seq q).pc) = true →
         Completes i.1 s [.one (.seq q), .one (.reg (seqOff q Reg.seqFault))] (fun t => Faulted s t q 0x05)) ∧
       (s.rowRetired q ((s.seq q).hooked (s.seq q).pc) = false → ecc = .double →
         Completes i.1 s [.one (.seq q), .one (.reg (seqOff q Reg.seqFault)), .pair Reg.memFlags, .one (.reg Reg.memEccAddr), .events] (fun t =>
           Faulted s t q 0x01 ∧ t.rdB Reg.memFlags 0 = true))))

/-- TIMER_EXPIRE (R132), the hold of a lane that finds no room (R123), the hold for a fetch that a borrowed window delays (R122, R448),
HOLD_RELEASE (R122, R123) and JUMP_GRANT (R177). INTERRUPT_ACCEPT (R141 to R146, R173, R174): the highest line that is due is accepted: FAULT
and STOP end the part, or go to a hook, and the other lines push a frame, with what a wait has counted, and go to their vectors, whose first
word a handler latch holds. SEQ_CYC counts the wait or the hold up to the acceptance. Where the specification leaves open what is said here, it is the model's choice: log 16. -/
def Obligations.TimersHoldsAndInterrupts : Prop :=
  (∀ (s : State) (q : SeqId),
     ((s.seq q).timerOn = true → Completes (.timerExpire q) s [.one (.seq q)] (fun t =>
       (t.seq q).timer = 0 ∧ (t.seq q).timerOn = false ∧ (t.seq q).tmr = true ∧ (t.seq q).pos = (s.seq q).pos)) ∧
     (s.canRun q = true → (s.curWord q).opc = 0 → s.fetchFault q .clean = none → q.val < 32 →
       1024 < (s.lane q).fill + postRoom (s.curWord q) →
       Completes (.next q .clean) s [.one (.seq q)] (fun t =>
         (t.seq q).st = 2 ∧ (t.seq q).holdWhy = .room ∧ (t.seq q).pos = (s.seq q).pos)) ∧
     (s.canRun q = true → (s.curWord q).opc = 0 → s.fetchFault q .delayed = none → (s.seq q).left = none → (s.seq q).latched = none →
       s.windowLent q = true → Completes (.next q .delayed) s [.one (.seq q)] (fun t =>
         (t.seq q).st = 2 ∧ (t.seq q).holdWhy = .fetch ∧ (t.seq q).pos = (s.seq q).pos)) ∧
     (∀ cycles, (s.seq q).st = 2 → (s.seq q).holdWhy = .fetch ∨
         ((s.seq q).holdWhy = .room ∧ (s.lane q).fill + postRoom (s.curWord q) ≤ 1024) ∨ ((s.seq q).holdWhy = .send ∧ s.sendRoom = true) →
       Completes (.holdRelease q cycles) s [.one (.seq q)] (fun t =>
         (t.seq q).st = 1 ∧ (t.seq q).pos = (s.seq q).pos ∧ (t.seq q).cyc = (s.seq q).cyc + BitVec.ofNat 64 cycles)) ∧
     (∀ (c : CluId) (m cycles : Nat), c.val = q.val → (s.lane c).jump = some m → (s.seq q).st = 1 ∨ (s.seq q).st = 2 ∨ (s.seq q).st = 3 →
       (s.seq q).holdWhy ≠ .ended → s.jumpDue c = true →
       ((s.seq q).stack.length < 16 → (s.seq q).hookOf 0x30 = none →
         Completes (.jumpGrant ⟨c, cycles⟩) s [.one (.seq q), .one (.lane c), .one (.reg (cluOff c Reg.plnJumpCnt))] (fun t =>
           (t.lane c).place = { seg := m, plays := 0, g := 0 } ∧ (t.lane c).ring = [] ∧ (t.lane c).jump = none ∧
           (t.lane c).granted = false ∧ (t.seq q).cyc = (s.seq q).cyc + BitVec.ofNat 64 (pauseCycles (s.seq q) cycles + 3) ∧
           t.rdF (cluOff c Reg.plnJumpCnt) 31 16 = min (s.rdF (cluOff c Reg.plnJumpCnt) 31 16 + 1) 65535)) ∧
       (∀ a, (s.seq q).stack.length < 16 → (s.seq q).hookOf 0x30 = some a →
         Completes (.jumpGrant ⟨c, cycles⟩) s [.one (.seq q), .one (.lane c), .one (.reg (cluOff c Reg.plnJumpCnt))] (fun t =>
           (t.seq q).pos = .word a ∧ (t.lane c).jump = none ∧ (t.lane c).place = (s.lane c).place)) ∧
       (16 ≤ (s.seq q).stack.length → Completes (.jumpGrant ⟨c, cycles⟩) s [.one (.seq q), .one (.reg (seqOff q Reg.seqFault))] (fun t =>
         Faulted s t q 0x03)))) ∧
  (∀ (s : State) (q : SeqId) (cycles : Nat), (s.seq q).st = 1 ∨ (s.seq q).st = 2 ∨ (s.seq q).st = 3 → (s.seq q).holdWhy ≠ .ended →
     ((s.seq q).dueLine = some 0 →
       ((s.seq q).hookOf 0x10 = none →
         Completes (.interruptAccept ⟨q, cycles⟩) s [.seqs, .lanes, .one .plan, .one (.reg Reg.plnState), .pair (seqOff q Reg.seqFlags), .events] (fun t =>
           t.plan.faulted = true ∧ (s.retained (seqOff q Reg.seqFlags) = false → t.rdB (seqOff q Reg.seqFlags) 1 = true) ∧ (q.val < 32 → (t.lane q).ended = true) ∧
           (q.val = 32 ∨ (s.seq 32).st ≠ 4 → (t.seq 32).st = 0))) ∧
       (∀ a, (s.seq q).hookOf 0x10 = some a → Completes (.interruptAccept ⟨q, cycles⟩) s [.one (.seq q)] (fun t =>
         (t.seq q).pos = .word a ∧ (t.seq q).inFault = true ∧ (t.seq q).latched = some 0 ∧ (t.seq q).pend.getLsbD 0 = false ∧ (t.seq q).stack = (s.seq q).stack))) ∧
     ((s.seq q).dueLine = some 1 → (s.seq q).stack.length < 16 →
       ((s.seq q).hookOf 0x20 = none →
         (q.val < 32 → Completes (.interruptAccept ⟨q, cycles⟩) s [.one (.seq q), .one (.lane q)] (fun t =>
           (t.lane q).ended = true ∧ (t.lane q).jump = none ∧ (t.seq q).st = 2 ∧ (t.seq q).holdWhy = .ended ∧ (t.seq q).pend = 0)) ∧
         (q.val = 32 → Completes (.interruptAccept ⟨q, cycles⟩) s [.seqs, .lanes, .one .plan, .one (.reg Reg.plnState)] (fun t =>
           t.plan.stopped = true ∧ (t.seq 32).st = 0))) ∧
       (∀ a, (s.seq q).hookOf 0x20 = some a → Completes (.interruptAccept ⟨q, cycles⟩) s [.one (.seq q), .one (.lane q)] (fun t =>
         (t.seq q).pos = .word a ∧ ∃ f : Frame, (t.seq q).stack = f :: (s.seq q).stack ∧ f.line = some 1 ∧ f.pos = (s.seq q).pos))) ∧
     (∀ n, (s.seq q).dueLine = some n → n = 3 ∨ n = 4 → (q.val < 32 → s.jumpDue q = false) →
       ((s.seq q).stack.length < 16 → Completes (.interruptAccept ⟨q, cycles⟩) s [.one (.seq q)] (fun t =>
         (t.seq q).st = 1 ∧ (t.seq q).pend.getLsbD n = false ∧ (t.seq q).latched = some n ∧ (t.seq q).cyc = (s.seq q).cyc + BitVec.ofNat 64 (pauseCycles (s.seq q) cycles + 3) ∧
         (t.seq q).pos = .word (if n = 3 then fieldOf (s.rd (seqOff q Reg.seqIvec)) 13 0 else fieldOf (s.rd (seqOff q Reg.seqIvec)) 29 16) ∧
         ∃ f : Frame, (t.seq q).stack = f :: (s.seq q).stack ∧ f.line = some n ∧ f.pos = (s.seq q).pos ∧ f.left = (s.seq q).left ∧
           f.waiting = (s.seq q).waiting ∧ f.arrived = (s.seq q).arrived ∧
           f.waited = (if (s.seq q).waiting then max (s.seq q).waited cycles else (s.seq q).waited))) ∧
       (16 ≤ (s.seq q).stack.length → Completes (.interruptAccept ⟨q, cycles⟩) s [.one (.seq q), .one (.reg (seqOff q Reg.seqFault))] (fun t =>
         Faulted s t q 0x03))))

/-- RUN (R156, R157, R170, R192): the plan is resolved and checked in order; it is refused with the first status that applies, or it loads and
the command stays in the foreground, PLN_SEG and PLN_PLAY as they were until a lane starts (R194). STAGE (R157, R158, R433): its refusals,
which leave every slot and the DRAM as they were, the slot that is emptied, and the plan that is stored and held by one slot only. Where
the specification leaves open what is said here, it is the model's choice: log 34, log 35, log 92, log 104. -/
def Obligations.PlansAreStagedAndLoad : Prop :=
  (∀ (s : State) (c : Cmd) (rest : List Cmd), Front s 0x01 c rest → badFields c = false →
     ∀ u : State, u = ({ s with hst := { s.hst with fetched := rest } } : State).wrF Reg.plnResult 25 16 (c.arg0 % 1024) →
     (u.planOf (c.arg0 % 1024) = none → Completes .run s [.completion, .one (.reg Reg.plnResult)] (fun t =>
       Finishes s t c rest 1 0 0 ∧ t.rdF Reg.plnResult 7 0 = 1 ∧ t.rdF Reg.plnResult 25 16 = c.arg0 % 1024)) ∧
     (∀ p, u.planOf (c.arg0 % 1024) = some p →
       ((u.loadCheck p).2 ≠ 0 →
         Completes .run s [.completion, .one (.reg Reg.plnResult), .one (.reg Reg.plnBw), .cluReg Reg.tgRefuse] (fun t =>
           Finishes s t c rest (u.loadCheck p).2 0 0 ∧ t.rdF Reg.plnResult 7 0 = (u.loadCheck p).2 % 256)) ∧
       ((u.loadCheck p).2 = 0 →
         Completes .run s [.completion, .one (.reg Reg.plnResult), .one (.reg Reg.plnBw), .one (.reg Reg.plnState), .one .plan, .lanes, .seqs,
             .chans, .cluReg Reg.plnSluicePos, .cluReg Reg.plnCache, .chReg Reg.tgScrSrc, .chReg Reg.tgWin, .cluPair Reg.tgScrmaskLo,
             .cluPair Reg.tgSetmaskLo, .cluRegs Reg.tgPeriod (Reg.tgPeriod + 256), .chRegs Reg.tgMode0 (Reg.tgMode0 + 64), .cluReg Reg.seqIvec,
             .cluReg Reg.seqSrcMask, .cluRegs Reg.seqRole0 (Reg.seqRole0 + 16), .cluRegs Reg.seqXscr0 (Reg.seqXscr0 + 16), .chReg Reg.tiaLine,
             .one (.reg Reg.memRetWakes), .one (.reg Reg.memRetState), .one .refills, .one .timing] (fun t =>
           t.hst.fg = some c ∧ t.hst.fetched = rest ∧ t.plan.loading = some c ∧ t.plnState = 1 ∧ t.plnNumber = c.arg0 % 1024 ∧
           t.rdB Reg.plnState 16 = p.slot.isSome ∧ t.rdF Reg.plnResult 7 0 = 0 ∧
           t.plan.lanes = BitVec.ofNat 32 (u.planLe p 0xC 4) ∧ t.plan.abort = (u.planLe p 0x10 4).testBit 0 ∧ t.plan.faulted = false ∧
           t.plan.stopped = false ∧
           ∀ k ∈ u.planLanes p, (t.lane k).table = u.segs p k ∧ (t.lane k).place = { seg := u.laneDir p k 0xA 2, plays := 0, g := 0 } ∧
             (t.lane k).jump = none ∧ (t.lane k).due = 0 ∧ (t.lane k).was = some (s.lane k).segView ∧ t.rdB Reg.memRetState k = false)))) ∧
  (∀ (s : State) (c : Cmd) (rest : List Cmd) (data : Option (List Byte)), Front s 0x03 c rest → badFields c = false → c.cutOff = true →
     Completes (.stage data) s [.completion] (fun t => Finishes s t c rest St.dmaError 0 0)) ∧
  (∀ (s : State) (c : Cmd) (rest : List Cmd) (data : Option (List Byte)), Front s 0x03 c rest → badFields c = false → c.cutOff = false →
     (0x40000 < c.len → Completes (.stage data) s [.completion] (fun t => Finishes s t c rest 0x03 0 0)) ∧
     (c.len ≤ 0x40000 → s.slotRuns (c.arg0 % 64) = true → Completes (.stage data) s [.completion] (fun t => Finishes s t c rest St.busy 0 0)) ∧
     (c.len ≤ 0x40000 → s.slotRuns (c.arg0 % 64) = false →
       (c.len = 0 → Completes (.stage data) s [.completion, .pair Reg.plnSlotLo, .one .plan] (fun t =>
         Finishes s t c rest St.ok 0 0 ∧ Tbl.get (fun _ => 0) t.plan.slots (c.arg0 % 64) = 0 ∧
         ∀ i, i ≠ c.arg0 % 64 → Tbl.get (fun _ => 0) t.plan.slots i = Tbl.get (fun _ => 0) s.plan.slots i)) ∧
       (c.len ≠ 0 → Completes (.stage none) s [.completion] (fun t => Finishes s t c rest St.dmaError 0 0)) ∧
       (∀ d : List Byte, d.length = 16 * c.len → c.len ≠ 0 →
         ∀ u p, u = ({ s with hst := { s.hst with fetched := rest } } : State).dramWr (slotBase (c.arg0 % 64)) d →
           p = ({ base := slotBase (c.arg0 % 64), len := 16 * c.len, slot := some (c.arg0 % 64) } : PlanRef) →
         (u.planFormatBad p = true ∨ (u.planLe p 8 4 + 15) / 16 ≠ c.len →
           Completes (.stage (some d)) s [.completion] (fun t => Finishes s t c rest 0x02 0 0)) ∧
         (u.planFormatBad p = false → (u.planLe p 8 4 + 15) / 16 = c.len →
           (∃ i, i < 64 ∧ i ≠ c.arg0 % 64 ∧ Tbl.get (fun _ => 0) s.plan.slots i = u.planLe p 6 2 + 1 ∧ s.slotRuns i = true) →
           Completes (.stage (some d)) s [.completion] (fun t => Finishes s t c rest St.busy 0 0)) ∧
         (u.planFormatBad p = false → (u.planLe p 8 4 + 15) / 16 = c.len →
           (∀ i, i < 64 → i ≠ c.arg0 % 64 → Tbl.get (fun _ => 0) s.plan.slots i = u.planLe p 6 2 + 1 → s.slotRuns i = false) →
           Completes (.stage (some d)) s [.completion, .pair Reg.plnSlotLo, .one .plan, .dram (slotBase (c.arg0 % 64)) (16 * c.len)] (fun t =>
             Finishes s t c rest St.ok 0 0 ∧ t.dramRd (slotBase (c.arg0 % 64)) (16 * c.len) = d ∧
             Tbl.get (fun _ => 0) t.plan.slots (c.arg0 % 64) = u.planLe p 6 2 + 1 ∧
             Tbl.get (fun _ => 0) t.plan.lens (c.arg0 % 64) = 16 * c.len ∧
             ∀ i, i < 64 → i ≠ c.arg0 % 64 → Tbl.get (fun _ => 0) t.plan.slots i =
               (if Tbl.get (fun _ => 0) s.plan.slots i = u.planLe p 6 2 + 1 then 0 else Tbl.get (fun _ => 0) s.plan.slots i))))))

/-- MASTER_START, STOP and JUMP (R141, R170, R174, R175, R434): the master's part starts and RUN completes or waits for the plan's end; STOP
reaches the master; a jump request is latched in each lane of the mask that is not idle and has the segment. ALIGNED_START and
ALIGNED_START_TIMEOUT (R414, R415), LANE_IDLE (R173) and PLAN_END (R174, R284, R413). Where the specification leaves open what is said
here, it is the model's choice: log 37, log 38, log 94, log 101. -/
def Obligations.PlansStartJumpStopAndEnd : Prop :=
  (∀ (s : State) (c : Cmd) (rest : List Cmd),
     (∀ us : W32, s.plan.loading = some c →
       Completes (.masterStart us) s [.completion, .one .plan, .one (.seq 32), .one (.reg Reg.plnState), .one (.reg Reg.plnLoadUs)] (fun t =>
         t.plnState = 3 ∧ t.rd Reg.plnLoadUs = us ∧ t.plan.loading = none ∧ (t.seq 32).st = 1 ∧
         (t.seq 32).pos = (if s.plan.entry.isSome then .runner else .dflt 0) ∧ (t.seq 32).store = (s.seq 32).store ∧
         (t.seq 32).latches = (s.seq 32).latches ∧
         (c.flags % 2 = 1 → Accepted s t c s.hst.fetched) ∧ (c.flags % 2 = 0 → Finishes s t c s.hst.fetched St.ok 0 0))) ∧
     (Front s 0x02 c rest → badFields c = false →
       (s.planBusy = false → Completes .stop s [.completion] (fun t => Finishes s t c rest St.ok 0 0)) ∧
       (s.planBusy = true → (s.seq 32).inPart = true → Completes .stop s [.completion, .one (.seq 32)] (fun t =>
         Finishes s t c rest St.ok 0 0 ∧ t.seq 32 = { s.seq 32 with pend := (s.seq 32).pend ||| 2 })) ∧
       (s.planBusy = true → (s.seq 32).inPart = false →
         Completes .stop s [.completion, .seqs, .lanes, .one .plan, .one (.reg Reg.plnState)] (fun t =>
           Finishes s t c rest St.ok 0 0 ∧ t.plan.stopped = true ∧ t.plan.startDue = 0 ∧
           ∀ k : CluId, s.plan.lanes.getLsbD k.val = true →
             (t.lane k).due = 0 ∧ (t.lane k).armed = false ∧
             (t.seq k).pend = (if (s.seq k).inPart then (s.seq k).pend ||| 2 else (s.seq k).pend)))) ∧
     (Front s 0x04 c rest → badFields c = false →
       Completes .jump s [.completion, .lanes, .cluPair Reg.plnFlags, .cluReg Reg.plnJump, .cluReg Reg.plnJumpCnt] (fun t =>
         Finishes s t c rest St.ok 0 0 ∧
         ∀ k : CluId,
           (t.lane k).jump = (if c.arg0.testBit k.val ∧ s.laneIdle k = false ∧ c.arg1 % 4096 < (s.lane k).table.length
             then some (c.arg1 % 4096) else (s.lane k).jump) ∧
           (c.arg0.testBit k.val = true → s.laneIdle k = false → (s.lane k).table.length ≤ c.arg1 % 4096 →
             s.retained (cluOff k Reg.plnFlags) = false → t.rdB (cluOff k Reg.plnFlags) 2 = true)))) ∧
  (∀ s : State,
     (∀ cycle, s.plan.startDue ≠ 0 → (∀ c : CluId, (s.lane c).armed = true → (s.lane c).formQ = []) →
       Completes (.alignedStart cycle) s [.one .plan, .lanes, .seqs, .clus, .chans, .one (.reg Reg.plnState), .cluReg Reg.ddsStatus,
           .chReg Reg.tgQueue, .chReg Reg.flChFail, .chReg Reg.tgScrActLo, .chReg Reg.tgScrActHi, .chReg Reg.tgScrStgLo, .chReg Reg.tgScrStgHi,
           .cluReg Reg.plnGapCnt, .cluReg Reg.plnGapFirstLo, .cluReg Reg.plnGapFirstHi, .cluReg Reg.plnGapLenLo, .cluReg Reg.plnGapLenHi,
           .cluReg Reg.flRecWr, .cluReg Reg.flRecLost, .cluReg Reg.flQueue, .cluReg Reg.ddsMarkCnt, .cluReg Reg.ddsGranLo,
           .cluReg Reg.ddsGranHi] (fun t =>
         t.plan.startDue = s.plan.startDue - 1 ∧ (s.plnState = 2 → t.plnState = 3) ∧
         (∀ c : CluId, (t.lane c).armed = false) ∧
         (∀ c : CluId, (s.lane c).armed = true → (s.seq c).st = 0 → (s.lane c).live = false →
           (t.lane c).live = true ∧ (t.lane c).pad = cycle + 1536 ∧ (t.seq c).st = 1 ∧ (t.lane c).was = none) ∧
         (∀ c : CluId, (s.lane c).armed = false → t.lane c = s.lane c ∧ t.seq c = s.seq c))) ∧
     ((∃ c : CluId, (s.lane c).armed = true) → Completes .alignedStartTimeout s [.seqs, .lanes, .one .plan, .one (.reg Reg.plnState),
         .pair Reg.cwyFlags] (fun t =>
       t.plan.stopped = true ∧ t.plan.startDue = 0 ∧ t.rdB Reg.cwyFlags 3 = true ∧ ((s.seq 32).st ≠ 4 → (t.seq 32).st = 0) ∧
       ∀ c : CluId, s.plan.lanes.getLsbD c.val = true → (t.lane c).armed = false)) ∧
     (∀ c : CluId, (s.lane c).live = true → (s.lane c).ended = true → (s.lane c).fill = 0 → (s.lane c).issued % 64 = 0 → (s.seq c).st ≠ 4 →
       Completes (.laneIdle c) s [.one (.seq c), .one (.lane c), .one (.reg (cluOff c Reg.ddsStatus))] (fun t =>
         (t.lane c).live = false ∧ (t.lane c).queue = [] ∧ (t.seq c).st = 0 ∧ (t.seq c).holdWhy = .none ∧
         (t.lane c).due = (s.lane c).due ∧ (t.lane c).jump = (if (s.lane c).due = 0 then none else (s.lane c).jump))) ∧
     (s.planOver = true → Completes .planEnd s [.completion, .one .cwy, .one (.reg Reg.plnState), .one (.reg Reg.plnResult),
         .pair Reg.flSumFailLo, .pair Reg.flSumUnrepLo, .pair Reg.flSumIncLo] (fun t =>
       t.plnState = 0 ∧ t.rdF Reg.plnResult 11 8 = s.plan.endStatus ∧
       t.rd64 Reg.flSumFailLo = s.siteBits (fun k => decide (s.rd (Reg.flSiteFail + 16 * k) ≠ 0)) ∧
       t.rd64 Reg.flSumUnrepLo = s.siteBits (fun k => s.rdB (Reg.flSiteStatus + 16 * k) 2) ∧
       t.rd64 Reg.flSumIncLo = s.siteBits (fun k => s.rdB (Reg.flSiteStatus + 16 * k) 3) ∧
       BgEnded s t 0x01 St.ok s.plan.endStatus ∧ t.cwy.sendQ.length ≤ max s.cwy.sendQ.length 16 ∧
       (t.cwy.sendQ ++ t.cwy.sendWait).map (fun m => (m.type, m.payload)) = (s.cwy.sendQ ++ s.cwy.sendWait).map (fun m => (m.type, m.payload)) ++
         [(9, s.plnNumber), (9, s.plnNumber + 1024), (9, s.plnNumber + 2048)])))

/-- STREAM, STREAM_BLOCK_POST and CREDIT_TIMEOUT (R184, R432, R433). A sluice ring and the refill of a lane (R180, R183 to R185): a post takes
credits and moves NEXT_POST, or sets its flag; a block requested moves the prediction on and waits in the queue of its DRAM channel, and the
oldest one of a channel arrives and enters the stream ring (R40); a credit comes back; a new base or size resets the ring. A STREAM ends with
its completion. Where the specification leaves open what is said here, it is the model's choice: log 63, log 92, log 104. -/
def Obligations.StreamsAndSluices : Prop :=
  (∀ (s : State) (c : Cmd) (rest : List Cmd) (l : CluId),
     (Front s 0x05 c rest → badFields c = false → c.cutOff = true →
       Completes .stream s [.completion] (fun t => Finishes s t c rest St.dmaError 0 0)) ∧
     (Front s 0x05 c rest → badFields c = false → c.cutOff = false → c.arg0 % 32 = l.val →
       (s.rdF (cluOff l Reg.plnSluiceSize) 8 0 = 0 → Completes .stream s [.completion] (fun t => Finishes s t c rest St.noRing 0 0)) ∧
       (s.rdF (cluOff l Reg.plnSluiceSize) 8 0 ≠ 0 → c.len % 4096 ≠ 0 →
         Completes .stream s [.completion] (fun t => Finishes s t c rest St.lengthAlign 0 0)) ∧
       (s.rdF (cluOff l Reg.plnSluiceSize) 8 0 ≠ 0 → c.len % 4096 = 0 →
         (s.streaming l = true → Completes .stream s [.completion] (fun t => Finishes s t c rest St.busy 0 0)) ∧
         (s.streaming l = false → c.len = 0 → Completes .stream s [.completion] (fun t => Finishes s t c rest St.ok 0 0)) ∧
         (s.streaming l = false → c.len ≠ 0 → Completes .stream s [.completion] (fun t => Accepted s t c rest)))) ∧
     (s.streaming l = true → s.rdF (cluOff l Reg.plnSluice) 24 16 ≠ 0 →
       (∀ d : List Byte, d.length = 65536 → Completes (.streamBlockPost l (some d)) s [.completion, .one (.lane l),
           .one (.reg (cluOff l Reg.plnSluicePos)), .one (.reg (cluOff l Reg.plnSluice)),
           .dram (s.rdF Reg.memVecBase 14 0 * mib + 256 * (s.rdF (cluOff l Reg.plnSluiceBase) 25 0 +
             256 * s.rdF (cluOff l Reg.plnSluicePos) 7 0)) 65536] (fun t =>
         t.dramRd (s.rdF Reg.memVecBase 14 0 * mib + 256 * (s.rdF (cluOff l Reg.plnSluiceBase) 25 0 +
           256 * s.rdF (cluOff l Reg.plnSluicePos) 7 0)) 65536 = d ∧
         t.rdF (cluOff l Reg.plnSluice) 24 16 = s.rdF (cluOff l Reg.plnSluice) 24 16 - 1 ∧
         (t.lane l).slBlocks = (s.lane l).slBlocks + 1 ∧
         ((∃ b ∈ s.hst.bg, b.cmd.opcode = 0x05 ∧ b.cmd.arg0 % 32 = l.val ∧ b.cmd.len / 4096 ≤ b.posted + 1) → StreamEnded s t l St.ok 1) ∧
         ((∀ b ∈ s.hst.bg, b.cmd.opcode = 0x05 → b.cmd.arg0 % 32 = l.val → b.posted + 1 < b.cmd.len / 4096) → t.streaming l = true))) ∧
       Completes (.streamBlockPost l none) s [.completion] (fun t => StreamEnded s t l St.dmaError 0)) ∧
     (s.streaming l = true → s.rdF (cluOff l Reg.plnSluice) 24 16 = 0 →
       Completes (.creditTimeout l) s [.completion] (fun t => StreamEnded s t l St.creditTimeout 0))) ∧
  (∀ (s : State) (c : CluId) (v : W32), s.boot.stage ≠ .off →
     (s.reaches (cluOff c Reg.plnSluice) = true →
       (fieldOf v 8 0 ≠ 0 → s.streaming c = false → fieldOf v 8 0 ≤ s.rdF (cluOff c Reg.plnSluice) 24 16 →
         Completes (.sluicePost c v) s [.one (.lane c), .one (.reg (cluOff c Reg.plnSluicePos)), .one (.reg (cluOff c Reg.plnSluice))] (fun t =>
           t.rdF (cluOff c Reg.plnSluice) 24 16 = s.rdF (cluOff c Reg.plnSluice) 24 16 - fieldOf v 8 0 ∧
           (t.lane c).slBlocks = (s.lane c).slBlocks + fieldOf v 8 0 ∧
           (2 ≤ s.rdF (cluOff c Reg.plnSluiceSize) 8 0 → s.rdF (cluOff c Reg.plnSluiceSize) 8 0 ≤ 256 →
             t.rdF (cluOff c Reg.plnSluicePos) 7 0 =
               (s.rdF (cluOff c Reg.plnSluicePos) 7 0 + fieldOf v 8 0) % s.rdF (cluOff c Reg.plnSluiceSize) 8 0))) ∧
       (fieldOf v 8 0 ≠ 0 → s.streaming c = true ∨ s.rdF (cluOff c Reg.plnSluice) 24 16 < fieldOf v 8 0 →
         Completes (.sluicePost c v) s [.pair (cluOff c Reg.plnFlags)] (fun t =>
           s.retained (cluOff c Reg.plnFlags) = false → t.rdB (cluOff c Reg.plnFlags) 1 = true)) ∧
       (fieldOf v 8 0 = 0 → Completes (.sluicePost c v) s [] (fun _ => True))) ∧
     ((s.lane c).creditDue ≠ 0 →
       Completes (.sluiceCreditReturn c) s [.one (.lane c), .one (.reg (cluOff c Reg.plnSluice))] (fun t =>
         (t.lane c).creditDue = (s.lane c).creditDue - 1 ∧
         t.rdF (cluOff c Reg.plnSluice) 24 16 = (s.rdF (cluOff c Reg.plnSluice) 24 16 + 1) % 512)) ∧
     (∀ size : Bool, s.reaches (cluOff c (if size then Reg.plnSluiceSize else Reg.plnSluiceBase)) = true →
       (s.planBusy = true → s.plan.lanes.getLsbD c.val = true →
         Completes (.plnSluiceConfigWrite c size v) s [.pair (cluOff c Reg.plnFlags)] (fun t =>
           s.retained (cluOff c Reg.plnFlags) = false → t.rdB (cluOff c Reg.plnFlags) 3 = true)) ∧
       (s.planBusy = false ∨ s.plan.lanes.getLsbD c.val = false →
         Completes (.plnSluiceConfigWrite c size v) s [.one (.lane c), .one (.reg (cluOff c Reg.plnSluice)),
             .one (.reg (cluOff c Reg.plnSluicePos)), .one (.reg (cluOff c (if size then Reg.plnSluiceSize else Reg.plnSluiceBase)))] (fun t =>
           (size = true → t.rd (cluOff c Reg.plnSluiceSize) = v &&& 0x1FF) ∧
           (size = false → t.rd (cluOff c Reg.plnSluiceBase) = v &&& 0x3FFFFFF) ∧
           t.rdF (cluOff c Reg.plnSluice) 24 16 = t.rdF (cluOff c Reg.plnSluiceSize) 8 0 ∧ t.rd (cluOff c Reg.plnSluicePos) = 0 ∧
           (t.lane c).slBlocks = 0 ∧ (t.lane c).creditDue = 0))) ∧
     (∀ gs p, s.refillBlock c = some (gs, p) →
       ((s.lane c).ringFill + gs.length ≤ s.ringSize c →
         Completes (.refillBlockRequest c) s [.one (.lane c), .one .refills, .one (.reg (cluOff c Reg.plnSluicePos))] (fun t =>
           (t.lane c).pred = some p ∧ ∃ r : Refill, (t.lane c).inflight = (s.lane c).inflight ++ [r] ∧ r.grans = gs ∧ r.dropped = false ∧
             r.chan = granuleChan ((gs.head?.map (fun g => g.addr)).getD 0) ∧ t.mem.dramQ = s.mem.dramQ ++ [(r.chan, c.val)])) ∧
       (s.ringSize c < (s.lane c).ringFill + gs.length → Completes (.refillBlockRequest c) s [] (fun _ => True))) ∧
     (∀ r l, (s.lane c).inflight = r :: l →
       (s.oldestIs r.chan c = true → Completes (.refillBlockArrive c) s [.one (.lane c), .one .refills] (fun t =>
         (t.lane c).inflight = l ∧ (t.lane c).creditDue = (s.lane c).creditDue + r.credits ∧ t.mem.dramQ = dropFirst (r.chan, c.val) s.mem.dramQ ∧
         (t.lane c).ring = (s.lane c).ring ++ (if r.dropped then [] else r.grans))) ∧
       (s.oldestIs r.chan c = false → Completes (.refillBlockArrive c) s [] (fun _ => True))))

/-- What a lane start leaves in the lane, its sequencer and its registers (R132, R133, R140, R171, R263). VECTOR_ISSUE (R30, R123, R124, R167
to R169, R190, R196, R212, R442, R443): the vector at the front of the queue, behind its marker if it has one, takes the lane's next
number and starts at T, in its lane word, and T moves on by the period of its timing set in 64 bits; an empty queue gives, under HOLD, a
keep-alive vector of a gap up to the next 64-vector boundary (R189), and after the part's end keep-alive vectors to that boundary and then
nothing. A start that falls on a lane that is not idle is ignored. Where the specification leaves open what is said here, it is the model's
choice: log 36, log 38, log 63, log 93, log 94, log 96. -/
def Obligations.LanesStartAndIssue : Prop :=
  (∀ (s : State) (c : CluId) (cycle : Nat),
     ((s.lane c).due ≠ 0 → (s.lane c).formQ = [] → (s.seq c).st = 0 → (s.lane c).live = false → (s.lane c).armed = false →
       Completes (.laneStart c cycle) s [.one (.lane c), .one (.seq c), .one (.clu c), .chans, .chReg Reg.tgQueue, .chReg Reg.flChFail,
           .chReg Reg.tgScrActLo, .chReg Reg.tgScrActHi, .chReg Reg.tgScrStgLo, .chReg Reg.tgScrStgHi,
           .one (.reg (cluOff c Reg.ddsStatus)), .one (.reg (cluOff c Reg.plnGapCnt)), .one (.reg (cluOff c Reg.plnGapFirstLo)),
           .one (.reg (cluOff c Reg.plnGapFirstHi)), .one (.reg (cluOff c Reg.plnGapLenLo)), .one (.reg (cluOff c Reg.plnGapLenHi)),
           .one (.reg (cluOff c Reg.flRecWr)), .one (.reg (cluOff c Reg.flRecLost)), .one (.reg (cluOff c Reg.flQueue)),
           .one (.reg (cluOff c Reg.ddsMarkCnt)), .one (.reg (cluOff c Reg.ddsGranLo)), .one (.reg (cluOff c Reg.ddsGranHi))] (fun t =>
         (t.lane c).live = true ∧ (t.lane c).due = (s.lane c).due - 1 ∧ (t.lane c).jump = (s.lane c).jump ∧ (t.lane c).was = none ∧
         (t.lane c).ended = false ∧ (t.lane c).issued = 0 ∧ (t.lane c).queue = [] ∧
         (t.lane c).place = { seg := (s.lane c).entrySeg, plays := 0, g := 0 } ∧ (t.lane c).pad = cycle + 1536 ∧
         (t.seq c).st = 1 ∧ (t.seq c).pos = .runner ∧ (t.seq c).gen = genReset ∧ (t.seq c).flags = 0 ∧ (t.seq c).stack = [] ∧
         (t.seq c).store = (s.seq c).store ∧
         t.rd (cluOff c Reg.flRecWr) = 0 ∧ t.rd (cluOff c Reg.plnGapCnt) = 0 ∧
         (∀ n : ChId, n.val / 16 = c.val → t.rd (chOff n Reg.tgScrActLo) = 0x22222222 ∧ t.rd (chOff n Reg.flChFail) = 0) ∧
         (∀ n : ChId, n.val / 16 ≠ c.val → t.chan n = s.chan n ∧ t.rd (chOff n Reg.flChFail) = s.rd (chOff n Reg.flChFail)))) ∧
     ((s.lane c).due ≠ 0 → (s.lane c).formQ = [] → ((s.seq c).st ≠ 0 ∨ (s.lane c).live = true ∨ (s.lane c).armed = true) →
       Completes (.laneStart c cycle) s [.one (.lane c)] (fun t => t.lane c = { s.lane c with due := (s.lane c).due - 1 })) ∧
     ((s.lane c).due = 0 → Completes (.laneStart c cycle) s [] (fun _ => True))) ∧
  (∀ (s : State) (c : CluId), (s.lane c).live = true →
     (∀ v rest, (s.lane c).queue = .vec v :: rest → (s.lane c).fillLeft = 0 →
       Completes (.vectorIssue c .clean) s ([.one (.lane c), .one (.reg (cluOff c Reg.ddsStatus)), .chReg Reg.peWmon,
           .chReg Reg.pmuWmon, .chPair Reg.tgFlags] ++ (if v.gap then gapFoot c else [])) (fun t =>
         (t.lane c).queue = rest ∧ (t.lane c).issued = (s.lane c).issued + 1 ∧ (t.lane c).t = ((s.lane c).t + s.period c v.tset) % 2 ^ 64 ∧
         (t.lane c).inGap = v.gap ∧
         ∃ iv : IssVec, (t.lane c).formQ = (s.lane c).formQ ++ [iv] ∧ iv.no = (s.lane c).issued ∧ iv.t = (s.lane c).t ∧
           iv.tset = v.tset ∧ iv.seg = (s.lane c).place.seg ∧ iv.play = (s.lane c).place.plays ∧ iv.gen = v.gen ∧ iv.masked = s.siteMask ∧
           iv.pad = (s.lane c).pad ∧
           laneFld iv.word 31 0 = v.codes.toNat ∧ laneFld iv.word 47 32 = v.map % 65536 ∧ laneFld iv.word 53 48 = v.tset % 64 ∧
           laneFld iv.word 63 54 = 0 ∧
           ∀ k : Fin 16, mapPin v.map (codeOf v.codes k) ≠ 0xA → mapPin v.map (codeOf v.codes k) ≠ 0xC →
             iv.pins.getD k 2 = mapPin v.map (codeOf v.codes k))) ∧
     (∀ v rest ldstb scrld src, (s.lane c).queue = .marker ldstb scrld src :: .vec v :: rest → (s.lane c).fillLeft = 0 →
       Completes (.vectorIssue c .clean) s ([.one (.lane c), .one (.reg (cluOff c Reg.ddsStatus)), .chReg Reg.peWmon,
           .chReg Reg.pmuWmon, .chPair Reg.tgFlags, .chReg Reg.tgScrActLo, .chReg Reg.tgScrActHi, .chReg Reg.peStatus,
           .chPair Reg.tgCkmPeriodHi, .chans] ++ (if v.gap then gapFoot c else [])) (fun t =>
         (t.lane c).queue = rest ∧ (t.lane c).issued = (s.lane c).issued + 1 ∧
         (∃ iv : IssVec, (t.lane c).formQ = (s.lane c).formQ ++ [iv] ∧ laneFld iv.word 54 54 = b2n ldstb ∧ laneFld iv.word 55 55 = b2n scrld ∧
           laneFld iv.word 57 56 = src % 4 ∧ laneFld iv.word 63 58 = 0) ∧
         (ldstb = true → (t.lane c).strobes = (s.lane c).strobes ++ [(s.lane c).issued]) ∧
         (scrld = true → ∀ n : ChId, n.val / 16 = c.val →
           t.rd (chOff n Reg.tgScrActLo) = s.rd (chOff n Reg.tgScrStgLo) ∧ t.rd (chOff n Reg.tgScrActHi) = s.rd (chOff n Reg.tgScrStgHi)))) ∧
     ((s.lane c).queue = [] → (s.lane c).fillLeft = 0 → (s.lane c).ended = false → s.plan.abort = false →
       Completes (.vectorIssue c .clean) s ([.one (.lane c), .one (.reg (cluOff c Reg.ddsStatus)), .chReg Reg.peWmon,
           .chReg Reg.pmuWmon, .chPair Reg.tgFlags] ++ gapFoot c) (fun t =>
         (t.lane c).issued = (s.lane c).issued + 1 ∧ (t.lane c).fillLeft = 63 - (s.lane c).issued % 64 ∧ (t.lane c).inGap = true ∧
         t.rd64 (cluOff c Reg.plnGapLenLo) = (s.rd64 (cluOff c Reg.plnGapLenLo) + 1) % 2 ^ 48 ∧
         ((s.lane c).inGap = false → t.plan.gapped = true ∧
           (s.retained (cluOff c Reg.plnFlags) = false → t.rdB (cluOff c Reg.plnFlags) 0 = true) ∧
           (t.rd (cluOff c Reg.plnGapCnt)).toNat = min ((s.rd (cluOff c Reg.plnGapCnt)).toNat + 1) 0xFFFFFFFF))) ∧
     ((s.lane c).fillLeft ≠ 0 → (s.lane c).queue = [] ∨ (∃ v rest, (s.lane c).queue = .vec v :: rest) →
       Completes (.vectorIssue c .clean) s ([.one (.lane c), .one (.reg (cluOff c Reg.ddsStatus)), .chReg Reg.peWmon, .chReg Reg.pmuWmon,
           .chPair Reg.tgFlags] ++ gapFoot c) (fun t =>
         (t.lane c).issued = (s.lane c).issued + 1 ∧ (t.lane c).fillLeft = (s.lane c).fillLeft - 1 ∧ (t.lane c).queue = (s.lane c).queue ∧
         (t.lane c).inGap = true)) ∧
     ((s.lane c).queue = [] → (s.lane c).fillLeft = 0 → (s.lane c).ended = true → (s.lane c).issued % 64 ≠ 0 →
       Completes (.vectorIssue c .clean) s [.one (.lane c), .one (.reg (cluOff c Reg.ddsStatus)), .chReg Reg.peWmon, .chReg Reg.pmuWmon,
           .chPair Reg.tgFlags] (fun t =>
         (t.lane c).issued = (s.lane c).issued + 1 ∧ (t.lane c).fillLeft = 0 ∧ (t.lane c).inGap = false)) ∧
     ((s.lane c).queue = [] → (s.lane c).fillLeft = 0 → (s.lane c).ended = true → (s.lane c).issued % 64 = 0 →
       Completes (.vectorIssue c .clean) s [] (fun _ => True)) ∧
     exec (.vectorIssue c .tableSingle) s = exec (.vectorIssue c .clean) (s.count Reg.memEccCnt 1) ∧
     (∀ r : Fin 512, Completes (.vectorIssue c (.tableDouble r)) s [.seqs, .lanes, .one .plan, .one (.reg Reg.plnState), .pair Reg.memFlags,
         .one (.reg Reg.memEccAddr), .events] (fun t =>
       t.plan.faulted = true ∧ (t.lane c).ended = true ∧ t.rdB Reg.memFlags 0 = true ∧ ((s.seq 32).st ≠ 4 → (t.seq 32).st = 0))))

/-- EDGE_FORMATION (R198, R203, R204, R207 to R209, R211, R311): the next vector of a channel becomes entries of its edge queue, each at its
vector's time plus its edge code, moved later only to keep the spacing rules, which raises TG_FLAGS bit 0, with its placement code and the
delay stage that its line's table gives it; without room the whole vector is lost, with bit 4. EDGE_PLACEMENT (R198, R204 to R206, R210,
R231, R235): the oldest drive edge of a channel is placed by its coarse count and stage and acts on its driver, a secondary's on its
primary's, with pre-emphasis only while the high-speed driver is at the pad with the formatter as its source; an edge that still waits for
its response stays in the queue. Where the specification leaves open what is said here, it is the model's choice: log 39, log 41, log 97. -/
def Obligations.EdgesAreFormedAndPlaced : Prop :=
  (∀ (s : State) (ch : ChId) (iv : IssVec) (n c p fill : Nat) (cells : List Nat) (strobes : List Bool),
     n = ch.val → c = n / 16 → p = s.spacer n →
     (s.lane c).formQ.find? (fun v => v.no == (s.chan n).formed) = some iv → s.canForm n iv = true →
     cells = (s.chan n).driveEntries (fmtOf (s.modeByte n iv.tset)) iv.tset (s.pinOf n iv == 0xC || (driveHalf (s.pinOf n iv)).isSome) →
     strobes = s.strobesOf n iv.tset → fill = (s.chan n).queue.length + cells.length + strobes.length →
     (fill ≤ 256 → Completes (.edgeFormation ch) s [.one (.lane c), .one (.chan n), .one (.chan p), .pair (chOff n Reg.tgFlags),
         .one (.reg (chOff n Reg.tgQueue))] (fun t =>
       (t.chan n).formed = iv.no + 1 ∧
       (t.chan n).scrWait = (s.chan n).scrWait ++ (if s.pinOf n iv = 0xC then [iv] else []) ∧
       t.rdF (chOff n Reg.tgQueue) 24 16 = max (s.rdF (chOff n Reg.tgQueue) 24 16) fill ∧
       ∃ l : List Edge, (t.chan n).queue = (s.chan n).queue ++ l ∧
         l.map Edge.cell = cells ++ strobes.map (fun b => if b then 5 else 4) ∧
         (∀ e ∈ l, e.vec = iv ∧ e.pin = s.pinOf n iv ∧ e.q = e.t + 1024 + s.cellK n e.cell ∧
           (iv.t : Int) + (s.chan n).code iv.tset e.cell ≤ e.t ∧
           e.stage = (s.chan n).stage e.cell e.q ∧
           (e.t ≠ (iv.t : Int) + (s.chan n).code iv.tset e.cell → s.retained (chOff n Reg.tgFlags) = false →
             t.rdB (chOff n Reg.tgFlags) 0 = true)) ∧
         (∀ e ∈ l, e.cell < 4 → ∀ x, (s.chan p).lastDrive = some x → x + s.gapD n ≤ e.t) ∧
         (l.filter (fun e => decide (e.cell < 4))).Pairwise (fun (a b : Edge) => a.t + s.gapD n ≤ b.t) ∧
         (∀ e ∈ l, 4 ≤ e.cell → ∀ x, (s.chan p).lastClose = some x → x + (if s.paired n then 160 else 320) ≤ e.t))) ∧
     (256 < fill → Completes (.edgeFormation ch) s [.one (.lane c), .one (.chan n), .pair (chOff n Reg.tgFlags)] (fun t =>
       (t.chan n).formed = iv.no + 1 ∧ (t.chan n).queue = (s.chan n).queue ∧
       (s.retained (chOff n Reg.tgFlags) = false → t.rdB (chOff n Reg.tgFlags) 4 = true)))) ∧
  (∀ (s : State) (ch : ChId) (e : Edge) (r : List Edge) (n x : Nat), n = ch.val → x = s.spacer n →
     takeFirst (fun e => decide (e.cell < 4)) (s.chan n).queue = some (e, r) →
     (∀ on level load, e.act = .enable on level load → Completes (.edgePlacement ch) s [.one (.chan n), .one (.chan x)] (fun t =>
       (t.chan n).queue = r ∧ (t.chan n).placed = some (e.cell, e.q / 320, e.stage) ∧ (t.chan x).drive = on ∧ (x = n → (t.chan x).loadOn = load) ∧ (x ≠ n → (t.chan x).loadOn = (s.chan x).loadOn) ∧
       (on = true → (t.chan x).level = level.getD (s.chan x).held ∧ (t.chan x).held = level.getD (s.chan x).held ∧
         (t.chan x).tapAt = (if (s.padOn x && !s.padHeld x && s.hsSource x == 0 && !s.lsd x) = true ∧
             ((s.chan x).drive = false ∨ (s.chan x).level ≠ level.getD (s.chan x).held)
           then some (e.padTime, level.getD (s.chan x).held) else (s.chan x).tapAt)) ∧
       (on = false → (t.chan x).level = (s.chan x).level ∧ (t.chan x).held = (s.chan x).held))) ∧
     (∀ v, e.act = .level v → Completes (.edgePlacement ch) s [.one (.chan n), .one (.chan x)] (fun t =>
       (t.chan n).queue = r ∧ (t.chan n).placed = some (e.cell, e.q / 320, e.stage) ∧ (t.chan x).drive = (s.chan x).drive ∧ (t.chan x).level = v ∧ (t.chan x).held = v ∧
       (t.chan x).tapAt = (if (s.padOn x && !s.padHeld x && s.hsSource x == 0 && !s.lsd x) = true ∧ (s.chan x).drive = true ∧
           (s.chan x).level ≠ v then some (e.padTime, v) else (s.chan x).tapAt))) ∧
     (e.act = .open_ → Completes (.edgePlacement ch) s [] (fun _ => True)))

/-- STROBE (R206, R207, R213, R232, R243, R254 to R258, R264, R269, R288): a window strobe leaves the queue at its open, and its result comes at
its close, over the states that it has seen; an edge strobe leaves the queue and samples at once. S0 gives the vector's sense bit where
some channel answers it, and a compare half gives a result: indeterminate, the captured states, or pass or fail by the comparators that serve
the channel. Its line notes the CK_EDGE cycle of the strobe. RESPONSE_LOOKUP (R208, R212 to R216): the oldest SCR vector of a channel is
answered from its response table by its sense bits; its edges take the answer and are moved so that none falls before the last sense and
the fixed latency, and every drive edge keeps its spacing. Where the specification leaves open what is said here, it is the model's choice:
log 39, log 40. -/
def Obligations.StrobesAndResponses : Prop :=
  (∀ (s : State) (ch : ChId) (s1 : Bool) (trace : List CmpPair) (n c cell : Nat), n = ch.val → c = n / 16 → cell = (if s1 then 5 else 4) →
     (∀ (e : Edge) (r : List Edge), takeFirst (fun e => e.cell == cell) (s.chan n).queue = some (e, r) → e.act = .strobe true →
       Completes (.strobe ch s1 true trace) s [.one (.chan n)] (fun t =>
         (t.chan n).queue = r ∧ (t.chan n).watch = (s.chan n).watch ++ [(e, s.indetNow n)] ∧
         (t.chan n).placed = some (e.cell, e.q / 320, e.stage) ∧
         Tbl.get (fun _ => 0) (t.chan n).strobeAt cell = ((e.vec.pad : Int) + e.q / 320 + 1).toNat)) ∧
     (∀ (e : Edge) (ind : Bool), (s.chan n).watch.find? (fun x => x.1.cell == cell) = some (e, ind) → e.act = .strobe true →
       Completes (.strobe ch s1 false trace) s [.one (.chan n), .one (.lane c), .one (.clu c)] (fun t =>
         (t.chan n).queue = (s.chan n).queue ∧ (t.chan n).watch = (s.chan n).watch.eraseP (fun x => x.1.cell == cell) ∧
         StrobeTaken s t n e (e.padTime + s.window n s1) trace ind)) ∧
     (∀ (e : Edge) (r : List Edge), (s.chan n).watch.find? (fun x => x.1.cell == cell) = none →
       takeFirst (fun e => e.cell == cell) (s.chan n).queue = some (e, r) →
       (e.act ≠ .strobe true → Completes (.strobe ch s1 false trace) s [.one (.chan n), .one (.lane c), .one (.clu c)] (fun t =>
         (t.chan n).queue = r ∧ (t.chan n).placed = some (e.cell, e.q / 320, e.stage) ∧
         Tbl.get (fun _ => 0) (t.chan n).strobeAt cell = ((e.vec.pad : Int) + e.q / 320 + 1).toNat ∧
         StrobeTaken s t n e e.padTime [] false)) ∧
       (e.act = .strobe true → Completes (.strobe ch s1 false trace) s [] (fun _ => True)))) ∧
  (∀ (s : State) (ch : ChId) (iv : IssVec) (rest : List IssVec) (n : Nat) (x0 x1 x2 x3 : Bool × Bool × Option Int) (i e p : Nat), n = ch.val →
     (s.chan n).scrWait = iv :: rest → (s.scrSrc n).map (s.senseOf iv) = [some x0, some x1, some x2, some x3] →
     i = b2n x0.1 + 2 * b2n x1.1 + 4 * b2n x2.1 + 8 * b2n x3.1 →
     e = (iv.tables.getD (n % 16) 0x2222222222222222#64).toNat / 16 ^ i % 16 → p = iv.prev.getD (n % 16) 2 →
     Completes (.responseLookup ch) s (.pair (chOff n Reg.tgFlags) :: (chansOf (n / 16)).map (fun m => .one (.chan m))) (fun t =>
       (t.chan n).scrWait = rest ∧ (t.chan n).resp = respHalf e (if p = 0xC then (s.chan n).resp else p) ∧
       (x0.2.1 = true ∨ x1.2.1 = true ∨ x2.2.1 = true ∨ x3.2.1 = true → s.retained (chOff n Reg.tgFlags) = false →
         t.rdB (chOff n Reg.tgFlags) 1 = true) ∧
       ((t.chan n).queue.filter (fun g => decide (g.cell < 4))).Pairwise (fun (a b : Edge) => a.t + s.gapD n ≤ b.t) ∧
       (∀ g ∈ (t.chan n).queue, g.cell < 4 → g.vec.pad = iv.pad → g.vec.no = iv.no → g.act ≠ .open_) ∧
       ((∀ g ∈ (s.chan n).queue, g.cell < 4 → g.vec.pad = iv.pad → g.vec.no = iv.no → g.act = .open_) →
         ∀ g ∈ (t.chan n).queue, g.cell < 4 → g.vec.pad = iv.pad → g.vec.no = iv.no → ∀ y ∈ [x0, x1, x2, x3], ∀ at_, y.2.2 = some at_ →
           at_ + 5735 ≤ g.t)))

/-- A host write of PE_LDSTB and the strobe instant (R222 to R226, R228 to R230, R247, R328): a host strobe is refused in a cluster whose lane is
not idle, and each one taken has an instant of its own; at the instant of a host strobe or a marker every channel captures its staging
set, which becomes the active set unless it breaks a rule; a captured SYNC_LDSTB resets the chain of a rejected set's channel too, and a
ramp that changes restarts also in a pad that is held. A host write of a
staging register of a pin slice (R223): a legal value is taken whole, and another refused whole with PE_FLAGS.VALUE_REJECT. Where the
specification leaves open what is said here, it is the model's choice: log 45, log 99. -/
def Obligations.PinSettingsAreStrobed : Prop :=
  (∀ (s : State) (c : CluId) (v : W32),
     (s.reaches (cluOff c Reg.peLdstb) = true → bitOf v 0 = false → Completes (.hostLoadStrobe c v) s [] (fun _ => True)) ∧
     (s.reaches (cluOff c Reg.peLdstb) = true → bitOf v 0 = true →
       ((s.seq c).st = 0 → s.laneStarting c = false →
         Completes (.hostLoadStrobe c v) s (.one (.clu c) :: wakeFoot c) (fun t =>
           (t.clu c).hostStrobe = (s.clu c).hostStrobe + 1 ∧ t.rdB Reg.memRetState c = false)) ∧
       ((s.seq c).st ≠ 0 ∨ s.laneStarting c = true → s.rdB Reg.memRetState c = false →
         Completes (.hostLoadStrobe c v) s [.pair (cluOff c Reg.peClFlags)] (fun t => t.rdB (cluOff c Reg.peClFlags) 0 = true))) ∧
     (∀ (marker : Bool) (cycle : Nat), (marker = false → (s.clu c).hostStrobe ≠ 0) → (marker = true → (s.lane c).strobes ≠ []) →
       Completes (.loadStrobe ⟨c, marker, cycle⟩) s ((if marker then .one (.lane c) else .one (.clu c)) :: strobeFoot c) (fun t =>
         (marker = false → (t.clu c).hostStrobe = (s.clu c).hostStrobe - 1) ∧ (marker = true → (t.lane c).strobes = (s.lane c).strobes.tail) ∧
         t.rd (cluOff c Reg.peLdstbCnt) = s.rd (cluOff c Reg.peLdstbCnt) + 1 ∧
         ∀ (k : Fin 16) (n : Nat) (l : LevelSet), n = 16 * c + k → l = (s.capture n marker).1 →
           ((s.capture n marker).2 = true → s.retained (chOff n Reg.peFlags) = false → t.rdB (chOff n Reg.peFlags) 2 = true) ∧
           (s.setBad n l = true → (s.retained (chOff n Reg.peFlags) = false → t.rdB (chOff n Reg.peFlags) 1 = true) ∧
             ∀ o ∈ stagingRegs, t.rd (chOff n (o + 0x40)) = s.rd (chOff n (o + 0x40))) ∧
           (s.setBad n l = false → (∀ o ∈ stagingRegs, t.rd (chOff n (o + 0x40)) = l.val o) ∧
             (marker = false → ∀ o ∈ stagingRegs, t.rd (chOff n (o + 0x40)) = s.rd (chOff n o)) ∧
             (s.padHeld n = false → s.rangeDiffers n (s.active n) l = true → t.rdB (chOff n Reg.peStatus) 2 = true) ∧
             (s.secondary n = false → rampDiffers (s.active n) l = true → (t.chan n).acc = 0)) ∧
           ((s.capture n marker).2 = false → marker = false → s.setBad n l = true → bitOf (l.val Reg.pmuCfg) 8 = true →
             s.pmuIssues n = true → s.rdB (chOff n Reg.peStatus) 2 = false → s.padHeld n = false → s.paired n = false →
             (t.chan n).pmu.resets = (s.chan n).pmu.resets + 1)))) ∧
  (∀ (s : State) (ch : ChId) (i : Fin 10) (v : W32) (o : Nat), o = Reg.peVil + 4 * i → s.reaches (chOff ch o) = true →
     (s.peLegal ch o v = true → Completes (.peStagingWrite ch i v) s [.one (.reg (chOff ch o))] (fun t =>
       ∀ r, findRow (chOff ch o) = some r → ∀ b, b < 32 → t.rdB (chOff ch o) b =
         ((if r.rw.testBit b then bitOf v b else s.rdB (chOff ch o) b) && !(r.w1c.testBit b && bitOf v b)))) ∧
     (s.peLegal ch o v = false → Completes (.peStagingWrite ch i v) s [.pair (chOff ch Reg.peFlags)] (fun t =>
       s.retained (chOff ch Reg.peFlags) = false → t.rdB (chOff ch Reg.peFlags) 0 = true)))

/-- RANGING_END and RAMP_STEP (R230, R231, R246, R325, R328): the end of a range change opens the soft path and connects the unit as its mode
says; a step adds the slope to the ramp, counts its length down, and raises RAMP_CLAMP where a threshold passes a limit.
COMPARATOR_CROSSING (R242 to R244): an input inside the band changes nothing; outside it, the output follows and is no longer
indeterminate, and an excursion that latches sets the window monitor's flag, where the monitor is enabled and was not in excursion. The
monitor converter (R249 to R251): START converts its source and channel once the converter is free, SCAN goes round 113 conversions, and a
result, corrected, that is off its expected code by more than the tolerance sets the flags, unless it came too soon after a strobe, in a
range change, or for a threshold whose ramp runs. Where the specification leaves open what is said here, it is the model's choice: log 44,
log 46, log 106. -/
def Obligations.PinSlicesRunOn : Prop :=
  (∀ (s : State) (ch : ChId) (n : Nat), n = ch.val →
     (s.rdB (chOff n Reg.peStatus) 2 = true →
       Completes (.rangingEnd ch) s [.one (.chan n), .one (.reg (chOff n Reg.pmuStatus)), .one (.reg (chOff n Reg.peStatus))] (fun t =>
         t.rd (chOff n Reg.peStatus) = (s.rd (chOff n Reg.peStatus) &&& ~~~ (0xC5 : W32)) ||| 0x30 ∧
         t.rdB (chOff n Reg.pmuStatus) 0 = (if s.secondary n then s.combines n else s.pmuMode n != 0) ∧
         t.rdB (chOff n Reg.pmuStatus) 4 = s.rdB (chOff n Reg.pmuStatus) 4 ∧
         (t.chan n).pmu = { (s.chan n).pmu with resets := if s.pmuIssues n then (s.chan n).pmu.resets + 1 else 0 })) ∧
     (s.rdB (chOff n Reg.peStatus) 2 = false → Completes (.rangingEnd ch) s [] (fun _ => True)) ∧
     ((s.chan n).ramping = true →
       Completes (.rampStep ch) s [.one (.chan n), .one (.reg (chOff n Reg.peStatus)), .pair (chOff n Reg.peFlags)] (fun t =>
         (t.chan n).acc = (s.chan n).acc + (s.rd (chOff n Reg.peActRampSlope)).toInt ∧
         (t.chan n).rampLeft = (s.chan n).rampLeft.map (· - 1) ∧
         (t.chan n).ramping = ((s.chan n).rampLeft.map (· - 1) != some 0) ∧
         t.rdB (chOff n Reg.peStatus) 3 = ((s.chan n).rampLeft.map (· - 1) != some 0) ∧
         ∀ hi, t.thrClamps n hi = true → s.thrClamps n hi = false → s.retained (chOff n Reg.peFlags) = false →
           t.rdB (chOff n Reg.peFlags) 3 = true)) ∧
     ((s.chan n).ramping = false → Completes (.rampStep ch) s [] (fun _ => True))) ∧
  (∀ (s : State) (ch : ChId) (low latches : Bool) (n : Nat), n = ch.val →
     Completes (.comparatorCrossing ch low .within latches) s [] (fun _ => True) ∧
     ∀ (pos : BandPos) (out : Bool), pos ≠ .within → out = (if low then decide (pos = .below) else decide (pos = .above)) →
       (out = false ∨ s.rdB (chOff n Reg.peStatus) (if low then 7 else 6) = true ∨ latches = false ∨
           s.rdB (chOff n Reg.peWmon) 0 = false ∨ s.secondary n = true →
         Completes (.comparatorCrossing ch low pos latches) s [.one (.reg (chOff n Reg.peStatus)), .one (.chan n)] (fun t =>
           t.rdB (chOff n Reg.peStatus) (if low then 7 else 6) = out ∧ t.rdB (chOff n Reg.peStatus) (if low then 5 else 4) = false ∧
           (out = s.rdB (chOff n Reg.peStatus) (if low then 7 else 6) → t.chan n = s.chan n) ∧
           (out ≠ s.rdB (chOff n Reg.peStatus) (if low then 7 else 6) →
             (t.chan n).cross low = { cleared := s.rdB (chOff n Reg.peStatus) (if low then 5 else 4), latched := false }))) ∧
       (out = true → s.rdB (chOff n Reg.peStatus) (if low then 7 else 6) = false → latches = true →
           s.rdB (chOff n Reg.peWmon) 0 = true → s.secondary n = false →
         Completes (.comparatorCrossing ch low pos latches) s
             [.one (.reg (chOff n Reg.peStatus)), .pair (chOff n Reg.peWmon), .one (.clu (n / 16)), .one (.chan n)] (fun t =>
           t.rdB (chOff n Reg.peStatus) (if low then 7 else 6) = true ∧ t.rdB (chOff n Reg.peStatus) (if low then 5 else 4) = false ∧
           (t.chan n).cross low = { cleared := s.rdB (chOff n Reg.peStatus) (if low then 5 else 4),
                                    latched := !s.rdB (chOff n Reg.peWmon) (if low then 9 else 8) } ∧
           (s.retained (chOff n Reg.peWmon) = false → t.rdB (chOff n Reg.peWmon) (if low then 9 else 8) = true)))) ∧
  (∀ (s : State) (c : CluId),
     (∀ v : W32, s.reaches (cluOff c Reg.peMonCtl) = true →
       Completes (.monitorStart c v) s ([.one (.reg (cluOff c Reg.peMonCtl)), .one (.clu c), .one (.reg (cluOff c Reg.peMonMismatch))] ++
           wakeFoot c) (fun t =>
         t.rdB (cluOff c Reg.peMonCtl) 11 = bitOf v 11 ∧ t.rdF (cluOff c Reg.peMonCtl) 31 16 = fieldOf v 31 16 ∧
         (∀ x, (s.clu c).mon = some x → (t.clu c).mon = some x ∧ (bitOf v 12 = true → (t.clu c).monNext = some (fieldOf v 10 8, fieldOf v 3 0))) ∧
         ((s.clu c).mon = none → bitOf v 12 = true → (t.clu c).mon = some (fieldOf v 10 8, fieldOf v 3 0) ∧ (t.clu c).monNext = none) ∧
         ((s.clu c).mon = none → bitOf v 12 = false → (s.clu c).monNext = none → bitOf v 11 = true → s.rdB (cluOff c Reg.peMonCtl) 11 = false →
           (t.clu c).mon = some (0, 0) ∧ (t.clu c).scanAt = some 1 ∧ t.rd (cluOff c Reg.peMonMismatch) = 0))) ∧
     (∀ (raw : BitVec 14) (recent : Bool) (src k n code : Nat), (s.clu c).mon = some (src, k) → n = 16 * c + k →
       code = s.monResult c src raw.toNat →
       Completes (.monitorConversionEnd c raw recent) s
           [.one (.reg (cluOff c Reg.peMonResult)), .pair (cluOff c Reg.peClFlags), .one (.reg (cluOff c Reg.peMonMismatch)), .one (.clu c),
             .one (.reg (cluOff c Reg.peMonCtl))] (fun t =>
         t.rd (cluOff c Reg.peMonResult) = pack [(31, 1), (20, src), (16, k), (0, code)] ∧
         (recent = false → (src = 7 ∨ s.rdB (chOff n Reg.peStatus) 2 = false) → s.monRamps n src = false →
           s.rdF (cluOff c Reg.peMonCtl) 31 16 < max (code - s.monExpect n src) (s.monExpect n src - code) →
           (s.retained (cluOff c Reg.peClFlags) = false → t.rdB (cluOff c Reg.peClFlags) 1 = true) ∧
           (src ≠ 7 → k < 16 → s.rdB (cluOff c Reg.peMonCtl) 11 = false → t.rdB (cluOff c Reg.peMonMismatch) k = true)) ∧
         (recent = true → t.rd (cluOff c Reg.peClFlags) = s.rd (cluOff c Reg.peClFlags)) ∧
         (∀ x, (s.clu c).monNext = some x → (t.clu c).mon = some x ∧ (t.clu c).monNext = none ∧ t.rdB (cluOff c Reg.peMonCtl) 15 = true) ∧
         ((s.clu c).monNext = none → s.rdB (cluOff c Reg.peMonCtl) 11 = false →
           (t.clu c).mon = none ∧ t.rdB (cluOff c Reg.peMonCtl) 15 = false) ∧
         (∀ i, (s.clu c).monNext = none → s.rdB (cluOff c Reg.peMonCtl) 11 = true → (s.clu c).scanAt = some i →
           (t.clu c).mon = some (scanStep i) ∧ (t.clu c).scanAt = some ((i + 1) % 113)))) ∧
     ((s.clu c).mon = none → ∀ code recent, Completes (.monitorConversionEnd c code recent) s [] (fun _ => True)))

/-- STROBE_RESULT_JUDGE (R255, R258, R259, R262 to R266, R269, R272): the oldest result of a cluster reaches the fail logic. A captured one
only leaves the verdict of its vector; another is kept as the channel's last; of an unmasked site it counts, sets the latch, is the site's
first fail, and enters the fail queue or is dropped where that is full, counted lost where there is a record buffer; and it enters its
vector's match verdict. Where the specification leaves open what is said here, it is the model's choice: log 41. -/
def Obligations.ResultsAreJudged : Prop :=
  ∀ (s : State) (c : CluId) (r : Result) (rest : List Result) (excl : Bool), (s.lane c).results = r :: rest →
    excl = ((s.lane c).matchRes r.ch (cmpHalf r.pin) && bitOf (s.lane c).flMatch 30) →
    (r.word % 4 = 3 → Completes (.strobeResultJudge c) s [.one (.lane c)] (fun t =>
      ((s.lane c).matchRes r.ch (cmpHalf r.pin) = false → t.lane c = { s.lane c with results := rest }) ∧
      ((s.lane c).matchRes r.ch (cmpHalf r.pin) = true →
        t.lane c = ({ s.lane c with results := rest } : Lane).verdictTake r.vec.pad r.vec.no none) ∧
      (∀ v, (s.lane c).matchRes r.ch (cmpHalf r.pin) = true →
        (s.lane c).verdicts.find? (fun v => v.pad == r.vec.pad && v.no == r.vec.no) = some v → v.left = 1 →
        (t.lane c).matchV = (if v.any then v.pass else (s.lane c).matchV)))) ∧
    (r.word % 4 ≠ 3 → (∀ k, s.siteOf r.ch = some k → r.vec.masked.getLsbD k = true ∨ excl = true ∨ r.word % 4 = 0) →
      Completes (.strobeResultJudge c) s [.one (.lane c), .one (.reg (chOff r.ch Reg.flChLast))] (fun t =>
        (t.lane c).results = rest ∧ (t.lane c).failQ = (s.lane c).failQ ∧ (t.lane c).failLatch = (s.lane c).failLatch ∧
        t.rdF (chOff r.ch Reg.flChLast) (if r.s1 then 7 else 3) (if r.s1 then 4 else 0) = r.word % 16 ∧
        (∀ v, (s.lane c).matchRes r.ch (cmpHalf r.pin) = true → (s.lane c).verdicts.find? (fun v => v.pad == r.vec.pad && v.no == r.vec.no) = some v → v.left = 1 →
          (t.lane c).matchV = (v.pass && r.word % 4 == 0)) ∧
        ((s.lane c).matchRes r.ch (cmpHalf r.pin) = false → (t.lane c).matchV = (s.lane c).matchV))) ∧
    (∀ k, s.siteOf r.ch = some k → r.vec.masked.getLsbD k = false → excl = false → r.word % 4 = 1 →
      Completes (.strobeResultJudge c) s [.one (.lane c), .one (.reg (chOff r.ch Reg.flChLast)), .one (.reg (chOff r.ch Reg.flChFail)),
          .one (.reg (cluOff c Reg.flQueue)), .one (.reg (cluOff c Reg.flRecLost)), .pair (cluOff c Reg.flFlags),
          .one (.reg (Reg.flSiteFail + 16 * k)), .one (.reg (Reg.flSiteStatus + 16 * k)),
          .regs (Reg.flFirst + 32 * k) (Reg.flFirst + 32 * k + 32)] (fun t =>
        (t.lane c).results = rest ∧ (t.lane c).failLatch = true ∧ (t.lane c).seq = (s.lane c).seq + 1 ∧
        (t.rd (Reg.flSiteFail + 16 * k)).toNat = satAdd 0xFFFFFFFF (s.rd (Reg.flSiteFail + 16 * k)).toNat 1 ∧
        (t.rd (chOff r.ch Reg.flChFail)).toNat = satAdd 0xFFFFFFFF (s.rd (chOff r.ch Reg.flChFail)).toNat 1 ∧
        t.rdB (Reg.flSiteStatus + 16 * k) 1 = true ∧
        (s.rdB (Reg.flSiteStatus + 16 * k) 1 = false → ∀ w, w < 8 →
          t.rd (Reg.flFirst + 32 * k + 4 * w) = word32 (failRecord 1 k r (s.lane c).seq) (4 * w)) ∧
        (s.rdB (Reg.flSiteStatus + 16 * k) 1 = true → ∀ w, w < 8 →
          t.rd (Reg.flFirst + 32 * k + 4 * w) = s.rd (Reg.flFirst + 32 * k + 4 * w)) ∧
        ((s.lane c).failQ.length < 1024 →
          (t.lane c).failQ = (s.lane c).failQ ++ [{ kind := 1, site := Fin.ofNat 64 k, res := r, seq := (s.lane c).seq }] ∧
          t.rd (cluOff c Reg.flRecLost) = s.rd (cluOff c Reg.flRecLost)) ∧
        (1024 ≤ (s.lane c).failQ.length → (t.lane c).failQ = (s.lane c).failQ ∧
          (t.rd (cluOff c Reg.flRecLost)).toNat =
            (if s.recMib = 0 then (s.rd (cluOff c Reg.flRecLost)).toNat else satAdd 0xFFFFFFFF (s.rd (cluOff c Reg.flRecLost)).toNat 1) ∧
          (s.retained (cluOff c Reg.flFlags) = false → t.rdB (cluOff c Reg.flFlags) 1 = true) ∧ (s.bmpEn k = true → t.rdB (Reg.flSiteStatus + 16 * k) 3 = true)))) ∧
    (∀ k, s.siteOf r.ch = some k → r.vec.masked.getLsbD k = false → excl = false → r.word % 4 = 2 →
      Completes (.strobeResultJudge c) s [.one (.lane c), .one (.reg (chOff r.ch Reg.flChLast)), .one (.reg (cluOff c Reg.flQueue)),
          .one (.reg (cluOff c Reg.flRecLost)), .pair (cluOff c Reg.flFlags), .one (.reg (Reg.flSiteIndet + 16 * k)),
          .one (.reg (Reg.flSiteStatus + 16 * k))] (fun t =>
        (t.lane c).results = rest ∧ (t.lane c).failLatch = (s.lane c).failLatch ∧
        (t.rd (Reg.flSiteIndet + 16 * k)).toNat = satAdd 0xFFFFFFFF (s.rd (Reg.flSiteIndet + 16 * k)).toNat 1 ∧
        (bitOf (s.lane c).flCtl 0 = false → (t.lane c).failQ = (s.lane c).failQ) ∧
        (bitOf (s.lane c).flCtl 0 = true → (s.lane c).failQ.length < 1024 → (t.lane c).failQ = (s.lane c).failQ ++
          [{ kind := 2, site := Fin.ofNat 64 k, res := r, seq := (s.lane c).seq }])))

/-- FAIL_WRITER_DRAIN and LOST_RECORD_WRITE (R270 to R273, R277 to R280): the oldest entry's record goes to the next slot with the slot after
it marked empty, or is lost; a mappable FAIL sets its bit; a new cell counts its row and column, and may make the site unrepairable; and
where records were lost, a LOST record ends the part's records. Host writes of the fail logic (R261, R276, R281 to R283, R444): the site
mask; the geometry, taken only while no plan runs and in range; FL_CLEAR, which clears the counters now and the bitmaps when it is done;
and the counter window, where an increment of the same cycle keeps its byte. -/
def Obligations.FailsAreWrittenAndConfigured : Prop :=
  (∀ (s : State) (c : CluId) (n i : Nat), n = s.recMib * 32768 → i = (s.lane c).slot →
     (∀ (e : FailEnt) (rest : List FailEnt) (k : Nat) (row col : SramRead), (s.lane c).failQ = e :: rest → k = e.site →
       ∀ foot : List Foot, foot = [.one (.lane c), .one (.reg (cluOff c Reg.flRecWr)), .one (.reg (cluOff c Reg.flRecLost)),
           .pair (cluOff c Reg.flFlags), .one (.reg (Reg.flSiteMr + 16 * k)), .one (.reg (Reg.flSiteStatus + 16 * k)), .dram (s.slotAddr c i) 33,
           .dram (s.bmpBase k) s.bmpSize, .failCnt (0x4000 * k) 0x4000, .one .plan, .events] ++
           (if row = .clean ∧ col = .clean then [] else [.one (.reg Reg.memEccAddr), .pair Reg.memFlags, .one (.reg Reg.memEccCnt)]) →
       Completes (.failWriterDrain c row col) s foot (fun t =>
         (t.lane c).failQ = rest ∧
         (i + 2 ≤ n → (t.lane c).slot = i + 1 ∧ t.rd (cluOff c Reg.flRecWr) = BitVec.ofNat 32 (i + 1) ∧
           (s.mapKey c e = none → t.dramRd (s.slotAddr c i) 32 = failRecord e.kind e.site e.res e.seq ∧ t.dramAt (s.slotAddr c (i + 1)) = 0)) ∧
         (n < i + 2 → (t.lane c).slot = i ∧ (0 < n →
           (t.rd (cluOff c Reg.flRecLost)).toNat = satAdd 0xFFFFFFFF (s.rd (cluOff c Reg.flRecLost)).toNat 1 ∧
           (s.retained (cluOff c Reg.flFlags) = false → t.rdB (cluOff c Reg.flFlags) 0 = true))) ∧
         ((s.cellOf c e).2 = true → s.retained (cluOff c Reg.flFlags) = false → t.rdB (cluOff c Reg.flFlags) 2 = true) ∧
         (∀ x rows cols a b, (s.cellOf c e).1 = some x → rows = s.rdF Reg.flRcLimit 7 0 → cols = s.rdF Reg.flRcLimit 15 8 →
           a = (x.counters k).1 → b = (x.counters k).2 →
           (t.dramAt (s.bmpBit k x).1).getLsbD (s.bmpBit k x).2 = true ∧
           (n < i + 2 ∨ (s.bmpBit k x).1 < s.slotAddr c i ∨ s.slotAddr c i + 33 ≤ (s.bmpBit k x).1 →
             (s.isNewCell k x = false → t.failByte a = s.failByte a ∧ t.failByte b = s.failByte b ∧ t.plan = s.plan) ∧
             (s.isNewCell k x = true →
               (t.failByte a).toNat = (if row = .lost then 255 else satAdd 255 (s.failByte a).toNat 1) ∧
               (t.failByte b).toNat = (if col = .lost then 255 else satAdd 255 (s.failByte b).toNat 1) ∧
               (row = .lost ∨ col = .lost → t.rdB (Reg.flSiteStatus + 16 * k) 3 = true ∧ t.rdB Reg.memFlags 0 = true) ∧
               t.rdF (Reg.flSiteMr + 16 * k) 13 0 =
                 (if row ≠ .lost ∧ (s.failByte a).toNat = cols then satAdd 16383 (s.rdF (Reg.flSiteMr + 16 * k) 13 0) 1 else s.rdF (Reg.flSiteMr + 16 * k) 13 0) ∧
               t.rdF (Reg.flSiteMr + 16 * k) 29 16 =
                 (if col ≠ .lost ∧ (s.failByte b).toNat = rows then satAdd 16383 (s.rdF (Reg.flSiteMr + 16 * k) 29 16) 1 else s.rdF (Reg.flSiteMr + 16 * k) 29 16) ∧
               (t.rdB (Reg.flSiteStatus + 16 * k) 2 = true ↔ s.rdB (Reg.flSiteStatus + 16 * k) 2 = true ∨
                 (t.rd (Reg.flSiteMr + 16 * k) ≠ s.rd (Reg.flSiteMr + 16 * k) ∧
                   (rows < t.rdF (Reg.flSiteMr + 16 * k) 13 0 ∨ cols < t.rdF (Reg.flSiteMr + 16 * k) 29 16))) ∧
               (t.rdB (Reg.flSiteStatus + 16 * k) 2 = true → s.rdB (Reg.flSiteStatus + 16 * k) 2 = false → s.plan.unrep.getLsbD k = false →
                 t.plan.unrep.getLsbD k = true ∧
                 Posted s t foot (evLane c 1) 0x02 (evData [(0, k), (32, s.plnNumber)]))))))) ∧
     ((s.lane c).failQ = [] → ∀ row col, Completes (.failWriterDrain c row col) s [] (fun _ => True)) ∧
     ((s.lane c).live = false → (s.lane c).issued ≠ 0 → (s.lane c).lostDone = false → s.rd (cluOff c Reg.flRecLost) ≠ 0 → n ≠ 0 →
       s.laneDrained c = true → Completes (.lostRecordWrite c) s [.one (.lane c), .one (.reg (cluOff c Reg.flRecWr)), .dram (s.slotAddr c i) 33] (fun t =>
         t.dramRd (s.slotAddr c i) 32 = lostRecord (s.rd (cluOff c Reg.flRecLost)).toNat (s.lane c).seq ∧
         t.rd (cluOff c Reg.flRecWr) = BitVec.ofNat 32 (i + 1) ∧ t.lane c = { s.lane c with slot := i + 1, lostDone := true }))) ∧
  (∀ (s : State) (v : W32),
     (∀ h o, o = (match h with | Half.lo => Reg.flSiteMaskLo | Half.hi => Reg.flSiteMaskHi) → s.reaches o = true →
       Completes (.flSiteMaskWrite h v) s [.one (.reg o)] (fun t => t.rd o = v)) ∧
     (∀ r : FlReg, s.reaches (flOff r) = true →
       (s.plnState ≠ 0 → Completes (.flConfigWrite r v) s [.pair Reg.flDevFlags] (fun t => t.rdB Reg.flDevFlags 0 = true)) ∧
       (s.plnState = 0 → s.flRefused r v = true → Completes (.flConfigWrite r v) s [.pair Reg.flDevFlags] (fun t =>
         t.rdB Reg.flDevFlags 1 = true)) ∧
       (s.plnState = 0 → s.flRefused r v = false → Completes (.flConfigWrite r v) s [.one (.reg (flOff r))] (fun t =>
         ∀ f, findRow (flOff r) = some f → t.rd (flOff r) = takeFields f (s.rd (flOff r)) v))) ∧
     (s.reaches Reg.flClear = true →
       (bitOf v 31 = false → Completes (.flClear v) s [] (fun _ => True)) ∧
       (bitOf v 31 = true → s.plnState ≠ 0 → Completes (.flClear v) s [.pair Reg.flDevFlags] (fun t => t.rdB Reg.flDevFlags 0 = true)) ∧
       (bitOf v 31 = true → s.plnState = 0 → ∀ l, l = (if bitOf v 6 then List.range 64 else [fieldOf v 5 0]) →
         Completes (.flClear v) s ([.one .plan, .one (.reg Reg.flClear)] ++ l.flatMap (fun k =>
             [.one (.reg (Reg.flSiteMr + 16 * k)), .one (.reg (Reg.flSiteStatus + 16 * k)), .failCnt (0x4000 * k) 0x4000])) (fun t =>
           t.rdB Reg.flClear 30 = true ∧ (∀ k, k ∈ t.plan.clearing ↔ k ∈ s.plan.clearing ∨ k ∈ l) ∧
           ∀ k ∈ l, t.rd (Reg.flSiteMr + 16 * k) = 0 ∧ t.rdF (Reg.flSiteStatus + 16 * k) 3 2 = 0 ∧
             t.rdF (Reg.flSiteStatus + 16 * k) 1 0 = s.rdF (Reg.flSiteStatus + 16 * k) 1 0 ∧
             ∀ a, 0x4000 * k ≤ a → a < 0x4000 * k + 0x4000 → t.failByte a = 0))) ∧
     (s.plan.clearing ≠ [] →
       Completes .flClearDone s ([.one .plan, .one (.reg Reg.flClear)] ++ s.plan.clearing.map (fun k => .dram (s.bmpBase k) s.bmpSize)) (fun t =>
         t.plan = { s.plan with clearing := [] } ∧ t.rdB Reg.flClear 30 = false ∧
         ∀ k ∈ s.plan.clearing, ∀ a, s.bmpBase k ≤ a → a < s.bmpBase k + s.bmpSize → t.dramAt a = 0)) ∧
     (∀ off : BitVec 20, s.reaches (0xC00000 + off.toNat) = true →
       Completes (.failCounterWindowWrite off v none) s [.failCnt off.toNat 4] (fun t =>
         ∀ j, j < 4 → t.failByte (off.toNat + j) = BitVec.ofNat 8 (fieldOf v (8 * j + 7) (8 * j))) ∧
       ∀ d u, exec (.failWriterDrain d .clean .clean) s = .next u →
         ∃ t, exec (.failCounterWindowWrite off v (some d)) s = .next t ∧
           ChangesOnly [.failCnt off.toNat 4, .one (.reg Reg.memCollide)] u t ∧
           (∀ j, j < 4 → t.failByte (off.toNat + j) =
             if (s.drainBytes d).contains (off.toNat + j) then u.failByte (off.toNat + j) else BitVec.ofNat 8 (fieldOf v (8 * j + 7) (8 * j))) ∧
           (t.rd Reg.memCollide).toNat = (if (s.drainBytes d).any (fun a => decide (off.toNat ≤ a ∧ a < off.toNat + 4))
             then satAdd 0xFFFFFFFF (s.rd Reg.memCollide).toNat 1 else (s.rd Reg.memCollide).toNat)))

/-- TIA_N and TIA_GATE (R303): while the TIA takes writes (R305), TIA_N takes a number from 1 to 2^24 and TIA_GATE one that is not 0; every
other write is refused whole, the register keeps its old value, and TIA_FLAGS.N_REJECT is set. -/
def Obligations.TiaCountsAreChecked : Prop :=
  ∀ (s : State) (ch : ChId) (n : Nat) (v : W32) (b : Bool), n = ch.val →
    s.reaches (chOff n (if b then Reg.tiaGate else Reg.tiaN)) = true →
      (s.tiaFree n = true → (if b then v = 0 else fieldOf v 24 0 = 0 ∨ 0x1000000 < fieldOf v 24 0) →
        Completes (.tiaNWrite ch b v) s [.pair (chOff n Reg.tiaFlags)] (fun t =>
          s.retained (chOff n Reg.tiaFlags) = false → t.rdB (chOff n Reg.tiaFlags) 1 = true)) ∧
      (s.tiaFree n = true → b = true → v ≠ 0 → Completes (.tiaNWrite ch b v) s [.one (.reg (chOff n Reg.tiaGate))] (fun t =>
        t.rd (chOff n Reg.tiaGate) = v)) ∧
      (s.tiaFree n = true → b = false → 0 < fieldOf v 24 0 → fieldOf v 24 0 ≤ 0x1000000 →
        Completes (.tiaNWrite ch b v) s [.one (.reg (chOff n Reg.tiaN))] (fun t => t.rdF (chOff n Reg.tiaN) 24 0 = fieldOf v 24 0))

/-- The control of a TIA (R289, R301 to R307): ARM and the writes of its registers are taken in IDLE and DONE only, and within their ranges;
the arm instant makes it RUNNING; ABORT, the timeout and the range end it with its statistics, after the events before the end of their
CK_VEC cycle, COMPLETE where these complete it, and else with the lowest code. Where the specification leaves open what is said here, it is
the model's choice: log 42, log 43. -/
def Obligations.TiaIsControlled : Prop :=
  ∀ (s : State) (ch : ChId) (n : Nat), n = ch.val →
    (s.reaches (chOff n Reg.tiaCtl) = true →
      (s.tiaFree n = true → s.tiaMode n ≠ 0 → Completes (.tiaArm ch) s ([.one (.chan n), .one (.reg (chOff n Reg.tiaStatus)),
          .one (.reg (chOff n Reg.tiaCount)), .one (.reg (chOff n Reg.tiaSkip)), .one (.reg (chOff n Reg.tiaDiscard)),
          .one (.reg (chOff n Reg.tiaFcnt))] ++ wakeFoot (n / 16)) (fun t =>
        t.tiaState n = 1 ∧ t.rdB (chOff n Reg.tiaStatus) 9 = false ∧ t.rdB (chOff n Reg.tiaStatus) 8 = false ∧
        t.rd (chOff n Reg.tiaCount) = 0 ∧ t.rd (chOff n Reg.tiaSkip) = 0 ∧ t.rd (chOff n Reg.tiaDiscard) = 0 ∧ t.rd (chOff n Reg.tiaFcnt) = 0 ∧
        (t.chan n).tia = { tiaReset with armDue := true })) ∧
      (s.tiaFree n = false ∨ s.tiaMode n = 0 → Completes (.tiaArm ch) s (.pair (chOff n Reg.tiaFlags) :: wakeFoot (n / 16)) (fun t =>
        t.rdB (chOff n Reg.tiaFlags) 0 = true)) ∧
      (∀ cycle : Nat,
        (s.tiaState n = 1 → Completes (.tiaAbort ⟨ch, cycle⟩) s (tiaEndFoot n) (fun t => TiaEnded s t n 4)) ∧
        (s.tiaState n = 2 → Completes (.tiaAbort ⟨ch, cycle⟩) s (.events :: tiaCutFoot n) (fun t =>
          TiaCut s t n ((cycle - (s.chan n).tia.armAt) / 8) 4)) ∧
        (s.tiaState n ≠ 1 → s.tiaState n ≠ 2 → Completes (.tiaAbort ⟨ch, cycle⟩) s [] (fun _ => True)))) ∧
    (∀ cycle : Nat,
      (fieldOf (s.tiaCfg n) 6 5 = 0 → (s.chan n).tia.armDue = true →
        Completes (.tiaArmInstant ch cycle) s [.one (.chan n), .one (.reg (chOff n Reg.tiaStatus))] (fun t =>
          t.tiaState n = 2 ∧ (t.chan n).tia = { (s.chan n).tia with armDue := false, armAt := cycle })) ∧
      (fieldOf (s.tiaCfg n) 6 5 ≠ 0 ∨ (s.chan n).tia.armDue = false → Completes (.tiaArmInstant ch cycle) s [] (fun _ => True))) ∧
    (s.tiaState n = 2 → s.tiaOwned n = false → s.rdF (chOff n Reg.tiaTimeout) 15 0 ≠ 0 →
      Completes (.tiaTimeout ch) s (.events :: tiaCutFoot n) (fun t =>
        TiaCut s t n (s.rdF (chOff n Reg.tiaTimeout) 15 0 * 2 ^ 20) 2)) ∧
    (s.tiaState n = 2 → Completes (.tiaRangeEnd ch) s (.events :: tiaCutFoot n) (fun t => TiaCut s t n (2 ^ 48 / 2560) 3)) ∧
    (s.tiaState n ≠ 2 ∨ s.tiaOwned n = true ∨ s.rdF (chOff n Reg.tiaTimeout) 15 0 = 0 → Completes (.tiaTimeout ch) s [] (fun _ => True)) ∧
    (s.tiaState n ≠ 2 → Completes (.tiaRangeEnd ch) s [] (fun _ => True)) ∧
    (∀ (v : W32) (b : Bool),
      (s.reaches (chOff n (if b then Reg.tiaGate else Reg.tiaN)) = true → s.tiaFree n = false →
        Completes (.tiaNWrite ch b v) s [.pair (chOff n Reg.tiaFlags)] (fun t =>
          s.retained (chOff n Reg.tiaFlags) = false → t.rdB (chOff n Reg.tiaFlags) 0 = true)) ∧
      (∀ o, o = chOff n (if b then Reg.tiaTimeout else Reg.tiaCfg) → s.reaches o = true →
        (s.tiaFree n = false ∨ (b = false ∧ (fieldOf v 18 17 = 3 ∨ fieldOf v 14 13 = 3 ∨ 2 ≤ fieldOf v 6 5 ∨ 5 ≤ fieldOf v 2 0)) →
          Completes (.tiaConfigWrite ch b v) s [.pair (chOff n Reg.tiaFlags)] (fun t =>
            s.retained (chOff n Reg.tiaFlags) = false → t.rdB (chOff n Reg.tiaFlags) 0 = true)) ∧
        (s.tiaFree n = true → (b = true ∨ (fieldOf v 18 17 ≠ 3 ∧ fieldOf v 14 13 ≠ 3 ∧ fieldOf v 6 5 < 2 ∧ fieldOf v 2 0 < 5)) →
          Completes (.tiaConfigWrite ch b v) s [.one (.reg o)] (fun t =>
            (∀ f, findRow o = some f → t.rd o = takeFields f (s.rd o) v) ∧ (b = false → t.rdF o 2 0 = fieldOf v 2 0)))))

/-- Transitions and their events (R286 to R300): a transition becomes an event of every running TIA whose selection it meets, at its
corrected time from that TIA's arm instant, or is lost and counted where its line placed a strobe in that CK_EDGE cycle or it follows too
closely (R288), and the crossing that clears HYST_INIT gives no timestamp (R287); one that latched a window monitor takes its input of the
trigger engine to its own time (R346); the first event of the merged stream is used as its mode says; and a gate ends with its count and its
mean period. Where the specification leaves open what is said here, it is the model's choice: log 42, log 43, log 44. -/
def Obligations.TransitionsAreMeasured : Prop :=
  ∀ (s : State) (ch : ChId) (x c : Nat), x = ch.val → c = x / 16 →
    (∀ (low rising lost : Bool) (vec : Nat) (edge : Fin 8) (coarse bin j q : Nat) (abs : Int), coarse = 8 * vec + edge → j = (if low then 5 else 4) →
      q = 320 * coarse + (s.chan x).edgeP j bin → abs = q - 1024 - s.cellK x j →
      lost = (s.strobeIn x j coarse || (decide (0 < Tbl.get (fun _ => 0) (s.chan x).lastRaw j) && decide (q + 1 < Tbl.get (fun _ => 0) (s.chan x).lastRaw j + 320))) →
      (s.secondary x = true ∨ s.rdB (chOff x Reg.peStatus) 2 = true ∨ s.rdB (chOff x Reg.peStatus) j = true ∨
          ((s.chan x).cross low).cleared = true ∨ (∀ n ∈ chansOf c, s.tiaNames n x = false) →
        Completes (.transitionTimestamp ch low rising vec edge bin) s [] (fun _ => True)) ∧
      (s.secondary x = false → s.rdB (chOff x Reg.peStatus) 2 = false → s.rdB (chOff x Reg.peStatus) j = false →
          ((s.chan x).cross low).cleared = false → (∃ n ∈ chansOf c, s.tiaNames n x = true) →
        Completes (.transitionTimestamp ch low rising vec edge bin) s
            ([.one (.clu c), .one (.reg (chOff x Reg.tiaLost))] ++ ofChans c (fun n => [.one (.chan n), .one (.reg (chOff n Reg.tiaStatus))])) (fun t =>
          (lost = true → t.rdF (chOff x Reg.tiaLost) (if low then 31 else 15) (if low then 16 else 0) =
            satAdd 0xFFFF (s.rdF (chOff x Reg.tiaLost) (if low then 31 else 15) (if low then 16 else 0)) 1) ∧
          (lost = false → Tbl.get (fun _ => 0) (t.chan x).lastRaw j = q + 1 ∧ t.rd (chOff x Reg.tiaLost) = s.rd (chOff x Reg.tiaLost)) ∧
          (t.clu c).acq.inputs = (if lost = false ∧ ((s.chan x).cross low).latched = true ∧ rising = !low
            then (s.clu c).acq.inputs.map (fun i => if i.src = 2 ∧ i.ch = x % 16 ∧ i.sel = b2n (!low) ∧ i.time = none
              then { i with time := some abs, interp := 2 } else i)
            else (s.clu c).acq.inputs) ∧
          ∀ n ∈ chansOf c, ∀ (ts : Int) (m : Bool × Bool), ts = abs - 320 * (s.chan n).tia.armAt → m = s.tiaMatch n x low rising →
            (s.tiaState n = 2 → 0 ≤ ts →
              m.1 = true ∨ (m.2 = true ∧ (s.tiaMode n = 1 ∨ (lost = true ∧ s.tiaMode n ≠ 4))) → (t.chan n).tia.events =
              insertEvent { ts := ts.toNat % 2 ^ 48, start := m.1, stop := m.2 && s.tiaMode n == 1, low := low, rise := rising,
                            line := 6 * x + j, lost := lost } (s.chan n).tia.events) ∧
            (s.tiaState n ≠ 2 ∨ ts < 0 ∨ (m.1 = false ∧ (m.2 = false ∨ s.tiaMode n ≠ 1) ∧ lost = false) →
              (t.chan n).tia.events = (s.chan n).tia.events)))) ∧
    (∀ (e : TEvent) (rest : List TEvent), (s.chan x).tia.events = e :: rest → s.tiaState x = 2 →
        (s.tiaMode x = 3 → s.gateOf x e.ts ≤ (s.chan x).tia.gateNo) →
      Completes (.tiaEvent ch) s ([.one (.clu c), .one (.reg (chOff x Reg.tiaDiscard)), .one (.reg (chOff x Reg.tiaCount)),
          .one (.reg (chOff x Reg.tiaSkip)), .pair (chOff x Reg.tiaLastLo)] ++ tiaEndFoot x) (fun t =>
        (e.start = true → e.lost = false → s.acqLive c = true → (t.clu c).acq.inputs = (s.clu c).acq.inputs ++
          [{ src := 4, ch := x % 16, sel := 0, s1 := false, time := some ((e.ts + 320 * (s.chan x).tia.armAt : Nat) : Int), interp := 2 }]) ∧
        (e.lost = true → (t.chan x).tia.events = rest ∧ (s.tiaMode x ≠ 4 → (t.chan x).tia.heldStart = none ∧ (t.chan x).tia.prev = none ∧
          t.rdF (chOff x Reg.tiaDiscard) 15 0 = satAdd 0xFFFF (s.rdF (chOff x Reg.tiaDiscard) 15 0) 1)) ∧
        (e.lost = false → s.tiaMode x = 1 → bitOf (s.tiaCfg x) 3 = false →
          ((s.chan x).tia.heldStart = none → e.start = true → (t.chan x).tia.heldStart = some e.ts ∧ (t.chan x).tia.events = rest) ∧
          ((s.chan x).tia.heldStart = none → e.start = false →
            t.rdF (chOff x Reg.tiaSkip) 15 0 = satAdd 0xFFFF (s.rdF (chOff x Reg.tiaSkip) 15 0) 1) ∧
          (∀ h, (s.chan x).tia.heldStart = some h →
            (e.stop = false → t.rdF (chOff x Reg.tiaSkip) 31 16 = satAdd 0xFFFF (s.rdF (chOff x Reg.tiaSkip) 31 16) 1) ∧
            (e.stop = true → (s.rd (chOff x Reg.tiaCount)).toNat + 1 < s.tiaN x →
              TookResult s t x (((e.ts : Int) - h) * 4096) ∧ (t.chan x).tia.heldStart = none ∧
              t.rdB (chOff x Reg.tiaStatus) 9 = decide (e.ts = h)))) ∧
        (e.lost = false → s.tiaMode x = 1 → bitOf (s.tiaCfg x) 3 = true → (s.chan x).tia.heldStart = none → (s.chan x).tia.heldStop = none →
          (e.start = true → (t.chan x).tia.heldStart = some e.ts) ∧
          (e.start = false → e.stop = true → (t.chan x).tia.heldStop = some e.ts)) ∧
        (∀ h, e.lost = false → s.tiaMode x = 1 → bitOf (s.tiaCfg x) 3 = true → (s.chan x).tia.heldStart = none →
          (s.chan x).tia.heldStop = some h → e.start = true → (s.rd (chOff x Reg.tiaCount)).toNat + 1 < s.tiaN x →
          TookResult s t x (((h : Int) - e.ts) * 4096) ∧ (t.chan x).tia.heldStop = none) ∧
        (e.lost = false → s.tiaMode x = 2 →
          ((s.chan x).tia.prev = none → (t.chan x).tia.prev = some e.ts ∧ t.rd (chOff x Reg.tiaCount) = s.rd (chOff x Reg.tiaCount)) ∧
          (∀ h, (s.chan x).tia.prev = some h →
            ((s.rd (chOff x Reg.tiaCount)).toNat + 1 < s.tiaN x → TookResult s t x (((e.ts : Int) - h) * 4096) ∧ (t.chan x).tia.prev = some e.ts) ∧
            ((s.rd (chOff x Reg.tiaCount)).toNat + 1 = s.tiaN x → t.tiaState x = 3 ∧ t.rdF (chOff x Reg.tiaStatus) 6 4 = 1))) ∧
        (e.lost = false → s.tiaMode x = 3 → (t.chan x).tia.gateCount = (s.chan x).tia.gateCount + 1 ∧ (t.chan x).tia.gateLast = e.ts ∧
          (t.chan x).tia.gateFirst = (if (s.chan x).tia.gateCount = 0 then e.ts else (s.chan x).tia.gateFirst)) ∧
        (e.lost = false → s.tiaMode x = 4 → s.acqLive c = true →
          (t.clu c).acq.tia = (s.clu c).acq.tia ++ [(x % 16, timestampWord x e (s.chan x).tia.loss)]))) ∧
    (s.tiaState x = 2 → s.tiaMode x = 3 → (∀ e ∈ (s.chan x).tia.events, (s.chan x).tia.gateNo < s.gateOf x e.ts) →
      Completes (.frequencyGateEnd ch) s ([.one (.reg (chOff x Reg.tiaFcnt)), .one (.reg (chOff x Reg.tiaDiscard)), .one (.reg (chOff x Reg.tiaCount)),
          .pair (chOff x Reg.tiaLastLo)] ++ tiaEndFoot x) (fun t =>
        (t.rd (chOff x Reg.tiaFcnt)).toNat = min 0xFFFFFFFF (s.chan x).tia.gateCount ∧
        (t.chan x).tia.gateNo = (s.chan x).tia.gateNo + 1 ∧ (t.chan x).tia.gateCount = 0 ∧
        ((s.chan x).tia.gateBad = true ∨ (s.chan x).tia.gateCount < 2 → (t.chan x).tia.n = (s.chan x).tia.n) ∧
        ((s.chan x).tia.gateBad = false → 2 ≤ (s.chan x).tia.gateCount → (s.rd (chOff x Reg.tiaCount)).toNat + 1 < s.tiaN x →
          TookResult s t x (divNearest ((((s.chan x).tia.gateLast : Int) - (s.chan x).tia.gateFirst) * 4096) ((s.chan x).tia.gateCount - 1)))))

/-- Lines and their tables (R308 to R314, R464): a line that locks takes the uniform table; one that is lost raises its flag and event and
takes its fallback table where the temperature allows; the code-density test is started in an idle lane and ends, with 2^H hits in its bins,
with a table that passes or is refused. Where the specification leaves open what is said here, it is the model's choice: log 42. -/
def Obligations.LinesAndTheirTables : Prop :=
  ∀ (s : State) (ch : ChId) (n : Nat), n = ch.val →
    (∀ line : CellId,
      (s.lineState n line ≠ 0 → Completes (.lineLock ch line) s (.one (.reg (chOff n Reg.tiaLine)) :: chansFoot (n / 16)) (fun t =>
        t.lineState n line = 0 ∧ ∀ r, r < 320 → (t.chan n).width line r = 4096)) ∧
      (s.lineState n line = 0 → Completes (.lineLock ch line) s [] (fun _ => True)) ∧
      (∀ ok, ok = ((s.calRd (chanRec n 0x70) 1).testBit line && decide (-320 ≤ s.temp (8 + n / 16) - s.tcal n ∧
          s.temp (8 + n / 16) - s.tcal n ≤ 320)) →
        ∀ i ∈ [(Instr.lineUnlock ch line, true), (.lineAcquireTimeout ch line, false)],
          (s.lineState n line = 1 ∨ (i.2 = true ∧ s.lineState n line = 0) →
            Completes i.1 s ([.events, .one .snd, .pair (chOff n Reg.tiaFlags), .one (.reg (chOff n Reg.tiaLine))] ++ chansFoot (n / 16)) (fun t =>
              (s.retained (chOff n Reg.tiaFlags) = false → t.rdB (chOff n Reg.tiaFlags) 2 = true) ∧
              t.lineState n line = (if ok then 3 else 2) ∧
              (ok = true → ∀ r, r < 320 → (t.chan n).width line r = s.calRd (0x12000 + (6 * n + line) * 640 + 2 * r) 2) ∧
              (ok = false → ∀ r, r < 320 → (t.chan n).width line r = (s.chan n).width line r) ∧
              ∃ u : State, ChangesOnly [.pair (chOff n Reg.tiaFlags)] s u ∧
                t = (u.post (evLane (n / 16) 2) 0x04 (evData [(0, n % 16), (8, line)])).lineOff n line)) ∧
          (s.lineState n line ≠ 1 → (i.2 = true → s.lineState n line ≠ 0) → Completes i.1 s [] (fun _ => True)))) ∧
    (∀ v : W32, s.reaches (chOff n Reg.tiaCdCtl) = true →
      (fieldOf v 12 8 < 16 ∨ 24 < fieldOf v 12 8 → Completes (.codeDensityStart ch v) s [.pair (chOff n Reg.tiaFlags)] (fun t =>
        s.retained (chOff n Reg.tiaFlags) = false → t.rdB (chOff n Reg.tiaFlags) 0 = true)) ∧
      (16 ≤ fieldOf v 12 8 → fieldOf v 12 8 ≤ 24 →
        (bitOf v 0 = false → Completes (.codeDensityStart ch v) s (.one (.reg (chOff n Reg.tiaCdCtl)) :: wakeFoot (n / 16)) (fun t =>
          t.rdF (chOff n Reg.tiaCdCtl) 12 8 = fieldOf v 12 8)) ∧
        (bitOf v 0 = true → s.laneIdle (n / 16) = false ∨ s.tiaFree n = false →
          Completes (.codeDensityStart ch v) s ([.pair (chOff n Reg.tiaFlags), .one (.reg (chOff n Reg.tiaCdCtl))] ++ wakeFoot (n / 16)) (fun t =>
            t.rdB (chOff n Reg.tiaFlags) 0 = true)) ∧
        (bitOf v 0 = true → s.laneIdle (n / 16) = true → s.tiaFree n = true → fieldOf v 21 16 ≠ 0 →
          Completes (.codeDensityStart ch v) s ([.one (.chan n), .one (.reg (chOff n Reg.tiaCdCtl))] ++ wakeFoot (n / 16)) (fun t =>
            (t.chan n).cdLeft = bitList 6 (fieldOf v 21 16) ∧ t.rdB (chOff n Reg.tiaCdCtl) 31 = true ∧
            t.rdF (chOff n Reg.tiaCdCtl) 25 24 = 0)))) ∧
    (∀ (line : CellId) (hits : List Nat) (left : List Nat), (s.chan n).cdLeft.contains line.val = true → hits.length = 320 →
      hits.sum = 2 ^ (if s.sounding && s.padHeld n then 16 else s.rdF (chOff n Reg.tiaCdCtl) 12 8) →
      left = (s.chan n).cdLeft.filter (· ≠ line.val) →
      (s.sounding = false → Completes (.codeDensityEnd ch line hits) s
          ([.one (.reg (chOff n Reg.tiaCdCtl)), .pair (chOff n Reg.tiaFlags), .one (.reg (chOff n Reg.tiaLine))] ++ chansFoot (n / 16)) (fun t =>
        (t.chan n).cdLeft = left ∧ t.rdB (chOff n Reg.tiaCdCtl) 31 = (decide (left ≠ []) || s.tiaStepOn n) ∧
        (densityFails hits = true → (s.retained (chOff n Reg.tiaFlags) = false → t.rdB (chOff n Reg.tiaFlags) 3 = true) ∧ t.rdF (chOff n Reg.tiaCdCtl) 25 24 = 2 ∧
          t.rd (chOff n Reg.tiaLine) = s.rd (chOff n Reg.tiaLine) ∧ (t.chan n).widths = (s.chan n).widths) ∧
        (densityFails hits = false → t.lineState n line = 3 ∧
          (∀ r, r < 320 → (t.chan n).width line r = (densityTable hits).getD r 0) ∧
          Tbl.get (fun _ => 0) (t.chan n).testTemp line = s.temp (8 + n / 16) ∧
          t.rdF (chOff n Reg.tiaCdCtl) 25 24 = (if s.rdF (chOff n Reg.tiaCdCtl) 25 24 = 2 then 2 else 1)))) ∧
      (s.sounding = true → s.sndPhase = 2 → left = [] → (∀ m ∈ s.testedChans, m ≠ n → (s.chan m).cdLeft = []) →
        Completes (.codeDensityEnd ch line hits) s ([.one (.reg (chOff n Reg.tiaCdCtl)), .pair (chOff n Reg.tiaFlags),
          .one (.reg (chOff n Reg.tiaLine)), .chans, .chReg Reg.peStatus, .chReg Reg.pmuStatus, .one (.reg Reg.sndStatus)]) (fun t => t.sndPhase = 3)))

/-- The parametric units (R322 to R336): staging writes, synchronising resets, result words with their flags, the offset of the DC-blocking
stage and the window monitor, and clamps and overload; a reset drops the clamp spans that have ended and, with FREEZE, keeps the offset.
Where the specification leaves open what is said here, it is the model's choice: log 47, log 48, log 49. -/
def Obligations.ParametricUnits : Prop :=
  ∀ (s : State) (ch : ChId) (n : Nat), n = ch.val →
    (∀ (i : Fin 5) (v : W32) (o : Nat), o = Reg.pmuForce + 4 * i → s.reaches (chOff n o) = true →
      (s.pmuLegal n o v = true → Completes (.pmuStagingWrite ch i v) s [.one (.reg (chOff n o))] (fun t =>
        ∀ f, findRow (chOff n o) = some f → t.rd (chOff n o) = takeFields f (s.rd (chOff n o)) v)) ∧
      (s.pmuLegal n o v = false → Completes (.pmuStagingWrite ch i v) s [.pair (chOff n Reg.pmuFlags)] (fun t =>
        s.retained (chOff n Reg.pmuFlags) = false → t.rdB (chOff n Reg.pmuFlags) 0 = true))) ∧
    (∀ (c : CluId) (v : W32), s.reaches (cluOff c Reg.pmuSync) = true →
      Completes (.pmuSyncWrite c v) s (if fieldOf v 15 0 = 0 then [] else chansFoot c ++ wakeFoot c) (fun t =>
        ∀ k : Fin 16, (t.chan (16 * c + k)).pmu.resets = (s.chan (16 * c + k)).pmu.resets +
          (if bitOf v k && s.pmuIssues (16 * c + k) && !s.rdB (chOff (16 * c + k) Reg.peStatus) 2 && !s.padHeld (16 * c + k) then 1 else 0))) ∧
    (∀ cycle,
      ((s.chan n).pmu.resets = 0 → Completes (.syncReset ch cycle) s [] (fun _ => True)) ∧
      ((s.chan n).pmu.resets ≠ 0 → s.rdB (chOff n Reg.peStatus) 2 = true ∨ s.pmuIssues n = false →
        Completes (.syncReset ch cycle) s [.one (.chan n)] (fun t =>
          (t.chan n).pmu = { (s.chan n).pmu with resets := (s.chan n).pmu.resets - 1 })) ∧
      ((s.chan n).pmu.resets ≠ 0 → s.rdB (chOff n Reg.peStatus) 2 = false → s.pmuIssues n = true →
        Completes (.syncReset ch cycle) s [.one (.chan n), .one (.reg (chOff n Reg.pmuStatus)), .one (.reg (chOff n Reg.pmuWords))] (fun t =>
          (t.chan n).pmu.resets = (s.chan n).pmu.resets - 1 ∧ (t.chan n).pmu.k = 0 ∧ (t.chan n).pmu.live = true ∧
          (t.chan n).pmu.resetAt = cycle ∧ (t.chan n).pmu.overs = [] ∧ (t.chan n).pmu.kept = s.rdB (chOff n Reg.pmuDcb) 31 ∧
          (∀ i ∈ (t.chan n).pmu.clamps, i ∈ (s.chan n).pmu.clamps ∧ ∀ e, i.2 = some e → cycle < e) ∧ t.rdB (chOff n Reg.pmuStatus) 2 = true ∧
          t.rdB (chOff n Reg.pmuStatus) 3 = false ∧ (s.padHeld n = false → t.rd (chOff n Reg.pmuWords) = 0)))) ∧
    (∀ (x : Int) (w : WordParts) (k : Nat) (dcb : Bool), w = s.wordParts n x → k = (s.chan n).pmu.k → dcb = bitOf (s.pmuFilt n) 13 →
      ((s.chan n).pmu.live = true → s.padHeld n = false →
        Completes (.resultWord ch x) s [.one (.chan n), .one (.clu (n / 16)), .one (.reg (chOff n Reg.pmuStatus)), .pair (chOff n Reg.pmuWmon),
            .one (.reg (chOff n Reg.pmuDcb)), .one (.reg (chOff n Reg.pmuWords)), .one (.reg (chOff n Reg.pmuResult))] (fun t =>
          t.rd (chOff n Reg.pmuResult) = pmuWord (k == 0) w.clamped w.loaded (s.pmuMode n == 1 || s.pmuMode n == 4) n w.value ∧
          (dcb = false → w.value = clampInt (-0x800000) 0x7FFFFF x) ∧
          (dcb = true → s.rdB (chOff n Reg.pmuDcb) 31 = false → k = 0 → (s.chan n).pmu.kept = false → w.value = 0) ∧
          (dcb = true → s.rdB (chOff n Reg.pmuDcb) 31 = true ∨ k ≠ 0 ∨ (s.chan n).pmu.kept = true →
            w.value = clampInt (-0x800000) 0x7FFFFF (x - (s.chan n).pmu.s)) ∧
          (dcb = true → s.rdB (chOff n Reg.pmuDcb) 31 = true → w.offset = (s.chan n).pmu.s) ∧
          (t.rd (chOff n Reg.pmuWords)).toNat = satAdd 0xFFFFFFFF (s.rd (chOff n Reg.pmuWords)).toNat 1 ∧
          (t.chan n).pmu.k = k + 1 ∧ (t.chan n).pmu.s = w.offset ∧ t.rdB (chOff n Reg.pmuStatus) 2 = false ∧
          (s.retained (chOff n Reg.pmuWmon) = false → s.rdB (chOff n Reg.pmuWmon) 0 = true →
            sext 24 (s.rdF (chOff n Reg.pmuWinHi) 23 0) < w.value → t.rdB (chOff n Reg.pmuWmon) 8 = true) ∧
          (s.retained (chOff n Reg.pmuWmon) = false → s.rdB (chOff n Reg.pmuWmon) 0 = true → w.value < sext 24 (s.rdF (chOff n Reg.pmuWinLo) 23 0) →
            t.rdB (chOff n Reg.pmuWmon) 9 = true) ∧
          (s.rdB (chOff n Reg.pmuWmon) 0 = false → t.rd (chOff n Reg.pmuWmon) = s.rd (chOff n Reg.pmuWmon)) ∧
          (s.acqLive (n / 16) = true → (t.clu (n / 16)).acq.pmu = (s.clu (n / 16)).acq.pmu ++ [(n % 16, t.rd (chOff n Reg.pmuResult))]))) ∧
      ((s.chan n).pmu.live = true → s.padHeld n = true →
        Completes (.resultWord ch x) s [.one (.chan n), .one .snd, .one (.reg (chOff n Reg.pmuStatus))] (fun t =>
          (t.chan n).pmu.k = k + 1 ∧
          ((s.sndRes n).words.length < 4 → (t.sndRes n).words = (s.sndRes n).words ++ [w.value] ∧
            (t.sndRes n).bad = ((s.sndRes n).bad || w.clamped || w.loaded)) ∧
          (4 ≤ (s.sndRes n).words.length → t.snd = s.snd))) ∧
      ((s.chan n).pmu.live = false → Completes (.resultWord ch x) s [] (fun _ => True))) ∧
    (∀ v : W32, s.reaches (chOff n Reg.pmuDcb) = true → Completes (.pmuDcbWrite ch v) s [.one (.reg (chOff n Reg.pmuDcb))] (fun t =>
      ∀ f, findRow (chOff n Reg.pmuDcb) = some f → t.rd (chOff n Reg.pmuDcb) = takeFields f (s.rd (chOff n Reg.pmuDcb)) v)) ∧
    (∀ cycle,
      (s.clampable n = true → s.rdB (chOff n Reg.pmuStatus) 1 = false →
        Completes (.clampEntry ch cycle) s [.one (.chan n), .pair (chOff n Reg.pmuFlags), .one (.reg (chOff n Reg.pmuStatus))] (fun t =>
          t.rdB (chOff n Reg.pmuStatus) 1 = true ∧ (s.retained (chOff n Reg.pmuFlags) = false → t.rdB (chOff n Reg.pmuFlags) 1 = true) ∧
          (t.chan n).pmu.clamps = (s.chan n).pmu.clamps ++ [(cycle, none)])) ∧
      (s.rdB (chOff n Reg.pmuStatus) 1 = true →
        Completes (.clampExit ch cycle) s [.one (.chan n), .one (.reg (chOff n Reg.pmuStatus))] (fun t =>
          t.rdB (chOff n Reg.pmuStatus) 1 = false ∧
          (t.chan n).pmu.clamps = (s.chan n).pmu.clamps.map (fun i => if i.2 = none then (i.1, some cycle) else i)) ∧
        Completes (.clampEntry ch cycle) s [] (fun _ => True)) ∧
      (s.clampable n = false → Completes (.clampEntry ch cycle) s [] (fun _ => True)) ∧
      (s.rdB (chOff n Reg.pmuStatus) 1 = false → Completes (.clampExit ch cycle) s [] (fun _ => True)) ∧
      (s.rdB (chOff n Reg.pmuStatus) 0 = false ∨ s.secondary n = true → Completes (.modulatorOverload ch cycle) s [] (fun _ => True)) ∧
      (s.rdB (chOff n Reg.pmuStatus) 0 = true → s.secondary n = false →
        Completes (.modulatorOverload ch cycle) s [.one (.chan n), .pair (chOff n Reg.pmuFlags), .one (.reg (chOff n Reg.pmuStatus))] (fun t =>
          t.rdB (chOff n Reg.pmuStatus) 3 = true ∧ (s.retained (chOff n Reg.pmuFlags) = false → t.rdB (chOff n Reg.pmuFlags) 2 = true) ∧
          (t.chan n).pmu.overs = (s.chan n).pmu.overs ++ [cycle])))

/-- Waveform synthesis (R361, R364 to R366, R368, R370, R372, R373, R376): a token at the front issues 64 vectors and plays 64 samples of its
entry, or IDLE_CODE; an entry that is engaged, or a value that is illegal, is refused; another is stored, and is read back. A read back that
also writes does so at a free CK_EDGE cycle. Where the specification leaves open what is said here, it is the model's choice: log 15, log
58. -/
def Obligations.WaveformSynthesis : Prop :=
  ∀ (s : State) (c : CluId),
    (∀ (t : Token) (rest : List Item), (s.lane c).live = true → (s.lane c).fillLeft = 0 →
        (s.lane c).queue = .token t :: rest → t.keep.gap = false →
      Completes (.ddsTokenIssue c) s ([.one (.lane c), .one (.clu c), .one (.reg (cluOff c Reg.ddsStatus)), .one (.reg (cluOff c Reg.ddsMarkCnt)),
          .pair (cluOff c Reg.ddsPhaseLo), .pair (cluOff c Reg.ddsFlags), .pair (cluOff c Reg.ddsGranLo)] ++
          ofChans c (fun n => [.one (.reg (chOff n Reg.peWmon)), .one (.reg (chOff n Reg.pmuWmon)), .pair (chOff n Reg.tgFlags)])) (fun u =>
        (u.lane c).queue = rest ∧ (u.lane c).issued = (s.lane c).issued + 64 ∧
        u.rd64 (cluOff c Reg.ddsGranLo) = (s.rd64 (cluOff c Reg.ddsGranLo) + 1) % 2 ^ 48 ∧ u.rdB (cluOff c Reg.ddsStatus) 0 = true ∧
        ∃ g : DdsGran, g.named = t.named ∧ g.cycle = (s.lane c).pad + (s.lane c).t / 320 ∧
        (u.clu c).dds.out = (s.clu c).dds.out.filter (fun x => decide (g.cycle < x.cycle + 640)) ++ [g] ∧
        (t.entry = none → g.codes = List.replicate 64 (s.rdF (cluOff c Reg.ddsCtl) 9 0) ∧
          (s.retained (cluOff c Reg.ddsFlags) = false → u.rdB (cluOff c Reg.ddsFlags) 3 = true) ∧
          (u.clu c).dds.acc = (s.clu c).dds.acc) ∧
        (∀ (i : Nat) (e : DdsEntry) (j f p amp a0 : Nat), t.entry = some i → e = s.ddsOf c i → j = t.g / e.dwell →
          f = Tbl.get (fun _ => 0) (s.clu c).dds.freq (listIndex e.fidx e.steps j e.stepF) →
          p = Tbl.get (fun _ => 0) (s.clu c).dds.phase (listIndex e.pidx e.steps j e.stepP) →
          amp = Tbl.get (fun _ => 0) (s.clu c).dds.amp (listIndex e.aidx e.steps j e.stepA) →
          a0 = (if reloadDue e t then p * 2 ^ 32 else (s.clu c).dds.acc) →
          (u.clu c).dds.acc = (a0 + 64 * f) % 2 ^ 48 ∧
          g.codes = (List.range 64).map (fun k =>
            (clampInt 0 1023 (sampleRaw (amp % 2 ^ 15) (amp / 2 ^ 16) ((a0 + k * f) % 2 ^ 48))).toNat) ∧
          (markDue e t = true → (u.rd (cluOff c Reg.ddsMarkCnt)).toNat = satAdd 0xFFFFFFFF (s.rd (cluOff c Reg.ddsMarkCnt)).toNat 1 ∧
            g.cycle ∈ (u.clu c).dds.marks) ∧
          (markDue e t = false → (u.clu c).dds.marks = (s.clu c).dds.marks)))) ∧
    (∀ (v d0 d1 : W32) (table i cycle : Nat) (back : List Foot), s.reaches (cluOff c Reg.ddsAddr) = true → table = fieldOf v 25 24 →
      i = fieldOf v 7 0 → d0 = s.rd (cluOff c Reg.ddsData0) → d1 = s.rd (cluOff c Reg.ddsData1) →
      back = .one (.reg (cluOff c Reg.ddsAddr)) :: (if bitOf v 30 then [.pair (cluOff c Reg.ddsData0)] else []) →
      (bitOf v 31 = true → s.tableEngaged c cycle table i = true ∨ ddsIllegal table d0 d1 = true →
        Completes (.ddsEntryWrite ⟨c, cycle⟩ v) s (.pair (cluOff c Reg.ddsFlags) :: back) (fun u =>
          (s.retained (cluOff c Reg.ddsFlags) = false →
            (s.tableEngaged c cycle table i = true → u.rdB (cluOff c Reg.ddsFlags) 0 = true) ∧
            (ddsIllegal table d0 d1 = true → u.rdB (cluOff c Reg.ddsFlags) 1 = true)) ∧
          (bitOf v 30 = true → u.rd64 (cluOff c Reg.ddsData0) = s.tableGet c table i % 2 ^ 64))) ∧
      (bitOf v 31 = true → s.tableEngaged c cycle table i = false → ddsIllegal table d0 d1 = false →
        Completes (.ddsEntryWrite ⟨c, cycle⟩ v) s (.one (.clu c) :: back) (fun u =>
          u.tableGet c table i = d0.toNat + 2 ^ 32 * d1.toNat ∧ (∀ k, k ≠ i → u.tableGet c table k = s.tableGet c table k) ∧
          (bitOf v 30 = true → u.rd64 (cluOff c Reg.ddsData0) = d0.toNat + 2 ^ 32 * d1.toNat))) ∧
      (bitOf v 31 = false → ∀ ins ∈ [Instr.ddsEntryWrite ⟨c, cycle⟩ v, .ddsEntryRead c v], Completes ins s back (fun u =>
        bitOf v 30 = true → u.rd64 (cluOff c Reg.ddsData0) = s.tableGet c table i % 2 ^ 64)) ∧
      (bitOf v 31 = true → ∃ k u, exec (.ddsEntryRead c v) s = .next u ∧
        exec (.ddsEntryWrite ⟨c, k⟩ v) { s with freeCtr := s.freeCtr + 1 } = .next u))

/-- The control of a trigger engine and its capture (R340, R341, R351, R354 to R356, R359, R360, R450): ARM and configuration are taken in IDLE
and DONE only; the arm instant, with ARM_SRC = 1 that of a lane start, FORCE, ABORT and the end of REARM; and the registers of the spill. Where the specification leaves open what is
said here, it is the model's choice: log 55, log 57, log 80. -/
def Obligations.AcquisitionIsControlled : Prop :=
  ∀ (s : State) (c : CluId),
    (s.reaches (cluOff c Reg.acqCtl) = true →
      (s.acqFree c = true → s.spillSlots c ≠ 0 → Completes (.acqArm c) s ([.one (.clu c), .one (.reg (cluOff c Reg.acqStatus)),
          .one (.reg (cluOff c Reg.acqFrameCnt)), .one (.reg (cluOff c Reg.acqMissed)), .one (.reg (cluOff c Reg.acqGapCnt)),
          .one (.reg (cluOff c Reg.acqGapLen)), .one (.reg (cluOff c Reg.acqDrop))] ++ wakeFoot c) (fun t =>
        t.acqState c = 1 ∧ t.rdF (cluOff c Reg.acqStatus) 6 4 = 0 ∧ t.rdF (cluOff c Reg.acqStatus) 9 8 = 0 ∧
        t.rd (cluOff c Reg.acqFrameCnt) = 0 ∧ t.rd (cluOff c Reg.acqMissed) = 0 ∧ t.rd (cluOff c Reg.acqGapCnt) = 0 ∧
        t.rd (cluOff c Reg.acqDrop) = 0 ∧ t.rd (cluOff c Reg.acqGapLen) = 0 ∧
        (t.clu c).acq = { acqReset with armDue := true, place := (s.clu c).acq.place, spillQ := (s.clu c).acq.spillQ,
                                        waits := (s.clu c).acq.waits, armPad := (s.lane c).pad })) ∧
      (s.acqFree c = false ∨ s.spillSlots c = 0 → Completes (.acqArm c) s (.pair (cluOff c Reg.acqFlags) :: wakeFoot c) (fun t =>
        t.rdB (cluOff c Reg.acqFlags) 0 = true)) ∧
      (s.acqState c = 1 ∨ s.acqState c = 2 ∨ s.acqState c = 3 → Completes (.acqAbort c) s [.events, .one (.clu c),
          .one (.reg (cluOff c Reg.acqStatus)), .one (.reg (cluOff c Reg.acqFrameCnt)), .pair (cluOff c Reg.acqFlags),
          .one (.reg (cluOff c Reg.acqDrop)), .one (.reg (cluOff c Reg.acqGapLen)), .one (.reg (cluOff c Reg.acqGapCnt))] (fun t =>
        t.acqState c = 4 ∧ t.rdF (cluOff c Reg.acqStatus) 9 8 = 2 ∧ t.rdB (cluOff c Reg.acqStatus) 7 = false ∧
        (t.rd (cluOff c Reg.acqFrameCnt)).toNat =
          (if s.acqState c = 2 then satAdd 0xFFFFFFFF (s.rd (cluOff c Reg.acqFrameCnt)).toNat 1 else (s.rd (cluOff c Reg.acqFrameCnt)).toNat) ∧
        Posted s t [.one (.clu c), .one (.reg (cluOff c Reg.acqStatus)), .one (.reg (cluOff c Reg.acqFrameCnt)), .pair (cluOff c Reg.acqFlags),
          .one (.reg (cluOff c Reg.acqDrop)), .one (.reg (cluOff c Reg.acqGapLen)), .one (.reg (cluOff c Reg.acqGapCnt))]
          (evLane c 0) 0x01 (evData [(0, 2), (32, (t.rd (cluOff c Reg.acqFrameCnt)).toNat)]))) ∧
      (s.acqFree c = true → Completes (.acqAbort c) s [] (fun _ => True)) ∧
      (s.acqLive c = true → Completes (.acqForce c) s [.one (.clu c)] (fun t =>
        t.clu c = { s.clu c with acq := { (s.clu c).acq with inputs := (s.clu c).acq.inputs ++ [plainIn 8] } })) ∧
      (s.acqLive c = false → Completes (.acqForce c) s [] (fun _ => True))) ∧
    (∀ cycle, (s.clu c).acq.armDue = true →
      s.rdB (cluOff c Reg.acqCfg) 0 = false ∨ ((s.lane c).pad = cycle ∧ (s.clu c).acq.armPad ≠ cycle) →
      Completes (.acqArmInstant c cycle) s [.one (.clu c)] (fun t =>
        t.clu c = { s.clu c with acq := { (s.clu c).acq with armDue := false, armAt := cycle, sample := 0 } })) ∧
    (∀ cycle, (s.clu c).acq.armDue = false ∨
        (s.rdB (cluOff c Reg.acqCfg) 0 = true ∧ ((s.lane c).pad ≠ cycle ∨ (s.clu c).acq.armPad = cycle)) →
      Completes (.acqArmInstant c cycle) s [] (fun _ => True)) ∧
    (s.acqState c ≠ 3 → Completes (.rearmEnd c) s [] (fun _ => True)) ∧
    (s.acqState c = 3 → ∀ frames, frames = s.rdF (cluOff c Reg.acqFrames) 15 0 →
      (frames = 0 ∨ (s.rd (cluOff c Reg.acqFrameCnt)).toNat < frames →
        Completes (.rearmEnd c) s [.one (.clu c), .one (.reg (cluOff c Reg.acqStatus))] (fun t =>
          t.acqState c = 1 ∧ t.rdB (cluOff c Reg.acqStatus) 7 = false ∧ (t.clu c).acq.k = 0 ∧ (t.clu c).acq.pre = [] ∧
          (t.clu c).acq.trigAt = none ∧ (t.clu c).acq.spillQ = (s.clu c).acq.spillQ ∧
          t.rdF (cluOff c Reg.acqStatus) 6 4 = (if s.rdB (cluOff c Reg.acqCfg) 1 then 0 else s.rdF (cluOff c Reg.acqStatus) 6 4))) ∧
      (frames ≠ 0 → frames ≤ (s.rd (cluOff c Reg.acqFrameCnt)).toNat →
        Completes (.rearmEnd c) s [.events, .one (.clu c), .one (.reg (cluOff c Reg.acqStatus))] (fun t =>
          t.acqState c = 4 ∧ t.rdF (cluOff c Reg.acqStatus) 9 8 = 1 ∧
          Posted s t [.one (.clu c), .one (.reg (cluOff c Reg.acqStatus))] (evLane c 0) 0x01
            (evData [(0, 1), (32, (s.rd (cluOff c Reg.acqFrameCnt)).toNat)])))) ∧
    (∀ v : W32, s.reaches (cluOff c Reg.acqSpillRd) = true →
      ∀ n new rd wr, n = s.spillSlots c → new = fieldOf v 27 0 → rd = s.rdF (cluOff c Reg.acqSpillRd) 27 0 →
        wr = s.rdF (cluOff c Reg.acqSpillWr) 27 0 →
      (new < n → (new + n - rd) % n ≤ (wr + n - rd) % n → Completes (.acqSpillRdWrite c v) s [.one (.reg (cluOff c Reg.acqSpillRd))] (fun t =>
        t.rd (cluOff c Reg.acqSpillRd) = BitVec.ofNat 32 new)) ∧
      (n ≤ new ∨ (wr + n - rd) % n < (new + n - rd) % n → Completes (.acqSpillRdWrite c v) s [.pair (cluOff c Reg.acqFlags)] (fun t =>
        s.retained (cluOff c Reg.acqFlags) = false → t.rdB (cluOff c Reg.acqFlags) 0 = true))) ∧
    (∀ (size : Bool) (v : W32) (o base n : Nat), o = cluOff c (if size then Reg.acqSpillSize else Reg.acqSpillBase) → s.reaches o = true →
      base = (if size then s.rdF (cluOff c Reg.acqSpillBase) 15 0 else fieldOf v 15 0) →
      n = (if size then fieldOf v 15 0 else s.rdF (cluOff c Reg.acqSpillSize) 15 0) →
      (s.acqFree c = true → n = 0 ∨ base + n ≤ s.rdF Reg.memSpillSize 14 0 * 16 → Completes (.acqSpillConfigWrite c size v) s
          [.one (.reg o), .one (.reg (cluOff c Reg.acqSpillWr)), .one (.reg (cluOff c Reg.acqSpillRd))] (fun t =>
        t.rd o = BitVec.ofNat 32 (fieldOf v 15 0) ∧ t.rd (cluOff c Reg.acqSpillWr) = 0 ∧ t.rd (cluOff c Reg.acqSpillRd) = 0)) ∧
      (s.acqFree c = false ∨ (n ≠ 0 ∧ s.rdF Reg.memSpillSize 14 0 * 16 < base + n) →
        Completes (.acqSpillConfigWrite c size v) s [.pair (cluOff c Reg.acqFlags)] (fun t =>
          s.retained (cluOff c Reg.acqFlags) = false → t.rdB (cluOff c Reg.acqFlags) 0 = true))) ∧
    (∀ (off : BitVec 12) (v : W32) (o : Nat), o = cluOff c off.toNat → s.reaches o = true → acqConfigReg off.toNat = true →
      (s.acqFree c = true → acqRefused off.toNat v = false → s.preRefused c off.toNat v = false → Completes (.acqConfigWrite c off v) s [.one (.reg o)] (fun t =>
        ∀ f, findRow o = some f → t.rd o = takeFields f (s.rd o) v)) ∧
      (s.acqFree c = false ∨ acqRefused off.toNat v = true ∨ s.preRefused c off.toNat v = true →
        Completes (.acqConfigWrite c off v) s [.pair (cluOff c Reg.acqFlags)] (fun t =>
        s.retained (cluOff c Reg.acqFlags) = false → t.rdB (cluOff c Reg.acqFlags) 0 = true)))

/-- Samples and the spill (R340, R343 to R345, R347, R352, R357, R358, R443): a sample takes the inputs gathered, its records enter the pre-
trigger, the machine counts or takes its arc, and a firing arc triggers, with a TRIGGER record that waits where it finds no free slot; the
state timer's arc; and records leave for the spill ring while it has room. Where the specification leaves open what is said here, it is
the model's choice: log 54, log 56, log 64, log 100. -/
def Obligations.SamplesAndSpill : Prop :=
  ∀ (s : State) (c : CluId) (a : Acq) (st m met room : Nat) (hits : List Nat) (recs : List CapRec) (free : Bool), a = (s.clu c).acq →
    st = cluOff c Reg.acqStatus → recs = s.sampleRecords c a.sample →
    room = ((List.range 4).takeWhile (a.slotFree (s.captureSlots c))).length →
    free = (decide (0 < s.captureSlots c) && !(a.spillQ ++ a.pre).any (fun x => x.1 + s.captureSlots c == a.place)) →
    m = s.rdF st 6 4 → met = s.metBits c → hits = (List.range 8).filter (fun i => met.testBit i && s.rdB (acqSt c Reg.acqStCtl m) i) →
    (s.acqLive c = true → Completes (.triggerSample c) s ([.one (.clu c), .one (.reg st), .one (.reg (cluOff c Reg.acqFrameCnt)),
        .pair (cluOff c Reg.acqFlags), .one (.reg (cluOff c Reg.acqDrop)), .one (.reg (cluOff c Reg.acqGapLen)),
        .one (.reg (cluOff c Reg.acqGapCnt)), .one (.reg (cluOff c Reg.acqTrigInfo)), .pair (cluOff c Reg.acqTrigLo),
        .one (.reg (cluOff c Reg.acqMissed)), .one (.seq c)] ++ ofChans c (fun n => [.one (.chan n), .one (.reg (chOff n Reg.tiaStatus))])) (fun t =>
      (t.clu c).acq.sample = a.sample + 1 ∧ (t.clu c).acq.inputs = [] ∧ (t.clu c).acq.strobes = [] ∧ (t.clu c).acq.pmu = [] ∧
      (t.clu c).acq.tia = [] ∧
      (a.trigAt = some a.sample → t.rdB st 7 = true ∧
        (s.rdB (cluOff c Reg.seqIvec) 15 = true → (s.seq c).inPart = true → (t.seq c).pend.getLsbD 3 = true) ∧
        ∀ n ∈ chansOf c, fieldOf (s.tiaCfg n) 6 5 = 1 → (s.chan n).tia.armDue = true →
          t.tiaState n = 2 ∧ (t.chan n).tia.armAt = a.armAt + 8 * a.sample) ∧
      (a.trigAt ≠ some a.sample → (s.clu c).dds.marks = [] → a.waits = [] →
        (s.acqState c = 1 → a.gap = none → hits = [] → recs ≠ [] → recs.length ≤ room →
          (t.clu c).acq.pre =
            lastN (s.rdF (cluOff c Reg.acqPre) 15 0) (a.pre ++ recs.zipIdx.map (fun x => (a.place + x.2, x.1))) ∧
          (t.clu c).acq.place = a.place + recs.length) ∧
        (s.acqState c = 1 → a.gap = none → hits = [] → room < recs.length →
          (t.clu c).acq.gap = some (a.sample, a.sample, recs.length - room) ∧ (t.clu c).acq.place = a.place + room) ∧
        (s.acqState c = 1 → recs = [] → a.gap = none →
          (hits = [] → t.rd st = s.rd st ∧ (t.clu c).acq.timer = a.timer + 1 ∧ (t.clu c).acq.count = a.count ∧ (t.clu c).acq.met = met) ∧
          (∀ w l, hits = w :: l → a.count + 1 ≠ (s.rd (acqSt c Reg.acqStCount m)).toNat →
            t.rd st = s.rd st ∧ (t.clu c).acq.count = a.count + 1) ∧
          (∀ w l arc, hits = w :: l → a.count + 1 = (s.rd (acqSt c Reg.acqStCount m)).toNat →
              arc = s.rdF (acqSt c Reg.acqStNext m) (4 * w + 3) (4 * w) →
            t.rdF st 6 4 = arc % 8 ∧ (t.clu c).acq.count = 0 ∧ (t.clu c).acq.timer = 0 ∧
            (arc < 8 → t.acqState c = 1) ∧
            (8 ≤ arc → s.rd (cluOff c Reg.acqPost) ≠ 0 → t.acqState c = 2 ∧ t.rdB st 12 = false ∧ (t.clu c).acq.trigAt = some (a.sample + 2) ∧
              t.rd64 (cluOff c Reg.acqTrigLo) = (s.trigTime c w a.sample).1 % 2 ^ 64 ∧ (t.clu c).acq.pre = [] ∧
              ∃ r : CapRec, r.toNat % 16 = 5 ∧
                (free = true → (t.clu c).acq.spillQ = a.spillQ ++ a.pre ++ [(a.place, r)] ∧ (t.clu c).acq.waits = []) ∧
                (free = false → (t.clu c).acq.spillQ = a.spillQ ++ a.pre ∧ (t.clu c).acq.waits = [(false, r)]))))))) ∧
    (s.acqLive c = false → Completes (.triggerSample c) s [] (fun _ => True) ∧ Completes (.stateTimeout c) s [] (fun _ => True)) ∧
    (s.acqLive c = true → ∀ T ctl, T = (s.rd (acqSt c Reg.acqStTimer m)).toNat → ctl = s.rd (acqSt c Reg.acqStCtl m) → T ≠ 0 → T ≤ a.timer →
      (bitOf ctl 11 = false → Completes (.stateTimeout c) s [.one (.clu c), .one (.reg st)] (fun t =>
        t.rdF st 6 4 = fieldOf ctl 10 8 ∧ (t.clu c).acq.timer = 0 ∧ (t.clu c).acq.count = 0 ∧ t.acqState c = s.acqState c)) ∧
      (bitOf ctl 11 = true → s.acqState c = 1 → s.rd (cluOff c Reg.acqPost) ≠ 0 →
        Completes (.stateTimeout c) s [.one (.clu c), .one (.reg st), .one .freeCtr, .pair (cluOff c Reg.acqFlags),
            .one (.reg (cluOff c Reg.acqTrigInfo)), .pair (cluOff c Reg.acqTrigLo)] (fun t =>
          t.rdF st 6 4 = fieldOf ctl 10 8 ∧ t.acqState c = 2 ∧ t.rdB st 12 = true ∧ (t.clu c).acq.trigAt = some (a.sample - 1 + 2))) ∧
      (bitOf ctl 11 = true → s.acqState c ≠ 1 →
        Completes (.stateTimeout c) s [.one (.clu c), .one (.reg st), .one .freeCtr, .pair (cluOff c Reg.acqFlags),
            .one (.reg (cluOff c Reg.acqMissed))] (fun t =>
          t.rdF st 6 4 = fieldOf ctl 10 8 ∧ t.acqState c = s.acqState c ∧
          (s.retained (cluOff c Reg.acqFlags) = false → t.rdB (cluOff c Reg.acqFlags) 2 = true) ∧
          (t.rd (cluOff c Reg.acqMissed)).toNat = satAdd 0xFFFFFFFF (s.rd (cluOff c Reg.acqMissed)).toNat 1))) ∧
    (∀ (part : Fin 16) (row : Fin 512) (r : Nat × CapRec) (rest : List (Nat × CapRec)) (n wr : Nat), a.spillQ = r :: rest → n = s.spillSlots c →
      wr = s.rdF (cluOff c Reg.acqSpillWr) 27 0 →
      (n ≠ 0 → s.dramServes = true → (wr + 1) % n ≠ s.rdF (cluOff c Reg.acqSpillRd) 27 0 →
        Completes (.spillRecord c .clean part row) s [.one (.clu c), .one (.reg (cluOff c Reg.acqSpillWr)), .dram (s.spillAddr c wr) 16] (fun t =>
          rest <+: (t.clu c).acq.spillQ ∧ (s.acqLive c = true ∨ a.waits = [] → (t.clu c).acq.spillQ = rest) ∧
          t.dramRd (s.spillAddr c wr) 16 = leBytes 16 r.2.toNat ∧
          t.rd (cluOff c Reg.acqSpillWr) = BitVec.ofNat 32 ((wr + 1) % n))) ∧
      (n ≠ 0 → s.dramServes = true → (wr + 1) % n = s.rdF (cluOff c Reg.acqSpillRd) 27 0 →
        Completes (.spillRecord c .clean part row) s [.pair (cluOff c Reg.acqFlags)] (fun t =>
          s.retained (cluOff c Reg.acqFlags) = false → t.rdB (cluOff c Reg.acqFlags) 4 = true)) ∧
      (n = 0 ∨ s.dramServes = false → Completes (.spillRecord c .clean part row) s [] (fun _ => True)) ∧
      (∃ u, exec (.spillRecord c .corrected part row) s = .next u ∧ exec (.spillRecord c .clean part row) (s.count Reg.memEccCnt 1) = .next u) ∧
      Completes (.spillRecord c .lost part row) s [.events, .one (.reg Reg.memEccAddr), .pair Reg.memFlags, .one (.clu c),
          .one (.reg (cluOff c Reg.acqDrop)), .one (.reg (cluOff c Reg.acqGapLen)), .one (.reg (cluOff c Reg.acqGapCnt)),
          .pair (cluOff c Reg.acqFlags)] (fun t =>
        t.rdB Reg.memFlags 0 = true ∧ (s.retained (cluOff c Reg.acqFlags) = false → t.rdB (cluOff c Reg.acqFlags) 3 = true) ∧
        (t.rd (cluOff c Reg.acqDrop)).toNat = satAdd 0xFFFFFFFF (s.rd (cluOff c Reg.acqDrop)).toNat 1 ∧
        ∃ g : CapRec, (t.clu c).acq.spillQ = (r.1, g) :: rest ∧ g.toNat % 16 = 4))

/-- Touchdown, lift-off and requests (R377, R378, R390, R392, R407, R409, R434, R453, R466): each shows in SND_STATUS, a touchdown with AUTO
and every host request asks for a pass, unless one runs; a lift-off masks every site, ends a pass and discards a request. Where the
specification leaves open what is said here, it is the model's choice: log 53, log 101. -/
def Obligations.TouchdownAndRequests : Prop :=
  ∀ (s : State) (dist req : List Foot), dist = [.one .cal, .pair Reg.calFlags] → req = dist ++ [.one .snd, .one (.reg Reg.sndStatus),
      .pair Reg.sndFlags, .chReg Reg.tiaLine, .chans, .one (.reg Reg.memRetWakes), .one (.reg Reg.memRetState)] →
    (s.boot.stage = .ready → s.rdB Reg.sndCfg 1 = true →
      (s.snd.tdLow = false → Completes .tdNTouchdown s ([.events, .one .cwy] ++ req) (fun t =>
        t.snd.tdLow = true ∧ t.rdB Reg.sndStatus 1 = true ∧ (s.tipStep = true → t.rdB Reg.calFlags 4 = true) ∧
        (s.rdB Reg.sndCfg 0 = true → s.sounding = false → t.snd.request = some 0 ∧ t.sndPhase = 1 ∧ t.rdF Reg.sndStatus 7 6 = 0) ∧
        (s.rdB Reg.sndCfg 0 = true → s.sounding = true → t.rdB Reg.sndFlags 2 = true ∧ t.snd.request = s.snd.request) ∧
        (s.rdB Reg.sndCfg 0 = false → t.snd.request = s.snd.request) ∧
        (s.rdB Reg.cwyCfg 2 = true → Queued s t 3) ∧ (s.rdB Reg.cwyCfg 2 = false → t.cwy = s.cwy))) ∧
      (s.snd.tdLow = true → Completes .tdNLiftoff s ([.pair Reg.sndFlags, .pair Reg.sndMaskLo, .one .cwy] ++ dist ++ passFoot) (fun t =>
        t.snd.tdLow = false ∧ t.rdB Reg.sndStatus 1 = false ∧ t.rdB Reg.sndStatus 2 = true ∧ t.rd64 Reg.sndMaskLo = 2 ^ 64 - 1 ∧
        (s.tipStep = true → t.rdB Reg.calFlags 4 = true) ∧
        (s.sounding = true → PassEnded s t 2 ∧ t.rdB Reg.sndFlags 1 = true) ∧
        (s.snd.request.isSome = true → t.snd.request = none) ∧
        (s.sounding = false → s.snd.request.isSome = true → BgEnded s t 0x09 St.discarded 0) ∧
        (s.rdB Reg.cwyCfg 2 = true → Queued s t 4) ∧ (s.rdB Reg.cwyCfg 2 = false → t.cwy = s.cwy)))) ∧
    (s.boot.stage ≠ .ready ∨ s.rdB Reg.sndCfg 1 = false ∨ s.snd.tdLow = true → Completes .tdNTouchdown s [] (fun _ => True)) ∧
    (s.boot.stage ≠ .ready ∨ s.rdB Reg.sndCfg 1 = false ∨ s.snd.tdLow = false → Completes .tdNLiftoff s [] (fun _ => True)) ∧
    (s.reaches Reg.sndCtl = true →
      (s.sounding = false → Completes .sndStart s req (fun t =>
        t.snd.request = some 2 ∧ t.sndPhase = 1 ∧ t.rdF Reg.sndStatus 7 6 = 2 ∧ (s.tipStep = true → t.rdB Reg.calFlags 4 = true) ∧
        ∀ c ∈ s.testedClus, t.rdB Reg.memRetState c = false)) ∧
      (s.sounding = true → Completes .sndStart s (.pair Reg.sndFlags :: dist) (fun t => t.rdB Reg.sndFlags 2 = true)) ∧
      (s.sounding = false → s.snd.request = none → Completes .sndClrMask s [.pair Reg.sndMaskLo] (fun t => t.rd64 Reg.sndMaskLo = 0)) ∧
      (s.sounding = true ∨ s.snd.request.isSome = true →
        Completes .sndClrMask s [.pair Reg.sndFlags] (fun t => t.rdB Reg.sndFlags 2 = true))) ∧
    (∀ (c : Cmd) (rest : List Cmd), Front s 0x09 c rest → badFields c = false →
      (s.sounding = false → Completes .sound s (.completion :: req) (fun t => Accepted s t c rest ∧ t.snd.request = some 2 ∧ t.sndPhase = 1)) ∧
      (s.sounding = true → Completes .sound s ([.completion, .pair Reg.sndFlags] ++ dist) (fun t =>
        Finishes s t c rest St.discarded 0 0 ∧ t.rdB Reg.sndFlags 2 = true)))

/-- A sounding pass (R379 to R393): it starts once no plan and no calibration is in the way, taking every channel of the clusters with a
tested one; the contact test judges its four words; the TDR halves judge their means; and the end writes the map, the contact mask, the
bases of the deskewed cells and the summary. Where the specification leaves open what is said here, it is the model's choice: log 50, log
51, log 52. -/
def Obligations.SoundingPasses : Prop :=
  ∀ s : State,
    (s.boot.stage = .ready → s.snd.request.isSome = true → s.plnState = 0 → s.calBusy = false → s.sounding = false →
      Completes .soundingPassStart s ([.one .snd, .one (.reg Reg.sndStatus), .chReg Reg.tiaLine, .one (.reg Reg.memRetWakes),
          .one (.reg Reg.memRetState), .chReg Reg.tiaCdCtl] ++ releaseFoot) (fun t =>
        t.sounding = true ∧ t.snd.request = none ∧
        (∀ n : ChId, s.testedClus.contains (n.val / 16) = true → t.padHeld n = true ∧ t.tiaOwned n = true ∧
          (s.tiaState n = 1 → t.tiaState n = 3 ∧ t.rdF (chOff n Reg.tiaStatus) 6 4 = 4) ∧
          (s.tiaState n = 2 → t.tiaState n = 3 ∧ (t.rdF (chOff n Reg.tiaStatus) 6 4 = 4 ∨ t.rdF (chOff n Reg.tiaStatus) 6 4 = 1))) ∧
        (t.sndPhase = 2 ∨ t.sndPhase = 3) ∧
        ((∀ c ∈ s.testedClus, s.rdB Reg.memRetState c = false) →
          t.sndPhase = (if s.testedChans.any (fun n => !(s.unlockedLines n).isEmpty) then 2 else 3)))) ∧
    (s.sounding = true → s.sndPhase = 3 → (∀ n ∈ s.testedChans, (s.sndRes n).words.length = 4) →
      Completes .contactJudge s [.one .snd, .one (.reg Reg.sndStatus), .chans, .chReg Reg.pmuStatus, .chReg Reg.peStatus, .chReg Reg.tiaStatus,
          .chReg Reg.tiaCount, .chReg Reg.tiaSkip, .chReg Reg.tiaDiscard, .chReg Reg.tiaFcnt] (fun t =>
        t.sndPhase = 4 ∧
        ∀ n ∈ s.testedChans, ∀ w lim, w = (s.sndRes n).words.sum → lim = s.rd Reg.sndCtLim →
          ((s.sndRes n).bad = true ∨ w ≤ 4 * codeVolts21 (fieldOf lim 15 0) → (t.sndRes n).contact = 2) ∧
          ((s.sndRes n).bad = false → 4 * codeVolts21 (fieldOf lim 15 0) < w → 4 * codeVolts21 (fieldOf lim 31 16) ≤ w →
            (t.sndRes n).contact = 3) ∧
          ((s.sndRes n).bad = false → 4 * codeVolts21 (fieldOf lim 15 0) < w → w < 4 * codeVolts21 (fieldOf lim 31 16) →
            (t.sndRes n).contact = 1 ∧ (n % 2 = 0 → t.tiaState n = 1 ∧ t.rdF (chOff n Reg.peStatus) 11 10 = 2)))) ∧
    (∀ second : Bool, s.sounding = true → s.sndPhase = (if second then 5 else 4) →
      Completes .tdrHalfEnd s ([.one .snd, .one (.reg Reg.sndStatus), .chReg Reg.peStatus] ++ measureFoot) (fun t =>
        t.sndPhase = (if second then 6 else 5) ∧
        (∀ n : ChId, s.inHalf second n = true →
          (s.tiaState n = 3 → (t.sndRes n).deskew = (s.judgeTdr n).1 ∧ (t.sndRes n).delta = (s.judgeTdr n).2) ∧
          (s.tiaState n = 1 ∨ (s.tiaState n = 2 ∧ (s.chan n).tia.events = []) → (t.sndRes n).deskew ≠ 1) ∧
          (s.tiaState n = 1 ∨ s.tiaState n = 2 → second = true → t.tiaState n = 3)) ∧
        (∀ n : ChId, s.inHalf second n = false → (t.sndRes n).deskew = (s.sndRes n).deskew) ∧
        (second = false → ∀ n : ChId, s.inHalf true n = true → t.tiaState n = 1))) ∧
    (∀ us : W32, s.sounding = true → s.sndPhase = 6 →
      Completes (.soundingPassEnd us) s ([.one .cal, .pair Reg.calFlags, .pair Reg.sndFlags, .pair Reg.sndMaskLo, .one (.reg Reg.sndTime),
          .one (.reg Reg.sndSummary), .regs Reg.sndMap0 (Reg.sndMap0 + 4096)] ++ passFoot) (fun t =>
        PassEnded s t 1 ∧ t.rd Reg.sndTime = us ∧ t.rdB Reg.sndStatus 2 = false ∧ t.rd64 Reg.sndMaskLo = s.contactMask % 2 ^ 64 ∧
        (∀ n : ChId, t.rd (Reg.sndMap0 + 8 * n) = (s.mapEntry n).1 ∧ t.rd (Reg.sndMap1 + 8 * n) = (s.mapEntry n).2) ∧
        (∀ n : ChId, s.flagged n = true → t.rdB Reg.sndFlags 0 = true) ∧
        (∀ (n : ChId) (j : CellId), s.tested n = true → Tbl.get (fun _ => (0 : Int)) t.cal.kb (6 * n + j) =
          (if (s.sndRes n).deskew = 1 then (if j.val < 4 then s.kref n j - (s.sndRes n).delta else s.kref n j + (s.sndRes n).delta)
           else s.kref n j)))) ∧
    (s.sounding = true → Completes .soundingTimeout s (.pair Reg.sndFlags :: passFoot) (fun t => PassEnded s t 3 ∧ t.rdB Reg.sndFlags 3 = true)) ∧
    (s.sounding = false → Completes .soundingTimeout s [] (fun _ => True)) ∧
    (s.sounding = true → ∀ (n : ChId) (line : CellId) (hits : List Nat), s.padHeld n = true → hits.sum ≠ 2 ^ 16 → s.sndPhase ≠ 2 →
      Completes (.codeDensityEnd n line hits) s [] (fun _ => True))

/-- A calibration starts, ends its steps and takes effect (R463 to R469): it is refused, or takes the clusters in its scope; each step's
values join the new ones where they are plausible, with their lines LOCKED or TABLE, and their channels are marked where not; the TIP step
sets up the settings of the TDR pass (R385); then all new values take effect together.
Where the specification leaves open what is said here, it is the model's choice: log 59, log 60, log 61. -/
def Obligations.CalibrationMeasures : Prop :=
  ∀ s : State,
    (∀ (c : Cmd) (rest : List Cmd) (busy : Bool), Front s 0x0A c rest → badFields c = false →
      busy = (s.planBusy || s.sounding || s.snd.request.isSome || s.calBusy || s.marchDestructive) →
      (calBad c.arg0 = true → Completes .calibrate s [.completion] (fun t => Finishes s t c rest St.badField 0 0)) ∧
      (calBad c.arg0 = false → busy = true → Completes .calibrate s [.completion] (fun t => Finishes s t c rest St.busy 0 0)) ∧
      (calBad c.arg0 = false → busy = false → Completes .calibrate s ([.completion, .one .cal, .one (.reg Reg.calStatus), .chReg Reg.tiaLine,
          .one (.reg Reg.memRetWakes), .one (.reg Reg.memRetState), .chReg Reg.tiaCdCtl, .regs Reg.calChFail (Reg.calChFail + 2048)] ++
          releaseFoot) (fun t =>
        Accepted s t c rest ∧ t.rdF Reg.calStatus 18 16 = stepCode (calItems c.arg0) ∧
        t.cal.run = some { arg := c.arg0, left := calItems c.arg0, partly := false, fresh := [], tables := [], half := false, disturbed := false,
                            applied := false } ∧
        (calItems c.arg0 ≠ [] → ∀ n : ChId, calClu c.arg0 (n.val / 16) = true →
          t.padHeld n = true ∧ t.tiaOwned n = true ∧ t.rd (failReg n) = 0)))) ∧
    (∀ (r : CalRun) (us : W32), s.cal.run = some r →
      (s.reaches Reg.calCtl = true → Completes (.calAbort us) s
          (calEndFoot ++ (if r.applied then [] else .chReg Reg.tiaCdCtl :: releaseFoot)) (fun t =>
        CalEnded s t r.arg 3 us ∧ (r.applied = false → ∀ n : ChId, t.padHeld n = false) ∧ t.cal.bytes = s.cal.bytes)) ∧
      (∀ item rest, r.left = item :: rest → ∀ vs : List CalValue, Completes (.calStepEnd vs) s (calStepFoot item rest ++ [.events,
          .pair Reg.calFlags, .regs Reg.calChFail (Reg.calChFail + 2048), .chPair Reg.tiaFlags, .chReg Reg.tiaCdCtl]) (fun t =>
        (∃ r', t.cal.run = some r' ∧ r'.left = rest) ∧ t.cal.bytes = s.cal.bytes ∧ ∀ n ∈ s.calForced r item, CalFailed t n item)) ∧
      (∀ item rest, r.left = item :: rest → (calItems r.arg).contains item = true → s.calForced r item = [] →
        (Completes (.calStepEnd []) s (calStepFoot item rest) (fun t =>
          t.cal.run = some { r with left := rest, half := if rest.head? = some 5 then false else r.half } ∧
          (rest ≠ [] → t.rdF Reg.calStatus 18 16 = stepCode rest) ∧
          ∀ n : ChId, calClu r.arg (n.val / 16) = true →
            (item = 3 → rest.head? ≠ some 3 → t.rdB (chOff n Reg.tiaCdCtl) 31 = !(s.chan n).cdLeft.isEmpty) ∧
            (rest.head? = some 3 → t.rdB (chOff n Reg.tiaCdCtl) 31 = true ∧ t.rdF (chOff n Reg.tiaCdCtl) 25 24 = 0) ∧
            (item = 5 → rest.head? ≠ some 5 → s.secondary n = false → t.tiaState n ≠ 1 ∧ t.tiaState n ≠ 2) ∧
            (rest.head? = some 5 → s.secondary n = false → t.rdB (chOff n Reg.peStatus) 2 = true ∧
              (n.val % 2 = 0 → t.tiaState n = 1 ∧ t.rdF (chOff n Reg.peStatus) 11 10 = 2) ∧
              (n.val % 2 = 1 → t.rdF (chOff n Reg.peStatus) 11 10 = 0)))) ∧
        (∀ v, Completes (.calStepEnd [v]) s (calStepFoot item rest ++ [.events, .pair Reg.calFlags,
            .regs Reg.calChFail (Reg.calChFail + 2048), .chPair Reg.tiaFlags, .chReg Reg.tiaCdCtl]) (fun t =>
          (∃ r', t.cal.run = some r' ∧ r'.left = rest) ∧ t.cal.bytes = s.cal.bytes ∧
          (∀ c g o, v = .corrClu c g o → item = 0 → calClu r.arg c = true →
            (s.corrOk r (0x1000 + 128 * c) g o = true → HasNew t (0x1000 + 128 * c) 4 (o.toNat + 65536 * g.toNat)) ∧
            (s.corrOk r (0x1000 + 128 * c) g o = false → ∀ n ∈ chansOf c, CalFailed t n 0)) ∧
          (∀ ch i g o, v = .corrCh ch i g o → item = (if i.val < 11 then 2 else 1) → calClu r.arg (ch.val / 16) = true →
              (item = 2 → s.rdB (failReg ch) 1 = false) →
            (s.corrOk r (chanRec ch (4 * i)) g o = true → HasNew t (chanRec ch (4 * i)) 4 (o.toNat + 65536 * g.toNat)) ∧
            (s.corrOk r (chanRec ch (4 * i)) g o = false → CalFailed t ch item)) ∧
          (∀ ch line hits, v = .table ch line hits → item = 3 → calClu r.arg (ch.val / 16) = true → hits.sum = 2 ^ 20 →
            (densityFails hits = true → CalFailed t ch 3 ∧
              (s.retained (chOff ch Reg.tiaFlags) = false → t.rdB (chOff ch Reg.tiaFlags) 3 = true)) ∧
            (densityFails hits = false → HasNew t (chanRec ch 0x70) 1 (s.calNew r (chanRec ch 0x70) 1 ||| 2 ^ line.val) ∧
              ∃ r', t.cal.run = some r' ∧ r'.tables = r.tables ++ [(ch.val, line.val)])) ∧
          (∀ ch cell x ok, v = .kpad ch cell x ok → item = 4 → calClu r.arg (ch.val / 16) = true →
            (ok = true → s.lineOk ch cell = true → s.driftLimited r = false ∨ within 41 (x.toInt - s.kpad ch cell) = true →
              HasNew t (chanRec ch (0x5C + 2 * cell)) 2 x.toNat ∧ HasNew t (chanRec ch 0x6E) 2 (toField 16 (s.temp (8 + ch.val / 16)))) ∧
            (ok = false ∨ s.lineOk ch cell = false ∨ (s.driftLimited r = true ∧ within 41 (x.toInt - s.kpad ch cell) = false) → CalFailed t ch 4)) ∧
          (∀ ch x ok, v = .ref ch x ok → item = 5 → calClu r.arg (ch.val / 16) = true → s.rdB (failReg ch) 4 = false → r.disturbed = false →
            (s.refOk r ch x (ok && (s.lineOk ch 4 && s.lineOk ch 5)) = true → HasNew t (chanRec ch 0x68) 2 x.toNat) ∧
            (s.refOk r ch x (ok && (s.lineOk ch 4 && s.lineOk ch 5)) = false → CalFailed t ch 5))))) ∧
      (r.left = [] → r.applied = false → ∀ foot, foot = (if calStores r.arg then [.one .cal, .one (.reg Reg.calStatus)] else calEndFoot) ++
          [.pair Reg.calFlags, .chReg Reg.tiaLine] ++ releaseFoot →
        (calStores r.arg = false → Completes (.calDone us) s foot (fun t => CalEnded s t r.arg (if r.partly then 1 else 0) us)) ∧
        (calStores r.arg = true → Completes (.calDone us) s foot (fun t =>
          t.rdF Reg.calStatus 18 16 = 7 ∧ t.cal.storeStep = 1 ∧ t.cal.run = some { r with applied := true })) ∧
        Completes (.calDone us) s foot (fun t =>
          (∀ n : ChId, t.padHeld n = false) ∧
          ((r.fresh.map Prod.fst).Nodup → ∀ o b, (o, some b) ∈ r.fresh → ¬ (0x20 ≤ o ∧ o < 0x24) →
            (∀ n : ChId, o ≠ chanRec n 0x72 ∧ o ≠ chanRec n 0x73) → Tbl.get calDefault t.cal.bytes o = b) ∧
          (calItems r.arg ≠ [] → t.calRd 0x20 4 = r.arg % 2 ^ 32 ∧
            ∀ n : ChId, calClu r.arg (n.val / 16) = true → t.calRd (chanRec n 0x72) 2 = s.rdF (failReg n) 5 0) ∧
          (∀ n j, (n, j) ∈ r.tables → n < 512 → j < 6 → t.lineState n j = 3))))

/-- The store of a bank (R470 to R473): its steps erase and program the target bank in order, a flash error ends it, and the commit marker
makes the bank the active one. Where the specification leaves open what is said here, it is the model's choice: log 59, log 61, log 88. -/
def Obligations.BanksAreStored : Prop :=
  ∀ (s : State) (r : CalRun) (us : W32) (b k : Nat), s.cal.run = some r → r.applied = true → b = s.targetBank → k = s.cal.storeStep →
    (1 ≤ k → k ≤ 5 → Completes (.calStoreStep false us) s (.pair Reg.calFlags :: .flash (bankBase b) 0x200000 :: .one .freeCtr :: calEndFoot) (fun t =>
      CalEnded s t r.arg 2 us ∧ t.rdB Reg.calFlags 2 = true)) ∧
    (k = 1 → Completes (.calStoreStep true us) s [.one .cal, .one (.reg Reg.calStatus), .one (.reg (seqReg b)), .flash (bankBase b) 65536] (fun t =>
      t.cal.storeStep = 2 ∧ t.rdB Reg.calStatus (2 + b) = false ∧ t.rd (seqReg b) = 0 ∧
      ∀ a, bankBase b ≤ a → a < bankBase b + 65536 → t.flashAt a = 0xFF)) ∧
    (k = 2 → Completes (.calStoreStep true us) s [.one .cal, .one (.reg (seqReg b)), .flash (bankBase b) 4096] (fun t =>
      t.cal.storeStep = 3 ∧ t.flashRd (bankBase b) 4096 = s.bankHeader b s.nextSeq ∧
      t.rd (seqReg b) = BitVec.ofNat 32 ((s.rd Reg.calCount).toNat + 1))) ∧
    (k = 3 → Completes (.calStoreStep true us) s [.one .cal, .flash (bankBase b + 65536) (31 * 65536)] (fun t =>
      t.cal.storeStep = 4 ∧ ∀ a, bankBase b + 65536 ≤ a → a < bankBase b + 32 * 65536 → t.flashAt a = 0xFF)) ∧
    (k = 4 → Completes (.calStoreStep true us) s [.one .cal, .flash (bankBase b + 0x1000) 0x1FE000] (fun t =>
      t.cal.storeStep = 5 ∧ t.flashRd (bankBase b + 0x1000) 0x11000 = s.storeBytes 0x1000 0x11000 ∧
      ∀ x ∈ s.storedTables, ∀ o, o = 0x12000 + (6 * x.1 + x.2) * 640 → t.flashRd (bankBase b + o) 640 = s.storeBytes o 640)) ∧
    (k = 5 → Completes (.calStoreStep true us) s [.one .cal] (fun t => t.cal.storeStep = 6 ∧ t.cal.run = some r)) ∧
    (k = 6 → Completes (.calStoreCommit us) s (calEndFoot ++ [.one (.reg Reg.calCount), .pair Reg.calLastOptLo, .one (.reg Reg.calLastPcycle),
        .one (.reg Reg.bootStatus), .flash (bankBase b + 0x1FF000) 16]) (fun t =>
      CalEnded s t r.arg (if r.partly then 1 else 0) us ∧ t.rdF Reg.calStatus 1 0 = b + 1 ∧ t.rdB Reg.calStatus (2 + b) = true ∧
      t.rdB Reg.bootStatus 10 = false ∧ (t.rd Reg.calCount).toNat = s.flashLe (bankBase b + 8) 4 ∧ t.cal.fromBank = true ∧
      t.flashRd (bankBase b + 0x1FF000) 16 =
        bankMarker (s.flashLe (bankBase b + 8) 4) (crc32c (s.flashRd (bankBase b) 0x1FF000)))) ∧
    (k ≠ 6 → Completes (.calStoreCommit us) s [] (fun _ => True))

/-- The ports of the Causeway and the election (R398 to R406, R408, R410, R413, R418 to R420): training, identification, link calibration, retry
and loss of a port; what an election cell holds; and what a settled election writes, with this module's own serial number and the
calibrations of its own links. Where the specification leaves open what is said here, it is the model's choice: log 62, log 102, log 103. -/
def Obligations.PortsAndElection : Prop :=
  ∀ (s : State) (p : Port), s.cwyRuns = true →
    (s.portState p = 1 → Completes (.portTrainRetry ⟨p, true⟩) s [.one (.reg Reg.cwyStatus)] (fun t => t.portState p = 2)) ∧
    (s.portState p = 2 → Completes (.portTrainRetry ⟨p, false⟩) s [.one (.reg Reg.cwyStatus)] (fun t => t.portState p = 1) ∧
      Completes (.portTrained p) s [.one (.reg Reg.cwyStatus)] (fun t => t.portState p = 3)) ∧
    (s.portState p = 6 → Completes (.refusedRetry p) s [.one (.reg Reg.cwyStatus)] (fun t => t.portState p = 1)) ∧
    (∀ (peer : Peer) (meas lat n : Nat),
      ∀ x ∈ [(1, Instr.portTrainRetry ⟨p, true⟩), (2, .portTrainRetry ⟨p, false⟩), (2, .portTrained p), (3, .identExchange p peer),
        (4, .linkCalibration p meas lat), (5, .linkLoss p), (5, .creditReturn p n), (6, .refusedRetry p)],
      s.portState p ≠ x.1 → Completes x.2 s [] (fun _ => True)) ∧
    (s.portState p = 3 → ∀ (peer : Peer) (reason : Nat) (foot : List Foot), reason = (if peer.port = p then 1
        else if peer.systemId.toNat ≠ s.rdF Reg.cwyCfg 31 16 then 2 else if 64 < peer.nodes then 3 else 0) →
        foot = [.one (.reg Reg.cwyStatus), .one .cwy, .pair (peerReg p)] →
      Completes (.identExchange p peer) s (if reason = 0 then foot else [.events, .pair Reg.cwyFlags, .one (.reg Reg.cwyRefuse)] ++ foot) (fun t =>
        t.rd64 (peerReg p) = peer.serial.toNat ∧ (reason = 0 → t.portState p = 4) ∧
        (reason ≠ 0 → PortRefused s t ([.pair Reg.cwyFlags, .one (.reg Reg.cwyRefuse)] ++ foot) p reason) ∧
        ∃ y : Ident, (t.port p).sent = some y ∧ y.serial = Config.serial ∧ y.part = s.rd Reg.idPart ∧ y.stepping = s.rd Reg.idStepping ∧
          y.peat = s.rd Reg.idPeat ∧ y.systemId = s.rdF Reg.cwyCfg 31 16 ∧ y.priority = s.rdF Reg.cwyCfg 15 8 ∧ y.port = p)) ∧
    (s.portState p = 4 → ∀ (meas lat delay : Nat) (foot : List Foot),
        delay = (if p = .up then linkDelay meas (sext 16 (s.rdF Reg.cwyAsym 15 0)) else meas % 65536) →
        foot = [.one (.reg Reg.cwyStatus), .one .cwy, .one (.reg (calReg p))] →
      Completes (.linkCalibration p meas lat) s (if lat ≤ 128 then foot else [.events, .pair Reg.cwyFlags, .one (.reg Reg.cwyRefuse)] ++ foot) (fun t =>
        t.rdF (calReg p) 15 0 = delay ∧ t.rdF (calReg p) 31 24 = min 255 lat ∧ (p = .up → (t.port p).calSent = some (delay, lat)) ∧
        (128 < lat → PortRefused s t ([.pair Reg.cwyFlags, .one (.reg Reg.cwyRefuse)] ++ foot) p 4) ∧
        (lat ≤ 128 → t.portState p = 5 ∧ (t.port p).credits = 64 ∧ (t.port p).queue = [] ∧ (t.port p).back = 0 ∧
          (t.port p).held = (s.port (otherPort p)).queue.length ∧
          (p = .up → s.timing = 2 → delay ≠ s.rdF (calReg p) 15 0 → t.cwy.slewing = true)))) ∧
    (s.portState p = 5 →
      Completes (.linkLoss p) s [.one (.reg Reg.cwyStatus), .one .cwy, .events, .pair Reg.cwyFlags] (fun t =>
        t.portState p = 1 ∧ (t.port p).credits = 0 ∧ (t.port p).queue = [] ∧ (t.port p).held = 0 ∧ t.rdB Reg.cwyFlags 0 = true ∧
        Posted s t [.one (.reg Reg.cwyStatus), .one .cwy, .pair Reg.cwyFlags] 272 0x18 (evData [(0, portNo p), (8, 1)])) ∧
      (∀ n k, k = min (min 64 ((s.port p).credits + n)) (s.port p).queue.length → Completes (.creditReturn p n) s [.one .cwy] (fun t =>
        (t.port p).credits = min 64 ((s.port p).credits + n) - k ∧ (t.port p).queue = (s.port p).queue.drop k ∧
        (t.port (otherPort p)).held = (s.port (otherPort p)).held - k ∧ (t.port (otherPort p)).back = (s.port (otherPort p)).back + k)) ∧
      Completes .electionCell s [.one .cwy] (fun t => ∃ y : ElectCell, t.cwy = { s.cwy with election := some y } ∧ y.serial = Config.serial ∧
        y.priority = s.rdF Reg.cwyCfg 15 8 ∧ y.head = (s.portState .up != 5) ∧ y.timing = s.timing)) ∧
    Completes .phaseSlewEnd s [.one .cwy] (fun t => t.cwy = { s.cwy with slewing := false }) ∧
    (∀ (seg g : Segment) (f0 f1 : List Foot), g = s.segOwn seg → s.segFits g = true →
      f0 = [.one .cwy, .one (.reg Reg.cwyStatus), .one (.reg Reg.clkStatus), .one (.reg Reg.clkCorr), .pair Reg.cwyMasterLo,
        .regs Reg.cwyPosLo (Reg.cwyPosLo + 512), .regs Reg.cwySum0 (Reg.cwySum0 + 2048)] →
      f1 = f0 ++ [.pair Reg.cwyFlags, .one .plan, .one (.reg Reg.cwyPathDelay), .one (.reg Reg.cwyPathLat)] →
      (∀ m, g.modules[g.self]? = some m → m.serial = Config.serial) ∧
      (64 < g.modules.length → Completes (.electionSettle seg) s ([.events, .pair Reg.cwyFlags, .one (.reg Reg.cwyRefuse)] ++ f0) (fun t =>
        t.rdB Reg.cwyStatus 23 = true ∧ t.rdF Reg.clkStatus 3 2 = 0 ∧ t.timing = 0 ∧ t.rd64 Reg.cwyMasterLo = 0 ∧
        (∀ i, i < 64 → t.rd64 (Reg.cwyPosLo + 8 * i) = 0) ∧ (∀ i, i < 512 → t.rd (Reg.cwySum0 + 4 * i) = 0) ∧ t.cwy.lastSeq = [] ∧
        (∀ q, g.excess = some q → s.portState q = 5 →
          PortRefused s t ([.events, .pair Reg.cwyFlags, .one (.reg Reg.cwyRefuse)] ++ f0) q 3 ∧ (t.port q).queue = []) ∧
        (g.excess = none → t.portState .up = s.portState .up ∧ t.portState .dn = s.portState .dn ∧
          (s.rd64 Reg.cwyMasterLo ≠ 0 → Posted s t f0 273 0x19
            (evData [(0, s.rdF Reg.cwyStatus 30 24), (8, s.rdF Reg.cwyStatus 21 16), (16, b2n g.ring), (64, 0)]))))) ∧
      (g.modules.length ≤ 64 → ∀ role, role = (if g.modules.length = 1 then 0 else if segPosition g = 0 then 1 else 2) →
        Completes (.electionSettle seg) s (.events :: f1) (fun t =>
          t.rdB Reg.cwyStatus 31 = g.ring ∧ t.rdF Reg.cwyStatus 30 24 = g.modules.length ∧ t.rdB Reg.cwyStatus 23 = false ∧
          t.rdF Reg.cwyStatus 21 16 = segPosition g ∧ t.rd64 Reg.cwyMasterLo = segSerialAt g 0 ∧
          (t.rd Reg.cwyPathLat).toNat = segPath g (fun m => m.lat) % 2 ^ 16 ∧
          (t.rd Reg.cwyPathDelay).toNat = segPath g (fun m => m.delay) % 2 ^ 24 ∧
          (∀ i, i < 64 → t.rd64 (Reg.cwyPosLo + 8 * i) = segSerialAt g i) ∧ (∀ i, i < 512 → t.rd (Reg.cwySum0 + 4 * i) = 0) ∧
          t.rdF Reg.clkStatus 3 2 = role ∧ (role ≠ 2 → t.timing = 0) ∧ (role = 2 → s.timing = 0 → t.timing = 1) ∧
          t.cwy.lastSeq = [] ∧
          (role = 2 → s.rdF Reg.clkStatus 3 2 = 2 → s.pathChanged g = true → s.plan.startDue ≠ 0 →
            t.plan.startDue = 0 ∧ t.rdB Reg.cwyFlags 3 = true) ∧
          (s.topoChanged g = true → Posted s t f1 273 0x19
            (evData [(0, g.modules.length), (8, segPosition g), (16, b2n g.ring), (64, segSerialAt g 0)])))))

/-- Messages (R397, R407 to R410, R412 to R414): CWY_SEND queues a legal message; the oldest one not yet sent leaves a port with 8 credits,
and has its own effect as its first cell leaves; and a cell that arrives in the receive buffer is delivered by its type, tracked and passed
on, or discarded where its CRC fails. Where the specification leaves open what is said here, it is the model's choice: log 13, log 62, log
65, log 91, log 101. -/
def Obligations.MessagesAreSentAndDelivered : Prop :=
  ∀ (s : State) (p : Port),
    (∀ v : W32, s.reaches Reg.cwySend = true →
      (bitOf v 31 = false → Completes (.cwySendWrite v) s [] (fun _ => True)) ∧
      (bitOf v 31 = true → s.sendRoom = true → sendLegal (fieldOf v 23 20) (fieldOf v 19 0) = true →
        Completes (.cwySendWrite v) s [.one .cwy] (fun t => t.cwy = { s.cwy with sendQ := s.cwy.sendQ ++
          [{ type := fieldOf v 23 20, payload := fieldOf v 19 0, ext := 0, seq := none, up := false, dn := false }] })) ∧
      (bitOf v 31 = true → s.sendRoom = false ∨ sendLegal (fieldOf v 23 20) (fieldOf v 19 0) = false →
        Completes (.cwySendWrite v) s [.pair Reg.cwyFlags] (fun t => t.rdB Reg.cwyFlags 4 = true))) ∧
    (s.cwyRuns = true → ∀ (m : Send) (rest : List Send), s.cwy.sendQ = m :: rest → m.left p = false →
      (s.sendsOn p = true → 8 ≤ (s.port p).credits → (s.port p).queue = [] →
        Completes (.cellInject p) s [.one .cwy, .seqs, .one .plan, .clus, .regs Reg.cwySum0 (Reg.cwySum0 + 2048)] (fun t =>
          (t.port p).credits = (s.port p).credits - 1 ∧
          (t.port p).lastOut = some (mkCell m.type (s.rdF Reg.cwyStatus 21 16) 0 (m.seq.getD s.cwy.seq) m.payload m.ext) ∧
          t.cwy.seq = (if m.seq.isSome then s.cwy.seq else (s.cwy.seq + 1) % 256) ∧
          (s.sendsOn (otherPort p) = false → rest = [] → t.cwy.sendQ = s.cwy.sendWait.take 16 ∧ t.cwy.sendWait = s.cwy.sendWait.drop 16) ∧
          (m.seq = none → m.type = 1 → t.plan = { s.plan with ext := true }) ∧
          (m.seq = none → m.type = 8 → t.plan = { s.plan with startDue := s.plan.startDue + 1 }) ∧
          (m.type ≠ 1 → m.type ≠ 8 → t.plan = s.plan))) ∧
      (s.sendsOn p = true → (s.port p).credits < 8 ∨ (s.port p).queue ≠ [] → Completes (.cellInject p) s [] (fun _ => True)) ∧
      (s.sendsOn p = false → s.sendsOn (otherPort p) = true → Completes (.cellInject p) s [] (fun _ => True)) ∧
      (s.sendsOn p = false → s.sendsOn (otherPort p) = false →
        Completes (.cellInject p) s [.one .cwy, .seqs, .one .plan, .clus, .regs Reg.cwySum0 (Reg.cwySum0 + 2048)] (fun t =>
          t.port p = s.port p ∧ t.cwy.seq = (if m.seq.isSome then s.cwy.seq else (s.cwy.seq + 1) % 256) ∧
          (m.seq = none → m.type = 1 → t.plan = { s.plan with ext := true }) ∧
          (m.seq = none → m.type = 8 → t.plan = { s.plan with startDue := s.plan.startDue + 1 })))) ∧
    (∀ x : Cell,
      (Arrives s p x 1 → Completes (.cwTrig p x) s [.one .cwy, .pair Reg.cwyFlags, .seqs, .one .plan, .clus] (fun t =>
        Passed s t p x ∧ t.plan = { s.plan with ext := true } ∧
        ∀ q : SeqId, s.rdB (seqOff q Reg.seqIvec) 31 = true → (s.seq q).inPart = true → (t.seq q).pend.getLsbD 4 = true)) ∧
      (Arrives s p x 2 → Completes (.cwJump p x) s [.one .cwy, .pair Reg.cwyFlags, .lanes, .cluPair Reg.plnFlags, .cluReg Reg.plnJump,
          .cluReg Reg.plnJumpCnt] (fun t =>
        Passed s t p x ∧ ∀ k : CluId, (t.lane k).jump = (if (s.rd (Reg.cwyJgroup + 4 * x.fld 40 36)).getLsbD k.val = true ∧
          s.laneIdle k = false ∧ x.fld 35 24 < (s.lane k).table.length then some (x.fld 35 24) else (s.lane k).jump))) ∧
      (Arrives s p x 3 → Completes (.cwTouch p x) s [.one .cwy, .pair Reg.cwyFlags, .events, .one .snd, .one .cal, .one (.reg Reg.sndStatus),
          .pair Reg.sndFlags, .pair Reg.calFlags, .chReg Reg.tiaLine, .chans, .one (.reg Reg.memRetWakes), .one (.reg Reg.memRetState)] (fun t =>
        Passed s t p x ∧ t.rdB Reg.sndStatus 1 = true ∧
        (s.rdB Reg.sndCfg 0 = true → s.sounding = false → t.snd.request = some 1 ∧ t.sndPhase = 1))) ∧
      (Arrives s p x 4 → Completes (.cwLift p x) s ([.one .cwy, .pair Reg.cwyFlags, .one .cal, .pair Reg.calFlags, .pair Reg.sndFlags,
          .pair Reg.sndMaskLo] ++ passFoot) (fun t =>
        Passed s t p x ∧ t.rdB Reg.sndStatus 1 = false ∧ t.rd64 Reg.sndMaskLo = 2 ^ 64 - 1 ∧ (s.sounding = true → PassEnded s t 2))) ∧
      (Arrives s p x 5 → Completes (.cwUser p x) s [.one .cwy, .pair Reg.cwyFlags, .events, .one (.reg Reg.cwyUser)] (fun t =>
        Passed s t p x ∧ t.rd Reg.cwyUser = pack [(0, x.fld 43 24), (20, x.fld 9 4)] ∧
        ∃ u : State, ChangesOnly [.one .cwy, .pair Reg.cwyFlags, .one (.reg Reg.cwyUser)] s u ∧
          t = (u.post 274 0x1A (evData [(0, x.fld 43 24), (24, x.fld 9 4)])).forward p x)) ∧
      (Arrives s p x 8 → Completes (.cwStart p x) s [.one .cwy, .pair Reg.cwyFlags, .one .plan] (fun t =>
        Passed s t p x ∧
        (s.rdF Reg.clkStatus 3 2 = 2 → x.fld 9 4 = 0 → s.alignOk = true → t.plan = { s.plan with startDue := s.plan.startDue + 1 }) ∧
        (s.rdF Reg.clkStatus 3 2 = 2 → x.fld 9 4 = 0 → s.alignOk = false → t.plan = s.plan ∧ t.rdB Reg.cwyFlags 3 = true) ∧
        (s.rdF Reg.clkStatus 3 2 ≠ 2 ∨ x.fld 9 4 ≠ 0 → t.plan = s.plan))) ∧
      (Arrives s p x 9 → Completes (.cwSummary p x) s [.one .cwy, .pair Reg.cwyFlags, .events,
          .regs (sumEntry (x.fld 9 4)) (sumEntry (x.fld 9 4) + 32)] (fun t =>
        Passed s t p x ∧
        (x.fld 35 34 = 0 → Tbl.get (fun _ => []) s.cwy.parts (x.fld 9 4) = [] → Tbl.get (fun _ => []) t.cwy.parts (x.fld 9 4) =
          [{ seq := x.fld 23 16, plan := x.fld 33 24, part := 0, ext := BitVec.ofNat 64 (x.fld 127 64) }]) ∧
        (∀ a b : SumPart, x.fld 35 34 = 2 → Tbl.get (fun _ => []) s.cwy.parts (x.fld 9 4) = [a, b] → b.plan = x.fld 33 24 →
            x.fld 23 16 = (b.seq + 1) % 256 →
          t.rd (sumEntry (x.fld 9 4)) = pack [(0, x.fld 33 24), (31, 1)] ∧ t.rd64 (sumEntry (x.fld 9 4) + 4) = a.ext.toNat ∧
          t.rd64 (sumEntry (x.fld 9 4) + 12) = b.ext.toNat ∧ t.rd64 (sumEntry (x.fld 9 4) + 20) = x.fld 127 64 ∧
          Tbl.get (fun _ => []) t.cwy.parts (x.fld 9 4) = []))) ∧
      (∀ i ∈ [(Instr.cwTrig p x, 1), (.cwJump p x, 2), (.cwTouch p x, 3), (.cwLift p x, 4), (.cwUser p x, 5), (.cwStart p x, 8), (.cwSummary p x, 9)],
        (s.cwyRuns = true → s.portState p = 5 → (s.port p).held < 64 → x.ok = false → Completes i.1 s [.one .cwy] (fun t =>
          (t.port p).held = (s.port p).held ∧ (t.port p).back = (s.port p).back + 1 ∧ t.cwy.lastSeq = s.cwy.lastSeq)) ∧
        (s.cwyRuns = false ∨ s.portState p ≠ 5 ∨ 64 ≤ (s.port p).held ∨ (x.ok = true ∧ x.fld 3 0 ≠ i.2) →
          Completes i.1 s [] (fun _ => True))))

/-- Every step keeps the registers, the memories and the tables of engines in canonical form, whatever command is at the front. -/
def Obligations.StepKeepsTheCanonicalForm : Prop :=
  ∀ s t : State, s.canonical = true → step s = .next t → t.canonical = true

/-- PERIOD and WIDTH of the epoch pulse keep their order (R65): in every step, whatever the command, a PERIOD that is not 0 stays above WIDTH. -/
def Obligations.EpochPulseKeepsItsOrder : Prop :=
  ∀ s t : State, (s.rd Reg.clkEppPeriod ≠ 0 → (s.rd Reg.clkEppWidth).toNat < (s.rd Reg.clkEppPeriod).toNat) → step s = .next t →
    (t.rd Reg.clkEppPeriod ≠ 0 → (t.rd Reg.clkEppWidth).toNat < (t.rd Reg.clkEppPeriod).toNat)

/-- Operating time never decreases (R68): a step changes it only by counting one millisecond, but where a cold start begins, where power is
lost, and where the boot restores it from the persistent area (R70). Where the specification leaves open what is said here, it is the
model's choice: log 76. -/
def Obligations.OperatingTimeNeverFalls : Prop :=
  ∀ (s t : State) (c : Instr) (rest : List Instr), s.pending = c :: rest → step s = .next t →
    c ≠ .vinPowerUp → c ≠ .vinPowerDown → c ≠ .pfwColdStart → c ≠ .persistentAreaScan → (c = .warmResetEnd → s.boot.cold = false) →
    s.clk.optime.toNat ≤ t.clk.optime.toNat ∧ t.clk.optime.toNat ≤ s.clk.optime.toNat + 1 ∧
    (c ≠ .optimeMs → t.clk.optime = s.clk.optime)

/-- The fuses (R88, R90, R91): no step changes the key slots, and a fuse bit of the rollback counter once burnt stays burnt; only
ROLLBACK_BURN burns one. Host memory (R427, R432): outside the ring of completions only a READ or LOG_READ command writes it, and the entry
that a fetch finds in the ring of commands stands there because the host has placed it. -/
def Obligations.FusesAndHostMemoryAreGuarded : Prop :=
  ∀ (s t : State) (c : Instr) (rest : List Instr), s.pending = c :: rest → step s = .next t →
    t.nvm.keys = s.nvm.keys ∧ t.nvm.revoked = s.nvm.revoked ∧
    (∀ i, s.nvm.rollback.getLsbD i = true → t.nvm.rollback.getLsbD i = true) ∧
    (c ≠ .rollbackBurn → t.nvm.rollback = s.nvm.rollback) ∧
    (c ≠ .read → c ≠ .logRead → (∀ entry, c ≠ .commandFetch entry) →
      ∀ a, (∀ i, i < 4096 → ∀ k, k < 16 → a ≠ s.cplAddr i + k) →
        Tbl.get (fun _ => (0 : Byte)) t.hst.hostMem a = Tbl.get (fun _ => (0 : Byte)) s.hst.hostMem a)

/-- A lasting sealed configuration (R109, R110): a host write, whatever its offset and value, leaves every SL bit of every register as it is. -/
def Obligations.HostWritesLeaveSealedBits : Prop :=
  ∀ (s : State) (off : BitVec 24) (v : W32) (i : Instr), i ∈ [Instr.registerWrite off v, Instr.hostWriteSealed off v] →
    Completes i s [.allRegs, .events, .completion, .hostError, .failCnts, .drams, .one .msix, .one .cal, .one .plan, .one .snd, .one .cwy, .lanes,
        .clus, .chans, .one .freeCtr] (fun t =>
      ∀ o r, findRow o = some r → t.rd o &&& BitVec.ofNat 32 r.sl = s.rd o &&& BitVec.ofNat 32 r.sl)
end

