-- ==== Sys2Proof/Laws/Bits.lean ====
section
/-! SUPPORT. Bit fields of registers: what a field reads as after a field has been replaced. -/

set_option Elab.async false

namespace Sys2Proof.Machine

theorem testBit_maskOf (msb lsb i : Nat) (hm : msb < 32) (hl : lsb ≤ msb) :
    (maskOf msb lsb).toNat.testBit i = (decide (lsb ≤ i) && decide (i ≤ msb)) := by
  have h1 : (2 ^ (msb + 1) - 1) - (2 ^ lsb - 1) = 2 ^ lsb * (2 ^ (msb + 1 - lsb) - 1) := by
    have h2 : (2:Nat) ^ (msb + 1) = 2 ^ lsb * 2 ^ (msb + 1 - lsb) := by rw [← Nat.pow_add]; congr 1; omega
    rw [Nat.mul_sub, ← h2]
    have : 0 < 2 ^ lsb := Nat.two_pow_pos lsb
    omega
  have h3 : 2 ^ lsb * (2 ^ (msb + 1 - lsb) - 1) < 2 ^ 32 := by
    have h2 : (2:Nat) ^ (msb + 1) = 2 ^ lsb * 2 ^ (msb + 1 - lsb) := by rw [← Nat.pow_add]; congr 1; omega
    have h4 : (2:Nat) ^ (msb + 1) ≤ 2 ^ 32 := Nat.pow_le_pow_right (by decide) (by omega)
    have : 0 < 2 ^ lsb := Nat.two_pow_pos lsb
    rw [Nat.mul_sub, ← h2]
    omega
  unfold maskOf
  rw [BitVec.toNat_ofNat, h1, Nat.mod_eq_of_lt h3, Nat.testBit_two_pow_mul, Nat.testBit_two_pow_sub_one]
  by_cases hi : lsb ≤ i <;> simp [hi]
  omega

/-- Every bit of a register after a field of it has been replaced. -/
theorem bitOf_withField (v : W32) (msb lsb x i : Nat) (hm : msb < 32) (hl : lsb ≤ msb) :
    bitOf (withField v msb lsb x) i = if lsb ≤ i ∧ i ≤ msb then x.testBit (i - lsb) else bitOf v i := by
  by_cases hi : i < 32
  · unfold bitOf withField
    rw [BitVec.toNat_or, Nat.testBit_or, BitVec.toNat_and, Nat.testBit_and, BitVec.toNat_and, Nat.testBit_and, testBit_maskOf _ _ _ hm hl]
    have h1 : (~~~ maskOf msb lsb).toNat.testBit i = !(decide (lsb ≤ i) && decide (i ≤ msb)) := by
      have := BitVec.getLsbD_not (x := maskOf msb lsb) (i := i)
      simp only [BitVec.getLsbD, hi, decide_true, Bool.true_and] at this
      rw [this, testBit_maskOf _ _ _ hm hl]
    have h2 : (BitVec.ofNat 32 (x <<< lsb)).toNat.testBit i = (decide (lsb ≤ i) && x.testBit (i - lsb)) := by
      rw [BitVec.toNat_ofNat, Nat.testBit_mod_two_pow, Nat.testBit_shiftLeft]
      simp [hi]
    rw [h1, h2]
    by_cases ha : lsb ≤ i <;> by_cases hb : i ≤ msb <;> simp [ha, hb]
  · have h0 : ∀ w : W32, bitOf w i = false := fun w => Nat.testBit_lt_two_pow (Nat.lt_of_lt_of_le w.isLt (Nat.pow_le_pow_right (by decide) (by omega)))
    rw [h0, h0, if_neg (by omega)]

theorem testBit_fieldOf (v : W32) (msb lsb i : Nat) : (fieldOf v msb lsb).testBit i = (decide (i < msb + 1 - lsb) && bitOf v (lsb + i)) := by
  simp [fieldOf, bitOf, Nat.testBit_mod_two_pow, Nat.testBit_shiftRight]

/-- A field reads as what has been put into it. -/
theorem fieldOf_withField_same (v : W32) (msb lsb x : Nat) (hm : msb < 32) (hl : lsb ≤ msb) :
    fieldOf (withField v msb lsb x) msb lsb = x % 2 ^ (msb + 1 - lsb) := by
  apply Nat.eq_of_testBit_eq
  intro i
  rw [testBit_fieldOf, Nat.testBit_mod_two_pow]
  by_cases hi : i < msb + 1 - lsb
  · rw [bitOf_withField _ _ _ _ _ hm hl, if_pos (by omega)]
    simp
  · simp [hi]

/-- Another field reads as before. -/
theorem fieldOf_withField_ne (v : W32) (msb lsb x m l : Nat) (hm : msb < 32) (hl : lsb ≤ msb) (h : m < lsb ∨ msb < l) :
    fieldOf (withField v msb lsb x) m l = fieldOf v m l := by
  apply Nat.eq_of_testBit_eq
  intro i
  rw [testBit_fieldOf, testBit_fieldOf]
  by_cases hi : i < m + 1 - l
  · rw [bitOf_withField _ _ _ _ _ hm hl, if_neg (by omega)]
  · simp [hi]

theorem bitOf_withField_same (v : W32) (n x : Nat) (hn : n < 32) : bitOf (withField v n n x) n = x.testBit 0 := by
  rw [bitOf_withField _ _ _ _ _ hn (Nat.le_refl n), if_pos (by omega), Nat.sub_self]

theorem bitOf_withField_ne (v : W32) (msb lsb x i : Nat) (hm : msb < 32) (hl : lsb ≤ msb) (h : i < lsb ∨ msb < i) :
    bitOf (withField v msb lsb x) i = bitOf v i := by
  rw [bitOf_withField _ _ _ _ _ hm hl, if_neg (by omega)]

@[simp] theorem testBit_b2n (b : Bool) : (b2n b).testBit 0 = b := by cases b <;> rfl

theorem bitOf_or_bit32 (v : W32) (n i : Nat) (hn : n < 32) : bitOf (v ||| bit32 n) i = (bitOf v i || decide (i = n)) := by
  unfold bitOf bit32
  rw [BitVec.toNat_or, Nat.testBit_or, BitVec.toNat_ofNat, Nat.mod_eq_of_lt (Nat.pow_lt_pow_right (by decide) hn), Nat.testBit_two_pow]
  simp [eq_comm]

end Sys2Proof.Machine
end

