-- ==== Sys2Proof/Laws/Tbl.lean ====
section
/-! SUPPORT. Sparse tables: a read after a write, and the canonical form that every write keeps. -/

set_option Elab.async false

namespace Sys2Proof.Machine

theorem Tbl.get_ins {α : Type} (d : Nat → α) (k : Nat) (v : α) (t : Tbl α) (h : ∀ e ∈ t, e.1 ≠ k) (i : Nat) :
    Tbl.get d (Tbl.ins k v t) i = if i = k then v else Tbl.get d t i := by
  induction t with
  | nil => by_cases hi : i = k <;> simp [Tbl.ins, Tbl.get, hi, eq_comm (a := k)]
  | cons e t ih =>
    obtain ⟨j, w⟩ := e
    have hj : j ≠ k := h (j, w) List.mem_cons_self
    have ih := ih (fun e he => h e (List.mem_cons_of_mem _ he))
    simp only [Tbl.ins]
    split
    · by_cases hi : i = k
      · simp [Tbl.get, hi]
      · simp [Tbl.get, hi, Ne.symm hi]
    · by_cases hji : j = i
      · subst hji; simp [Tbl.get, hj]
      · simp [Tbl.get, hji, ih]

theorem Tbl.mem_drop {α : Type} {k : Nat} {t : Tbl α} {e : Nat × α} (h : e ∈ Tbl.drop k t) : e.1 ≠ k := by
  simpa using (List.mem_filter.mp h).2

theorem Tbl.get_drop {α : Type} (d : Nat → α) (k : Nat) (t : Tbl α) (i : Nat) :
    Tbl.get d (Tbl.drop k t) i = if i = k then d k else Tbl.get d t i := by
  induction t with
  | nil => by_cases hi : i = k <;> simp [Tbl.drop, Tbl.get, hi]
  | cons e t ih =>
    obtain ⟨j, w⟩ := e
    simp only [Tbl.drop, List.filter] at ih ⊢
    by_cases hj : j = k
    · subst hj
      by_cases hi : i = j
      · subst hi; simpa using ih
      · simp [Tbl.get, ih, hi, Ne.symm hi]
    · by_cases hi : i = k
      · subst hi; simp [hj, Tbl.get, ih]
      · by_cases hji : j = i
        · subst hji; simp [hj, Tbl.get]
        · simp [hj, Tbl.get, hji, hi, ih]

/-- What every key reads as after a write, whatever form the table has. -/
theorem Tbl.get_set {α : Type} [DecidableEq α] (d : Nat → α) (t : Tbl α) (k : Nat) (v : α) (i : Nat) :
    Tbl.get d (Tbl.set d t k v) i = if i = k then v else Tbl.get d t i := by
  unfold Tbl.set
  split
  · rename_i hv; rw [Tbl.get_drop, hv]
  · rw [Tbl.get_ins d k v _ (fun e he => Tbl.mem_drop he), Tbl.get_drop]
    by_cases hi : i = k <;> simp [hi]

/-- A write leaves every other key as it was. -/
theorem Tbl.get_set_ne {α : Type} [DecidableEq α] (d : Nat → α) {k i : Nat} (h : i ≠ k) (v : α) (t : Tbl α) :
    Tbl.get d (Tbl.set d t k v) i = Tbl.get d t i := by rw [Tbl.get_set, if_neg h]

/-- A read after a write to the same key gives the value written. -/
@[simp] theorem Tbl.get_set_same {α : Type} [DecidableEq α] (d : Nat → α) (k : Nat) (v : α) (t : Tbl α) :
    Tbl.get d (Tbl.set d t k v) k = v := by rw [Tbl.get_set, if_pos rfl]

/-- A default that no entry lists. -/
theorem Tbl.get_above {α : Type} (d : Nat → α) {t : Tbl α} {n k : Nat} (h : Tbl.above n t = true) (hk : k ≤ n) :
    Tbl.get d t k = d k := by
  induction t with
  | nil => rfl
  | cons e t ih =>
    obtain ⟨j, w⟩ := e
    simp only [Tbl.above, Bool.and_eq_true, decide_eq_true_eq] at h
    have hjk : j ≠ k := by omega
    simp [Tbl.get, hjk, ih h.2]

theorem Tbl.above_mono {α : Type} {m n : Nat} (hmn : m ≤ n) {t : Tbl α} (h : Tbl.above n t = true) : Tbl.above m t = true := by
  induction t with
  | nil => rfl
  | cons e t ih =>
    obtain ⟨j, w⟩ := e
    simp only [Tbl.above, Bool.and_eq_true, decide_eq_true_eq] at h ⊢
    exact ⟨by omega, ih h.2⟩

theorem Tbl.above_filter {α : Type} {n : Nat} (p : Nat × α → Bool) {t : Tbl α} (h : Tbl.above n t = true) :
    Tbl.above n (List.filter p t) = true := by
  induction t with
  | nil => rfl
  | cons e t ih =>
    obtain ⟨j, w⟩ := e
    simp only [Tbl.above, Bool.and_eq_true, decide_eq_true_eq] at h
    simp only [List.filter]
    split
    · simp [Tbl.above, h.1, ih h.2]
    · exact ih h.2

theorem Tbl.wf_filter {α : Type} [DecidableEq α] (d : Nat → α) (p : Nat × α → Bool) {t : Tbl α} (h : Tbl.wf d t = true) :
    Tbl.wf d (List.filter p t) = true := by
  induction t with
  | nil => rfl
  | cons e t ih =>
    obtain ⟨j, w⟩ := e
    simp only [Tbl.wf, Bool.and_eq_true, decide_eq_true_eq] at h
    simp only [List.filter]
    split
    · simp [Tbl.wf, h.1.1, Tbl.above_filter p h.1.2, ih h.2]
    · exact ih h.2

theorem Tbl.above_ins {α : Type} {n k : Nat} (hn : n < k) (v : α) {t : Tbl α} (h : Tbl.above n t = true) :
    Tbl.above n (Tbl.ins k v t) = true := by
  induction t with
  | nil => simp [Tbl.ins, Tbl.above, hn]
  | cons e t ih =>
    obtain ⟨j, w⟩ := e
    have h' := h
    simp only [Tbl.above, Bool.and_eq_true, decide_eq_true_eq] at h'
    simp only [Tbl.ins]
    split
    · simp [Tbl.above, hn, h'.1, h'.2]
    · simp [Tbl.above, h'.1, ih h'.2]

theorem Tbl.wf_ins {α : Type} [DecidableEq α] (d : Nat → α) {k : Nat} {v : α} (hv : v ≠ d k) {t : Tbl α} (hk : ∀ e ∈ t, e.1 ≠ k)
    (h : Tbl.wf d t = true) : Tbl.wf d (Tbl.ins k v t) = true := by
  induction t with
  | nil => simp [Tbl.ins, Tbl.wf, Tbl.above, hv]
  | cons e t ih =>
    obtain ⟨j, w⟩ := e
    have hj : j ≠ k := hk (j, w) List.mem_cons_self
    have h' := h
    simp only [Tbl.wf, Bool.and_eq_true, decide_eq_true_eq] at h'
    simp only [Tbl.ins]
    split
    · rename_i hkj
      simp [Tbl.wf, Tbl.above, hv, hkj, Tbl.above_mono (Nat.le_of_lt hkj) h'.1.2, h'.1.1, h'.1.2, h'.2]
    · simp only [Tbl.wf, Bool.and_eq_true, decide_eq_true_eq]
      exact ⟨⟨h'.1.1, Tbl.above_ins (by omega) v h'.1.2⟩, ih (fun e he => hk e (List.mem_cons_of_mem _ he)) h'.2⟩

/-- A write keeps the canonical form. -/
theorem Tbl.wf_set {α : Type} [DecidableEq α] (d : Nat → α) (k : Nat) (v : α) {t : Tbl α} (h : Tbl.wf d t = true) :
    Tbl.wf d (Tbl.set d t k v) = true := by
  unfold Tbl.set
  split
  · exact Tbl.wf_filter d _ h
  · rename_i hv
    exact Tbl.wf_ins d hv (fun e he => Tbl.mem_drop he) (Tbl.wf_filter d _ h)

theorem Tbl.wf_setList {α : Type} [DecidableEq α] (d : Nat → α) (l : List α) (k : Nat) {t : Tbl α} (h : Tbl.wf d t = true) :
    Tbl.wf d (Tbl.setList d t k l) = true := by
  induction l generalizing t k with
  | nil => exact h
  | cons v vs ih => exact ih (k + 1) (Tbl.wf_set d k v h)

theorem Tbl.above_filterMap {α β : Type} {n : Nat} (f : Nat × α → Option (Nat × β)) (hf : ∀ e e', f e = some e' → e'.1 = e.1)
    {t : Tbl α} (h : Tbl.above n t = true) : Tbl.above n (List.filterMap f t) = true := by
  induction t with
  | nil => rfl
  | cons e t ih =>
    obtain ⟨j, w⟩ := e
    simp only [Tbl.above, Bool.and_eq_true, decide_eq_true_eq] at h
    simp only [List.filterMap_cons]
    split
    · exact ih h.2
    · rename_i e' he
      obtain ⟨j', w'⟩ := e'
      have := hf _ _ he
      simp only at this
      subst this
      simp [Tbl.above, h.1, ih h.2]

/-- A map that keeps keys and drops the entries that would read as the default keeps the canonical form. -/
theorem Tbl.wf_filterMap {α : Type} [DecidableEq α] (d : Nat → α) (f : Nat × α → Option (Nat × α)) (hf : ∀ e e', f e = some e' → e'.1 = e.1)
    (hd : ∀ e e', f e = some e' → e'.2 ≠ d e'.1) {t : Tbl α} (h : Tbl.wf d t = true) : Tbl.wf d (List.filterMap f t) = true := by
  induction t with
  | nil => rfl
  | cons e t ih =>
    obtain ⟨j, w⟩ := e
    simp only [Tbl.wf, Bool.and_eq_true, decide_eq_true_eq] at h
    simp only [List.filterMap_cons]
    split
    · exact ih h.2
    · rename_i e' he
      obtain ⟨j', w'⟩ := e'
      have h1 := hf _ _ he
      have h2 := hd _ _ he
      simp only at h1 h2
      subst h1
      simp [Tbl.wf, h2, Tbl.above_filterMap f hf h.1.2, ih h.2]

/-- Dropping entries leaves the keys that the filter keeps. -/
theorem Tbl.get_filter {α : Type} (d : Nat → α) (p : Nat × α → Bool) (k : Nat) (hp : ∀ v, p (k, v) = true) (t : Tbl α) :
    Tbl.get d (List.filter p t) k = Tbl.get d t k := by
  induction t with
  | nil => rfl
  | cons e t ih =>
    obtain ⟨j, w⟩ := e
    simp only [List.filter]
    by_cases hjk : j = k
    · subst hjk; simp [hp, Tbl.get]
    · split <;> simp [Tbl.get, hjk, ih]

/-- A run of writes leaves the keys outside it as they were. -/
theorem Tbl.get_setList_ne {α : Type} [DecidableEq α] (d : Nat → α) (l : List α) (k i : Nat) (t : Tbl α)
    (h : i < k ∨ k + l.length ≤ i) : Tbl.get d (Tbl.setList d t k l) i = Tbl.get d t i := by
  induction l generalizing t k with
  | nil => rfl
  | cons v vs ih =>
    simp only [List.length_cons] at h
    simp only [Tbl.setList]
    rw [ih (k + 1) (Tbl.set d t k v) (by omega), Tbl.get_set_ne d (by omega)]

end Sys2Proof.Machine
end

