-- ==== Sys2Proof/Laws/Frame.lean ====
section
/-! SUPPORT. Frames: how footprints combine, and what the stores of registers, memories and engines leave alone. -/

set_option Elab.async false
set_option linter.all false

namespace Sys2Proof.Machine

/-! ### Footprints -/

/-- A footprint takes in what an entry takes in. -/
def Allows (foot : List Foot) (k : Foot) : Prop := ∀ p, k.covers p = true → ∃ k' ∈ foot, k'.covers p = true

theorem Allows.mem {K : List Foot} {k : Foot} (h : k ∈ K) : Allows K k := fun _ hp => ⟨k, h, hp⟩

theorem Allows.one {K : List Foot} {p : Part} {k : Foot} (h : Allows K k) (hk : k.covers p = true) : Allows K (.one p) := by
  intro q hq
  have : p = q := by simpa [Foot.covers] using hq
  subst this; exact h p hk

theorem ChangesOnly.refl (K : List Foot) (s : State) : ChangesOnly K s s := by
  intro p _; cases p <;> simp [Part.same]

theorem Part.same_trans {p : Part} {s t u : State} (h : p.same s t) (h' : p.same t u) : p.same s u := by
  cases p <;> simp only [Part.same] at * <;> grind

theorem ChangesOnly.trans {K : List Foot} {s t u : State} (h : ChangesOnly K s t) (h' : ChangesOnly K t u) : ChangesOnly K s u :=
  fun p hp => Part.same_trans (h p hp) (h' p hp)

/-- A larger footprint. -/
theorem ChangesOnly.mono {K L : List Foot} {s t : State} (h : ChangesOnly K s t) (hl : ∀ k ∈ K, Allows L k) : ChangesOnly L s t := by
  intro p hp
  refine h p (fun k hk => ?_)
  cases hc : k.covers p with
  | false => rfl
  | true =>
    obtain ⟨k', hk', hc'⟩ := hl k hk p hc
    exact absurd hc' (by simp [hp k' hk'])

/-- From `s` to `t` nothing changes but what the footprint takes in, and the tables keep their canonical form. -/
def Evolves (foot : List Foot) (s t : State) : Prop := ChangesOnly foot s t ∧ (s.canonical = true → t.canonical = true)

/-- The canonical form, table by table. -/
theorem State.canonical_step {x y : State}
    (h1 : Tbl.wf resetWord x.regs = true → Tbl.wf resetWord y.regs = true := by exact id)
    (h2 : Tbl.wf (fun _ => (0xFF : Byte)) x.nvm.flash = true → Tbl.wf (fun _ => (0xFF : Byte)) y.nvm.flash = true := by exact id)
    (h3 : Tbl.wf (fun _ => (0 : Byte)) x.mem.dram = true → Tbl.wf (fun _ => (0 : Byte)) y.mem.dram = true := by exact id)
    (h4 : Tbl.wf (fun _ => (0 : Byte)) x.mem.failCnt = true → Tbl.wf (fun _ => (0 : Byte)) y.mem.failCnt = true := by exact id)
    (h5 : Tbl.wf (fun _ => seqReset) x.seqs = true → Tbl.wf (fun _ => seqReset) y.seqs = true := by exact id)
    (h6 : Tbl.wf (fun _ => laneReset) x.lanes = true → Tbl.wf (fun _ => laneReset) y.lanes = true := by exact id)
    (h7 : Tbl.wf (fun _ => cluReset) x.clus = true → Tbl.wf (fun _ => cluReset) y.clus = true := by exact id)
    (h8 : Tbl.wf (fun _ => chanReset) x.chans = true → Tbl.wf (fun _ => chanReset) y.chans = true := by exact id)
    (h9 : Tbl.wf (fun _ => (0 : Byte)) x.mem.timing = true → Tbl.wf (fun _ => (0 : Byte)) y.mem.timing = true := by exact id)
    (h : x.canonical = true) : y.canonical = true := by
  simp only [State.canonical, Bool.and_eq_true] at h ⊢
  obtain ⟨⟨⟨⟨⟨⟨⟨⟨c1, c2⟩, c3⟩, c4⟩, c5⟩, c6⟩, c7⟩, c8⟩, c9⟩ := h
  exact ⟨⟨⟨⟨⟨⟨⟨⟨h1 c1, h2 c2⟩, h3 c3⟩, h4 c4⟩, h5 c5⟩, h6 c6⟩, h7 c7⟩, h8 c8⟩, h9 c9⟩

theorem Evolves.refl (K : List Foot) (s : State) : Evolves K s s := ⟨ChangesOnly.refl K s, id⟩

theorem Evolves.trans {K : List Foot} {s t u : State} (h : Evolves K s t) (h' : Evolves K t u) : Evolves K s u :=
  ⟨h.1.trans h'.1, fun hc => h'.2 (h.2 hc)⟩

/-- A further step that changes only what an allowed entry takes in. -/
theorem Evolves.step {K : List Foot} {s x y : State} {k : Foot} (h : Evolves K s x) (hk : Allows K k)
    (hs : ∀ p, k.covers p = false → p.same x y) (hc : x.canonical = true → y.canonical = true) : Evolves K s y := by
  refine ⟨h.1.trans (fun p hp => hs p ?_), fun hx => hc (h.2 hx)⟩
  cases hc : k.covers p with
  | false => rfl
  | true =>
    obtain ⟨k', hk', hc'⟩ := hk p hc
    exact absurd hc' (by simp [hp k' hk'])

/-- A further step that changes only what a list of allowed entries takes in. -/
theorem Evolves.steps {K : List Foot} {s x y : State} (L : List Foot) (h : Evolves K s x) (hl : ∀ k ∈ L, Allows K k)
    (hs : ∀ p, (∀ k ∈ L, k.covers p = false) → p.same x y) (hc : x.canonical = true → y.canonical = true) : Evolves K s y :=
  ⟨h.1.trans (ChangesOnly.mono (K := L) hs hl), fun hx => hc (h.2 hx)⟩

/-- A named intermediate state, whatever it is. -/
theorem Evolves.cut {K : List Foot} {s y : State} {P : Prop} (hv : Evolves K s y) (hb : Evolves K s y → P) : P := hb hv

theorem Evolves.ite {K : List Foot} {s a b : State} {c : Prop} [Decidable c] (ha : c → Evolves K s a) (hb : ¬ c → Evolves K s b) :
    Evolves K s (if c then a else b) := by
  split
  · exact ha ‹_›
  · exact hb ‹_›

theorem Evolves.foldl_mem {K : List Foot} {s x : State} {α : Type} {f : State → α → State} {l : List α}
    (hf : ∀ t a, a ∈ l → Evolves K s t → Evolves K s (f t a)) (h : Evolves K s x) : Evolves K s (l.foldl f x) := by
  induction l generalizing x with
  | nil => exact h
  | cons a l ih => exact ih (fun t b hb => hf t b (List.mem_cons_of_mem a hb)) (hf x a List.mem_cons_self h)

theorem Evolves.foldl {K : List Foot} {s x : State} {α : Type} {f : State → α → State} {l : List α}
    (hf : ∀ t a, Evolves K s t → Evolves K s (f t a)) (h : Evolves K s x) : Evolves K s (l.foldl f x) := by
  induction l generalizing x with
  | nil => exact h
  | cons a l ih => exact ih (hf x a h)

/-! ### What an entry takes in -/

/-- An entry inside another is allowed where the other is. -/
theorem Allows.of {K : List Foot} {k j : Foot} (h : Allows K k) (hj : ∀ p, j.covers p = true → k.covers p = true) : Allows K j :=
  fun p hp => h p (hj p hp)

theorem isChReg_chOff (n : Nat) {r : Nat} (hr : r < 0x1000) : isChReg r (chOff n r) = true := by
  unfold isChReg chOff; simp only [Bool.and_eq_true, decide_eq_true_eq]; omega

theorem isCluReg_cluOff (c : Nat) {r : Nat} (hr : r < 0x20000) : isCluReg r (cluOff c r) = true := by
  unfold isCluReg cluOff; simp only [Bool.and_eq_true, decide_eq_true_eq]; omega

theorem Allows.reg {K : List Foot} {k : Foot} {o : Nat} (h : Allows K k) (hk : k.covers (.reg o) = true) : Allows K (.one (.reg o)) :=
  h.one hk

theorem Allows.fst {K : List Foot} {o : Nat} (h : Allows K (.pair o)) : Allows K (.one (.reg o)) := h.reg (by simp [Foot.covers])

theorem Allows.snd {K : List Foot} {o : Nat} (h : Allows K (.pair o)) : Allows K (.one (.reg (o + 4))) := h.reg (by simp [Foot.covers])

theorem Allows.ofCh {K : List Foot} {n r : Nat} (h : Allows K (.chReg r)) (hr : r < 0x1000) : Allows K (.one (.reg (chOff n r))) :=
  h.reg (isChReg_chOff n hr)

theorem Allows.ofClu {K : List Foot} {c r : Nat} (h : Allows K (.cluReg r)) (hr : r < 0x20000) : Allows K (.one (.reg (cluOff c r))) :=
  h.reg (isCluReg_cluOff c hr)

theorem Allows.chFst {K : List Foot} {o : Nat} (h : Allows K (.chPair o)) : Allows K (.chReg o) :=
  h.of (fun p hp => by cases p <;> simp_all [Foot.covers])

theorem Allows.cluFst {K : List Foot} {o : Nat} (h : Allows K (.cluPair o)) : Allows K (.cluReg o) :=
  h.of (fun p hp => by cases p <;> simp_all [Foot.covers])

theorem Allows.chSnd {K : List Foot} {o : Nat} (h : Allows K (.chPair o)) : Allows K (.chReg (o + 4)) :=
  h.of (fun p hp => by cases p <;> simp_all [Foot.covers])

theorem Allows.cluSnd {K : List Foot} {o : Nat} (h : Allows K (.cluPair o)) : Allows K (.cluReg (o + 4)) :=
  h.of (fun p hp => by cases p <;> simp_all [Foot.covers])

theorem Allows.pairCh {K : List Foot} {n r : Nat} (h : Allows K (.chPair r)) (hr : r + 4 < 0x1000) : Allows K (.pair (chOff n r)) := by
  refine h.of (fun p hp => ?_)
  cases p <;> simp only [Foot.covers, Bool.or_eq_true, beq_iff_eq, reduceCtorEq] at hp ⊢
  rcases hp with rfl | rfl
  · exact .inl (isChReg_chOff n (by omega))
  · exact .inr (isChReg_chOff n hr)

theorem Allows.pairClu {K : List Foot} {c r : Nat} (h : Allows K (.cluPair r)) (hr : r + 4 < 0x20000) : Allows K (.pair (cluOff c r)) := by
  refine h.of (fun p hp => ?_)
  cases p <;> simp only [Foot.covers, Bool.or_eq_true, beq_iff_eq, reduceCtorEq] at hp ⊢
  rcases hp with rfl | rfl
  · exact .inl (isCluReg_cluOff c (by omega))
  · exact .inr (isCluReg_cluOff c hr)

theorem Allows.regOfAll {K : List Foot} {o : Nat} (h : Allows K .allRegs) : Allows K (.one (.reg o)) := h.reg rfl

theorem Allows.pairOfAll {K : List Foot} {o : Nat} (h : Allows K .allRegs) : Allows K (.pair o) :=
  h.of (fun p hp => by cases p <;> simp_all [Foot.covers])

theorem Allows.chRegOfAll {K : List Foot} {o : Nat} (h : Allows K .allRegs) : Allows K (.chReg o) :=
  h.of (fun p hp => by cases p <;> simp_all [Foot.covers])

theorem Allows.chPairOfAll {K : List Foot} {o : Nat} (h : Allows K .allRegs) : Allows K (.chPair o) :=
  h.of (fun p hp => by cases p <;> simp_all [Foot.covers])

theorem Allows.cluRegOfAll {K : List Foot} {o : Nat} (h : Allows K .allRegs) : Allows K (.cluReg o) :=
  h.of (fun p hp => by cases p <;> simp_all [Foot.covers])

theorem Allows.cluPairOfAll {K : List Foot} {o : Nat} (h : Allows K .allRegs) : Allows K (.cluPair o) :=
  h.of (fun p hp => by cases p <;> simp_all [Foot.covers])

theorem Allows.regsOfAll {K : List Foot} {a b : Nat} (h : Allows K .allRegs) : Allows K (.regs a b) :=
  h.of (fun p hp => by cases p <;> simp_all [Foot.covers])

theorem Allows.inRegs {K : List Foot} {lo hi o : Nat} (h : Allows K (.regs lo hi)) (ho : lo ≤ o ∧ o < hi) : Allows K (.one (.reg o)) :=
  h.reg (by simpa [Foot.covers] using ho)

theorem Allows.pairInRegs {K : List Foot} {lo hi o : Nat} (h : Allows K (.regs lo hi)) (ho : lo ≤ o ∧ o + 4 < hi) : Allows K (.pair o) := by
  refine h.of (fun p hp => ?_)
  cases p <;> simp only [Foot.covers, Bool.or_eq_true, beq_iff_eq, decide_eq_true_eq, reduceCtorEq] at hp ⊢
  omega

theorem Allows.regsInRegs {K : List Foot} {lo hi a b : Nat} (h : Allows K (.regs lo hi)) (ho : lo ≤ a ∧ b ≤ hi) : Allows K (.regs a b) := by
  refine h.of (fun p hp => ?_)
  cases p <;> simp only [Foot.covers, Bool.or_eq_true, beq_iff_eq, decide_eq_true_eq, reduceCtorEq, Bool.false_eq_true] at hp ⊢
  omega

theorem Allows.ofChRegs {K : List Foot} {lo hi n r : Nat} (h : Allows K (.chRegs lo hi)) (hr : lo ≤ r ∧ r < hi ∧ r < 0x1000) :
    Allows K (.one (.reg (chOff n r))) := by
  refine h.reg ?_
  unfold Foot.covers inChRegs chOff; simp only [Bool.and_eq_true, decide_eq_true_eq]; omega

theorem Allows.ofChRegsAdd {K : List Foot} {lo hi n r k : Nat} (h : Allows K (.chRegs lo hi)) (hr : lo ≤ r ∧ r + k < hi ∧ r + k < 0x1000) :
    Allows K (.one (.reg (chOff n r + k))) := by
  have h' := Allows.ofChRegs (n := n) (r := r + k) h ⟨by omega, hr.2⟩
  rwa [show chOff n (r + k) = chOff n r + k by unfold chOff; omega] at h'

theorem Allows.ofCluRegs {K : List Foot} {lo hi c r : Nat} (h : Allows K (.cluRegs lo hi)) (hr : lo ≤ r ∧ r < hi ∧ r < 0x20000) :
    Allows K (.one (.reg (cluOff c r))) := by
  refine h.reg ?_
  unfold Foot.covers inCluRegs cluOff; simp only [Bool.and_eq_true, decide_eq_true_eq]; omega

theorem Allows.regsCh {K : List Foot} {lo hi n : Nat} (h : Allows K (.chRegs lo hi)) (hr : hi ≤ 0x1000) :
    Allows K (.regs (chOff n lo) (chOff n hi)) := by
  refine h.of (fun p hp => ?_)
  unfold chOff at hp
  cases p <;> simp only [Foot.covers, inChRegs, Bool.and_eq_true, decide_eq_true_eq, Bool.false_eq_true] at hp ⊢
  omega

theorem Allows.regsClu {K : List Foot} {lo hi c : Nat} (h : Allows K (.cluRegs lo hi)) (hr : hi ≤ 0x20000) :
    Allows K (.regs (cluOff c lo) (cluOff c hi)) := by
  refine h.of (fun p hp => ?_)
  unfold cluOff at hp
  cases p <;> simp only [Foot.covers, inCluRegs, Bool.and_eq_true, decide_eq_true_eq, Bool.false_eq_true] at hp ⊢
  omega

theorem Allows.seqOf {K : List Foot} {q : Nat} (h : Allows K .seqs) : Allows K (.one (.seq q)) := h.one rfl
theorem Allows.laneOf {K : List Foot} {c : Nat} (h : Allows K .lanes) : Allows K (.one (.lane c)) := h.one rfl
theorem Allows.cluOf {K : List Foot} {c : Nat} (h : Allows K .clus) : Allows K (.one (.clu c)) := h.one rfl
theorem Allows.chanOf {K : List Foot} {n : Nat} (h : Allows K .chans) : Allows K (.one (.chan n)) := h.one rfl

theorem Allows.dramOf {K : List Foot} {a n : Nat} (h : Allows K .drams) : Allows K (.dram a n) :=
  h.of (fun p hp => by cases p <;> simp_all [Foot.covers])

theorem Allows.seqRegOf {K : List Foot} {q r : Nat} (h : Allows K (.one (.reg (0xA0000 + r)))) (h' : Allows K (.cluReg r)) (hr : r < 0x20000) :
    Allows K (.one (.reg (seqOff q r))) := by
  unfold seqOff; split
  · exact h
  · exact h'.ofClu hr

theorem Allows.seqPairOf {K : List Foot} {q r : Nat} (h : Allows K (.pair (0xA0000 + r))) (h' : Allows K (.cluPair r)) (hr : r + 4 < 0x20000) :
    Allows K (.pair (seqOff q r)) := by
  unfold seqOff; split
  · exact h
  · exact h'.pairClu hr

theorem Allows.vectorOfEvents {K : List Foot} (h : Allows K .events) : Allows K .vector :=
  h.of (fun p hp => by cases p <;> simp_all [Foot.covers])

theorem Allows.vectorOfCompletion {K : List Foot} (h : Allows K .completion) : Allows K .vector :=
  h.of (fun p hp => by cases p <;> simp_all [Foot.covers])

theorem Allows.vecRegOfVector {K : List Foot} {v : Nat} (h : Allows K .vector) : Allows K (.one (.reg (vecReg v))) := by
  refine h.reg ?_
  unfold vecReg; split <;> decide

theorem Allows.logOfEvents {K : List Foot} (h : Allows K .events) : Allows K .log :=
  h.of (fun p hp => by cases p <;> simp_all [Foot.covers])

theorem Allows.logOfFlashes {K : List Foot} (h : Allows K .flashes) : Allows K .log :=
  h.of (fun p hp => by cases p <;> simp_all [Foot.covers])

theorem Allows.evrStatusOfEvents {K : List Foot} (h : Allows K .events) : Allows K (.one (.reg Reg.evrStatus)) := h.one (by decide)

theorem Allows.evrDropOfEvents {K : List Foot} (h : Allows K .events) : Allows K (.one (.reg Reg.evrDrop)) := h.one (by decide)

theorem Allows.evrCommitOfEvents {K : List Foot} (h : Allows K .events) : Allows K (.one (.reg Reg.evrCommit)) := h.one (by decide)

theorem Allows.evrLogOfEvents {K : List Foot} (h : Allows K .events) : Allows K (.one (.reg Reg.evrLog)) := h.one (by decide)

theorem Allows.evrLogBseqOfEvents {K : List Foot} (h : Allows K .events) : Allows K (.one (.reg Reg.evrLogBseq)) := h.one (by decide)

theorem Allows.evrOfEvents {K : List Foot} (h : Allows K .events) : Allows K (.one .evr) := h.one (by decide)

theorem Allows.vectorsOfEvents {K : List Foot} (h : Allows K .events) : Allows K (.one .vectors) := h.one (by decide)

theorem Allows.vectorsOfVector {K : List Foot} (h : Allows K .vector) : Allows K (.one .vectors) := h.one (by decide)

theorem Allows.ringsOfCompletion {K : List Foot} (h : Allows K .completion) : Allows K (.one .rings) := h.one (by decide)

theorem Allows.hostMemOfCompletion {K : List Foot} (h : Allows K .completion) : Allows K (.one .hostMem) := h.one (by decide)

theorem Allows.vectorsOfCompletion {K : List Foot} (h : Allows K .completion) : Allows K (.one .vectors) := h.one (by decide)

theorem Allows.cplTailOfCompletion {K : List Foot} (h : Allows K .completion) : Allows K (.one (.reg Reg.hstCplTail)) := h.one (by decide)

theorem Allows.cplDropOfCompletion {K : List Foot} (h : Allows K .completion) : Allows K (.one (.reg Reg.hstCplDrop)) := h.one (by decide)

theorem Allows.readsOfError {K : List Foot} (h : Allows K .hostError) : Allows K (.one .reads) := h.one (by decide)

theorem Allows.badAddrOfError {K : List Foot} (h : Allows K .hostError) : Allows K (.one (.reg Reg.hstBadAddr)) := h.one (by decide)

theorem Allows.evrPairOfEvents {K : List Foot} (h : Allows K .events) : Allows K (.pair Reg.evrFlags) :=
  h.of (fun p hp => by
    cases p <;> simp only [Foot.covers, Bool.or_eq_true, beq_iff_eq, reduceCtorEq, Bool.false_eq_true] at hp ⊢
    rcases hp with rfl | rfl <;> exact .inr (by decide))

theorem Allows.hstFlagsOfError {K : List Foot} (h : Allows K .hostError) : Allows K (.pair Reg.hstFlags) :=
  h.of (fun p hp => by
    cases p <;> simp only [Foot.covers, Bool.or_eq_true, beq_iff_eq, reduceCtorEq, Bool.false_eq_true] at hp ⊢
    rcases hp with rfl | rfl <;> decide)

/-! ### The stores -/

theorem State.wr_rd_ne (s : State) {o k : Nat} (h : o ≠ k) (v : W32) : (s.wr k v).rd o = s.rd o := by
  simp [State.rd, State.wr, Tbl.get_set_ne resetWord h]

theorem State.wr_changes {K : List Foot} {s x : State} (off : Nat) (v : W32) (h : Evolves K s x) (a : Allows K (.one (.reg off))) :
    Evolves K s (x.wr off v) := by
  refine h.step a (fun p hp => ?_) (State.canonical_step (h1 := Tbl.wf_set _ _ _))
  cases p <;> first | exact rfl | exact ⟨rfl, rfl⟩ | exact ⟨rfl, rfl, rfl⟩ | exact ⟨rfl, rfl, rfl, rfl⟩ | exact ⟨rfl, rfl, rfl, rfl, rfl⟩ | skip
  rename_i o
  exact State.wr_rd_ne x (fun e => by simp [Foot.covers, e] at hp) v

theorem State.setSeq_changes {K : List Foot} {s x : State} (n : Nat) (v : Seq) (h : Evolves K s x) (a : Allows K (.one (.seq n))) :
    Evolves K s (x.setSeq n v) := by
  refine h.step a (fun p hp => ?_) (State.canonical_step (h5 := Tbl.wf_set _ _ _))
  cases p <;> first | exact rfl | exact ⟨rfl, rfl⟩ | exact ⟨rfl, rfl, rfl⟩ | exact ⟨rfl, rfl, rfl, rfl⟩ | exact ⟨rfl, rfl, rfl, rfl, rfl⟩ | skip
  rename_i o
  exact Tbl.get_set_ne _ (fun e => by simp [Foot.covers, e] at hp) v x.seqs

theorem State.setLane_changes {K : List Foot} {s x : State} (n : Nat) (v : Lane) (h : Evolves K s x) (a : Allows K (.one (.lane n))) :
    Evolves K s (x.setLane n v) := by
  refine h.step a (fun p hp => ?_) (State.canonical_step (h6 := Tbl.wf_set _ _ _))
  cases p <;> first | exact rfl | exact ⟨rfl, rfl⟩ | exact ⟨rfl, rfl, rfl⟩ | exact ⟨rfl, rfl, rfl, rfl⟩ | exact ⟨rfl, rfl, rfl, rfl, rfl⟩ | skip
  rename_i o
  exact Tbl.get_set_ne _ (fun e => by simp [Foot.covers, e] at hp) v x.lanes

theorem State.setClu_changes {K : List Foot} {s x : State} (n : Nat) (v : Clu) (h : Evolves K s x) (a : Allows K (.one (.clu n))) :
    Evolves K s (x.setClu n v) := by
  refine h.step a (fun p hp => ?_) (State.canonical_step (h7 := Tbl.wf_set _ _ _))
  cases p <;> first | exact rfl | exact ⟨rfl, rfl⟩ | exact ⟨rfl, rfl, rfl⟩ | exact ⟨rfl, rfl, rfl, rfl⟩ | exact ⟨rfl, rfl, rfl, rfl, rfl⟩ | skip
  rename_i o
  exact Tbl.get_set_ne _ (fun e => by simp [Foot.covers, e] at hp) v x.clus

theorem State.setChan_changes {K : List Foot} {s x : State} (n : Nat) (v : Chan) (h : Evolves K s x) (a : Allows K (.one (.chan n))) :
    Evolves K s (x.setChan n v) := by
  refine h.step a (fun p hp => ?_) (State.canonical_step (h8 := Tbl.wf_set _ _ _))
  cases p <;> first | exact rfl | exact ⟨rfl, rfl⟩ | exact ⟨rfl, rfl, rfl⟩ | exact ⟨rfl, rfl, rfl, rfl⟩ | exact ⟨rfl, rfl, rfl, rfl, rfl⟩ | skip
  rename_i o
  exact Tbl.get_set_ne _ (fun e => by simp [Foot.covers, e] at hp) v x.chans

/-! ### One field replaced -/

/-- The state with another `boot`. -/
def State.putBoot (s : State) (v : Boot) : State := { s with boot := v }

theorem State.fold_boot (s : State) (v : Boot) : ({ s with boot := v } : State) = s.putBoot v := rfl

theorem State.putBoot_changes {K : List Foot} {s x : State} (v : Boot) (h : Evolves K s x) (a : Allows K (.one .boot)) :
    Evolves K s (x.putBoot v) := by
  refine h.step a (fun p hp => ?_) (fun hc => hc)
  cases p <;> first | exact rfl | exact ⟨rfl, rfl⟩ | exact ⟨rfl, rfl, rfl⟩ | exact ⟨rfl, rfl, rfl, rfl⟩ | exact ⟨rfl, rfl, rfl, rfl, rfl⟩ | exact absurd hp (by simp [Foot.covers])

/-- The state with another `clk`. -/
def State.putClk (s : State) (v : Clk) : State := { s with clk := v }

theorem State.fold_clk (s : State) (v : Clk) : ({ s with clk := v } : State) = s.putClk v := rfl

theorem State.putClk_changes {K : List Foot} {s x : State} (v : Clk) (h : Evolves K s x) (a : Allows K (.one .clk)) :
    Evolves K s (x.putClk v) := by
  refine h.step a (fun p hp => ?_) (fun hc => hc)
  cases p <;> first | exact rfl | exact ⟨rfl, rfl⟩ | exact ⟨rfl, rfl, rfl⟩ | exact ⟨rfl, rfl, rfl, rfl⟩ | exact ⟨rfl, rfl, rfl, rfl, rfl⟩ | exact absurd hp (by simp [Foot.covers])

/-- The state with another `evr`. -/
def State.putEvr (s : State) (v : Evr) : State := { s with evr := v }

theorem State.fold_evr (s : State) (v : Evr) : ({ s with evr := v } : State) = s.putEvr v := rfl

theorem State.putEvr_changes {K : List Foot} {s x : State} (v : Evr) (h : Evolves K s x) (a : Allows K (.one .evr)) :
    Evolves K s (x.putEvr v) := by
  refine h.step a (fun p hp => ?_) (fun hc => hc)
  cases p <;> first | exact rfl | exact ⟨rfl, rfl⟩ | exact ⟨rfl, rfl, rfl⟩ | exact ⟨rfl, rfl, rfl, rfl⟩ | exact ⟨rfl, rfl, rfl, rfl, rfl⟩ | exact absurd hp (by simp [Foot.covers])

/-- The state with another `cal`. -/
def State.putCal (s : State) (v : Cal) : State := { s with cal := v }

theorem State.fold_cal (s : State) (v : Cal) : ({ s with cal := v } : State) = s.putCal v := rfl

theorem State.putCal_changes {K : List Foot} {s x : State} (v : Cal) (h : Evolves K s x) (a : Allows K (.one .cal)) :
    Evolves K s (x.putCal v) := by
  refine h.step a (fun p hp => ?_) (fun hc => hc)
  cases p <;> first | exact rfl | exact ⟨rfl, rfl⟩ | exact ⟨rfl, rfl, rfl⟩ | exact ⟨rfl, rfl, rfl, rfl⟩ | exact ⟨rfl, rfl, rfl, rfl, rfl⟩ | exact absurd hp (by simp [Foot.covers])

/-- The state with another `pwr`. -/
def State.putPwr (s : State) (v : Pwr) : State := { s with pwr := v }

theorem State.fold_pwr (s : State) (v : Pwr) : ({ s with pwr := v } : State) = s.putPwr v := rfl

theorem State.putPwr_changes {K : List Foot} {s x : State} (v : Pwr) (h : Evolves K s x) (a : Allows K (.one .pwr)) :
    Evolves K s (x.putPwr v) := by
  refine h.step a (fun p hp => ?_) (fun hc => hc)
  cases p <;> first | exact rfl | exact ⟨rfl, rfl⟩ | exact ⟨rfl, rfl, rfl⟩ | exact ⟨rfl, rfl, rfl, rfl⟩ | exact ⟨rfl, rfl, rfl, rfl, rfl⟩ | exact absurd hp (by simp [Foot.covers])

/-- The state with another `plan`. -/
def State.putPlan (s : State) (v : Plan) : State := { s with plan := v }

theorem State.fold_plan (s : State) (v : Plan) : ({ s with plan := v } : State) = s.putPlan v := rfl

theorem State.putPlan_changes {K : List Foot} {s x : State} (v : Plan) (h : Evolves K s x) (a : Allows K (.one .plan)) :
    Evolves K s (x.putPlan v) := by
  refine h.step a (fun p hp => ?_) (fun hc => hc)
  cases p <;> first | exact rfl | exact ⟨rfl, rfl⟩ | exact ⟨rfl, rfl, rfl⟩ | exact ⟨rfl, rfl, rfl, rfl⟩ | exact ⟨rfl, rfl, rfl, rfl, rfl⟩ | exact absurd hp (by simp [Foot.covers])

/-- The state with another `snd`. -/
def State.putSnd (s : State) (v : Snd) : State := { s with snd := v }

theorem State.fold_snd (s : State) (v : Snd) : ({ s with snd := v } : State) = s.putSnd v := rfl

theorem State.putSnd_changes {K : List Foot} {s x : State} (v : Snd) (h : Evolves K s x) (a : Allows K (.one .snd)) :
    Evolves K s (x.putSnd v) := by
  refine h.step a (fun p hp => ?_) (fun hc => hc)
  cases p <;> first | exact rfl | exact ⟨rfl, rfl⟩ | exact ⟨rfl, rfl, rfl⟩ | exact ⟨rfl, rfl, rfl, rfl⟩ | exact ⟨rfl, rfl, rfl, rfl, rfl⟩ | exact absurd hp (by simp [Foot.covers])

/-- The state with another `cwy`. -/
def State.putCwy (s : State) (v : Cwy) : State := { s with cwy := v }

theorem State.fold_cwy (s : State) (v : Cwy) : ({ s with cwy := v } : State) = s.putCwy v := rfl

theorem State.putCwy_changes {K : List Foot} {s x : State} (v : Cwy) (h : Evolves K s x) (a : Allows K (.one .cwy)) :
    Evolves K s (x.putCwy v) := by
  refine h.step a (fun p hp => ?_) (fun hc => hc)
  cases p <;> first | exact rfl | exact ⟨rfl, rfl⟩ | exact ⟨rfl, rfl, rfl⟩ | exact ⟨rfl, rfl, rfl, rfl⟩ | exact ⟨rfl, rfl, rfl, rfl, rfl⟩ | exact absurd hp (by simp [Foot.covers])

/-- The state with another `freeCtr`. -/
def State.putFreeCtr (s : State) (v : Nat) : State := { s with freeCtr := v }

theorem State.fold_freeCtr (s : State) (v : Nat) : ({ s with freeCtr := v } : State) = s.putFreeCtr v := rfl

theorem State.putFreeCtr_changes {K : List Foot} {s x : State} (v : Nat) (h : Evolves K s x) (a : Allows K (.one .freeCtr)) :
    Evolves K s (x.putFreeCtr v) := by
  refine h.step a (fun p hp => ?_) (fun hc => hc)
  cases p <;> first | exact rfl | exact ⟨rfl, rfl⟩ | exact ⟨rfl, rfl, rfl⟩ | exact ⟨rfl, rfl, rfl, rfl⟩ | exact ⟨rfl, rfl, rfl, rfl, rfl⟩ | exact absurd hp (by simp [Foot.covers])

/-- The state with another `shadows`. -/
def State.putShadows (s : State) (v : Tbl (Option W32)) : State := { s with shadows := v }

theorem State.fold_shadows (s : State) (v : Tbl (Option W32)) : ({ s with shadows := v } : State) = s.putShadows v := rfl

theorem State.putShadows_changes {K : List Foot} {s x : State} (v : Tbl (Option W32)) (h : Evolves K s x) (a : Allows K (.one .shadows)) :
    Evolves K s (x.putShadows v) := by
  refine h.step a (fun p hp => ?_) (fun hc => hc)
  cases p <;> first | exact rfl | exact ⟨rfl, rfl⟩ | exact ⟨rfl, rfl, rfl⟩ | exact ⟨rfl, rfl, rfl, rfl⟩ | exact ⟨rfl, rfl, rfl, rfl, rfl⟩ | exact absurd hp (by simp [Foot.covers])

/-- The state with another `hst`. -/
def State.putHst (s : State) (v : Hst) : State := { s with hst := v }

theorem State.fold_hst (s : State) (v : Hst) : ({ s with hst := v } : State) = s.putHst v := rfl

/-- The state with another `nvm`. -/
def State.putNvm (s : State) (v : Nvm) : State := { s with nvm := v }

theorem State.fold_nvm (s : State) (v : Nvm) : ({ s with nvm := v } : State) = s.putNvm v := rfl

/-- The state with another `mem`. -/
def State.putMem (s : State) (v : Mem) : State := { s with mem := v }

theorem State.fold_mem (s : State) (v : Mem) : ({ s with mem := v } : State) = s.putMem v := rfl

theorem State.putHst_rings {K : List Foot} {s x : State} {v0 : List Cmd} {v1 : Option Cmd} {v2 : List BgCmd} {v3 : Nat} {v4 : Tbl (BitVec 128)} (h : Evolves K s x) (a : Allows K (.one .rings)) :
    Evolves K s (x.putHst { x.hst with fetched := v0, fg := v1, bg := v2, reserved := v3, cplRing := v4 }) := by
  refine h.step a (fun p hp => ?_) (fun hc => hc)
  cases p <;> first | exact rfl | exact ⟨rfl, rfl⟩ | exact ⟨rfl, rfl, rfl⟩ | exact ⟨rfl, rfl, rfl, rfl⟩ | exact ⟨rfl, rfl, rfl, rfl, rfl⟩ | exact absurd hp (by simp [Foot.covers])

theorem State.putHst_hostMem {K : List Foot} {s x : State} {v0 : Tbl Byte} (h : Evolves K s x) (a : Allows K (.one .hostMem)) :
    Evolves K s (x.putHst { x.hst with hostMem := v0 }) := by
  refine h.step a (fun p hp => ?_) (fun hc => hc)
  cases p <;> first | exact rfl | exact ⟨rfl, rfl⟩ | exact ⟨rfl, rfl, rfl⟩ | exact ⟨rfl, rfl, rfl, rfl⟩ | exact ⟨rfl, rfl, rfl, rfl, rfl⟩ | exact absurd hp (by simp [Foot.covers])

theorem State.putHst_msix {K : List Foot} {s x : State} {v0 : Tbl W32} (h : Evolves K s x) (a : Allows K (.one .msix)) :
    Evolves K s (x.putHst { x.hst with msixTable := v0 }) := by
  refine h.step a (fun p hp => ?_) (fun hc => hc)
  cases p <;> first | exact rfl | exact ⟨rfl, rfl⟩ | exact ⟨rfl, rfl, rfl⟩ | exact ⟨rfl, rfl, rfl, rfl⟩ | exact ⟨rfl, rfl, rfl, rfl, rfl⟩ | exact absurd hp (by simp [Foot.covers])

theorem State.putHst_vectors {K : List Foot} {s x : State} {v0 : BitVec 64} {v1 : Tbl Nat} (h : Evolves K s x) (a : Allows K (.one .vectors)) :
    Evolves K s (x.putHst { x.hst with pba := v0, messages := v1 }) := by
  refine h.step a (fun p hp => ?_) (fun hc => hc)
  cases p <;> first | exact rfl | exact ⟨rfl, rfl⟩ | exact ⟨rfl, rfl, rfl⟩ | exact ⟨rfl, rfl, rfl, rfl⟩ | exact ⟨rfl, rfl, rfl, rfl, rfl⟩ | exact absurd hp (by simp [Foot.covers])

theorem State.putHst_reads {K : List Foot} {s x : State} {v0 : W32} {v1 : List Byte} {v2 : Bool} (h : Evolves K s x) (a : Allows K (.one .reads)) :
    Evolves K s (x.putHst { x.hst with readData := v0, bar2Data := v1, ur := v2 }) := by
  refine h.step a (fun p hp => ?_) (fun hc => hc)
  cases p <;> first | exact rfl | exact ⟨rfl, rfl⟩ | exact ⟨rfl, rfl, rfl⟩ | exact ⟨rfl, rfl, rfl, rfl⟩ | exact ⟨rfl, rfl, rfl, rfl, rfl⟩ | exact absurd hp (by simp [Foot.covers])

theorem State.putNvm_flashes {K : List Foot} {s x : State} {v0 : Tbl Byte} (h : Evolves K s x) (a : Allows K .flashes)
    (hw : Tbl.wf (fun _ => (0xFF : Byte)) x.nvm.flash = true → Tbl.wf (fun _ => (0xFF : Byte)) v0 = true) :
    Evolves K s (x.putNvm { x.nvm with flash := v0 }) := by
  refine h.step a (fun p hp => ?_) (State.canonical_step (h2 := hw))
  cases p <;> first | exact rfl | exact ⟨rfl, rfl⟩ | exact ⟨rfl, rfl, rfl⟩ | exact ⟨rfl, rfl, rfl, rfl⟩ | exact ⟨rfl, rfl, rfl, rfl, rfl⟩ | exact absurd hp (by simp [Foot.covers])

theorem State.putNvm_keys {K : List Foot} {s x : State} {v0 : List (Nat × BitVec 384)} {v1 : BitVec 4} (h : Evolves K s x) (a : Allows K (.one .keys)) :
    Evolves K s (x.putNvm { x.nvm with keys := v0, revoked := v1 }) := by
  refine h.step a (fun p hp => ?_) (fun hc => hc)
  cases p <;> first | exact rfl | exact ⟨rfl, rfl⟩ | exact ⟨rfl, rfl, rfl⟩ | exact ⟨rfl, rfl, rfl, rfl⟩ | exact ⟨rfl, rfl, rfl, rfl, rfl⟩ | exact absurd hp (by simp [Foot.covers])

theorem State.putNvm_rollback {K : List Foot} {s x : State} {v0 : BitVec 64} (h : Evolves K s x) (a : Allows K (.one .rollback)) :
    Evolves K s (x.putNvm { x.nvm with rollback := v0 }) := by
  refine h.step a (fun p hp => ?_) (fun hc => hc)
  cases p <;> first | exact rfl | exact ⟨rfl, rfl⟩ | exact ⟨rfl, rfl, rfl⟩ | exact ⟨rfl, rfl, rfl, rfl⟩ | exact ⟨rfl, rfl, rfl, rfl, rfl⟩ | exact absurd hp (by simp [Foot.covers])

theorem State.putNvm_port {K : List Foot} {s x : State} {v0 : Nat} {v1 : Bool} {v2 : Bool} {v3 : Bool} (h : Evolves K s x) (a : Allows K (.one .flashPort)) :
    Evolves K s (x.putNvm { x.nvm with persist := v0, up := v1, scanned := v2, noFlash := v3 }) := by
  refine h.step a (fun p hp => ?_) (fun hc => hc)
  cases p <;> first | exact rfl | exact ⟨rfl, rfl⟩ | exact ⟨rfl, rfl, rfl⟩ | exact ⟨rfl, rfl, rfl, rfl⟩ | exact ⟨rfl, rfl, rfl, rfl, rfl⟩ | exact absurd hp (by simp [Foot.covers])

theorem State.putMem_macros {K : List Foot} {s x : State} {v0 : Tbl Macro} (h : Evolves K s x) (a : Allows K (.one .macros)) :
    Evolves K s (x.putMem { x.mem with macros := v0 }) := by
  refine h.step a (fun p hp => ?_) (fun hc => hc)
  cases p <;> first | exact rfl | exact ⟨rfl, rfl⟩ | exact ⟨rfl, rfl, rfl⟩ | exact ⟨rfl, rfl, rfl, rfl⟩ | exact ⟨rfl, rfl, rfl, rfl, rfl⟩ | exact absurd hp (by simp [Foot.covers])

theorem State.putMem_march {K : List Foot} {s x : State} {v0 : Option March} {v1 : List (Nat × Nat)} (h : Evolves K s x) (a : Allows K (.one .march)) :
    Evolves K s (x.putMem { x.mem with march := v0, held := v1 }) := by
  refine h.step a (fun p hp => ?_) (fun hc => hc)
  cases p <;> first | exact rfl | exact ⟨rfl, rfl⟩ | exact ⟨rfl, rfl, rfl⟩ | exact ⟨rfl, rfl, rfl, rfl⟩ | exact ⟨rfl, rfl, rfl, rfl, rfl⟩ | exact absurd hp (by simp [Foot.covers])

theorem State.putMem_refills {K : List Foot} {s x : State} {v0 : List (Nat × Nat)} (h : Evolves K s x) (a : Allows K (.one .refills)) :
    Evolves K s (x.putMem { x.mem with dramQ := v0 }) := by
  refine h.step a (fun p hp => ?_) (fun hc => hc)
  cases p <;> first | exact rfl | exact ⟨rfl, rfl⟩ | exact ⟨rfl, rfl, rfl⟩ | exact ⟨rfl, rfl, rfl, rfl⟩ | exact ⟨rfl, rfl, rfl, rfl, rfl⟩ | exact absurd hp (by simp [Foot.covers])

theorem State.putMem_timing {K : List Foot} {s x : State} {v0 : Tbl Byte} (h : Evolves K s x) (a : Allows K (.one .timing))
    (hw : Tbl.wf (fun _ => (0 : Byte)) x.mem.timing = true → Tbl.wf (fun _ => (0 : Byte)) v0 = true) :
    Evolves K s (x.putMem { x.mem with timing := v0 }) := by
  refine h.step a (fun p hp => ?_) (State.canonical_step (h9 := hw))
  cases p <;> first | exact rfl | exact ⟨rfl, rfl⟩ | exact ⟨rfl, rfl, rfl⟩ | exact ⟨rfl, rfl, rfl, rfl⟩ | exact ⟨rfl, rfl, rfl, rfl, rfl⟩ | exact absurd hp (by simp [Foot.covers])

theorem State.putMem_drams {K : List Foot} {s x : State} {v0 : Tbl Byte} (h : Evolves K s x) (a : Allows K .drams)
    (hw : Tbl.wf (fun _ => (0 : Byte)) x.mem.dram = true → Tbl.wf (fun _ => (0 : Byte)) v0 = true) :
    Evolves K s (x.putMem { x.mem with dram := v0 }) := by
  refine h.step a (fun p hp => ?_) (State.canonical_step (h3 := hw))
  cases p <;> first | exact rfl | exact ⟨rfl, rfl⟩ | exact ⟨rfl, rfl, rfl⟩ | exact ⟨rfl, rfl, rfl, rfl⟩ | exact ⟨rfl, rfl, rfl, rfl, rfl⟩ | exact absurd hp (by simp [Foot.covers])

theorem State.putMem_failCnts {K : List Foot} {s x : State} {v0 : Tbl Byte} (h : Evolves K s x) (a : Allows K .failCnts)
    (hw : Tbl.wf (fun _ => (0 : Byte)) x.mem.failCnt = true → Tbl.wf (fun _ => (0 : Byte)) v0 = true) :
    Evolves K s (x.putMem { x.mem with failCnt := v0 }) := by
  refine h.step a (fun p hp => ?_) (State.canonical_step (h4 := hw))
  cases p <;> first | exact rfl | exact ⟨rfl, rfl⟩ | exact ⟨rfl, rfl, rfl⟩ | exact ⟨rfl, rfl, rfl, rfl⟩ | exact ⟨rfl, rfl, rfl, rfl, rfl⟩ | exact absurd hp (by simp [Foot.covers])

theorem State.flashWr_changes {K : List Foot} {s x : State} (a : Nat) (bs : List Byte) (h : Evolves K s x) (hk : Allows K .flashes) :
    Evolves K s (x.flashWr a bs) := State.putNvm_flashes h hk (Tbl.wf_setList _ _ _)

theorem State.flashErase_changes {K : List Foot} {s x : State} (a n : Nat) (h : Evolves K s x) (hk : Allows K .flashes) :
    Evolves K s (x.flashErase a n) := State.putNvm_flashes h hk (Tbl.wf_filter _ _)

/-- A store into the log region. -/
theorem State.flashWr_log {K : List Foot} {s x : State} (a : Nat) (bs : List Byte) (h : Evolves K s x) (hk : Allows K .log)
    (ha : 0x600000 ≤ a ∧ a + bs.length ≤ 0xE00000) : Evolves K s (x.flashWr a bs) := by
  refine h.step hk (fun p hp => ?_) (State.canonical_step (h2 := Tbl.wf_setList _ _ _))
  cases p with
  | flash b =>
    have hb : ¬ (0x600000 ≤ b ∧ b < 0xE00000) := by simpa [Foot.covers] using hp
    exact Tbl.get_setList_ne _ _ _ _ _ (by omega)
  | _ => first | exact rfl | exact ⟨rfl, rfl⟩ | exact ⟨rfl, rfl, rfl⟩ | exact ⟨rfl, rfl, rfl, rfl⟩ | exact ⟨rfl, rfl, rfl, rfl, rfl⟩

/-- An erase in the log region. -/
theorem State.flashErase_log {K : List Foot} {s x : State} (a n : Nat) (h : Evolves K s x) (hk : Allows K .log)
    (ha : 0x600000 ≤ a ∧ a + n ≤ 0xE00000) : Evolves K s (x.flashErase a n) := by
  refine h.step hk (fun p hp => ?_) (State.canonical_step (h2 := Tbl.wf_filter _ _))
  cases p with
  | flash b =>
    have hb : ¬ (0x600000 ≤ b ∧ b < 0xE00000) := by simpa [Foot.covers] using hp
    exact Tbl.get_filter _ _ _ (fun _ => by simp; omega) _
  | _ => first | exact rfl | exact ⟨rfl, rfl⟩ | exact ⟨rfl, rfl, rfl⟩ | exact ⟨rfl, rfl, rfl, rfl⟩ | exact ⟨rfl, rfl, rfl, rfl, rfl⟩

theorem logAddr_header (b n : Nat) : 0x600000 ≤ logAddr b 0 ∧ logAddr b 0 + (blockHeader n).length ≤ 0xE00000 := by
  simp [logAddr, blockHeader, leBytes]; omega

theorem logAddr_record (b i : Nat) (r : EvRec) : 0x600000 ≤ logAddr b i ∧ logAddr b i + r.bytes.length ≤ 0xE00000 := by
  simp [logAddr, EvRec.bytes, EvRec.body, leBytes]; omega

theorem logAddr_state (b : Nat) : 0x600000 ≤ logAddr b 0 + 8 ∧ logAddr b 0 + 8 + [(0 : Byte)].length ≤ 0xE00000 := by
  simp [logAddr]; omega

theorem logAddr_block (b : Nat) : 0x600000 ≤ logAddr b 0 ∧ logAddr b 0 + 65536 ≤ 0xE00000 := by
  simp [logAddr]; omega

theorem logAddr_rest (b i n : Nat) :
    0x600000 ≤ logAddr b i ∧ logAddr b i + min n (65536 - i % 2048 * 32) ≤ 0xE00000 := by
  simp [logAddr]; omega

theorem State.flashLost_changes {K : List Foot} {s x : State} (a n : Nat) (h : Evolves K s x) (hk : Allows K .flashes)
    (a0 : Allows K (.one .freeCtr)) : Evolves K s (x.flashLost a n) :=
  State.putFreeCtr_changes _ (State.flashWr_changes _ _ h hk) a0

theorem State.flashLost_log {K : List Foot} {s x : State} (a n : Nat) (h : Evolves K s x) (hk : Allows K .log)
    (a0 : Allows K (.one .freeCtr)) (ha : 0x600000 ≤ a ∧ a + n ≤ 0xE00000) : Evolves K s (x.flashLost a n) :=
  State.putFreeCtr_changes _ (State.flashWr_log _ _ h hk (by simpa using ha)) a0

theorem State.dramWr_changes {K : List Foot} {s x : State} (a : Nat) (bs : List Byte) (h : Evolves K s x)
    (hk : Allows K (.dram a bs.length)) : Evolves K s (x.dramWr a bs) := by
  refine h.step hk (fun p hp => ?_) (State.canonical_step (h3 := Tbl.wf_setList _ _ _))
  cases p <;> first | exact rfl | exact ⟨rfl, rfl⟩ | exact ⟨rfl, rfl, rfl⟩ | exact ⟨rfl, rfl, rfl, rfl⟩ | exact ⟨rfl, rfl, rfl, rfl, rfl⟩ | skip
  rename_i o
  exact Tbl.get_setList_ne _ bs a o x.mem.dram (by simp only [Foot.covers, decide_eq_false_iff_not] at hp; omega)

end Sys2Proof.Machine
end

