-- ==== Sys2Proof/Laws/FrameOps.lean ====
section
/-! SUPPORT. What each operation of Machine/Ops.lean can change: from a state that has changed only parts of the footprint `K`,
the operation changes only parts of `K`, where `K` allows the operation's own footprint. -/

set_option Elab.async false
set_option linter.all false

namespace Sys2Proof.Machine

theorem State.wrF_changes {K : List Foot} {s x : State} (off) (msb) (lsb) (x') (h : Evolves K s x) (a0 : Allows K (.one (.reg off))) :
    Evolves K s (State.wrF x off msb lsb x') := by
  unfold State.wrF
  repeat' (first | with_reducible refine fun _ => ?_ | with_reducible (first | exact h | apply State.wr_changes))
  all_goals (with_reducible first | assumption)

theorem State.countF_changes {K : List Foot} {s x : State} (off) (msb) (lsb) (n) (h : Evolves K s x) (a0 : Allows K (.one (.reg off))) :
    Evolves K s (State.countF x off msb lsb n) := by
  unfold State.countF
  repeat' (first | with_reducible refine fun _ => ?_ | with_reducible (first | exact h | apply State.wrF_changes))
  all_goals (with_reducible first | assumption)

theorem State.raise_changes {K : List Foot} {s x : State} (off) (b) (h : Evolves K s x) (a0 : Allows K (.pair off)) :
    Evolves K s (State.raise x off b) := by
  unfold State.raise
  repeat' (first | with_reducible refine fun _ => ?_ | lift_lets | (with_reducible intro y; first | (refine Evolves.cut (K := K) (s := s) (y := y) ?_ ?_ <;> first | (clear_value y; with_reducible intro hy) | simp -zeta -zetaHave only [y]) | (simp -zeta -zetaHave only [y]; clear y) | (clear_value y; clear y)) | with_reducible (first | exact h | assumption | apply State.countF_changes | apply State.wr_changes | apply Evolves.ite) | (split))
  all_goals (with_reducible first | assumption | exact a0.fst | exact a0.snd)

theorem State.count_changes {K : List Foot} {s x : State} (off) (n) (h : Evolves K s x) (a0 : Allows K (.one (.reg off))) :
    Evolves K s (State.count x off n) := by
  unfold State.count
  repeat' (first | with_reducible refine fun _ => ?_ | with_reducible (first | exact h | apply State.wr_changes))
  all_goals (with_reducible first | assumption)

theorem State.raiseIf_changes {K : List Foot} {s x : State} (p) (off) (b) (h : Evolves K s x) (a0 : Allows K (.pair off)) :
    Evolves K s (State.raiseIf x p off b) := by
  unfold State.raiseIf
  repeat' (first | with_reducible refine fun _ => ?_ | with_reducible (first | exact h | apply State.raise_changes | apply Evolves.ite))
  all_goals (with_reducible first | assumption | exact a0.fst | exact a0.snd)

theorem State.wrB_changes {K : List Foot} {s x : State} (off) (n) (b) (h : Evolves K s x) (a0 : Allows K (.one (.reg off))) :
    Evolves K s (State.wrB x off n b) := by
  unfold State.wrB
  repeat' (first | with_reducible refine fun _ => ?_ | with_reducible (first | exact h | apply State.wrF_changes))
  all_goals (with_reducible first | assumption)

theorem State.setPba_changes {K : List Foot} {s x : State} (v) (b) (h : Evolves K s x) (a0 : Allows K (.one .vectors)) :
    Evolves K s (State.setPba x v b) := by
  unfold State.setPba
  try simp -zeta -zetaHave only [State.fold_hst]
  repeat' (first | with_reducible refine fun _ => ?_ | lift_lets | (with_reducible intro y; first | (refine Evolves.cut (K := K) (s := s) (y := y) ?_ ?_ <;> first | (clear_value y; with_reducible intro hy) | simp -zeta -zetaHave only [y]) | (simp -zeta -zetaHave only [y]; clear y) | (clear_value y; clear y)) | with_reducible (first | exact h | assumption | apply State.putHst_vectors | apply Evolves.ite) | (split))
  all_goals (with_reducible first | assumption)

theorem State.sendMsg_changes {K : List Foot} {s x : State} (v) (h : Evolves K s x) (a0 : Allows K (.one .vectors)) :
    Evolves K s (State.sendMsg x v) := by
  unfold State.sendMsg
  try simp -zeta -zetaHave only [State.fold_hst]
  repeat' (first | with_reducible refine fun _ => ?_ | lift_lets | (with_reducible intro y; first | (refine Evolves.cut (K := K) (s := s) (y := y) ?_ ?_ <;> first | (clear_value y; with_reducible intro hy) | simp -zeta -zetaHave only [y]) | (simp -zeta -zetaHave only [y]; clear y) | (clear_value y; clear y)) | with_reducible (first | exact h | assumption | apply State.putHst_vectors))
  all_goals (with_reducible first | assumption)

theorem State.pendVector_changes {K : List Foot} {s x : State} (v) (h : Evolves K s x) (a0 : Allows K .vector) :
    Evolves K s (State.pendVector x v) := by
  unfold State.pendVector
  repeat' (first | with_reducible refine fun _ => ?_ | lift_lets | (with_reducible intro y; first | (refine Evolves.cut (K := K) (s := s) (y := y) ?_ ?_ <;> first | (clear_value y; with_reducible intro hy) | simp -zeta -zetaHave only [y]) | (simp -zeta -zetaHave only [y]; clear y) | (clear_value y; clear y)) | with_reducible (first | exact h | assumption | apply State.wrB_changes | apply State.setPba_changes | apply State.sendMsg_changes | apply Evolves.ite) | (split))
  all_goals (with_reducible first | assumption | exact a0.vecRegOfVector | exact a0.vectorsOfVector)

theorem State.route_changes {K : List Foot} {s x : State} (src) (h : Evolves K s x) (a0 : Allows K .vector) :
    Evolves K s (State.route x src) := by
  unfold State.route
  repeat' (first | with_reducible refine fun _ => ?_ | lift_lets | (with_reducible intro y; first | (refine Evolves.cut (K := K) (s := s) (y := y) ?_ ?_ <;> first | (clear_value y; with_reducible intro hy) | simp -zeta -zetaHave only [y]) | (simp -zeta -zetaHave only [y]; clear y) | (clear_value y; clear y)) | with_reducible (first | exact h | assumption | apply State.pendVector_changes | apply Evolves.ite) | (split))
  all_goals (with_reducible first | assumption | exact a0.vecRegOfVector | exact a0.vectorsOfVector)

theorem State.evrOpenBit_changes {K : List Foot} {s x : State} (h : Evolves K s x) (a0 : Allows K (.one (.reg Reg.evrStatus))) :
    Evolves K s (State.evrOpenBit x) := by
  unfold State.evrOpenBit
  repeat' (first | with_reducible refine fun _ => ?_ | with_reducible (first | exact h | apply State.wrB_changes))
  all_goals (with_reducible first | assumption)

theorem State.ringPut_changes {K : List Foot} {s x : State} (r) (h : Evolves K s x) (a0 : Allows K (.one (.reg Reg.evrCommit))) (a1 : Allows K (.one .evr)) :
    Evolves K s (State.ringPut x r) := by
  unfold State.ringPut
  try simp -zeta -zetaHave only [State.fold_evr]
  repeat' (first | with_reducible refine fun _ => ?_ | lift_lets | (with_reducible intro y; first | (refine Evolves.cut (K := K) (s := s) (y := y) ?_ ?_ <;> first | (clear_value y; with_reducible intro hy) | simp -zeta -zetaHave only [y]) | (simp -zeta -zetaHave only [y]; clear y) | (clear_value y; clear y)) | with_reducible (first | exact h | assumption | apply State.wr_changes | apply State.putEvr_changes) | (split))
  all_goals (with_reducible first | assumption)

theorem State.openBlock_changes {K : List Foot} {s x : State} (b) (h : Evolves K s x) (a0 : Allows K (.one .evr)) (a1 : Allows K (.one (.reg Reg.evrLogBseq))) (a2 : Allows K (.one (.reg Reg.evrLog))) (a3 : Allows K .log) :
    Evolves K s (State.openBlock x b) := by
  unfold State.openBlock
  try simp -zeta -zetaHave only [State.fold_evr]
  repeat' (first | with_reducible refine fun _ => ?_ | lift_lets | (with_reducible intro y; first | (refine Evolves.cut (K := K) (s := s) (y := y) ?_ ?_ <;> first | (clear_value y; with_reducible intro hy) | simp -zeta -zetaHave only [y]) | (simp -zeta -zetaHave only [y]; clear y) | (clear_value y; clear y)) | with_reducible (first | exact h | assumption | apply State.wr_changes | apply State.wrF_changes | apply State.flashWr_log | apply State.putEvr_changes) | (split))
  all_goals (with_reducible first | assumption | exact logAddr_header _ _ | exact logAddr_record _ _ _ | exact logAddr_state _ | exact logAddr_block _ | exact logAddr_rest _ _ _)

theorem State.writerTake_changes {K : List Foot} {s x : State} (h : Evolves K s x) (a0 : Allows K (.one (.reg Reg.evrCommit))) (a1 : Allows K (.one .evr)) (a2 : Allows K (.one (.reg Reg.evrLogBseq))) (a3 : Allows K (.one (.reg Reg.evrLog))) (a4 : Allows K .log) :
    Evolves K s (State.writerTake x) := by
  unfold State.writerTake
  try simp -zeta -zetaHave only [State.fold_evr]
  repeat' (first | with_reducible refine fun _ => ?_ | lift_lets | (with_reducible intro y; first | (refine Evolves.cut (K := K) (s := s) (y := y) ?_ ?_ <;> first | (clear_value y; with_reducible intro hy) | simp -zeta -zetaHave only [y]) | (simp -zeta -zetaHave only [y]; clear y) | (clear_value y; clear y)) | with_reducible (first | exact h | assumption | apply State.ringPut_changes | apply State.openBlock_changes | apply State.putEvr_changes | apply Evolves.ite | apply Evolves.foldl) | (split))
  all_goals (with_reducible first | assumption | exact logAddr_header _ _ | exact logAddr_record _ _ _ | exact logAddr_state _ | exact logAddr_block _ | exact logAddr_rest _ _ _)

theorem State.enqueueRec_changes {K : List Foot} {s x : State} (r) (h : Evolves K s x) (a0 : Allows K (.one .evr)) :
    Evolves K s (State.enqueueRec x r) := by
  unfold State.enqueueRec
  try simp -zeta -zetaHave only [State.fold_evr]
  repeat' (first | with_reducible refine fun _ => ?_ | lift_lets | (with_reducible intro y; first | (refine Evolves.cut (K := K) (s := s) (y := y) ?_ ?_ <;> first | (clear_value y; with_reducible intro hy) | simp -zeta -zetaHave only [y]) | (simp -zeta -zetaHave only [y]; clear y) | (clear_value y; clear y)) | with_reducible (first | exact h | apply State.putEvr_changes))
  all_goals (with_reducible first | assumption)

theorem State.overflowEnter_changes {K : List Foot} {s x : State} (h : Evolves K s x) (a0 : Allows K (.pair Reg.evrFlags)) (a1 : Allows K (.one .evr)) (a2 : Allows K .vector) :
    Evolves K s (State.overflowEnter x) := by
  unfold State.overflowEnter
  try simp -zeta -zetaHave only [State.fold_evr]
  repeat' (first | with_reducible refine fun _ => ?_ | lift_lets | (with_reducible intro y; first | (refine Evolves.cut (K := K) (s := s) (y := y) ?_ ?_ <;> first | (clear_value y; with_reducible intro hy) | simp -zeta -zetaHave only [y]) | (simp -zeta -zetaHave only [y]; clear y) | (clear_value y; clear y)) | with_reducible (first | exact h | assumption | apply State.raise_changes | apply State.route_changes | apply State.enqueueRec_changes | apply State.putEvr_changes | apply Evolves.ite) | (split))
  all_goals (with_reducible first | assumption | exact a0.fst | exact a0.snd | exact a2.vecRegOfVector | exact a2.vectorsOfVector)

theorem State.pump_changes {K : List Foot} {s x : State} (h : Evolves K s x) (a0 : Allows K (.one (.reg Reg.evrCommit))) (a1 : Allows K (.one .evr)) (a2 : Allows K (.one (.reg Reg.evrLogBseq))) (a3 : Allows K (.one (.reg Reg.evrLog))) (a4 : Allows K .log) (a5 : Allows K (.pair Reg.evrFlags)) (a6 : Allows K .vector) :
    Evolves K s (State.pump x) := by
  unfold State.pump
  repeat' (first | with_reducible refine fun _ => ?_ | with_reducible (first | exact h | apply State.writerTake_changes | apply State.overflowEnter_changes))
  all_goals (with_reducible first | assumption | exact a5.fst | exact a5.snd | exact a6.vecRegOfVector | exact a6.vectorsOfVector | exact logAddr_header _ _ | exact logAddr_record _ _ _ | exact logAddr_state _ | exact logAddr_block _ | exact logAddr_rest _ _ _)

theorem State.closeInto_changes {K : List Foot} {s x : State} (r) (h : Evolves K s x) (a0 : Allows K (.one (.reg Reg.evrCommit))) (a1 : Allows K (.one .evr)) (a2 : Allows K (.one (.reg Reg.evrLogBseq))) (a3 : Allows K (.one (.reg Reg.evrLog))) (a4 : Allows K .log) (a5 : Allows K (.pair Reg.evrFlags)) (a6 : Allows K .vector) (a7 : Allows K (.one (.reg Reg.evrDrop))) :
    Evolves K s (State.closeInto x r) := by
  unfold State.closeInto
  try simp -zeta -zetaHave only [State.fold_evr]
  repeat' (first | with_reducible refine fun _ => ?_ | lift_lets | (with_reducible intro y; first | (refine Evolves.cut (K := K) (s := s) (y := y) ?_ ?_ <;> first | (clear_value y; with_reducible intro hy) | simp -zeta -zetaHave only [y]) | (simp -zeta -zetaHave only [y]; clear y) | (clear_value y; clear y)) | with_reducible (first | exact h | assumption | apply State.pump_changes | apply State.enqueueRec_changes | apply State.count_changes | apply State.putEvr_changes | apply Evolves.ite) | (split))
  all_goals (with_reducible first | assumption | exact a5.fst | exact a5.snd | exact a6.vecRegOfVector | exact a6.vectorsOfVector | exact logAddr_header _ _ | exact logAddr_record _ _ _ | exact logAddr_state _ | exact logAddr_block _ | exact logAddr_rest _ _ _)

theorem State.closeOpen_changes {K : List Foot} {s x : State} (h : Evolves K s x) (a0 : Allows K (.one (.reg Reg.evrStatus))) (a1 : Allows K (.one (.reg Reg.evrCommit))) (a2 : Allows K (.one .evr)) (a3 : Allows K (.one (.reg Reg.evrLogBseq))) (a4 : Allows K (.one (.reg Reg.evrLog))) (a5 : Allows K .log) (a6 : Allows K (.pair Reg.evrFlags)) (a7 : Allows K .vector) (a8 : Allows K (.one (.reg Reg.evrDrop))) :
    Evolves K s (State.closeOpen x) := by
  unfold State.closeOpen
  try simp -zeta -zetaHave only [State.fold_evr]
  repeat' (first | with_reducible refine fun _ => ?_ | lift_lets | (with_reducible intro y; first | (refine Evolves.cut (K := K) (s := s) (y := y) ?_ ?_ <;> first | (clear_value y; with_reducible intro hy) | simp -zeta -zetaHave only [y]) | (simp -zeta -zetaHave only [y]; clear y) | (clear_value y; clear y)) | with_reducible (first | exact h | apply State.evrOpenBit_changes | apply State.closeInto_changes | apply State.putEvr_changes) | (split))
  all_goals (with_reducible first | assumption | exact a6.fst | exact a6.snd | exact a7.vecRegOfVector | exact a7.vectorsOfVector | exact logAddr_header _ _ | exact logAddr_record _ _ _ | exact logAddr_state _ | exact logAddr_block _ | exact logAddr_rest _ _ _)

theorem State.recordNow_changes {K : List Foot} {s x : State} (src) (code) (data) (h : Evolves K s x) (a0 : Allows K (.one (.reg Reg.evrStatus))) (a1 : Allows K (.one (.reg Reg.evrCommit))) (a2 : Allows K (.one .evr)) (a3 : Allows K (.one (.reg Reg.evrLogBseq))) (a4 : Allows K (.one (.reg Reg.evrLog))) (a5 : Allows K .log) (a6 : Allows K (.pair Reg.evrFlags)) (a7 : Allows K .vector) (a8 : Allows K (.one (.reg Reg.evrDrop))) :
    Evolves K s (State.recordNow x src code data) := by
  unfold State.recordNow
  try simp -zeta -zetaHave only [State.fold_evr]
  repeat' (first | with_reducible refine fun _ => ?_ | lift_lets | (with_reducible intro y; first | (refine Evolves.cut (K := K) (s := s) (y := y) ?_ ?_ <;> first | (clear_value y; with_reducible intro hy) | simp -zeta -zetaHave only [y]) | (simp -zeta -zetaHave only [y]; clear y) | (clear_value y; clear y)) | with_reducible (first | exact h | assumption | apply State.closeOpen_changes | apply State.closeInto_changes | apply State.evrOpenBit_changes | apply State.putEvr_changes | apply Evolves.ite) | (split))
  all_goals (with_reducible first | assumption | exact a6.fst | exact a6.snd | exact a7.vecRegOfVector | exact a7.vectorsOfVector | exact logAddr_header _ _ | exact logAddr_record _ _ _ | exact logAddr_state _ | exact logAddr_block _ | exact logAddr_rest _ _ _)

theorem State.post_changes {K : List Foot} {s x : State} (src) (code) (data) (h : Evolves K s x) (a0 : Allows K .events) :
    Evolves K s (State.post x src code data) := by
  unfold State.post
  try simp -zeta -zetaHave only [State.fold_evr]
  repeat' (first | with_reducible refine fun _ => ?_ | lift_lets | (with_reducible intro y; first | (refine Evolves.cut (K := K) (s := s) (y := y) ?_ ?_ <;> first | (clear_value y; with_reducible intro hy) | simp -zeta -zetaHave only [y]) | (simp -zeta -zetaHave only [y]; clear y) | (clear_value y; clear y)) | with_reducible (first | exact h | assumption | apply State.route_changes | apply State.recordNow_changes | apply State.putEvr_changes | apply Evolves.ite) | (split))
  all_goals (with_reducible first | assumption | exact a0.vectorOfEvents | exact a0.logOfEvents | exact a0.evrPairOfEvents | exact a0.evrOfEvents | exact a0.vectorsOfEvents | exact a0.evrStatusOfEvents | exact a0.evrDropOfEvents | exact a0.evrCommitOfEvents | exact a0.evrLogOfEvents | exact a0.evrLogBseqOfEvents | exact logAddr_header _ _ | exact logAddr_record _ _ _ | exact logAddr_state _ | exact logAddr_block _ | exact logAddr_rest _ _ _)

theorem State.hostWr_changes {K : List Foot} {s x : State} (a) (bs) (h : Evolves K s x) (a0 : Allows K (.one .hostMem)) :
    Evolves K s (State.hostWr x a bs) := by
  unfold State.hostWr
  try simp -zeta -zetaHave only [State.fold_hst]
  repeat' (first | with_reducible refine fun _ => ?_ | lift_lets | (with_reducible intro y; first | (refine Evolves.cut (K := K) (s := s) (y := y) ?_ ?_ <;> first | (clear_value y; with_reducible intro hy) | simp -zeta -zetaHave only [y]) | (simp -zeta -zetaHave only [y]; clear y) | (clear_value y; clear y)) | with_reducible (first | exact h | assumption | apply State.putHst_hostMem))
  all_goals (with_reducible first | assumption)

theorem State.complete_changes {K : List Foot} {s x : State} (c) (status) (detail) (result) (h : Evolves K s x) (a0 : Allows K .completion) :
    Evolves K s (State.complete x c status detail result) := by
  unfold State.complete
  try simp -zeta -zetaHave only [State.fold_hst]
  repeat' (first | with_reducible refine fun _ => ?_ | lift_lets | (with_reducible intro y; first | (refine Evolves.cut (K := K) (s := s) (y := y) ?_ ?_ <;> first | (clear_value y; with_reducible intro hy) | simp -zeta -zetaHave only [y]) | (simp -zeta -zetaHave only [y]; clear y) | (clear_value y; clear y)) | with_reducible (first | exact h | assumption | apply State.count_changes | apply State.pendVector_changes | apply State.wr_changes | apply State.hostWr_changes | apply State.putHst_rings | apply Evolves.ite) | (split))
  all_goals (with_reducible first | assumption | exact a0.vectorOfCompletion | exact a0.ringsOfCompletion | exact a0.hostMemOfCompletion | exact a0.vectorsOfCompletion | exact a0.cplTailOfCompletion | exact a0.cplDropOfCompletion)

theorem State.wr64_changes {K : List Foot} {s x : State} (off) (x') (h : Evolves K s x) (a0 : Allows K (.pair off)) :
    Evolves K s (State.wr64 x off x') := by
  unfold State.wr64
  repeat' (first | with_reducible refine fun _ => ?_ | with_reducible (first | exact h | apply State.wr_changes))
  all_goals (with_reducible first | assumption | exact a0.fst | exact a0.snd)

theorem State.freeWord_changes {K : List Foot} {s x : State} (h : Evolves K s x) (a0 : Allows K (.one .freeCtr)) :
    Evolves K s (State.freeWord x).2 := by
  unfold State.freeWord
  exact State.putFreeCtr_changes _ h a0

theorem State.freeCycle_changes {K : List Foot} {s x : State} (h : Evolves K s x) (a0 : Allows K (.one .freeCtr)) :
    Evolves K s (State.freeCycle x).2 := by
  unfold State.freeCycle
  try simp -zeta -zetaHave only [State.fold_freeCtr]
  repeat' (first | with_reducible refine fun _ => ?_ | lift_lets | (with_reducible intro y; first | (refine Evolves.cut (K := K) (s := s) (y := y) ?_ ?_ <;> first | (clear_value y; with_reducible intro hy) | simp -zeta -zetaHave only [y]) | (simp -zeta -zetaHave only [y]; clear y) | (clear_value y; clear y)) | with_reducible (first | exact h | apply State.putFreeCtr_changes))
  all_goals (with_reducible first | assumption)

theorem State.writeLog_changes {K : List Foot} {s x : State} (r) (h : Evolves K s x) (a0 : Allows K (.one (.reg Reg.evrLog))) (a1 : Allows K .log) (a2 : Allows K (.one .evr)) (a3 : Allows K (.one (.reg Reg.evrLogBseq))) :
    Evolves K s (State.writeLog x r) := by
  unfold State.writeLog
  repeat' (first | with_reducible refine fun _ => ?_ | lift_lets | (with_reducible intro y; first | (refine Evolves.cut (K := K) (s := s) (y := y) ?_ ?_ <;> first | (clear_value y; with_reducible intro hy) | simp -zeta -zetaHave only [y]) | (simp -zeta -zetaHave only [y]; clear y) | (clear_value y; clear y)) | with_reducible (first | exact h | assumption | apply State.wrF_changes | apply State.flashWr_log | apply State.openBlock_changes | apply Evolves.ite) | (split))
  all_goals (with_reducible first | assumption | exact logAddr_header _ _ | exact logAddr_record _ _ _ | exact logAddr_state _ | exact logAddr_block _ | exact logAddr_rest _ _ _)

theorem State.programEnd_changes {K : List Foot} {s x : State} (h : Evolves K s x) (a0 : Allows K (.one (.reg Reg.evrLog))) (a1 : Allows K .log) (a2 : Allows K (.one .evr)) (a3 : Allows K (.one (.reg Reg.evrLogBseq))) :
    Evolves K s (State.programEnd x) := by
  unfold State.programEnd
  try simp -zeta -zetaHave only [State.fold_evr]
  repeat' (first | with_reducible refine fun _ => ?_ | lift_lets | (with_reducible intro y; first | (refine Evolves.cut (K := K) (s := s) (y := y) ?_ ?_ <;> first | (clear_value y; with_reducible intro hy) | simp -zeta -zetaHave only [y]) | (simp -zeta -zetaHave only [y]; clear y) | (clear_value y; clear y)) | with_reducible (first | exact h | assumption | apply State.writeLog_changes | apply State.putEvr_changes | apply Evolves.foldl) | (split))
  all_goals (with_reducible first | assumption | exact logAddr_header _ _ | exact logAddr_record _ _ _ | exact logAddr_state _ | exact logAddr_block _ | exact logAddr_rest _ _ _)

theorem State.flushQueue_changes {K : List Foot} {s x : State} (h : Evolves K s x) (a0 : Allows K (.one (.reg Reg.evrLog))) (a1 : Allows K .log) (a2 : Allows K (.one .evr)) (a3 : Allows K (.one (.reg Reg.evrLogBseq))) (a4 : Allows K (.one (.reg Reg.evrCommit))) (a5 : Allows K (.pair Reg.evrFlags)) (a6 : Allows K .vector) :
    Evolves K s (State.flushQueue x) := by
  unfold State.flushQueue
  try simp -zeta -zetaHave only [State.fold_evr]
  repeat' (first | with_reducible refine fun _ => ?_ | lift_lets | (with_reducible intro y; first | (refine Evolves.cut (K := K) (s := s) (y := y) ?_ ?_ <;> first | (clear_value y; with_reducible intro hy) | simp -zeta -zetaHave only [y]) | (simp -zeta -zetaHave only [y]; clear y) | (clear_value y; clear y)) | with_reducible (first | exact h | assumption | apply State.writeLog_changes | apply State.ringPut_changes | apply State.overflowEnter_changes | apply State.programEnd_changes | apply State.putEvr_changes | apply Evolves.foldl) | (split))
  all_goals (with_reducible first | assumption | exact a5.fst | exact a5.snd | exact a6.vecRegOfVector | exact a6.vectorsOfVector | exact logAddr_header _ _ | exact logAddr_record _ _ _ | exact logAddr_state _ | exact logAddr_block _ | exact logAddr_rest _ _ _)


end Sys2Proof.Machine
end

