-- ==== Sys2Proof/Laws/FrameClock.lean ====
section
/-! SUPPORT. What each operation of Machine/Clock.lean can change: from a state that has changed only parts of the footprint `K`,
the operation changes only parts of `K`, where `K` allows the operation's own footprint. -/

set_option Elab.async false
set_option linter.all false

namespace Sys2Proof.Machine

theorem State.eppPeriodWrite_changes {K : List Foot} {s x : State} (v) (h : Evolves K s x) (a0 : Allows K (.pair Reg.clkFlags)) (a1 : Allows K (.one (.reg Reg.clkEppPeriod))) :
    Evolves K s (State.eppPeriodWrite x v) := by
  unfold State.eppPeriodWrite
  repeat' (first | with_reducible refine fun _ => ?_ | with_reducible (first | exact h | apply State.raise_changes | apply State.wr_changes | apply Evolves.ite))
  all_goals (with_reducible first | assumption | exact a0.fst | exact a0.snd)

theorem State.eppWidthWrite_changes {K : List Foot} {s x : State} (v) (h : Evolves K s x) (a0 : Allows K (.pair Reg.clkFlags)) (a1 : Allows K (.one (.reg Reg.clkEppWidth))) :
    Evolves K s (State.eppWidthWrite x v) := by
  unfold State.eppWidthWrite
  repeat' (first | with_reducible refine fun _ => ?_ | with_reducible (first | exact h | apply State.raise_changes | apply State.wr_changes | apply Evolves.ite))
  all_goals (with_reducible first | assumption | exact a0.fst | exact a0.snd)

theorem State.eppOffsetWrite_changes {K : List Foot} {s x : State} (v) (h : Evolves K s x) (a0 : Allows K (.one (.reg Reg.clkEppOffset))) :
    Evolves K s (State.eppOffsetWrite x v) := by
  unfold State.eppOffsetWrite
  repeat' (first | with_reducible refine fun _ => ?_ | with_reducible (first | exact h | apply State.wr_changes))
  all_goals (with_reducible first | assumption)

theorem State.refTick_changes {K : List Foot} {s x : State} (epoch) (h : Evolves K s x) (a0 : Allows K (.one .clk)) :
    Evolves K s (State.refTick x epoch) := by
  unfold State.refTick
  try simp -zeta -zetaHave only [State.fold_clk]
  repeat' (first | with_reducible refine fun _ => ?_ | lift_lets | (with_reducible intro y; first | (refine Evolves.cut (K := K) (s := s) (y := y) ?_ ?_ <;> first | (clear_value y; with_reducible intro hy) | simp -zeta -zetaHave only [y]) | (simp -zeta -zetaHave only [y]; clear y) | (clear_value y; clear y)) | with_reducible (first | exact h | assumption | apply State.putClk_changes) | (split))
  all_goals (with_reducible first | assumption)

theorem State.epochTake_changes {K : List Foot} {s x : State} (v) (h : Evolves K s x) (a0 : Allows K .events) (a1 : Allows K (.one .clk)) (a2 : Allows K .completion) :
    Evolves K s (State.epochTake x v) := by
  unfold State.epochTake
  try simp -zeta -zetaHave only [State.fold_hst]
  repeat' (first | with_reducible refine fun _ => ?_ | lift_lets | (with_reducible intro y; first | (refine Evolves.cut (K := K) (s := s) (y := y) ?_ ?_ <;> first | (clear_value y; with_reducible intro hy) | simp -zeta -zetaHave only [y]) | (simp -zeta -zetaHave only [y]; clear y) | (clear_value y; clear y)) | with_reducible (first | exact h | assumption | apply State.post_changes | apply State.refTick_changes | apply State.complete_changes | apply State.putHst_rings) | (split))
  all_goals (with_reducible first | assumption | exact a0.vectorOfEvents | exact a0.logOfEvents | exact a0.evrPairOfEvents | exact a0.evrOfEvents | exact a0.vectorsOfEvents | exact a0.evrStatusOfEvents | exact a0.evrDropOfEvents | exact a0.evrCommitOfEvents | exact a0.evrLogOfEvents | exact a0.evrLogBseqOfEvents | exact a2.vectorOfCompletion | exact a2.ringsOfCompletion | exact a2.hostMemOfCompletion | exact a2.vectorsOfCompletion | exact a2.cplTailOfCompletion | exact a2.cplDropOfCompletion)

theorem State.epochTick_changes {K : List Foot} {s x : State} (h : Evolves K s x) (a0 : Allows K .events) (a1 : Allows K (.one .clk)) (a2 : Allows K .completion) :
    Evolves K s (State.epochTick x) := by
  unfold State.epochTick
  repeat' (first | with_reducible refine fun _ => ?_ | with_reducible (first | exact h | apply State.epochTake_changes | apply State.refTick_changes | apply Evolves.ite) | (split))
  all_goals (with_reducible first | assumption | exact a0.vectorOfEvents | exact a0.logOfEvents | exact a0.evrPairOfEvents | exact a0.evrOfEvents | exact a0.vectorsOfEvents | exact a0.evrStatusOfEvents | exact a0.evrDropOfEvents | exact a0.evrCommitOfEvents | exact a0.evrLogOfEvents | exact a0.evrLogBseqOfEvents | exact a2.vectorOfCompletion | exact a2.ringsOfCompletion | exact a2.hostMemOfCompletion | exact a2.vectorsOfCompletion | exact a2.cplTailOfCompletion | exact a2.cplDropOfCompletion)

theorem State.corrUpdate_changes {K : List Foot} {s x : State} (h : Evolves K s x) (a0 : Allows K (.one (.reg Reg.clkCorr))) :
    Evolves K s (State.corrUpdate x) := by
  unfold State.corrUpdate
  repeat' (first | with_reducible refine fun _ => ?_ | with_reducible (first | exact h | apply State.wr_changes | apply Evolves.ite))
  all_goals (with_reducible first | assumption)

theorem State.ktChannel_changes {K : List Foot} {s x : State} (ch) (h : Evolves K s x) (a0 : Allows K (.pair Reg.calFlags)) (a1 : Allows K (.one .cal)) :
    Evolves K s (State.ktChannel x ch) := by
  unfold State.ktChannel
  try simp -zeta -zetaHave only [State.fold_cal]
  repeat' (first | with_reducible refine fun _ => ?_ | lift_lets | (with_reducible intro y; first | (refine Evolves.cut (K := K) (s := s) (y := y) ?_ ?_ <;> first | (clear_value y; with_reducible intro hy) | simp -zeta -zetaHave only [y]) | (simp -zeta -zetaHave only [y]; clear y) | (clear_value y; clear y)) | with_reducible (first | exact h | assumption | apply State.raiseIf_changes | apply State.putCal_changes | apply Evolves.ite) | (split))
  all_goals (with_reducible first | assumption | exact a0.fst | exact a0.snd)

theorem State.ktUpdate_changes {K : List Foot} {s x : State} (h : Evolves K s x) (a0 : Allows K (.pair Reg.calFlags)) (a1 : Allows K (.one .cal)) :
    Evolves K s (State.ktUpdate x) := by
  unfold State.ktUpdate
  repeat' (first | with_reducible refine fun _ => ?_ | with_reducible (first | exact h | assumption | apply State.ktChannel_changes | apply Evolves.foldl))
  all_goals (with_reducible first | assumption | exact a0.fst | exact a0.snd)

theorem State.xtalUpdate_changes {K : List Foot} {s x : State} (h : Evolves K s x) (a0 : Allows K (.one (.reg Reg.clkCorr))) (a1 : Allows K (.one (.reg Reg.clkCorrTemp))) (a2 : Allows K (.pair Reg.clkFlags)) (a3 : Allows K (.one (.reg Reg.clkXtalTemp))) :
    Evolves K s (State.xtalUpdate x) := by
  unfold State.xtalUpdate
  repeat' (first | with_reducible refine fun _ => ?_ | lift_lets | (with_reducible intro y; first | (refine Evolves.cut (K := K) (s := s) (y := y) ?_ ?_ <;> first | (clear_value y; with_reducible intro hy) | simp -zeta -zetaHave only [y]) | (simp -zeta -zetaHave only [y]; clear y) | (clear_value y; clear y)) | with_reducible (first | exact h | assumption | apply State.corrUpdate_changes | apply State.wr_changes | apply State.raiseIf_changes | apply Evolves.ite) | (split))
  all_goals (with_reducible first | assumption | exact a2.fst | exact a2.snd)

theorem State.ageing_changes {K : List Foot} {s x : State} (h : Evolves K s x) (a0 : Allows K (.one (.reg Reg.clkCorr))) (a1 : Allows K (.one (.reg Reg.clkCorrAge))) :
    Evolves K s (State.ageing x) := by
  unfold State.ageing
  repeat' (first | with_reducible refine fun _ => ?_ | lift_lets | (with_reducible intro y; first | (refine Evolves.cut (K := K) (s := s) (y := y) ?_ ?_ <;> first | (clear_value y; with_reducible intro hy) | simp -zeta -zetaHave only [y]) | (simp -zeta -zetaHave only [y]; clear y) | (clear_value y; clear y)) | with_reducible (first | exact h | assumption | apply State.corrUpdate_changes | apply State.wr_changes) | (split))
  all_goals (with_reducible first | assumption)

theorem State.tempUpdate_changes {K : List Foot} {s x : State} (h : Evolves K s x) (a0 : Allows K (.pair Reg.calFlags)) (a1 : Allows K (.one .cal)) (a2 : Allows K (.one (.reg Reg.clkCorr))) (a3 : Allows K (.one (.reg Reg.clkCorrTemp))) (a4 : Allows K (.pair Reg.clkFlags)) (a5 : Allows K (.one (.reg Reg.clkXtalTemp))) :
    Evolves K s (State.tempUpdate x) := by
  unfold State.tempUpdate
  repeat' (first | with_reducible refine fun _ => ?_ | with_reducible (first | exact h | apply State.ktUpdate_changes | apply State.xtalUpdate_changes))
  all_goals (with_reducible first | assumption | exact a0.fst | exact a0.snd | exact a4.fst | exact a4.snd)

theorem State.persistWrite_changes {K : List Foot} {s x : State} (kind) (h : Evolves K s x) (a0 : Allows K (.one .flashPort)) (a1 : Allows K .flashes) :
    Evolves K s (State.persistWrite x kind) := by
  unfold State.persistWrite
  try simp -zeta -zetaHave only [State.fold_nvm]
  repeat' (first | with_reducible refine fun _ => ?_ | lift_lets | (with_reducible intro y; first | (refine Evolves.cut (K := K) (s := s) (y := y) ?_ ?_ <;> first | (clear_value y; with_reducible intro hy) | simp -zeta -zetaHave only [y]) | (simp -zeta -zetaHave only [y]; clear y) | (clear_value y; clear y)) | with_reducible (first | exact h | assumption | apply State.flashWr_changes | apply State.flashErase_changes | apply State.putNvm_port | apply Evolves.ite) | (split))
  all_goals (with_reducible first | assumption | exact a1.logOfFlashes)

theorem State.holdover_changes {K : List Foot} {s x : State} (offset) (h : Evolves K s x) (a0 : Allows K .events) (a1 : Allows K (.pair Reg.clkFlags)) (a2 : Allows K (.one (.reg Reg.clkCorr))) (a3 : Allows K (.one (.reg Reg.clkStatus))) (a4 : Allows K (.one .clk)) :
    Evolves K s (State.holdover x offset) := by
  unfold State.holdover
  try simp -zeta -zetaHave only [State.fold_clk]
  repeat' (first | with_reducible refine fun _ => ?_ | lift_lets | (with_reducible intro y; first | (refine Evolves.cut (K := K) (s := s) (y := y) ?_ ?_ <;> first | (clear_value y; with_reducible intro hy) | simp -zeta -zetaHave only [y]) | (simp -zeta -zetaHave only [y]; clear y) | (clear_value y; clear y)) | with_reducible (first | exact h | assumption | apply State.post_changes | apply State.raise_changes | apply State.wr_changes | apply State.wrF_changes | apply State.putClk_changes | apply Evolves.ite) | (split))
  all_goals (with_reducible first | assumption | exact a0.vectorOfEvents | exact a0.logOfEvents | exact a0.evrPairOfEvents | exact a0.evrOfEvents | exact a0.vectorsOfEvents | exact a0.evrStatusOfEvents | exact a0.evrDropOfEvents | exact a0.evrCommitOfEvents | exact a0.evrLogOfEvents | exact a0.evrLogBseqOfEvents | exact a1.fst | exact a1.snd)

theorem State.checkpoint_changes {K : List Foot} {s x : State} (h : Evolves K s x) (a0 : Allows K (.one .flashPort)) (a1 : Allows K .flashes) :
    Evolves K s (State.checkpoint x) := by
  unfold State.checkpoint
  repeat' (first | with_reducible refine fun _ => ?_ | with_reducible (first | exact h | apply State.persistWrite_changes | apply Evolves.ite))
  all_goals (with_reducible first | assumption | exact a1.logOfFlashes)

theorem State.mgtTick_changes {K : List Foot} {s x : State} (h : Evolves K s x) (a0 : Allows K (.one .boot)) :
    Evolves K s (State.mgtTick x) := by
  unfold State.mgtTick
  try simp -zeta -zetaHave only [State.fold_boot]
  repeat' (first | with_reducible refine fun _ => ?_ | lift_lets | (with_reducible intro y; first | (refine Evolves.cut (K := K) (s := s) (y := y) ?_ ?_ <;> first | (clear_value y; with_reducible intro hy) | simp -zeta -zetaHave only [y]) | (simp -zeta -zetaHave only [y]; clear y) | (clear_value y; clear y)) | with_reducible (first | exact h | apply State.putBoot_changes | apply Evolves.ite))
  all_goals (with_reducible first | assumption)

theorem State.optimeMs_changes {K : List Foot} {s x : State} (h : Evolves K s x) (a0 : Allows K (.one .boot)) (a1 : Allows K (.pair Reg.clkFlags)) (a2 : Allows K (.one .clk)) :
    Evolves K s (State.optimeMs x) := by
  unfold State.optimeMs
  try simp -zeta -zetaHave only [State.fold_clk]
  repeat' (first | with_reducible refine fun _ => ?_ | lift_lets | (with_reducible intro y; first | (refine Evolves.cut (K := K) (s := s) (y := y) ?_ ?_ <;> first | (clear_value y; with_reducible intro hy) | simp -zeta -zetaHave only [y]) | (simp -zeta -zetaHave only [y]; clear y) | (clear_value y; clear y)) | with_reducible (first | exact h | assumption | apply State.mgtTick_changes | apply State.raiseIf_changes | apply State.putClk_changes | apply Evolves.ite) | (split))
  all_goals (with_reducible first | assumption | exact a1.fst | exact a1.snd)

theorem State.holdoverReturn_changes {K : List Foot} {s x : State} (h : Evolves K s x) (a0 : Allows K (.one (.reg Reg.clkStatus))) :
    Evolves K s (State.holdoverReturn x) := by
  unfold State.holdoverReturn
  repeat' (first | with_reducible refine fun _ => ?_ | with_reducible (first | exact h | apply State.wrF_changes | apply Evolves.ite))
  all_goals (with_reducible first | assumption)

theorem State.followerLock_changes {K : List Foot} {s x : State} (offset) (h : Evolves K s x) (a0 : Allows K (.one (.reg Reg.clkCorr))) (a1 : Allows K (.one (.reg Reg.clkStatus))) (a2 : Allows K (.one .cwy)) :
    Evolves K s (State.followerLock x offset) := by
  unfold State.followerLock
  try simp -zeta -zetaHave only [State.fold_cwy]
  repeat' (first | with_reducible refine fun _ => ?_ | lift_lets | (with_reducible intro y; first | (refine Evolves.cut (K := K) (s := s) (y := y) ?_ ?_ <;> first | (clear_value y; with_reducible intro hy) | simp -zeta -zetaHave only [y]) | (simp -zeta -zetaHave only [y]; clear y) | (clear_value y; clear y)) | with_reducible (first | exact h | apply State.wr_changes | apply State.wrF_changes | apply State.putCwy_changes | apply Evolves.ite))
  all_goals (with_reducible first | assumption)


end Sys2Proof.Machine
end

