-- ==== Sys2Proof/Laws/FrameRecorder.lean ====
section
/-! SUPPORT. What each operation of Machine/Recorder.lean can change: from a state that has changed only parts of the footprint `K`,
the operation changes only parts of `K`, where `K` allows the operation's own footprint. -/

set_option Elab.async false
set_option linter.all false

namespace Sys2Proof.Machine

theorem State.evrFlush_changes {K : List Foot} {s x : State} (h : Evolves K s x) (a0 : Allows K (.one (.reg Reg.evrLog))) (a1 : Allows K .log) (a2 : Allows K (.one .evr)) (a3 : Allows K (.one (.reg Reg.evrLogBseq))) (a4 : Allows K (.one (.reg Reg.evrCommit))) (a5 : Allows K (.pair Reg.evrFlags)) (a6 : Allows K .vector) (a7 : Allows K (.one (.reg Reg.evrStatus))) (a8 : Allows K (.one (.reg Reg.evrDrop))) :
    Evolves K s (State.evrFlush x) := by
  unfold State.evrFlush
  repeat' (first | with_reducible refine fun _ => ?_ | with_reducible (first | exact h | apply State.flushQueue_changes | apply State.closeOpen_changes))
  all_goals (with_reducible first | assumption | exact a5.fst | exact a5.snd | exact a6.vecRegOfVector | exact a6.vectorsOfVector | exact logAddr_header _ _ | exact logAddr_record _ _ _ | exact logAddr_state _ | exact logAddr_block _ | exact logAddr_rest _ _ _)

theorem State.drainStart_changes {K : List Foot} {s x : State} (h : Evolves K s x) (a0 : Allows K (.one (.reg Reg.evrStatus))) (a1 : Allows K (.one (.reg Reg.evrCommit))) (a2 : Allows K (.one .evr)) (a3 : Allows K (.one (.reg Reg.evrLogBseq))) (a4 : Allows K (.one (.reg Reg.evrLog))) (a5 : Allows K .log) (a6 : Allows K (.pair Reg.evrFlags)) (a7 : Allows K .vector) (a8 : Allows K (.one (.reg Reg.evrDrop))) :
    Evolves K s (State.drainStart x) := by
  unfold State.drainStart
  try simp -zeta -zetaHave only [State.fold_evr]
  repeat' (first | with_reducible refine fun _ => ?_ | lift_lets | (with_reducible intro y; first | (refine Evolves.cut (K := K) (s := s) (y := y) ?_ ?_ <;> first | (clear_value y; with_reducible intro hy) | simp -zeta -zetaHave only [y]) | (simp -zeta -zetaHave only [y]; clear y) | (clear_value y; clear y)) | with_reducible (first | exact h | assumption | apply State.recordNow_changes | apply State.pump_changes | apply State.count_changes | apply State.closeOpen_changes | apply State.putEvr_changes | apply Evolves.ite | apply Evolves.foldl) | (split))
  all_goals (with_reducible first | assumption | exact a6.fst | exact a6.snd | exact a7.vecRegOfVector | exact a7.vectorsOfVector | exact logAddr_header _ _ | exact logAddr_record _ _ _ | exact logAddr_state _ | exact logAddr_block _ | exact logAddr_rest _ _ _)


theorem State.logScan_changes {K : List Foot} {s x : State} (h : Evolves K s x) (a0 : Allows K (.one (.reg Reg.evrStatus))) (a1 : Allows K (.one (.reg Reg.evrLog))) (a2 : Allows K (.one .evr)) (a3 : Allows K (.one (.reg Reg.evrLogBseq))) (a4 : Allows K .log) :
    Evolves K s (State.logScan x) := by
  unfold State.logScan
  generalize List.range 128 = l
  simp -zeta -zetaHave only [State.fold_evr]
  extract_lets bad src s1 s2 good
  have h1 : Evolves K s s1 := State.putEvr_changes _ h a2
  have h2 : Evolves K s s2 := State.wrF_changes _ _ _ _ h1 a1
  refine Evolves.ite (fun _ => State.wrB_changes _ _ _ h2 a0) (fun _ => ?_)
  clear_value good
  cases good with
  | nil => exact State.openBlock_changes _ h2 a2 a3 a1 a4
  | cons g gs =>
    dsimp -zeta -zetaHave only
    extract_lets newest top s3 s4 ahead src
    have h4 : Evolves K s s4 := State.wr_changes _ _ (State.wrF_changes _ _ _ _ (State.wrF_changes _ _ _ _ h2 a1) a1) a3
    exact Evolves.ite (fun _ => h4) (fun _ => State.putEvr_changes _ h4 a2)

theorem State.evrStart_changes {K : List Foot} {s x : State} (noFlash) (h : Evolves K s x) (a0 : Allows K .events) :
    Evolves K s (State.evrStart x noFlash) := by
  unfold State.evrStart
  try simp -zeta -zetaHave only [State.fold_evr]
  repeat' (first | with_reducible refine fun _ => ?_ | lift_lets | (with_reducible intro y; first | (refine Evolves.cut (K := K) (s := s) (y := y) ?_ ?_ <;> first | (clear_value y; with_reducible intro hy) | simp -zeta -zetaHave only [y]) | (simp -zeta -zetaHave only [y]; clear y) | (clear_value y; clear y)) | with_reducible (first | exact h | assumption | apply State.drainStart_changes | apply State.wrF_changes | apply State.wrB_changes | apply State.logScan_changes | apply State.post_changes | apply State.putEvr_changes | apply Evolves.ite) | (split))
  all_goals (with_reducible first | assumption | exact a0.vectorOfEvents | exact a0.logOfEvents | exact a0.evrPairOfEvents | exact a0.evrOfEvents | exact a0.vectorsOfEvents | exact a0.evrStatusOfEvents | exact a0.evrDropOfEvents | exact a0.evrCommitOfEvents | exact a0.evrLogOfEvents | exact a0.evrLogBseqOfEvents)

theorem State.slotRead_changes {K : List Foot} {s x : State} (slot) (h : Evolves K s x) (a0 : Allows K (.one .reads)) (a1 : Allows K (.one .evr)) :
    Evolves K s (State.slotRead x slot) := by
  cases slot
  · exact State.putHst_reads (State.putEvr_changes _ h a1) a0
  · exact State.putHst_reads (State.putEvr_changes _ h a1) a0

theorem State.setQdepth_changes {K : List Foot} {s x : State} (tppNs) (h : Evolves K s x) (a0 : Allows K (.one (.reg Reg.evrStatus))) :
    Evolves K s (State.setQdepth x tppNs) := by
  unfold State.setQdepth
  repeat' (first | with_reducible refine fun _ => ?_ | with_reducible (first | exact h | apply State.wrF_changes | apply State.wrB_changes) | (split))
  all_goals (with_reducible first | assumption)

theorem State.openTimeout_changes {K : List Foot} {s x : State} (h : Evolves K s x) (a0 : Allows K (.one (.reg Reg.evrStatus))) (a1 : Allows K (.one (.reg Reg.evrCommit))) (a2 : Allows K (.one .evr)) (a3 : Allows K (.one (.reg Reg.evrLogBseq))) (a4 : Allows K (.one (.reg Reg.evrLog))) (a5 : Allows K .log) (a6 : Allows K (.pair Reg.evrFlags)) (a7 : Allows K .vector) (a8 : Allows K (.one (.reg Reg.evrDrop))) :
    Evolves K s (State.openTimeout x) := by
  unfold State.openTimeout
  repeat' (first | with_reducible refine fun _ => ?_ | with_reducible (first | exact h | apply State.closeOpen_changes | apply Evolves.ite) | (split))
  all_goals (with_reducible first | assumption | exact a6.fst | exact a6.snd | exact a7.vecRegOfVector | exact a7.vectorsOfVector | exact logAddr_header _ _ | exact logAddr_record _ _ _ | exact logAddr_state _ | exact logAddr_block _ | exact logAddr_rest _ _ _)

theorem State.blockBad_changes {K : List Foot} {s x : State} (b) (h : Evolves K s x) (a0 : Allows K .events) :
    Evolves K s (State.blockBad x b) := by
  unfold State.blockBad
  try simp -zeta -zetaHave only [State.fold_evr]
  repeat' (first | with_reducible refine fun _ => ?_ | lift_lets | (with_reducible intro y; first | (refine Evolves.cut (K := K) (s := s) (y := y) ?_ ?_ <;> first | (clear_value y; with_reducible intro hy) | simp -zeta -zetaHave only [y]) | (simp -zeta -zetaHave only [y]; clear y) | (clear_value y; clear y)) | with_reducible (first | exact h | assumption | apply State.flashWr_log | apply State.raise_changes | apply State.wrF_changes | apply State.post_changes | apply State.wrB_changes | apply State.putEvr_changes | apply Evolves.ite) | (split))
  all_goals (with_reducible first | assumption | exact a0.vectorOfEvents | exact a0.logOfEvents | exact a0.evrPairOfEvents | exact a0.evrOfEvents | exact a0.vectorsOfEvents | exact a0.evrStatusOfEvents | exact a0.evrDropOfEvents | exact a0.evrCommitOfEvents | exact a0.evrLogOfEvents | exact a0.evrLogBseqOfEvents | exact logAddr_header _ _ | exact logAddr_record _ _ _ | exact logAddr_state _ | exact logAddr_block _ | exact logAddr_rest _ _ _)

theorem State.logEraseDone_changes {K : List Foot} {s x : State} (ok) (h : Evolves K s x) (a0 : Allows K .events) (a1 : Allows K (.one .freeCtr)) :
    Evolves K s (State.logEraseDone x ok) := by
  unfold State.logEraseDone
  try simp -zeta -zetaHave only [State.fold_evr]
  repeat' (first | with_reducible refine fun _ => ?_ | lift_lets | (with_reducible intro y; first | (refine Evolves.cut (K := K) (s := s) (y := y) ?_ ?_ <;> first | (clear_value y; with_reducible intro hy) | simp -zeta -zetaHave only [y]) | (simp -zeta -zetaHave only [y]; clear y) | (clear_value y; clear y)) | with_reducible (first | exact h | assumption | apply State.pump_changes | apply State.flashErase_log | apply State.blockBad_changes | apply State.flashLost_log | apply State.putEvr_changes | apply Evolves.ite) | (split))
  all_goals (with_reducible first | assumption | exact a0.vectorOfEvents | exact a0.logOfEvents | exact a0.evrPairOfEvents | exact a0.evrOfEvents | exact a0.vectorsOfEvents | exact a0.evrStatusOfEvents | exact a0.evrDropOfEvents | exact a0.evrCommitOfEvents | exact a0.evrLogOfEvents | exact a0.evrLogBseqOfEvents | exact logAddr_header _ _ | exact logAddr_record _ _ _ | exact logAddr_state _ | exact logAddr_block _ | exact logAddr_rest _ _ _)

theorem State.evrPowerFail_changes {K : List Foot} {s x : State} (h : Evolves K s x) (a0 : Allows K (.one (.reg Reg.evrLog))) (a1 : Allows K .log) (a2 : Allows K (.one .evr)) (a3 : Allows K (.one (.reg Reg.evrLogBseq))) (a4 : Allows K (.one (.reg Reg.evrCommit))) (a5 : Allows K (.pair Reg.evrFlags)) (a6 : Allows K .vector) (a7 : Allows K (.one (.reg Reg.evrStatus))) (a8 : Allows K (.one (.reg Reg.evrDrop))) :
    Evolves K s (State.evrPowerFail x) := by
  unfold State.evrPowerFail
  try simp -zeta -zetaHave only [State.fold_evr]
  repeat' (first | with_reducible refine fun _ => ?_ | lift_lets | (with_reducible intro y; first | (refine Evolves.cut (K := K) (s := s) (y := y) ?_ ?_ <;> first | (clear_value y; with_reducible intro hy) | simp -zeta -zetaHave only [y]) | (simp -zeta -zetaHave only [y]; clear y) | (clear_value y; clear y)) | with_reducible (first | exact h | assumption | apply State.flushQueue_changes | apply State.route_changes | apply State.enqueueRec_changes | apply State.closeOpen_changes | apply State.putEvr_changes) | (split))
  all_goals (with_reducible first | assumption | exact a5.fst | exact a5.snd | exact a6.vecRegOfVector | exact a6.vectorsOfVector | exact logAddr_header _ _ | exact logAddr_record _ _ _ | exact logAddr_state _ | exact logAddr_block _ | exact logAddr_rest _ _ _)

theorem State.logProgramDone_changes {K : List Foot} {s x : State} (ok) (h : Evolves K s x) (a0 : Allows K .events) (a1 : Allows K (.one .freeCtr)) :
    Evolves K s (State.logProgramDone x ok) := by
  unfold State.logProgramDone
  try simp -zeta -zetaHave only [State.fold_evr]
  repeat' (first | with_reducible refine fun _ => ?_ | lift_lets | (with_reducible intro y; first | (refine Evolves.cut (K := K) (s := s) (y := y) ?_ ?_ <;> first | (clear_value y; with_reducible intro hy) | simp -zeta -zetaHave only [y]) | (simp -zeta -zetaHave only [y]; clear y) | (clear_value y; clear y)) | with_reducible (first | exact h | assumption | apply State.pump_changes | apply State.programEnd_changes | apply State.blockBad_changes | apply State.flashLost_log | apply State.wrF_changes | apply State.putEvr_changes | apply Evolves.ite) | (split))
  all_goals (with_reducible first | assumption | exact a0.vectorOfEvents | exact a0.logOfEvents | exact a0.evrPairOfEvents | exact a0.evrOfEvents | exact a0.vectorsOfEvents | exact a0.evrStatusOfEvents | exact a0.evrDropOfEvents | exact a0.evrCommitOfEvents | exact a0.evrLogOfEvents | exact a0.evrLogBseqOfEvents | exact logAddr_header _ _ | exact logAddr_record _ _ _ | exact logAddr_state _ | exact logAddr_block _ | exact logAddr_rest _ _ _)


end Sys2Proof.Machine
end

