-- ==== Sys2Proof/Laws/FrameHostLink.lean ====
section
/-! SUPPORT. What each operation of Machine/HostLink.lean can change: from a state that has changed only parts of the footprint `K`,
the operation changes only parts of `K`, where `K` allows the operation's own footprint. -/

set_option Elab.async false
set_option linter.all false

namespace Sys2Proof.Machine

theorem State.badAddr_changes {K : List Foot} {s x : State} (flag) (off) (h : Evolves K s x) (a0 : Allows K .hostError) :
    Evolves K s (State.badAddr x flag off) := by
  unfold State.badAddr
  repeat' (first | with_reducible refine fun _ => ?_ | with_reducible (first | exact h | apply State.wr_changes | apply State.raise_changes))
  all_goals (with_reducible first | assumption | exact a0.hstFlagsOfError | exact a0.readsOfError | exact a0.badAddrOfError)

theorem State.setRead_changes {K : List Foot} {s x : State} (v) (h : Evolves K s x) (a0 : Allows K (.one .reads)) :
    Evolves K s (State.setRead x v) := by
  unfold State.setRead
  try simp -zeta -zetaHave only [State.fold_hst]
  repeat' (first | with_reducible refine fun _ => ?_ | lift_lets | (with_reducible intro y; first | (refine Evolves.cut (K := K) (s := s) (y := y) ?_ ?_ <;> first | (clear_value y; with_reducible intro hy) | simp -zeta -zetaHave only [y]) | (simp -zeta -zetaHave only [y]; clear y) | (clear_value y; clear y)) | with_reducible (first | exact h | apply State.putHst_reads))
  all_goals (with_reducible first | assumption)

theorem State.unmapped_changes {K : List Foot} {s x : State} (off) (isWrite) (h : Evolves K s x) (a0 : Allows K .hostError) :
    Evolves K s (State.unmapped x off isWrite) := by
  unfold State.unmapped
  repeat' (first | with_reducible refine fun _ => ?_ | lift_lets | (with_reducible intro y; first | (refine Evolves.cut (K := K) (s := s) (y := y) ?_ ?_ <;> first | (clear_value y; with_reducible intro hy) | simp -zeta -zetaHave only [y]) | (simp -zeta -zetaHave only [y]; clear y) | (clear_value y; clear y)) | with_reducible (first | exact h | assumption | apply State.badAddr_changes | apply State.setRead_changes | apply Evolves.ite) | (split))
  all_goals (with_reducible first | assumption | exact a0.hstFlagsOfError | exact a0.readsOfError | exact a0.badAddrOfError)

theorem State.onWrite_changes {K : List Foot} {s x : State} (off) (f : State → State) (h : Evolves K s x) (a0 : Allows K .hostError)
    (hf : ∀ t, Evolves K s t → Evolves K s (f t)) : Evolves K s (State.onWrite x off f) := by
  unfold State.onWrite
  exact Evolves.ite (fun _ => h) (fun _ => Evolves.ite (fun _ => hf x h) (fun _ => State.unmapped_changes off true h a0))

theorem State.ringCtl_changes {K : List Foot} {s x : State} (v) (h : Evolves K s x) (a0 : Allows K (.one (.reg Reg.hstCplTail))) (a1 : Allows K (.one (.reg Reg.hstCplHead))) (a2 : Allows K (.one (.reg Reg.hstCmdHead))) (a3 : Allows K (.one (.reg Reg.hstCmdTail))) (a4 : Allows K (.one (.reg Reg.hstStatus))) (a5 : Allows K (.one (.reg Reg.hstRingCtl))) :
    Evolves K s (State.ringCtl x v) := by
  unfold State.ringCtl
  repeat' (first | with_reducible refine fun _ => ?_ | lift_lets | (with_reducible intro y; first | (refine Evolves.cut (K := K) (s := s) (y := y) ?_ ?_ <;> first | (clear_value y; with_reducible intro hy) | simp -zeta -zetaHave only [y]) | (simp -zeta -zetaHave only [y]; clear y) | (clear_value y; clear y)) | with_reducible (first | exact h | assumption | apply State.wr_changes | apply State.wrB_changes | apply Evolves.ite) | (split))
  all_goals (with_reducible first | assumption)

theorem State.ringBase_changes {K : List Foot} {s x : State} (off) (v) (h : Evolves K s x) (a0 : Allows K .hostError) (a1 : Allows K (.one (.reg off))) :
    Evolves K s (State.ringBase x off v) := by
  unfold State.ringBase
  repeat' (first | with_reducible refine fun _ => ?_ | with_reducible (first | exact h | apply State.badAddr_changes | apply State.wr_changes | apply Evolves.ite))
  all_goals (with_reducible first | assumption | exact a0.hstFlagsOfError | exact a0.readsOfError | exact a0.badAddrOfError)

theorem State.ringIndex_changes {K : List Foot} {s x : State} (off) (v) (h : Evolves K s x) (a0 : Allows K (.one (.reg off))) :
    Evolves K s (State.ringIndex x off v) := by
  unfold State.ringIndex
  repeat' (first | with_reducible refine fun _ => ?_ | with_reducible (first | exact h | apply State.wr_changes))
  all_goals (with_reducible first | assumption)

theorem State.ackOne_changes {K : List Foot} {s x : State} (vec) (ack) (setNow) (h : Evolves K s x) (a0 : Allows K .vector) :
    Evolves K s (State.ackOne x vec ack setNow) := by
  unfold State.ackOne
  repeat' (first | with_reducible refine fun _ => ?_ | lift_lets | (with_reducible intro y; first | (refine Evolves.cut (K := K) (s := s) (y := y) ?_ ?_ <;> first | (clear_value y; with_reducible intro hy) | simp -zeta -zetaHave only [y]) | (simp -zeta -zetaHave only [y]; clear y) | (clear_value y; clear y)) | with_reducible (first | exact h | assumption | apply State.pendVector_changes | apply State.wrB_changes | apply Evolves.ite) | (split))
  all_goals (with_reducible first | assumption | exact a0.vecRegOfVector | exact a0.vectorsOfVector)

theorem State.vecAck_changes {K : List Foot} {s x : State} (half) (v) (setNow) (h : Evolves K s x) (a0 : Allows K .vector) :
    Evolves K s (State.vecAck x half v setNow) := by
  unfold State.vecAck
  repeat' (first | with_reducible refine fun _ => ?_ | lift_lets | (with_reducible intro y; first | (refine Evolves.cut (K := K) (s := s) (y := y) ?_ ?_ <;> first | (clear_value y; with_reducible intro hy) | simp -zeta -zetaHave only [y]) | (simp -zeta -zetaHave only [y]; clear y) | (clear_value y; clear y)) | with_reducible (first | exact h | assumption | apply State.ackOne_changes | apply Evolves.foldl) | (split))
  all_goals (with_reducible first | assumption | exact a0.vecRegOfVector | exact a0.vectorsOfVector)

theorem State.unmask_changes {K : List Foot} {s x : State} (vec) (h : Evolves K s x) (a0 : Allows K (.one .msix)) (a1 : Allows K (.one .vectors)) :
    Evolves K s (State.unmask x vec) := by
  unfold State.unmask
  try simp -zeta -zetaHave only [State.fold_hst]
  repeat' (first | with_reducible refine fun _ => ?_ | lift_lets | (with_reducible intro y; first | (refine Evolves.cut (K := K) (s := s) (y := y) ?_ ?_ <;> first | (clear_value y; with_reducible intro hy) | simp -zeta -zetaHave only [y]) | (simp -zeta -zetaHave only [y]; clear y) | (clear_value y; clear y)) | with_reducible (first | exact h | assumption | apply State.sendMsg_changes | apply State.setPba_changes | apply State.putHst_msix | apply Evolves.ite) | (split))
  all_goals (with_reducible first | assumption)

theorem State.msixWrite_changes {K : List Foot} {s x : State} (o) (v) (h : Evolves K s x) (a0 : Allows K (.one .msix)) (a1 : Allows K (.one .vectors)) :
    Evolves K s (State.msixWrite x o v) := by
  unfold State.msixWrite
  try simp -zeta -zetaHave only [State.fold_hst]
  repeat' (first | with_reducible refine fun _ => ?_ | lift_lets | (with_reducible intro y; first | (refine Evolves.cut (K := K) (s := s) (y := y) ?_ ?_ <;> first | (clear_value y; with_reducible intro hy) | simp -zeta -zetaHave only [y]) | (simp -zeta -zetaHave only [y]; clear y) | (clear_value y; clear y)) | with_reducible (first | exact h | assumption | apply State.unmask_changes | apply State.putHst_msix | apply Evolves.ite) | (split))
  all_goals (with_reducible first | assumption)

theorem State.plainWrite_changes {K : List Foot} {s x : State} (off) (v) (h : Evolves K s x) (a0 : Allows K (.one (.reg off))) :
    Evolves K s (State.plainWrite x off v) := by
  unfold State.plainWrite
  repeat' (first | with_reducible refine fun _ => ?_ | with_reducible (first | exact h | apply State.wr_changes) | (split))
  all_goals (with_reducible first | assumption)

theorem State.sealedRecord_changes {K : List Foot} {s x : State} (off) (v) (h : Evolves K s x) (a0 : Allows K .events) (a1 : Allows K (.one (.reg Reg.bootSealedWrAddr))) (a2 : Allows K (.one (.reg Reg.bootSealedWrCnt))) :
    Evolves K s (State.sealedRecord x off v) := by
  unfold State.sealedRecord
  repeat' (first | with_reducible refine fun _ => ?_ | lift_lets | (with_reducible intro y; first | (refine Evolves.cut (K := K) (s := s) (y := y) ?_ ?_ <;> first | (clear_value y; with_reducible intro hy) | simp -zeta -zetaHave only [y]) | (simp -zeta -zetaHave only [y]; clear y) | (clear_value y; clear y)) | with_reducible (first | exact h | assumption | apply State.post_changes | apply State.wr_changes | apply State.countF_changes | apply Evolves.ite) | (split))
  all_goals (with_reducible first | assumption | exact a0.vectorOfEvents | exact a0.logOfEvents | exact a0.evrPairOfEvents | exact a0.evrOfEvents | exact a0.vectorsOfEvents | exact a0.evrStatusOfEvents | exact a0.evrDropOfEvents | exact a0.evrCommitOfEvents | exact a0.evrLogOfEvents | exact a0.evrLogBseqOfEvents)

theorem State.settle_changes {K : List Foot} {s x : State} (n) (h : Evolves K s x) (a0 : Allows K .completion) :
    Evolves K s (State.settle x n) := by
  induction n generalizing x with
  | zero => exact h
  | succ n ih =>
    unfold State.settle
    split
    · rename_i c t _ _
      split
      · exact ih (State.complete_changes c _ _ _ (State.putHst_rings h a0.ringsOfCompletion) a0)
      · exact h
    · exact h

theorem State.settleAll_changes {K : List Foot} {s x : State} (h : Evolves K s x) (a0 : Allows K .completion) :
    Evolves K s (State.settleAll x) := by
  unfold State.settleAll
  repeat' (first | with_reducible refine fun _ => ?_ | with_reducible (first | exact h | apply State.settle_changes))
  all_goals (with_reducible first | assumption | exact a0.vectorOfCompletion | exact a0.ringsOfCompletion | exact a0.hostMemOfCompletion | exact a0.vectorsOfCompletion | exact a0.cplTailOfCompletion | exact a0.cplDropOfCompletion)

theorem State.epochTakeEffect_changes {K : List Foot} {s x : State} (h : Evolves K s x) (a0 : Allows K .completion) (a1 : Allows K .events) (a2 : Allows K (.one .clk)) :
    Evolves K s (State.epochTakeEffect x) := by
  unfold State.epochTakeEffect
  repeat' (first | with_reducible refine fun _ => ?_ | with_reducible (first | exact h | apply State.settleAll_changes | apply State.epochTake_changes | apply Evolves.ite) | (split))
  all_goals (with_reducible first | assumption | exact a0.vectorOfCompletion | exact a0.ringsOfCompletion | exact a0.hostMemOfCompletion | exact a0.vectorsOfCompletion | exact a0.cplTailOfCompletion | exact a0.cplDropOfCompletion | exact a1.vectorOfEvents | exact a1.logOfEvents | exact a1.evrPairOfEvents | exact a1.evrOfEvents | exact a1.vectorsOfEvents | exact a1.evrStatusOfEvents | exact a1.evrDropOfEvents | exact a1.evrCommitOfEvents | exact a1.evrLogOfEvents | exact a1.evrLogBseqOfEvents)

theorem State.runCmd_changes {K : List Foot} {s x : State} (op) (f : Cmd → State → State) (h : Evolves K s x) (a0 : Allows K .completion)
    (hf : ∀ c t, Evolves K s t → Evolves K s (f c t)) : Evolves K s (State.runCmd x op f) := by
  unfold State.runCmd
  split
  · rename_i c t _ _
    have hu : Evolves K s { x with hst := { x.hst with fetched := t } } := State.putHst_rings h a0.ringsOfCompletion
    refine Evolves.ite (fun _ => State.settleAll_changes ?_ a0) (fun _ => h)
    exact Evolves.ite (fun _ => State.complete_changes c _ _ _ hu a0) (fun _ => Evolves.ite (fun _ => State.complete_changes c _ _ _ hu a0) (fun _ => hf c _ hu))
  · exact h

theorem State.linkUp_changes {K : List Foot} {s x : State} (width) (speed) (h : Evolves K s x) (a0 : Allows K (.one (.reg Reg.hstStatus))) :
    Evolves K s (State.linkUp x width speed) := by
  unfold State.linkUp
  repeat' (first | with_reducible refine fun _ => ?_ | with_reducible (first | exact h | apply State.wrF_changes | apply State.wrB_changes | apply Evolves.ite))
  all_goals (with_reducible first | assumption)

theorem State.bar2Read_changes {K : List Foot} {s x : State} (a) (n) (h : Evolves K s x) (a0 : Allows K (.one .reads)) (a1 : Allows K (.pair Reg.hstFlags)) :
    Evolves K s (State.bar2Read x a n) := by
  unfold State.bar2Read
  try simp -zeta -zetaHave only [State.fold_hst]
  repeat' (first | with_reducible refine fun _ => ?_ | lift_lets | (with_reducible intro y; first | (refine Evolves.cut (K := K) (s := s) (y := y) ?_ ?_ <;> first | (clear_value y; with_reducible intro hy) | simp -zeta -zetaHave only [y]) | (simp -zeta -zetaHave only [y]; clear y) | (clear_value y; clear y)) | with_reducible (first | exact h | apply State.raise_changes | apply State.putHst_reads | apply Evolves.ite))
  all_goals (with_reducible first | assumption | exact a1.fst | exact a1.snd)

theorem State.cmdRead_changes {K : List Foot} {s x : State} (h : Evolves K s x) (a0 : Allows K .completion) :
    Evolves K s (State.cmdRead x) := by
  unfold State.cmdRead
  repeat' (first | with_reducible refine fun _ => ?_ | with_reducible (first | exact h | assumption | apply State.runCmd_changes | apply State.complete_changes | apply State.hostWr_changes | apply Evolves.ite) | (split))
  all_goals (with_reducible first | assumption | exact a0.vectorOfCompletion | exact a0.ringsOfCompletion | exact a0.hostMemOfCompletion | exact a0.vectorsOfCompletion | exact a0.cplTailOfCompletion | exact a0.cplDropOfCompletion)

theorem State.badAccess_changes {K : List Foot} {s x : State} (off) (form) (h : Evolves K s x) (a0 : Allows K .hostError) :
    Evolves K s (State.badAccess x off form) := by
  unfold State.badAccess
  try simp -zeta -zetaHave only [State.fold_hst]
  repeat' (first | with_reducible refine fun _ => ?_ | lift_lets | (with_reducible intro y; first | (refine Evolves.cut (K := K) (s := s) (y := y) ?_ ?_ <;> first | (clear_value y; with_reducible intro hy) | simp -zeta -zetaHave only [y]) | (simp -zeta -zetaHave only [y]; clear y) | (clear_value y; clear y)) | with_reducible (first | exact h | assumption | apply State.badAddr_changes | apply State.setRead_changes | apply State.putHst_reads) | (split))
  all_goals (with_reducible first | assumption | exact a0.hstFlagsOfError | exact a0.readsOfError | exact a0.badAddrOfError)

theorem State.fetch_changes {K : List Foot} {s x : State} (entry) (h : Evolves K s x) (a0 : Allows K .completion) (a1 : Allows K (.one (.reg Reg.hstCmdHead))) :
    Evolves K s (State.fetch x entry) := by
  unfold State.fetch
  try simp -zeta -zetaHave only [State.fold_hst]
  repeat' (first | with_reducible refine fun _ => ?_ | lift_lets | (with_reducible intro y; first | (refine Evolves.cut (K := K) (s := s) (y := y) ?_ ?_ <;> first | (clear_value y; with_reducible intro hy) | simp -zeta -zetaHave only [y]) | (simp -zeta -zetaHave only [y]; clear y) | (clear_value y; clear y)) | with_reducible (first | exact h | assumption | apply State.settleAll_changes | apply State.wr_changes | apply State.hostWr_changes | apply State.putHst_rings | apply Evolves.ite) | (split))
  all_goals (with_reducible first | assumption | exact a0.vectorOfCompletion | exact a0.ringsOfCompletion | exact a0.hostMemOfCompletion | exact a0.vectorsOfCompletion | exact a0.cplTailOfCompletion | exact a0.cplDropOfCompletion)

theorem State.readClear_changes {K : List Foot} {s x : State} (off) (shown) (incNow) (h : Evolves K s x) (a0 : Allows K (.one (.reg off))) (a1 : Allows K (.one .reads)) (a2 : Allows K (.one (.reg (off - 4)))) :
    Evolves K s (State.readClear x off shown incNow) := by
  unfold State.readClear
  repeat' (first | with_reducible refine fun _ => ?_ | lift_lets | (with_reducible intro y; first | (refine Evolves.cut (K := K) (s := s) (y := y) ?_ ?_ <;> first | (clear_value y; with_reducible intro hy) | simp -zeta -zetaHave only [y]) | (simp -zeta -zetaHave only [y]; clear y) | (clear_value y; clear y)) | with_reducible (first | exact h | assumption | apply State.wr_changes | apply State.setRead_changes | apply State.wrB_changes | apply Evolves.ite | apply Evolves.foldl) | (split))
  all_goals (with_reducible first | assumption)

theorem State.endStreams_changes {K : List Foot} {s x : State} (h : Evolves K s x) (a0 : Allows K .completion) :
    Evolves K s (State.endStreams x) := by
  unfold State.endStreams
  try simp -zeta -zetaHave only [State.fold_hst]
  repeat' (first | with_reducible refine fun _ => ?_ | lift_lets | (with_reducible intro y; first | (refine Evolves.cut (K := K) (s := s) (y := y) ?_ ?_ <;> first | (clear_value y; with_reducible intro hy) | simp -zeta -zetaHave only [y]) | (simp -zeta -zetaHave only [y]; clear y) | (clear_value y; clear y)) | with_reducible (first | exact h | assumption | apply State.complete_changes | apply State.putHst_rings | apply Evolves.foldl) | (split))
  all_goals (with_reducible first | assumption | exact a0.vectorOfCompletion | exact a0.ringsOfCompletion | exact a0.hostMemOfCompletion | exact a0.vectorsOfCompletion | exact a0.cplTailOfCompletion | exact a0.cplDropOfCompletion)

theorem State.linkReset_changes {K : List Foot} {s x : State} (h : Evolves K s x) (a0 : Allows K .events) (a1 : Allows K (.pair Reg.hstFlags)) (a2 : Allows K .completion) (a3 : Allows K (.one (.reg Reg.hstStatus))) (a4 : Allows K (.one (.reg Reg.hstRingCtl))) (a5 : Allows K (.one .plan)) :
    Evolves K s (State.linkReset x) := by
  unfold State.linkReset
  refine Evolves.ite (fun _ => ?_) (fun _ => h)
  extract_lets fg bg src src2 s1 s2
  have h1 : Evolves K s s1 := h.steps [.one .rings, .one .plan] (by simp [a5, a2.ringsOfCompletion]) (fun p hp => by
    cases p with
    | pending => exact rfl
    | freeCtr => exact rfl
    | reg o => exact rfl
    | shadows => exact rfl
    | boot => exact rfl
    | clk => exact rfl
    | evr => exact rfl
    | vectors => exact ⟨rfl, rfl⟩
    | rings => exact absurd (hp (.one .rings) (by simp)) (by simp [Foot.covers])
    | hostMem => exact rfl
    | msix => exact rfl
    | reads => exact ⟨rfl, rfl, rfl⟩
    | flash o => exact rfl
    | keys => exact ⟨rfl, rfl⟩
    | rollback => exact rfl
    | flashPort => exact ⟨rfl, rfl, rfl, rfl⟩
    | macros => exact rfl
    | march => exact ⟨rfl, rfl⟩
    | refills => exact rfl
    | timing => exact rfl
    | dram o => exact rfl
    | failCnt o => exact rfl
    | cal => exact rfl
    | pwr => exact rfl
    | seq o => exact rfl
    | lane o => exact rfl
    | clu o => exact rfl
    | chan o => exact rfl
    | plan => exact absurd (hp (.one .plan) (by simp)) (by simp [Foot.covers])
    | snd => exact rfl
    | cwy => exact rfl) (fun hc => hc)
  have h2 : Evolves K s s2 := by
    apply State.endStreams_changes <;> with_reducible first | assumption | skip
    all_goals first | exact State.wr_changes _ _ (State.wr_changes _ _ h1 a4) a3 | exact a0.vectorOfEvents | exact a0.logOfEvents | exact a0.evrPairOfEvents | exact a0.evrOfEvents | exact a0.vectorsOfEvents | exact a0.evrStatusOfEvents | exact a0.evrDropOfEvents | exact a0.evrCommitOfEvents | exact a0.evrLogOfEvents | exact a0.evrLogBseqOfEvents | exact a1.fst | exact a1.snd | exact a2.vectorOfCompletion | exact a2.ringsOfCompletion | exact a2.hostMemOfCompletion | exact a2.vectorsOfCompletion | exact a2.cplTailOfCompletion | exact a2.cplDropOfCompletion
  exact State.post_changes _ _ _ (State.raise_changes _ _ h2 a1) a0

theorem State.flagClear_changes {K : List Foot} {s x : State} (off) (v) (setNow) (h : Evolves K s x) (a0 : Allows K (.pair off)) :
    Evolves K s (State.flagClear x off v setNow) := by
  unfold State.flagClear
  repeat' (first | with_reducible refine fun _ => ?_ | lift_lets | (with_reducible intro y; first | (refine Evolves.cut (K := K) (s := s) (y := y) ?_ ?_ <;> first | (clear_value y; with_reducible intro hy) | simp -zeta -zetaHave only [y]) | (simp -zeta -zetaHave only [y]; clear y) | (clear_value y; clear y)) | with_reducible (first | exact h | assumption | apply State.raise_changes | apply State.wr_changes | apply Evolves.foldl) | (split))
  all_goals (with_reducible first | assumption | exact a0.fst | exact a0.snd)

theorem State.cmdNop_changes {K : List Foot} {s x : State} (h : Evolves K s x) (a0 : Allows K .completion) :
    Evolves K s (State.cmdNop x) := by
  unfold State.cmdNop
  repeat' (first | with_reducible refine fun _ => ?_ | with_reducible (first | exact h | assumption | apply State.runCmd_changes | apply State.complete_changes) | (split))
  all_goals (with_reducible first | assumption | exact a0.vectorOfCompletion | exact a0.ringsOfCompletion | exact a0.hostMemOfCompletion | exact a0.vectorsOfCompletion | exact a0.cplTailOfCompletion | exact a0.cplDropOfCompletion)

theorem State.cmdEpoch_changes {K : List Foot} {s x : State} (h : Evolves K s x) (a0 : Allows K .completion) (a1 : Allows K (.one .clk)) :
    Evolves K s (State.cmdEpoch x) :=
  State.runCmd_changes _ _ h a0 (fun _ _ ht => ht.steps [.one .clk, .one .rings] (by simp [a1, a0.ringsOfCompletion]) (fun p hp => by cases p <;> first | exact rfl | exact ⟨rfl, rfl⟩ | exact ⟨rfl, rfl, rfl⟩ | exact ⟨rfl, rfl, rfl, rfl⟩ | exact ⟨rfl, rfl, rfl, rfl, rfl⟩ | exact absurd hp (by simp [Foot.covers])) (fun hc => hc))

theorem State.dramWrEn_changes {K : List Foot} {s x : State} (a) (l) (h : Evolves K s x) (a0 : Allows K .drams) :
    Evolves K s (State.dramWrEn x a l) := by
  induction l generalizing x a with
  | nil => exact h
  | cons b l ih =>
    cases b
    · exact ih (a + 1) h
    · exact ih (a + 1) (State.dramWr_changes a _ h a0.dramOf)

theorem State.bar2Write_changes {K : List Foot} {s x : State} (a) (d) (h : Evolves K s x) (a0 : Allows K (.pair Reg.hstFlags)) (a1 : Allows K .drams) :
    Evolves K s (State.bar2Write x a d) := by
  unfold State.bar2Write
  repeat' (first | with_reducible refine fun _ => ?_ | with_reducible (first | exact h | apply State.raise_changes | apply State.dramWrEn_changes | apply Evolves.ite))
  all_goals (with_reducible first | assumption | exact a0.fst | exact a0.snd | exact a1.dramOf)

theorem State.cplStall_changes {K : List Foot} {s x : State} (h : Evolves K s x) (a0 : Allows K .events) (a1 : Allows K (.pair Reg.hstFlags)) :
    Evolves K s (State.cplStall x) := by
  unfold State.cplStall
  repeat' (first | with_reducible refine fun _ => ?_ | with_reducible (first | exact h | apply State.post_changes | apply State.raise_changes | apply Evolves.ite))
  all_goals (with_reducible first | assumption | exact a0.vectorOfEvents | exact a0.logOfEvents | exact a0.evrPairOfEvents | exact a0.evrOfEvents | exact a0.vectorsOfEvents | exact a0.evrStatusOfEvents | exact a0.evrDropOfEvents | exact a0.evrCommitOfEvents | exact a0.evrLogOfEvents | exact a0.evrLogBseqOfEvents | exact a1.fst | exact a1.snd)

theorem State.cmdLogRead_changes {K : List Foot} {s x : State} (h : Evolves K s x) (a0 : Allows K .completion) :
    Evolves K s (State.cmdLogRead x) := by
  unfold State.cmdLogRead
  repeat' (first | with_reducible refine fun _ => ?_ | with_reducible (first | exact h | assumption | apply State.runCmd_changes | apply State.complete_changes | apply State.hostWr_changes | apply Evolves.ite) | (split))
  all_goals (with_reducible first | assumption | exact a0.vectorOfCompletion | exact a0.ringsOfCompletion | exact a0.hostMemOfCompletion | exact a0.vectorsOfCompletion | exact a0.cplTailOfCompletion | exact a0.cplDropOfCompletion)

theorem State.cmdDeviceReset_changes {K : List Foot} {s x : State} (h : Evolves K s x) (a0 : Allows K .completion) (a1 : Allows K (.one .boot)) :
    Evolves K s (State.cmdDeviceReset x) := by
  unfold State.cmdDeviceReset
  try simp -zeta -zetaHave only [State.fold_boot]
  repeat' (first | with_reducible refine fun _ => ?_ | lift_lets | (with_reducible intro y; first | (refine Evolves.cut (K := K) (s := s) (y := y) ?_ ?_ <;> first | (clear_value y; with_reducible intro hy) | simp -zeta -zetaHave only [y]) | (simp -zeta -zetaHave only [y]; clear y) | (clear_value y; clear y)) | with_reducible (first | exact h | assumption | apply State.runCmd_changes | apply State.complete_changes | apply State.putBoot_changes) | (split))
  all_goals (with_reducible first | assumption | exact a0.vectorOfCompletion | exact a0.ringsOfCompletion | exact a0.hostMemOfCompletion | exact a0.vectorsOfCompletion | exact a0.cplTailOfCompletion | exact a0.cplDropOfCompletion)

theorem State.cmdWrite_changes {K : List Foot} {s x : State} (data) (h : Evolves K s x) (a0 : Allows K .completion) (a1 : Allows K .drams) :
    Evolves K s (State.cmdWrite x data) := by
  unfold State.cmdWrite
  repeat' (first | with_reducible refine fun _ => ?_ | with_reducible (first | exact h | assumption | apply State.runCmd_changes | apply State.complete_changes | apply State.dramWr_changes | apply Evolves.ite) | (split))
  all_goals (with_reducible first | assumption | exact a0.vectorOfCompletion | exact a0.ringsOfCompletion | exact a0.hostMemOfCompletion | exact a0.vectorsOfCompletion | exact a0.cplTailOfCompletion | exact a0.cplDropOfCompletion | exact a1.dramOf)


end Sys2Proof.Machine
end

