-- ==== Sys2Proof/Laws/FrameOperands.lean ====
section
/-! SUPPORT. What each operation of Machine/Operands.lean can change: from a state that has changed only parts of the footprint `K`,
the operation changes only parts of `K`, where `K` allows the operation's own footprint. -/

set_option Elab.async false
set_option linter.all false

namespace Sys2Proof.Machine

theorem State.modLane_changes {K : List Foot} {s x : State} (c) (f) (h : Evolves K s x) (a0 : Allows K (.one (.lane c))) :
    Evolves K s (State.modLane x c f) := by
  unfold State.modLane
  repeat' (first | with_reducible refine fun _ => ?_ | with_reducible (first | exact h | apply State.setLane_changes))
  all_goals (with_reducible first | assumption)

theorem State.modChan_changes {K : List Foot} {s x : State} (n) (f) (h : Evolves K s x) (a0 : Allows K (.one (.chan n))) :
    Evolves K s (State.modChan x n f) := by
  unfold State.modChan
  repeat' (first | with_reducible refine fun _ => ?_ | with_reducible (first | exact h | apply State.setChan_changes))
  all_goals (with_reducible first | assumption)

theorem State.modPmu_changes {K : List Foot} {s x : State} (n) (f) (h : Evolves K s x) (a0 : Allows K (.one (.chan n))) :
    Evolves K s (State.modPmu x n f) := by
  unfold State.modPmu
  repeat' (first | with_reducible refine fun _ => ?_ | lift_lets | (with_reducible intro y; first | (refine Evolves.cut (K := K) (s := s) (y := y) ?_ ?_ <;> first | (clear_value y; with_reducible intro hy) | simp -zeta -zetaHave only [y]) | (simp -zeta -zetaHave only [y]; clear y) | (clear_value y; clear y)) | with_reducible (first | exact h | assumption | apply State.modChan_changes))
  all_goals (with_reducible first | assumption)

theorem State.modTia_changes {K : List Foot} {s x : State} (n) (f) (h : Evolves K s x) (a0 : Allows K (.one (.chan n))) :
    Evolves K s (State.modTia x n f) := by
  unfold State.modTia
  repeat' (first | with_reducible refine fun _ => ?_ | lift_lets | (with_reducible intro y; first | (refine Evolves.cut (K := K) (s := s) (y := y) ?_ ?_ <;> first | (clear_value y; with_reducible intro hy) | simp -zeta -zetaHave only [y]) | (simp -zeta -zetaHave only [y]; clear y) | (clear_value y; clear y)) | with_reducible (first | exact h | assumption | apply State.modChan_changes))
  all_goals (with_reducible first | assumption)

theorem State.modClu_changes {K : List Foot} {s x : State} (c) (f) (h : Evolves K s x) (a0 : Allows K (.one (.clu c))) :
    Evolves K s (State.modClu x c f) := by
  unfold State.modClu
  repeat' (first | with_reducible refine fun _ => ?_ | with_reducible (first | exact h | apply State.setClu_changes))
  all_goals (with_reducible first | assumption)

theorem State.modAcq_changes {K : List Foot} {s x : State} (c) (f) (h : Evolves K s x) (a0 : Allows K (.one (.clu c))) :
    Evolves K s (State.modAcq x c f) := by
  unfold State.modAcq
  repeat' (first | with_reducible refine fun _ => ?_ | lift_lets | (with_reducible intro y; first | (refine Evolves.cut (K := K) (s := s) (y := y) ?_ ?_ <;> first | (clear_value y; with_reducible intro hy) | simp -zeta -zetaHave only [y]) | (simp -zeta -zetaHave only [y]; clear y) | (clear_value y; clear y)) | with_reducible (first | exact h | assumption | apply State.modClu_changes))
  all_goals (with_reducible first | assumption)

theorem State.tableNote_changes {K : List Foot} {s x : State} (n) (j) (h : Evolves K s x) (a0 : Allows K .chans) :
    Evolves K s (State.tableNote x n j) := by
  unfold State.tableNote
  repeat' (first | with_reducible refine fun _ => ?_ | lift_lets | (with_reducible intro y; first | (refine Evolves.cut (K := K) (s := s) (y := y) ?_ ?_ <;> first | (clear_value y; with_reducible intro hy) | simp -zeta -zetaHave only [y]) | (simp -zeta -zetaHave only [y]; clear y) | (clear_value y; clear y)) | with_reducible (first | exact h | assumption | apply State.modTia_changes | apply Evolves.ite | apply Evolves.foldl))
  all_goals (with_reducible first | assumption | exact a0.chanOf)

theorem State.uniform_changes {K : List Foot} {s x : State} (n) (j) (h : Evolves K s x) (a0 : Allows K .chans) :
    Evolves K s (State.uniform x n j) := by
  unfold State.uniform
  repeat' (first | with_reducible refine fun _ => ?_ | lift_lets | (with_reducible intro y; first | (refine Evolves.cut (K := K) (s := s) (y := y) ?_ ?_ <;> first | (clear_value y; with_reducible intro hy) | simp -zeta -zetaHave only [y]) | (simp -zeta -zetaHave only [y]; clear y) | (clear_value y; clear y)) | with_reducible (first | exact h | assumption | apply State.tableNote_changes | apply State.modChan_changes | apply Evolves.ite))
  all_goals (with_reducible first | assumption | exact a0.chanOf)

theorem State.modDds_changes {K : List Foot} {s x : State} (c) (f) (h : Evolves K s x) (a0 : Allows K (.one (.clu c))) :
    Evolves K s (State.modDds x c f) := by
  unfold State.modDds
  repeat' (first | with_reducible refine fun _ => ?_ | lift_lets | (with_reducible intro y; first | (refine Evolves.cut (K := K) (s := s) (y := y) ?_ ?_ <;> first | (clear_value y; with_reducible intro hy) | simp -zeta -zetaHave only [y]) | (simp -zeta -zetaHave only [y]; clear y) | (clear_value y; clear y)) | with_reducible (first | exact h | assumption | apply State.modClu_changes))
  all_goals (with_reducible first | assumption)

theorem State.modSeq_changes {K : List Foot} {s x : State} (q) (f) (h : Evolves K s x) (a0 : Allows K (.one (.seq q))) :
    Evolves K s (State.modSeq x q f) := by
  unfold State.modSeq
  repeat' (first | with_reducible refine fun _ => ?_ | with_reducible (first | exact h | apply State.setSeq_changes))
  all_goals (with_reducible first | assumption)

theorem State.setRespEntry_changes {K : List Foot} {s x : State} (off) (i) (v) (h : Evolves K s x) (a0 : Allows K (.one (.reg (off + 4 * (i / 8))))) :
    Evolves K s (State.setRespEntry x off i v) := by
  unfold State.setRespEntry
  repeat' (first | with_reducible refine fun _ => ?_ | with_reducible (first | exact h | apply State.wrF_changes))
  all_goals (with_reducible first | assumption)


end Sys2Proof.Machine
end

