-- ==== Sys2Proof/Laws/FrameSignals.lean ====
section
/-! SUPPORT. What each operation of Machine/Signals.lean can change: from a state that has changed only parts of the footprint `K`,
the operation changes only parts of `K`, where `K` allows the operation's own footprint. -/

set_option Elab.async false
set_option linter.all false

namespace Sys2Proof.Machine

theorem State.eccUncorr_changes {K : List Foot} {s x : State} (m) (r) (h : Evolves K s x) (a0 : Allows K .events) (a1 : Allows K (.one (.reg Reg.memEccAddr))) (a2 : Allows K (.pair Reg.memFlags)) :
    Evolves K s (State.eccUncorr x m r) := by
  unfold State.eccUncorr
  repeat' (first | with_reducible refine fun _ => ?_ | with_reducible (first | exact h | apply State.post_changes | apply State.wr_changes | apply State.raise_changes))
  all_goals (with_reducible first | assumption | exact a0.vectorOfEvents | exact a0.logOfEvents | exact a0.evrPairOfEvents | exact a0.evrOfEvents | exact a0.vectorsOfEvents | exact a0.evrStatusOfEvents | exact a0.evrDropOfEvents | exact a0.evrCommitOfEvents | exact a0.evrLogOfEvents | exact a0.evrLogBseqOfEvents | exact a2.fst | exact a2.snd)

theorem State.eccCorrected_changes {K : List Foot} {s x : State} (h : Evolves K s x) (a0 : Allows K (.one (.reg Reg.memEccCnt))) :
    Evolves K s (State.eccCorrected x) := by
  unfold State.eccCorrected
  repeat' (first | with_reducible refine fun _ => ?_ | with_reducible (first | exact h | apply State.count_changes))
  all_goals (with_reducible first | assumption)

theorem State.acqOffer_changes {K : List Foot} {s x : State} (c) (f) (h : Evolves K s x) (a0 : Allows K (.one (.clu c))) :
    Evolves K s (State.acqOffer x c f) := by
  unfold State.acqOffer
  repeat' (first | with_reducible refine fun _ => ?_ | with_reducible (first | exact h | apply State.modAcq_changes | apply Evolves.ite))
  all_goals (with_reducible first | assumption)

theorem State.acqIn_changes {K : List Foot} {s x : State} (c) (i) (h : Evolves K s x) (a0 : Allows K (.one (.clu c))) :
    Evolves K s (State.acqIn x c i) := by
  unfold State.acqIn
  repeat' (first | with_reducible refine fun _ => ?_ | lift_lets | (with_reducible intro y; first | (refine Evolves.cut (K := K) (s := s) (y := y) ?_ ?_ <;> first | (clear_value y; with_reducible intro hy) | simp -zeta -zetaHave only [y]) | (simp -zeta -zetaHave only [y]; clear y) | (clear_value y; clear y)) | with_reducible (first | exact h | assumption | apply State.acqOffer_changes))
  all_goals (with_reducible first | assumption)

theorem State.pendLine_changes {K : List Foot} {s x : State} (q) (n) (h : Evolves K s x) (a0 : Allows K (.one (.seq q))) :
    Evolves K s (State.pendLine x q n) := by
  unfold State.pendLine
  repeat' (first | with_reducible refine fun _ => ?_ | lift_lets | (with_reducible intro y; first | (refine Evolves.cut (K := K) (s := s) (y := y) ?_ ?_ <;> first | (clear_value y; with_reducible intro hy) | simp -zeta -zetaHave only [y]) | (simp -zeta -zetaHave only [y]; clear y) | (clear_value y; clear y)) | with_reducible (first | exact h | assumption | apply State.modSeq_changes | apply Evolves.ite) | (split))
  all_goals (with_reducible first | assumption)

theorem State.masterEnd_changes {K : List Foot} {s x : State} (h : Evolves K s x) (a0 : Allows K (.one (.seq 32))) :
    Evolves K s (State.masterEnd x) := by
  unfold State.masterEnd
  repeat' (first | with_reducible refine fun _ => ?_ | lift_lets | (with_reducible intro y; first | (refine Evolves.cut (K := K) (s := s) (y := y) ?_ ?_ <;> first | (clear_value y; with_reducible intro hy) | simp -zeta -zetaHave only [y]) | (simp -zeta -zetaHave only [y]; clear y) | (clear_value y; clear y)) | with_reducible (first | exact h | assumption | apply State.modSeq_changes | apply Evolves.ite))
  all_goals (with_reducible first | assumption)

theorem State.stopLanes_changes {K : List Foot} {s x : State} (m) (h : Evolves K s x) (a0 : Allows K .seqs) :
    Evolves K s (State.stopLanes x m) := by
  unfold State.stopLanes
  repeat' (first | with_reducible refine fun _ => ?_ | with_reducible (first | exact h | assumption | apply State.pendLine_changes | apply Evolves.foldl))
  all_goals (with_reducible first | assumption | exact a0.seqOf)

theorem State.planStop_changes {K : List Foot} {s x : State} (h : Evolves K s x) (a0 : Allows K .seqs) (a1 : Allows K (.one .plan)) (a2 : Allows K .lanes) (a3 : Allows K (.one (.reg Reg.plnState))) :
    Evolves K s (State.planStop x) := by
  unfold State.planStop
  try simp -zeta -zetaHave only [State.fold_plan]
  repeat' (first | with_reducible refine fun _ => ?_ | lift_lets | (with_reducible intro y; first | (refine Evolves.cut (K := K) (s := s) (y := y) ?_ ?_ <;> first | (clear_value y; with_reducible intro hy) | simp -zeta -zetaHave only [y]) | (simp -zeta -zetaHave only [y]; clear y) | (clear_value y; clear y)) | with_reducible (first | exact h | assumption | apply State.stopLanes_changes | apply State.modLane_changes | apply State.wrF_changes | apply State.putPlan_changes | apply Evolves.ite | apply Evolves.foldl) | (split))
  all_goals (with_reducible first | assumption | exact a0.seqOf | exact a2.laneOf)

theorem State.partEnd_changes {K : List Foot} {s x : State} (c) (h : Evolves K s x) (a0 : Allows K (.one (.lane c))) (a1 : Allows K (.one (.seq c))) :
    Evolves K s (State.partEnd x c) := by
  unfold State.partEnd
  repeat' (first | with_reducible refine fun _ => ?_ | lift_lets | (with_reducible intro y; first | (refine Evolves.cut (K := K) (s := s) (y := y) ?_ ?_ <;> first | (clear_value y; with_reducible intro hy) | simp -zeta -zetaHave only [y]) | (simp -zeta -zetaHave only [y]; clear y) | (clear_value y; clear y)) | with_reducible (first | exact h | assumption | apply State.modLane_changes | apply State.modSeq_changes | apply Evolves.ite) | (split))
  all_goals (with_reducible first | assumption)

theorem State.raiseFault_changes {K : List Foot} {s x : State} (q) (code) (pc) (h : Evolves K s x) (a0 : Allows K (.one (.seq q))) (a1 : Allows K (.one (.reg (seqOff q Reg.seqFault)))) :
    Evolves K s (State.raiseFault x q code pc) := by
  unfold State.raiseFault
  repeat' (first | with_reducible refine fun _ => ?_ | lift_lets | (with_reducible intro y; first | (refine Evolves.cut (K := K) (s := s) (y := y) ?_ ?_ <;> first | (clear_value y; with_reducible intro hy) | simp -zeta -zetaHave only [y]) | (simp -zeta -zetaHave only [y]; clear y) | (clear_value y; clear y)) | with_reducible (first | exact h | assumption | apply State.setSeq_changes | apply State.wr_changes | apply Evolves.ite) | (split))
  all_goals (with_reducible first | assumption)

theorem State.underrunMark_changes {K : List Foot} {s x : State} (c) (seg) (h : Evolves K s x) (a0 : Allows K .events) (a1 : Allows K (.pair (cluOff c Reg.plnFlags))) :
    Evolves K s (State.underrunMark x c seg) := by
  unfold State.underrunMark
  repeat' (first | with_reducible refine fun _ => ?_ | with_reducible (first | exact h | apply State.post_changes | apply State.raise_changes))
  all_goals (with_reducible first | assumption | exact a0.vectorOfEvents | exact a0.logOfEvents | exact a0.evrPairOfEvents | exact a0.evrOfEvents | exact a0.vectorsOfEvents | exact a0.evrStatusOfEvents | exact a0.evrDropOfEvents | exact a0.evrCommitOfEvents | exact a0.evrLogOfEvents | exact a0.evrLogBseqOfEvents | exact a1.fst | exact a1.snd)

theorem State.underrunAbort_changes {K : List Foot} {s x : State} (c) (h : Evolves K s x) (a0 : Allows K .seqs) (a1 : Allows K (.one .plan)) (a2 : Allows K .lanes) (a3 : Allows K (.one (.reg Reg.plnState))) (a4 : Allows K .events) (a5 : Allows K (.pair (cluOff c Reg.plnFlags))) :
    Evolves K s (State.underrunAbort x c) := by
  unfold State.underrunAbort
  try simp -zeta -zetaHave only [State.fold_plan]
  repeat' (first | with_reducible refine fun _ => ?_ | lift_lets | (with_reducible intro y; first | (refine Evolves.cut (K := K) (s := s) (y := y) ?_ ?_ <;> first | (clear_value y; with_reducible intro hy) | simp -zeta -zetaHave only [y]) | (simp -zeta -zetaHave only [y]; clear y) | (clear_value y; clear y)) | with_reducible (first | exact h | assumption | apply State.masterEnd_changes | apply State.planStop_changes | apply State.partEnd_changes | apply State.underrunMark_changes | apply State.putPlan_changes) | (split))
  all_goals (with_reducible first | assumption | exact a0.seqOf | exact a2.laneOf | exact a4.vectorOfEvents | exact a4.logOfEvents | exact a4.evrPairOfEvents | exact a4.evrOfEvents | exact a4.vectorsOfEvents | exact a4.evrStatusOfEvents | exact a4.evrDropOfEvents | exact a4.evrCommitOfEvents | exact a4.evrLogOfEvents | exact a4.evrLogBseqOfEvents | exact a5.fst | exact a5.snd)

theorem State.anyEnd_changes {K : List Foot} {s x : State} (q) (h : Evolves K s x) (a0 : Allows K (.one (.seq 32))) (a1 : Allows K (.one (.lane q))) (a2 : Allows K (.one (.seq q))) :
    Evolves K s (State.anyEnd x q) := by
  unfold State.anyEnd
  repeat' (first | with_reducible refine fun _ => ?_ | with_reducible (first | exact h | apply State.masterEnd_changes | apply State.partEnd_changes | apply Evolves.ite))
  all_goals (with_reducible first | assumption)

theorem State.tablesLost_changes {K : List Foot} {s x : State} (q) (row) (h : Evolves K s x) (a0 : Allows K .seqs) (a1 : Allows K (.one .plan)) (a2 : Allows K .lanes) (a3 : Allows K (.one (.reg Reg.plnState))) (a4 : Allows K .events) (a5 : Allows K (.one (.reg Reg.memEccAddr))) (a6 : Allows K (.pair Reg.memFlags)) :
    Evolves K s (State.tablesLost x q row) := by
  unfold State.tablesLost
  try simp -zeta -zetaHave only [State.fold_plan]
  repeat' (first | with_reducible refine fun _ => ?_ | lift_lets | (with_reducible intro y; first | (refine Evolves.cut (K := K) (s := s) (y := y) ?_ ?_ <;> first | (clear_value y; with_reducible intro hy) | simp -zeta -zetaHave only [y]) | (simp -zeta -zetaHave only [y]; clear y) | (clear_value y; clear y)) | with_reducible (first | exact h | assumption | apply State.masterEnd_changes | apply State.planStop_changes | apply State.anyEnd_changes | apply State.eccUncorr_changes | apply State.putPlan_changes | apply Evolves.ite) | (split))
  all_goals (with_reducible first | assumption | exact a0.seqOf | exact a2.laneOf | exact a4.vectorOfEvents | exact a4.logOfEvents | exact a4.evrPairOfEvents | exact a4.evrOfEvents | exact a4.vectorsOfEvents | exact a4.evrStatusOfEvents | exact a4.evrDropOfEvents | exact a4.evrCommitOfEvents | exact a4.evrLogOfEvents | exact a4.evrLogBseqOfEvents | exact a6.fst | exact a6.snd)

theorem State.setExt_changes {K : List Foot} {s x : State} (h : Evolves K s x) (a0 : Allows K .seqs) (a1 : Allows K (.one .plan)) (a2 : Allows K .clus) :
    Evolves K s (State.setExt x) := by
  unfold State.setExt
  try simp -zeta -zetaHave only [State.fold_plan]
  repeat' (first | with_reducible refine fun _ => ?_ | lift_lets | (with_reducible intro y; first | (refine Evolves.cut (K := K) (s := s) (y := y) ?_ ?_ <;> first | (clear_value y; with_reducible intro hy) | simp -zeta -zetaHave only [y]) | (simp -zeta -zetaHave only [y]; clear y) | (clear_value y; clear y)) | with_reducible (first | exact h | assumption | apply State.pendLine_changes | apply State.acqIn_changes | apply State.putPlan_changes | apply Evolves.ite | apply Evolves.foldl) | (split))
  all_goals (with_reducible first | assumption | exact a0.seqOf | exact a2.cluOf)


end Sys2Proof.Machine
end

