-- ==== Sys2Proof/Laws/FrameSequencer.lean ====
section
/-! SUPPORT. What each operation of Machine/Sequencer.lean can change: from a state that has changed only parts of the footprint `K`,
the operation changes only parts of `K`, where `K` allows the operation's own footprint. -/

set_option Elab.async false
set_option linter.all false

namespace Sys2Proof.Machine

theorem State.sendMsgQ_changes {K : List Foot} {s x : State} (type) (payload) (ext) (h : Evolves K s x) (a0 : Allows K (.one .cwy)) :
    Evolves K s (State.sendMsgQ x type payload ext) := by
  unfold State.sendMsgQ
  try simp -zeta -zetaHave only [State.fold_cwy]
  repeat' (first | with_reducible refine fun _ => ?_ | lift_lets | (with_reducible intro y; first | (refine Evolves.cut (K := K) (s := s) (y := y) ?_ ?_ <;> first | (clear_value y; with_reducible intro hy) | simp -zeta -zetaHave only [y]) | (simp -zeta -zetaHave only [y]; clear y) | (clear_value y; clear y)) | with_reducible (first | exact h | assumption | apply State.putCwy_changes | apply Evolves.ite) | (split))
  all_goals (with_reducible first | assumption)

theorem State.times_changes {K : List Foot} {s x : State} (f : State → State) (n) (h : Evolves K s x)
    (hf : ∀ t, Evolves K s t → Evolves K s (f t)) : Evolves K s (State.times f n x) := by
  induction n generalizing x with
  | zero => exact h
  | succ n ih => exact ih (hf x h)

theorem State.stopHandler_changes {K : List Foot} {s x : State} (q) (h : Evolves K s x) (a0 : Allows K .seqs) (a1 : Allows K (.one .plan)) (a2 : Allows K .lanes) (a3 : Allows K (.one (.reg Reg.plnState))) :
    Evolves K s (State.stopHandler x q) := by
  unfold State.stopHandler
  try simp -zeta -zetaHave only [State.fold_plan]
  repeat' (first | with_reducible refine fun _ => ?_ | lift_lets | (with_reducible intro y; first | (refine Evolves.cut (K := K) (s := s) (y := y) ?_ ?_ <;> first | (clear_value y; with_reducible intro hy) | simp -zeta -zetaHave only [y]) | (simp -zeta -zetaHave only [y]; clear y) | (clear_value y; clear y)) | with_reducible (first | exact h | apply State.masterEnd_changes | apply State.planStop_changes | apply State.partEnd_changes | apply State.putPlan_changes | apply Evolves.ite))
  all_goals (with_reducible first | assumption | exact a0.seqOf | exact a2.laneOf)

theorem State.enterHandler_changes {K : List Foot} {s x : State} (q) (n) (a) (h : Evolves K s x) (a0 : Allows K (.one (.seq q))) :
    Evolves K s (State.enterHandler x q n a) := by
  unfold State.enterHandler
  repeat' (first | with_reducible refine fun _ => ?_ | lift_lets | (with_reducible intro y; first | (refine Evolves.cut (K := K) (s := s) (y := y) ?_ ?_ <;> first | (clear_value y; with_reducible intro hy) | simp -zeta -zetaHave only [y]) | (simp -zeta -zetaHave only [y]; clear y) | (clear_value y; clear y)) | with_reducible (first | exact h | assumption | apply State.setSeq_changes) | (split))
  all_goals (with_reducible first | assumption)

theorem State.addCyc_changes {K : List Foot} {s x : State} (q) (n) (h : Evolves K s x) (a0 : Allows K (.one (.seq q))) :
    Evolves K s (State.addCyc x q n) := by
  unfold State.addCyc
  repeat' (first | with_reducible refine fun _ => ?_ | lift_lets | (with_reducible intro y; first | (refine Evolves.cut (K := K) (s := s) (y := y) ?_ ?_ <;> first | (clear_value y; with_reducible intro hy) | simp -zeta -zetaHave only [y]) | (simp -zeta -zetaHave only [y]; clear y) | (clear_value y; clear y)) | with_reducible (first | exact h | assumption | apply State.modSeq_changes))
  all_goals (with_reducible first | assumption)

theorem State.jumpTake_changes {K : List Foot} {s x : State} (c) (n) (h : Evolves K s x) (a0 : Allows K (.one (.seq c))) (a1 : Allows K (.one (.reg (seqOff c Reg.seqFault)))) (a2 : Allows K (.one (.lane c))) (a3 : Allows K (.one (.reg (cluOff c Reg.plnJumpCnt)))) :
    Evolves K s (State.jumpTake x c n) := by
  unfold State.jumpTake
  repeat' (first | with_reducible refine fun _ => ?_ | lift_lets | (with_reducible intro y; first | (refine Evolves.cut (K := K) (s := s) (y := y) ?_ ?_ <;> first | (clear_value y; with_reducible intro hy) | simp -zeta -zetaHave only [y]) | (simp -zeta -zetaHave only [y]; clear y) | (clear_value y; clear y)) | with_reducible (first | exact h | assumption | apply State.raiseFault_changes | apply State.modLane_changes | apply State.enterHandler_changes | apply State.addCyc_changes | apply State.countF_changes | apply State.setLane_changes | apply Evolves.ite) | (split))
  all_goals (with_reducible first | assumption)

theorem State.pause_changes {K : List Foot} {s x : State} (q) (cycles) (h : Evolves K s x) (a0 : Allows K (.one (.seq q))) :
    Evolves K s (State.pause x q cycles) := by
  unfold State.pause
  repeat' (first | with_reducible refine fun _ => ?_ | lift_lets | (with_reducible intro y; first | (refine Evolves.cut (K := K) (s := s) (y := y) ?_ ?_ <;> first | (clear_value y; with_reducible intro hy) | simp -zeta -zetaHave only [y]) | (simp -zeta -zetaHave only [y]; clear y) | (clear_value y; clear y)) | with_reducible (first | exact h | assumption | apply State.addCyc_changes | apply State.setSeq_changes | apply Evolves.ite) | (split))
  all_goals (with_reducible first | assumption)

theorem State.jumpGrant_changes {K : List Foot} {s x : State} (c) (cycles) (h : Evolves K s x) (a0 : Allows K (.one (.seq c))) (a1 : Allows K (.one (.reg (seqOff c Reg.seqFault)))) (a2 : Allows K (.one (.lane c))) (a3 : Allows K (.one (.reg (cluOff c Reg.plnJumpCnt)))) :
    Evolves K s (State.jumpGrant x c cycles) := by
  unfold State.jumpGrant
  repeat' (first | with_reducible refine fun _ => ?_ | lift_lets | (with_reducible intro y; first | (refine Evolves.cut (K := K) (s := s) (y := y) ?_ ?_ <;> first | (clear_value y; with_reducible intro hy) | simp -zeta -zetaHave only [y]) | (simp -zeta -zetaHave only [y]; clear y) | (clear_value y; clear y)) | with_reducible (first | exact h | assumption | apply State.jumpTake_changes | apply State.pause_changes | apply Evolves.ite) | (split))
  all_goals (with_reducible first | assumption)

theorem State.rtblWrite_changes {K : List Foot} {s x : State} (c) (w) (h : Evolves K s x) (a0 : Allows K (.one (.reg (chOff (16 * c + UWord.imm w % 16) Reg.tgScrStgLo + 4 * (UWord.imm w / 16 % 16 / 8))))) :
    Evolves K s (State.rtblWrite x c w) := by
  unfold State.rtblWrite
  repeat' (first | with_reducible refine fun _ => ?_ | with_reducible (first | exact h | apply State.setRespEntry_changes | apply Evolves.ite))
  all_goals (with_reducible first | assumption)

theorem State.routineBack_changes {K : List Foot} {s x : State} (c) (h : Evolves K s x) (a0 : Allows K (.one (.lane c))) :
    Evolves K s (State.routineBack x c) := by
  unfold State.routineBack
  repeat' (first | with_reducible refine fun _ => ?_ | lift_lets | (with_reducible intro y; first | (refine Evolves.cut (K := K) (s := s) (y := y) ?_ ?_ <;> first | (clear_value y; with_reducible intro hy) | simp -zeta -zetaHave only [y]) | (simp -zeta -zetaHave only [y]; clear y) | (clear_value y; clear y)) | with_reducible (first | exact h | assumption | apply State.modLane_changes | apply Evolves.ite) | (split))
  all_goals (with_reducible first | assumption)

theorem State.eccLost_changes {K : List Foot} {s x : State} (q) (h : Evolves K s x) (a0 : Allows K .events) (a1 : Allows K (.one (.reg Reg.memEccAddr))) (a2 : Allows K (.pair Reg.memFlags)) :
    Evolves K s (State.eccLost x q) := by
  unfold State.eccLost
  repeat' (first | with_reducible refine fun _ => ?_ | lift_lets | (with_reducible intro y; first | (refine Evolves.cut (K := K) (s := s) (y := y) ?_ ?_ <;> first | (clear_value y; with_reducible intro hy) | simp -zeta -zetaHave only [y]) | (simp -zeta -zetaHave only [y]; clear y) | (clear_value y; clear y)) | with_reducible (first | exact h | assumption | apply State.eccUncorr_changes) | (split))
  all_goals (with_reducible first | assumption | exact a0.vectorOfEvents | exact a0.logOfEvents | exact a0.evrPairOfEvents | exact a0.evrOfEvents | exact a0.vectorsOfEvents | exact a0.evrStatusOfEvents | exact a0.evrDropOfEvents | exact a0.evrCommitOfEvents | exact a0.evrLogOfEvents | exact a0.evrLogBseqOfEvents | exact a2.fst | exact a2.snd)

theorem State.eccCorrect_changes {K : List Foot} {s x : State} (q) (ecc) (h : Evolves K s x) (a0 : Allows K (.one (.reg Reg.memEccCnt))) (a1 : Allows K (.one (.reg (seqOff q Reg.seqEccCnt)))) (a2 : Allows K (.pair (seqOff q Reg.seqFlags))) :
    Evolves K s (State.eccCorrect x q ecc) := by
  unfold State.eccCorrect
  repeat' (first | with_reducible refine fun _ => ?_ | with_reducible (first | exact h | apply State.eccCorrected_changes | apply State.countF_changes | apply State.raise_changes | apply Evolves.ite) | (split))
  all_goals (with_reducible first | assumption | exact a2.fst | exact a2.snd)

theorem State.hold_changes {K : List Foot} {s x : State} (q) (why) (h : Evolves K s x) (a0 : Allows K (.one (.seq q))) :
    Evolves K s (State.hold x q why) := by
  unfold State.hold
  repeat' (first | with_reducible refine fun _ => ?_ | lift_lets | (with_reducible intro y; first | (refine Evolves.cut (K := K) (s := s) (y := y) ?_ ?_ <;> first | (clear_value y; with_reducible intro hy) | simp -zeta -zetaHave only [y]) | (simp -zeta -zetaHave only [y]; clear y) | (clear_value y; clear y)) | with_reducible (first | exact h | assumption | apply State.modSeq_changes))
  all_goals (with_reducible first | assumption)

theorem State.latchClr_changes {K : List Foot} {s x : State} (q) (imm) (h : Evolves K s x) (a0 : Allows K (.one .plan)) (a1 : Allows K (.one (.lane q))) :
    Evolves K s (State.latchClr x q imm) := by
  unfold State.latchClr
  try simp -zeta -zetaHave only [State.fold_plan]
  repeat' (first | with_reducible refine fun _ => ?_ | lift_lets | (with_reducible intro y; first | (refine Evolves.cut (K := K) (s := s) (y := y) ?_ ?_ <;> first | (clear_value y; with_reducible intro hy) | simp -zeta -zetaHave only [y]) | (simp -zeta -zetaHave only [y]; clear y) | (clear_value y; clear y)) | with_reducible (first | exact h | assumption | apply State.modLane_changes | apply State.putPlan_changes | apply Evolves.ite) | (split))
  all_goals (with_reducible first | assumption)

theorem State.lastCycle_changes {K : List Foot} {s x : State} (q) (w) (h : Evolves K s x) (a0 : Allows K (.one .plan)) (a1 : Allows K (.one (.lane q))) (a2 : Allows K (.one (.seq q))) :
    Evolves K s (State.lastCycle x q w) := by
  unfold State.lastCycle
  repeat' (first | with_reducible refine fun _ => ?_ | lift_lets | (with_reducible intro y; first | (refine Evolves.cut (K := K) (s := s) (y := y) ?_ ?_ <;> first | (clear_value y; with_reducible intro hy) | simp -zeta -zetaHave only [y]) | (simp -zeta -zetaHave only [y]; clear y) | (clear_value y; clear y)) | with_reducible (first | exact h | assumption | apply State.latchClr_changes | apply State.modSeq_changes | apply Evolves.ite) | (split))
  all_goals (with_reducible first | assumption)

theorem State.planStart_changes {K : List Foot} {s x : State} (h : Evolves K s x) (a0 : Allows K (.one .plan)) (a1 : Allows K (.regs Reg.flSiteFail (Reg.flSiteFail + 1024))) (a2 : Allows K (.regs Reg.flFirst (Reg.flFirst + 2048))) :
    Evolves K s (State.planStart x) := by
  unfold State.planStart
  refine Evolves.ite (fun _ => h) (fun _ => Evolves.foldl_mem (fun t k hk ht => ?_) (State.putPlan_changes _ h a0))
  have hk' := List.mem_range.mp hk
  refine Evolves.foldl_mem (fun u i hi hu => ?_) ?_
  · have hi' := List.mem_range.mp hi
    exact State.wr_changes _ _ hu (a2.inRegs (by unfold Reg.flFirst; omega))
  · refine State.wrB_changes _ _ _ (State.wr_changes _ _ (State.wr_changes _ _ ht ?_) ?_) ?_ <;>
      exact a1.inRegs (by unfold Reg.flSiteFail; first | omega | (unfold Reg.flSiteIndet; omega) | (unfold Reg.flSiteStatus; omega))

theorem State.lstart_changes {K : List Foot} {s x : State} (w) (h : Evolves K s x) (a0 : Allows K (.one (.reg Reg.plnState))) (a1 : Allows K .lanes) (a2 : Allows K (.one .plan)) (a3 : Allows K (.regs Reg.flSiteFail (Reg.flSiteFail + 1024))) (a4 : Allows K (.regs Reg.flFirst (Reg.flFirst + 2048))) (a5 : Allows K (.one .cwy)) :
    Evolves K s (State.lstart x w) := by
  unfold State.lstart
  try simp -zeta -zetaHave only [State.fold_plan]
  repeat' (first | with_reducible refine fun _ => ?_ | lift_lets | (with_reducible intro y; first | (refine Evolves.cut (K := K) (s := s) (y := y) ?_ ?_ <;> first | (clear_value y; with_reducible intro hy) | simp -zeta -zetaHave only [y]) | (simp -zeta -zetaHave only [y]; clear y) | (clear_value y; clear y)) | with_reducible (first | exact h | assumption | apply State.wrF_changes | apply State.modLane_changes | apply State.planStart_changes | apply State.sendMsgQ_changes | apply State.putPlan_changes | apply Evolves.ite | apply Evolves.foldl) | (split))
  all_goals (with_reducible first | assumption | exact a1.laneOf | exact a3.inRegs (by decide) | exact a3.pairInRegs (by decide) | exact a3.regsInRegs (by decide) | exact a4.inRegs (by decide) | exact a4.pairInRegs (by decide) | exact a4.regsInRegs (by decide))

theorem State.evpPost_changes {K : List Foot} {s x : State} (q) (pc) (w) (h : Evolves K s x) (a0 : Allows K .events) :
    Evolves K s (State.evpPost x q pc w) := by
  unfold State.evpPost
  repeat' (first | with_reducible refine fun _ => ?_ | with_reducible (first | exact h | apply State.post_changes | apply Evolves.ite))
  all_goals (with_reducible first | assumption | exact a0.vectorOfEvents | exact a0.logOfEvents | exact a0.evrPairOfEvents | exact a0.evrOfEvents | exact a0.vectorsOfEvents | exact a0.evrStatusOfEvents | exact a0.evrDropOfEvents | exact a0.evrCommitOfEvents | exact a0.evrLogOfEvents | exact a0.evrLogBseqOfEvents)

theorem State.streamOne_changes {K : List Foot} {s x : State} (c) (lost) (h : Evolves K s x) (a0 : Allows K .events) (a1 : Allows K (.one (.reg Reg.memEccAddr))) (a2 : Allows K (.pair Reg.memFlags)) (a3 : Allows K .seqs) (a4 : Allows K (.one .plan)) (a5 : Allows K .lanes) (a6 : Allows K (.one (.reg Reg.plnState))) (a7 : Allows K (.pair (cluOff c Reg.plnFlags))) :
    Evolves K s (State.streamOne x c lost) := by
  unfold State.streamOne
  repeat' (first | with_reducible refine fun _ => ?_ | lift_lets | (with_reducible intro y; first | (refine Evolves.cut (K := K) (s := s) (y := y) ?_ ?_ <;> first | (clear_value y; with_reducible intro hy) | simp -zeta -zetaHave only [y]) | (simp -zeta -zetaHave only [y]; clear y) | (clear_value y; clear y)) | with_reducible (first | exact h | assumption | apply State.setLane_changes | apply State.eccUncorr_changes | apply State.underrunAbort_changes | apply Evolves.ite) | (split))
  all_goals (with_reducible first | assumption | exact a0.vectorOfEvents | exact a0.logOfEvents | exact a0.evrPairOfEvents | exact a0.evrOfEvents | exact a0.vectorsOfEvents | exact a0.evrStatusOfEvents | exact a0.evrDropOfEvents | exact a0.evrCommitOfEvents | exact a0.evrLogOfEvents | exact a0.evrLogBseqOfEvents | exact a2.fst | exact a2.snd | exact a3.seqOf | exact a5.laneOf | exact a7.fst | exact a7.snd)

theorem State.genPost_changes {K : List Foot} {s x : State} (c) (w) (h : Evolves K s x) (a0 : Allows K (.one (.lane c))) (a1 : Allows K (.one (.seq c))) :
    Evolves K s (State.genPost x c w) := by
  unfold State.genPost
  repeat' (first | with_reducible refine fun _ => ?_ | lift_lets | (with_reducible intro y; first | (refine Evolves.cut (K := K) (s := s) (y := y) ?_ ?_ <;> first | (clear_value y; with_reducible intro hy) | simp -zeta -zetaHave only [y]) | (simp -zeta -zetaHave only [y]; clear y) | (clear_value y; clear y)) | with_reducible (first | exact h | assumption | apply State.setLane_changes | apply State.setSeq_changes | apply Evolves.ite | apply Evolves.foldl) | (split))
  all_goals (with_reducible first | assumption)

theorem State.ddsOne_changes {K : List Foot} {s x : State} (c) (h : Evolves K s x) (a0 : Allows K (.one (.reg (cluOff c Reg.ddsStatus)))) (a1 : Allows K (.one (.lane c))) :
    Evolves K s (State.ddsOne x c) := by
  unfold State.ddsOne
  repeat' (first | with_reducible refine fun _ => ?_ | lift_lets | (with_reducible intro y; first | (refine Evolves.cut (K := K) (s := s) (y := y) ?_ ?_ <;> first | (clear_value y; with_reducible intro hy) | simp -zeta -zetaHave only [y]) | (simp -zeta -zetaHave only [y]; clear y) | (clear_value y; clear y)) | with_reducible (first | exact h | assumption | apply State.wrB_changes | apply State.setLane_changes | apply Evolves.ite) | (split))
  all_goals (with_reducible first | assumption)

theorem State.ddsGoPost_changes {K : List Foot} {s x : State} (c) (vcnt) (h : Evolves K s x) (a0 : Allows K (.one (.reg (cluOff c Reg.ddsStatus)))) (a1 : Allows K (.one (.lane c))) :
    Evolves K s (State.ddsGoPost x c vcnt) := by
  unfold State.ddsGoPost
  repeat' (first | with_reducible refine fun _ => ?_ | with_reducible (first | exact h | assumption | apply State.times_changes | apply State.ddsOne_changes | apply State.wrB_changes | apply Evolves.ite))
  all_goals (with_reducible first | assumption)

theorem State.vopPost_changes {K : List Foot} {s x : State} (c) (w) (lost) (h : Evolves K s x) (a0 : Allows K .events) (a1 : Allows K (.one (.reg Reg.memEccAddr))) (a2 : Allows K (.pair Reg.memFlags)) (a3 : Allows K .seqs) (a4 : Allows K (.one .plan)) (a5 : Allows K .lanes) (a6 : Allows K (.one (.reg Reg.plnState))) (a7 : Allows K (.pair (cluOff c Reg.plnFlags))) (a8 : Allows K (.one (.reg (cluOff c Reg.ddsStatus)))) :
    Evolves K s (State.vopPost x c w lost) := by
  unfold State.vopPost
  repeat' (first | with_reducible refine fun _ => ?_ | with_reducible (first | exact h | assumption | apply State.times_changes | apply State.streamOne_changes | apply State.genPost_changes | apply State.modLane_changes | apply State.ddsGoPost_changes) | (split))
  all_goals (with_reducible first | assumption | exact a0.vectorOfEvents | exact a0.logOfEvents | exact a0.evrPairOfEvents | exact a0.evrOfEvents | exact a0.vectorsOfEvents | exact a0.evrStatusOfEvents | exact a0.evrDropOfEvents | exact a0.evrCommitOfEvents | exact a0.evrLogOfEvents | exact a0.evrLogBseqOfEvents | exact a2.fst | exact a2.snd | exact a3.seqOf | exact a5.laneOf | exact a7.fst | exact a7.snd)

theorem State.markers_changes {K : List Foot} {s x : State} (c) (w) (h : Evolves K s x) (a0 : Allows K (.one (.lane c))) :
    Evolves K s (State.markers x c w) := by
  unfold State.markers
  repeat' (first | with_reducible refine fun _ => ?_ | lift_lets | (with_reducible intro y; first | (refine Evolves.cut (K := K) (s := s) (y := y) ?_ ?_ <;> first | (clear_value y; with_reducible intro hy) | simp -zeta -zetaHave only [y]) | (simp -zeta -zetaHave only [y]; clear y) | (clear_value y; clear y)) | with_reducible (first | exact h | assumption | apply State.modLane_changes | apply Evolves.ite))
  all_goals (with_reducible first | assumption)

theorem State.firstCycle_changes {K : List Foot} {s x : State} (q) (w) (lost) (h : Evolves K s x) (a0 : Allows K (.one (.clu q))) (a1 : Allows K .events) (a2 : Allows K (.one (.reg Reg.memEccAddr))) (a3 : Allows K (.pair Reg.memFlags)) (a4 : Allows K .seqs) (a5 : Allows K (.one .plan)) (a6 : Allows K .lanes) (a7 : Allows K (.one (.reg Reg.plnState))) (a8 : Allows K (.pair (cluOff q Reg.plnFlags))) (a9 : Allows K (.one (.reg (cluOff q Reg.ddsStatus)))) (a10 : Allows K (.one (.reg (chOff (16 * q + UWord.imm w % 16) Reg.tgScrStgLo + 4 * (UWord.imm w / 16 % 16 / 8))))) :
    Evolves K s (State.firstCycle x q w lost) := by
  unfold State.firstCycle
  repeat' (first | with_reducible refine fun _ => ?_ | lift_lets | (with_reducible intro y; first | (refine Evolves.cut (K := K) (s := s) (y := y) ?_ ?_ <;> first | (clear_value y; with_reducible intro hy) | simp -zeta -zetaHave only [y]) | (simp -zeta -zetaHave only [y]; clear y) | (clear_value y; clear y)) | with_reducible (first | exact h | assumption | apply State.modSeq_changes | apply State.acqIn_changes | apply State.evpPost_changes | apply State.vopPost_changes | apply State.rtblWrite_changes | apply State.markers_changes | apply Evolves.ite) | (split))
  all_goals (with_reducible first | assumption | exact a1.vectorOfEvents | exact a1.logOfEvents | exact a1.evrPairOfEvents | exact a1.evrOfEvents | exact a1.vectorsOfEvents | exact a1.evrStatusOfEvents | exact a1.evrDropOfEvents | exact a1.evrCommitOfEvents | exact a1.evrLogOfEvents | exact a1.evrLogBseqOfEvents | exact a3.fst | exact a3.snd | exact a4.seqOf | exact a6.laneOf | exact a8.fst | exact a8.snd)

theorem State.execCycles_changes {K : List Foot} {s x : State} (q) (w) (h : Evolves K s x) (a0 : Allows K (.one .freeCtr)) :
    Evolves K s (State.execCycles x q w).2 := by
  unfold State.execCycles
  try simp -zeta -zetaHave only [State.fold_freeCtr]
  repeat' (first | with_reducible refine fun _ => ?_ | lift_lets | (with_reducible intro y; first | (refine Evolves.cut (K := K) (s := s) (y := y) ?_ ?_ <;> first | (clear_value y; with_reducible intro hy) | simp -zeta -zetaHave only [y]) | (simp -zeta -zetaHave only [y]; clear y) | (clear_value y; clear y)) | with_reducible (first | exact h | apply State.putFreeCtr_changes) | (split))
  all_goals (with_reducible first | assumption)

theorem State.callPush_changes {K : List Foot} {s x : State} (q) (w) (h : Evolves K s x) (a0 : Allows K (.one (.seq q))) (a1 : Allows K (.one (.reg (seqOff q Reg.seqFault)))) (a2 : Allows K (.one (.lane q))) :
    Evolves K s (State.callPush x q w) := by
  unfold State.callPush
  repeat' (first | with_reducible refine fun _ => ?_ | lift_lets | (with_reducible intro y; first | (refine Evolves.cut (K := K) (s := s) (y := y) ?_ ?_ <;> first | (clear_value y; with_reducible intro hy) | simp -zeta -zetaHave only [y]) | (simp -zeta -zetaHave only [y]; clear y) | (clear_value y; clear y)) | with_reducible (first | exact h | assumption | apply State.raiseFault_changes | apply State.modLane_changes | apply State.setSeq_changes | apply Evolves.ite) | (split))
  all_goals (with_reducible first | assumption)

theorem State.atGranule_changes {K : List Foot} {s x : State} (c) (h : Evolves K s x) (a0 : Allows K (.one (.lane c))) :
    Evolves K s (State.atGranule x c) := by
  unfold State.atGranule
  repeat' (first | with_reducible refine fun _ => ?_ | lift_lets | (with_reducible intro y; first | (refine Evolves.cut (K := K) (s := s) (y := y) ?_ ?_ <;> first | (clear_value y; with_reducible intro hy) | simp -zeta -zetaHave only [y]) | (simp -zeta -zetaHave only [y]; clear y) | (clear_value y; clear y)) | with_reducible (first | exact h | assumption | apply State.modLane_changes))
  all_goals (with_reducible first | assumption)

theorem State.retPop_changes {K : List Foot} {s x : State} (q) (h : Evolves K s x) (a0 : Allows K (.one (.seq q))) (a1 : Allows K (.one (.reg (seqOff q Reg.seqFault)))) (a2 : Allows K (.one (.lane q))) :
    Evolves K s (State.retPop x q) := by
  unfold State.retPop
  repeat' (first | with_reducible refine fun _ => ?_ | lift_lets | (with_reducible intro y; first | (refine Evolves.cut (K := K) (s := s) (y := y) ?_ ?_ <;> first | (clear_value y; with_reducible intro hy) | simp -zeta -zetaHave only [y]) | (simp -zeta -zetaHave only [y]; clear y) | (clear_value y; clear y)) | with_reducible (first | exact h | assumption | apply State.raiseFault_changes | apply State.atGranule_changes | apply State.routineBack_changes | apply State.setSeq_changes | apply Evolves.ite) | (split))
  all_goals (with_reducible first | assumption)

theorem State.brel_changes {K : List Foot} {s x : State} (w) (h : Evolves K s x) (a0 : Allows K .seqs) :
    Evolves K s (State.brel x w) := by
  unfold State.brel
  repeat' (first | with_reducible refine fun _ => ?_ | lift_lets | (with_reducible intro y; first | (refine Evolves.cut (K := K) (s := s) (y := y) ?_ ?_ <;> first | (clear_value y; with_reducible intro hy) | simp -zeta -zetaHave only [y]) | (simp -zeta -zetaHave only [y]; clear y) | (clear_value y; clear y)) | with_reducible (first | exact h | assumption | apply State.modSeq_changes | apply Evolves.ite | apply Evolves.foldl) | (split))
  all_goals (with_reducible first | assumption | exact a0.seqOf)

theorem State.classAct_changes {K : List Foot} {s x : State} (e) (q) (w) (h : Evolves K s x) (a0 : Allows K (.one (.reg (seqOff q Reg.seqFault)))) (a1 : Allows K (.one (.lane q))) (a2 : Allows K .seqs) :
    Evolves K s (State.classAct e x q w) := by
  unfold State.classAct
  repeat' (first | with_reducible refine fun _ => ?_ | lift_lets | (with_reducible intro y; first | (refine Evolves.cut (K := K) (s := s) (y := y) ?_ ?_ <;> first | (clear_value y; with_reducible intro hy) | simp -zeta -zetaHave only [y]) | (simp -zeta -zetaHave only [y]; clear y) | (clear_value y; clear y)) | with_reducible (first | exact h | assumption | apply State.setSeq_changes | apply State.callPush_changes | apply State.retPop_changes | apply State.anyEnd_changes | apply State.setLane_changes | apply State.stopLanes_changes | apply State.brel_changes | apply Evolves.ite) | (split))
  all_goals (with_reducible first | assumption | exact a2.seqOf)

theorem State.execute_changes {K : List Foot} {s x : State} (q) (w) (lost) (h : Evolves K s x) (a0 : Allows K (.one .plan)) (a1 : Allows K (.one .cwy)) (a2 : Allows K (.one (.reg Reg.plnState))) (a3 : Allows K .lanes) (a4 : Allows K (.regs Reg.flSiteFail (Reg.flSiteFail + 1024))) (a5 : Allows K (.regs Reg.flFirst (Reg.flFirst + 2048))) (a6 : Allows K (.one (.clu q))) (a7 : Allows K .events) (a8 : Allows K (.one (.reg Reg.memEccAddr))) (a9 : Allows K (.pair Reg.memFlags)) (a10 : Allows K .seqs) (a11 : Allows K (.pair (cluOff q Reg.plnFlags))) (a12 : Allows K (.one (.reg (cluOff q Reg.ddsStatus)))) (a13 : Allows K (.one (.reg (chOff (16 * q + UWord.imm w % 16) Reg.tgScrStgLo + 4 * (UWord.imm w / 16 % 16 / 8))))) (a14 : Allows K (.one .freeCtr)) (a15 : Allows K (.one (.reg (seqOff q Reg.seqFault)))) :
    Evolves K s (State.execute x q w lost) := by
  unfold State.execute
  repeat' (first | with_reducible refine fun _ => ?_ | lift_lets | (with_reducible intro y; first | (refine Evolves.cut (K := K) (s := s) (y := y) ?_ ?_ <;> first | (clear_value y; with_reducible intro hy) | simp -zeta -zetaHave only [y]) | (simp -zeta -zetaHave only [y]; clear y) | (clear_value y; clear y)) | with_reducible (first | exact h | assumption | apply State.lastCycle_changes | apply State.sendMsgQ_changes | apply State.lstart_changes | apply State.firstCycle_changes | apply State.addCyc_changes | apply State.execCycles_changes | apply State.modSeq_changes | apply State.classAct_changes | apply State.atGranule_changes | apply Evolves.ite) | (split))
  all_goals (with_reducible first | assumption | exact a3.laneOf | exact a4.inRegs (by decide) | exact a4.pairInRegs (by decide) | exact a4.regsInRegs (by decide) | exact a5.inRegs (by decide) | exact a5.pairInRegs (by decide) | exact a5.regsInRegs (by decide) | exact a7.vectorOfEvents | exact a7.logOfEvents | exact a7.evrPairOfEvents | exact a7.evrOfEvents | exact a7.vectorsOfEvents | exact a7.evrStatusOfEvents | exact a7.evrDropOfEvents | exact a7.evrCommitOfEvents | exact a7.evrLogOfEvents | exact a7.evrLogBseqOfEvents | exact a9.fst | exact a9.snd | exact a10.seqOf | exact a11.fst | exact a11.snd)

theorem State.run1_changes {K : List Foot} {s x : State} (q) (opc) (ecc) (h : Evolves K s x) (a0 : Allows K (.one (.reg (seqOff q Reg.seqFault)))) (a1 : Allows K .events) (a2 : Allows K (.one (.reg Reg.memEccAddr))) (a3 : Allows K (.pair Reg.memFlags)) (a4 : Allows K (.one (.reg Reg.memEccCnt))) (a5 : Allows K (.one (.reg (seqOff q Reg.seqEccCnt)))) (a6 : Allows K (.pair (seqOff q Reg.seqFlags))) (a7 : Allows K .seqs) (a8 : Allows K (.one .plan)) (a9 : Allows K .lanes) (a10 : Allows K (.one (.reg Reg.plnState))) (a11 : Allows K (.one .cwy)) (a12 : Allows K (.regs Reg.flSiteFail (Reg.flSiteFail + 1024))) (a13 : Allows K (.regs Reg.flFirst (Reg.flFirst + 2048))) (a14 : Allows K (.one (.clu q))) (a15 : Allows K (.pair (cluOff q Reg.plnFlags))) (a16 : Allows K (.one (.reg (cluOff q Reg.ddsStatus)))) (a17 : Allows K (.one .freeCtr)) (a18 : Allows K (.chRegs Reg.tgScrStgLo (Reg.tgScrStgLo + 8))) :
    Evolves K s (State.run1 x q opc ecc) := by
  unfold State.run1
  repeat' (first | with_reducible refine fun _ => ?_ | lift_lets | (with_reducible intro y; first | (refine Evolves.cut (K := K) (s := s) (y := y) ?_ ?_ <;> first | (clear_value y; with_reducible intro hy) | simp -zeta -zetaHave only [y]) | (simp -zeta -zetaHave only [y]; clear y) | (clear_value y; clear y)) | with_reducible (first | exact h | assumption | apply State.raiseFault_changes | apply State.eccLost_changes | apply State.eccCorrect_changes | apply State.hold_changes | apply State.tablesLost_changes | apply State.execute_changes | apply Evolves.ite) | (split))
  all_goals (with_reducible first | assumption | exact a1.vectorOfEvents | exact a1.logOfEvents | exact a1.evrPairOfEvents | exact a1.evrOfEvents | exact a1.vectorsOfEvents | exact a1.evrStatusOfEvents | exact a1.evrDropOfEvents | exact a1.evrCommitOfEvents | exact a1.evrLogOfEvents | exact a1.evrLogBseqOfEvents | exact a3.fst | exact a3.snd | exact a6.fst | exact a6.snd | exact a7.seqOf | exact a9.laneOf | exact a12.inRegs (by decide) | exact a12.pairInRegs (by decide) | exact a12.regsInRegs (by decide) | exact a13.inRegs (by decide) | exact a13.pairInRegs (by decide) | exact a13.regsInRegs (by decide) | exact a15.fst | exact a15.snd | exact a18.regsCh (by decide) | exact a18.ofChRegs (by decide) | exact a18.ofChRegsAdd (by unfold Reg.tgScrStgLo; omega))

theorem State.timerExpire_changes {K : List Foot} {s x : State} (q) (h : Evolves K s x) (a0 : Allows K (.one (.seq q))) :
    Evolves K s (State.timerExpire x q) := by
  unfold State.timerExpire
  repeat' (first | with_reducible refine fun _ => ?_ | lift_lets | (with_reducible intro y; first | (refine Evolves.cut (K := K) (s := s) (y := y) ?_ ?_ <;> first | (clear_value y; with_reducible intro hy) | simp -zeta -zetaHave only [y]) | (simp -zeta -zetaHave only [y]; clear y) | (clear_value y; clear y)) | with_reducible (first | exact h | assumption | apply State.setSeq_changes | apply Evolves.ite) | (split))
  all_goals (with_reducible first | assumption)

theorem State.holdRelease_changes {K : List Foot} {s x : State} (q) (cycles) (h : Evolves K s x) (a0 : Allows K (.one (.seq q))) :
    Evolves K s (State.holdRelease x q cycles) := by
  unfold State.holdRelease
  repeat' (first | with_reducible refine fun _ => ?_ | lift_lets | (with_reducible intro y; first | (refine Evolves.cut (K := K) (s := s) (y := y) ?_ ?_ <;> first | (clear_value y; with_reducible intro hy) | simp -zeta -zetaHave only [y]) | (simp -zeta -zetaHave only [y]; clear y) | (clear_value y; clear y)) | with_reducible (first | exact h | assumption | apply State.addCyc_changes | apply State.setSeq_changes | apply Evolves.ite) | (split))
  all_goals (with_reducible first | assumption)

theorem State.waitTimeout_changes {K : List Foot} {s x : State} (q) (h : Evolves K s x) (a0 : Allows K .events) (a1 : Allows K (.pair (seqOff q Reg.seqFlags))) (a2 : Allows K (.one (.seq q))) :
    Evolves K s (State.waitTimeout x q) := by
  unfold State.waitTimeout
  repeat' (first | with_reducible refine fun _ => ?_ | lift_lets | (with_reducible intro y; first | (refine Evolves.cut (K := K) (s := s) (y := y) ?_ ?_ <;> first | (clear_value y; with_reducible intro hy) | simp -zeta -zetaHave only [y]) | (simp -zeta -zetaHave only [y]; clear y) | (clear_value y; clear y)) | with_reducible (first | exact h | assumption | apply State.post_changes | apply State.raise_changes | apply State.addCyc_changes | apply State.setSeq_changes | apply Evolves.ite) | (split))
  all_goals (with_reducible first | assumption | exact a0.vectorOfEvents | exact a0.logOfEvents | exact a0.evrPairOfEvents | exact a0.evrOfEvents | exact a0.vectorsOfEvents | exact a0.evrStatusOfEvents | exact a0.evrDropOfEvents | exact a0.evrCommitOfEvents | exact a0.evrLogOfEvents | exact a0.evrLogBseqOfEvents | exact a1.fst | exact a1.snd)

theorem State.condMet_changes {K : List Foot} {s x : State} (q) (cycles) (h : Evolves K s x) (a0 : Allows K (.one (.seq q))) :
    Evolves K s (State.condMet x q cycles) := by
  unfold State.condMet
  repeat' (first | with_reducible refine fun _ => ?_ | lift_lets | (with_reducible intro y; first | (refine Evolves.cut (K := K) (s := s) (y := y) ?_ ?_ <;> first | (clear_value y; with_reducible intro hy) | simp -zeta -zetaHave only [y]) | (simp -zeta -zetaHave only [y]; clear y) | (clear_value y; clear y)) | with_reducible (first | exact h | assumption | apply State.addCyc_changes | apply State.setSeq_changes | apply Evolves.ite) | (split))
  all_goals (with_reducible first | assumption)

theorem State.faultHandler_changes {K : List Foot} {s x : State} (q) (h : Evolves K s x) (a0 : Allows K .seqs) (a1 : Allows K (.one .plan)) (a2 : Allows K .lanes) (a3 : Allows K (.one (.reg Reg.plnState))) (a4 : Allows K .events) (a5 : Allows K (.pair (seqOff q Reg.seqFlags))) :
    Evolves K s (State.faultHandler x q) := by
  unfold State.faultHandler
  try simp -zeta -zetaHave only [State.fold_plan]
  repeat' (first | with_reducible refine fun _ => ?_ | lift_lets | (with_reducible intro y; first | (refine Evolves.cut (K := K) (s := s) (y := y) ?_ ?_ <;> first | (clear_value y; with_reducible intro hy) | simp -zeta -zetaHave only [y]) | (simp -zeta -zetaHave only [y]; clear y) | (clear_value y; clear y)) | with_reducible (first | exact h | assumption | apply State.masterEnd_changes | apply State.planStop_changes | apply State.anyEnd_changes | apply State.post_changes | apply State.raise_changes | apply State.putPlan_changes | apply Evolves.ite) | (split))
  all_goals (with_reducible first | assumption | exact a0.seqOf | exact a2.laneOf | exact a4.vectorOfEvents | exact a4.logOfEvents | exact a4.evrPairOfEvents | exact a4.evrOfEvents | exact a4.vectorsOfEvents | exact a4.evrStatusOfEvents | exact a4.evrDropOfEvents | exact a4.evrCommitOfEvents | exact a4.evrLogOfEvents | exact a4.evrLogBseqOfEvents | exact a5.fst | exact a5.snd)

theorem State.acceptDue_changes {K : List Foot} {s x : State} (q) (h : Evolves K s x) (a0 : Allows K .seqs) (a1 : Allows K (.one .plan)) (a2 : Allows K .lanes) (a3 : Allows K (.one (.reg Reg.plnState))) (a4 : Allows K .events) (a5 : Allows K (.pair (seqOff q Reg.seqFlags))) (a6 : Allows K (.one (.reg (seqOff q Reg.seqFault)))) :
    Evolves K s (State.acceptDue x q) := by
  unfold State.acceptDue
  repeat' (first | with_reducible refine fun _ => ?_ | lift_lets | (with_reducible intro y; first | (refine Evolves.cut (K := K) (s := s) (y := y) ?_ ?_ <;> first | (clear_value y; with_reducible intro hy) | simp -zeta -zetaHave only [y]) | (simp -zeta -zetaHave only [y]; clear y) | (clear_value y; clear y)) | with_reducible (first | exact h | assumption | apply State.modSeq_changes | apply State.addCyc_changes | apply State.setSeq_changes | apply State.faultHandler_changes | apply State.raiseFault_changes | apply State.enterHandler_changes | apply State.modLane_changes | apply State.stopHandler_changes | apply Evolves.ite) | (split))
  all_goals (with_reducible first | assumption | exact a0.seqOf | exact a2.laneOf | exact a4.vectorOfEvents | exact a4.logOfEvents | exact a4.evrPairOfEvents | exact a4.evrOfEvents | exact a4.vectorsOfEvents | exact a4.evrStatusOfEvents | exact a4.evrDropOfEvents | exact a4.evrCommitOfEvents | exact a4.evrLogOfEvents | exact a4.evrLogBseqOfEvents | exact a5.fst | exact a5.snd)

theorem State.accept_changes {K : List Foot} {s x : State} (q) (cycles) (h : Evolves K s x) (a0 : Allows K .seqs) (a1 : Allows K (.one .plan)) (a2 : Allows K .lanes) (a3 : Allows K (.one (.reg Reg.plnState))) (a4 : Allows K .events) (a5 : Allows K (.pair (seqOff q Reg.seqFlags))) (a6 : Allows K (.one (.reg (seqOff q Reg.seqFault)))) :
    Evolves K s (State.accept x q cycles) := by
  unfold State.accept
  repeat' (first | with_reducible refine fun _ => ?_ | with_reducible (first | exact h | apply State.acceptDue_changes | apply State.pause_changes | apply Evolves.ite))
  all_goals (with_reducible first | assumption | exact a0.seqOf | exact a2.laneOf | exact a4.vectorOfEvents | exact a4.logOfEvents | exact a4.evrPairOfEvents | exact a4.evrOfEvents | exact a4.vectorsOfEvents | exact a4.evrStatusOfEvents | exact a4.evrDropOfEvents | exact a4.evrCommitOfEvents | exact a4.evrLogOfEvents | exact a4.evrLogBseqOfEvents | exact a5.fst | exact a5.snd)


end Sys2Proof.Machine
end

