-- ==== Sys2Proof/Laws/FrameMemories.lean ====
section
/-! SUPPORT. What each operation of Machine/Memories.lean can change: from a state that has changed only parts of the footprint `K`,
the operation changes only parts of `K`, where `K` allows the operation's own footprint. -/

set_option Elab.async false
set_option linter.all false

namespace Sys2Proof.Machine

theorem State.bgEnd_changes {K : List Foot} {s x : State} (op) (st) (detail) (h : Evolves K s x) (a0 : Allows K .completion) :
    Evolves K s (State.bgEnd x op st detail) := by
  unfold State.bgEnd
  try simp -zeta -zetaHave only [State.fold_hst]
  repeat' (first | with_reducible refine fun _ => ?_ | lift_lets | (with_reducible intro y; first | (refine Evolves.cut (K := K) (s := s) (y := y) ?_ ?_ <;> first | (clear_value y; with_reducible intro hy) | simp -zeta -zetaHave only [y]) | (simp -zeta -zetaHave only [y]; clear y) | (clear_value y; clear y)) | with_reducible (first | exact h | assumption | apply State.complete_changes | apply State.putHst_rings | apply Evolves.foldl) | (split))
  all_goals (with_reducible first | assumption | exact a0.vectorOfCompletion | exact a0.ringsOfCompletion | exact a0.hostMemOfCompletion | exact a0.vectorsOfCompletion | exact a0.cplTailOfCompletion | exact a0.cplDropOfCompletion)

theorem State.lineAcquire_changes {K : List Foot} {s x : State} (n) (h : Evolves K s x) (a0 : Allows K (.one (.reg (chOff n Reg.tiaLine)))) (a1 : Allows K .chans) :
    Evolves K s (State.lineAcquire x n) := by
  unfold State.lineAcquire
  repeat' (first | with_reducible refine fun _ => ?_ | with_reducible (first | exact h | assumption | apply State.wrF_changes | apply State.uniform_changes | apply Evolves.foldl))
  all_goals (with_reducible first | assumption | exact a1.chanOf)

theorem State.wake_changes {K : List Foot} {s x : State} (c) (h : Evolves K s x) (a0 : Allows K (.chReg Reg.tiaLine)) (a1 : Allows K .chans) (a2 : Allows K (.one (.reg Reg.memRetWakes))) (a3 : Allows K (.one (.reg Reg.memRetState))) :
    Evolves K s (State.wake x c) := by
  unfold State.wake
  repeat' (first | with_reducible refine fun _ => ?_ | with_reducible (first | exact h | assumption | apply State.lineAcquire_changes | apply State.count_changes | apply State.wrB_changes | apply Evolves.ite | apply Evolves.foldl))
  all_goals (with_reducible first | assumption | exact a0.ofCh (by decide) | exact a1.chanOf)

theorem State.timingCopy_changes {K : List Foot} {s x : State} (m) (read) (r) (h : Evolves K s x) (a0 : Allows K (.one (.reg Reg.memEccCnt))) (a1 : Allows K .events) (a2 : Allows K (.one (.reg Reg.memEccAddr))) (a3 : Allows K (.pair Reg.memFlags)) :
    Evolves K s (State.timingCopy x m read r) := by
  unfold State.timingCopy
  repeat' (first | with_reducible refine fun _ => ?_ | with_reducible (first | exact h | apply State.eccCorrected_changes | apply State.eccUncorr_changes | apply Evolves.ite) | (split))
  all_goals (with_reducible first | assumption | exact a1.vectorOfEvents | exact a1.logOfEvents | exact a1.evrPairOfEvents | exact a1.evrOfEvents | exact a1.vectorsOfEvents | exact a1.evrStatusOfEvents | exact a1.evrDropOfEvents | exact a1.evrCommitOfEvents | exact a1.evrLogOfEvents | exact a1.evrLogBseqOfEvents | exact a3.fst | exact a3.snd)

theorem State.bgStart_changes {K : List Foot} {s x : State} (c) (h : Evolves K s x) (a0 : Allows K (.one .rings)) :
    Evolves K s (State.bgStart x c) := by
  unfold State.bgStart
  try simp -zeta -zetaHave only [State.fold_hst]
  repeat' (first | with_reducible refine fun _ => ?_ | lift_lets | (with_reducible intro y; first | (refine Evolves.cut (K := K) (s := s) (y := y) ?_ ?_ <;> first | (clear_value y; with_reducible intro hy) | simp -zeta -zetaHave only [y]) | (simp -zeta -zetaHave only [y]; clear y) | (clear_value y; clear y)) | with_reducible (first | exact h | apply State.putHst_rings))
  all_goals (with_reducible first | assumption)

theorem State.marchEnd_changes {K : List Foot} {s x : State} (h : Evolves K s x) (a0 : Allows K .completion) (a1 : Allows K .events) (a2 : Allows K (.one (.reg Reg.memStatus))) (a3 : Allows K (.one .march)) :
    Evolves K s (State.marchEnd x) := by
  unfold State.marchEnd
  try simp -zeta -zetaHave only [State.fold_mem]
  repeat' (first | with_reducible refine fun _ => ?_ | lift_lets | (with_reducible intro y; first | (refine Evolves.cut (K := K) (s := s) (y := y) ?_ ?_ <;> first | (clear_value y; with_reducible intro hy) | simp -zeta -zetaHave only [y]) | (simp -zeta -zetaHave only [y]; clear y) | (clear_value y; clear y)) | with_reducible (first | exact h | assumption | apply State.bgEnd_changes | apply State.post_changes | apply State.wrF_changes | apply State.putMem_march | apply Evolves.ite) | (split))
  all_goals (with_reducible first | assumption | exact a0.vectorOfCompletion | exact a0.ringsOfCompletion | exact a0.hostMemOfCompletion | exact a0.vectorsOfCompletion | exact a0.cplTailOfCompletion | exact a0.cplDropOfCompletion | exact a1.vectorOfEvents | exact a1.logOfEvents | exact a1.evrPairOfEvents | exact a1.evrOfEvents | exact a1.vectorsOfEvents | exact a1.evrStatusOfEvents | exact a1.evrDropOfEvents | exact a1.evrCommitOfEvents | exact a1.evrLogOfEvents | exact a1.evrLogBseqOfEvents)

theorem State.cmdMarch_changes {K : List Foot} {s x : State} (h : Evolves K s x) (a0 : Allows K .completion) (a1 : Allows K .events) (a2 : Allows K (.one (.reg Reg.memStatus))) (a3 : Allows K (.one .march)) (a4 : Allows K (.one (.reg Reg.memMarchProg))) (a5 : Allows K (.chReg Reg.tiaLine)) (a6 : Allows K .chans) (a7 : Allows K (.one (.reg Reg.memRetWakes))) (a8 : Allows K (.one (.reg Reg.memRetState))) :
    Evolves K s (State.cmdMarch x) := by
  unfold State.cmdMarch
  try simp -zeta -zetaHave only [State.fold_mem]
  repeat' (first | with_reducible refine fun _ => ?_ | lift_lets | (with_reducible intro y; first | (refine Evolves.cut (K := K) (s := s) (y := y) ?_ ?_ <;> first | (clear_value y; with_reducible intro hy) | simp -zeta -zetaHave only [y]) | (simp -zeta -zetaHave only [y]; clear y) | (clear_value y; clear y)) | with_reducible (first | exact h | assumption | apply State.runCmd_changes | apply State.complete_changes | apply State.marchEnd_changes | apply State.wr_changes | apply State.wrF_changes | apply State.bgStart_changes | apply State.wake_changes | apply State.putMem_march | apply Evolves.ite | apply Evolves.foldl) | (split))
  all_goals (with_reducible first | assumption | exact a0.vectorOfCompletion | exact a0.ringsOfCompletion | exact a0.hostMemOfCompletion | exact a0.vectorsOfCompletion | exact a0.cplTailOfCompletion | exact a0.cplDropOfCompletion | exact a1.vectorOfEvents | exact a1.logOfEvents | exact a1.evrPairOfEvents | exact a1.evrOfEvents | exact a1.vectorsOfEvents | exact a1.evrStatusOfEvents | exact a1.evrDropOfEvents | exact a1.evrCommitOfEvents | exact a1.evrLogOfEvents | exact a1.evrLogBseqOfEvents | exact a5.ofCh (by decide) | exact a6.chanOf)

theorem State.zeroMacro_changes {K : List Foot} {s x : State} (m) (h : Evolves K s x) (a0 : Allows K (.one (.clu ((m - 520) / 16)))) (a1 : Allows K (.one .timing)) (a2 : Allows K .failCnts) (a3 : Allows K (.one (.lane (m - 1057)))) (a4 : Allows K (.one (.reg (cluOff (m - 1057) Reg.plnSluicePos)))) (a5 : Allows K (.one (.reg (cluOff (m - 1057) Reg.plnSluice)))) (a6 : Allows K (.chReg Reg.tgScrStgHi)) (a7 : Allows K (.chReg Reg.tgScrStgLo)) (a8 : Allows K (.chReg Reg.tgScrActHi)) (a9 : Allows K (.chReg Reg.tgScrActLo)) :
    Evolves K s (State.zeroMacro x m) := by
  unfold State.zeroMacro
  try simp -zeta -zetaHave only [State.fold_mem]
  repeat' (first | with_reducible refine fun _ => ?_ | lift_lets | (with_reducible intro y; first | (refine Evolves.cut (K := K) (s := s) (y := y) ?_ ?_ <;> first | (clear_value y; with_reducible intro hy) | simp -zeta -zetaHave only [y]) | (simp -zeta -zetaHave only [y]; clear y) | (clear_value y; clear y)) | with_reducible (first | exact h | assumption | apply State.modAcq_changes | apply State.modLane_changes | apply State.wr_changes | apply State.putMem_timing | apply State.putMem_failCnts | apply Evolves.ite | apply Evolves.foldl) | (split))
  all_goals (with_reducible first | assumption | exact a6.ofCh (by decide) | exact a7.ofCh (by decide) | exact a8.ofCh (by decide) | exact a9.ofCh (by decide) | exact Tbl.wf_filter _ _ (by assumption) | exact Tbl.wf_set _ _ _ (by assumption) | exact Tbl.wf_setList _ _ _ (by assumption))

theorem State.retentionEntry_changes {K : List Foot} {s x : State} (c) (h : Evolves K s x) (a0 : Allows K (.one (.reg Reg.memRetState))) :
    Evolves K s (State.retentionEntry x c) := by
  unfold State.retentionEntry
  repeat' (first | with_reducible refine fun _ => ?_ | with_reducible (first | exact h | apply State.wrB_changes | apply Evolves.ite))
  all_goals (with_reducible first | assumption)

theorem State.memUpdate_changes {K : List Foot} {s x : State} (h : Evolves K s x) (a0 : Allows K (.one (.reg Reg.memStatus))) (a1 : Allows K (.one (.reg Reg.memOosDev))) (a2 : Allows K (.one (.reg Reg.memOos))) (a3 : Allows K (.one (.reg Reg.memLoss))) (a4 : Allows K (.one (.reg Reg.memRepair))) :
    Evolves K s (State.memUpdate x) := by
  unfold State.memUpdate
  repeat' (first | with_reducible refine fun _ => ?_ | lift_lets | (with_reducible intro y; first | (refine Evolves.cut (K := K) (s := s) (y := y) ?_ ?_ <;> first | (clear_value y; with_reducible intro hy) | simp -zeta -zetaHave only [y]) | (simp -zeta -zetaHave only [y]; clear y) | (clear_value y; clear y)) | with_reducible (first | exact h | assumption | apply State.wrB_changes | apply State.wr_changes | apply State.wrF_changes) | (split))
  all_goals (with_reducible first | assumption)

theorem State.setMacro_changes {K : List Foot} {s x : State} (m) (v) (h : Evolves K s x) (a0 : Allows K (.one .macros)) :
    Evolves K s (State.setMacro x m v) := by
  unfold State.setMacro
  try simp -zeta -zetaHave only [State.fold_mem]
  repeat' (first | with_reducible refine fun _ => ?_ | lift_lets | (with_reducible intro y; first | (refine Evolves.cut (K := K) (s := s) (y := y) ?_ ?_ <;> first | (clear_value y; with_reducible intro hy) | simp -zeta -zetaHave only [y]) | (simp -zeta -zetaHave only [y]; clear y) | (clear_value y; clear y)) | with_reducible (first | exact h | assumption | apply State.putMem_macros))
  all_goals (with_reducible first | assumption)

theorem State.retireRow_changes {K : List Foot} {s x : State} (m) (r) (h : Evolves K s x) (a0 : Allows K .events) (a1 : Allows K (.pair Reg.memFlags)) (a2 : Allows K (.one .macros)) :
    Evolves K s (State.retireRow x m r) := by
  unfold State.retireRow
  repeat' (first | with_reducible refine fun _ => ?_ | lift_lets | (with_reducible intro y; first | (refine Evolves.cut (K := K) (s := s) (y := y) ?_ ?_ <;> first | (clear_value y; with_reducible intro hy) | simp -zeta -zetaHave only [y]) | (simp -zeta -zetaHave only [y]; clear y) | (clear_value y; clear y)) | with_reducible (first | exact h | assumption | apply State.post_changes | apply State.raise_changes | apply State.setMacro_changes) | (split))
  all_goals (with_reducible first | assumption | exact a0.vectorOfEvents | exact a0.logOfEvents | exact a0.evrPairOfEvents | exact a0.evrOfEvents | exact a0.vectorsOfEvents | exact a0.evrStatusOfEvents | exact a0.evrDropOfEvents | exact a0.evrCommitOfEvents | exact a0.evrLogOfEvents | exact a0.evrLogBseqOfEvents | exact a1.fst | exact a1.snd)

theorem State.marchMacro_changes {K : List Foot} {s x : State} (f) (preserving) (h : Evolves K s x) (a0 : Allows K (.pair Reg.memFlags)) (a1 : Allows K (.one .march)) (a2 : Allows K (.one (.reg Reg.memRepair))) (a3 : Allows K (.one .macros)) (a4 : Allows K (.one (.reg Reg.memStatus))) (a5 : Allows K (.one (.reg Reg.memOosDev))) (a6 : Allows K (.one (.reg Reg.memOos))) (a7 : Allows K (.one (.reg Reg.memLoss))) (a8 : Allows K .events) :
    Evolves K s (State.marchMacro x f preserving) := by
  unfold State.marchMacro
  try simp -zeta -zetaHave only [State.fold_mem]
  repeat' (first | with_reducible refine fun _ => ?_ | lift_lets | (with_reducible intro y; first | (refine Evolves.cut (K := K) (s := s) (y := y) ?_ ?_ <;> first | (clear_value y; with_reducible intro hy) | simp -zeta -zetaHave only [y]) | (simp -zeta -zetaHave only [y]; clear y) | (clear_value y; clear y)) | with_reducible (first | exact h | assumption | apply State.raise_changes | apply State.countF_changes | apply State.setMacro_changes | apply State.memUpdate_changes | apply State.retireRow_changes | apply State.putMem_march | apply Evolves.ite | apply Evolves.foldl) | (split))
  all_goals (with_reducible first | assumption | exact a0.fst | exact a0.snd | exact a8.vectorOfEvents | exact a8.logOfEvents | exact a8.evrPairOfEvents | exact a8.evrOfEvents | exact a8.vectorsOfEvents | exact a8.evrStatusOfEvents | exact a8.evrDropOfEvents | exact a8.evrCommitOfEvents | exact a8.evrLogOfEvents | exact a8.evrLogBseqOfEvents)

theorem State.bootMarch_changes {K : List Foot} {s x : State} (fails) (h : Evolves K s x) (a0 : Allows K .events) (a1 : Allows K (.one (.reg Reg.memMarchProg))) (a2 : Allows K (.one (.reg Reg.memStatus))) (a3 : Allows K (.one (.reg Reg.memOosDev))) (a4 : Allows K (.one (.reg Reg.memOos))) (a5 : Allows K (.one (.reg Reg.memLoss))) (a6 : Allows K (.one (.reg Reg.memRepair))) (a7 : Allows K (.pair Reg.memFlags)) (a8 : Allows K (.one .march)) (a9 : Allows K (.one .macros)) (a10 : Allows K (.one .boot)) (a11 : Allows K (.one .timing)) (a12 : Allows K .failCnts) :
    Evolves K s (State.bootMarch x fails) := by
  unfold State.bootMarch
  refine Evolves.ite (fun _ => ?_) (fun _ => h)
  generalize hs1 : (State.mk _ _ _ _ _ _ _ _ _ _ _ _ _ _ _ _ _ _ _) = s1
  have h1 : Evolves K s s1 := by
    refine h.steps [.one .boot, .one .macros, .one .march, .one .timing, .failCnts] (by simp [a0, a1, a2, a3, a4, a5, a6, a7, a8, a9, a10, a11, a12]) (fun p hp => ?_)
      (by subst hs1; exact State.canonical_step (h4 := fun _ => rfl) (h9 := fun _ => rfl))
    subst hs1
    cases p with
    | pending => exact rfl
    | freeCtr => exact rfl
    | reg o => exact rfl
    | shadows => exact rfl
    | boot => exact absurd (hp (.one .boot) (by simp)) (by simp [Foot.covers])
    | clk => exact rfl
    | evr => exact rfl
    | vectors => exact ⟨rfl, rfl⟩
    | rings => exact ⟨rfl, rfl, rfl, rfl, rfl⟩
    | hostMem => exact rfl
    | msix => exact rfl
    | reads => exact ⟨rfl, rfl, rfl⟩
    | flash o => exact rfl
    | keys => exact ⟨rfl, rfl⟩
    | rollback => exact rfl
    | flashPort => exact ⟨rfl, rfl, rfl, rfl⟩
    | macros => exact absurd (hp (.one .macros) (by simp)) (by simp [Foot.covers])
    | march => exact absurd (hp (.one .march) (by simp)) (by simp [Foot.covers])
    | refills => exact rfl
    | timing => exact absurd (hp (.one .timing) (by simp)) (by simp [Foot.covers])
    | dram o => exact rfl
    | failCnt o => exact absurd (hp (.failCnts) (by simp)) (by simp [Foot.covers])
    | cal => exact rfl
    | pwr => exact rfl
    | seq o => exact rfl
    | lane o => exact rfl
    | clu o => exact rfl
    | chan o => exact rfl
    | plan => exact rfl
    | snd => exact rfl
    | cwy => exact rfl
  clear hs1
  extract_lets s1' s2 s3 o s4
  have h2 : Evolves K s s2 := State.wr_changes _ _ h1 a6
  have h3 : Evolves K s s3 := by
    apply State.memUpdate_changes <;> with_reducible first | assumption | skip
    refine Evolves.foldl (fun t f ht => ?_) h2
    apply State.marchMacro_changes <;> with_reducible first | assumption | exact a0.vectorOfEvents | exact a0.logOfEvents | exact a0.evrPairOfEvents | exact a0.evrOfEvents | exact a0.vectorsOfEvents | exact a0.evrStatusOfEvents | exact a0.evrDropOfEvents | exact a0.evrCommitOfEvents | exact a0.evrLogOfEvents | exact a0.evrLogBseqOfEvents | exact a7.fst | exact a7.snd
  clear_value s3 o
  exact State.post_changes _ _ _ (State.wr_changes _ _ (State.wrF_changes _ _ _ _ h3 a2) a1) a0

theorem State.heldRetire_changes {K : List Foot} {s x : State} (h : Evolves K s x) (a0 : Allows K .completion) (a1 : Allows K .events) (a2 : Allows K (.one (.reg Reg.memStatus))) (a3 : Allows K (.one .march)) (a4 : Allows K (.one (.reg Reg.memOosDev))) (a5 : Allows K (.one (.reg Reg.memOos))) (a6 : Allows K (.one (.reg Reg.memLoss))) (a7 : Allows K (.one (.reg Reg.memRepair))) (a8 : Allows K (.pair Reg.memFlags)) (a9 : Allows K (.one .macros)) :
    Evolves K s (State.heldRetire x) := by
  unfold State.heldRetire
  try simp -zeta -zetaHave only [State.fold_mem]
  repeat' (first | with_reducible refine fun _ => ?_ | lift_lets | (with_reducible intro y; first | (refine Evolves.cut (K := K) (s := s) (y := y) ?_ ?_ <;> first | (clear_value y; with_reducible intro hy) | simp -zeta -zetaHave only [y]) | (simp -zeta -zetaHave only [y]; clear y) | (clear_value y; clear y)) | with_reducible (first | exact h | assumption | apply State.marchEnd_changes | apply State.memUpdate_changes | apply State.retireRow_changes | apply State.putMem_march | apply Evolves.ite | apply Evolves.foldl) | (split))
  all_goals (with_reducible first | assumption | exact a0.vectorOfCompletion | exact a0.ringsOfCompletion | exact a0.hostMemOfCompletion | exact a0.vectorsOfCompletion | exact a0.cplTailOfCompletion | exact a0.cplDropOfCompletion | exact a1.vectorOfEvents | exact a1.logOfEvents | exact a1.evrPairOfEvents | exact a1.evrOfEvents | exact a1.vectorsOfEvents | exact a1.evrStatusOfEvents | exact a1.evrDropOfEvents | exact a1.evrCommitOfEvents | exact a1.evrLogOfEvents | exact a1.evrLogBseqOfEvents | exact a8.fst | exact a8.snd)

theorem State.marchWindow_changes {K : List Foot} {s x : State} (f) (read) (row) (h : Evolves K s x) (a0 : Allows K .completion) (a1 : Allows K .events) (a2 : Allows K (.one (.reg Reg.memStatus))) (a3 : Allows K (.one .march)) (a4 : Allows K (.one (.reg Reg.memMarchProg))) (a5 : Allows K (.pair Reg.memFlags)) (a6 : Allows K (.one (.reg Reg.memRepair))) (a7 : Allows K (.one .macros)) (a8 : Allows K (.one (.reg Reg.memOosDev))) (a9 : Allows K (.one (.reg Reg.memOos))) (a10 : Allows K (.one (.reg Reg.memLoss))) (a11 : Allows K (.one (.reg Reg.memEccCnt))) (a12 : Allows K (.one (.reg Reg.memEccAddr))) (a13 : Allows K (.one (.clu ((f.macroNo - 520) / 16)))) (a14 : Allows K (.one .timing)) (a15 : Allows K .failCnts) (a16 : Allows K (.one (.lane (f.macroNo - 1057)))) (a17 : Allows K (.one (.reg (cluOff (f.macroNo - 1057) Reg.plnSluicePos)))) (a18 : Allows K (.one (.reg (cluOff (f.macroNo - 1057) Reg.plnSluice)))) (a19 : Allows K (.chReg Reg.tgScrStgHi)) (a20 : Allows K (.chReg Reg.tgScrStgLo)) (a21 : Allows K (.chReg Reg.tgScrActHi)) (a22 : Allows K (.chReg Reg.tgScrActLo)) :
    Evolves K s (State.marchWindow x f read row) := by
  unfold State.marchWindow
  try simp -zeta -zetaHave only [State.fold_mem]
  repeat' (first | with_reducible refine fun _ => ?_ | lift_lets | (with_reducible intro y; first | (refine Evolves.cut (K := K) (s := s) (y := y) ?_ ?_ <;> first | (clear_value y; with_reducible intro hy) | simp -zeta -zetaHave only [y]) | (simp -zeta -zetaHave only [y]; clear y) | (clear_value y; clear y)) | with_reducible (first | exact h | assumption | apply State.marchEnd_changes | apply State.countF_changes | apply State.marchMacro_changes | apply State.timingCopy_changes | apply State.zeroMacro_changes | apply State.putMem_march | apply Evolves.ite) | (split))
  all_goals (with_reducible first | assumption | exact a0.vectorOfCompletion | exact a0.ringsOfCompletion | exact a0.hostMemOfCompletion | exact a0.vectorsOfCompletion | exact a0.cplTailOfCompletion | exact a0.cplDropOfCompletion | exact a1.vectorOfEvents | exact a1.logOfEvents | exact a1.evrPairOfEvents | exact a1.evrOfEvents | exact a1.vectorsOfEvents | exact a1.evrStatusOfEvents | exact a1.evrDropOfEvents | exact a1.evrCommitOfEvents | exact a1.evrLogOfEvents | exact a1.evrLogBseqOfEvents | exact a5.fst | exact a5.snd | exact a19.ofCh (by decide) | exact a20.ofCh (by decide) | exact a21.ofCh (by decide) | exact a22.ofCh (by decide))


end Sys2Proof.Machine
end

