-- ==== Sys2Proof/Laws/FramePlanCheck.lean ====
section
/-! SUPPORT. What each operation of Machine/PlanCheck.lean can change: from a state that has changed only parts of the footprint `K`,
the operation changes only parts of `K`, where `K` allows the operation's own footprint. -/

set_option Elab.async false
set_option linter.all false

namespace Sys2Proof.Machine

theorem State.loadCheck_changes {K : List Foot} {s x : State} (p) (h : Evolves K s x) (a0 : Allows K (.cluReg Reg.tgRefuse)) (a1 : Allows K (.one (.reg Reg.plnBw))) :
    Evolves K s (State.loadCheck x p).1 := by
  unfold State.loadCheck
  extract_lets a b d s1
  have h1 : Evolves K s s1 := State.wrF_changes _ _ _ _ h a1
  clear_value s1 a b d
  split
  · exact h
  · split
    · exact State.wr_changes _ _ h (a0.ofClu (by decide))
    · split
      · exact h
      · split <;> exact h1


end Sys2Proof.Machine
end

