-- ==== Sys2Proof/Laws/FramePlanRun.lean ====
section
/-! SUPPORT. What each operation of Machine/PlanRun.lean can change: from a state that has changed only parts of the footprint `K`,
the operation changes only parts of `K`, where `K` allows the operation's own footprint. -/

set_option Elab.async false
set_option linter.all false

namespace Sys2Proof.Machine

theorem State.setSource_changes {K : List Foot} {s x : State} (n) (src) (h : Evolves K s x) (a0 : Allows K (.one (.reg (chOff n Reg.peStatus)))) (a1 : Allows K (.one (.chan n))) :
    Evolves K s (State.setSource x n src) := by
  unfold State.setSource
  repeat' (first | with_reducible refine fun _ => ?_ | lift_lets | (with_reducible intro y; first | (refine Evolves.cut (K := K) (s := s) (y := y) ?_ ?_ <;> first | (clear_value y; with_reducible intro hy) | simp -zeta -zetaHave only [y]) | (simp -zeta -zetaHave only [y]; clear y) | (clear_value y; clear y)) | with_reducible (first | exact h | assumption | apply State.wrF_changes | apply State.modChan_changes))
  all_goals (with_reducible first | assumption)

theorem State.postBlocks_changes {K : List Foot} {s x : State} (c) (n) (h : Evolves K s x) (a0 : Allows K (.one (.lane c))) (a1 : Allows K (.one (.reg (cluOff c Reg.plnSluicePos)))) (a2 : Allows K (.one (.reg (cluOff c Reg.plnSluice)))) :
    Evolves K s (State.postBlocks x c n) := by
  unfold State.postBlocks
  repeat' (first | with_reducible refine fun _ => ?_ | lift_lets | (with_reducible intro y; first | (refine Evolves.cut (K := K) (s := s) (y := y) ?_ ?_ <;> first | (clear_value y; with_reducible intro hy) | simp -zeta -zetaHave only [y]) | (simp -zeta -zetaHave only [y]; clear y) | (clear_value y; clear y)) | with_reducible (first | exact h | assumption | apply State.modLane_changes | apply State.wrF_changes) | (split))
  all_goals (with_reducible first | assumption)

theorem State.sluicePost_changes {K : List Foot} {s x : State} (c) (v) (h : Evolves K s x) (a0 : Allows K (.pair (cluOff c Reg.plnFlags))) (a1 : Allows K (.one (.lane c))) (a2 : Allows K (.one (.reg (cluOff c Reg.plnSluicePos)))) (a3 : Allows K (.one (.reg (cluOff c Reg.plnSluice)))) :
    Evolves K s (State.sluicePost x c v) := by
  unfold State.sluicePost
  repeat' (first | with_reducible refine fun _ => ?_ | lift_lets | (with_reducible intro y; first | (refine Evolves.cut (K := K) (s := s) (y := y) ?_ ?_ <;> first | (clear_value y; with_reducible intro hy) | simp -zeta -zetaHave only [y]) | (simp -zeta -zetaHave only [y]; clear y) | (clear_value y; clear y)) | with_reducible (first | exact h | assumption | apply State.raise_changes | apply State.postBlocks_changes | apply Evolves.ite) | (split))
  all_goals (with_reducible first | assumption | exact a0.fst | exact a0.snd)

theorem State.sluiceConfig_changes {K : List Foot} {s x : State} (c) (size) (v) (h : Evolves K s x) (a0 : Allows K (.pair (cluOff c Reg.plnFlags))) (a1 : Allows K (.one (.lane c))) (a2 : Allows K (.one (.reg (cluOff c Reg.plnSluicePos)))) (a3 : Allows K (.one (.reg (cluOff c Reg.plnSluice)))) (a4 : Allows K (.one (.reg (cluOff c Reg.plnSluiceSize)))) (a5 : Allows K (.one (.reg (cluOff c Reg.plnSluiceBase)))) :
    Evolves K s (State.sluiceConfig x c size v) := by
  unfold State.sluiceConfig
  repeat' (first | with_reducible refine fun _ => ?_ | lift_lets | (with_reducible intro y; first | (refine Evolves.cut (K := K) (s := s) (y := y) ?_ ?_ <;> first | (clear_value y; with_reducible intro hy) | simp -zeta -zetaHave only [y]) | (simp -zeta -zetaHave only [y]; clear y) | (clear_value y; clear y)) | with_reducible (first | exact h | assumption | apply State.raise_changes | apply State.modLane_changes | apply State.wr_changes | apply State.wrF_changes | apply Evolves.ite) | (split))
  all_goals (with_reducible first | assumption | exact a0.fst | exact a0.snd)

theorem State.jumpRequest_changes {K : List Foot} {s x : State} (c) (n) (h : Evolves K s x) (a0 : Allows K (.pair (cluOff c Reg.plnFlags))) (a1 : Allows K (.one (.reg (cluOff c Reg.plnJump)))) (a2 : Allows K (.one (.lane c))) (a3 : Allows K (.one (.reg (cluOff c Reg.plnJumpCnt)))) :
    Evolves K s (State.jumpRequest x c n) := by
  unfold State.jumpRequest
  repeat' (first | with_reducible refine fun _ => ?_ | lift_lets | (with_reducible intro y; first | (refine Evolves.cut (K := K) (s := s) (y := y) ?_ ?_ <;> first | (clear_value y; with_reducible intro hy) | simp -zeta -zetaHave only [y]) | (simp -zeta -zetaHave only [y]; clear y) | (clear_value y; clear y)) | with_reducible (first | exact h | assumption | apply State.raise_changes | apply State.wrF_changes | apply State.modLane_changes | apply State.countF_changes | apply Evolves.ite) | (split))
  all_goals (with_reducible first | assumption | exact a0.fst | exact a0.snd)

theorem State.jumpAll_changes {K : List Foot} {s x : State} (mask) (n) (h : Evolves K s x) (a0 : Allows K (.cluPair Reg.plnFlags)) (a1 : Allows K (.cluReg Reg.plnJump)) (a2 : Allows K .lanes) (a3 : Allows K (.cluReg Reg.plnJumpCnt)) :
    Evolves K s (State.jumpAll x mask n) := by
  unfold State.jumpAll
  repeat' (first | with_reducible refine fun _ => ?_ | with_reducible (first | exact h | assumption | apply State.jumpRequest_changes | apply Evolves.foldl))
  all_goals (with_reducible first | assumption | exact a0.pairClu (by decide) | exact a0.cluFst | exact a0.cluSnd | exact a0.cluFst.ofClu (by decide) | exact a0.cluSnd.ofClu (by decide) | exact a1.ofClu (by decide) | exact a2.laneOf | exact a3.ofClu (by decide))

theorem State.cmdJump_changes {K : List Foot} {s x : State} (h : Evolves K s x) (a0 : Allows K .completion) (a1 : Allows K (.cluPair Reg.plnFlags)) (a2 : Allows K (.cluReg Reg.plnJump)) (a3 : Allows K .lanes) (a4 : Allows K (.cluReg Reg.plnJumpCnt)) :
    Evolves K s (State.cmdJump x) := by
  unfold State.cmdJump
  repeat' (first | with_reducible refine fun _ => ?_ | with_reducible (first | exact h | assumption | apply State.runCmd_changes | apply State.complete_changes | apply State.jumpAll_changes) | (split))
  all_goals (with_reducible first | assumption | exact a0.vectorOfCompletion | exact a0.ringsOfCompletion | exact a0.hostMemOfCompletion | exact a0.vectorsOfCompletion | exact a0.cplTailOfCompletion | exact a0.cplDropOfCompletion | exact a1.pairClu (by decide) | exact a1.cluFst | exact a1.cluSnd | exact a1.cluFst.ofClu (by decide) | exact a1.cluSnd.ofClu (by decide) | exact a2.ofClu (by decide) | exact a3.laneOf | exact a4.ofClu (by decide))

theorem State.wmonClear_changes {K : List Foot} {s x : State} (n) (h : Evolves K s x) (a0 : Allows K (.one (.reg (chOff n Reg.peWmon)))) (a1 : Allows K (.one (.reg (chOff n Reg.pmuWmon)))) :
    Evolves K s (State.wmonClear x n) := by
  unfold State.wmonClear
  simp -zeta -zetaHave only [List.foldl_cons, List.foldl_nil]
  repeat' (first | with_reducible refine fun _ => ?_ | with_reducible (first | exact h | assumption | apply State.wrF_changes | apply Evolves.ite | apply Evolves.foldl))
  all_goals (with_reducible first | assumption)

theorem State.clockSource_changes {K : List Foot} {s x : State} (n) (p) (start) (h : Evolves K s x) (a0 : Allows K (.one (.reg (chOff n Reg.peStatus)))) (a1 : Allows K (.one (.chan n))) :
    Evolves K s (State.clockSource x n p start) := by
  unfold State.clockSource
  repeat' (first | with_reducible refine fun _ => ?_ | lift_lets | (with_reducible intro y; first | (refine Evolves.cut (K := K) (s := s) (y := y) ?_ ?_ <;> first | (clear_value y; with_reducible intro hy) | simp -zeta -zetaHave only [y]) | (simp -zeta -zetaHave only [y]; clear y) | (clear_value y; clear y)) | with_reducible (first | exact h | assumption | apply State.setSource_changes | apply State.modChan_changes))
  all_goals (with_reducible first | assumption)

theorem State.refillLand_changes {K : List Foot} {s x : State} (c) (h : Evolves K s x) (a0 : Allows K (.one (.lane c))) (a1 : Allows K (.one .refills)) :
    Evolves K s (State.refillLand x c) := by
  unfold State.refillLand
  dsimp only
  split
  · exact h
  · exact State.setLane_changes _ _ (State.putMem_refills h a1) a0

theorem State.refillRequest_changes {K : List Foot} {s x : State} (c) (h : Evolves K s x) (a0 : Allows K (.one (.reg (cluOff c Reg.plnSluicePos)))) (a1 : Allows K (.one .refills)) (a2 : Allows K (.one (.lane c))) :
    Evolves K s (State.refillRequest x c) := by
  unfold State.refillRequest
  dsimp only
  split
  · exact h
  · rename_i gs p _
    refine Evolves.ite (fun _ => h) (fun _ => ?_)
    have h1 : ∀ (l : Lane) (v : List (Nat × Nat)), Evolves K s ((x.setLane c l).putMem { (x.setLane c l).mem with dramQ := v }) :=
      fun l v => State.putMem_refills (State.setLane_changes _ _ h a2) a1
    exact Evolves.ite (fun _ => State.wrF_changes _ _ _ _ (h1 _ _) a0) (fun _ => h1 _ _)

theorem State.prefill_changes {K : List Foot} {s x : State} (c n) (h : Evolves K s x) (a0 : Allows K (.one (.lane c))) (a1 : Allows K (.one .refills)) (a2 : Allows K (.one (.reg (cluOff c Reg.plnSluicePos)))) :
    Evolves K s (State.prefill x c n) := by
  induction n generalizing x with
  | zero => exact h
  | succ n ih =>
    unfold State.prefill
    extract_lets s1
    have h1 : Evolves K s s1 := State.refillLand_changes _ (State.refillRequest_changes _ h a2 a1 a0) a0 a1
    exact Evolves.ite (fun _ => h1) (fun _ => ih h1)

theorem State.chanStart_changes {K : List Foot} {s x : State} (n) (h : Evolves K s x) (a0 : Allows K (.one (.chan n))) (a1 : Allows K (.one (.reg (chOff n Reg.tgQueue)))) (a2 : Allows K (.one (.reg (chOff n Reg.flChFail)))) (a3 : Allows K (.one (.reg (chOff n Reg.tgScrActLo)))) (a4 : Allows K (.one (.reg (chOff n Reg.tgScrActHi)))) (a5 : Allows K (.one (.reg (chOff n Reg.tgScrStgLo)))) (a6 : Allows K (.one (.reg (chOff n Reg.tgScrStgHi)))) :
    Evolves K s (State.chanStart x n) := by
  unfold State.chanStart
  simp -zeta -zetaHave only [List.foldl_cons, List.foldl_nil]
  repeat' (first | with_reducible refine fun _ => ?_ | lift_lets | (with_reducible intro y; first | (refine Evolves.cut (K := K) (s := s) (y := y) ?_ ?_ <;> first | (clear_value y; with_reducible intro hy) | simp -zeta -zetaHave only [y]) | (simp -zeta -zetaHave only [y]; clear y) | (clear_value y; clear y)) | with_reducible (first | exact h | assumption | apply State.modChan_changes | apply State.wr_changes | apply State.wrF_changes | apply Evolves.foldl) | (split))
  all_goals (with_reducible first | assumption)

theorem State.laneRegsStart_changes {K : List Foot} {s x : State} (c) (h : Evolves K s x) (a0 : Allows K (.one (.reg (cluOff c Reg.plnGapCnt)))) (a1 : Allows K (.one (.reg (cluOff c Reg.plnGapFirstLo)))) (a2 : Allows K (.one (.reg (cluOff c Reg.plnGapFirstHi)))) (a3 : Allows K (.one (.reg (cluOff c Reg.plnGapLenLo)))) (a4 : Allows K (.one (.reg (cluOff c Reg.plnGapLenHi)))) (a5 : Allows K (.one (.reg (cluOff c Reg.flRecWr)))) (a6 : Allows K (.one (.reg (cluOff c Reg.flRecLost)))) (a7 : Allows K (.one (.reg (cluOff c Reg.flQueue)))) (a8 : Allows K (.one (.reg (cluOff c Reg.ddsMarkCnt)))) (a9 : Allows K (.one (.reg (cluOff c Reg.ddsGranLo)))) (a10 : Allows K (.one (.reg (cluOff c Reg.ddsGranHi)))) :
    Evolves K s (State.laneRegsStart x c) := by
  unfold State.laneRegsStart
  simp -zeta -zetaHave only [List.foldl_cons, List.foldl_nil]
  repeat' (first | with_reducible refine fun _ => ?_ | with_reducible (first | exact h | assumption | apply State.wr_changes | apply Evolves.foldl))
  all_goals (with_reducible first | assumption)

theorem State.startLane_changes {K : List Foot} {s x : State} (c) (cycle) (h : Evolves K s x) (a0 : Allows K (.one (.lane c))) (a1 : Allows K (.one (.seq c))) (a2 : Allows K (.one (.clu c))) (a3 : Allows K (.one (.reg (cluOff c Reg.ddsStatus)))) (a4 : Allows K .chans) (a5 : Allows K (.chReg Reg.tgQueue)) (a6 : Allows K (.chReg Reg.flChFail)) (a7 : Allows K (.chReg Reg.tgScrActLo)) (a8 : Allows K (.chReg Reg.tgScrActHi)) (a9 : Allows K (.chReg Reg.tgScrStgLo)) (a10 : Allows K (.chReg Reg.tgScrStgHi)) (a11 : Allows K (.one (.reg (cluOff c Reg.plnGapCnt)))) (a12 : Allows K (.one (.reg (cluOff c Reg.plnGapFirstLo)))) (a13 : Allows K (.one (.reg (cluOff c Reg.plnGapFirstHi)))) (a14 : Allows K (.one (.reg (cluOff c Reg.plnGapLenLo)))) (a15 : Allows K (.one (.reg (cluOff c Reg.plnGapLenHi)))) (a16 : Allows K (.one (.reg (cluOff c Reg.flRecWr)))) (a17 : Allows K (.one (.reg (cluOff c Reg.flRecLost)))) (a18 : Allows K (.one (.reg (cluOff c Reg.flQueue)))) (a19 : Allows K (.one (.reg (cluOff c Reg.ddsMarkCnt)))) (a20 : Allows K (.one (.reg (cluOff c Reg.ddsGranLo)))) (a21 : Allows K (.one (.reg (cluOff c Reg.ddsGranHi)))) :
    Evolves K s (State.startLane x c cycle) := by
  unfold State.startLane
  repeat' (first | with_reducible refine fun _ => ?_ | lift_lets | (with_reducible intro y; first | (refine Evolves.cut (K := K) (s := s) (y := y) ?_ ?_ <;> first | (clear_value y; with_reducible intro hy) | simp -zeta -zetaHave only [y]) | (simp -zeta -zetaHave only [y]; clear y) | (clear_value y; clear y)) | with_reducible (first | exact h | assumption | apply State.modLane_changes | apply State.modSeq_changes | apply State.modDds_changes | apply State.wrB_changes | apply State.chanStart_changes | apply State.laneRegsStart_changes | apply Evolves.foldl) | (split))
  all_goals (with_reducible first | assumption | exact a4.chanOf | exact a5.ofCh (by decide) | exact a6.ofCh (by decide) | exact a7.ofCh (by decide) | exact a8.ofCh (by decide) | exact a9.ofCh (by decide) | exact a10.ofCh (by decide))

theorem State.laneStart_changes {K : List Foot} {s x : State} (c) (cycle) (h : Evolves K s x) (a0 : Allows K (.one (.lane c))) (a1 : Allows K (.one (.seq c))) (a2 : Allows K (.one (.clu c))) (a3 : Allows K (.one (.reg (cluOff c Reg.ddsStatus)))) (a4 : Allows K .chans) (a5 : Allows K (.chReg Reg.tgQueue)) (a6 : Allows K (.chReg Reg.flChFail)) (a7 : Allows K (.chReg Reg.tgScrActLo)) (a8 : Allows K (.chReg Reg.tgScrActHi)) (a9 : Allows K (.chReg Reg.tgScrStgLo)) (a10 : Allows K (.chReg Reg.tgScrStgHi)) (a11 : Allows K (.one (.reg (cluOff c Reg.plnGapCnt)))) (a12 : Allows K (.one (.reg (cluOff c Reg.plnGapFirstLo)))) (a13 : Allows K (.one (.reg (cluOff c Reg.plnGapFirstHi)))) (a14 : Allows K (.one (.reg (cluOff c Reg.plnGapLenLo)))) (a15 : Allows K (.one (.reg (cluOff c Reg.plnGapLenHi)))) (a16 : Allows K (.one (.reg (cluOff c Reg.flRecWr)))) (a17 : Allows K (.one (.reg (cluOff c Reg.flRecLost)))) (a18 : Allows K (.one (.reg (cluOff c Reg.flQueue)))) (a19 : Allows K (.one (.reg (cluOff c Reg.ddsMarkCnt)))) (a20 : Allows K (.one (.reg (cluOff c Reg.ddsGranLo)))) (a21 : Allows K (.one (.reg (cluOff c Reg.ddsGranHi)))) :
    Evolves K s (State.laneStart x c cycle) := by
  unfold State.laneStart
  repeat' (first | with_reducible refine fun _ => ?_ | lift_lets | (with_reducible intro y; first | (refine Evolves.cut (K := K) (s := s) (y := y) ?_ ?_ <;> first | (clear_value y; with_reducible intro hy) | simp -zeta -zetaHave only [y]) | (simp -zeta -zetaHave only [y]; clear y) | (clear_value y; clear y)) | with_reducible (first | exact h | assumption | apply State.modLane_changes | apply State.startLane_changes | apply Evolves.ite) | (split))
  all_goals (with_reducible first | assumption | exact a4.chanOf | exact a5.ofCh (by decide) | exact a6.ofCh (by decide) | exact a7.ofCh (by decide) | exact a8.ofCh (by decide) | exact a9.ofCh (by decide) | exact a10.ofCh (by decide))

theorem State.laneGoesIdle_changes {K : List Foot} {s x : State} (c) (h : Evolves K s x) (a0 : Allows K (.one (.seq c))) (a1 : Allows K (.one (.lane c))) (a2 : Allows K (.one (.reg (cluOff c Reg.ddsStatus)))) :
    Evolves K s (State.laneGoesIdle x c) := by
  unfold State.laneGoesIdle
  repeat' (first | with_reducible refine fun _ => ?_ | lift_lets | (with_reducible intro y; first | (refine Evolves.cut (K := K) (s := s) (y := y) ?_ ?_ <;> first | (clear_value y; with_reducible intro hy) | simp -zeta -zetaHave only [y]) | (simp -zeta -zetaHave only [y]; clear y) | (clear_value y; clear y)) | with_reducible (first | exact h | assumption | apply State.setSeq_changes | apply State.setLane_changes | apply State.wrB_changes | apply Evolves.ite) | (split))
  all_goals (with_reducible first | assumption)

theorem State.loadLatches_changes {K : List Foot} {s x : State} (q) (h : Evolves K s x) (a0 : Allows K (.one (.seq q))) :
    Evolves K s (State.loadLatches x q) := by
  unfold State.loadLatches
  repeat' (first | with_reducible refine fun _ => ?_ | lift_lets | (with_reducible intro y; first | (refine Evolves.cut (K := K) (s := s) (y := y) ?_ ?_ <;> first | (clear_value y; with_reducible intro hy) | simp -zeta -zetaHave only [y]) | (simp -zeta -zetaHave only [y]; clear y) | (clear_value y; clear y)) | with_reducible (first | exact h | assumption | apply State.modSeq_changes | apply Evolves.ite) | (split))
  all_goals (with_reducible first | assumption)

theorem State.loadWords_changes {K : List Foot} {s x : State} (q) (ws) (h : Evolves K s x) (a0 : Allows K (.one (.seq q))) :
    Evolves K s (State.loadWords x q ws) := by
  unfold State.loadWords
  repeat' (first | with_reducible refine fun _ => ?_ | lift_lets | (with_reducible intro y; first | (refine Evolves.cut (K := K) (s := s) (y := y) ?_ ?_ <;> first | (clear_value y; with_reducible intro hy) | simp -zeta -zetaHave only [y]) | (simp -zeta -zetaHave only [y]; clear y) | (clear_value y; clear y)) | with_reducible (first | exact h | assumption | apply State.modSeq_changes))
  all_goals (with_reducible first | assumption)

theorem State.loadTimingMem_changes {K : List Foot} {s x : State} (p) (c) (h : Evolves K s x) (a0 : Allows K (.one .timing)) :
    Evolves K s (State.loadTimingMem x p c) := by
  unfold State.loadTimingMem
  extract_lets set
  refine State.putMem_timing h a0 (fun hw => ?_)
  clear_value set
  generalize bitList 64 (x.setMask p c) = l
  generalize x.mem.timing = t at hw ⊢
  induction l generalizing t with
  | nil => exact hw
  | cons i l ih => exact ih _ (Tbl.wf_setList _ _ _ hw)

theorem State.loadTiming_changes {K : List Foot} {s x : State} (p) (c) (h : Evolves K s x) (a0 : Allows K .chans) (a1 : Allows K (.chReg Reg.tgScrSrc)) (a2 : Allows K (.chReg Reg.tgWin)) (a3 : Allows K (.pair (cluOff c Reg.tgScrmaskLo))) (a4 : Allows K (.pair (cluOff c Reg.tgSetmaskLo))) (a5 : Allows K (.one .timing)) (a6 : Allows K (.regs (cluOff c Reg.tgPeriod) (cluOff c (Reg.tgPeriod + 256)))) (a7 : Allows K (.chRegs Reg.tgMode0 (Reg.tgMode0 + 64))) :
    Evolves K s (State.loadTiming x p c) := by
  unfold State.loadTiming
  extract_lets m scr per s1 s2
  have h1 : Evolves K s s1 := by
    refine Evolves.foldl_mem (fun t i hi ht => ?_) (State.loadTimingMem_changes _ _ h a5)
    have hi' := List.mem_range.mp hi
    exact State.wr_changes _ _ ht (a6.inRegs (by unfold cluOff; omega))
  have h2 : Evolves K s s2 := State.wr64_changes _ _ (State.wr64_changes _ _ h1 a4) a3
  clear_value s2 per
  refine Evolves.foldl_mem (fun t k _ ht => ?_) h2
  extract_lets n mode t1 t2
  have k1 : Evolves K s t1 := by
    refine Evolves.foldl_mem (fun u i hi hu => ?_) ht
    have hi' := List.mem_range.mp hi
    exact State.wr_changes _ _ hu (a7.ofChRegs (by unfold Reg.tgMode0; omega))
  exact State.modChan_changes _ _ (State.wr_changes _ _ (State.wr_changes _ _ k1 (a2.ofCh (by decide))) (a1.ofCh (by decide))) a0.chanOf

theorem State.loadLane_changes {K : List Foot} {s x : State} (p) (c) (h : Evolves K s x) (a0 : Allows K (.one (.lane c))) (a1 : Allows K (.one .refills)) (a2 : Allows K (.one (.reg (cluOff c Reg.plnSluicePos)))) (a3 : Allows K (.one (.reg (cluOff c Reg.plnCache)))) (a4 : Allows K .chans) (a5 : Allows K (.chReg Reg.tgScrSrc)) (a6 : Allows K (.chReg Reg.tgWin)) (a7 : Allows K (.pair (cluOff c Reg.tgScrmaskLo))) (a8 : Allows K (.pair (cluOff c Reg.tgSetmaskLo))) (a9 : Allows K (.one .timing)) (a10 : Allows K (.regs (cluOff c Reg.tgPeriod) (cluOff c (Reg.tgPeriod + 256)))) (a11 : Allows K (.chRegs Reg.tgMode0 (Reg.tgMode0 + 64))) (a12 : Allows K (.one (.seq c))) (a13 : Allows K (.one (.reg (cluOff c Reg.seqIvec)))) (a14 : Allows K (.one (.reg (cluOff c Reg.seqSrcMask)))) (a15 : Allows K (.chReg Reg.tiaLine)) (a16 : Allows K (.one (.reg Reg.memRetWakes))) (a17 : Allows K (.one (.reg Reg.memRetState))) (a18 : Allows K (.regs (cluOff c Reg.seqRole0) (cluOff c (Reg.seqRole0 + 16)))) (a19 : Allows K (.regs (cluOff c Reg.seqXscr0) (cluOff c (Reg.seqXscr0 + 16)))) :
    Evolves K s (State.loadLane x p c) := by
  unfold State.loadLane
  extract_lets segs entry s0 s1 r s2 s3 s4 pins start s5 s6
  have h0 : Evolves K s s0 := by apply State.wake_changes <;> with_reducible assumption
  have h1 : Evolves K s s1 := by apply State.loadWords_changes <;> with_reducible assumption
  have h2 : Evolves K s s2 := by
    refine Evolves.foldl_mem (fun t i hi ht => ?_) h1
    have hi' := List.mem_range.mp hi
    exact State.wr_changes _ _ ht (a18.inRegs (by unfold cluOff Reg.seqRole0; omega))
  have h3 : Evolves K s s3 := by
    refine Evolves.foldl_mem (fun t i hi ht => ?_) h2
    have hi' := List.mem_range.mp hi
    exact State.wr_changes _ _ ht (a19.inRegs (by unfold cluOff Reg.seqXscr0; omega))
  have h4 : Evolves K s s4 := by
    apply State.loadTiming_changes <;> with_reducible first | assumption | (apply State.loadLatches_changes <;> with_reducible first | assumption | (exact State.wr_changes _ _ (State.wr_changes _ _ h3 a14) a13))
  have h5 : Evolves K s s5 := State.modLane_changes _ _ h4 a0
  have h6 : Evolves K s s6 := State.wr_changes _ _ h5 a3
  apply State.prefill_changes <;> with_reducible assumption

theorem State.load_changes {K : List Foot} {s x : State} (p) (number) (cmd) (h : Evolves K s x) (a0 : Allows K .lanes) (a1 : Allows K (.one .refills)) (a2 : Allows K (.cluReg Reg.plnSluicePos)) (a3 : Allows K (.cluReg Reg.plnCache)) (a4 : Allows K .chans) (a5 : Allows K (.chReg Reg.tgScrSrc)) (a6 : Allows K (.chReg Reg.tgWin)) (a7 : Allows K (.cluPair Reg.tgScrmaskLo)) (a8 : Allows K (.cluPair Reg.tgSetmaskLo)) (a9 : Allows K (.one .timing)) (a10 : Allows K (.cluRegs Reg.tgPeriod (Reg.tgPeriod + 256))) (a11 : Allows K (.chRegs Reg.tgMode0 (Reg.tgMode0 + 64))) (a12 : Allows K .seqs) (a13 : Allows K (.cluReg Reg.seqIvec)) (a14 : Allows K (.cluReg Reg.seqSrcMask)) (a15 : Allows K (.chReg Reg.tiaLine)) (a16 : Allows K (.one (.reg Reg.memRetWakes))) (a17 : Allows K (.one (.reg Reg.memRetState))) (a18 : Allows K (.cluRegs Reg.seqRole0 (Reg.seqRole0 + 16))) (a19 : Allows K (.cluRegs Reg.seqXscr0 (Reg.seqXscr0 + 16))) (a20 : Allows K (.one .plan)) (a21 : Allows K (.one (.reg Reg.plnState))) (a22 : Allows K (.one (.reg Reg.plnResult))) :
    Evolves K s (State.load x p number cmd) := by
  unfold State.load
  try simp -zeta -zetaHave only [State.fold_mem, State.fold_plan]
  repeat' (first | with_reducible refine fun _ => ?_ | lift_lets | (with_reducible intro y; first | (refine Evolves.cut (K := K) (s := s) (y := y) ?_ ?_ <;> first | (clear_value y; with_reducible intro hy) | simp -zeta -zetaHave only [y]) | (simp -zeta -zetaHave only [y]; clear y) | (clear_value y; clear y)) | with_reducible (first | exact h | assumption | apply State.loadLatches_changes | apply State.loadWords_changes | apply State.loadLane_changes | apply State.wr_changes | apply State.wrB_changes | apply State.wrF_changes | apply State.putMem_refills | apply State.putPlan_changes | apply Evolves.ite | apply Evolves.foldl) | (split))
  all_goals (with_reducible first | assumption | exact a0.laneOf | exact a2.ofClu (by decide) | exact a3.ofClu (by decide) | exact a4.chanOf | exact a5.ofCh (by decide) | exact a6.ofCh (by decide) | exact a7.pairClu (by decide) | exact a7.cluFst | exact a7.cluSnd | exact a7.cluFst.ofClu (by decide) | exact a7.cluSnd.ofClu (by decide) | exact a8.pairClu (by decide) | exact a8.cluFst | exact a8.cluSnd | exact a8.cluFst.ofClu (by decide) | exact a8.cluSnd.ofClu (by decide) | exact a10.regsClu (by decide) | exact a10.ofCluRegs (by decide) | exact a11.regsCh (by decide) | exact a11.ofChRegs (by decide) | exact a12.seqOf | exact a13.ofClu (by decide) | exact a14.ofClu (by decide) | exact a15.ofCh (by decide) | exact a18.regsClu (by decide) | exact a18.ofCluRegs (by decide) | exact a19.regsClu (by decide) | exact a19.ofCluRegs (by decide))

theorem State.cmdRun_changes {K : List Foot} {s x : State} (h : Evolves K s x) (a0 : Allows K .completion) (a1 : Allows K (.one (.reg Reg.plnResult))) (a2 : Allows K (.cluReg Reg.tgRefuse)) (a3 : Allows K (.one (.reg Reg.plnBw))) (a4 : Allows K .lanes) (a5 : Allows K (.one .refills)) (a6 : Allows K (.cluReg Reg.plnSluicePos)) (a7 : Allows K (.cluReg Reg.plnCache)) (a8 : Allows K .chans) (a9 : Allows K (.chReg Reg.tgScrSrc)) (a10 : Allows K (.chReg Reg.tgWin)) (a11 : Allows K (.cluPair Reg.tgScrmaskLo)) (a12 : Allows K (.cluPair Reg.tgSetmaskLo)) (a13 : Allows K (.one .timing)) (a14 : Allows K (.cluRegs Reg.tgPeriod (Reg.tgPeriod + 256))) (a15 : Allows K (.chRegs Reg.tgMode0 (Reg.tgMode0 + 64))) (a16 : Allows K .seqs) (a17 : Allows K (.cluReg Reg.seqIvec)) (a18 : Allows K (.cluReg Reg.seqSrcMask)) (a19 : Allows K (.chReg Reg.tiaLine)) (a20 : Allows K (.one (.reg Reg.memRetWakes))) (a21 : Allows K (.one (.reg Reg.memRetState))) (a22 : Allows K (.cluRegs Reg.seqRole0 (Reg.seqRole0 + 16))) (a23 : Allows K (.cluRegs Reg.seqXscr0 (Reg.seqXscr0 + 16))) (a24 : Allows K (.one .plan)) (a25 : Allows K (.one (.reg Reg.plnState))) :
    Evolves K s (State.cmdRun x) := by
  unfold State.cmdRun
  try simp -zeta -zetaHave only [State.fold_hst]
  repeat' (first | with_reducible refine fun _ => ?_ | lift_lets | (with_reducible intro y; first | (refine Evolves.cut (K := K) (s := s) (y := y) ?_ ?_ <;> first | (clear_value y; with_reducible intro hy) | simp -zeta -zetaHave only [y]) | (simp -zeta -zetaHave only [y]; clear y) | (clear_value y; clear y)) | with_reducible (first | exact h | assumption | apply State.runCmd_changes | apply State.wrF_changes | apply State.complete_changes | apply State.loadCheck_changes | apply State.load_changes | apply State.putHst_rings | apply Evolves.ite) | (split))
  all_goals (with_reducible first | assumption | exact a0.vectorOfCompletion | exact a0.ringsOfCompletion | exact a0.hostMemOfCompletion | exact a0.vectorsOfCompletion | exact a0.cplTailOfCompletion | exact a0.cplDropOfCompletion | exact a2.ofClu (by decide) | exact a4.laneOf | exact a6.ofClu (by decide) | exact a7.ofClu (by decide) | exact a8.chanOf | exact a9.ofCh (by decide) | exact a10.ofCh (by decide) | exact a11.pairClu (by decide) | exact a11.cluFst | exact a11.cluSnd | exact a11.cluFst.ofClu (by decide) | exact a11.cluSnd.ofClu (by decide) | exact a12.pairClu (by decide) | exact a12.cluFst | exact a12.cluSnd | exact a12.cluFst.ofClu (by decide) | exact a12.cluSnd.ofClu (by decide) | exact a14.regsClu (by decide) | exact a14.ofCluRegs (by decide) | exact a15.regsCh (by decide) | exact a15.ofChRegs (by decide) | exact a16.seqOf | exact a17.ofClu (by decide) | exact a18.ofClu (by decide) | exact a19.ofCh (by decide) | exact a22.regsClu (by decide) | exact a22.ofCluRegs (by decide) | exact a23.regsClu (by decide) | exact a23.ofCluRegs (by decide))

theorem State.creditReturn_changes {K : List Foot} {s x : State} (c) (h : Evolves K s x) (a0 : Allows K (.one (.reg (cluOff c Reg.plnSluice)))) (a1 : Allows K (.one (.lane c))) :
    Evolves K s (State.creditReturn x c) := by
  unfold State.creditReturn
  repeat' (first | with_reducible refine fun _ => ?_ | lift_lets | (with_reducible intro y; first | (refine Evolves.cut (K := K) (s := s) (y := y) ?_ ?_ <;> first | (clear_value y; with_reducible intro hy) | simp -zeta -zetaHave only [y]) | (simp -zeta -zetaHave only [y]; clear y) | (clear_value y; clear y)) | with_reducible (first | exact h | assumption | apply State.wrF_changes | apply State.setLane_changes | apply Evolves.ite) | (split))
  all_goals (with_reducible first | assumption)

theorem State.scrCommit_changes {K : List Foot} {s x : State} (c) (h : Evolves K s x) (a0 : Allows K (.chReg Reg.tgScrActHi)) (a1 : Allows K (.chReg Reg.tgScrActLo)) :
    Evolves K s (State.scrCommit x c) := by
  unfold State.scrCommit
  repeat' (first | with_reducible refine fun _ => ?_ | with_reducible (first | exact h | assumption | apply State.wr_changes | apply Evolves.foldl))
  all_goals (with_reducible first | assumption | exact a0.ofCh (by decide) | exact a1.ofCh (by decide))

theorem State.selectSource_changes {K : List Foot} {s x : State} (n) (src) (start) (h : Evolves K s x) (a0 : Allows K (.pair (chOff n Reg.tgCkmPeriodHi))) (a1 : Allows K (.one (.reg (chOff n Reg.peStatus)))) (a2 : Allows K (.one (.chan n))) :
    Evolves K s (State.selectSource x n src start) := by
  unfold State.selectSource
  repeat' (first | with_reducible refine fun _ => ?_ | lift_lets | (with_reducible intro y; first | (refine Evolves.cut (K := K) (s := s) (y := y) ?_ ?_ <;> first | (clear_value y; with_reducible intro hy) | simp -zeta -zetaHave only [y]) | (simp -zeta -zetaHave only [y]; clear y) | (clear_value y; clear y)) | with_reducible (first | exact h | assumption | apply State.raise_changes | apply State.clockSource_changes | apply State.setSource_changes | apply Evolves.ite) | (split))
  all_goals (with_reducible first | assumption | exact a0.fst | exact a0.snd)

theorem State.applyMarker_changes {K : List Foot} {s x : State} (c) (w) (start) (h : Evolves K s x) (a0 : Allows K (.one (.lane c))) (a1 : Allows K (.chReg Reg.tgScrActHi)) (a2 : Allows K (.chReg Reg.tgScrActLo)) (a3 : Allows K (.chPair Reg.tgCkmPeriodHi)) (a4 : Allows K (.chReg Reg.peStatus)) (a5 : Allows K .chans) :
    Evolves K s (State.applyMarker x c w start) := by
  unfold State.applyMarker
  repeat' (first | with_reducible refine fun _ => ?_ | lift_lets | (with_reducible intro y; first | (refine Evolves.cut (K := K) (s := s) (y := y) ?_ ?_ <;> first | (clear_value y; with_reducible intro hy) | simp -zeta -zetaHave only [y]) | (simp -zeta -zetaHave only [y]; clear y) | (clear_value y; clear y)) | with_reducible (first | exact h | assumption | apply State.modLane_changes | apply State.scrCommit_changes | apply State.selectSource_changes | apply Evolves.ite | apply Evolves.foldl) | (split))
  all_goals (with_reducible first | assumption | exact a1.ofCh (by decide) | exact a2.ofCh (by decide) | exact a3.pairCh (by decide) | exact a3.chFst | exact a3.chSnd | exact a3.chFst.ofCh (by decide) | exact a3.chSnd.ofCh (by decide) | exact a4.ofCh (by decide) | exact a5.chanOf)

theorem State.alignedTimeout_changes {K : List Foot} {s x : State} (h : Evolves K s x) (a0 : Allows K .seqs) (a1 : Allows K (.one .plan)) (a2 : Allows K .lanes) (a3 : Allows K (.one (.reg Reg.plnState))) (a4 : Allows K (.pair Reg.cwyFlags)) :
    Evolves K s (State.alignedTimeout x) := by
  unfold State.alignedTimeout
  try simp -zeta -zetaHave only [State.fold_plan]
  repeat' (first | with_reducible refine fun _ => ?_ | lift_lets | (with_reducible intro y; first | (refine Evolves.cut (K := K) (s := s) (y := y) ?_ ?_ <;> first | (clear_value y; with_reducible intro hy) | simp -zeta -zetaHave only [y]) | (simp -zeta -zetaHave only [y]; clear y) | (clear_value y; clear y)) | with_reducible (first | exact h | assumption | apply State.masterEnd_changes | apply State.planStop_changes | apply State.raise_changes | apply State.putPlan_changes | apply Evolves.ite) | (split))
  all_goals (with_reducible first | assumption | exact a0.seqOf | exact a2.laneOf | exact a4.fst | exact a4.snd)

theorem State.gapAccount_changes {K : List Foot} {s x : State} (c) (v) (h : Evolves K s x) (a0 : Allows K (.one (.lane c))) (a1 : Allows K (.pair (cluOff c Reg.plnGapLenLo))) (a2 : Allows K (.one .plan)) (a3 : Allows K .events) (a4 : Allows K (.pair (cluOff c Reg.plnFlags))) (a5 : Allows K (.one (.reg (cluOff c Reg.plnGapCnt)))) (a6 : Allows K (.pair (cluOff c Reg.plnGapFirstLo))) :
    Evolves K s (State.gapAccount x c v) := by
  unfold State.gapAccount
  try simp -zeta -zetaHave only [State.fold_plan]
  repeat' (first | with_reducible refine fun _ => ?_ | lift_lets | (with_reducible intro y; first | (refine Evolves.cut (K := K) (s := s) (y := y) ?_ ?_ <;> first | (clear_value y; with_reducible intro hy) | simp -zeta -zetaHave only [y]) | (simp -zeta -zetaHave only [y]; clear y) | (clear_value y; clear y)) | with_reducible (first | exact h | assumption | apply State.modLane_changes | apply State.wr64_changes | apply State.underrunMark_changes | apply State.count_changes | apply State.putPlan_changes | apply Evolves.ite) | (split))
  all_goals (with_reducible first | assumption | exact a1.fst | exact a1.snd | exact a3.vectorOfEvents | exact a3.logOfEvents | exact a3.evrPairOfEvents | exact a3.evrOfEvents | exact a3.vectorsOfEvents | exact a3.evrStatusOfEvents | exact a3.evrDropOfEvents | exact a3.evrCommitOfEvents | exact a3.evrLogOfEvents | exact a3.evrLogBseqOfEvents | exact a4.fst | exact a4.snd | exact a6.fst | exact a6.snd)

theorem State.issueVec_changes {K : List Foot} {s x : State} (c) (v) (m) (h : Evolves K s x) (a0 : Allows K (.one (.lane c))) (a1 : Allows K (.one (.reg (cluOff c Reg.ddsStatus)))) (a2 : Allows K (.chReg Reg.peWmon)) (a3 : Allows K (.chReg Reg.pmuWmon)) (a4 : Allows K (.chPair Reg.tgFlags)) (a5 : Allows K (.pair (cluOff c Reg.plnGapLenLo))) (a6 : Allows K (.one .plan)) (a7 : Allows K .events) (a8 : Allows K (.pair (cluOff c Reg.plnFlags))) (a9 : Allows K (.one (.reg (cluOff c Reg.plnGapCnt)))) (a10 : Allows K (.pair (cluOff c Reg.plnGapFirstLo))) (a11 : Allows K (.chReg Reg.tgScrActHi)) (a12 : Allows K (.chReg Reg.tgScrActLo)) (a13 : Allows K (.chPair Reg.tgCkmPeriodHi)) (a14 : Allows K (.chReg Reg.peStatus)) (a15 : Allows K .chans) :
    Evolves K s (State.issueVec x c v m) := by
  unfold State.issueVec
  repeat' (first | with_reducible refine fun _ => ?_ | lift_lets | (with_reducible intro y; first | (refine Evolves.cut (K := K) (s := s) (y := y) ?_ ?_ <;> first | (clear_value y; with_reducible intro hy) | simp -zeta -zetaHave only [y]) | (simp -zeta -zetaHave only [y]; clear y) | (clear_value y; clear y)) | with_reducible (first | exact h | assumption | apply State.modLane_changes | apply State.wrB_changes | apply State.wmonClear_changes | apply State.raiseIf_changes | apply State.gapAccount_changes | apply State.applyMarker_changes | apply Evolves.ite | apply Evolves.foldl) | (split))
  all_goals (with_reducible first | assumption | exact a2.ofCh (by decide) | exact a3.ofCh (by decide) | exact a4.pairCh (by decide) | exact a4.chFst | exact a4.chSnd | exact a4.chFst.ofCh (by decide) | exact a4.chSnd.ofCh (by decide) | exact a5.fst | exact a5.snd | exact a7.vectorOfEvents | exact a7.logOfEvents | exact a7.evrPairOfEvents | exact a7.evrOfEvents | exact a7.vectorsOfEvents | exact a7.evrStatusOfEvents | exact a7.evrDropOfEvents | exact a7.evrCommitOfEvents | exact a7.evrLogOfEvents | exact a7.evrLogBseqOfEvents | exact a8.fst | exact a8.snd | exact a10.fst | exact a10.snd | exact a11.ofCh (by decide) | exact a12.ofCh (by decide) | exact a13.pairCh (by decide) | exact a13.chFst | exact a13.chSnd | exact a13.chFst.ofCh (by decide) | exact a13.chSnd.ofCh (by decide) | exact a14.ofCh (by decide) | exact a15.chanOf)

theorem State.cmdStream_changes {K : List Foot} {s x : State} (h : Evolves K s x) (a0 : Allows K .completion) :
    Evolves K s (State.cmdStream x) := by
  unfold State.cmdStream
  repeat' (first | with_reducible refine fun _ => ?_ | lift_lets | (with_reducible intro y; first | (refine Evolves.cut (K := K) (s := s) (y := y) ?_ ?_ <;> first | (clear_value y; with_reducible intro hy) | simp -zeta -zetaHave only [y]) | (simp -zeta -zetaHave only [y]; clear y) | (clear_value y; clear y)) | with_reducible (first | exact h | assumption | apply State.runCmd_changes | apply State.complete_changes | apply State.bgStart_changes | apply Evolves.ite) | (split))
  all_goals (with_reducible first | assumption | exact a0.vectorOfCompletion | exact a0.ringsOfCompletion | exact a0.hostMemOfCompletion | exact a0.vectorsOfCompletion | exact a0.cplTailOfCompletion | exact a0.cplDropOfCompletion)

theorem State.slotRegs_changes {K : List Foot} {s x : State} (h : Evolves K s x) (a0 : Allows K (.pair Reg.plnSlotLo)) :
    Evolves K s (State.slotRegs x) := by
  unfold State.slotRegs
  repeat' (first | with_reducible refine fun _ => ?_ | with_reducible (first | exact h | assumption | apply State.wr64_changes))
  all_goals (with_reducible first | assumption | exact a0.fst | exact a0.snd)

theorem State.streamEnd_changes {K : List Foot} {s x : State} (c) (st) (h : Evolves K s x) (a0 : Allows K .completion) :
    Evolves K s (State.streamEnd x c st) := by
  unfold State.streamEnd
  try simp -zeta -zetaHave only [State.fold_hst]
  repeat' (first | with_reducible refine fun _ => ?_ | lift_lets | (with_reducible intro y; first | (refine Evolves.cut (K := K) (s := s) (y := y) ?_ ?_ <;> first | (clear_value y; with_reducible intro hy) | simp -zeta -zetaHave only [y]) | (simp -zeta -zetaHave only [y]; clear y) | (clear_value y; clear y)) | with_reducible (first | exact h | assumption | apply State.complete_changes | apply State.putHst_rings | apply Evolves.foldl) | (split))
  all_goals (with_reducible first | assumption | exact a0.vectorOfCompletion | exact a0.ringsOfCompletion | exact a0.hostMemOfCompletion | exact a0.vectorsOfCompletion | exact a0.cplTailOfCompletion | exact a0.cplDropOfCompletion)

theorem State.streamPost_changes {K : List Foot} {s x : State} (c) (data) (h : Evolves K s x) (a0 : Allows K .completion) (a1 : Allows K (.one (.lane c))) (a2 : Allows K (.one (.reg (cluOff c Reg.plnSluicePos)))) (a3 : Allows K (.one (.reg (cluOff c Reg.plnSluice)))) (a4 : Allows K .drams) :
    Evolves K s (State.streamPost x c data) := by
  unfold State.streamPost
  try simp -zeta -zetaHave only [State.fold_hst]
  repeat' (first | with_reducible refine fun _ => ?_ | lift_lets | (with_reducible intro y; first | (refine Evolves.cut (K := K) (s := s) (y := y) ?_ ?_ <;> first | (clear_value y; with_reducible intro hy) | simp -zeta -zetaHave only [y]) | (simp -zeta -zetaHave only [y]; clear y) | (clear_value y; clear y)) | with_reducible (first | exact h | assumption | apply State.streamEnd_changes | apply State.postBlocks_changes | apply State.dramWr_changes | apply State.putHst_rings | apply Evolves.ite) | (split))
  all_goals (with_reducible first | assumption | exact a0.vectorOfCompletion | exact a0.ringsOfCompletion | exact a0.hostMemOfCompletion | exact a0.vectorsOfCompletion | exact a0.cplTailOfCompletion | exact a0.cplDropOfCompletion | exact a4.dramOf)

theorem State.setSlot_changes {K : List Foot} {s x : State} (n) (x') (len) (h : Evolves K s x) (a0 : Allows K (.one .plan)) :
    Evolves K s (State.setSlot x n x' len) := by
  unfold State.setSlot
  try simp -zeta -zetaHave only [State.fold_plan]
  repeat' (first | with_reducible refine fun _ => ?_ | lift_lets | (with_reducible intro y; first | (refine Evolves.cut (K := K) (s := s) (y := y) ?_ ?_ <;> first | (clear_value y; with_reducible intro hy) | simp -zeta -zetaHave only [y]) | (simp -zeta -zetaHave only [y]; clear y) | (clear_value y; clear y)) | with_reducible (first | exact h | assumption | apply State.putPlan_changes) | (split))
  all_goals (with_reducible first | assumption)

theorem State.cmdStage_changes {K : List Foot} {s x : State} (data) (h : Evolves K s x) (a0 : Allows K .completion) (a1 : Allows K (.pair Reg.plnSlotLo)) (a2 : Allows K (.one .plan)) (a3 : Allows K .drams) :
    Evolves K s (State.cmdStage x data) := by
  unfold State.cmdStage
  repeat' (first | with_reducible refine fun _ => ?_ | lift_lets | (with_reducible intro y; first | (refine Evolves.cut (K := K) (s := s) (y := y) ?_ ?_ <;> first | (clear_value y; with_reducible intro hy) | simp -zeta -zetaHave only [y]) | (simp -zeta -zetaHave only [y]; clear y) | (clear_value y; clear y)) | with_reducible (first | exact h | assumption | apply State.runCmd_changes | apply State.complete_changes | apply State.slotRegs_changes | apply State.setSlot_changes | apply State.dramWr_changes | apply Evolves.ite | apply Evolves.foldl) | (split))
  all_goals (with_reducible first | assumption | exact a0.vectorOfCompletion | exact a0.ringsOfCompletion | exact a0.hostMemOfCompletion | exact a0.vectorsOfCompletion | exact a0.cplTailOfCompletion | exact a0.cplDropOfCompletion | exact a1.fst | exact a1.snd | exact a3.dramOf)

theorem State.alignedStart_changes {K : List Foot} {s x : State} (cycle) (h : Evolves K s x) (a0 : Allows K (.one .plan)) (a1 : Allows K .lanes) (a2 : Allows K .seqs) (a3 : Allows K .clus) (a4 : Allows K (.cluReg Reg.ddsStatus)) (a5 : Allows K .chans) (a6 : Allows K (.chReg Reg.tgQueue)) (a7 : Allows K (.chReg Reg.flChFail)) (a8 : Allows K (.chReg Reg.tgScrActLo)) (a9 : Allows K (.chReg Reg.tgScrActHi)) (a10 : Allows K (.chReg Reg.tgScrStgLo)) (a11 : Allows K (.chReg Reg.tgScrStgHi)) (a12 : Allows K (.cluReg Reg.plnGapCnt)) (a13 : Allows K (.cluReg Reg.plnGapFirstLo)) (a14 : Allows K (.cluReg Reg.plnGapFirstHi)) (a15 : Allows K (.cluReg Reg.plnGapLenLo)) (a16 : Allows K (.cluReg Reg.plnGapLenHi)) (a17 : Allows K (.cluReg Reg.flRecWr)) (a18 : Allows K (.cluReg Reg.flRecLost)) (a19 : Allows K (.cluReg Reg.flQueue)) (a20 : Allows K (.cluReg Reg.ddsMarkCnt)) (a21 : Allows K (.cluReg Reg.ddsGranLo)) (a22 : Allows K (.cluReg Reg.ddsGranHi)) (a23 : Allows K (.one (.reg Reg.plnState))) :
    Evolves K s (State.alignedStart x cycle) := by
  unfold State.alignedStart
  try simp -zeta -zetaHave only [State.fold_plan]
  repeat' (first | with_reducible refine fun _ => ?_ | lift_lets | (with_reducible intro y; first | (refine Evolves.cut (K := K) (s := s) (y := y) ?_ ?_ <;> first | (clear_value y; with_reducible intro hy) | simp -zeta -zetaHave only [y]) | (simp -zeta -zetaHave only [y]; clear y) | (clear_value y; clear y)) | with_reducible (first | exact h | assumption | apply State.modLane_changes | apply State.startLane_changes | apply State.wrF_changes | apply State.putPlan_changes | apply Evolves.ite | apply Evolves.foldl) | (split))
  all_goals (with_reducible first | assumption | exact a1.laneOf | exact a2.seqOf | exact a3.cluOf | exact a4.ofClu (by decide) | exact a5.chanOf | exact a6.ofCh (by decide) | exact a7.ofCh (by decide) | exact a8.ofCh (by decide) | exact a9.ofCh (by decide) | exact a10.ofCh (by decide) | exact a11.ofCh (by decide) | exact a12.ofClu (by decide) | exact a13.ofClu (by decide) | exact a14.ofClu (by decide) | exact a15.ofClu (by decide) | exact a16.ofClu (by decide) | exact a17.ofClu (by decide) | exact a18.ofClu (by decide) | exact a19.ofClu (by decide) | exact a20.ofClu (by decide) | exact a21.ofClu (by decide) | exact a22.ofClu (by decide))

theorem State.streamTimeout_changes {K : List Foot} {s x : State} (c) (h : Evolves K s x) (a0 : Allows K .completion) :
    Evolves K s (State.streamTimeout x c) := by
  unfold State.streamTimeout
  repeat' (first | with_reducible refine fun _ => ?_ | with_reducible (first | exact h | apply State.streamEnd_changes | apply Evolves.ite))
  all_goals (with_reducible first | assumption | exact a0.vectorOfCompletion | exact a0.ringsOfCompletion | exact a0.hostMemOfCompletion | exact a0.vectorsOfCompletion | exact a0.cplTailOfCompletion | exact a0.cplDropOfCompletion)

theorem State.masterStart_changes {K : List Foot} {s x : State} (us) (h : Evolves K s x) (a0 : Allows K .completion) (a1 : Allows K (.one .plan)) (a2 : Allows K (.one (.seq 32))) (a3 : Allows K (.one (.reg Reg.plnState))) (a4 : Allows K (.one (.reg Reg.plnLoadUs))) :
    Evolves K s (State.masterStart x us) := by
  unfold State.masterStart
  have key : ∀ t, Evolves K s t → ∀ (v0 : Option Cmd), ∀ (v1 : Plan), Evolves K s { t with hst := { t.hst with fg := v0 }, plan := v1 } :=
    fun t ht _ _ => ht.steps [.one .rings, .one .plan] (by simp [a0, a1, a2, a3, a4, a0.ringsOfCompletion])
      (fun p hp => by cases p <;> first | exact rfl | exact ⟨rfl, rfl⟩ | exact ⟨rfl, rfl, rfl⟩ | exact ⟨rfl, rfl, rfl, rfl⟩ | exact ⟨rfl, rfl, rfl, rfl, rfl⟩ | exact absurd hp (by simp [Foot.covers])) (fun hc => hc)
  try simp -zeta -zetaHave only [State.fold_hst, State.fold_plan]
  repeat' (first | with_reducible exact key _ (by assumption) _ _ | with_reducible refine fun _ => ?_ | lift_lets | (with_reducible intro y; first | (refine Evolves.cut (K := K) (s := s) (y := y) ?_ ?_ <;> first | (clear_value y; with_reducible intro hy) | simp -zeta -zetaHave only [y]) | (simp -zeta -zetaHave only [y]; clear y) | (clear_value y; clear y)) | with_reducible (first | exact h | assumption | apply State.settleAll_changes | apply State.bgStart_changes | apply State.modSeq_changes | apply State.wrF_changes | apply State.wr_changes | apply State.complete_changes | apply State.putHst_rings | apply State.putPlan_changes | apply Evolves.ite) | (split))
  all_goals (with_reducible first | assumption | exact a0.vectorOfCompletion | exact a0.ringsOfCompletion | exact a0.hostMemOfCompletion | exact a0.vectorsOfCompletion | exact a0.cplTailOfCompletion | exact a0.cplDropOfCompletion)

theorem State.issueNext_changes {K : List Foot} {s x : State} (c) (h : Evolves K s x) (a0 : Allows K (.one (.reg (cluOff c Reg.ddsStatus)))) (a1 : Allows K (.chReg Reg.peWmon)) (a2 : Allows K (.chReg Reg.pmuWmon)) (a3 : Allows K (.chPair Reg.tgFlags)) (a4 : Allows K (.pair (cluOff c Reg.plnGapLenLo))) (a5 : Allows K (.one .plan)) (a6 : Allows K .events) (a7 : Allows K (.pair (cluOff c Reg.plnFlags))) (a8 : Allows K (.one (.reg (cluOff c Reg.plnGapCnt)))) (a9 : Allows K (.pair (cluOff c Reg.plnGapFirstLo))) (a10 : Allows K (.chReg Reg.tgScrActHi)) (a11 : Allows K (.chReg Reg.tgScrActLo)) (a12 : Allows K (.chPair Reg.tgCkmPeriodHi)) (a13 : Allows K (.chReg Reg.peStatus)) (a14 : Allows K .chans) (a15 : Allows K .seqs) (a16 : Allows K .lanes) (a17 : Allows K (.one (.reg Reg.plnState))) :
    Evolves K s (State.issueNext x c) := by
  unfold State.issueNext
  repeat' (first | with_reducible refine fun _ => ?_ | lift_lets | (with_reducible intro y; first | (refine Evolves.cut (K := K) (s := s) (y := y) ?_ ?_ <;> first | (clear_value y; with_reducible intro hy) | simp -zeta -zetaHave only [y]) | (simp -zeta -zetaHave only [y]; clear y) | (clear_value y; clear y)) | with_reducible (first | exact h | assumption | apply State.issueVec_changes | apply State.modLane_changes | apply State.underrunAbort_changes | apply Evolves.ite) | (split))
  all_goals (with_reducible first | assumption | exact a1.ofCh (by decide) | exact a2.ofCh (by decide) | exact a3.pairCh (by decide) | exact a3.chFst | exact a3.chSnd | exact a3.chFst.ofCh (by decide) | exact a3.chSnd.ofCh (by decide) | exact a4.fst | exact a4.snd | exact a6.vectorOfEvents | exact a6.logOfEvents | exact a6.evrPairOfEvents | exact a6.evrOfEvents | exact a6.vectorsOfEvents | exact a6.evrStatusOfEvents | exact a6.evrDropOfEvents | exact a6.evrCommitOfEvents | exact a6.evrLogOfEvents | exact a6.evrLogBseqOfEvents | exact a7.fst | exact a7.snd | exact a9.fst | exact a9.snd | exact a10.ofCh (by decide) | exact a11.ofCh (by decide) | exact a12.pairCh (by decide) | exact a12.chFst | exact a12.chSnd | exact a12.chFst.ofCh (by decide) | exact a12.chSnd.ofCh (by decide) | exact a13.ofCh (by decide) | exact a14.chanOf | exact a15.seqOf | exact a16.laneOf)

theorem State.vectorIssue_changes {K : List Foot} {s x : State} (c) (ecc) (h : Evolves K s x) (a0 : Allows K .seqs) (a1 : Allows K (.one .plan)) (a2 : Allows K .lanes) (a3 : Allows K (.one (.reg Reg.plnState))) (a4 : Allows K .events) (a5 : Allows K (.one (.reg Reg.memEccAddr))) (a6 : Allows K (.pair Reg.memFlags)) (a7 : Allows K (.one (.reg (cluOff c Reg.ddsStatus)))) (a8 : Allows K (.chReg Reg.peWmon)) (a9 : Allows K (.chReg Reg.pmuWmon)) (a10 : Allows K (.chPair Reg.tgFlags)) (a11 : Allows K (.pair (cluOff c Reg.plnGapLenLo))) (a12 : Allows K (.pair (cluOff c Reg.plnFlags))) (a13 : Allows K (.one (.reg (cluOff c Reg.plnGapCnt)))) (a14 : Allows K (.pair (cluOff c Reg.plnGapFirstLo))) (a15 : Allows K (.chReg Reg.tgScrActHi)) (a16 : Allows K (.chReg Reg.tgScrActLo)) (a17 : Allows K (.chPair Reg.tgCkmPeriodHi)) (a18 : Allows K (.chReg Reg.peStatus)) (a19 : Allows K .chans) (a20 : Allows K (.one (.reg Reg.memEccCnt))) :
    Evolves K s (State.vectorIssue x c ecc) := by
  unfold State.vectorIssue
  refine Evolves.ite (fun _ => h) (fun _ => ?_)
  cases ecc
  case tableDouble r => apply State.tablesLost_changes <;> with_reducible first | assumption | exact a0.seqOf | exact a2.laneOf | exact a4.vectorOfEvents | exact a4.logOfEvents | exact a4.evrPairOfEvents | exact a4.evrOfEvents | exact a4.vectorsOfEvents | exact a4.evrStatusOfEvents | exact a4.evrDropOfEvents | exact a4.evrCommitOfEvents | exact a4.evrLogOfEvents | exact a4.evrLogBseqOfEvents | exact a6.fst | exact a6.snd | exact a8.ofCh (by decide) | exact a9.ofCh (by decide) | exact a10.pairCh (by decide) | exact a10.chFst | exact a10.chSnd | exact a10.chFst.ofCh (by decide) | exact a10.chSnd.ofCh (by decide) | exact a11.fst | exact a11.snd | exact a12.fst | exact a12.snd | exact a14.fst | exact a14.snd | exact a15.ofCh (by decide) | exact a16.ofCh (by decide) | exact a17.pairCh (by decide) | exact a17.chFst | exact a17.chSnd | exact a17.chFst.ofCh (by decide) | exact a17.chSnd.ofCh (by decide) | exact a18.ofCh (by decide) | exact a19.chanOf
  case tableSingle => apply State.issueNext_changes <;> with_reducible first | assumption | (apply State.eccCorrected_changes <;> with_reducible first | assumption | exact a0.seqOf | exact a2.laneOf | exact a4.vectorOfEvents | exact a4.logOfEvents | exact a4.evrPairOfEvents | exact a4.evrOfEvents | exact a4.vectorsOfEvents | exact a4.evrStatusOfEvents | exact a4.evrDropOfEvents | exact a4.evrCommitOfEvents | exact a4.evrLogOfEvents | exact a4.evrLogBseqOfEvents | exact a6.fst | exact a6.snd | exact a8.ofCh (by decide) | exact a9.ofCh (by decide) | exact a10.pairCh (by decide) | exact a10.chFst | exact a10.chSnd | exact a10.chFst.ofCh (by decide) | exact a10.chSnd.ofCh (by decide) | exact a11.fst | exact a11.snd | exact a12.fst | exact a12.snd | exact a14.fst | exact a14.snd | exact a15.ofCh (by decide) | exact a16.ofCh (by decide) | exact a17.pairCh (by decide) | exact a17.chFst | exact a17.chSnd | exact a17.chFst.ofCh (by decide) | exact a17.chSnd.ofCh (by decide) | exact a18.ofCh (by decide) | exact a19.chanOf) | exact a0.seqOf | exact a2.laneOf | exact a4.vectorOfEvents | exact a4.logOfEvents | exact a4.evrPairOfEvents | exact a4.evrOfEvents | exact a4.vectorsOfEvents | exact a4.evrStatusOfEvents | exact a4.evrDropOfEvents | exact a4.evrCommitOfEvents | exact a4.evrLogOfEvents | exact a4.evrLogBseqOfEvents | exact a6.fst | exact a6.snd | exact a8.ofCh (by decide) | exact a9.ofCh (by decide) | exact a10.pairCh (by decide) | exact a10.chFst | exact a10.chSnd | exact a10.chFst.ofCh (by decide) | exact a10.chSnd.ofCh (by decide) | exact a11.fst | exact a11.snd | exact a12.fst | exact a12.snd | exact a14.fst | exact a14.snd | exact a15.ofCh (by decide) | exact a16.ofCh (by decide) | exact a17.pairCh (by decide) | exact a17.chFst | exact a17.chSnd | exact a17.chFst.ofCh (by decide) | exact a17.chSnd.ofCh (by decide) | exact a18.ofCh (by decide) | exact a19.chanOf
  all_goals (apply State.issueNext_changes <;> with_reducible first | assumption | exact a0.seqOf | exact a2.laneOf | exact a4.vectorOfEvents | exact a4.logOfEvents | exact a4.evrPairOfEvents | exact a4.evrOfEvents | exact a4.vectorsOfEvents | exact a4.evrStatusOfEvents | exact a4.evrDropOfEvents | exact a4.evrCommitOfEvents | exact a4.evrLogOfEvents | exact a4.evrLogBseqOfEvents | exact a6.fst | exact a6.snd | exact a8.ofCh (by decide) | exact a9.ofCh (by decide) | exact a10.pairCh (by decide) | exact a10.chFst | exact a10.chSnd | exact a10.chFst.ofCh (by decide) | exact a10.chSnd.ofCh (by decide) | exact a11.fst | exact a11.snd | exact a12.fst | exact a12.snd | exact a14.fst | exact a14.snd | exact a15.ofCh (by decide) | exact a16.ofCh (by decide) | exact a17.pairCh (by decide) | exact a17.chFst | exact a17.chSnd | exact a17.chFst.ofCh (by decide) | exact a17.chSnd.ofCh (by decide) | exact a18.ofCh (by decide) | exact a19.chanOf)

theorem State.refillArrive_changes {K : List Foot} {s x : State} (c) (h : Evolves K s x) (a0 : Allows K (.one (.lane c))) (a1 : Allows K (.one .refills)) :
    Evolves K s (State.refillArrive x c) := by
  unfold State.refillArrive
  repeat' (first | with_reducible refine fun _ => ?_ | with_reducible (first | exact h | apply State.refillLand_changes | apply Evolves.ite) | (split))
  all_goals (with_reducible first | assumption)

theorem State.cmdStop_changes {K : List Foot} {s x : State} (h : Evolves K s x) (a0 : Allows K .completion) (a1 : Allows K .seqs) (a2 : Allows K (.one .plan)) (a3 : Allows K .lanes) (a4 : Allows K (.one (.reg Reg.plnState))) :
    Evolves K s (State.cmdStop x) := by
  unfold State.cmdStop
  try simp -zeta -zetaHave only [State.fold_plan]
  repeat' (first | with_reducible refine fun _ => ?_ | lift_lets | (with_reducible intro y; first | (refine Evolves.cut (K := K) (s := s) (y := y) ?_ ?_ <;> first | (clear_value y; with_reducible intro hy) | simp -zeta -zetaHave only [y]) | (simp -zeta -zetaHave only [y]; clear y) | (clear_value y; clear y)) | with_reducible (first | exact h | assumption | apply State.runCmd_changes | apply State.complete_changes | apply State.pendLine_changes | apply State.planStop_changes | apply State.putPlan_changes | apply Evolves.ite) | (split))
  all_goals (with_reducible first | assumption | exact a0.vectorOfCompletion | exact a0.ringsOfCompletion | exact a0.hostMemOfCompletion | exact a0.vectorsOfCompletion | exact a0.cplTailOfCompletion | exact a0.cplDropOfCompletion | exact a1.seqOf | exact a3.laneOf)


end Sys2Proof.Machine
end

