-- ==== Sys2Proof/Laws/FrameEdge.lean ====
section
/-! SUPPORT. What each operation of Machine/Edge.lean can change: from a state that has changed only parts of the footprint `K`,
the operation changes only parts of `K`, where `K` allows the operation's own footprint. -/

set_option Elab.async false
set_option linter.all false

namespace Sys2Proof.Machine

theorem State.edgeLeaves_changes {K : List Foot} {s x : State} (n) (e) (r) (h : Evolves K s x) (a0 : Allows K (.one (.chan n))) :
    Evolves K s (State.edgeLeaves x n e r) := by
  unfold State.edgeLeaves
  repeat' (first | with_reducible refine fun _ => ?_ | lift_lets | (with_reducible intro y; first | (refine Evolves.cut (K := K) (s := s) (y := y) ?_ ?_ <;> first | (clear_value y; with_reducible intro hy) | simp -zeta -zetaHave only [y]) | (simp -zeta -zetaHave only [y]; clear y) | (clear_value y; clear y)) | with_reducible (first | exact h | assumption | apply State.modChan_changes | apply Evolves.ite))
  all_goals (with_reducible first | assumption)

theorem State.strobeOpen_changes {K : List Foot} {s x : State} (n) (s1) (h : Evolves K s x) (a0 : Allows K (.one (.chan n))) :
    Evolves K s (State.strobeOpen x n s1) := by
  unfold State.strobeOpen
  repeat' (first | with_reducible refine fun _ => ?_ | lift_lets | (with_reducible intro y; first | (refine Evolves.cut (K := K) (s := s) (y := y) ?_ ?_ <;> first | (clear_value y; with_reducible intro hy) | simp -zeta -zetaHave only [y]) | (simp -zeta -zetaHave only [y]; clear y) | (clear_value y; clear y)) | with_reducible (first | exact h | assumption | apply State.modChan_changes | apply State.edgeLeaves_changes | apply Evolves.ite) | (split))
  all_goals (with_reducible first | assumption)

theorem State.senseAdd_changes {K : List Foot} {s x : State} (n) (iv) (bit) (indet) (t) (h : Evolves K s x) (a0 : Allows K (.one (.chan n))) :
    Evolves K s (State.senseAdd x n iv bit indet t) := by
  unfold State.senseAdd
  repeat' (first | with_reducible refine fun _ => ?_ | lift_lets | (with_reducible intro y; first | (refine Evolves.cut (K := K) (s := s) (y := y) ?_ ?_ <;> first | (clear_value y; with_reducible intro hy) | simp -zeta -zetaHave only [y]) | (simp -zeta -zetaHave only [y]; clear y) | (clear_value y; clear y)) | with_reducible (first | exact h | assumption | apply State.modChan_changes | apply Evolves.ite))
  all_goals (with_reducible first | assumption)

theorem State.deliver_changes {K : List Foot} {s x : State} (r) (time) (h : Evolves K s x) (a0 : Allows K (.one (.clu (r.ch / 16)))) (a1 : Allows K (.one (.lane (r.ch / 16)))) :
    Evolves K s (State.deliver x r time) := by
  unfold State.deliver
  repeat' (first | with_reducible refine fun _ => ?_ | lift_lets | (with_reducible intro y; first | (refine Evolves.cut (K := K) (s := s) (y := y) ?_ ?_ <;> first | (clear_value y; with_reducible intro hy) | simp -zeta -zetaHave only [y]) | (simp -zeta -zetaHave only [y]; clear y) | (clear_value y; clear y)) | with_reducible (first | exact h | assumption | apply State.acqOffer_changes | apply State.acqIn_changes | apply State.modLane_changes) | (split))
  all_goals (with_reducible first | assumption)

theorem State.strobeResult_changes {K : List Foot} {s x : State} (n) (e) (edge) (trace) (indet) (h : Evolves K s x) (a0 : Allows K (.one (.chan n))) (a1 : Allows K .clus) (a2 : Allows K .lanes) :
    Evolves K s (State.strobeResult x n e edge trace indet) := by
  unfold State.strobeResult
  repeat' (first | with_reducible refine fun _ => ?_ | lift_lets | (with_reducible intro y; first | (refine Evolves.cut (K := K) (s := s) (y := y) ?_ ?_ <;> first | (clear_value y; with_reducible intro hy) | simp -zeta -zetaHave only [y]) | (simp -zeta -zetaHave only [y]; clear y) | (clear_value y; clear y)) | with_reducible (first | exact h | assumption | apply State.senseAdd_changes | apply State.deliver_changes | apply Evolves.ite) | (split))
  all_goals (with_reducible first | assumption | exact a1.cluOf | exact a2.laneOf)

theorem State.strobe_changes {K : List Foot} {s x : State} (n) (s1) (opens) (trace) (h : Evolves K s x) (a0 : Allows K (.one (.chan n))) (a1 : Allows K .clus) (a2 : Allows K .lanes) :
    Evolves K s (State.strobe x n s1 opens trace) := by
  unfold State.strobe
  repeat' (first | with_reducible refine fun _ => ?_ | lift_lets | (with_reducible intro y; first | (refine Evolves.cut (K := K) (s := s) (y := y) ?_ ?_ <;> first | (clear_value y; with_reducible intro hy) | simp -zeta -zetaHave only [y]) | (simp -zeta -zetaHave only [y]; clear y) | (clear_value y; clear y)) | with_reducible (first | exact h | assumption | apply State.strobeOpen_changes | apply State.strobeResult_changes | apply State.modChan_changes | apply State.edgeLeaves_changes | apply Evolves.ite) | (split))
  all_goals (with_reducible first | assumption | exact a1.cluOf | exact a2.laneOf)

theorem State.formDrop_changes {K : List Foot} {s x : State} (c) (h : Evolves K s x) (a0 : Allows K (.one (.lane c))) :
    Evolves K s (State.formDrop x c) := by
  unfold State.formDrop
  repeat' (first | with_reducible refine fun _ => ?_ | lift_lets | (with_reducible intro y; first | (refine Evolves.cut (K := K) (s := s) (y := y) ?_ ?_ <;> first | (clear_value y; with_reducible intro hy) | simp -zeta -zetaHave only [y]) | (simp -zeta -zetaHave only [y]; clear y) | (clear_value y; clear y)) | with_reducible (first | exact h | assumption | apply State.setLane_changes) | (split))
  all_goals (with_reducible first | assumption)

theorem State.formLost_changes {K : List Foot} {s x : State} (n) (iv) (pin) (strobes) (h : Evolves K s x) (a0 : Allows K (.one (.chan n))) (a1 : Allows K (.one (.lane (n / 16)))) (a2 : Allows K (.pair (chOff n Reg.tgFlags))) :
    Evolves K s (State.formLost x n iv pin strobes) := by
  unfold State.formLost
  repeat' (first | with_reducible refine fun _ => ?_ | lift_lets | (with_reducible intro y; first | (refine Evolves.cut (K := K) (s := s) (y := y) ?_ ?_ <;> first | (clear_value y; with_reducible intro hy) | simp -zeta -zetaHave only [y]) | (simp -zeta -zetaHave only [y]; clear y) | (clear_value y; clear y)) | with_reducible (first | exact h | assumption | apply State.senseAdd_changes | apply State.modLane_changes | apply State.raise_changes | apply Evolves.ite | apply Evolves.foldl) | (split))
  all_goals (with_reducible first | assumption | exact a2.fst | exact a2.snd)

theorem State.formStrobe_changes {K : List Foot} {s x : State} (n) (iv) (pin) (s1) (h : Evolves K s x) (a0 : Allows K .chans) (a1 : Allows K (.pair (chOff n Reg.tgFlags))) :
    Evolves K s (State.formStrobe x n iv pin s1) := by
  unfold State.formStrobe
  repeat' (first | with_reducible refine fun _ => ?_ | lift_lets | (with_reducible intro y; first | (refine Evolves.cut (K := K) (s := s) (y := y) ?_ ?_ <;> first | (clear_value y; with_reducible intro hy) | simp -zeta -zetaHave only [y]) | (simp -zeta -zetaHave only [y]; clear y) | (clear_value y; clear y)) | with_reducible (first | exact h | assumption | apply State.modChan_changes | apply State.raiseIf_changes | apply Evolves.ite) | (split))
  all_goals (with_reducible first | assumption | exact a0.chanOf | exact a1.fst | exact a1.snd)

theorem State.formDrive_changes {K : List Foot} {s x : State} (n) (iv) (pin) (j) (act) (h : Evolves K s x) (a0 : Allows K .chans) (a1 : Allows K (.pair (chOff n Reg.tgFlags))) :
    Evolves K s (State.formDrive x n iv pin j act) := by
  unfold State.formDrive
  repeat' (first | with_reducible refine fun _ => ?_ | lift_lets | (with_reducible intro y; first | (refine Evolves.cut (K := K) (s := s) (y := y) ?_ ?_ <;> first | (clear_value y; with_reducible intro hy) | simp -zeta -zetaHave only [y]) | (simp -zeta -zetaHave only [y]; clear y) | (clear_value y; clear y)) | with_reducible (first | exact h | assumption | apply State.modChan_changes | apply State.raiseIf_changes) | (split))
  all_goals (with_reducible first | assumption | exact a0.chanOf | exact a1.fst | exact a1.snd)

theorem State.formVec_changes {K : List Foot} {s x : State} (n) (iv) (h : Evolves K s x) (a0 : Allows K (.one (.lane (n / 16)))) (a1 : Allows K (.pair (chOff n Reg.tgFlags))) (a2 : Allows K (.one (.reg (chOff n Reg.tgQueue)))) (a3 : Allows K .chans) :
    Evolves K s (State.formVec x n iv) := by
  unfold State.formVec
  repeat' (first | with_reducible refine fun _ => ?_ | lift_lets | (with_reducible intro y; first | (refine Evolves.cut (K := K) (s := s) (y := y) ?_ ?_ <;> first | (clear_value y; with_reducible intro hy) | simp -zeta -zetaHave only [y]) | (simp -zeta -zetaHave only [y]; clear y) | (clear_value y; clear y)) | with_reducible (first | exact h | assumption | apply State.formDrop_changes | apply State.formLost_changes | apply State.modChan_changes | apply State.wrF_changes | apply State.formStrobe_changes | apply State.formDrive_changes | apply Evolves.ite | apply Evolves.foldl) | (split))
  all_goals (with_reducible first | assumption | exact a1.fst | exact a1.snd | exact a3.chanOf)

theorem State.driveLevel_changes {K : List Foot} {s x : State} (x') (v) (turnOn) (t) (h : Evolves K s x) (a0 : Allows K (.one (.chan x'))) :
    Evolves K s (State.driveLevel x x' v turnOn t) := by
  unfold State.driveLevel
  repeat' (first | with_reducible refine fun _ => ?_ | lift_lets | (with_reducible intro y; first | (refine Evolves.cut (K := K) (s := s) (y := y) ?_ ?_ <;> first | (clear_value y; with_reducible intro hy) | simp -zeta -zetaHave only [y]) | (simp -zeta -zetaHave only [y]; clear y) | (clear_value y; clear y)) | with_reducible (first | exact h | assumption | apply State.modChan_changes | apply Evolves.ite) | (split))
  all_goals (with_reducible first | assumption)

theorem State.placeDrive_changes {K : List Foot} {s x : State} (n) (e) (h : Evolves K s x) (a0 : Allows K .chans) :
    Evolves K s (State.placeDrive x n e) := by
  unfold State.placeDrive
  repeat' (first | with_reducible refine fun _ => ?_ | lift_lets | (with_reducible intro y; first | (refine Evolves.cut (K := K) (s := s) (y := y) ?_ ?_ <;> first | (clear_value y; with_reducible intro hy) | simp -zeta -zetaHave only [y]) | (simp -zeta -zetaHave only [y]; clear y) | (clear_value y; clear y)) | with_reducible (first | exact h | assumption | apply State.driveLevel_changes | apply State.modChan_changes | apply Evolves.ite) | (split))
  all_goals (with_reducible first | assumption | exact a0.chanOf)

theorem State.edgePlace_changes {K : List Foot} {s x : State} (n) (h : Evolves K s x) (a0 : Allows K .chans) :
    Evolves K s (State.edgePlace x n) := by
  unfold State.edgePlace
  repeat' (first | with_reducible refine fun _ => ?_ | with_reducible (first | exact h | assumption | apply State.placeDrive_changes | apply State.edgeLeaves_changes | apply Evolves.ite) | (split))
  all_goals (with_reducible first | assumption | exact a0.chanOf)

theorem State.senseDrop_changes {K : List Foot} {s x : State} (c) (iv) (h : Evolves K s x) (a0 : Allows K .chans) :
    Evolves K s (State.senseDrop x c iv) := by
  unfold State.senseDrop
  repeat' (first | with_reducible refine fun _ => ?_ | lift_lets | (with_reducible intro y; first | (refine Evolves.cut (K := K) (s := s) (y := y) ?_ ?_ <;> first | (clear_value y; with_reducible intro hy) | simp -zeta -zetaHave only [y]) | (simp -zeta -zetaHave only [y]; clear y) | (clear_value y; clear y)) | with_reducible (first | exact h | assumption | apply State.modChan_changes | apply Evolves.ite | apply Evolves.foldl) | (split))
  all_goals (with_reducible first | assumption | exact a0.chanOf)

theorem State.respond_changes {K : List Foot} {s x : State} (n) (iv) (ss) (h : Evolves K s x) (a0 : Allows K .chans) (a1 : Allows K (.pair (chOff n Reg.tgFlags))) :
    Evolves K s (State.respond x n iv ss) := by
  unfold State.respond
  repeat' (first | with_reducible refine fun _ => ?_ | lift_lets | (with_reducible intro y; first | (refine Evolves.cut (K := K) (s := s) (y := y) ?_ ?_ <;> first | (clear_value y; with_reducible intro hy) | simp -zeta -zetaHave only [y]) | (simp -zeta -zetaHave only [y]; clear y) | (clear_value y; clear y)) | with_reducible (first | exact h | assumption | apply State.senseDrop_changes | apply State.modChan_changes | apply State.raise_changes | apply State.raiseIf_changes | apply Evolves.ite | apply Evolves.foldl) | (split))
  all_goals (with_reducible first | assumption | exact a0.chanOf | exact a1.fst | exact a1.snd)

theorem State.respLookup_changes {K : List Foot} {s x : State} (n) (h : Evolves K s x) (a0 : Allows K .chans) (a1 : Allows K (.pair (chOff n Reg.tgFlags))) :
    Evolves K s (State.respLookup x n) := by
  unfold State.respLookup
  repeat' (first | with_reducible refine fun _ => ?_ | extract_lets | split | with_reducible (first | exact h | assumption | apply State.respond_changes | apply Evolves.ite) | (split))
  all_goals (with_reducible first | assumption | exact a0.chanOf | exact a1.fst | exact a1.snd)

theorem State.edgeForm_changes {K : List Foot} {s x : State} (n) (h : Evolves K s x) (a0 : Allows K (.one (.lane (n / 16)))) (a1 : Allows K (.pair (chOff n Reg.tgFlags))) (a2 : Allows K (.one (.reg (chOff n Reg.tgQueue)))) (a3 : Allows K .chans) :
    Evolves K s (State.edgeForm x n) := by
  unfold State.edgeForm
  repeat' (first | with_reducible refine fun _ => ?_ | with_reducible (first | exact h | assumption | apply State.formVec_changes | apply Evolves.ite) | (split))
  all_goals (with_reducible first | assumption | exact a1.fst | exact a1.snd | exact a3.chanOf)


end Sys2Proof.Machine
end

