-- ==== Sys2Proof/Laws/FramePinFront.lean ====
section
/-! SUPPORT. What each operation of Machine/PinFront.lean can change: from a state that has changed only parts of the footprint `K`,
the operation changes only parts of `K`, where `K` allows the operation's own footprint. -/

set_option Elab.async false
set_option linter.all false

namespace Sys2Proof.Machine

theorem State.combineNote_changes {K : List Foot} {s x : State} (n) (h : Evolves K s x) (a0 : Allows K (.one (.reg (chOff (n + 1) Reg.pmuStatus)))) (a1 : Allows K (.one (.reg (chOff n Reg.pmuStatus)))) :
    Evolves K s (State.combineNote x n) := by
  unfold State.combineNote
  repeat' (first | with_reducible refine fun _ => ?_ | with_reducible (first | exact h | apply State.wrB_changes | apply Evolves.ite))
  all_goals (with_reducible first | assumption)

theorem State.watchLost_changes {K : List Foot} {s x : State} (n) (h : Evolves K s x) (a0 : Allows K (.one (.chan (n + 1)))) (a1 : Allows K (.one (.chan n))) :
    Evolves K s (State.watchLost x n) := by
  unfold State.watchLost
  repeat' (first | with_reducible refine fun _ => ?_ | lift_lets | (with_reducible intro y; first | (refine Evolves.cut (K := K) (s := s) (y := y) ?_ ?_ <;> first | (clear_value y; with_reducible intro hy) | simp -zeta -zetaHave only [y]) | (simp -zeta -zetaHave only [y]; clear y) | (clear_value y; clear y)) | with_reducible (first | exact h | assumption | apply State.modChan_changes | apply Evolves.ite) | (split))
  all_goals (with_reducible first | assumption)

theorem State.rangeStart_changes {K : List Foot} {s x : State} (n) (h : Evolves K s x) (a0 : Allows K (.one (.chan n))) (a1 : Allows K (.one (.reg (chOff n Reg.pmuStatus)))) (a2 : Allows K (.one (.reg (chOff n Reg.peStatus)))) (a3 : Allows K (.one (.chan (n + 1)))) :
    Evolves K s (State.rangeStart x n) := by
  unfold State.rangeStart
  repeat' (first | with_reducible refine fun _ => ?_ | lift_lets | (with_reducible intro y; first | (refine Evolves.cut (K := K) (s := s) (y := y) ?_ ?_ <;> first | (clear_value y; with_reducible intro hy) | simp -zeta -zetaHave only [y]) | (simp -zeta -zetaHave only [y]; clear y) | (clear_value y; clear y)) | with_reducible (first | exact h | assumption | apply State.modPmu_changes | apply State.wrB_changes | apply State.modChan_changes | apply State.watchLost_changes | apply Evolves.ite) | (split))
  all_goals (with_reducible first | assumption)

theorem State.hostStrobe_changes {K : List Foot} {s x : State} (c) (v) (h : Evolves K s x) (a0 : Allows K (.chReg Reg.tiaLine)) (a1 : Allows K .chans) (a2 : Allows K (.one (.reg Reg.memRetWakes))) (a3 : Allows K (.one (.reg Reg.memRetState))) (a4 : Allows K (.pair (cluOff c Reg.peClFlags))) (a5 : Allows K (.one (.clu c))) :
    Evolves K s (State.hostStrobe x c v) := by
  unfold State.hostStrobe
  repeat' (first | with_reducible refine fun _ => ?_ | lift_lets | (with_reducible intro y; first | (refine Evolves.cut (K := K) (s := s) (y := y) ?_ ?_ <;> first | (clear_value y; with_reducible intro hy) | simp -zeta -zetaHave only [y]) | (simp -zeta -zetaHave only [y]; clear y) | (clear_value y; clear y)) | with_reducible (first | exact h | assumption | apply State.wake_changes | apply State.raise_changes | apply State.modClu_changes | apply Evolves.ite) | (split))
  all_goals (with_reducible first | assumption | exact a0.ofCh (by decide) | exact a1.chanOf | exact a4.fst | exact a4.snd)

theorem State.monGo_changes {K : List Foot} {s x : State} (c) (h : Evolves K s x) (a0 : Allows K (.one (.reg (cluOff c Reg.peMonCtl)))) (a1 : Allows K (.one (.clu c))) (a2 : Allows K (.one (.reg (cluOff c Reg.peMonMismatch)))) :
    Evolves K s (State.monGo x c) := by
  unfold State.monGo
  repeat' (first | with_reducible refine fun _ => ?_ | lift_lets | (with_reducible intro y; first | (refine Evolves.cut (K := K) (s := s) (y := y) ?_ ?_ <;> first | (clear_value y; with_reducible intro hy) | simp -zeta -zetaHave only [y]) | (simp -zeta -zetaHave only [y]; clear y) | (clear_value y; clear y)) | with_reducible (first | exact h | assumption | apply State.wrB_changes | apply State.modClu_changes | apply State.wr_changes | apply Evolves.ite) | (split))
  all_goals (with_reducible first | assumption)

theorem State.monStart_changes {K : List Foot} {s x : State} (c) (v) (h : Evolves K s x) (a0 : Allows K (.one (.reg (cluOff c Reg.peMonCtl)))) (a1 : Allows K (.one (.clu c))) (a2 : Allows K (.one (.reg (cluOff c Reg.peMonMismatch)))) (a3 : Allows K (.chReg Reg.tiaLine)) (a4 : Allows K .chans) (a5 : Allows K (.one (.reg Reg.memRetWakes))) (a6 : Allows K (.one (.reg Reg.memRetState))) :
    Evolves K s (State.monStart x c v) := by
  unfold State.monStart
  repeat' (first | with_reducible refine fun _ => ?_ | lift_lets | (with_reducible intro y; first | (refine Evolves.cut (K := K) (s := s) (y := y) ?_ ?_ <;> first | (clear_value y; with_reducible intro hy) | simp -zeta -zetaHave only [y]) | (simp -zeta -zetaHave only [y]; clear y) | (clear_value y; clear y)) | with_reducible (first | exact h | assumption | apply State.monGo_changes | apply State.modClu_changes | apply State.plainWrite_changes | apply State.wake_changes | apply Evolves.ite) | (split))
  all_goals (with_reducible first | assumption | exact a3.ofCh (by decide) | exact a4.chanOf)

theorem State.stagingWrite_changes {K : List Foot} {s x : State} (n) (o) (v) (h : Evolves K s x) (a0 : Allows K (.one (.reg (chOff n o)))) (a1 : Allows K (.pair (chOff n Reg.peFlags))) (a2 : Allows K (.pair (chOff n Reg.pmuFlags))) :
    Evolves K s (State.stagingWrite x n o v) := by
  unfold State.stagingWrite
  repeat' (first | with_reducible refine fun _ => ?_ | with_reducible (first | exact h | apply State.plainWrite_changes | apply State.raise_changes | apply Evolves.ite))
  all_goals (with_reducible first | assumption | exact a1.fst | exact a1.snd | exact a2.fst | exact a2.snd)

theorem State.clampCut_changes {K : List Foot} {s x : State} (n) (at_) (h : Evolves K s x) (a0 : Allows K (.one (.chan n))) :
    Evolves K s (State.clampCut x n at_) := by
  unfold State.clampCut
  repeat' (first | with_reducible refine fun _ => ?_ | lift_lets | (with_reducible intro y; first | (refine Evolves.cut (K := K) (s := s) (y := y) ?_ ?_ <;> first | (clear_value y; with_reducible intro hy) | simp -zeta -zetaHave only [y]) | (simp -zeta -zetaHave only [y]; clear y) | (clear_value y; clear y)) | with_reducible (first | exact h | assumption | apply State.modPmu_changes | apply Evolves.ite))
  all_goals (with_reducible first | assumption)

theorem State.rangeFrom_changes {K : List Foot} {s x : State} (n) (at_) (h : Evolves K s x) (a0 : Allows K (.one (.chan n))) (a1 : Allows K (.one (.reg (chOff n Reg.pmuStatus)))) (a2 : Allows K (.one (.reg (chOff n Reg.peStatus)))) (a3 : Allows K (.one (.chan (n + 1)))) :
    Evolves K s (State.rangeFrom x n at_) := by
  unfold State.rangeFrom
  repeat' (first | with_reducible refine fun _ => ?_ | with_reducible (first | exact h | apply State.rangeStart_changes | apply State.clampCut_changes))
  all_goals (with_reducible first | assumption)

theorem State.combineRange_changes {K : List Foot} {s x : State} (before) (n) (at_) (h : Evolves K s x) (a0 : Allows K (.one (.reg (chOff (n + 1) Reg.pmuStatus)))) (a1 : Allows K (.one (.reg (chOff n Reg.pmuStatus)))) (a2 : Allows K (.one (.chan (n + 1)))) (a3 : Allows K (.one (.reg (chOff (n + 1) Reg.peStatus)))) (a4 : Allows K (.one (.chan (n + 1 + 1)))) (a5 : Allows K (.one (.chan n))) (a6 : Allows K (.one (.reg (chOff n Reg.peStatus)))) :
    Evolves K s (State.combineRange before x n at_) := by
  unfold State.combineRange
  repeat' (first | with_reducible refine fun _ => ?_ | with_reducible (first | exact h | apply State.combineNote_changes | apply State.rangeFrom_changes | apply Evolves.ite))
  all_goals (with_reducible first | assumption)

theorem State.strobeReset_changes {K : List Foot} {s x : State} (n) (asks) (h : Evolves K s x) (a0 : Allows K (.one (.chan n))) :
    Evolves K s (State.strobeReset x n asks) := by
  unfold State.strobeReset
  repeat' (first | with_reducible refine fun _ => ?_ | lift_lets | (with_reducible intro y; first | (refine Evolves.cut (K := K) (s := s) (y := y) ?_ ?_ <;> first | (clear_value y; with_reducible intro hy) | simp -zeta -zetaHave only [y]) | (simp -zeta -zetaHave only [y]; clear y) | (clear_value y; clear y)) | with_reducible (first | exact h | assumption | apply State.modPmu_changes | apply Evolves.ite))
  all_goals (with_reducible first | assumption)

theorem State.setActive_changes {K : List Foot} {s x : State} (n) (l) (h : Evolves K s x) (a0 : Allows K (.regs (chOff n 320) (chOff n 360))) (a1 : Allows K (.regs (chOff n 1088) (chOff n 1108))) :
    Evolves K s (State.setActive x n l) := by
  unfold State.setActive
  refine Evolves.foldl_mem (fun t o ho ht => State.wr_changes _ _ ht ?_) h
  have hb : (320 ≤ o + 0x40 ∧ o + 0x40 < 360) ∨ (1088 ≤ o + 0x40 ∧ o + 0x40 < 1108) := by
    revert o; decide
  rcases hb with hb | hb
  · exact a0.inRegs (by unfold chOff at *; omega)
  · exact a1.inRegs (by unfold chOff at *; omega)

theorem State.rampStart_changes {K : List Foot} {s x : State} (n) (h : Evolves K s x) (a0 : Allows K (.one (.chan n))) (a1 : Allows K (.one (.reg (chOff n Reg.peStatus)))) :
    Evolves K s (State.rampStart x n) := by
  unfold State.rampStart
  repeat' (first | with_reducible refine fun _ => ?_ | lift_lets | (with_reducible intro y; first | (refine Evolves.cut (K := K) (s := s) (y := y) ?_ ?_ <;> first | (clear_value y; with_reducible intro hy) | simp -zeta -zetaHave only [y]) | (simp -zeta -zetaHave only [y]; clear y) | (clear_value y; clear y)) | with_reducible (first | exact h | assumption | apply State.modChan_changes | apply State.wrB_changes | apply Evolves.ite) | (split))
  all_goals (with_reducible first | assumption)

theorem State.strobeChan_changes {K : List Foot} {s x : State} (n) (marker) (at_) (h : Evolves K s x) (a0 : Allows K (.pair (chOff n Reg.peFlags))) (a1 : Allows K (.one (.chan n))) (a2 : Allows K (.regs (chOff n 320) (chOff n 360))) (a3 : Allows K (.regs (chOff n 1088) (chOff n 1108))) (a4 : Allows K (.one (.reg (chOff n Reg.peStatus)))) (a5 : Allows K (.one (.reg (chOff n Reg.pmuStatus)))) (a6 : Allows K (.one (.chan (n + 1)))) :
    Evolves K s (State.strobeChan x n marker at_) := by
  unfold State.strobeChan
  repeat' (first | with_reducible refine fun _ => ?_ | lift_lets | (with_reducible intro y; first | (refine Evolves.cut (K := K) (s := s) (y := y) ?_ ?_ <;> first | (clear_value y; with_reducible intro hy) | simp -zeta -zetaHave only [y]) | (simp -zeta -zetaHave only [y]; clear y) | (clear_value y; clear y)) | with_reducible (first | exact h | assumption | apply State.raiseIf_changes | apply State.strobeReset_changes | apply State.raise_changes | apply State.setActive_changes | apply State.rampStart_changes | apply State.rangeFrom_changes | apply Evolves.ite) | (split))
  all_goals (with_reducible first | assumption | exact a0.fst | exact a0.snd | exact a2.inRegs (by decide) | exact a2.pairInRegs (by decide) | exact a2.regsInRegs (by decide) | exact a3.inRegs (by decide) | exact a3.pairInRegs (by decide) | exact a3.regsInRegs (by decide))

theorem State.strobeAll_changes {K : List Foot} {s x : State} (c) (marker) (at_) (h : Evolves K s x) (a0 : Allows K (.chReg Reg.pmuStatus)) (a1 : Allows K .chans) (a2 : Allows K (.chReg Reg.peStatus)) (a3 : Allows K (.one (.reg (cluOff c Reg.peLdstbCnt)))) (a4 : Allows K (.chPair Reg.peFlags)) (a5 : Allows K (.chRegs 320 360)) (a6 : Allows K (.chRegs 1088 1108)) :
    Evolves K s (State.strobeAll x c marker at_) := by
  unfold State.strobeAll
  repeat' (first | with_reducible refine fun _ => ?_ | lift_lets | (with_reducible intro y; first | (refine Evolves.cut (K := K) (s := s) (y := y) ?_ ?_ <;> first | (clear_value y; with_reducible intro hy) | simp -zeta -zetaHave only [y]) | (simp -zeta -zetaHave only [y]; clear y) | (clear_value y; clear y)) | with_reducible (first | exact h | assumption | apply State.combineRange_changes | apply State.wr_changes | apply State.strobeChan_changes | apply Evolves.foldl) | (split))
  all_goals (with_reducible first | assumption | exact a0.ofCh (by decide) | exact a1.chanOf | exact a2.ofCh (by decide) | exact a4.pairCh (by decide) | exact a4.chFst | exact a4.chSnd | exact a4.chFst.ofCh (by decide) | exact a4.chSnd.ofCh (by decide) | exact a5.regsCh (by decide) | exact a5.ofChRegs (by decide) | exact a6.regsCh (by decide) | exact a6.ofChRegs (by decide))

theorem State.loadStrobe_changes {K : List Foot} {s x : State} (c) (marker) (at_) (h : Evolves K s x) (a0 : Allows K (.chReg Reg.pmuStatus)) (a1 : Allows K .chans) (a2 : Allows K (.chReg Reg.peStatus)) (a3 : Allows K (.one (.reg (cluOff c Reg.peLdstbCnt)))) (a4 : Allows K (.chPair Reg.peFlags)) (a5 : Allows K (.chRegs 320 360)) (a6 : Allows K (.chRegs 1088 1108)) (a7 : Allows K (.one (.lane c))) (a8 : Allows K (.one (.clu c))) :
    Evolves K s (State.loadStrobe x c marker at_) := by
  unfold State.loadStrobe
  repeat' (first | with_reducible refine fun _ => ?_ | lift_lets | (with_reducible intro y; first | (refine Evolves.cut (K := K) (s := s) (y := y) ?_ ?_ <;> first | (clear_value y; with_reducible intro hy) | simp -zeta -zetaHave only [y]) | (simp -zeta -zetaHave only [y]; clear y) | (clear_value y; clear y)) | with_reducible (first | exact h | assumption | apply State.strobeAll_changes | apply State.modLane_changes | apply State.modClu_changes | apply Evolves.ite) | (split))
  all_goals (with_reducible first | assumption | exact a0.ofCh (by decide) | exact a1.chanOf | exact a2.ofCh (by decide) | exact a4.pairCh (by decide) | exact a4.chFst | exact a4.chSnd | exact a4.chFst.ofCh (by decide) | exact a4.chSnd.ofCh (by decide) | exact a5.regsCh (by decide) | exact a5.ofChRegs (by decide) | exact a6.regsCh (by decide) | exact a6.ofChRegs (by decide))

theorem State.rangeEnd_changes {K : List Foot} {s x : State} (n) (h : Evolves K s x) (a0 : Allows K (.one (.chan n))) (a1 : Allows K (.one (.reg (chOff n Reg.pmuStatus)))) (a2 : Allows K (.one (.reg (chOff n Reg.peStatus)))) :
    Evolves K s (State.rangeEnd x n) := by
  unfold State.rangeEnd
  repeat' (first | with_reducible refine fun _ => ?_ | lift_lets | (with_reducible intro y; first | (refine Evolves.cut (K := K) (s := s) (y := y) ?_ ?_ <;> first | (clear_value y; with_reducible intro hy) | simp -zeta -zetaHave only [y]) | (simp -zeta -zetaHave only [y]; clear y) | (clear_value y; clear y)) | with_reducible (first | exact h | assumption | apply State.modPmu_changes | apply State.wrB_changes | apply State.wr_changes | apply Evolves.ite) | (split))
  all_goals (with_reducible first | assumption)

theorem State.wmonLatch_changes {K : List Foot} {s x : State} (n) (low) (h : Evolves K s x) (a0 : Allows K (.pair (chOff n Reg.peWmon))) (a1 : Allows K (.one (.clu (n / 16)))) :
    Evolves K s (State.wmonLatch x n low) := by
  unfold State.wmonLatch
  repeat' (first | with_reducible refine fun _ => ?_ | lift_lets | (with_reducible intro y; first | (refine Evolves.cut (K := K) (s := s) (y := y) ?_ ?_ <;> first | (clear_value y; with_reducible intro hy) | simp -zeta -zetaHave only [y]) | (simp -zeta -zetaHave only [y]; clear y) | (clear_value y; clear y)) | with_reducible (first | exact h | assumption | apply State.raise_changes | apply State.acqIn_changes | apply Evolves.ite) | (split))
  all_goals (with_reducible first | assumption | exact a0.fst | exact a0.snd)

theorem State.crossing_changes {K : List Foot} {s x : State} (n) (low) (pos) (latches) (h : Evolves K s x) (a0 : Allows K (.pair (chOff n Reg.peWmon))) (a1 : Allows K (.one (.clu (n / 16)))) (a2 : Allows K (.one (.reg (chOff n Reg.peStatus)))) (a3 : Allows K (.one (.chan n))) :
    Evolves K s (State.crossing x n low pos latches) := by
  unfold State.crossing
  repeat' (first | with_reducible refine fun _ => ?_ | lift_lets | (with_reducible intro y; first | (refine Evolves.cut (K := K) (s := s) (y := y) ?_ ?_ <;> first | (clear_value y; with_reducible intro hy) | simp -zeta -zetaHave only [y]) | (simp -zeta -zetaHave only [y]; clear y) | (clear_value y; clear y)) | with_reducible (first | exact h | assumption | apply State.wmonLatch_changes | apply State.wrB_changes | apply State.modChan_changes | apply Evolves.ite) | (split))
  all_goals (with_reducible first | assumption | exact a0.fst | exact a0.snd)

theorem State.parkPad_changes {K : List Foot} {s x : State} (n) (h : Evolves K s x) (a0 : Allows K (.one (.chan n))) (a1 : Allows K (.one (.reg (chOff n Reg.pmuStatus)))) (a2 : Allows K (.one (.reg (chOff n Reg.peStatus)))) (a3 : Allows K (.one (.chan (n + 1)))) :
    Evolves K s (State.parkPad x n) := by
  unfold State.parkPad
  repeat' (first | with_reducible refine fun _ => ?_ | lift_lets | (with_reducible intro y; first | (refine Evolves.cut (K := K) (s := s) (y := y) ?_ ?_ <;> first | (clear_value y; with_reducible intro hy) | simp -zeta -zetaHave only [y]) | (simp -zeta -zetaHave only [y]; clear y) | (clear_value y; clear y)) | with_reducible (first | exact h | assumption | apply State.modChan_changes | apply State.wr_changes | apply State.watchLost_changes) | (split))
  all_goals (with_reducible first | assumption)

theorem State.rampStep_changes {K : List Foot} {s x : State} (n) (h : Evolves K s x) (a0 : Allows K (.pair (chOff n Reg.peFlags))) (a1 : Allows K (.one (.reg (chOff n Reg.peStatus)))) (a2 : Allows K (.one (.chan n))) :
    Evolves K s (State.rampStep x n) := by
  unfold State.rampStep
  simp -zeta -zetaHave only [List.foldl_cons, List.foldl_nil]
  repeat' (first | with_reducible refine fun _ => ?_ | lift_lets | (with_reducible intro y; first | (refine Evolves.cut (K := K) (s := s) (y := y) ?_ ?_ <;> first | (clear_value y; with_reducible intro hy) | simp -zeta -zetaHave only [y]) | (simp -zeta -zetaHave only [y]; clear y) | (clear_value y; clear y)) | with_reducible (first | exact h | assumption | apply State.raiseIf_changes | apply State.wrB_changes | apply State.modChan_changes | apply Evolves.ite | apply Evolves.foldl) | (split))
  all_goals (with_reducible first | assumption | exact a0.fst | exact a0.snd)

theorem State.monEnd_changes {K : List Foot} {s x : State} (c) (raw) (recent) (h : Evolves K s x) (a0 : Allows K (.one (.reg (cluOff c Reg.peMonCtl)))) (a1 : Allows K (.one (.clu c))) (a2 : Allows K (.one (.reg (cluOff c Reg.peMonMismatch)))) (a3 : Allows K (.pair (cluOff c Reg.peClFlags))) (a4 : Allows K (.one (.reg (cluOff c Reg.peMonResult)))) :
    Evolves K s (State.monEnd x c raw recent) := by
  unfold State.monEnd
  split
  · exact h
  · extract_lets m code s1 e skip off s3 s2
    have h1 : Evolves K s s1 := State.wr_changes _ _ h a4
    have h3 : Evolves K s s3 := State.raise_changes _ _ h1 a3
    clear_value s3 s1
    have h2 : Evolves K s s2 := Evolves.ite (fun _ => Evolves.ite (fun _ => h3) (fun _ => State.wrB_changes _ _ _ h3 a2)) (fun _ => h1)
    apply State.monGo_changes <;> with_reducible first | assumption | skip
    exact State.modClu_changes _ _ h2 a1


end Sys2Proof.Machine
end

