-- ==== Sys2Proof/Laws/FrameFail.lean ====
section
/-! SUPPORT. What each operation of Machine/Fail.lean can change: from a state that has changed only parts of the footprint `K`,
the operation changes only parts of `K`, where `K` allows the operation's own footprint. -/

set_option Elab.async false
set_option linter.all false

namespace Sys2Proof.Machine

theorem State.setFailByte_changes {K : List Foot} {s x : State} (a) (v) (h : Evolves K s x) (a0 : Allows K .failCnts) :
    Evolves K s (State.setFailByte x a v) := by
  unfold State.setFailByte
  try simp -zeta -zetaHave only [State.fold_mem]
  repeat' (first | with_reducible refine fun _ => ?_ | lift_lets | (with_reducible intro y; first | (refine Evolves.cut (K := K) (s := s) (y := y) ?_ ?_ <;> first | (clear_value y; with_reducible intro hy) | simp -zeta -zetaHave only [y]) | (simp -zeta -zetaHave only [y]; clear y) | (clear_value y; clear y)) | with_reducible (first | exact h | assumption | apply State.putMem_failCnts))
  all_goals (with_reducible first | assumption | exact Tbl.wf_filter _ _ (by assumption) | exact Tbl.wf_set _ _ _ (by assumption) | exact Tbl.wf_setList _ _ _ (by assumption))

theorem State.cellCount_changes {K : List Foot} {s x : State} (site) (a) (spare) (msb) (lsb) (read) (h : Evolves K s x) (a0 : Allows K (.one (.reg (Reg.flSiteStatus + 16 * site)))) (a1 : Allows K .failCnts) (a2 : Allows K .events) (a3 : Allows K (.one (.reg Reg.memEccAddr))) (a4 : Allows K (.pair Reg.memFlags)) (a5 : Allows K (.one (.reg Reg.memEccCnt))) (a6 : Allows K (.one (.reg (Reg.flSiteMr + 16 * site)))) :
    Evolves K s (State.cellCount x site a spare msb lsb read) := by
  unfold State.cellCount
  repeat' (first | with_reducible refine fun _ => ?_ | lift_lets | (with_reducible intro y; first | (refine Evolves.cut (K := K) (s := s) (y := y) ?_ ?_ <;> first | (clear_value y; with_reducible intro hy) | simp -zeta -zetaHave only [y]) | (simp -zeta -zetaHave only [y]; clear y) | (clear_value y; clear y)) | with_reducible (first | exact h | assumption | apply State.wrB_changes | apply State.setFailByte_changes | apply State.eccUncorr_changes | apply State.eccCorrected_changes | apply State.countF_changes | apply Evolves.ite) | (split))
  all_goals (with_reducible first | assumption | exact a2.vectorOfEvents | exact a2.logOfEvents | exact a2.evrPairOfEvents | exact a2.evrOfEvents | exact a2.vectorsOfEvents | exact a2.evrStatusOfEvents | exact a2.evrDropOfEvents | exact a2.evrCommitOfEvents | exact a2.evrLogOfEvents | exact a2.evrLogBseqOfEvents | exact a4.fst | exact a4.snd)

theorem State.newCell_changes {K : List Foot} {s x : State} (c) (site) (x') (row) (col) (h : Evolves K s x) (a0 : Allows K (.one (.reg (Reg.flSiteStatus + 16 * site)))) (a1 : Allows K .failCnts) (a2 : Allows K .events) (a3 : Allows K (.one (.reg Reg.memEccAddr))) (a4 : Allows K (.pair Reg.memFlags)) (a5 : Allows K (.one (.reg Reg.memEccCnt))) (a6 : Allows K (.one (.reg (Reg.flSiteMr + 16 * site)))) (a7 : Allows K (.one .plan)) :
    Evolves K s (State.newCell x c site x' row col) := by
  unfold State.newCell
  try simp -zeta -zetaHave only [State.fold_plan]
  repeat' (first | with_reducible refine fun _ => ?_ | lift_lets | (with_reducible intro y; first | (refine Evolves.cut (K := K) (s := s) (y := y) ?_ ?_ <;> first | (clear_value y; with_reducible intro hy) | simp -zeta -zetaHave only [y]) | (simp -zeta -zetaHave only [y]; clear y) | (clear_value y; clear y)) | with_reducible (first | exact h | assumption | apply State.cellCount_changes | apply State.wrB_changes | apply State.post_changes | apply State.putPlan_changes | apply Evolves.ite) | (split))
  all_goals (with_reducible first | assumption | exact a2.vectorOfEvents | exact a2.logOfEvents | exact a2.evrPairOfEvents | exact a2.evrOfEvents | exact a2.vectorsOfEvents | exact a2.evrStatusOfEvents | exact a2.evrDropOfEvents | exact a2.evrCommitOfEvents | exact a2.evrLogOfEvents | exact a2.evrLogBseqOfEvents | exact a4.fst | exact a4.snd)

theorem State.bmpUpdate_changes {K : List Foot} {s x : State} (c) (e) (row) (col) (h : Evolves K s x) (a0 : Allows K (.pair (cluOff c Reg.flFlags))) (a1 : Allows K (.one (.reg (Reg.flSiteStatus + 16 * ↑e.site)))) (a2 : Allows K .failCnts) (a3 : Allows K .events) (a4 : Allows K (.one (.reg Reg.memEccAddr))) (a5 : Allows K (.pair Reg.memFlags)) (a6 : Allows K (.one (.reg Reg.memEccCnt))) (a7 : Allows K (.one (.reg (Reg.flSiteMr + 16 * ↑e.site)))) (a8 : Allows K (.one .plan)) (a9 : Allows K .drams) :
    Evolves K s (State.bmpUpdate x c e row col) := by
  unfold State.bmpUpdate
  repeat' (first | with_reducible refine fun _ => ?_ | lift_lets | (with_reducible intro y; first | (refine Evolves.cut (K := K) (s := s) (y := y) ?_ ?_ <;> first | (clear_value y; with_reducible intro hy) | simp -zeta -zetaHave only [y]) | (simp -zeta -zetaHave only [y]; clear y) | (clear_value y; clear y)) | with_reducible (first | exact h | assumption | apply State.raiseIf_changes | apply State.newCell_changes | apply State.dramWr_changes | apply Evolves.ite) | (split))
  all_goals (with_reducible first | assumption | exact a0.fst | exact a0.snd | exact a3.vectorOfEvents | exact a3.logOfEvents | exact a3.evrPairOfEvents | exact a3.evrOfEvents | exact a3.vectorsOfEvents | exact a3.evrStatusOfEvents | exact a3.evrDropOfEvents | exact a3.evrCommitOfEvents | exact a3.evrLogOfEvents | exact a3.evrLogBseqOfEvents | exact a5.fst | exact a5.snd | exact a9.dramOf)

theorem State.recordWrite_changes {K : List Foot} {s x : State} (c) (e) (h : Evolves K s x) (a0 : Allows K (.one (.reg (cluOff c Reg.flRecWr)))) (a1 : Allows K (.one (.lane c))) (a2 : Allows K .drams) (a3 : Allows K (.pair (cluOff c Reg.flFlags))) (a4 : Allows K (.one (.reg (cluOff c Reg.flRecLost)))) :
    Evolves K s (State.recordWrite x c e) := by
  unfold State.recordWrite
  repeat' (first | with_reducible refine fun _ => ?_ | lift_lets | (with_reducible intro y; first | (refine Evolves.cut (K := K) (s := s) (y := y) ?_ ?_ <;> first | (clear_value y; with_reducible intro hy) | simp -zeta -zetaHave only [y]) | (simp -zeta -zetaHave only [y]; clear y) | (clear_value y; clear y)) | with_reducible (first | exact h | assumption | apply State.wr_changes | apply State.modLane_changes | apply State.dramWr_changes | apply State.raise_changes | apply State.count_changes | apply Evolves.ite) | (split))
  all_goals (with_reducible first | assumption | exact a2.dramOf | exact a3.fst | exact a3.snd)

theorem State.siteOf_lt (s : State) (n : Nat) {k : Nat} (h : s.siteOf n = some k) : k < 64 := by
  unfold State.siteOf at h
  dsimp only at h
  split at h
  · cases h; exact Nat.mod_lt _ (by decide)
  · cases h

theorem State.failDrain_changes {K : List Foot} {s x : State} (c) (row) (col) (h : Evolves K s x) (a0 : Allows K (.pair (cluOff c Reg.flFlags))) (a1 : Allows K .failCnts) (a2 : Allows K .events) (a3 : Allows K (.one (.reg Reg.memEccAddr))) (a4 : Allows K (.pair Reg.memFlags)) (a5 : Allows K (.one (.reg Reg.memEccCnt))) (a6 : Allows K (.one .plan)) (a7 : Allows K .drams) (a8 : Allows K (.one (.reg (cluOff c Reg.flRecWr)))) (a9 : Allows K (.one (.lane c))) (a10 : Allows K (.one (.reg (cluOff c Reg.flRecLost)))) (a11 : Allows K (.regs Reg.flSiteFail (Reg.flSiteFail + 1024))) (a12 : Allows K (.regs Reg.flFirst (Reg.flFirst + 2048))) :
    Evolves K s (State.failDrain x c row col) := by
  unfold State.failDrain
  split
  · exact h
  · rename_i e t _
    have he := e.site.isLt
    have b1 : Allows K (.one (.reg (Reg.flSiteStatus + 16 * e.site))) := a11.inRegs (by unfold Reg.flSiteFail Reg.flSiteStatus; omega)
    have b2 : Allows K (.one (.reg (Reg.flSiteMr + 16 * e.site))) := a11.inRegs (by unfold Reg.flSiteFail Reg.flSiteMr; omega)
    apply State.bmpUpdate_changes <;> with_reducible first | assumption | skip
    apply State.recordWrite_changes <;> with_reducible first | assumption | skip
    exact State.modLane_changes _ _ h a9

theorem State.windowWrite_changes {K : List Foot} {s x : State} (off) (v) (drain) (h : Evolves K s x) (a0 : Allows K (.one (.reg Reg.memCollide))) (a1 : Allows K .failCnts) (a2 : Allows K (.cluPair Reg.flFlags)) (a3 : Allows K .events) (a4 : Allows K (.one (.reg Reg.memEccAddr))) (a5 : Allows K (.pair Reg.memFlags)) (a6 : Allows K (.one (.reg Reg.memEccCnt))) (a7 : Allows K (.one .plan)) (a8 : Allows K .drams) (a9 : Allows K (.cluReg Reg.flRecWr)) (a10 : Allows K .lanes) (a11 : Allows K (.cluReg Reg.flRecLost)) (a12 : Allows K (.regs Reg.flSiteFail (Reg.flSiteFail + 1024))) (a13 : Allows K (.regs Reg.flFirst (Reg.flFirst + 2048))) :
    Evolves K s (State.windowWrite x off v drain) := by
  unfold State.windowWrite
  repeat' (first | with_reducible refine fun _ => ?_ | lift_lets | (with_reducible intro y; first | (refine Evolves.cut (K := K) (s := s) (y := y) ?_ ?_ <;> first | (clear_value y; with_reducible intro hy) | simp -zeta -zetaHave only [y]) | (simp -zeta -zetaHave only [y]; clear y) | (clear_value y; clear y)) | with_reducible (first | exact h | assumption | apply State.count_changes | apply State.setFailByte_changes | apply State.failDrain_changes | apply Evolves.ite | apply Evolves.foldl) | (split))
  all_goals (with_reducible first | assumption | exact a2.pairClu (by decide) | exact a2.cluFst | exact a2.cluSnd | exact a2.cluFst.ofClu (by decide) | exact a2.cluSnd.ofClu (by decide) | exact a3.vectorOfEvents | exact a3.logOfEvents | exact a3.evrPairOfEvents | exact a3.evrOfEvents | exact a3.vectorsOfEvents | exact a3.evrStatusOfEvents | exact a3.evrDropOfEvents | exact a3.evrCommitOfEvents | exact a3.evrLogOfEvents | exact a3.evrLogBseqOfEvents | exact a5.fst | exact a5.snd | exact a8.dramOf | exact a9.ofClu (by decide) | exact a10.laneOf | exact a11.ofClu (by decide) | exact a12.inRegs (by decide) | exact a12.pairInRegs (by decide) | exact a12.regsInRegs (by decide) | exact a13.inRegs (by decide) | exact a13.pairInRegs (by decide) | exact a13.regsInRegs (by decide))

theorem State.siteMaskWrite_changes {K : List Foot} {s x : State} (h') (v) (h : Evolves K s x) (a0 : Allows K (.one (.reg (match h' with | Half.lo => Reg.flSiteMaskLo | Half.hi => Reg.flSiteMaskHi)))) :
    Evolves K s (State.siteMaskWrite x h' v) := by
  unfold State.siteMaskWrite
  repeat' (first | with_reducible refine fun _ => ?_ | lift_lets | (with_reducible intro y; first | (refine Evolves.cut (K := K) (s := s) (y := y) ?_ ?_ <;> first | (clear_value y; with_reducible intro hy) | simp -zeta -zetaHave only [y]) | (simp -zeta -zetaHave only [y]; clear y) | (clear_value y; clear y)) | with_reducible (first | exact h | apply State.wr_changes) | (split))
  all_goals (with_reducible first | assumption)

theorem State.flConfig_changes {K : List Foot} {s x : State} (r) (v) (h : Evolves K s x) (a0 : Allows K (.pair Reg.flDevFlags)) (a1 : Allows K (.one (.reg (flOff r)))) :
    Evolves K s (State.flConfig x r v) := by
  unfold State.flConfig
  repeat' (first | with_reducible refine fun _ => ?_ | with_reducible (first | exact h | apply State.raise_changes | apply State.plainWrite_changes | apply Evolves.ite))
  all_goals (with_reducible first | assumption | exact a0.fst | exact a0.snd)

theorem State.siteClear_changes {K : List Foot} {s x : State} (k) (h : Evolves K s x) (a0 : Allows K (.one (.reg (Reg.flSiteStatus + 16 * k)))) (a1 : Allows K (.one (.reg (Reg.flSiteMr + 16 * k)))) (a2 : Allows K .failCnts) :
    Evolves K s (State.siteClear x k) := by
  unfold State.siteClear
  try simp -zeta -zetaHave only [State.fold_mem]
  repeat' (first | with_reducible refine fun _ => ?_ | lift_lets | (with_reducible intro y; first | (refine Evolves.cut (K := K) (s := s) (y := y) ?_ ?_ <;> first | (clear_value y; with_reducible intro hy) | simp -zeta -zetaHave only [y]) | (simp -zeta -zetaHave only [y]; clear y) | (clear_value y; clear y)) | with_reducible (first | exact h | assumption | apply State.wrF_changes | apply State.wr_changes | apply State.putMem_failCnts) | (split))
  all_goals (with_reducible first | assumption | exact Tbl.wf_filter _ _ (by assumption) | exact Tbl.wf_set _ _ _ (by assumption) | exact Tbl.wf_setList _ _ _ (by assumption))

theorem State.flClear_changes {K : List Foot} {s x : State} (v) (h : Evolves K s x) (a0 : Allows K (.pair Reg.flDevFlags)) (a1 : Allows K (.one .plan)) (a2 : Allows K (.one (.reg Reg.flClear))) (a3 : Allows K .failCnts) (a4 : Allows K (.regs Reg.flSiteFail (Reg.flSiteFail + 1024))) :
    Evolves K s (State.flClear x v) := by
  unfold State.flClear
  refine Evolves.ite (fun _ => h) (fun _ => Evolves.ite (fun _ => State.raise_changes _ _ h a0) (fun _ => ?_))
  extract_lets l s1
  have hl : ∀ k ∈ l, k < 64 := by
    intro k hk
    simp only [l] at hk
    split at hk
    · exact List.mem_range.mp hk
    · cases List.mem_singleton.mp hk; exact Nat.mod_lt _ (by decide)
  have h1 : Evolves K s s1 := by
    refine State.wrB_changes _ _ _ (Evolves.foldl_mem (fun t k hk ht => ?_) h) a2
    have := hl k hk
    exact State.siteClear_changes _ ht (a4.inRegs (by unfold Reg.flSiteFail Reg.flSiteStatus; omega))
      (a4.inRegs (by unfold Reg.flSiteFail Reg.flSiteMr; omega)) a3
  exact State.putPlan_changes _ h1 a1

theorem State.failEnter_changes {K : List Foot} {s x : State} (c) (kind) (site) (r) (h : Evolves K s x) (a0 : Allows K (.pair (cluOff c Reg.flFlags))) (a1 : Allows K (.one (.lane c))) (a2 : Allows K (.one (.reg (cluOff c Reg.flRecLost)))) (a3 : Allows K (.one (.reg (Reg.flSiteStatus + 16 * site)))) (a4 : Allows K (.one (.reg (cluOff c Reg.flQueue)))) :
    Evolves K s (State.failEnter x c kind site r) := by
  unfold State.failEnter
  repeat' (first | with_reducible refine fun _ => ?_ | lift_lets | (with_reducible intro y; first | (refine Evolves.cut (K := K) (s := s) (y := y) ?_ ?_ <;> first | (clear_value y; with_reducible intro hy) | simp -zeta -zetaHave only [y]) | (simp -zeta -zetaHave only [y]; clear y) | (clear_value y; clear y)) | with_reducible (first | exact h | assumption | apply State.raise_changes | apply State.setLane_changes | apply State.count_changes | apply State.wrB_changes | apply State.wrF_changes | apply State.modLane_changes | apply Evolves.ite) | (split))
  all_goals (with_reducible first | assumption | exact a0.fst | exact a0.snd)

theorem State.firstFail_changes {K : List Foot} {s x : State} (site) (bytes) (h : Evolves K s x) (a0 : Allows K (.one (.reg (Reg.flSiteStatus + 16 * site)))) (a1 : Allows K (.regs (Reg.flFirst + 32 * site) (Reg.flFirst + 32 * site + 32))) :
    Evolves K s (State.firstFail x site bytes) := by
  unfold State.firstFail
  refine Evolves.ite (fun _ => h) (fun _ => Evolves.foldl_mem (fun t w hw ht => ?_) (State.wrB_changes _ _ _ h a0))
  have := List.mem_range.mp hw
  exact State.wr_changes _ _ ht (a1.inRegs (by omega))

theorem State.siteResult_changes {K : List Foot} {s x : State} (c) (site) (r) (h : Evolves K s x) (a0 : Allows K (.pair (cluOff c Reg.flFlags))) (a1 : Allows K (.one (.lane c))) (a2 : Allows K (.one (.reg (cluOff c Reg.flRecLost)))) (a3 : Allows K (.one (.reg (Reg.flSiteStatus + 16 * site)))) (a4 : Allows K (.one (.reg (cluOff c Reg.flQueue)))) (a5 : Allows K (.regs (Reg.flFirst + 32 * site) (Reg.flFirst + 32 * site + 32))) (a6 : Allows K (.one (.reg (chOff r.ch Reg.flChFail)))) (a7 : Allows K (.one (.reg (Reg.flSiteFail + 16 * site)))) (a8 : Allows K (.one (.reg (Reg.flSiteIndet + 16 * site)))) :
    Evolves K s (State.siteResult x c site r) := by
  unfold State.siteResult
  repeat' (first | with_reducible refine fun _ => ?_ | lift_lets | (with_reducible intro y; first | (refine Evolves.cut (K := K) (s := s) (y := y) ?_ ?_ <;> first | (clear_value y; with_reducible intro hy) | simp -zeta -zetaHave only [y]) | (simp -zeta -zetaHave only [y]; clear y) | (clear_value y; clear y)) | with_reducible (first | exact h | assumption | apply State.failEnter_changes | apply State.modLane_changes | apply State.firstFail_changes | apply State.count_changes | apply Evolves.ite) | (split))
  all_goals (with_reducible first | assumption | exact a0.fst | exact a0.snd | exact a5.inRegs (by decide) | exact a5.pairInRegs (by decide) | exact a5.regsInRegs (by decide))

theorem State.judge_changes {K : List Foot} {s x : State} (c) (r) (h : Evolves K s x) (a0 : Allows K (.one (.lane c))) (a1 : Allows K (.one (.reg (chOff r.ch Reg.flChLast)))) (a2 : Allows K (.pair (cluOff c Reg.flFlags))) (a3 : Allows K (.one (.reg (cluOff c Reg.flRecLost)))) (a4 : Allows K (.one (.reg (cluOff c Reg.flQueue)))) (a5 : Allows K (.one (.reg (chOff r.ch Reg.flChFail)))) (a6 : Allows K (.regs Reg.flSiteFail (Reg.flSiteFail + 1024))) (a7 : Allows K (.regs Reg.flFirst (Reg.flFirst + 2048))) :
    Evolves K s (State.judge x c r) := by
  unfold State.judge
  refine Evolves.ite (fun _ => Evolves.ite (fun _ => State.modLane_changes _ _ h a0) (fun _ => h)) (fun _ => ?_)
  extract_lets o s0 l m s1
  have h0 : Evolves K s s0 := Evolves.ite (fun _ => State.wrF_changes _ _ _ _ h a1) (fun _ => State.wrF_changes _ _ _ _ h a1)
  have h1 : Evolves K s s1 := Evolves.ite (fun _ => State.setLane_changes _ _ h0 a0) (fun _ => h0)
  clear_value s1 s0 m l
  refine Evolves.ite (fun _ => h1) (fun _ => ?_)
  split
  · exact h1
  · rename_i k hk
    have hk := State.siteOf_lt _ _ hk
    refine Evolves.ite (fun _ => h1) (fun _ => ?_)
    apply State.siteResult_changes <;> with_reducible first | assumption | skip
    all_goals first
      | exact a6.inRegs (by first | (unfold Reg.flSiteFail Reg.flSiteStatus; omega) | (unfold Reg.flSiteFail Reg.flSiteIndet; omega) | (unfold Reg.flSiteFail; omega))
      | exact a7.regsInRegs (by omega)

theorem State.judgeNext_changes {K : List Foot} {s x : State} (c) (h : Evolves K s x) (a0 : Allows K (.one (.lane c))) (a1 : Allows K (.chReg Reg.flChLast)) (a2 : Allows K (.pair (cluOff c Reg.flFlags))) (a3 : Allows K (.one (.reg (cluOff c Reg.flRecLost)))) (a4 : Allows K (.one (.reg (cluOff c Reg.flQueue)))) (a5 : Allows K (.chReg Reg.flChFail)) (a6 : Allows K (.regs Reg.flSiteFail (Reg.flSiteFail + 1024))) (a7 : Allows K (.regs Reg.flFirst (Reg.flFirst + 2048))) :
    Evolves K s (State.judgeNext x c) := by
  unfold State.judgeNext
  repeat' (first | with_reducible refine fun _ => ?_ | lift_lets | (with_reducible intro y; first | (refine Evolves.cut (K := K) (s := s) (y := y) ?_ ?_ <;> first | (clear_value y; with_reducible intro hy) | simp -zeta -zetaHave only [y]) | (simp -zeta -zetaHave only [y]; clear y) | (clear_value y; clear y)) | with_reducible (first | exact h | assumption | apply State.judge_changes | apply State.modLane_changes) | (split))
  all_goals (with_reducible first | assumption | exact a1.ofCh (by decide) | exact a2.fst | exact a2.snd | exact a5.ofCh (by decide) | exact a6.inRegs (by decide) | exact a6.pairInRegs (by decide) | exact a6.regsInRegs (by decide) | exact a7.inRegs (by decide) | exact a7.pairInRegs (by decide) | exact a7.regsInRegs (by decide))

theorem State.lostWrite_changes {K : List Foot} {s x : State} (c) (h : Evolves K s x) (a0 : Allows K (.one (.reg (cluOff c Reg.flRecWr)))) (a1 : Allows K (.one (.lane c))) (a2 : Allows K .drams) :
    Evolves K s (State.lostWrite x c) := by
  unfold State.lostWrite
  repeat' (first | with_reducible refine fun _ => ?_ | lift_lets | (with_reducible intro y; first | (refine Evolves.cut (K := K) (s := s) (y := y) ?_ ?_ <;> first | (clear_value y; with_reducible intro hy) | simp -zeta -zetaHave only [y]) | (simp -zeta -zetaHave only [y]; clear y) | (clear_value y; clear y)) | with_reducible (first | exact h | assumption | apply State.wr_changes | apply State.setLane_changes | apply State.dramWr_changes | apply Evolves.ite) | (split))
  all_goals (with_reducible first | assumption | exact a2.dramOf)

theorem State.bmpZero_changes {K : List Foot} {s x : State} (k) (h : Evolves K s x) (a0 : Allows K .drams) :
    Evolves K s (State.bmpZero x k) := by
  unfold State.bmpZero
  try simp -zeta -zetaHave only [State.fold_mem]
  repeat' (first | with_reducible refine fun _ => ?_ | lift_lets | (with_reducible intro y; first | (refine Evolves.cut (K := K) (s := s) (y := y) ?_ ?_ <;> first | (clear_value y; with_reducible intro hy) | simp -zeta -zetaHave only [y]) | (simp -zeta -zetaHave only [y]; clear y) | (clear_value y; clear y)) | with_reducible (first | exact h | assumption | apply State.putMem_drams) | (split))
  all_goals (with_reducible first | assumption | exact a0.dramOf | exact Tbl.wf_filter _ _ (by assumption) | exact Tbl.wf_set _ _ _ (by assumption) | exact Tbl.wf_setList _ _ _ (by assumption))

theorem State.flClearDone_changes {K : List Foot} {s x : State} (h : Evolves K s x) (a0 : Allows K (.one .plan)) (a1 : Allows K (.one (.reg Reg.flClear))) (a2 : Allows K .drams) :
    Evolves K s (State.flClearDone x) := by
  unfold State.flClearDone
  try simp -zeta -zetaHave only [State.fold_plan]
  repeat' (first | with_reducible refine fun _ => ?_ | lift_lets | (with_reducible intro y; first | (refine Evolves.cut (K := K) (s := s) (y := y) ?_ ?_ <;> first | (clear_value y; with_reducible intro hy) | simp -zeta -zetaHave only [y]) | (simp -zeta -zetaHave only [y]; clear y) | (clear_value y; clear y)) | with_reducible (first | exact h | assumption | apply State.wrB_changes | apply State.bmpZero_changes | apply State.putPlan_changes | apply Evolves.ite | apply Evolves.foldl) | (split))
  all_goals (with_reducible first | assumption | exact a2.dramOf)


end Sys2Proof.Machine
end

