-- ==== Sys2Proof/Laws/FrameTia.lean ====
section
/-! SUPPORT. What each operation of Machine/Tia.lean can change: from a state that has changed only parts of the footprint `K`,
the operation changes only parts of `K`, where `K` allows the operation's own footprint. -/

set_option Elab.async false
set_option linter.all false

namespace Sys2Proof.Machine

theorem State.tiaLost_changes {K : List Foot} {s x : State} (n) (mode) (start) (h : Evolves K s x) (a0 : Allows K (.one (.chan n))) (a1 : Allows K (.one (.reg (chOff n Reg.tiaDiscard)))) :
    Evolves K s (State.tiaLost x n mode start) := by
  unfold State.tiaLost
  repeat' (first | with_reducible refine fun _ => ?_ | lift_lets | (with_reducible intro y; first | (refine Evolves.cut (K := K) (s := s) (y := y) ?_ ?_ <;> first | (clear_value y; with_reducible intro hy) | simp -zeta -zetaHave only [y]) | (simp -zeta -zetaHave only [y]; clear y) | (clear_value y; clear y)) | with_reducible (first | exact h | assumption | apply State.modTia_changes | apply State.countF_changes | apply Evolves.ite))
  all_goals (with_reducible first | assumption)

theorem State.tiaPut_changes {K : List Foot} {s x : State} (n) (lo) (v) (h : Evolves K s x) (a0 : Allows K (.pair (chOff n lo))) :
    Evolves K s (State.tiaPut x n lo v) := by
  unfold State.tiaPut
  repeat' (first | with_reducible refine fun _ => ?_ | with_reducible (first | exact h | apply State.wr64_changes))
  all_goals (with_reducible first | assumption | exact a0.fst | exact a0.snd)

theorem State.tiaEnd_changes {K : List Foot} {s x : State} (n) (code) (h : Evolves K s x) (a0 : Allows K .events) (a1 : Allows K (.one (.chan n))) (a2 : Allows K (.one (.reg (chOff n Reg.tiaStatus)))) (a3 : Allows K (.pair (chOff n Reg.tiaMaxLo))) (a4 : Allows K (.pair (chOff n Reg.tiaMinLo))) (a5 : Allows K (.pair (chOff n Reg.tiaSdevLo))) (a6 : Allows K (.pair (chOff n Reg.tiaMeanLo))) :
    Evolves K s (State.tiaEnd x n code) := by
  unfold State.tiaEnd
  repeat' (first | with_reducible refine fun _ => ?_ | lift_lets | (with_reducible intro y; first | (refine Evolves.cut (K := K) (s := s) (y := y) ?_ ?_ <;> first | (clear_value y; with_reducible intro hy) | simp -zeta -zetaHave only [y]) | (simp -zeta -zetaHave only [y]; clear y) | (clear_value y; clear y)) | with_reducible (first | exact h | assumption | apply State.post_changes | apply State.modTia_changes | apply State.wrF_changes | apply State.tiaPut_changes | apply Evolves.ite) | (split))
  all_goals (with_reducible first | assumption | exact a0.vectorOfEvents | exact a0.logOfEvents | exact a0.evrPairOfEvents | exact a0.evrOfEvents | exact a0.vectorsOfEvents | exact a0.evrStatusOfEvents | exact a0.evrDropOfEvents | exact a0.evrCommitOfEvents | exact a0.evrLogOfEvents | exact a0.evrLogBseqOfEvents | exact a3.fst | exact a3.snd | exact a4.fst | exact a4.snd | exact a5.fst | exact a5.snd | exact a6.fst | exact a6.snd)

theorem State.tiaFull_changes {K : List Foot} {s x : State} (n) (h : Evolves K s x) (a0 : Allows K .events) (a1 : Allows K (.one (.chan n))) (a2 : Allows K (.one (.reg (chOff n Reg.tiaStatus)))) (a3 : Allows K (.pair (chOff n Reg.tiaMaxLo))) (a4 : Allows K (.pair (chOff n Reg.tiaMinLo))) (a5 : Allows K (.pair (chOff n Reg.tiaSdevLo))) (a6 : Allows K (.pair (chOff n Reg.tiaMeanLo))) :
    Evolves K s (State.tiaFull x n) := by
  unfold State.tiaFull
  repeat' (first | with_reducible refine fun _ => ?_ | with_reducible (first | exact h | apply State.tiaEnd_changes | apply Evolves.ite))
  all_goals (with_reducible first | assumption | exact a0.vectorOfEvents | exact a0.logOfEvents | exact a0.evrPairOfEvents | exact a0.evrOfEvents | exact a0.vectorsOfEvents | exact a0.evrStatusOfEvents | exact a0.evrDropOfEvents | exact a0.evrCommitOfEvents | exact a0.evrLogOfEvents | exact a0.evrLogBseqOfEvents | exact a3.fst | exact a3.snd | exact a4.fst | exact a4.snd | exact a5.fst | exact a5.snd | exact a6.fst | exact a6.snd)

theorem State.tiaResult_changes {K : List Foot} {s x : State} (n) (v) (interval) (h : Evolves K s x) (a0 : Allows K .events) (a1 : Allows K (.one (.chan n))) (a2 : Allows K (.one (.reg (chOff n Reg.tiaStatus)))) (a3 : Allows K (.pair (chOff n Reg.tiaMaxLo))) (a4 : Allows K (.pair (chOff n Reg.tiaMinLo))) (a5 : Allows K (.pair (chOff n Reg.tiaSdevLo))) (a6 : Allows K (.pair (chOff n Reg.tiaMeanLo))) (a7 : Allows K (.one (.reg (chOff n Reg.tiaCount)))) (a8 : Allows K (.one (.reg (chOff n Reg.tiaDiscard)))) (a9 : Allows K (.pair (chOff n Reg.tiaLastLo))) :
    Evolves K s (State.tiaResult x n v interval) := by
  unfold State.tiaResult
  repeat' (first | with_reducible refine fun _ => ?_ | lift_lets | (with_reducible intro y; first | (refine Evolves.cut (K := K) (s := s) (y := y) ?_ ?_ <;> first | (clear_value y; with_reducible intro hy) | simp -zeta -zetaHave only [y]) | (simp -zeta -zetaHave only [y]; clear y) | (clear_value y; clear y)) | with_reducible (first | exact h | assumption | apply State.tiaFull_changes | apply State.countF_changes | apply State.modTia_changes | apply State.wrB_changes | apply State.tiaPut_changes | apply Evolves.ite) | (split))
  all_goals (with_reducible first | assumption | exact a0.vectorOfEvents | exact a0.logOfEvents | exact a0.evrPairOfEvents | exact a0.evrOfEvents | exact a0.vectorsOfEvents | exact a0.evrStatusOfEvents | exact a0.evrDropOfEvents | exact a0.evrCommitOfEvents | exact a0.evrLogOfEvents | exact a0.evrLogBseqOfEvents | exact a3.fst | exact a3.snd | exact a4.fst | exact a4.snd | exact a5.fst | exact a5.snd | exact a6.fst | exact a6.snd | exact a9.fst | exact a9.snd)

theorem State.tiaSigned_changes {K : List Foot} {s x : State} (n) (e) (h : Evolves K s x) (a0 : Allows K (.one (.chan n))) (a1 : Allows K .events) (a2 : Allows K (.one (.reg (chOff n Reg.tiaStatus)))) (a3 : Allows K (.pair (chOff n Reg.tiaMaxLo))) (a4 : Allows K (.pair (chOff n Reg.tiaMinLo))) (a5 : Allows K (.pair (chOff n Reg.tiaSdevLo))) (a6 : Allows K (.pair (chOff n Reg.tiaMeanLo))) (a7 : Allows K (.one (.reg (chOff n Reg.tiaCount)))) (a8 : Allows K (.one (.reg (chOff n Reg.tiaDiscard)))) (a9 : Allows K (.pair (chOff n Reg.tiaLastLo))) (a10 : Allows K (.one (.reg (chOff n Reg.tiaSkip)))) :
    Evolves K s (State.tiaSigned x n e) := by
  unfold State.tiaSigned
  extract_lets o a both
  have hb : ∀ t, Evolves K s t → Evolves K s (both t) := by
    intro t ht
    simp only [both]
    split
    · apply State.tiaResult_changes <;> with_reducible first | assumption | (apply State.modTia_changes <;> with_reducible assumption)
    · exact ht
  have hm : ∀ f, Evolves K s (x.modTia n f) := by
    intro f
    apply State.modTia_changes <;> with_reducible assumption
  clear_value both
  exact Evolves.ite (fun _ => hb _ (hm _)) (fun _ => Evolves.ite (fun _ => hb _ (hm _)) (fun _ => Evolves.ite
    (fun _ => State.countF_changes _ _ _ _ h a10) (fun _ => State.countF_changes _ _ _ _ h a10)))

theorem State.tiaOrdered_changes {K : List Foot} {s x : State} (n) (e) (h : Evolves K s x) (a0 : Allows K (.one (.chan n))) (a1 : Allows K (.one (.reg (chOff n Reg.tiaSkip)))) (a2 : Allows K .events) (a3 : Allows K (.one (.reg (chOff n Reg.tiaStatus)))) (a4 : Allows K (.pair (chOff n Reg.tiaMaxLo))) (a5 : Allows K (.pair (chOff n Reg.tiaMinLo))) (a6 : Allows K (.pair (chOff n Reg.tiaSdevLo))) (a7 : Allows K (.pair (chOff n Reg.tiaMeanLo))) (a8 : Allows K (.one (.reg (chOff n Reg.tiaCount)))) (a9 : Allows K (.one (.reg (chOff n Reg.tiaDiscard)))) (a10 : Allows K (.pair (chOff n Reg.tiaLastLo))) :
    Evolves K s (State.tiaOrdered x n e) := by
  unfold State.tiaOrdered
  repeat' (first | with_reducible refine fun _ => ?_ | lift_lets | (with_reducible intro y; first | (refine Evolves.cut (K := K) (s := s) (y := y) ?_ ?_ <;> first | (clear_value y; with_reducible intro hy) | simp -zeta -zetaHave only [y]) | (simp -zeta -zetaHave only [y]; clear y) | (clear_value y; clear y)) | with_reducible (first | exact h | assumption | apply State.modTia_changes | apply State.countF_changes | apply State.tiaResult_changes | apply Evolves.ite) | (split))
  all_goals (with_reducible first | assumption | exact a2.vectorOfEvents | exact a2.logOfEvents | exact a2.evrPairOfEvents | exact a2.evrOfEvents | exact a2.vectorsOfEvents | exact a2.evrStatusOfEvents | exact a2.evrDropOfEvents | exact a2.evrCommitOfEvents | exact a2.evrLogOfEvents | exact a2.evrLogBseqOfEvents | exact a4.fst | exact a4.snd | exact a5.fst | exact a5.snd | exact a6.fst | exact a6.snd | exact a7.fst | exact a7.snd | exact a10.fst | exact a10.snd)

theorem State.tiaStamp_changes {K : List Foot} {s x : State} (n) (e) (h : Evolves K s x) (a0 : Allows K .events) (a1 : Allows K (.one (.chan n))) (a2 : Allows K (.one (.reg (chOff n Reg.tiaStatus)))) (a3 : Allows K (.pair (chOff n Reg.tiaMaxLo))) (a4 : Allows K (.pair (chOff n Reg.tiaMinLo))) (a5 : Allows K (.pair (chOff n Reg.tiaSdevLo))) (a6 : Allows K (.pair (chOff n Reg.tiaMeanLo))) (a7 : Allows K (.one (.reg (chOff n Reg.tiaCount)))) (a8 : Allows K (.one (.clu (n / 16)))) :
    Evolves K s (State.tiaStamp x n e) := by
  unfold State.tiaStamp
  repeat' (first | with_reducible refine fun _ => ?_ | lift_lets | (with_reducible intro y; first | (refine Evolves.cut (K := K) (s := s) (y := y) ?_ ?_ <;> first | (clear_value y; with_reducible intro hy) | simp -zeta -zetaHave only [y]) | (simp -zeta -zetaHave only [y]; clear y) | (clear_value y; clear y)) | with_reducible (first | exact h | assumption | apply State.tiaFull_changes | apply State.countF_changes | apply State.modTia_changes | apply State.acqOffer_changes) | (split))
  all_goals (with_reducible first | assumption | exact a0.vectorOfEvents | exact a0.logOfEvents | exact a0.evrPairOfEvents | exact a0.evrOfEvents | exact a0.vectorsOfEvents | exact a0.evrStatusOfEvents | exact a0.evrDropOfEvents | exact a0.evrCommitOfEvents | exact a0.evrLogOfEvents | exact a0.evrLogBseqOfEvents | exact a3.fst | exact a3.snd | exact a4.fst | exact a4.snd | exact a5.fst | exact a5.snd | exact a6.fst | exact a6.snd)

theorem State.tiaHandle_changes {K : List Foot} {s x : State} (n) (e) (h : Evolves K s x) (a0 : Allows K (.one (.chan n))) (a1 : Allows K (.one (.reg (chOff n Reg.tiaDiscard)))) (a2 : Allows K .events) (a3 : Allows K (.one (.reg (chOff n Reg.tiaStatus)))) (a4 : Allows K (.pair (chOff n Reg.tiaMaxLo))) (a5 : Allows K (.pair (chOff n Reg.tiaMinLo))) (a6 : Allows K (.pair (chOff n Reg.tiaSdevLo))) (a7 : Allows K (.pair (chOff n Reg.tiaMeanLo))) (a8 : Allows K (.one (.reg (chOff n Reg.tiaCount)))) (a9 : Allows K (.pair (chOff n Reg.tiaLastLo))) (a10 : Allows K (.one (.reg (chOff n Reg.tiaSkip)))) (a11 : Allows K (.one (.clu (n / 16)))) :
    Evolves K s (State.tiaHandle x n e) := by
  unfold State.tiaHandle
  repeat' (first | with_reducible refine fun _ => ?_ | lift_lets | (with_reducible intro y; first | (refine Evolves.cut (K := K) (s := s) (y := y) ?_ ?_ <;> first | (clear_value y; with_reducible intro hy) | simp -zeta -zetaHave only [y]) | (simp -zeta -zetaHave only [y]; clear y) | (clear_value y; clear y)) | with_reducible (first | exact h | assumption | apply State.tiaLost_changes | apply State.tiaSigned_changes | apply State.tiaOrdered_changes | apply State.tiaResult_changes | apply State.modTia_changes | apply State.tiaStamp_changes | apply Evolves.ite) | (split))
  all_goals (with_reducible first | assumption | exact a2.vectorOfEvents | exact a2.logOfEvents | exact a2.evrPairOfEvents | exact a2.evrOfEvents | exact a2.vectorsOfEvents | exact a2.evrStatusOfEvents | exact a2.evrDropOfEvents | exact a2.evrCommitOfEvents | exact a2.evrLogOfEvents | exact a2.evrLogBseqOfEvents | exact a4.fst | exact a4.snd | exact a5.fst | exact a5.snd | exact a6.fst | exact a6.snd | exact a7.fst | exact a7.snd | exact a9.fst | exact a9.snd)

theorem State.tiaEvent_changes {K : List Foot} {s x : State} (n) (h : Evolves K s x) (a0 : Allows K (.one (.chan n))) (a1 : Allows K (.one (.reg (chOff n Reg.tiaDiscard)))) (a2 : Allows K .events) (a3 : Allows K (.one (.reg (chOff n Reg.tiaStatus)))) (a4 : Allows K (.pair (chOff n Reg.tiaMaxLo))) (a5 : Allows K (.pair (chOff n Reg.tiaMinLo))) (a6 : Allows K (.pair (chOff n Reg.tiaSdevLo))) (a7 : Allows K (.pair (chOff n Reg.tiaMeanLo))) (a8 : Allows K (.one (.reg (chOff n Reg.tiaCount)))) (a9 : Allows K (.pair (chOff n Reg.tiaLastLo))) (a10 : Allows K (.one (.reg (chOff n Reg.tiaSkip)))) (a11 : Allows K (.one (.clu (n / 16)))) :
    Evolves K s (State.tiaEvent x n) := by
  unfold State.tiaEvent
  repeat' (first | with_reducible refine fun _ => ?_ | extract_lets | split | with_reducible (first | exact h | assumption | apply State.tiaHandle_changes | apply State.acqIn_changes | apply State.modTia_changes | apply Evolves.ite) | (split))
  all_goals (with_reducible first | assumption | exact a2.vectorOfEvents | exact a2.logOfEvents | exact a2.evrPairOfEvents | exact a2.evrOfEvents | exact a2.vectorsOfEvents | exact a2.evrStatusOfEvents | exact a2.evrDropOfEvents | exact a2.evrCommitOfEvents | exact a2.evrLogOfEvents | exact a2.evrLogBseqOfEvents | exact a4.fst | exact a4.snd | exact a5.fst | exact a5.snd | exact a6.fst | exact a6.snd | exact a7.fst | exact a7.snd | exact a9.fst | exact a9.snd)

theorem State.gateEnd_changes {K : List Foot} {s x : State} (n) (h : Evolves K s x) (a0 : Allows K (.one (.chan n))) (a1 : Allows K (.one (.reg (chOff n Reg.tiaFcnt)))) (a2 : Allows K .events) (a3 : Allows K (.one (.reg (chOff n Reg.tiaStatus)))) (a4 : Allows K (.pair (chOff n Reg.tiaMaxLo))) (a5 : Allows K (.pair (chOff n Reg.tiaMinLo))) (a6 : Allows K (.pair (chOff n Reg.tiaSdevLo))) (a7 : Allows K (.pair (chOff n Reg.tiaMeanLo))) (a8 : Allows K (.one (.reg (chOff n Reg.tiaCount)))) (a9 : Allows K (.one (.reg (chOff n Reg.tiaDiscard)))) (a10 : Allows K (.pair (chOff n Reg.tiaLastLo))) :
    Evolves K s (State.gateEnd x n) := by
  unfold State.gateEnd
  repeat' (first | with_reducible refine fun _ => ?_ | lift_lets | (with_reducible intro y; first | (refine Evolves.cut (K := K) (s := s) (y := y) ?_ ?_ <;> first | (clear_value y; with_reducible intro hy) | simp -zeta -zetaHave only [y]) | (simp -zeta -zetaHave only [y]; clear y) | (clear_value y; clear y)) | with_reducible (first | exact h | assumption | apply State.modTia_changes | apply State.wr_changes | apply State.tiaResult_changes | apply Evolves.ite) | (split))
  all_goals (with_reducible first | assumption | exact a2.vectorOfEvents | exact a2.logOfEvents | exact a2.evrPairOfEvents | exact a2.evrOfEvents | exact a2.vectorsOfEvents | exact a2.evrStatusOfEvents | exact a2.evrDropOfEvents | exact a2.evrCommitOfEvents | exact a2.evrLogOfEvents | exact a2.evrLogBseqOfEvents | exact a4.fst | exact a4.snd | exact a5.fst | exact a5.snd | exact a6.fst | exact a6.snd | exact a7.fst | exact a7.snd | exact a10.fst | exact a10.snd)

theorem State.gatesTo_changes {K : List Foot} {s x : State} (n) (g) (h : Evolves K s x) (a0 : Allows K (.one (.chan n))) (a1 : Allows K (.one (.reg (chOff n Reg.tiaFcnt)))) (a2 : Allows K .events) (a3 : Allows K (.one (.reg (chOff n Reg.tiaStatus)))) (a4 : Allows K (.pair (chOff n Reg.tiaMaxLo))) (a5 : Allows K (.pair (chOff n Reg.tiaMinLo))) (a6 : Allows K (.pair (chOff n Reg.tiaSdevLo))) (a7 : Allows K (.pair (chOff n Reg.tiaMeanLo))) (a8 : Allows K (.one (.reg (chOff n Reg.tiaCount)))) (a9 : Allows K (.one (.reg (chOff n Reg.tiaDiscard)))) (a10 : Allows K (.pair (chOff n Reg.tiaLastLo))) :
    Evolves K s (State.gatesTo x n g) := by
  unfold State.gatesTo
  repeat' (first | with_reducible refine fun _ => ?_ | lift_lets | (with_reducible intro y; first | (refine Evolves.cut (K := K) (s := s) (y := y) ?_ ?_ <;> first | (clear_value y; with_reducible intro hy) | simp -zeta -zetaHave only [y]) | (simp -zeta -zetaHave only [y]; clear y) | (clear_value y; clear y)) | with_reducible (first | exact h | assumption | apply State.gateEnd_changes | apply State.modTia_changes | apply State.wr_changes | apply Evolves.ite) | (split))
  all_goals (with_reducible first | assumption | exact a2.vectorOfEvents | exact a2.logOfEvents | exact a2.evrPairOfEvents | exact a2.evrOfEvents | exact a2.vectorsOfEvents | exact a2.evrStatusOfEvents | exact a2.evrDropOfEvents | exact a2.evrCommitOfEvents | exact a2.evrLogOfEvents | exact a2.evrLogBseqOfEvents | exact a4.fst | exact a4.snd | exact a5.fst | exact a5.snd | exact a6.fst | exact a6.snd | exact a7.fst | exact a7.snd | exact a10.fst | exact a10.snd)

theorem State.drainOne_changes {K : List Foot} {s x : State} (n) (limit) (h : Evolves K s x) (a0 : Allows K (.one (.chan n))) (a1 : Allows K (.one (.reg (chOff n Reg.tiaDiscard)))) (a2 : Allows K .events) (a3 : Allows K (.one (.reg (chOff n Reg.tiaStatus)))) (a4 : Allows K (.pair (chOff n Reg.tiaMaxLo))) (a5 : Allows K (.pair (chOff n Reg.tiaMinLo))) (a6 : Allows K (.pair (chOff n Reg.tiaSdevLo))) (a7 : Allows K (.pair (chOff n Reg.tiaMeanLo))) (a8 : Allows K (.one (.reg (chOff n Reg.tiaCount)))) (a9 : Allows K (.pair (chOff n Reg.tiaLastLo))) (a10 : Allows K (.one (.reg (chOff n Reg.tiaSkip)))) (a11 : Allows K (.one (.clu (n / 16)))) (a12 : Allows K (.one (.reg (chOff n Reg.tiaFcnt)))) :
    Evolves K s (State.drainOne n limit x) := by
  unfold State.drainOne
  repeat' (first | with_reducible refine fun _ => ?_ | with_reducible (first | exact h | apply State.tiaEvent_changes | apply State.gatesTo_changes | apply Evolves.ite) | (split))
  all_goals (with_reducible first | assumption | exact a2.vectorOfEvents | exact a2.logOfEvents | exact a2.evrPairOfEvents | exact a2.evrOfEvents | exact a2.vectorsOfEvents | exact a2.evrStatusOfEvents | exact a2.evrDropOfEvents | exact a2.evrCommitOfEvents | exact a2.evrLogOfEvents | exact a2.evrLogBseqOfEvents | exact a4.fst | exact a4.snd | exact a5.fst | exact a5.snd | exact a6.fst | exact a6.snd | exact a7.fst | exact a7.snd | exact a9.fst | exact a9.snd)

theorem State.tiaDrain_changes {K : List Foot} {s x : State} (n) (limit) (h : Evolves K s x) (a0 : Allows K (.one (.chan n))) (a1 : Allows K (.one (.reg (chOff n Reg.tiaDiscard)))) (a2 : Allows K .events) (a3 : Allows K (.one (.reg (chOff n Reg.tiaStatus)))) (a4 : Allows K (.pair (chOff n Reg.tiaMaxLo))) (a5 : Allows K (.pair (chOff n Reg.tiaMinLo))) (a6 : Allows K (.pair (chOff n Reg.tiaSdevLo))) (a7 : Allows K (.pair (chOff n Reg.tiaMeanLo))) (a8 : Allows K (.one (.reg (chOff n Reg.tiaCount)))) (a9 : Allows K (.pair (chOff n Reg.tiaLastLo))) (a10 : Allows K (.one (.reg (chOff n Reg.tiaSkip)))) (a11 : Allows K (.one (.clu (n / 16)))) (a12 : Allows K (.one (.reg (chOff n Reg.tiaFcnt)))) :
    Evolves K s (State.tiaDrain x n limit) := by
  unfold State.tiaDrain
  repeat' (first | with_reducible refine fun _ => ?_ | with_reducible (first | exact h | apply State.times_changes | apply State.drainOne_changes))
  all_goals (with_reducible first | assumption | exact a2.vectorOfEvents | exact a2.logOfEvents | exact a2.evrPairOfEvents | exact a2.evrOfEvents | exact a2.vectorsOfEvents | exact a2.evrStatusOfEvents | exact a2.evrDropOfEvents | exact a2.evrCommitOfEvents | exact a2.evrLogOfEvents | exact a2.evrLogBseqOfEvents | exact a4.fst | exact a4.snd | exact a5.fst | exact a5.snd | exact a6.fst | exact a6.snd | exact a7.fst | exact a7.snd | exact a9.fst | exact a9.snd)

theorem State.tiaStop_changes {K : List Foot} {s x : State} (n) (h : Evolves K s x) (a0 : Allows K (.one (.chan n))) (a1 : Allows K (.one (.reg (chOff n Reg.tiaDiscard)))) (a2 : Allows K .events) (a3 : Allows K (.one (.reg (chOff n Reg.tiaStatus)))) (a4 : Allows K (.pair (chOff n Reg.tiaMaxLo))) (a5 : Allows K (.pair (chOff n Reg.tiaMinLo))) (a6 : Allows K (.pair (chOff n Reg.tiaSdevLo))) (a7 : Allows K (.pair (chOff n Reg.tiaMeanLo))) (a8 : Allows K (.one (.reg (chOff n Reg.tiaCount)))) (a9 : Allows K (.pair (chOff n Reg.tiaLastLo))) (a10 : Allows K (.one (.reg (chOff n Reg.tiaSkip)))) (a11 : Allows K (.one (.clu (n / 16)))) (a12 : Allows K (.one (.reg (chOff n Reg.tiaFcnt)))) :
    Evolves K s (State.tiaStop x n) := by
  unfold State.tiaStop
  repeat' (first | with_reducible refine fun _ => ?_ | lift_lets | (with_reducible intro y; first | (refine Evolves.cut (K := K) (s := s) (y := y) ?_ ?_ <;> first | (clear_value y; with_reducible intro hy) | simp -zeta -zetaHave only [y]) | (simp -zeta -zetaHave only [y]; clear y) | (clear_value y; clear y)) | with_reducible (first | exact h | assumption | apply State.tiaDrain_changes | apply State.tiaEnd_changes | apply Evolves.ite) | (split))
  all_goals (with_reducible first | assumption | exact a2.vectorOfEvents | exact a2.logOfEvents | exact a2.evrPairOfEvents | exact a2.evrOfEvents | exact a2.vectorsOfEvents | exact a2.evrStatusOfEvents | exact a2.evrDropOfEvents | exact a2.evrCommitOfEvents | exact a2.evrLogOfEvents | exact a2.evrLogBseqOfEvents | exact a4.fst | exact a4.snd | exact a5.fst | exact a5.snd | exact a6.fst | exact a6.snd | exact a7.fst | exact a7.snd | exact a9.fst | exact a9.snd)

theorem State.tiaReject_changes {K : List Foot} {s x : State} (n) (h : Evolves K s x) (a0 : Allows K (.pair (chOff n Reg.tiaFlags))) :
    Evolves K s (State.tiaReject x n) := by
  unfold State.tiaReject
  repeat' (first | with_reducible refine fun _ => ?_ | with_reducible (first | exact h | apply State.raise_changes))
  all_goals (with_reducible first | assumption | exact a0.fst | exact a0.snd)

theorem State.tiaConfig_changes {K : List Foot} {s x : State} (n) (timeout) (v) (h : Evolves K s x) (a0 : Allows K (.pair (chOff n Reg.tiaFlags))) (a1 : Allows K (.one (.reg (chOff n Reg.tiaTimeout)))) (a2 : Allows K (.one (.reg (chOff n Reg.tiaCfg)))) :
    Evolves K s (State.tiaConfig x n timeout v) := by
  unfold State.tiaConfig
  repeat' (first | with_reducible refine fun _ => ?_ | with_reducible (first | exact h | apply State.tiaReject_changes | apply State.plainWrite_changes | apply Evolves.ite))
  all_goals (with_reducible first | assumption | exact a0.fst | exact a0.snd)

theorem State.tiaNWrite_changes {K : List Foot} {s x : State} (n) (gate) (v) (h : Evolves K s x) (a0 : Allows K (.pair (chOff n Reg.tiaFlags))) (a1 : Allows K (.one (.reg (chOff n Reg.tiaGate)))) (a2 : Allows K (.one (.reg (chOff n Reg.tiaN)))) :
    Evolves K s (State.tiaNWrite x n gate v) := by
  unfold State.tiaNWrite
  repeat' (first | with_reducible refine fun _ => ?_ | with_reducible (first | exact h | apply State.tiaReject_changes | apply State.raise_changes | apply State.wr_changes | apply State.plainWrite_changes | apply Evolves.ite))
  all_goals (with_reducible first | assumption | exact a0.fst | exact a0.snd)

theorem State.tiaCut_changes {K : List Foot} {s x : State} (n) (v) (code) (h : Evolves K s x) (a0 : Allows K (.one (.chan n))) (a1 : Allows K (.one (.reg (chOff n Reg.tiaFcnt)))) (a2 : Allows K .events) (a3 : Allows K (.one (.reg (chOff n Reg.tiaStatus)))) (a4 : Allows K (.pair (chOff n Reg.tiaMaxLo))) (a5 : Allows K (.pair (chOff n Reg.tiaMinLo))) (a6 : Allows K (.pair (chOff n Reg.tiaSdevLo))) (a7 : Allows K (.pair (chOff n Reg.tiaMeanLo))) (a8 : Allows K (.one (.reg (chOff n Reg.tiaCount)))) (a9 : Allows K (.one (.reg (chOff n Reg.tiaDiscard)))) (a10 : Allows K (.pair (chOff n Reg.tiaLastLo))) (a11 : Allows K (.one (.reg (chOff n Reg.tiaSkip)))) (a12 : Allows K (.one (.clu (n / 16)))) :
    Evolves K s (State.tiaCut x n v code) := by
  unfold State.tiaCut
  repeat' (first | with_reducible refine fun _ => ?_ | lift_lets | (with_reducible intro y; first | (refine Evolves.cut (K := K) (s := s) (y := y) ?_ ?_ <;> first | (clear_value y; with_reducible intro hy) | simp -zeta -zetaHave only [y]) | (simp -zeta -zetaHave only [y]; clear y) | (clear_value y; clear y)) | with_reducible (first | exact h | assumption | apply State.gatesTo_changes | apply State.tiaDrain_changes | apply State.tiaEnd_changes | apply Evolves.ite) | (split))
  all_goals (with_reducible first | assumption | exact a2.vectorOfEvents | exact a2.logOfEvents | exact a2.evrPairOfEvents | exact a2.evrOfEvents | exact a2.vectorsOfEvents | exact a2.evrStatusOfEvents | exact a2.evrDropOfEvents | exact a2.evrCommitOfEvents | exact a2.evrLogOfEvents | exact a2.evrLogBseqOfEvents | exact a4.fst | exact a4.snd | exact a5.fst | exact a5.snd | exact a6.fst | exact a6.snd | exact a7.fst | exact a7.snd | exact a10.fst | exact a10.snd)

theorem State.tiaAbort_changes {K : List Foot} {s x : State} (n) (cycle) (h : Evolves K s x) (a0 : Allows K .events) (a1 : Allows K (.one (.chan n))) (a2 : Allows K (.one (.reg (chOff n Reg.tiaStatus)))) (a3 : Allows K (.pair (chOff n Reg.tiaMaxLo))) (a4 : Allows K (.pair (chOff n Reg.tiaMinLo))) (a5 : Allows K (.pair (chOff n Reg.tiaSdevLo))) (a6 : Allows K (.pair (chOff n Reg.tiaMeanLo))) (a7 : Allows K (.one (.reg (chOff n Reg.tiaFcnt)))) (a8 : Allows K (.one (.reg (chOff n Reg.tiaCount)))) (a9 : Allows K (.one (.reg (chOff n Reg.tiaDiscard)))) (a10 : Allows K (.pair (chOff n Reg.tiaLastLo))) (a11 : Allows K (.one (.reg (chOff n Reg.tiaSkip)))) (a12 : Allows K (.one (.clu (n / 16)))) :
    Evolves K s (State.tiaAbort x n cycle) := by
  unfold State.tiaAbort
  repeat' (first | with_reducible refine fun _ => ?_ | with_reducible (first | exact h | apply State.tiaEnd_changes | apply State.tiaCut_changes | apply Evolves.ite))
  all_goals (with_reducible first | assumption | exact a0.vectorOfEvents | exact a0.logOfEvents | exact a0.evrPairOfEvents | exact a0.evrOfEvents | exact a0.vectorsOfEvents | exact a0.evrStatusOfEvents | exact a0.evrDropOfEvents | exact a0.evrCommitOfEvents | exact a0.evrLogOfEvents | exact a0.evrLogBseqOfEvents | exact a3.fst | exact a3.snd | exact a4.fst | exact a4.snd | exact a5.fst | exact a5.snd | exact a6.fst | exact a6.snd | exact a10.fst | exact a10.snd)

theorem State.tiaEnter_changes {K : List Foot} {s x : State} (n) (h : Evolves K s x) (a0 : Allows K (.one (.chan n))) (a1 : Allows K (.one (.reg (chOff n Reg.tiaStatus)))) (a2 : Allows K (.one (.reg (chOff n Reg.tiaCount)))) (a3 : Allows K (.one (.reg (chOff n Reg.tiaSkip)))) (a4 : Allows K (.one (.reg (chOff n Reg.tiaDiscard)))) (a5 : Allows K (.one (.reg (chOff n Reg.tiaFcnt)))) :
    Evolves K s (State.tiaEnter x n) := by
  unfold State.tiaEnter
  simp -zeta -zetaHave only [List.foldl_cons, List.foldl_nil]
  repeat' (first | with_reducible refine fun _ => ?_ | lift_lets | (with_reducible intro y; first | (refine Evolves.cut (K := K) (s := s) (y := y) ?_ ?_ <;> first | (clear_value y; with_reducible intro hy) | simp -zeta -zetaHave only [y]) | (simp -zeta -zetaHave only [y]; clear y) | (clear_value y; clear y)) | with_reducible (first | exact h | assumption | apply State.modTia_changes | apply State.wr_changes | apply State.wrB_changes | apply State.wrF_changes | apply Evolves.foldl) | (split))
  all_goals (with_reducible first | assumption)

theorem State.tiaArm_changes {K : List Foot} {s x : State} (n) (h : Evolves K s x) (a0 : Allows K (.chReg Reg.tiaLine)) (a1 : Allows K .chans) (a2 : Allows K (.one (.reg Reg.memRetWakes))) (a3 : Allows K (.one (.reg Reg.memRetState))) (a4 : Allows K (.one (.reg (chOff n Reg.tiaStatus)))) (a5 : Allows K (.one (.reg (chOff n Reg.tiaCount)))) (a6 : Allows K (.one (.reg (chOff n Reg.tiaSkip)))) (a7 : Allows K (.one (.reg (chOff n Reg.tiaDiscard)))) (a8 : Allows K (.one (.reg (chOff n Reg.tiaFcnt)))) (a9 : Allows K (.pair (chOff n Reg.tiaFlags))) :
    Evolves K s (State.tiaArm x n) := by
  unfold State.tiaArm
  repeat' (first | with_reducible refine fun _ => ?_ | lift_lets | (with_reducible intro y; first | (refine Evolves.cut (K := K) (s := s) (y := y) ?_ ?_ <;> first | (clear_value y; with_reducible intro hy) | simp -zeta -zetaHave only [y]) | (simp -zeta -zetaHave only [y]; clear y) | (clear_value y; clear y)) | with_reducible (first | exact h | assumption | apply State.wake_changes | apply State.tiaEnter_changes | apply State.tiaReject_changes | apply Evolves.ite) | (split))
  all_goals (with_reducible first | assumption | exact a0.ofCh (by decide) | exact a1.chanOf | exact a9.fst | exact a9.snd)

theorem State.densityGo_changes {K : List Foot} {s x : State} (n) (lines) (h : Evolves K s x) (a0 : Allows K (.one (.chan n))) (a1 : Allows K (.one (.reg (chOff n Reg.tiaCdCtl)))) :
    Evolves K s (State.densityGo x n lines) := by
  unfold State.densityGo
  repeat' (first | with_reducible refine fun _ => ?_ | lift_lets | (with_reducible intro y; first | (refine Evolves.cut (K := K) (s := s) (y := y) ?_ ?_ <;> first | (clear_value y; with_reducible intro hy) | simp -zeta -zetaHave only [y]) | (simp -zeta -zetaHave only [y]; clear y) | (clear_value y; clear y)) | with_reducible (first | exact h | assumption | apply State.modChan_changes | apply State.wrF_changes | apply State.wrB_changes | apply Evolves.ite) | (split))
  all_goals (with_reducible first | assumption)

theorem State.densityWrite_changes {K : List Foot} {s x : State} (n) (v) (h : Evolves K s x) (a0 : Allows K (.pair (chOff n Reg.tiaFlags))) (a1 : Allows K (.one (.reg (chOff n Reg.tiaCdCtl)))) (a2 : Allows K (.chReg Reg.tiaLine)) (a3 : Allows K .chans) (a4 : Allows K (.one (.reg Reg.memRetWakes))) (a5 : Allows K (.one (.reg Reg.memRetState))) :
    Evolves K s (State.densityWrite x n v) := by
  unfold State.densityWrite
  repeat' (first | with_reducible refine fun _ => ?_ | lift_lets | (with_reducible intro y; first | (refine Evolves.cut (K := K) (s := s) (y := y) ?_ ?_ <;> first | (clear_value y; with_reducible intro hy) | simp -zeta -zetaHave only [y]) | (simp -zeta -zetaHave only [y]; clear y) | (clear_value y; clear y)) | with_reducible (first | exact h | assumption | apply State.tiaReject_changes | apply State.plainWrite_changes | apply State.wake_changes | apply State.densityGo_changes | apply Evolves.ite) | (split))
  all_goals (with_reducible first | assumption | exact a0.fst | exact a0.snd | exact a2.ofCh (by decide) | exact a3.chanOf)

theorem State.tiaBegin_changes {K : List Foot} {s x : State} (n) (cycle) (h : Evolves K s x) (a0 : Allows K (.one (.chan n))) (a1 : Allows K (.one (.reg (chOff n Reg.tiaStatus)))) :
    Evolves K s (State.tiaBegin x n cycle) := by
  unfold State.tiaBegin
  repeat' (first | with_reducible refine fun _ => ?_ | lift_lets | (with_reducible intro y; first | (refine Evolves.cut (K := K) (s := s) (y := y) ?_ ?_ <;> first | (clear_value y; with_reducible intro hy) | simp -zeta -zetaHave only [y]) | (simp -zeta -zetaHave only [y]; clear y) | (clear_value y; clear y)) | with_reducible (first | exact h | assumption | apply State.modTia_changes | apply State.wrF_changes | apply Evolves.ite))
  all_goals (with_reducible first | assumption)

theorem State.setLine_changes {K : List Foot} {s x : State} (n) (j) (v) (h : Evolves K s x) (a0 : Allows K (.one (.reg (chOff n Reg.tiaLine)))) :
    Evolves K s (State.setLine x n j v) := by
  unfold State.setLine
  repeat' (first | with_reducible refine fun _ => ?_ | with_reducible (first | exact h | apply State.wrF_changes))
  all_goals (with_reducible first | assumption)

theorem State.setTable_changes {K : List Foot} {s x : State} (n) (j) (ws) (h : Evolves K s x) (a0 : Allows K .chans) :
    Evolves K s (State.setTable x n j ws) := by
  unfold State.setTable
  repeat' (first | with_reducible refine fun _ => ?_ | lift_lets | (with_reducible intro y; first | (refine Evolves.cut (K := K) (s := s) (y := y) ?_ ?_ <;> first | (clear_value y; with_reducible intro hy) | simp -zeta -zetaHave only [y]) | (simp -zeta -zetaHave only [y]; clear y) | (clear_value y; clear y)) | with_reducible (first | exact h | assumption | apply State.tableNote_changes | apply State.modChan_changes))
  all_goals (with_reducible first | assumption | exact a0.chanOf)

theorem State.lineNote_changes {K : List Foot} {s x : State} (n) (j) (h : Evolves K s x) (a0 : Allows K (.one .snd)) :
    Evolves K s (State.lineNote x n j) := by
  unfold State.lineNote
  try simp -zeta -zetaHave only [State.fold_snd]
  repeat' (first | with_reducible refine fun _ => ?_ | lift_lets | (with_reducible intro y; first | (refine Evolves.cut (K := K) (s := s) (y := y) ?_ ?_ <;> first | (clear_value y; with_reducible intro hy) | simp -zeta -zetaHave only [y]) | (simp -zeta -zetaHave only [y]; clear y) | (clear_value y; clear y)) | with_reducible (first | exact h | assumption | apply State.putSnd_changes | apply Evolves.ite))
  all_goals (with_reducible first | assumption)

theorem State.lineOff_changes {K : List Foot} {s x : State} (n) (j) (h : Evolves K s x) (a0 : Allows K (.one (.reg (chOff n Reg.tiaLine)))) (a1 : Allows K .chans) (a2 : Allows K (.one .snd)) :
    Evolves K s (State.lineOff x n j) := by
  unfold State.lineOff
  repeat' (first | with_reducible refine fun _ => ?_ | lift_lets | (with_reducible intro y; first | (refine Evolves.cut (K := K) (s := s) (y := y) ?_ ?_ <;> first | (clear_value y; with_reducible intro hy) | simp -zeta -zetaHave only [y]) | (simp -zeta -zetaHave only [y]; clear y) | (clear_value y; clear y)) | with_reducible (first | exact h | assumption | apply State.modChan_changes | apply State.setLine_changes | apply State.setTable_changes | apply State.lineNote_changes | apply Evolves.ite) | (split))
  all_goals (with_reducible first | assumption | exact a1.chanOf)

theorem State.lineUnlock_changes {K : List Foot} {s x : State} (n) (j) (h : Evolves K s x) (a0 : Allows K (.one (.reg (chOff n Reg.tiaLine)))) (a1 : Allows K .chans) (a2 : Allows K (.one .snd)) (a3 : Allows K .events) (a4 : Allows K (.pair (chOff n Reg.tiaFlags))) :
    Evolves K s (State.lineUnlock x n j) := by
  unfold State.lineUnlock
  repeat' (first | with_reducible refine fun _ => ?_ | with_reducible (first | exact h | apply State.lineOff_changes | apply State.post_changes | apply State.raise_changes))
  all_goals (with_reducible first | assumption | exact a1.chanOf | exact a3.vectorOfEvents | exact a3.logOfEvents | exact a3.evrPairOfEvents | exact a3.evrOfEvents | exact a3.vectorsOfEvents | exact a3.evrStatusOfEvents | exact a3.evrDropOfEvents | exact a3.evrCommitOfEvents | exact a3.evrLogOfEvents | exact a3.evrLogBseqOfEvents | exact a4.fst | exact a4.snd)

theorem State.lineFails_changes {K : List Foot} {s x : State} (n) (j) (h : Evolves K s x) (a0 : Allows K (.one (.reg (chOff n Reg.tiaLine)))) (a1 : Allows K .chans) (a2 : Allows K (.one .snd)) (a3 : Allows K .events) (a4 : Allows K (.pair (chOff n Reg.tiaFlags))) :
    Evolves K s (State.lineFails x n j) := by
  unfold State.lineFails
  repeat' (first | with_reducible refine fun _ => ?_ | with_reducible (first | exact h | apply State.lineUnlock_changes | apply Evolves.ite))
  all_goals (with_reducible first | assumption | exact a1.chanOf | exact a3.vectorOfEvents | exact a3.logOfEvents | exact a3.evrPairOfEvents | exact a3.evrOfEvents | exact a3.vectorsOfEvents | exact a3.evrStatusOfEvents | exact a3.evrDropOfEvents | exact a3.evrCommitOfEvents | exact a3.evrLogOfEvents | exact a3.evrLogBseqOfEvents | exact a4.fst | exact a4.snd)

theorem State.tiaTimeout_changes {K : List Foot} {s x : State} (n) (h : Evolves K s x) (a0 : Allows K (.one (.chan n))) (a1 : Allows K (.one (.reg (chOff n Reg.tiaFcnt)))) (a2 : Allows K .events) (a3 : Allows K (.one (.reg (chOff n Reg.tiaStatus)))) (a4 : Allows K (.pair (chOff n Reg.tiaMaxLo))) (a5 : Allows K (.pair (chOff n Reg.tiaMinLo))) (a6 : Allows K (.pair (chOff n Reg.tiaSdevLo))) (a7 : Allows K (.pair (chOff n Reg.tiaMeanLo))) (a8 : Allows K (.one (.reg (chOff n Reg.tiaCount)))) (a9 : Allows K (.one (.reg (chOff n Reg.tiaDiscard)))) (a10 : Allows K (.pair (chOff n Reg.tiaLastLo))) (a11 : Allows K (.one (.reg (chOff n Reg.tiaSkip)))) (a12 : Allows K (.one (.clu (n / 16)))) :
    Evolves K s (State.tiaTimeout x n) := by
  unfold State.tiaTimeout
  repeat' (first | with_reducible refine fun _ => ?_ | with_reducible (first | exact h | apply State.tiaCut_changes | apply Evolves.ite) | (split))
  all_goals (with_reducible first | assumption | exact a2.vectorOfEvents | exact a2.logOfEvents | exact a2.evrPairOfEvents | exact a2.evrOfEvents | exact a2.vectorsOfEvents | exact a2.evrStatusOfEvents | exact a2.evrDropOfEvents | exact a2.evrCommitOfEvents | exact a2.evrLogOfEvents | exact a2.evrLogBseqOfEvents | exact a4.fst | exact a4.snd | exact a5.fst | exact a5.snd | exact a6.fst | exact a6.snd | exact a7.fst | exact a7.snd | exact a10.fst | exact a10.snd)

theorem State.lineLock_changes {K : List Foot} {s x : State} (n) (j) (h : Evolves K s x) (a0 : Allows K (.one (.reg (chOff n Reg.tiaLine)))) (a1 : Allows K .chans) :
    Evolves K s (State.lineLock x n j) := by
  unfold State.lineLock
  repeat' (first | with_reducible refine fun _ => ?_ | with_reducible (first | exact h | apply State.setLine_changes | apply State.uniform_changes | apply Evolves.ite))
  all_goals (with_reducible first | assumption | exact a1.chanOf)

theorem State.tiaArmInstant_changes {K : List Foot} {s x : State} (n) (cycle) (h : Evolves K s x) (a0 : Allows K (.one (.chan n))) (a1 : Allows K (.one (.reg (chOff n Reg.tiaStatus)))) :
    Evolves K s (State.tiaArmInstant x n cycle) := by
  unfold State.tiaArmInstant
  repeat' (first | with_reducible refine fun _ => ?_ | with_reducible (first | exact h | apply State.tiaBegin_changes | apply Evolves.ite))
  all_goals (with_reducible first | assumption)

theorem State.tiaTake_changes {K : List Foot} {s x : State} (n) (x') (low) (rising) (lost) (abs) (h : Evolves K s x) (a0 : Allows K (.one (.chan n))) (a1 : Allows K (.one (.reg (chOff n Reg.tiaStatus)))) :
    Evolves K s (State.tiaTake x n x' low rising lost abs) := by
  unfold State.tiaTake
  repeat' (first | with_reducible refine fun _ => ?_ | lift_lets | (with_reducible intro y; first | (refine Evolves.cut (K := K) (s := s) (y := y) ?_ ?_ <;> first | (clear_value y; with_reducible intro hy) | simp -zeta -zetaHave only [y]) | (simp -zeta -zetaHave only [y]; clear y) | (clear_value y; clear y)) | with_reducible (first | exact h | assumption | apply State.modTia_changes | apply State.wrB_changes | apply Evolves.ite) | (split))
  all_goals (with_reducible first | assumption)

theorem State.wmonTime_changes {K : List Foot} {s x : State} (x') (low) (rising) (abs) (h : Evolves K s x) (a0 : Allows K (.one (.chan x'))) (a1 : Allows K (.one (.clu (x' / 16)))) :
    Evolves K s (State.wmonTime x x' low rising abs) := by
  unfold State.wmonTime
  repeat' (first | with_reducible refine fun _ => ?_ | lift_lets | (with_reducible intro y; first | (refine Evolves.cut (K := K) (s := s) (y := y) ?_ ?_ <;> first | (clear_value y; with_reducible intro hy) | simp -zeta -zetaHave only [y]) | (simp -zeta -zetaHave only [y]; clear y) | (clear_value y; clear y)) | with_reducible (first | exact h | assumption | apply State.modChan_changes | apply State.modAcq_changes | apply Evolves.ite) | (split))
  all_goals (with_reducible first | assumption)

theorem State.transition_changes {K : List Foot} {s x : State} (x') (low) (rising) (coarse) (bin) (h : Evolves K s x) (a0 : Allows K .chans) (a1 : Allows K (.chReg Reg.tiaStatus)) (a2 : Allows K (.one (.reg (chOff x' Reg.tiaLost)))) (a3 : Allows K (.one (.clu (x' / 16)))) :
    Evolves K s (State.transition x x' low rising coarse bin) := by
  unfold State.transition
  repeat' (first | with_reducible refine fun _ => ?_ | lift_lets | (with_reducible intro y; first | (refine Evolves.cut (K := K) (s := s) (y := y) ?_ ?_ <;> first | (clear_value y; with_reducible intro hy) | simp -zeta -zetaHave only [y]) | (simp -zeta -zetaHave only [y]; clear y) | (clear_value y; clear y)) | with_reducible (first | exact h | assumption | apply State.tiaTake_changes | apply State.countF_changes | apply State.wmonTime_changes | apply State.modChan_changes | apply Evolves.ite | apply Evolves.foldl) | (split))
  all_goals (with_reducible first | assumption | exact a0.chanOf | exact a1.ofCh (by decide))

theorem State.tiaRange_changes {K : List Foot} {s x : State} (n) (h : Evolves K s x) (a0 : Allows K (.one (.chan n))) (a1 : Allows K (.one (.reg (chOff n Reg.tiaFcnt)))) (a2 : Allows K .events) (a3 : Allows K (.one (.reg (chOff n Reg.tiaStatus)))) (a4 : Allows K (.pair (chOff n Reg.tiaMaxLo))) (a5 : Allows K (.pair (chOff n Reg.tiaMinLo))) (a6 : Allows K (.pair (chOff n Reg.tiaSdevLo))) (a7 : Allows K (.pair (chOff n Reg.tiaMeanLo))) (a8 : Allows K (.one (.reg (chOff n Reg.tiaCount)))) (a9 : Allows K (.one (.reg (chOff n Reg.tiaDiscard)))) (a10 : Allows K (.pair (chOff n Reg.tiaLastLo))) (a11 : Allows K (.one (.reg (chOff n Reg.tiaSkip)))) (a12 : Allows K (.one (.clu (n / 16)))) :
    Evolves K s (State.tiaRange x n) := by
  unfold State.tiaRange
  repeat' (first | with_reducible refine fun _ => ?_ | with_reducible (first | exact h | apply State.tiaCut_changes | apply Evolves.ite))
  all_goals (with_reducible first | assumption | exact a2.vectorOfEvents | exact a2.logOfEvents | exact a2.evrPairOfEvents | exact a2.evrOfEvents | exact a2.vectorsOfEvents | exact a2.evrStatusOfEvents | exact a2.evrDropOfEvents | exact a2.evrCommitOfEvents | exact a2.evrLogOfEvents | exact a2.evrLogBseqOfEvents | exact a4.fst | exact a4.snd | exact a5.fst | exact a5.snd | exact a6.fst | exact a6.snd | exact a7.fst | exact a7.snd | exact a10.fst | exact a10.snd)

theorem State.acquireTimeout_changes {K : List Foot} {s x : State} (n) (j) (h : Evolves K s x) (a0 : Allows K (.one (.reg (chOff n Reg.tiaLine)))) (a1 : Allows K .chans) (a2 : Allows K (.one .snd)) (a3 : Allows K .events) (a4 : Allows K (.pair (chOff n Reg.tiaFlags))) :
    Evolves K s (State.acquireTimeout x n j) := by
  unfold State.acquireTimeout
  repeat' (first | with_reducible refine fun _ => ?_ | with_reducible (first | exact h | apply State.lineUnlock_changes | apply Evolves.ite))
  all_goals (with_reducible first | assumption | exact a1.chanOf | exact a3.vectorOfEvents | exact a3.logOfEvents | exact a3.evrPairOfEvents | exact a3.evrOfEvents | exact a3.vectorsOfEvents | exact a3.evrStatusOfEvents | exact a3.evrDropOfEvents | exact a3.evrCommitOfEvents | exact a3.evrLogOfEvents | exact a3.evrLogBseqOfEvents | exact a4.fst | exact a4.snd)

theorem State.densityEnd_changes {K : List Foot} {s x : State} (n) (j) (hits) (h : Evolves K s x) (a0 : Allows K (.one (.reg (chOff n Reg.tiaCdCtl)))) (a1 : Allows K (.pair (chOff n Reg.tiaFlags))) (a2 : Allows K (.one (.reg (chOff n Reg.tiaLine)))) (a3 : Allows K .chans) :
    Evolves K s (State.densityEnd x n j hits) := by
  unfold State.densityEnd
  repeat' (first | with_reducible refine fun _ => ?_ | lift_lets | (with_reducible intro y; first | (refine Evolves.cut (K := K) (s := s) (y := y) ?_ ?_ <;> first | (clear_value y; with_reducible intro hy) | simp -zeta -zetaHave only [y]) | (simp -zeta -zetaHave only [y]; clear y) | (clear_value y; clear y)) | with_reducible (first | exact h | assumption | apply State.wrF_changes | apply State.raise_changes | apply State.wrB_changes | apply State.modChan_changes | apply State.setLine_changes | apply State.setTable_changes | apply Evolves.ite) | (split))
  all_goals (with_reducible first | assumption | exact a1.fst | exact a1.snd | exact a3.chanOf)

theorem State.tableReturn_changes {K : List Foot} {s x : State} (n) (h : Evolves K s x) (a0 : Allows K (.one (.reg (chOff n Reg.tiaLine)))) (a1 : Allows K .chans) (a2 : Allows K (.one .snd)) :
    Evolves K s (State.tableReturn x n) := by
  unfold State.tableReturn
  repeat' (first | with_reducible refine fun _ => ?_ | lift_lets | (with_reducible intro y; first | (refine Evolves.cut (K := K) (s := s) (y := y) ?_ ?_ <;> first | (clear_value y; with_reducible intro hy) | simp -zeta -zetaHave only [y]) | (simp -zeta -zetaHave only [y]; clear y) | (clear_value y; clear y)) | with_reducible (first | exact h | assumption | apply State.lineOff_changes | apply Evolves.ite | apply Evolves.foldl) | (split))
  all_goals (with_reducible first | assumption | exact a1.chanOf)


end Sys2Proof.Machine
end

