-- ==== Sys2Proof/Laws/FramePmu.lean ====
section
/-! SUPPORT. What each operation of Machine/Pmu.lean can change: from a state that has changed only parts of the footprint `K`,
the operation changes only parts of `K`, where `K` allows the operation's own footprint. -/

set_option Elab.async false
set_option linter.all false

namespace Sys2Proof.Machine

theorem State.syncRequest_changes {K : List Foot} {s x : State} (n) (h : Evolves K s x) (a0 : Allows K (.one (.chan n))) :
    Evolves K s (State.syncRequest x n) := by
  unfold State.syncRequest
  repeat' (first | with_reducible refine fun _ => ?_ | lift_lets | (with_reducible intro y; first | (refine Evolves.cut (K := K) (s := s) (y := y) ?_ ?_ <;> first | (clear_value y; with_reducible intro hy) | simp -zeta -zetaHave only [y]) | (simp -zeta -zetaHave only [y]; clear y) | (clear_value y; clear y)) | with_reducible (first | exact h | assumption | apply State.modPmu_changes | apply Evolves.ite))
  all_goals (with_reducible first | assumption)

theorem State.pmuSync_changes {K : List Foot} {s x : State} (c) (v) (h : Evolves K s x) (a0 : Allows K .chans) (a1 : Allows K (.chReg Reg.tiaLine)) (a2 : Allows K (.one (.reg Reg.memRetWakes))) (a3 : Allows K (.one (.reg Reg.memRetState))) :
    Evolves K s (State.pmuSync x c v) := by
  unfold State.pmuSync
  repeat' (first | with_reducible refine fun _ => ?_ | lift_lets | (with_reducible intro y; first | (refine Evolves.cut (K := K) (s := s) (y := y) ?_ ?_ <;> first | (clear_value y; with_reducible intro hy) | simp -zeta -zetaHave only [y]) | (simp -zeta -zetaHave only [y]; clear y) | (clear_value y; clear y)) | with_reducible (first | exact h | assumption | apply State.syncRequest_changes | apply State.wake_changes | apply Evolves.ite | apply Evolves.foldl) | (split))
  all_goals (with_reducible first | assumption | exact a0.chanOf | exact a1.ofCh (by decide))

theorem State.syncReset_changes {K : List Foot} {s x : State} (n) (cycle) (h : Evolves K s x) (a0 : Allows K (.one (.chan n))) (a1 : Allows K (.one (.reg (chOff n Reg.pmuStatus)))) (a2 : Allows K (.one (.reg (chOff n Reg.pmuWords)))) :
    Evolves K s (State.syncReset x n cycle) := by
  unfold State.syncReset
  repeat' (first | with_reducible refine fun _ => ?_ | lift_lets | (with_reducible intro y; first | (refine Evolves.cut (K := K) (s := s) (y := y) ?_ ?_ <;> first | (clear_value y; with_reducible intro hy) | simp -zeta -zetaHave only [y]) | (simp -zeta -zetaHave only [y]; clear y) | (clear_value y; clear y)) | with_reducible (first | exact h | assumption | apply State.modPmu_changes | apply State.wrB_changes | apply State.wr_changes | apply Evolves.ite) | (split))
  all_goals (with_reducible first | assumption)

theorem State.overload_changes {K : List Foot} {s x : State} (n) (cycle) (h : Evolves K s x) (a0 : Allows K (.one (.chan n))) (a1 : Allows K (.pair (chOff n Reg.pmuFlags))) (a2 : Allows K (.one (.reg (chOff n Reg.pmuStatus)))) :
    Evolves K s (State.overload x n cycle) := by
  unfold State.overload
  repeat' (first | with_reducible refine fun _ => ?_ | lift_lets | (with_reducible intro y; first | (refine Evolves.cut (K := K) (s := s) (y := y) ?_ ?_ <;> first | (clear_value y; with_reducible intro hy) | simp -zeta -zetaHave only [y]) | (simp -zeta -zetaHave only [y]; clear y) | (clear_value y; clear y)) | with_reducible (first | exact h | assumption | apply State.modPmu_changes | apply State.raise_changes | apply State.wrB_changes | apply Evolves.ite))
  all_goals (with_reducible first | assumption | exact a1.fst | exact a1.snd)

theorem State.pmuLatch_changes {K : List Foot} {s x : State} (n) (low) (time) (h : Evolves K s x) (a0 : Allows K (.pair (chOff n Reg.pmuWmon))) (a1 : Allows K (.one (.clu (n / 16)))) :
    Evolves K s (State.pmuLatch x n low time) := by
  unfold State.pmuLatch
  repeat' (first | with_reducible refine fun _ => ?_ | lift_lets | (with_reducible intro y; first | (refine Evolves.cut (K := K) (s := s) (y := y) ?_ ?_ <;> first | (clear_value y; with_reducible intro hy) | simp -zeta -zetaHave only [y]) | (simp -zeta -zetaHave only [y]; clear y) | (clear_value y; clear y)) | with_reducible (first | exact h | assumption | apply State.raise_changes | apply State.acqIn_changes | apply Evolves.ite) | (split))
  all_goals (with_reducible first | assumption | exact a0.fst | exact a0.snd)

theorem State.wordTaken_changes {K : List Foot} {s x : State} (n) (off) (h : Evolves K s x) (a0 : Allows K (.one (.chan n))) (a1 : Allows K (.one (.reg (chOff n Reg.pmuStatus)))) :
    Evolves K s (State.wordTaken x n off) := by
  unfold State.wordTaken
  repeat' (first | with_reducible refine fun _ => ?_ | lift_lets | (with_reducible intro y; first | (refine Evolves.cut (K := K) (s := s) (y := y) ?_ ?_ <;> first | (clear_value y; with_reducible intro hy) | simp -zeta -zetaHave only [y]) | (simp -zeta -zetaHave only [y]; clear y) | (clear_value y; clear y)) | with_reducible (first | exact h | assumption | apply State.modPmu_changes | apply State.wrB_changes) | (split))
  all_goals (with_reducible first | assumption)

theorem State.contactWord_changes {K : List Foot} {s x : State} (n) (x') (h : Evolves K s x) (a0 : Allows K (.one .snd)) (a1 : Allows K (.one (.chan n))) (a2 : Allows K (.one (.reg (chOff n Reg.pmuStatus)))) :
    Evolves K s (State.contactWord x n x') := by
  unfold State.contactWord
  try simp -zeta -zetaHave only [State.fold_snd]
  repeat' (first | with_reducible refine fun _ => ?_ | lift_lets | (with_reducible intro y; first | (refine Evolves.cut (K := K) (s := s) (y := y) ?_ ?_ <;> first | (clear_value y; with_reducible intro hy) | simp -zeta -zetaHave only [y]) | (simp -zeta -zetaHave only [y]; clear y) | (clear_value y; clear y)) | with_reducible (first | exact h | assumption | apply State.wordTaken_changes | apply State.putSnd_changes | apply Evolves.ite) | (split))
  all_goals (with_reducible first | assumption)

theorem State.pmuWindow_changes {K : List Foot} {s x : State} (n) (value) (time) (h : Evolves K s x) (a0 : Allows K (.pair (chOff n Reg.pmuWmon))) (a1 : Allows K (.one (.clu (n / 16)))) :
    Evolves K s (State.pmuWindow x n value time) := by
  unfold State.pmuWindow
  repeat' (first | with_reducible refine fun _ => ?_ | lift_lets | (with_reducible intro y; first | (refine Evolves.cut (K := K) (s := s) (y := y) ?_ ?_ <;> first | (clear_value y; with_reducible intro hy) | simp -zeta -zetaHave only [y]) | (simp -zeta -zetaHave only [y]; clear y) | (clear_value y; clear y)) | with_reducible (first | exact h | assumption | apply State.pmuLatch_changes | apply Evolves.ite) | (split))
  all_goals (with_reducible first | assumption | exact a0.fst | exact a0.snd)

theorem State.pmuIssue_changes {K : List Foot} {s x : State} (n) (x') (h : Evolves K s x) (a0 : Allows K (.one (.clu (n / 16)))) (a1 : Allows K (.pair (chOff n Reg.pmuWmon))) (a2 : Allows K (.one (.chan n))) (a3 : Allows K (.one (.reg (chOff n Reg.pmuStatus)))) (a4 : Allows K (.one (.reg (chOff n Reg.pmuDcb)))) (a5 : Allows K (.one (.reg (chOff n Reg.pmuWords)))) (a6 : Allows K (.one (.reg (chOff n Reg.pmuResult)))) :
    Evolves K s (State.pmuIssue x n x') := by
  unfold State.pmuIssue
  repeat' (first | with_reducible refine fun _ => ?_ | lift_lets | (with_reducible intro y; first | (refine Evolves.cut (K := K) (s := s) (y := y) ?_ ?_ <;> first | (clear_value y; with_reducible intro hy) | simp -zeta -zetaHave only [y]) | (simp -zeta -zetaHave only [y]; clear y) | (clear_value y; clear y)) | with_reducible (first | exact h | assumption | apply State.acqOffer_changes | apply State.pmuWindow_changes | apply State.wordTaken_changes | apply State.wrF_changes | apply State.count_changes | apply State.wr_changes) | (split))
  all_goals (with_reducible first | assumption | exact a1.fst | exact a1.snd)

theorem State.resultWord_changes {K : List Foot} {s x : State} (n) (x') (h : Evolves K s x) (a0 : Allows K (.one .snd)) (a1 : Allows K (.one (.chan n))) (a2 : Allows K (.one (.reg (chOff n Reg.pmuStatus)))) (a3 : Allows K (.one (.clu (n / 16)))) (a4 : Allows K (.pair (chOff n Reg.pmuWmon))) (a5 : Allows K (.one (.reg (chOff n Reg.pmuDcb)))) (a6 : Allows K (.one (.reg (chOff n Reg.pmuWords)))) (a7 : Allows K (.one (.reg (chOff n Reg.pmuResult)))) :
    Evolves K s (State.resultWord x n x') := by
  unfold State.resultWord
  repeat' (first | with_reducible refine fun _ => ?_ | with_reducible (first | exact h | apply State.contactWord_changes | apply State.pmuIssue_changes | apply Evolves.ite))
  all_goals (with_reducible first | assumption | exact a4.fst | exact a4.snd)

theorem State.clampOut_changes {K : List Foot} {s x : State} (n) (cycle) (h : Evolves K s x) (a0 : Allows K (.one (.chan n))) (a1 : Allows K (.one (.reg (chOff n Reg.pmuStatus)))) :
    Evolves K s (State.clampOut x n cycle) := by
  unfold State.clampOut
  repeat' (first | with_reducible refine fun _ => ?_ | lift_lets | (with_reducible intro y; first | (refine Evolves.cut (K := K) (s := s) (y := y) ?_ ?_ <;> first | (clear_value y; with_reducible intro hy) | simp -zeta -zetaHave only [y]) | (simp -zeta -zetaHave only [y]; clear y) | (clear_value y; clear y)) | with_reducible (first | exact h | assumption | apply State.modPmu_changes | apply State.wrB_changes | apply Evolves.ite) | (split))
  all_goals (with_reducible first | assumption)

theorem State.clampIn_changes {K : List Foot} {s x : State} (n) (cycle) (h : Evolves K s x) (a0 : Allows K (.one (.chan n))) (a1 : Allows K (.pair (chOff n Reg.pmuFlags))) (a2 : Allows K (.one (.reg (chOff n Reg.pmuStatus)))) :
    Evolves K s (State.clampIn x n cycle) := by
  unfold State.clampIn
  repeat' (first | with_reducible refine fun _ => ?_ | lift_lets | (with_reducible intro y; first | (refine Evolves.cut (K := K) (s := s) (y := y) ?_ ?_ <;> first | (clear_value y; with_reducible intro hy) | simp -zeta -zetaHave only [y]) | (simp -zeta -zetaHave only [y]; clear y) | (clear_value y; clear y)) | with_reducible (first | exact h | assumption | apply State.modPmu_changes | apply State.raise_changes | apply State.wrB_changes | apply Evolves.ite) | (split))
  all_goals (with_reducible first | assumption | exact a1.fst | exact a1.snd)


end Sys2Proof.Machine
end

