-- ==== Sys2Proof/Laws/FrameAcq.lean ====
section
/-! SUPPORT. What each operation of Machine/Acq.lean can change: from a state that has changed only parts of the footprint `K`,
the operation changes only parts of `K`, where `K` allows the operation's own footprint. -/

set_option Elab.async false
set_option linter.all false

namespace Sys2Proof.Machine

theorem State.acqReject_changes {K : List Foot} {s x : State} (c) (h : Evolves K s x) (a0 : Allows K (.pair (cluOff c Reg.acqFlags))) :
    Evolves K s (State.acqReject x c) := by
  unfold State.acqReject
  repeat' (first | with_reducible refine fun _ => ?_ | with_reducible (first | exact h | apply State.raise_changes))
  all_goals (with_reducible first | assumption | exact a0.fst | exact a0.snd)

theorem State.capPut_changes {K : List Foot} {s x : State} (c) (toPre) (r) (h : Evolves K s x) (a0 : Allows K (.one (.clu c))) :
    Evolves K s (State.capPut x c toPre r) := by
  unfold State.capPut
  repeat' (first | with_reducible refine fun _ => ?_ | lift_lets | (with_reducible intro y; first | (refine Evolves.cut (K := K) (s := s) (y := y) ?_ ?_ <;> first | (clear_value y; with_reducible intro hy) | simp -zeta -zetaHave only [y]) | (simp -zeta -zetaHave only [y]; clear y) | (clear_value y; clear y)) | with_reducible (first | exact h | assumption | apply State.modAcq_changes | apply Evolves.ite) | (split))
  all_goals (with_reducible first | assumption)

theorem State.waitOne_changes {K : List Foot} {s x : State} (c) (h : Evolves K s x) (a0 : Allows K (.one (.clu c))) :
    Evolves K s (State.waitOne c x) := by
  unfold State.waitOne
  repeat' (first | with_reducible refine fun _ => ?_ | extract_lets | split | with_reducible (first | exact h | assumption | apply State.capPut_changes | apply State.modAcq_changes | apply Evolves.ite) | (split))
  all_goals (with_reducible first | assumption)

theorem State.waitsIn_changes {K : List Foot} {s x : State} (c) (h : Evolves K s x) (a0 : Allows K (.one (.clu c))) :
    Evolves K s (State.waitsIn x c) := by
  unfold State.waitsIn
  repeat' (first | with_reducible refine fun _ => ?_ | with_reducible (first | exact h | apply State.times_changes | apply State.waitOne_changes))
  all_goals (with_reducible first | assumption)

theorem State.acqDone_changes {K : List Foot} {s x : State} (c) (code) (h : Evolves K s x) (a0 : Allows K .events) (a1 : Allows K (.one (.clu c))) (a2 : Allows K (.one (.reg (cluOff c Reg.acqStatus)))) :
    Evolves K s (State.acqDone x c code) := by
  unfold State.acqDone
  repeat' (first | with_reducible refine fun _ => ?_ | lift_lets | (with_reducible intro y; first | (refine Evolves.cut (K := K) (s := s) (y := y) ?_ ?_ <;> first | (clear_value y; with_reducible intro hy) | simp -zeta -zetaHave only [y]) | (simp -zeta -zetaHave only [y]; clear y) | (clear_value y; clear y)) | with_reducible (first | exact h | assumption | apply State.post_changes | apply State.waitsIn_changes | apply State.modAcq_changes | apply State.wrB_changes | apply State.wrF_changes) | (split))
  all_goals (with_reducible first | assumption | exact a0.vectorOfEvents | exact a0.logOfEvents | exact a0.evrPairOfEvents | exact a0.evrOfEvents | exact a0.vectorsOfEvents | exact a0.evrStatusOfEvents | exact a0.evrDropOfEvents | exact a0.evrCommitOfEvents | exact a0.evrLogOfEvents | exact a0.evrLogBseqOfEvents)

theorem State.capLate_changes {K : List Foot} {s x : State} (c) (toPre) (r) (h : Evolves K s x) (a0 : Allows K (.one (.clu c))) :
    Evolves K s (State.capLate x c toPre r) := by
  unfold State.capLate
  repeat' (first | with_reducible refine fun _ => ?_ | lift_lets | (with_reducible intro y; first | (refine Evolves.cut (K := K) (s := s) (y := y) ?_ ?_ <;> first | (clear_value y; with_reducible intro hy) | simp -zeta -zetaHave only [y]) | (simp -zeta -zetaHave only [y]; clear y) | (clear_value y; clear y)) | with_reducible (first | exact h | assumption | apply State.waitsIn_changes | apply State.modAcq_changes))
  all_goals (with_reducible first | assumption)

theorem State.gapClose_changes {K : List Foot} {s x : State} (c) (h : Evolves K s x) (a0 : Allows K (.pair (cluOff c Reg.acqFlags))) (a1 : Allows K (.one (.reg (cluOff c Reg.acqDrop)))) (a2 : Allows K (.one (.reg (cluOff c Reg.acqGapLen)))) (a3 : Allows K (.one (.reg (cluOff c Reg.acqGapCnt)))) (a4 : Allows K (.one (.clu c))) :
    Evolves K s (State.gapClose x c) := by
  unfold State.gapClose
  repeat' (first | with_reducible refine fun _ => ?_ | extract_lets | split | with_reducible (first | exact h | assumption | apply State.raise_changes | apply State.count_changes | apply State.capLate_changes | apply State.modAcq_changes) | (split))
  all_goals (with_reducible first | assumption | exact a0.fst | exact a0.snd)

theorem State.frameEnd_changes {K : List Foot} {s x : State} (c) (aborted) (time) (h : Evolves K s x) (a0 : Allows K (.one (.reg (cluOff c Reg.acqStatus)))) (a1 : Allows K (.one (.reg (cluOff c Reg.acqFrameCnt)))) (a2 : Allows K (.one (.clu c))) (a3 : Allows K (.pair (cluOff c Reg.acqFlags))) (a4 : Allows K (.one (.reg (cluOff c Reg.acqDrop)))) (a5 : Allows K (.one (.reg (cluOff c Reg.acqGapLen)))) (a6 : Allows K (.one (.reg (cluOff c Reg.acqGapCnt)))) :
    Evolves K s (State.frameEnd x c aborted time) := by
  unfold State.frameEnd
  repeat' (first | with_reducible refine fun _ => ?_ | lift_lets | (with_reducible intro y; first | (refine Evolves.cut (K := K) (s := s) (y := y) ?_ ?_ <;> first | (clear_value y; with_reducible intro hy) | simp -zeta -zetaHave only [y]) | (simp -zeta -zetaHave only [y]; clear y) | (clear_value y; clear y)) | with_reducible (first | exact h | assumption | apply State.wrF_changes | apply State.count_changes | apply State.capLate_changes | apply State.gapClose_changes) | (split))
  all_goals (with_reducible first | assumption | exact a3.fst | exact a3.snd)

theorem State.acqAbort_changes {K : List Foot} {s x : State} (c) (h : Evolves K s x) (a0 : Allows K .events) (a1 : Allows K (.one (.clu c))) (a2 : Allows K (.one (.reg (cluOff c Reg.acqStatus)))) (a3 : Allows K (.one (.reg (cluOff c Reg.acqFrameCnt)))) (a4 : Allows K (.pair (cluOff c Reg.acqFlags))) (a5 : Allows K (.one (.reg (cluOff c Reg.acqDrop)))) (a6 : Allows K (.one (.reg (cluOff c Reg.acqGapLen)))) (a7 : Allows K (.one (.reg (cluOff c Reg.acqGapCnt)))) :
    Evolves K s (State.acqAbort x c) := by
  unfold State.acqAbort
  repeat' (first | with_reducible refine fun _ => ?_ | lift_lets | (with_reducible intro y; first | (refine Evolves.cut (K := K) (s := s) (y := y) ?_ ?_ <;> first | (clear_value y; with_reducible intro hy) | simp -zeta -zetaHave only [y]) | (simp -zeta -zetaHave only [y]; clear y) | (clear_value y; clear y)) | with_reducible (first | exact h | assumption | apply State.acqDone_changes | apply State.frameEnd_changes | apply State.gapClose_changes | apply Evolves.ite) | (split))
  all_goals (with_reducible first | assumption | exact a0.vectorOfEvents | exact a0.logOfEvents | exact a0.evrPairOfEvents | exact a0.evrOfEvents | exact a0.vectorsOfEvents | exact a0.evrStatusOfEvents | exact a0.evrDropOfEvents | exact a0.evrCommitOfEvents | exact a0.evrLogOfEvents | exact a0.evrLogBseqOfEvents | exact a4.fst | exact a4.snd)

theorem State.acqForce_changes {K : List Foot} {s x : State} (c) (h : Evolves K s x) (a0 : Allows K (.one (.clu c))) :
    Evolves K s (State.acqForce x c) := by
  unfold State.acqForce
  repeat' (first | with_reducible refine fun _ => ?_ | with_reducible (first | exact h | apply State.acqIn_changes))
  all_goals (with_reducible first | assumption)

theorem State.enterState_changes {K : List Foot} {s x : State} (c) (m) (h : Evolves K s x) (a0 : Allows K (.one (.clu c))) (a1 : Allows K (.one (.reg (cluOff c Reg.acqStatus)))) :
    Evolves K s (State.enterState x c m) := by
  unfold State.enterState
  repeat' (first | with_reducible refine fun _ => ?_ | lift_lets | (with_reducible intro y; first | (refine Evolves.cut (K := K) (s := s) (y := y) ?_ ?_ <;> first | (clear_value y; with_reducible intro hy) | simp -zeta -zetaHave only [y]) | (simp -zeta -zetaHave only [y]; clear y) | (clear_value y; clear y)) | with_reducible (first | exact h | assumption | apply State.modAcq_changes | apply State.wrF_changes))
  all_goals (with_reducible first | assumption)

theorem State.acqArm_changes {K : List Foot} {s x : State} (c) (h : Evolves K s x) (a0 : Allows K (.chReg Reg.tiaLine)) (a1 : Allows K .chans) (a2 : Allows K (.one (.reg Reg.memRetWakes))) (a3 : Allows K (.one (.reg Reg.memRetState))) (a4 : Allows K (.one (.clu c))) (a5 : Allows K (.one (.reg (cluOff c Reg.acqStatus)))) (a6 : Allows K (.pair (cluOff c Reg.acqFlags))) (a7 : Allows K (.one (.reg (cluOff c Reg.acqFrameCnt)))) (a8 : Allows K (.one (.reg (cluOff c Reg.acqMissed)))) (a9 : Allows K (.one (.reg (cluOff c Reg.acqGapCnt)))) (a10 : Allows K (.one (.reg (cluOff c Reg.acqGapLen)))) (a11 : Allows K (.one (.reg (cluOff c Reg.acqDrop)))) :
    Evolves K s (State.acqArm x c) := by
  unfold State.acqArm
  simp -zeta -zetaHave only [List.foldl_cons, List.foldl_nil]
  repeat' (first | with_reducible refine fun _ => ?_ | lift_lets | (with_reducible intro y; first | (refine Evolves.cut (K := K) (s := s) (y := y) ?_ ?_ <;> first | (clear_value y; with_reducible intro hy) | simp -zeta -zetaHave only [y]) | (simp -zeta -zetaHave only [y]; clear y) | (clear_value y; clear y)) | with_reducible (first | exact h | assumption | apply State.wake_changes | apply State.modAcq_changes | apply State.enterState_changes | apply State.wrF_changes | apply State.wr_changes | apply State.acqReject_changes | apply Evolves.ite | apply Evolves.foldl) | (split))
  all_goals (with_reducible first | assumption | exact a0.ofCh (by decide) | exact a1.chanOf | exact a6.fst | exact a6.snd)

theorem State.acqConfig_changes {K : List Foot} {s x : State} (c) (o) (v) (h : Evolves K s x) (a0 : Allows K (.pair (cluOff c Reg.acqFlags))) (a1 : Allows K (.one (.reg (cluOff c o)))) :
    Evolves K s (State.acqConfig x c o v) := by
  unfold State.acqConfig
  repeat' (first | with_reducible refine fun _ => ?_ | with_reducible (first | exact h | apply State.acqReject_changes | apply State.plainWrite_changes | apply Evolves.ite))
  all_goals (with_reducible first | assumption | exact a0.fst | exact a0.snd)

theorem State.spillConfig_changes {K : List Foot} {s x : State} (c) (size) (v) (h : Evolves K s x) (a0 : Allows K (.pair (cluOff c Reg.acqFlags))) (a1 : Allows K (.one (.reg (cluOff c Reg.acqSpillRd)))) (a2 : Allows K (.one (.reg (cluOff c Reg.acqSpillWr)))) (a3 : Allows K (.one (.reg (cluOff c (if size = true then Reg.acqSpillSize else Reg.acqSpillBase))))) :
    Evolves K s (State.spillConfig x c size v) := by
  unfold State.spillConfig
  repeat' (first | with_reducible refine fun _ => ?_ | lift_lets | (with_reducible intro y; first | (refine Evolves.cut (K := K) (s := s) (y := y) ?_ ?_ <;> first | (clear_value y; with_reducible intro hy) | simp -zeta -zetaHave only [y]) | (simp -zeta -zetaHave only [y]; clear y) | (clear_value y; clear y)) | with_reducible (first | exact h | assumption | apply State.acqReject_changes | apply State.wr_changes | apply Evolves.ite) | (split))
  all_goals (with_reducible first | assumption | exact a0.fst | exact a0.snd)

theorem State.spillRdWrite_changes {K : List Foot} {s x : State} (c) (v) (h : Evolves K s x) (a0 : Allows K (.one (.reg (cluOff c Reg.acqSpillRd)))) (a1 : Allows K (.pair (cluOff c Reg.acqFlags))) :
    Evolves K s (State.spillRdWrite x c v) := by
  unfold State.spillRdWrite
  repeat' (first | with_reducible refine fun _ => ?_ | lift_lets | (with_reducible intro y; first | (refine Evolves.cut (K := K) (s := s) (y := y) ?_ ?_ <;> first | (clear_value y; with_reducible intro hy) | simp -zeta -zetaHave only [y]) | (simp -zeta -zetaHave only [y]; clear y) | (clear_value y; clear y)) | with_reducible (first | exact h | assumption | apply State.wr_changes | apply State.acqReject_changes | apply Evolves.ite) | (split))
  all_goals (with_reducible first | assumption | exact a1.fst | exact a1.snd)

theorem State.slotFreed_changes {K : List Foot} {s x : State} (c) (h : Evolves K s x) (a0 : Allows K (.one (.clu c))) :
    Evolves K s (State.slotFreed x c) := by
  unfold State.slotFreed
  repeat' (first | with_reducible refine fun _ => ?_ | lift_lets | (with_reducible intro y; first | (refine Evolves.cut (K := K) (s := s) (y := y) ?_ ?_ <;> first | (clear_value y; with_reducible intro hy) | simp -zeta -zetaHave only [y]) | (simp -zeta -zetaHave only [y]; clear y) | (clear_value y; clear y)) | with_reducible (first | exact h | assumption | apply State.waitsIn_changes | apply State.modAcq_changes | apply Evolves.ite))
  all_goals (with_reducible first | assumption)

theorem State.spillNext_changes {K : List Foot} {s x : State} (c) (h : Evolves K s x) (a0 : Allows K (.pair (cluOff c Reg.acqFlags))) (a1 : Allows K (.one (.clu c))) (a2 : Allows K (.one (.reg (cluOff c Reg.acqSpillWr)))) (a3 : Allows K .drams) :
    Evolves K s (State.spillNext x c) := by
  unfold State.spillNext
  repeat' (first | with_reducible refine fun _ => ?_ | lift_lets | (with_reducible intro y; first | (refine Evolves.cut (K := K) (s := s) (y := y) ?_ ?_ <;> first | (clear_value y; with_reducible intro hy) | simp -zeta -zetaHave only [y]) | (simp -zeta -zetaHave only [y]; clear y) | (clear_value y; clear y)) | with_reducible (first | exact h | assumption | apply State.raise_changes | apply State.slotFreed_changes | apply State.wr_changes | apply State.dramWr_changes | apply State.modAcq_changes | apply Evolves.ite) | (split))
  all_goals (with_reducible first | assumption | exact a0.fst | exact a0.snd | exact a3.dramOf)

theorem State.postFull_changes {K : List Foot} {s x : State} (c) (h : Evolves K s x) (a0 : Allows K (.one (.reg (cluOff c Reg.acqStatus)))) (a1 : Allows K (.one (.reg (cluOff c Reg.acqFrameCnt)))) (a2 : Allows K (.one (.clu c))) (a3 : Allows K (.pair (cluOff c Reg.acqFlags))) (a4 : Allows K (.one (.reg (cluOff c Reg.acqDrop)))) (a5 : Allows K (.one (.reg (cluOff c Reg.acqGapLen)))) (a6 : Allows K (.one (.reg (cluOff c Reg.acqGapCnt)))) :
    Evolves K s (State.postFull x c) := by
  unfold State.postFull
  repeat' (first | with_reducible refine fun _ => ?_ | lift_lets | (with_reducible intro y; first | (refine Evolves.cut (K := K) (s := s) (y := y) ?_ ?_ <;> first | (clear_value y; with_reducible intro hy) | simp -zeta -zetaHave only [y]) | (simp -zeta -zetaHave only [y]; clear y) | (clear_value y; clear y)) | with_reducible (first | exact h | assumption | apply State.frameEnd_changes | apply Evolves.ite) | (split))
  all_goals (with_reducible first | assumption | exact a3.fst | exact a3.snd)

theorem State.trigger_changes {K : List Foot} {s x : State} (c) (n) (met) (win) (src) (timeout) (time) (interp) (h : Evolves K s x) (a0 : Allows K (.one (.reg (cluOff c Reg.acqStatus)))) (a1 : Allows K (.one (.reg (cluOff c Reg.acqFrameCnt)))) (a2 : Allows K (.one (.clu c))) (a3 : Allows K (.pair (cluOff c Reg.acqFlags))) (a4 : Allows K (.one (.reg (cluOff c Reg.acqDrop)))) (a5 : Allows K (.one (.reg (cluOff c Reg.acqGapLen)))) (a6 : Allows K (.one (.reg (cluOff c Reg.acqGapCnt)))) (a7 : Allows K (.one (.reg (cluOff c Reg.acqTrigInfo)))) (a8 : Allows K (.pair (cluOff c Reg.acqTrigLo))) :
    Evolves K s (State.trigger x c n met win src timeout time interp) := by
  unfold State.trigger
  repeat' (first | with_reducible refine fun _ => ?_ | lift_lets | (with_reducible intro y; first | (refine Evolves.cut (K := K) (s := s) (y := y) ?_ ?_ <;> first | (clear_value y; with_reducible intro hy) | simp -zeta -zetaHave only [y]) | (simp -zeta -zetaHave only [y]; clear y) | (clear_value y; clear y)) | with_reducible (first | exact h | assumption | apply State.postFull_changes | apply State.capLate_changes | apply State.modAcq_changes | apply State.wrB_changes | apply State.wrF_changes | apply State.raiseIf_changes | apply State.wr_changes | apply State.wr64_changes) | (split))
  all_goals (with_reducible first | assumption | exact a3.fst | exact a3.snd | exact a8.fst | exact a8.snd)

theorem State.fire_changes {K : List Foot} {s x : State} (c) (n) (met) (win) (src) (timeout) (time) (interp) (h : Evolves K s x) (a0 : Allows K (.one (.reg (cluOff c Reg.acqStatus)))) (a1 : Allows K (.one (.reg (cluOff c Reg.acqFrameCnt)))) (a2 : Allows K (.one (.clu c))) (a3 : Allows K (.pair (cluOff c Reg.acqFlags))) (a4 : Allows K (.one (.reg (cluOff c Reg.acqDrop)))) (a5 : Allows K (.one (.reg (cluOff c Reg.acqGapLen)))) (a6 : Allows K (.one (.reg (cluOff c Reg.acqGapCnt)))) (a7 : Allows K (.one (.reg (cluOff c Reg.acqTrigInfo)))) (a8 : Allows K (.pair (cluOff c Reg.acqTrigLo))) (a9 : Allows K (.one (.reg (cluOff c Reg.acqMissed)))) :
    Evolves K s (State.fire x c n met win src timeout time interp) := by
  unfold State.fire
  repeat' (first | with_reducible refine fun _ => ?_ | with_reducible (first | exact h | apply State.trigger_changes | apply State.raise_changes | apply State.count_changes | apply Evolves.ite))
  all_goals (with_reducible first | assumption | exact a3.fst | exact a3.snd | exact a8.fst | exact a8.snd)

theorem State.machineStep_changes {K : List Foot} {s x : State} (c) (n) (h : Evolves K s x) (a0 : Allows K (.one (.clu c))) (a1 : Allows K (.one (.reg (cluOff c Reg.acqStatus)))) (a2 : Allows K (.one (.reg (cluOff c Reg.acqFrameCnt)))) (a3 : Allows K (.pair (cluOff c Reg.acqFlags))) (a4 : Allows K (.one (.reg (cluOff c Reg.acqDrop)))) (a5 : Allows K (.one (.reg (cluOff c Reg.acqGapLen)))) (a6 : Allows K (.one (.reg (cluOff c Reg.acqGapCnt)))) (a7 : Allows K (.one (.reg (cluOff c Reg.acqTrigInfo)))) (a8 : Allows K (.pair (cluOff c Reg.acqTrigLo))) (a9 : Allows K (.one (.reg (cluOff c Reg.acqMissed)))) :
    Evolves K s (State.machineStep x c n) := by
  unfold State.machineStep
  extract_lets m met hits s0
  have h0 : Evolves K s s0 := by apply State.modAcq_changes <;> with_reducible assumption
  clear_value hits s0
  split
  · with_reducible assumption
  repeat' (first | with_reducible refine fun _ => ?_ | lift_lets | (with_reducible intro y; first | (refine Evolves.cut (K := K) (s := s) (y := y) ?_ ?_ <;> first | (clear_value y; with_reducible intro hy) | simp -zeta -zetaHave only [y]) | (simp -zeta -zetaHave only [y]; clear y) | (clear_value y; clear y)) | with_reducible (first | exact h | assumption | apply State.modAcq_changes | apply State.enterState_changes | apply State.fire_changes | apply Evolves.ite) | (split))
  all_goals (with_reducible first | assumption | exact a3.fst | exact a3.snd | exact a8.fst | exact a8.snd)

theorem State.trigInstant_changes {K : List Foot} {s x : State} (c) (n) (h : Evolves K s x) (a0 : Allows K .chans) (a1 : Allows K (.chReg Reg.tiaStatus)) (a2 : Allows K (.one (.reg (cluOff c Reg.acqStatus)))) (a3 : Allows K (.one (.clu c))) (a4 : Allows K (.one (.seq c))) :
    Evolves K s (State.trigInstant x c n) := by
  unfold State.trigInstant
  repeat' (first | with_reducible refine fun _ => ?_ | lift_lets | (with_reducible intro y; first | (refine Evolves.cut (K := K) (s := s) (y := y) ?_ ?_ <;> first | (clear_value y; with_reducible intro hy) | simp -zeta -zetaHave only [y]) | (simp -zeta -zetaHave only [y]; clear y) | (clear_value y; clear y)) | with_reducible (first | exact h | assumption | apply State.tiaBegin_changes | apply State.wrB_changes | apply State.modAcq_changes | apply State.pendLine_changes | apply Evolves.ite | apply Evolves.foldl) | (split))
  all_goals (with_reducible first | assumption | exact a0.chanOf | exact a1.ofCh (by decide))

theorem State.takeMarks_changes {K : List Foot} {s x : State} (c) (n) (h : Evolves K s x) (a0 : Allows K (.one (.clu c))) :
    Evolves K s (State.takeMarks x c n) := by
  unfold State.takeMarks
  repeat' (first | with_reducible refine fun _ => ?_ | lift_lets | (with_reducible intro y; first | (refine Evolves.cut (K := K) (s := s) (y := y) ?_ ?_ <;> first | (clear_value y; with_reducible intro hy) | simp -zeta -zetaHave only [y]) | (simp -zeta -zetaHave only [y]; clear y) | (clear_value y; clear y)) | with_reducible (first | exact h | assumption | apply State.modDds_changes | apply State.acqIn_changes | apply Evolves.ite) | (split))
  all_goals (with_reducible first | assumption)

theorem State.capOffer_changes {K : List Foot} {s x : State} (c) (n) (h : Evolves K s x) (a0 : Allows K (.one (.reg (cluOff c Reg.acqStatus)))) (a1 : Allows K (.one (.reg (cluOff c Reg.acqFrameCnt)))) (a2 : Allows K (.one (.clu c))) (a3 : Allows K (.pair (cluOff c Reg.acqFlags))) (a4 : Allows K (.one (.reg (cluOff c Reg.acqDrop)))) (a5 : Allows K (.one (.reg (cluOff c Reg.acqGapLen)))) (a6 : Allows K (.one (.reg (cluOff c Reg.acqGapCnt)))) :
    Evolves K s (State.capOffer x c n) := by
  unfold State.capOffer
  repeat' (first | with_reducible refine fun _ => ?_ | lift_lets | (with_reducible intro y; first | (refine Evolves.cut (K := K) (s := s) (y := y) ?_ ?_ <;> first | (clear_value y; with_reducible intro hy) | simp -zeta -zetaHave only [y]) | (simp -zeta -zetaHave only [y]; clear y) | (clear_value y; clear y)) | with_reducible (first | exact h | assumption | apply State.postFull_changes | apply State.modAcq_changes | apply State.capPut_changes | apply State.gapClose_changes | apply Evolves.ite | apply Evolves.foldl) | (split))
  all_goals (with_reducible first | assumption | exact a3.fst | exact a3.snd)

theorem State.triggerSample_changes {K : List Foot} {s x : State} (c) (h : Evolves K s x) (a0 : Allows K (.one (.clu c))) (a1 : Allows K (.one (.reg (cluOff c Reg.acqStatus)))) (a2 : Allows K (.one (.reg (cluOff c Reg.acqFrameCnt)))) (a3 : Allows K (.pair (cluOff c Reg.acqFlags))) (a4 : Allows K (.one (.reg (cluOff c Reg.acqDrop)))) (a5 : Allows K (.one (.reg (cluOff c Reg.acqGapLen)))) (a6 : Allows K (.one (.reg (cluOff c Reg.acqGapCnt)))) (a7 : Allows K (.one (.reg (cluOff c Reg.acqTrigInfo)))) (a8 : Allows K (.pair (cluOff c Reg.acqTrigLo))) (a9 : Allows K (.one (.reg (cluOff c Reg.acqMissed)))) (a10 : Allows K .chans) (a11 : Allows K (.chReg Reg.tiaStatus)) (a12 : Allows K (.one (.seq c))) :
    Evolves K s (State.triggerSample x c) := by
  unfold State.triggerSample
  repeat' (first | with_reducible refine fun _ => ?_ | lift_lets | (with_reducible intro y; first | (refine Evolves.cut (K := K) (s := s) (y := y) ?_ ?_ <;> first | (clear_value y; with_reducible intro hy) | simp -zeta -zetaHave only [y]) | (simp -zeta -zetaHave only [y]; clear y) | (clear_value y; clear y)) | with_reducible (first | exact h | assumption | apply State.modAcq_changes | apply State.machineStep_changes | apply State.trigInstant_changes | apply State.waitsIn_changes | apply State.takeMarks_changes | apply State.capOffer_changes | apply Evolves.ite) | (split))
  all_goals (with_reducible first | assumption | exact a3.fst | exact a3.snd | exact a8.fst | exact a8.snd | exact a10.chanOf | exact a11.ofCh (by decide))

theorem State.stateTimeout_changes {K : List Foot} {s x : State} (c) (h : Evolves K s x) (a0 : Allows K (.one (.clu c))) (a1 : Allows K (.one (.reg (cluOff c Reg.acqStatus)))) (a2 : Allows K (.one (.reg (cluOff c Reg.acqFrameCnt)))) (a3 : Allows K (.pair (cluOff c Reg.acqFlags))) (a4 : Allows K (.one (.reg (cluOff c Reg.acqDrop)))) (a5 : Allows K (.one (.reg (cluOff c Reg.acqGapLen)))) (a6 : Allows K (.one (.reg (cluOff c Reg.acqGapCnt)))) (a7 : Allows K (.one (.reg (cluOff c Reg.acqTrigInfo)))) (a8 : Allows K (.pair (cluOff c Reg.acqTrigLo))) (a9 : Allows K (.one (.reg (cluOff c Reg.acqMissed)))) (a10 : Allows K (.one .freeCtr)) :
    Evolves K s (State.stateTimeout x c) := by
  unfold State.stateTimeout
  repeat' (first | with_reducible refine fun _ => ?_ | lift_lets | (with_reducible intro y; first | (refine Evolves.cut (K := K) (s := s) (y := y) ?_ ?_ <;> first | (clear_value y; with_reducible intro hy) | simp -zeta -zetaHave only [y]) | (simp -zeta -zetaHave only [y]; clear y) | (clear_value y; clear y)) | with_reducible (first | exact h | assumption | apply State.enterState_changes | apply State.fire_changes | apply State.freeWord_changes | apply Evolves.ite) | (split))
  all_goals (with_reducible first | assumption | exact a3.fst | exact a3.snd | exact a8.fst | exact a8.snd)

theorem State.rearmEnd_changes {K : List Foot} {s x : State} (c) (h : Evolves K s x) (a0 : Allows K (.one (.clu c))) (a1 : Allows K (.one (.reg (cluOff c Reg.acqStatus)))) (a2 : Allows K .events) :
    Evolves K s (State.rearmEnd x c) := by
  unfold State.rearmEnd
  repeat' (first | with_reducible refine fun _ => ?_ | lift_lets | (with_reducible intro y; first | (refine Evolves.cut (K := K) (s := s) (y := y) ?_ ?_ <;> first | (clear_value y; with_reducible intro hy) | simp -zeta -zetaHave only [y]) | (simp -zeta -zetaHave only [y]; clear y) | (clear_value y; clear y)) | with_reducible (first | exact h | assumption | apply State.modAcq_changes | apply State.wrB_changes | apply State.enterState_changes | apply State.acqDone_changes | apply State.wrF_changes | apply Evolves.ite) | (split))
  all_goals (with_reducible first | assumption | exact a2.vectorOfEvents | exact a2.logOfEvents | exact a2.evrPairOfEvents | exact a2.evrOfEvents | exact a2.vectorsOfEvents | exact a2.evrStatusOfEvents | exact a2.evrDropOfEvents | exact a2.evrCommitOfEvents | exact a2.evrLogOfEvents | exact a2.evrLogBseqOfEvents)

theorem State.spillLost_changes {K : List Foot} {s x : State} (c) (m) (row) (h : Evolves K s x) (a0 : Allows K (.pair (cluOff c Reg.acqFlags))) (a1 : Allows K (.one (.reg (cluOff c Reg.acqDrop)))) (a2 : Allows K (.one (.reg (cluOff c Reg.acqGapLen)))) (a3 : Allows K (.one (.reg (cluOff c Reg.acqGapCnt)))) (a4 : Allows K (.one (.clu c))) (a5 : Allows K .events) (a6 : Allows K (.one (.reg Reg.memEccAddr))) (a7 : Allows K (.pair Reg.memFlags)) :
    Evolves K s (State.spillLost x c m row) := by
  unfold State.spillLost
  repeat' (first | with_reducible refine fun _ => ?_ | extract_lets | split | with_reducible (first | exact h | assumption | apply State.raise_changes | apply State.count_changes | apply State.modAcq_changes | apply State.eccUncorr_changes) | (split))
  all_goals (with_reducible first | assumption | exact a0.fst | exact a0.snd | exact a5.vectorOfEvents | exact a5.logOfEvents | exact a5.evrPairOfEvents | exact a5.evrOfEvents | exact a5.vectorsOfEvents | exact a5.evrStatusOfEvents | exact a5.evrDropOfEvents | exact a5.evrCommitOfEvents | exact a5.evrLogOfEvents | exact a5.evrLogBseqOfEvents | exact a7.fst | exact a7.snd)

theorem State.spillRecord_changes {K : List Foot} {s x : State} (c) (read) (part) (row) (h : Evolves K s x) (a0 : Allows K (.pair (cluOff c Reg.acqFlags))) (a1 : Allows K (.one (.clu c))) (a2 : Allows K (.one (.reg (cluOff c Reg.acqSpillWr)))) (a3 : Allows K .drams) (a4 : Allows K (.one (.reg Reg.memEccCnt))) (a5 : Allows K (.one (.reg (cluOff c Reg.acqDrop)))) (a6 : Allows K (.one (.reg (cluOff c Reg.acqGapLen)))) (a7 : Allows K (.one (.reg (cluOff c Reg.acqGapCnt)))) (a8 : Allows K .events) (a9 : Allows K (.one (.reg Reg.memEccAddr))) (a10 : Allows K (.pair Reg.memFlags)) :
    Evolves K s (State.spillRecord x c read part row) := by
  unfold State.spillRecord
  repeat' (first | with_reducible refine fun _ => ?_ | with_reducible (first | exact h | apply State.spillNext_changes | apply State.eccCorrected_changes | apply State.spillLost_changes | apply Evolves.ite) | (split))
  all_goals (with_reducible first | assumption | exact a0.fst | exact a0.snd | exact a3.dramOf | exact a8.vectorOfEvents | exact a8.logOfEvents | exact a8.evrPairOfEvents | exact a8.evrOfEvents | exact a8.vectorsOfEvents | exact a8.evrStatusOfEvents | exact a8.evrDropOfEvents | exact a8.evrCommitOfEvents | exact a8.evrLogOfEvents | exact a8.evrLogBseqOfEvents | exact a10.fst | exact a10.snd)

theorem State.acqArmInstant_changes {K : List Foot} {s x : State} (c) (cycle) (h : Evolves K s x) (a0 : Allows K (.one (.clu c))) :
    Evolves K s (State.acqArmInstant x c cycle) := by
  unfold State.acqArmInstant
  repeat' (first | with_reducible refine fun _ => ?_ | lift_lets | (with_reducible intro y; first | (refine Evolves.cut (K := K) (s := s) (y := y) ?_ ?_ <;> first | (clear_value y; with_reducible intro hy) | simp -zeta -zetaHave only [y]) | (simp -zeta -zetaHave only [y]; clear y) | (clear_value y; clear y)) | with_reducible (first | exact h | assumption | apply State.modAcq_changes | apply Evolves.ite))
  all_goals (with_reducible first | assumption)


end Sys2Proof.Machine
end

