-- ==== Sys2Proof/Laws/FrameDds.lean ====
section
/-! SUPPORT. What each operation of Machine/Dds.lean can change: from a state that has changed only parts of the footprint `K`,
the operation changes only parts of `K`, where `K` allows the operation's own footprint. -/

set_option Elab.async false
set_option linter.all false

namespace Sys2Proof.Machine

theorem State.ddsReadBack_changes {K : List Foot} {s x : State} (c) (table) (i) (h : Evolves K s x) (a0 : Allows K (.pair (cluOff c Reg.ddsData0))) :
    Evolves K s (State.ddsReadBack x c table i) := by
  unfold State.ddsReadBack
  repeat' (first | with_reducible refine fun _ => ?_ | with_reducible (first | exact h | apply State.wr64_changes))
  all_goals (with_reducible first | assumption | exact a0.fst | exact a0.snd)

theorem State.tablePut_changes {K : List Foot} {s x : State} (c) (table) (i) (d0) (d1) (h : Evolves K s x) (a0 : Allows K (.one (.clu c))) :
    Evolves K s (State.tablePut x c table i d0 d1) := by
  unfold State.tablePut
  repeat' (first | with_reducible refine fun _ => ?_ | lift_lets | (with_reducible intro y; first | (refine Evolves.cut (K := K) (s := s) (y := y) ?_ ?_ <;> first | (clear_value y; with_reducible intro hy) | simp -zeta -zetaHave only [y]) | (simp -zeta -zetaHave only [y]; clear y) | (clear_value y; clear y)) | with_reducible (first | exact h | assumption | apply State.modDds_changes) | (split))
  all_goals (with_reducible first | assumption)

theorem State.ddsGo_changes {K : List Foot} {s x : State} (c) (cycle) (table) (i) (h : Evolves K s x) (a0 : Allows K (.pair (cluOff c Reg.ddsFlags))) (a1 : Allows K (.one (.clu c))) :
    Evolves K s (State.ddsGo x c cycle table i) := by
  unfold State.ddsGo
  repeat' (first | with_reducible refine fun _ => ?_ | lift_lets | (with_reducible intro y; first | (refine Evolves.cut (K := K) (s := s) (y := y) ?_ ?_ <;> first | (clear_value y; with_reducible intro hy) | simp -zeta -zetaHave only [y]) | (simp -zeta -zetaHave only [y]; clear y) | (clear_value y; clear y)) | with_reducible (first | exact h | assumption | apply State.raiseIf_changes | apply State.tablePut_changes | apply Evolves.ite) | (split))
  all_goals (with_reducible first | assumption | exact a0.fst | exact a0.snd)

theorem State.ddsAddr_changes {K : List Foot} {s x : State} (c) (cycle) (v) (h : Evolves K s x) (a0 : Allows K (.pair (cluOff c Reg.ddsData0))) (a1 : Allows K (.pair (cluOff c Reg.ddsFlags))) (a2 : Allows K (.one (.clu c))) (a3 : Allows K (.one (.reg (cluOff c Reg.ddsAddr)))) :
    Evolves K s (State.ddsAddr x c cycle v) := by
  unfold State.ddsAddr
  repeat' (first | with_reducible refine fun _ => ?_ | lift_lets | (with_reducible intro y; first | (refine Evolves.cut (K := K) (s := s) (y := y) ?_ ?_ <;> first | (clear_value y; with_reducible intro hy) | simp -zeta -zetaHave only [y]) | (simp -zeta -zetaHave only [y]; clear y) | (clear_value y; clear y)) | with_reducible (first | exact h | assumption | apply State.ddsReadBack_changes | apply State.ddsGo_changes | apply State.plainWrite_changes | apply Evolves.ite) | (split))
  all_goals (with_reducible first | assumption | exact a0.fst | exact a0.snd | exact a1.fst | exact a1.snd)

theorem State.ddsAddrFree_changes {K : List Foot} {s x : State} (c) (v) (h : Evolves K s x) (a0 : Allows K (.pair (cluOff c Reg.ddsData0))) (a1 : Allows K (.pair (cluOff c Reg.ddsFlags))) (a2 : Allows K (.one (.clu c))) (a3 : Allows K (.one (.reg (cluOff c Reg.ddsAddr)))) (a4 : Allows K (.one .freeCtr)) :
    Evolves K s (State.ddsAddrFree x c v) := by
  unfold State.ddsAddrFree
  repeat' (first | with_reducible refine fun _ => ?_ | lift_lets | (with_reducible intro y; first | (refine Evolves.cut (K := K) (s := s) (y := y) ?_ ?_ <;> first | (clear_value y; with_reducible intro hy) | simp -zeta -zetaHave only [y]) | (simp -zeta -zetaHave only [y]; clear y) | (clear_value y; clear y)) | with_reducible (first | exact h | assumption | apply State.ddsAddr_changes | apply State.freeCycle_changes | apply Evolves.ite) | (split))
  all_goals (with_reducible first | assumption | exact a0.fst | exact a0.snd | exact a1.fst | exact a1.snd)

theorem State.ddsOut_changes {K : List Foot} {s x : State} (c) (g) (h : Evolves K s x) (a0 : Allows K (.one (.clu c))) :
    Evolves K s (State.ddsOut x c g) := by
  unfold State.ddsOut
  repeat' (first | with_reducible refine fun _ => ?_ | lift_lets | (with_reducible intro y; first | (refine Evolves.cut (K := K) (s := s) (y := y) ?_ ?_ <;> first | (clear_value y; with_reducible intro hy) | simp -zeta -zetaHave only [y]) | (simp -zeta -zetaHave only [y]; clear y) | (clear_value y; clear y)) | with_reducible (first | exact h | assumption | apply State.modDds_changes))
  all_goals (with_reducible first | assumption)

theorem State.ddsIdle_changes {K : List Foot} {s x : State} (c) (t) (cycle) (h : Evolves K s x) (a0 : Allows K (.one (.clu c))) (a1 : Allows K (.pair (cluOff c Reg.ddsPhaseLo))) (a2 : Allows K (.pair (cluOff c Reg.ddsFlags))) :
    Evolves K s (State.ddsIdle x c t cycle) := by
  unfold State.ddsIdle
  repeat' (first | with_reducible refine fun _ => ?_ | lift_lets | (with_reducible intro y; first | (refine Evolves.cut (K := K) (s := s) (y := y) ?_ ?_ <;> first | (clear_value y; with_reducible intro hy) | simp -zeta -zetaHave only [y]) | (simp -zeta -zetaHave only [y]; clear y) | (clear_value y; clear y)) | with_reducible (first | exact h | assumption | apply State.ddsOut_changes | apply State.wr64_changes | apply State.raise_changes) | (split))
  all_goals (with_reducible first | assumption | exact a1.fst | exact a1.snd | exact a2.fst | exact a2.snd)

theorem State.ddsMark_changes {K : List Foot} {s x : State} (c) (cycle) (h : Evolves K s x) (a0 : Allows K (.one (.clu c))) (a1 : Allows K (.one (.reg (cluOff c Reg.ddsMarkCnt)))) :
    Evolves K s (State.ddsMark x c cycle) := by
  unfold State.ddsMark
  repeat' (first | with_reducible refine fun _ => ?_ | lift_lets | (with_reducible intro y; first | (refine Evolves.cut (K := K) (s := s) (y := y) ?_ ?_ <;> first | (clear_value y; with_reducible intro hy) | simp -zeta -zetaHave only [y]) | (simp -zeta -zetaHave only [y]; clear y) | (clear_value y; clear y)) | with_reducible (first | exact h | assumption | apply State.modDds_changes | apply State.count_changes))
  all_goals (with_reducible first | assumption)

theorem State.ddsPlay_changes {K : List Foot} {s x : State} (c) (i) (t) (cycle) (h : Evolves K s x) (a0 : Allows K (.one (.clu c))) (a1 : Allows K (.one (.reg (cluOff c Reg.ddsMarkCnt)))) (a2 : Allows K (.one (.reg (cluOff c Reg.ddsStatus)))) (a3 : Allows K (.pair (cluOff c Reg.ddsPhaseLo))) (a4 : Allows K (.pair (cluOff c Reg.ddsFlags))) :
    Evolves K s (State.ddsPlay x c i t cycle) := by
  unfold State.ddsPlay
  repeat' (first | with_reducible refine fun _ => ?_ | lift_lets | (with_reducible intro y; first | (refine Evolves.cut (K := K) (s := s) (y := y) ?_ ?_ <;> first | (clear_value y; with_reducible intro hy) | simp -zeta -zetaHave only [y]) | (simp -zeta -zetaHave only [y]; clear y) | (clear_value y; clear y)) | with_reducible (first | exact h | assumption | apply State.ddsMark_changes | apply State.wrF_changes | apply State.wr64_changes | apply State.times_changes | apply State.raise_changes | apply State.ddsOut_changes | apply State.modDds_changes | apply Evolves.ite) | (split))
  all_goals (with_reducible first | assumption | exact a3.fst | exact a3.snd | exact a4.fst | exact a4.snd)

theorem State.tokenPlay_changes {K : List Foot} {s x : State} (c) (t) (cycle) (h : Evolves K s x) (a0 : Allows K (.one (.reg (cluOff c Reg.ddsStatus)))) (a1 : Allows K (.one (.clu c))) (a2 : Allows K (.one (.reg (cluOff c Reg.ddsMarkCnt)))) (a3 : Allows K (.pair (cluOff c Reg.ddsPhaseLo))) (a4 : Allows K (.pair (cluOff c Reg.ddsFlags))) (a5 : Allows K (.pair (cluOff c Reg.ddsGranLo))) :
    Evolves K s (State.tokenPlay x c t cycle) := by
  unfold State.tokenPlay
  repeat' (first | with_reducible refine fun _ => ?_ | lift_lets | (with_reducible intro y; first | (refine Evolves.cut (K := K) (s := s) (y := y) ?_ ?_ <;> first | (clear_value y; with_reducible intro hy) | simp -zeta -zetaHave only [y]) | (simp -zeta -zetaHave only [y]; clear y) | (clear_value y; clear y)) | with_reducible (first | exact h | assumption | apply State.wrB_changes | apply State.ddsPlay_changes | apply State.wrF_changes | apply State.wr64_changes | apply State.ddsIdle_changes) | (split))
  all_goals (with_reducible first | assumption | exact a3.fst | exact a3.snd | exact a4.fst | exact a4.snd | exact a5.fst | exact a5.snd)

theorem State.tokenIssue_changes {K : List Foot} {s x : State} (c) (h : Evolves K s x) (a0 : Allows K (.one (.reg (cluOff c Reg.ddsStatus)))) (a1 : Allows K (.one (.clu c))) (a2 : Allows K (.one (.reg (cluOff c Reg.ddsMarkCnt)))) (a3 : Allows K (.pair (cluOff c Reg.ddsPhaseLo))) (a4 : Allows K (.pair (cluOff c Reg.ddsFlags))) (a5 : Allows K (.pair (cluOff c Reg.ddsGranLo))) (a6 : Allows K (.one (.lane c))) (a7 : Allows K (.chReg Reg.peWmon)) (a8 : Allows K (.chReg Reg.pmuWmon)) (a9 : Allows K (.chPair Reg.tgFlags)) (a10 : Allows K (.pair (cluOff c Reg.plnGapLenLo))) (a11 : Allows K (.one .plan)) (a12 : Allows K .events) (a13 : Allows K (.pair (cluOff c Reg.plnFlags))) (a14 : Allows K (.one (.reg (cluOff c Reg.plnGapCnt)))) (a15 : Allows K (.pair (cluOff c Reg.plnGapFirstLo))) (a16 : Allows K (.chReg Reg.tgScrActHi)) (a17 : Allows K (.chReg Reg.tgScrActLo)) (a18 : Allows K (.chPair Reg.tgCkmPeriodHi)) (a19 : Allows K (.chReg Reg.peStatus)) (a20 : Allows K .chans) :
    Evolves K s (State.tokenIssue x c) := by
  unfold State.tokenIssue
  repeat' (first | with_reducible refine fun _ => ?_ | lift_lets | (with_reducible intro y; first | (refine Evolves.cut (K := K) (s := s) (y := y) ?_ ?_ <;> first | (clear_value y; with_reducible intro hy) | simp -zeta -zetaHave only [y]) | (simp -zeta -zetaHave only [y]; clear y) | (clear_value y; clear y)) | with_reducible (first | exact h | assumption | apply State.tokenPlay_changes | apply State.times_changes | apply State.issueVec_changes | apply State.modLane_changes | apply Evolves.ite) | (split))
  all_goals (with_reducible first | assumption | exact a3.fst | exact a3.snd | exact a4.fst | exact a4.snd | exact a5.fst | exact a5.snd | exact a7.ofCh (by decide) | exact a8.ofCh (by decide) | exact a9.pairCh (by decide) | exact a9.chFst | exact a9.chSnd | exact a9.chFst.ofCh (by decide) | exact a9.chSnd.ofCh (by decide) | exact a10.fst | exact a10.snd | exact a12.vectorOfEvents | exact a12.logOfEvents | exact a12.evrPairOfEvents | exact a12.evrOfEvents | exact a12.vectorsOfEvents | exact a12.evrStatusOfEvents | exact a12.evrDropOfEvents | exact a12.evrCommitOfEvents | exact a12.evrLogOfEvents | exact a12.evrLogBseqOfEvents | exact a13.fst | exact a13.snd | exact a15.fst | exact a15.snd | exact a16.ofCh (by decide) | exact a17.ofCh (by decide) | exact a18.pairCh (by decide) | exact a18.chFst | exact a18.chSnd | exact a18.chFst.ofCh (by decide) | exact a18.chSnd.ofCh (by decide) | exact a19.ofCh (by decide) | exact a20.chanOf)


end Sys2Proof.Machine
end

