-- ==== Sys2Proof/Laws/FrameSound.lean ====
section
/-! SUPPORT. What each operation of Machine/Sound.lean can change: from a state that has changed only parts of the footprint `K`,
the operation changes only parts of `K`, where `K` allows the operation's own footprint. -/

set_option Elab.async false
set_option linter.all false

namespace Sys2Proof.Machine

theorem State.releaseChan_changes {K : List Foot} {s x : State} (n) (h : Evolves K s x) (a0 : Allows K (.chReg Reg.pmuStatus)) (a1 : Allows K (.one (.chan n))) (a2 : Allows K (.one (.reg (chOff n Reg.peStatus)))) (a3 : Allows K (.one (.chan (n + 1)))) (a4 : Allows K (.one (.reg (chOff n Reg.tiaStatus)))) (a5 : Allows K (.one (.reg (chOff n Reg.tiaDiscard)))) (a6 : Allows K .events) (a7 : Allows K (.pair (chOff n Reg.tiaMaxLo))) (a8 : Allows K (.pair (chOff n Reg.tiaMinLo))) (a9 : Allows K (.pair (chOff n Reg.tiaSdevLo))) (a10 : Allows K (.pair (chOff n Reg.tiaMeanLo))) (a11 : Allows K (.one (.reg (chOff n Reg.tiaCount)))) (a12 : Allows K (.pair (chOff n Reg.tiaLastLo))) (a13 : Allows K (.one (.reg (chOff n Reg.tiaSkip)))) (a14 : Allows K (.one (.clu (n / 16)))) (a15 : Allows K (.one (.reg (chOff n Reg.tiaFcnt)))) :
    Evolves K s (State.releaseChan x n) := by
  unfold State.releaseChan
  repeat' (first | with_reducible refine fun _ => ?_ | lift_lets | (with_reducible intro y; first | (refine Evolves.cut (K := K) (s := s) (y := y) ?_ ?_ <;> first | (clear_value y; with_reducible intro hy) | simp -zeta -zetaHave only [y]) | (simp -zeta -zetaHave only [y]; clear y) | (clear_value y; clear y)) | with_reducible (first | exact h | assumption | apply State.combineNote_changes | apply State.rangeStart_changes | apply State.modChan_changes | apply State.modPmu_changes | apply State.wr_changes | apply State.wrB_changes | apply State.tiaStop_changes | apply State.setSource_changes | apply Evolves.ite) | (split))
  all_goals (with_reducible first | assumption | exact a0.ofCh (by decide) | exact a6.vectorOfEvents | exact a6.logOfEvents | exact a6.evrPairOfEvents | exact a6.evrOfEvents | exact a6.vectorsOfEvents | exact a6.evrStatusOfEvents | exact a6.evrDropOfEvents | exact a6.evrCommitOfEvents | exact a6.evrLogOfEvents | exact a6.evrLogBseqOfEvents | exact a7.fst | exact a7.snd | exact a8.fst | exact a8.snd | exact a9.fst | exact a9.snd | exact a10.fst | exact a10.snd | exact a12.fst | exact a12.snd)

theorem State.releaseAll_changes {K : List Foot} {s x : State} (h : Evolves K s x) (a0 : Allows K (.chReg Reg.pmuStatus)) (a1 : Allows K .chans) (a2 : Allows K (.chReg Reg.peStatus)) (a3 : Allows K (.chReg Reg.tiaStatus)) (a4 : Allows K (.chReg Reg.tiaDiscard)) (a5 : Allows K .events) (a6 : Allows K (.chPair Reg.tiaMaxLo)) (a7 : Allows K (.chPair Reg.tiaMinLo)) (a8 : Allows K (.chPair Reg.tiaSdevLo)) (a9 : Allows K (.chPair Reg.tiaMeanLo)) (a10 : Allows K (.chReg Reg.tiaCount)) (a11 : Allows K (.chPair Reg.tiaLastLo)) (a12 : Allows K (.chReg Reg.tiaSkip)) (a13 : Allows K .clus) (a14 : Allows K (.chReg Reg.tiaFcnt)) :
    Evolves K s (State.releaseAll x) := by
  unfold State.releaseAll
  repeat' (first | with_reducible refine fun _ => ?_ | with_reducible (first | exact h | assumption | apply State.releaseChan_changes | apply Evolves.foldl))
  all_goals (with_reducible first | assumption | exact a0.ofCh (by decide) | exact a1.chanOf | exact a2.ofCh (by decide) | exact a3.ofCh (by decide) | exact a4.ofCh (by decide) | exact a5.vectorOfEvents | exact a5.logOfEvents | exact a5.evrPairOfEvents | exact a5.evrOfEvents | exact a5.vectorsOfEvents | exact a5.evrStatusOfEvents | exact a5.evrDropOfEvents | exact a5.evrCommitOfEvents | exact a5.evrLogOfEvents | exact a5.evrLogBseqOfEvents | exact a6.pairCh (by decide) | exact a6.chFst | exact a6.chSnd | exact a6.chFst.ofCh (by decide) | exact a6.chSnd.ofCh (by decide) | exact a7.pairCh (by decide) | exact a7.chFst | exact a7.chSnd | exact a7.chFst.ofCh (by decide) | exact a7.chSnd.ofCh (by decide) | exact a8.pairCh (by decide) | exact a8.chFst | exact a8.chSnd | exact a8.chFst.ofCh (by decide) | exact a8.chSnd.ofCh (by decide) | exact a9.pairCh (by decide) | exact a9.chFst | exact a9.chSnd | exact a9.chFst.ofCh (by decide) | exact a9.chSnd.ofCh (by decide) | exact a10.ofCh (by decide) | exact a11.pairCh (by decide) | exact a11.chFst | exact a11.chSnd | exact a11.chFst.ofCh (by decide) | exact a11.chSnd.ofCh (by decide) | exact a12.ofCh (by decide) | exact a13.cluOf | exact a14.ofCh (by decide))

theorem State.soundRequest_changes {K : List Foot} {s x : State} (src) (h : Evolves K s x) (a0 : Allows K (.pair Reg.sndFlags)) (a1 : Allows K (.one .snd)) (a2 : Allows K (.one (.reg Reg.sndStatus))) (a3 : Allows K (.chReg Reg.tiaLine)) (a4 : Allows K .chans) (a5 : Allows K (.one (.reg Reg.memRetWakes))) (a6 : Allows K (.one (.reg Reg.memRetState))) :
    Evolves K s (State.soundRequest x src) := by
  unfold State.soundRequest
  try simp -zeta -zetaHave only [State.fold_snd]
  repeat' (first | with_reducible refine fun _ => ?_ | lift_lets | (with_reducible intro y; first | (refine Evolves.cut (K := K) (s := s) (y := y) ?_ ?_ <;> first | (clear_value y; with_reducible intro hy) | simp -zeta -zetaHave only [y]) | (simp -zeta -zetaHave only [y]; clear y) | (clear_value y; clear y)) | with_reducible (first | exact h | assumption | apply State.raise_changes | apply State.wrF_changes | apply State.wake_changes | apply State.putSnd_changes | apply Evolves.ite | apply Evolves.foldl) | (split))
  all_goals (with_reducible first | assumption | exact a0.fst | exact a0.snd | exact a3.ofCh (by decide) | exact a4.chanOf)

theorem State.tipDisturb_changes {K : List Foot} {s x : State} (h : Evolves K s x) (a0 : Allows K (.one .cal)) (a1 : Allows K (.pair Reg.calFlags)) :
    Evolves K s (State.tipDisturb x) := by
  unfold State.tipDisturb
  try simp -zeta -zetaHave only [State.fold_cal]
  repeat' (first | with_reducible refine fun _ => ?_ | lift_lets | (with_reducible intro y; first | (refine Evolves.cut (K := K) (s := s) (y := y) ?_ ?_ <;> first | (clear_value y; with_reducible intro hy) | simp -zeta -zetaHave only [y]) | (simp -zeta -zetaHave only [y]; clear y) | (clear_value y; clear y)) | with_reducible (first | exact h | assumption | apply State.raise_changes | apply State.putCal_changes | apply Evolves.ite) | (split))
  all_goals (with_reducible first | assumption | exact a1.fst | exact a1.snd)

theorem State.hostRequest_changes {K : List Foot} {s x : State} (h : Evolves K s x) (a0 : Allows K (.pair Reg.sndFlags)) (a1 : Allows K (.one .snd)) (a2 : Allows K (.one (.reg Reg.sndStatus))) (a3 : Allows K (.chReg Reg.tiaLine)) (a4 : Allows K .chans) (a5 : Allows K (.one (.reg Reg.memRetWakes))) (a6 : Allows K (.one (.reg Reg.memRetState))) (a7 : Allows K (.one .cal)) (a8 : Allows K (.pair Reg.calFlags)) :
    Evolves K s (State.hostRequest x) := by
  unfold State.hostRequest
  repeat' (first | with_reducible refine fun _ => ?_ | with_reducible (first | exact h | apply State.soundRequest_changes | apply State.tipDisturb_changes))
  all_goals (with_reducible first | assumption | exact a0.fst | exact a0.snd | exact a3.ofCh (by decide) | exact a4.chanOf | exact a8.fst | exact a8.snd)

theorem State.clrMask_changes {K : List Foot} {s x : State} (h : Evolves K s x) (a0 : Allows K (.pair Reg.sndFlags)) (a1 : Allows K (.pair Reg.sndMaskLo)) :
    Evolves K s (State.clrMask x) := by
  unfold State.clrMask
  repeat' (first | with_reducible refine fun _ => ?_ | with_reducible (first | exact h | apply State.raise_changes | apply State.wr64_changes | apply Evolves.ite))
  all_goals (with_reducible first | assumption | exact a0.fst | exact a0.snd | exact a1.fst | exact a1.snd)

theorem State.sndCtl_changes {K : List Foot} {s x : State} (v) (h : Evolves K s x) (a0 : Allows K (.pair Reg.sndFlags)) (a1 : Allows K (.one .snd)) (a2 : Allows K (.one (.reg Reg.sndStatus))) (a3 : Allows K (.chReg Reg.tiaLine)) (a4 : Allows K .chans) (a5 : Allows K (.one (.reg Reg.memRetWakes))) (a6 : Allows K (.one (.reg Reg.memRetState))) (a7 : Allows K (.one .cal)) (a8 : Allows K (.pair Reg.calFlags)) (a9 : Allows K (.pair Reg.sndMaskLo)) :
    Evolves K s (State.sndCtl x v) := by
  unfold State.sndCtl
  repeat' (first | with_reducible refine fun _ => ?_ | lift_lets | (with_reducible intro y; first | (refine Evolves.cut (K := K) (s := s) (y := y) ?_ ?_ <;> first | (clear_value y; with_reducible intro hy) | simp -zeta -zetaHave only [y]) | (simp -zeta -zetaHave only [y]; clear y) | (clear_value y; clear y)) | with_reducible (first | exact h | assumption | apply State.hostRequest_changes | apply State.clrMask_changes | apply Evolves.ite) | (split))
  all_goals (with_reducible first | assumption | exact a0.fst | exact a0.snd | exact a3.ofCh (by decide) | exact a4.chanOf | exact a8.fst | exact a8.snd | exact a9.fst | exact a9.snd)

theorem State.modRes_changes {K : List Foot} {s x : State} (n) (f) (h : Evolves K s x) (a0 : Allows K (.one .snd)) :
    Evolves K s (State.modRes x n f) := by
  unfold State.modRes
  try simp -zeta -zetaHave only [State.fold_snd]
  repeat' (first | with_reducible refine fun _ => ?_ | lift_lets | (with_reducible intro y; first | (refine Evolves.cut (K := K) (s := s) (y := y) ?_ ?_ <;> first | (clear_value y; with_reducible intro hy) | simp -zeta -zetaHave only [y]) | (simp -zeta -zetaHave only [y]; clear y) | (clear_value y; clear y)) | with_reducible (first | exact h | assumption | apply State.putSnd_changes))
  all_goals (with_reducible first | assumption)

theorem State.soundDone_changes {K : List Foot} {s x : State} (status) (detail) (h : Evolves K s x) (a0 : Allows K .completion) :
    Evolves K s (State.soundDone x status detail) := by
  unfold State.soundDone
  repeat' (first | with_reducible refine fun _ => ?_ | with_reducible (first | exact h | apply State.bgEnd_changes))
  all_goals (with_reducible first | assumption | exact a0.vectorOfCompletion | exact a0.ringsOfCompletion | exact a0.hostMemOfCompletion | exact a0.vectorsOfCompletion | exact a0.cplTailOfCompletion | exact a0.cplDropOfCompletion)

theorem State.halfDrive_changes {K : List Foot} {s x : State} (n) (sends) (h : Evolves K s x) (a0 : Allows K (.one (.chan n))) (a1 : Allows K (.one (.reg (chOff n Reg.tiaStatus)))) (a2 : Allows K (.one (.reg (chOff n Reg.tiaCount)))) (a3 : Allows K (.one (.reg (chOff n Reg.tiaSkip)))) (a4 : Allows K (.one (.reg (chOff n Reg.tiaDiscard)))) (a5 : Allows K (.one (.reg (chOff n Reg.tiaFcnt)))) (a6 : Allows K (.one (.reg (chOff n Reg.peStatus)))) :
    Evolves K s (State.halfDrive x n sends) := by
  unfold State.halfDrive
  repeat' (first | with_reducible refine fun _ => ?_ | lift_lets | (with_reducible intro y; first | (refine Evolves.cut (K := K) (s := s) (y := y) ?_ ?_ <;> first | (clear_value y; with_reducible intro hy) | simp -zeta -zetaHave only [y]) | (simp -zeta -zetaHave only [y]; clear y) | (clear_value y; clear y)) | with_reducible (first | exact h | assumption | apply State.tiaEnter_changes | apply State.clockSource_changes | apply State.setSource_changes | apply State.modChan_changes | apply Evolves.ite))
  all_goals (with_reducible first | assumption)

theorem State.passOver_changes {K : List Foot} {s x : State} (h : Evolves K s x) (a0 : Allows K (.chReg Reg.pmuStatus)) (a1 : Allows K .chans) (a2 : Allows K (.chReg Reg.peStatus)) (a3 : Allows K (.chReg Reg.tiaStatus)) (a4 : Allows K (.chReg Reg.tiaDiscard)) (a5 : Allows K .events) (a6 : Allows K (.chPair Reg.tiaMaxLo)) (a7 : Allows K (.chPair Reg.tiaMinLo)) (a8 : Allows K (.chPair Reg.tiaSdevLo)) (a9 : Allows K (.chPair Reg.tiaMeanLo)) (a10 : Allows K (.chReg Reg.tiaCount)) (a11 : Allows K (.chPair Reg.tiaLastLo)) (a12 : Allows K (.chReg Reg.tiaSkip)) (a13 : Allows K .clus) (a14 : Allows K (.chReg Reg.tiaFcnt)) (a15 : Allows K (.one .snd)) (a16 : Allows K (.chReg Reg.tiaCdCtl)) (a17 : Allows K (.one (.reg Reg.sndStatus))) :
    Evolves K s (State.passOver x) := by
  unfold State.passOver
  generalize List.range 512 = lr
  extract_lets s1 s2
  have h1 : Evolves K s s1 := State.wrF_changes _ _ _ _ (State.wrB_changes _ _ _ h a17) a17
  have h2 : Evolves K s s2 := Evolves.foldl (fun t n ht => Evolves.ite (fun _ =>
    State.modChan_changes _ _ (State.wrB_changes _ _ _ ht (a16.ofCh (by decide))) a1.chanOf) (fun _ => ht)) h1
  clear_value s2
  have h3 := State.putSnd_changes { s2.snd with res := [] } h2 a15
  apply State.releaseAll_changes <;> with_reducible first | assumption | skip
  all_goals first | exact h3 | exact a0.ofCh (by decide) | exact a1.chanOf | exact a2.ofCh (by decide) | exact a3.ofCh (by decide) | exact a4.ofCh (by decide) | exact a5.vectorOfEvents | exact a5.logOfEvents | exact a5.evrPairOfEvents | exact a5.evrOfEvents | exact a5.vectorsOfEvents | exact a5.evrStatusOfEvents | exact a5.evrDropOfEvents | exact a5.evrCommitOfEvents | exact a5.evrLogOfEvents | exact a5.evrLogBseqOfEvents | exact a6.pairCh (by decide) | exact a6.chFst | exact a6.chSnd | exact a6.chFst.ofCh (by decide) | exact a6.chSnd.ofCh (by decide) | exact a7.pairCh (by decide) | exact a7.chFst | exact a7.chSnd | exact a7.chFst.ofCh (by decide) | exact a7.chSnd.ofCh (by decide) | exact a8.pairCh (by decide) | exact a8.chFst | exact a8.chSnd | exact a8.chFst.ofCh (by decide) | exact a8.chSnd.ofCh (by decide) | exact a9.pairCh (by decide) | exact a9.chFst | exact a9.chSnd | exact a9.chFst.ofCh (by decide) | exact a9.chSnd.ofCh (by decide) | exact a10.ofCh (by decide) | exact a11.pairCh (by decide) | exact a11.chFst | exact a11.chSnd | exact a11.chFst.ofCh (by decide) | exact a11.chSnd.ofCh (by decide) | exact a12.ofCh (by decide) | exact a13.cluOf | exact a14.ofCh (by decide) | exact a16.ofCh (by decide)

theorem State.passDone_changes {K : List Foot} {s x : State} (code) (h : Evolves K s x) (a0 : Allows K .completion) (a1 : Allows K .events) (a2 : Allows K (.one (.reg Reg.sndStatus))) (a3 : Allows K (.chReg Reg.pmuStatus)) (a4 : Allows K .chans) (a5 : Allows K (.chReg Reg.peStatus)) (a6 : Allows K (.chReg Reg.tiaStatus)) (a7 : Allows K (.chReg Reg.tiaDiscard)) (a8 : Allows K (.chPair Reg.tiaMaxLo)) (a9 : Allows K (.chPair Reg.tiaMinLo)) (a10 : Allows K (.chPair Reg.tiaSdevLo)) (a11 : Allows K (.chPair Reg.tiaMeanLo)) (a12 : Allows K (.chReg Reg.tiaCount)) (a13 : Allows K (.chPair Reg.tiaLastLo)) (a14 : Allows K (.chReg Reg.tiaSkip)) (a15 : Allows K .clus) (a16 : Allows K (.chReg Reg.tiaFcnt)) (a17 : Allows K (.one .snd)) (a18 : Allows K (.chReg Reg.tiaCdCtl)) :
    Evolves K s (State.passDone x code) := by
  unfold State.passDone
  repeat' (first | with_reducible refine fun _ => ?_ | lift_lets | (with_reducible intro y; first | (refine Evolves.cut (K := K) (s := s) (y := y) ?_ ?_ <;> first | (clear_value y; with_reducible intro hy) | simp -zeta -zetaHave only [y]) | (simp -zeta -zetaHave only [y]; clear y) | (clear_value y; clear y)) | with_reducible (first | exact h | assumption | apply State.soundDone_changes | apply State.post_changes | apply State.wrF_changes | apply State.passOver_changes) | (split))
  all_goals (with_reducible first | assumption | exact a0.vectorOfCompletion | exact a0.ringsOfCompletion | exact a0.hostMemOfCompletion | exact a0.vectorsOfCompletion | exact a0.cplTailOfCompletion | exact a0.cplDropOfCompletion | exact a1.vectorOfEvents | exact a1.logOfEvents | exact a1.evrPairOfEvents | exact a1.evrOfEvents | exact a1.vectorsOfEvents | exact a1.evrStatusOfEvents | exact a1.evrDropOfEvents | exact a1.evrCommitOfEvents | exact a1.evrLogOfEvents | exact a1.evrLogBseqOfEvents | exact a3.ofCh (by decide) | exact a4.chanOf | exact a5.ofCh (by decide) | exact a6.ofCh (by decide) | exact a7.ofCh (by decide) | exact a8.pairCh (by decide) | exact a8.chFst | exact a8.chSnd | exact a8.chFst.ofCh (by decide) | exact a8.chSnd.ofCh (by decide) | exact a9.pairCh (by decide) | exact a9.chFst | exact a9.chSnd | exact a9.chFst.ofCh (by decide) | exact a9.chSnd.ofCh (by decide) | exact a10.pairCh (by decide) | exact a10.chFst | exact a10.chSnd | exact a10.chFst.ofCh (by decide) | exact a10.chSnd.ofCh (by decide) | exact a11.pairCh (by decide) | exact a11.chFst | exact a11.chSnd | exact a11.chFst.ofCh (by decide) | exact a11.chSnd.ofCh (by decide) | exact a12.ofCh (by decide) | exact a13.pairCh (by decide) | exact a13.chFst | exact a13.chSnd | exact a13.chFst.ofCh (by decide) | exact a13.chSnd.ofCh (by decide) | exact a14.ofCh (by decide) | exact a15.cluOf | exact a16.ofCh (by decide) | exact a18.ofCh (by decide))

theorem State.liftoff_changes {K : List Foot} {s x : State} (src) (h : Evolves K s x) (a0 : Allows K .events) (a1 : Allows K (.pair Reg.sndMaskLo)) (a2 : Allows K (.one (.reg Reg.sndStatus))) (a3 : Allows K (.one .cal)) (a4 : Allows K (.pair Reg.calFlags)) (a5 : Allows K .completion) (a6 : Allows K (.chReg Reg.pmuStatus)) (a7 : Allows K .chans) (a8 : Allows K (.chReg Reg.peStatus)) (a9 : Allows K (.chReg Reg.tiaStatus)) (a10 : Allows K (.chReg Reg.tiaDiscard)) (a11 : Allows K (.chPair Reg.tiaMaxLo)) (a12 : Allows K (.chPair Reg.tiaMinLo)) (a13 : Allows K (.chPair Reg.tiaSdevLo)) (a14 : Allows K (.chPair Reg.tiaMeanLo)) (a15 : Allows K (.chReg Reg.tiaCount)) (a16 : Allows K (.chPair Reg.tiaLastLo)) (a17 : Allows K (.chReg Reg.tiaSkip)) (a18 : Allows K .clus) (a19 : Allows K (.chReg Reg.tiaFcnt)) (a20 : Allows K (.one .snd)) (a21 : Allows K (.chReg Reg.tiaCdCtl)) (a22 : Allows K (.pair Reg.sndFlags)) :
    Evolves K s (State.liftoff x src) := by
  unfold State.liftoff
  try simp -zeta -zetaHave only [State.fold_snd]
  repeat' (first | with_reducible refine fun _ => ?_ | lift_lets | (with_reducible intro y; first | (refine Evolves.cut (K := K) (s := s) (y := y) ?_ ?_ <;> first | (clear_value y; with_reducible intro hy) | simp -zeta -zetaHave only [y]) | (simp -zeta -zetaHave only [y]; clear y) | (clear_value y; clear y)) | with_reducible (first | exact h | assumption | apply State.post_changes | apply State.wr64_changes | apply State.wrB_changes | apply State.tipDisturb_changes | apply State.passDone_changes | apply State.raise_changes | apply State.soundDone_changes | apply State.wrF_changes | apply State.putSnd_changes | apply Evolves.ite) | (split))
  all_goals (with_reducible first | assumption | exact a0.vectorOfEvents | exact a0.logOfEvents | exact a0.evrPairOfEvents | exact a0.evrOfEvents | exact a0.vectorsOfEvents | exact a0.evrStatusOfEvents | exact a0.evrDropOfEvents | exact a0.evrCommitOfEvents | exact a0.evrLogOfEvents | exact a0.evrLogBseqOfEvents | exact a1.fst | exact a1.snd | exact a4.fst | exact a4.snd | exact a5.vectorOfCompletion | exact a5.ringsOfCompletion | exact a5.hostMemOfCompletion | exact a5.vectorsOfCompletion | exact a5.cplTailOfCompletion | exact a5.cplDropOfCompletion | exact a6.ofCh (by decide) | exact a7.chanOf | exact a8.ofCh (by decide) | exact a9.ofCh (by decide) | exact a10.ofCh (by decide) | exact a11.pairCh (by decide) | exact a11.chFst | exact a11.chSnd | exact a11.chFst.ofCh (by decide) | exact a11.chSnd.ofCh (by decide) | exact a12.pairCh (by decide) | exact a12.chFst | exact a12.chSnd | exact a12.chFst.ofCh (by decide) | exact a12.chSnd.ofCh (by decide) | exact a13.pairCh (by decide) | exact a13.chFst | exact a13.chSnd | exact a13.chFst.ofCh (by decide) | exact a13.chSnd.ofCh (by decide) | exact a14.pairCh (by decide) | exact a14.chFst | exact a14.chSnd | exact a14.chFst.ofCh (by decide) | exact a14.chSnd.ofCh (by decide) | exact a15.ofCh (by decide) | exact a16.pairCh (by decide) | exact a16.chFst | exact a16.chSnd | exact a16.chFst.ofCh (by decide) | exact a16.chSnd.ofCh (by decide) | exact a17.ofCh (by decide) | exact a18.cluOf | exact a19.ofCh (by decide) | exact a21.ofCh (by decide) | exact a22.fst | exact a22.snd)

theorem State.soundTimeout_changes {K : List Foot} {s x : State} (h : Evolves K s x) (a0 : Allows K .completion) (a1 : Allows K .events) (a2 : Allows K (.one (.reg Reg.sndStatus))) (a3 : Allows K (.chReg Reg.pmuStatus)) (a4 : Allows K .chans) (a5 : Allows K (.chReg Reg.peStatus)) (a6 : Allows K (.chReg Reg.tiaStatus)) (a7 : Allows K (.chReg Reg.tiaDiscard)) (a8 : Allows K (.chPair Reg.tiaMaxLo)) (a9 : Allows K (.chPair Reg.tiaMinLo)) (a10 : Allows K (.chPair Reg.tiaSdevLo)) (a11 : Allows K (.chPair Reg.tiaMeanLo)) (a12 : Allows K (.chReg Reg.tiaCount)) (a13 : Allows K (.chPair Reg.tiaLastLo)) (a14 : Allows K (.chReg Reg.tiaSkip)) (a15 : Allows K .clus) (a16 : Allows K (.chReg Reg.tiaFcnt)) (a17 : Allows K (.one .snd)) (a18 : Allows K (.chReg Reg.tiaCdCtl)) (a19 : Allows K (.pair Reg.sndFlags)) :
    Evolves K s (State.soundTimeout x) := by
  unfold State.soundTimeout
  repeat' (first | with_reducible refine fun _ => ?_ | with_reducible (first | exact h | apply State.passDone_changes | apply State.raise_changes | apply Evolves.ite))
  all_goals (with_reducible first | assumption | exact a0.vectorOfCompletion | exact a0.ringsOfCompletion | exact a0.hostMemOfCompletion | exact a0.vectorsOfCompletion | exact a0.cplTailOfCompletion | exact a0.cplDropOfCompletion | exact a1.vectorOfEvents | exact a1.logOfEvents | exact a1.evrPairOfEvents | exact a1.evrOfEvents | exact a1.vectorsOfEvents | exact a1.evrStatusOfEvents | exact a1.evrDropOfEvents | exact a1.evrCommitOfEvents | exact a1.evrLogOfEvents | exact a1.evrLogBseqOfEvents | exact a3.ofCh (by decide) | exact a4.chanOf | exact a5.ofCh (by decide) | exact a6.ofCh (by decide) | exact a7.ofCh (by decide) | exact a8.pairCh (by decide) | exact a8.chFst | exact a8.chSnd | exact a8.chFst.ofCh (by decide) | exact a8.chSnd.ofCh (by decide) | exact a9.pairCh (by decide) | exact a9.chFst | exact a9.chSnd | exact a9.chFst.ofCh (by decide) | exact a9.chSnd.ofCh (by decide) | exact a10.pairCh (by decide) | exact a10.chFst | exact a10.chSnd | exact a10.chFst.ofCh (by decide) | exact a10.chSnd.ofCh (by decide) | exact a11.pairCh (by decide) | exact a11.chFst | exact a11.chSnd | exact a11.chFst.ofCh (by decide) | exact a11.chSnd.ofCh (by decide) | exact a12.ofCh (by decide) | exact a13.pairCh (by decide) | exact a13.chFst | exact a13.chSnd | exact a13.chFst.ofCh (by decide) | exact a13.chSnd.ofCh (by decide) | exact a14.ofCh (by decide) | exact a15.cluOf | exact a16.ofCh (by decide) | exact a18.ofCh (by decide) | exact a19.fst | exact a19.snd)

theorem State.halfStart_changes {K : List Foot} {s x : State} (second) (h : Evolves K s x) (a0 : Allows K (.one (.reg Reg.sndStatus))) (a1 : Allows K (.one .snd)) (a2 : Allows K .chans) (a3 : Allows K (.chReg Reg.tiaStatus)) (a4 : Allows K (.chReg Reg.tiaCount)) (a5 : Allows K (.chReg Reg.tiaSkip)) (a6 : Allows K (.chReg Reg.tiaDiscard)) (a7 : Allows K (.chReg Reg.tiaFcnt)) (a8 : Allows K (.chReg Reg.peStatus)) :
    Evolves K s (State.halfStart x second) := by
  unfold State.halfStart
  repeat' (first | with_reducible refine fun _ => ?_ | lift_lets | (with_reducible intro y; first | (refine Evolves.cut (K := K) (s := s) (y := y) ?_ ?_ <;> first | (clear_value y; with_reducible intro hy) | simp -zeta -zetaHave only [y]) | (simp -zeta -zetaHave only [y]; clear y) | (clear_value y; clear y)) | with_reducible (first | exact h | assumption | apply State.wrF_changes | apply State.modRes_changes | apply State.halfDrive_changes | apply Evolves.ite | apply Evolves.foldl) | (split))
  all_goals (with_reducible first | assumption | exact a2.chanOf | exact a3.ofCh (by decide) | exact a4.ofCh (by decide) | exact a5.ofCh (by decide) | exact a6.ofCh (by decide) | exact a7.ofCh (by decide) | exact a8.ofCh (by decide))

theorem State.contactJudge_changes {K : List Foot} {s x : State} (h : Evolves K s x) (a0 : Allows K .chans) (a1 : Allows K (.chReg Reg.pmuStatus)) (a2 : Allows K (.chReg Reg.peStatus)) (a3 : Allows K (.one (.reg Reg.sndStatus))) (a4 : Allows K (.one .snd)) (a5 : Allows K (.chReg Reg.tiaStatus)) (a6 : Allows K (.chReg Reg.tiaCount)) (a7 : Allows K (.chReg Reg.tiaSkip)) (a8 : Allows K (.chReg Reg.tiaDiscard)) (a9 : Allows K (.chReg Reg.tiaFcnt)) :
    Evolves K s (State.contactJudge x) := by
  unfold State.contactJudge
  repeat' (first | with_reducible refine fun _ => ?_ | lift_lets | (with_reducible intro y; first | (refine Evolves.cut (K := K) (s := s) (y := y) ?_ ?_ <;> first | (clear_value y; with_reducible intro hy) | simp -zeta -zetaHave only [y]) | (simp -zeta -zetaHave only [y]; clear y) | (clear_value y; clear y)) | with_reducible (first | exact h | assumption | apply State.rangeStart_changes | apply State.halfStart_changes | apply State.modRes_changes | apply Evolves.ite | apply Evolves.foldl) | (split))
  all_goals (with_reducible first | assumption | exact a0.chanOf | exact a1.ofCh (by decide) | exact a2.ofCh (by decide) | exact a5.ofCh (by decide) | exact a6.ofCh (by decide) | exact a7.ofCh (by decide) | exact a8.ofCh (by decide) | exact a9.ofCh (by decide))

theorem State.setBases_changes {K : List Foot} {s x : State} (n) (delta) (h : Evolves K s x) (a0 : Allows K (.pair Reg.calFlags)) (a1 : Allows K (.one .cal)) :
    Evolves K s (State.setBases x n delta) := by
  unfold State.setBases
  try simp -zeta -zetaHave only [State.fold_cal]
  repeat' (first | with_reducible refine fun _ => ?_ | lift_lets | (with_reducible intro y; first | (refine Evolves.cut (K := K) (s := s) (y := y) ?_ ?_ <;> first | (clear_value y; with_reducible intro hy) | simp -zeta -zetaHave only [y]) | (simp -zeta -zetaHave only [y]; clear y) | (clear_value y; clear y)) | with_reducible (first | exact h | assumption | apply State.raiseIf_changes | apply State.putCal_changes | apply Evolves.ite | apply Evolves.foldl) | (split))
  all_goals (with_reducible first | assumption | exact a0.fst | exact a0.snd)

theorem State.allKref_changes {K : List Foot} {s x : State} (h : Evolves K s x) (a0 : Allows K (.pair Reg.calFlags)) (a1 : Allows K (.one .cal)) :
    Evolves K s (State.allKref x) := by
  unfold State.allKref
  repeat' (first | with_reducible refine fun _ => ?_ | with_reducible (first | exact h | assumption | apply State.setBases_changes | apply Evolves.foldl))
  all_goals (with_reducible first | assumption | exact a0.fst | exact a0.snd)

theorem State.touchdown_changes {K : List Foot} {s x : State} (src) (h : Evolves K s x) (a0 : Allows K .events) (a1 : Allows K (.one (.reg Reg.sndStatus))) (a2 : Allows K (.one .cal)) (a3 : Allows K (.pair Reg.calFlags)) (a4 : Allows K (.pair Reg.sndFlags)) (a5 : Allows K (.one .snd)) (a6 : Allows K (.chReg Reg.tiaLine)) (a7 : Allows K .chans) (a8 : Allows K (.one (.reg Reg.memRetWakes))) (a9 : Allows K (.one (.reg Reg.memRetState))) :
    Evolves K s (State.touchdown x src) := by
  unfold State.touchdown
  repeat' (first | with_reducible refine fun _ => ?_ | lift_lets | (with_reducible intro y; first | (refine Evolves.cut (K := K) (s := s) (y := y) ?_ ?_ <;> first | (clear_value y; with_reducible intro hy) | simp -zeta -zetaHave only [y]) | (simp -zeta -zetaHave only [y]; clear y) | (clear_value y; clear y)) | with_reducible (first | exact h | assumption | apply State.post_changes | apply State.wrB_changes | apply State.tipDisturb_changes | apply State.soundRequest_changes | apply Evolves.ite) | (split))
  all_goals (with_reducible first | assumption | exact a0.vectorOfEvents | exact a0.logOfEvents | exact a0.evrPairOfEvents | exact a0.evrOfEvents | exact a0.vectorsOfEvents | exact a0.evrStatusOfEvents | exact a0.evrDropOfEvents | exact a0.evrCommitOfEvents | exact a0.evrLogOfEvents | exact a0.evrLogBseqOfEvents | exact a3.fst | exact a3.snd | exact a4.fst | exact a4.snd | exact a6.ofCh (by decide) | exact a7.chanOf)

theorem State.densityStart_changes {K : List Foot} {s x : State} (chans) (h : Evolves K s x) (a0 : Allows K .chans) (a1 : Allows K (.chReg Reg.tiaCdCtl)) :
    Evolves K s (State.densityStart x chans) := by
  unfold State.densityStart
  repeat' (first | with_reducible refine fun _ => ?_ | lift_lets | (with_reducible intro y; first | (refine Evolves.cut (K := K) (s := s) (y := y) ?_ ?_ <;> first | (clear_value y; with_reducible intro hy) | simp -zeta -zetaHave only [y]) | (simp -zeta -zetaHave only [y]; clear y) | (clear_value y; clear y)) | with_reducible (first | exact h | assumption | apply State.densityGo_changes | apply Evolves.ite | apply Evolves.foldl) | (split))
  all_goals (with_reducible first | assumption | exact a0.chanOf | exact a1.ofCh (by decide))

theorem State.takeChan_changes {K : List Foot} {s x : State} (n) (h : Evolves K s x) (a0 : Allows K (.one (.chan n))) (a1 : Allows K (.one (.reg (chOff n Reg.pmuStatus)))) (a2 : Allows K (.one (.reg (chOff n Reg.peStatus)))) (a3 : Allows K (.one (.chan (n + 1)))) (a4 : Allows K (.one (.reg (chOff n Reg.tiaStatus)))) (a5 : Allows K (.one (.reg (chOff n Reg.tiaDiscard)))) (a6 : Allows K .events) (a7 : Allows K (.pair (chOff n Reg.tiaMaxLo))) (a8 : Allows K (.pair (chOff n Reg.tiaMinLo))) (a9 : Allows K (.pair (chOff n Reg.tiaSdevLo))) (a10 : Allows K (.pair (chOff n Reg.tiaMeanLo))) (a11 : Allows K (.one (.reg (chOff n Reg.tiaCount)))) (a12 : Allows K (.pair (chOff n Reg.tiaLastLo))) (a13 : Allows K (.one (.reg (chOff n Reg.tiaSkip)))) (a14 : Allows K (.one (.clu (n / 16)))) (a15 : Allows K (.one (.reg (chOff n Reg.tiaFcnt)))) :
    Evolves K s (State.takeChan x n) := by
  unfold State.takeChan
  repeat' (first | with_reducible refine fun _ => ?_ | lift_lets | (with_reducible intro y; first | (refine Evolves.cut (K := K) (s := s) (y := y) ?_ ?_ <;> first | (clear_value y; with_reducible intro hy) | simp -zeta -zetaHave only [y]) | (simp -zeta -zetaHave only [y]; clear y) | (clear_value y; clear y)) | with_reducible (first | exact h | assumption | apply State.rangeStart_changes | apply State.modChan_changes | apply State.modPmu_changes | apply State.wr_changes | apply State.wrB_changes | apply State.tiaStop_changes) | (split))
  all_goals (with_reducible first | assumption | exact a6.vectorOfEvents | exact a6.logOfEvents | exact a6.evrPairOfEvents | exact a6.evrOfEvents | exact a6.vectorsOfEvents | exact a6.evrStatusOfEvents | exact a6.evrDropOfEvents | exact a6.evrCommitOfEvents | exact a6.evrLogOfEvents | exact a6.evrLogBseqOfEvents | exact a7.fst | exact a7.snd | exact a8.fst | exact a8.snd | exact a9.fst | exact a9.snd | exact a10.fst | exact a10.snd | exact a12.fst | exact a12.snd)

theorem State.takeClu_changes {K : List Foot} {s x : State} (c) (h : Evolves K s x) (a0 : Allows K .chans) (a1 : Allows K (.chReg Reg.pmuStatus)) (a2 : Allows K (.chReg Reg.peStatus)) (a3 : Allows K (.chReg Reg.tiaStatus)) (a4 : Allows K (.chReg Reg.tiaDiscard)) (a5 : Allows K .events) (a6 : Allows K (.chPair Reg.tiaMaxLo)) (a7 : Allows K (.chPair Reg.tiaMinLo)) (a8 : Allows K (.chPair Reg.tiaSdevLo)) (a9 : Allows K (.chPair Reg.tiaMeanLo)) (a10 : Allows K (.chReg Reg.tiaCount)) (a11 : Allows K (.chPair Reg.tiaLastLo)) (a12 : Allows K (.chReg Reg.tiaSkip)) (a13 : Allows K .clus) (a14 : Allows K (.chReg Reg.tiaFcnt)) (a15 : Allows K (.chReg Reg.tiaLine)) (a16 : Allows K (.one (.reg Reg.memRetWakes))) (a17 : Allows K (.one (.reg Reg.memRetState))) :
    Evolves K s (State.takeClu x c) := by
  unfold State.takeClu
  repeat' (first | with_reducible refine fun _ => ?_ | with_reducible (first | exact h | assumption | apply State.takeChan_changes | apply State.wake_changes | apply Evolves.foldl))
  all_goals (with_reducible first | assumption | exact a0.chanOf | exact a1.ofCh (by decide) | exact a2.ofCh (by decide) | exact a3.ofCh (by decide) | exact a4.ofCh (by decide) | exact a5.vectorOfEvents | exact a5.logOfEvents | exact a5.evrPairOfEvents | exact a5.evrOfEvents | exact a5.vectorsOfEvents | exact a5.evrStatusOfEvents | exact a5.evrDropOfEvents | exact a5.evrCommitOfEvents | exact a5.evrLogOfEvents | exact a5.evrLogBseqOfEvents | exact a6.pairCh (by decide) | exact a6.chFst | exact a6.chSnd | exact a6.chFst.ofCh (by decide) | exact a6.chSnd.ofCh (by decide) | exact a7.pairCh (by decide) | exact a7.chFst | exact a7.chSnd | exact a7.chFst.ofCh (by decide) | exact a7.chSnd.ofCh (by decide) | exact a8.pairCh (by decide) | exact a8.chFst | exact a8.chSnd | exact a8.chFst.ofCh (by decide) | exact a8.chSnd.ofCh (by decide) | exact a9.pairCh (by decide) | exact a9.chFst | exact a9.chSnd | exact a9.chFst.ofCh (by decide) | exact a9.chSnd.ofCh (by decide) | exact a10.ofCh (by decide) | exact a11.pairCh (by decide) | exact a11.chFst | exact a11.chSnd | exact a11.chFst.ofCh (by decide) | exact a11.chSnd.ofCh (by decide) | exact a12.ofCh (by decide) | exact a13.cluOf | exact a14.ofCh (by decide) | exact a15.ofCh (by decide))

theorem State.tdLift_changes {K : List Foot} {s x : State} (h : Evolves K s x) (a0 : Allows K .events) (a1 : Allows K (.pair Reg.sndMaskLo)) (a2 : Allows K (.one (.reg Reg.sndStatus))) (a3 : Allows K (.one .cal)) (a4 : Allows K (.pair Reg.calFlags)) (a5 : Allows K .completion) (a6 : Allows K (.chReg Reg.pmuStatus)) (a7 : Allows K .chans) (a8 : Allows K (.chReg Reg.peStatus)) (a9 : Allows K (.chReg Reg.tiaStatus)) (a10 : Allows K (.chReg Reg.tiaDiscard)) (a11 : Allows K (.chPair Reg.tiaMaxLo)) (a12 : Allows K (.chPair Reg.tiaMinLo)) (a13 : Allows K (.chPair Reg.tiaSdevLo)) (a14 : Allows K (.chPair Reg.tiaMeanLo)) (a15 : Allows K (.chReg Reg.tiaCount)) (a16 : Allows K (.chPair Reg.tiaLastLo)) (a17 : Allows K (.chReg Reg.tiaSkip)) (a18 : Allows K .clus) (a19 : Allows K (.chReg Reg.tiaFcnt)) (a20 : Allows K (.one .snd)) (a21 : Allows K (.chReg Reg.tiaCdCtl)) (a22 : Allows K (.pair Reg.sndFlags)) (a23 : Allows K (.one .cwy)) :
    Evolves K s (State.tdLift x) := by
  unfold State.tdLift
  try simp -zeta -zetaHave only [State.fold_snd]
  repeat' (first | with_reducible refine fun _ => ?_ | lift_lets | (with_reducible intro y; first | (refine Evolves.cut (K := K) (s := s) (y := y) ?_ ?_ <;> first | (clear_value y; with_reducible intro hy) | simp -zeta -zetaHave only [y]) | (simp -zeta -zetaHave only [y]; clear y) | (clear_value y; clear y)) | with_reducible (first | exact h | assumption | apply State.liftoff_changes | apply State.sendMsgQ_changes | apply State.putSnd_changes | apply Evolves.ite) | (split))
  all_goals (with_reducible first | assumption | exact a0.vectorOfEvents | exact a0.logOfEvents | exact a0.evrPairOfEvents | exact a0.evrOfEvents | exact a0.vectorsOfEvents | exact a0.evrStatusOfEvents | exact a0.evrDropOfEvents | exact a0.evrCommitOfEvents | exact a0.evrLogOfEvents | exact a0.evrLogBseqOfEvents | exact a1.fst | exact a1.snd | exact a4.fst | exact a4.snd | exact a5.vectorOfCompletion | exact a5.ringsOfCompletion | exact a5.hostMemOfCompletion | exact a5.vectorsOfCompletion | exact a5.cplTailOfCompletion | exact a5.cplDropOfCompletion | exact a6.ofCh (by decide) | exact a7.chanOf | exact a8.ofCh (by decide) | exact a9.ofCh (by decide) | exact a10.ofCh (by decide) | exact a11.pairCh (by decide) | exact a11.chFst | exact a11.chSnd | exact a11.chFst.ofCh (by decide) | exact a11.chSnd.ofCh (by decide) | exact a12.pairCh (by decide) | exact a12.chFst | exact a12.chSnd | exact a12.chFst.ofCh (by decide) | exact a12.chSnd.ofCh (by decide) | exact a13.pairCh (by decide) | exact a13.chFst | exact a13.chSnd | exact a13.chFst.ofCh (by decide) | exact a13.chSnd.ofCh (by decide) | exact a14.pairCh (by decide) | exact a14.chFst | exact a14.chSnd | exact a14.chFst.ofCh (by decide) | exact a14.chSnd.ofCh (by decide) | exact a15.ofCh (by decide) | exact a16.pairCh (by decide) | exact a16.chFst | exact a16.chSnd | exact a16.chFst.ofCh (by decide) | exact a16.chSnd.ofCh (by decide) | exact a17.ofCh (by decide) | exact a18.cluOf | exact a19.ofCh (by decide) | exact a21.ofCh (by decide) | exact a22.fst | exact a22.snd)

theorem State.deskewChan_changes {K : List Foot} {s x : State} (n) (h : Evolves K s x) (a0 : Allows K (.pair Reg.calFlags)) (a1 : Allows K (.one .cal)) :
    Evolves K s (State.deskewChan x n) := by
  unfold State.deskewChan
  repeat' (first | with_reducible refine fun _ => ?_ | lift_lets | (with_reducible intro y; first | (refine Evolves.cut (K := K) (s := s) (y := y) ?_ ?_ <;> first | (clear_value y; with_reducible intro hy) | simp -zeta -zetaHave only [y]) | (simp -zeta -zetaHave only [y]; clear y) | (clear_value y; clear y)) | with_reducible (first | exact h | assumption | apply State.setBases_changes | apply Evolves.ite) | (split))
  all_goals (with_reducible first | assumption | exact a0.fst | exact a0.snd)

theorem State.halfChan_changes {K : List Foot} {s x : State} (n) (h : Evolves K s x) (a0 : Allows K (.one .snd)) (a1 : Allows K (.one (.chan n))) (a2 : Allows K (.one (.reg (chOff n Reg.tiaDiscard)))) (a3 : Allows K .events) (a4 : Allows K (.one (.reg (chOff n Reg.tiaStatus)))) (a5 : Allows K (.pair (chOff n Reg.tiaMaxLo))) (a6 : Allows K (.pair (chOff n Reg.tiaMinLo))) (a7 : Allows K (.pair (chOff n Reg.tiaSdevLo))) (a8 : Allows K (.pair (chOff n Reg.tiaMeanLo))) (a9 : Allows K (.one (.reg (chOff n Reg.tiaCount)))) (a10 : Allows K (.pair (chOff n Reg.tiaLastLo))) (a11 : Allows K (.one (.reg (chOff n Reg.tiaSkip)))) (a12 : Allows K (.one (.clu (n / 16)))) (a13 : Allows K (.one (.reg (chOff n Reg.tiaFcnt)))) :
    Evolves K s (State.halfChan x n) := by
  unfold State.halfChan
  repeat' (first | with_reducible refine fun _ => ?_ | lift_lets | (with_reducible intro y; first | (refine Evolves.cut (K := K) (s := s) (y := y) ?_ ?_ <;> first | (clear_value y; with_reducible intro hy) | simp -zeta -zetaHave only [y]) | (simp -zeta -zetaHave only [y]; clear y) | (clear_value y; clear y)) | with_reducible (first | exact h | assumption | apply State.modRes_changes | apply State.tiaStop_changes) | (split))
  all_goals (with_reducible first | assumption | exact a3.vectorOfEvents | exact a3.logOfEvents | exact a3.evrPairOfEvents | exact a3.evrOfEvents | exact a3.vectorsOfEvents | exact a3.evrStatusOfEvents | exact a3.evrDropOfEvents | exact a3.evrCommitOfEvents | exact a3.evrLogOfEvents | exact a3.evrLogBseqOfEvents | exact a5.fst | exact a5.snd | exact a6.fst | exact a6.snd | exact a7.fst | exact a7.snd | exact a8.fst | exact a8.snd | exact a10.fst | exact a10.snd)

theorem State.halfEnd_changes {K : List Foot} {s x : State} (h : Evolves K s x) (a0 : Allows K (.one (.reg Reg.sndStatus))) (a1 : Allows K (.one .snd)) (a2 : Allows K .chans) (a3 : Allows K (.chReg Reg.tiaStatus)) (a4 : Allows K (.chReg Reg.tiaCount)) (a5 : Allows K (.chReg Reg.tiaSkip)) (a6 : Allows K (.chReg Reg.tiaDiscard)) (a7 : Allows K (.chReg Reg.tiaFcnt)) (a8 : Allows K (.chReg Reg.peStatus)) (a9 : Allows K .events) (a10 : Allows K (.chPair Reg.tiaMaxLo)) (a11 : Allows K (.chPair Reg.tiaMinLo)) (a12 : Allows K (.chPair Reg.tiaSdevLo)) (a13 : Allows K (.chPair Reg.tiaMeanLo)) (a14 : Allows K (.chPair Reg.tiaLastLo)) (a15 : Allows K .clus) :
    Evolves K s (State.halfEnd x) := by
  unfold State.halfEnd
  repeat' (first | with_reducible refine fun _ => ?_ | with_reducible (first | exact h | assumption | apply State.halfStart_changes | apply State.halfChan_changes | apply State.wrF_changes | apply Evolves.ite | apply Evolves.foldl))
  all_goals (with_reducible first | assumption | exact a2.chanOf | exact a3.ofCh (by decide) | exact a4.ofCh (by decide) | exact a5.ofCh (by decide) | exact a6.ofCh (by decide) | exact a7.ofCh (by decide) | exact a8.ofCh (by decide) | exact a9.vectorOfEvents | exact a9.logOfEvents | exact a9.evrPairOfEvents | exact a9.evrOfEvents | exact a9.vectorsOfEvents | exact a9.evrStatusOfEvents | exact a9.evrDropOfEvents | exact a9.evrCommitOfEvents | exact a9.evrLogOfEvents | exact a9.evrLogBseqOfEvents | exact a10.pairCh (by decide) | exact a10.chFst | exact a10.chSnd | exact a10.chFst.ofCh (by decide) | exact a10.chSnd.ofCh (by decide) | exact a11.pairCh (by decide) | exact a11.chFst | exact a11.chSnd | exact a11.chFst.ofCh (by decide) | exact a11.chSnd.ofCh (by decide) | exact a12.pairCh (by decide) | exact a12.chFst | exact a12.chSnd | exact a12.chFst.ofCh (by decide) | exact a12.chSnd.ofCh (by decide) | exact a13.pairCh (by decide) | exact a13.chFst | exact a13.chSnd | exact a13.chFst.ofCh (by decide) | exact a13.chSnd.ofCh (by decide) | exact a14.pairCh (by decide) | exact a14.chFst | exact a14.chSnd | exact a14.chFst.ofCh (by decide) | exact a14.chSnd.ofCh (by decide) | exact a15.cluOf)

theorem State.contactStart_changes {K : List Foot} {s x : State} (h : Evolves K s x) (a0 : Allows K .chans) (a1 : Allows K (.chReg Reg.pmuStatus)) (a2 : Allows K (.chReg Reg.peStatus)) (a3 : Allows K (.one (.reg Reg.sndStatus))) :
    Evolves K s (State.contactStart x) := by
  unfold State.contactStart
  repeat' (first | with_reducible refine fun _ => ?_ | lift_lets | (with_reducible intro y; first | (refine Evolves.cut (K := K) (s := s) (y := y) ?_ ?_ <;> first | (clear_value y; with_reducible intro hy) | simp -zeta -zetaHave only [y]) | (simp -zeta -zetaHave only [y]; clear y) | (clear_value y; clear y)) | with_reducible (first | exact h | assumption | apply State.rangeStart_changes | apply State.wrF_changes | apply Evolves.foldl) | (split))
  all_goals (with_reducible first | assumption | exact a0.chanOf | exact a1.ofCh (by decide) | exact a2.ofCh (by decide))

theorem State.passEnd_changes {K : List Foot} {s x : State} (us) (h : Evolves K s x) (a0 : Allows K .completion) (a1 : Allows K .events) (a2 : Allows K (.one (.reg Reg.sndStatus))) (a3 : Allows K (.chReg Reg.pmuStatus)) (a4 : Allows K .chans) (a5 : Allows K (.chReg Reg.peStatus)) (a6 : Allows K (.chReg Reg.tiaStatus)) (a7 : Allows K (.chReg Reg.tiaDiscard)) (a8 : Allows K (.chPair Reg.tiaMaxLo)) (a9 : Allows K (.chPair Reg.tiaMinLo)) (a10 : Allows K (.chPair Reg.tiaSdevLo)) (a11 : Allows K (.chPair Reg.tiaMeanLo)) (a12 : Allows K (.chReg Reg.tiaCount)) (a13 : Allows K (.chPair Reg.tiaLastLo)) (a14 : Allows K (.chReg Reg.tiaSkip)) (a15 : Allows K .clus) (a16 : Allows K (.chReg Reg.tiaFcnt)) (a17 : Allows K (.one .snd)) (a18 : Allows K (.chReg Reg.tiaCdCtl)) (a19 : Allows K (.one (.reg Reg.sndSummary))) (a20 : Allows K (.one (.reg Reg.sndTime))) (a21 : Allows K (.pair Reg.sndFlags)) (a22 : Allows K (.pair Reg.sndMaskLo)) (a23 : Allows K (.pair Reg.calFlags)) (a24 : Allows K (.one .cal)) (a25 : Allows K (.regs Reg.sndMap0 (Reg.sndMap0 + 4096))) :
    Evolves K s (State.passEnd x us) := by
  unfold State.passEnd
  refine Evolves.ite (fun _ => ?_) (fun _ => h)
  extract_lets flags s1 s2 s3 s4
  have h1 : Evolves K s s1 := by
    refine Evolves.foldl (fun t n ht => ?_) h
    apply State.deskewChan_changes <;> with_reducible first | assumption | skip
    all_goals first
      | exact a4.chanOf | exact a0.vectorOfCompletion | exact a0.ringsOfCompletion | exact a0.hostMemOfCompletion | exact a0.vectorsOfCompletion | exact a0.cplTailOfCompletion | exact a0.cplDropOfCompletion | exact a1.vectorOfEvents | exact a1.logOfEvents | exact a1.evrPairOfEvents | exact a1.evrOfEvents | exact a1.vectorsOfEvents | exact a1.evrStatusOfEvents | exact a1.evrDropOfEvents | exact a1.evrCommitOfEvents | exact a1.evrLogOfEvents | exact a1.evrLogBseqOfEvents | exact a3.ofCh (by decide) | exact a4.chanOf | exact a5.ofCh (by decide) | exact a6.ofCh (by decide) | exact a7.ofCh (by decide) | exact a8.pairCh (by decide) | exact a8.chFst | exact a8.chSnd | exact a8.chFst.ofCh (by decide) | exact a8.chSnd.ofCh (by decide) | exact a9.pairCh (by decide) | exact a9.chFst | exact a9.chSnd | exact a9.chFst.ofCh (by decide) | exact a9.chSnd.ofCh (by decide) | exact a10.pairCh (by decide) | exact a10.chFst | exact a10.chSnd | exact a10.chFst.ofCh (by decide) | exact a10.chSnd.ofCh (by decide) | exact a11.pairCh (by decide) | exact a11.chFst | exact a11.chSnd | exact a11.chFst.ofCh (by decide) | exact a11.chSnd.ofCh (by decide) | exact a12.ofCh (by decide) | exact a13.pairCh (by decide) | exact a13.chFst | exact a13.chSnd | exact a13.chFst.ofCh (by decide) | exact a13.chSnd.ofCh (by decide) | exact a14.ofCh (by decide) | exact a15.cluOf | exact a16.ofCh (by decide) | exact a18.ofCh (by decide) | exact a21.fst | exact a21.snd | exact a22.fst | exact a22.snd | exact a23.fst | exact a23.snd | exact a25.inRegs (by decide) | exact a25.pairInRegs (by decide) | exact a25.regsInRegs (by decide)
  have h2 : Evolves K s s2 := by
    refine Evolves.foldl_mem (fun t i hi ht => ?_) h1
    have := List.mem_range.mp hi
    exact State.wr_changes _ _ (State.wr_changes _ _ ht (a25.inRegs (by unfold Reg.sndMap0; omega)))
      (a25.inRegs (by unfold Reg.sndMap0 Reg.sndMap1; omega))
  clear_value s2 s1
  simp only [s3, s4]
  clear s3 s4
  repeat' (first | with_reducible refine fun _ => ?_ | lift_lets | (with_reducible intro y; first | (refine Evolves.cut (K := K) (s := s) (y := y) ?_ ?_ <;> first | (clear_value y; with_reducible intro hy) | simp -zeta -zetaHave only [y]) | (simp -zeta -zetaHave only [y]; clear y) | (clear_value y; clear y)) | with_reducible (first | exact h | assumption | apply State.passDone_changes | apply State.wrB_changes | apply State.wr_changes | apply State.raiseIf_changes | apply State.wr64_changes | apply State.deskewChan_changes | apply Evolves.ite | apply Evolves.foldl) | (split))
  all_goals (with_reducible first | assumption | exact a0.vectorOfCompletion | exact a0.ringsOfCompletion | exact a0.hostMemOfCompletion | exact a0.vectorsOfCompletion | exact a0.cplTailOfCompletion | exact a0.cplDropOfCompletion | exact a1.vectorOfEvents | exact a1.logOfEvents | exact a1.evrPairOfEvents | exact a1.evrOfEvents | exact a1.vectorsOfEvents | exact a1.evrStatusOfEvents | exact a1.evrDropOfEvents | exact a1.evrCommitOfEvents | exact a1.evrLogOfEvents | exact a1.evrLogBseqOfEvents | exact a3.ofCh (by decide) | exact a4.chanOf | exact a5.ofCh (by decide) | exact a6.ofCh (by decide) | exact a7.ofCh (by decide) | exact a8.pairCh (by decide) | exact a8.chFst | exact a8.chSnd | exact a8.chFst.ofCh (by decide) | exact a8.chSnd.ofCh (by decide) | exact a9.pairCh (by decide) | exact a9.chFst | exact a9.chSnd | exact a9.chFst.ofCh (by decide) | exact a9.chSnd.ofCh (by decide) | exact a10.pairCh (by decide) | exact a10.chFst | exact a10.chSnd | exact a10.chFst.ofCh (by decide) | exact a10.chSnd.ofCh (by decide) | exact a11.pairCh (by decide) | exact a11.chFst | exact a11.chSnd | exact a11.chFst.ofCh (by decide) | exact a11.chSnd.ofCh (by decide) | exact a12.ofCh (by decide) | exact a13.pairCh (by decide) | exact a13.chFst | exact a13.chSnd | exact a13.chFst.ofCh (by decide) | exact a13.chSnd.ofCh (by decide) | exact a14.ofCh (by decide) | exact a15.cluOf | exact a16.ofCh (by decide) | exact a18.ofCh (by decide) | exact a21.fst | exact a21.snd | exact a22.fst | exact a22.snd | exact a23.fst | exact a23.snd | exact a25.inRegs (by decide) | exact a25.pairInRegs (by decide) | exact a25.regsInRegs (by decide))

theorem State.densityNext_changes {K : List Foot} {s x : State} (n) (j) (hits) (h : Evolves K s x) (a0 : Allows K (.one (.reg (chOff n Reg.tiaCdCtl)))) (a1 : Allows K (.pair (chOff n Reg.tiaFlags))) (a2 : Allows K (.one (.reg (chOff n Reg.tiaLine)))) (a3 : Allows K .chans) (a4 : Allows K (.chReg Reg.pmuStatus)) (a5 : Allows K (.chReg Reg.peStatus)) (a6 : Allows K (.one (.reg Reg.sndStatus))) :
    Evolves K s (State.densityNext x n j hits) := by
  unfold State.densityNext
  repeat' (first | with_reducible refine fun _ => ?_ | lift_lets | (with_reducible intro y; first | (refine Evolves.cut (K := K) (s := s) (y := y) ?_ ?_ <;> first | (clear_value y; with_reducible intro hy) | simp -zeta -zetaHave only [y]) | (simp -zeta -zetaHave only [y]; clear y) | (clear_value y; clear y)) | with_reducible (first | exact h | assumption | apply State.densityEnd_changes | apply State.contactStart_changes | apply Evolves.ite) | (split))
  all_goals (with_reducible first | assumption | exact a1.fst | exact a1.snd | exact a3.chanOf | exact a4.ofCh (by decide) | exact a5.ofCh (by decide))

theorem State.passStart_changes {K : List Foot} {s x : State} (h : Evolves K s x) (a0 : Allows K .chans) (a1 : Allows K (.chReg Reg.pmuStatus)) (a2 : Allows K (.chReg Reg.peStatus)) (a3 : Allows K (.chReg Reg.tiaStatus)) (a4 : Allows K (.chReg Reg.tiaDiscard)) (a5 : Allows K .events) (a6 : Allows K (.chPair Reg.tiaMaxLo)) (a7 : Allows K (.chPair Reg.tiaMinLo)) (a8 : Allows K (.chPair Reg.tiaSdevLo)) (a9 : Allows K (.chPair Reg.tiaMeanLo)) (a10 : Allows K (.chReg Reg.tiaCount)) (a11 : Allows K (.chPair Reg.tiaLastLo)) (a12 : Allows K (.chReg Reg.tiaSkip)) (a13 : Allows K .clus) (a14 : Allows K (.chReg Reg.tiaFcnt)) (a15 : Allows K (.chReg Reg.tiaLine)) (a16 : Allows K (.one (.reg Reg.memRetWakes))) (a17 : Allows K (.one (.reg Reg.memRetState))) (a18 : Allows K (.one (.reg Reg.sndStatus))) (a19 : Allows K (.one .snd)) (a20 : Allows K (.chReg Reg.tiaCdCtl)) :
    Evolves K s (State.passStart x) := by
  unfold State.passStart
  try simp -zeta -zetaHave only [State.fold_snd]
  repeat' (first | with_reducible refine fun _ => ?_ | lift_lets | (with_reducible intro y; first | (refine Evolves.cut (K := K) (s := s) (y := y) ?_ ?_ <;> first | (clear_value y; with_reducible intro hy) | simp -zeta -zetaHave only [y]) | (simp -zeta -zetaHave only [y]; clear y) | (clear_value y; clear y)) | with_reducible (first | exact h | assumption | apply State.takeClu_changes | apply State.wrB_changes | apply State.densityStart_changes | apply State.wrF_changes | apply State.contactStart_changes | apply State.putSnd_changes | apply Evolves.ite | apply Evolves.foldl) | (split))
  all_goals (with_reducible first | assumption | exact a0.chanOf | exact a1.ofCh (by decide) | exact a2.ofCh (by decide) | exact a3.ofCh (by decide) | exact a4.ofCh (by decide) | exact a5.vectorOfEvents | exact a5.logOfEvents | exact a5.evrPairOfEvents | exact a5.evrOfEvents | exact a5.vectorsOfEvents | exact a5.evrStatusOfEvents | exact a5.evrDropOfEvents | exact a5.evrCommitOfEvents | exact a5.evrLogOfEvents | exact a5.evrLogBseqOfEvents | exact a6.pairCh (by decide) | exact a6.chFst | exact a6.chSnd | exact a6.chFst.ofCh (by decide) | exact a6.chSnd.ofCh (by decide) | exact a7.pairCh (by decide) | exact a7.chFst | exact a7.chSnd | exact a7.chFst.ofCh (by decide) | exact a7.chSnd.ofCh (by decide) | exact a8.pairCh (by decide) | exact a8.chFst | exact a8.chSnd | exact a8.chFst.ofCh (by decide) | exact a8.chSnd.ofCh (by decide) | exact a9.pairCh (by decide) | exact a9.chFst | exact a9.chSnd | exact a9.chFst.ofCh (by decide) | exact a9.chSnd.ofCh (by decide) | exact a10.ofCh (by decide) | exact a11.pairCh (by decide) | exact a11.chFst | exact a11.chSnd | exact a11.chFst.ofCh (by decide) | exact a11.chSnd.ofCh (by decide) | exact a12.ofCh (by decide) | exact a13.cluOf | exact a14.ofCh (by decide) | exact a15.ofCh (by decide) | exact a20.ofCh (by decide))

theorem State.cmdSound_changes {K : List Foot} {s x : State} (h : Evolves K s x) (a0 : Allows K .completion) (a1 : Allows K (.pair Reg.sndFlags)) (a2 : Allows K (.one .snd)) (a3 : Allows K (.one (.reg Reg.sndStatus))) (a4 : Allows K (.chReg Reg.tiaLine)) (a5 : Allows K .chans) (a6 : Allows K (.one (.reg Reg.memRetWakes))) (a7 : Allows K (.one (.reg Reg.memRetState))) (a8 : Allows K (.one .cal)) (a9 : Allows K (.pair Reg.calFlags)) :
    Evolves K s (State.cmdSound x) := by
  unfold State.cmdSound
  repeat' (first | with_reducible refine fun _ => ?_ | lift_lets | (with_reducible intro y; first | (refine Evolves.cut (K := K) (s := s) (y := y) ?_ ?_ <;> first | (clear_value y; with_reducible intro hy) | simp -zeta -zetaHave only [y]) | (simp -zeta -zetaHave only [y]; clear y) | (clear_value y; clear y)) | with_reducible (first | exact h | assumption | apply State.runCmd_changes | apply State.complete_changes | apply State.hostRequest_changes | apply State.bgStart_changes | apply Evolves.ite) | (split))
  all_goals (with_reducible first | assumption | exact a0.vectorOfCompletion | exact a0.ringsOfCompletion | exact a0.hostMemOfCompletion | exact a0.vectorsOfCompletion | exact a0.cplTailOfCompletion | exact a0.cplDropOfCompletion | exact a1.fst | exact a1.snd | exact a4.ofCh (by decide) | exact a5.chanOf | exact a9.fst | exact a9.snd)

theorem State.tdTouch_changes {K : List Foot} {s x : State} (h : Evolves K s x) (a0 : Allows K .events) (a1 : Allows K (.one (.reg Reg.sndStatus))) (a2 : Allows K (.one .cal)) (a3 : Allows K (.pair Reg.calFlags)) (a4 : Allows K (.pair Reg.sndFlags)) (a5 : Allows K (.one .snd)) (a6 : Allows K (.chReg Reg.tiaLine)) (a7 : Allows K .chans) (a8 : Allows K (.one (.reg Reg.memRetWakes))) (a9 : Allows K (.one (.reg Reg.memRetState))) (a10 : Allows K (.one .cwy)) :
    Evolves K s (State.tdTouch x) := by
  unfold State.tdTouch
  try simp -zeta -zetaHave only [State.fold_snd]
  repeat' (first | with_reducible refine fun _ => ?_ | lift_lets | (with_reducible intro y; first | (refine Evolves.cut (K := K) (s := s) (y := y) ?_ ?_ <;> first | (clear_value y; with_reducible intro hy) | simp -zeta -zetaHave only [y]) | (simp -zeta -zetaHave only [y]; clear y) | (clear_value y; clear y)) | with_reducible (first | exact h | assumption | apply State.touchdown_changes | apply State.sendMsgQ_changes | apply State.putSnd_changes | apply Evolves.ite) | (split))
  all_goals (with_reducible first | assumption | exact a0.vectorOfEvents | exact a0.logOfEvents | exact a0.evrPairOfEvents | exact a0.evrOfEvents | exact a0.vectorsOfEvents | exact a0.evrStatusOfEvents | exact a0.evrDropOfEvents | exact a0.evrCommitOfEvents | exact a0.evrLogOfEvents | exact a0.evrLogBseqOfEvents | exact a3.fst | exact a3.snd | exact a4.fst | exact a4.snd | exact a6.ofCh (by decide) | exact a7.chanOf)


end Sys2Proof.Machine
end

