-- ==== Sys2Proof/Laws/FrameCalib.lean ====
section
/-! SUPPORT. What each operation of Machine/Calib.lean can change: from a state that has changed only parts of the footprint `K`,
the operation changes only parts of `K`, where `K` allows the operation's own footprint. -/

set_option Elab.async false
set_option linter.all false

namespace Sys2Proof.Machine

theorem State.calFinish_changes {K : List Foot} {s x : State} (r) (outcome) (us) (h : Evolves K s x) (a0 : Allows K .completion) (a1 : Allows K .events) (a2 : Allows K (.one (.reg Reg.calScope))) (a3 : Allows K (.one (.reg Reg.calTime))) (a4 : Allows K (.one (.reg Reg.calStatus))) (a5 : Allows K (.one .cal)) :
    Evolves K s (State.calFinish x r outcome us) := by
  unfold State.calFinish
  try simp -zeta -zetaHave only [State.fold_cal]
  repeat' (first | with_reducible refine fun _ => ?_ | lift_lets | (with_reducible intro y; first | (refine Evolves.cut (K := K) (s := s) (y := y) ?_ ?_ <;> first | (clear_value y; with_reducible intro hy) | simp -zeta -zetaHave only [y]) | (simp -zeta -zetaHave only [y]; clear y) | (clear_value y; clear y)) | with_reducible (first | exact h | assumption | apply State.bgEnd_changes | apply State.post_changes | apply State.wr_changes | apply State.wrF_changes | apply State.putCal_changes) | (split))
  all_goals (with_reducible first | assumption | exact a0.vectorOfCompletion | exact a0.ringsOfCompletion | exact a0.hostMemOfCompletion | exact a0.vectorsOfCompletion | exact a0.cplTailOfCompletion | exact a0.cplDropOfCompletion | exact a1.vectorOfEvents | exact a1.logOfEvents | exact a1.evrPairOfEvents | exact a1.evrOfEvents | exact a1.vectorsOfEvents | exact a1.evrStatusOfEvents | exact a1.evrDropOfEvents | exact a1.evrCommitOfEvents | exact a1.evrLogOfEvents | exact a1.evrLogBseqOfEvents)

theorem State.testsOver_changes {K : List Foot} {s x : State} (h : Evolves K s x) (a0 : Allows K .chans) (a1 : Allows K (.chReg Reg.tiaCdCtl)) :
    Evolves K s (State.testsOver x) := by
  unfold State.testsOver
  repeat' (first | with_reducible refine fun _ => ?_ | lift_lets | (with_reducible intro y; first | (refine Evolves.cut (K := K) (s := s) (y := y) ?_ ?_ <;> first | (clear_value y; with_reducible intro hy) | simp -zeta -zetaHave only [y]) | (simp -zeta -zetaHave only [y]; clear y) | (clear_value y; clear y)) | with_reducible (first | exact h | assumption | apply State.modChan_changes | apply State.wrB_changes | apply Evolves.foldl))
  all_goals (with_reducible first | assumption | exact a0.chanOf | exact a1.ofCh (by decide))

theorem State.calAbort_changes {K : List Foot} {s x : State} (us) (h : Evolves K s x) (a0 : Allows K .completion) (a1 : Allows K .events) (a2 : Allows K (.one (.reg Reg.calScope))) (a3 : Allows K (.one (.reg Reg.calTime))) (a4 : Allows K (.one (.reg Reg.calStatus))) (a5 : Allows K (.one .cal)) (a6 : Allows K (.chReg Reg.pmuStatus)) (a7 : Allows K .chans) (a8 : Allows K (.chReg Reg.peStatus)) (a9 : Allows K (.chReg Reg.tiaStatus)) (a10 : Allows K (.chReg Reg.tiaDiscard)) (a11 : Allows K (.chPair Reg.tiaMaxLo)) (a12 : Allows K (.chPair Reg.tiaMinLo)) (a13 : Allows K (.chPair Reg.tiaSdevLo)) (a14 : Allows K (.chPair Reg.tiaMeanLo)) (a15 : Allows K (.chReg Reg.tiaCount)) (a16 : Allows K (.chPair Reg.tiaLastLo)) (a17 : Allows K (.chReg Reg.tiaSkip)) (a18 : Allows K .clus) (a19 : Allows K (.chReg Reg.tiaFcnt)) (a20 : Allows K (.chReg Reg.tiaCdCtl)) :
    Evolves K s (State.calAbort x us) := by
  unfold State.calAbort
  repeat' (first | with_reducible refine fun _ => ?_ | with_reducible (first | exact h | apply State.calFinish_changes | apply State.releaseAll_changes | apply State.testsOver_changes | apply Evolves.ite) | (split))
  all_goals (with_reducible first | assumption | exact a0.vectorOfCompletion | exact a0.ringsOfCompletion | exact a0.hostMemOfCompletion | exact a0.vectorsOfCompletion | exact a0.cplTailOfCompletion | exact a0.cplDropOfCompletion | exact a1.vectorOfEvents | exact a1.logOfEvents | exact a1.evrPairOfEvents | exact a1.evrOfEvents | exact a1.vectorsOfEvents | exact a1.evrStatusOfEvents | exact a1.evrDropOfEvents | exact a1.evrCommitOfEvents | exact a1.evrLogOfEvents | exact a1.evrLogBseqOfEvents | exact a6.ofCh (by decide) | exact a7.chanOf | exact a8.ofCh (by decide) | exact a9.ofCh (by decide) | exact a10.ofCh (by decide) | exact a11.pairCh (by decide) | exact a11.chFst | exact a11.chSnd | exact a11.chFst.ofCh (by decide) | exact a11.chSnd.ofCh (by decide) | exact a12.pairCh (by decide) | exact a12.chFst | exact a12.chSnd | exact a12.chFst.ofCh (by decide) | exact a12.chSnd.ofCh (by decide) | exact a13.pairCh (by decide) | exact a13.chFst | exact a13.chSnd | exact a13.chFst.ofCh (by decide) | exact a13.chSnd.ofCh (by decide) | exact a14.pairCh (by decide) | exact a14.chFst | exact a14.chSnd | exact a14.chFst.ofCh (by decide) | exact a14.chSnd.ofCh (by decide) | exact a15.ofCh (by decide) | exact a16.pairCh (by decide) | exact a16.chFst | exact a16.chSnd | exact a16.chFst.ofCh (by decide) | exact a16.chSnd.ofCh (by decide) | exact a17.ofCh (by decide) | exact a18.cluOf | exact a19.ofCh (by decide) | exact a20.ofCh (by decide))

theorem State.modRun_changes {K : List Foot} {s x : State} (f) (h : Evolves K s x) (a0 : Allows K (.one .cal)) :
    Evolves K s (State.modRun x f) := by
  unfold State.modRun
  try simp -zeta -zetaHave only [State.fold_cal]
  repeat' (first | with_reducible refine fun _ => ?_ | lift_lets | (with_reducible intro y; first | (refine Evolves.cut (K := K) (s := s) (y := y) ?_ ?_ <;> first | (clear_value y; with_reducible intro hy) | simp -zeta -zetaHave only [y]) | (simp -zeta -zetaHave only [y]; clear y) | (clear_value y; clear y)) | with_reducible (first | exact h | apply State.putCal_changes))
  all_goals (with_reducible first | assumption)

theorem State.tipHalf_changes {K : List Foot} {s x : State} (r) (second) (h : Evolves K s x) (a0 : Allows K .chans) (a1 : Allows K (.chReg Reg.tiaStatus)) (a2 : Allows K (.chReg Reg.tiaCount)) (a3 : Allows K (.chReg Reg.tiaSkip)) (a4 : Allows K (.chReg Reg.tiaDiscard)) (a5 : Allows K (.chReg Reg.tiaFcnt)) (a6 : Allows K (.chReg Reg.peStatus)) (a7 : Allows K (.one .cal)) :
    Evolves K s (State.tipHalf x r second) := by
  unfold State.tipHalf
  repeat' (first | with_reducible refine fun _ => ?_ | lift_lets | (with_reducible intro y; first | (refine Evolves.cut (K := K) (s := s) (y := y) ?_ ?_ <;> first | (clear_value y; with_reducible intro hy) | simp -zeta -zetaHave only [y]) | (simp -zeta -zetaHave only [y]; clear y) | (clear_value y; clear y)) | with_reducible (first | exact h | assumption | apply State.halfDrive_changes | apply State.modRun_changes | apply Evolves.foldl))
  all_goals (with_reducible first | assumption | exact a0.chanOf | exact a1.ofCh (by decide) | exact a2.ofCh (by decide) | exact a3.ofCh (by decide) | exact a4.ofCh (by decide) | exact a5.ofCh (by decide) | exact a6.ofCh (by decide))

theorem State.tipStop_changes {K : List Foot} {s x : State} (r) (h : Evolves K s x) (a0 : Allows K .chans) (a1 : Allows K (.chReg Reg.tiaDiscard)) (a2 : Allows K .events) (a3 : Allows K (.chReg Reg.tiaStatus)) (a4 : Allows K (.chPair Reg.tiaMaxLo)) (a5 : Allows K (.chPair Reg.tiaMinLo)) (a6 : Allows K (.chPair Reg.tiaSdevLo)) (a7 : Allows K (.chPair Reg.tiaMeanLo)) (a8 : Allows K (.chReg Reg.tiaCount)) (a9 : Allows K (.chPair Reg.tiaLastLo)) (a10 : Allows K (.chReg Reg.tiaSkip)) (a11 : Allows K .clus) (a12 : Allows K (.chReg Reg.tiaFcnt)) :
    Evolves K s (State.tipStop x r) := by
  unfold State.tipStop
  repeat' (first | with_reducible refine fun _ => ?_ | with_reducible (first | exact h | assumption | apply State.tiaStop_changes | apply Evolves.foldl))
  all_goals (with_reducible first | assumption | exact a0.chanOf | exact a1.ofCh (by decide) | exact a2.vectorOfEvents | exact a2.logOfEvents | exact a2.evrPairOfEvents | exact a2.evrOfEvents | exact a2.vectorsOfEvents | exact a2.evrStatusOfEvents | exact a2.evrDropOfEvents | exact a2.evrCommitOfEvents | exact a2.evrLogOfEvents | exact a2.evrLogBseqOfEvents | exact a3.ofCh (by decide) | exact a4.pairCh (by decide) | exact a4.chFst | exact a4.chSnd | exact a4.chFst.ofCh (by decide) | exact a4.chSnd.ofCh (by decide) | exact a5.pairCh (by decide) | exact a5.chFst | exact a5.chSnd | exact a5.chFst.ofCh (by decide) | exact a5.chSnd.ofCh (by decide) | exact a6.pairCh (by decide) | exact a6.chFst | exact a6.chSnd | exact a6.chFst.ofCh (by decide) | exact a6.chSnd.ofCh (by decide) | exact a7.pairCh (by decide) | exact a7.chFst | exact a7.chSnd | exact a7.chFst.ofCh (by decide) | exact a7.chSnd.ofCh (by decide) | exact a8.ofCh (by decide) | exact a9.pairCh (by decide) | exact a9.chFst | exact a9.chSnd | exact a9.chFst.ofCh (by decide) | exact a9.chSnd.ofCh (by decide) | exact a10.ofCh (by decide) | exact a11.cluOf | exact a12.ofCh (by decide))

theorem State.tipHalfEnd_changes {K : List Foot} {s x : State} (h : Evolves K s x) (a0 : Allows K .chans) (a1 : Allows K (.chReg Reg.tiaStatus)) (a2 : Allows K (.chReg Reg.tiaCount)) (a3 : Allows K (.chReg Reg.tiaSkip)) (a4 : Allows K (.chReg Reg.tiaDiscard)) (a5 : Allows K (.chReg Reg.tiaFcnt)) (a6 : Allows K (.chReg Reg.peStatus)) (a7 : Allows K (.one .cal)) (a8 : Allows K .events) (a9 : Allows K (.chPair Reg.tiaMaxLo)) (a10 : Allows K (.chPair Reg.tiaMinLo)) (a11 : Allows K (.chPair Reg.tiaSdevLo)) (a12 : Allows K (.chPair Reg.tiaMeanLo)) (a13 : Allows K (.chPair Reg.tiaLastLo)) (a14 : Allows K .clus) :
    Evolves K s (State.tipHalfEnd x) := by
  unfold State.tipHalfEnd
  repeat' (first | with_reducible refine fun _ => ?_ | with_reducible (first | exact h | apply State.tipHalf_changes | apply State.tipStop_changes | apply Evolves.ite) | (split))
  all_goals (with_reducible first | assumption | exact a0.chanOf | exact a1.ofCh (by decide) | exact a2.ofCh (by decide) | exact a3.ofCh (by decide) | exact a4.ofCh (by decide) | exact a5.ofCh (by decide) | exact a6.ofCh (by decide) | exact a8.vectorOfEvents | exact a8.logOfEvents | exact a8.evrPairOfEvents | exact a8.evrOfEvents | exact a8.vectorsOfEvents | exact a8.evrStatusOfEvents | exact a8.evrDropOfEvents | exact a8.evrCommitOfEvents | exact a8.evrLogOfEvents | exact a8.evrLogBseqOfEvents | exact a9.pairCh (by decide) | exact a9.chFst | exact a9.chSnd | exact a9.chFst.ofCh (by decide) | exact a9.chSnd.ofCh (by decide) | exact a10.pairCh (by decide) | exact a10.chFst | exact a10.chSnd | exact a10.chFst.ofCh (by decide) | exact a10.chSnd.ofCh (by decide) | exact a11.pairCh (by decide) | exact a11.chFst | exact a11.chSnd | exact a11.chFst.ofCh (by decide) | exact a11.chSnd.ofCh (by decide) | exact a12.pairCh (by decide) | exact a12.chFst | exact a12.chSnd | exact a12.chFst.ofCh (by decide) | exact a12.chSnd.ofCh (by decide) | exact a13.pairCh (by decide) | exact a13.chFst | exact a13.chSnd | exact a13.chFst.ofCh (by decide) | exact a13.chSnd.ofCh (by decide) | exact a14.cluOf)

theorem State.calWr_changes {K : List Foot} {s x : State} (o) (bs) (h : Evolves K s x) (a0 : Allows K (.one .cal)) :
    Evolves K s (State.calWr x o bs) := by
  unfold State.calWr
  try simp -zeta -zetaHave only [State.fold_cal]
  repeat' (first | with_reducible refine fun _ => ?_ | lift_lets | (with_reducible intro y; first | (refine Evolves.cut (K := K) (s := s) (y := y) ?_ ?_ <;> first | (clear_value y; with_reducible intro hy) | simp -zeta -zetaHave only [y]) | (simp -zeta -zetaHave only [y]; clear y) | (clear_value y; clear y)) | with_reducible (first | exact h | apply State.putCal_changes))
  all_goals (with_reducible first | assumption)

theorem State.calFail_changes {K : List Foot} {s x : State} (n) (item) (h : Evolves K s x) (a0 : Allows K (.one .cal)) (a1 : Allows K .events) (a2 : Allows K (.pair Reg.calFlags)) (a3 : Allows K (.one (.reg (failReg n)))) :
    Evolves K s (State.calFail x n item) := by
  unfold State.calFail
  repeat' (first | with_reducible refine fun _ => ?_ | lift_lets | (with_reducible intro y; first | (refine Evolves.cut (K := K) (s := s) (y := y) ?_ ?_ <;> first | (clear_value y; with_reducible intro hy) | simp -zeta -zetaHave only [y]) | (simp -zeta -zetaHave only [y]; clear y) | (clear_value y; clear y)) | with_reducible (first | exact h | assumption | apply State.modRun_changes | apply State.post_changes | apply State.raise_changes | apply State.wrB_changes) | (split))
  all_goals (with_reducible first | assumption | exact a1.vectorOfEvents | exact a1.logOfEvents | exact a1.evrPairOfEvents | exact a1.evrOfEvents | exact a1.vectorsOfEvents | exact a1.evrStatusOfEvents | exact a1.evrDropOfEvents | exact a1.evrCommitOfEvents | exact a1.evrLogOfEvents | exact a1.evrLogBseqOfEvents | exact a2.fst | exact a2.snd)

theorem State.testPassed_changes {K : List Foot} {s x : State} (n) (h : Evolves K s x) (a0 : Allows K (.one (.reg (chOff n Reg.tiaCdCtl)))) :
    Evolves K s (State.testPassed x n) := by
  unfold State.testPassed
  repeat' (first | with_reducible refine fun _ => ?_ | with_reducible (first | exact h | apply State.wrF_changes | apply Evolves.ite))
  all_goals (with_reducible first | assumption)

theorem State.calFailIn_changes {K : List Foot} {s x : State} (n item) (hn : n < 512) (h : Evolves K s x) (a0 : Allows K (.one .cal)) (a1 : Allows K .events) (a2 : Allows K (.pair Reg.calFlags))
    (a4 : Allows K (.regs Reg.calChFail (Reg.calChFail + 2048))) : Evolves K s (State.calFail x n item) :=
  State.calFail_changes _ _ h a0 a1 a2 (a4.inRegs (by unfold failReg; omega))

theorem mem_chansOf {c n : Nat} (h : n ∈ chansOf c) (hc : c < 32) : n < 512 := by
  unfold chansOf at h
  obtain ⟨k, hk, rfl⟩ := List.mem_map.mp h
  have := List.mem_range.mp hk
  omega

theorem mem_calChans {a n : Nat} (h : n ∈ calChans a) : n < 512 := by
  unfold calChans calClus at h
  obtain ⟨c, hc, hn⟩ := List.mem_flatMap.mp h
  exact mem_chansOf hn (List.mem_range.mp ((List.mem_filter.mp hc).1))

theorem State.calTake_changes {K : List Foot} {s x : State} (r) (item) (v) (h : Evolves K s x) (a0 : Allows K (.one .cal)) (a1 : Allows K .events) (a2 : Allows K (.pair Reg.calFlags)) (a3 : Allows K (.chReg Reg.tiaCdCtl)) (a4 : Allows K (.chPair Reg.tiaFlags)) (a5 : Allows K (.regs Reg.calChFail (Reg.calChFail + 2048))) :
    Evolves K s (State.calTake x r item v) := by
  have cf : ∀ (t : State) (n item : Nat), n < 512 → Evolves K s t → Evolves K s (t.calFail n item) := by
    intro t n item hn ht
    apply State.calFailIn_changes <;> with_reducible assumption
  have mr : ∀ (f : CalRun → CalRun), Evolves K s (x.modRun f) := by
    intro f
    apply State.modRun_changes <;> with_reducible assumption
  cases v <;> dsimp -zeta -zetaHave only [State.calTake]
  case corrClu c g o =>
    exact Evolves.ite (fun _ => h) (fun _ => Evolves.ite (fun _ => mr _) (fun _ => Evolves.foldl_mem (fun t n hn ht => cf _ _ _ (mem_chansOf hn c.isLt) ht) h))
  case corrCh ch i g o =>
    exact Evolves.ite (fun _ => h) (fun _ => Evolves.ite (fun _ => mr _) (fun _ => cf _ _ _ ch.isLt h))
  case table ch line hits =>
    refine Evolves.ite (fun _ => h) (fun _ => Evolves.ite (fun _ => h) (fun _ => Evolves.ite (fun _ => cf _ _ _ ch.isLt
      (State.wrF_changes _ _ _ _ (State.raise_changes _ _ h (a4.pairCh (by decide))) (a3.ofCh (by decide)))) (fun _ => ?_)))
    apply State.modRun_changes <;> with_reducible first | assumption | skip
    exact State.testPassed_changes _ h (a3.ofCh (by decide))
  case kpad ch cell v ok =>
    exact Evolves.ite (fun _ => h) (fun _ => Evolves.ite (fun _ => mr _) (fun _ => cf _ _ _ ch.isLt h))
  case ref ch v ok =>
    exact Evolves.ite (fun _ => h) (fun _ => Evolves.ite (fun _ => mr _) (fun _ => cf _ _ _ ch.isLt h))

theorem State.applyTables_changes {K : List Foot} {s x : State} (l) (h : Evolves K s x) (a0 : Allows K .chans) (a1 : Allows K (.chReg Reg.tiaLine)) :
    Evolves K s (State.applyTables x l) := by
  unfold State.applyTables
  repeat' (first | with_reducible refine fun _ => ?_ | lift_lets | (with_reducible intro y; first | (refine Evolves.cut (K := K) (s := s) (y := y) ?_ ?_ <;> first | (clear_value y; with_reducible intro hy) | simp -zeta -zetaHave only [y]) | (simp -zeta -zetaHave only [y]; clear y) | (clear_value y; clear y)) | with_reducible (first | exact h | assumption | apply State.modChan_changes | apply State.setLine_changes | apply State.setTable_changes | apply Evolves.foldl))
  all_goals (with_reducible first | assumption | exact a0.chanOf | exact a1.ofCh (by decide))

theorem State.calApply_changes {K : List Foot} {s x : State} (r) (h : Evolves K s x) (a0 : Allows K (.pair Reg.calFlags)) (a1 : Allows K (.one .cal)) (a2 : Allows K .chans) (a3 : Allows K (.chReg Reg.tiaLine)) :
    Evolves K s (State.calApply x r) := by
  unfold State.calApply
  repeat' (first | with_reducible refine fun _ => ?_ | lift_lets | (with_reducible intro y; first | (refine Evolves.cut (K := K) (s := s) (y := y) ?_ ?_ <;> first | (clear_value y; with_reducible intro hy) | simp -zeta -zetaHave only [y]) | (simp -zeta -zetaHave only [y]; clear y) | (clear_value y; clear y)) | with_reducible (first | exact h | assumption | apply State.allKref_changes | apply State.applyTables_changes | apply State.calWr_changes | apply Evolves.ite | apply Evolves.foldl) | (split))
  all_goals (with_reducible first | assumption | exact a0.fst | exact a0.snd | exact a2.chanOf | exact a3.ofCh (by decide))

theorem State.calDone_changes {K : List Foot} {s x : State} (us) (h : Evolves K s x) (a0 : Allows K (.one .cal)) (a1 : Allows K (.one (.reg Reg.calStatus))) (a2 : Allows K (.chReg Reg.pmuStatus)) (a3 : Allows K .chans) (a4 : Allows K (.chReg Reg.peStatus)) (a5 : Allows K (.chReg Reg.tiaStatus)) (a6 : Allows K (.chReg Reg.tiaDiscard)) (a7 : Allows K .events) (a8 : Allows K (.chPair Reg.tiaMaxLo)) (a9 : Allows K (.chPair Reg.tiaMinLo)) (a10 : Allows K (.chPair Reg.tiaSdevLo)) (a11 : Allows K (.chPair Reg.tiaMeanLo)) (a12 : Allows K (.chReg Reg.tiaCount)) (a13 : Allows K (.chPair Reg.tiaLastLo)) (a14 : Allows K (.chReg Reg.tiaSkip)) (a15 : Allows K .clus) (a16 : Allows K (.chReg Reg.tiaFcnt)) (a17 : Allows K (.pair Reg.calFlags)) (a18 : Allows K (.chReg Reg.tiaLine)) (a19 : Allows K .completion) (a20 : Allows K (.one (.reg Reg.calScope))) (a21 : Allows K (.one (.reg Reg.calTime))) :
    Evolves K s (State.calDone x us) := by
  unfold State.calDone
  split
  · rename_i r _
    refine Evolves.ite (fun _ => ?_) (fun _ => h)
    extract_lets s1 s2
    have h1 : Evolves K s s1 := by
      apply State.releaseAll_changes <;> with_reducible first | assumption | skip
      apply State.calApply_changes <;> with_reducible assumption
    have h2 : Evolves K s s2 := State.wrF_changes _ _ _ _ h1 a1
    clear_value s1 s2
    refine Evolves.ite (fun _ => State.putCal_changes _ h2 a0) (fun _ => ?_)
    apply State.calFinish_changes <;> with_reducible assumption
  · exact h

theorem State.calStepBegin_changes {K : List Foot} {s x : State} (h : Evolves K s x) (a0 : Allows K (.chReg Reg.tiaCdCtl)) (a1 : Allows K .chans) (a2 : Allows K (.chReg Reg.pmuStatus)) (a3 : Allows K (.chReg Reg.peStatus)) (a4 : Allows K (.chReg Reg.tiaStatus)) (a5 : Allows K (.chReg Reg.tiaCount)) (a6 : Allows K (.chReg Reg.tiaSkip)) (a7 : Allows K (.chReg Reg.tiaDiscard)) (a8 : Allows K (.chReg Reg.tiaFcnt)) (a9 : Allows K (.one .cal)) :
    Evolves K s (State.calStepBegin x) := by
  unfold State.calStepBegin
  repeat' (first | with_reducible refine fun _ => ?_ | with_reducible (first | exact h | assumption | apply State.wrF_changes | apply State.wrB_changes | apply State.rangeStart_changes | apply State.tipHalf_changes | apply Evolves.foldl) | (split))
  all_goals (with_reducible first | assumption | exact a0.ofCh (by decide) | exact a1.chanOf | exact a2.ofCh (by decide) | exact a3.ofCh (by decide) | exact a4.ofCh (by decide) | exact a5.ofCh (by decide) | exact a6.ofCh (by decide) | exact a7.ofCh (by decide) | exact a8.ofCh (by decide))

theorem State.cmdCalibrate_changes {K : List Foot} {s x : State} (h : Evolves K s x) (a0 : Allows K .completion) (a1 : Allows K (.chReg Reg.tiaCdCtl)) (a2 : Allows K .chans) (a3 : Allows K (.chReg Reg.pmuStatus)) (a4 : Allows K (.chReg Reg.peStatus)) (a5 : Allows K (.chReg Reg.tiaStatus)) (a6 : Allows K (.chReg Reg.tiaCount)) (a7 : Allows K (.chReg Reg.tiaSkip)) (a8 : Allows K (.chReg Reg.tiaDiscard)) (a9 : Allows K (.chReg Reg.tiaFcnt)) (a10 : Allows K (.one .cal)) (a11 : Allows K (.one (.reg Reg.calStatus))) (a12 : Allows K .events) (a13 : Allows K (.chPair Reg.tiaMaxLo)) (a14 : Allows K (.chPair Reg.tiaMinLo)) (a15 : Allows K (.chPair Reg.tiaSdevLo)) (a16 : Allows K (.chPair Reg.tiaMeanLo)) (a17 : Allows K (.chPair Reg.tiaLastLo)) (a18 : Allows K .clus) (a19 : Allows K (.chReg Reg.tiaLine)) (a20 : Allows K (.one (.reg Reg.memRetWakes))) (a21 : Allows K (.one (.reg Reg.memRetState))) (a22 : Allows K (.regs Reg.calChFail (Reg.calChFail + 2048))) :
    Evolves K s (State.cmdCalibrate x) := by
  unfold State.cmdCalibrate
  refine State.runCmd_changes _ _ h a0 (fun c t ht => ?_)
  extract_lets a items t1 t2 t3 r
  have h1 : Evolves K s t1 := by
    refine Evolves.ite (fun _ => ht) (fun _ => Evolves.foldl (fun u k hu => ?_) ht)
    apply State.takeClu_changes <;> with_reducible assumption
  have h2 : Evolves K s t2 := by
    apply State.densityStart_changes <;> with_reducible first | assumption | skip
    refine Evolves.ite (fun _ => h1) (fun _ => Evolves.foldl_mem (fun u k hk hu => ?_) h1)
    have := mem_calChans hk
    exact State.wr_changes _ _ hu (a22.inRegs (by unfold failReg; omega))
  have h3 : Evolves K s t3 := State.bgStart_changes _ (State.wrF_changes _ _ _ _ h2 a11) a0.ringsOfCompletion
  clear_value t3
  refine Evolves.ite (fun _ => State.complete_changes _ _ _ _ ht a0) (fun _ => Evolves.ite
    (fun _ => State.complete_changes _ _ _ _ ht a0) (fun _ => ?_))
  apply State.calStepBegin_changes <;> with_reducible first | assumption | skip
  exact State.putCal_changes _ h3 a10

theorem State.calStepOver_changes {K : List Foot} {s x : State} (r) (item) (h : Evolves K s x) (a0 : Allows K (.chReg Reg.tiaCdCtl)) (a1 : Allows K .chans) (a2 : Allows K (.chReg Reg.tiaDiscard)) (a3 : Allows K .events) (a4 : Allows K (.chReg Reg.tiaStatus)) (a5 : Allows K (.chPair Reg.tiaMaxLo)) (a6 : Allows K (.chPair Reg.tiaMinLo)) (a7 : Allows K (.chPair Reg.tiaSdevLo)) (a8 : Allows K (.chPair Reg.tiaMeanLo)) (a9 : Allows K (.chReg Reg.tiaCount)) (a10 : Allows K (.chPair Reg.tiaLastLo)) (a11 : Allows K (.chReg Reg.tiaSkip)) (a12 : Allows K .clus) (a13 : Allows K (.chReg Reg.tiaFcnt)) :
    Evolves K s (State.calStepOver x r item) := by
  unfold State.calStepOver
  repeat' (first | with_reducible refine fun _ => ?_ | with_reducible (first | exact h | assumption | apply State.wrB_changes | apply State.tipStop_changes | apply Evolves.ite | apply Evolves.foldl))
  all_goals (with_reducible first | assumption | exact a0.ofCh (by decide) | exact a1.chanOf | exact a2.ofCh (by decide) | exact a3.vectorOfEvents | exact a3.logOfEvents | exact a3.evrPairOfEvents | exact a3.evrOfEvents | exact a3.vectorsOfEvents | exact a3.evrStatusOfEvents | exact a3.evrDropOfEvents | exact a3.evrCommitOfEvents | exact a3.evrLogOfEvents | exact a3.evrLogBseqOfEvents | exact a4.ofCh (by decide) | exact a5.pairCh (by decide) | exact a5.chFst | exact a5.chSnd | exact a5.chFst.ofCh (by decide) | exact a5.chSnd.ofCh (by decide) | exact a6.pairCh (by decide) | exact a6.chFst | exact a6.chSnd | exact a6.chFst.ofCh (by decide) | exact a6.chSnd.ofCh (by decide) | exact a7.pairCh (by decide) | exact a7.chFst | exact a7.chSnd | exact a7.chFst.ofCh (by decide) | exact a7.chSnd.ofCh (by decide) | exact a8.pairCh (by decide) | exact a8.chFst | exact a8.chSnd | exact a8.chFst.ofCh (by decide) | exact a8.chSnd.ofCh (by decide) | exact a9.ofCh (by decide) | exact a10.pairCh (by decide) | exact a10.chFst | exact a10.chSnd | exact a10.chFst.ofCh (by decide) | exact a10.chSnd.ofCh (by decide) | exact a11.ofCh (by decide) | exact a12.cluOf | exact a13.ofCh (by decide))

theorem State.bankActive_changes {K : List Foot} {s x : State} (b) (h : Evolves K s x) (a0 : Allows K (.one .cal)) (a1 : Allows K (.one (.reg Reg.calLastPcycle))) (a2 : Allows K (.pair Reg.calLastOptLo)) (a3 : Allows K (.one (.reg Reg.calCount))) (a4 : Allows K (.one (.reg Reg.bootStatus))) (a5 : Allows K (.one (.reg Reg.calStatus))) :
    Evolves K s (State.bankActive x b) := by
  unfold State.bankActive
  try simp -zeta -zetaHave only [State.fold_cal]
  repeat' (first | with_reducible refine fun _ => ?_ | lift_lets | (with_reducible intro y; first | (refine Evolves.cut (K := K) (s := s) (y := y) ?_ ?_ <;> first | (clear_value y; with_reducible intro hy) | simp -zeta -zetaHave only [y]) | (simp -zeta -zetaHave only [y]; clear y) | (clear_value y; clear y)) | with_reducible (first | exact h | assumption | apply State.wr_changes | apply State.wr64_changes | apply State.wrB_changes | apply State.wrF_changes | apply State.putCal_changes) | (split))
  all_goals (with_reducible first | assumption | exact a2.fst | exact a2.snd)

theorem State.storeLost_changes {K : List Foot} {s x : State} (k) (h : Evolves K s x) (a0 : Allows K (.one .freeCtr)) (a1 : Allows K .flashes) :
    Evolves K s (State.storeLost x k) := by
  unfold State.storeLost
  repeat' (first | with_reducible refine fun _ => ?_ | lift_lets | (with_reducible intro y; first | (refine Evolves.cut (K := K) (s := s) (y := y) ?_ ?_ <;> first | (clear_value y; with_reducible intro hy) | simp -zeta -zetaHave only [y]) | (simp -zeta -zetaHave only [y]; clear y) | (clear_value y; clear y)) | with_reducible (first | exact h | assumption | apply State.flashLost_changes) | (split))
  all_goals (with_reducible first | assumption | exact a1.logOfFlashes)

theorem State.bankProgram_changes {K : List Foot} {s x : State} (b) (h : Evolves K s x) (a0 : Allows K .flashes) :
    Evolves K s (State.bankProgram x b) := by
  unfold State.bankProgram
  repeat' (first | with_reducible refine fun _ => ?_ | lift_lets | (with_reducible intro y; first | (refine Evolves.cut (K := K) (s := s) (y := y) ?_ ?_ <;> first | (clear_value y; with_reducible intro hy) | simp -zeta -zetaHave only [y]) | (simp -zeta -zetaHave only [y]; clear y) | (clear_value y; clear y)) | with_reducible (first | exact h | assumption | apply State.flashWr_changes | apply Evolves.foldl) | (split))
  all_goals (with_reducible first | assumption | exact a0.logOfFlashes)

theorem State.storeWork_changes {K : List Foot} {s x : State} (k) (h : Evolves K s x) (a0 : Allows K (.one (.reg Reg.calStatus))) (a1 : Allows K .flashes) (a2 : Allows K (.one (.reg Reg.calSeqA))) (a3 : Allows K (.one (.reg Reg.calSeqB))) :
    Evolves K s (State.storeWork x k) := by
  have hq : ∀ b, Allows K (.one (.reg (seqReg b))) := by
    intro b
    unfold seqReg
    split <;> assumption
  unfold State.storeWork
  extract_lets b
  clear_value b
  split
  · exact State.wr_changes _ _ (State.wrB_changes _ _ _ (State.flashErase_changes _ _ h a1) a0) (hq _)
  · exact State.wr_changes _ _ (State.flashWr_changes _ _ h a1) (hq _)
  · exact State.flashErase_changes _ _ h a1
  · exact State.bankProgram_changes _ h a1
  · exact h

theorem State.storeNext_changes {K : List Foot} {s x : State} (ok) (us) (h : Evolves K s x) (a0 : Allows K .completion) (a1 : Allows K .events) (a2 : Allows K (.one (.reg Reg.calScope))) (a3 : Allows K (.one (.reg Reg.calTime))) (a4 : Allows K (.one (.reg Reg.calStatus))) (a5 : Allows K (.one .cal)) (a6 : Allows K (.pair Reg.calFlags)) (a7 : Allows K (.one .freeCtr)) (a8 : Allows K (.one (.reg Reg.calSeqA))) (a9 : Allows K (.one (.reg Reg.calSeqB))) (a10 : Allows K .flashes) :
    Evolves K s (State.storeNext x ok us) := by
  unfold State.storeNext
  try simp -zeta -zetaHave only [State.fold_cal]
  repeat' (first | with_reducible refine fun _ => ?_ | lift_lets | (with_reducible intro y; first | (refine Evolves.cut (K := K) (s := s) (y := y) ?_ ?_ <;> first | (clear_value y; with_reducible intro hy) | simp -zeta -zetaHave only [y]) | (simp -zeta -zetaHave only [y]; clear y) | (clear_value y; clear y)) | with_reducible (first | exact h | assumption | apply State.calFinish_changes | apply State.raise_changes | apply State.storeLost_changes | apply State.storeWork_changes | apply State.putCal_changes | apply Evolves.ite) | (split))
  all_goals (with_reducible first | assumption | exact a0.vectorOfCompletion | exact a0.ringsOfCompletion | exact a0.hostMemOfCompletion | exact a0.vectorsOfCompletion | exact a0.cplTailOfCompletion | exact a0.cplDropOfCompletion | exact a1.vectorOfEvents | exact a1.logOfEvents | exact a1.evrPairOfEvents | exact a1.evrOfEvents | exact a1.vectorsOfEvents | exact a1.evrStatusOfEvents | exact a1.evrDropOfEvents | exact a1.evrCommitOfEvents | exact a1.evrLogOfEvents | exact a1.evrLogBseqOfEvents | exact a6.fst | exact a6.snd | exact a10.logOfFlashes)

theorem State.calOne_changes {K : List Foot} {s x : State} (item) (v) (h : Evolves K s x) (a0 : Allows K (.one .cal)) (a1 : Allows K .events) (a2 : Allows K (.pair Reg.calFlags)) (a3 : Allows K (.chReg Reg.tiaCdCtl)) (a4 : Allows K (.chPair Reg.tiaFlags)) (a5 : Allows K (.regs Reg.calChFail (Reg.calChFail + 2048))) :
    Evolves K s (State.calOne x item v) := by
  unfold State.calOne
  repeat' (first | with_reducible refine fun _ => ?_ | with_reducible (first | exact h | apply State.calTake_changes) | (split))
  all_goals (with_reducible first | assumption | exact a1.vectorOfEvents | exact a1.logOfEvents | exact a1.evrPairOfEvents | exact a1.evrOfEvents | exact a1.vectorsOfEvents | exact a1.evrStatusOfEvents | exact a1.evrDropOfEvents | exact a1.evrCommitOfEvents | exact a1.evrLogOfEvents | exact a1.evrLogBseqOfEvents | exact a2.fst | exact a2.snd | exact a3.ofCh (by decide) | exact a4.pairCh (by decide) | exact a4.chFst | exact a4.chSnd | exact a4.chFst.ofCh (by decide) | exact a4.chSnd.ofCh (by decide) | exact a5.inRegs (by decide) | exact a5.pairInRegs (by decide) | exact a5.regsInRegs (by decide))

theorem State.calStepEnd_changes {K : List Foot} {s x : State} (values) (h : Evolves K s x) (a0 : Allows K (.one .cal)) (a1 : Allows K (.chReg Reg.tiaCdCtl)) (a2 : Allows K .chans) (a3 : Allows K (.chReg Reg.tiaDiscard)) (a4 : Allows K .events) (a5 : Allows K (.chReg Reg.tiaStatus)) (a6 : Allows K (.chPair Reg.tiaMaxLo)) (a7 : Allows K (.chPair Reg.tiaMinLo)) (a8 : Allows K (.chPair Reg.tiaSdevLo)) (a9 : Allows K (.chPair Reg.tiaMeanLo)) (a10 : Allows K (.chReg Reg.tiaCount)) (a11 : Allows K (.chPair Reg.tiaLastLo)) (a12 : Allows K (.chReg Reg.tiaSkip)) (a13 : Allows K .clus) (a14 : Allows K (.chReg Reg.tiaFcnt)) (a15 : Allows K (.pair Reg.calFlags)) (a16 : Allows K (.chPair Reg.tiaFlags)) (a17 : Allows K (.regs Reg.calChFail (Reg.calChFail + 2048))) (a18 : Allows K (.chReg Reg.pmuStatus)) (a19 : Allows K (.chReg Reg.peStatus)) (a20 : Allows K (.one (.reg Reg.calStatus))) :
    Evolves K s (State.calStepEnd x values) := by
  unfold State.calStepEnd
  split
  · exact h
  · rename_i r _
    split
    · exact h
    · rename_i item rest _
      extract_lets s1 s2
      have h1 : Evolves K s s1 := by
        refine Evolves.foldl_mem (fun t n hn ht => ?_) h
        have := mem_calChans (List.mem_filter.mp hn).1
        apply State.calFailIn_changes <;> with_reducible assumption
      have h2 : Evolves K s s2 := by
        apply State.modRun_changes <;> with_reducible first | assumption | skip
        apply State.calStepOver_changes <;> with_reducible first | assumption | skip
        refine Evolves.foldl (fun t v ht => ?_) h1
        apply State.calOne_changes <;> with_reducible assumption
      refine Evolves.ite (fun _ => h2) (fun _ => ?_)
      apply State.calStepBegin_changes <;> with_reducible first | assumption | skip
      exact State.wrF_changes _ _ _ _ h2 a20

theorem State.storeCommit_changes {K : List Foot} {s x : State} (us) (h : Evolves K s x) (a0 : Allows K .completion) (a1 : Allows K .events) (a2 : Allows K (.one (.reg Reg.calScope))) (a3 : Allows K (.one (.reg Reg.calTime))) (a4 : Allows K (.one (.reg Reg.calStatus))) (a5 : Allows K (.one .cal)) (a6 : Allows K (.one (.reg Reg.calLastPcycle))) (a7 : Allows K (.pair Reg.calLastOptLo)) (a8 : Allows K (.one (.reg Reg.calCount))) (a9 : Allows K (.one (.reg Reg.bootStatus))) (a10 : Allows K .flashes) :
    Evolves K s (State.storeCommit x us) := by
  unfold State.storeCommit
  repeat' (first | with_reducible refine fun _ => ?_ | lift_lets | (with_reducible intro y; first | (refine Evolves.cut (K := K) (s := s) (y := y) ?_ ?_ <;> first | (clear_value y; with_reducible intro hy) | simp -zeta -zetaHave only [y]) | (simp -zeta -zetaHave only [y]; clear y) | (clear_value y; clear y)) | with_reducible (first | exact h | assumption | apply State.calFinish_changes | apply State.bankActive_changes | apply State.flashWr_changes | apply Evolves.ite) | (split))
  all_goals (with_reducible first | assumption | exact a0.vectorOfCompletion | exact a0.ringsOfCompletion | exact a0.hostMemOfCompletion | exact a0.vectorsOfCompletion | exact a0.cplTailOfCompletion | exact a0.cplDropOfCompletion | exact a1.vectorOfEvents | exact a1.logOfEvents | exact a1.evrPairOfEvents | exact a1.evrOfEvents | exact a1.vectorsOfEvents | exact a1.evrStatusOfEvents | exact a1.evrDropOfEvents | exact a1.evrCommitOfEvents | exact a1.evrLogOfEvents | exact a1.evrLogBseqOfEvents | exact a7.fst | exact a7.snd | exact a10.logOfFlashes)


end Sys2Proof.Machine
end

