-- ==== Sys2Proof/Laws/FrameCauseway.lean ====
section
/-! SUPPORT. What each operation of Machine/Causeway.lean can change: from a state that has changed only parts of the footprint `K`,
the operation changes only parts of `K`, where `K` allows the operation's own footprint. -/

set_option Elab.async false
set_option linter.all false

namespace Sys2Proof.Machine

theorem State.sendWrite_changes {K : List Foot} {s x : State} (v) (h : Evolves K s x) (a0 : Allows K (.one .cwy)) (a1 : Allows K (.pair Reg.cwyFlags)) :
    Evolves K s (State.sendWrite x v) := by
  unfold State.sendWrite
  repeat' (first | with_reducible refine fun _ => ?_ | with_reducible (first | exact h | apply State.sendMsgQ_changes | apply State.raise_changes | apply Evolves.ite))
  all_goals (with_reducible first | assumption | exact a1.fst | exact a1.snd)

theorem State.modPort_changes {K : List Foot} {s x : State} (p) (f) (h : Evolves K s x) (a0 : Allows K (.one .cwy)) :
    Evolves K s (State.modPort x p f) := by
  unfold State.modPort
  try simp -zeta -zetaHave only [State.fold_cwy]
  repeat' (first | with_reducible refine fun _ => ?_ | lift_lets | (with_reducible intro y; first | (refine Evolves.cut (K := K) (s := s) (y := y) ?_ ?_ <;> first | (clear_value y; with_reducible intro hy) | simp -zeta -zetaHave only [y]) | (simp -zeta -zetaHave only [y]; clear y) | (clear_value y; clear y)) | with_reducible (first | exact h | apply State.putCwy_changes) | (split))
  all_goals (with_reducible first | assumption)

theorem State.setPort_changes {K : List Foot} {s x : State} (p) (v) (h : Evolves K s x) (a0 : Allows K (.one (.reg Reg.cwyStatus))) :
    Evolves K s (State.setPort x p v) := by
  unfold State.setPort
  repeat' (first | with_reducible refine fun _ => ?_ | with_reducible (first | exact h | apply State.wrF_changes))
  all_goals (with_reducible first | assumption)

theorem State.topoPost_changes {K : List Foot} {s x : State} (ring) (h : Evolves K s x) (a0 : Allows K .events) :
    Evolves K s (State.topoPost x ring) := by
  unfold State.topoPost
  repeat' (first | with_reducible refine fun _ => ?_ | with_reducible (first | exact h | apply State.post_changes))
  all_goals (with_reducible first | assumption | exact a0.vectorOfEvents | exact a0.logOfEvents | exact a0.evrPairOfEvents | exact a0.evrOfEvents | exact a0.vectorsOfEvents | exact a0.evrStatusOfEvents | exact a0.evrDropOfEvents | exact a0.evrCommitOfEvents | exact a0.evrLogOfEvents | exact a0.evrLogBseqOfEvents)

theorem State.trackRestart_changes {K : List Foot} {s x : State} (h : Evolves K s x) (a0 : Allows K (.one .cwy)) (a1 : Allows K (.regs Reg.cwySum0 (Reg.cwySum0 + 2048))) :
    Evolves K s (State.trackRestart x) := by
  unfold State.trackRestart
  extract_lets s1
  have h1 : Evolves K s s1 := by
    refine Evolves.foldl_mem (fun t i hi ht => ?_) h
    have := List.mem_range.mp hi
    exact State.wr_changes _ _ ht (a1.inRegs (by omega))
  exact State.putCwy_changes _ h1 a0

theorem State.setRole_changes {K : List Foot} {s x : State} (role) (h : Evolves K s x) (a0 : Allows K (.one (.reg Reg.clkStatus))) (a1 : Allows K (.one (.reg Reg.clkCorr))) (a2 : Allows K (.one .cwy)) :
    Evolves K s (State.setRole x role) := by
  unfold State.setRole
  try simp -zeta -zetaHave only [State.fold_cwy]
  repeat' (first | with_reducible refine fun _ => ?_ | lift_lets | (with_reducible intro y; first | (refine Evolves.cut (K := K) (s := s) (y := y) ?_ ?_ <;> first | (clear_value y; with_reducible intro hy) | simp -zeta -zetaHave only [y]) | (simp -zeta -zetaHave only [y]; clear y) | (clear_value y; clear y)) | with_reducible (first | exact h | assumption | apply State.wrF_changes | apply State.corrUpdate_changes | apply State.putCwy_changes | apply Evolves.ite) | (split))
  all_goals (with_reducible first | assumption)

theorem State.portRefuse_changes {K : List Foot} {s x : State} (p) (reason) (h : Evolves K s x) (a0 : Allows K .events) (a1 : Allows K (.pair Reg.cwyFlags)) (a2 : Allows K (.one (.reg Reg.cwyRefuse))) (a3 : Allows K (.one (.reg Reg.cwyStatus))) :
    Evolves K s (State.portRefuse x p reason) := by
  unfold State.portRefuse
  repeat' (first | with_reducible refine fun _ => ?_ | lift_lets | (with_reducible intro y; first | (refine Evolves.cut (K := K) (s := s) (y := y) ?_ ?_ <;> first | (clear_value y; with_reducible intro hy) | simp -zeta -zetaHave only [y]) | (simp -zeta -zetaHave only [y]; clear y) | (clear_value y; clear y)) | with_reducible (first | exact h | assumption | apply State.post_changes | apply State.raise_changes | apply State.wrF_changes | apply State.setPort_changes) | (split))
  all_goals (with_reducible first | assumption | exact a0.vectorOfEvents | exact a0.logOfEvents | exact a0.evrPairOfEvents | exact a0.evrOfEvents | exact a0.vectorsOfEvents | exact a0.evrStatusOfEvents | exact a0.evrDropOfEvents | exact a0.evrCommitOfEvents | exact a0.evrLogOfEvents | exact a0.evrLogBseqOfEvents | exact a1.fst | exact a1.snd)

theorem State.sendPurge_changes {K : List Foot} {s x : State} (h : Evolves K s x) (a0 : Allows K (.one .cwy)) :
    Evolves K s (State.sendPurge x) := by
  unfold State.sendPurge
  try simp -zeta -zetaHave only [State.fold_cwy]
  repeat' (first | with_reducible refine fun _ => ?_ | lift_lets | (with_reducible intro y; first | (refine Evolves.cut (K := K) (s := s) (y := y) ?_ ?_ <;> first | (clear_value y; with_reducible intro hy) | simp -zeta -zetaHave only [y]) | (simp -zeta -zetaHave only [y]; clear y) | (clear_value y; clear y)) | with_reducible (first | exact h | assumption | apply State.putCwy_changes) | (split))
  all_goals (with_reducible first | assumption)

theorem State.bufferFree_changes {K : List Foot} {s x : State} (p) (k) (h : Evolves K s x) (a0 : Allows K (.one .cwy)) :
    Evolves K s (State.bufferFree x p k) := by
  unfold State.bufferFree
  repeat' (first | with_reducible refine fun _ => ?_ | lift_lets | (with_reducible intro y; first | (refine Evolves.cut (K := K) (s := s) (y := y) ?_ ?_ <;> first | (clear_value y; with_reducible intro hy) | simp -zeta -zetaHave only [y]) | (simp -zeta -zetaHave only [y]; clear y) | (clear_value y; clear y)) | with_reducible (first | exact h | assumption | apply State.modPort_changes))
  all_goals (with_reducible first | assumption)

theorem State.portStop_changes {K : List Foot} {s x : State} (p) (h : Evolves K s x) (a0 : Allows K (.one .cwy)) :
    Evolves K s (State.portStop x p) := by
  unfold State.portStop
  repeat' (first | with_reducible refine fun _ => ?_ | lift_lets | (with_reducible intro y; first | (refine Evolves.cut (K := K) (s := s) (y := y) ?_ ?_ <;> first | (clear_value y; with_reducible intro hy) | simp -zeta -zetaHave only [y]) | (simp -zeta -zetaHave only [y]; clear y) | (clear_value y; clear y)) | with_reducible (first | exact h | assumption | apply State.sendPurge_changes | apply State.modPort_changes | apply State.bufferFree_changes))
  all_goals (with_reducible first | assumption)

theorem State.tooMany_changes {K : List Foot} {s x : State} (g) (h : Evolves K s x) (a0 : Allows K .events) (a1 : Allows K (.one .cwy)) (a2 : Allows K (.regs Reg.cwySum0 (Reg.cwySum0 + 2048))) (a3 : Allows K (.pair Reg.cwyMasterLo)) (a4 : Allows K (.one (.reg Reg.cwyStatus))) (a5 : Allows K (.one (.reg Reg.clkStatus))) (a6 : Allows K (.one (.reg Reg.clkCorr))) (a7 : Allows K (.pair Reg.cwyFlags)) (a8 : Allows K (.one (.reg Reg.cwyRefuse))) (a9 : Allows K (.regs Reg.cwyPosLo (Reg.cwyPosLo + 512))) :
    Evolves K s (State.tooMany x g) := by
  unfold State.tooMany
  extract_lets s1 s2 s3
  have h1 : Evolves K s s1 := by
    refine State.wrB_changes _ _ _ ?_ a4
    apply State.setRole_changes <;> with_reducible first | assumption | exact a0.vectorOfEvents | exact a0.logOfEvents | exact a0.evrPairOfEvents | exact a0.evrOfEvents | exact a0.vectorsOfEvents | exact a0.evrStatusOfEvents | exact a0.evrDropOfEvents | exact a0.evrCommitOfEvents | exact a0.evrLogOfEvents | exact a0.evrLogBseqOfEvents | exact a2.inRegs (by decide) | exact a2.pairInRegs (by decide) | exact a2.regsInRegs (by decide) | exact a3.fst | exact a3.snd | exact a7.fst | exact a7.snd | exact a9.inRegs (by decide) | exact a9.pairInRegs (by decide) | exact a9.regsInRegs (by decide)
  have h2 : Evolves K s s2 := by
    apply State.trackRestart_changes <;> with_reducible first | assumption | skip
    refine Evolves.foldl_mem (fun t i hi ht => ?_) ?_
    · have := List.mem_range.mp hi
      exact State.wr64_changes _ _ ht (a9.pairInRegs (by omega))
    · exact State.wr64_changes _ _ h1 a3
  have h3 : Evolves K s s3 := by
    refine Evolves.ite (fun _ => ?_) (fun _ => h2)
    apply State.topoPost_changes <;> with_reducible first | assumption | exact a0.vectorOfEvents | exact a0.logOfEvents | exact a0.evrPairOfEvents | exact a0.evrOfEvents | exact a0.vectorsOfEvents | exact a0.evrStatusOfEvents | exact a0.evrDropOfEvents | exact a0.evrCommitOfEvents | exact a0.evrLogOfEvents | exact a0.evrLogBseqOfEvents | exact a2.inRegs (by decide) | exact a2.pairInRegs (by decide) | exact a2.regsInRegs (by decide) | exact a3.fst | exact a3.snd | exact a7.fst | exact a7.snd | exact a9.inRegs (by decide) | exact a9.pairInRegs (by decide) | exact a9.regsInRegs (by decide)
  clear_value s3
  split
  · refine Evolves.ite (fun _ => ?_) (fun _ => h3)
    apply State.portRefuse_changes <;> with_reducible first | assumption | skip | exact a0.vectorOfEvents | exact a0.logOfEvents | exact a0.evrPairOfEvents | exact a0.evrOfEvents | exact a0.vectorsOfEvents | exact a0.evrStatusOfEvents | exact a0.evrDropOfEvents | exact a0.evrCommitOfEvents | exact a0.evrLogOfEvents | exact a0.evrLogBseqOfEvents | exact a2.inRegs (by decide) | exact a2.pairInRegs (by decide) | exact a2.regsInRegs (by decide) | exact a3.fst | exact a3.snd | exact a7.fst | exact a7.snd | exact a9.inRegs (by decide) | exact a9.pairInRegs (by decide) | exact a9.regsInRegs (by decide)
    apply State.portStop_changes <;> with_reducible first | assumption | skip | exact a0.vectorOfEvents | exact a0.logOfEvents | exact a0.evrPairOfEvents | exact a0.evrOfEvents | exact a0.vectorsOfEvents | exact a0.evrStatusOfEvents | exact a0.evrDropOfEvents | exact a0.evrCommitOfEvents | exact a0.evrLogOfEvents | exact a0.evrLogBseqOfEvents | exact a2.inRegs (by decide) | exact a2.pairInRegs (by decide) | exact a2.regsInRegs (by decide) | exact a3.fst | exact a3.snd | exact a7.fst | exact a7.snd | exact a9.inRegs (by decide) | exact a9.pairInRegs (by decide) | exact a9.regsInRegs (by decide)
  · exact h3

theorem State.pathMoved_changes {K : List Foot} {s x : State} (h : Evolves K s x) (a0 : Allows K (.one .cwy)) (a1 : Allows K (.pair Reg.cwyFlags)) (a2 : Allows K (.one .plan)) :
    Evolves K s (State.pathMoved x) := by
  unfold State.pathMoved
  try simp -zeta -zetaHave only [State.fold_cwy, State.fold_plan]
  repeat' (first | with_reducible refine fun _ => ?_ | lift_lets | (with_reducible intro y; first | (refine Evolves.cut (K := K) (s := s) (y := y) ?_ ?_ <;> first | (clear_value y; with_reducible intro hy) | simp -zeta -zetaHave only [y]) | (simp -zeta -zetaHave only [y]; clear y) | (clear_value y; clear y)) | with_reducible (first | exact h | assumption | apply State.raise_changes | apply State.putCwy_changes | apply State.putPlan_changes | apply Evolves.ite) | (split))
  all_goals (with_reducible first | assumption | exact a1.fst | exact a1.snd)

theorem State.electionRegs_changes {K : List Foot} {s x : State} (g) (h : Evolves K s x) (a0 : Allows K (.one .cwy)) (a1 : Allows K (.regs Reg.cwySum0 (Reg.cwySum0 + 2048))) (a2 : Allows K (.one (.reg Reg.cwyPathDelay))) (a3 : Allows K (.one (.reg Reg.cwyPathLat))) (a4 : Allows K (.pair Reg.cwyMasterLo)) (a5 : Allows K (.one (.reg Reg.cwyStatus))) (a6 : Allows K (.regs Reg.cwyPosLo (Reg.cwyPosLo + 512))) :
    Evolves K s (State.electionRegs x g) := by
  unfold State.electionRegs
  extract_lets s1 s2
  have h1 : Evolves K s s1 := State.wr64_changes _ _ (State.wrF_changes _ _ _ _ (State.wrB_changes _ _ _ (State.wrF_changes _ _ _ _
    (State.wrB_changes _ _ _ h a5) a5) a5) a5) a4
  have h2 : Evolves K s s2 := State.wr_changes _ _ (State.wr_changes _ _ h1 a3) a2
  apply State.trackRestart_changes <;> with_reducible first | assumption | skip
  refine Evolves.foldl_mem (fun t i hi ht => ?_) ?_
  · have := List.mem_range.mp hi
    exact State.wr64_changes _ _ ht (a6.pairInRegs (by omega))
  · exact h2

theorem State.electionSettle_changes {K : List Foot} {s x : State} (seg) (h : Evolves K s x) (a0 : Allows K .events) (a1 : Allows K (.one .cwy)) (a2 : Allows K (.regs Reg.cwySum0 (Reg.cwySum0 + 2048))) (a3 : Allows K (.pair Reg.cwyMasterLo)) (a4 : Allows K (.one (.reg Reg.cwyStatus))) (a5 : Allows K (.one (.reg Reg.clkStatus))) (a6 : Allows K (.one (.reg Reg.clkCorr))) (a7 : Allows K (.pair Reg.cwyFlags)) (a8 : Allows K (.one (.reg Reg.cwyRefuse))) (a9 : Allows K (.regs Reg.cwyPosLo (Reg.cwyPosLo + 512))) (a10 : Allows K (.one .plan)) (a11 : Allows K (.one (.reg Reg.cwyPathDelay))) (a12 : Allows K (.one (.reg Reg.cwyPathLat))) :
    Evolves K s (State.electionSettle x seg) := by
  unfold State.electionSettle
  repeat' (first | with_reducible refine fun _ => ?_ | lift_lets | (with_reducible intro y; first | (refine Evolves.cut (K := K) (s := s) (y := y) ?_ ?_ <;> first | (clear_value y; with_reducible intro hy) | simp -zeta -zetaHave only [y]) | (simp -zeta -zetaHave only [y]; clear y) | (clear_value y; clear y)) | with_reducible (first | exact h | assumption | apply State.tooMany_changes | apply State.topoPost_changes | apply State.pathMoved_changes | apply State.setRole_changes | apply State.electionRegs_changes | apply Evolves.ite) | (split))
  all_goals (with_reducible first | assumption | exact a0.vectorOfEvents | exact a0.logOfEvents | exact a0.evrPairOfEvents | exact a0.evrOfEvents | exact a0.vectorsOfEvents | exact a0.evrStatusOfEvents | exact a0.evrDropOfEvents | exact a0.evrCommitOfEvents | exact a0.evrLogOfEvents | exact a0.evrLogBseqOfEvents | exact a2.inRegs (by decide) | exact a2.pairInRegs (by decide) | exact a2.regsInRegs (by decide) | exact a3.fst | exact a3.snd | exact a7.fst | exact a7.snd | exact a9.inRegs (by decide) | exact a9.pairInRegs (by decide) | exact a9.regsInRegs (by decide))

theorem State.portUp_changes {K : List Foot} {s x : State} (p) (h : Evolves K s x) (a0 : Allows K (.one .cwy)) (a1 : Allows K (.one (.reg Reg.cwyStatus))) :
    Evolves K s (State.portUp x p) := by
  unfold State.portUp
  repeat' (first | with_reducible refine fun _ => ?_ | lift_lets | (with_reducible intro y; first | (refine Evolves.cut (K := K) (s := s) (y := y) ?_ ?_ <;> first | (clear_value y; with_reducible intro hy) | simp -zeta -zetaHave only [y]) | (simp -zeta -zetaHave only [y]; clear y) | (clear_value y; clear y)) | with_reducible (first | exact h | assumption | apply State.modPort_changes | apply State.setPort_changes))
  all_goals (with_reducible first | assumption)

theorem State.portDrain_changes {K : List Foot} {s x : State} (p) (h : Evolves K s x) (a0 : Allows K (.one .cwy)) :
    Evolves K s (State.portDrain x p) := by
  unfold State.portDrain
  repeat' (first | with_reducible refine fun _ => ?_ | lift_lets | (with_reducible intro y; first | (refine Evolves.cut (K := K) (s := s) (y := y) ?_ ?_ <;> first | (clear_value y; with_reducible intro hy) | simp -zeta -zetaHave only [y]) | (simp -zeta -zetaHave only [y]; clear y) | (clear_value y; clear y)) | with_reducible (first | exact h | assumption | apply State.bufferFree_changes | apply State.modPort_changes) | (split))
  all_goals (with_reducible first | assumption)

theorem State.slewEnd_changes {K : List Foot} {s x : State} (h : Evolves K s x) (a0 : Allows K (.one .cwy)) :
    Evolves K s (State.slewEnd x) := by
  unfold State.slewEnd
  try simp -zeta -zetaHave only [State.fold_cwy]
  repeat' (first | with_reducible refine fun _ => ?_ | lift_lets | (with_reducible intro y; first | (refine Evolves.cut (K := K) (s := s) (y := y) ?_ ?_ <;> first | (clear_value y; with_reducible intro hy) | simp -zeta -zetaHave only [y]) | (simp -zeta -zetaHave only [y]; clear y) | (clear_value y; clear y)) | with_reducible (first | exact h | apply State.putCwy_changes))
  all_goals (with_reducible first | assumption)

theorem State.portStep_changes {K : List Foot} {s x : State} (p) (old) (new) (h : Evolves K s x) (a0 : Allows K (.one (.reg Reg.cwyStatus))) :
    Evolves K s (State.portStep x p old new) := by
  unfold State.portStep
  repeat' (first | with_reducible refine fun _ => ?_ | with_reducible (first | exact h | apply State.setPort_changes | apply Evolves.ite))
  all_goals (with_reducible first | assumption)

theorem State.portDown_changes {K : List Foot} {s x : State} (p) (h : Evolves K s x) (a0 : Allows K (.one .cwy)) (a1 : Allows K (.one (.reg Reg.cwyStatus))) :
    Evolves K s (State.portDown x p) := by
  unfold State.portDown
  repeat' (first | with_reducible refine fun _ => ?_ | with_reducible (first | exact h | apply State.portStop_changes | apply State.setPort_changes))
  all_goals (with_reducible first | assumption)

theorem State.linkLoss_changes {K : List Foot} {s x : State} (p) (h : Evolves K s x) (a0 : Allows K .events) (a1 : Allows K (.pair Reg.cwyFlags)) (a2 : Allows K (.one .cwy)) (a3 : Allows K (.one (.reg Reg.cwyStatus))) :
    Evolves K s (State.linkLoss x p) := by
  unfold State.linkLoss
  repeat' (first | with_reducible refine fun _ => ?_ | with_reducible (first | exact h | apply State.post_changes | apply State.raise_changes | apply State.portDown_changes | apply Evolves.ite))
  all_goals (with_reducible first | assumption | exact a0.vectorOfEvents | exact a0.logOfEvents | exact a0.evrPairOfEvents | exact a0.evrOfEvents | exact a0.vectorsOfEvents | exact a0.evrStatusOfEvents | exact a0.evrDropOfEvents | exact a0.evrCommitOfEvents | exact a0.evrLogOfEvents | exact a0.evrLogBseqOfEvents | exact a1.fst | exact a1.snd)

theorem State.forward_changes {K : List Foot} {s x : State} (p) (x') (h : Evolves K s x) (a0 : Allows K (.one .cwy)) :
    Evolves K s (State.forward x p x') := by
  unfold State.forward
  repeat' (first | with_reducible refine fun _ => ?_ | lift_lets | (with_reducible intro y; first | (refine Evolves.cut (K := K) (s := s) (y := y) ?_ ?_ <;> first | (clear_value y; with_reducible intro hy) | simp -zeta -zetaHave only [y]) | (simp -zeta -zetaHave only [y]; clear y) | (clear_value y; clear y)) | with_reducible (first | exact h | assumption | apply State.portDrain_changes | apply State.modPort_changes | apply State.bufferFree_changes | apply Evolves.ite) | (split))
  all_goals (with_reducible first | assumption)

theorem State.seqTrack_changes {K : List Foot} {s x : State} (x') (h : Evolves K s x) (a0 : Allows K (.pair Reg.cwyFlags)) (a1 : Allows K (.one .cwy)) :
    Evolves K s (State.seqTrack x x') := by
  unfold State.seqTrack
  try simp -zeta -zetaHave only [State.fold_cwy]
  repeat' (first | with_reducible refine fun _ => ?_ | lift_lets | (with_reducible intro y; first | (refine Evolves.cut (K := K) (s := s) (y := y) ?_ ?_ <;> first | (clear_value y; with_reducible intro hy) | simp -zeta -zetaHave only [y]) | (simp -zeta -zetaHave only [y]; clear y) | (clear_value y; clear y)) | with_reducible (first | exact h | assumption | apply State.raiseIf_changes | apply State.putCwy_changes) | (split))
  all_goals (with_reducible first | assumption | exact a0.fst | exact a0.snd)

theorem State.cwReceive_changes {K : List Foot} {s x : State} (p) (c) (type) (f : State → State) (h : Evolves K s x) (a0 : Allows K (.one .cwy))
    (a1 : Allows K (.pair Reg.cwyFlags)) (hf : ∀ t, Evolves K s t → Evolves K s (f t)) : Evolves K s (State.cwReceive x p c type f) := by
  unfold State.cwReceive
  refine Evolves.ite (fun _ => ?_) (fun _ => h)
  extract_lets s1
  have h1 : Evolves K s s1 := by
    apply State.modPort_changes <;> with_reducible assumption
  clear_value s1
  refine Evolves.ite (fun _ => ?_) (fun _ => Evolves.ite (fun _ => ?_) (fun _ => h))
  · apply State.bufferFree_changes <;> with_reducible assumption
  · apply State.forward_changes <;> with_reducible first | assumption | skip
    refine hf _ ?_
    apply State.seqTrack_changes <;> with_reducible assumption

theorem State.sumStore_changes {K : List Foot} {s x : State} (pos) (plan) (l) (hl : l.length = 3) (h : Evolves K s x) (a0 : Allows K (.one (.reg (sumEntry pos)))) (a1 : Allows K (.regs (sumEntry pos) (sumEntry pos + 32))) :
    Evolves K s (State.sumStore x pos plan l) := by
  unfold State.sumStore
  refine State.wr_changes _ _ (Evolves.foldl_mem (fun t p hp ht => ?_) h) a0
  have hi : p.2 < 3 := by
    have := (List.mem_zipIdx hp).2.1
    omega
  exact State.wr64_changes _ _ ht (a1.pairInRegs (by omega))

theorem State.sumPart_changes {K : List Foot} {s x : State} (pos) (p) (h : Evolves K s x) (a0 : Allows K (.one (.reg (sumEntry pos)))) (a1 : Allows K (.regs (sumEntry pos) (sumEntry pos + 32))) (a2 : Allows K (.one .cwy)) :
    Evolves K s (State.sumPart x pos p).1 := by
  unfold State.sumPart
  extract_lets l full keep src s1
  have h1 : Evolves K s s1 := State.putCwy_changes _ h a2
  by_cases hf : full = true
  · rw [if_pos hf]
    have hl : l.length = 3 := by simpa [full] using hf
    exact State.sumStore_changes _ _ _ hl h1 a0 a1
  · rw [if_neg hf]
    exact h1

theorem State.ownEffect_changes {K : List Foot} {s x : State} (m) (seq) (h : Evolves K s x) (a0 : Allows K .seqs) (a1 : Allows K (.one .plan)) (a2 : Allows K .clus) (a3 : Allows K (.one .cwy)) (a4 : Allows K (.regs Reg.cwySum0 (Reg.cwySum0 + 2048))) :
    Evolves K s (State.ownEffect x m seq) := by
  unfold State.ownEffect
  split
  · apply State.setExt_changes <;> with_reducible assumption
  · exact State.putPlan_changes _ h a1
  · have hp : x.rdF Reg.cwyStatus 21 16 < 64 := Nat.mod_lt _ (by decide)
    exact State.sumPart_changes _ _ h (a4.inRegs (by unfold sumEntry; omega)) (a4.regsInRegs (by unfold sumEntry; omega)) a3
  · exact h

theorem State.sendOut_changes {K : List Foot} {s x : State} (p) (i) (m) (real) (h : Evolves K s x) (a0 : Allows K (.one .cwy)) (a1 : Allows K .seqs) (a2 : Allows K (.one .plan)) (a3 : Allows K .clus) (a4 : Allows K (.regs Reg.cwySum0 (Reg.cwySum0 + 2048))) :
    Evolves K s (State.sendOut x p i m real) := by
  unfold State.sendOut
  try simp -zeta -zetaHave only [State.fold_cwy]
  repeat' (first | with_reducible refine fun _ => ?_ | lift_lets | (with_reducible intro y; first | (refine Evolves.cut (K := K) (s := s) (y := y) ?_ ?_ <;> first | (clear_value y; with_reducible intro hy) | simp -zeta -zetaHave only [y]) | (simp -zeta -zetaHave only [y]; clear y) | (clear_value y; clear y)) | with_reducible (first | exact h | assumption | apply State.sendPurge_changes | apply State.modPort_changes | apply State.ownEffect_changes | apply State.putCwy_changes | apply Evolves.ite) | (split))
  all_goals (with_reducible first | assumption | exact a1.seqOf | exact a3.cluOf | exact a4.inRegs (by decide) | exact a4.pairInRegs (by decide) | exact a4.regsInRegs (by decide))

theorem State.cellInject_changes {K : List Foot} {s x : State} (p) (h : Evolves K s x) (a0 : Allows K (.one .cwy)) (a1 : Allows K .seqs) (a2 : Allows K (.one .plan)) (a3 : Allows K .clus) (a4 : Allows K (.regs Reg.cwySum0 (Reg.cwySum0 + 2048))) :
    Evolves K s (State.cellInject x p) := by
  unfold State.cellInject
  repeat' (first | with_reducible refine fun _ => ?_ | with_reducible (first | exact h | apply State.sendOut_changes | apply Evolves.ite) | (split))
  all_goals (with_reducible first | assumption | exact a1.seqOf | exact a3.cluOf | exact a4.inRegs (by decide) | exact a4.pairInRegs (by decide) | exact a4.regsInRegs (by decide))

theorem State.cwSummaryDo_changes {K : List Foot} {s x : State} (c) (h : Evolves K s x) (a0 : Allows K (.one (.reg (sumEntry (Cell.fld c 9 4))))) (a1 : Allows K (.regs (sumEntry (Cell.fld c 9 4)) (sumEntry (Cell.fld c 9 4) + 32))) (a2 : Allows K (.one .cwy)) (a3 : Allows K .events) :
    Evolves K s (State.cwSummaryDo x c) := by
  unfold State.cwSummaryDo
  extract_lets o r
  have h1 : Evolves K s r.1 := State.sumPart_changes _ _ h a0 a1 a2
  clear_value r
  exact Evolves.ite (fun _ => State.post_changes _ _ _ h1 a3) (fun _ => h1)

theorem State.linkCal_changes {K : List Foot} {s x : State} (p) (meas) (lat) (h : Evolves K s x) (a0 : Allows K .events) (a1 : Allows K (.pair Reg.cwyFlags)) (a2 : Allows K (.one (.reg Reg.cwyRefuse))) (a3 : Allows K (.one (.reg Reg.cwyStatus))) (a4 : Allows K (.one .cwy)) (a5 : Allows K (.one (.reg (calReg p)))) :
    Evolves K s (State.linkCal x p meas lat) := by
  unfold State.linkCal
  try simp -zeta -zetaHave only [State.fold_cwy]
  repeat' (first | with_reducible refine fun _ => ?_ | lift_lets | (with_reducible intro y; first | (refine Evolves.cut (K := K) (s := s) (y := y) ?_ ?_ <;> first | (clear_value y; with_reducible intro hy) | simp -zeta -zetaHave only [y]) | (simp -zeta -zetaHave only [y]; clear y) | (clear_value y; clear y)) | with_reducible (first | exact h | assumption | apply State.portRefuse_changes | apply State.modPort_changes | apply State.wr_changes | apply State.portUp_changes | apply State.putCwy_changes | apply Evolves.ite) | (split))
  all_goals (with_reducible first | assumption | exact a0.vectorOfEvents | exact a0.logOfEvents | exact a0.evrPairOfEvents | exact a0.evrOfEvents | exact a0.vectorsOfEvents | exact a0.evrStatusOfEvents | exact a0.evrDropOfEvents | exact a0.evrCommitOfEvents | exact a0.evrLogOfEvents | exact a0.evrLogBseqOfEvents | exact a1.fst | exact a1.snd)

theorem State.cwUserDo_changes {K : List Foot} {s x : State} (x') (h : Evolves K s x) (a0 : Allows K .events) (a1 : Allows K (.one (.reg Reg.cwyUser))) :
    Evolves K s (State.cwUserDo x x') := by
  unfold State.cwUserDo
  repeat' (first | with_reducible refine fun _ => ?_ | with_reducible (first | exact h | apply State.post_changes | apply State.wr_changes))
  all_goals (with_reducible first | assumption | exact a0.vectorOfEvents | exact a0.logOfEvents | exact a0.evrPairOfEvents | exact a0.evrOfEvents | exact a0.vectorsOfEvents | exact a0.evrStatusOfEvents | exact a0.evrDropOfEvents | exact a0.evrCommitOfEvents | exact a0.evrLogOfEvents | exact a0.evrLogBseqOfEvents)

theorem State.sendSummary_changes {K : List Foot} {s x : State} (h : Evolves K s x) (a0 : Allows K (.one .cwy)) :
    Evolves K s (State.sendSummary x) := by
  unfold State.sendSummary
  repeat' (first | with_reducible refine fun _ => ?_ | lift_lets | (with_reducible intro y; first | (refine Evolves.cut (K := K) (s := s) (y := y) ?_ ?_ <;> first | (clear_value y; with_reducible intro hy) | simp -zeta -zetaHave only [y]) | (simp -zeta -zetaHave only [y]; clear y) | (clear_value y; clear y)) | with_reducible (first | exact h | assumption | apply State.sendMsgQ_changes) | (split))
  all_goals (with_reducible first | assumption)

theorem State.freezeSummary_changes {K : List Foot} {s x : State} (h : Evolves K s x) (a0 : Allows K (.pair Reg.flSumIncLo)) (a1 : Allows K (.pair Reg.flSumUnrepLo)) (a2 : Allows K (.pair Reg.flSumFailLo)) :
    Evolves K s (State.freezeSummary x) := by
  unfold State.freezeSummary
  repeat' (first | with_reducible refine fun _ => ?_ | lift_lets | (with_reducible intro y; first | (refine Evolves.cut (K := K) (s := s) (y := y) ?_ ?_ <;> first | (clear_value y; with_reducible intro hy) | simp -zeta -zetaHave only [y]) | (simp -zeta -zetaHave only [y]; clear y) | (clear_value y; clear y)) | with_reducible (first | exact h | assumption | apply State.wr64_changes) | (split))
  all_goals (with_reducible first | assumption | exact a0.fst | exact a0.snd | exact a1.fst | exact a1.snd | exact a2.fst | exact a2.snd)

theorem State.planEnd_changes {K : List Foot} {s x : State} (h : Evolves K s x) (a0 : Allows K .completion) (a1 : Allows K (.one .cwy)) (a2 : Allows K (.pair Reg.flSumIncLo)) (a3 : Allows K (.pair Reg.flSumUnrepLo)) (a4 : Allows K (.pair Reg.flSumFailLo)) (a5 : Allows K (.one (.reg Reg.plnState))) (a6 : Allows K (.one (.reg Reg.plnResult))) :
    Evolves K s (State.planEnd x) := by
  unfold State.planEnd
  repeat' (first | with_reducible refine fun _ => ?_ | lift_lets | (with_reducible intro y; first | (refine Evolves.cut (K := K) (s := s) (y := y) ?_ ?_ <;> first | (clear_value y; with_reducible intro hy) | simp -zeta -zetaHave only [y]) | (simp -zeta -zetaHave only [y]; clear y) | (clear_value y; clear y)) | with_reducible (first | exact h | assumption | apply State.bgEnd_changes | apply State.sendSummary_changes | apply State.freezeSummary_changes | apply State.wrF_changes | apply Evolves.ite) | (split))
  all_goals (with_reducible first | assumption | exact a0.vectorOfCompletion | exact a0.ringsOfCompletion | exact a0.hostMemOfCompletion | exact a0.vectorsOfCompletion | exact a0.cplTailOfCompletion | exact a0.cplDropOfCompletion | exact a2.fst | exact a2.snd | exact a3.fst | exact a3.snd | exact a4.fst | exact a4.snd)

theorem State.cwJumpDo_changes {K : List Foot} {s x : State} (x') (h : Evolves K s x) (a0 : Allows K (.cluPair Reg.plnFlags)) (a1 : Allows K (.cluReg Reg.plnJump)) (a2 : Allows K .lanes) (a3 : Allows K (.cluReg Reg.plnJumpCnt)) :
    Evolves K s (State.cwJumpDo x x') := by
  unfold State.cwJumpDo
  repeat' (first | with_reducible refine fun _ => ?_ | with_reducible (first | exact h | apply State.jumpAll_changes))
  all_goals (with_reducible first | assumption | exact a0.pairClu (by decide) | exact a0.cluFst | exact a0.cluSnd | exact a0.cluFst.ofClu (by decide) | exact a0.cluSnd.ofClu (by decide) | exact a1.ofClu (by decide) | exact a2.laneOf | exact a3.ofClu (by decide))

theorem State.cwStartDo_changes {K : List Foot} {s x : State} (x') (h : Evolves K s x) (a0 : Allows K (.one .plan)) (a1 : Allows K (.pair Reg.cwyFlags)) :
    Evolves K s (State.cwStartDo x x') := by
  unfold State.cwStartDo
  try simp -zeta -zetaHave only [State.fold_plan]
  repeat' (first | with_reducible refine fun _ => ?_ | lift_lets | (with_reducible intro y; first | (refine Evolves.cut (K := K) (s := s) (y := y) ?_ ?_ <;> first | (clear_value y; with_reducible intro hy) | simp -zeta -zetaHave only [y]) | (simp -zeta -zetaHave only [y]; clear y) | (clear_value y; clear y)) | with_reducible (first | exact h | apply State.raise_changes | apply State.putPlan_changes | apply Evolves.ite))
  all_goals (with_reducible first | assumption | exact a1.fst | exact a1.snd)

theorem State.electionCell_changes {K : List Foot} {s x : State} (h : Evolves K s x) (a0 : Allows K (.one .cwy)) :
    Evolves K s (State.electionCell x) := by
  unfold State.electionCell
  try simp -zeta -zetaHave only [State.fold_cwy]
  repeat' (first | with_reducible refine fun _ => ?_ | lift_lets | (with_reducible intro y; first | (refine Evolves.cut (K := K) (s := s) (y := y) ?_ ?_ <;> first | (clear_value y; with_reducible intro hy) | simp -zeta -zetaHave only [y]) | (simp -zeta -zetaHave only [y]; clear y) | (clear_value y; clear y)) | with_reducible (first | exact h | assumption | apply State.putCwy_changes | apply Evolves.ite) | (split))
  all_goals (with_reducible first | assumption)

theorem State.portCredit_changes {K : List Foot} {s x : State} (p) (n) (h : Evolves K s x) (a0 : Allows K (.one .cwy)) :
    Evolves K s (State.portCredit x p n) := by
  unfold State.portCredit
  repeat' (first | with_reducible refine fun _ => ?_ | lift_lets | (with_reducible intro y; first | (refine Evolves.cut (K := K) (s := s) (y := y) ?_ ?_ <;> first | (clear_value y; with_reducible intro hy) | simp -zeta -zetaHave only [y]) | (simp -zeta -zetaHave only [y]; clear y) | (clear_value y; clear y)) | with_reducible (first | exact h | assumption | apply State.portDrain_changes | apply State.modPort_changes | apply Evolves.ite))
  all_goals (with_reducible first | assumption)

theorem State.identExchange_changes {K : List Foot} {s x : State} (p) (peer) (h : Evolves K s x) (a0 : Allows K (.pair (peerReg p))) (a1 : Allows K (.one .cwy)) (a2 : Allows K (.one (.reg Reg.cwyStatus))) (a3 : Allows K .events) (a4 : Allows K (.pair Reg.cwyFlags)) (a5 : Allows K (.one (.reg Reg.cwyRefuse))) :
    Evolves K s (State.identExchange x p peer) := by
  unfold State.identExchange
  repeat' (first | with_reducible refine fun _ => ?_ | lift_lets | (with_reducible intro y; first | (refine Evolves.cut (K := K) (s := s) (y := y) ?_ ?_ <;> first | (clear_value y; with_reducible intro hy) | simp -zeta -zetaHave only [y]) | (simp -zeta -zetaHave only [y]; clear y) | (clear_value y; clear y)) | with_reducible (first | exact h | assumption | apply State.wr64_changes | apply State.modPort_changes | apply State.setPort_changes | apply State.portRefuse_changes | apply Evolves.ite) | (split))
  all_goals (with_reducible first | assumption | exact a0.fst | exact a0.snd | exact a3.vectorOfEvents | exact a3.logOfEvents | exact a3.evrPairOfEvents | exact a3.evrOfEvents | exact a3.vectorsOfEvents | exact a3.evrStatusOfEvents | exact a3.evrDropOfEvents | exact a3.evrCommitOfEvents | exact a3.evrLogOfEvents | exact a3.evrLogBseqOfEvents | exact a4.fst | exact a4.snd)


end Sys2Proof.Machine
end

