-- ==== Sys2Proof/Laws/FramePower.lean ====
section
/-! SUPPORT. What each operation of Machine/Power.lean can change: from a state that has changed only parts of the footprint `K`,
the operation changes only parts of `K`, where `K` allows the operation's own footprint. -/

set_option Elab.async false
set_option linter.all false

namespace Sys2Proof.Machine

theorem State.setPhase_changes {K : List Foot} {s x : State} (n) (h : Evolves K s x) (a0 : Allows K (.one (.reg Reg.bootStatus))) :
    Evolves K s (State.setPhase x n) := by
  unfold State.setPhase
  repeat' (first | with_reducible refine fun _ => ?_ | with_reducible (first | exact h | apply State.wrF_changes))
  all_goals (with_reducible first | assumption)

theorem warmChans_wf {t : Tbl Chan} (h : Tbl.wf (fun _ => chanReset) t = true) :
    Tbl.wf (fun _ => chanReset) (t.filterMap (fun e => if e.2.warm = chanReset then none else some (e.1, e.2.warm))) = true := by
  refine Tbl.wf_filterMap _ _ (fun e e' h => ?_) (fun e e' h => ?_) h
  · split at h <;> cases h
    rfl
  · split at h <;> cases h
    assumption

theorem warmChansIf_wf (warm : Bool) {t : Tbl Chan} (h : Tbl.wf (fun _ => chanReset) t = true) :
    Tbl.wf (fun _ => chanReset) (if warm then t.filterMap (fun e => if e.2.warm = chanReset then none else some (e.1, e.2.warm)) else []) = true := by
  cases warm
  · rfl
  · exact warmChans_wf h

theorem warmRegs_wf (warm : Bool) {t : Tbl W32} (h : Tbl.wf resetWord t = true) :
    Tbl.wf resetWord (if warm then t.filter (fun e => keptReg e.1) else []) = true := by
  cases warm
  · rfl
  · exact Tbl.wf_filter _ _ h

theorem State.volatileReset_changes {K : List Foot} {s x : State} (warm link) (h : Evolves K s x) (a0 : Allows K .allRegs) (a1 : Allows K (.one .shadows)) (a2 : Allows K (.one .boot)) (a3 : Allows K (.one .clk)) (a4 : Allows K (.one .evr)) (a5 : Allows K (.one .rings)) (a6 : Allows K (.one .hostMem)) (a7 : Allows K (.one .msix)) (a8 : Allows K (.one .vectors)) (a9 : Allows K (.one .reads)) (a10 : Allows K (.one .macros)) (a11 : Allows K (.one .march)) (a12 : Allows K (.one .refills)) (a13 : Allows K (.one .timing)) (a14 : Allows K .failCnts) (a15 : Allows K (.one .cal)) (a16 : Allows K (.one .pwr)) (a17 : Allows K .seqs) (a18 : Allows K .lanes) (a19 : Allows K .clus) (a20 : Allows K .chans) (a21 : Allows K (.one .plan)) (a22 : Allows K (.one .snd)) (a23 : Allows K (.one .cwy)) :
    Evolves K s (State.volatileReset x warm link) := by
  unfold State.volatileReset
  generalize hs1 : (State.mk _ _ _ _ _ _ _ _ _ _ _ _ _ _ _ _ _ _ _) = s1
  have h1 : Evolves K s s1 := by
    refine h.steps [.allRegs, .one .shadows, .one .boot, .one .clk, .one .evr, .one .rings, .one .msix, .one .vectors, .one .reads, .one .macros, .one .march, .one .refills, .one .timing, .failCnts, .one .cal, .one .pwr, .seqs, .lanes, .clus, .chans, .one .plan, .one .snd, .one .cwy] (by simp [a0, a1, a2, a3, a4, a5, a6, a7, a8, a9, a10, a11, a12, a13, a14, a15, a16, a17, a18, a19, a20, a21, a22, a23]) (fun p hp => ?_)
      (by subst hs1; exact State.canonical_step (h1 := warmRegs_wf warm) (h4 := fun _ => rfl) (h5 := fun _ => rfl) (h6 := fun _ => rfl) (h7 := fun _ => rfl) (h8 := warmChansIf_wf warm) (h9 := fun _ => rfl))
    subst hs1
    cases p with
    | pending => exact rfl
    | freeCtr => exact rfl
    | reg o => exact absurd (hp (.allRegs) (by simp)) (by simp [Foot.covers])
    | shadows => exact absurd (hp (.one .shadows) (by simp)) (by simp [Foot.covers])
    | boot => exact absurd (hp (.one .boot) (by simp)) (by simp [Foot.covers])
    | clk => exact absurd (hp (.one .clk) (by simp)) (by simp [Foot.covers])
    | evr => exact absurd (hp (.one .evr) (by simp)) (by simp [Foot.covers])
    | vectors => exact absurd (hp (.one .vectors) (by simp)) (by simp [Foot.covers])
    | rings => exact absurd (hp (.one .rings) (by simp)) (by simp [Foot.covers])
    | hostMem => exact rfl
    | msix => exact absurd (hp (.one .msix) (by simp)) (by simp [Foot.covers])
    | reads => exact absurd (hp (.one .reads) (by simp)) (by simp [Foot.covers])
    | flash o => exact rfl
    | keys => exact ⟨rfl, rfl⟩
    | rollback => exact rfl
    | flashPort => exact ⟨rfl, rfl, rfl, rfl⟩
    | macros => exact absurd (hp (.one .macros) (by simp)) (by simp [Foot.covers])
    | march => exact absurd (hp (.one .march) (by simp)) (by simp [Foot.covers])
    | refills => exact absurd (hp (.one .refills) (by simp)) (by simp [Foot.covers])
    | timing => exact absurd (hp (.one .timing) (by simp)) (by simp [Foot.covers])
    | dram o => exact rfl
    | failCnt o => exact absurd (hp (.failCnts) (by simp)) (by simp [Foot.covers])
    | cal => exact absurd (hp (.one .cal) (by simp)) (by simp [Foot.covers])
    | pwr => exact absurd (hp (.one .pwr) (by simp)) (by simp [Foot.covers])
    | seq o => exact absurd (hp (.seqs) (by simp)) (by simp [Foot.covers])
    | lane o => exact absurd (hp (.lanes) (by simp)) (by simp [Foot.covers])
    | clu o => exact absurd (hp (.clus) (by simp)) (by simp [Foot.covers])
    | chan o => exact absurd (hp (.chans) (by simp)) (by simp [Foot.covers])
    | plan => exact absurd (hp (.one .plan) (by simp)) (by simp [Foot.covers])
    | snd => exact absurd (hp (.one .snd) (by simp)) (by simp [Foot.covers])
    | cwy => exact absurd (hp (.one .cwy) (by simp)) (by simp [Foot.covers])
  clear hs1
  exact State.wrF_changes _ _ _ _ (State.wrF_changes _ _ _ _ h1 a0.regOfAll) a0.regOfAll

theorem State.powerDown_changes {K : List Foot} {s x : State} (h : Evolves K s x) (a0 : Allows K .allRegs) (a1 : Allows K (.one .boot)) (a2 : Allows K (.one .clk)) (a3 : Allows K (.one .flashPort)) (a4 : Allows K .drams) (a5 : Allows K (.one .shadows)) (a6 : Allows K (.one .evr)) (a7 : Allows K (.one .rings)) (a8 : Allows K (.one .hostMem)) (a9 : Allows K (.one .msix)) (a10 : Allows K (.one .vectors)) (a11 : Allows K (.one .reads)) (a12 : Allows K (.one .macros)) (a13 : Allows K (.one .march)) (a14 : Allows K (.one .refills)) (a15 : Allows K (.one .timing)) (a16 : Allows K .failCnts) (a17 : Allows K (.one .cal)) (a18 : Allows K (.one .pwr)) (a19 : Allows K .seqs) (a20 : Allows K .lanes) (a21 : Allows K .clus) (a22 : Allows K .chans) (a23 : Allows K (.one .plan)) (a24 : Allows K (.one .snd)) (a25 : Allows K (.one .cwy)) :
    Evolves K s (State.powerDown x) := by
  unfold State.powerDown
  have h1 : Evolves K s (x.volatileReset false false) := by
    apply State.volatileReset_changes <;> with_reducible assumption
  generalize x.volatileReset false false = s1 at h1 ⊢
  exact h1.steps [.allRegs, .one .boot, .one .clk, .one .flashPort, .drams] (by simp [a0, a1, a2, a3, a4, a5, a6, a7, a8, a9, a10, a11, a12, a13, a14, a15, a16, a17, a18, a19, a20, a21, a22, a23, a24, a25]) (fun p hp => by
      cases p with
      | pending => exact rfl
      | freeCtr => exact rfl
      | reg o => exact absurd (hp (.allRegs) (by simp)) (by simp [Foot.covers])
      | shadows => exact rfl
      | boot => exact absurd (hp (.one .boot) (by simp)) (by simp [Foot.covers])
      | clk => exact absurd (hp (.one .clk) (by simp)) (by simp [Foot.covers])
      | evr => exact rfl
      | vectors => exact ⟨rfl, rfl⟩
      | rings => exact ⟨rfl, rfl, rfl, rfl, rfl⟩
      | hostMem => exact rfl
      | msix => exact rfl
      | reads => exact ⟨rfl, rfl, rfl⟩
      | flash o => exact rfl
      | keys => exact ⟨rfl, rfl⟩
      | rollback => exact rfl
      | flashPort => exact absurd (hp (.one .flashPort) (by simp)) (by simp [Foot.covers])
      | macros => exact rfl
      | march => exact ⟨rfl, rfl⟩
      | refills => exact rfl
      | timing => exact rfl
      | dram o => exact absurd (hp (.drams) (by simp)) (by simp [Foot.covers])
      | failCnt o => exact rfl
      | cal => exact rfl
      | pwr => exact rfl
      | seq o => exact rfl
      | lane o => exact rfl
      | clu o => exact rfl
      | chan o => exact rfl
      | plan => exact rfl
      | snd => exact rfl
      | cwy => exact rfl) (State.canonical_step (h1 := fun _ => rfl) (h3 := fun _ => rfl))

theorem State.warmReset_changes {K : List Foot} {s x : State} (link) (h : Evolves K s x) (a0 : Allows K .allRegs) (a1 : Allows K (.one .shadows)) (a2 : Allows K (.one .boot)) (a3 : Allows K (.one .clk)) (a4 : Allows K (.one .evr)) (a5 : Allows K (.one .rings)) (a6 : Allows K (.one .hostMem)) (a7 : Allows K (.one .msix)) (a8 : Allows K (.one .vectors)) (a9 : Allows K (.one .reads)) (a10 : Allows K (.one .macros)) (a11 : Allows K (.one .march)) (a12 : Allows K (.one .refills)) (a13 : Allows K (.one .timing)) (a14 : Allows K .failCnts) (a15 : Allows K (.one .cal)) (a16 : Allows K (.one .pwr)) (a17 : Allows K .seqs) (a18 : Allows K .lanes) (a19 : Allows K .clus) (a20 : Allows K .chans) (a21 : Allows K (.one .plan)) (a22 : Allows K (.one .snd)) (a23 : Allows K (.one .cwy)) (a24 : Allows K .log) (a25 : Allows K .vector) :
    Evolves K s (State.warmReset x link) := by
  unfold State.warmReset
  repeat' (first | with_reducible refine fun _ => ?_ | lift_lets | (with_reducible intro y; first | (refine Evolves.cut (K := K) (s := s) (y := y) ?_ ?_ <;> first | (clear_value y; with_reducible intro hy) | simp -zeta -zetaHave only [y]) | (simp -zeta -zetaHave only [y]; clear y) | (clear_value y; clear y)) | with_reducible (first | exact h | assumption | apply State.wrB_changes | apply State.volatileReset_changes | apply State.evrFlush_changes | apply Evolves.ite) | (split))
  all_goals (with_reducible first | assumption | exact a0.regOfAll | exact a0.pairOfAll | exact a0.chRegOfAll | exact a0.chPairOfAll | exact a0.cluRegOfAll | exact a0.cluPairOfAll | exact a0.regsOfAll | exact a17.seqOf | exact a18.laneOf | exact a19.cluOf | exact a20.chanOf | exact a25.vecRegOfVector | exact a25.vectorsOfVector)

theorem State.resetAsserted_changes {K : List Foot} {s x : State} (link) (h : Evolves K s x) (a0 : Allows K .allRegs) (a1 : Allows K (.one .shadows)) (a2 : Allows K (.one .boot)) (a3 : Allows K (.one .clk)) (a4 : Allows K (.one .evr)) (a5 : Allows K (.one .rings)) (a6 : Allows K (.one .hostMem)) (a7 : Allows K (.one .msix)) (a8 : Allows K (.one .vectors)) (a9 : Allows K (.one .reads)) (a10 : Allows K (.one .macros)) (a11 : Allows K (.one .march)) (a12 : Allows K (.one .refills)) (a13 : Allows K (.one .timing)) (a14 : Allows K .failCnts) (a15 : Allows K (.one .cal)) (a16 : Allows K (.one .pwr)) (a17 : Allows K .seqs) (a18 : Allows K .lanes) (a19 : Allows K .clus) (a20 : Allows K .chans) (a21 : Allows K (.one .plan)) (a22 : Allows K (.one .snd)) (a23 : Allows K (.one .cwy)) (a24 : Allows K .log) (a25 : Allows K .vector) :
    Evolves K s (State.resetAsserted x link) := by
  unfold State.resetAsserted
  repeat' (first | with_reducible refine fun _ => ?_ | with_reducible (first | exact h | apply State.warmReset_changes | apply Evolves.ite))
  all_goals (with_reducible first | assumption | exact a0.regOfAll | exact a0.pairOfAll | exact a0.chRegOfAll | exact a0.chPairOfAll | exact a0.cluRegOfAll | exact a0.cluPairOfAll | exact a0.regsOfAll | exact a17.seqOf | exact a18.laneOf | exact a19.cluOf | exact a20.chanOf | exact a25.vecRegOfVector | exact a25.vectorsOfVector)

theorem State.suppliesOk_changes {K : List Foot} {s x : State} (h : Evolves K s x) (a0 : Allows K (.one (.reg Reg.pwrStatus))) (a1 : Allows K (.one (.reg Reg.bootStatus))) :
    Evolves K s (State.suppliesOk x) := by
  unfold State.suppliesOk
  repeat' (first | with_reducible refine fun _ => ?_ | lift_lets | (with_reducible intro y; first | (refine Evolves.cut (K := K) (s := s) (y := y) ?_ ?_ <;> first | (clear_value y; with_reducible intro hy) | simp -zeta -zetaHave only [y]) | (simp -zeta -zetaHave only [y]; clear y) | (clear_value y; clear y)) | with_reducible (first | exact h | assumption | apply State.wrF_changes | apply State.setPhase_changes | apply Evolves.ite) | (split))
  all_goals (with_reducible first | assumption)

theorem State.thermUpdate_changes {K : List Foot} {s x : State} (h : Evolves K s x) (a0 : Allows K (.one (.reg Reg.pwrStatus))) (a1 : Allows K (.one (.reg Reg.pwrTempMax))) :
    Evolves K s (State.thermUpdate x) := by
  unfold State.thermUpdate
  repeat' (first | with_reducible refine fun _ => ?_ | lift_lets | (with_reducible intro y; first | (refine Evolves.cut (K := K) (s := s) (y := y) ?_ ?_ <;> first | (clear_value y; with_reducible intro hy) | simp -zeta -zetaHave only [y]) | (simp -zeta -zetaHave only [y]; clear y) | (clear_value y; clear y)) | with_reducible (first | exact h | assumption | apply State.wrB_changes | apply State.wr_changes | apply Evolves.ite) | (split))
  all_goals (with_reducible first | assumption)

theorem State.heartbeat_changes {K : List Foot} {s x : State} (h : Evolves K s x) (a0 : Allows K (.one .boot)) :
    Evolves K s (State.heartbeat x) := by
  unfold State.heartbeat
  try simp -zeta -zetaHave only [State.fold_boot]
  repeat' (first | with_reducible refine fun _ => ?_ | lift_lets | (with_reducible intro y; first | (refine Evolves.cut (K := K) (s := s) (y := y) ?_ ?_ <;> first | (clear_value y; with_reducible intro hy) | simp -zeta -zetaHave only [y]) | (simp -zeta -zetaHave only [y]; clear y) | (clear_value y; clear y)) | with_reducible (first | exact h | apply State.putBoot_changes))
  all_goals (with_reducible first | assumption)

theorem State.supplyRead_changes {K : List Foot} {s x : State} (r) (h : Evolves K s x) (a0 : Allows K (.one (.reg Reg.pwrStatus))) (a1 : Allows K (.one (.reg Reg.pwrVio))) (a2 : Allows K (.one (.reg Reg.pwrVpl))) (a3 : Allows K (.one (.reg Reg.pwrVph))) (a4 : Allows K (.one (.reg Reg.pwrVin))) :
    Evolves K s (State.supplyRead x r) := by
  unfold State.supplyRead
  repeat' (first | with_reducible refine fun _ => ?_ | lift_lets | (with_reducible intro y; first | (refine Evolves.cut (K := K) (s := s) (y := y) ?_ ?_ <;> first | (clear_value y; with_reducible intro hy) | simp -zeta -zetaHave only [y]) | (simp -zeta -zetaHave only [y]; clear y) | (clear_value y; clear y)) | with_reducible (first | exact h | assumption | apply State.wrF_changes | apply State.wr_changes) | (split))
  all_goals (with_reducible first | assumption)

theorem State.coldStart_changes {K : List Foot} {s x : State} (supplies) (h : Evolves K s x) (a0 : Allows K (.one .boot)) (a1 : Allows K (.one .clk)) (a2 : Allows K (.one .flashPort)) (a3 : Allows K .drams) (a4 : Allows K .allRegs) (a5 : Allows K (.one .shadows)) (a6 : Allows K (.one .evr)) (a7 : Allows K (.one .rings)) (a8 : Allows K (.one .hostMem)) (a9 : Allows K (.one .msix)) (a10 : Allows K (.one .vectors)) (a11 : Allows K (.one .reads)) (a12 : Allows K (.one .macros)) (a13 : Allows K (.one .march)) (a14 : Allows K (.one .refills)) (a15 : Allows K (.one .timing)) (a16 : Allows K .failCnts) (a17 : Allows K (.one .cal)) (a18 : Allows K (.one .pwr)) (a19 : Allows K .seqs) (a20 : Allows K .lanes) (a21 : Allows K .clus) (a22 : Allows K .chans) (a23 : Allows K (.one .plan)) (a24 : Allows K (.one .snd)) (a25 : Allows K (.one .cwy)) :
    Evolves K s (State.coldStart x supplies) := by
  unfold State.coldStart
  generalize List.range 512 = lr
  extract_lets s1 src1 src2 src3 src4 s2
  have h1 : Evolves K s s1 := by
    apply State.volatileReset_changes <;> with_reducible assumption
  clear_value s1
  have h2 : Evolves K s s2 :=
    h1.steps [.one .boot, .one .clk, .one .flashPort, .drams] (by simp [a0, a1, a2, a3, a4, a5, a6, a7, a8, a9, a10, a11, a12, a13, a14, a15, a16, a17, a18, a19, a20, a21, a22, a23, a24, a25]) (fun p hp => by
      cases p with
      | pending => exact rfl
      | freeCtr => exact rfl
      | reg o => exact rfl
      | shadows => exact rfl
      | boot => exact absurd (hp (.one .boot) (by simp)) (by simp [Foot.covers])
      | clk => exact absurd (hp (.one .clk) (by simp)) (by simp [Foot.covers])
      | evr => exact rfl
      | vectors => exact ⟨rfl, rfl⟩
      | rings => exact ⟨rfl, rfl, rfl, rfl, rfl⟩
      | hostMem => exact rfl
      | msix => exact rfl
      | reads => exact ⟨rfl, rfl, rfl⟩
      | flash o => exact rfl
      | keys => exact ⟨rfl, rfl⟩
      | rollback => exact rfl
      | flashPort => exact absurd (hp (.one .flashPort) (by simp)) (by simp [Foot.covers])
      | macros => exact rfl
      | march => exact ⟨rfl, rfl⟩
      | refills => exact rfl
      | timing => exact rfl
      | dram o => exact absurd (hp (.drams) (by simp)) (by simp [Foot.covers])
      | failCnt o => exact rfl
      | cal => exact rfl
      | pwr => exact rfl
      | seq o => exact rfl
      | lane o => exact rfl
      | clu o => exact rfl
      | chan o => exact rfl
      | plan => exact rfl
      | snd => exact rfl
      | cwy => exact rfl) (State.canonical_step (h3 := fun _ => rfl))
  clear_value s2
  exact Evolves.foldl (fun t n ht => State.wr_changes _ _ ht a4.regOfAll) (State.wrF_changes _ _ _ _ h2 a4.regOfAll)

theorem State.warmEnd_changes {K : List Foot} {s x : State} (h : Evolves K s x) (a0 : Allows K (.one .boot)) (a1 : Allows K (.one .clk)) (a2 : Allows K (.one .flashPort)) (a3 : Allows K .drams) (a4 : Allows K .allRegs) (a5 : Allows K (.one .shadows)) (a6 : Allows K (.one .evr)) (a7 : Allows K (.one .rings)) (a8 : Allows K (.one .hostMem)) (a9 : Allows K (.one .msix)) (a10 : Allows K (.one .vectors)) (a11 : Allows K (.one .reads)) (a12 : Allows K (.one .macros)) (a13 : Allows K (.one .march)) (a14 : Allows K (.one .refills)) (a15 : Allows K (.one .timing)) (a16 : Allows K .failCnts) (a17 : Allows K (.one .cal)) (a18 : Allows K (.one .pwr)) (a19 : Allows K .seqs) (a20 : Allows K .lanes) (a21 : Allows K .clus) (a22 : Allows K .chans) (a23 : Allows K (.one .plan)) (a24 : Allows K (.one .snd)) (a25 : Allows K (.one .cwy)) :
    Evolves K s (State.warmEnd x) := by
  unfold State.warmEnd
  refine Evolves.ite (fun _ => Evolves.ite (fun _ => ?_) (fun _ => ?_)) (fun _ => h)
  · apply State.coldStart_changes <;> with_reducible assumption
  · refine State.setPhase_changes _ (State.wrB_changes _ _ _ ?_ a4.regOfAll) a4.regOfAll
    exact h.steps [.one .boot, .one .flashPort] (by simp [a0, a1, a2, a3, a4, a5, a6, a7, a8, a9, a10, a11, a12, a13, a14, a15, a16, a17, a18, a19, a20, a21, a22, a23, a24, a25]) (fun p hp => by
      cases p with
      | pending => exact rfl
      | freeCtr => exact rfl
      | reg o => exact rfl
      | shadows => exact rfl
      | boot => exact absurd (hp (.one .boot) (by simp)) (by simp [Foot.covers])
      | clk => exact rfl
      | evr => exact rfl
      | vectors => exact ⟨rfl, rfl⟩
      | rings => exact ⟨rfl, rfl, rfl, rfl, rfl⟩
      | hostMem => exact rfl
      | msix => exact rfl
      | reads => exact ⟨rfl, rfl, rfl⟩
      | flash o => exact rfl
      | keys => exact ⟨rfl, rfl⟩
      | rollback => exact rfl
      | flashPort => exact absurd (hp (.one .flashPort) (by simp)) (by simp [Foot.covers])
      | macros => exact rfl
      | march => exact ⟨rfl, rfl⟩
      | refills => exact rfl
      | timing => exact rfl
      | dram o => exact rfl
      | failCnt o => exact rfl
      | cal => exact rfl
      | pwr => exact rfl
      | seq o => exact rfl
      | lane o => exact rfl
      | clu o => exact rfl
      | chan o => exact rfl
      | plan => exact rfl
      | snd => exact rfl
      | cwy => exact rfl) (fun hc => hc)

theorem haltedSeqs_wf {t : Tbl Seq} (h : Tbl.wf (fun _ => seqReset) t = true) :
    Tbl.wf (fun _ => seqReset) (t.filterMap (fun e => if e.2.halted = seqReset then none else some (e.1, e.2.halted))) = true := by
  refine Tbl.wf_filterMap _ _ (fun e e' h => ?_) (fun e e' h => ?_) h
  · split at h <;> cases h
    rfl
  · split at h <;> cases h
    assumption

theorem State.stopEngines_changes {K : List Foot} {s x : State} (h : Evolves K s x) (a0 : Allows K (.cluReg Reg.ddsStatus)) (a1 : Allows K (.cluReg Reg.acqStatus)) (a2 : Allows K (.chReg Reg.tiaStatus)) (a3 : Allows K .chans) (a4 : Allows K (.chReg Reg.pmuStatus)) (a5 : Allows K (.chReg Reg.peStatus)) (a6 : Allows K (.one (.reg Reg.memStatus))) (a7 : Allows K (.one (.reg Reg.calStatus))) (a8 : Allows K (.one (.reg Reg.sndStatus))) (a9 : Allows K (.one (.reg Reg.plnState))) (a10 : Allows K (.one .march)) (a11 : Allows K (.one .cal)) (a12 : Allows K .seqs) (a13 : Allows K .lanes) (a14 : Allows K .clus) (a15 : Allows K (.one .plan)) (a16 : Allows K (.one .snd)) (a17 : Allows K (.one .cwy)) :
    Evolves K s (State.stopEngines x) := by
  unfold State.stopEngines
  generalize List.range 512 = lr
  generalize List.range 32 = lc
  generalize hs1 : (State.mk _ _ _ _ _ _ _ _ _ _ _ _ _ _ _ _ _ _ _) = s1
  have h1 : Evolves K s s1 := by
    refine h.steps [.one .march, .one .cal, .seqs, .lanes, .clus, .chans, .one .plan, .one .snd, .one .cwy] (by simp [a0, a1, a2, a3, a4, a5, a6, a7, a8, a9, a10, a11, a12, a13, a14, a15, a16, a17]) (fun p hp => ?_)
      (by subst hs1; exact State.canonical_step (h5 := haltedSeqs_wf) (h6 := fun _ => rfl) (h7 := fun _ => rfl) (h8 := warmChans_wf))
    subst hs1
    cases p with
    | pending => exact rfl
    | freeCtr => exact rfl
    | reg o => exact rfl
    | shadows => exact rfl
    | boot => exact rfl
    | clk => exact rfl
    | evr => exact rfl
    | vectors => exact ⟨rfl, rfl⟩
    | rings => exact ⟨rfl, rfl, rfl, rfl, rfl⟩
    | hostMem => exact rfl
    | msix => exact rfl
    | reads => exact ⟨rfl, rfl, rfl⟩
    | flash o => exact rfl
    | keys => exact ⟨rfl, rfl⟩
    | rollback => exact rfl
    | flashPort => exact ⟨rfl, rfl, rfl, rfl⟩
    | macros => exact rfl
    | march => exact absurd (hp (.one .march) (by simp)) (by simp [Foot.covers])
    | refills => exact rfl
    | timing => exact rfl
    | dram o => exact rfl
    | failCnt o => exact rfl
    | cal => exact absurd (hp (.one .cal) (by simp)) (by simp [Foot.covers])
    | pwr => exact rfl
    | seq o => exact absurd (hp (.seqs) (by simp)) (by simp [Foot.covers])
    | lane o => exact absurd (hp (.lanes) (by simp)) (by simp [Foot.covers])
    | clu o => exact absurd (hp (.clus) (by simp)) (by simp [Foot.covers])
    | chan o => exact absurd (hp (.chans) (by simp)) (by simp [Foot.covers])
    | plan => exact absurd (hp (.one .plan) (by simp)) (by simp [Foot.covers])
    | snd => exact absurd (hp (.one .snd) (by simp)) (by simp [Foot.covers])
    | cwy => exact absurd (hp (.one .cwy) (by simp)) (by simp [Foot.covers])
  clear hs1
  extract_lets s1' s2 s3
  have h2 : Evolves K s s2 := State.wrF_changes _ _ _ _ (State.wrF_changes _ _ _ _ (State.wrF_changes _ _ _ _ (State.wrB_changes _ _ _
    (State.wrF_changes _ _ _ _ h1 a9) a8) a8) a7) a6
  clear_value s2
  have h3 : Evolves K s s3 := by
    refine Evolves.foldl (fun t n ht => State.wrF_changes _ _ _ _ ?_ (a2.ofCh (by decide))) h2
    apply State.parkPad_changes <;> with_reducible first | assumption | exact a0.ofClu (by decide) | exact a1.ofClu (by decide) | exact a2.ofCh (by decide) | exact a3.chanOf | exact a4.ofCh (by decide) | exact a5.ofCh (by decide) | exact a12.seqOf | exact a13.laneOf | exact a14.cluOf
  clear_value s3
  exact Evolves.foldl (fun t c ht => State.wrB_changes _ _ _ (State.wrF_changes _ _ _ _ ht (a1.ofClu (by decide))) (a0.ofClu (by decide))) h3

theorem State.busyAll_changes {K : List Foot} {s x : State} (h : Evolves K s x) (a0 : Allows K .completion) :
    Evolves K s (State.busyAll x) := by
  unfold State.busyAll
  try simp -zeta -zetaHave only [State.fold_hst]
  repeat' (first | with_reducible refine fun _ => ?_ | lift_lets | (with_reducible intro y; first | (refine Evolves.cut (K := K) (s := s) (y := y) ?_ ?_ <;> first | (clear_value y; with_reducible intro hy) | simp -zeta -zetaHave only [y]) | (simp -zeta -zetaHave only [y]; clear y) | (clear_value y; clear y)) | with_reducible (first | exact h | assumption | apply State.complete_changes | apply State.putHst_rings | apply Evolves.foldl) | (split))
  all_goals (with_reducible first | assumption | exact a0.vectorOfCompletion | exact a0.ringsOfCompletion | exact a0.hostMemOfCompletion | exact a0.vectorsOfCompletion | exact a0.cplTailOfCompletion | exact a0.cplDropOfCompletion)

theorem State.safeState_changes {K : List Foot} {s x : State} (h : Evolves K s x) (a0 : Allows K .completion) (a1 : Allows K (.one .boot)) (a2 : Allows K (.one .cwy)) (a3 : Allows K (.one (.reg Reg.cwyStatus))) (a4 : Allows K (.one (.reg Reg.bootRewrite))) (a5 : Allows K (.one (.reg Reg.memStatus))) (a6 : Allows K (.cluReg Reg.ddsStatus)) (a7 : Allows K (.cluReg Reg.acqStatus)) (a8 : Allows K (.chReg Reg.tiaStatus)) (a9 : Allows K .chans) (a10 : Allows K (.chReg Reg.pmuStatus)) (a11 : Allows K (.chReg Reg.peStatus)) (a12 : Allows K (.one (.reg Reg.calStatus))) (a13 : Allows K (.one (.reg Reg.sndStatus))) (a14 : Allows K (.one (.reg Reg.plnState))) (a15 : Allows K (.one .march)) (a16 : Allows K (.one .cal)) (a17 : Allows K .seqs) (a18 : Allows K .lanes) (a19 : Allows K .clus) (a20 : Allows K (.one .plan)) (a21 : Allows K (.one .snd)) :
    Evolves K s (State.safeState x) := by
  unfold State.safeState
  extract_lets s1 s2
  have h1 : Evolves K s s1 := by
    refine State.wrF_changes _ _ _ _ (State.wrB_changes _ _ _ ?_ a5) a4
    apply State.stopEngines_changes <;> with_reducible assumption
  clear_value s1
  have h2 : Evolves K s s2 := by
    refine Evolves.foldl (fun t p ht => Evolves.ite (fun _ => ht) (fun _ => ?_)) h1
    apply State.portDown_changes <;> with_reducible first | assumption | exact a0.vectorOfCompletion | exact a0.ringsOfCompletion | exact a0.hostMemOfCompletion | exact a0.vectorsOfCompletion | exact a0.cplTailOfCompletion | exact a0.cplDropOfCompletion | exact a6.ofClu (by decide) | exact a7.ofClu (by decide) | exact a8.ofCh (by decide) | exact a9.chanOf | exact a10.ofCh (by decide) | exact a11.ofCh (by decide) | exact a17.seqOf | exact a18.laneOf | exact a19.cluOf
  clear_value s2
  exact State.busyAll_changes (State.putBoot_changes _ h2 a1) a0

theorem State.wedge_changes {K : List Foot} {s x : State} (cause) (unit) (elapsed) (h : Evolves K s x) (a0 : Allows K (.one .reads)) (a1 : Allows K .events) (a2 : Allows K (.one .clk)) (a3 : Allows K .completion) (a4 : Allows K (.one .boot)) (a5 : Allows K (.one .cwy)) (a6 : Allows K (.one (.reg Reg.cwyStatus))) (a7 : Allows K (.one (.reg Reg.bootRewrite))) (a8 : Allows K (.one (.reg Reg.memStatus))) (a9 : Allows K (.cluReg Reg.ddsStatus)) (a10 : Allows K (.cluReg Reg.acqStatus)) (a11 : Allows K (.chReg Reg.tiaStatus)) (a12 : Allows K .chans) (a13 : Allows K (.chReg Reg.pmuStatus)) (a14 : Allows K (.chReg Reg.peStatus)) (a15 : Allows K (.one (.reg Reg.calStatus))) (a16 : Allows K (.one (.reg Reg.sndStatus))) (a17 : Allows K (.one (.reg Reg.plnState))) (a18 : Allows K (.one .march)) (a19 : Allows K (.one .cal)) (a20 : Allows K .seqs) (a21 : Allows K .lanes) (a22 : Allows K .clus) (a23 : Allows K (.one .plan)) (a24 : Allows K (.one .snd)) (a25 : Allows K (.pair (seqOff unit Reg.seqFlags))) :
    Evolves K s (State.wedge x cause unit elapsed) := by
  unfold State.wedge
  refine Evolves.ite (fun _ => ?_) (fun _ => h)
  extract_lets data s1 src s2 s3
  have h1 : Evolves K s s1 := by
    apply State.safeState_changes <;> with_reducible first | assumption | skip
    apply State.raiseIf_changes <;> with_reducible assumption
  clear_value s1
  have h2 : Evolves K s s2 := State.post_changes _ _ _ (State.putClk_changes _ h1 a2) a1
  clear_value s2
  have h3 : Evolves K s s3 := by
    refine Evolves.ite (fun _ => ?_) (fun _ => h2)
    apply State.evrFlush_changes <;> with_reducible first | assumption | exact a1.vectorOfEvents | exact a1.logOfEvents | exact a1.evrPairOfEvents | exact a1.evrOfEvents | exact a1.vectorsOfEvents | exact a1.evrStatusOfEvents | exact a1.evrDropOfEvents | exact a1.evrCommitOfEvents | exact a1.evrLogOfEvents | exact a1.evrLogBseqOfEvents | exact a3.vectorOfCompletion | exact a3.ringsOfCompletion | exact a3.hostMemOfCompletion | exact a3.vectorsOfCompletion | exact a3.cplTailOfCompletion | exact a3.cplDropOfCompletion | exact a9.ofClu (by decide) | exact a10.ofClu (by decide) | exact a11.ofCh (by decide) | exact a12.chanOf | exact a13.ofCh (by decide) | exact a14.ofCh (by decide) | exact a20.seqOf | exact a21.laneOf | exact a22.cluOf | exact a25.fst | exact a25.snd
  clear_value s3
  refine Evolves.ite (fun _ => ?_) (fun _ => h3)
  apply State.setRead_changes <;> with_reducible assumption

theorem State.pfwRelease_changes {K : List Foot} {s x : State} (h : Evolves K s x) (a0 : Allows K (.one (.reg Reg.pwrStatus))) (a1 : Allows K (.one .pwr)) :
    Evolves K s (State.pfwRelease x) := by
  unfold State.pfwRelease
  try simp -zeta -zetaHave only [State.fold_pwr]
  repeat' (first | with_reducible refine fun _ => ?_ | lift_lets | (with_reducible intro y; first | (refine Evolves.cut (K := K) (s := s) (y := y) ?_ ?_ <;> first | (clear_value y; with_reducible intro hy) | simp -zeta -zetaHave only [y]) | (simp -zeta -zetaHave only [y]; clear y) | (clear_value y; clear y)) | with_reducible (first | exact h | apply State.wrB_changes | apply State.putPwr_changes | apply Evolves.ite))
  all_goals (with_reducible first | assumption)

theorem State.pfwAssert_changes {K : List Foot} {s x : State} (h : Evolves K s x) (a0 : Allows K (.one .boot)) (a1 : Allows K (.one .pwr)) (a2 : Allows K .allRegs) (a3 : Allows K (.one .shadows)) (a4 : Allows K (.one .clk)) (a5 : Allows K (.one .evr)) (a6 : Allows K (.one .rings)) (a7 : Allows K (.one .hostMem)) (a8 : Allows K (.one .msix)) (a9 : Allows K (.one .vectors)) (a10 : Allows K (.one .reads)) (a11 : Allows K (.one .macros)) (a12 : Allows K (.one .march)) (a13 : Allows K (.one .refills)) (a14 : Allows K (.one .timing)) (a15 : Allows K .failCnts) (a16 : Allows K (.one .cal)) (a17 : Allows K .seqs) (a18 : Allows K .lanes) (a19 : Allows K .clus) (a20 : Allows K .chans) (a21 : Allows K (.one .plan)) (a22 : Allows K (.one .snd)) (a23 : Allows K (.one .cwy)) (a24 : Allows K (.one .flashPort)) (a25 : Allows K .flashes) (a26 : Allows K .vector) :
    Evolves K s (State.pfwAssert x) := by
  unfold State.pfwAssert
  refine Evolves.ite (fun _ => h) (fun _ => ?_)
  extract_lets s1 s2 s3
  have h1 : Evolves K s s1 := by
    refine Evolves.ite (fun _ => ?_) (fun _ => h)
    apply State.evrPowerFail_changes <;> with_reducible first | assumption | exact a2.regOfAll | exact a2.pairOfAll | exact a2.chRegOfAll | exact a2.chPairOfAll | exact a2.cluRegOfAll | exact a2.cluPairOfAll | exact a2.regsOfAll | exact a17.seqOf | exact a18.laneOf | exact a19.cluOf | exact a20.chanOf | exact a25.logOfFlashes | exact a26.vecRegOfVector | exact a26.vectorsOfVector
  have h2 : Evolves K s s2 := by
    apply State.persistWrite_changes <;> with_reducible first | assumption | exact a2.regOfAll | exact a2.pairOfAll | exact a2.chRegOfAll | exact a2.chPairOfAll | exact a2.cluRegOfAll | exact a2.cluPairOfAll | exact a2.regsOfAll | exact a17.seqOf | exact a18.laneOf | exact a19.cluOf | exact a20.chanOf | exact a25.logOfFlashes | exact a26.vecRegOfVector | exact a26.vectorsOfVector
  clear_value s1 s2
  have h3 : Evolves K s s3 := by
    refine State.wrB_changes _ _ _ (State.wrB_changes _ _ _ ?_ a2.regOfAll) a2.regOfAll
    apply State.volatileReset_changes <;> with_reducible assumption
  clear_value s3
  exact h3.steps [.one .boot, .one .pwr] (by simp [a0, a1, a2, a3, a4, a5, a6, a7, a8, a9, a10, a11, a12, a13, a14, a15, a16, a17, a18, a19, a20, a21, a22, a23, a24, a25, a26]) (fun p hp => by
      cases p with
      | pending => exact rfl
      | freeCtr => exact rfl
      | reg o => exact rfl
      | shadows => exact rfl
      | boot => exact absurd (hp (.one .boot) (by simp)) (by simp [Foot.covers])
      | clk => exact rfl
      | evr => exact rfl
      | vectors => exact ⟨rfl, rfl⟩
      | rings => exact ⟨rfl, rfl, rfl, rfl, rfl⟩
      | hostMem => exact rfl
      | msix => exact rfl
      | reads => exact ⟨rfl, rfl, rfl⟩
      | flash o => exact rfl
      | keys => exact ⟨rfl, rfl⟩
      | rollback => exact rfl
      | flashPort => exact ⟨rfl, rfl, rfl, rfl⟩
      | macros => exact rfl
      | march => exact ⟨rfl, rfl⟩
      | refills => exact rfl
      | timing => exact rfl
      | dram o => exact rfl
      | failCnt o => exact rfl
      | cal => exact rfl
      | pwr => exact absurd (hp (.one .pwr) (by simp)) (by simp [Foot.covers])
      | seq o => exact rfl
      | lane o => exact rfl
      | clu o => exact rfl
      | chan o => exact rfl
      | plan => exact rfl
      | snd => exact rfl
      | cwy => exact rfl) (fun hc => hc)

theorem State.tempEvent_changes {K : List Foot} {s x : State} (i) (level) (temp) (h : Evolves K s x) (a0 : Allows K .events) :
    Evolves K s (State.tempEvent x i level temp) := by
  unfold State.tempEvent
  repeat' (first | with_reducible refine fun _ => ?_ | with_reducible (first | exact h | apply State.post_changes))
  all_goals (with_reducible first | assumption | exact a0.vectorOfEvents | exact a0.logOfEvents | exact a0.evrPairOfEvents | exact a0.evrOfEvents | exact a0.vectorsOfEvents | exact a0.evrStatusOfEvents | exact a0.evrDropOfEvents | exact a0.evrCommitOfEvents | exact a0.evrLogOfEvents | exact a0.evrLogBseqOfEvents)

theorem State.tempCross_changes {K : List Foot} {s x : State} (i) (old) (new) (h : Evolves K s x) (a0 : Allows K .events) (a1 : Allows K (.pair Reg.pwrFlags)) :
    Evolves K s (State.tempCross x i old new) := by
  unfold State.tempCross
  repeat' (first | with_reducible refine fun _ => ?_ | lift_lets | (with_reducible intro y; first | (refine Evolves.cut (K := K) (s := s) (y := y) ?_ ?_ <;> first | (clear_value y; with_reducible intro hy) | simp -zeta -zetaHave only [y]) | (simp -zeta -zetaHave only [y]; clear y) | (clear_value y; clear y)) | with_reducible (first | exact h | assumption | apply State.tempEvent_changes | apply State.raise_changes | apply Evolves.ite) | (split))
  all_goals (with_reducible first | assumption | exact a0.vectorOfEvents | exact a0.logOfEvents | exact a0.evrPairOfEvents | exact a0.evrOfEvents | exact a0.vectorsOfEvents | exact a0.evrStatusOfEvents | exact a0.evrDropOfEvents | exact a0.evrCommitOfEvents | exact a0.evrLogOfEvents | exact a0.evrLogBseqOfEvents | exact a1.fst | exact a1.snd)

theorem State.sensorOne_changes {K : List Foot} {s x : State} (r) (h : Evolves K s x) (a0 : Allows K (.chReg Reg.tiaLine)) (a1 : Allows K .chans) (a2 : Allows K (.one .snd)) (a3 : Allows K .events) (a4 : Allows K (.pair Reg.pwrFlags)) (a5 : Allows K (.one .pwr)) (a6 : Allows K (.one (.reg (Reg.pwrTs + 4 * ↑r.sensor)))) :
    Evolves K s (State.sensorOne x r) := by
  unfold State.sensorOne
  try simp -zeta -zetaHave only [State.fold_pwr]
  repeat' (first | with_reducible refine fun _ => ?_ | lift_lets | (with_reducible intro y; first | (refine Evolves.cut (K := K) (s := s) (y := y) ?_ ?_ <;> first | (clear_value y; with_reducible intro hy) | simp -zeta -zetaHave only [y]) | (simp -zeta -zetaHave only [y]; clear y) | (clear_value y; clear y)) | with_reducible (first | exact h | assumption | apply State.tableReturn_changes | apply State.tempCross_changes | apply State.wr_changes | apply State.raise_changes | apply State.putPwr_changes | apply Evolves.ite | apply Evolves.foldl) | (split))
  all_goals (with_reducible first | assumption | exact a0.ofCh (by decide) | exact a1.chanOf | exact a3.vectorOfEvents | exact a3.logOfEvents | exact a3.evrPairOfEvents | exact a3.evrOfEvents | exact a3.vectorsOfEvents | exact a3.evrStatusOfEvents | exact a3.evrDropOfEvents | exact a3.evrCommitOfEvents | exact a3.evrLogOfEvents | exact a3.evrLogBseqOfEvents | exact a4.fst | exact a4.snd)

theorem State.pfwCold_changes {K : List Foot} {s x : State} (h : Evolves K s x) (a0 : Allows K (.one .boot)) (a1 : Allows K (.one .clk)) (a2 : Allows K (.one .flashPort)) (a3 : Allows K .drams) (a4 : Allows K .allRegs) (a5 : Allows K (.one .shadows)) (a6 : Allows K (.one .evr)) (a7 : Allows K (.one .rings)) (a8 : Allows K (.one .hostMem)) (a9 : Allows K (.one .msix)) (a10 : Allows K (.one .vectors)) (a11 : Allows K (.one .reads)) (a12 : Allows K (.one .macros)) (a13 : Allows K (.one .march)) (a14 : Allows K (.one .refills)) (a15 : Allows K (.one .timing)) (a16 : Allows K .failCnts) (a17 : Allows K (.one .cal)) (a18 : Allows K (.one .pwr)) (a19 : Allows K .seqs) (a20 : Allows K .lanes) (a21 : Allows K .clus) (a22 : Allows K .chans) (a23 : Allows K (.one .plan)) (a24 : Allows K (.one .snd)) (a25 : Allows K (.one .cwy)) :
    Evolves K s (State.pfwCold x) := by
  unfold State.pfwCold
  repeat' (first | with_reducible refine fun _ => ?_ | with_reducible (first | exact h | apply State.coldStart_changes | apply Evolves.ite))
  all_goals (with_reducible first | assumption | exact a3.dramOf | exact a4.regOfAll | exact a4.pairOfAll | exact a4.chRegOfAll | exact a4.chPairOfAll | exact a4.cluRegOfAll | exact a4.cluPairOfAll | exact a4.regsOfAll | exact a19.seqOf | exact a20.laneOf | exact a21.cluOf | exact a22.chanOf)

theorem State.sensorRead_changes {K : List Foot} {s x : State} (l) (r) (h : Evolves K s x) (a0 : Allows K (.one (.reg Reg.pwrStatus))) (a1 : Allows K (.one (.reg Reg.pwrVio))) (a2 : Allows K (.one (.reg Reg.pwrVpl))) (a3 : Allows K (.one (.reg Reg.pwrVph))) (a4 : Allows K (.one (.reg Reg.pwrVin))) (a5 : Allows K (.one (.reg Reg.pwrTempMax))) (a6 : Allows K (.chReg Reg.tiaLine)) (a7 : Allows K .chans) (a8 : Allows K (.one .snd)) (a9 : Allows K .events) (a10 : Allows K (.pair Reg.pwrFlags)) (a11 : Allows K (.one .pwr)) (a12 : Allows K (.regs Reg.pwrTs (Reg.pwrTs + 256))) :
    Evolves K s (State.sensorRead x l r) := by
  unfold State.sensorRead
  refine Evolves.ite (fun _ => ?_) (fun _ => h)
  apply State.supplyRead_changes <;> with_reducible first | assumption | skip
  apply State.thermUpdate_changes <;> with_reducible first | assumption | skip
  refine Evolves.foldl (fun t e ht => ?_) h
  have hi := e.sensor.isLt
  apply State.sensorOne_changes <;> with_reducible first | assumption | skip
  exact a12.inRegs (by omega)

theorem State.powerUp_changes {K : List Foot} {s x : State} (h : Evolves K s x) (a0 : Allows K (.one .boot)) (a1 : Allows K (.one .clk)) (a2 : Allows K (.one .flashPort)) (a3 : Allows K .drams) (a4 : Allows K .allRegs) (a5 : Allows K (.one .shadows)) (a6 : Allows K (.one .evr)) (a7 : Allows K (.one .rings)) (a8 : Allows K (.one .hostMem)) (a9 : Allows K (.one .msix)) (a10 : Allows K (.one .vectors)) (a11 : Allows K (.one .reads)) (a12 : Allows K (.one .macros)) (a13 : Allows K (.one .march)) (a14 : Allows K (.one .refills)) (a15 : Allows K (.one .timing)) (a16 : Allows K .failCnts) (a17 : Allows K (.one .cal)) (a18 : Allows K (.one .pwr)) (a19 : Allows K .seqs) (a20 : Allows K .lanes) (a21 : Allows K .clus) (a22 : Allows K .chans) (a23 : Allows K (.one .plan)) (a24 : Allows K (.one .snd)) (a25 : Allows K (.one .cwy)) :
    Evolves K s (State.powerUp x) := by
  unfold State.powerUp
  repeat' (first | with_reducible refine fun _ => ?_ | with_reducible (first | exact h | apply State.coldStart_changes | apply Evolves.ite))
  all_goals (with_reducible first | assumption | exact a3.dramOf | exact a4.regOfAll | exact a4.pairOfAll | exact a4.chRegOfAll | exact a4.chPairOfAll | exact a4.cluRegOfAll | exact a4.cluPairOfAll | exact a4.regsOfAll | exact a19.seqOf | exact a20.laneOf | exact a21.cluOf | exact a22.chanOf)


end Sys2Proof.Machine
end

