-- ==== Sys2Proof/Laws/FrameBoot.lean ====
section
/-! SUPPORT. What each operation of Machine/Boot.lean can change: from a state that has changed only parts of the footprint `K`,
the operation changes only parts of `K`, where `K` allows the operation's own footprint. -/

set_option Elab.async false
set_option linter.all false

namespace Sys2Proof.Machine

theorem State.bootFail_changes {K : List Foot} {s x : State} (code) (h : Evolves K s x) (a0 : Allows K .events) (a1 : Allows K (.one .boot)) (a2 : Allows K (.one (.reg Reg.hstStatus))) (a3 : Allows K (.one (.reg Reg.bootStatus))) :
    Evolves K s (State.bootFail x code) := by
  unfold State.bootFail
  try simp -zeta -zetaHave only [State.fold_boot]
  repeat' (first | with_reducible refine fun _ => ?_ | lift_lets | (with_reducible intro y; first | (refine Evolves.cut (K := K) (s := s) (y := y) ?_ ?_ <;> first | (clear_value y; with_reducible intro hy) | simp -zeta -zetaHave only [y]) | (simp -zeta -zetaHave only [y]; clear y) | (clear_value y; clear y)) | with_reducible (first | exact h | assumption | apply State.post_changes | apply State.wrB_changes | apply State.wrF_changes | apply State.putBoot_changes) | (split))
  all_goals (with_reducible first | assumption | exact a0.vectorOfEvents | exact a0.logOfEvents | exact a0.evrPairOfEvents | exact a0.evrOfEvents | exact a0.vectorsOfEvents | exact a0.evrStatusOfEvents | exact a0.evrDropOfEvents | exact a0.evrCommitOfEvents | exact a0.evrLogOfEvents | exact a0.evrLogBseqOfEvents)

theorem State.dramTraining_changes {K : List Foot} {s x : State} (ok) (h : Evolves K s x) (a0 : Allows K (.one .boot)) (a1 : Allows K .events) (a2 : Allows K (.one (.reg Reg.hstStatus))) (a3 : Allows K (.one (.reg Reg.bootStatus))) :
    Evolves K s (State.dramTraining x ok) := by
  unfold State.dramTraining
  try simp -zeta -zetaHave only [State.fold_boot]
  repeat' (first | with_reducible refine fun _ => ?_ | lift_lets | (with_reducible intro y; first | (refine Evolves.cut (K := K) (s := s) (y := y) ?_ ?_ <;> first | (clear_value y; with_reducible intro hy) | simp -zeta -zetaHave only [y]) | (simp -zeta -zetaHave only [y]; clear y) | (clear_value y; clear y)) | with_reducible (first | exact h | apply State.bootFail_changes | apply State.putBoot_changes | apply Evolves.ite))
  all_goals (with_reducible first | assumption | exact a1.vectorOfEvents | exact a1.logOfEvents | exact a1.evrPairOfEvents | exact a1.evrOfEvents | exact a1.vectorsOfEvents | exact a1.evrStatusOfEvents | exact a1.evrDropOfEvents | exact a1.evrCommitOfEvents | exact a1.evrLogOfEvents | exact a1.evrLogBseqOfEvents)

theorem State.cfgRun_changes {K : List Foot} {s x : State} (l) (h : Evolves K s x) (a0 : Allows K .allRegs) :
    Evolves K s (State.cfgRun x l).2 := by
  induction l generalizing x with
  | nil => exact h
  | cons e t ih =>
    unfold State.cfgRun
    split
    · exact ih (State.wr_changes _ _ h a0.regOfAll)
    · exact h

theorem State.clearSealed_changes {K : List Foot} {s x : State} (h : Evolves K s x) (a0 : Allows K .allRegs) :
    Evolves K s (State.clearSealed x) := by
  unfold State.clearSealed
  repeat' (first | with_reducible refine fun _ => ?_ | with_reducible (first | exact h | assumption | apply State.wr_changes | apply Evolves.ite | apply Evolves.foldl) | (split))
  all_goals (with_reducible first | assumption | exact a0.regOfAll | exact a0.pairOfAll | exact a0.chRegOfAll | exact a0.chPairOfAll | exact a0.cluRegOfAll | exact a0.cluPairOfAll | exact a0.regsOfAll)

theorem State.cfgCheck_changes {K : List Foot} {s x : State} (b) (h : Evolves K s x) (a0 : Allows K .allRegs) :
    Evolves K s (State.cfgCheck x b).2 := by
  unfold State.cfgCheck
  have hr : Evolves K s ((x.clearSealed).cfgRun (x.cfgEntries b)).2 := State.cfgRun_changes _ (State.clearSealed_changes h a0) a0
  dsimp only
  generalize (x.clearSealed).cfgRun (x.cfgEntries b) = r at hr ⊢
  repeat' (first | with_reducible exact hr | (rw [apply_ite Prod.snd]; with_reducible refine Evolves.ite (fun _ => ?_) (fun _ => ?_)))

theorem State.slotFail_changes {K : List Foot} {s x : State} (code) (h : Evolves K s x) (a0 : Allows K (.one .boot)) (a1 : Allows K .events) (a2 : Allows K (.one (.reg Reg.hstStatus))) (a3 : Allows K (.one (.reg Reg.bootStatus))) :
    Evolves K s (State.slotFail x code) := by
  unfold State.slotFail
  try simp -zeta -zetaHave only [State.fold_boot]
  repeat' (first | with_reducible refine fun _ => ?_ | lift_lets | (with_reducible intro y; first | (refine Evolves.cut (K := K) (s := s) (y := y) ?_ ?_ <;> first | (clear_value y; with_reducible intro hy) | simp -zeta -zetaHave only [y]) | (simp -zeta -zetaHave only [y]; clear y) | (clear_value y; clear y)) | with_reducible (first | exact h | assumption | apply State.bootFail_changes | apply State.setPhase_changes | apply State.wrF_changes | apply State.post_changes | apply State.wrB_changes | apply State.putBoot_changes | apply Evolves.ite) | (split))
  all_goals (with_reducible first | assumption | exact a1.vectorOfEvents | exact a1.logOfEvents | exact a1.evrPairOfEvents | exact a1.evrOfEvents | exact a1.vectorsOfEvents | exact a1.evrStatusOfEvents | exact a1.evrDropOfEvents | exact a1.evrCommitOfEvents | exact a1.evrLogOfEvents | exact a1.evrLogBseqOfEvents)

theorem State.configApply_changes {K : List Foot} {s x : State} (h : Evolves K s x) (a0 : Allows K .allRegs) (a1 : Allows K (.one .clk)) (a2 : Allows K (.one .boot)) (a3 : Allows K .events) :
    Evolves K s (State.configApply x) := by
  unfold State.configApply
  refine Evolves.ite (fun _ => ?_) (fun _ => h)
  extract_lets r
  have hr : Evolves K s r.2 := State.cfgCheck_changes _ h a0
  clear_value r
  refine Evolves.ite (fun _ => State.setPhase_changes _ (State.putClk_changes _ hr a1) a0.regOfAll) (fun _ => ?_)
  apply State.slotFail_changes <;> with_reducible first | assumption | exact a0.regOfAll

theorem State.portSealed_changes {K : List Foot} {s x : State} (p) (bit) (h : Evolves K s x) (a0 : Allows K (.one (.reg Reg.cwyStatus))) :
    Evolves K s (State.portSealed x p bit) := by
  unfold State.portSealed
  repeat' (first | with_reducible refine fun _ => ?_ | with_reducible (first | exact h | apply State.setPort_changes))
  all_goals (with_reducible first | assumption)

theorem State.seal_changes {K : List Foot} {s x : State} (b) (h : Evolves K s x) (a0 : Allows K (.one (.reg Reg.bootStatus))) (a1 : Allows K (.one (.reg Reg.cwyStatus))) (a2 : Allows K (.one .boot)) (a3 : Allows K (.one (.reg Reg.idPeat))) :
    Evolves K s (State.seal x b) := by
  unfold State.seal
  try simp -zeta -zetaHave only [State.fold_boot]
  repeat' (first | with_reducible refine fun _ => ?_ | lift_lets | (with_reducible intro y; first | (refine Evolves.cut (K := K) (s := s) (y := y) ?_ ?_ <;> first | (clear_value y; with_reducible intro hy) | simp -zeta -zetaHave only [y]) | (simp -zeta -zetaHave only [y]; clear y) | (clear_value y; clear y)) | with_reducible (first | exact h | assumption | apply State.setPhase_changes | apply State.wrF_changes | apply State.portSealed_changes | apply State.wr_changes | apply State.putBoot_changes) | (split))
  all_goals (with_reducible first | assumption)

theorem State.patchSeq_changes {K : List Foot} {s x : State} (l) (q) (h : Evolves K s x) (a0 : Allows K (.one (.reg (seqOff q Reg.seqPatch)))) (a1 : Allows K (.one (.seq q))) :
    Evolves K s (State.patchSeq x l q) := by
  unfold State.patchSeq
  repeat' (first | with_reducible refine fun _ => ?_ | lift_lets | (with_reducible intro y; first | (refine Evolves.cut (K := K) (s := s) (y := y) ?_ ?_ <;> first | (clear_value y; with_reducible intro hy) | simp -zeta -zetaHave only [y]) | (simp -zeta -zetaHave only [y]; clear y) | (clear_value y; clear y)) | with_reducible (first | exact h | assumption | apply State.wr_changes | apply State.modSeq_changes | apply Evolves.foldl) | (split))
  all_goals (with_reducible first | assumption)

theorem State.patchApply_changes {K : List Foot} {s x : State} (h : Evolves K s x) (a0 : Allows K (.one (.reg Reg.bootStatus))) (a1 : Allows K (.one (.reg Reg.cwyStatus))) (a2 : Allows K (.one .boot)) (a3 : Allows K (.one (.reg Reg.idPeat))) (a4 : Allows K (.one (.reg (655360 + Reg.seqPatch)))) (a5 : Allows K (.cluReg Reg.seqPatch)) (a6 : Allows K .seqs) (a7 : Allows K .events) (a8 : Allows K (.one (.reg Reg.hstStatus))) :
    Evolves K s (State.patchApply x) := by
  unfold State.patchApply
  repeat' (first | with_reducible refine fun _ => ?_ | lift_lets | (with_reducible intro y; first | (refine Evolves.cut (K := K) (s := s) (y := y) ?_ ?_ <;> first | (clear_value y; with_reducible intro hy) | simp -zeta -zetaHave only [y]) | (simp -zeta -zetaHave only [y]; clear y) | (clear_value y; clear y)) | with_reducible (first | exact h | assumption | apply State.seal_changes | apply State.patchSeq_changes | apply State.slotFail_changes | apply Evolves.ite | apply Evolves.foldl) | (split))
  all_goals (with_reducible first | assumption | exact a5.ofClu (by decide) | exact a6.seqOf | exact a7.vectorOfEvents | exact a7.logOfEvents | exact a7.evrPairOfEvents | exact a7.evrOfEvents | exact a7.vectorsOfEvents | exact a7.evrStatusOfEvents | exact a7.evrDropOfEvents | exact a7.evrCommitOfEvents | exact a7.evrLogOfEvents | exact a7.evrLogBseqOfEvents | exact a4.seqRegOf a5 (by decide))

theorem State.bankLoad_changes {K : List Foot} {s x : State} (k) (o) (n) (h : Evolves K s x) (a0 : Allows K (.one .cal)) :
    Evolves K s (State.bankLoad x k o n) := by
  unfold State.bankLoad
  repeat' (first | with_reducible refine fun _ => ?_ | with_reducible (first | exact h | apply State.calWr_changes))
  all_goals (with_reducible first | assumption)

theorem State.bootReady_changes {K : List Foot} {s x : State} (us) (h : Evolves K s x) (a0 : Allows K .events) (a1 : Allows K (.one .boot)) (a2 : Allows K (.one (.reg Reg.bootStatus))) (a3 : Allows K (.one (.reg Reg.bootTime))) (a4 : Allows K (.pair Reg.calFlags)) (a5 : Allows K (.one .cal)) (a6 : Allows K (.one (.reg Reg.clkCorr))) (a7 : Allows K (.one (.reg Reg.clkCorrTemp))) (a8 : Allows K (.pair Reg.clkFlags)) (a9 : Allows K (.one (.reg Reg.clkXtalTemp))) (a10 : Allows K (.one (.reg Reg.clkCorrAge))) :
    Evolves K s (State.bootReady x us) := by
  unfold State.bootReady
  refine Evolves.ite (fun _ => ?_) (fun _ => h)
  have h1 : Evolves K s ((x.ageing.xtalUpdate.ktUpdate).wr Reg.bootTime us) := by
    refine State.wr_changes _ _ ?_ a3
    apply State.ktUpdate_changes <;> with_reducible first | assumption | skip
    apply State.xtalUpdate_changes <;> with_reducible first | assumption | skip
    apply State.ageing_changes <;> with_reducible first | assumption | skip
  generalize (x.ageing.xtalUpdate.ktUpdate).wr Reg.bootTime us = s1 at h1 ⊢
  simp -zeta -zetaHave only [State.fold_boot]
  exact State.post_changes _ _ _ (State.putBoot_changes _ (State.wrF_changes _ _ _ _ h1 a2) a1) a0

theorem State.flashRefused_changes {K : List Foot} {s x : State} (code) (h : Evolves K s x) (a0 : Allows K .events) (a1 : Allows K (.one .flashPort)) (a2 : Allows K (.one .boot)) (a3 : Allows K (.one (.reg Reg.hstStatus))) (a4 : Allows K (.one (.reg Reg.bootStatus))) :
    Evolves K s (State.flashRefused x code) := by
  unfold State.flashRefused
  try simp -zeta -zetaHave only [State.fold_nvm]
  repeat' (first | with_reducible refine fun _ => ?_ | lift_lets | (with_reducible intro y; first | (refine Evolves.cut (K := K) (s := s) (y := y) ?_ ?_ <;> first | (clear_value y; with_reducible intro hy) | simp -zeta -zetaHave only [y]) | (simp -zeta -zetaHave only [y]; clear y) | (clear_value y; clear y)) | with_reducible (first | exact h | assumption | apply State.evrStart_changes | apply State.bootFail_changes | apply State.setPhase_changes | apply State.putNvm_port | apply Evolves.ite) | (split))
  all_goals (with_reducible first | assumption | exact a0.vectorOfEvents | exact a0.logOfEvents | exact a0.evrPairOfEvents | exact a0.evrOfEvents | exact a0.vectorsOfEvents | exact a0.evrStatusOfEvents | exact a0.evrDropOfEvents | exact a0.evrCommitOfEvents | exact a0.evrLogOfEvents | exact a0.evrLogBseqOfEvents)

theorem State.sfdpTake_changes {K : List Foot} {s x : State} (found) (h : Evolves K s x) (a0 : Allows K .events) (a1 : Allows K (.one .flashPort)) (a2 : Allows K (.one .boot)) (a3 : Allows K (.one (.reg Reg.hstStatus))) (a4 : Allows K (.one (.reg Reg.bootStatus))) (a5 : Allows K (.one (.reg Reg.bootFlash))) :
    Evolves K s (State.sfdpTake x found) := by
  unfold State.sfdpTake
  try simp -zeta -zetaHave only [State.fold_nvm]
  repeat' (first | with_reducible refine fun _ => ?_ | lift_lets | (with_reducible intro y; first | (refine Evolves.cut (K := K) (s := s) (y := y) ?_ ?_ <;> first | (clear_value y; with_reducible intro hy) | simp -zeta -zetaHave only [y]) | (simp -zeta -zetaHave only [y]; clear y) | (clear_value y; clear y)) | with_reducible (first | exact h | assumption | apply State.flashRefused_changes | apply State.setQdepth_changes | apply State.wr_changes | apply State.setPhase_changes | apply State.putNvm_port | apply Evolves.ite) | (split))
  all_goals (with_reducible first | assumption | exact a0.vectorOfEvents | exact a0.logOfEvents | exact a0.evrPairOfEvents | exact a0.evrOfEvents | exact a0.vectorsOfEvents | exact a0.evrStatusOfEvents | exact a0.evrDropOfEvents | exact a0.evrCommitOfEvents | exact a0.evrLogOfEvents | exact a0.evrLogBseqOfEvents)

theorem State.recordsLoad_changes {K : List Foot} {s x : State} (k) (h : Evolves K s x) (a0 : Allows K (.one .cal)) (a1 : Allows K (.regs Reg.calChFail (Reg.calChFail + 2048))) :
    Evolves K s (State.recordsLoad x k) := by
  unfold State.recordsLoad
  extract_lets s1 s2
  have h1 : Evolves K s s1 := by
    apply State.bankLoad_changes <;> with_reducible first | assumption | skip
    apply State.bankLoad_changes <;> with_reducible assumption
  have h2 : Evolves K s s2 := by
    refine Evolves.foldl (fun t e ht => ?_) h1
    apply State.bankLoad_changes <;> with_reducible assumption
  clear_value s2
  refine Evolves.foldl_mem (fun t n hn ht => ?_) h2
  have := List.mem_range.mp hn
  exact State.wr_changes _ _ ht (a1.inRegs (by unfold failReg; omega))

theorem State.rewriteState_changes {K : List Foot} {s x : State} (st) (k) (h : Evolves K s x) (a0 : Allows K (.one (.reg Reg.bootRewrite))) :
    Evolves K s (State.rewriteState x st k) := by
  unfold State.rewriteState
  repeat' (first | with_reducible refine fun _ => ?_ | with_reducible (first | exact h | apply State.wrB_changes | apply State.wrF_changes))
  all_goals (with_reducible first | assumption)

theorem State.slotSeqs_changes {K : List Foot} {s x : State} (h : Evolves K s x) (a0 : Allows K (.one (.reg Reg.bootSlotSeq1))) (a1 : Allows K (.one (.reg Reg.bootSlotSeq0))) :
    Evolves K s (State.slotSeqs x) := by
  unfold State.slotSeqs
  repeat' (first | with_reducible refine fun _ => ?_ | with_reducible (first | exact h | apply State.wr_changes))
  all_goals (with_reducible first | assumption)

theorem State.slotErase_changes {K : List Foot} {s x : State} (k) (h : Evolves K s x) (a0 : Allows K (.one (.reg Reg.bootSlotSeq1))) (a1 : Allows K (.one (.reg Reg.bootSlotSeq0))) (a2 : Allows K .flashes) :
    Evolves K s (State.slotErase x k) := by
  unfold State.slotErase
  repeat' (first | with_reducible refine fun _ => ?_ | with_reducible (first | exact h | apply State.slotSeqs_changes | apply State.flashErase_changes))
  all_goals (with_reducible first | assumption | exact a2.logOfFlashes)

theorem State.cmdImage_changes {K : List Foot} {s x : State} (data) (h : Evolves K s x) (a0 : Allows K .completion) (a1 : Allows K (.one (.reg Reg.bootRewrite))) (a2 : Allows K (.one (.reg Reg.bootSlotSeq1))) (a3 : Allows K (.one (.reg Reg.bootSlotSeq0))) (a4 : Allows K .flashes) :
    Evolves K s (State.cmdImage x data) := by
  unfold State.cmdImage
  repeat' (first | with_reducible refine fun _ => ?_ | lift_lets | (with_reducible intro y; first | (refine Evolves.cut (K := K) (s := s) (y := y) ?_ ?_ <;> first | (clear_value y; with_reducible intro hy) | simp -zeta -zetaHave only [y]) | (simp -zeta -zetaHave only [y]; clear y) | (clear_value y; clear y)) | with_reducible (first | exact h | assumption | apply State.runCmd_changes | apply State.complete_changes | apply State.wrF_changes | apply State.rewriteState_changes | apply State.slotErase_changes | apply State.bgStart_changes | apply State.flashWr_changes | apply Evolves.ite) | (split))
  all_goals (with_reducible first | assumption | exact a0.vectorOfCompletion | exact a0.ringsOfCompletion | exact a0.hostMemOfCompletion | exact a0.vectorsOfCompletion | exact a0.cplTailOfCompletion | exact a0.cplDropOfCompletion | exact a4.logOfFlashes)

theorem State.linesLoad_changes {K : List Foot} {s x : State} (h : Evolves K s x) (a0 : Allows K (.chReg Reg.tiaLine)) (a1 : Allows K .chans) (a2 : Allows K (.one .snd)) :
    Evolves K s (State.linesLoad x) := by
  unfold State.linesLoad
  repeat' (first | with_reducible refine fun _ => ?_ | with_reducible (first | exact h | assumption | apply State.lineOff_changes | apply Evolves.ite | apply Evolves.foldl))
  all_goals (with_reducible first | assumption | exact a0.ofCh (by decide) | exact a1.chanOf)

theorem State.persistentScan_changes {K : List Foot} {s x : State} (h : Evolves K s x) (a0 : Allows K .events) (a1 : Allows K (.one .flashPort)) (a2 : Allows K (.pair Reg.clkFlags)) (a3 : Allows K (.one .clk)) (a4 : Allows K (.one .boot)) (a5 : Allows K (.one (.reg Reg.bootStatus))) (a6 : Allows K .flashes) :
    Evolves K s (State.persistentScan x) := by
  unfold State.persistentScan
  have key : ∀ t, Evolves K s t → ∀ (v0 : Boot), ∀ (v1 : Nat), ∀ (v2 : Bool), Evolves K s { t with boot := v0, nvm := { t.nvm with persist := v1, scanned := v2 } } :=
    fun t ht _ _ _ => ht.steps [.one .boot, .one .flashPort] (by simp [a0, a1, a2, a3, a4, a5, a6, a0.evrOfEvents])
      (fun p hp => by cases p <;> first | exact rfl | exact ⟨rfl, rfl⟩ | exact ⟨rfl, rfl, rfl⟩ | exact ⟨rfl, rfl, rfl, rfl⟩ | exact ⟨rfl, rfl, rfl, rfl, rfl⟩ | exact absurd hp (by simp [Foot.covers])) (fun hc => hc)
  try simp -zeta -zetaHave only [State.fold_boot, State.fold_clk, State.fold_nvm]
  repeat' (first | with_reducible exact key _ (by assumption) _ _ _ | with_reducible refine fun _ => ?_ | lift_lets | (with_reducible intro y; first | (refine Evolves.cut (K := K) (s := s) (y := y) ?_ ?_ <;> first | (clear_value y; with_reducible intro hy) | simp -zeta -zetaHave only [y]) | (simp -zeta -zetaHave only [y]; clear y) | (clear_value y; clear y)) | with_reducible (first | exact h | assumption | apply State.evrStart_changes | apply State.persistWrite_changes | apply State.raiseIf_changes | apply State.wrF_changes | apply State.setPhase_changes | apply State.putClk_changes | apply State.putBoot_changes | apply State.putNvm_port | apply Evolves.ite) | (split))
  all_goals (with_reducible first | assumption | exact a0.vectorOfEvents | exact a0.logOfEvents | exact a0.evrPairOfEvents | exact a0.evrOfEvents | exact a0.vectorsOfEvents | exact a0.evrStatusOfEvents | exact a0.evrDropOfEvents | exact a0.evrCommitOfEvents | exact a0.evrLogOfEvents | exact a0.evrLogBseqOfEvents | exact a2.fst | exact a2.snd | exact a6.logOfFlashes)

theorem State.slotSelect_changes {K : List Foot} {s x : State} (h : Evolves K s x) (a0 : Allows K (.one (.reg Reg.bootSlotSeq1))) (a1 : Allows K (.one (.reg Reg.bootSlotSeq0))) (a2 : Allows K .events) (a3 : Allows K (.one .boot)) (a4 : Allows K (.one (.reg Reg.hstStatus))) (a5 : Allows K (.one (.reg Reg.bootStatus))) :
    Evolves K s (State.slotSelect x) := by
  unfold State.slotSelect
  repeat' (first | with_reducible refine fun _ => ?_ | extract_lets | split | with_reducible (first | exact h | assumption | apply State.slotSeqs_changes | apply State.bootFail_changes | apply State.wrB_changes | apply State.setPhase_changes | apply State.slotFail_changes | apply Evolves.ite) | (split))
  all_goals (with_reducible first | assumption | exact a2.vectorOfEvents | exact a2.logOfEvents | exact a2.evrPairOfEvents | exact a2.evrOfEvents | exact a2.vectorsOfEvents | exact a2.evrStatusOfEvents | exact a2.evrDropOfEvents | exact a2.evrCommitOfEvents | exact a2.evrLogOfEvents | exact a2.evrLogBseqOfEvents)

theorem State.rollbackBurn_changes {K : List Foot} {s x : State} (h : Evolves K s x) (a0 : Allows K (.one (.reg Reg.bootFuse))) (a1 : Allows K (.one .rollback)) :
    Evolves K s (State.rollbackBurn x) := by
  unfold State.rollbackBurn
  try simp -zeta -zetaHave only [State.fold_nvm]
  repeat' (first | with_reducible refine fun _ => ?_ | lift_lets | (with_reducible intro y; first | (refine Evolves.cut (K := K) (s := s) (y := y) ?_ ?_ <;> first | (clear_value y; with_reducible intro hy) | simp -zeta -zetaHave only [y]) | (simp -zeta -zetaHave only [y]; clear y) | (clear_value y; clear y)) | with_reducible (first | exact h | assumption | apply State.wrF_changes | apply State.putNvm_rollback | apply Evolves.ite) | (split))
  all_goals (with_reducible first | assumption)

theorem State.sfdpRead_changes {K : List Foot} {s x : State} (fuseError) (found) (h : Evolves K s x) (a0 : Allows K .events) (a1 : Allows K (.one .flashPort)) (a2 : Allows K (.one .boot)) (a3 : Allows K (.one (.reg Reg.hstStatus))) (a4 : Allows K (.one (.reg Reg.bootStatus))) (a5 : Allows K (.one (.reg Reg.bootFlash))) (a6 : Allows K (.one (.reg Reg.bootFuse))) :
    Evolves K s (State.sfdpRead x fuseError found) := by
  unfold State.sfdpRead
  repeat' (first | with_reducible refine fun _ => ?_ | lift_lets | (with_reducible intro y; first | (refine Evolves.cut (K := K) (s := s) (y := y) ?_ ?_ <;> first | (clear_value y; with_reducible intro hy) | simp -zeta -zetaHave only [y]) | (simp -zeta -zetaHave only [y]; clear y) | (clear_value y; clear y)) | with_reducible (first | exact h | assumption | apply State.sfdpTake_changes | apply State.bootFail_changes | apply State.wr_changes | apply Evolves.ite) | (split))
  all_goals (with_reducible first | assumption | exact a0.vectorOfEvents | exact a0.logOfEvents | exact a0.evrPairOfEvents | exact a0.evrOfEvents | exact a0.vectorsOfEvents | exact a0.evrStatusOfEvents | exact a0.evrDropOfEvents | exact a0.evrCommitOfEvents | exact a0.evrLogOfEvents | exact a0.evrLogBseqOfEvents)

theorem State.factoryLoad_changes {K : List Foot} {s x : State} (h : Evolves K s x) (a0 : Allows K (.one .cal)) :
    Evolves K s (State.factoryLoad x) := by
  unfold State.factoryLoad
  repeat' (first | with_reducible refine fun _ => ?_ | lift_lets | (with_reducible intro y; first | (refine Evolves.cut (K := K) (s := s) (y := y) ?_ ?_ <;> first | (clear_value y; with_reducible intro hy) | simp -zeta -zetaHave only [y]) | (simp -zeta -zetaHave only [y]; clear y) | (clear_value y; clear y)) | with_reducible (first | exact h | assumption | apply State.calWr_changes | apply Evolves.foldl) | (split))
  all_goals (with_reducible first | assumption)

theorem State.calSelect_changes {K : List Foot} {s x : State} (h : Evolves K s x) (a0 : Allows K (.one (.reg Reg.bootStatus))) (a1 : Allows K (.chReg Reg.tiaLine)) (a2 : Allows K .chans) (a3 : Allows K (.one .snd)) (a4 : Allows K (.pair Reg.calFlags)) (a5 : Allows K (.one .cal)) (a6 : Allows K .events) (a7 : Allows K (.regs Reg.calChFail (Reg.calChFail + 2048))) (a8 : Allows K (.one (.reg Reg.calLastPcycle))) (a9 : Allows K (.pair Reg.calLastOptLo)) (a10 : Allows K (.one (.reg Reg.calCount))) (a11 : Allows K (.one (.reg Reg.calStatus))) (a12 : Allows K (.one (.reg Reg.calSeqB))) (a13 : Allows K (.one (.reg Reg.calSeqA))) :
    Evolves K s (State.calSelect x) := by
  unfold State.calSelect
  try simp -zeta -zetaHave only [State.fold_cal]
  repeat' (first | with_reducible refine fun _ => ?_ | lift_lets | (with_reducible intro y; first | (refine Evolves.cut (K := K) (s := s) (y := y) ?_ ?_ <;> first | (clear_value y; with_reducible intro hy) | simp -zeta -zetaHave only [y]) | (simp -zeta -zetaHave only [y]; clear y) | (clear_value y; clear y)) | with_reducible (first | exact h | assumption | apply State.setPhase_changes | apply State.linesLoad_changes | apply State.allKref_changes | apply State.post_changes | apply State.raise_changes | apply State.recordsLoad_changes | apply State.bankActive_changes | apply State.wrB_changes | apply State.wr_changes | apply State.factoryLoad_changes | apply State.putCal_changes | apply Evolves.ite) | (split))
  all_goals (with_reducible first | assumption | exact a1.ofCh (by decide) | exact a2.chanOf | exact a4.fst | exact a4.snd | exact a6.vectorOfEvents | exact a6.logOfEvents | exact a6.evrPairOfEvents | exact a6.evrOfEvents | exact a6.vectorsOfEvents | exact a6.evrStatusOfEvents | exact a6.evrDropOfEvents | exact a6.evrCommitOfEvents | exact a6.evrLogOfEvents | exact a6.evrLogBseqOfEvents | exact a7.inRegs (by decide) | exact a7.pairInRegs (by decide) | exact a7.regsInRegs (by decide) | exact a9.fst | exact a9.snd)

theorem State.srefExit_changes {K : List Foot} {s x : State} (h : Evolves K s x) (a0 : Allows K (.one .boot)) (a1 : Allows K (.one (.reg Reg.memStatus))) :
    Evolves K s (State.srefExit x) := by
  unfold State.srefExit
  try simp -zeta -zetaHave only [State.fold_boot]
  repeat' (first | with_reducible refine fun _ => ?_ | lift_lets | (with_reducible intro y; first | (refine Evolves.cut (K := K) (s := s) (y := y) ?_ ?_ <;> first | (clear_value y; with_reducible intro hy) | simp -zeta -zetaHave only [y]) | (simp -zeta -zetaHave only [y]; clear y) | (clear_value y; clear y)) | with_reducible (first | exact h | apply State.wrB_changes | apply State.putBoot_changes | apply Evolves.ite))
  all_goals (with_reducible first | assumption)

theorem State.bodyStream_changes {K : List Foot} {s x : State} (h : Evolves K s x) (a0 : Allows K (.one (.reg Reg.bootStatus))) (a1 : Allows K .drams) (a2 : Allows K (.one .boot)) (a3 : Allows K .events) (a4 : Allows K (.one (.reg Reg.hstStatus))) :
    Evolves K s (State.bodyStream x) := by
  unfold State.bodyStream
  try simp -zeta -zetaHave only [State.fold_mem]
  repeat' (first | with_reducible refine fun _ => ?_ | lift_lets | (with_reducible intro y; first | (refine Evolves.cut (K := K) (s := s) (y := y) ?_ ?_ <;> first | (clear_value y; with_reducible intro hy) | simp -zeta -zetaHave only [y]) | (simp -zeta -zetaHave only [y]; clear y) | (clear_value y; clear y)) | with_reducible (first | exact h | assumption | apply State.setPhase_changes | apply State.dramWr_changes | apply State.slotFail_changes | apply State.putMem_drams | apply Evolves.ite) | (split))
  all_goals (with_reducible first | assumption | exact a1.dramOf | exact a3.vectorOfEvents | exact a3.logOfEvents | exact a3.evrPairOfEvents | exact a3.evrOfEvents | exact a3.vectorsOfEvents | exact a3.evrStatusOfEvents | exact a3.evrDropOfEvents | exact a3.evrCommitOfEvents | exact a3.evrLogOfEvents | exact a3.evrLogBseqOfEvents | exact Tbl.wf_filter _ _ (by assumption) | exact Tbl.wf_set _ _ _ (by assumption) | exact Tbl.wf_setList _ _ _ (by assumption))

theorem State.imageDone_changes {K : List Foot} {s x : State} (h : Evolves K s x) (a0 : Allows K .completion) (a1 : Allows K (.one (.reg Reg.bootRewrite))) (a2 : Allows K .events) (a3 : Allows K (.one (.reg Reg.bootSlotSeq1))) (a4 : Allows K (.one (.reg Reg.bootSlotSeq0))) (a5 : Allows K .flashes) :
    Evolves K s (State.imageDone x) := by
  unfold State.imageDone
  repeat' (first | with_reducible refine fun _ => ?_ | lift_lets | (with_reducible intro y; first | (refine Evolves.cut (K := K) (s := s) (y := y) ?_ ?_ <;> first | (clear_value y; with_reducible intro hy) | simp -zeta -zetaHave only [y]) | (simp -zeta -zetaHave only [y]; clear y) | (clear_value y; clear y)) | with_reducible (first | exact h | assumption | apply State.bgEnd_changes | apply State.wrF_changes | apply State.rewriteState_changes | apply State.post_changes | apply State.slotSeqs_changes | apply State.flashWr_changes | apply Evolves.ite) | (split))
  all_goals (with_reducible first | assumption | exact a0.vectorOfCompletion | exact a0.ringsOfCompletion | exact a0.hostMemOfCompletion | exact a0.vectorsOfCompletion | exact a0.cplTailOfCompletion | exact a0.cplDropOfCompletion | exact a2.vectorOfEvents | exact a2.logOfEvents | exact a2.evrPairOfEvents | exact a2.evrOfEvents | exact a2.vectorsOfEvents | exact a2.evrStatusOfEvents | exact a2.evrDropOfEvents | exact a2.evrCommitOfEvents | exact a2.evrLogOfEvents | exact a2.evrLogBseqOfEvents | exact a5.logOfFlashes)


end Sys2Proof.Machine
end

