-- ==== Sys2Proof/Laws/FrameRegs.lean ====
section
/-! SUPPORT. What each operation of Machine/Regs.lean can change: from a state that has changed only parts of the footprint `K`,
the operation changes only parts of `K`, where `K` allows the operation's own footprint. -/

set_option Elab.async false
set_option linter.all false

namespace Sys2Proof.Machine

theorem State.calCtl_changes {K : List Foot} {s x : State} (v) (h : Evolves K s x) (a0 : Allows K .completion) (a1 : Allows K .events) (a2 : Allows K (.one (.reg Reg.calScope))) (a3 : Allows K (.one (.reg Reg.calTime))) (a4 : Allows K (.one (.reg Reg.calStatus))) (a5 : Allows K (.one .cal)) (a6 : Allows K (.chReg Reg.pmuStatus)) (a7 : Allows K .chans) (a8 : Allows K (.chReg Reg.peStatus)) (a9 : Allows K (.chReg Reg.tiaStatus)) (a10 : Allows K (.chReg Reg.tiaDiscard)) (a11 : Allows K (.chPair Reg.tiaMaxLo)) (a12 : Allows K (.chPair Reg.tiaMinLo)) (a13 : Allows K (.chPair Reg.tiaSdevLo)) (a14 : Allows K (.chPair Reg.tiaMeanLo)) (a15 : Allows K (.chReg Reg.tiaCount)) (a16 : Allows K (.chPair Reg.tiaLastLo)) (a17 : Allows K (.chReg Reg.tiaSkip)) (a18 : Allows K .clus) (a19 : Allows K (.chReg Reg.tiaFcnt)) (a20 : Allows K (.chReg Reg.tiaCdCtl)) (a21 : Allows K (.one .freeCtr)) :
    Evolves K s (State.calCtl x v) := by
  unfold State.calCtl
  repeat' (first | with_reducible refine fun _ => ?_ | lift_lets | (with_reducible intro y; first | (refine Evolves.cut (K := K) (s := s) (y := y) ?_ ?_ <;> first | (clear_value y; with_reducible intro hy) | simp -zeta -zetaHave only [y]) | (simp -zeta -zetaHave only [y]; clear y) | (clear_value y; clear y)) | with_reducible (first | exact h | assumption | apply State.calAbort_changes | apply State.freeWord_changes | apply Evolves.ite) | (split))
  all_goals (with_reducible first | assumption | exact a0.vectorOfCompletion | exact a0.ringsOfCompletion | exact a0.hostMemOfCompletion | exact a0.vectorsOfCompletion | exact a0.cplTailOfCompletion | exact a0.cplDropOfCompletion | exact a1.vectorOfEvents | exact a1.logOfEvents | exact a1.evrPairOfEvents | exact a1.evrOfEvents | exact a1.vectorsOfEvents | exact a1.evrStatusOfEvents | exact a1.evrDropOfEvents | exact a1.evrCommitOfEvents | exact a1.evrLogOfEvents | exact a1.evrLogBseqOfEvents | exact a6.ofCh (by decide) | exact a7.chanOf | exact a8.ofCh (by decide) | exact a9.ofCh (by decide) | exact a10.ofCh (by decide) | exact a11.pairCh (by decide) | exact a11.chFst | exact a11.chSnd | exact a11.chFst.ofCh (by decide) | exact a11.chSnd.ofCh (by decide) | exact a12.pairCh (by decide) | exact a12.chFst | exact a12.chSnd | exact a12.chFst.ofCh (by decide) | exact a12.chSnd.ofCh (by decide) | exact a13.pairCh (by decide) | exact a13.chFst | exact a13.chSnd | exact a13.chFst.ofCh (by decide) | exact a13.chSnd.ofCh (by decide) | exact a14.pairCh (by decide) | exact a14.chFst | exact a14.chSnd | exact a14.chFst.ofCh (by decide) | exact a14.chSnd.ofCh (by decide) | exact a15.ofCh (by decide) | exact a16.pairCh (by decide) | exact a16.chFst | exact a16.chSnd | exact a16.chFst.ofCh (by decide) | exact a16.chSnd.ofCh (by decide) | exact a17.ofCh (by decide) | exact a18.cluOf | exact a19.ofCh (by decide) | exact a20.ofCh (by decide))

theorem State.devWrite_changes {K : List Foot} {s x : State} (off) (v) (h : Evolves K s x) (a0 : Allows K (.pair Reg.clkFlags)) (a1 : Allows K (.one (.reg Reg.clkEppPeriod))) (a2 : Allows K (.one (.reg Reg.clkEppWidth))) (a3 : Allows K (.one (.reg Reg.clkEppOffset))) (a4 : Allows K (.one (.reg Reg.hstCplTail))) (a5 : Allows K (.one (.reg Reg.hstCplHead))) (a6 : Allows K (.one (.reg Reg.hstCmdHead))) (a7 : Allows K (.one (.reg Reg.hstCmdTail))) (a8 : Allows K (.one (.reg Reg.hstStatus))) (a9 : Allows K (.one (.reg Reg.hstRingCtl))) (a10 : Allows K .hostError) (a11 : Allows K (.one (.reg off))) (a12 : Allows K (.one .msix)) (a13 : Allows K (.one .cwy)) (a14 : Allows K (.pair Reg.cwyFlags)) (a15 : Allows K .completion) (a16 : Allows K .events) (a17 : Allows K (.one (.reg Reg.calScope))) (a18 : Allows K (.one (.reg Reg.calTime))) (a19 : Allows K (.one (.reg Reg.calStatus))) (a20 : Allows K (.one .cal)) (a21 : Allows K (.chReg Reg.pmuStatus)) (a22 : Allows K .chans) (a23 : Allows K (.chReg Reg.peStatus)) (a24 : Allows K (.chReg Reg.tiaStatus)) (a25 : Allows K (.chReg Reg.tiaDiscard)) (a26 : Allows K (.chPair Reg.tiaMaxLo)) (a27 : Allows K (.chPair Reg.tiaMinLo)) (a28 : Allows K (.chPair Reg.tiaSdevLo)) (a29 : Allows K (.chPair Reg.tiaMeanLo)) (a30 : Allows K (.chReg Reg.tiaCount)) (a31 : Allows K (.chPair Reg.tiaLastLo)) (a32 : Allows K (.chReg Reg.tiaSkip)) (a33 : Allows K .clus) (a34 : Allows K (.chReg Reg.tiaFcnt)) (a35 : Allows K (.chReg Reg.tiaCdCtl)) (a36 : Allows K (.one .freeCtr)) (a37 : Allows K (.pair Reg.sndFlags)) (a38 : Allows K (.one .snd)) (a39 : Allows K (.one (.reg Reg.sndStatus))) (a40 : Allows K (.chReg Reg.tiaLine)) (a41 : Allows K (.one (.reg Reg.memRetWakes))) (a42 : Allows K (.one (.reg Reg.memRetState))) (a43 : Allows K (.pair Reg.calFlags)) (a44 : Allows K (.pair Reg.sndMaskLo)) (a45 : Allows K (.one (.reg Reg.flSiteMaskLo))) (a46 : Allows K (.one (.reg Reg.flSiteMaskHi))) (a47 : Allows K (.pair Reg.flDevFlags)) (a48 : Allows K (.one (.reg (flOff FlReg.bmpEnLo)))) (a49 : Allows K (.one (.reg (flOff FlReg.bmpEnHi)))) (a50 : Allows K (.one (.reg (flOff FlReg.geom)))) (a51 : Allows K (.one (.reg (flOff FlReg.recSize)))) (a52 : Allows K (.one (.reg (flOff FlReg.rcLimit)))) (a53 : Allows K (.one .plan)) (a54 : Allows K (.one (.reg Reg.flClear))) (a55 : Allows K .failCnts) (a56 : Allows K (.regs Reg.flSiteFail (Reg.flSiteFail + 1024))) :
    Evolves K s (State.devWrite x off v) := by
  unfold State.devWrite
  repeat' (first | with_reducible refine fun _ => ?_ | with_reducible (first | exact h | apply State.eppPeriodWrite_changes | apply State.eppWidthWrite_changes | apply State.eppOffsetWrite_changes | apply State.ringCtl_changes | apply State.ringBase_changes | apply State.ringIndex_changes | apply State.vecAck_changes | apply State.msixWrite_changes | apply State.sendWrite_changes | apply State.calCtl_changes | apply State.sndCtl_changes | apply State.siteMaskWrite_changes | apply State.flConfig_changes | apply State.flClear_changes | apply State.plainWrite_changes | apply Evolves.ite))
  all_goals (with_reducible first | assumption | exact a0.fst | exact a0.snd | exact a10.hstFlagsOfError | exact a10.readsOfError | exact a10.badAddrOfError | exact a14.fst | exact a14.snd | exact a15.vectorOfCompletion | exact a15.ringsOfCompletion | exact a15.hostMemOfCompletion | exact a15.vectorsOfCompletion | exact a15.cplTailOfCompletion | exact a15.cplDropOfCompletion | exact a16.vectorOfEvents | exact a16.logOfEvents | exact a16.evrPairOfEvents | exact a16.evrOfEvents | exact a16.vectorsOfEvents | exact a16.evrStatusOfEvents | exact a16.evrDropOfEvents | exact a16.evrCommitOfEvents | exact a16.evrLogOfEvents | exact a16.evrLogBseqOfEvents | exact a21.ofCh (by decide) | exact a22.chanOf | exact a23.ofCh (by decide) | exact a24.ofCh (by decide) | exact a25.ofCh (by decide) | exact a26.pairCh (by decide) | exact a26.chFst | exact a26.chSnd | exact a26.chFst.ofCh (by decide) | exact a26.chSnd.ofCh (by decide) | exact a27.pairCh (by decide) | exact a27.chFst | exact a27.chSnd | exact a27.chFst.ofCh (by decide) | exact a27.chSnd.ofCh (by decide) | exact a28.pairCh (by decide) | exact a28.chFst | exact a28.chSnd | exact a28.chFst.ofCh (by decide) | exact a28.chSnd.ofCh (by decide) | exact a29.pairCh (by decide) | exact a29.chFst | exact a29.chSnd | exact a29.chFst.ofCh (by decide) | exact a29.chSnd.ofCh (by decide) | exact a30.ofCh (by decide) | exact a31.pairCh (by decide) | exact a31.chFst | exact a31.chSnd | exact a31.chFst.ofCh (by decide) | exact a31.chSnd.ofCh (by decide) | exact a32.ofCh (by decide) | exact a33.cluOf | exact a34.ofCh (by decide) | exact a35.ofCh (by decide) | exact a37.fst | exact a37.snd | exact a40.ofCh (by decide) | exact a43.fst | exact a43.snd | exact a44.fst | exact a44.snd | exact a47.fst | exact a47.snd | exact a56.inRegs (by decide) | exact a56.pairInRegs (by decide) | exact a56.regsInRegs (by decide))

theorem State.roleWrite_changes {K : List Foot} {s x : State} (off) (v) (h : Evolves K s x) (a0 : Allows K (.one (.reg off))) :
    Evolves K s (State.roleWrite x off v) := by
  unfold State.roleWrite
  repeat' (first | with_reducible refine fun _ => ?_ | with_reducible (first | exact h | apply State.wr_changes | apply Evolves.ite))
  all_goals (with_reducible first | assumption)

theorem State.acqCtl_changes {K : List Foot} {s x : State} (c) (v) (h : Evolves K s x) (a0 : Allows K (.pair (cluOff c Reg.acqFlags))) (a1 : Allows K .events) (a2 : Allows K (.one (.clu c))) (a3 : Allows K (.one (.reg (cluOff c Reg.acqStatus)))) (a4 : Allows K (.one (.reg (cluOff c Reg.acqFrameCnt)))) (a5 : Allows K (.one (.reg (cluOff c Reg.acqDrop)))) (a6 : Allows K (.one (.reg (cluOff c Reg.acqGapLen)))) (a7 : Allows K (.one (.reg (cluOff c Reg.acqGapCnt)))) (a8 : Allows K (.chReg Reg.tiaLine)) (a9 : Allows K .chans) (a10 : Allows K (.one (.reg Reg.memRetWakes))) (a11 : Allows K (.one (.reg Reg.memRetState))) (a12 : Allows K (.one (.reg (cluOff c Reg.acqMissed)))) :
    Evolves K s (State.acqCtl x c v) := by
  unfold State.acqCtl
  repeat' (first | with_reducible refine fun _ => ?_ | lift_lets | (with_reducible intro y; first | (refine Evolves.cut (K := K) (s := s) (y := y) ?_ ?_ <;> first | (clear_value y; with_reducible intro hy) | simp -zeta -zetaHave only [y]) | (simp -zeta -zetaHave only [y]; clear y) | (clear_value y; clear y)) | with_reducible (first | exact h | assumption | apply State.acqReject_changes | apply State.acqAbort_changes | apply State.acqForce_changes | apply State.acqArm_changes | apply Evolves.ite) | (split))
  all_goals (with_reducible first | assumption | exact a0.fst | exact a0.snd | exact a1.vectorOfEvents | exact a1.logOfEvents | exact a1.evrPairOfEvents | exact a1.evrOfEvents | exact a1.vectorsOfEvents | exact a1.evrStatusOfEvents | exact a1.evrDropOfEvents | exact a1.evrCommitOfEvents | exact a1.evrLogOfEvents | exact a1.evrLogBseqOfEvents | exact a8.ofCh (by decide) | exact a9.chanOf)

theorem State.cluWrite_changes {K : List Foot} {s x : State} (c) (o) (v) (h : Evolves K s x) (a0 : Allows K (.one (.reg (cluOff c o)))) (a1 : Allows K (.chReg Reg.tiaLine)) (a2 : Allows K .chans) (a3 : Allows K (.one (.reg Reg.memRetWakes))) (a4 : Allows K (.one (.reg Reg.memRetState))) (a5 : Allows K (.pair (cluOff c Reg.peClFlags))) (a6 : Allows K (.one (.clu c))) (a7 : Allows K (.one (.reg (cluOff c Reg.peMonCtl)))) (a8 : Allows K (.one (.reg (cluOff c Reg.peMonMismatch)))) (a9 : Allows K (.pair (cluOff c Reg.plnFlags))) (a10 : Allows K (.one (.lane c))) (a11 : Allows K (.one (.reg (cluOff c Reg.plnSluicePos)))) (a12 : Allows K (.one (.reg (cluOff c Reg.plnSluice)))) (a13 : Allows K (.one (.reg (cluOff c Reg.plnSluiceSize)))) (a14 : Allows K (.one (.reg (cluOff c Reg.plnSluiceBase)))) (a15 : Allows K (.pair (cluOff c Reg.acqFlags))) (a16 : Allows K .events) (a17 : Allows K (.one (.reg (cluOff c Reg.acqStatus)))) (a18 : Allows K (.one (.reg (cluOff c Reg.acqFrameCnt)))) (a19 : Allows K (.one (.reg (cluOff c Reg.acqDrop)))) (a20 : Allows K (.one (.reg (cluOff c Reg.acqGapLen)))) (a21 : Allows K (.one (.reg (cluOff c Reg.acqGapCnt)))) (a22 : Allows K (.one (.reg (cluOff c Reg.acqMissed)))) (a23 : Allows K (.one (.reg (cluOff c Reg.acqSpillRd)))) (a24 : Allows K (.one (.reg (cluOff c Reg.acqSpillWr)))) (a25 : Allows K (.one (.reg (cluOff c (Reg.acqSpillBase))))) (a26 : Allows K (.one (.reg (cluOff c (Reg.acqSpillSize))))) (a27 : Allows K (.pair (cluOff c Reg.ddsData0))) (a28 : Allows K (.pair (cluOff c Reg.ddsFlags))) (a29 : Allows K (.one (.reg (cluOff c Reg.ddsAddr)))) (a30 : Allows K (.one .freeCtr)) :
    Evolves K s (State.cluWrite x c o v) := by
  unfold State.cluWrite
  repeat' (first | with_reducible refine fun _ => ?_ | lift_lets | (with_reducible intro y; first | (refine Evolves.cut (K := K) (s := s) (y := y) ?_ ?_ <;> first | (clear_value y; with_reducible intro hy) | simp -zeta -zetaHave only [y]) | (simp -zeta -zetaHave only [y]; clear y) | (clear_value y; clear y)) | with_reducible (first | exact h | assumption | apply State.roleWrite_changes | apply State.hostStrobe_changes | apply State.monStart_changes | apply State.pmuSync_changes | apply State.sluicePost_changes | apply State.sluiceConfig_changes | apply State.acqCtl_changes | apply State.acqConfig_changes | apply State.spillConfig_changes | apply State.spillRdWrite_changes | apply State.ddsAddrFree_changes | apply State.plainWrite_changes | apply Evolves.ite) | (split))
  all_goals (with_reducible first | assumption | exact a1.ofCh (by decide) | exact a2.chanOf | exact a5.fst | exact a5.snd | exact a9.fst | exact a9.snd | exact a15.fst | exact a15.snd | exact a16.vectorOfEvents | exact a16.logOfEvents | exact a16.evrPairOfEvents | exact a16.evrOfEvents | exact a16.vectorsOfEvents | exact a16.evrStatusOfEvents | exact a16.evrDropOfEvents | exact a16.evrCommitOfEvents | exact a16.evrLogOfEvents | exact a16.evrLogBseqOfEvents | exact a27.fst | exact a27.snd | exact a28.fst | exact a28.snd)

theorem State.tiaCtl_changes {K : List Foot} {s x : State} (n) (v) (h : Evolves K s x) (a0 : Allows K (.pair (chOff n Reg.tiaFlags))) (a1 : Allows K .events) (a2 : Allows K (.one (.reg (chOff n Reg.tiaStatus)))) (a3 : Allows K (.pair (chOff n Reg.tiaMaxLo))) (a4 : Allows K (.pair (chOff n Reg.tiaMinLo))) (a5 : Allows K (.pair (chOff n Reg.tiaSdevLo))) (a6 : Allows K (.pair (chOff n Reg.tiaMeanLo))) (a7 : Allows K (.one (.reg (chOff n Reg.tiaFcnt)))) (a8 : Allows K (.one (.reg (chOff n Reg.tiaCount)))) (a9 : Allows K (.one (.reg (chOff n Reg.tiaDiscard)))) (a10 : Allows K (.pair (chOff n Reg.tiaLastLo))) (a11 : Allows K (.one (.reg (chOff n Reg.tiaSkip)))) (a12 : Allows K (.one (.clu (n / 16)))) (a13 : Allows K (.one .freeCtr)) (a14 : Allows K (.chReg Reg.tiaLine)) (a15 : Allows K .chans) (a16 : Allows K (.one (.reg Reg.memRetWakes))) (a17 : Allows K (.one (.reg Reg.memRetState))) :
    Evolves K s (State.tiaCtl x n v) := by
  unfold State.tiaCtl
  repeat' (first | with_reducible refine fun _ => ?_ | lift_lets | (with_reducible intro y; first | (refine Evolves.cut (K := K) (s := s) (y := y) ?_ ?_ <;> first | (clear_value y; with_reducible intro hy) | simp -zeta -zetaHave only [y]) | (simp -zeta -zetaHave only [y]; clear y) | (clear_value y; clear y)) | with_reducible (first | exact h | assumption | apply State.tiaReject_changes | apply State.tiaAbort_changes | apply State.freeCycle_changes | apply State.tiaArm_changes | apply Evolves.ite) | (split))
  all_goals (with_reducible first | assumption | exact a0.fst | exact a0.snd | exact a1.vectorOfEvents | exact a1.logOfEvents | exact a1.evrPairOfEvents | exact a1.evrOfEvents | exact a1.vectorsOfEvents | exact a1.evrStatusOfEvents | exact a1.evrDropOfEvents | exact a1.evrCommitOfEvents | exact a1.evrLogOfEvents | exact a1.evrLogBseqOfEvents | exact a3.fst | exact a3.snd | exact a4.fst | exact a4.snd | exact a5.fst | exact a5.snd | exact a6.fst | exact a6.snd | exact a10.fst | exact a10.snd | exact a14.ofCh (by decide) | exact a15.chanOf)

theorem State.chWrite_changes {K : List Foot} {s x : State} (n) (o) (v) (h : Evolves K s x) (a0 : Allows K (.one (.reg (chOff n o)))) (a1 : Allows K (.pair (chOff n Reg.peFlags))) (a2 : Allows K (.pair (chOff n Reg.pmuFlags))) (a3 : Allows K (.pair (chOff n Reg.tiaFlags))) (a4 : Allows K (.one (.reg (chOff n Reg.tiaTimeout)))) (a5 : Allows K (.one (.reg (chOff n Reg.tiaCfg)))) (a6 : Allows K (.one (.reg (chOff n Reg.tiaGate)))) (a7 : Allows K (.one (.reg (chOff n Reg.tiaN)))) (a8 : Allows K .events) (a9 : Allows K (.one (.reg (chOff n Reg.tiaStatus)))) (a10 : Allows K (.pair (chOff n Reg.tiaMaxLo))) (a11 : Allows K (.pair (chOff n Reg.tiaMinLo))) (a12 : Allows K (.pair (chOff n Reg.tiaSdevLo))) (a13 : Allows K (.pair (chOff n Reg.tiaMeanLo))) (a14 : Allows K (.one (.reg (chOff n Reg.tiaFcnt)))) (a15 : Allows K (.one (.reg (chOff n Reg.tiaCount)))) (a16 : Allows K (.one (.reg (chOff n Reg.tiaDiscard)))) (a17 : Allows K (.pair (chOff n Reg.tiaLastLo))) (a18 : Allows K (.one (.reg (chOff n Reg.tiaSkip)))) (a19 : Allows K (.one (.clu (n / 16)))) (a20 : Allows K (.one .freeCtr)) (a21 : Allows K (.chReg Reg.tiaLine)) (a22 : Allows K .chans) (a23 : Allows K (.one (.reg Reg.memRetWakes))) (a24 : Allows K (.one (.reg Reg.memRetState))) (a25 : Allows K (.one (.reg (chOff n Reg.tiaCdCtl)))) :
    Evolves K s (State.chWrite x n o v) := by
  unfold State.chWrite
  repeat' (first | with_reducible refine fun _ => ?_ | lift_lets | (with_reducible intro y; first | (refine Evolves.cut (K := K) (s := s) (y := y) ?_ ?_ <;> first | (clear_value y; with_reducible intro hy) | simp -zeta -zetaHave only [y]) | (simp -zeta -zetaHave only [y]; clear y) | (clear_value y; clear y)) | with_reducible (first | exact h | assumption | apply State.stagingWrite_changes | apply State.tiaConfig_changes | apply State.tiaNWrite_changes | apply State.tiaCtl_changes | apply State.densityWrite_changes | apply State.plainWrite_changes | apply State.modChan_changes | apply Evolves.ite))
  all_goals (with_reducible first | assumption | exact a1.fst | exact a1.snd | exact a2.fst | exact a2.snd | exact a3.fst | exact a3.snd | exact a8.vectorOfEvents | exact a8.logOfEvents | exact a8.evrPairOfEvents | exact a8.evrOfEvents | exact a8.vectorsOfEvents | exact a8.evrStatusOfEvents | exact a8.evrDropOfEvents | exact a8.evrCommitOfEvents | exact a8.evrLogOfEvents | exact a8.evrLogBseqOfEvents | exact a10.fst | exact a10.snd | exact a11.fst | exact a11.snd | exact a12.fst | exact a12.snd | exact a13.fst | exact a13.snd | exact a17.fst | exact a17.snd | exact a21.ofCh (by decide) | exact a22.chanOf)

theorem State.regWrite_changes {K : List Foot} {s x : State} (off) (v) (h : Evolves K s x) (a0 : Allows K (.one (.reg Reg.memCollide))) (a1 : Allows K .failCnts) (a2 : Allows K (.cluPair Reg.flFlags)) (a3 : Allows K .events) (a4 : Allows K (.one (.reg Reg.memEccAddr))) (a5 : Allows K (.pair Reg.memFlags)) (a6 : Allows K (.one (.reg Reg.memEccCnt))) (a7 : Allows K (.one .plan)) (a8 : Allows K .drams) (a9 : Allows K (.cluReg Reg.flRecWr)) (a10 : Allows K .lanes) (a11 : Allows K (.cluReg Reg.flRecLost)) (a12 : Allows K (.regs Reg.flSiteFail (Reg.flSiteFail + 1024))) (a13 : Allows K (.regs Reg.flFirst (Reg.flFirst + 2048))) (a14 : Allows K (.pair Reg.clkFlags)) (a15 : Allows K (.one (.reg Reg.clkEppPeriod))) (a16 : Allows K (.one (.reg Reg.clkEppWidth))) (a17 : Allows K (.one (.reg Reg.clkEppOffset))) (a18 : Allows K (.one (.reg Reg.hstCplTail))) (a19 : Allows K (.one (.reg Reg.hstCplHead))) (a20 : Allows K (.one (.reg Reg.hstCmdHead))) (a21 : Allows K (.one (.reg Reg.hstCmdTail))) (a22 : Allows K (.one (.reg Reg.hstStatus))) (a23 : Allows K (.one (.reg Reg.hstRingCtl))) (a24 : Allows K .hostError) (a25 : Allows K (.one (.reg off))) (a26 : Allows K (.one .msix)) (a27 : Allows K (.one .cwy)) (a28 : Allows K (.pair Reg.cwyFlags)) (a29 : Allows K .completion) (a30 : Allows K (.one (.reg Reg.calScope))) (a31 : Allows K (.one (.reg Reg.calTime))) (a32 : Allows K (.one (.reg Reg.calStatus))) (a33 : Allows K (.one .cal)) (a34 : Allows K (.chReg Reg.pmuStatus)) (a35 : Allows K .chans) (a36 : Allows K (.chReg Reg.peStatus)) (a37 : Allows K (.chReg Reg.tiaStatus)) (a38 : Allows K (.chReg Reg.tiaDiscard)) (a39 : Allows K (.chPair Reg.tiaMaxLo)) (a40 : Allows K (.chPair Reg.tiaMinLo)) (a41 : Allows K (.chPair Reg.tiaSdevLo)) (a42 : Allows K (.chPair Reg.tiaMeanLo)) (a43 : Allows K (.chReg Reg.tiaCount)) (a44 : Allows K (.chPair Reg.tiaLastLo)) (a45 : Allows K (.chReg Reg.tiaSkip)) (a46 : Allows K .clus) (a47 : Allows K (.chReg Reg.tiaFcnt)) (a48 : Allows K (.chReg Reg.tiaCdCtl)) (a49 : Allows K (.one .freeCtr)) (a50 : Allows K (.pair Reg.sndFlags)) (a51 : Allows K (.one .snd)) (a52 : Allows K (.one (.reg Reg.sndStatus))) (a53 : Allows K (.chReg Reg.tiaLine)) (a54 : Allows K (.one (.reg Reg.memRetWakes))) (a55 : Allows K (.one (.reg Reg.memRetState))) (a56 : Allows K (.pair Reg.calFlags)) (a57 : Allows K (.pair Reg.sndMaskLo)) (a58 : Allows K (.one (.reg Reg.flSiteMaskLo))) (a59 : Allows K (.one (.reg Reg.flSiteMaskHi))) (a60 : Allows K (.pair Reg.flDevFlags)) (a61 : Allows K (.one (.reg (flOff FlReg.bmpEnLo)))) (a62 : Allows K (.one (.reg (flOff FlReg.bmpEnHi)))) (a63 : Allows K (.one (.reg (flOff FlReg.geom)))) (a64 : Allows K (.one (.reg (flOff FlReg.recSize)))) (a65 : Allows K (.one (.reg (flOff FlReg.rcLimit)))) (a66 : Allows K (.one (.reg Reg.flClear))) (a67 : Allows K (.one (.reg (cluOff ((off - 8388608) / 131072) ((off - 8388608) % 131072))))) (a68 : Allows K (.pair (cluOff ((off - 8388608) / 131072) Reg.peClFlags))) (a69 : Allows K (.one (.reg (cluOff ((off - 8388608) / 131072) Reg.peMonCtl)))) (a70 : Allows K (.one (.reg (cluOff ((off - 8388608) / 131072) Reg.peMonMismatch)))) (a71 : Allows K (.pair (cluOff ((off - 8388608) / 131072) Reg.plnFlags))) (a72 : Allows K (.one (.reg (cluOff ((off - 8388608) / 131072) Reg.plnSluicePos)))) (a73 : Allows K (.one (.reg (cluOff ((off - 8388608) / 131072) Reg.plnSluice)))) (a74 : Allows K (.one (.reg (cluOff ((off - 8388608) / 131072) Reg.plnSluiceSize)))) (a75 : Allows K (.one (.reg (cluOff ((off - 8388608) / 131072) Reg.plnSluiceBase)))) (a76 : Allows K (.pair (cluOff ((off - 8388608) / 131072) Reg.acqFlags))) (a77 : Allows K (.one (.reg (cluOff ((off - 8388608) / 131072) Reg.acqStatus)))) (a78 : Allows K (.one (.reg (cluOff ((off - 8388608) / 131072) Reg.acqFrameCnt)))) (a79 : Allows K (.one (.reg (cluOff ((off - 8388608) / 131072) Reg.acqDrop)))) (a80 : Allows K (.one (.reg (cluOff ((off - 8388608) / 131072) Reg.acqGapLen)))) (a81 : Allows K (.one (.reg (cluOff ((off - 8388608) / 131072) Reg.acqGapCnt)))) (a82 : Allows K (.one (.reg (cluOff ((off - 8388608) / 131072) Reg.acqMissed)))) (a83 : Allows K (.one (.reg (cluOff ((off - 8388608) / 131072) Reg.acqSpillRd)))) (a84 : Allows K (.one (.reg (cluOff ((off - 8388608) / 131072) Reg.acqSpillWr)))) (a85 : Allows K (.one (.reg (cluOff ((off - 8388608) / 131072) (Reg.acqSpillBase))))) (a86 : Allows K (.one (.reg (cluOff ((off - 8388608) / 131072) (Reg.acqSpillSize))))) (a87 : Allows K (.pair (cluOff ((off - 8388608) / 131072) Reg.ddsData0))) (a88 : Allows K (.pair (cluOff ((off - 8388608) / 131072) Reg.ddsFlags))) (a89 : Allows K (.one (.reg (cluOff ((off - 8388608) / 131072) Reg.ddsAddr)))) (a90 : Allows K (.one (.reg (chOff (chanAt off) ((off - 8388608) % 131072 % 4096))))) (a91 : Allows K (.pair (chOff (chanAt off) Reg.peFlags))) (a92 : Allows K (.pair (chOff (chanAt off) Reg.pmuFlags))) (a93 : Allows K (.pair (chOff (chanAt off) Reg.tiaFlags))) (a94 : Allows K (.one (.reg (chOff (chanAt off) Reg.tiaTimeout)))) (a95 : Allows K (.one (.reg (chOff (chanAt off) Reg.tiaCfg)))) (a96 : Allows K (.one (.reg (chOff (chanAt off) Reg.tiaGate)))) (a97 : Allows K (.one (.reg (chOff (chanAt off) Reg.tiaN)))) :
    Evolves K s (State.regWrite x off v) := by
  unfold State.regWrite
  repeat' (first | with_reducible refine fun _ => ?_ | lift_lets | (with_reducible intro y; first | (refine Evolves.cut (K := K) (s := s) (y := y) ?_ ?_ <;> first | (clear_value y; with_reducible intro hy) | simp -zeta -zetaHave only [y]) | (simp -zeta -zetaHave only [y]; clear y) | (clear_value y; clear y)) | with_reducible (first | exact h | assumption | apply State.windowWrite_changes | apply State.devWrite_changes | apply State.cluWrite_changes | apply State.chWrite_changes | apply Evolves.ite) | (split))
  all_goals (with_reducible first | assumption | exact a2.pairClu (by decide) | exact a2.cluFst | exact a2.cluSnd | exact a2.cluFst.ofClu (by decide) | exact a2.cluSnd.ofClu (by decide) | exact a3.vectorOfEvents | exact a3.logOfEvents | exact a3.evrPairOfEvents | exact a3.evrOfEvents | exact a3.vectorsOfEvents | exact a3.evrStatusOfEvents | exact a3.evrDropOfEvents | exact a3.evrCommitOfEvents | exact a3.evrLogOfEvents | exact a3.evrLogBseqOfEvents | exact a5.fst | exact a5.snd | exact a8.dramOf | exact a9.ofClu (by decide) | exact a10.laneOf | exact a11.ofClu (by decide) | exact a12.inRegs (by decide) | exact a12.pairInRegs (by decide) | exact a12.regsInRegs (by decide) | exact a13.inRegs (by decide) | exact a13.pairInRegs (by decide) | exact a13.regsInRegs (by decide) | exact a14.fst | exact a14.snd | exact a24.hstFlagsOfError | exact a24.readsOfError | exact a24.badAddrOfError | exact a28.fst | exact a28.snd | exact a29.vectorOfCompletion | exact a29.ringsOfCompletion | exact a29.hostMemOfCompletion | exact a29.vectorsOfCompletion | exact a29.cplTailOfCompletion | exact a29.cplDropOfCompletion | exact a34.ofCh (by decide) | exact a35.chanOf | exact a36.ofCh (by decide) | exact a37.ofCh (by decide) | exact a38.ofCh (by decide) | exact a39.pairCh (by decide) | exact a39.chFst | exact a39.chSnd | exact a39.chFst.ofCh (by decide) | exact a39.chSnd.ofCh (by decide) | exact a40.pairCh (by decide) | exact a40.chFst | exact a40.chSnd | exact a40.chFst.ofCh (by decide) | exact a40.chSnd.ofCh (by decide) | exact a41.pairCh (by decide) | exact a41.chFst | exact a41.chSnd | exact a41.chFst.ofCh (by decide) | exact a41.chSnd.ofCh (by decide) | exact a42.pairCh (by decide) | exact a42.chFst | exact a42.chSnd | exact a42.chFst.ofCh (by decide) | exact a42.chSnd.ofCh (by decide) | exact a43.ofCh (by decide) | exact a44.pairCh (by decide) | exact a44.chFst | exact a44.chSnd | exact a44.chFst.ofCh (by decide) | exact a44.chSnd.ofCh (by decide) | exact a45.ofCh (by decide) | exact a46.cluOf | exact a47.ofCh (by decide) | exact a48.ofCh (by decide) | exact a50.fst | exact a50.snd | exact a53.ofCh (by decide) | exact a56.fst | exact a56.snd | exact a57.fst | exact a57.snd | exact a60.fst | exact a60.snd | exact a68.fst | exact a68.snd | exact a71.fst | exact a71.snd | exact a76.fst | exact a76.snd | exact a87.fst | exact a87.snd | exact a88.fst | exact a88.snd | exact a91.fst | exact a91.snd | exact a92.fst | exact a92.snd | exact a93.fst | exact a93.snd)

theorem State.hostWrite_changes {K : List Foot} {s x : State} (off) (v) (h : Evolves K s x) (a0 : Allows K .hostError) (a1 : Allows K (.one (.reg Reg.memCollide))) (a2 : Allows K .failCnts) (a3 : Allows K (.cluPair Reg.flFlags)) (a4 : Allows K .events) (a5 : Allows K (.one (.reg Reg.memEccAddr))) (a6 : Allows K (.pair Reg.memFlags)) (a7 : Allows K (.one (.reg Reg.memEccCnt))) (a8 : Allows K (.one .plan)) (a9 : Allows K .drams) (a10 : Allows K (.cluReg Reg.flRecWr)) (a11 : Allows K .lanes) (a12 : Allows K (.cluReg Reg.flRecLost)) (a13 : Allows K (.regs Reg.flSiteFail (Reg.flSiteFail + 1024))) (a14 : Allows K (.regs Reg.flFirst (Reg.flFirst + 2048))) (a15 : Allows K (.pair Reg.clkFlags)) (a16 : Allows K (.one (.reg Reg.clkEppPeriod))) (a17 : Allows K (.one (.reg Reg.clkEppWidth))) (a18 : Allows K (.one (.reg Reg.clkEppOffset))) (a19 : Allows K (.one (.reg Reg.hstCplTail))) (a20 : Allows K (.one (.reg Reg.hstCplHead))) (a21 : Allows K (.one (.reg Reg.hstCmdHead))) (a22 : Allows K (.one (.reg Reg.hstCmdTail))) (a23 : Allows K (.one (.reg Reg.hstStatus))) (a24 : Allows K (.one (.reg Reg.hstRingCtl))) (a25 : Allows K (.one (.reg off))) (a26 : Allows K (.one .msix)) (a27 : Allows K (.one .cwy)) (a28 : Allows K (.pair Reg.cwyFlags)) (a29 : Allows K .completion) (a30 : Allows K (.one (.reg Reg.calScope))) (a31 : Allows K (.one (.reg Reg.calTime))) (a32 : Allows K (.one (.reg Reg.calStatus))) (a33 : Allows K (.one .cal)) (a34 : Allows K (.chReg Reg.pmuStatus)) (a35 : Allows K .chans) (a36 : Allows K (.chReg Reg.peStatus)) (a37 : Allows K (.chReg Reg.tiaStatus)) (a38 : Allows K (.chReg Reg.tiaDiscard)) (a39 : Allows K (.chPair Reg.tiaMaxLo)) (a40 : Allows K (.chPair Reg.tiaMinLo)) (a41 : Allows K (.chPair Reg.tiaSdevLo)) (a42 : Allows K (.chPair Reg.tiaMeanLo)) (a43 : Allows K (.chReg Reg.tiaCount)) (a44 : Allows K (.chPair Reg.tiaLastLo)) (a45 : Allows K (.chReg Reg.tiaSkip)) (a46 : Allows K .clus) (a47 : Allows K (.chReg Reg.tiaFcnt)) (a48 : Allows K (.chReg Reg.tiaCdCtl)) (a49 : Allows K (.one .freeCtr)) (a50 : Allows K (.pair Reg.sndFlags)) (a51 : Allows K (.one .snd)) (a52 : Allows K (.one (.reg Reg.sndStatus))) (a53 : Allows K (.chReg Reg.tiaLine)) (a54 : Allows K (.one (.reg Reg.memRetWakes))) (a55 : Allows K (.one (.reg Reg.memRetState))) (a56 : Allows K (.pair Reg.calFlags)) (a57 : Allows K (.pair Reg.sndMaskLo)) (a58 : Allows K (.one (.reg Reg.flSiteMaskLo))) (a59 : Allows K (.one (.reg Reg.flSiteMaskHi))) (a60 : Allows K (.pair Reg.flDevFlags)) (a61 : Allows K (.one (.reg (flOff FlReg.bmpEnLo)))) (a62 : Allows K (.one (.reg (flOff FlReg.bmpEnHi)))) (a63 : Allows K (.one (.reg (flOff FlReg.geom)))) (a64 : Allows K (.one (.reg (flOff FlReg.recSize)))) (a65 : Allows K (.one (.reg (flOff FlReg.rcLimit)))) (a66 : Allows K (.one (.reg Reg.flClear))) (a67 : Allows K (.one (.reg (cluOff ((off - 8388608) / 131072) ((off - 8388608) % 131072))))) (a68 : Allows K (.pair (cluOff ((off - 8388608) / 131072) Reg.peClFlags))) (a69 : Allows K (.one (.reg (cluOff ((off - 8388608) / 131072) Reg.peMonCtl)))) (a70 : Allows K (.one (.reg (cluOff ((off - 8388608) / 131072) Reg.peMonMismatch)))) (a71 : Allows K (.pair (cluOff ((off - 8388608) / 131072) Reg.plnFlags))) (a72 : Allows K (.one (.reg (cluOff ((off - 8388608) / 131072) Reg.plnSluicePos)))) (a73 : Allows K (.one (.reg (cluOff ((off - 8388608) / 131072) Reg.plnSluice)))) (a74 : Allows K (.one (.reg (cluOff ((off - 8388608) / 131072) Reg.plnSluiceSize)))) (a75 : Allows K (.one (.reg (cluOff ((off - 8388608) / 131072) Reg.plnSluiceBase)))) (a76 : Allows K (.pair (cluOff ((off - 8388608) / 131072) Reg.acqFlags))) (a77 : Allows K (.one (.reg (cluOff ((off - 8388608) / 131072) Reg.acqStatus)))) (a78 : Allows K (.one (.reg (cluOff ((off - 8388608) / 131072) Reg.acqFrameCnt)))) (a79 : Allows K (.one (.reg (cluOff ((off - 8388608) / 131072) Reg.acqDrop)))) (a80 : Allows K (.one (.reg (cluOff ((off - 8388608) / 131072) Reg.acqGapLen)))) (a81 : Allows K (.one (.reg (cluOff ((off - 8388608) / 131072) Reg.acqGapCnt)))) (a82 : Allows K (.one (.reg (cluOff ((off - 8388608) / 131072) Reg.acqMissed)))) (a83 : Allows K (.one (.reg (cluOff ((off - 8388608) / 131072) Reg.acqSpillRd)))) (a84 : Allows K (.one (.reg (cluOff ((off - 8388608) / 131072) Reg.acqSpillWr)))) (a85 : Allows K (.one (.reg (cluOff ((off - 8388608) / 131072) (Reg.acqSpillBase))))) (a86 : Allows K (.one (.reg (cluOff ((off - 8388608) / 131072) (Reg.acqSpillSize))))) (a87 : Allows K (.pair (cluOff ((off - 8388608) / 131072) Reg.ddsData0))) (a88 : Allows K (.pair (cluOff ((off - 8388608) / 131072) Reg.ddsFlags))) (a89 : Allows K (.one (.reg (cluOff ((off - 8388608) / 131072) Reg.ddsAddr)))) (a90 : Allows K (.one (.reg (chOff (chanAt off) ((off - 8388608) % 131072 % 4096))))) (a91 : Allows K (.pair (chOff (chanAt off) Reg.peFlags))) (a92 : Allows K (.pair (chOff (chanAt off) Reg.pmuFlags))) (a93 : Allows K (.pair (chOff (chanAt off) Reg.tiaFlags))) (a94 : Allows K (.one (.reg (chOff (chanAt off) Reg.tiaTimeout)))) (a95 : Allows K (.one (.reg (chOff (chanAt off) Reg.tiaCfg)))) (a96 : Allows K (.one (.reg (chOff (chanAt off) Reg.tiaGate)))) (a97 : Allows K (.one (.reg (chOff (chanAt off) Reg.tiaN)))) (a98 : Allows K (.one (.reg Reg.bootSealedWrAddr))) (a99 : Allows K (.one (.reg Reg.bootSealedWrCnt))) :
    Evolves K s (State.hostWrite x off v) := by
  unfold State.hostWrite
  repeat' (first | with_reducible refine fun _ => ?_ | with_reducible (first | exact h | assumption | apply State.onWrite_changes | apply State.regWrite_changes | apply State.sealedRecord_changes))
  all_goals (with_reducible first | assumption | exact a0.hstFlagsOfError | exact a0.readsOfError | exact a0.badAddrOfError | exact a3.pairClu (by decide) | exact a3.cluFst | exact a3.cluSnd | exact a3.cluFst.ofClu (by decide) | exact a3.cluSnd.ofClu (by decide) | exact a4.vectorOfEvents | exact a4.logOfEvents | exact a4.evrPairOfEvents | exact a4.evrOfEvents | exact a4.vectorsOfEvents | exact a4.evrStatusOfEvents | exact a4.evrDropOfEvents | exact a4.evrCommitOfEvents | exact a4.evrLogOfEvents | exact a4.evrLogBseqOfEvents | exact a6.fst | exact a6.snd | exact a9.dramOf | exact a10.ofClu (by decide) | exact a11.laneOf | exact a12.ofClu (by decide) | exact a13.inRegs (by decide) | exact a13.pairInRegs (by decide) | exact a13.regsInRegs (by decide) | exact a14.inRegs (by decide) | exact a14.pairInRegs (by decide) | exact a14.regsInRegs (by decide) | exact a15.fst | exact a15.snd | exact a28.fst | exact a28.snd | exact a29.vectorOfCompletion | exact a29.ringsOfCompletion | exact a29.hostMemOfCompletion | exact a29.vectorsOfCompletion | exact a29.cplTailOfCompletion | exact a29.cplDropOfCompletion | exact a34.ofCh (by decide) | exact a35.chanOf | exact a36.ofCh (by decide) | exact a37.ofCh (by decide) | exact a38.ofCh (by decide) | exact a39.pairCh (by decide) | exact a39.chFst | exact a39.chSnd | exact a39.chFst.ofCh (by decide) | exact a39.chSnd.ofCh (by decide) | exact a40.pairCh (by decide) | exact a40.chFst | exact a40.chSnd | exact a40.chFst.ofCh (by decide) | exact a40.chSnd.ofCh (by decide) | exact a41.pairCh (by decide) | exact a41.chFst | exact a41.chSnd | exact a41.chFst.ofCh (by decide) | exact a41.chSnd.ofCh (by decide) | exact a42.pairCh (by decide) | exact a42.chFst | exact a42.chSnd | exact a42.chFst.ofCh (by decide) | exact a42.chSnd.ofCh (by decide) | exact a43.ofCh (by decide) | exact a44.pairCh (by decide) | exact a44.chFst | exact a44.chSnd | exact a44.chFst.ofCh (by decide) | exact a44.chSnd.ofCh (by decide) | exact a45.ofCh (by decide) | exact a46.cluOf | exact a47.ofCh (by decide) | exact a48.ofCh (by decide) | exact a50.fst | exact a50.snd | exact a53.ofCh (by decide) | exact a56.fst | exact a56.snd | exact a57.fst | exact a57.snd | exact a60.fst | exact a60.snd | exact a68.fst | exact a68.snd | exact a71.fst | exact a71.snd | exact a76.fst | exact a76.snd | exact a87.fst | exact a87.snd | exact a88.fst | exact a88.snd | exact a91.fst | exact a91.snd | exact a92.fst | exact a92.snd | exact a93.fst | exact a93.snd)

theorem State.windowRead_changes {K : List Foot} {s x : State} (o) (read) (h : Evolves K s x) (a0 : Allows K (.one .reads)) (a1 : Allows K (.one (.reg Reg.memEccCnt))) (a2 : Allows K (.one (.reg (Reg.flSiteStatus + 16 * (o / 16384))))) (a3 : Allows K .failCnts) (a4 : Allows K .events) (a5 : Allows K (.one (.reg Reg.memEccAddr))) (a6 : Allows K (.pair Reg.memFlags)) :
    Evolves K s (State.windowRead x o read) := by
  unfold State.windowRead
  repeat' (first | with_reducible refine fun _ => ?_ | lift_lets | (with_reducible intro y; first | (refine Evolves.cut (K := K) (s := s) (y := y) ?_ ?_ <;> first | (clear_value y; with_reducible intro hy) | simp -zeta -zetaHave only [y]) | (simp -zeta -zetaHave only [y]; clear y) | (clear_value y; clear y)) | with_reducible (first | exact h | assumption | apply State.setRead_changes | apply State.eccCorrected_changes | apply State.wrB_changes | apply State.setFailByte_changes | apply State.eccUncorr_changes | apply Evolves.foldl) | (split))
  all_goals (with_reducible first | assumption | exact a4.vectorOfEvents | exact a4.logOfEvents | exact a4.evrPairOfEvents | exact a4.evrOfEvents | exact a4.vectorsOfEvents | exact a4.evrStatusOfEvents | exact a4.evrDropOfEvents | exact a4.evrCommitOfEvents | exact a4.evrLogOfEvents | exact a4.evrLogBseqOfEvents | exact a6.fst | exact a6.snd)

theorem State.latchHi_changes {K : List Foot} {s x : State} (off) (h : Evolves K s x) (a0 : Allows K (.one .shadows)) :
    Evolves K s (State.latchHi x off) := by
  unfold State.latchHi
  try simp -zeta -zetaHave only [State.fold_shadows]
  repeat' (first | with_reducible refine fun _ => ?_ | lift_lets | (with_reducible intro y; first | (refine Evolves.cut (K := K) (s := s) (y := y) ?_ ?_ <;> first | (clear_value y; with_reducible intro hy) | simp -zeta -zetaHave only [y]) | (simp -zeta -zetaHave only [y]; clear y) | (clear_value y; clear y)) | with_reducible (first | exact h | assumption | apply State.putShadows_changes | apply Evolves.ite))
  all_goals (with_reducible first | assumption)

theorem State.busRead_changes {K : List Foot} {s x : State} (off) (incNow) (read) (h : Evolves K s x) (a0 : Allows K .hostError) (a1 : Allows K (.one (.reg off))) (a2 : Allows K (.one (.reg (off - 4)))) (a3 : Allows K (.one .shadows)) (a4 : Allows K (.one (.reg Reg.memEccCnt))) (a5 : Allows K (.one (.reg (Reg.flSiteStatus + 16 * ((off - 12582912) / 16384))))) (a6 : Allows K .failCnts) (a7 : Allows K .events) (a8 : Allows K (.one (.reg Reg.memEccAddr))) (a9 : Allows K (.pair Reg.memFlags)) :
    Evolves K s (State.busRead x off incNow read) := by
  unfold State.busRead
  repeat' (first | with_reducible refine fun _ => ?_ | with_reducible (first | exact h | apply State.unmapped_changes | apply State.slotRead_changes | apply State.readClear_changes | apply State.latchHi_changes | apply State.windowRead_changes | apply State.setRead_changes | apply Evolves.ite) | (split))
  all_goals (with_reducible first | assumption | exact a0.hstFlagsOfError | exact a0.readsOfError | exact a0.badAddrOfError | exact a7.vectorOfEvents | exact a7.logOfEvents | exact a7.evrPairOfEvents | exact a7.evrOfEvents | exact a7.vectorsOfEvents | exact a7.evrStatusOfEvents | exact a7.evrDropOfEvents | exact a7.evrCommitOfEvents | exact a7.evrLogOfEvents | exact a7.evrLogBseqOfEvents | exact a9.fst | exact a9.snd)


end Sys2Proof.Machine
end

