-- ==== Sys2Proof/Laws/FrameExec.lean ====
section
/-! SUPPORT. What each command can change: the footprint of its meaning. -/

set_option Elab.async false
set_option linter.all false

namespace Sys2Proof.Machine

theorem execHostWriteSealed_changes {K : List Foot} {x t : State} (off) (v) (e : execHostWriteSealed off v x = .next t) (a0 : Allows K .hostError) (a1 : Allows K (.one (.reg Reg.memCollide))) (a2 : Allows K .failCnts) (a3 : Allows K (.cluPair Reg.flFlags)) (a4 : Allows K .events) (a5 : Allows K (.one (.reg Reg.memEccAddr))) (a6 : Allows K (.pair Reg.memFlags)) (a7 : Allows K (.one (.reg Reg.memEccCnt))) (a8 : Allows K (.one .plan)) (a9 : Allows K .drams) (a10 : Allows K (.cluReg Reg.flRecWr)) (a11 : Allows K .lanes) (a12 : Allows K (.cluReg Reg.flRecLost)) (a13 : Allows K (.regs Reg.flSiteFail (Reg.flSiteFail + 1024))) (a14 : Allows K (.regs Reg.flFirst (Reg.flFirst + 2048))) (a15 : Allows K (.pair Reg.clkFlags)) (a16 : Allows K (.one (.reg Reg.clkEppPeriod))) (a17 : Allows K (.one (.reg Reg.clkEppWidth))) (a18 : Allows K (.one (.reg Reg.clkEppOffset))) (a19 : Allows K (.one (.reg Reg.hstCplTail))) (a20 : Allows K (.one (.reg Reg.hstCplHead))) (a21 : Allows K (.one (.reg Reg.hstCmdHead))) (a22 : Allows K (.one (.reg Reg.hstCmdTail))) (a23 : Allows K (.one (.reg Reg.hstStatus))) (a24 : Allows K (.one (.reg Reg.hstRingCtl))) (a25 : Allows K (.one (.reg off.toNat))) (a26 : Allows K (.one .msix)) (a27 : Allows K (.one .cwy)) (a28 : Allows K (.pair Reg.cwyFlags)) (a29 : Allows K .completion) (a30 : Allows K (.one (.reg Reg.calScope))) (a31 : Allows K (.one (.reg Reg.calTime))) (a32 : Allows K (.one (.reg Reg.calStatus))) (a33 : Allows K (.one .cal)) (a34 : Allows K (.chReg Reg.pmuStatus)) (a35 : Allows K .chans) (a36 : Allows K (.chReg Reg.peStatus)) (a37 : Allows K (.chReg Reg.tiaStatus)) (a38 : Allows K (.chReg Reg.tiaDiscard)) (a39 : Allows K (.chPair Reg.tiaMaxLo)) (a40 : Allows K (.chPair Reg.tiaMinLo)) (a41 : Allows K (.chPair Reg.tiaSdevLo)) (a42 : Allows K (.chPair Reg.tiaMeanLo)) (a43 : Allows K (.chReg Reg.tiaCount)) (a44 : Allows K (.chPair Reg.tiaLastLo)) (a45 : Allows K (.chReg Reg.tiaSkip)) (a46 : Allows K .clus) (a47 : Allows K (.chReg Reg.tiaFcnt)) (a48 : Allows K (.chReg Reg.tiaCdCtl)) (a49 : Allows K (.one .freeCtr)) (a50 : Allows K (.pair Reg.sndFlags)) (a51 : Allows K (.one .snd)) (a52 : Allows K (.one (.reg Reg.sndStatus))) (a53 : Allows K (.chReg Reg.tiaLine)) (a54 : Allows K (.one (.reg Reg.memRetWakes))) (a55 : Allows K (.one (.reg Reg.memRetState))) (a56 : Allows K (.pair Reg.calFlags)) (a57 : Allows K (.pair Reg.sndMaskLo)) (a58 : Allows K (.one (.reg Reg.flSiteMaskLo))) (a59 : Allows K (.one (.reg Reg.flSiteMaskHi))) (a60 : Allows K (.pair Reg.flDevFlags)) (a61 : Allows K (.one (.reg (flOff FlReg.bmpEnLo)))) (a62 : Allows K (.one (.reg (flOff FlReg.bmpEnHi)))) (a63 : Allows K (.one (.reg (flOff FlReg.geom)))) (a64 : Allows K (.one (.reg (flOff FlReg.recSize)))) (a65 : Allows K (.one (.reg (flOff FlReg.rcLimit)))) (a66 : Allows K (.one (.reg Reg.flClear))) (a67 : Allows K (.one (.reg (cluOff ((off.toNat - 8388608) / 131072) ((off.toNat - 8388608) % 131072))))) (a68 : Allows K (.pair (cluOff ((off.toNat - 8388608) / 131072) Reg.peClFlags))) (a69 : Allows K (.one (.reg (cluOff ((off.toNat - 8388608) / 131072) Reg.peMonCtl)))) (a70 : Allows K (.one (.reg (cluOff ((off.toNat - 8388608) / 131072) Reg.peMonMismatch)))) (a71 : Allows K (.pair (cluOff ((off.toNat - 8388608) / 131072) Reg.plnFlags))) (a72 : Allows K (.one (.reg (cluOff ((off.toNat - 8388608) / 131072) Reg.plnSluicePos)))) (a73 : Allows K (.one (.reg (cluOff ((off.toNat - 8388608) / 131072) Reg.plnSluice)))) (a74 : Allows K (.one (.reg (cluOff ((off.toNat - 8388608) / 131072) Reg.plnSluiceSize)))) (a75 : Allows K (.one (.reg (cluOff ((off.toNat - 8388608) / 131072) Reg.plnSluiceBase)))) (a76 : Allows K (.pair (cluOff ((off.toNat - 8388608) / 131072) Reg.acqFlags))) (a77 : Allows K (.one (.reg (cluOff ((off.toNat - 8388608) / 131072) Reg.acqStatus)))) (a78 : Allows K (.one (.reg (cluOff ((off.toNat - 8388608) / 131072) Reg.acqFrameCnt)))) (a79 : Allows K (.one (.reg (cluOff ((off.toNat - 8388608) / 131072) Reg.acqDrop)))) (a80 : Allows K (.one (.reg (cluOff ((off.toNat - 8388608) / 131072) Reg.acqGapLen)))) (a81 : Allows K (.one (.reg (cluOff ((off.toNat - 8388608) / 131072) Reg.acqGapCnt)))) (a82 : Allows K (.one (.reg (cluOff ((off.toNat - 8388608) / 131072) Reg.acqMissed)))) (a83 : Allows K (.one (.reg (cluOff ((off.toNat - 8388608) / 131072) Reg.acqSpillRd)))) (a84 : Allows K (.one (.reg (cluOff ((off.toNat - 8388608) / 131072) Reg.acqSpillWr)))) (a85 : Allows K (.one (.reg (cluOff ((off.toNat - 8388608) / 131072) (Reg.acqSpillBase))))) (a86 : Allows K (.one (.reg (cluOff ((off.toNat - 8388608) / 131072) (Reg.acqSpillSize))))) (a87 : Allows K (.pair (cluOff ((off.toNat - 8388608) / 131072) Reg.ddsData0))) (a88 : Allows K (.pair (cluOff ((off.toNat - 8388608) / 131072) Reg.ddsFlags))) (a89 : Allows K (.one (.reg (cluOff ((off.toNat - 8388608) / 131072) Reg.ddsAddr)))) (a90 : Allows K (.one (.reg (chOff (chanAt off.toNat) ((off.toNat - 8388608) % 131072 % 4096))))) (a91 : Allows K (.pair (chOff (chanAt off.toNat) Reg.peFlags))) (a92 : Allows K (.pair (chOff (chanAt off.toNat) Reg.pmuFlags))) (a93 : Allows K (.pair (chOff (chanAt off.toNat) Reg.tiaFlags))) (a94 : Allows K (.one (.reg (chOff (chanAt off.toNat) Reg.tiaTimeout)))) (a95 : Allows K (.one (.reg (chOff (chanAt off.toNat) Reg.tiaCfg)))) (a96 : Allows K (.one (.reg (chOff (chanAt off.toNat) Reg.tiaGate)))) (a97 : Allows K (.one (.reg (chOff (chanAt off.toNat) Reg.tiaN)))) (a98 : Allows K (.one (.reg Reg.bootSealedWrAddr))) (a99 : Allows K (.one (.reg Reg.bootSealedWrCnt))) : Evolves K x t := by
  simp only [execHostWriteSealed, Host.Outcome.next.injEq] at e
  subst e
  have h := Evolves.refl K x
  repeat' (first | with_reducible refine fun _ => ?_ | with_reducible (first | exact h | apply State.hostWrite_changes))
  all_goals (with_reducible first | assumption | exact a0.hstFlagsOfError | exact a0.readsOfError | exact a0.badAddrOfError | exact a3.pairClu (by decide) | exact a3.cluFst | exact a3.cluSnd | exact a3.cluFst.ofClu (by decide) | exact a3.cluSnd.ofClu (by decide) | exact a4.vectorOfEvents | exact a4.logOfEvents | exact a4.evrPairOfEvents | exact a4.evrOfEvents | exact a4.vectorsOfEvents | exact a4.evrStatusOfEvents | exact a4.evrDropOfEvents | exact a4.evrCommitOfEvents | exact a4.evrLogOfEvents | exact a4.evrLogBseqOfEvents | exact a6.fst | exact a6.snd | exact a9.dramOf | exact a10.ofClu (by decide) | exact a11.laneOf | exact a12.ofClu (by decide) | exact a13.inRegs (by decide) | exact a13.pairInRegs (by decide) | exact a13.regsInRegs (by decide) | exact a14.inRegs (by decide) | exact a14.pairInRegs (by decide) | exact a14.regsInRegs (by decide) | exact a15.fst | exact a15.snd | exact a28.fst | exact a28.snd | exact a29.vectorOfCompletion | exact a29.ringsOfCompletion | exact a29.hostMemOfCompletion | exact a29.vectorsOfCompletion | exact a29.cplTailOfCompletion | exact a29.cplDropOfCompletion | exact a34.ofCh (by decide) | exact a35.chanOf | exact a36.ofCh (by decide) | exact a37.ofCh (by decide) | exact a38.ofCh (by decide) | exact a39.pairCh (by decide) | exact a39.chFst | exact a39.chSnd | exact a39.chFst.ofCh (by decide) | exact a39.chSnd.ofCh (by decide) | exact a40.pairCh (by decide) | exact a40.chFst | exact a40.chSnd | exact a40.chFst.ofCh (by decide) | exact a40.chSnd.ofCh (by decide) | exact a41.pairCh (by decide) | exact a41.chFst | exact a41.chSnd | exact a41.chFst.ofCh (by decide) | exact a41.chSnd.ofCh (by decide) | exact a42.pairCh (by decide) | exact a42.chFst | exact a42.chSnd | exact a42.chFst.ofCh (by decide) | exact a42.chSnd.ofCh (by decide) | exact a43.ofCh (by decide) | exact a44.pairCh (by decide) | exact a44.chFst | exact a44.chSnd | exact a44.chFst.ofCh (by decide) | exact a44.chSnd.ofCh (by decide) | exact a45.ofCh (by decide) | exact a46.cluOf | exact a47.ofCh (by decide) | exact a48.ofCh (by decide) | exact a50.fst | exact a50.snd | exact a53.ofCh (by decide) | exact a56.fst | exact a56.snd | exact a57.fst | exact a57.snd | exact a60.fst | exact a60.snd | exact a68.fst | exact a68.snd | exact a71.fst | exact a71.snd | exact a76.fst | exact a76.snd | exact a87.fst | exact a87.snd | exact a88.fst | exact a88.snd | exact a91.fst | exact a91.snd | exact a92.fst | exact a92.snd | exact a93.fst | exact a93.snd)

theorem execEpochTick_changes {K : List Foot} {x t : State} (e : execEpochTick x = .next t) (a0 : Allows K .completion) (a1 : Allows K .events) (a2 : Allows K (.one .clk)) : Evolves K x t := by
  simp only [execEpochTick, Host.Outcome.next.injEq] at e
  subst e
  have h := Evolves.refl K x
  repeat' (first | with_reducible refine fun _ => ?_ | with_reducible (first | exact h | apply State.epochTakeEffect_changes | apply State.epochTick_changes | apply Evolves.ite))
  all_goals (with_reducible first | assumption | exact a0.vectorOfCompletion | exact a0.ringsOfCompletion | exact a0.hostMemOfCompletion | exact a0.vectorsOfCompletion | exact a0.cplTailOfCompletion | exact a0.cplDropOfCompletion | exact a1.vectorOfEvents | exact a1.logOfEvents | exact a1.evrPairOfEvents | exact a1.evrOfEvents | exact a1.vectorsOfEvents | exact a1.evrStatusOfEvents | exact a1.evrDropOfEvents | exact a1.evrCommitOfEvents | exact a1.evrLogOfEvents | exact a1.evrLogBseqOfEvents)

theorem execJump_changes {K : List Foot} {x t : State} (e : execJump x = .next t) (a0 : Allows K .completion) (a1 : Allows K (.cluPair Reg.plnFlags)) (a2 : Allows K (.cluReg Reg.plnJump)) (a3 : Allows K .lanes) (a4 : Allows K (.cluReg Reg.plnJumpCnt)) : Evolves K x t := by
  simp only [execJump, Host.Outcome.next.injEq] at e
  subst e
  have h := Evolves.refl K x
  repeat' (first | with_reducible refine fun _ => ?_ | with_reducible (first | exact h | apply State.cmdJump_changes))
  all_goals (with_reducible first | assumption | exact a0.vectorOfCompletion | exact a0.ringsOfCompletion | exact a0.hostMemOfCompletion | exact a0.vectorsOfCompletion | exact a0.cplTailOfCompletion | exact a0.cplDropOfCompletion | exact a1.pairClu (by decide) | exact a1.cluFst | exact a1.cluSnd | exact a1.cluFst.ofClu (by decide) | exact a1.cluSnd.ofClu (by decide) | exact a2.ofClu (by decide) | exact a3.laneOf | exact a4.ofClu (by decide))

theorem execTriggerSample_changes {K : List Foot} {x t : State} (c) (e : execTriggerSample c x = .next t) (a0 : Allows K (.one (.clu ↑c))) (a1 : Allows K (.one (.reg (cluOff (↑c) Reg.acqStatus)))) (a2 : Allows K (.one (.reg (cluOff (↑c) Reg.acqFrameCnt)))) (a3 : Allows K (.pair (cluOff (↑c) Reg.acqFlags))) (a4 : Allows K (.one (.reg (cluOff (↑c) Reg.acqDrop)))) (a5 : Allows K (.one (.reg (cluOff (↑c) Reg.acqGapLen)))) (a6 : Allows K (.one (.reg (cluOff (↑c) Reg.acqGapCnt)))) (a7 : Allows K (.one (.reg (cluOff (↑c) Reg.acqTrigInfo)))) (a8 : Allows K (.pair (cluOff (↑c) Reg.acqTrigLo))) (a9 : Allows K (.one (.reg (cluOff (↑c) Reg.acqMissed)))) (a10 : Allows K .chans) (a11 : Allows K (.chReg Reg.tiaStatus)) (a12 : Allows K (.one (.seq ↑c))) : Evolves K x t := by
  simp only [execTriggerSample, Host.Outcome.next.injEq] at e
  subst e
  have h := Evolves.refl K x
  repeat' (first | with_reducible refine fun _ => ?_ | with_reducible (first | exact h | apply State.triggerSample_changes))
  all_goals (with_reducible first | assumption | exact a3.fst | exact a3.snd | exact a8.fst | exact a8.snd | exact a10.chanOf | exact a11.ofCh (by decide))

theorem execTiaConfigWrite_changes {K : List Foot} {x t : State} (ch) (timeout) (v) (e : execTiaConfigWrite ch timeout v x = .next t) (a0 : Allows K .hostError) (a1 : Allows K (.pair (chOff (↑ch) Reg.tiaFlags))) (a2 : Allows K (.one (.reg (chOff (↑ch) Reg.tiaTimeout)))) (a3 : Allows K (.one (.reg (chOff (↑ch) Reg.tiaCfg)))) : Evolves K x t := by
  simp only [execTiaConfigWrite, Host.Outcome.next.injEq] at e
  subst e
  have h := Evolves.refl K x
  repeat' (first | with_reducible refine fun _ => ?_ | with_reducible (first | exact h | assumption | apply State.onWrite_changes | apply State.tiaConfig_changes | apply Evolves.ite))
  all_goals (with_reducible first | assumption | exact a0.hstFlagsOfError | exact a0.readsOfError | exact a0.badAddrOfError | exact a1.fst | exact a1.snd)

theorem execSyncReset_changes {K : List Foot} {x t : State} (ch) (cycle) (e : execSyncReset ch cycle x = .next t) (a0 : Allows K (.one (.chan ↑ch))) (a1 : Allows K (.one (.reg (chOff (↑ch) Reg.pmuStatus)))) (a2 : Allows K (.one (.reg (chOff (↑ch) Reg.pmuWords)))) : Evolves K x t := by
  simp only [execSyncReset, Host.Outcome.next.injEq] at e
  subst e
  have h := Evolves.refl K x
  repeat' (first | with_reducible refine fun _ => ?_ | with_reducible (first | exact h | apply State.syncReset_changes))
  all_goals (with_reducible first | assumption)

theorem execLoadStrobe_changes {K : List Foot} {x t : State} (c) (marker) (cycle) (e : execLoadStrobe ⟨c, marker, cycle⟩ x = .next t) (a0 : Allows K (.chReg Reg.pmuStatus)) (a1 : Allows K .chans) (a2 : Allows K (.chReg Reg.peStatus)) (a3 : Allows K (.one (.reg (cluOff (↑c) Reg.peLdstbCnt)))) (a4 : Allows K (.chPair Reg.peFlags)) (a5 : Allows K (.chRegs 320 360)) (a6 : Allows K (.chRegs 1088 1108)) (a7 : Allows K (.one (.lane ↑c))) (a8 : Allows K (.one (.clu ↑c))) : Evolves K x t := by
  simp only [execLoadStrobe, Host.Outcome.next.injEq] at e
  subst e
  have h := Evolves.refl K x
  repeat' (first | with_reducible refine fun _ => ?_ | with_reducible (first | exact h | apply State.loadStrobe_changes))
  all_goals (with_reducible first | assumption | exact a0.ofCh (by decide) | exact a1.chanOf | exact a2.ofCh (by decide) | exact a4.pairCh (by decide) | exact a4.chFst | exact a4.chSnd | exact a4.chFst.ofCh (by decide) | exact a4.chSnd.ofCh (by decide) | exact a5.regsCh (by decide) | exact a5.ofChRegs (by decide) | exact a6.regsCh (by decide) | exact a6.ofChRegs (by decide))

theorem execStrobe_changes {K : List Foot} {x t : State} (ch) (s1) (opens) (trace) (e : execStrobe ch s1 opens trace x = .next t) (a0 : Allows K (.one (.chan ↑ch))) (a1 : Allows K .clus) (a2 : Allows K .lanes) : Evolves K x t := by
  simp only [execStrobe, Host.Outcome.next.injEq] at e
  subst e
  have h := Evolves.refl K x
  repeat' (first | with_reducible refine fun _ => ?_ | with_reducible (first | exact h | apply State.strobe_changes))
  all_goals (with_reducible first | assumption | exact a1.cluOf | exact a2.laneOf)

theorem execElectionSettle_changes {K : List Foot} {x t : State} (seg) (e : execElectionSettle seg x = .next t) (a0 : Allows K .events) (a1 : Allows K (.one .cwy)) (a2 : Allows K (.regs Reg.cwySum0 (Reg.cwySum0 + 2048))) (a3 : Allows K (.pair Reg.cwyMasterLo)) (a4 : Allows K (.one (.reg Reg.cwyStatus))) (a5 : Allows K (.one (.reg Reg.clkStatus))) (a6 : Allows K (.one (.reg Reg.clkCorr))) (a7 : Allows K (.pair Reg.cwyFlags)) (a8 : Allows K (.one (.reg Reg.cwyRefuse))) (a9 : Allows K (.regs Reg.cwyPosLo (Reg.cwyPosLo + 512))) (a10 : Allows K (.one .plan)) (a11 : Allows K (.one (.reg Reg.cwyPathDelay))) (a12 : Allows K (.one (.reg Reg.cwyPathLat))) : Evolves K x t := by
  simp only [execElectionSettle, Host.Outcome.next.injEq] at e
  subst e
  have h := Evolves.refl K x
  repeat' (first | with_reducible refine fun _ => ?_ | with_reducible (first | exact h | apply State.electionSettle_changes))
  all_goals (with_reducible first | assumption | exact a0.vectorOfEvents | exact a0.logOfEvents | exact a0.evrPairOfEvents | exact a0.evrOfEvents | exact a0.vectorsOfEvents | exact a0.evrStatusOfEvents | exact a0.evrDropOfEvents | exact a0.evrCommitOfEvents | exact a0.evrLogOfEvents | exact a0.evrLogBseqOfEvents | exact a2.inRegs (by decide) | exact a2.pairInRegs (by decide) | exact a2.regsInRegs (by decide) | exact a3.fst | exact a3.snd | exact a7.fst | exact a7.snd | exact a9.inRegs (by decide) | exact a9.pairInRegs (by decide) | exact a9.regsInRegs (by decide))

theorem execDramTraining_changes {K : List Foot} {x t : State} (ok) (e : execDramTraining ok x = .next t) (a0 : Allows K (.one .boot)) (a1 : Allows K .events) (a2 : Allows K (.one (.reg Reg.hstStatus))) (a3 : Allows K (.one (.reg Reg.bootStatus))) : Evolves K x t := by
  simp only [execDramTraining, Host.Outcome.next.injEq] at e
  subst e
  have h := Evolves.refl K x
  repeat' (first | with_reducible refine fun _ => ?_ | with_reducible (first | exact h | apply State.dramTraining_changes))
  all_goals (with_reducible first | assumption | exact a1.vectorOfEvents | exact a1.logOfEvents | exact a1.evrPairOfEvents | exact a1.evrOfEvents | exact a1.vectorsOfEvents | exact a1.evrStatusOfEvents | exact a1.evrDropOfEvents | exact a1.evrCommitOfEvents | exact a1.evrLogOfEvents | exact a1.evrLogBseqOfEvents)

theorem execVinPowerDown_changes {K : List Foot} {x t : State} (e : execVinPowerDown x = .next t) (a0 : Allows K .allRegs) (a1 : Allows K (.one .boot)) (a2 : Allows K (.one .clk)) (a3 : Allows K (.one .flashPort)) (a4 : Allows K .drams) (a5 : Allows K (.one .shadows)) (a6 : Allows K (.one .evr)) (a7 : Allows K (.one .rings)) (a8 : Allows K (.one .hostMem)) (a9 : Allows K (.one .msix)) (a10 : Allows K (.one .vectors)) (a11 : Allows K (.one .reads)) (a12 : Allows K (.one .macros)) (a13 : Allows K (.one .march)) (a14 : Allows K (.one .refills)) (a15 : Allows K (.one .timing)) (a16 : Allows K .failCnts) (a17 : Allows K (.one .cal)) (a18 : Allows K (.one .pwr)) (a19 : Allows K .seqs) (a20 : Allows K .lanes) (a21 : Allows K .clus) (a22 : Allows K .chans) (a23 : Allows K (.one .plan)) (a24 : Allows K (.one .snd)) (a25 : Allows K (.one .cwy)) : Evolves K x t := by
  simp only [execVinPowerDown, Host.Outcome.next.injEq] at e
  subst e
  have h := Evolves.refl K x
  repeat' (first | with_reducible refine fun _ => ?_ | with_reducible (first | exact h | apply State.powerDown_changes))
  all_goals (with_reducible first | assumption | exact a0.regOfAll | exact a0.pairOfAll | exact a0.chRegOfAll | exact a0.chPairOfAll | exact a0.cluRegOfAll | exact a0.cluPairOfAll | exact a0.regsOfAll | exact a4.dramOf | exact a19.seqOf | exact a20.laneOf | exact a21.cluOf | exact a22.chanOf)

theorem execRstNAssert_changes {K : List Foot} {x t : State} (e : execRstNAssert x = .next t) (a0 : Allows K .allRegs) (a1 : Allows K (.one .shadows)) (a2 : Allows K (.one .boot)) (a3 : Allows K (.one .clk)) (a4 : Allows K (.one .evr)) (a5 : Allows K (.one .rings)) (a6 : Allows K (.one .hostMem)) (a7 : Allows K (.one .msix)) (a8 : Allows K (.one .vectors)) (a9 : Allows K (.one .reads)) (a10 : Allows K (.one .macros)) (a11 : Allows K (.one .march)) (a12 : Allows K (.one .refills)) (a13 : Allows K (.one .timing)) (a14 : Allows K .failCnts) (a15 : Allows K (.one .cal)) (a16 : Allows K (.one .pwr)) (a17 : Allows K .seqs) (a18 : Allows K .lanes) (a19 : Allows K .clus) (a20 : Allows K .chans) (a21 : Allows K (.one .plan)) (a22 : Allows K (.one .snd)) (a23 : Allows K (.one .cwy)) (a24 : Allows K .log) (a25 : Allows K .vector) : Evolves K x t := by
  simp only [execRstNAssert, Host.Outcome.next.injEq] at e
  subst e
  have h := Evolves.refl K x
  repeat' (first | with_reducible refine fun _ => ?_ | with_reducible (first | exact h | apply State.resetAsserted_changes))
  all_goals (with_reducible first | assumption | exact a0.regOfAll | exact a0.pairOfAll | exact a0.chRegOfAll | exact a0.chPairOfAll | exact a0.cluRegOfAll | exact a0.cluPairOfAll | exact a0.regsOfAll | exact a17.seqOf | exact a18.laneOf | exact a19.cluOf | exact a20.chanOf | exact a25.vecRegOfVector | exact a25.vectorsOfVector)

theorem execHostLoadStrobe_changes {K : List Foot} {x t : State} (c) (v) (e : execHostLoadStrobe c v x = .next t) (a0 : Allows K .hostError) (a1 : Allows K (.chReg Reg.tiaLine)) (a2 : Allows K .chans) (a3 : Allows K (.one (.reg Reg.memRetWakes))) (a4 : Allows K (.one (.reg Reg.memRetState))) (a5 : Allows K (.pair (cluOff (↑c) Reg.peClFlags))) (a6 : Allows K (.one (.clu ↑c))) : Evolves K x t := by
  simp only [execHostLoadStrobe, Host.Outcome.next.injEq] at e
  subst e
  have h := Evolves.refl K x
  repeat' (first | with_reducible refine fun _ => ?_ | with_reducible (first | exact h | assumption | apply State.onWrite_changes | apply State.hostStrobe_changes))
  all_goals (with_reducible first | assumption | exact a0.hstFlagsOfError | exact a0.readsOfError | exact a0.badAddrOfError | exact a1.ofCh (by decide) | exact a2.chanOf | exact a5.fst | exact a5.snd)

theorem execPmuStagingWrite_changes {K : List Foot} {x t : State} (ch) (i) (v) (e : execPmuStagingWrite ch i v x = .next t) (a0 : Allows K .hostError) (a1 : Allows K (.one (.reg (chOff (↑ch) (Reg.pmuForce + 4 * ↑i))))) (a2 : Allows K (.pair (chOff (↑ch) Reg.peFlags))) (a3 : Allows K (.pair (chOff (↑ch) Reg.pmuFlags))) : Evolves K x t := by
  simp only [execPmuStagingWrite, Host.Outcome.next.injEq] at e
  subst e
  have h := Evolves.refl K x
  repeat' (first | with_reducible refine fun _ => ?_ | with_reducible (first | exact h | assumption | apply State.onWrite_changes | apply State.stagingWrite_changes))
  all_goals (with_reducible first | assumption | exact a0.hstFlagsOfError | exact a0.readsOfError | exact a0.badAddrOfError | exact a2.fst | exact a2.snd | exact a3.fst | exact a3.snd)

theorem execBar2Read_changes {K : List Foot} {x t : State} (addr) (len) (e : execBar2Read addr len x = .next t) (a0 : Allows K (.one .reads)) (a1 : Allows K (.pair Reg.hstFlags)) : Evolves K x t := by
  simp only [execBar2Read, Host.Outcome.next.injEq] at e
  subst e
  have h := Evolves.refl K x
  repeat' (first | with_reducible refine fun _ => ?_ | with_reducible (first | exact h | apply State.bar2Read_changes))
  all_goals (with_reducible first | assumption | exact a1.fst | exact a1.snd)

theorem execTiaEvent_changes {K : List Foot} {x t : State} (ch) (e : execTiaEvent ch x = .next t) (a0 : Allows K (.one (.chan ↑ch))) (a1 : Allows K (.one (.reg (chOff (↑ch) Reg.tiaDiscard)))) (a2 : Allows K .events) (a3 : Allows K (.one (.reg (chOff (↑ch) Reg.tiaStatus)))) (a4 : Allows K (.pair (chOff (↑ch) Reg.tiaMaxLo))) (a5 : Allows K (.pair (chOff (↑ch) Reg.tiaMinLo))) (a6 : Allows K (.pair (chOff (↑ch) Reg.tiaSdevLo))) (a7 : Allows K (.pair (chOff (↑ch) Reg.tiaMeanLo))) (a8 : Allows K (.one (.reg (chOff (↑ch) Reg.tiaCount)))) (a9 : Allows K (.pair (chOff (↑ch) Reg.tiaLastLo))) (a10 : Allows K (.one (.reg (chOff (↑ch) Reg.tiaSkip)))) (a11 : Allows K (.one (.clu (↑ch / 16)))) : Evolves K x t := by
  simp only [execTiaEvent, Host.Outcome.next.injEq] at e
  subst e
  have h := Evolves.refl K x
  repeat' (first | with_reducible refine fun _ => ?_ | with_reducible (first | exact h | apply State.tiaEvent_changes))
  all_goals (with_reducible first | assumption | exact a2.vectorOfEvents | exact a2.logOfEvents | exact a2.evrPairOfEvents | exact a2.evrOfEvents | exact a2.vectorsOfEvents | exact a2.evrStatusOfEvents | exact a2.evrDropOfEvents | exact a2.evrCommitOfEvents | exact a2.evrLogOfEvents | exact a2.evrLogBseqOfEvents | exact a4.fst | exact a4.snd | exact a5.fst | exact a5.snd | exact a6.fst | exact a6.snd | exact a7.fst | exact a7.snd | exact a9.fst | exact a9.snd)

theorem execStateTimeout_changes {K : List Foot} {x t : State} (c) (e : execStateTimeout c x = .next t) (a0 : Allows K (.one (.clu ↑c))) (a1 : Allows K (.one (.reg (cluOff (↑c) Reg.acqStatus)))) (a2 : Allows K (.one (.reg (cluOff (↑c) Reg.acqFrameCnt)))) (a3 : Allows K (.pair (cluOff (↑c) Reg.acqFlags))) (a4 : Allows K (.one (.reg (cluOff (↑c) Reg.acqDrop)))) (a5 : Allows K (.one (.reg (cluOff (↑c) Reg.acqGapLen)))) (a6 : Allows K (.one (.reg (cluOff (↑c) Reg.acqGapCnt)))) (a7 : Allows K (.one (.reg (cluOff (↑c) Reg.acqTrigInfo)))) (a8 : Allows K (.pair (cluOff (↑c) Reg.acqTrigLo))) (a9 : Allows K (.one (.reg (cluOff (↑c) Reg.acqMissed)))) (a10 : Allows K (.one .freeCtr)) : Evolves K x t := by
  simp only [execStateTimeout, Host.Outcome.next.injEq] at e
  subst e
  have h := Evolves.refl K x
  repeat' (first | with_reducible refine fun _ => ?_ | with_reducible (first | exact h | apply State.stateTimeout_changes))
  all_goals (with_reducible first | assumption | exact a3.fst | exact a3.snd | exact a8.fst | exact a8.snd)

theorem execFailCounterWindowWrite_changes {K : List Foot} {x t : State} (off) (v) (drain) (e : execFailCounterWindowWrite off v drain x = .next t) (a0 : Allows K .hostError) (a1 : Allows K (.one (.reg Reg.memCollide))) (a2 : Allows K .failCnts) (a3 : Allows K (.cluPair Reg.flFlags)) (a4 : Allows K .events) (a5 : Allows K (.one (.reg Reg.memEccAddr))) (a6 : Allows K (.pair Reg.memFlags)) (a7 : Allows K (.one (.reg Reg.memEccCnt))) (a8 : Allows K (.one .plan)) (a9 : Allows K .drams) (a10 : Allows K (.cluReg Reg.flRecWr)) (a11 : Allows K .lanes) (a12 : Allows K (.cluReg Reg.flRecLost)) (a13 : Allows K (.regs Reg.flSiteFail (Reg.flSiteFail + 1024))) (a14 : Allows K (.regs Reg.flFirst (Reg.flFirst + 2048))) : Evolves K x t := by
  simp only [execFailCounterWindowWrite, Host.Outcome.next.injEq] at e
  subst e
  have h := Evolves.refl K x
  repeat' (first | with_reducible refine fun _ => ?_ | with_reducible (first | exact h | assumption | apply State.onWrite_changes | apply State.windowWrite_changes))
  all_goals (with_reducible first | assumption | exact a0.hstFlagsOfError | exact a0.readsOfError | exact a0.badAddrOfError | exact a3.pairClu (by decide) | exact a3.cluFst | exact a3.cluSnd | exact a3.cluFst.ofClu (by decide) | exact a3.cluSnd.ofClu (by decide) | exact a4.vectorOfEvents | exact a4.logOfEvents | exact a4.evrPairOfEvents | exact a4.evrOfEvents | exact a4.vectorsOfEvents | exact a4.evrStatusOfEvents | exact a4.evrDropOfEvents | exact a4.evrCommitOfEvents | exact a4.evrLogOfEvents | exact a4.evrLogBseqOfEvents | exact a6.fst | exact a6.snd | exact a9.dramOf | exact a10.ofClu (by decide) | exact a11.laneOf | exact a12.ofClu (by decide) | exact a13.inRegs (by decide) | exact a13.pairInRegs (by decide) | exact a13.regsInRegs (by decide) | exact a14.inRegs (by decide) | exact a14.pairInRegs (by decide) | exact a14.regsInRegs (by decide))

theorem execDdsEntryWrite_changes {K : List Foot} {x t : State} (c) (cycle) (v) (e : execDdsEntryWrite ⟨c, cycle⟩ v x = .next t) (a0 : Allows K .hostError) (a1 : Allows K (.pair (cluOff (↑c) Reg.ddsData0))) (a2 : Allows K (.pair (cluOff (↑c) Reg.ddsFlags))) (a3 : Allows K (.one (.clu ↑c))) (a4 : Allows K (.one (.reg (cluOff (↑c) Reg.ddsAddr)))) : Evolves K x t := by
  simp only [execDdsEntryWrite, Host.Outcome.next.injEq] at e
  subst e
  have h := Evolves.refl K x
  repeat' (first | with_reducible refine fun _ => ?_ | with_reducible (first | exact h | assumption | apply State.onWrite_changes | apply State.ddsAddr_changes))
  all_goals (with_reducible first | assumption | exact a0.hstFlagsOfError | exact a0.readsOfError | exact a0.badAddrOfError | exact a1.fst | exact a1.snd | exact a2.fst | exact a2.snd)

theorem execModulatorOverload_changes {K : List Foot} {x t : State} (ch) (cycle) (e : execModulatorOverload ch cycle x = .next t) (a0 : Allows K (.one (.chan ↑ch))) (a1 : Allows K (.pair (chOff (↑ch) Reg.pmuFlags))) (a2 : Allows K (.one (.reg (chOff (↑ch) Reg.pmuStatus)))) : Evolves K x t := by
  simp only [execModulatorOverload, Host.Outcome.next.injEq] at e
  subst e
  have h := Evolves.refl K x
  repeat' (first | with_reducible refine fun _ => ?_ | with_reducible (first | exact h | apply State.overload_changes))
  all_goals (with_reducible first | assumption | exact a1.fst | exact a1.snd)

theorem execEdgePlacement_changes {K : List Foot} {x t : State} (ch) (e : execEdgePlacement ch x = .next t) (a0 : Allows K .chans) : Evolves K x t := by
  simp only [execEdgePlacement, Host.Outcome.next.injEq] at e
  subst e
  have h := Evolves.refl K x
  repeat' (first | with_reducible refine fun _ => ?_ | with_reducible (first | exact h | apply State.edgePlace_changes))
  all_goals (with_reducible first | assumption | exact a0.chanOf)

theorem execRead_changes {K : List Foot} {x t : State} (e : execRead x = .next t) (a0 : Allows K .completion) : Evolves K x t := by
  simp only [execRead, Host.Outcome.next.injEq] at e
  subst e
  have h := Evolves.refl K x
  repeat' (first | with_reducible refine fun _ => ?_ | with_reducible (first | exact h | apply State.cmdRead_changes))
  all_goals (with_reducible first | assumption | exact a0.vectorOfCompletion | exact a0.ringsOfCompletion | exact a0.hostMemOfCompletion | exact a0.vectorsOfCompletion | exact a0.cplTailOfCompletion | exact a0.cplDropOfCompletion)

theorem execCwLift_changes {K : List Foot} {x t : State} (p) (cell) (e : execCwLift p cell x = .next t) (a0 : Allows K (.one .cwy)) (a1 : Allows K (.pair Reg.cwyFlags)) (a2 : Allows K .events) (a3 : Allows K (.pair Reg.sndMaskLo)) (a4 : Allows K (.one (.reg Reg.sndStatus))) (a5 : Allows K (.one .cal)) (a6 : Allows K (.pair Reg.calFlags)) (a7 : Allows K .completion) (a8 : Allows K (.chReg Reg.pmuStatus)) (a9 : Allows K .chans) (a10 : Allows K (.chReg Reg.peStatus)) (a11 : Allows K (.chReg Reg.tiaStatus)) (a12 : Allows K (.chReg Reg.tiaDiscard)) (a13 : Allows K (.chPair Reg.tiaMaxLo)) (a14 : Allows K (.chPair Reg.tiaMinLo)) (a15 : Allows K (.chPair Reg.tiaSdevLo)) (a16 : Allows K (.chPair Reg.tiaMeanLo)) (a17 : Allows K (.chReg Reg.tiaCount)) (a18 : Allows K (.chPair Reg.tiaLastLo)) (a19 : Allows K (.chReg Reg.tiaSkip)) (a20 : Allows K .clus) (a21 : Allows K (.chReg Reg.tiaFcnt)) (a22 : Allows K (.one .snd)) (a23 : Allows K (.chReg Reg.tiaCdCtl)) (a24 : Allows K (.pair Reg.sndFlags)) : Evolves K x t := by
  simp only [execCwLift, Host.Outcome.next.injEq] at e
  subst e
  have h := Evolves.refl K x
  repeat' (first | with_reducible refine fun _ => ?_ | with_reducible (first | exact h | assumption | apply State.cwReceive_changes | apply State.liftoff_changes))
  all_goals (with_reducible first | assumption | exact a1.fst | exact a1.snd | exact a2.vectorOfEvents | exact a2.logOfEvents | exact a2.evrPairOfEvents | exact a2.evrOfEvents | exact a2.vectorsOfEvents | exact a2.evrStatusOfEvents | exact a2.evrDropOfEvents | exact a2.evrCommitOfEvents | exact a2.evrLogOfEvents | exact a2.evrLogBseqOfEvents | exact a3.fst | exact a3.snd | exact a6.fst | exact a6.snd | exact a7.vectorOfCompletion | exact a7.ringsOfCompletion | exact a7.hostMemOfCompletion | exact a7.vectorsOfCompletion | exact a7.cplTailOfCompletion | exact a7.cplDropOfCompletion | exact a8.ofCh (by decide) | exact a9.chanOf | exact a10.ofCh (by decide) | exact a11.ofCh (by decide) | exact a12.ofCh (by decide) | exact a13.pairCh (by decide) | exact a13.chFst | exact a13.chSnd | exact a13.chFst.ofCh (by decide) | exact a13.chSnd.ofCh (by decide) | exact a14.pairCh (by decide) | exact a14.chFst | exact a14.chSnd | exact a14.chFst.ofCh (by decide) | exact a14.chSnd.ofCh (by decide) | exact a15.pairCh (by decide) | exact a15.chFst | exact a15.chSnd | exact a15.chFst.ofCh (by decide) | exact a15.chSnd.ofCh (by decide) | exact a16.pairCh (by decide) | exact a16.chFst | exact a16.chSnd | exact a16.chFst.ofCh (by decide) | exact a16.chSnd.ofCh (by decide) | exact a17.ofCh (by decide) | exact a18.pairCh (by decide) | exact a18.chFst | exact a18.chSnd | exact a18.chFst.ofCh (by decide) | exact a18.chSnd.ofCh (by decide) | exact a19.ofCh (by decide) | exact a20.cluOf | exact a21.ofCh (by decide) | exact a23.ofCh (by decide) | exact a24.fst | exact a24.snd)

theorem execBar0Unmapped_changes {K : List Foot} {x t : State} (off) (isWrite) (e : execBar0Unmapped off isWrite x = .next t) (a0 : Allows K .hostError) : Evolves K x t := by
  simp only [execBar0Unmapped, Host.Outcome.next.injEq] at e
  subst e
  have h := Evolves.refl K x
  repeat' (first | with_reducible refine fun _ => ?_ | with_reducible (first | exact h | apply State.unmapped_changes | apply Evolves.ite))
  all_goals (with_reducible first | assumption | exact a0.hstFlagsOfError | exact a0.readsOfError | exact a0.badAddrOfError)

theorem execPerstAssert_changes {K : List Foot} {x t : State} (e : execPerstAssert x = .next t) (a0 : Allows K .allRegs) (a1 : Allows K (.one .shadows)) (a2 : Allows K (.one .boot)) (a3 : Allows K (.one .clk)) (a4 : Allows K (.one .evr)) (a5 : Allows K (.one .rings)) (a6 : Allows K (.one .hostMem)) (a7 : Allows K (.one .msix)) (a8 : Allows K (.one .vectors)) (a9 : Allows K (.one .reads)) (a10 : Allows K (.one .macros)) (a11 : Allows K (.one .march)) (a12 : Allows K (.one .refills)) (a13 : Allows K (.one .timing)) (a14 : Allows K .failCnts) (a15 : Allows K (.one .cal)) (a16 : Allows K (.one .pwr)) (a17 : Allows K .seqs) (a18 : Allows K .lanes) (a19 : Allows K .clus) (a20 : Allows K .chans) (a21 : Allows K (.one .plan)) (a22 : Allows K (.one .snd)) (a23 : Allows K (.one .cwy)) (a24 : Allows K .log) (a25 : Allows K .vector) : Evolves K x t := by
  simp only [execPerstAssert, Host.Outcome.next.injEq] at e
  subst e
  have h := Evolves.refl K x
  repeat' (first | with_reducible refine fun _ => ?_ | with_reducible (first | exact h | apply State.resetAsserted_changes))
  all_goals (with_reducible first | assumption | exact a0.regOfAll | exact a0.pairOfAll | exact a0.chRegOfAll | exact a0.chPairOfAll | exact a0.cluRegOfAll | exact a0.cluPairOfAll | exact a0.regsOfAll | exact a17.seqOf | exact a18.laneOf | exact a19.cluOf | exact a20.chanOf | exact a25.vecRegOfVector | exact a25.vectorsOfVector)

theorem execSoundingTimeout_changes {K : List Foot} {x t : State} (e : execSoundingTimeout x = .next t) (a0 : Allows K .completion) (a1 : Allows K .events) (a2 : Allows K (.one (.reg Reg.sndStatus))) (a3 : Allows K (.chReg Reg.pmuStatus)) (a4 : Allows K .chans) (a5 : Allows K (.chReg Reg.peStatus)) (a6 : Allows K (.chReg Reg.tiaStatus)) (a7 : Allows K (.chReg Reg.tiaDiscard)) (a8 : Allows K (.chPair Reg.tiaMaxLo)) (a9 : Allows K (.chPair Reg.tiaMinLo)) (a10 : Allows K (.chPair Reg.tiaSdevLo)) (a11 : Allows K (.chPair Reg.tiaMeanLo)) (a12 : Allows K (.chReg Reg.tiaCount)) (a13 : Allows K (.chPair Reg.tiaLastLo)) (a14 : Allows K (.chReg Reg.tiaSkip)) (a15 : Allows K .clus) (a16 : Allows K (.chReg Reg.tiaFcnt)) (a17 : Allows K (.one .snd)) (a18 : Allows K (.chReg Reg.tiaCdCtl)) (a19 : Allows K (.pair Reg.sndFlags)) : Evolves K x t := by
  simp only [execSoundingTimeout, Host.Outcome.next.injEq] at e
  subst e
  have h := Evolves.refl K x
  repeat' (first | with_reducible refine fun _ => ?_ | with_reducible (first | exact h | apply State.soundTimeout_changes))
  all_goals (with_reducible first | assumption | exact a0.vectorOfCompletion | exact a0.ringsOfCompletion | exact a0.hostMemOfCompletion | exact a0.vectorsOfCompletion | exact a0.cplTailOfCompletion | exact a0.cplDropOfCompletion | exact a1.vectorOfEvents | exact a1.logOfEvents | exact a1.evrPairOfEvents | exact a1.evrOfEvents | exact a1.vectorsOfEvents | exact a1.evrStatusOfEvents | exact a1.evrDropOfEvents | exact a1.evrCommitOfEvents | exact a1.evrLogOfEvents | exact a1.evrLogBseqOfEvents | exact a3.ofCh (by decide) | exact a4.chanOf | exact a5.ofCh (by decide) | exact a6.ofCh (by decide) | exact a7.ofCh (by decide) | exact a8.pairCh (by decide) | exact a8.chFst | exact a8.chSnd | exact a8.chFst.ofCh (by decide) | exact a8.chSnd.ofCh (by decide) | exact a9.pairCh (by decide) | exact a9.chFst | exact a9.chSnd | exact a9.chFst.ofCh (by decide) | exact a9.chSnd.ofCh (by decide) | exact a10.pairCh (by decide) | exact a10.chFst | exact a10.chSnd | exact a10.chFst.ofCh (by decide) | exact a10.chSnd.ofCh (by decide) | exact a11.pairCh (by decide) | exact a11.chFst | exact a11.chSnd | exact a11.chFst.ofCh (by decide) | exact a11.chSnd.ofCh (by decide) | exact a12.ofCh (by decide) | exact a13.pairCh (by decide) | exact a13.chFst | exact a13.chSnd | exact a13.chFst.ofCh (by decide) | exact a13.chSnd.ofCh (by decide) | exact a14.ofCh (by decide) | exact a15.cluOf | exact a16.ofCh (by decide) | exact a18.ofCh (by decide) | exact a19.fst | exact a19.snd)

theorem execLoop_changes {K : List Foot} {x t : State} (q) (ecc) (e : execLoop q ecc x = .next t) (a0 : Allows K (.one (.reg (seqOff (↑q) Reg.seqFault)))) (a1 : Allows K .events) (a2 : Allows K (.one (.reg Reg.memEccAddr))) (a3 : Allows K (.pair Reg.memFlags)) (a4 : Allows K (.one (.reg Reg.memEccCnt))) (a5 : Allows K (.one (.reg (seqOff (↑q) Reg.seqEccCnt)))) (a6 : Allows K (.pair (seqOff (↑q) Reg.seqFlags))) (a7 : Allows K .seqs) (a8 : Allows K (.one .plan)) (a9 : Allows K .lanes) (a10 : Allows K (.one (.reg Reg.plnState))) (a11 : Allows K (.one .cwy)) (a12 : Allows K (.regs Reg.flSiteFail (Reg.flSiteFail + 1024))) (a13 : Allows K (.regs Reg.flFirst (Reg.flFirst + 2048))) (a14 : Allows K (.one (.clu ↑q))) (a15 : Allows K (.pair (cluOff (↑q) Reg.plnFlags))) (a16 : Allows K (.one (.reg (cluOff (↑q) Reg.ddsStatus)))) (a17 : Allows K (.one .freeCtr)) (a18 : Allows K (.chRegs Reg.tgScrStgLo (Reg.tgScrStgLo + 8))) : Evolves K x t := by
  simp only [execLoop, Host.Outcome.next.injEq] at e
  subst e
  have h := Evolves.refl K x
  repeat' (first | with_reducible refine fun _ => ?_ | with_reducible (first | exact h | apply State.run1_changes))
  all_goals (with_reducible first | assumption | exact a1.vectorOfEvents | exact a1.logOfEvents | exact a1.evrPairOfEvents | exact a1.evrOfEvents | exact a1.vectorsOfEvents | exact a1.evrStatusOfEvents | exact a1.evrDropOfEvents | exact a1.evrCommitOfEvents | exact a1.evrLogOfEvents | exact a1.evrLogBseqOfEvents | exact a3.fst | exact a3.snd | exact a6.fst | exact a6.snd | exact a7.seqOf | exact a9.laneOf | exact a12.inRegs (by decide) | exact a12.pairInRegs (by decide) | exact a12.regsInRegs (by decide) | exact a13.inRegs (by decide) | exact a13.pairInRegs (by decide) | exact a13.regsInRegs (by decide) | exact a15.fst | exact a15.snd | exact a18.regsCh (by decide) | exact a18.ofChRegs (by decide))

theorem execHstCmdTailWrite_changes {K : List Foot} {x t : State} (v) (e : execHstCmdTailWrite v x = .next t) (a0 : Allows K .hostError) (a1 : Allows K (.one (.reg Reg.hstCmdTail))) : Evolves K x t := by
  simp only [execHstCmdTailWrite, Host.Outcome.next.injEq] at e
  subst e
  have h := Evolves.refl K x
  repeat' (first | with_reducible refine fun _ => ?_ | with_reducible (first | exact h | assumption | apply State.onWrite_changes | apply State.ringIndex_changes))
  all_goals (with_reducible first | assumption | exact a0.hstFlagsOfError | exact a0.readsOfError | exact a0.badAddrOfError)

theorem execRetentionWake_changes {K : List Foot} {x t : State} (c) (e : execRetentionWake c x = .next t) (a0 : Allows K (.chReg Reg.tiaLine)) (a1 : Allows K .chans) (a2 : Allows K (.one (.reg Reg.memRetWakes))) (a3 : Allows K (.one (.reg Reg.memRetState))) : Evolves K x t := by
  simp only [execRetentionWake, Host.Outcome.next.injEq] at e
  subst e
  have h := Evolves.refl K x
  repeat' (first | with_reducible refine fun _ => ?_ | with_reducible (first | exact h | apply State.wake_changes))
  all_goals (with_reducible first | assumption | exact a0.ofCh (by decide) | exact a1.chanOf)

theorem execResponseLookup_changes {K : List Foot} {x t : State} (ch) (e : execResponseLookup ch x = .next t) (a0 : Allows K .chans) (a1 : Allows K (.pair (chOff (↑ch) Reg.tgFlags))) : Evolves K x t := by
  simp only [execResponseLookup, Host.Outcome.next.injEq] at e
  subst e
  have h := Evolves.refl K x
  repeat' (first | with_reducible refine fun _ => ?_ | with_reducible (first | exact h | apply State.respLookup_changes))
  all_goals (with_reducible first | assumption | exact a0.chanOf | exact a1.fst | exact a1.snd)

theorem execLineLock_changes {K : List Foot} {x t : State} (ch) (line) (e : execLineLock ch line x = .next t) (a0 : Allows K (.one (.reg (chOff (↑ch) Reg.tiaLine)))) (a1 : Allows K .chans) : Evolves K x t := by
  simp only [execLineLock, Host.Outcome.next.injEq] at e
  subst e
  have h := Evolves.refl K x
  repeat' (first | with_reducible refine fun _ => ?_ | with_reducible (first | exact h | apply State.lineLock_changes))
  all_goals (with_reducible first | assumption | exact a1.chanOf)

theorem execSluiceCreditReturn_changes {K : List Foot} {x t : State} (c) (e : execSluiceCreditReturn c x = .next t) (a0 : Allows K (.one (.reg (cluOff (↑c) Reg.plnSluice)))) (a1 : Allows K (.one (.lane ↑c))) : Evolves K x t := by
  simp only [execSluiceCreditReturn, Host.Outcome.next.injEq] at e
  subst e
  have h := Evolves.refl K x
  repeat' (first | with_reducible refine fun _ => ?_ | with_reducible (first | exact h | apply State.creditReturn_changes))
  all_goals (with_reducible first | assumption)

theorem execCwTouch_changes {K : List Foot} {x t : State} (p) (cell) (e : execCwTouch p cell x = .next t) (a0 : Allows K (.one .cwy)) (a1 : Allows K (.pair Reg.cwyFlags)) (a2 : Allows K .events) (a3 : Allows K (.one (.reg Reg.sndStatus))) (a4 : Allows K (.one .cal)) (a5 : Allows K (.pair Reg.calFlags)) (a6 : Allows K (.pair Reg.sndFlags)) (a7 : Allows K (.one .snd)) (a8 : Allows K (.chReg Reg.tiaLine)) (a9 : Allows K .chans) (a10 : Allows K (.one (.reg Reg.memRetWakes))) (a11 : Allows K (.one (.reg Reg.memRetState))) : Evolves K x t := by
  simp only [execCwTouch, Host.Outcome.next.injEq] at e
  subst e
  have h := Evolves.refl K x
  repeat' (first | with_reducible refine fun _ => ?_ | with_reducible (first | exact h | assumption | apply State.cwReceive_changes | apply State.touchdown_changes))
  all_goals (with_reducible first | assumption | exact a1.fst | exact a1.snd | exact a2.vectorOfEvents | exact a2.logOfEvents | exact a2.evrPairOfEvents | exact a2.evrOfEvents | exact a2.vectorsOfEvents | exact a2.evrStatusOfEvents | exact a2.evrDropOfEvents | exact a2.evrCommitOfEvents | exact a2.evrLogOfEvents | exact a2.evrLogBseqOfEvents | exact a5.fst | exact a5.snd | exact a6.fst | exact a6.snd | exact a8.ofCh (by decide) | exact a9.chanOf)

theorem execCommandFetch_changes {K : List Foot} {x t : State} (entry) (e : execCommandFetch entry x = .next t) (a0 : Allows K .completion) (a1 : Allows K (.one (.reg Reg.hstCmdHead))) : Evolves K x t := by
  simp only [execCommandFetch, Host.Outcome.next.injEq] at e
  subst e
  have h := Evolves.refl K x
  repeat' (first | with_reducible refine fun _ => ?_ | with_reducible (first | exact h | apply State.fetch_changes))
  all_goals (with_reducible first | assumption | exact a0.vectorOfCompletion | exact a0.ringsOfCompletion | exact a0.hostMemOfCompletion | exact a0.vectorsOfCompletion | exact a0.cplTailOfCompletion | exact a0.cplDropOfCompletion)

theorem execMgtHeartbeat_changes {K : List Foot} {x t : State} (e : execMgtHeartbeat x = .next t) (a0 : Allows K (.one .boot)) : Evolves K x t := by
  simp only [execMgtHeartbeat, Host.Outcome.next.injEq] at e
  subst e
  have h := Evolves.refl K x
  repeat' (first | with_reducible refine fun _ => ?_ | with_reducible (first | exact h | apply State.heartbeat_changes))
  all_goals (with_reducible first | assumption)

theorem execLstop_changes {K : List Foot} {x t : State} (q) (ecc) (e : execLstop q ecc x = .next t) (a0 : Allows K (.one (.reg (seqOff (↑q) Reg.seqFault)))) (a1 : Allows K .events) (a2 : Allows K (.one (.reg Reg.memEccAddr))) (a3 : Allows K (.pair Reg.memFlags)) (a4 : Allows K (.one (.reg Reg.memEccCnt))) (a5 : Allows K (.one (.reg (seqOff (↑q) Reg.seqEccCnt)))) (a6 : Allows K (.pair (seqOff (↑q) Reg.seqFlags))) (a7 : Allows K .seqs) (a8 : Allows K (.one .plan)) (a9 : Allows K .lanes) (a10 : Allows K (.one (.reg Reg.plnState))) (a11 : Allows K (.one .cwy)) (a12 : Allows K (.regs Reg.flSiteFail (Reg.flSiteFail + 1024))) (a13 : Allows K (.regs Reg.flFirst (Reg.flFirst + 2048))) (a14 : Allows K (.one (.clu ↑q))) (a15 : Allows K (.pair (cluOff (↑q) Reg.plnFlags))) (a16 : Allows K (.one (.reg (cluOff (↑q) Reg.ddsStatus)))) (a17 : Allows K (.one .freeCtr)) (a18 : Allows K (.chRegs Reg.tgScrStgLo (Reg.tgScrStgLo + 8))) : Evolves K x t := by
  simp only [execLstop, Host.Outcome.next.injEq] at e
  subst e
  have h := Evolves.refl K x
  repeat' (first | with_reducible refine fun _ => ?_ | with_reducible (first | exact h | apply State.run1_changes))
  all_goals (with_reducible first | assumption | exact a1.vectorOfEvents | exact a1.logOfEvents | exact a1.evrPairOfEvents | exact a1.evrOfEvents | exact a1.vectorsOfEvents | exact a1.evrStatusOfEvents | exact a1.evrDropOfEvents | exact a1.evrCommitOfEvents | exact a1.evrLogOfEvents | exact a1.evrLogBseqOfEvents | exact a3.fst | exact a3.snd | exact a6.fst | exact a6.snd | exact a7.seqOf | exact a9.laneOf | exact a12.inRegs (by decide) | exact a12.pairInRegs (by decide) | exact a12.regsInRegs (by decide) | exact a13.inRegs (by decide) | exact a13.pairInRegs (by decide) | exact a13.regsInRegs (by decide) | exact a15.fst | exact a15.snd | exact a18.regsCh (by decide) | exact a18.ofChRegs (by decide))

theorem execCalibrate_changes {K : List Foot} {x t : State} (e : execCalibrate x = .next t) (a0 : Allows K .completion) (a1 : Allows K (.chReg Reg.tiaCdCtl)) (a2 : Allows K .chans) (a3 : Allows K (.chReg Reg.pmuStatus)) (a4 : Allows K (.chReg Reg.peStatus)) (a5 : Allows K (.chReg Reg.tiaStatus)) (a6 : Allows K (.chReg Reg.tiaCount)) (a7 : Allows K (.chReg Reg.tiaSkip)) (a8 : Allows K (.chReg Reg.tiaDiscard)) (a9 : Allows K (.chReg Reg.tiaFcnt)) (a10 : Allows K (.one .cal)) (a11 : Allows K (.one (.reg Reg.calStatus))) (a12 : Allows K .events) (a13 : Allows K (.chPair Reg.tiaMaxLo)) (a14 : Allows K (.chPair Reg.tiaMinLo)) (a15 : Allows K (.chPair Reg.tiaSdevLo)) (a16 : Allows K (.chPair Reg.tiaMeanLo)) (a17 : Allows K (.chPair Reg.tiaLastLo)) (a18 : Allows K .clus) (a19 : Allows K (.chReg Reg.tiaLine)) (a20 : Allows K (.one (.reg Reg.memRetWakes))) (a21 : Allows K (.one (.reg Reg.memRetState))) (a22 : Allows K (.regs Reg.calChFail (Reg.calChFail + 2048))) : Evolves K x t := by
  simp only [execCalibrate, Host.Outcome.next.injEq] at e
  subst e
  have h := Evolves.refl K x
  repeat' (first | with_reducible refine fun _ => ?_ | with_reducible (first | exact h | apply State.cmdCalibrate_changes))
  all_goals (with_reducible first | assumption | exact a0.vectorOfCompletion | exact a0.ringsOfCompletion | exact a0.hostMemOfCompletion | exact a0.vectorsOfCompletion | exact a0.cplTailOfCompletion | exact a0.cplDropOfCompletion | exact a1.ofCh (by decide) | exact a2.chanOf | exact a3.ofCh (by decide) | exact a4.ofCh (by decide) | exact a5.ofCh (by decide) | exact a6.ofCh (by decide) | exact a7.ofCh (by decide) | exact a8.ofCh (by decide) | exact a9.ofCh (by decide) | exact a12.vectorOfEvents | exact a12.logOfEvents | exact a12.evrPairOfEvents | exact a12.evrOfEvents | exact a12.vectorsOfEvents | exact a12.evrStatusOfEvents | exact a12.evrDropOfEvents | exact a12.evrCommitOfEvents | exact a12.evrLogOfEvents | exact a12.evrLogBseqOfEvents | exact a13.pairCh (by decide) | exact a13.chFst | exact a13.chSnd | exact a13.chFst.ofCh (by decide) | exact a13.chSnd.ofCh (by decide) | exact a14.pairCh (by decide) | exact a14.chFst | exact a14.chSnd | exact a14.chFst.ofCh (by decide) | exact a14.chSnd.ofCh (by decide) | exact a15.pairCh (by decide) | exact a15.chFst | exact a15.chSnd | exact a15.chFst.ofCh (by decide) | exact a15.chSnd.ofCh (by decide) | exact a16.pairCh (by decide) | exact a16.chFst | exact a16.chSnd | exact a16.chFst.ofCh (by decide) | exact a16.chSnd.ofCh (by decide) | exact a17.pairCh (by decide) | exact a17.chFst | exact a17.chSnd | exact a17.chFst.ofCh (by decide) | exact a17.chSnd.ofCh (by decide) | exact a18.cluOf | exact a19.ofCh (by decide) | exact a22.inRegs (by decide) | exact a22.pairInRegs (by decide) | exact a22.regsInRegs (by decide))

theorem execRtbl_changes {K : List Foot} {x t : State} (q) (ecc) (e : execRtbl q ecc x = .next t) (a0 : Allows K (.one (.reg (seqOff (↑q) Reg.seqFault)))) (a1 : Allows K .events) (a2 : Allows K (.one (.reg Reg.memEccAddr))) (a3 : Allows K (.pair Reg.memFlags)) (a4 : Allows K (.one (.reg Reg.memEccCnt))) (a5 : Allows K (.one (.reg (seqOff (↑q) Reg.seqEccCnt)))) (a6 : Allows K (.pair (seqOff (↑q) Reg.seqFlags))) (a7 : Allows K .seqs) (a8 : Allows K (.one .plan)) (a9 : Allows K .lanes) (a10 : Allows K (.one (.reg Reg.plnState))) (a11 : Allows K (.one .cwy)) (a12 : Allows K (.regs Reg.flSiteFail (Reg.flSiteFail + 1024))) (a13 : Allows K (.regs Reg.flFirst (Reg.flFirst + 2048))) (a14 : Allows K (.one (.clu ↑q))) (a15 : Allows K (.pair (cluOff (↑q) Reg.plnFlags))) (a16 : Allows K (.one (.reg (cluOff (↑q) Reg.ddsStatus)))) (a17 : Allows K (.one .freeCtr)) (a18 : Allows K (.chRegs Reg.tgScrStgLo (Reg.tgScrStgLo + 8))) : Evolves K x t := by
  simp only [execRtbl, Host.Outcome.next.injEq] at e
  subst e
  have h := Evolves.refl K x
  repeat' (first | with_reducible refine fun _ => ?_ | with_reducible (first | exact h | apply State.run1_changes))
  all_goals (with_reducible first | assumption | exact a1.vectorOfEvents | exact a1.logOfEvents | exact a1.evrPairOfEvents | exact a1.evrOfEvents | exact a1.vectorsOfEvents | exact a1.evrStatusOfEvents | exact a1.evrDropOfEvents | exact a1.evrCommitOfEvents | exact a1.evrLogOfEvents | exact a1.evrLogBseqOfEvents | exact a3.fst | exact a3.snd | exact a6.fst | exact a6.snd | exact a7.seqOf | exact a9.laneOf | exact a12.inRegs (by decide) | exact a12.pairInRegs (by decide) | exact a12.regsInRegs (by decide) | exact a13.inRegs (by decide) | exact a13.pairInRegs (by decide) | exact a13.regsInRegs (by decide) | exact a15.fst | exact a15.snd | exact a18.regsCh (by decide) | exact a18.ofChRegs (by decide))

theorem execEdgeFormation_changes {K : List Foot} {x t : State} (ch) (e : execEdgeFormation ch x = .next t) (a0 : Allows K (.one (.lane (↑ch / 16)))) (a1 : Allows K (.pair (chOff (↑ch) Reg.tgFlags))) (a2 : Allows K (.one (.reg (chOff (↑ch) Reg.tgQueue)))) (a3 : Allows K .chans) : Evolves K x t := by
  simp only [execEdgeFormation, Host.Outcome.next.injEq] at e
  subst e
  have h := Evolves.refl K x
  repeat' (first | with_reducible refine fun _ => ?_ | with_reducible (first | exact h | apply State.edgeForm_changes))
  all_goals (with_reducible first | assumption | exact a1.fst | exact a1.snd | exact a3.chanOf)

theorem execLoReadLatch_changes {K : List Foot} {x t : State} (off) (e : execLoReadLatch off x = .next t) (a0 : Allows K .hostError) (a1 : Allows K (.one (.reg off.toNat))) (a2 : Allows K (.one (.reg (off.toNat - 4)))) (a3 : Allows K (.one .shadows)) (a4 : Allows K (.one (.reg Reg.memEccCnt))) (a5 : Allows K (.one (.reg (Reg.flSiteStatus + 16 * ((off.toNat - 12582912) / 16384))))) (a6 : Allows K .failCnts) (a7 : Allows K .events) (a8 : Allows K (.one (.reg Reg.memEccAddr))) (a9 : Allows K (.pair Reg.memFlags)) : Evolves K x t := by
  simp only [execLoReadLatch, Host.Outcome.next.injEq] at e
  subst e
  have h := Evolves.refl K x
  repeat' (first | with_reducible refine fun _ => ?_ | with_reducible (first | exact h | apply State.busRead_changes))
  all_goals (with_reducible first | assumption | exact a0.hstFlagsOfError | exact a0.readsOfError | exact a0.badAddrOfError | exact a7.vectorOfEvents | exact a7.logOfEvents | exact a7.evrPairOfEvents | exact a7.evrOfEvents | exact a7.vectorsOfEvents | exact a7.evrStatusOfEvents | exact a7.evrDropOfEvents | exact a7.evrCommitOfEvents | exact a7.evrLogOfEvents | exact a7.evrLogBseqOfEvents | exact a9.fst | exact a9.snd)

theorem execRangingEnd_changes {K : List Foot} {x t : State} (ch) (e : execRangingEnd ch x = .next t) (a0 : Allows K (.one (.chan ↑ch))) (a1 : Allows K (.one (.reg (chOff (↑ch) Reg.pmuStatus)))) (a2 : Allows K (.one (.reg (chOff (↑ch) Reg.peStatus)))) : Evolves K x t := by
  simp only [execRangingEnd, Host.Outcome.next.injEq] at e
  subst e
  have h := Evolves.refl K x
  repeat' (first | with_reducible refine fun _ => ?_ | with_reducible (first | exact h | apply State.rangeEnd_changes))
  all_goals (with_reducible first | assumption)

theorem execTiaTimeout_changes {K : List Foot} {x t : State} (ch) (e : execTiaTimeout ch x = .next t) (a0 : Allows K (.one (.chan ↑ch))) (a1 : Allows K (.one (.reg (chOff (↑ch) Reg.tiaFcnt)))) (a2 : Allows K .events) (a3 : Allows K (.one (.reg (chOff (↑ch) Reg.tiaStatus)))) (a4 : Allows K (.pair (chOff (↑ch) Reg.tiaMaxLo))) (a5 : Allows K (.pair (chOff (↑ch) Reg.tiaMinLo))) (a6 : Allows K (.pair (chOff (↑ch) Reg.tiaSdevLo))) (a7 : Allows K (.pair (chOff (↑ch) Reg.tiaMeanLo))) (a8 : Allows K (.one (.reg (chOff (↑ch) Reg.tiaCount)))) (a9 : Allows K (.one (.reg (chOff (↑ch) Reg.tiaDiscard)))) (a10 : Allows K (.pair (chOff (↑ch) Reg.tiaLastLo))) (a11 : Allows K (.one (.reg (chOff (↑ch) Reg.tiaSkip)))) (a12 : Allows K (.one (.clu (↑ch / 16)))) : Evolves K x t := by
  simp only [execTiaTimeout, Host.Outcome.next.injEq] at e
  subst e
  have h := Evolves.refl K x
  repeat' (first | with_reducible refine fun _ => ?_ | with_reducible (first | exact h | apply State.tiaTimeout_changes))
  all_goals (with_reducible first | assumption | exact a2.vectorOfEvents | exact a2.logOfEvents | exact a2.evrPairOfEvents | exact a2.evrOfEvents | exact a2.vectorsOfEvents | exact a2.evrStatusOfEvents | exact a2.evrDropOfEvents | exact a2.evrCommitOfEvents | exact a2.evrLogOfEvents | exact a2.evrLogBseqOfEvents | exact a4.fst | exact a4.snd | exact a5.fst | exact a5.snd | exact a6.fst | exact a6.snd | exact a7.fst | exact a7.snd | exact a10.fst | exact a10.snd)

theorem execSluicePost_changes {K : List Foot} {x t : State} (c) (v) (e : execSluicePost c v x = .next t) (a0 : Allows K .hostError) (a1 : Allows K (.pair (cluOff (↑c) Reg.plnFlags))) (a2 : Allows K (.one (.lane ↑c))) (a3 : Allows K (.one (.reg (cluOff (↑c) Reg.plnSluicePos)))) (a4 : Allows K (.one (.reg (cluOff (↑c) Reg.plnSluice)))) : Evolves K x t := by
  simp only [execSluicePost, Host.Outcome.next.injEq] at e
  subst e
  have h := Evolves.refl K x
  repeat' (first | with_reducible refine fun _ => ?_ | with_reducible (first | exact h | assumption | apply State.onWrite_changes | apply State.sluicePost_changes))
  all_goals (with_reducible first | assumption | exact a0.hstFlagsOfError | exact a0.readsOfError | exact a0.badAddrOfError | exact a1.fst | exact a1.snd)

theorem execCall_changes {K : List Foot} {x t : State} (q) (ecc) (e : execCall q ecc x = .next t) (a0 : Allows K (.one (.reg (seqOff (↑q) Reg.seqFault)))) (a1 : Allows K .events) (a2 : Allows K (.one (.reg Reg.memEccAddr))) (a3 : Allows K (.pair Reg.memFlags)) (a4 : Allows K (.one (.reg Reg.memEccCnt))) (a5 : Allows K (.one (.reg (seqOff (↑q) Reg.seqEccCnt)))) (a6 : Allows K (.pair (seqOff (↑q) Reg.seqFlags))) (a7 : Allows K .seqs) (a8 : Allows K (.one .plan)) (a9 : Allows K .lanes) (a10 : Allows K (.one (.reg Reg.plnState))) (a11 : Allows K (.one .cwy)) (a12 : Allows K (.regs Reg.flSiteFail (Reg.flSiteFail + 1024))) (a13 : Allows K (.regs Reg.flFirst (Reg.flFirst + 2048))) (a14 : Allows K (.one (.clu ↑q))) (a15 : Allows K (.pair (cluOff (↑q) Reg.plnFlags))) (a16 : Allows K (.one (.reg (cluOff (↑q) Reg.ddsStatus)))) (a17 : Allows K (.one .freeCtr)) (a18 : Allows K (.chRegs Reg.tgScrStgLo (Reg.tgScrStgLo + 8))) : Evolves K x t := by
  simp only [execCall, Host.Outcome.next.injEq] at e
  subst e
  have h := Evolves.refl K x
  repeat' (first | with_reducible refine fun _ => ?_ | with_reducible (first | exact h | apply State.run1_changes))
  all_goals (with_reducible first | assumption | exact a1.vectorOfEvents | exact a1.logOfEvents | exact a1.evrPairOfEvents | exact a1.evrOfEvents | exact a1.vectorsOfEvents | exact a1.evrStatusOfEvents | exact a1.evrDropOfEvents | exact a1.evrCommitOfEvents | exact a1.evrLogOfEvents | exact a1.evrLogBseqOfEvents | exact a3.fst | exact a3.snd | exact a6.fst | exact a6.snd | exact a7.seqOf | exact a9.laneOf | exact a12.inRegs (by decide) | exact a12.pairInRegs (by decide) | exact a12.regsInRegs (by decide) | exact a13.inRegs (by decide) | exact a13.pairInRegs (by decide) | exact a13.regsInRegs (by decide) | exact a15.fst | exact a15.snd | exact a18.regsCh (by decide) | exact a18.ofChRegs (by decide))

theorem execSlotSelect_changes {K : List Foot} {x t : State} (e : execSlotSelect x = .next t) (a0 : Allows K (.one (.reg Reg.bootSlotSeq1))) (a1 : Allows K (.one (.reg Reg.bootSlotSeq0))) (a2 : Allows K .events) (a3 : Allows K (.one .boot)) (a4 : Allows K (.one (.reg Reg.hstStatus))) (a5 : Allows K (.one (.reg Reg.bootStatus))) : Evolves K x t := by
  simp only [execSlotSelect, Host.Outcome.next.injEq] at e
  subst e
  have h := Evolves.refl K x
  repeat' (first | with_reducible refine fun _ => ?_ | with_reducible (first | exact h | apply State.slotSelect_changes))
  all_goals (with_reducible first | assumption | exact a2.vectorOfEvents | exact a2.logOfEvents | exact a2.evrPairOfEvents | exact a2.evrOfEvents | exact a2.vectorsOfEvents | exact a2.evrStatusOfEvents | exact a2.evrDropOfEvents | exact a2.evrCommitOfEvents | exact a2.evrLogOfEvents | exact a2.evrLogBseqOfEvents)

theorem execComparatorCrossing_changes {K : List Foot} {x t : State} (ch) (low) (pos) (latches) (e : execComparatorCrossing ch low pos latches x = .next t) (a0 : Allows K (.pair (chOff (↑ch) Reg.peWmon))) (a1 : Allows K (.one (.clu (↑ch / 16)))) (a2 : Allows K (.one (.reg (chOff (↑ch) Reg.peStatus)))) (a3 : Allows K (.one (.chan ↑ch))) : Evolves K x t := by
  simp only [execComparatorCrossing, Host.Outcome.next.injEq] at e
  subst e
  have h := Evolves.refl K x
  repeat' (first | with_reducible refine fun _ => ?_ | with_reducible (first | exact h | apply State.crossing_changes))
  all_goals (with_reducible first | assumption | exact a0.fst | exact a0.snd)

theorem execPhaseSlewEnd_changes {K : List Foot} {x t : State} (e : execPhaseSlewEnd x = .next t) (a0 : Allows K (.one .cwy)) : Evolves K x t := by
  simp only [execPhaseSlewEnd, Host.Outcome.next.injEq] at e
  subst e
  have h := Evolves.refl K x
  repeat' (first | with_reducible refine fun _ => ?_ | with_reducible (first | exact h | apply State.slewEnd_changes))
  all_goals (with_reducible first | assumption)

theorem execResultWord_changes {K : List Foot} {x t : State} (ch) (x') (e : execResultWord ch x' x = .next t) (a0 : Allows K (.one .snd)) (a1 : Allows K (.one (.chan ↑ch))) (a2 : Allows K (.one (.reg (chOff (↑ch) Reg.pmuStatus)))) (a3 : Allows K (.one (.clu (↑ch / 16)))) (a4 : Allows K (.pair (chOff (↑ch) Reg.pmuWmon))) (a5 : Allows K (.one (.reg (chOff (↑ch) Reg.pmuDcb)))) (a6 : Allows K (.one (.reg (chOff (↑ch) Reg.pmuWords)))) (a7 : Allows K (.one (.reg (chOff (↑ch) Reg.pmuResult)))) : Evolves K x t := by
  simp only [execResultWord, Host.Outcome.next.injEq] at e
  subst e
  have h := Evolves.refl K x
  repeat' (first | with_reducible refine fun _ => ?_ | with_reducible (first | exact h | apply State.resultWord_changes))
  all_goals (with_reducible first | assumption | exact a4.fst | exact a4.snd)

theorem execEpochTakeEffect_changes {K : List Foot} {x t : State} (e : execEpochTakeEffect x = .next t) (a0 : Allows K .completion) (a1 : Allows K .events) (a2 : Allows K (.one .clk)) : Evolves K x t := by
  simp only [execEpochTakeEffect, Host.Outcome.next.injEq] at e
  subst e
  have h := Evolves.refl K x
  repeat' (first | with_reducible refine fun _ => ?_ | with_reducible (first | exact h | apply State.epochTakeEffect_changes))
  all_goals (with_reducible first | assumption | exact a0.vectorOfCompletion | exact a0.ringsOfCompletion | exact a0.hostMemOfCompletion | exact a0.vectorsOfCompletion | exact a0.cplTailOfCompletion | exact a0.cplDropOfCompletion | exact a1.vectorOfEvents | exact a1.logOfEvents | exact a1.evrPairOfEvents | exact a1.evrOfEvents | exact a1.vectorsOfEvents | exact a1.evrStatusOfEvents | exact a1.evrDropOfEvents | exact a1.evrCommitOfEvents | exact a1.evrLogOfEvents | exact a1.evrLogBseqOfEvents)

theorem execCwSummary_changes {K : List Foot} {x t : State} (p) (cell) (e : execCwSummary p cell x = .next t) (a0 : Allows K (.one .cwy)) (a1 : Allows K (.pair Reg.cwyFlags)) (a2 : Allows K (.one (.reg (sumEntry (Cell.fld cell 9 4))))) (a3 : Allows K (.regs (sumEntry (Cell.fld cell 9 4)) (sumEntry (Cell.fld cell 9 4) + 32))) (a4 : Allows K .events) : Evolves K x t := by
  simp only [execCwSummary, Host.Outcome.next.injEq] at e
  subst e
  have h := Evolves.refl K x
  repeat' (first | with_reducible refine fun _ => ?_ | with_reducible (first | exact h | assumption | apply State.cwReceive_changes | apply State.cwSummaryDo_changes))
  all_goals (with_reducible first | assumption | exact a1.fst | exact a1.snd | exact a3.inRegs (by decide) | exact a3.pairInRegs (by decide) | exact a3.regsInRegs (by decide) | exact a4.vectorOfEvents | exact a4.logOfEvents | exact a4.evrPairOfEvents | exact a4.evrOfEvents | exact a4.vectorsOfEvents | exact a4.evrStatusOfEvents | exact a4.evrDropOfEvents | exact a4.evrCommitOfEvents | exact a4.evrLogOfEvents | exact a4.evrLogBseqOfEvents)

theorem execPcieLinkReset_changes {K : List Foot} {x t : State} (e : execPcieLinkReset x = .next t) (a0 : Allows K .events) (a1 : Allows K (.pair Reg.hstFlags)) (a2 : Allows K .completion) (a3 : Allows K (.one (.reg Reg.hstStatus))) (a4 : Allows K (.one (.reg Reg.hstRingCtl))) (a5 : Allows K (.one .plan)) : Evolves K x t := by
  simp only [execPcieLinkReset, Host.Outcome.next.injEq] at e
  subst e
  have h := Evolves.refl K x
  repeat' (first | with_reducible refine fun _ => ?_ | with_reducible (first | exact h | apply State.linkReset_changes))
  all_goals (with_reducible first | assumption | exact a0.vectorOfEvents | exact a0.logOfEvents | exact a0.evrPairOfEvents | exact a0.evrOfEvents | exact a0.vectorsOfEvents | exact a0.evrStatusOfEvents | exact a0.evrDropOfEvents | exact a0.evrCommitOfEvents | exact a0.evrLogOfEvents | exact a0.evrLogBseqOfEvents | exact a1.fst | exact a1.snd | exact a2.vectorOfCompletion | exact a2.ringsOfCompletion | exact a2.hostMemOfCompletion | exact a2.vectorsOfCompletion | exact a2.cplTailOfCompletion | exact a2.cplDropOfCompletion)

theorem execWarmResetEnd_changes {K : List Foot} {x t : State} (e : execWarmResetEnd x = .next t) (a0 : Allows K (.one .boot)) (a1 : Allows K (.one .clk)) (a2 : Allows K (.one .flashPort)) (a3 : Allows K .drams) (a4 : Allows K .allRegs) (a5 : Allows K (.one .shadows)) (a6 : Allows K (.one .evr)) (a7 : Allows K (.one .rings)) (a8 : Allows K (.one .hostMem)) (a9 : Allows K (.one .msix)) (a10 : Allows K (.one .vectors)) (a11 : Allows K (.one .reads)) (a12 : Allows K (.one .macros)) (a13 : Allows K (.one .march)) (a14 : Allows K (.one .refills)) (a15 : Allows K (.one .timing)) (a16 : Allows K .failCnts) (a17 : Allows K (.one .cal)) (a18 : Allows K (.one .pwr)) (a19 : Allows K .seqs) (a20 : Allows K .lanes) (a21 : Allows K .clus) (a22 : Allows K .chans) (a23 : Allows K (.one .plan)) (a24 : Allows K (.one .snd)) (a25 : Allows K (.one .cwy)) : Evolves K x t := by
  simp only [execWarmResetEnd, Host.Outcome.next.injEq] at e
  subst e
  have h := Evolves.refl K x
  repeat' (first | with_reducible refine fun _ => ?_ | with_reducible (first | exact h | apply State.warmEnd_changes))
  all_goals (with_reducible first | assumption | exact a3.dramOf | exact a4.regOfAll | exact a4.pairOfAll | exact a4.chRegOfAll | exact a4.chPairOfAll | exact a4.cluRegOfAll | exact a4.cluPairOfAll | exact a4.regsOfAll | exact a19.seqOf | exact a20.laneOf | exact a21.cluOf | exact a22.chanOf)

theorem execLstart_changes {K : List Foot} {x t : State} (q) (ecc) (e : execLstart q ecc x = .next t) (a0 : Allows K (.one (.reg (seqOff (↑q) Reg.seqFault)))) (a1 : Allows K .events) (a2 : Allows K (.one (.reg Reg.memEccAddr))) (a3 : Allows K (.pair Reg.memFlags)) (a4 : Allows K (.one (.reg Reg.memEccCnt))) (a5 : Allows K (.one (.reg (seqOff (↑q) Reg.seqEccCnt)))) (a6 : Allows K (.pair (seqOff (↑q) Reg.seqFlags))) (a7 : Allows K .seqs) (a8 : Allows K (.one .plan)) (a9 : Allows K .lanes) (a10 : Allows K (.one (.reg Reg.plnState))) (a11 : Allows K (.one .cwy)) (a12 : Allows K (.regs Reg.flSiteFail (Reg.flSiteFail + 1024))) (a13 : Allows K (.regs Reg.flFirst (Reg.flFirst + 2048))) (a14 : Allows K (.one (.clu ↑q))) (a15 : Allows K (.pair (cluOff (↑q) Reg.plnFlags))) (a16 : Allows K (.one (.reg (cluOff (↑q) Reg.ddsStatus)))) (a17 : Allows K (.one .freeCtr)) (a18 : Allows K (.chRegs Reg.tgScrStgLo (Reg.tgScrStgLo + 8))) : Evolves K x t := by
  simp only [execLstart, Host.Outcome.next.injEq] at e
  subst e
  have h := Evolves.refl K x
  repeat' (first | with_reducible refine fun _ => ?_ | with_reducible (first | exact h | apply State.run1_changes))
  all_goals (with_reducible first | assumption | exact a1.vectorOfEvents | exact a1.logOfEvents | exact a1.evrPairOfEvents | exact a1.evrOfEvents | exact a1.vectorsOfEvents | exact a1.evrStatusOfEvents | exact a1.evrDropOfEvents | exact a1.evrCommitOfEvents | exact a1.evrLogOfEvents | exact a1.evrLogBseqOfEvents | exact a3.fst | exact a3.snd | exact a6.fst | exact a6.snd | exact a7.seqOf | exact a9.laneOf | exact a12.inRegs (by decide) | exact a12.pairInRegs (by decide) | exact a12.regsInRegs (by decide) | exact a13.inRegs (by decide) | exact a13.pairInRegs (by decide) | exact a13.regsInRegs (by decide) | exact a15.fst | exact a15.snd | exact a18.regsCh (by decide) | exact a18.ofChRegs (by decide))

theorem execTdrHalfEnd_changes {K : List Foot} {x t : State} (e : execTdrHalfEnd x = .next t) (a0 : Allows K (.one (.reg Reg.sndStatus))) (a1 : Allows K (.one .snd)) (a2 : Allows K .chans) (a3 : Allows K (.chReg Reg.tiaStatus)) (a4 : Allows K (.chReg Reg.tiaCount)) (a5 : Allows K (.chReg Reg.tiaSkip)) (a6 : Allows K (.chReg Reg.tiaDiscard)) (a7 : Allows K (.chReg Reg.tiaFcnt)) (a8 : Allows K (.chReg Reg.peStatus)) (a9 : Allows K .events) (a10 : Allows K (.chPair Reg.tiaMaxLo)) (a11 : Allows K (.chPair Reg.tiaMinLo)) (a12 : Allows K (.chPair Reg.tiaSdevLo)) (a13 : Allows K (.chPair Reg.tiaMeanLo)) (a14 : Allows K (.chPair Reg.tiaLastLo)) (a15 : Allows K .clus) (a16 : Allows K (.one .cal)) : Evolves K x t := by
  simp only [execTdrHalfEnd, Host.Outcome.next.injEq] at e
  subst e
  have h := Evolves.refl K x
  repeat' (first | with_reducible refine fun _ => ?_ | with_reducible (first | exact h | apply State.halfEnd_changes | apply State.tipHalfEnd_changes | apply Evolves.ite))
  all_goals (with_reducible first | assumption | exact a2.chanOf | exact a3.ofCh (by decide) | exact a4.ofCh (by decide) | exact a5.ofCh (by decide) | exact a6.ofCh (by decide) | exact a7.ofCh (by decide) | exact a8.ofCh (by decide) | exact a9.vectorOfEvents | exact a9.logOfEvents | exact a9.evrPairOfEvents | exact a9.evrOfEvents | exact a9.vectorsOfEvents | exact a9.evrStatusOfEvents | exact a9.evrDropOfEvents | exact a9.evrCommitOfEvents | exact a9.evrLogOfEvents | exact a9.evrLogBseqOfEvents | exact a10.pairCh (by decide) | exact a10.chFst | exact a10.chSnd | exact a10.chFst.ofCh (by decide) | exact a10.chSnd.ofCh (by decide) | exact a11.pairCh (by decide) | exact a11.chFst | exact a11.chSnd | exact a11.chFst.ofCh (by decide) | exact a11.chSnd.ofCh (by decide) | exact a12.pairCh (by decide) | exact a12.chFst | exact a12.chSnd | exact a12.chFst.ofCh (by decide) | exact a12.chSnd.ofCh (by decide) | exact a13.pairCh (by decide) | exact a13.chFst | exact a13.chSnd | exact a13.chFst.ofCh (by decide) | exact a13.chSnd.ofCh (by decide) | exact a14.pairCh (by decide) | exact a14.chFst | exact a14.chSnd | exact a14.chFst.ofCh (by decide) | exact a14.chSnd.ofCh (by decide) | exact a15.cluOf)

theorem execLinkCalibration_changes {K : List Foot} {x t : State} (p) (meas) (lat) (e : execLinkCalibration p meas lat x = .next t) (a0 : Allows K .events) (a1 : Allows K (.pair Reg.cwyFlags)) (a2 : Allows K (.one (.reg Reg.cwyRefuse))) (a3 : Allows K (.one (.reg Reg.cwyStatus))) (a4 : Allows K (.one .cwy)) (a5 : Allows K (.one (.reg (calReg p)))) : Evolves K x t := by
  simp only [execLinkCalibration, Host.Outcome.next.injEq] at e
  subst e
  have h := Evolves.refl K x
  repeat' (first | with_reducible refine fun _ => ?_ | with_reducible (first | exact h | apply State.linkCal_changes))
  all_goals (with_reducible first | assumption | exact a0.vectorOfEvents | exact a0.logOfEvents | exact a0.evrPairOfEvents | exact a0.evrOfEvents | exact a0.vectorsOfEvents | exact a0.evrStatusOfEvents | exact a0.evrDropOfEvents | exact a0.evrCommitOfEvents | exact a0.evrLogOfEvents | exact a0.evrLogBseqOfEvents | exact a1.fst | exact a1.snd)

theorem execTiaArmInstant_changes {K : List Foot} {x t : State} (ch) (cycle) (e : execTiaArmInstant ch cycle x = .next t) (a0 : Allows K (.one (.chan ↑ch))) (a1 : Allows K (.one (.reg (chOff (↑ch) Reg.tiaStatus)))) : Evolves K x t := by
  simp only [execTiaArmInstant, Host.Outcome.next.injEq] at e
  subst e
  have h := Evolves.refl K x
  repeat' (first | with_reducible refine fun _ => ?_ | with_reducible (first | exact h | apply State.tiaArmInstant_changes))
  all_goals (with_reducible first | assumption)

theorem execMsixUnmask_changes {K : List Foot} {x t : State} (vec) (e : execMsixUnmask vec x = .next t) (a0 : Allows K (.one .msix)) (a1 : Allows K (.one .vectors)) : Evolves K x t := by
  simp only [execMsixUnmask, Host.Outcome.next.injEq] at e
  subst e
  have h := Evolves.refl K x
  repeat' (first | with_reducible refine fun _ => ?_ | with_reducible (first | exact h | apply State.unmask_changes | apply Evolves.ite))
  all_goals (with_reducible first | assumption)

theorem execHstRingCtlWrite_changes {K : List Foot} {x t : State} (v) (e : execHstRingCtlWrite v x = .next t) (a0 : Allows K .hostError) (a1 : Allows K (.one (.reg Reg.hstCplTail))) (a2 : Allows K (.one (.reg Reg.hstCplHead))) (a3 : Allows K (.one (.reg Reg.hstCmdHead))) (a4 : Allows K (.one (.reg Reg.hstCmdTail))) (a5 : Allows K (.one (.reg Reg.hstStatus))) (a6 : Allows K (.one (.reg Reg.hstRingCtl))) : Evolves K x t := by
  simp only [execHstRingCtlWrite, Host.Outcome.next.injEq] at e
  subst e
  have h := Evolves.refl K x
  repeat' (first | with_reducible refine fun _ => ?_ | with_reducible (first | exact h | assumption | apply State.onWrite_changes | apply State.ringCtl_changes))
  all_goals (with_reducible first | assumption | exact a0.hstFlagsOfError | exact a0.readsOfError | exact a0.badAddrOfError)

theorem execPfwShedEnd_changes {K : List Foot} {x t : State} (e : execPfwShedEnd x = .next t) (a0 : Allows K (.one (.reg Reg.pwrStatus))) (a1 : Allows K (.one .pwr)) : Evolves K x t := by
  simp only [execPfwShedEnd, Host.Outcome.next.injEq] at e
  subst e
  have h := Evolves.refl K x
  repeat' (first | with_reducible refine fun _ => ?_ | with_reducible (first | exact h | apply State.pfwRelease_changes))
  all_goals (with_reducible first | assumption)

theorem execTiaArm_changes {K : List Foot} {x t : State} (ch) (e : execTiaArm ch x = .next t) (a0 : Allows K .hostError) (a1 : Allows K (.chReg Reg.tiaLine)) (a2 : Allows K .chans) (a3 : Allows K (.one (.reg Reg.memRetWakes))) (a4 : Allows K (.one (.reg Reg.memRetState))) (a5 : Allows K (.one (.reg (chOff (↑ch) Reg.tiaStatus)))) (a6 : Allows K (.one (.reg (chOff (↑ch) Reg.tiaCount)))) (a7 : Allows K (.one (.reg (chOff (↑ch) Reg.tiaSkip)))) (a8 : Allows K (.one (.reg (chOff (↑ch) Reg.tiaDiscard)))) (a9 : Allows K (.one (.reg (chOff (↑ch) Reg.tiaFcnt)))) (a10 : Allows K (.pair (chOff (↑ch) Reg.tiaFlags))) : Evolves K x t := by
  simp only [execTiaArm, Host.Outcome.next.injEq] at e
  subst e
  have h := Evolves.refl K x
  repeat' (first | with_reducible refine fun _ => ?_ | with_reducible (first | exact h | assumption | apply State.onWrite_changes | apply State.tiaArm_changes))
  all_goals (with_reducible first | assumption | exact a0.hstFlagsOfError | exact a0.readsOfError | exact a0.badAddrOfError | exact a1.ofCh (by decide) | exact a2.chanOf | exact a10.fst | exact a10.snd)

theorem execPmuSyncWrite_changes {K : List Foot} {x t : State} (c) (v) (e : execPmuSyncWrite c v x = .next t) (a0 : Allows K .hostError) (a1 : Allows K .chans) (a2 : Allows K (.chReg Reg.tiaLine)) (a3 : Allows K (.one (.reg Reg.memRetWakes))) (a4 : Allows K (.one (.reg Reg.memRetState))) : Evolves K x t := by
  simp only [execPmuSyncWrite, Host.Outcome.next.injEq] at e
  subst e
  have h := Evolves.refl K x
  repeat' (first | with_reducible refine fun _ => ?_ | with_reducible (first | exact h | assumption | apply State.onWrite_changes | apply State.pmuSync_changes))
  all_goals (with_reducible first | assumption | exact a0.hstFlagsOfError | exact a0.readsOfError | exact a0.badAddrOfError | exact a1.chanOf | exact a2.ofCh (by decide))

theorem execAcqForce_changes {K : List Foot} {x t : State} (c) (e : execAcqForce c x = .next t) (a0 : Allows K .hostError) (a1 : Allows K (.one (.clu ↑c))) : Evolves K x t := by
  simp only [execAcqForce, Host.Outcome.next.injEq] at e
  subst e
  have h := Evolves.refl K x
  repeat' (first | with_reducible refine fun _ => ?_ | with_reducible (first | exact h | assumption | apply State.onWrite_changes | apply State.acqForce_changes))
  all_goals (with_reducible first | assumption | exact a0.hstFlagsOfError | exact a0.readsOfError | exact a0.badAddrOfError)

theorem execPmuDcbWrite_changes {K : List Foot} {x t : State} (ch) (v) (e : execPmuDcbWrite ch v x = .next t) (a0 : Allows K .hostError) (a1 : Allows K (.one (.reg (chOff (↑ch) Reg.pmuDcb)))) : Evolves K x t := by
  simp only [execPmuDcbWrite, Host.Outcome.next.injEq] at e
  subst e
  have h := Evolves.refl K x
  repeat' (first | with_reducible refine fun _ => ?_ | with_reducible (first | exact h | assumption | apply State.onWrite_changes | apply State.plainWrite_changes))
  all_goals (with_reducible first | assumption | exact a0.hstFlagsOfError | exact a0.readsOfError | exact a0.badAddrOfError)

theorem execCwUser_changes {K : List Foot} {x t : State} (p) (cell) (e : execCwUser p cell x = .next t) (a0 : Allows K (.one .cwy)) (a1 : Allows K (.pair Reg.cwyFlags)) (a2 : Allows K .events) (a3 : Allows K (.one (.reg Reg.cwyUser))) : Evolves K x t := by
  simp only [execCwUser, Host.Outcome.next.injEq] at e
  subst e
  have h := Evolves.refl K x
  repeat' (first | with_reducible refine fun _ => ?_ | with_reducible (first | exact h | assumption | apply State.cwReceive_changes | apply State.cwUserDo_changes))
  all_goals (with_reducible first | assumption | exact a1.fst | exact a1.snd | exact a2.vectorOfEvents | exact a2.logOfEvents | exact a2.evrPairOfEvents | exact a2.evrOfEvents | exact a2.vectorsOfEvents | exact a2.evrStatusOfEvents | exact a2.evrDropOfEvents | exact a2.evrCommitOfEvents | exact a2.evrLogOfEvents | exact a2.evrLogBseqOfEvents)

theorem execHalt_changes {K : List Foot} {x t : State} (q) (ecc) (e : execHalt q ecc x = .next t) (a0 : Allows K (.one (.reg (seqOff (↑q) Reg.seqFault)))) (a1 : Allows K .events) (a2 : Allows K (.one (.reg Reg.memEccAddr))) (a3 : Allows K (.pair Reg.memFlags)) (a4 : Allows K (.one (.reg Reg.memEccCnt))) (a5 : Allows K (.one (.reg (seqOff (↑q) Reg.seqEccCnt)))) (a6 : Allows K (.pair (seqOff (↑q) Reg.seqFlags))) (a7 : Allows K .seqs) (a8 : Allows K (.one .plan)) (a9 : Allows K .lanes) (a10 : Allows K (.one (.reg Reg.plnState))) (a11 : Allows K (.one .cwy)) (a12 : Allows K (.regs Reg.flSiteFail (Reg.flSiteFail + 1024))) (a13 : Allows K (.regs Reg.flFirst (Reg.flFirst + 2048))) (a14 : Allows K (.one (.clu ↑q))) (a15 : Allows K (.pair (cluOff (↑q) Reg.plnFlags))) (a16 : Allows K (.one (.reg (cluOff (↑q) Reg.ddsStatus)))) (a17 : Allows K (.one .freeCtr)) (a18 : Allows K (.chRegs Reg.tgScrStgLo (Reg.tgScrStgLo + 8))) : Evolves K x t := by
  simp only [execHalt, Host.Outcome.next.injEq] at e
  subst e
  have h := Evolves.refl K x
  repeat' (first | with_reducible refine fun _ => ?_ | with_reducible (first | exact h | apply State.run1_changes))
  all_goals (with_reducible first | assumption | exact a1.vectorOfEvents | exact a1.logOfEvents | exact a1.evrPairOfEvents | exact a1.evrOfEvents | exact a1.vectorsOfEvents | exact a1.evrStatusOfEvents | exact a1.evrDropOfEvents | exact a1.evrCommitOfEvents | exact a1.evrLogOfEvents | exact a1.evrLogBseqOfEvents | exact a3.fst | exact a3.snd | exact a6.fst | exact a6.snd | exact a7.seqOf | exact a9.laneOf | exact a12.inRegs (by decide) | exact a12.pairInRegs (by decide) | exact a12.regsInRegs (by decide) | exact a13.inRegs (by decide) | exact a13.pairInRegs (by decide) | exact a13.regsInRegs (by decide) | exact a15.fst | exact a15.snd | exact a18.regsCh (by decide) | exact a18.ofChRegs (by decide))

theorem execCwJump_changes {K : List Foot} {x t : State} (p) (cell) (e : execCwJump p cell x = .next t) (a0 : Allows K (.one .cwy)) (a1 : Allows K (.pair Reg.cwyFlags)) (a2 : Allows K (.cluPair Reg.plnFlags)) (a3 : Allows K (.cluReg Reg.plnJump)) (a4 : Allows K .lanes) (a5 : Allows K (.cluReg Reg.plnJumpCnt)) : Evolves K x t := by
  simp only [execCwJump, Host.Outcome.next.injEq] at e
  subst e
  have h := Evolves.refl K x
  repeat' (first | with_reducible refine fun _ => ?_ | with_reducible (first | exact h | assumption | apply State.cwReceive_changes | apply State.cwJumpDo_changes))
  all_goals (with_reducible first | assumption | exact a1.fst | exact a1.snd | exact a2.pairClu (by decide) | exact a2.cluFst | exact a2.cluSnd | exact a2.cluFst.ofClu (by decide) | exact a2.cluSnd.ofClu (by decide) | exact a3.ofClu (by decide) | exact a4.laneOf | exact a5.ofClu (by decide))

theorem execDdsTokenIssue_changes {K : List Foot} {x t : State} (c) (e : execDdsTokenIssue c x = .next t) (a0 : Allows K (.one (.reg (cluOff (↑c) Reg.ddsStatus)))) (a1 : Allows K (.one (.clu ↑c))) (a2 : Allows K (.one (.reg (cluOff (↑c) Reg.ddsMarkCnt)))) (a3 : Allows K (.pair (cluOff (↑c) Reg.ddsPhaseLo))) (a4 : Allows K (.pair (cluOff (↑c) Reg.ddsFlags))) (a5 : Allows K (.pair (cluOff (↑c) Reg.ddsGranLo))) (a6 : Allows K (.one (.lane ↑c))) (a7 : Allows K (.chReg Reg.peWmon)) (a8 : Allows K (.chReg Reg.pmuWmon)) (a9 : Allows K (.chPair Reg.tgFlags)) (a10 : Allows K (.pair (cluOff (↑c) Reg.plnGapLenLo))) (a11 : Allows K (.one .plan)) (a12 : Allows K .events) (a13 : Allows K (.pair (cluOff (↑c) Reg.plnFlags))) (a14 : Allows K (.one (.reg (cluOff (↑c) Reg.plnGapCnt)))) (a15 : Allows K (.pair (cluOff (↑c) Reg.plnGapFirstLo))) (a16 : Allows K (.chReg Reg.tgScrActHi)) (a17 : Allows K (.chReg Reg.tgScrActLo)) (a18 : Allows K (.chPair Reg.tgCkmPeriodHi)) (a19 : Allows K (.chReg Reg.peStatus)) (a20 : Allows K .chans) : Evolves K x t := by
  simp only [execDdsTokenIssue, Host.Outcome.next.injEq] at e
  subst e
  have h := Evolves.refl K x
  repeat' (first | with_reducible refine fun _ => ?_ | with_reducible (first | exact h | apply State.tokenIssue_changes))
  all_goals (with_reducible first | assumption | exact a3.fst | exact a3.snd | exact a4.fst | exact a4.snd | exact a5.fst | exact a5.snd | exact a7.ofCh (by decide) | exact a8.ofCh (by decide) | exact a9.pairCh (by decide) | exact a9.chFst | exact a9.chSnd | exact a9.chFst.ofCh (by decide) | exact a9.chSnd.ofCh (by decide) | exact a10.fst | exact a10.snd | exact a12.vectorOfEvents | exact a12.logOfEvents | exact a12.evrPairOfEvents | exact a12.evrOfEvents | exact a12.vectorsOfEvents | exact a12.evrStatusOfEvents | exact a12.evrDropOfEvents | exact a12.evrCommitOfEvents | exact a12.evrLogOfEvents | exact a12.evrLogBseqOfEvents | exact a13.fst | exact a13.snd | exact a15.fst | exact a15.snd | exact a16.ofCh (by decide) | exact a17.ofCh (by decide) | exact a18.pairCh (by decide) | exact a18.chFst | exact a18.chSnd | exact a18.chFst.ofCh (by decide) | exact a18.chSnd.ofCh (by decide) | exact a19.ofCh (by decide) | exact a20.chanOf)

theorem execRollbackBurn_changes {K : List Foot} {x t : State} (e : execRollbackBurn x = .next t) (a0 : Allows K (.one (.reg Reg.bootFuse))) (a1 : Allows K (.one .rollback)) : Evolves K x t := by
  simp only [execRollbackBurn, Host.Outcome.next.injEq] at e
  subst e
  have h := Evolves.refl K x
  repeat' (first | with_reducible refine fun _ => ?_ | with_reducible (first | exact h | apply State.rollbackBurn_changes))
  all_goals (with_reducible first | assumption)

theorem execRearmEnd_changes {K : List Foot} {x t : State} (c) (e : execRearmEnd c x = .next t) (a0 : Allows K (.one (.clu ↑c))) (a1 : Allows K (.one (.reg (cluOff (↑c) Reg.acqStatus)))) (a2 : Allows K .events) : Evolves K x t := by
  simp only [execRearmEnd, Host.Outcome.next.injEq] at e
  subst e
  have h := Evolves.refl K x
  repeat' (first | with_reducible refine fun _ => ?_ | with_reducible (first | exact h | apply State.rearmEnd_changes))
  all_goals (with_reducible first | assumption | exact a2.vectorOfEvents | exact a2.logOfEvents | exact a2.evrPairOfEvents | exact a2.evrOfEvents | exact a2.vectorsOfEvents | exact a2.evrStatusOfEvents | exact a2.evrDropOfEvents | exact a2.evrCommitOfEvents | exact a2.evrLogOfEvents | exact a2.evrLogBseqOfEvents)

theorem execStreamBlockPost_changes {K : List Foot} {x t : State} (c) (data) (e : execStreamBlockPost c data x = .next t) (a0 : Allows K .completion) (a1 : Allows K (.one (.lane ↑c))) (a2 : Allows K (.one (.reg (cluOff (↑c) Reg.plnSluicePos)))) (a3 : Allows K (.one (.reg (cluOff (↑c) Reg.plnSluice)))) (a4 : Allows K .drams) : Evolves K x t := by
  simp only [execStreamBlockPost, Host.Outcome.next.injEq] at e
  subst e
  have h := Evolves.refl K x
  repeat' (first | with_reducible refine fun _ => ?_ | with_reducible (first | exact h | apply State.streamPost_changes))
  all_goals (with_reducible first | assumption | exact a0.vectorOfCompletion | exact a0.ringsOfCompletion | exact a0.hostMemOfCompletion | exact a0.vectorsOfCompletion | exact a0.cplTailOfCompletion | exact a0.cplDropOfCompletion | exact a4.dramOf)

theorem execTempCorrectionUpdate_changes {K : List Foot} {x t : State} (e : execTempCorrectionUpdate x = .next t) (a0 : Allows K (.pair Reg.calFlags)) (a1 : Allows K (.one .cal)) (a2 : Allows K (.one (.reg Reg.clkCorr))) (a3 : Allows K (.one (.reg Reg.clkCorrTemp))) (a4 : Allows K (.pair Reg.clkFlags)) (a5 : Allows K (.one (.reg Reg.clkXtalTemp))) : Evolves K x t := by
  simp only [execTempCorrectionUpdate, Host.Outcome.next.injEq] at e
  subst e
  have h := Evolves.refl K x
  repeat' (first | with_reducible refine fun _ => ?_ | with_reducible (first | exact h | apply State.tempUpdate_changes | apply Evolves.ite))
  all_goals (with_reducible first | assumption | exact a0.fst | exact a0.snd | exact a4.fst | exact a4.snd)

theorem execNext_changes {K : List Foot} {x t : State} (q) (ecc) (e : execNext q ecc x = .next t) (a0 : Allows K (.one (.reg (seqOff (↑q) Reg.seqFault)))) (a1 : Allows K .events) (a2 : Allows K (.one (.reg Reg.memEccAddr))) (a3 : Allows K (.pair Reg.memFlags)) (a4 : Allows K (.one (.reg Reg.memEccCnt))) (a5 : Allows K (.one (.reg (seqOff (↑q) Reg.seqEccCnt)))) (a6 : Allows K (.pair (seqOff (↑q) Reg.seqFlags))) (a7 : Allows K .seqs) (a8 : Allows K (.one .plan)) (a9 : Allows K .lanes) (a10 : Allows K (.one (.reg Reg.plnState))) (a11 : Allows K (.one .cwy)) (a12 : Allows K (.regs Reg.flSiteFail (Reg.flSiteFail + 1024))) (a13 : Allows K (.regs Reg.flFirst (Reg.flFirst + 2048))) (a14 : Allows K (.one (.clu ↑q))) (a15 : Allows K (.pair (cluOff (↑q) Reg.plnFlags))) (a16 : Allows K (.one (.reg (cluOff (↑q) Reg.ddsStatus)))) (a17 : Allows K (.one .freeCtr)) (a18 : Allows K (.chRegs Reg.tgScrStgLo (Reg.tgScrStgLo + 8))) : Evolves K x t := by
  simp only [execNext, Host.Outcome.next.injEq] at e
  subst e
  have h := Evolves.refl K x
  repeat' (first | with_reducible refine fun _ => ?_ | with_reducible (first | exact h | apply State.run1_changes))
  all_goals (with_reducible first | assumption | exact a1.vectorOfEvents | exact a1.logOfEvents | exact a1.evrPairOfEvents | exact a1.evrOfEvents | exact a1.vectorsOfEvents | exact a1.evrStatusOfEvents | exact a1.evrDropOfEvents | exact a1.evrCommitOfEvents | exact a1.evrLogOfEvents | exact a1.evrLogBseqOfEvents | exact a3.fst | exact a3.snd | exact a6.fst | exact a6.snd | exact a7.seqOf | exact a9.laneOf | exact a12.inRegs (by decide) | exact a12.pairInRegs (by decide) | exact a12.regsInRegs (by decide) | exact a13.inRegs (by decide) | exact a13.pairInRegs (by decide) | exact a13.regsInRegs (by decide) | exact a15.fst | exact a15.snd | exact a18.regsCh (by decide) | exact a18.ofChRegs (by decide))

theorem execTiaRangeEnd_changes {K : List Foot} {x t : State} (ch) (e : execTiaRangeEnd ch x = .next t) (a0 : Allows K (.one (.chan ↑ch))) (a1 : Allows K (.one (.reg (chOff (↑ch) Reg.tiaFcnt)))) (a2 : Allows K .events) (a3 : Allows K (.one (.reg (chOff (↑ch) Reg.tiaStatus)))) (a4 : Allows K (.pair (chOff (↑ch) Reg.tiaMaxLo))) (a5 : Allows K (.pair (chOff (↑ch) Reg.tiaMinLo))) (a6 : Allows K (.pair (chOff (↑ch) Reg.tiaSdevLo))) (a7 : Allows K (.pair (chOff (↑ch) Reg.tiaMeanLo))) (a8 : Allows K (.one (.reg (chOff (↑ch) Reg.tiaCount)))) (a9 : Allows K (.one (.reg (chOff (↑ch) Reg.tiaDiscard)))) (a10 : Allows K (.pair (chOff (↑ch) Reg.tiaLastLo))) (a11 : Allows K (.one (.reg (chOff (↑ch) Reg.tiaSkip)))) (a12 : Allows K (.one (.clu (↑ch / 16)))) : Evolves K x t := by
  simp only [execTiaRangeEnd, Host.Outcome.next.injEq] at e
  subst e
  have h := Evolves.refl K x
  repeat' (first | with_reducible refine fun _ => ?_ | with_reducible (first | exact h | apply State.tiaRange_changes))
  all_goals (with_reducible first | assumption | exact a2.vectorOfEvents | exact a2.logOfEvents | exact a2.evrPairOfEvents | exact a2.evrOfEvents | exact a2.vectorsOfEvents | exact a2.evrStatusOfEvents | exact a2.evrDropOfEvents | exact a2.evrCommitOfEvents | exact a2.evrLogOfEvents | exact a2.evrLogBseqOfEvents | exact a4.fst | exact a4.snd | exact a5.fst | exact a5.snd | exact a6.fst | exact a6.snd | exact a7.fst | exact a7.snd | exact a10.fst | exact a10.snd)

theorem execOptimeMs_changes {K : List Foot} {x t : State} (e : execOptimeMs x = .next t) (a0 : Allows K (.one .boot)) (a1 : Allows K (.pair Reg.clkFlags)) (a2 : Allows K (.one .clk)) : Evolves K x t := by
  simp only [execOptimeMs, Host.Outcome.next.injEq] at e
  subst e
  have h := Evolves.refl K x
  repeat' (first | with_reducible refine fun _ => ?_ | with_reducible (first | exact h | apply State.optimeMs_changes))
  all_goals (with_reducible first | assumption | exact a1.fst | exact a1.snd)

theorem execCalAbort_changes {K : List Foot} {x t : State} (us) (e : execCalAbort us x = .next t) (a0 : Allows K .hostError) (a1 : Allows K .completion) (a2 : Allows K .events) (a3 : Allows K (.one (.reg Reg.calScope))) (a4 : Allows K (.one (.reg Reg.calTime))) (a5 : Allows K (.one (.reg Reg.calStatus))) (a6 : Allows K (.one .cal)) (a7 : Allows K (.chReg Reg.pmuStatus)) (a8 : Allows K .chans) (a9 : Allows K (.chReg Reg.peStatus)) (a10 : Allows K (.chReg Reg.tiaStatus)) (a11 : Allows K (.chReg Reg.tiaDiscard)) (a12 : Allows K (.chPair Reg.tiaMaxLo)) (a13 : Allows K (.chPair Reg.tiaMinLo)) (a14 : Allows K (.chPair Reg.tiaSdevLo)) (a15 : Allows K (.chPair Reg.tiaMeanLo)) (a16 : Allows K (.chReg Reg.tiaCount)) (a17 : Allows K (.chPair Reg.tiaLastLo)) (a18 : Allows K (.chReg Reg.tiaSkip)) (a19 : Allows K .clus) (a20 : Allows K (.chReg Reg.tiaFcnt)) (a21 : Allows K (.chReg Reg.tiaCdCtl)) : Evolves K x t := by
  simp only [execCalAbort, Host.Outcome.next.injEq] at e
  subst e
  have h := Evolves.refl K x
  repeat' (first | with_reducible refine fun _ => ?_ | with_reducible (first | exact h | assumption | apply State.onWrite_changes | apply State.calAbort_changes))
  all_goals (with_reducible first | assumption | exact a0.hstFlagsOfError | exact a0.readsOfError | exact a0.badAddrOfError | exact a1.vectorOfCompletion | exact a1.ringsOfCompletion | exact a1.hostMemOfCompletion | exact a1.vectorsOfCompletion | exact a1.cplTailOfCompletion | exact a1.cplDropOfCompletion | exact a2.vectorOfEvents | exact a2.logOfEvents | exact a2.evrPairOfEvents | exact a2.evrOfEvents | exact a2.vectorsOfEvents | exact a2.evrStatusOfEvents | exact a2.evrDropOfEvents | exact a2.evrCommitOfEvents | exact a2.evrLogOfEvents | exact a2.evrLogBseqOfEvents | exact a7.ofCh (by decide) | exact a8.chanOf | exact a9.ofCh (by decide) | exact a10.ofCh (by decide) | exact a11.ofCh (by decide) | exact a12.pairCh (by decide) | exact a12.chFst | exact a12.chSnd | exact a12.chFst.ofCh (by decide) | exact a12.chSnd.ofCh (by decide) | exact a13.pairCh (by decide) | exact a13.chFst | exact a13.chSnd | exact a13.chFst.ofCh (by decide) | exact a13.chSnd.ofCh (by decide) | exact a14.pairCh (by decide) | exact a14.chFst | exact a14.chSnd | exact a14.chFst.ofCh (by decide) | exact a14.chSnd.ofCh (by decide) | exact a15.pairCh (by decide) | exact a15.chFst | exact a15.chSnd | exact a15.chFst.ofCh (by decide) | exact a15.chSnd.ofCh (by decide) | exact a16.ofCh (by decide) | exact a17.pairCh (by decide) | exact a17.chFst | exact a17.chSnd | exact a17.chFst.ofCh (by decide) | exact a17.chSnd.ofCh (by decide) | exact a18.ofCh (by decide) | exact a19.cluOf | exact a20.ofCh (by decide) | exact a21.ofCh (by decide))

theorem execLinkLoss_changes {K : List Foot} {x t : State} (p) (e : execLinkLoss p x = .next t) (a0 : Allows K .events) (a1 : Allows K (.pair Reg.cwyFlags)) (a2 : Allows K (.one .cwy)) (a3 : Allows K (.one (.reg Reg.cwyStatus))) : Evolves K x t := by
  simp only [execLinkLoss, Host.Outcome.next.injEq] at e
  subst e
  have h := Evolves.refl K x
  repeat' (first | with_reducible refine fun _ => ?_ | with_reducible (first | exact h | apply State.linkLoss_changes))
  all_goals (with_reducible first | assumption | exact a0.vectorOfEvents | exact a0.logOfEvents | exact a0.evrPairOfEvents | exact a0.evrOfEvents | exact a0.vectorsOfEvents | exact a0.evrStatusOfEvents | exact a0.evrDropOfEvents | exact a0.evrCommitOfEvents | exact a0.evrLogOfEvents | exact a0.evrLogBseqOfEvents | exact a1.fst | exact a1.snd)

theorem execAcqArm_changes {K : List Foot} {x t : State} (c) (e : execAcqArm c x = .next t) (a0 : Allows K .hostError) (a1 : Allows K (.chReg Reg.tiaLine)) (a2 : Allows K .chans) (a3 : Allows K (.one (.reg Reg.memRetWakes))) (a4 : Allows K (.one (.reg Reg.memRetState))) (a5 : Allows K (.one (.clu ↑c))) (a6 : Allows K (.one (.reg (cluOff (↑c) Reg.acqStatus)))) (a7 : Allows K (.pair (cluOff (↑c) Reg.acqFlags))) (a8 : Allows K (.one (.reg (cluOff (↑c) Reg.acqFrameCnt)))) (a9 : Allows K (.one (.reg (cluOff (↑c) Reg.acqMissed)))) (a10 : Allows K (.one (.reg (cluOff (↑c) Reg.acqGapCnt)))) (a11 : Allows K (.one (.reg (cluOff (↑c) Reg.acqGapLen)))) (a12 : Allows K (.one (.reg (cluOff (↑c) Reg.acqDrop)))) : Evolves K x t := by
  simp only [execAcqArm, Host.Outcome.next.injEq] at e
  subst e
  have h := Evolves.refl K x
  repeat' (first | with_reducible refine fun _ => ?_ | with_reducible (first | exact h | assumption | apply State.onWrite_changes | apply State.acqArm_changes))
  all_goals (with_reducible first | assumption | exact a0.hstFlagsOfError | exact a0.readsOfError | exact a0.badAddrOfError | exact a1.ofCh (by decide) | exact a2.chanOf | exact a7.fst | exact a7.snd)

theorem execAcqSpillRdWrite_changes {K : List Foot} {x t : State} (c) (v) (e : execAcqSpillRdWrite c v x = .next t) (a0 : Allows K .hostError) (a1 : Allows K (.one (.reg (cluOff (↑c) Reg.acqSpillRd)))) (a2 : Allows K (.pair (cluOff (↑c) Reg.acqFlags))) : Evolves K x t := by
  simp only [execAcqSpillRdWrite, Host.Outcome.next.injEq] at e
  subst e
  have h := Evolves.refl K x
  repeat' (first | with_reducible refine fun _ => ?_ | with_reducible (first | exact h | assumption | apply State.onWrite_changes | apply State.spillRdWrite_changes))
  all_goals (with_reducible first | assumption | exact a0.hstFlagsOfError | exact a0.readsOfError | exact a0.badAddrOfError | exact a2.fst | exact a2.snd)

theorem execCalBankSelect_changes {K : List Foot} {x t : State} (e : execCalBankSelect x = .next t) (a0 : Allows K (.one (.reg Reg.bootStatus))) (a1 : Allows K (.chReg Reg.tiaLine)) (a2 : Allows K .chans) (a3 : Allows K (.one .snd)) (a4 : Allows K (.pair Reg.calFlags)) (a5 : Allows K (.one .cal)) (a6 : Allows K .events) (a7 : Allows K (.regs Reg.calChFail (Reg.calChFail + 2048))) (a8 : Allows K (.one (.reg Reg.calLastPcycle))) (a9 : Allows K (.pair Reg.calLastOptLo)) (a10 : Allows K (.one (.reg Reg.calCount))) (a11 : Allows K (.one (.reg Reg.calStatus))) (a12 : Allows K (.one (.reg Reg.calSeqB))) (a13 : Allows K (.one (.reg Reg.calSeqA))) : Evolves K x t := by
  simp only [execCalBankSelect, Host.Outcome.next.injEq] at e
  subst e
  have h := Evolves.refl K x
  repeat' (first | with_reducible refine fun _ => ?_ | with_reducible (first | exact h | apply State.calSelect_changes))
  all_goals (with_reducible first | assumption | exact a1.ofCh (by decide) | exact a2.chanOf | exact a4.fst | exact a4.snd | exact a6.vectorOfEvents | exact a6.logOfEvents | exact a6.evrPairOfEvents | exact a6.evrOfEvents | exact a6.vectorsOfEvents | exact a6.evrStatusOfEvents | exact a6.evrDropOfEvents | exact a6.evrCommitOfEvents | exact a6.evrLogOfEvents | exact a6.evrLogBseqOfEvents | exact a7.inRegs (by decide) | exact a7.pairInRegs (by decide) | exact a7.regsInRegs (by decide) | exact a9.fst | exact a9.snd)

theorem execAlignedStart_changes {K : List Foot} {x t : State} (cycle) (e : execAlignedStart cycle x = .next t) (a0 : Allows K (.one .plan)) (a1 : Allows K .lanes) (a2 : Allows K .seqs) (a3 : Allows K .clus) (a4 : Allows K (.cluReg Reg.ddsStatus)) (a5 : Allows K .chans) (a6 : Allows K (.chReg Reg.tgQueue)) (a7 : Allows K (.chReg Reg.flChFail)) (a8 : Allows K (.chReg Reg.tgScrActLo)) (a9 : Allows K (.chReg Reg.tgScrActHi)) (a10 : Allows K (.chReg Reg.tgScrStgLo)) (a11 : Allows K (.chReg Reg.tgScrStgHi)) (a12 : Allows K (.cluReg Reg.plnGapCnt)) (a13 : Allows K (.cluReg Reg.plnGapFirstLo)) (a14 : Allows K (.cluReg Reg.plnGapFirstHi)) (a15 : Allows K (.cluReg Reg.plnGapLenLo)) (a16 : Allows K (.cluReg Reg.plnGapLenHi)) (a17 : Allows K (.cluReg Reg.flRecWr)) (a18 : Allows K (.cluReg Reg.flRecLost)) (a19 : Allows K (.cluReg Reg.flQueue)) (a20 : Allows K (.cluReg Reg.ddsMarkCnt)) (a21 : Allows K (.cluReg Reg.ddsGranLo)) (a22 : Allows K (.cluReg Reg.ddsGranHi)) (a23 : Allows K (.one (.reg Reg.plnState))) : Evolves K x t := by
  simp only [execAlignedStart, Host.Outcome.next.injEq] at e
  subst e
  have h := Evolves.refl K x
  repeat' (first | with_reducible refine fun _ => ?_ | with_reducible (first | exact h | apply State.alignedStart_changes))
  all_goals (with_reducible first | assumption | exact a1.laneOf | exact a2.seqOf | exact a3.cluOf | exact a4.ofClu (by decide) | exact a5.chanOf | exact a6.ofCh (by decide) | exact a7.ofCh (by decide) | exact a8.ofCh (by decide) | exact a9.ofCh (by decide) | exact a10.ofCh (by decide) | exact a11.ofCh (by decide) | exact a12.ofClu (by decide) | exact a13.ofClu (by decide) | exact a14.ofClu (by decide) | exact a15.ofClu (by decide) | exact a16.ofClu (by decide) | exact a17.ofClu (by decide) | exact a18.ofClu (by decide) | exact a19.ofClu (by decide) | exact a20.ofClu (by decide) | exact a21.ofClu (by decide) | exact a22.ofClu (by decide))

theorem execSuppliesInRange_changes {K : List Foot} {x t : State} (e : execSuppliesInRange x = .next t) (a0 : Allows K (.one (.reg Reg.pwrStatus))) (a1 : Allows K (.one (.reg Reg.bootStatus))) : Evolves K x t := by
  simp only [execSuppliesInRange, Host.Outcome.next.injEq] at e
  subst e
  have h := Evolves.refl K x
  repeat' (first | with_reducible refine fun _ => ?_ | with_reducible (first | exact h | apply State.suppliesOk_changes))
  all_goals (with_reducible first | assumption)

theorem execCplStall_changes {K : List Foot} {x t : State} (e : execCplStall x = .next t) (a0 : Allows K .events) (a1 : Allows K (.pair Reg.hstFlags)) : Evolves K x t := by
  simp only [execCplStall, Host.Outcome.next.injEq] at e
  subst e
  have h := Evolves.refl K x
  repeat' (first | with_reducible refine fun _ => ?_ | with_reducible (first | exact h | apply State.cplStall_changes))
  all_goals (with_reducible first | assumption | exact a0.vectorOfEvents | exact a0.logOfEvents | exact a0.evrPairOfEvents | exact a0.evrOfEvents | exact a0.vectorsOfEvents | exact a0.evrStatusOfEvents | exact a0.evrDropOfEvents | exact a0.evrCommitOfEvents | exact a0.evrLogOfEvents | exact a0.evrLogBseqOfEvents | exact a1.fst | exact a1.snd)

theorem execAlignedStartTimeout_changes {K : List Foot} {x t : State} (e : execAlignedStartTimeout x = .next t) (a0 : Allows K .seqs) (a1 : Allows K (.one .plan)) (a2 : Allows K .lanes) (a3 : Allows K (.one (.reg Reg.plnState))) (a4 : Allows K (.pair Reg.cwyFlags)) : Evolves K x t := by
  simp only [execAlignedStartTimeout, Host.Outcome.next.injEq] at e
  subst e
  have h := Evolves.refl K x
  repeat' (first | with_reducible refine fun _ => ?_ | with_reducible (first | exact h | apply State.alignedTimeout_changes))
  all_goals (with_reducible first | assumption | exact a0.seqOf | exact a2.laneOf | exact a4.fst | exact a4.snd)

theorem execMasterStart_changes {K : List Foot} {x t : State} (us) (e : execMasterStart us x = .next t) (a0 : Allows K .completion) (a1 : Allows K (.one .plan)) (a2 : Allows K (.one (.seq 32))) (a3 : Allows K (.one (.reg Reg.plnState))) (a4 : Allows K (.one (.reg Reg.plnLoadUs))) : Evolves K x t := by
  simp only [execMasterStart, Host.Outcome.next.injEq] at e
  subst e
  have h := Evolves.refl K x
  repeat' (first | with_reducible refine fun _ => ?_ | with_reducible (first | exact h | apply State.masterStart_changes))
  all_goals (with_reducible first | assumption | exact a0.vectorOfCompletion | exact a0.ringsOfCompletion | exact a0.hostMemOfCompletion | exact a0.vectorsOfCompletion | exact a0.cplTailOfCompletion | exact a0.cplDropOfCompletion)

theorem execFlSiteMaskWrite_changes {K : List Foot} {x t : State} (half) (v) (e : execFlSiteMaskWrite half v x = .next t) (a0 : Allows K .hostError) (a1 : Allows K (.one (.reg (match half with | Half.lo => Reg.flSiteMaskLo | Half.hi => Reg.flSiteMaskHi)))) : Evolves K x t := by
  simp only [execFlSiteMaskWrite, Host.Outcome.next.injEq] at e
  subst e
  have h := Evolves.refl K x
  repeat' (first | with_reducible refine fun _ => ?_ | lift_lets | (with_reducible intro y; first | (refine Evolves.cut (K := K) (s := s) (y := y) ?_ ?_ <;> first | (clear_value y; with_reducible intro hy) | simp -zeta -zetaHave only [y]) | (simp -zeta -zetaHave only [y]; clear y) | (clear_value y; clear y)) | with_reducible (first | exact h | assumption | apply State.onWrite_changes | apply State.siteMaskWrite_changes) | (split))
  all_goals (with_reducible first | assumption | exact a0.hstFlagsOfError | exact a0.readsOfError | exact a0.badAddrOfError)

theorem execLogProgramDone_changes {K : List Foot} {x t : State} (ok) (e : execLogProgramDone ok x = .next t) (a0 : Allows K .events) (a1 : Allows K (.one .freeCtr)) : Evolves K x t := by
  simp only [execLogProgramDone, Host.Outcome.next.injEq] at e
  subst e
  have h := Evolves.refl K x
  repeat' (first | with_reducible refine fun _ => ?_ | with_reducible (first | exact h | apply State.logProgramDone_changes))
  all_goals (with_reducible first | assumption | exact a0.vectorOfEvents | exact a0.logOfEvents | exact a0.evrPairOfEvents | exact a0.evrOfEvents | exact a0.vectorsOfEvents | exact a0.evrStatusOfEvents | exact a0.evrDropOfEvents | exact a0.evrCommitOfEvents | exact a0.evrLogOfEvents | exact a0.evrLogBseqOfEvents)

theorem execAgeingUpdate_changes {K : List Foot} {x t : State} (e : execAgeingUpdate x = .next t) (a0 : Allows K (.one (.reg Reg.clkCorr))) (a1 : Allows K (.one (.reg Reg.clkCorrAge))) : Evolves K x t := by
  simp only [execAgeingUpdate, Host.Outcome.next.injEq] at e
  subst e
  have h := Evolves.refl K x
  repeat' (first | with_reducible refine fun _ => ?_ | with_reducible (first | exact h | apply State.ageing_changes | apply Evolves.ite))
  all_goals (with_reducible first | assumption)

theorem execHoldoverReturn_changes {K : List Foot} {x t : State} (e : execHoldoverReturn x = .next t) (a0 : Allows K (.one (.reg Reg.clkStatus))) : Evolves K x t := by
  simp only [execHoldoverReturn, Host.Outcome.next.injEq] at e
  subst e
  have h := Evolves.refl K x
  repeat' (first | with_reducible refine fun _ => ?_ | with_reducible (first | exact h | apply State.holdoverReturn_changes))
  all_goals (with_reducible first | assumption)

theorem execCodeDensityEnd_changes {K : List Foot} {x t : State} (ch) (line) (hits) (e : execCodeDensityEnd ch line hits x = .next t) (a0 : Allows K (.one (.reg (chOff (↑ch) Reg.tiaCdCtl)))) (a1 : Allows K (.pair (chOff (↑ch) Reg.tiaFlags))) (a2 : Allows K (.one (.reg (chOff (↑ch) Reg.tiaLine)))) (a3 : Allows K .chans) (a4 : Allows K (.chReg Reg.pmuStatus)) (a5 : Allows K (.chReg Reg.peStatus)) (a6 : Allows K (.one (.reg Reg.sndStatus))) : Evolves K x t := by
  simp only [execCodeDensityEnd, Host.Outcome.next.injEq] at e
  subst e
  have h := Evolves.refl K x
  repeat' (first | with_reducible refine fun _ => ?_ | with_reducible (first | exact h | apply State.densityNext_changes))
  all_goals (with_reducible first | assumption | exact a1.fst | exact a1.snd | exact a3.chanOf | exact a4.ofCh (by decide) | exact a5.ofCh (by decide))

theorem execMonitorConversionEnd_changes {K : List Foot} {x t : State} (c) (code) (recent) (e : execMonitorConversionEnd c code recent x = .next t) (a0 : Allows K (.one (.reg (cluOff (↑c) Reg.peMonCtl)))) (a1 : Allows K (.one (.clu ↑c))) (a2 : Allows K (.one (.reg (cluOff (↑c) Reg.peMonMismatch)))) (a3 : Allows K (.pair (cluOff (↑c) Reg.peClFlags))) (a4 : Allows K (.one (.reg (cluOff (↑c) Reg.peMonResult)))) : Evolves K x t := by
  simp only [execMonitorConversionEnd, Host.Outcome.next.injEq] at e
  subst e
  have h := Evolves.refl K x
  repeat' (first | with_reducible refine fun _ => ?_ | with_reducible (first | exact h | apply State.monEnd_changes))
  all_goals (with_reducible first | assumption | exact a3.fst | exact a3.snd)

theorem execPatchApply_changes {K : List Foot} {x t : State} (e : execPatchApply x = .next t) (a0 : Allows K (.one (.reg Reg.bootStatus))) (a1 : Allows K (.one (.reg Reg.cwyStatus))) (a2 : Allows K (.one .boot)) (a3 : Allows K (.one (.reg Reg.idPeat))) (a4 : Allows K (.one (.reg (655360 + Reg.seqPatch)))) (a5 : Allows K (.cluReg Reg.seqPatch)) (a6 : Allows K .seqs) (a7 : Allows K .events) (a8 : Allows K (.one (.reg Reg.hstStatus))) : Evolves K x t := by
  simp only [execPatchApply, Host.Outcome.next.injEq] at e
  subst e
  have h := Evolves.refl K x
  repeat' (first | with_reducible refine fun _ => ?_ | with_reducible (first | exact h | apply State.patchApply_changes))
  all_goals (with_reducible first | assumption | exact a5.ofClu (by decide) | exact a6.seqOf | exact a7.vectorOfEvents | exact a7.logOfEvents | exact a7.evrPairOfEvents | exact a7.evrOfEvents | exact a7.vectorsOfEvents | exact a7.evrStatusOfEvents | exact a7.evrDropOfEvents | exact a7.evrCommitOfEvents | exact a7.evrLogOfEvents | exact a7.evrLogBseqOfEvents)

theorem execConfigApply_changes {K : List Foot} {x t : State} (e : execConfigApply x = .next t) (a0 : Allows K .allRegs) (a1 : Allows K (.one .clk)) (a2 : Allows K (.one .boot)) (a3 : Allows K .events) : Evolves K x t := by
  simp only [execConfigApply, Host.Outcome.next.injEq] at e
  subst e
  have h := Evolves.refl K x
  repeat' (first | with_reducible refine fun _ => ?_ | with_reducible (first | exact h | apply State.configApply_changes))
  all_goals (with_reducible first | assumption | exact a0.regOfAll | exact a0.pairOfAll | exact a0.chRegOfAll | exact a0.chPairOfAll | exact a0.cluRegOfAll | exact a0.cluPairOfAll | exact a0.regsOfAll | exact a3.vectorOfEvents | exact a3.logOfEvents | exact a3.evrPairOfEvents | exact a3.evrOfEvents | exact a3.vectorsOfEvents | exact a3.evrStatusOfEvents | exact a3.evrDropOfEvents | exact a3.evrCommitOfEvents | exact a3.evrLogOfEvents | exact a3.evrLogBseqOfEvents)

theorem execPlnSluiceConfigWrite_changes {K : List Foot} {x t : State} (c) (size) (v) (e : execPlnSluiceConfigWrite c size v x = .next t) (a0 : Allows K .hostError) (a1 : Allows K (.pair (cluOff (↑c) Reg.plnFlags))) (a2 : Allows K (.one (.lane ↑c))) (a3 : Allows K (.one (.reg (cluOff (↑c) Reg.plnSluicePos)))) (a4 : Allows K (.one (.reg (cluOff (↑c) Reg.plnSluice)))) (a5 : Allows K (.one (.reg (cluOff (↑c) Reg.plnSluiceSize)))) (a6 : Allows K (.one (.reg (cluOff (↑c) Reg.plnSluiceBase)))) : Evolves K x t := by
  simp only [execPlnSluiceConfigWrite, Host.Outcome.next.injEq] at e
  subst e
  have h := Evolves.refl K x
  repeat' (first | with_reducible refine fun _ => ?_ | with_reducible (first | exact h | assumption | apply State.onWrite_changes | apply State.sluiceConfig_changes | apply Evolves.ite))
  all_goals (with_reducible first | assumption | exact a0.hstFlagsOfError | exact a0.readsOfError | exact a0.badAddrOfError | exact a1.fst | exact a1.snd)

theorem execFrequencyGateEnd_changes {K : List Foot} {x t : State} (ch) (e : execFrequencyGateEnd ch x = .next t) (a0 : Allows K (.one (.chan ↑ch))) (a1 : Allows K (.one (.reg (chOff (↑ch) Reg.tiaFcnt)))) (a2 : Allows K .events) (a3 : Allows K (.one (.reg (chOff (↑ch) Reg.tiaStatus)))) (a4 : Allows K (.pair (chOff (↑ch) Reg.tiaMaxLo))) (a5 : Allows K (.pair (chOff (↑ch) Reg.tiaMinLo))) (a6 : Allows K (.pair (chOff (↑ch) Reg.tiaSdevLo))) (a7 : Allows K (.pair (chOff (↑ch) Reg.tiaMeanLo))) (a8 : Allows K (.one (.reg (chOff (↑ch) Reg.tiaCount)))) (a9 : Allows K (.one (.reg (chOff (↑ch) Reg.tiaDiscard)))) (a10 : Allows K (.pair (chOff (↑ch) Reg.tiaLastLo))) : Evolves K x t := by
  simp only [execFrequencyGateEnd, Host.Outcome.next.injEq] at e
  subst e
  have h := Evolves.refl K x
  repeat' (first | with_reducible refine fun _ => ?_ | with_reducible (first | exact h | apply State.gateEnd_changes))
  all_goals (with_reducible first | assumption | exact a2.vectorOfEvents | exact a2.logOfEvents | exact a2.evrPairOfEvents | exact a2.evrOfEvents | exact a2.vectorsOfEvents | exact a2.evrStatusOfEvents | exact a2.evrDropOfEvents | exact a2.evrCommitOfEvents | exact a2.evrLogOfEvents | exact a2.evrLogBseqOfEvents | exact a4.fst | exact a4.snd | exact a5.fst | exact a5.snd | exact a6.fst | exact a6.snd | exact a7.fst | exact a7.snd | exact a10.fst | exact a10.snd)

theorem execTransitionTimestamp_changes {K : List Foot} {x t : State} (ch) (low) (rising) (vec) (edge) (bin) (e : execTransitionTimestamp ch low rising vec edge bin x = .next t) (a0 : Allows K .chans) (a1 : Allows K (.chReg Reg.tiaStatus)) (a2 : Allows K (.one (.reg (chOff (↑ch) Reg.tiaLost)))) (a3 : Allows K (.one (.clu (↑ch / 16)))) : Evolves K x t := by
  simp only [execTransitionTimestamp, Host.Outcome.next.injEq] at e
  subst e
  have h := Evolves.refl K x
  repeat' (first | with_reducible refine fun _ => ?_ | with_reducible (first | exact h | apply State.transition_changes))
  all_goals (with_reducible first | assumption | exact a0.chanOf | exact a1.ofCh (by decide))

theorem execOptimeCheckpoint_changes {K : List Foot} {x t : State} (e : execOptimeCheckpoint x = .next t) (a0 : Allows K (.one .flashPort)) (a1 : Allows K .flashes) : Evolves K x t := by
  simp only [execOptimeCheckpoint, Host.Outcome.next.injEq] at e
  subst e
  have h := Evolves.refl K x
  repeat' (first | with_reducible refine fun _ => ?_ | with_reducible (first | exact h | apply State.checkpoint_changes))
  all_goals (with_reducible first | assumption | exact a1.logOfFlashes)

theorem execClkEppOffsetWrite_changes {K : List Foot} {x t : State} (v) (e : execClkEppOffsetWrite v x = .next t) (a0 : Allows K .hostError) (a1 : Allows K (.one (.reg Reg.clkEppOffset))) : Evolves K x t := by
  simp only [execClkEppOffsetWrite, Host.Outcome.next.injEq] at e
  subst e
  have h := Evolves.refl K x
  repeat' (first | with_reducible refine fun _ => ?_ | with_reducible (first | exact h | assumption | apply State.onWrite_changes | apply State.eppOffsetWrite_changes))
  all_goals (with_reducible first | assumption | exact a0.hstFlagsOfError | exact a0.readsOfError | exact a0.badAddrOfError)

theorem execCreditReturn_changes {K : List Foot} {x t : State} (p) (n) (e : execCreditReturn p n x = .next t) (a0 : Allows K (.one .cwy)) : Evolves K x t := by
  simp only [execCreditReturn, Host.Outcome.next.injEq] at e
  subst e
  have h := Evolves.refl K x
  repeat' (first | with_reducible refine fun _ => ?_ | with_reducible (first | exact h | apply State.portCredit_changes))
  all_goals (with_reducible first | assumption)

theorem execNop_changes {K : List Foot} {x t : State} (e : execNop x = .next t) (a0 : Allows K .completion) : Evolves K x t := by
  simp only [execNop, Host.Outcome.next.injEq] at e
  subst e
  have h := Evolves.refl K x
  repeat' (first | with_reducible refine fun _ => ?_ | with_reducible (first | exact h | apply State.cmdNop_changes))
  all_goals (with_reducible first | assumption | exact a0.vectorOfCompletion | exact a0.ringsOfCompletion | exact a0.hostMemOfCompletion | exact a0.vectorsOfCompletion | exact a0.cplTailOfCompletion | exact a0.cplDropOfCompletion)

theorem execSoundingPassStart_changes {K : List Foot} {x t : State} (e : execSoundingPassStart x = .next t) (a0 : Allows K .chans) (a1 : Allows K (.chReg Reg.pmuStatus)) (a2 : Allows K (.chReg Reg.peStatus)) (a3 : Allows K (.chReg Reg.tiaStatus)) (a4 : Allows K (.chReg Reg.tiaDiscard)) (a5 : Allows K .events) (a6 : Allows K (.chPair Reg.tiaMaxLo)) (a7 : Allows K (.chPair Reg.tiaMinLo)) (a8 : Allows K (.chPair Reg.tiaSdevLo)) (a9 : Allows K (.chPair Reg.tiaMeanLo)) (a10 : Allows K (.chReg Reg.tiaCount)) (a11 : Allows K (.chPair Reg.tiaLastLo)) (a12 : Allows K (.chReg Reg.tiaSkip)) (a13 : Allows K .clus) (a14 : Allows K (.chReg Reg.tiaFcnt)) (a15 : Allows K (.chReg Reg.tiaLine)) (a16 : Allows K (.one (.reg Reg.memRetWakes))) (a17 : Allows K (.one (.reg Reg.memRetState))) (a18 : Allows K (.one (.reg Reg.sndStatus))) (a19 : Allows K (.one .snd)) (a20 : Allows K (.chReg Reg.tiaCdCtl)) : Evolves K x t := by
  simp only [execSoundingPassStart, Host.Outcome.next.injEq] at e
  subst e
  have h := Evolves.refl K x
  repeat' (first | with_reducible refine fun _ => ?_ | with_reducible (first | exact h | apply State.passStart_changes))
  all_goals (with_reducible first | assumption | exact a0.chanOf | exact a1.ofCh (by decide) | exact a2.ofCh (by decide) | exact a3.ofCh (by decide) | exact a4.ofCh (by decide) | exact a5.vectorOfEvents | exact a5.logOfEvents | exact a5.evrPairOfEvents | exact a5.evrOfEvents | exact a5.vectorsOfEvents | exact a5.evrStatusOfEvents | exact a5.evrDropOfEvents | exact a5.evrCommitOfEvents | exact a5.evrLogOfEvents | exact a5.evrLogBseqOfEvents | exact a6.pairCh (by decide) | exact a6.chFst | exact a6.chSnd | exact a6.chFst.ofCh (by decide) | exact a6.chSnd.ofCh (by decide) | exact a7.pairCh (by decide) | exact a7.chFst | exact a7.chSnd | exact a7.chFst.ofCh (by decide) | exact a7.chSnd.ofCh (by decide) | exact a8.pairCh (by decide) | exact a8.chFst | exact a8.chSnd | exact a8.chFst.ofCh (by decide) | exact a8.chSnd.ofCh (by decide) | exact a9.pairCh (by decide) | exact a9.chFst | exact a9.chSnd | exact a9.chFst.ofCh (by decide) | exact a9.chSnd.ofCh (by decide) | exact a10.ofCh (by decide) | exact a11.pairCh (by decide) | exact a11.chFst | exact a11.chSnd | exact a11.chFst.ofCh (by decide) | exact a11.chSnd.ofCh (by decide) | exact a12.ofCh (by decide) | exact a13.cluOf | exact a14.ofCh (by decide) | exact a15.ofCh (by decide) | exact a20.ofCh (by decide))

theorem execLogRead_changes {K : List Foot} {x t : State} (e : execLogRead x = .next t) (a0 : Allows K .completion) : Evolves K x t := by
  simp only [execLogRead, Host.Outcome.next.injEq] at e
  subst e
  have h := Evolves.refl K x
  repeat' (first | with_reducible refine fun _ => ?_ | with_reducible (first | exact h | apply State.cmdLogRead_changes))
  all_goals (with_reducible first | assumption | exact a0.vectorOfCompletion | exact a0.ringsOfCompletion | exact a0.hostMemOfCompletion | exact a0.vectorsOfCompletion | exact a0.cplTailOfCompletion | exact a0.cplDropOfCompletion)

theorem execCalStepEnd_changes {K : List Foot} {x t : State} (values) (e : execCalStepEnd values x = .next t) (a0 : Allows K (.one .cal)) (a1 : Allows K (.chReg Reg.tiaCdCtl)) (a2 : Allows K .chans) (a3 : Allows K (.chReg Reg.tiaDiscard)) (a4 : Allows K .events) (a5 : Allows K (.chReg Reg.tiaStatus)) (a6 : Allows K (.chPair Reg.tiaMaxLo)) (a7 : Allows K (.chPair Reg.tiaMinLo)) (a8 : Allows K (.chPair Reg.tiaSdevLo)) (a9 : Allows K (.chPair Reg.tiaMeanLo)) (a10 : Allows K (.chReg Reg.tiaCount)) (a11 : Allows K (.chPair Reg.tiaLastLo)) (a12 : Allows K (.chReg Reg.tiaSkip)) (a13 : Allows K .clus) (a14 : Allows K (.chReg Reg.tiaFcnt)) (a15 : Allows K (.pair Reg.calFlags)) (a16 : Allows K (.chPair Reg.tiaFlags)) (a17 : Allows K (.regs Reg.calChFail (Reg.calChFail + 2048))) (a18 : Allows K (.chReg Reg.pmuStatus)) (a19 : Allows K (.chReg Reg.peStatus)) (a20 : Allows K (.one (.reg Reg.calStatus))) : Evolves K x t := by
  simp only [execCalStepEnd, Host.Outcome.next.injEq] at e
  subst e
  have h := Evolves.refl K x
  repeat' (first | with_reducible refine fun _ => ?_ | with_reducible (first | exact h | apply State.calStepEnd_changes))
  all_goals (with_reducible first | assumption | exact a1.ofCh (by decide) | exact a2.chanOf | exact a3.ofCh (by decide) | exact a4.vectorOfEvents | exact a4.logOfEvents | exact a4.evrPairOfEvents | exact a4.evrOfEvents | exact a4.vectorsOfEvents | exact a4.evrStatusOfEvents | exact a4.evrDropOfEvents | exact a4.evrCommitOfEvents | exact a4.evrLogOfEvents | exact a4.evrLogBseqOfEvents | exact a5.ofCh (by decide) | exact a6.pairCh (by decide) | exact a6.chFst | exact a6.chSnd | exact a6.chFst.ofCh (by decide) | exact a6.chSnd.ofCh (by decide) | exact a7.pairCh (by decide) | exact a7.chFst | exact a7.chSnd | exact a7.chFst.ofCh (by decide) | exact a7.chSnd.ofCh (by decide) | exact a8.pairCh (by decide) | exact a8.chFst | exact a8.chSnd | exact a8.chFst.ofCh (by decide) | exact a8.chSnd.ofCh (by decide) | exact a9.pairCh (by decide) | exact a9.chFst | exact a9.chSnd | exact a9.chFst.ofCh (by decide) | exact a9.chSnd.ofCh (by decide) | exact a10.ofCh (by decide) | exact a11.pairCh (by decide) | exact a11.chFst | exact a11.chSnd | exact a11.chFst.ofCh (by decide) | exact a11.chSnd.ofCh (by decide) | exact a12.ofCh (by decide) | exact a13.cluOf | exact a14.ofCh (by decide) | exact a15.fst | exact a15.snd | exact a16.pairCh (by decide) | exact a16.chFst | exact a16.chSnd | exact a16.chFst.ofCh (by decide) | exact a16.chSnd.ofCh (by decide) | exact a17.inRegs (by decide) | exact a17.pairInRegs (by decide) | exact a17.regsInRegs (by decide) | exact a18.ofCh (by decide) | exact a19.ofCh (by decide))

theorem execAcqArmInstant_changes {K : List Foot} {x t : State} (c) (cycle) (e : execAcqArmInstant c cycle x = .next t) (a0 : Allows K (.one (.clu ↑c))) : Evolves K x t := by
  simp only [execAcqArmInstant, Host.Outcome.next.injEq] at e
  subst e
  have h := Evolves.refl K x
  repeat' (first | with_reducible refine fun _ => ?_ | with_reducible (first | exact h | apply State.acqArmInstant_changes))
  all_goals (with_reducible first | assumption)

theorem execLogBlockEraseDone_changes {K : List Foot} {x t : State} (ok) (e : execLogBlockEraseDone ok x = .next t) (a0 : Allows K .events) (a1 : Allows K (.one .freeCtr)) : Evolves K x t := by
  simp only [execLogBlockEraseDone, Host.Outcome.next.injEq] at e
  subst e
  have h := Evolves.refl K x
  repeat' (first | with_reducible refine fun _ => ?_ | with_reducible (first | exact h | apply State.logEraseDone_changes))
  all_goals (with_reducible first | assumption | exact a0.vectorOfEvents | exact a0.logOfEvents | exact a0.evrPairOfEvents | exact a0.evrOfEvents | exact a0.vectorsOfEvents | exact a0.evrStatusOfEvents | exact a0.evrDropOfEvents | exact a0.evrCommitOfEvents | exact a0.evrLogOfEvents | exact a0.evrLogBseqOfEvents)

theorem execRetentionEntry_changes {K : List Foot} {x t : State} (c) (e : execRetentionEntry c x = .next t) (a0 : Allows K (.one (.reg Reg.memRetState))) : Evolves K x t := by
  simp only [execRetentionEntry, Host.Outcome.next.injEq] at e
  subst e
  have h := Evolves.refl K x
  repeat' (first | with_reducible refine fun _ => ?_ | with_reducible (first | exact h | apply State.retentionEntry_changes))
  all_goals (with_reducible first | assumption)

theorem execDeviceReset_changes {K : List Foot} {x t : State} (e : execDeviceReset x = .next t) (a0 : Allows K .completion) (a1 : Allows K (.one .boot)) : Evolves K x t := by
  simp only [execDeviceReset, Host.Outcome.next.injEq] at e
  subst e
  have h := Evolves.refl K x
  repeat' (first | with_reducible refine fun _ => ?_ | with_reducible (first | exact h | apply State.cmdDeviceReset_changes))
  all_goals (with_reducible first | assumption | exact a0.vectorOfCompletion | exact a0.ringsOfCompletion | exact a0.hostMemOfCompletion | exact a0.vectorsOfCompletion | exact a0.cplTailOfCompletion | exact a0.cplDropOfCompletion)

theorem execJumpGrant_changes {K : List Foot} {x t : State} (c) (cycles) (e : execJumpGrant ⟨c, cycles⟩ x = .next t) (a0 : Allows K (.one (.seq ↑c))) (a1 : Allows K (.one (.reg (seqOff (↑c) Reg.seqFault)))) (a2 : Allows K (.one (.lane ↑c))) (a3 : Allows K (.one (.reg (cluOff (↑c) Reg.plnJumpCnt)))) : Evolves K x t := by
  simp only [execJumpGrant, Host.Outcome.next.injEq] at e
  subst e
  have h := Evolves.refl K x
  repeat' (first | with_reducible refine fun _ => ?_ | with_reducible (first | exact h | apply State.jumpGrant_changes))
  all_goals (with_reducible first | assumption)

theorem execCalStoreStep_changes {K : List Foot} {x t : State} (ok) (us) (e : execCalStoreStep ok us x = .next t) (a0 : Allows K .completion) (a1 : Allows K .events) (a2 : Allows K (.one (.reg Reg.calScope))) (a3 : Allows K (.one (.reg Reg.calTime))) (a4 : Allows K (.one (.reg Reg.calStatus))) (a5 : Allows K (.one .cal)) (a6 : Allows K (.pair Reg.calFlags)) (a7 : Allows K (.one .freeCtr)) (a8 : Allows K (.one (.reg Reg.calSeqA))) (a9 : Allows K (.one (.reg Reg.calSeqB))) (a10 : Allows K .flashes) : Evolves K x t := by
  simp only [execCalStoreStep, Host.Outcome.next.injEq] at e
  subst e
  have h := Evolves.refl K x
  repeat' (first | with_reducible refine fun _ => ?_ | with_reducible (first | exact h | apply State.storeNext_changes))
  all_goals (with_reducible first | assumption | exact a0.vectorOfCompletion | exact a0.ringsOfCompletion | exact a0.hostMemOfCompletion | exact a0.vectorsOfCompletion | exact a0.cplTailOfCompletion | exact a0.cplDropOfCompletion | exact a1.vectorOfEvents | exact a1.logOfEvents | exact a1.evrPairOfEvents | exact a1.evrOfEvents | exact a1.vectorsOfEvents | exact a1.evrStatusOfEvents | exact a1.evrDropOfEvents | exact a1.evrCommitOfEvents | exact a1.evrLogOfEvents | exact a1.evrLogBseqOfEvents | exact a6.fst | exact a6.snd | exact a10.logOfFlashes)

theorem execImage_changes {K : List Foot} {x t : State} (data) (e : execImage data x = .next t) (a0 : Allows K .completion) (a1 : Allows K (.one (.reg Reg.bootRewrite))) (a2 : Allows K (.one (.reg Reg.bootSlotSeq1))) (a3 : Allows K (.one (.reg Reg.bootSlotSeq0))) (a4 : Allows K .flashes) : Evolves K x t := by
  simp only [execImage, Host.Outcome.next.injEq] at e
  subst e
  have h := Evolves.refl K x
  repeat' (first | with_reducible refine fun _ => ?_ | with_reducible (first | exact h | apply State.cmdImage_changes))
  all_goals (with_reducible first | assumption | exact a0.vectorOfCompletion | exact a0.ringsOfCompletion | exact a0.hostMemOfCompletion | exact a0.vectorsOfCompletion | exact a0.cplTailOfCompletion | exact a0.cplDropOfCompletion | exact a4.logOfFlashes)

theorem execSeqRoleWrite_changes {K : List Foot} {x t : State} (c) (i) (v) (e : execSeqRoleWrite c i v x = .next t) (a0 : Allows K .hostError) (a1 : Allows K (.one (.reg (cluOff (↑c) (Reg.seqRole0 + 4 * ↑i))))) : Evolves K x t := by
  simp only [execSeqRoleWrite, Host.Outcome.next.injEq] at e
  subst e
  have h := Evolves.refl K x
  repeat' (first | with_reducible refine fun _ => ?_ | with_reducible (first | exact h | assumption | apply State.onWrite_changes | apply State.roleWrite_changes))
  all_goals (with_reducible first | assumption | exact a0.hstFlagsOfError | exact a0.readsOfError | exact a0.badAddrOfError)

theorem execCreditTimeout_changes {K : List Foot} {x t : State} (c) (e : execCreditTimeout c x = .next t) (a0 : Allows K .completion) : Evolves K x t := by
  simp only [execCreditTimeout, Host.Outcome.next.injEq] at e
  subst e
  have h := Evolves.refl K x
  repeat' (first | with_reducible refine fun _ => ?_ | with_reducible (first | exact h | apply State.streamTimeout_changes))
  all_goals (with_reducible first | assumption | exact a0.vectorOfCompletion | exact a0.ringsOfCompletion | exact a0.hostMemOfCompletion | exact a0.vectorsOfCompletion | exact a0.cplTailOfCompletion | exact a0.cplDropOfCompletion)

theorem execTiaAbort_changes {K : List Foot} {x t : State} (ch) (cycle) (e : execTiaAbort ⟨ch, cycle⟩ x = .next t) (a0 : Allows K .hostError) (a1 : Allows K .events) (a2 : Allows K (.one (.chan ↑ch))) (a3 : Allows K (.one (.reg (chOff (↑ch) Reg.tiaStatus)))) (a4 : Allows K (.pair (chOff (↑ch) Reg.tiaMaxLo))) (a5 : Allows K (.pair (chOff (↑ch) Reg.tiaMinLo))) (a6 : Allows K (.pair (chOff (↑ch) Reg.tiaSdevLo))) (a7 : Allows K (.pair (chOff (↑ch) Reg.tiaMeanLo))) (a8 : Allows K (.one (.reg (chOff (↑ch) Reg.tiaFcnt)))) (a9 : Allows K (.one (.reg (chOff (↑ch) Reg.tiaCount)))) (a10 : Allows K (.one (.reg (chOff (↑ch) Reg.tiaDiscard)))) (a11 : Allows K (.pair (chOff (↑ch) Reg.tiaLastLo))) (a12 : Allows K (.one (.reg (chOff (↑ch) Reg.tiaSkip)))) (a13 : Allows K (.one (.clu (↑ch / 16)))) : Evolves K x t := by
  simp only [execTiaAbort, Host.Outcome.next.injEq] at e
  subst e
  have h := Evolves.refl K x
  repeat' (first | with_reducible refine fun _ => ?_ | with_reducible (first | exact h | assumption | apply State.onWrite_changes | apply State.tiaAbort_changes))
  all_goals (with_reducible first | assumption | exact a0.hstFlagsOfError | exact a0.readsOfError | exact a0.badAddrOfError | exact a1.vectorOfEvents | exact a1.logOfEvents | exact a1.evrPairOfEvents | exact a1.evrOfEvents | exact a1.vectorsOfEvents | exact a1.evrStatusOfEvents | exact a1.evrDropOfEvents | exact a1.evrCommitOfEvents | exact a1.evrLogOfEvents | exact a1.evrLogBseqOfEvents | exact a4.fst | exact a4.snd | exact a5.fst | exact a5.snd | exact a6.fst | exact a6.snd | exact a7.fst | exact a7.snd | exact a11.fst | exact a11.snd)

theorem execCwStart_changes {K : List Foot} {x t : State} (p) (cell) (e : execCwStart p cell x = .next t) (a0 : Allows K (.one .cwy)) (a1 : Allows K (.pair Reg.cwyFlags)) (a2 : Allows K (.one .plan)) : Evolves K x t := by
  simp only [execCwStart, Host.Outcome.next.injEq] at e
  subst e
  have h := Evolves.refl K x
  repeat' (first | with_reducible refine fun _ => ?_ | with_reducible (first | exact h | assumption | apply State.cwReceive_changes | apply State.cwStartDo_changes))
  all_goals (with_reducible first | assumption | exact a1.fst | exact a1.snd)

theorem execHeldRetire_changes {K : List Foot} {x t : State} (e : execHeldRetire x = .next t) (a0 : Allows K .completion) (a1 : Allows K .events) (a2 : Allows K (.one (.reg Reg.memStatus))) (a3 : Allows K (.one .march)) (a4 : Allows K (.one (.reg Reg.memOosDev))) (a5 : Allows K (.one (.reg Reg.memOos))) (a6 : Allows K (.one (.reg Reg.memLoss))) (a7 : Allows K (.one (.reg Reg.memRepair))) (a8 : Allows K (.pair Reg.memFlags)) (a9 : Allows K (.one .macros)) : Evolves K x t := by
  simp only [execHeldRetire, Host.Outcome.next.injEq] at e
  subst e
  have h := Evolves.refl K x
  repeat' (first | with_reducible refine fun _ => ?_ | with_reducible (first | exact h | apply State.heldRetire_changes))
  all_goals (with_reducible first | assumption | exact a0.vectorOfCompletion | exact a0.ringsOfCompletion | exact a0.hostMemOfCompletion | exact a0.vectorsOfCompletion | exact a0.cplTailOfCompletion | exact a0.cplDropOfCompletion | exact a1.vectorOfEvents | exact a1.logOfEvents | exact a1.evrPairOfEvents | exact a1.evrOfEvents | exact a1.vectorsOfEvents | exact a1.evrStatusOfEvents | exact a1.evrDropOfEvents | exact a1.evrCommitOfEvents | exact a1.evrLogOfEvents | exact a1.evrLogBseqOfEvents | exact a8.fst | exact a8.snd)

theorem execSfdpRead_changes {K : List Foot} {x t : State} (fuseError) (found) (e : execSfdpRead fuseError found x = .next t) (a0 : Allows K .events) (a1 : Allows K (.one .flashPort)) (a2 : Allows K (.one .boot)) (a3 : Allows K (.one (.reg Reg.hstStatus))) (a4 : Allows K (.one (.reg Reg.bootStatus))) (a5 : Allows K (.one (.reg Reg.bootFlash))) (a6 : Allows K (.one (.reg Reg.bootFuse))) : Evolves K x t := by
  simp only [execSfdpRead, Host.Outcome.next.injEq] at e
  subst e
  have h := Evolves.refl K x
  repeat' (first | with_reducible refine fun _ => ?_ | with_reducible (first | exact h | apply State.sfdpRead_changes))
  all_goals (with_reducible first | assumption | exact a0.vectorOfEvents | exact a0.logOfEvents | exact a0.evrPairOfEvents | exact a0.evrOfEvents | exact a0.vectorsOfEvents | exact a0.evrStatusOfEvents | exact a0.evrDropOfEvents | exact a0.evrCommitOfEvents | exact a0.evrLogOfEvents | exact a0.evrLogBseqOfEvents)

theorem execBar2Write_changes {K : List Foot} {x t : State} (addr) (data) (e : execBar2Write addr data x = .next t) (a0 : Allows K (.pair Reg.hstFlags)) (a1 : Allows K .drams) : Evolves K x t := by
  simp only [execBar2Write, Host.Outcome.next.injEq] at e
  subst e
  have h := Evolves.refl K x
  repeat' (first | with_reducible refine fun _ => ?_ | with_reducible (first | exact h | apply State.bar2Write_changes))
  all_goals (with_reducible first | assumption | exact a0.fst | exact a0.snd | exact a1.dramOf)

theorem execPfwNAssert_changes {K : List Foot} {x t : State} (e : execPfwNAssert x = .next t) (a0 : Allows K (.one .boot)) (a1 : Allows K (.one .pwr)) (a2 : Allows K .allRegs) (a3 : Allows K (.one .shadows)) (a4 : Allows K (.one .clk)) (a5 : Allows K (.one .evr)) (a6 : Allows K (.one .rings)) (a7 : Allows K (.one .hostMem)) (a8 : Allows K (.one .msix)) (a9 : Allows K (.one .vectors)) (a10 : Allows K (.one .reads)) (a11 : Allows K (.one .macros)) (a12 : Allows K (.one .march)) (a13 : Allows K (.one .refills)) (a14 : Allows K (.one .timing)) (a15 : Allows K .failCnts) (a16 : Allows K (.one .cal)) (a17 : Allows K .seqs) (a18 : Allows K .lanes) (a19 : Allows K .clus) (a20 : Allows K .chans) (a21 : Allows K (.one .plan)) (a22 : Allows K (.one .snd)) (a23 : Allows K (.one .cwy)) (a24 : Allows K (.one .flashPort)) (a25 : Allows K .flashes) (a26 : Allows K .vector) : Evolves K x t := by
  simp only [execPfwNAssert, Host.Outcome.next.injEq] at e
  subst e
  have h := Evolves.refl K x
  repeat' (first | with_reducible refine fun _ => ?_ | with_reducible (first | exact h | apply State.pfwAssert_changes))
  all_goals (with_reducible first | assumption | exact a2.regOfAll | exact a2.pairOfAll | exact a2.chRegOfAll | exact a2.chPairOfAll | exact a2.cluRegOfAll | exact a2.cluPairOfAll | exact a2.regsOfAll | exact a17.seqOf | exact a18.laneOf | exact a19.cluOf | exact a20.chanOf | exact a25.logOfFlashes | exact a26.vecRegOfVector | exact a26.vectorsOfVector)

theorem execRefillBlockRequest_changes {K : List Foot} {x t : State} (c) (e : execRefillBlockRequest c x = .next t) (a0 : Allows K (.one (.reg (cluOff (↑c) Reg.plnSluicePos)))) (a1 : Allows K (.one .refills)) (a2 : Allows K (.one (.lane ↑c))) : Evolves K x t := by
  simp only [execRefillBlockRequest, Host.Outcome.next.injEq] at e
  subst e
  have h := Evolves.refl K x
  repeat' (first | with_reducible refine fun _ => ?_ | with_reducible (first | exact h | apply State.refillRequest_changes))
  all_goals (with_reducible first | assumption)

theorem execWedge_changes {K : List Foot} {x t : State} (cause) (unit) (elapsedUs) (e : execWedge cause unit elapsedUs x = .next t) (a0 : Allows K (.one .reads)) (a1 : Allows K .events) (a2 : Allows K (.one .clk)) (a3 : Allows K .completion) (a4 : Allows K (.one .boot)) (a5 : Allows K (.one .cwy)) (a6 : Allows K (.one (.reg Reg.cwyStatus))) (a7 : Allows K (.one (.reg Reg.bootRewrite))) (a8 : Allows K (.one (.reg Reg.memStatus))) (a9 : Allows K (.cluReg Reg.ddsStatus)) (a10 : Allows K (.cluReg Reg.acqStatus)) (a11 : Allows K (.chReg Reg.tiaStatus)) (a12 : Allows K .chans) (a13 : Allows K (.chReg Reg.pmuStatus)) (a14 : Allows K (.chReg Reg.peStatus)) (a15 : Allows K (.one (.reg Reg.calStatus))) (a16 : Allows K (.one (.reg Reg.sndStatus))) (a17 : Allows K (.one (.reg Reg.plnState))) (a18 : Allows K (.one .march)) (a19 : Allows K (.one .cal)) (a20 : Allows K .seqs) (a21 : Allows K .lanes) (a22 : Allows K .clus) (a23 : Allows K (.one .plan)) (a24 : Allows K (.one .snd)) (a25 : Allows K (.pair (seqOff unit.toNat Reg.seqFlags))) : Evolves K x t := by
  simp only [execWedge, Host.Outcome.next.injEq] at e
  subst e
  have h := Evolves.refl K x
  repeat' (first | with_reducible refine fun _ => ?_ | with_reducible (first | exact h | apply State.wedge_changes))
  all_goals (with_reducible first | assumption | exact a1.vectorOfEvents | exact a1.logOfEvents | exact a1.evrPairOfEvents | exact a1.evrOfEvents | exact a1.vectorsOfEvents | exact a1.evrStatusOfEvents | exact a1.evrDropOfEvents | exact a1.evrCommitOfEvents | exact a1.evrLogOfEvents | exact a1.evrLogBseqOfEvents | exact a3.vectorOfCompletion | exact a3.ringsOfCompletion | exact a3.hostMemOfCompletion | exact a3.vectorsOfCompletion | exact a3.cplTailOfCompletion | exact a3.cplDropOfCompletion | exact a9.ofClu (by decide) | exact a10.ofClu (by decide) | exact a11.ofCh (by decide) | exact a12.chanOf | exact a13.ofCh (by decide) | exact a14.ofCh (by decide) | exact a20.seqOf | exact a21.laneOf | exact a22.cluOf | exact a25.fst | exact a25.snd)

theorem execFlConfigWrite_changes {K : List Foot} {x t : State} (r) (v) (e : execFlConfigWrite r v x = .next t) (a0 : Allows K .hostError) (a1 : Allows K (.pair Reg.flDevFlags)) (a2 : Allows K (.one (.reg (flOff r)))) : Evolves K x t := by
  simp only [execFlConfigWrite, Host.Outcome.next.injEq] at e
  subst e
  have h := Evolves.refl K x
  repeat' (first | with_reducible refine fun _ => ?_ | with_reducible (first | exact h | assumption | apply State.onWrite_changes | apply State.flConfig_changes))
  all_goals (with_reducible first | assumption | exact a0.hstFlagsOfError | exact a0.readsOfError | exact a0.badAddrOfError | exact a1.fst | exact a1.snd)

theorem execImageCommitted_changes {K : List Foot} {x t : State} (e : execImageCommitted x = .next t) (a0 : Allows K .completion) (a1 : Allows K (.one (.reg Reg.bootRewrite))) (a2 : Allows K .events) (a3 : Allows K (.one (.reg Reg.bootSlotSeq1))) (a4 : Allows K (.one (.reg Reg.bootSlotSeq0))) (a5 : Allows K .flashes) : Evolves K x t := by
  simp only [execImageCommitted, Host.Outcome.next.injEq] at e
  subst e
  have h := Evolves.refl K x
  repeat' (first | with_reducible refine fun _ => ?_ | with_reducible (first | exact h | apply State.imageDone_changes))
  all_goals (with_reducible first | assumption | exact a0.vectorOfCompletion | exact a0.ringsOfCompletion | exact a0.hostMemOfCompletion | exact a0.vectorsOfCompletion | exact a0.cplTailOfCompletion | exact a0.cplDropOfCompletion | exact a2.vectorOfEvents | exact a2.logOfEvents | exact a2.evrPairOfEvents | exact a2.evrOfEvents | exact a2.vectorsOfEvents | exact a2.evrStatusOfEvents | exact a2.evrDropOfEvents | exact a2.evrCommitOfEvents | exact a2.evrLogOfEvents | exact a2.evrLogBseqOfEvents | exact a5.logOfFlashes)

theorem execTdNLiftoff_changes {K : List Foot} {x t : State} (e : execTdNLiftoff x = .next t) (a0 : Allows K .events) (a1 : Allows K (.pair Reg.sndMaskLo)) (a2 : Allows K (.one (.reg Reg.sndStatus))) (a3 : Allows K (.one .cal)) (a4 : Allows K (.pair Reg.calFlags)) (a5 : Allows K .completion) (a6 : Allows K (.chReg Reg.pmuStatus)) (a7 : Allows K .chans) (a8 : Allows K (.chReg Reg.peStatus)) (a9 : Allows K (.chReg Reg.tiaStatus)) (a10 : Allows K (.chReg Reg.tiaDiscard)) (a11 : Allows K (.chPair Reg.tiaMaxLo)) (a12 : Allows K (.chPair Reg.tiaMinLo)) (a13 : Allows K (.chPair Reg.tiaSdevLo)) (a14 : Allows K (.chPair Reg.tiaMeanLo)) (a15 : Allows K (.chReg Reg.tiaCount)) (a16 : Allows K (.chPair Reg.tiaLastLo)) (a17 : Allows K (.chReg Reg.tiaSkip)) (a18 : Allows K .clus) (a19 : Allows K (.chReg Reg.tiaFcnt)) (a20 : Allows K (.one .snd)) (a21 : Allows K (.chReg Reg.tiaCdCtl)) (a22 : Allows K (.pair Reg.sndFlags)) (a23 : Allows K (.one .cwy)) : Evolves K x t := by
  simp only [execTdNLiftoff, Host.Outcome.next.injEq] at e
  subst e
  have h := Evolves.refl K x
  repeat' (first | with_reducible refine fun _ => ?_ | with_reducible (first | exact h | apply State.tdLift_changes))
  all_goals (with_reducible first | assumption | exact a0.vectorOfEvents | exact a0.logOfEvents | exact a0.evrPairOfEvents | exact a0.evrOfEvents | exact a0.vectorsOfEvents | exact a0.evrStatusOfEvents | exact a0.evrDropOfEvents | exact a0.evrCommitOfEvents | exact a0.evrLogOfEvents | exact a0.evrLogBseqOfEvents | exact a1.fst | exact a1.snd | exact a4.fst | exact a4.snd | exact a5.vectorOfCompletion | exact a5.ringsOfCompletion | exact a5.hostMemOfCompletion | exact a5.vectorsOfCompletion | exact a5.cplTailOfCompletion | exact a5.cplDropOfCompletion | exact a6.ofCh (by decide) | exact a7.chanOf | exact a8.ofCh (by decide) | exact a9.ofCh (by decide) | exact a10.ofCh (by decide) | exact a11.pairCh (by decide) | exact a11.chFst | exact a11.chSnd | exact a11.chFst.ofCh (by decide) | exact a11.chSnd.ofCh (by decide) | exact a12.pairCh (by decide) | exact a12.chFst | exact a12.chSnd | exact a12.chFst.ofCh (by decide) | exact a12.chSnd.ofCh (by decide) | exact a13.pairCh (by decide) | exact a13.chFst | exact a13.chSnd | exact a13.chFst.ofCh (by decide) | exact a13.chSnd.ofCh (by decide) | exact a14.pairCh (by decide) | exact a14.chFst | exact a14.chSnd | exact a14.chFst.ofCh (by decide) | exact a14.chSnd.ofCh (by decide) | exact a15.ofCh (by decide) | exact a16.pairCh (by decide) | exact a16.chFst | exact a16.chSnd | exact a16.chFst.ofCh (by decide) | exact a16.chSnd.ofCh (by decide) | exact a17.ofCh (by decide) | exact a18.cluOf | exact a19.ofCh (by decide) | exact a21.ofCh (by decide) | exact a22.fst | exact a22.snd)

theorem execRefillBlockArrive_changes {K : List Foot} {x t : State} (c) (e : execRefillBlockArrive c x = .next t) (a0 : Allows K (.one (.lane ↑c))) (a1 : Allows K (.one .refills)) : Evolves K x t := by
  simp only [execRefillBlockArrive, Host.Outcome.next.injEq] at e
  subst e
  have h := Evolves.refl K x
  repeat' (first | with_reducible refine fun _ => ?_ | with_reducible (first | exact h | apply State.refillArrive_changes))
  all_goals (with_reducible first | assumption)

theorem execClkEppPeriodWrite_changes {K : List Foot} {x t : State} (v) (e : execClkEppPeriodWrite v x = .next t) (a0 : Allows K .hostError) (a1 : Allows K (.pair Reg.clkFlags)) (a2 : Allows K (.one (.reg Reg.clkEppPeriod))) : Evolves K x t := by
  simp only [execClkEppPeriodWrite, Host.Outcome.next.injEq] at e
  subst e
  have h := Evolves.refl K x
  repeat' (first | with_reducible refine fun _ => ?_ | with_reducible (first | exact h | assumption | apply State.onWrite_changes | apply State.eppPeriodWrite_changes))
  all_goals (with_reducible first | assumption | exact a0.hstFlagsOfError | exact a0.readsOfError | exact a0.badAddrOfError | exact a1.fst | exact a1.snd)

theorem execFlClearDone_changes {K : List Foot} {x t : State} (e : execFlClearDone x = .next t) (a0 : Allows K (.one .plan)) (a1 : Allows K (.one (.reg Reg.flClear))) (a2 : Allows K .drams) : Evolves K x t := by
  simp only [execFlClearDone, Host.Outcome.next.injEq] at e
  subst e
  have h := Evolves.refl K x
  repeat' (first | with_reducible refine fun _ => ?_ | with_reducible (first | exact h | apply State.flClearDone_changes))
  all_goals (with_reducible first | assumption | exact a2.dramOf)

theorem execRefusedRetry_changes {K : List Foot} {x t : State} (p) (e : execRefusedRetry p x = .next t) (a0 : Allows K (.one (.reg Reg.cwyStatus))) : Evolves K x t := by
  simp only [execRefusedRetry, Host.Outcome.next.injEq] at e
  subst e
  have h := Evolves.refl K x
  repeat' (first | with_reducible refine fun _ => ?_ | with_reducible (first | exact h | apply State.portStep_changes))
  all_goals (with_reducible first | assumption)

theorem execWrite_changes {K : List Foot} {x t : State} (data) (e : execWrite data x = .next t) (a0 : Allows K .completion) (a1 : Allows K .drams) : Evolves K x t := by
  simp only [execWrite, Host.Outcome.next.injEq] at e
  subst e
  have h := Evolves.refl K x
  repeat' (first | with_reducible refine fun _ => ?_ | with_reducible (first | exact h | apply State.cmdWrite_changes))
  all_goals (with_reducible first | assumption | exact a0.vectorOfCompletion | exact a0.ringsOfCompletion | exact a0.hostMemOfCompletion | exact a0.vectorsOfCompletion | exact a0.cplTailOfCompletion | exact a0.cplDropOfCompletion | exact a1.dramOf)

theorem execInterruptAccept_changes {K : List Foot} {x t : State} (q) (cycles) (e : execInterruptAccept ⟨q, cycles⟩ x = .next t) (a0 : Allows K .seqs) (a1 : Allows K (.one .plan)) (a2 : Allows K .lanes) (a3 : Allows K (.one (.reg Reg.plnState))) (a4 : Allows K .events) (a5 : Allows K (.pair (seqOff (↑q) Reg.seqFlags))) (a6 : Allows K (.one (.reg (seqOff (↑q) Reg.seqFault)))) : Evolves K x t := by
  simp only [execInterruptAccept, Host.Outcome.next.injEq] at e
  subst e
  have h := Evolves.refl K x
  repeat' (first | with_reducible refine fun _ => ?_ | with_reducible (first | exact h | apply State.accept_changes))
  all_goals (with_reducible first | assumption | exact a0.seqOf | exact a2.laneOf | exact a4.vectorOfEvents | exact a4.logOfEvents | exact a4.evrPairOfEvents | exact a4.evrOfEvents | exact a4.vectorsOfEvents | exact a4.evrStatusOfEvents | exact a4.evrDropOfEvents | exact a4.evrCommitOfEvents | exact a4.evrLogOfEvents | exact a4.evrLogBseqOfEvents | exact a5.fst | exact a5.snd)

theorem execWait_changes {K : List Foot} {x t : State} (q) (ecc) (e : execWait q ecc x = .next t) (a0 : Allows K (.one (.reg (seqOff (↑q) Reg.seqFault)))) (a1 : Allows K .events) (a2 : Allows K (.one (.reg Reg.memEccAddr))) (a3 : Allows K (.pair Reg.memFlags)) (a4 : Allows K (.one (.reg Reg.memEccCnt))) (a5 : Allows K (.one (.reg (seqOff (↑q) Reg.seqEccCnt)))) (a6 : Allows K (.pair (seqOff (↑q) Reg.seqFlags))) (a7 : Allows K .seqs) (a8 : Allows K (.one .plan)) (a9 : Allows K .lanes) (a10 : Allows K (.one (.reg Reg.plnState))) (a11 : Allows K (.one .cwy)) (a12 : Allows K (.regs Reg.flSiteFail (Reg.flSiteFail + 1024))) (a13 : Allows K (.regs Reg.flFirst (Reg.flFirst + 2048))) (a14 : Allows K (.one (.clu ↑q))) (a15 : Allows K (.pair (cluOff (↑q) Reg.plnFlags))) (a16 : Allows K (.one (.reg (cluOff (↑q) Reg.ddsStatus)))) (a17 : Allows K (.one .freeCtr)) (a18 : Allows K (.chRegs Reg.tgScrStgLo (Reg.tgScrStgLo + 8))) : Evolves K x t := by
  simp only [execWait, Host.Outcome.next.injEq] at e
  subst e
  have h := Evolves.refl K x
  repeat' (first | with_reducible refine fun _ => ?_ | with_reducible (first | exact h | apply State.run1_changes))
  all_goals (with_reducible first | assumption | exact a1.vectorOfEvents | exact a1.logOfEvents | exact a1.evrPairOfEvents | exact a1.evrOfEvents | exact a1.vectorsOfEvents | exact a1.evrStatusOfEvents | exact a1.evrDropOfEvents | exact a1.evrCommitOfEvents | exact a1.evrLogOfEvents | exact a1.evrLogBseqOfEvents | exact a3.fst | exact a3.snd | exact a6.fst | exact a6.snd | exact a7.seqOf | exact a9.laneOf | exact a12.inRegs (by decide) | exact a12.pairInRegs (by decide) | exact a12.regsInRegs (by decide) | exact a13.inRegs (by decide) | exact a13.pairInRegs (by decide) | exact a13.regsInRegs (by decide) | exact a15.fst | exact a15.snd | exact a18.regsCh (by decide) | exact a18.ofChRegs (by decide))

theorem execOpenRecordTimeout_changes {K : List Foot} {x t : State} (e : execOpenRecordTimeout x = .next t) (a0 : Allows K (.one (.reg Reg.evrStatus))) (a1 : Allows K (.one (.reg Reg.evrCommit))) (a2 : Allows K (.one .evr)) (a3 : Allows K (.one (.reg Reg.evrLogBseq))) (a4 : Allows K (.one (.reg Reg.evrLog))) (a5 : Allows K .log) (a6 : Allows K (.pair Reg.evrFlags)) (a7 : Allows K .vector) (a8 : Allows K (.one (.reg Reg.evrDrop))) : Evolves K x t := by
  simp only [execOpenRecordTimeout, Host.Outcome.next.injEq] at e
  subst e
  have h := Evolves.refl K x
  repeat' (first | with_reducible refine fun _ => ?_ | with_reducible (first | exact h | apply State.openTimeout_changes))
  all_goals (with_reducible first | assumption | exact a6.fst | exact a6.snd | exact a7.vecRegOfVector | exact a7.vectorsOfVector)

theorem execLostRecordWrite_changes {K : List Foot} {x t : State} (c) (e : execLostRecordWrite c x = .next t) (a0 : Allows K (.one (.reg (cluOff (↑c) Reg.flRecWr)))) (a1 : Allows K (.one (.lane ↑c))) (a2 : Allows K .drams) : Evolves K x t := by
  simp only [execLostRecordWrite, Host.Outcome.next.injEq] at e
  subst e
  have h := Evolves.refl K x
  repeat' (first | with_reducible refine fun _ => ?_ | with_reducible (first | exact h | apply State.lostWrite_changes))
  all_goals (with_reducible first | assumption | exact a2.dramOf)

theorem execRampStep_changes {K : List Foot} {x t : State} (ch) (e : execRampStep ch x = .next t) (a0 : Allows K (.pair (chOff (↑ch) Reg.peFlags))) (a1 : Allows K (.one (.reg (chOff (↑ch) Reg.peStatus)))) (a2 : Allows K (.one (.chan ↑ch))) : Evolves K x t := by
  simp only [execRampStep, Host.Outcome.next.injEq] at e
  subst e
  have h := Evolves.refl K x
  repeat' (first | with_reducible refine fun _ => ?_ | with_reducible (first | exact h | apply State.rampStep_changes))
  all_goals (with_reducible first | assumption | exact a0.fst | exact a0.snd)

theorem execDeviceResetStart_changes {K : List Foot} {x t : State} (e : execDeviceResetStart x = .next t) (a0 : Allows K .allRegs) (a1 : Allows K (.one .shadows)) (a2 : Allows K (.one .boot)) (a3 : Allows K (.one .clk)) (a4 : Allows K (.one .evr)) (a5 : Allows K (.one .rings)) (a6 : Allows K (.one .hostMem)) (a7 : Allows K (.one .msix)) (a8 : Allows K (.one .vectors)) (a9 : Allows K (.one .reads)) (a10 : Allows K (.one .macros)) (a11 : Allows K (.one .march)) (a12 : Allows K (.one .refills)) (a13 : Allows K (.one .timing)) (a14 : Allows K .failCnts) (a15 : Allows K (.one .cal)) (a16 : Allows K (.one .pwr)) (a17 : Allows K .seqs) (a18 : Allows K .lanes) (a19 : Allows K .clus) (a20 : Allows K .chans) (a21 : Allows K (.one .plan)) (a22 : Allows K (.one .snd)) (a23 : Allows K (.one .cwy)) (a24 : Allows K .log) (a25 : Allows K .vector) : Evolves K x t := by
  simp only [execDeviceResetStart, Host.Outcome.next.injEq] at e
  subst e
  have h := Evolves.refl K x
  repeat' (first | with_reducible refine fun _ => ?_ | with_reducible (first | exact h | apply State.resetAsserted_changes | apply Evolves.ite))
  all_goals (with_reducible first | assumption | exact a0.regOfAll | exact a0.pairOfAll | exact a0.chRegOfAll | exact a0.chPairOfAll | exact a0.cluRegOfAll | exact a0.cluPairOfAll | exact a0.regsOfAll | exact a17.seqOf | exact a18.laneOf | exact a19.cluOf | exact a20.chanOf | exact a25.vecRegOfVector | exact a25.vectorsOfVector)

theorem execSndClrMask_changes {K : List Foot} {x t : State} (e : execSndClrMask x = .next t) (a0 : Allows K .hostError) (a1 : Allows K (.pair Reg.sndFlags)) (a2 : Allows K (.pair Reg.sndMaskLo)) : Evolves K x t := by
  simp only [execSndClrMask, Host.Outcome.next.injEq] at e
  subst e
  have h := Evolves.refl K x
  repeat' (first | with_reducible refine fun _ => ?_ | with_reducible (first | exact h | apply State.onWrite_changes | apply State.clrMask_changes))
  all_goals (with_reducible first | assumption | exact a0.hstFlagsOfError | exact a0.readsOfError | exact a0.badAddrOfError | exact a1.fst | exact a1.snd | exact a2.fst | exact a2.snd)

theorem execFlClear_changes {K : List Foot} {x t : State} (v) (e : execFlClear v x = .next t) (a0 : Allows K .hostError) (a1 : Allows K (.pair Reg.flDevFlags)) (a2 : Allows K (.one .plan)) (a3 : Allows K (.one (.reg Reg.flClear))) (a4 : Allows K .failCnts) (a5 : Allows K (.regs Reg.flSiteFail (Reg.flSiteFail + 1024))) : Evolves K x t := by
  simp only [execFlClear, Host.Outcome.next.injEq] at e
  subst e
  have h := Evolves.refl K x
  repeat' (first | with_reducible refine fun _ => ?_ | with_reducible (first | exact h | assumption | apply State.onWrite_changes | apply State.flClear_changes))
  all_goals (with_reducible first | assumption | exact a0.hstFlagsOfError | exact a0.readsOfError | exact a0.badAddrOfError | exact a1.fst | exact a1.snd | exact a5.inRegs (by decide) | exact a5.pairInRegs (by decide) | exact a5.regsInRegs (by decide))

theorem execSeg_changes {K : List Foot} {x t : State} (q) (ecc) (e : execSeg q ecc x = .next t) (a0 : Allows K (.one (.reg (seqOff (↑q) Reg.seqFault)))) (a1 : Allows K .events) (a2 : Allows K (.one (.reg Reg.memEccAddr))) (a3 : Allows K (.pair Reg.memFlags)) (a4 : Allows K (.one (.reg Reg.memEccCnt))) (a5 : Allows K (.one (.reg (seqOff (↑q) Reg.seqEccCnt)))) (a6 : Allows K (.pair (seqOff (↑q) Reg.seqFlags))) (a7 : Allows K .seqs) (a8 : Allows K (.one .plan)) (a9 : Allows K .lanes) (a10 : Allows K (.one (.reg Reg.plnState))) (a11 : Allows K (.one .cwy)) (a12 : Allows K (.regs Reg.flSiteFail (Reg.flSiteFail + 1024))) (a13 : Allows K (.regs Reg.flFirst (Reg.flFirst + 2048))) (a14 : Allows K (.one (.clu ↑q))) (a15 : Allows K (.pair (cluOff (↑q) Reg.plnFlags))) (a16 : Allows K (.one (.reg (cluOff (↑q) Reg.ddsStatus)))) (a17 : Allows K (.one .freeCtr)) (a18 : Allows K (.chRegs Reg.tgScrStgLo (Reg.tgScrStgLo + 8))) : Evolves K x t := by
  simp only [execSeg, Host.Outcome.next.injEq] at e
  subst e
  have h := Evolves.refl K x
  repeat' (first | with_reducible refine fun _ => ?_ | with_reducible (first | exact h | apply State.run1_changes))
  all_goals (with_reducible first | assumption | exact a1.vectorOfEvents | exact a1.logOfEvents | exact a1.evrPairOfEvents | exact a1.evrOfEvents | exact a1.vectorsOfEvents | exact a1.evrStatusOfEvents | exact a1.evrDropOfEvents | exact a1.evrCommitOfEvents | exact a1.evrLogOfEvents | exact a1.evrLogBseqOfEvents | exact a3.fst | exact a3.snd | exact a6.fst | exact a6.snd | exact a7.seqOf | exact a9.laneOf | exact a12.inRegs (by decide) | exact a12.pairInRegs (by decide) | exact a12.regsInRegs (by decide) | exact a13.inRegs (by decide) | exact a13.pairInRegs (by decide) | exact a13.regsInRegs (by decide) | exact a15.fst | exact a15.snd | exact a18.regsCh (by decide) | exact a18.ofChRegs (by decide))

theorem execClampEntry_changes {K : List Foot} {x t : State} (ch) (cycle) (e : execClampEntry ch cycle x = .next t) (a0 : Allows K (.one (.chan ↑ch))) (a1 : Allows K (.pair (chOff (↑ch) Reg.pmuFlags))) (a2 : Allows K (.one (.reg (chOff (↑ch) Reg.pmuStatus)))) : Evolves K x t := by
  simp only [execClampEntry, Host.Outcome.next.injEq] at e
  subst e
  have h := Evolves.refl K x
  repeat' (first | with_reducible refine fun _ => ?_ | with_reducible (first | exact h | apply State.clampIn_changes))
  all_goals (with_reducible first | assumption | exact a1.fst | exact a1.snd)

theorem execCwySendWrite_changes {K : List Foot} {x t : State} (v) (e : execCwySendWrite v x = .next t) (a0 : Allows K .hostError) (a1 : Allows K (.one .cwy)) (a2 : Allows K (.pair Reg.cwyFlags)) : Evolves K x t := by
  simp only [execCwySendWrite, Host.Outcome.next.injEq] at e
  subst e
  have h := Evolves.refl K x
  repeat' (first | with_reducible refine fun _ => ?_ | with_reducible (first | exact h | assumption | apply State.onWrite_changes | apply State.sendWrite_changes))
  all_goals (with_reducible first | assumption | exact a0.hstFlagsOfError | exact a0.readsOfError | exact a0.badAddrOfError | exact a2.fst | exact a2.snd)

theorem execSpillRecord_changes {K : List Foot} {x t : State} (c) (read) (part) (row) (e : execSpillRecord c read part row x = .next t) (a0 : Allows K (.pair (cluOff (↑c) Reg.acqFlags))) (a1 : Allows K (.one (.clu ↑c))) (a2 : Allows K (.one (.reg (cluOff (↑c) Reg.acqSpillWr)))) (a3 : Allows K .drams) (a4 : Allows K (.one (.reg Reg.memEccCnt))) (a5 : Allows K (.one (.reg (cluOff (↑c) Reg.acqDrop)))) (a6 : Allows K (.one (.reg (cluOff (↑c) Reg.acqGapLen)))) (a7 : Allows K (.one (.reg (cluOff (↑c) Reg.acqGapCnt)))) (a8 : Allows K .events) (a9 : Allows K (.one (.reg Reg.memEccAddr))) (a10 : Allows K (.pair Reg.memFlags)) : Evolves K x t := by
  simp only [execSpillRecord, Host.Outcome.next.injEq] at e
  subst e
  have h := Evolves.refl K x
  repeat' (first | with_reducible refine fun _ => ?_ | with_reducible (first | exact h | apply State.spillRecord_changes))
  all_goals (with_reducible first | assumption | exact a0.fst | exact a0.snd | exact a3.dramOf | exact a8.vectorOfEvents | exact a8.logOfEvents | exact a8.evrPairOfEvents | exact a8.evrOfEvents | exact a8.vectorsOfEvents | exact a8.evrStatusOfEvents | exact a8.evrDropOfEvents | exact a8.evrCommitOfEvents | exact a8.evrLogOfEvents | exact a8.evrLogBseqOfEvents | exact a10.fst | exact a10.snd)

theorem execMonitorStart_changes {K : List Foot} {x t : State} (c) (v) (e : execMonitorStart c v x = .next t) (a0 : Allows K .hostError) (a1 : Allows K (.one (.reg (cluOff (↑c) Reg.peMonCtl)))) (a2 : Allows K (.one (.clu ↑c))) (a3 : Allows K (.one (.reg (cluOff (↑c) Reg.peMonMismatch)))) (a4 : Allows K (.chReg Reg.tiaLine)) (a5 : Allows K .chans) (a6 : Allows K (.one (.reg Reg.memRetWakes))) (a7 : Allows K (.one (.reg Reg.memRetState))) : Evolves K x t := by
  simp only [execMonitorStart, Host.Outcome.next.injEq] at e
  subst e
  have h := Evolves.refl K x
  repeat' (first | with_reducible refine fun _ => ?_ | with_reducible (first | exact h | assumption | apply State.onWrite_changes | apply State.monStart_changes))
  all_goals (with_reducible first | assumption | exact a0.hstFlagsOfError | exact a0.readsOfError | exact a0.badAddrOfError | exact a4.ofCh (by decide) | exact a5.chanOf)

theorem execFlagClear_changes {K : List Foot} {x t : State} (off) (v) (setNow) (e : execFlagClear off v setNow x = .next t) (a0 : Allows K .hostError) (a1 : Allows K (.pair off.toNat)) (a2 : Allows K (.one (.reg Reg.memCollide))) (a3 : Allows K .failCnts) (a4 : Allows K (.cluPair Reg.flFlags)) (a5 : Allows K .events) (a6 : Allows K (.one (.reg Reg.memEccAddr))) (a7 : Allows K (.pair Reg.memFlags)) (a8 : Allows K (.one (.reg Reg.memEccCnt))) (a9 : Allows K (.one .plan)) (a10 : Allows K .drams) (a11 : Allows K (.cluReg Reg.flRecWr)) (a12 : Allows K .lanes) (a13 : Allows K (.cluReg Reg.flRecLost)) (a14 : Allows K (.regs Reg.flSiteFail (Reg.flSiteFail + 1024))) (a15 : Allows K (.regs Reg.flFirst (Reg.flFirst + 2048))) (a16 : Allows K (.pair Reg.clkFlags)) (a17 : Allows K (.one (.reg Reg.clkEppPeriod))) (a18 : Allows K (.one (.reg Reg.clkEppWidth))) (a19 : Allows K (.one (.reg Reg.clkEppOffset))) (a20 : Allows K (.one (.reg Reg.hstCplTail))) (a21 : Allows K (.one (.reg Reg.hstCplHead))) (a22 : Allows K (.one (.reg Reg.hstCmdHead))) (a23 : Allows K (.one (.reg Reg.hstCmdTail))) (a24 : Allows K (.one (.reg Reg.hstStatus))) (a25 : Allows K (.one (.reg Reg.hstRingCtl))) (a26 : Allows K (.one .msix)) (a27 : Allows K (.one .cwy)) (a28 : Allows K (.pair Reg.cwyFlags)) (a29 : Allows K .completion) (a30 : Allows K (.one (.reg Reg.calScope))) (a31 : Allows K (.one (.reg Reg.calTime))) (a32 : Allows K (.one (.reg Reg.calStatus))) (a33 : Allows K (.one .cal)) (a34 : Allows K (.chReg Reg.pmuStatus)) (a35 : Allows K .chans) (a36 : Allows K (.chReg Reg.peStatus)) (a37 : Allows K (.chReg Reg.tiaStatus)) (a38 : Allows K (.chReg Reg.tiaDiscard)) (a39 : Allows K (.chPair Reg.tiaMaxLo)) (a40 : Allows K (.chPair Reg.tiaMinLo)) (a41 : Allows K (.chPair Reg.tiaSdevLo)) (a42 : Allows K (.chPair Reg.tiaMeanLo)) (a43 : Allows K (.chReg Reg.tiaCount)) (a44 : Allows K (.chPair Reg.tiaLastLo)) (a45 : Allows K (.chReg Reg.tiaSkip)) (a46 : Allows K .clus) (a47 : Allows K (.chReg Reg.tiaFcnt)) (a48 : Allows K (.chReg Reg.tiaCdCtl)) (a49 : Allows K (.one .freeCtr)) (a50 : Allows K (.pair Reg.sndFlags)) (a51 : Allows K (.one .snd)) (a52 : Allows K (.one (.reg Reg.sndStatus))) (a53 : Allows K (.chReg Reg.tiaLine)) (a54 : Allows K (.one (.reg Reg.memRetWakes))) (a55 : Allows K (.one (.reg Reg.memRetState))) (a56 : Allows K (.pair Reg.calFlags)) (a57 : Allows K (.pair Reg.sndMaskLo)) (a58 : Allows K (.one (.reg Reg.flSiteMaskLo))) (a59 : Allows K (.one (.reg Reg.flSiteMaskHi))) (a60 : Allows K (.pair Reg.flDevFlags)) (a61 : Allows K (.one (.reg (flOff FlReg.bmpEnLo)))) (a62 : Allows K (.one (.reg (flOff FlReg.bmpEnHi)))) (a63 : Allows K (.one (.reg (flOff FlReg.geom)))) (a64 : Allows K (.one (.reg (flOff FlReg.recSize)))) (a65 : Allows K (.one (.reg (flOff FlReg.rcLimit)))) (a66 : Allows K (.one (.reg Reg.flClear))) (a67 : Allows K (.one (.reg (cluOff ((off.toNat - 8388608) / 131072) ((off.toNat - 8388608) % 131072))))) (a68 : Allows K (.pair (cluOff ((off.toNat - 8388608) / 131072) Reg.peClFlags))) (a69 : Allows K (.one (.reg (cluOff ((off.toNat - 8388608) / 131072) Reg.peMonCtl)))) (a70 : Allows K (.one (.reg (cluOff ((off.toNat - 8388608) / 131072) Reg.peMonMismatch)))) (a71 : Allows K (.pair (cluOff ((off.toNat - 8388608) / 131072) Reg.plnFlags))) (a72 : Allows K (.one (.reg (cluOff ((off.toNat - 8388608) / 131072) Reg.plnSluicePos)))) (a73 : Allows K (.one (.reg (cluOff ((off.toNat - 8388608) / 131072) Reg.plnSluice)))) (a74 : Allows K (.one (.reg (cluOff ((off.toNat - 8388608) / 131072) Reg.plnSluiceSize)))) (a75 : Allows K (.one (.reg (cluOff ((off.toNat - 8388608) / 131072) Reg.plnSluiceBase)))) (a76 : Allows K (.pair (cluOff ((off.toNat - 8388608) / 131072) Reg.acqFlags))) (a77 : Allows K (.one (.reg (cluOff ((off.toNat - 8388608) / 131072) Reg.acqStatus)))) (a78 : Allows K (.one (.reg (cluOff ((off.toNat - 8388608) / 131072) Reg.acqFrameCnt)))) (a79 : Allows K (.one (.reg (cluOff ((off.toNat - 8388608) / 131072) Reg.acqDrop)))) (a80 : Allows K (.one (.reg (cluOff ((off.toNat - 8388608) / 131072) Reg.acqGapLen)))) (a81 : Allows K (.one (.reg (cluOff ((off.toNat - 8388608) / 131072) Reg.acqGapCnt)))) (a82 : Allows K (.one (.reg (cluOff ((off.toNat - 8388608) / 131072) Reg.acqMissed)))) (a83 : Allows K (.one (.reg (cluOff ((off.toNat - 8388608) / 131072) Reg.acqSpillRd)))) (a84 : Allows K (.one (.reg (cluOff ((off.toNat - 8388608) / 131072) Reg.acqSpillWr)))) (a85 : Allows K (.one (.reg (cluOff ((off.toNat - 8388608) / 131072) (Reg.acqSpillBase))))) (a86 : Allows K (.one (.reg (cluOff ((off.toNat - 8388608) / 131072) (Reg.acqSpillSize))))) (a87 : Allows K (.pair (cluOff ((off.toNat - 8388608) / 131072) Reg.ddsData0))) (a88 : Allows K (.pair (cluOff ((off.toNat - 8388608) / 131072) Reg.ddsFlags))) (a89 : Allows K (.one (.reg (cluOff ((off.toNat - 8388608) / 131072) Reg.ddsAddr)))) (a90 : Allows K (.one (.reg (chOff (chanAt off.toNat) ((off.toNat - 8388608) % 131072 % 4096))))) (a91 : Allows K (.pair (chOff (chanAt off.toNat) Reg.peFlags))) (a92 : Allows K (.pair (chOff (chanAt off.toNat) Reg.pmuFlags))) (a93 : Allows K (.pair (chOff (chanAt off.toNat) Reg.tiaFlags))) (a94 : Allows K (.one (.reg (chOff (chanAt off.toNat) Reg.tiaTimeout)))) (a95 : Allows K (.one (.reg (chOff (chanAt off.toNat) Reg.tiaCfg)))) (a96 : Allows K (.one (.reg (chOff (chanAt off.toNat) Reg.tiaGate)))) (a97 : Allows K (.one (.reg (chOff (chanAt off.toNat) Reg.tiaN)))) (a98 : Allows K (.one (.reg Reg.bootSealedWrAddr))) (a99 : Allows K (.one (.reg Reg.bootSealedWrCnt))) : Evolves K x t := by
  simp only [execFlagClear, Host.Outcome.next.injEq] at e
  subst e
  have h := Evolves.refl K x
  repeat' (first | with_reducible refine fun _ => ?_ | with_reducible (first | exact h | assumption | apply State.onWrite_changes | apply State.flagClear_changes | apply State.hostWrite_changes | apply Evolves.ite))
  all_goals (with_reducible first | assumption | exact a0.hstFlagsOfError | exact a0.readsOfError | exact a0.badAddrOfError | exact a1.fst | exact a1.snd | exact a4.pairClu (by decide) | exact a4.cluFst | exact a4.cluSnd | exact a4.cluFst.ofClu (by decide) | exact a4.cluSnd.ofClu (by decide) | exact a5.vectorOfEvents | exact a5.logOfEvents | exact a5.evrPairOfEvents | exact a5.evrOfEvents | exact a5.vectorsOfEvents | exact a5.evrStatusOfEvents | exact a5.evrDropOfEvents | exact a5.evrCommitOfEvents | exact a5.evrLogOfEvents | exact a5.evrLogBseqOfEvents | exact a7.fst | exact a7.snd | exact a10.dramOf | exact a11.ofClu (by decide) | exact a12.laneOf | exact a13.ofClu (by decide) | exact a14.inRegs (by decide) | exact a14.pairInRegs (by decide) | exact a14.regsInRegs (by decide) | exact a15.inRegs (by decide) | exact a15.pairInRegs (by decide) | exact a15.regsInRegs (by decide) | exact a16.fst | exact a16.snd | exact a28.fst | exact a28.snd | exact a29.vectorOfCompletion | exact a29.ringsOfCompletion | exact a29.hostMemOfCompletion | exact a29.vectorsOfCompletion | exact a29.cplTailOfCompletion | exact a29.cplDropOfCompletion | exact a34.ofCh (by decide) | exact a35.chanOf | exact a36.ofCh (by decide) | exact a37.ofCh (by decide) | exact a38.ofCh (by decide) | exact a39.pairCh (by decide) | exact a39.chFst | exact a39.chSnd | exact a39.chFst.ofCh (by decide) | exact a39.chSnd.ofCh (by decide) | exact a40.pairCh (by decide) | exact a40.chFst | exact a40.chSnd | exact a40.chFst.ofCh (by decide) | exact a40.chSnd.ofCh (by decide) | exact a41.pairCh (by decide) | exact a41.chFst | exact a41.chSnd | exact a41.chFst.ofCh (by decide) | exact a41.chSnd.ofCh (by decide) | exact a42.pairCh (by decide) | exact a42.chFst | exact a42.chSnd | exact a42.chFst.ofCh (by decide) | exact a42.chSnd.ofCh (by decide) | exact a43.ofCh (by decide) | exact a44.pairCh (by decide) | exact a44.chFst | exact a44.chSnd | exact a44.chFst.ofCh (by decide) | exact a44.chSnd.ofCh (by decide) | exact a45.ofCh (by decide) | exact a46.cluOf | exact a47.ofCh (by decide) | exact a48.ofCh (by decide) | exact a50.fst | exact a50.snd | exact a53.ofCh (by decide) | exact a56.fst | exact a56.snd | exact a57.fst | exact a57.snd | exact a60.fst | exact a60.snd | exact a68.fst | exact a68.snd | exact a71.fst | exact a71.snd | exact a76.fst | exact a76.snd | exact a87.fst | exact a87.snd | exact a88.fst | exact a88.snd | exact a91.fst | exact a91.snd | exact a92.fst | exact a92.snd | exact a93.fst | exact a93.snd)

theorem execHoldRelease_changes {K : List Foot} {x t : State} (q) (cycles) (e : execHoldRelease q cycles x = .next t) (a0 : Allows K (.one (.seq ↑q))) : Evolves K x t := by
  simp only [execHoldRelease, Host.Outcome.next.injEq] at e
  subst e
  have h := Evolves.refl K x
  repeat' (first | with_reducible refine fun _ => ?_ | with_reducible (first | exact h | apply State.holdRelease_changes))
  all_goals (with_reducible first | assumption)

theorem execWaitTimeout_changes {K : List Foot} {x t : State} (q) (e : execWaitTimeout q x = .next t) (a0 : Allows K .events) (a1 : Allows K (.pair (seqOff (↑q) Reg.seqFlags))) (a2 : Allows K (.one (.seq ↑q))) : Evolves K x t := by
  simp only [execWaitTimeout, Host.Outcome.next.injEq] at e
  subst e
  have h := Evolves.refl K x
  repeat' (first | with_reducible refine fun _ => ?_ | with_reducible (first | exact h | apply State.waitTimeout_changes))
  all_goals (with_reducible first | assumption | exact a0.vectorOfEvents | exact a0.logOfEvents | exact a0.evrPairOfEvents | exact a0.evrOfEvents | exact a0.vectorsOfEvents | exact a0.evrStatusOfEvents | exact a0.evrDropOfEvents | exact a0.evrCommitOfEvents | exact a0.evrLogOfEvents | exact a0.evrLogBseqOfEvents | exact a1.fst | exact a1.snd)

theorem execSoundingPassEnd_changes {K : List Foot} {x t : State} (us) (e : execSoundingPassEnd us x = .next t) (a0 : Allows K .completion) (a1 : Allows K .events) (a2 : Allows K (.one (.reg Reg.sndStatus))) (a3 : Allows K (.chReg Reg.pmuStatus)) (a4 : Allows K .chans) (a5 : Allows K (.chReg Reg.peStatus)) (a6 : Allows K (.chReg Reg.tiaStatus)) (a7 : Allows K (.chReg Reg.tiaDiscard)) (a8 : Allows K (.chPair Reg.tiaMaxLo)) (a9 : Allows K (.chPair Reg.tiaMinLo)) (a10 : Allows K (.chPair Reg.tiaSdevLo)) (a11 : Allows K (.chPair Reg.tiaMeanLo)) (a12 : Allows K (.chReg Reg.tiaCount)) (a13 : Allows K (.chPair Reg.tiaLastLo)) (a14 : Allows K (.chReg Reg.tiaSkip)) (a15 : Allows K .clus) (a16 : Allows K (.chReg Reg.tiaFcnt)) (a17 : Allows K (.one .snd)) (a18 : Allows K (.chReg Reg.tiaCdCtl)) (a19 : Allows K (.one (.reg Reg.sndSummary))) (a20 : Allows K (.one (.reg Reg.sndTime))) (a21 : Allows K (.pair Reg.sndFlags)) (a22 : Allows K (.pair Reg.sndMaskLo)) (a23 : Allows K (.pair Reg.calFlags)) (a24 : Allows K (.one .cal)) (a25 : Allows K (.regs Reg.sndMap0 (Reg.sndMap0 + 4096))) : Evolves K x t := by
  simp only [execSoundingPassEnd, Host.Outcome.next.injEq] at e
  subst e
  have h := Evolves.refl K x
  repeat' (first | with_reducible refine fun _ => ?_ | with_reducible (first | exact h | apply State.passEnd_changes))
  all_goals (with_reducible first | assumption | exact a0.vectorOfCompletion | exact a0.ringsOfCompletion | exact a0.hostMemOfCompletion | exact a0.vectorsOfCompletion | exact a0.cplTailOfCompletion | exact a0.cplDropOfCompletion | exact a1.vectorOfEvents | exact a1.logOfEvents | exact a1.evrPairOfEvents | exact a1.evrOfEvents | exact a1.vectorsOfEvents | exact a1.evrStatusOfEvents | exact a1.evrDropOfEvents | exact a1.evrCommitOfEvents | exact a1.evrLogOfEvents | exact a1.evrLogBseqOfEvents | exact a3.ofCh (by decide) | exact a4.chanOf | exact a5.ofCh (by decide) | exact a6.ofCh (by decide) | exact a7.ofCh (by decide) | exact a8.pairCh (by decide) | exact a8.chFst | exact a8.chSnd | exact a8.chFst.ofCh (by decide) | exact a8.chSnd.ofCh (by decide) | exact a9.pairCh (by decide) | exact a9.chFst | exact a9.chSnd | exact a9.chFst.ofCh (by decide) | exact a9.chSnd.ofCh (by decide) | exact a10.pairCh (by decide) | exact a10.chFst | exact a10.chSnd | exact a10.chFst.ofCh (by decide) | exact a10.chSnd.ofCh (by decide) | exact a11.pairCh (by decide) | exact a11.chFst | exact a11.chSnd | exact a11.chFst.ofCh (by decide) | exact a11.chSnd.ofCh (by decide) | exact a12.ofCh (by decide) | exact a13.pairCh (by decide) | exact a13.chFst | exact a13.chSnd | exact a13.chFst.ofCh (by decide) | exact a13.chSnd.ofCh (by decide) | exact a14.ofCh (by decide) | exact a15.cluOf | exact a16.ofCh (by decide) | exact a18.ofCh (by decide) | exact a21.fst | exact a21.snd | exact a22.fst | exact a22.snd | exact a23.fst | exact a23.snd | exact a25.inRegs (by decide) | exact a25.pairInRegs (by decide) | exact a25.regsInRegs (by decide))

theorem execStop_changes {K : List Foot} {x t : State} (e : execStop x = .next t) (a0 : Allows K .completion) (a1 : Allows K .seqs) (a2 : Allows K (.one .plan)) (a3 : Allows K .lanes) (a4 : Allows K (.one (.reg Reg.plnState))) : Evolves K x t := by
  simp only [execStop, Host.Outcome.next.injEq] at e
  subst e
  have h := Evolves.refl K x
  repeat' (first | with_reducible refine fun _ => ?_ | with_reducible (first | exact h | apply State.cmdStop_changes))
  all_goals (with_reducible first | assumption | exact a0.vectorOfCompletion | exact a0.ringsOfCompletion | exact a0.hostMemOfCompletion | exact a0.vectorsOfCompletion | exact a0.cplTailOfCompletion | exact a0.cplDropOfCompletion | exact a1.seqOf | exact a3.laneOf)

theorem execAcqAbort_changes {K : List Foot} {x t : State} (c) (e : execAcqAbort c x = .next t) (a0 : Allows K .hostError) (a1 : Allows K .events) (a2 : Allows K (.one (.clu ↑c))) (a3 : Allows K (.one (.reg (cluOff (↑c) Reg.acqStatus)))) (a4 : Allows K (.one (.reg (cluOff (↑c) Reg.acqFrameCnt)))) (a5 : Allows K (.pair (cluOff (↑c) Reg.acqFlags))) (a6 : Allows K (.one (.reg (cluOff (↑c) Reg.acqDrop)))) (a7 : Allows K (.one (.reg (cluOff (↑c) Reg.acqGapLen)))) (a8 : Allows K (.one (.reg (cluOff (↑c) Reg.acqGapCnt)))) : Evolves K x t := by
  simp only [execAcqAbort, Host.Outcome.next.injEq] at e
  subst e
  have h := Evolves.refl K x
  repeat' (first | with_reducible refine fun _ => ?_ | with_reducible (first | exact h | assumption | apply State.onWrite_changes | apply State.acqAbort_changes))
  all_goals (with_reducible first | assumption | exact a0.hstFlagsOfError | exact a0.readsOfError | exact a0.badAddrOfError | exact a1.vectorOfEvents | exact a1.logOfEvents | exact a1.evrPairOfEvents | exact a1.evrOfEvents | exact a1.vectorsOfEvents | exact a1.evrStatusOfEvents | exact a1.evrDropOfEvents | exact a1.evrCommitOfEvents | exact a1.evrLogOfEvents | exact a1.evrLogBseqOfEvents | exact a5.fst | exact a5.snd)

theorem execFailWriterDrain_changes {K : List Foot} {x t : State} (c) (row) (col) (e : execFailWriterDrain c row col x = .next t) (a0 : Allows K (.pair (cluOff (↑c) Reg.flFlags))) (a1 : Allows K .failCnts) (a2 : Allows K .events) (a3 : Allows K (.one (.reg Reg.memEccAddr))) (a4 : Allows K (.pair Reg.memFlags)) (a5 : Allows K (.one (.reg Reg.memEccCnt))) (a6 : Allows K (.one .plan)) (a7 : Allows K .drams) (a8 : Allows K (.one (.reg (cluOff (↑c) Reg.flRecWr)))) (a9 : Allows K (.one (.lane ↑c))) (a10 : Allows K (.one (.reg (cluOff (↑c) Reg.flRecLost)))) (a11 : Allows K (.regs Reg.flSiteFail (Reg.flSiteFail + 1024))) (a12 : Allows K (.regs Reg.flFirst (Reg.flFirst + 2048))) : Evolves K x t := by
  simp only [execFailWriterDrain, Host.Outcome.next.injEq] at e
  subst e
  have h := Evolves.refl K x
  repeat' (first | with_reducible refine fun _ => ?_ | with_reducible (first | exact h | apply State.failDrain_changes))
  all_goals (with_reducible first | assumption | exact a0.fst | exact a0.snd | exact a2.vectorOfEvents | exact a2.logOfEvents | exact a2.evrPairOfEvents | exact a2.evrOfEvents | exact a2.vectorsOfEvents | exact a2.evrStatusOfEvents | exact a2.evrDropOfEvents | exact a2.evrCommitOfEvents | exact a2.evrLogOfEvents | exact a2.evrLogBseqOfEvents | exact a4.fst | exact a4.snd | exact a7.dramOf | exact a11.inRegs (by decide) | exact a11.pairInRegs (by decide) | exact a11.regsInRegs (by decide) | exact a12.inRegs (by decide) | exact a12.pairInRegs (by decide) | exact a12.regsInRegs (by decide))

theorem execPersistentAreaScan_changes {K : List Foot} {x t : State} (e : execPersistentAreaScan x = .next t) (a0 : Allows K .events) (a1 : Allows K (.one .flashPort)) (a2 : Allows K (.pair Reg.clkFlags)) (a3 : Allows K (.one .clk)) (a4 : Allows K (.one .boot)) (a5 : Allows K (.one (.reg Reg.bootStatus))) (a6 : Allows K .flashes) : Evolves K x t := by
  simp only [execPersistentAreaScan, Host.Outcome.next.injEq] at e
  subst e
  have h := Evolves.refl K x
  repeat' (first | with_reducible refine fun _ => ?_ | with_reducible (first | exact h | apply State.persistentScan_changes))
  all_goals (with_reducible first | assumption | exact a0.vectorOfEvents | exact a0.logOfEvents | exact a0.evrPairOfEvents | exact a0.evrOfEvents | exact a0.vectorsOfEvents | exact a0.evrStatusOfEvents | exact a0.evrDropOfEvents | exact a0.evrCommitOfEvents | exact a0.evrLogOfEvents | exact a0.evrLogBseqOfEvents | exact a2.fst | exact a2.snd | exact a6.logOfFlashes)

theorem execPortTrainRetry_changes {K : List Foot} {x t : State} (p) (partner) (e : execPortTrainRetry ⟨p, partner⟩ x = .next t) (a0 : Allows K (.one (.reg Reg.cwyStatus))) : Evolves K x t := by
  simp only [execPortTrainRetry, Host.Outcome.next.injEq] at e
  subst e
  have h := Evolves.refl K x
  repeat' (first | with_reducible refine fun _ => ?_ | with_reducible (first | exact h | apply State.portStep_changes | apply Evolves.ite))
  all_goals (with_reducible first | assumption)

theorem execVinPowerUp_changes {K : List Foot} {x t : State} (e : execVinPowerUp x = .next t) (a0 : Allows K (.one .boot)) (a1 : Allows K (.one .clk)) (a2 : Allows K (.one .flashPort)) (a3 : Allows K .drams) (a4 : Allows K .allRegs) (a5 : Allows K (.one .shadows)) (a6 : Allows K (.one .evr)) (a7 : Allows K (.one .rings)) (a8 : Allows K (.one .hostMem)) (a9 : Allows K (.one .msix)) (a10 : Allows K (.one .vectors)) (a11 : Allows K (.one .reads)) (a12 : Allows K (.one .macros)) (a13 : Allows K (.one .march)) (a14 : Allows K (.one .refills)) (a15 : Allows K (.one .timing)) (a16 : Allows K .failCnts) (a17 : Allows K (.one .cal)) (a18 : Allows K (.one .pwr)) (a19 : Allows K .seqs) (a20 : Allows K .lanes) (a21 : Allows K .clus) (a22 : Allows K .chans) (a23 : Allows K (.one .plan)) (a24 : Allows K (.one .snd)) (a25 : Allows K (.one .cwy)) : Evolves K x t := by
  simp only [execVinPowerUp, Host.Outcome.next.injEq] at e
  subst e
  have h := Evolves.refl K x
  repeat' (first | with_reducible refine fun _ => ?_ | with_reducible (first | exact h | apply State.powerUp_changes))
  all_goals (with_reducible first | assumption | exact a3.dramOf | exact a4.regOfAll | exact a4.pairOfAll | exact a4.chRegOfAll | exact a4.chPairOfAll | exact a4.cluRegOfAll | exact a4.cluPairOfAll | exact a4.regsOfAll | exact a19.seqOf | exact a20.laneOf | exact a21.cluOf | exact a22.chanOf)

theorem execClampExit_changes {K : List Foot} {x t : State} (ch) (cycle) (e : execClampExit ch cycle x = .next t) (a0 : Allows K (.one (.chan ↑ch))) (a1 : Allows K (.one (.reg (chOff (↑ch) Reg.pmuStatus)))) : Evolves K x t := by
  simp only [execClampExit, Host.Outcome.next.injEq] at e
  subst e
  have h := Evolves.refl K x
  repeat' (first | with_reducible refine fun _ => ?_ | with_reducible (first | exact h | apply State.clampOut_changes))
  all_goals (with_reducible first | assumption)

theorem execTimerExpire_changes {K : List Foot} {x t : State} (q) (e : execTimerExpire q x = .next t) (a0 : Allows K (.one (.seq ↑q))) : Evolves K x t := by
  simp only [execTimerExpire, Host.Outcome.next.injEq] at e
  subst e
  have h := Evolves.refl K x
  repeat' (first | with_reducible refine fun _ => ?_ | with_reducible (first | exact h | apply State.timerExpire_changes))
  all_goals (with_reducible first | assumption)

theorem execSound_changes {K : List Foot} {x t : State} (e : execSound x = .next t) (a0 : Allows K .completion) (a1 : Allows K (.pair Reg.sndFlags)) (a2 : Allows K (.one .snd)) (a3 : Allows K (.one (.reg Reg.sndStatus))) (a4 : Allows K (.chReg Reg.tiaLine)) (a5 : Allows K .chans) (a6 : Allows K (.one (.reg Reg.memRetWakes))) (a7 : Allows K (.one (.reg Reg.memRetState))) (a8 : Allows K (.one .cal)) (a9 : Allows K (.pair Reg.calFlags)) : Evolves K x t := by
  simp only [execSound, Host.Outcome.next.injEq] at e
  subst e
  have h := Evolves.refl K x
  repeat' (first | with_reducible refine fun _ => ?_ | with_reducible (first | exact h | apply State.cmdSound_changes))
  all_goals (with_reducible first | assumption | exact a0.vectorOfCompletion | exact a0.ringsOfCompletion | exact a0.hostMemOfCompletion | exact a0.vectorsOfCompletion | exact a0.cplTailOfCompletion | exact a0.cplDropOfCompletion | exact a1.fst | exact a1.snd | exact a4.ofCh (by decide) | exact a5.chanOf | exact a9.fst | exact a9.snd)

theorem execPfwColdStart_changes {K : List Foot} {x t : State} (e : execPfwColdStart x = .next t) (a0 : Allows K (.one .boot)) (a1 : Allows K (.one .clk)) (a2 : Allows K (.one .flashPort)) (a3 : Allows K .drams) (a4 : Allows K .allRegs) (a5 : Allows K (.one .shadows)) (a6 : Allows K (.one .evr)) (a7 : Allows K (.one .rings)) (a8 : Allows K (.one .hostMem)) (a9 : Allows K (.one .msix)) (a10 : Allows K (.one .vectors)) (a11 : Allows K (.one .reads)) (a12 : Allows K (.one .macros)) (a13 : Allows K (.one .march)) (a14 : Allows K (.one .refills)) (a15 : Allows K (.one .timing)) (a16 : Allows K .failCnts) (a17 : Allows K (.one .cal)) (a18 : Allows K (.one .pwr)) (a19 : Allows K .seqs) (a20 : Allows K .lanes) (a21 : Allows K .clus) (a22 : Allows K .chans) (a23 : Allows K (.one .plan)) (a24 : Allows K (.one .snd)) (a25 : Allows K (.one .cwy)) : Evolves K x t := by
  simp only [execPfwColdStart, Host.Outcome.next.injEq] at e
  subst e
  have h := Evolves.refl K x
  repeat' (first | with_reducible refine fun _ => ?_ | with_reducible (first | exact h | apply State.pfwCold_changes))
  all_goals (with_reducible first | assumption | exact a3.dramOf | exact a4.regOfAll | exact a4.pairOfAll | exact a4.chRegOfAll | exact a4.chPairOfAll | exact a4.cluRegOfAll | exact a4.cluPairOfAll | exact a4.regsOfAll | exact a19.seqOf | exact a20.laneOf | exact a21.cluOf | exact a22.chanOf)

theorem execReadClear_changes {K : List Foot} {x t : State} (off) (incNow) (read) (e : execReadClear off ⟨incNow, read⟩ x = .next t) (a0 : Allows K .hostError) (a1 : Allows K (.one (.reg off.toNat))) (a2 : Allows K (.one (.reg (off.toNat - 4)))) (a3 : Allows K (.one .shadows)) (a4 : Allows K (.one (.reg Reg.memEccCnt))) (a5 : Allows K (.one (.reg (Reg.flSiteStatus + 16 * ((off.toNat - 12582912) / 16384))))) (a6 : Allows K .failCnts) (a7 : Allows K .events) (a8 : Allows K (.one (.reg Reg.memEccAddr))) (a9 : Allows K (.pair Reg.memFlags)) : Evolves K x t := by
  simp only [execReadClear, Host.Outcome.next.injEq] at e
  subst e
  have h := Evolves.refl K x
  repeat' (first | with_reducible refine fun _ => ?_ | with_reducible (first | exact h | apply State.busRead_changes))
  all_goals (with_reducible first | assumption | exact a0.hstFlagsOfError | exact a0.readsOfError | exact a0.badAddrOfError | exact a7.vectorOfEvents | exact a7.logOfEvents | exact a7.evrPairOfEvents | exact a7.evrOfEvents | exact a7.vectorsOfEvents | exact a7.evrStatusOfEvents | exact a7.evrDropOfEvents | exact a7.evrCommitOfEvents | exact a7.evrLogOfEvents | exact a7.evrLogBseqOfEvents | exact a9.fst | exact a9.snd)

theorem execCwmsg_changes {K : List Foot} {x t : State} (q) (ecc) (e : execCwmsg q ecc x = .next t) (a0 : Allows K (.one (.reg (seqOff (↑q) Reg.seqFault)))) (a1 : Allows K .events) (a2 : Allows K (.one (.reg Reg.memEccAddr))) (a3 : Allows K (.pair Reg.memFlags)) (a4 : Allows K (.one (.reg Reg.memEccCnt))) (a5 : Allows K (.one (.reg (seqOff (↑q) Reg.seqEccCnt)))) (a6 : Allows K (.pair (seqOff (↑q) Reg.seqFlags))) (a7 : Allows K .seqs) (a8 : Allows K (.one .plan)) (a9 : Allows K .lanes) (a10 : Allows K (.one (.reg Reg.plnState))) (a11 : Allows K (.one .cwy)) (a12 : Allows K (.regs Reg.flSiteFail (Reg.flSiteFail + 1024))) (a13 : Allows K (.regs Reg.flFirst (Reg.flFirst + 2048))) (a14 : Allows K (.one (.clu ↑q))) (a15 : Allows K (.pair (cluOff (↑q) Reg.plnFlags))) (a16 : Allows K (.one (.reg (cluOff (↑q) Reg.ddsStatus)))) (a17 : Allows K (.one .freeCtr)) (a18 : Allows K (.chRegs Reg.tgScrStgLo (Reg.tgScrStgLo + 8))) : Evolves K x t := by
  simp only [execCwmsg, Host.Outcome.next.injEq] at e
  subst e
  have h := Evolves.refl K x
  repeat' (first | with_reducible refine fun _ => ?_ | with_reducible (first | exact h | apply State.run1_changes))
  all_goals (with_reducible first | assumption | exact a1.vectorOfEvents | exact a1.logOfEvents | exact a1.evrPairOfEvents | exact a1.evrOfEvents | exact a1.vectorsOfEvents | exact a1.evrStatusOfEvents | exact a1.evrDropOfEvents | exact a1.evrCommitOfEvents | exact a1.evrLogOfEvents | exact a1.evrLogBseqOfEvents | exact a3.fst | exact a3.snd | exact a6.fst | exact a6.snd | exact a7.seqOf | exact a9.laneOf | exact a12.inRegs (by decide) | exact a12.pairInRegs (by decide) | exact a12.regsInRegs (by decide) | exact a13.inRegs (by decide) | exact a13.pairInRegs (by decide) | exact a13.regsInRegs (by decide) | exact a15.fst | exact a15.snd | exact a18.regsCh (by decide) | exact a18.ofChRegs (by decide))

theorem execDdsEntryRead_changes {K : List Foot} {x t : State} (c) (v) (e : execDdsEntryRead c v x = .next t) (a0 : Allows K .hostError) (a1 : Allows K (.pair (cluOff (↑c) Reg.ddsData0))) (a2 : Allows K (.pair (cluOff (↑c) Reg.ddsFlags))) (a3 : Allows K (.one (.clu ↑c))) (a4 : Allows K (.one (.reg (cluOff (↑c) Reg.ddsAddr)))) (a5 : Allows K (.one .freeCtr)) : Evolves K x t := by
  simp only [execDdsEntryRead, Host.Outcome.next.injEq] at e
  subst e
  have h := Evolves.refl K x
  repeat' (first | with_reducible refine fun _ => ?_ | with_reducible (first | exact h | assumption | apply State.onWrite_changes | apply State.ddsAddrFree_changes))
  all_goals (with_reducible first | assumption | exact a0.hstFlagsOfError | exact a0.readsOfError | exact a0.badAddrOfError | exact a1.fst | exact a1.snd | exact a2.fst | exact a2.snd)

theorem execPortTrained_changes {K : List Foot} {x t : State} (p) (e : execPortTrained p x = .next t) (a0 : Allows K (.one (.reg Reg.cwyStatus))) : Evolves K x t := by
  simp only [execPortTrained, Host.Outcome.next.injEq] at e
  subst e
  have h := Evolves.refl K x
  repeat' (first | with_reducible refine fun _ => ?_ | with_reducible (first | exact h | apply State.portStep_changes))
  all_goals (with_reducible first | assumption)

theorem execIdentExchange_changes {K : List Foot} {x t : State} (p) (peer) (e : execIdentExchange p peer x = .next t) (a0 : Allows K (.pair (peerReg p))) (a1 : Allows K (.one .cwy)) (a2 : Allows K (.one (.reg Reg.cwyStatus))) (a3 : Allows K .events) (a4 : Allows K (.pair Reg.cwyFlags)) (a5 : Allows K (.one (.reg Reg.cwyRefuse))) : Evolves K x t := by
  simp only [execIdentExchange, Host.Outcome.next.injEq] at e
  subst e
  have h := Evolves.refl K x
  repeat' (first | with_reducible refine fun _ => ?_ | with_reducible (first | exact h | apply State.identExchange_changes))
  all_goals (with_reducible first | assumption | exact a0.fst | exact a0.snd | exact a3.vectorOfEvents | exact a3.logOfEvents | exact a3.evrPairOfEvents | exact a3.evrOfEvents | exact a3.vectorsOfEvents | exact a3.evrStatusOfEvents | exact a3.evrDropOfEvents | exact a3.evrCommitOfEvents | exact a3.evrLogOfEvents | exact a3.evrLogBseqOfEvents | exact a4.fst | exact a4.snd)

theorem execEvrSlotWord0Read_changes {K : List Foot} {x t : State} (slot) (e : execEvrSlotWord0Read slot x = .next t) (a0 : Allows K .hostError) (a1 : Allows K (.one (.reg (match slot with | some i => Reg.evrRing + 32 * ↑i | none => Reg.evrOpen)))) (a2 : Allows K (.one (.reg ((match slot with | some i => Reg.evrRing + 32 * ↑i | none => Reg.evrOpen) - 4)))) (a3 : Allows K (.one .shadows)) (a4 : Allows K (.one (.reg Reg.memEccCnt))) (a5 : Allows K (.one (.reg (Reg.flSiteStatus + 16 * (((match slot with | some i => Reg.evrRing + 32 * ↑i | none => Reg.evrOpen) - 12582912) / 16384))))) (a6 : Allows K .failCnts) (a7 : Allows K .events) (a8 : Allows K (.one (.reg Reg.memEccAddr))) (a9 : Allows K (.pair Reg.memFlags)) : Evolves K x t := by
  simp only [execEvrSlotWord0Read, Host.Outcome.next.injEq] at e
  subst e
  have h := Evolves.refl K x
  repeat' (first | with_reducible refine fun _ => ?_ | lift_lets | (with_reducible intro y; first | (refine Evolves.cut (K := K) (s := s) (y := y) ?_ ?_ <;> first | (clear_value y; with_reducible intro hy) | simp -zeta -zetaHave only [y]) | (simp -zeta -zetaHave only [y]; clear y) | (clear_value y; clear y)) | with_reducible (first | exact h | apply State.busRead_changes) | (split))
  all_goals (with_reducible first | assumption | exact a0.hstFlagsOfError | exact a0.readsOfError | exact a0.badAddrOfError | exact a7.vectorOfEvents | exact a7.logOfEvents | exact a7.evrPairOfEvents | exact a7.evrOfEvents | exact a7.vectorsOfEvents | exact a7.evrStatusOfEvents | exact a7.evrDropOfEvents | exact a7.evrCommitOfEvents | exact a7.evrLogOfEvents | exact a7.evrLogBseqOfEvents | exact a9.fst | exact a9.snd)

theorem execSensorRead_changes {K : List Foot} {x t : State} (readings) (supplies) (e : execSensorRead readings supplies x = .next t) (a0 : Allows K (.one (.reg Reg.pwrStatus))) (a1 : Allows K (.one (.reg Reg.pwrVio))) (a2 : Allows K (.one (.reg Reg.pwrVpl))) (a3 : Allows K (.one (.reg Reg.pwrVph))) (a4 : Allows K (.one (.reg Reg.pwrVin))) (a5 : Allows K (.one (.reg Reg.pwrTempMax))) (a6 : Allows K (.chReg Reg.tiaLine)) (a7 : Allows K .chans) (a8 : Allows K (.one .snd)) (a9 : Allows K .events) (a10 : Allows K (.pair Reg.pwrFlags)) (a11 : Allows K (.one .pwr)) (a12 : Allows K (.regs Reg.pwrTs (Reg.pwrTs + 256))) : Evolves K x t := by
  simp only [execSensorRead, Host.Outcome.next.injEq] at e
  subst e
  have h := Evolves.refl K x
  repeat' (first | with_reducible refine fun _ => ?_ | with_reducible (first | exact h | apply State.sensorRead_changes))
  all_goals (with_reducible first | assumption | exact a6.ofCh (by decide) | exact a7.chanOf | exact a9.vectorOfEvents | exact a9.logOfEvents | exact a9.evrPairOfEvents | exact a9.evrOfEvents | exact a9.vectorsOfEvents | exact a9.evrStatusOfEvents | exact a9.evrDropOfEvents | exact a9.evrCommitOfEvents | exact a9.evrLogOfEvents | exact a9.evrLogBseqOfEvents | exact a10.fst | exact a10.snd | exact a12.inRegs (by decide) | exact a12.pairInRegs (by decide) | exact a12.regsInRegs (by decide))

theorem execSndStart_changes {K : List Foot} {x t : State} (e : execSndStart x = .next t) (a0 : Allows K .hostError) (a1 : Allows K (.pair Reg.sndFlags)) (a2 : Allows K (.one .snd)) (a3 : Allows K (.one (.reg Reg.sndStatus))) (a4 : Allows K (.chReg Reg.tiaLine)) (a5 : Allows K .chans) (a6 : Allows K (.one (.reg Reg.memRetWakes))) (a7 : Allows K (.one (.reg Reg.memRetState))) (a8 : Allows K (.one .cal)) (a9 : Allows K (.pair Reg.calFlags)) : Evolves K x t := by
  simp only [execSndStart, Host.Outcome.next.injEq] at e
  subst e
  have h := Evolves.refl K x
  repeat' (first | with_reducible refine fun _ => ?_ | with_reducible (first | exact h | apply State.onWrite_changes | apply State.hostRequest_changes))
  all_goals (with_reducible first | assumption | exact a0.hstFlagsOfError | exact a0.readsOfError | exact a0.badAddrOfError | exact a1.fst | exact a1.snd | exact a4.ofCh (by decide) | exact a5.chanOf | exact a9.fst | exact a9.snd)

theorem execMarchWindow_changes {K : List Foot} {x t : State} (fails) (read) (row) (e : execMarchWindow ⟨fails, read, row⟩ x = .next t) (a0 : Allows K .completion) (a1 : Allows K .events) (a2 : Allows K (.one (.reg Reg.memStatus))) (a3 : Allows K (.one .march)) (a4 : Allows K (.one (.reg Reg.memMarchProg))) (a5 : Allows K (.pair Reg.memFlags)) (a6 : Allows K (.one (.reg Reg.memRepair))) (a7 : Allows K (.one .macros)) (a8 : Allows K (.one (.reg Reg.memOosDev))) (a9 : Allows K (.one (.reg Reg.memOos))) (a10 : Allows K (.one (.reg Reg.memLoss))) (a11 : Allows K (.one (.reg Reg.memEccCnt))) (a12 : Allows K (.one (.reg Reg.memEccAddr))) (a13 : Allows K (.one (.clu ((fails.macroNo - 520) / 16)))) (a14 : Allows K (.one .timing)) (a15 : Allows K .failCnts) (a16 : Allows K (.one (.lane (fails.macroNo - 1057)))) (a17 : Allows K (.one (.reg (cluOff (fails.macroNo - 1057) Reg.plnSluicePos)))) (a18 : Allows K (.one (.reg (cluOff (fails.macroNo - 1057) Reg.plnSluice)))) (a19 : Allows K (.chReg Reg.tgScrStgHi)) (a20 : Allows K (.chReg Reg.tgScrStgLo)) (a21 : Allows K (.chReg Reg.tgScrActHi)) (a22 : Allows K (.chReg Reg.tgScrActLo)) : Evolves K x t := by
  simp only [execMarchWindow, Host.Outcome.next.injEq] at e
  subst e
  have h := Evolves.refl K x
  repeat' (first | with_reducible refine fun _ => ?_ | with_reducible (first | exact h | apply State.marchWindow_changes))
  all_goals (with_reducible first | assumption | exact a0.vectorOfCompletion | exact a0.ringsOfCompletion | exact a0.hostMemOfCompletion | exact a0.vectorsOfCompletion | exact a0.cplTailOfCompletion | exact a0.cplDropOfCompletion | exact a1.vectorOfEvents | exact a1.logOfEvents | exact a1.evrPairOfEvents | exact a1.evrOfEvents | exact a1.vectorsOfEvents | exact a1.evrStatusOfEvents | exact a1.evrDropOfEvents | exact a1.evrCommitOfEvents | exact a1.evrLogOfEvents | exact a1.evrLogBseqOfEvents | exact a5.fst | exact a5.snd | exact a19.ofCh (by decide) | exact a20.ofCh (by decide) | exact a21.ofCh (by decide) | exact a22.ofCh (by decide))

theorem execCodeDensityStart_changes {K : List Foot} {x t : State} (ch) (v) (e : execCodeDensityStart ch v x = .next t) (a0 : Allows K .hostError) (a1 : Allows K (.pair (chOff (↑ch) Reg.tiaFlags))) (a2 : Allows K (.one (.reg (chOff (↑ch) Reg.tiaCdCtl)))) (a3 : Allows K (.chReg Reg.tiaLine)) (a4 : Allows K .chans) (a5 : Allows K (.one (.reg Reg.memRetWakes))) (a6 : Allows K (.one (.reg Reg.memRetState))) : Evolves K x t := by
  simp only [execCodeDensityStart, Host.Outcome.next.injEq] at e
  subst e
  have h := Evolves.refl K x
  repeat' (first | with_reducible refine fun _ => ?_ | with_reducible (first | exact h | assumption | apply State.onWrite_changes | apply State.densityWrite_changes))
  all_goals (with_reducible first | assumption | exact a0.hstFlagsOfError | exact a0.readsOfError | exact a0.badAddrOfError | exact a1.fst | exact a1.snd | exact a3.ofCh (by decide) | exact a4.chanOf)

theorem execRegisterWrite_changes {K : List Foot} {x t : State} (off) (v) (e : execRegisterWrite off v x = .next t) (a0 : Allows K .hostError) (a1 : Allows K (.one (.reg Reg.memCollide))) (a2 : Allows K .failCnts) (a3 : Allows K (.cluPair Reg.flFlags)) (a4 : Allows K .events) (a5 : Allows K (.one (.reg Reg.memEccAddr))) (a6 : Allows K (.pair Reg.memFlags)) (a7 : Allows K (.one (.reg Reg.memEccCnt))) (a8 : Allows K (.one .plan)) (a9 : Allows K .drams) (a10 : Allows K (.cluReg Reg.flRecWr)) (a11 : Allows K .lanes) (a12 : Allows K (.cluReg Reg.flRecLost)) (a13 : Allows K (.regs Reg.flSiteFail (Reg.flSiteFail + 1024))) (a14 : Allows K (.regs Reg.flFirst (Reg.flFirst + 2048))) (a15 : Allows K (.pair Reg.clkFlags)) (a16 : Allows K (.one (.reg Reg.clkEppPeriod))) (a17 : Allows K (.one (.reg Reg.clkEppWidth))) (a18 : Allows K (.one (.reg Reg.clkEppOffset))) (a19 : Allows K (.one (.reg Reg.hstCplTail))) (a20 : Allows K (.one (.reg Reg.hstCplHead))) (a21 : Allows K (.one (.reg Reg.hstCmdHead))) (a22 : Allows K (.one (.reg Reg.hstCmdTail))) (a23 : Allows K (.one (.reg Reg.hstStatus))) (a24 : Allows K (.one (.reg Reg.hstRingCtl))) (a25 : Allows K (.one (.reg off.toNat))) (a26 : Allows K (.one .msix)) (a27 : Allows K (.one .cwy)) (a28 : Allows K (.pair Reg.cwyFlags)) (a29 : Allows K .completion) (a30 : Allows K (.one (.reg Reg.calScope))) (a31 : Allows K (.one (.reg Reg.calTime))) (a32 : Allows K (.one (.reg Reg.calStatus))) (a33 : Allows K (.one .cal)) (a34 : Allows K (.chReg Reg.pmuStatus)) (a35 : Allows K .chans) (a36 : Allows K (.chReg Reg.peStatus)) (a37 : Allows K (.chReg Reg.tiaStatus)) (a38 : Allows K (.chReg Reg.tiaDiscard)) (a39 : Allows K (.chPair Reg.tiaMaxLo)) (a40 : Allows K (.chPair Reg.tiaMinLo)) (a41 : Allows K (.chPair Reg.tiaSdevLo)) (a42 : Allows K (.chPair Reg.tiaMeanLo)) (a43 : Allows K (.chReg Reg.tiaCount)) (a44 : Allows K (.chPair Reg.tiaLastLo)) (a45 : Allows K (.chReg Reg.tiaSkip)) (a46 : Allows K .clus) (a47 : Allows K (.chReg Reg.tiaFcnt)) (a48 : Allows K (.chReg Reg.tiaCdCtl)) (a49 : Allows K (.one .freeCtr)) (a50 : Allows K (.pair Reg.sndFlags)) (a51 : Allows K (.one .snd)) (a52 : Allows K (.one (.reg Reg.sndStatus))) (a53 : Allows K (.chReg Reg.tiaLine)) (a54 : Allows K (.one (.reg Reg.memRetWakes))) (a55 : Allows K (.one (.reg Reg.memRetState))) (a56 : Allows K (.pair Reg.calFlags)) (a57 : Allows K (.pair Reg.sndMaskLo)) (a58 : Allows K (.one (.reg Reg.flSiteMaskLo))) (a59 : Allows K (.one (.reg Reg.flSiteMaskHi))) (a60 : Allows K (.pair Reg.flDevFlags)) (a61 : Allows K (.one (.reg (flOff FlReg.bmpEnLo)))) (a62 : Allows K (.one (.reg (flOff FlReg.bmpEnHi)))) (a63 : Allows K (.one (.reg (flOff FlReg.geom)))) (a64 : Allows K (.one (.reg (flOff FlReg.recSize)))) (a65 : Allows K (.one (.reg (flOff FlReg.rcLimit)))) (a66 : Allows K (.one (.reg Reg.flClear))) (a67 : Allows K (.one (.reg (cluOff ((off.toNat - 8388608) / 131072) ((off.toNat - 8388608) % 131072))))) (a68 : Allows K (.pair (cluOff ((off.toNat - 8388608) / 131072) Reg.peClFlags))) (a69 : Allows K (.one (.reg (cluOff ((off.toNat - 8388608) / 131072) Reg.peMonCtl)))) (a70 : Allows K (.one (.reg (cluOff ((off.toNat - 8388608) / 131072) Reg.peMonMismatch)))) (a71 : Allows K (.pair (cluOff ((off.toNat - 8388608) / 131072) Reg.plnFlags))) (a72 : Allows K (.one (.reg (cluOff ((off.toNat - 8388608) / 131072) Reg.plnSluicePos)))) (a73 : Allows K (.one (.reg (cluOff ((off.toNat - 8388608) / 131072) Reg.plnSluice)))) (a74 : Allows K (.one (.reg (cluOff ((off.toNat - 8388608) / 131072) Reg.plnSluiceSize)))) (a75 : Allows K (.one (.reg (cluOff ((off.toNat - 8388608) / 131072) Reg.plnSluiceBase)))) (a76 : Allows K (.pair (cluOff ((off.toNat - 8388608) / 131072) Reg.acqFlags))) (a77 : Allows K (.one (.reg (cluOff ((off.toNat - 8388608) / 131072) Reg.acqStatus)))) (a78 : Allows K (.one (.reg (cluOff ((off.toNat - 8388608) / 131072) Reg.acqFrameCnt)))) (a79 : Allows K (.one (.reg (cluOff ((off.toNat - 8388608) / 131072) Reg.acqDrop)))) (a80 : Allows K (.one (.reg (cluOff ((off.toNat - 8388608) / 131072) Reg.acqGapLen)))) (a81 : Allows K (.one (.reg (cluOff ((off.toNat - 8388608) / 131072) Reg.acqGapCnt)))) (a82 : Allows K (.one (.reg (cluOff ((off.toNat - 8388608) / 131072) Reg.acqMissed)))) (a83 : Allows K (.one (.reg (cluOff ((off.toNat - 8388608) / 131072) Reg.acqSpillRd)))) (a84 : Allows K (.one (.reg (cluOff ((off.toNat - 8388608) / 131072) Reg.acqSpillWr)))) (a85 : Allows K (.one (.reg (cluOff ((off.toNat - 8388608) / 131072) (Reg.acqSpillBase))))) (a86 : Allows K (.one (.reg (cluOff ((off.toNat - 8388608) / 131072) (Reg.acqSpillSize))))) (a87 : Allows K (.pair (cluOff ((off.toNat - 8388608) / 131072) Reg.ddsData0))) (a88 : Allows K (.pair (cluOff ((off.toNat - 8388608) / 131072) Reg.ddsFlags))) (a89 : Allows K (.one (.reg (cluOff ((off.toNat - 8388608) / 131072) Reg.ddsAddr)))) (a90 : Allows K (.one (.reg (chOff (chanAt off.toNat) ((off.toNat - 8388608) % 131072 % 4096))))) (a91 : Allows K (.pair (chOff (chanAt off.toNat) Reg.peFlags))) (a92 : Allows K (.pair (chOff (chanAt off.toNat) Reg.pmuFlags))) (a93 : Allows K (.pair (chOff (chanAt off.toNat) Reg.tiaFlags))) (a94 : Allows K (.one (.reg (chOff (chanAt off.toNat) Reg.tiaTimeout)))) (a95 : Allows K (.one (.reg (chOff (chanAt off.toNat) Reg.tiaCfg)))) (a96 : Allows K (.one (.reg (chOff (chanAt off.toNat) Reg.tiaGate)))) (a97 : Allows K (.one (.reg (chOff (chanAt off.toNat) Reg.tiaN)))) (a98 : Allows K (.one (.reg Reg.bootSealedWrAddr))) (a99 : Allows K (.one (.reg Reg.bootSealedWrCnt))) : Evolves K x t := by
  simp only [execRegisterWrite, Host.Outcome.next.injEq] at e
  subst e
  have h := Evolves.refl K x
  repeat' (first | with_reducible refine fun _ => ?_ | with_reducible (first | exact h | apply State.hostWrite_changes))
  all_goals (with_reducible first | assumption | exact a0.hstFlagsOfError | exact a0.readsOfError | exact a0.badAddrOfError | exact a3.pairClu (by decide) | exact a3.cluFst | exact a3.cluSnd | exact a3.cluFst.ofClu (by decide) | exact a3.cluSnd.ofClu (by decide) | exact a4.vectorOfEvents | exact a4.logOfEvents | exact a4.evrPairOfEvents | exact a4.evrOfEvents | exact a4.vectorsOfEvents | exact a4.evrStatusOfEvents | exact a4.evrDropOfEvents | exact a4.evrCommitOfEvents | exact a4.evrLogOfEvents | exact a4.evrLogBseqOfEvents | exact a6.fst | exact a6.snd | exact a9.dramOf | exact a10.ofClu (by decide) | exact a11.laneOf | exact a12.ofClu (by decide) | exact a13.inRegs (by decide) | exact a13.pairInRegs (by decide) | exact a13.regsInRegs (by decide) | exact a14.inRegs (by decide) | exact a14.pairInRegs (by decide) | exact a14.regsInRegs (by decide) | exact a15.fst | exact a15.snd | exact a28.fst | exact a28.snd | exact a29.vectorOfCompletion | exact a29.ringsOfCompletion | exact a29.hostMemOfCompletion | exact a29.vectorsOfCompletion | exact a29.cplTailOfCompletion | exact a29.cplDropOfCompletion | exact a34.ofCh (by decide) | exact a35.chanOf | exact a36.ofCh (by decide) | exact a37.ofCh (by decide) | exact a38.ofCh (by decide) | exact a39.pairCh (by decide) | exact a39.chFst | exact a39.chSnd | exact a39.chFst.ofCh (by decide) | exact a39.chSnd.ofCh (by decide) | exact a40.pairCh (by decide) | exact a40.chFst | exact a40.chSnd | exact a40.chFst.ofCh (by decide) | exact a40.chSnd.ofCh (by decide) | exact a41.pairCh (by decide) | exact a41.chFst | exact a41.chSnd | exact a41.chFst.ofCh (by decide) | exact a41.chSnd.ofCh (by decide) | exact a42.pairCh (by decide) | exact a42.chFst | exact a42.chSnd | exact a42.chFst.ofCh (by decide) | exact a42.chSnd.ofCh (by decide) | exact a43.ofCh (by decide) | exact a44.pairCh (by decide) | exact a44.chFst | exact a44.chSnd | exact a44.chFst.ofCh (by decide) | exact a44.chSnd.ofCh (by decide) | exact a45.ofCh (by decide) | exact a46.cluOf | exact a47.ofCh (by decide) | exact a48.ofCh (by decide) | exact a50.fst | exact a50.snd | exact a53.ofCh (by decide) | exact a56.fst | exact a56.snd | exact a57.fst | exact a57.snd | exact a60.fst | exact a60.snd | exact a68.fst | exact a68.snd | exact a71.fst | exact a71.snd | exact a76.fst | exact a76.snd | exact a87.fst | exact a87.snd | exact a88.fst | exact a88.snd | exact a91.fst | exact a91.snd | exact a92.fst | exact a92.snd | exact a93.fst | exact a93.snd)

theorem execSetreg_changes {K : List Foot} {x t : State} (q) (ecc) (e : execSetreg q ecc x = .next t) (a0 : Allows K (.one (.reg (seqOff (↑q) Reg.seqFault)))) (a1 : Allows K .events) (a2 : Allows K (.one (.reg Reg.memEccAddr))) (a3 : Allows K (.pair Reg.memFlags)) (a4 : Allows K (.one (.reg Reg.memEccCnt))) (a5 : Allows K (.one (.reg (seqOff (↑q) Reg.seqEccCnt)))) (a6 : Allows K (.pair (seqOff (↑q) Reg.seqFlags))) (a7 : Allows K .seqs) (a8 : Allows K (.one .plan)) (a9 : Allows K .lanes) (a10 : Allows K (.one (.reg Reg.plnState))) (a11 : Allows K (.one .cwy)) (a12 : Allows K (.regs Reg.flSiteFail (Reg.flSiteFail + 1024))) (a13 : Allows K (.regs Reg.flFirst (Reg.flFirst + 2048))) (a14 : Allows K (.one (.clu ↑q))) (a15 : Allows K (.pair (cluOff (↑q) Reg.plnFlags))) (a16 : Allows K (.one (.reg (cluOff (↑q) Reg.ddsStatus)))) (a17 : Allows K (.one .freeCtr)) (a18 : Allows K (.chRegs Reg.tgScrStgLo (Reg.tgScrStgLo + 8))) : Evolves K x t := by
  simp only [execSetreg, Host.Outcome.next.injEq] at e
  subst e
  have h := Evolves.refl K x
  repeat' (first | with_reducible refine fun _ => ?_ | with_reducible (first | exact h | apply State.run1_changes))
  all_goals (with_reducible first | assumption | exact a1.vectorOfEvents | exact a1.logOfEvents | exact a1.evrPairOfEvents | exact a1.evrOfEvents | exact a1.vectorsOfEvents | exact a1.evrStatusOfEvents | exact a1.evrDropOfEvents | exact a1.evrCommitOfEvents | exact a1.evrLogOfEvents | exact a1.evrLogBseqOfEvents | exact a3.fst | exact a3.snd | exact a6.fst | exact a6.snd | exact a7.seqOf | exact a9.laneOf | exact a12.inRegs (by decide) | exact a12.pairInRegs (by decide) | exact a12.regsInRegs (by decide) | exact a13.inRegs (by decide) | exact a13.pairInRegs (by decide) | exact a13.regsInRegs (by decide) | exact a15.fst | exact a15.snd | exact a18.regsCh (by decide) | exact a18.ofChRegs (by decide))

theorem execLineUnlock_changes {K : List Foot} {x t : State} (ch) (line) (e : execLineUnlock ch line x = .next t) (a0 : Allows K (.one (.reg (chOff (↑ch) Reg.tiaLine)))) (a1 : Allows K .chans) (a2 : Allows K (.one .snd)) (a3 : Allows K .events) (a4 : Allows K (.pair (chOff (↑ch) Reg.tiaFlags))) : Evolves K x t := by
  simp only [execLineUnlock, Host.Outcome.next.injEq] at e
  subst e
  have h := Evolves.refl K x
  repeat' (first | with_reducible refine fun _ => ?_ | with_reducible (first | exact h | apply State.lineFails_changes))
  all_goals (with_reducible first | assumption | exact a1.chanOf | exact a3.vectorOfEvents | exact a3.logOfEvents | exact a3.evrPairOfEvents | exact a3.evrOfEvents | exact a3.vectorsOfEvents | exact a3.evrStatusOfEvents | exact a3.evrDropOfEvents | exact a3.evrCommitOfEvents | exact a3.evrLogOfEvents | exact a3.evrLogBseqOfEvents | exact a4.fst | exact a4.snd)

theorem execLaneStart_changes {K : List Foot} {x t : State} (c) (cycle) (e : execLaneStart c cycle x = .next t) (a0 : Allows K (.one (.lane ↑c))) (a1 : Allows K (.one (.seq ↑c))) (a2 : Allows K (.one (.clu ↑c))) (a3 : Allows K (.one (.reg (cluOff (↑c) Reg.ddsStatus)))) (a4 : Allows K .chans) (a5 : Allows K (.chReg Reg.tgQueue)) (a6 : Allows K (.chReg Reg.flChFail)) (a7 : Allows K (.chReg Reg.tgScrActLo)) (a8 : Allows K (.chReg Reg.tgScrActHi)) (a9 : Allows K (.chReg Reg.tgScrStgLo)) (a10 : Allows K (.chReg Reg.tgScrStgHi)) (a11 : Allows K (.one (.reg (cluOff (↑c) Reg.plnGapCnt)))) (a12 : Allows K (.one (.reg (cluOff (↑c) Reg.plnGapFirstLo)))) (a13 : Allows K (.one (.reg (cluOff (↑c) Reg.plnGapFirstHi)))) (a14 : Allows K (.one (.reg (cluOff (↑c) Reg.plnGapLenLo)))) (a15 : Allows K (.one (.reg (cluOff (↑c) Reg.plnGapLenHi)))) (a16 : Allows K (.one (.reg (cluOff (↑c) Reg.flRecWr)))) (a17 : Allows K (.one (.reg (cluOff (↑c) Reg.flRecLost)))) (a18 : Allows K (.one (.reg (cluOff (↑c) Reg.flQueue)))) (a19 : Allows K (.one (.reg (cluOff (↑c) Reg.ddsMarkCnt)))) (a20 : Allows K (.one (.reg (cluOff (↑c) Reg.ddsGranLo)))) (a21 : Allows K (.one (.reg (cluOff (↑c) Reg.ddsGranHi)))) : Evolves K x t := by
  simp only [execLaneStart, Host.Outcome.next.injEq] at e
  subst e
  have h := Evolves.refl K x
  repeat' (first | with_reducible refine fun _ => ?_ | with_reducible (first | exact h | apply State.laneStart_changes))
  all_goals (with_reducible first | assumption | exact a4.chanOf | exact a5.ofCh (by decide) | exact a6.ofCh (by decide) | exact a7.ofCh (by decide) | exact a8.ofCh (by decide) | exact a9.ofCh (by decide) | exact a10.ofCh (by decide))

theorem execVectorIssue_changes {K : List Foot} {x t : State} (c) (ecc) (e : execVectorIssue c ecc x = .next t) (a0 : Allows K .seqs) (a1 : Allows K (.one .plan)) (a2 : Allows K .lanes) (a3 : Allows K (.one (.reg Reg.plnState))) (a4 : Allows K .events) (a5 : Allows K (.one (.reg Reg.memEccAddr))) (a6 : Allows K (.pair Reg.memFlags)) (a7 : Allows K (.one (.reg (cluOff (↑c) Reg.ddsStatus)))) (a8 : Allows K (.chReg Reg.peWmon)) (a9 : Allows K (.chReg Reg.pmuWmon)) (a10 : Allows K (.chPair Reg.tgFlags)) (a11 : Allows K (.pair (cluOff (↑c) Reg.plnGapLenLo))) (a12 : Allows K (.pair (cluOff (↑c) Reg.plnFlags))) (a13 : Allows K (.one (.reg (cluOff (↑c) Reg.plnGapCnt)))) (a14 : Allows K (.pair (cluOff (↑c) Reg.plnGapFirstLo))) (a15 : Allows K (.chReg Reg.tgScrActHi)) (a16 : Allows K (.chReg Reg.tgScrActLo)) (a17 : Allows K (.chPair Reg.tgCkmPeriodHi)) (a18 : Allows K (.chReg Reg.peStatus)) (a19 : Allows K .chans) (a20 : Allows K (.one (.reg Reg.memEccCnt))) : Evolves K x t := by
  simp only [execVectorIssue, Host.Outcome.next.injEq] at e
  subst e
  have h := Evolves.refl K x
  repeat' (first | with_reducible refine fun _ => ?_ | with_reducible (first | exact h | apply State.vectorIssue_changes))
  all_goals (with_reducible first | assumption | exact a0.seqOf | exact a2.laneOf | exact a4.vectorOfEvents | exact a4.logOfEvents | exact a4.evrPairOfEvents | exact a4.evrOfEvents | exact a4.vectorsOfEvents | exact a4.evrStatusOfEvents | exact a4.evrDropOfEvents | exact a4.evrCommitOfEvents | exact a4.evrLogOfEvents | exact a4.evrLogBseqOfEvents | exact a6.fst | exact a6.snd | exact a8.ofCh (by decide) | exact a9.ofCh (by decide) | exact a10.pairCh (by decide) | exact a10.chFst | exact a10.chSnd | exact a10.chFst.ofCh (by decide) | exact a10.chSnd.ofCh (by decide) | exact a11.fst | exact a11.snd | exact a12.fst | exact a12.snd | exact a14.fst | exact a14.snd | exact a15.ofCh (by decide) | exact a16.ofCh (by decide) | exact a17.pairCh (by decide) | exact a17.chFst | exact a17.chSnd | exact a17.chFst.ofCh (by decide) | exact a17.chSnd.ofCh (by decide) | exact a18.ofCh (by decide) | exact a19.chanOf)

theorem execPlanEnd_changes {K : List Foot} {x t : State} (e : execPlanEnd x = .next t) (a0 : Allows K .completion) (a1 : Allows K (.one .cwy)) (a2 : Allows K (.pair Reg.flSumIncLo)) (a3 : Allows K (.pair Reg.flSumUnrepLo)) (a4 : Allows K (.pair Reg.flSumFailLo)) (a5 : Allows K (.one (.reg Reg.plnState))) (a6 : Allows K (.one (.reg Reg.plnResult))) : Evolves K x t := by
  simp only [execPlanEnd, Host.Outcome.next.injEq] at e
  subst e
  have h := Evolves.refl K x
  repeat' (first | with_reducible refine fun _ => ?_ | with_reducible (first | exact h | apply State.planEnd_changes))
  all_goals (with_reducible first | assumption | exact a0.vectorOfCompletion | exact a0.ringsOfCompletion | exact a0.hostMemOfCompletion | exact a0.vectorsOfCompletion | exact a0.cplTailOfCompletion | exact a0.cplDropOfCompletion | exact a2.fst | exact a2.snd | exact a3.fst | exact a3.snd | exact a4.fst | exact a4.snd)

theorem execCwTrig_changes {K : List Foot} {x t : State} (p) (cell) (e : execCwTrig p cell x = .next t) (a0 : Allows K (.one .cwy)) (a1 : Allows K (.pair Reg.cwyFlags)) (a2 : Allows K .seqs) (a3 : Allows K (.one .plan)) (a4 : Allows K .clus) : Evolves K x t := by
  simp only [execCwTrig, Host.Outcome.next.injEq] at e
  subst e
  have h := Evolves.refl K x
  repeat' (first | with_reducible refine fun _ => ?_ | with_reducible (first | exact h | apply State.cwReceive_changes | apply State.setExt_changes))
  all_goals (with_reducible first | assumption | exact a1.fst | exact a1.snd | exact a2.seqOf | exact a4.cluOf)

theorem execAcqConfigWrite_changes {K : List Foot} {x t : State} (c) (off) (v) (e : execAcqConfigWrite c off v x = .next t) (a0 : Allows K .hostError) (a1 : Allows K (.pair (cluOff (↑c) Reg.acqFlags))) (a2 : Allows K (.one (.reg (cluOff (↑c) off.toNat)))) : Evolves K x t := by
  simp only [execAcqConfigWrite, Host.Outcome.next.injEq] at e
  subst e
  have h := Evolves.refl K x
  repeat' (first | with_reducible refine fun _ => ?_ | with_reducible (first | exact h | assumption | apply State.onWrite_changes | apply State.acqConfig_changes))
  all_goals (with_reducible first | assumption | exact a0.hstFlagsOfError | exact a0.readsOfError | exact a0.badAddrOfError | exact a1.fst | exact a1.snd)

theorem execLineAcquireTimeout_changes {K : List Foot} {x t : State} (ch) (line) (e : execLineAcquireTimeout ch line x = .next t) (a0 : Allows K (.one (.reg (chOff (↑ch) Reg.tiaLine)))) (a1 : Allows K .chans) (a2 : Allows K (.one .snd)) (a3 : Allows K .events) (a4 : Allows K (.pair (chOff (↑ch) Reg.tiaFlags))) : Evolves K x t := by
  simp only [execLineAcquireTimeout, Host.Outcome.next.injEq] at e
  subst e
  have h := Evolves.refl K x
  repeat' (first | with_reducible refine fun _ => ?_ | with_reducible (first | exact h | apply State.acquireTimeout_changes))
  all_goals (with_reducible first | assumption | exact a1.chanOf | exact a3.vectorOfEvents | exact a3.logOfEvents | exact a3.evrPairOfEvents | exact a3.evrOfEvents | exact a3.vectorsOfEvents | exact a3.evrStatusOfEvents | exact a3.evrDropOfEvents | exact a3.evrCommitOfEvents | exact a3.evrLogOfEvents | exact a3.evrLogBseqOfEvents | exact a4.fst | exact a4.snd)

theorem execEpoch_changes {K : List Foot} {x t : State} (e : execEpoch x = .next t) (a0 : Allows K .completion) (a1 : Allows K (.one .clk)) : Evolves K x t := by
  simp only [execEpoch, Host.Outcome.next.injEq] at e
  subst e
  have h := Evolves.refl K x
  repeat' (first | with_reducible refine fun _ => ?_ | with_reducible (first | exact h | apply State.cmdEpoch_changes))
  all_goals (with_reducible first | assumption | exact a0.vectorOfCompletion | exact a0.ringsOfCompletion | exact a0.hostMemOfCompletion | exact a0.vectorsOfCompletion | exact a0.cplTailOfCompletion | exact a0.cplDropOfCompletion)

theorem execContactJudge_changes {K : List Foot} {x t : State} (e : execContactJudge x = .next t) (a0 : Allows K .chans) (a1 : Allows K (.chReg Reg.pmuStatus)) (a2 : Allows K (.chReg Reg.peStatus)) (a3 : Allows K (.one (.reg Reg.sndStatus))) (a4 : Allows K (.one .snd)) (a5 : Allows K (.chReg Reg.tiaStatus)) (a6 : Allows K (.chReg Reg.tiaCount)) (a7 : Allows K (.chReg Reg.tiaSkip)) (a8 : Allows K (.chReg Reg.tiaDiscard)) (a9 : Allows K (.chReg Reg.tiaFcnt)) : Evolves K x t := by
  simp only [execContactJudge, Host.Outcome.next.injEq] at e
  subst e
  have h := Evolves.refl K x
  repeat' (first | with_reducible refine fun _ => ?_ | with_reducible (first | exact h | apply State.contactJudge_changes))
  all_goals (with_reducible first | assumption | exact a0.chanOf | exact a1.ofCh (by decide) | exact a2.ofCh (by decide) | exact a5.ofCh (by decide) | exact a6.ofCh (by decide) | exact a7.ofCh (by decide) | exact a8.ofCh (by decide) | exact a9.ofCh (by decide))

theorem execMarch_changes {K : List Foot} {x t : State} (e : execMarch x = .next t) (a0 : Allows K .completion) (a1 : Allows K .events) (a2 : Allows K (.one (.reg Reg.memStatus))) (a3 : Allows K (.one .march)) (a4 : Allows K (.one (.reg Reg.memMarchProg))) (a5 : Allows K (.chReg Reg.tiaLine)) (a6 : Allows K .chans) (a7 : Allows K (.one (.reg Reg.memRetWakes))) (a8 : Allows K (.one (.reg Reg.memRetState))) : Evolves K x t := by
  simp only [execMarch, Host.Outcome.next.injEq] at e
  subst e
  have h := Evolves.refl K x
  repeat' (first | with_reducible refine fun _ => ?_ | with_reducible (first | exact h | apply State.cmdMarch_changes))
  all_goals (with_reducible first | assumption | exact a0.vectorOfCompletion | exact a0.ringsOfCompletion | exact a0.hostMemOfCompletion | exact a0.vectorsOfCompletion | exact a0.cplTailOfCompletion | exact a0.cplDropOfCompletion | exact a1.vectorOfEvents | exact a1.logOfEvents | exact a1.evrPairOfEvents | exact a1.evrOfEvents | exact a1.vectorsOfEvents | exact a1.evrStatusOfEvents | exact a1.evrDropOfEvents | exact a1.evrCommitOfEvents | exact a1.evrLogOfEvents | exact a1.evrLogBseqOfEvents | exact a5.ofCh (by decide) | exact a6.chanOf)

theorem execTdNTouchdown_changes {K : List Foot} {x t : State} (e : execTdNTouchdown x = .next t) (a0 : Allows K .events) (a1 : Allows K (.one (.reg Reg.sndStatus))) (a2 : Allows K (.one .cal)) (a3 : Allows K (.pair Reg.calFlags)) (a4 : Allows K (.pair Reg.sndFlags)) (a5 : Allows K (.one .snd)) (a6 : Allows K (.chReg Reg.tiaLine)) (a7 : Allows K .chans) (a8 : Allows K (.one (.reg Reg.memRetWakes))) (a9 : Allows K (.one (.reg Reg.memRetState))) (a10 : Allows K (.one .cwy)) : Evolves K x t := by
  simp only [execTdNTouchdown, Host.Outcome.next.injEq] at e
  subst e
  have h := Evolves.refl K x
  repeat' (first | with_reducible refine fun _ => ?_ | with_reducible (first | exact h | apply State.tdTouch_changes))
  all_goals (with_reducible first | assumption | exact a0.vectorOfEvents | exact a0.logOfEvents | exact a0.evrPairOfEvents | exact a0.evrOfEvents | exact a0.vectorsOfEvents | exact a0.evrStatusOfEvents | exact a0.evrDropOfEvents | exact a0.evrCommitOfEvents | exact a0.evrLogOfEvents | exact a0.evrLogBseqOfEvents | exact a3.fst | exact a3.snd | exact a4.fst | exact a4.snd | exact a6.ofCh (by decide) | exact a7.chanOf)

theorem execRun_changes {K : List Foot} {x t : State} (e : execRun x = .next t) (a0 : Allows K .completion) (a1 : Allows K (.one (.reg Reg.plnResult))) (a2 : Allows K (.cluReg Reg.tgRefuse)) (a3 : Allows K (.one (.reg Reg.plnBw))) (a4 : Allows K .lanes) (a5 : Allows K (.one .refills)) (a6 : Allows K (.cluReg Reg.plnSluicePos)) (a7 : Allows K (.cluReg Reg.plnCache)) (a8 : Allows K .chans) (a9 : Allows K (.chReg Reg.tgScrSrc)) (a10 : Allows K (.chReg Reg.tgWin)) (a11 : Allows K (.cluPair Reg.tgScrmaskLo)) (a12 : Allows K (.cluPair Reg.tgSetmaskLo)) (a13 : Allows K (.one .timing)) (a14 : Allows K (.cluRegs Reg.tgPeriod (Reg.tgPeriod + 256))) (a15 : Allows K (.chRegs Reg.tgMode0 (Reg.tgMode0 + 64))) (a16 : Allows K .seqs) (a17 : Allows K (.cluReg Reg.seqIvec)) (a18 : Allows K (.cluReg Reg.seqSrcMask)) (a19 : Allows K (.chReg Reg.tiaLine)) (a20 : Allows K (.one (.reg Reg.memRetWakes))) (a21 : Allows K (.one (.reg Reg.memRetState))) (a22 : Allows K (.cluRegs Reg.seqRole0 (Reg.seqRole0 + 16))) (a23 : Allows K (.cluRegs Reg.seqXscr0 (Reg.seqXscr0 + 16))) (a24 : Allows K (.one .plan)) (a25 : Allows K (.one (.reg Reg.plnState))) : Evolves K x t := by
  simp only [execRun, Host.Outcome.next.injEq] at e
  subst e
  have h := Evolves.refl K x
  repeat' (first | with_reducible refine fun _ => ?_ | with_reducible (first | exact h | apply State.cmdRun_changes))
  all_goals (with_reducible first | assumption | exact a0.vectorOfCompletion | exact a0.ringsOfCompletion | exact a0.hostMemOfCompletion | exact a0.vectorsOfCompletion | exact a0.cplTailOfCompletion | exact a0.cplDropOfCompletion | exact a2.ofClu (by decide) | exact a4.laneOf | exact a6.ofClu (by decide) | exact a7.ofClu (by decide) | exact a8.chanOf | exact a9.ofCh (by decide) | exact a10.ofCh (by decide) | exact a11.pairClu (by decide) | exact a11.cluFst | exact a11.cluSnd | exact a11.cluFst.ofClu (by decide) | exact a11.cluSnd.ofClu (by decide) | exact a12.pairClu (by decide) | exact a12.cluFst | exact a12.cluSnd | exact a12.cluFst.ofClu (by decide) | exact a12.cluSnd.ofClu (by decide) | exact a14.regsClu (by decide) | exact a14.ofCluRegs (by decide) | exact a15.regsCh (by decide) | exact a15.ofChRegs (by decide) | exact a16.seqOf | exact a17.ofClu (by decide) | exact a18.ofClu (by decide) | exact a19.ofCh (by decide) | exact a22.regsClu (by decide) | exact a22.ofCluRegs (by decide) | exact a23.regsClu (by decide) | exact a23.ofCluRegs (by decide))

theorem execStage_changes {K : List Foot} {x t : State} (data) (e : execStage data x = .next t) (a0 : Allows K .completion) (a1 : Allows K (.pair Reg.plnSlotLo)) (a2 : Allows K (.one .plan)) (a3 : Allows K .drams) : Evolves K x t := by
  simp only [execStage, Host.Outcome.next.injEq] at e
  subst e
  have h := Evolves.refl K x
  repeat' (first | with_reducible refine fun _ => ?_ | with_reducible (first | exact h | apply State.cmdStage_changes))
  all_goals (with_reducible first | assumption | exact a0.vectorOfCompletion | exact a0.ringsOfCompletion | exact a0.hostMemOfCompletion | exact a0.vectorsOfCompletion | exact a0.cplTailOfCompletion | exact a0.cplDropOfCompletion | exact a1.fst | exact a1.snd | exact a3.dramOf)

theorem execStream_changes {K : List Foot} {x t : State} (e : execStream x = .next t) (a0 : Allows K .completion) : Evolves K x t := by
  simp only [execStream, Host.Outcome.next.injEq] at e
  subst e
  have h := Evolves.refl K x
  repeat' (first | with_reducible refine fun _ => ?_ | with_reducible (first | exact h | apply State.cmdStream_changes))
  all_goals (with_reducible first | assumption | exact a0.vectorOfCompletion | exact a0.ringsOfCompletion | exact a0.hostMemOfCompletion | exact a0.vectorsOfCompletion | exact a0.cplTailOfCompletion | exact a0.cplDropOfCompletion)

theorem execStrobeResultJudge_changes {K : List Foot} {x t : State} (c) (e : execStrobeResultJudge c x = .next t) (a0 : Allows K (.one (.lane ↑c))) (a1 : Allows K (.chReg Reg.flChLast)) (a2 : Allows K (.pair (cluOff (↑c) Reg.flFlags))) (a3 : Allows K (.one (.reg (cluOff (↑c) Reg.flRecLost)))) (a4 : Allows K (.one (.reg (cluOff (↑c) Reg.flQueue)))) (a5 : Allows K (.chReg Reg.flChFail)) (a6 : Allows K (.regs Reg.flSiteFail (Reg.flSiteFail + 1024))) (a7 : Allows K (.regs Reg.flFirst (Reg.flFirst + 2048))) : Evolves K x t := by
  simp only [execStrobeResultJudge, Host.Outcome.next.injEq] at e
  subst e
  have h := Evolves.refl K x
  repeat' (first | with_reducible refine fun _ => ?_ | with_reducible (first | exact h | apply State.judgeNext_changes))
  all_goals (with_reducible first | assumption | exact a1.ofCh (by decide) | exact a2.fst | exact a2.snd | exact a5.ofCh (by decide) | exact a6.inRegs (by decide) | exact a6.pairInRegs (by decide) | exact a6.regsInRegs (by decide) | exact a7.inRegs (by decide) | exact a7.pairInRegs (by decide) | exact a7.regsInRegs (by decide))

theorem execDramSelfRefreshExit_changes {K : List Foot} {x t : State} (e : execDramSelfRefreshExit x = .next t) (a0 : Allows K (.one .boot)) (a1 : Allows K (.one (.reg Reg.memStatus))) : Evolves K x t := by
  simp only [execDramSelfRefreshExit, Host.Outcome.next.injEq] at e
  subst e
  have h := Evolves.refl K x
  repeat' (first | with_reducible refine fun _ => ?_ | with_reducible (first | exact h | apply State.srefExit_changes))
  all_goals (with_reducible first | assumption)

theorem execSync_changes {K : List Foot} {x t : State} (q) (ecc) (e : execSync q ecc x = .next t) (a0 : Allows K (.one (.reg (seqOff (↑q) Reg.seqFault)))) (a1 : Allows K .events) (a2 : Allows K (.one (.reg Reg.memEccAddr))) (a3 : Allows K (.pair Reg.memFlags)) (a4 : Allows K (.one (.reg Reg.memEccCnt))) (a5 : Allows K (.one (.reg (seqOff (↑q) Reg.seqEccCnt)))) (a6 : Allows K (.pair (seqOff (↑q) Reg.seqFlags))) (a7 : Allows K .seqs) (a8 : Allows K (.one .plan)) (a9 : Allows K .lanes) (a10 : Allows K (.one (.reg Reg.plnState))) (a11 : Allows K (.one .cwy)) (a12 : Allows K (.regs Reg.flSiteFail (Reg.flSiteFail + 1024))) (a13 : Allows K (.regs Reg.flFirst (Reg.flFirst + 2048))) (a14 : Allows K (.one (.clu ↑q))) (a15 : Allows K (.pair (cluOff (↑q) Reg.plnFlags))) (a16 : Allows K (.one (.reg (cluOff (↑q) Reg.ddsStatus)))) (a17 : Allows K (.one .freeCtr)) (a18 : Allows K (.chRegs Reg.tgScrStgLo (Reg.tgScrStgLo + 8))) : Evolves K x t := by
  simp only [execSync, Host.Outcome.next.injEq] at e
  subst e
  have h := Evolves.refl K x
  repeat' (first | with_reducible refine fun _ => ?_ | with_reducible (first | exact h | apply State.run1_changes))
  all_goals (with_reducible first | assumption | exact a1.vectorOfEvents | exact a1.logOfEvents | exact a1.evrPairOfEvents | exact a1.evrOfEvents | exact a1.vectorsOfEvents | exact a1.evrStatusOfEvents | exact a1.evrDropOfEvents | exact a1.evrCommitOfEvents | exact a1.evrLogOfEvents | exact a1.evrLogBseqOfEvents | exact a3.fst | exact a3.snd | exact a6.fst | exact a6.snd | exact a7.seqOf | exact a9.laneOf | exact a12.inRegs (by decide) | exact a12.pairInRegs (by decide) | exact a12.regsInRegs (by decide) | exact a13.inRegs (by decide) | exact a13.pairInRegs (by decide) | exact a13.regsInRegs (by decide) | exact a15.fst | exact a15.snd | exact a18.regsCh (by decide) | exact a18.ofChRegs (by decide))

theorem execCalStoreCommit_changes {K : List Foot} {x t : State} (us) (e : execCalStoreCommit us x = .next t) (a0 : Allows K .completion) (a1 : Allows K .events) (a2 : Allows K (.one (.reg Reg.calScope))) (a3 : Allows K (.one (.reg Reg.calTime))) (a4 : Allows K (.one (.reg Reg.calStatus))) (a5 : Allows K (.one .cal)) (a6 : Allows K (.one (.reg Reg.calLastPcycle))) (a7 : Allows K (.pair Reg.calLastOptLo)) (a8 : Allows K (.one (.reg Reg.calCount))) (a9 : Allows K (.one (.reg Reg.bootStatus))) (a10 : Allows K .flashes) : Evolves K x t := by
  simp only [execCalStoreCommit, Host.Outcome.next.injEq] at e
  subst e
  have h := Evolves.refl K x
  repeat' (first | with_reducible refine fun _ => ?_ | with_reducible (first | exact h | apply State.storeCommit_changes))
  all_goals (with_reducible first | assumption | exact a0.vectorOfCompletion | exact a0.ringsOfCompletion | exact a0.hostMemOfCompletion | exact a0.vectorsOfCompletion | exact a0.cplTailOfCompletion | exact a0.cplDropOfCompletion | exact a1.vectorOfEvents | exact a1.logOfEvents | exact a1.evrPairOfEvents | exact a1.evrOfEvents | exact a1.vectorsOfEvents | exact a1.evrStatusOfEvents | exact a1.evrDropOfEvents | exact a1.evrCommitOfEvents | exact a1.evrLogOfEvents | exact a1.evrLogBseqOfEvents | exact a7.fst | exact a7.snd | exact a10.logOfFlashes)

theorem execFollowerLock_changes {K : List Foot} {x t : State} (offset) (e : execFollowerLock offset x = .next t) (a0 : Allows K (.one (.reg Reg.clkCorr))) (a1 : Allows K (.one (.reg Reg.clkStatus))) (a2 : Allows K (.one .cwy)) : Evolves K x t := by
  simp only [execFollowerLock, Host.Outcome.next.injEq] at e
  subst e
  have h := Evolves.refl K x
  repeat' (first | with_reducible refine fun _ => ?_ | with_reducible (first | exact h | apply State.followerLock_changes))
  all_goals (with_reducible first | assumption)

theorem execHstCplHeadWrite_changes {K : List Foot} {x t : State} (v) (e : execHstCplHeadWrite v x = .next t) (a0 : Allows K .hostError) (a1 : Allows K (.one (.reg Reg.hstCplHead))) : Evolves K x t := by
  simp only [execHstCplHeadWrite, Host.Outcome.next.injEq] at e
  subst e
  have h := Evolves.refl K x
  repeat' (first | with_reducible refine fun _ => ?_ | with_reducible (first | exact h | assumption | apply State.onWrite_changes | apply State.ringIndex_changes))
  all_goals (with_reducible first | assumption | exact a0.hstFlagsOfError | exact a0.readsOfError | exact a0.badAddrOfError)

theorem execWaitConditionMet_changes {K : List Foot} {x t : State} (q) (cycles) (e : execWaitConditionMet q cycles x = .next t) (a0 : Allows K (.one (.seq ↑q))) : Evolves K x t := by
  simp only [execWaitConditionMet, Host.Outcome.next.injEq] at e
  subst e
  have h := Evolves.refl K x
  repeat' (first | with_reducible refine fun _ => ?_ | with_reducible (first | exact h | apply State.condMet_changes))
  all_goals (with_reducible first | assumption)

theorem execBrel_changes {K : List Foot} {x t : State} (q) (ecc) (e : execBrel q ecc x = .next t) (a0 : Allows K (.one (.reg (seqOff (↑q) Reg.seqFault)))) (a1 : Allows K .events) (a2 : Allows K (.one (.reg Reg.memEccAddr))) (a3 : Allows K (.pair Reg.memFlags)) (a4 : Allows K (.one (.reg Reg.memEccCnt))) (a5 : Allows K (.one (.reg (seqOff (↑q) Reg.seqEccCnt)))) (a6 : Allows K (.pair (seqOff (↑q) Reg.seqFlags))) (a7 : Allows K .seqs) (a8 : Allows K (.one .plan)) (a9 : Allows K .lanes) (a10 : Allows K (.one (.reg Reg.plnState))) (a11 : Allows K (.one .cwy)) (a12 : Allows K (.regs Reg.flSiteFail (Reg.flSiteFail + 1024))) (a13 : Allows K (.regs Reg.flFirst (Reg.flFirst + 2048))) (a14 : Allows K (.one (.clu ↑q))) (a15 : Allows K (.pair (cluOff (↑q) Reg.plnFlags))) (a16 : Allows K (.one (.reg (cluOff (↑q) Reg.ddsStatus)))) (a17 : Allows K (.one .freeCtr)) (a18 : Allows K (.chRegs Reg.tgScrStgLo (Reg.tgScrStgLo + 8))) : Evolves K x t := by
  simp only [execBrel, Host.Outcome.next.injEq] at e
  subst e
  have h := Evolves.refl K x
  repeat' (first | with_reducible refine fun _ => ?_ | with_reducible (first | exact h | apply State.run1_changes))
  all_goals (with_reducible first | assumption | exact a1.vectorOfEvents | exact a1.logOfEvents | exact a1.evrPairOfEvents | exact a1.evrOfEvents | exact a1.vectorsOfEvents | exact a1.evrStatusOfEvents | exact a1.evrDropOfEvents | exact a1.evrCommitOfEvents | exact a1.evrLogOfEvents | exact a1.evrLogBseqOfEvents | exact a3.fst | exact a3.snd | exact a6.fst | exact a6.snd | exact a7.seqOf | exact a9.laneOf | exact a12.inRegs (by decide) | exact a12.pairInRegs (by decide) | exact a12.regsInRegs (by decide) | exact a13.inRegs (by decide) | exact a13.pairInRegs (by decide) | exact a13.regsInRegs (by decide) | exact a15.fst | exact a15.snd | exact a18.regsCh (by decide) | exact a18.ofChRegs (by decide))

theorem execLaneIdle_changes {K : List Foot} {x t : State} (c) (e : execLaneIdle c x = .next t) (a0 : Allows K (.one (.seq ↑c))) (a1 : Allows K (.one (.lane ↑c))) (a2 : Allows K (.one (.reg (cluOff (↑c) Reg.ddsStatus)))) : Evolves K x t := by
  simp only [execLaneIdle, Host.Outcome.next.injEq] at e
  subst e
  have h := Evolves.refl K x
  repeat' (first | with_reducible refine fun _ => ?_ | with_reducible (first | exact h | apply State.laneGoesIdle_changes))
  all_goals (with_reducible first | assumption)

theorem execCalDone_changes {K : List Foot} {x t : State} (us) (e : execCalDone us x = .next t) (a0 : Allows K (.one .cal)) (a1 : Allows K (.one (.reg Reg.calStatus))) (a2 : Allows K (.chReg Reg.pmuStatus)) (a3 : Allows K .chans) (a4 : Allows K (.chReg Reg.peStatus)) (a5 : Allows K (.chReg Reg.tiaStatus)) (a6 : Allows K (.chReg Reg.tiaDiscard)) (a7 : Allows K .events) (a8 : Allows K (.chPair Reg.tiaMaxLo)) (a9 : Allows K (.chPair Reg.tiaMinLo)) (a10 : Allows K (.chPair Reg.tiaSdevLo)) (a11 : Allows K (.chPair Reg.tiaMeanLo)) (a12 : Allows K (.chReg Reg.tiaCount)) (a13 : Allows K (.chPair Reg.tiaLastLo)) (a14 : Allows K (.chReg Reg.tiaSkip)) (a15 : Allows K .clus) (a16 : Allows K (.chReg Reg.tiaFcnt)) (a17 : Allows K (.pair Reg.calFlags)) (a18 : Allows K (.chReg Reg.tiaLine)) (a19 : Allows K .completion) (a20 : Allows K (.one (.reg Reg.calScope))) (a21 : Allows K (.one (.reg Reg.calTime))) : Evolves K x t := by
  simp only [execCalDone, Host.Outcome.next.injEq] at e
  subst e
  have h := Evolves.refl K x
  repeat' (first | with_reducible refine fun _ => ?_ | with_reducible (first | exact h | apply State.calDone_changes))
  all_goals (with_reducible first | assumption | exact a2.ofCh (by decide) | exact a3.chanOf | exact a4.ofCh (by decide) | exact a5.ofCh (by decide) | exact a6.ofCh (by decide) | exact a7.vectorOfEvents | exact a7.logOfEvents | exact a7.evrPairOfEvents | exact a7.evrOfEvents | exact a7.vectorsOfEvents | exact a7.evrStatusOfEvents | exact a7.evrDropOfEvents | exact a7.evrCommitOfEvents | exact a7.evrLogOfEvents | exact a7.evrLogBseqOfEvents | exact a8.pairCh (by decide) | exact a8.chFst | exact a8.chSnd | exact a8.chFst.ofCh (by decide) | exact a8.chSnd.ofCh (by decide) | exact a9.pairCh (by decide) | exact a9.chFst | exact a9.chSnd | exact a9.chFst.ofCh (by decide) | exact a9.chSnd.ofCh (by decide) | exact a10.pairCh (by decide) | exact a10.chFst | exact a10.chSnd | exact a10.chFst.ofCh (by decide) | exact a10.chSnd.ofCh (by decide) | exact a11.pairCh (by decide) | exact a11.chFst | exact a11.chSnd | exact a11.chFst.ofCh (by decide) | exact a11.chSnd.ofCh (by decide) | exact a12.ofCh (by decide) | exact a13.pairCh (by decide) | exact a13.chFst | exact a13.chSnd | exact a13.chFst.ofCh (by decide) | exact a13.chSnd.ofCh (by decide) | exact a14.ofCh (by decide) | exact a15.cluOf | exact a16.ofCh (by decide) | exact a17.fst | exact a17.snd | exact a18.ofCh (by decide) | exact a19.vectorOfCompletion | exact a19.ringsOfCompletion | exact a19.hostMemOfCompletion | exact a19.vectorsOfCompletion | exact a19.cplTailOfCompletion | exact a19.cplDropOfCompletion)

theorem execBootReady_changes {K : List Foot} {x t : State} (us) (e : execBootReady us x = .next t) (a0 : Allows K .events) (a1 : Allows K (.one .boot)) (a2 : Allows K (.one (.reg Reg.bootStatus))) (a3 : Allows K (.one (.reg Reg.bootTime))) (a4 : Allows K (.pair Reg.calFlags)) (a5 : Allows K (.one .cal)) (a6 : Allows K (.one (.reg Reg.clkCorr))) (a7 : Allows K (.one (.reg Reg.clkCorrTemp))) (a8 : Allows K (.pair Reg.clkFlags)) (a9 : Allows K (.one (.reg Reg.clkXtalTemp))) (a10 : Allows K (.one (.reg Reg.clkCorrAge))) : Evolves K x t := by
  simp only [execBootReady, Host.Outcome.next.injEq] at e
  subst e
  have h := Evolves.refl K x
  repeat' (first | with_reducible refine fun _ => ?_ | with_reducible (first | exact h | apply State.bootReady_changes))
  all_goals (with_reducible first | assumption | exact a0.vectorOfEvents | exact a0.logOfEvents | exact a0.evrPairOfEvents | exact a0.evrOfEvents | exact a0.vectorsOfEvents | exact a0.evrStatusOfEvents | exact a0.evrDropOfEvents | exact a0.evrCommitOfEvents | exact a0.evrLogOfEvents | exact a0.evrLogBseqOfEvents | exact a4.fst | exact a4.snd | exact a8.fst | exact a8.snd)

theorem execOpcJump_changes {K : List Foot} {x t : State} (q) (ecc) (e : execOpcJump q ecc x = .next t) (a0 : Allows K (.one (.reg (seqOff (↑q) Reg.seqFault)))) (a1 : Allows K .events) (a2 : Allows K (.one (.reg Reg.memEccAddr))) (a3 : Allows K (.pair Reg.memFlags)) (a4 : Allows K (.one (.reg Reg.memEccCnt))) (a5 : Allows K (.one (.reg (seqOff (↑q) Reg.seqEccCnt)))) (a6 : Allows K (.pair (seqOff (↑q) Reg.seqFlags))) (a7 : Allows K .seqs) (a8 : Allows K (.one .plan)) (a9 : Allows K .lanes) (a10 : Allows K (.one (.reg Reg.plnState))) (a11 : Allows K (.one .cwy)) (a12 : Allows K (.regs Reg.flSiteFail (Reg.flSiteFail + 1024))) (a13 : Allows K (.regs Reg.flFirst (Reg.flFirst + 2048))) (a14 : Allows K (.one (.clu ↑q))) (a15 : Allows K (.pair (cluOff (↑q) Reg.plnFlags))) (a16 : Allows K (.one (.reg (cluOff (↑q) Reg.ddsStatus)))) (a17 : Allows K (.one .freeCtr)) (a18 : Allows K (.chRegs Reg.tgScrStgLo (Reg.tgScrStgLo + 8))) : Evolves K x t := by
  simp only [execOpcJump, Host.Outcome.next.injEq] at e
  subst e
  have h := Evolves.refl K x
  repeat' (first | with_reducible refine fun _ => ?_ | with_reducible (first | exact h | apply State.run1_changes))
  all_goals (with_reducible first | assumption | exact a1.vectorOfEvents | exact a1.logOfEvents | exact a1.evrPairOfEvents | exact a1.evrOfEvents | exact a1.vectorsOfEvents | exact a1.evrStatusOfEvents | exact a1.evrDropOfEvents | exact a1.evrCommitOfEvents | exact a1.evrLogOfEvents | exact a1.evrLogBseqOfEvents | exact a3.fst | exact a3.snd | exact a6.fst | exact a6.snd | exact a7.seqOf | exact a9.laneOf | exact a12.inRegs (by decide) | exact a12.pairInRegs (by decide) | exact a12.regsInRegs (by decide) | exact a13.inRegs (by decide) | exact a13.pairInRegs (by decide) | exact a13.regsInRegs (by decide) | exact a15.fst | exact a15.snd | exact a18.regsCh (by decide) | exact a18.ofChRegs (by decide))

theorem execBar0BadAccess_changes {K : List Foot} {x t : State} (off) (form) (e : execBar0BadAccess off form x = .next t) (a0 : Allows K .hostError) : Evolves K x t := by
  simp only [execBar0BadAccess, Host.Outcome.next.injEq] at e
  subst e
  have h := Evolves.refl K x
  repeat' (first | with_reducible refine fun _ => ?_ | with_reducible (first | exact h | apply State.badAccess_changes | apply Evolves.ite))
  all_goals (with_reducible first | assumption | exact a0.hstFlagsOfError | exact a0.readsOfError | exact a0.badAddrOfError)

theorem execPeStagingWrite_changes {K : List Foot} {x t : State} (ch) (i) (v) (e : execPeStagingWrite ch i v x = .next t) (a0 : Allows K .hostError) (a1 : Allows K (.one (.reg (chOff (↑ch) (Reg.peVil + 4 * ↑i))))) (a2 : Allows K (.pair (chOff (↑ch) Reg.peFlags))) (a3 : Allows K (.pair (chOff (↑ch) Reg.pmuFlags))) : Evolves K x t := by
  simp only [execPeStagingWrite, Host.Outcome.next.injEq] at e
  subst e
  have h := Evolves.refl K x
  repeat' (first | with_reducible refine fun _ => ?_ | with_reducible (first | exact h | assumption | apply State.onWrite_changes | apply State.stagingWrite_changes))
  all_goals (with_reducible first | assumption | exact a0.hstFlagsOfError | exact a0.readsOfError | exact a0.badAddrOfError | exact a2.fst | exact a2.snd | exact a3.fst | exact a3.snd)

theorem execAcqSpillConfigWrite_changes {K : List Foot} {x t : State} (c) (size) (v) (e : execAcqSpillConfigWrite c size v x = .next t) (a0 : Allows K .hostError) (a1 : Allows K (.pair (cluOff (↑c) Reg.acqFlags))) (a2 : Allows K (.one (.reg (cluOff (↑c) Reg.acqSpillRd)))) (a3 : Allows K (.one (.reg (cluOff (↑c) Reg.acqSpillWr)))) (a4 : Allows K (.one (.reg (cluOff (↑c) (if size = true then Reg.acqSpillSize else Reg.acqSpillBase))))) : Evolves K x t := by
  simp only [execAcqSpillConfigWrite, Host.Outcome.next.injEq] at e
  subst e
  have h := Evolves.refl K x
  repeat' (first | with_reducible refine fun _ => ?_ | with_reducible (first | exact h | assumption | apply State.onWrite_changes | apply State.spillConfig_changes | apply Evolves.ite))
  all_goals (with_reducible first | assumption | exact a0.hstFlagsOfError | exact a0.readsOfError | exact a0.badAddrOfError | exact a1.fst | exact a1.snd)

theorem execHstVecAckWrite_changes {K : List Foot} {x t : State} (half) (v) (setNow) (e : execHstVecAckWrite half v setNow x = .next t) (a0 : Allows K .hostError) (a1 : Allows K .vector) : Evolves K x t := by
  simp only [execHstVecAckWrite, Host.Outcome.next.injEq] at e
  subst e
  have h := Evolves.refl K x
  repeat' (first | with_reducible refine fun _ => ?_ | lift_lets | (with_reducible intro y; first | (refine Evolves.cut (K := K) (s := s) (y := y) ?_ ?_ <;> first | (clear_value y; with_reducible intro hy) | simp -zeta -zetaHave only [y]) | (simp -zeta -zetaHave only [y]; clear y) | (clear_value y; clear y)) | with_reducible (first | exact h | assumption | apply State.onWrite_changes | apply State.vecAck_changes) | (split))
  all_goals (with_reducible first | assumption | exact a0.hstFlagsOfError | exact a0.readsOfError | exact a0.badAddrOfError | exact a1.vecRegOfVector | exact a1.vectorsOfVector)

theorem execHoldoverEntry_changes {K : List Foot} {x t : State} (offset) (e : execHoldoverEntry offset x = .next t) (a0 : Allows K .events) (a1 : Allows K (.pair Reg.clkFlags)) (a2 : Allows K (.one (.reg Reg.clkCorr))) (a3 : Allows K (.one (.reg Reg.clkStatus))) (a4 : Allows K (.one .clk)) : Evolves K x t := by
  simp only [execHoldoverEntry, Host.Outcome.next.injEq] at e
  subst e
  have h := Evolves.refl K x
  repeat' (first | with_reducible refine fun _ => ?_ | with_reducible (first | exact h | apply State.holdover_changes))
  all_goals (with_reducible first | assumption | exact a0.vectorOfEvents | exact a0.logOfEvents | exact a0.evrPairOfEvents | exact a0.evrOfEvents | exact a0.vectorsOfEvents | exact a0.evrStatusOfEvents | exact a0.evrDropOfEvents | exact a0.evrCommitOfEvents | exact a0.evrLogOfEvents | exact a0.evrLogBseqOfEvents | exact a1.fst | exact a1.snd)

theorem execBootMarch_changes {K : List Foot} {x t : State} (fails) (e : execBootMarch fails x = .next t) (a0 : Allows K .events) (a1 : Allows K (.one (.reg Reg.memMarchProg))) (a2 : Allows K (.one (.reg Reg.memStatus))) (a3 : Allows K (.one (.reg Reg.memOosDev))) (a4 : Allows K (.one (.reg Reg.memOos))) (a5 : Allows K (.one (.reg Reg.memLoss))) (a6 : Allows K (.one (.reg Reg.memRepair))) (a7 : Allows K (.pair Reg.memFlags)) (a8 : Allows K (.one .march)) (a9 : Allows K (.one .macros)) (a10 : Allows K (.one .boot)) (a11 : Allows K (.one .timing)) (a12 : Allows K .failCnts) : Evolves K x t := by
  simp only [execBootMarch, Host.Outcome.next.injEq] at e
  subst e
  have h := Evolves.refl K x
  repeat' (first | with_reducible refine fun _ => ?_ | with_reducible (first | exact h | apply State.bootMarch_changes))
  all_goals (with_reducible first | assumption | exact a0.vectorOfEvents | exact a0.logOfEvents | exact a0.evrPairOfEvents | exact a0.evrOfEvents | exact a0.vectorsOfEvents | exact a0.evrStatusOfEvents | exact a0.evrDropOfEvents | exact a0.evrCommitOfEvents | exact a0.evrLogOfEvents | exact a0.evrLogBseqOfEvents | exact a7.fst | exact a7.snd)

theorem execBodyStream_changes {K : List Foot} {x t : State} (e : execBodyStream x = .next t) (a0 : Allows K (.one (.reg Reg.bootStatus))) (a1 : Allows K .drams) (a2 : Allows K (.one .boot)) (a3 : Allows K .events) (a4 : Allows K (.one (.reg Reg.hstStatus))) : Evolves K x t := by
  simp only [execBodyStream, Host.Outcome.next.injEq] at e
  subst e
  have h := Evolves.refl K x
  repeat' (first | with_reducible refine fun _ => ?_ | with_reducible (first | exact h | apply State.bodyStream_changes))
  all_goals (with_reducible first | assumption | exact a1.dramOf | exact a3.vectorOfEvents | exact a3.logOfEvents | exact a3.evrPairOfEvents | exact a3.evrOfEvents | exact a3.vectorsOfEvents | exact a3.evrStatusOfEvents | exact a3.evrDropOfEvents | exact a3.evrCommitOfEvents | exact a3.evrLogOfEvents | exact a3.evrLogBseqOfEvents)

theorem execCellInject_changes {K : List Foot} {x t : State} (p) (e : execCellInject p x = .next t) (a0 : Allows K (.one .cwy)) (a1 : Allows K .seqs) (a2 : Allows K (.one .plan)) (a3 : Allows K .clus) (a4 : Allows K (.regs Reg.cwySum0 (Reg.cwySum0 + 2048))) : Evolves K x t := by
  simp only [execCellInject, Host.Outcome.next.injEq] at e
  subst e
  have h := Evolves.refl K x
  repeat' (first | with_reducible refine fun _ => ?_ | with_reducible (first | exact h | apply State.cellInject_changes))
  all_goals (with_reducible first | assumption | exact a1.seqOf | exact a3.cluOf | exact a4.inRegs (by decide) | exact a4.pairInRegs (by decide) | exact a4.regsInRegs (by decide))

theorem execClkEppWidthWrite_changes {K : List Foot} {x t : State} (v) (e : execClkEppWidthWrite v x = .next t) (a0 : Allows K .hostError) (a1 : Allows K (.pair Reg.clkFlags)) (a2 : Allows K (.one (.reg Reg.clkEppWidth))) : Evolves K x t := by
  simp only [execClkEppWidthWrite, Host.Outcome.next.injEq] at e
  subst e
  have h := Evolves.refl K x
  repeat' (first | with_reducible refine fun _ => ?_ | with_reducible (first | exact h | assumption | apply State.onWrite_changes | apply State.eppWidthWrite_changes))
  all_goals (with_reducible first | assumption | exact a0.hstFlagsOfError | exact a0.readsOfError | exact a0.badAddrOfError | exact a1.fst | exact a1.snd)

theorem execTiaNWrite_changes {K : List Foot} {x t : State} (ch) (gate) (v) (e : execTiaNWrite ch gate v x = .next t) (a0 : Allows K .hostError) (a1 : Allows K (.pair (chOff (↑ch) Reg.tiaFlags))) (a2 : Allows K (.one (.reg (chOff (↑ch) Reg.tiaGate)))) (a3 : Allows K (.one (.reg (chOff (↑ch) Reg.tiaN)))) : Evolves K x t := by
  simp only [execTiaNWrite, Host.Outcome.next.injEq] at e
  subst e
  have h := Evolves.refl K x
  repeat' (first | with_reducible refine fun _ => ?_ | with_reducible (first | exact h | assumption | apply State.onWrite_changes | apply State.tiaNWrite_changes | apply Evolves.ite))
  all_goals (with_reducible first | assumption | exact a0.hstFlagsOfError | exact a0.readsOfError | exact a0.badAddrOfError | exact a1.fst | exact a1.snd)

theorem execRet_changes {K : List Foot} {x t : State} (q) (ecc) (e : execRet q ecc x = .next t) (a0 : Allows K (.one (.reg (seqOff (↑q) Reg.seqFault)))) (a1 : Allows K .events) (a2 : Allows K (.one (.reg Reg.memEccAddr))) (a3 : Allows K (.pair Reg.memFlags)) (a4 : Allows K (.one (.reg Reg.memEccCnt))) (a5 : Allows K (.one (.reg (seqOff (↑q) Reg.seqEccCnt)))) (a6 : Allows K (.pair (seqOff (↑q) Reg.seqFlags))) (a7 : Allows K .seqs) (a8 : Allows K (.one .plan)) (a9 : Allows K .lanes) (a10 : Allows K (.one (.reg Reg.plnState))) (a11 : Allows K (.one .cwy)) (a12 : Allows K (.regs Reg.flSiteFail (Reg.flSiteFail + 1024))) (a13 : Allows K (.regs Reg.flFirst (Reg.flFirst + 2048))) (a14 : Allows K (.one (.clu ↑q))) (a15 : Allows K (.pair (cluOff (↑q) Reg.plnFlags))) (a16 : Allows K (.one (.reg (cluOff (↑q) Reg.ddsStatus)))) (a17 : Allows K (.one .freeCtr)) (a18 : Allows K (.chRegs Reg.tgScrStgLo (Reg.tgScrStgLo + 8))) : Evolves K x t := by
  simp only [execRet, Host.Outcome.next.injEq] at e
  subst e
  have h := Evolves.refl K x
  repeat' (first | with_reducible refine fun _ => ?_ | with_reducible (first | exact h | apply State.run1_changes))
  all_goals (with_reducible first | assumption | exact a1.vectorOfEvents | exact a1.logOfEvents | exact a1.evrPairOfEvents | exact a1.evrOfEvents | exact a1.vectorsOfEvents | exact a1.evrStatusOfEvents | exact a1.evrDropOfEvents | exact a1.evrCommitOfEvents | exact a1.evrLogOfEvents | exact a1.evrLogBseqOfEvents | exact a3.fst | exact a3.snd | exact a6.fst | exact a6.snd | exact a7.seqOf | exact a9.laneOf | exact a12.inRegs (by decide) | exact a12.pairInRegs (by decide) | exact a12.regsInRegs (by decide) | exact a13.inRegs (by decide) | exact a13.pairInRegs (by decide) | exact a13.regsInRegs (by decide) | exact a15.fst | exact a15.snd | exact a18.regsCh (by decide) | exact a18.ofChRegs (by decide))

theorem execTrap_changes {K : List Foot} {x t : State} (q) (ecc) (e : execTrap q ecc x = .next t) (a0 : Allows K (.one (.reg (seqOff (↑q) Reg.seqFault)))) (a1 : Allows K .events) (a2 : Allows K (.one (.reg Reg.memEccAddr))) (a3 : Allows K (.pair Reg.memFlags)) (a4 : Allows K (.one (.reg Reg.memEccCnt))) (a5 : Allows K (.one (.reg (seqOff (↑q) Reg.seqEccCnt)))) (a6 : Allows K (.pair (seqOff (↑q) Reg.seqFlags))) (a7 : Allows K .seqs) (a8 : Allows K (.one .plan)) (a9 : Allows K .lanes) (a10 : Allows K (.one (.reg Reg.plnState))) (a11 : Allows K (.one .cwy)) (a12 : Allows K (.regs Reg.flSiteFail (Reg.flSiteFail + 1024))) (a13 : Allows K (.regs Reg.flFirst (Reg.flFirst + 2048))) (a14 : Allows K (.one (.clu ↑q))) (a15 : Allows K (.pair (cluOff (↑q) Reg.plnFlags))) (a16 : Allows K (.one (.reg (cluOff (↑q) Reg.ddsStatus)))) (a17 : Allows K (.one .freeCtr)) (a18 : Allows K (.chRegs Reg.tgScrStgLo (Reg.tgScrStgLo + 8))) : Evolves K x t := by
  simp only [execTrap, Host.Outcome.next.injEq] at e
  subst e
  have h := Evolves.refl K x
  repeat' (first | with_reducible refine fun _ => ?_ | with_reducible (first | exact h | apply State.run1_changes))
  all_goals (with_reducible first | assumption | exact a1.vectorOfEvents | exact a1.logOfEvents | exact a1.evrPairOfEvents | exact a1.evrOfEvents | exact a1.vectorsOfEvents | exact a1.evrStatusOfEvents | exact a1.evrDropOfEvents | exact a1.evrCommitOfEvents | exact a1.evrLogOfEvents | exact a1.evrLogBseqOfEvents | exact a3.fst | exact a3.snd | exact a6.fst | exact a6.snd | exact a7.seqOf | exact a9.laneOf | exact a12.inRegs (by decide) | exact a12.pairInRegs (by decide) | exact a12.regsInRegs (by decide) | exact a13.inRegs (by decide) | exact a13.pairInRegs (by decide) | exact a13.regsInRegs (by decide) | exact a15.fst | exact a15.snd | exact a18.regsCh (by decide) | exact a18.ofChRegs (by decide))

theorem execElectionCell_changes {K : List Foot} {x t : State} (e : execElectionCell x = .next t) (a0 : Allows K (.one .cwy)) : Evolves K x t := by
  simp only [execElectionCell, Host.Outcome.next.injEq] at e
  subst e
  have h := Evolves.refl K x
  repeat' (first | with_reducible refine fun _ => ?_ | with_reducible (first | exact h | apply State.electionCell_changes))
  all_goals (with_reducible first | assumption)

theorem execPcieLinkUp_changes {K : List Foot} {x t : State} (width) (speed) (e : execPcieLinkUp width speed x = .next t) (a0 : Allows K (.one (.reg Reg.hstStatus))) : Evolves K x t := by
  simp only [execPcieLinkUp, Host.Outcome.next.injEq] at e
  subst e
  have h := Evolves.refl K x
  repeat' (first | with_reducible refine fun _ => ?_ | with_reducible (first | exact h | apply State.linkUp_changes))
  all_goals (with_reducible first | assumption)


end Sys2Proof.Machine
end

