-- ==== Sys2Proof/Laws/State.lean ====
section
/-! SUPPORT. What each store leaves and reads as: one lemma for each field and store, and reads after writes of registers and
engines. -/

set_option Elab.async false

namespace Sys2Proof.Machine

/-! ### Fields a store leaves -/

@[simp] theorem State.wr_pending (s : State) (o : Nat) (v : W32) : (s.wr o v).pending = s.pending := rfl
@[simp] theorem State.wr_freeCtr (s : State) (o : Nat) (v : W32) : (s.wr o v).freeCtr = s.freeCtr := rfl
@[simp] theorem State.wr_shadows (s : State) (o : Nat) (v : W32) : (s.wr o v).shadows = s.shadows := rfl
@[simp] theorem State.wr_boot (s : State) (o : Nat) (v : W32) : (s.wr o v).boot = s.boot := rfl
@[simp] theorem State.wr_clk (s : State) (o : Nat) (v : W32) : (s.wr o v).clk = s.clk := rfl
@[simp] theorem State.wr_evr (s : State) (o : Nat) (v : W32) : (s.wr o v).evr = s.evr := rfl
@[simp] theorem State.wr_nvm (s : State) (o : Nat) (v : W32) : (s.wr o v).nvm = s.nvm := rfl
@[simp] theorem State.wr_hst (s : State) (o : Nat) (v : W32) : (s.wr o v).hst = s.hst := rfl
@[simp] theorem State.wr_mem (s : State) (o : Nat) (v : W32) : (s.wr o v).mem = s.mem := rfl
@[simp] theorem State.wr_cal (s : State) (o : Nat) (v : W32) : (s.wr o v).cal = s.cal := rfl
@[simp] theorem State.wr_pwr (s : State) (o : Nat) (v : W32) : (s.wr o v).pwr = s.pwr := rfl
@[simp] theorem State.wr_seqs (s : State) (o : Nat) (v : W32) : (s.wr o v).seqs = s.seqs := rfl
@[simp] theorem State.wr_lanes (s : State) (o : Nat) (v : W32) : (s.wr o v).lanes = s.lanes := rfl
@[simp] theorem State.wr_clus (s : State) (o : Nat) (v : W32) : (s.wr o v).clus = s.clus := rfl
@[simp] theorem State.wr_chans (s : State) (o : Nat) (v : W32) : (s.wr o v).chans = s.chans := rfl
@[simp] theorem State.wr_plan (s : State) (o : Nat) (v : W32) : (s.wr o v).plan = s.plan := rfl
@[simp] theorem State.wr_snd (s : State) (o : Nat) (v : W32) : (s.wr o v).snd = s.snd := rfl
@[simp] theorem State.wr_cwy (s : State) (o : Nat) (v : W32) : (s.wr o v).cwy = s.cwy := rfl

@[simp] theorem State.wrF_pending (s : State) (o m l x : Nat) : (s.wrF o m l x).pending = s.pending := rfl
@[simp] theorem State.wrF_freeCtr (s : State) (o m l x : Nat) : (s.wrF o m l x).freeCtr = s.freeCtr := rfl
@[simp] theorem State.wrF_shadows (s : State) (o m l x : Nat) : (s.wrF o m l x).shadows = s.shadows := rfl
@[simp] theorem State.wrF_boot (s : State) (o m l x : Nat) : (s.wrF o m l x).boot = s.boot := rfl
@[simp] theorem State.wrF_clk (s : State) (o m l x : Nat) : (s.wrF o m l x).clk = s.clk := rfl
@[simp] theorem State.wrF_evr (s : State) (o m l x : Nat) : (s.wrF o m l x).evr = s.evr := rfl
@[simp] theorem State.wrF_nvm (s : State) (o m l x : Nat) : (s.wrF o m l x).nvm = s.nvm := rfl
@[simp] theorem State.wrF_hst (s : State) (o m l x : Nat) : (s.wrF o m l x).hst = s.hst := rfl
@[simp] theorem State.wrF_mem (s : State) (o m l x : Nat) : (s.wrF o m l x).mem = s.mem := rfl
@[simp] theorem State.wrF_cal (s : State) (o m l x : Nat) : (s.wrF o m l x).cal = s.cal := rfl
@[simp] theorem State.wrF_pwr (s : State) (o m l x : Nat) : (s.wrF o m l x).pwr = s.pwr := rfl
@[simp] theorem State.wrF_seqs (s : State) (o m l x : Nat) : (s.wrF o m l x).seqs = s.seqs := rfl
@[simp] theorem State.wrF_lanes (s : State) (o m l x : Nat) : (s.wrF o m l x).lanes = s.lanes := rfl
@[simp] theorem State.wrF_clus (s : State) (o m l x : Nat) : (s.wrF o m l x).clus = s.clus := rfl
@[simp] theorem State.wrF_chans (s : State) (o m l x : Nat) : (s.wrF o m l x).chans = s.chans := rfl
@[simp] theorem State.wrF_plan (s : State) (o m l x : Nat) : (s.wrF o m l x).plan = s.plan := rfl
@[simp] theorem State.wrF_snd (s : State) (o m l x : Nat) : (s.wrF o m l x).snd = s.snd := rfl
@[simp] theorem State.wrF_cwy (s : State) (o m l x : Nat) : (s.wrF o m l x).cwy = s.cwy := rfl

@[simp] theorem State.wrB_pending (s : State) (o n : Nat) (b : Bool) : (s.wrB o n b).pending = s.pending := rfl
@[simp] theorem State.wrB_freeCtr (s : State) (o n : Nat) (b : Bool) : (s.wrB o n b).freeCtr = s.freeCtr := rfl
@[simp] theorem State.wrB_shadows (s : State) (o n : Nat) (b : Bool) : (s.wrB o n b).shadows = s.shadows := rfl
@[simp] theorem State.wrB_boot (s : State) (o n : Nat) (b : Bool) : (s.wrB o n b).boot = s.boot := rfl
@[simp] theorem State.wrB_clk (s : State) (o n : Nat) (b : Bool) : (s.wrB o n b).clk = s.clk := rfl
@[simp] theorem State.wrB_evr (s : State) (o n : Nat) (b : Bool) : (s.wrB o n b).evr = s.evr := rfl
@[simp] theorem State.wrB_nvm (s : State) (o n : Nat) (b : Bool) : (s.wrB o n b).nvm = s.nvm := rfl
@[simp] theorem State.wrB_hst (s : State) (o n : Nat) (b : Bool) : (s.wrB o n b).hst = s.hst := rfl
@[simp] theorem State.wrB_mem (s : State) (o n : Nat) (b : Bool) : (s.wrB o n b).mem = s.mem := rfl
@[simp] theorem State.wrB_cal (s : State) (o n : Nat) (b : Bool) : (s.wrB o n b).cal = s.cal := rfl
@[simp] theorem State.wrB_pwr (s : State) (o n : Nat) (b : Bool) : (s.wrB o n b).pwr = s.pwr := rfl
@[simp] theorem State.wrB_seqs (s : State) (o n : Nat) (b : Bool) : (s.wrB o n b).seqs = s.seqs := rfl
@[simp] theorem State.wrB_lanes (s : State) (o n : Nat) (b : Bool) : (s.wrB o n b).lanes = s.lanes := rfl
@[simp] theorem State.wrB_clus (s : State) (o n : Nat) (b : Bool) : (s.wrB o n b).clus = s.clus := rfl
@[simp] theorem State.wrB_chans (s : State) (o n : Nat) (b : Bool) : (s.wrB o n b).chans = s.chans := rfl
@[simp] theorem State.wrB_plan (s : State) (o n : Nat) (b : Bool) : (s.wrB o n b).plan = s.plan := rfl
@[simp] theorem State.wrB_snd (s : State) (o n : Nat) (b : Bool) : (s.wrB o n b).snd = s.snd := rfl
@[simp] theorem State.wrB_cwy (s : State) (o n : Nat) (b : Bool) : (s.wrB o n b).cwy = s.cwy := rfl

@[simp] theorem State.count_pending (s : State) (o n : Nat) : (s.count o n).pending = s.pending := rfl
@[simp] theorem State.count_freeCtr (s : State) (o n : Nat) : (s.count o n).freeCtr = s.freeCtr := rfl
@[simp] theorem State.count_shadows (s : State) (o n : Nat) : (s.count o n).shadows = s.shadows := rfl
@[simp] theorem State.count_boot (s : State) (o n : Nat) : (s.count o n).boot = s.boot := rfl
@[simp] theorem State.count_clk (s : State) (o n : Nat) : (s.count o n).clk = s.clk := rfl
@[simp] theorem State.count_evr (s : State) (o n : Nat) : (s.count o n).evr = s.evr := rfl
@[simp] theorem State.count_nvm (s : State) (o n : Nat) : (s.count o n).nvm = s.nvm := rfl
@[simp] theorem State.count_hst (s : State) (o n : Nat) : (s.count o n).hst = s.hst := rfl
@[simp] theorem State.count_mem (s : State) (o n : Nat) : (s.count o n).mem = s.mem := rfl
@[simp] theorem State.count_cal (s : State) (o n : Nat) : (s.count o n).cal = s.cal := rfl
@[simp] theorem State.count_pwr (s : State) (o n : Nat) : (s.count o n).pwr = s.pwr := rfl
@[simp] theorem State.count_seqs (s : State) (o n : Nat) : (s.count o n).seqs = s.seqs := rfl
@[simp] theorem State.count_lanes (s : State) (o n : Nat) : (s.count o n).lanes = s.lanes := rfl
@[simp] theorem State.count_clus (s : State) (o n : Nat) : (s.count o n).clus = s.clus := rfl
@[simp] theorem State.count_chans (s : State) (o n : Nat) : (s.count o n).chans = s.chans := rfl
@[simp] theorem State.count_plan (s : State) (o n : Nat) : (s.count o n).plan = s.plan := rfl
@[simp] theorem State.count_snd (s : State) (o n : Nat) : (s.count o n).snd = s.snd := rfl
@[simp] theorem State.count_cwy (s : State) (o n : Nat) : (s.count o n).cwy = s.cwy := rfl

@[simp] theorem State.countF_pending (s : State) (o m l n : Nat) : (s.countF o m l n).pending = s.pending := rfl
@[simp] theorem State.countF_freeCtr (s : State) (o m l n : Nat) : (s.countF o m l n).freeCtr = s.freeCtr := rfl
@[simp] theorem State.countF_shadows (s : State) (o m l n : Nat) : (s.countF o m l n).shadows = s.shadows := rfl
@[simp] theorem State.countF_boot (s : State) (o m l n : Nat) : (s.countF o m l n).boot = s.boot := rfl
@[simp] theorem State.countF_clk (s : State) (o m l n : Nat) : (s.countF o m l n).clk = s.clk := rfl
@[simp] theorem State.countF_evr (s : State) (o m l n : Nat) : (s.countF o m l n).evr = s.evr := rfl
@[simp] theorem State.countF_nvm (s : State) (o m l n : Nat) : (s.countF o m l n).nvm = s.nvm := rfl
@[simp] theorem State.countF_hst (s : State) (o m l n : Nat) : (s.countF o m l n).hst = s.hst := rfl
@[simp] theorem State.countF_mem (s : State) (o m l n : Nat) : (s.countF o m l n).mem = s.mem := rfl
@[simp] theorem State.countF_cal (s : State) (o m l n : Nat) : (s.countF o m l n).cal = s.cal := rfl
@[simp] theorem State.countF_pwr (s : State) (o m l n : Nat) : (s.countF o m l n).pwr = s.pwr := rfl
@[simp] theorem State.countF_seqs (s : State) (o m l n : Nat) : (s.countF o m l n).seqs = s.seqs := rfl
@[simp] theorem State.countF_lanes (s : State) (o m l n : Nat) : (s.countF o m l n).lanes = s.lanes := rfl
@[simp] theorem State.countF_clus (s : State) (o m l n : Nat) : (s.countF o m l n).clus = s.clus := rfl
@[simp] theorem State.countF_chans (s : State) (o m l n : Nat) : (s.countF o m l n).chans = s.chans := rfl
@[simp] theorem State.countF_plan (s : State) (o m l n : Nat) : (s.countF o m l n).plan = s.plan := rfl
@[simp] theorem State.countF_snd (s : State) (o m l n : Nat) : (s.countF o m l n).snd = s.snd := rfl
@[simp] theorem State.countF_cwy (s : State) (o m l n : Nat) : (s.countF o m l n).cwy = s.cwy := rfl

@[simp] theorem State.raise_pending (s : State) (o b : Nat) : (s.raise o b).pending = s.pending := by unfold State.raise; split <;> rfl
@[simp] theorem State.raise_freeCtr (s : State) (o b : Nat) : (s.raise o b).freeCtr = s.freeCtr := by unfold State.raise; split <;> rfl
@[simp] theorem State.raise_shadows (s : State) (o b : Nat) : (s.raise o b).shadows = s.shadows := by unfold State.raise; split <;> rfl
@[simp] theorem State.raise_boot (s : State) (o b : Nat) : (s.raise o b).boot = s.boot := by unfold State.raise; split <;> rfl
@[simp] theorem State.raise_clk (s : State) (o b : Nat) : (s.raise o b).clk = s.clk := by unfold State.raise; split <;> rfl
@[simp] theorem State.raise_evr (s : State) (o b : Nat) : (s.raise o b).evr = s.evr := by unfold State.raise; split <;> rfl
@[simp] theorem State.raise_nvm (s : State) (o b : Nat) : (s.raise o b).nvm = s.nvm := by unfold State.raise; split <;> rfl
@[simp] theorem State.raise_hst (s : State) (o b : Nat) : (s.raise o b).hst = s.hst := by unfold State.raise; split <;> rfl
@[simp] theorem State.raise_mem (s : State) (o b : Nat) : (s.raise o b).mem = s.mem := by unfold State.raise; split <;> rfl
@[simp] theorem State.raise_cal (s : State) (o b : Nat) : (s.raise o b).cal = s.cal := by unfold State.raise; split <;> rfl
@[simp] theorem State.raise_pwr (s : State) (o b : Nat) : (s.raise o b).pwr = s.pwr := by unfold State.raise; split <;> rfl
@[simp] theorem State.raise_seqs (s : State) (o b : Nat) : (s.raise o b).seqs = s.seqs := by unfold State.raise; split <;> rfl
@[simp] theorem State.raise_lanes (s : State) (o b : Nat) : (s.raise o b).lanes = s.lanes := by unfold State.raise; split <;> rfl
@[simp] theorem State.raise_clus (s : State) (o b : Nat) : (s.raise o b).clus = s.clus := by unfold State.raise; split <;> rfl
@[simp] theorem State.raise_chans (s : State) (o b : Nat) : (s.raise o b).chans = s.chans := by unfold State.raise; split <;> rfl
@[simp] theorem State.raise_plan (s : State) (o b : Nat) : (s.raise o b).plan = s.plan := by unfold State.raise; split <;> rfl
@[simp] theorem State.raise_snd (s : State) (o b : Nat) : (s.raise o b).snd = s.snd := by unfold State.raise; split <;> rfl
@[simp] theorem State.raise_cwy (s : State) (o b : Nat) : (s.raise o b).cwy = s.cwy := by unfold State.raise; split <;> rfl

@[simp] theorem State.wr64_pending (s : State) (o x : Nat) : (s.wr64 o x).pending = s.pending := rfl
@[simp] theorem State.wr64_freeCtr (s : State) (o x : Nat) : (s.wr64 o x).freeCtr = s.freeCtr := rfl
@[simp] theorem State.wr64_shadows (s : State) (o x : Nat) : (s.wr64 o x).shadows = s.shadows := rfl
@[simp] theorem State.wr64_boot (s : State) (o x : Nat) : (s.wr64 o x).boot = s.boot := rfl
@[simp] theorem State.wr64_clk (s : State) (o x : Nat) : (s.wr64 o x).clk = s.clk := rfl
@[simp] theorem State.wr64_evr (s : State) (o x : Nat) : (s.wr64 o x).evr = s.evr := rfl
@[simp] theorem State.wr64_nvm (s : State) (o x : Nat) : (s.wr64 o x).nvm = s.nvm := rfl
@[simp] theorem State.wr64_hst (s : State) (o x : Nat) : (s.wr64 o x).hst = s.hst := rfl
@[simp] theorem State.wr64_mem (s : State) (o x : Nat) : (s.wr64 o x).mem = s.mem := rfl
@[simp] theorem State.wr64_cal (s : State) (o x : Nat) : (s.wr64 o x).cal = s.cal := rfl
@[simp] theorem State.wr64_pwr (s : State) (o x : Nat) : (s.wr64 o x).pwr = s.pwr := rfl
@[simp] theorem State.wr64_seqs (s : State) (o x : Nat) : (s.wr64 o x).seqs = s.seqs := rfl
@[simp] theorem State.wr64_lanes (s : State) (o x : Nat) : (s.wr64 o x).lanes = s.lanes := rfl
@[simp] theorem State.wr64_clus (s : State) (o x : Nat) : (s.wr64 o x).clus = s.clus := rfl
@[simp] theorem State.wr64_chans (s : State) (o x : Nat) : (s.wr64 o x).chans = s.chans := rfl
@[simp] theorem State.wr64_plan (s : State) (o x : Nat) : (s.wr64 o x).plan = s.plan := rfl
@[simp] theorem State.wr64_snd (s : State) (o x : Nat) : (s.wr64 o x).snd = s.snd := rfl
@[simp] theorem State.wr64_cwy (s : State) (o x : Nat) : (s.wr64 o x).cwy = s.cwy := rfl

@[simp] theorem State.setSeq_pending (s : State) (q : Nat) (v : Seq) : (s.setSeq q v).pending = s.pending := rfl
@[simp] theorem State.setSeq_freeCtr (s : State) (q : Nat) (v : Seq) : (s.setSeq q v).freeCtr = s.freeCtr := rfl
@[simp] theorem State.setSeq_regs (s : State) (q : Nat) (v : Seq) : (s.setSeq q v).regs = s.regs := rfl
@[simp] theorem State.setSeq_shadows (s : State) (q : Nat) (v : Seq) : (s.setSeq q v).shadows = s.shadows := rfl
@[simp] theorem State.setSeq_boot (s : State) (q : Nat) (v : Seq) : (s.setSeq q v).boot = s.boot := rfl
@[simp] theorem State.setSeq_clk (s : State) (q : Nat) (v : Seq) : (s.setSeq q v).clk = s.clk := rfl
@[simp] theorem State.setSeq_evr (s : State) (q : Nat) (v : Seq) : (s.setSeq q v).evr = s.evr := rfl
@[simp] theorem State.setSeq_nvm (s : State) (q : Nat) (v : Seq) : (s.setSeq q v).nvm = s.nvm := rfl
@[simp] theorem State.setSeq_hst (s : State) (q : Nat) (v : Seq) : (s.setSeq q v).hst = s.hst := rfl
@[simp] theorem State.setSeq_mem (s : State) (q : Nat) (v : Seq) : (s.setSeq q v).mem = s.mem := rfl
@[simp] theorem State.setSeq_cal (s : State) (q : Nat) (v : Seq) : (s.setSeq q v).cal = s.cal := rfl
@[simp] theorem State.setSeq_pwr (s : State) (q : Nat) (v : Seq) : (s.setSeq q v).pwr = s.pwr := rfl
@[simp] theorem State.setSeq_lanes (s : State) (q : Nat) (v : Seq) : (s.setSeq q v).lanes = s.lanes := rfl
@[simp] theorem State.setSeq_clus (s : State) (q : Nat) (v : Seq) : (s.setSeq q v).clus = s.clus := rfl
@[simp] theorem State.setSeq_chans (s : State) (q : Nat) (v : Seq) : (s.setSeq q v).chans = s.chans := rfl
@[simp] theorem State.setSeq_plan (s : State) (q : Nat) (v : Seq) : (s.setSeq q v).plan = s.plan := rfl
@[simp] theorem State.setSeq_snd (s : State) (q : Nat) (v : Seq) : (s.setSeq q v).snd = s.snd := rfl
@[simp] theorem State.setSeq_cwy (s : State) (q : Nat) (v : Seq) : (s.setSeq q v).cwy = s.cwy := rfl

@[simp] theorem State.modSeq_pending (s : State) (q : Nat) (f : Seq → Seq) : (s.modSeq q f).pending = s.pending := rfl
@[simp] theorem State.modSeq_freeCtr (s : State) (q : Nat) (f : Seq → Seq) : (s.modSeq q f).freeCtr = s.freeCtr := rfl
@[simp] theorem State.modSeq_regs (s : State) (q : Nat) (f : Seq → Seq) : (s.modSeq q f).regs = s.regs := rfl
@[simp] theorem State.modSeq_shadows (s : State) (q : Nat) (f : Seq → Seq) : (s.modSeq q f).shadows = s.shadows := rfl
@[simp] theorem State.modSeq_boot (s : State) (q : Nat) (f : Seq → Seq) : (s.modSeq q f).boot = s.boot := rfl
@[simp] theorem State.modSeq_clk (s : State) (q : Nat) (f : Seq → Seq) : (s.modSeq q f).clk = s.clk := rfl
@[simp] theorem State.modSeq_evr (s : State) (q : Nat) (f : Seq → Seq) : (s.modSeq q f).evr = s.evr := rfl
@[simp] theorem State.modSeq_nvm (s : State) (q : Nat) (f : Seq → Seq) : (s.modSeq q f).nvm = s.nvm := rfl
@[simp] theorem State.modSeq_hst (s : State) (q : Nat) (f : Seq → Seq) : (s.modSeq q f).hst = s.hst := rfl
@[simp] theorem State.modSeq_mem (s : State) (q : Nat) (f : Seq → Seq) : (s.modSeq q f).mem = s.mem := rfl
@[simp] theorem State.modSeq_cal (s : State) (q : Nat) (f : Seq → Seq) : (s.modSeq q f).cal = s.cal := rfl
@[simp] theorem State.modSeq_pwr (s : State) (q : Nat) (f : Seq → Seq) : (s.modSeq q f).pwr = s.pwr := rfl
@[simp] theorem State.modSeq_lanes (s : State) (q : Nat) (f : Seq → Seq) : (s.modSeq q f).lanes = s.lanes := rfl
@[simp] theorem State.modSeq_clus (s : State) (q : Nat) (f : Seq → Seq) : (s.modSeq q f).clus = s.clus := rfl
@[simp] theorem State.modSeq_chans (s : State) (q : Nat) (f : Seq → Seq) : (s.modSeq q f).chans = s.chans := rfl
@[simp] theorem State.modSeq_plan (s : State) (q : Nat) (f : Seq → Seq) : (s.modSeq q f).plan = s.plan := rfl
@[simp] theorem State.modSeq_snd (s : State) (q : Nat) (f : Seq → Seq) : (s.modSeq q f).snd = s.snd := rfl
@[simp] theorem State.modSeq_cwy (s : State) (q : Nat) (f : Seq → Seq) : (s.modSeq q f).cwy = s.cwy := rfl

@[simp] theorem State.setLane_pending (s : State) (c : Nat) (v : Lane) : (s.setLane c v).pending = s.pending := rfl
@[simp] theorem State.setLane_freeCtr (s : State) (c : Nat) (v : Lane) : (s.setLane c v).freeCtr = s.freeCtr := rfl
@[simp] theorem State.setLane_regs (s : State) (c : Nat) (v : Lane) : (s.setLane c v).regs = s.regs := rfl
@[simp] theorem State.setLane_shadows (s : State) (c : Nat) (v : Lane) : (s.setLane c v).shadows = s.shadows := rfl
@[simp] theorem State.setLane_boot (s : State) (c : Nat) (v : Lane) : (s.setLane c v).boot = s.boot := rfl
@[simp] theorem State.setLane_clk (s : State) (c : Nat) (v : Lane) : (s.setLane c v).clk = s.clk := rfl
@[simp] theorem State.setLane_evr (s : State) (c : Nat) (v : Lane) : (s.setLane c v).evr = s.evr := rfl
@[simp] theorem State.setLane_nvm (s : State) (c : Nat) (v : Lane) : (s.setLane c v).nvm = s.nvm := rfl
@[simp] theorem State.setLane_hst (s : State) (c : Nat) (v : Lane) : (s.setLane c v).hst = s.hst := rfl
@[simp] theorem State.setLane_mem (s : State) (c : Nat) (v : Lane) : (s.setLane c v).mem = s.mem := rfl
@[simp] theorem State.setLane_cal (s : State) (c : Nat) (v : Lane) : (s.setLane c v).cal = s.cal := rfl
@[simp] theorem State.setLane_pwr (s : State) (c : Nat) (v : Lane) : (s.setLane c v).pwr = s.pwr := rfl
@[simp] theorem State.setLane_seqs (s : State) (c : Nat) (v : Lane) : (s.setLane c v).seqs = s.seqs := rfl
@[simp] theorem State.setLane_clus (s : State) (c : Nat) (v : Lane) : (s.setLane c v).clus = s.clus := rfl
@[simp] theorem State.setLane_chans (s : State) (c : Nat) (v : Lane) : (s.setLane c v).chans = s.chans := rfl
@[simp] theorem State.setLane_plan (s : State) (c : Nat) (v : Lane) : (s.setLane c v).plan = s.plan := rfl
@[simp] theorem State.setLane_snd (s : State) (c : Nat) (v : Lane) : (s.setLane c v).snd = s.snd := rfl
@[simp] theorem State.setLane_cwy (s : State) (c : Nat) (v : Lane) : (s.setLane c v).cwy = s.cwy := rfl

@[simp] theorem State.modLane_pending (s : State) (c : Nat) (f : Lane → Lane) : (s.modLane c f).pending = s.pending := rfl
@[simp] theorem State.modLane_freeCtr (s : State) (c : Nat) (f : Lane → Lane) : (s.modLane c f).freeCtr = s.freeCtr := rfl
@[simp] theorem State.modLane_regs (s : State) (c : Nat) (f : Lane → Lane) : (s.modLane c f).regs = s.regs := rfl
@[simp] theorem State.modLane_shadows (s : State) (c : Nat) (f : Lane → Lane) : (s.modLane c f).shadows = s.shadows := rfl
@[simp] theorem State.modLane_boot (s : State) (c : Nat) (f : Lane → Lane) : (s.modLane c f).boot = s.boot := rfl
@[simp] theorem State.modLane_clk (s : State) (c : Nat) (f : Lane → Lane) : (s.modLane c f).clk = s.clk := rfl
@[simp] theorem State.modLane_evr (s : State) (c : Nat) (f : Lane → Lane) : (s.modLane c f).evr = s.evr := rfl
@[simp] theorem State.modLane_nvm (s : State) (c : Nat) (f : Lane → Lane) : (s.modLane c f).nvm = s.nvm := rfl
@[simp] theorem State.modLane_hst (s : State) (c : Nat) (f : Lane → Lane) : (s.modLane c f).hst = s.hst := rfl
@[simp] theorem State.modLane_mem (s : State) (c : Nat) (f : Lane → Lane) : (s.modLane c f).mem = s.mem := rfl
@[simp] theorem State.modLane_cal (s : State) (c : Nat) (f : Lane → Lane) : (s.modLane c f).cal = s.cal := rfl
@[simp] theorem State.modLane_pwr (s : State) (c : Nat) (f : Lane → Lane) : (s.modLane c f).pwr = s.pwr := rfl
@[simp] theorem State.modLane_seqs (s : State) (c : Nat) (f : Lane → Lane) : (s.modLane c f).seqs = s.seqs := rfl
@[simp] theorem State.modLane_clus (s : State) (c : Nat) (f : Lane → Lane) : (s.modLane c f).clus = s.clus := rfl
@[simp] theorem State.modLane_chans (s : State) (c : Nat) (f : Lane → Lane) : (s.modLane c f).chans = s.chans := rfl
@[simp] theorem State.modLane_plan (s : State) (c : Nat) (f : Lane → Lane) : (s.modLane c f).plan = s.plan := rfl
@[simp] theorem State.modLane_snd (s : State) (c : Nat) (f : Lane → Lane) : (s.modLane c f).snd = s.snd := rfl
@[simp] theorem State.modLane_cwy (s : State) (c : Nat) (f : Lane → Lane) : (s.modLane c f).cwy = s.cwy := rfl

@[simp] theorem State.setClu_pending (s : State) (c : Nat) (v : Clu) : (s.setClu c v).pending = s.pending := rfl
@[simp] theorem State.setClu_freeCtr (s : State) (c : Nat) (v : Clu) : (s.setClu c v).freeCtr = s.freeCtr := rfl
@[simp] theorem State.setClu_regs (s : State) (c : Nat) (v : Clu) : (s.setClu c v).regs = s.regs := rfl
@[simp] theorem State.setClu_shadows (s : State) (c : Nat) (v : Clu) : (s.setClu c v).shadows = s.shadows := rfl
@[simp] theorem State.setClu_boot (s : State) (c : Nat) (v : Clu) : (s.setClu c v).boot = s.boot := rfl
@[simp] theorem State.setClu_clk (s : State) (c : Nat) (v : Clu) : (s.setClu c v).clk = s.clk := rfl
@[simp] theorem State.setClu_evr (s : State) (c : Nat) (v : Clu) : (s.setClu c v).evr = s.evr := rfl
@[simp] theorem State.setClu_nvm (s : State) (c : Nat) (v : Clu) : (s.setClu c v).nvm = s.nvm := rfl
@[simp] theorem State.setClu_hst (s : State) (c : Nat) (v : Clu) : (s.setClu c v).hst = s.hst := rfl
@[simp] theorem State.setClu_mem (s : State) (c : Nat) (v : Clu) : (s.setClu c v).mem = s.mem := rfl
@[simp] theorem State.setClu_cal (s : State) (c : Nat) (v : Clu) : (s.setClu c v).cal = s.cal := rfl
@[simp] theorem State.setClu_pwr (s : State) (c : Nat) (v : Clu) : (s.setClu c v).pwr = s.pwr := rfl
@[simp] theorem State.setClu_seqs (s : State) (c : Nat) (v : Clu) : (s.setClu c v).seqs = s.seqs := rfl
@[simp] theorem State.setClu_lanes (s : State) (c : Nat) (v : Clu) : (s.setClu c v).lanes = s.lanes := rfl
@[simp] theorem State.setClu_chans (s : State) (c : Nat) (v : Clu) : (s.setClu c v).chans = s.chans := rfl
@[simp] theorem State.setClu_plan (s : State) (c : Nat) (v : Clu) : (s.setClu c v).plan = s.plan := rfl
@[simp] theorem State.setClu_snd (s : State) (c : Nat) (v : Clu) : (s.setClu c v).snd = s.snd := rfl
@[simp] theorem State.setClu_cwy (s : State) (c : Nat) (v : Clu) : (s.setClu c v).cwy = s.cwy := rfl

@[simp] theorem State.modClu_pending (s : State) (c : Nat) (f : Clu → Clu) : (s.modClu c f).pending = s.pending := rfl
@[simp] theorem State.modClu_freeCtr (s : State) (c : Nat) (f : Clu → Clu) : (s.modClu c f).freeCtr = s.freeCtr := rfl
@[simp] theorem State.modClu_regs (s : State) (c : Nat) (f : Clu → Clu) : (s.modClu c f).regs = s.regs := rfl
@[simp] theorem State.modClu_shadows (s : State) (c : Nat) (f : Clu → Clu) : (s.modClu c f).shadows = s.shadows := rfl
@[simp] theorem State.modClu_boot (s : State) (c : Nat) (f : Clu → Clu) : (s.modClu c f).boot = s.boot := rfl
@[simp] theorem State.modClu_clk (s : State) (c : Nat) (f : Clu → Clu) : (s.modClu c f).clk = s.clk := rfl
@[simp] theorem State.modClu_evr (s : State) (c : Nat) (f : Clu → Clu) : (s.modClu c f).evr = s.evr := rfl
@[simp] theorem State.modClu_nvm (s : State) (c : Nat) (f : Clu → Clu) : (s.modClu c f).nvm = s.nvm := rfl
@[simp] theorem State.modClu_hst (s : State) (c : Nat) (f : Clu → Clu) : (s.modClu c f).hst = s.hst := rfl
@[simp] theorem State.modClu_mem (s : State) (c : Nat) (f : Clu → Clu) : (s.modClu c f).mem = s.mem := rfl
@[simp] theorem State.modClu_cal (s : State) (c : Nat) (f : Clu → Clu) : (s.modClu c f).cal = s.cal := rfl
@[simp] theorem State.modClu_pwr (s : State) (c : Nat) (f : Clu → Clu) : (s.modClu c f).pwr = s.pwr := rfl
@[simp] theorem State.modClu_seqs (s : State) (c : Nat) (f : Clu → Clu) : (s.modClu c f).seqs = s.seqs := rfl
@[simp] theorem State.modClu_lanes (s : State) (c : Nat) (f : Clu → Clu) : (s.modClu c f).lanes = s.lanes := rfl
@[simp] theorem State.modClu_chans (s : State) (c : Nat) (f : Clu → Clu) : (s.modClu c f).chans = s.chans := rfl
@[simp] theorem State.modClu_plan (s : State) (c : Nat) (f : Clu → Clu) : (s.modClu c f).plan = s.plan := rfl
@[simp] theorem State.modClu_snd (s : State) (c : Nat) (f : Clu → Clu) : (s.modClu c f).snd = s.snd := rfl
@[simp] theorem State.modClu_cwy (s : State) (c : Nat) (f : Clu → Clu) : (s.modClu c f).cwy = s.cwy := rfl

@[simp] theorem State.setChan_pending (s : State) (n : Nat) (v : Chan) : (s.setChan n v).pending = s.pending := rfl
@[simp] theorem State.setChan_freeCtr (s : State) (n : Nat) (v : Chan) : (s.setChan n v).freeCtr = s.freeCtr := rfl
@[simp] theorem State.setChan_regs (s : State) (n : Nat) (v : Chan) : (s.setChan n v).regs = s.regs := rfl
@[simp] theorem State.setChan_shadows (s : State) (n : Nat) (v : Chan) : (s.setChan n v).shadows = s.shadows := rfl
@[simp] theorem State.setChan_boot (s : State) (n : Nat) (v : Chan) : (s.setChan n v).boot = s.boot := rfl
@[simp] theorem State.setChan_clk (s : State) (n : Nat) (v : Chan) : (s.setChan n v).clk = s.clk := rfl
@[simp] theorem State.setChan_evr (s : State) (n : Nat) (v : Chan) : (s.setChan n v).evr = s.evr := rfl
@[simp] theorem State.setChan_nvm (s : State) (n : Nat) (v : Chan) : (s.setChan n v).nvm = s.nvm := rfl
@[simp] theorem State.setChan_hst (s : State) (n : Nat) (v : Chan) : (s.setChan n v).hst = s.hst := rfl
@[simp] theorem State.setChan_mem (s : State) (n : Nat) (v : Chan) : (s.setChan n v).mem = s.mem := rfl
@[simp] theorem State.setChan_cal (s : State) (n : Nat) (v : Chan) : (s.setChan n v).cal = s.cal := rfl
@[simp] theorem State.setChan_pwr (s : State) (n : Nat) (v : Chan) : (s.setChan n v).pwr = s.pwr := rfl
@[simp] theorem State.setChan_seqs (s : State) (n : Nat) (v : Chan) : (s.setChan n v).seqs = s.seqs := rfl
@[simp] theorem State.setChan_lanes (s : State) (n : Nat) (v : Chan) : (s.setChan n v).lanes = s.lanes := rfl
@[simp] theorem State.setChan_clus (s : State) (n : Nat) (v : Chan) : (s.setChan n v).clus = s.clus := rfl
@[simp] theorem State.setChan_plan (s : State) (n : Nat) (v : Chan) : (s.setChan n v).plan = s.plan := rfl
@[simp] theorem State.setChan_snd (s : State) (n : Nat) (v : Chan) : (s.setChan n v).snd = s.snd := rfl
@[simp] theorem State.setChan_cwy (s : State) (n : Nat) (v : Chan) : (s.setChan n v).cwy = s.cwy := rfl

@[simp] theorem State.modChan_pending (s : State) (n : Nat) (f : Chan → Chan) : (s.modChan n f).pending = s.pending := rfl
@[simp] theorem State.modChan_freeCtr (s : State) (n : Nat) (f : Chan → Chan) : (s.modChan n f).freeCtr = s.freeCtr := rfl
@[simp] theorem State.modChan_regs (s : State) (n : Nat) (f : Chan → Chan) : (s.modChan n f).regs = s.regs := rfl
@[simp] theorem State.modChan_shadows (s : State) (n : Nat) (f : Chan → Chan) : (s.modChan n f).shadows = s.shadows := rfl
@[simp] theorem State.modChan_boot (s : State) (n : Nat) (f : Chan → Chan) : (s.modChan n f).boot = s.boot := rfl
@[simp] theorem State.modChan_clk (s : State) (n : Nat) (f : Chan → Chan) : (s.modChan n f).clk = s.clk := rfl
@[simp] theorem State.modChan_evr (s : State) (n : Nat) (f : Chan → Chan) : (s.modChan n f).evr = s.evr := rfl
@[simp] theorem State.modChan_nvm (s : State) (n : Nat) (f : Chan → Chan) : (s.modChan n f).nvm = s.nvm := rfl
@[simp] theorem State.modChan_hst (s : State) (n : Nat) (f : Chan → Chan) : (s.modChan n f).hst = s.hst := rfl
@[simp] theorem State.modChan_mem (s : State) (n : Nat) (f : Chan → Chan) : (s.modChan n f).mem = s.mem := rfl
@[simp] theorem State.modChan_cal (s : State) (n : Nat) (f : Chan → Chan) : (s.modChan n f).cal = s.cal := rfl
@[simp] theorem State.modChan_pwr (s : State) (n : Nat) (f : Chan → Chan) : (s.modChan n f).pwr = s.pwr := rfl
@[simp] theorem State.modChan_seqs (s : State) (n : Nat) (f : Chan → Chan) : (s.modChan n f).seqs = s.seqs := rfl
@[simp] theorem State.modChan_lanes (s : State) (n : Nat) (f : Chan → Chan) : (s.modChan n f).lanes = s.lanes := rfl
@[simp] theorem State.modChan_clus (s : State) (n : Nat) (f : Chan → Chan) : (s.modChan n f).clus = s.clus := rfl
@[simp] theorem State.modChan_plan (s : State) (n : Nat) (f : Chan → Chan) : (s.modChan n f).plan = s.plan := rfl
@[simp] theorem State.modChan_snd (s : State) (n : Nat) (f : Chan → Chan) : (s.modChan n f).snd = s.snd := rfl
@[simp] theorem State.modChan_cwy (s : State) (n : Nat) (f : Chan → Chan) : (s.modChan n f).cwy = s.cwy := rfl

@[simp] theorem State.flashWr_pending (s : State) (a : Nat) (bs : List Byte) : (s.flashWr a bs).pending = s.pending := rfl
@[simp] theorem State.flashWr_freeCtr (s : State) (a : Nat) (bs : List Byte) : (s.flashWr a bs).freeCtr = s.freeCtr := rfl
@[simp] theorem State.flashWr_regs (s : State) (a : Nat) (bs : List Byte) : (s.flashWr a bs).regs = s.regs := rfl
@[simp] theorem State.flashWr_shadows (s : State) (a : Nat) (bs : List Byte) : (s.flashWr a bs).shadows = s.shadows := rfl
@[simp] theorem State.flashWr_boot (s : State) (a : Nat) (bs : List Byte) : (s.flashWr a bs).boot = s.boot := rfl
@[simp] theorem State.flashWr_clk (s : State) (a : Nat) (bs : List Byte) : (s.flashWr a bs).clk = s.clk := rfl
@[simp] theorem State.flashWr_evr (s : State) (a : Nat) (bs : List Byte) : (s.flashWr a bs).evr = s.evr := rfl
@[simp] theorem State.flashWr_hst (s : State) (a : Nat) (bs : List Byte) : (s.flashWr a bs).hst = s.hst := rfl
@[simp] theorem State.flashWr_mem (s : State) (a : Nat) (bs : List Byte) : (s.flashWr a bs).mem = s.mem := rfl
@[simp] theorem State.flashWr_cal (s : State) (a : Nat) (bs : List Byte) : (s.flashWr a bs).cal = s.cal := rfl
@[simp] theorem State.flashWr_pwr (s : State) (a : Nat) (bs : List Byte) : (s.flashWr a bs).pwr = s.pwr := rfl
@[simp] theorem State.flashWr_seqs (s : State) (a : Nat) (bs : List Byte) : (s.flashWr a bs).seqs = s.seqs := rfl
@[simp] theorem State.flashWr_lanes (s : State) (a : Nat) (bs : List Byte) : (s.flashWr a bs).lanes = s.lanes := rfl
@[simp] theorem State.flashWr_clus (s : State) (a : Nat) (bs : List Byte) : (s.flashWr a bs).clus = s.clus := rfl
@[simp] theorem State.flashWr_chans (s : State) (a : Nat) (bs : List Byte) : (s.flashWr a bs).chans = s.chans := rfl
@[simp] theorem State.flashWr_plan (s : State) (a : Nat) (bs : List Byte) : (s.flashWr a bs).plan = s.plan := rfl
@[simp] theorem State.flashWr_snd (s : State) (a : Nat) (bs : List Byte) : (s.flashWr a bs).snd = s.snd := rfl
@[simp] theorem State.flashWr_cwy (s : State) (a : Nat) (bs : List Byte) : (s.flashWr a bs).cwy = s.cwy := rfl

@[simp] theorem State.flashErase_pending (s : State) (a n : Nat) : (s.flashErase a n).pending = s.pending := rfl
@[simp] theorem State.flashErase_freeCtr (s : State) (a n : Nat) : (s.flashErase a n).freeCtr = s.freeCtr := rfl
@[simp] theorem State.flashErase_regs (s : State) (a n : Nat) : (s.flashErase a n).regs = s.regs := rfl
@[simp] theorem State.flashErase_shadows (s : State) (a n : Nat) : (s.flashErase a n).shadows = s.shadows := rfl
@[simp] theorem State.flashErase_boot (s : State) (a n : Nat) : (s.flashErase a n).boot = s.boot := rfl
@[simp] theorem State.flashErase_clk (s : State) (a n : Nat) : (s.flashErase a n).clk = s.clk := rfl
@[simp] theorem State.flashErase_evr (s : State) (a n : Nat) : (s.flashErase a n).evr = s.evr := rfl
@[simp] theorem State.flashErase_hst (s : State) (a n : Nat) : (s.flashErase a n).hst = s.hst := rfl
@[simp] theorem State.flashErase_mem (s : State) (a n : Nat) : (s.flashErase a n).mem = s.mem := rfl
@[simp] theorem State.flashErase_cal (s : State) (a n : Nat) : (s.flashErase a n).cal = s.cal := rfl
@[simp] theorem State.flashErase_pwr (s : State) (a n : Nat) : (s.flashErase a n).pwr = s.pwr := rfl
@[simp] theorem State.flashErase_seqs (s : State) (a n : Nat) : (s.flashErase a n).seqs = s.seqs := rfl
@[simp] theorem State.flashErase_lanes (s : State) (a n : Nat) : (s.flashErase a n).lanes = s.lanes := rfl
@[simp] theorem State.flashErase_clus (s : State) (a n : Nat) : (s.flashErase a n).clus = s.clus := rfl
@[simp] theorem State.flashErase_chans (s : State) (a n : Nat) : (s.flashErase a n).chans = s.chans := rfl
@[simp] theorem State.flashErase_plan (s : State) (a n : Nat) : (s.flashErase a n).plan = s.plan := rfl
@[simp] theorem State.flashErase_snd (s : State) (a n : Nat) : (s.flashErase a n).snd = s.snd := rfl
@[simp] theorem State.flashErase_cwy (s : State) (a n : Nat) : (s.flashErase a n).cwy = s.cwy := rfl

@[simp] theorem State.dramWr_pending (s : State) (a : Nat) (bs : List Byte) : (s.dramWr a bs).pending = s.pending := rfl
@[simp] theorem State.dramWr_freeCtr (s : State) (a : Nat) (bs : List Byte) : (s.dramWr a bs).freeCtr = s.freeCtr := rfl
@[simp] theorem State.dramWr_regs (s : State) (a : Nat) (bs : List Byte) : (s.dramWr a bs).regs = s.regs := rfl
@[simp] theorem State.dramWr_shadows (s : State) (a : Nat) (bs : List Byte) : (s.dramWr a bs).shadows = s.shadows := rfl
@[simp] theorem State.dramWr_boot (s : State) (a : Nat) (bs : List Byte) : (s.dramWr a bs).boot = s.boot := rfl
@[simp] theorem State.dramWr_clk (s : State) (a : Nat) (bs : List Byte) : (s.dramWr a bs).clk = s.clk := rfl
@[simp] theorem State.dramWr_evr (s : State) (a : Nat) (bs : List Byte) : (s.dramWr a bs).evr = s.evr := rfl
@[simp] theorem State.dramWr_nvm (s : State) (a : Nat) (bs : List Byte) : (s.dramWr a bs).nvm = s.nvm := rfl
@[simp] theorem State.dramWr_hst (s : State) (a : Nat) (bs : List Byte) : (s.dramWr a bs).hst = s.hst := rfl
@[simp] theorem State.dramWr_cal (s : State) (a : Nat) (bs : List Byte) : (s.dramWr a bs).cal = s.cal := rfl
@[simp] theorem State.dramWr_pwr (s : State) (a : Nat) (bs : List Byte) : (s.dramWr a bs).pwr = s.pwr := rfl
@[simp] theorem State.dramWr_seqs (s : State) (a : Nat) (bs : List Byte) : (s.dramWr a bs).seqs = s.seqs := rfl
@[simp] theorem State.dramWr_lanes (s : State) (a : Nat) (bs : List Byte) : (s.dramWr a bs).lanes = s.lanes := rfl
@[simp] theorem State.dramWr_clus (s : State) (a : Nat) (bs : List Byte) : (s.dramWr a bs).clus = s.clus := rfl
@[simp] theorem State.dramWr_chans (s : State) (a : Nat) (bs : List Byte) : (s.dramWr a bs).chans = s.chans := rfl
@[simp] theorem State.dramWr_plan (s : State) (a : Nat) (bs : List Byte) : (s.dramWr a bs).plan = s.plan := rfl
@[simp] theorem State.dramWr_snd (s : State) (a : Nat) (bs : List Byte) : (s.dramWr a bs).snd = s.snd := rfl
@[simp] theorem State.dramWr_cwy (s : State) (a : Nat) (bs : List Byte) : (s.dramWr a bs).cwy = s.cwy := rfl

@[simp] theorem State.sendMsg_pending (s : State) (v : Nat) : (s.sendMsg v).pending = s.pending := rfl
@[simp] theorem State.sendMsg_freeCtr (s : State) (v : Nat) : (s.sendMsg v).freeCtr = s.freeCtr := rfl
@[simp] theorem State.sendMsg_regs (s : State) (v : Nat) : (s.sendMsg v).regs = s.regs := rfl
@[simp] theorem State.sendMsg_shadows (s : State) (v : Nat) : (s.sendMsg v).shadows = s.shadows := rfl
@[simp] theorem State.sendMsg_boot (s : State) (v : Nat) : (s.sendMsg v).boot = s.boot := rfl
@[simp] theorem State.sendMsg_clk (s : State) (v : Nat) : (s.sendMsg v).clk = s.clk := rfl
@[simp] theorem State.sendMsg_evr (s : State) (v : Nat) : (s.sendMsg v).evr = s.evr := rfl
@[simp] theorem State.sendMsg_nvm (s : State) (v : Nat) : (s.sendMsg v).nvm = s.nvm := rfl
@[simp] theorem State.sendMsg_mem (s : State) (v : Nat) : (s.sendMsg v).mem = s.mem := rfl
@[simp] theorem State.sendMsg_cal (s : State) (v : Nat) : (s.sendMsg v).cal = s.cal := rfl
@[simp] theorem State.sendMsg_pwr (s : State) (v : Nat) : (s.sendMsg v).pwr = s.pwr := rfl
@[simp] theorem State.sendMsg_seqs (s : State) (v : Nat) : (s.sendMsg v).seqs = s.seqs := rfl
@[simp] theorem State.sendMsg_lanes (s : State) (v : Nat) : (s.sendMsg v).lanes = s.lanes := rfl
@[simp] theorem State.sendMsg_clus (s : State) (v : Nat) : (s.sendMsg v).clus = s.clus := rfl
@[simp] theorem State.sendMsg_chans (s : State) (v : Nat) : (s.sendMsg v).chans = s.chans := rfl
@[simp] theorem State.sendMsg_plan (s : State) (v : Nat) : (s.sendMsg v).plan = s.plan := rfl
@[simp] theorem State.sendMsg_snd (s : State) (v : Nat) : (s.sendMsg v).snd = s.snd := rfl
@[simp] theorem State.sendMsg_cwy (s : State) (v : Nat) : (s.sendMsg v).cwy = s.cwy := rfl

@[simp] theorem State.setPba_pending (s : State) (v : Nat) (b : Bool) : (s.setPba v b).pending = s.pending := rfl
@[simp] theorem State.setPba_freeCtr (s : State) (v : Nat) (b : Bool) : (s.setPba v b).freeCtr = s.freeCtr := rfl
@[simp] theorem State.setPba_regs (s : State) (v : Nat) (b : Bool) : (s.setPba v b).regs = s.regs := rfl
@[simp] theorem State.setPba_shadows (s : State) (v : Nat) (b : Bool) : (s.setPba v b).shadows = s.shadows := rfl
@[simp] theorem State.setPba_boot (s : State) (v : Nat) (b : Bool) : (s.setPba v b).boot = s.boot := rfl
@[simp] theorem State.setPba_clk (s : State) (v : Nat) (b : Bool) : (s.setPba v b).clk = s.clk := rfl
@[simp] theorem State.setPba_evr (s : State) (v : Nat) (b : Bool) : (s.setPba v b).evr = s.evr := rfl
@[simp] theorem State.setPba_nvm (s : State) (v : Nat) (b : Bool) : (s.setPba v b).nvm = s.nvm := rfl
@[simp] theorem State.setPba_mem (s : State) (v : Nat) (b : Bool) : (s.setPba v b).mem = s.mem := rfl
@[simp] theorem State.setPba_cal (s : State) (v : Nat) (b : Bool) : (s.setPba v b).cal = s.cal := rfl
@[simp] theorem State.setPba_pwr (s : State) (v : Nat) (b : Bool) : (s.setPba v b).pwr = s.pwr := rfl
@[simp] theorem State.setPba_seqs (s : State) (v : Nat) (b : Bool) : (s.setPba v b).seqs = s.seqs := rfl
@[simp] theorem State.setPba_lanes (s : State) (v : Nat) (b : Bool) : (s.setPba v b).lanes = s.lanes := rfl
@[simp] theorem State.setPba_clus (s : State) (v : Nat) (b : Bool) : (s.setPba v b).clus = s.clus := rfl
@[simp] theorem State.setPba_chans (s : State) (v : Nat) (b : Bool) : (s.setPba v b).chans = s.chans := rfl
@[simp] theorem State.setPba_plan (s : State) (v : Nat) (b : Bool) : (s.setPba v b).plan = s.plan := rfl
@[simp] theorem State.setPba_snd (s : State) (v : Nat) (b : Bool) : (s.setPba v b).snd = s.snd := rfl
@[simp] theorem State.setPba_cwy (s : State) (v : Nat) (b : Bool) : (s.setPba v b).cwy = s.cwy := rfl

@[simp] theorem State.hostWr_pending (s : State) (a : Nat) (bs : List Byte) : (s.hostWr a bs).pending = s.pending := rfl
@[simp] theorem State.hostWr_freeCtr (s : State) (a : Nat) (bs : List Byte) : (s.hostWr a bs).freeCtr = s.freeCtr := rfl
@[simp] theorem State.hostWr_regs (s : State) (a : Nat) (bs : List Byte) : (s.hostWr a bs).regs = s.regs := rfl
@[simp] theorem State.hostWr_shadows (s : State) (a : Nat) (bs : List Byte) : (s.hostWr a bs).shadows = s.shadows := rfl
@[simp] theorem State.hostWr_boot (s : State) (a : Nat) (bs : List Byte) : (s.hostWr a bs).boot = s.boot := rfl
@[simp] theorem State.hostWr_clk (s : State) (a : Nat) (bs : List Byte) : (s.hostWr a bs).clk = s.clk := rfl
@[simp] theorem State.hostWr_evr (s : State) (a : Nat) (bs : List Byte) : (s.hostWr a bs).evr = s.evr := rfl
@[simp] theorem State.hostWr_nvm (s : State) (a : Nat) (bs : List Byte) : (s.hostWr a bs).nvm = s.nvm := rfl
@[simp] theorem State.hostWr_mem (s : State) (a : Nat) (bs : List Byte) : (s.hostWr a bs).mem = s.mem := rfl
@[simp] theorem State.hostWr_cal (s : State) (a : Nat) (bs : List Byte) : (s.hostWr a bs).cal = s.cal := rfl
@[simp] theorem State.hostWr_pwr (s : State) (a : Nat) (bs : List Byte) : (s.hostWr a bs).pwr = s.pwr := rfl
@[simp] theorem State.hostWr_seqs (s : State) (a : Nat) (bs : List Byte) : (s.hostWr a bs).seqs = s.seqs := rfl
@[simp] theorem State.hostWr_lanes (s : State) (a : Nat) (bs : List Byte) : (s.hostWr a bs).lanes = s.lanes := rfl
@[simp] theorem State.hostWr_clus (s : State) (a : Nat) (bs : List Byte) : (s.hostWr a bs).clus = s.clus := rfl
@[simp] theorem State.hostWr_chans (s : State) (a : Nat) (bs : List Byte) : (s.hostWr a bs).chans = s.chans := rfl
@[simp] theorem State.hostWr_plan (s : State) (a : Nat) (bs : List Byte) : (s.hostWr a bs).plan = s.plan := rfl
@[simp] theorem State.hostWr_snd (s : State) (a : Nat) (bs : List Byte) : (s.hostWr a bs).snd = s.snd := rfl
@[simp] theorem State.hostWr_cwy (s : State) (a : Nat) (bs : List Byte) : (s.hostWr a bs).cwy = s.cwy := rfl

/-! ### Registers -/

theorem State.rd_wr (s : State) (o : Nat) (v : W32) (i : Nat) : (s.wr o v).rd i = if i = o then v else s.rd i :=
  Tbl.get_set resetWord s.regs o v i

@[simp] theorem State.rd_wr_same (s : State) (o : Nat) (v : W32) : (s.wr o v).rd o = v := by rw [State.rd_wr, if_pos rfl]

theorem State.rd_wr_ne (s : State) {o i : Nat} (h : i ≠ o) (v : W32) : (s.wr o v).rd i = s.rd i := by rw [State.rd_wr, if_neg h]

theorem State.rd_wrF_ne (s : State) {o i : Nat} (h : i ≠ o) (m l x : Nat) : (s.wrF o m l x).rd i = s.rd i := State.rd_wr_ne s h _

theorem State.rd_wrB_ne (s : State) {o i : Nat} (h : i ≠ o) (n : Nat) (b : Bool) : (s.wrB o n b).rd i = s.rd i := State.rd_wr_ne s h _

theorem State.rdF_wr_ne (s : State) {o i : Nat} (h : i ≠ o) (v : W32) (m l : Nat) : (s.wr o v).rdF i m l = s.rdF i m l := by
  unfold State.rdF; rw [State.rd_wr_ne s h]

theorem State.rdB_wr_ne (s : State) {o i : Nat} (h : i ≠ o) (v : W32) (n : Nat) : (s.wr o v).rdB i n = s.rdB i n := by
  unfold State.rdB; rw [State.rd_wr_ne s h]

theorem State.rdF_wrF_off (s : State) {o i : Nat} (h : i ≠ o) (m l x m' l' : Nat) : (s.wrF o m l x).rdF i m' l' = s.rdF i m' l' :=
  State.rdF_wr_ne s h _ m' l'

theorem State.rdB_wrF_off (s : State) {o i : Nat} (h : i ≠ o) (m l x n : Nat) : (s.wrF o m l x).rdB i n = s.rdB i n :=
  State.rdB_wr_ne s h _ n

theorem State.rdF_wrB_off (s : State) {o i : Nat} (h : i ≠ o) (n : Nat) (b : Bool) (m' l' : Nat) : (s.wrB o n b).rdF i m' l' = s.rdF i m' l' :=
  State.rdF_wr_ne s h _ m' l'

theorem State.rdB_wrB_off (s : State) {o i : Nat} (h : i ≠ o) (n : Nat) (b : Bool) (k : Nat) : (s.wrB o n b).rdB i k = s.rdB i k :=
  State.rdB_wr_ne s h _ k

/-- A field reads as what was put into it. -/
theorem State.rdF_wrF_same (s : State) (o : Nat) {m l : Nat} (x : Nat) (hm : m < 32) (hl : l ≤ m) :
    (s.wrF o m l x).rdF o m l = x % 2 ^ (m + 1 - l) := by
  unfold State.rdF State.wrF
  rw [State.rd_wr_same, fieldOf_withField_same _ _ _ _ hm hl]

/-- The other fields of a register stay when one is replaced. -/
theorem State.rdF_wrF_ne (s : State) (o : Nat) {m l m' l' : Nat} (x : Nat) (hm : m < 32) (hl : l ≤ m) (h : m' < l ∨ m < l') :
    (s.wrF o m l x).rdF o m' l' = s.rdF o m' l' := by
  unfold State.rdF State.wrF
  rw [State.rd_wr_same, fieldOf_withField_ne _ _ _ _ _ _ hm hl h]

theorem State.rdB_wrF (s : State) (o : Nat) {m l : Nat} (x i : Nat) (hm : m < 32) (hl : l ≤ m) :
    (s.wrF o m l x).rdB o i = if l ≤ i ∧ i ≤ m then x.testBit (i - l) else s.rdB o i := by
  unfold State.rdB State.wrF
  rw [State.rd_wr_same, bitOf_withField _ _ _ _ _ hm hl]

theorem State.rdB_wrB_same (s : State) (o : Nat) {n : Nat} (b : Bool) (hn : n < 32) : (s.wrB o n b).rdB o n = b := by
  unfold State.wrB
  rw [State.rdB_wrF s o _ _ hn (Nat.le_refl n), if_pos ⟨Nat.le_refl n, Nat.le_refl n⟩, Nat.sub_self, testBit_b2n]

theorem State.rdB_wrB_ne (s : State) (o : Nat) {n i : Nat} (b : Bool) (hn : n < 32) (h : i ≠ n) : (s.wrB o n b).rdB o i = s.rdB o i := by
  unfold State.wrB
  rw [State.rdB_wrF s o _ _ hn (Nat.le_refl n), if_neg (by omega)]

theorem State.rdF_wrB_ne (s : State) (o : Nat) {n m l : Nat} (b : Bool) (hn : n < 32) (h : m < n ∨ n < l) :
    (s.wrB o n b).rdF o m l = s.rdF o m l := State.rdF_wrF_ne s o _ hn (Nat.le_refl n) h

/-- A flag that is raised reads 1, in a cluster that is not in retention (R439). -/
theorem State.raise_rdB (s : State) (o : Nat) {b : Nat} (hr : s.retained o = false) (hb : b < 32) : (s.raise o b).rdB o b = true := by
  unfold State.raise State.countF
  rw [hr, if_neg (by decide), State.rdB_wrF_off _ (by omega)]
  unfold State.rdB
  rw [State.rd_wr_same, bitOf_or_bit32 _ _ _ hb]
  simp

/-- A flag of a cluster in retention receives no set event (R439). -/
@[simp] theorem State.raise_retained (s : State) (o b : Nat) (hr : s.retained o = true) : s.raise o b = s := by
  unfold State.raise
  rw [if_pos hr]

/-- A register outside the cluster registers belongs to no cluster in retention. -/
theorem State.retained_device (s : State) {o : Nat} (h : o < 0x800000 ∨ 0xC00000 ≤ o) : s.retained o = false := by
  unfold State.retained
  rw [Bool.and_eq_false_iff]
  left
  simp only [decide_eq_false_iff_not]
  omega

/-- Raising a flag leaves every register but its own and its counters'. -/
theorem State.raise_rd_ne (s : State) {o b i : Nat} (h : i ≠ o) (h' : i ≠ o + 4) : (s.raise o b).rd i = s.rd i := by
  unfold State.raise State.countF
  split
  · rfl
  · rw [State.rd_wrF_ne _ h', State.rd_wr_ne _ h]

/-! ### Engines -/

@[simp] theorem State.seq_setSeq_same (s : State) (q : Nat) (v : Seq) : (s.setSeq q v).seq q = v := Tbl.get_set_same _ q v s.seqs
@[simp] theorem State.lane_setLane_same (s : State) (c : Nat) (v : Lane) : (s.setLane c v).lane c = v := Tbl.get_set_same _ c v s.lanes
@[simp] theorem State.clu_setClu_same (s : State) (c : Nat) (v : Clu) : (s.setClu c v).clu c = v := Tbl.get_set_same _ c v s.clus
@[simp] theorem State.chan_setChan_same (s : State) (n : Nat) (v : Chan) : (s.setChan n v).chan n = v := Tbl.get_set_same _ n v s.chans
@[simp] theorem State.seq_modSeq_same (s : State) (q : Nat) (f : Seq → Seq) : (s.modSeq q f).seq q = f (s.seq q) := Tbl.get_set_same _ q _ s.seqs
@[simp] theorem State.lane_modLane_same (s : State) (c : Nat) (f : Lane → Lane) : (s.modLane c f).lane c = f (s.lane c) := Tbl.get_set_same _ c _ s.lanes
@[simp] theorem State.clu_modClu_same (s : State) (c : Nat) (f : Clu → Clu) : (s.modClu c f).clu c = f (s.clu c) := Tbl.get_set_same _ c _ s.clus
@[simp] theorem State.chan_modChan_same (s : State) (n : Nat) (f : Chan → Chan) : (s.modChan n f).chan n = f (s.chan n) := Tbl.get_set_same _ n _ s.chans

/-- A register store leaves every engine. -/
@[simp] theorem State.seq_wr (s : State) (o : Nat) (v : W32) (q : Nat) : (s.wr o v).seq q = s.seq q := rfl
@[simp] theorem State.lane_wr (s : State) (o : Nat) (v : W32) (c : Nat) : (s.wr o v).lane c = s.lane c := rfl
@[simp] theorem State.clu_wr (s : State) (o : Nat) (v : W32) (c : Nat) : (s.wr o v).clu c = s.clu c := rfl
@[simp] theorem State.chan_wr (s : State) (o : Nat) (v : W32) (n : Nat) : (s.wr o v).chan n = s.chan n := rfl

/-- An engine store leaves every register. -/
@[simp] theorem State.rd_modSeq (s : State) (q : Nat) (f : Seq → Seq) (o : Nat) : (s.modSeq q f).rd o = s.rd o := rfl
@[simp] theorem State.rd_modLane (s : State) (c : Nat) (f : Lane → Lane) (o : Nat) : (s.modLane c f).rd o = s.rd o := rfl
@[simp] theorem State.rd_modClu (s : State) (c : Nat) (f : Clu → Clu) (o : Nat) : (s.modClu c f).rd o = s.rd o := rfl
@[simp] theorem State.rd_modChan (s : State) (n : Nat) (f : Chan → Chan) (o : Nat) : (s.modChan n f).rd o = s.rd o := rfl

end Sys2Proof.Machine
end

