-- ==== Sys2Proof/WellFormed.lean ====
section
/-! DEFINITION. Which operands a command can carry: what the environment can present to the module at all. -/

namespace Sys2Proof

/-- The rows and spares of a march outcome lie in the macro (R441): 1,090 macros, 256 rows in a control store and 512 in any
other, 8 spares. -/
def MacroFails.wf (m : MacroFails) : Bool :=
  decide (m.macroNo < 1090) && m.rows.all (fun r => decide (r < (if m.macroNo < 264 then 256 else 512))) &&
    m.spares.all (fun r => decide (r < 8))

/-- A command's operands are ones that the environment can present: a command entry is 64 bytes (R430), a register offset is
a multiple of 4 (R7), a BAR2 access lies in the 16 GiB (R425), a line has 320 bins (R308), and so on. -/
def Instr.wf (i : Instr) : Bool :=
  match i with
  | .vinPowerUp => true
  | .pfwNAssert => true
  | .pfwShedEnd => true
  | .pfwColdStart => true
  | .vinPowerDown => true
  | .rstNAssert => true
  | .perstAssert => true
  | .warmResetEnd => true
  | .deviceResetStart => true
  | .pcieLinkReset => true
  | .sfdpRead _ _ => true
  | .persistentAreaScan => true
  | .slotSelect => true
  | .bodyStream => true
  | .calBankSelect => true
  | .configApply => true
  | .patchApply => true
  | .bootReady _ => true
  | .rollbackBurn => true
  | .bootMarch fails => fails.all MacroFails.wf
  | .dramTraining _ => true
  | .dramSelfRefreshExit => true
  | .epochTick => true
  | .optimeMs => true
  | .optimeCheckpoint => true
  | .ageingUpdate => true
  | .tempCorrectionUpdate => true
  | .followerLock _ => true
  | .holdoverEntry _ => true
  | .holdoverReturn => true
  | .clkEppPeriodWrite _ => true
  | .clkEppWidthWrite _ => true
  | .clkEppOffsetWrite _ => true
  | .commandFetch entry => entry.length == 64
  | .nop => true
  | .run => true
  | .masterStart _ => true
  | .stop => true
  | .stage _ => true
  | .jump => true
  | .stream => true
  | .streamBlockPost _ _ => true
  | .creditTimeout _ => true
  | .read => true
  | .write _ => true
  | .epoch => true
  | .epochTakeEffect => true
  | .sound => true
  | .calibrate => true
  | .march => true
  | .image _ => true
  | .imageCommitted => true
  | .logRead => true
  | .deviceReset => true
  | .cplStall => true
  | .bar0BadAccess _ _ => true
  | .bar0Unmapped off _ => off.toNat % 4 == 0
  | .bar2Read addr len => decide (addr + len ≤ 2 ^ 34)
  | .bar2Write addr data => decide (addr + data.length ≤ 2 ^ 34)
  | .hstRingCtlWrite _ => true
  | .hstCmdTailWrite _ => true
  | .hstCplHeadWrite _ => true
  | .hstVecAckWrite _ _ _ => true
  | .msixUnmask _ => true
  | .flagClear off _ _ => off.toNat % 4 == 0
  | .readClear off _ => off.toNat % 4 == 0
  | .loReadLatch off => off.toNat % 4 == 0
  | .hostWriteSealed off _ => off.toNat % 4 == 0
  | .registerWrite off _ => off.toNat % 4 == 0
  | .seqRoleWrite _ _ _ => true
  | .openRecordTimeout => true
  | .logProgramDone _ => true
  | .logBlockEraseDone _ => true
  | .evrSlotWord0Read _ => true
  | .next _ _ => true
  | .opcJump _ _ => true
  | .call _ _ => true
  | .ret _ _ => true
  | .loop _ _ => true
  | .wait _ _ => true
  | .waitConditionMet _ _ => true
  | .waitTimeout _ => true
  | .halt _ _ => true
  | .setreg _ _ => true
  | .seg _ _ => true
  | .rtbl _ _ => true
  | .sync _ _ => true
  | .trap _ _ => true
  | .lstart _ _ => true
  | .lstop _ _ => true
  | .brel _ _ => true
  | .cwmsg _ _ => true
  | .timerExpire _ => true
  | .holdRelease _ _ => true
  | .interruptAccept _ => true
  | .mgtHeartbeat => true
  | .wedge _ _ _ => true
  | .laneStart _ _ => true
  | .vectorIssue _ _ => true
  | .edgeFormation _ => true
  | .edgePlacement _ => true
  | .strobe _ _ _ _ => true
  | .responseLookup _ => true
  | .hostLoadStrobe _ _ => true
  | .loadStrobe _ => true
  | .rangingEnd _ => true
  | .rampStep _ => true
  | .peStagingWrite _ _ _ => true
  | .comparatorCrossing _ _ _ _ => true
  | .monitorStart _ _ => true
  | .monitorConversionEnd _ _ _ => true
  | .refillBlockRequest _ => true
  | .refillBlockArrive _ => true
  | .jumpGrant _ => true
  | .sluicePost _ _ => true
  | .sluiceCreditReturn _ => true
  | .plnSluiceConfigWrite _ _ _ => true
  | .laneIdle _ => true
  | .planEnd => true
  | .alignedStart _ => true
  | .alignedStartTimeout => true
  | .strobeResultJudge _ => true
  | .failWriterDrain _ _ _ => true
  | .lostRecordWrite _ => true
  | .flSiteMaskWrite _ _ => true
  | .flConfigWrite _ _ => true
  | .flClear _ => true
  | .flClearDone => true
  | .failCounterWindowWrite off _ _ => off.toNat % 4 == 0
  | .tiaArm _ => true
  | .tiaArmInstant _ _ => true
  | .tiaAbort _ => true
  | .tiaNWrite _ _ _ => true
  | .tiaConfigWrite _ _ _ => true
  | .transitionTimestamp _ _ _ _ _ bin => decide (bin < 320)
  | .tiaEvent _ => true
  | .frequencyGateEnd _ => true
  | .tiaTimeout _ => true
  | .tiaRangeEnd _ => true
  | .codeDensityStart _ _ => true
  | .codeDensityEnd _ _ hits => hits.length == 320
  | .lineLock _ _ => true
  | .lineUnlock _ _ => true
  | .lineAcquireTimeout _ _ => true
  | .pmuStagingWrite _ _ _ => true
  | .pmuSyncWrite _ _ => true
  | .syncReset _ _ => true
  | .resultWord _ _ => true
  | .pmuDcbWrite _ _ => true
  | .clampEntry _ _ => true
  | .acqArm _ => true
  | .acqArmInstant _ _ => true
  | .acqAbort _ => true
  | .acqForce _ => true
  | .triggerSample _ => true
  | .stateTimeout _ => true
  | .rearmEnd _ => true
  | .spillRecord _ _ _ _ => true
  | .acqSpillRdWrite _ _ => true
  | .acqSpillConfigWrite _ _ _ => true
  | .acqConfigWrite _ off _ => off.toNat % 4 == 0
  | .ddsTokenIssue _ => true
  | .ddsEntryWrite _ _ => true
  | .ddsEntryRead _ _ => true
  | .tdNTouchdown => true
  | .tdNLiftoff => true
  | .sndStart => true
  | .sndClrMask => true
  | .soundingPassStart => true
  | .contactJudge => true
  | .tdrHalfEnd => true
  | .soundingPassEnd _ => true
  | .soundingTimeout => true
  | .calAbort _ => true
  | .calStepEnd _ => true
  | .calDone _ => true
  | .calStoreStep _ _ => true
  | .calStoreCommit _ => true
  | .portTrainRetry _ => true
  | .portTrained _ => true
  | .identExchange _ peer => decide (1 ≤ peer.nodes)
  | .linkCalibration _ _ _ => true
  | .refusedRetry _ => true
  | .electionCell => true
  | .electionSettle g => decide (g.self < g.modules.length)
  | .linkLoss _ => true
  | .creditReturn _ _ => true
  | .cellInject _ => true
  | .cwySendWrite _ => true
  | .cwTrig _ _ => true
  | .cwJump _ _ => true
  | .cwTouch _ _ => true
  | .cwLift _ _ => true
  | .cwUser _ _ => true
  | .cwStart _ _ => true
  | .cwSummary _ _ => true
  | .marchWindow m => m.fails.wf
  | .heldRetire => true
  | .retentionEntry _ => true
  | .retentionWake _ => true
  | .sensorRead _ _ => true
  | .suppliesInRange => true
  | .pcieLinkUp _ _ => true
  | .phaseSlewEnd => true
  | .modulatorOverload _ _ => true
  | .clampExit _ _ => true

end Sys2Proof
end

