-- ==== Sys2Proof/Tests/Slice0.lean ====
section
/-! SUPPORT. Tests: an ill-formed term for each check of well-formedness, and for each obligation a concrete state that meets the
premises of its clauses, with what the command does there. The expected values are computed by hand from the rules of the specification. -/

set_option maxRecDepth 100000
set_option Elab.async false

open Sys2Proof Sys2Proof.Machine

namespace Sys2Proof.Tests

/-! ### Helpers -/

/-- A module that is READY, sealed, with its DRAM up. -/
def rdy : State :=
  { State.reset with boot := { State.reset.boot with stage := .ready, cold := false, sealed := true, dramUp := true, marched := true } }

/-- The state after a command. -/
def after (c : Instr) (s : State) : State :=
  match exec c s with
  | .next t => t
  | .fault _ => s
  | .refused _ => s

/-- Writes a list of registers. -/
def put (s : State) (l : List (Nat × W32)) : State := l.foldl (fun t e => t.wr e.1 e.2) s

/-- A fetched command. -/
def cmd (op arg0 arg1 haddr daddr len : Nat) : Cmd :=
  { opcode := op, flags := 0, tag := 7, arg0 := arg0, arg1 := arg1, len := len, haddr := haddr, daddr := daddr, clean := true, index := 3,
    dropped := false }

/-- `s` with a command at the front of the fetched ones. -/
def front (s : State) (c : Cmd) : State := { s with hst := { s.hst with fetched := [c], reserved := 1 } }

/-- The status byte of the completion at the head of an empty completion ring. -/
def status (t : State) : Nat := (Tbl.get (fun _ => (0 : BitVec 128)) t.hst.cplRing 0).toNat / 2 ^ 16 % 256

/-- `s` at a stage and a phase of the boot. -/
def inPhase (s : State) (n : Nat) : State := { s with boot := { s.boot with stage := .booting } }.setPhase n

/-! ### Well-formed operands: an ill-formed term for each check, which the check refuses -/

/-- A march window that finds failing rows and spares. -/
def fails (m r s : Nat) : MacroFails := { macroNo := m, rows := [r], spares := [s] }

theorem test_wf_march : ((fails 263 255 7).wf && (fails 1089 511 0).wf) = true ∧ (fails 1090 0 0).wf = false ∧ (fails 263 256 0).wf = false ∧
    (fails 264 512 0).wf = false ∧ (fails 0 0 8).wf = false ∧ (Instr.bootMarch [fails 0 0 0, fails 0 0 8]).wf = false ∧
    (Instr.marchWindow ⟨fails 0 256 0, .clean, 0⟩).wf = false := by decide

theorem test_wf_lengths : (Instr.commandFetch (List.replicate 63 0)).wf = false ∧ (Instr.bar2Read (2 ^ 34 - 4) 5).wf = false ∧
    (Instr.bar2Write (2 ^ 34) [none]).wf = false ∧ (Instr.codeDensityEnd 0 0 (List.replicate 319 1)).wf = false ∧
    (Instr.transitionTimestamp 0 false true 1 1 320).wf = false := by decide +kernel

theorem test_wf_offsets : (Instr.bar0Unmapped 2 true).wf = false ∧ (Instr.flagClear 1 0 0).wf = false ∧ (Instr.readClear 3 ⟨0, .clean⟩).wf = false ∧
    (Instr.loReadLatch 2 ).wf = false ∧ (Instr.hostWriteSealed 1 0).wf = false ∧ (Instr.registerWrite 2 0).wf = false ∧
    (Instr.failCounterWindowWrite 6 0 none).wf = false ∧ (Instr.acqConfigWrite 0 5 0).wf = false := by decide

theorem test_wf_segment : (Instr.identExchange .up { serial := 0, systemId := 0, priority := 0, port := .dn, nodes := 0 }).wf = false ∧
    (Instr.electionSettle { ring := false, modules := [], self := 0, excess := none }).wf = false := by decide

theorem test_no_word : decodeTableWord 32 0 = none ∧ step (State.reset.withFetchWord 32 0) = .next State.reset := by
  constructor <;> rfl

/-! ### The step, reset and the time base -/

theorem test_step_front : step { rdy with pending := [.mgtHeartbeat, .optimeMs] } = exec .mgtHeartbeat { rdy with pending := [.optimeMs] } := by
  rfl

theorem test_step_idle : rdy.pending = [] := by rfl

theorem test_completion_layout :
    (cmd 0 0 0 0 0 0).tag < 2 ^ 16 ∧ cplEntry (cmd 0 0 0 0 0 0) 0x21 0x43 0x87654321 true = 0x8003_87654321_43_21_0007 := by decide +kernel

theorem test_epoch_counts :
    rdy.powered = true ∧ rdy.clk.epochSet = none ∧ (after .epochTick rdy).clk.epoch = 0 ∧
      (after .epochTick (after .epochTick rdy)).clk.epoch = 1 := by decide +kernel

/-- An EPOCH command waits for the tick. -/
def wEpoch : State :=
  { rdy with clk := { rdy.clk with epochSet := some 77, epochZero := false, epoch := 4 }, hst := { rdy.hst with fg := some (cmd 8 77 0 0 0 0), reserved := 1 } }

theorem test_epoch_command :
    wEpoch.powered = true ∧ wEpoch.clk.epochSet = some 77 ∧ wEpoch.hst.fg.isSome = true ∧ (after .epochTick wEpoch).clk.epoch = 77 ∧
      (after .epochTakeEffect wEpoch).clk.epoch = 77 ∧ (after .epochTakeEffect wEpoch).hst.fg = none ∧
      (Tbl.get (fun _ => (0 : BitVec 128)) (after .epochTakeEffect wEpoch).hst.cplRing 0).toNat / 2 ^ 32 % 2 ^ 32 = 5 := by decide +kernel

/-- PERIOD 10 and WIDTH 4. -/
def wEpp : State := put rdy [(Reg.clkEppPeriod, 10), (Reg.clkEppWidth, 4)]

theorem test_epp_period :
    wEpp.reaches Reg.clkEppPeriod = true ∧ (after (.clkEppPeriodWrite 5) wEpp).rd Reg.clkEppPeriod = 5 ∧
      (after (.clkEppPeriodWrite 4) wEpp).rd Reg.clkEppPeriod = 10 ∧ (after (.clkEppPeriodWrite 4) wEpp).rdB Reg.clkFlags 3 = true ∧
      (after (.clkEppPeriodWrite 0) wEpp).rd Reg.clkEppPeriod = 0 := by decide +kernel

theorem test_epp_width :
    wEpp.reaches Reg.clkEppWidth = true ∧ (after (.clkEppWidthWrite 9) wEpp).rd Reg.clkEppWidth = 9 ∧
      (after (.clkEppWidthWrite 10) wEpp).rdB Reg.clkFlags 3 = true ∧ (after (.clkEppWidthWrite 0) wEpp).rd Reg.clkEppWidth = 4 ∧
      wEpp.reaches Reg.clkEppOffset = true := by decide +kernel

/-- One millisecond below the top of operating time, with the flash up and scanned. -/
def wOptime : State :=
  { rdy with clk := { rdy.clk with optime := 0xFFFFFFFFFE }, nvm := { rdy.nvm with up := true, scanned := true, persist := 5 } }

theorem test_optime :
    (after .optimeMs rdy).clk.optime = 1 ∧ (after .optimeMs wOptime).clk.optime = 0xFFFFFFFFFF ∧
      (after .optimeMs wOptime).rdB Reg.clkFlags 2 = true ∧ (after .optimeMs (after .optimeMs wOptime)).clk.optime = 0xFFFFFFFFFF := by decide +kernel

theorem test_checkpoint :
    wOptime.nvm.up = true ∧ wOptime.nvm.scanned = true ∧ (after .optimeCheckpoint wOptime).nvm.persist = 6 ∧
      (after .optimeCheckpoint wOptime).flashRd 160 32 = persistEntry 1 0 0xFFFFFFFFFE := by decide +kernel

/-- Two crystal sensors at 20 and 40 °C, in FREE. -/
def wXtal : State := { rdy with pwr := { rdy.pwr with valid := 3, temps := [(0, 1280), (1, 2560)] } }

theorem test_crystal :
    ((List.range 4).filter wXtal.tempValid).length = 2 ∧ (((List.range 4).filter wXtal.tempValid).map wXtal.temp).sum = 1920 * 2 ∧
      wXtal.timing = 0 ∧ (after .tempCorrectionUpdate wXtal).rd Reg.clkXtalTemp = 1920 ∧
      (List.range 4).filter rdy.tempValid = [] ∧ (put rdy [(Reg.clkStatus, 3)]).timing = 3 := by decide +kernel

theorem test_timing_states :
    (put rdy [(Reg.clkStatus, 1)]).timing = 1 ∧ (after (.followerLock 9) (put rdy [(Reg.clkStatus, 1)])).timing = 2 ∧
      (after (.holdoverEntry 9) (put rdy [(Reg.clkStatus, 2)])).timing = 3 ∧ (after .holdoverReturn (put rdy [(Reg.clkStatus, 3)])).timing = 1 := by
  decide +kernel

theorem test_optime_premises : wEpoch.boot.cold = false ∧ Instr.warmResetEnd ≠ .vinPowerUp := by decide +kernel

theorem test_epp_order : wEpp.rd Reg.clkEppPeriod ≠ 0 ∧ (wEpp.rd Reg.clkEppWidth).toNat < (wEpp.rd Reg.clkEppPeriod).toNat := by decide +kernel

/-! ### Host commands and accesses -/

theorem test_nop : (front rdy (cmd 0 0 0 0 0 0)).refusal (cmd 0 0 0 0 0 0) = none ∧ (front rdy (cmd 0 0 0 0 0 0)).fetches = true ∧
    badFields (cmd 0 0 0 0 0 0) = false ∧ (after .nop (front rdy (cmd 0 0 0 0 0 0))).hst.fetched = [] ∧
    (after .nop (front rdy (cmd 0 0 0 0 0 0))).rdF Reg.hstCplTail 11 0 = 1 := by decide +kernel

theorem test_bad_fields : badFields { cmd 6 0 0 8 0 1 with flags := 0 } = true ∧
    status (after .read (front rdy (cmd 6 0 0 8 0 1))) = St.badField := by decide +kernel

/-- A ring with one command to fetch. -/
def wRing : State := put rdy [(Reg.hstRingCtl, 1), (Reg.hstCmdTail, 4), (Reg.hstCmdHead, 3), (Reg.hstCplTail, 0x1000)]

theorem test_fetch : wRing.fetches = true ∧ wRing.rdB Reg.hstRingCtl 0 = true ∧ wRing.rdF Reg.hstCmdHead 11 0 ≠ wRing.rdF Reg.hstCmdTail 11 0 ∧
    wRing.slotFree = true ∧ (after (.commandFetch (leBytes 64 0x0A00000001)) wRing).hst.fetched.length = 1 ∧
    (after (.commandFetch (leBytes 64 0x0A00000001)) wRing).rdF Reg.hstCmdHead 11 0 = 4 := by decide +kernel

theorem test_refused_opcode : (after (.commandFetch (leBytes 64 0x0F)) wRing).hst.fetched = [] ∧
    status (after (.commandFetch (leBytes 64 0x0F)) wRing) = St.badOpcode := by decide +kernel

/-- READ of 16 bytes to host address 0x100 from DRAM 0x40. -/
def wRead : State := (front rdy (cmd 6 0 0 0x100 0x40 1)).dramWr 0x41 [0xAB]

theorem test_read : wRead.fetches = true ∧ (cmd 6 0 0 0x100 0x40 1).daddr + 16 ≤ 2 ^ 34 ∧
    Tbl.get (fun _ => (0 : Byte)) (after .read wRead).hst.hostMem 0x101 = 0xAB ∧
    status (after .read (front rdy (cmd 6 0 0 0x100 (2 ^ 34) 1))) = St.tooLong := by decide +kernel

theorem test_write : (front rdy (cmd 7 0 0 0x100 (2 ^ 33) 1)).spanProtected (2 ^ 33) 16 = false ∧
    (after (.write (some (leBytes 16 5))) (front rdy (cmd 7 0 0 0x100 (2 ^ 33) 1))).dramAt (2 ^ 33) = 5 ∧
    status (after (.write none) (front rdy (cmd 7 0 0 0x100 (2 ^ 33) 1))) = St.dmaError := by decide +kernel

theorem test_write_protected : (front rdy (cmd 7 0 0 0x100 0x1000 1)).spanProtected 0x1000 16 = true ∧
    status (after (.write (some (leBytes 16 5))) (front rdy (cmd 7 0 0 0x100 0x1000 1))) = St.protectedRegion := by decide +kernel

theorem test_log_read : Tbl.get (fun _ => (0 : Byte)) (after .logRead ((front rdy (cmd 13 1 0 0x100 0 2)).flashWr 0x600021 [0x77])).hst.hostMem 0x101 = 0x77 ∧
    status (after .logRead (front rdy (cmd 13 1 0 0x100 0 1))) = St.lengthAlign ∧
    status (after .logRead (front rdy (cmd 13 0x40000 0 0x100 0 2))) = St.tooLong := by decide +kernel

theorem test_epoch_and_reset : (after .epoch (front rdy (cmd 8 7 1 0 0 0))).clk.epochSet = some 0x100000007 ∧
    (after .deviceReset (front rdy (cmd 14 0 0 0 0 0))).boot.resetDue = true := by decide +kernel

theorem test_accesses : rdy.powered = true ∧ (after (.bar0BadAccess 0x12345 .unsupportedRead) rdy).rd Reg.hstBadAddr = 0x12345 ∧
    rdy.reaches 0x2FFF0 = false ∧ (after (.bar0Unmapped 0x2FFF0 false) rdy).rdB Reg.hstFlags 1 = true := by decide +kernel

theorem test_bar2 : rdy.dramServes = true ∧ rdy.spanProtected 0x10 3 = true ∧
    (after (.bar2Write 0x10 [some 1]) rdy).rdB Reg.hstFlags 2 = true := by decide +kernel

theorem test_bar2_open : rdy.spanProtected (2 ^ 34 - 3) 3 = false ∧
    (after (.bar2Write (2 ^ 34 - 3) [some 1, none, some 3]) (rdy.dramWr (2 ^ 34 - 2) [9])).dramRd (2 ^ 34 - 3) 3 = [1, 9, 3] ∧
    State.reset.dramServes = false ∧ (after (.bar2Read 4 2) { rdy with boot := { rdy.boot with dramUp := false } }).hst.bar2Data = [0xFF, 0xFF] := by
  decide +kernel

theorem test_ring : rdy.reaches Reg.hstRingCtl = true ∧ rdy.reaches Reg.hstCmdTail = true ∧ rdy.reaches Reg.hstCplHead = true ∧
    (after (.hstRingCtlWrite 1) (put rdy [(Reg.hstCmdTail, 5)])).rd Reg.hstCmdTail = 0 ∧
    (after (.hstRingCtlWrite 1) rdy).rd Reg.hstCplTail = 0x1000 ∧ (after (.hstRingCtlWrite 1) wRing).rd Reg.hstCmdTail = 4 ∧
    (after (.hstCmdTailWrite 0x1FFF) rdy).rd Reg.hstCmdTail = 0xFFF := by decide +kernel

theorem test_vectors : rdy.reaches Reg.hstVecAckLo = true ∧ rdy.reaches Reg.hstVecAckHi = true ∧
    (after (.hstVecAckWrite .lo 3 1) (put rdy [(Reg.hstVecPendLo, 7)])).rd Reg.hstVecPendLo = 5 ∧
    (after (.msixUnmask 63) { rdy with hst := { rdy.hst with pba := 2 ^ 63 } }).hst.pba = 0 := by decide +kernel

theorem test_link : (after .pcieLinkReset wRing).rd Reg.hstRingCtl = 0 ∧ (after (.pcieLinkUp 4 5) rdy).rdF Reg.hstStatus 7 5 = 4 ∧
    (put wRing [(Reg.hstCplTail, 0x1FFF)]).slotFree = false ∧
    (after .cplStall (put wRing [(Reg.hstCplTail, 0x1FFF)])).rdB Reg.hstFlags 4 = true := by decide +kernel

/-! ### The recorder, resets, power and the boot -/

/-- A record. -/
def wRec : EvRec := { code := 0x10, source := 264, rept := 0, optime := 5, pcycle := 1, data := 0 }

/-- A recorder with one open record, a queue of 32, a log in the flash and no program under way. -/
def wOpen : State :=
  put { rdy with clk := { rdy.clk with optime := 1005 }, evr := { evrReset with started := true, openRec := some wRec } } [(Reg.evrStatus, 0x2001), (Reg.evrLog, 0x00030005)]

theorem test_open_record : wOpen.qdepth = 32 ∧ wOpen.logVolatile = false ∧ wOpen.rdF Reg.evrLog 10 0 = 5 ∧
    (after .openRecordTimeout wOpen).evr.inProgram = [wRec] ∧ (after .openRecordTimeout wOpen).rd Reg.evrCommit = 1 ∧ rdy.evr.openRec = none := by
  decide +kernel

/-- One record in the flash program. -/
def wProg : State := put { rdy with evr := { evrReset with started := true, inProgram := [wRec] } } [(Reg.evrStatus, 0x2000), (Reg.evrLog, 0x00030005)]

theorem test_log_program : wProg.logVolatile = false ∧ 120 ≤ 128 - (insertNat (wProg.rdF Reg.evrLog 22 16) wProg.evr.badBlocks).length ∧
    (after (.logProgramDone true) wProg).evr.inProgram = [] ∧ (after (.logProgramDone true) wProg).flashRd (logAddr 3 5) 32 = wRec.bytes ∧
    (after (.logProgramDone false) wProg).evr.badBlocks = [3] ∧ (put wProg [(Reg.evrStatus, 0x2002)]).logVolatile = true := by decide +kernel

/-- Block 4 is being erased ahead. -/
def wErase : State := put { rdy with evr := { evrReset with started := true, erasing := some 4 } } [(Reg.evrStatus, 0x2000), (Reg.evrLog, 0x00030005)]

theorem test_log_erase : wErase.evr.erasing = some 4 ∧ (after (.logBlockEraseDone true) wErase).evr.erasing = none ∧
    (after (.logBlockEraseDone false) wErase).evr.badBlocks = [4] ∧ (after (.logBlockEraseDone false) wErase).evr.erasing = some 5 ∧
    (put wErase [(Reg.evrStatus, 2)]).logVolatile = true := by decide +kernel

theorem test_cold_start : State.reset.boot.stage = .off ∧ (after .vinPowerUp State.reset).boot.stage = .booting ∧
    (after .vinPowerUp State.reset).clk.epochZero = true := by decide +kernel

/-- Power has failed and the load is shed. -/
def wPfw : State := { rdy with boot := { rdy.boot with stage := .powerFail, cold := true }, pwr := { rdy.pwr with shedEnded := true } }

/-- A reset is held. -/
def wHeld (cold : Bool) : State := { rdy with boot := { rdy.boot with stage := .resetHeld, cold := cold } }

theorem test_restarts : (after .pfwColdStart wPfw).boot.stage = .booting ∧
    (after .warmResetEnd (wHeld true)).boot.stage = .booting ∧ (after .warmResetEnd (wHeld false)).phase = 1 ∧
    (after .warmResetEnd (wHeld false)).rdB Reg.bootStatus 11 = true := by decide +kernel

theorem test_warm_reset : (after .rstNAssert wEpp).boot.stage = .resetHeld ∧ (after .rstNAssert wEpp).rd Reg.clkEppPeriod = 0 ∧
    (after .perstAssert wEpp).clk.epochZero = true ∧
    (after .deviceResetStart { rdy with boot := { rdy.boot with resetDue := true } }).boot.stage = .resetHeld := by decide +kernel

theorem test_power_fail : rdy.boot.stage ≠ .powerFail ∧ (after .pfwNAssert wOptime).boot.stage = .powerFail ∧
    (after .pfwNAssert wOptime).flashRd 160 32 = persistEntry 1 0 0xFFFFFFFFFE ∧
    (after .pfwShedEnd { wPfw with pwr := { wPfw.pwr with pfwLow := true } }).pwr.pfwLow = false ∧
    (after .vinPowerDown rdy).boot.stage = .off := by decide +kernel

theorem test_supplies : (inPhase rdy 0).boot.stage = .booting ∧ (after .suppliesInRange (inPhase rdy 0)).phase = 1 ∧
    (after .mgtHeartbeat { rdy with boot := { rdy.boot with mgtAge := 9 } }).boot.mgtAge = 0 := by decide +kernel

/-- The heartbeat has been missing for 100 ms; a sequencer has been in HOLD. -/
def wWedge : State := { rdy with boot := { rdy.boot with mgtAge := 100 }, seqs := [(5, { seqReset with st := 2 })] }

theorem test_wedge : wWedge.wedgeHolds 6 0xFF = true ∧ wWedge.wedgeHolds 1 5 = true ∧ wWedge.wedgeHolds 5 3 = true ∧
    wWedge.boot.stage = .ready := by decide +kernel

theorem test_sensors :
    (after (.sensorRead [{ sensor := 63, temp := 1600, check := true }, { sensor := 0, temp := 0x8000, check := true }]
      { vinV := 3000, vinI := 1, vphV := 7500, vphI := 2, vplV := 0xF5EC, vplI := 3, vioV := 1800 }) rdy).rd Reg.pwrTempMax = 0x003F0640 ∧
    (after (.sensorRead [] { vinV := 3000, vinI := 1, vphV := 7500, vphI := 2, vplV := 0xF5EC, vplI := 3, vioV := 1800 }) rdy).rdF
      Reg.pwrStatus 3 0 = 0xF := by decide +kernel

theorem test_sfdp : (inPhase rdy 1).inPhase 1 = true ∧ (after (.sfdpRead false (.ok 0xC2 0x1234 7 100000)) (inPhase rdy 1)).phase = 3 ∧
    (after (.sfdpRead false (.ok 0xC2 0x1234 7 100000)) (inPhase rdy 1)).rdF Reg.bootFlash 23 8 = 0x1234 ∧
    (after (.sfdpRead false .absent) (inPhase rdy 1)).rdF Reg.bootStatus 23 16 = 1 ∧
    (after (.sfdpRead true (.ok 0xC2 0x1234 7 100000)) (inPhase rdy 1)).rdF Reg.bootStatus 23 16 = 0x12 := by decide +kernel

/-- P3 of a cold start whose last entry was written at 9 ms of power cycle 6. -/
def wScan : State :=
  (inPhase { rdy with boot := { rdy.boot with cold := true }, nvm := { rdy.nvm with up := true } } 3).flashWr 64 (persistEntry 1 6 9)

theorem test_scan : wScan.inPhase 3 = true ∧ wScan.latestEntry = some (2, 1, 6, 9) := by decide +kernel

theorem test_no_slot : (inPhase rdy 4).slotsLeft = [] ∧ (after .slotSelect (inPhase rdy 4)).rdF Reg.bootStatus 23 16 = 3 := by decide +kernel


/-- A committed slot 0 whose body of 4 KiB has three empty sections, and a blank header. -/
def wBody : State :=
  let s0 : State := { rdy with nvm := { rdy.nvm with up := true } }
  ((((s0.flashWr 0xE0000C (leBytes 4 4096)).flashWr 0xE00080 (leBytes 16 1)).flashWr 0xE000C0 (leBytes 16 2)).flashWr 0xE00100 (leBytes 16 3)).flashWr
    (s0.trailer 0) (slotTrailer 1 4096)

theorem test_slot_select : (inPhase wBody 4).slotsLeft = [0] ∧ wBody.headerCode 0xE00000 = 4 := by decide +kernel

/-- The bytes of a header with three empty sections. -/
def hdr (i : Nat) : Byte :=
  ((leBytes 4 0x54414550 ++ leBytes 2 1 ++ leBytes 2 9 ++ leBytes 2 0x5120 ++ leBytes 2 0 ++ leBytes 4 4096 ++ leBytes 2 0 ++ [0, 3])[i]?).getD
    (if i = 0x80 then 1 else if i = 0xC0 then 2 else if i = 0x100 then 3 else 0)

/-- A flash with that header alone. -/
def hdrFlash : Tbl Byte := (List.range' 0 0x1000).map (fun i => (0xE00000 + i, hdr i))

/-- A body with that header, whose key is that of fuse slot 0. -/
def wHeader : State :=
  { rdy with nvm := { rdy.nvm with flash := hdrFlash, keys := [(0, Config.sha384 (Tbl.getList (fun _ => (0xFF : Byte)) hdrFlash (0xE00000 + 0x20) 96))] } }

theorem header_get (n k i : Nat) (h : i < n) :
    Tbl.get (fun _ => (0xFF : Byte)) ((List.range' k n).map (fun i => (0xE00000 + i, hdr i))) (0xE00000 + (k + i)) = hdr (k + i) := by
  induction n generalizing k i with
  | zero => omega
  | succ n ih =>
    simp only [List.range'_succ, List.map_cons, Tbl.get]
    split
    · rename_i e; rw [show k + i = k by omega]
    · have e : i ≠ 0 := by intro e; subst e; simp_all
      have := ih (k + 1) (i - 1) (by omega)
      rwa [show k + 1 + (i - 1) = k + i by omega] at this

theorem header_le (o n : Nat) (h : o + n ≤ 0x1000) :
    wHeader.flashLe (0xE00000 + o) n = leNat ((List.range n).map (fun i => hdr (o + i))) := by
  unfold State.flashLe State.flashRd Tbl.getList
  congr 1
  apply List.map_congr_left
  intro i hi
  have := header_get 0x1000 0 (o + i) (by simp at hi; omega)
  rw [Nat.add_assoc]
  rw [Nat.zero_add] at this
  exact this

theorem header_sect (i : Nat) (h : i < 3) : ∃ d, wHeader.sect 0xE00000 i = { type := i + 1, off := 0, len := 0, zero := 0, digest := d } := by
  have e (o n v : Nat) (k : o + n ≤ 0x1000) (hv : leNat ((List.range n).map (fun i => hdr (o + i))) = v) : wHeader.flashLe (0xE00000 + o) n = v :=
    (header_le o n k).trans hv
  refine ⟨wHeader.flashRd (0xE00000 + 0x80 + 64 * i + 16) 48, ?_⟩
  simp only [State.sect, Nat.add_assoc]
  match i, h with
  | 0, _ => rw [e 0x80 4 1 (by decide) (by decide), e 0x84 4 0 (by decide) (by decide), e 0x88 4 0 (by decide) (by decide), e 0x8C 4 0 (by decide) (by decide)]
  | 1, _ => rw [e 0xC0 4 2 (by decide) (by decide), e 0xC4 4 0 (by decide) (by decide), e 0xC8 4 0 (by decide) (by decide), e 0xCC 4 0 (by decide) (by decide)]
  | 2, _ => rw [e 0x100 4 3 (by decide) (by decide), e 0x104 4 0 (by decide) (by decide), e 0x108 4 0 (by decide) (by decide), e 0x10C 4 0 (by decide) (by decide)]

theorem test_header (h : Config.ecdsaOk (wHeader.flashRd 0xE00020 48) (wHeader.flashRd 0xE00050 48) (wHeader.flashRd 0xE00FA0 48)
    (wHeader.flashRd 0xE00FD0 48) (wHeader.flashRd 0xE00000 0xFA0) = true) : wHeader.headerCode 0xE00000 = 0 := by
  have e (o n v : Nat) (k : o + n ≤ 0x1000) (hv : leNat ((List.range n).map (fun i => hdr (o + i))) = v) : wHeader.flashLe (0xE00000 + o) n = v :=
    (header_le o n k).trans hv
  have e0 : wHeader.flashLe 0xE00000 4 = 0x54414550 := e 0 4 _ (by decide) (by decide +kernel)
  have e1 := e 4 2 1 (by decide) (by decide +kernel)
  have e2 := e 8 2 0x5120 (by decide) (by decide +kernel)
  have e3 := e 0xC 4 4096 (by decide) (by decide +kernel)
  have e4 := e 0x10 2 0 (by decide) (by decide +kernel)
  have e5 := e 0x12 1 0 (by decide) (by decide +kernel)
  have e6 := e 0x13 1 3 (by decide) (by decide +kernel)
  have e7 := e 0x14 12 0 (by decide) (by decide +kernel)
  have e8 := e 0x140 0xE60 0 (by decide) (by decide +kernel)
  have e9 := e 0xA 2 0 (by decide) (by decide +kernel)
  obtain ⟨d0, s0⟩ := header_sect 0 (by decide)
  obtain ⟨d1, s1⟩ := header_sect 1 (by decide)
  obtain ⟨d2, s2⟩ := header_sect 2 (by decide)
  have z : wHeader.slotSize = 0x2200000 ∧ rollbackCount wHeader.nvm.rollback = 0 ∧ wHeader.nvm.revoked.getLsbD 0 = false := by decide +kernel
  have b : wHeader.headerBad 0xE00000 = false := by
    simp only [State.headerBad, e0, e1, e2, e3, e4, e5, e6, e7, e8, z.1, show List.range 3 = [0, 1, 2] from rfl, List.map_cons, List.map_nil, s0, s1, s2,
      List.any_cons, List.any_nil, sectBad, List.filter_cons, List.filter_nil]
    simp [sectsApart]
  have k : wHeader.keyOk 0xE00000 = true := by
    simp only [State.keyOk, e5, z.2.2]
    simp [wHeader, State.flashRd]
  unfold State.headerCode
  simp only [b, k, e4, e9, z.2.1]
  simp [h]

/-- A configuration section of 17 bytes, which has no entries. -/
def wBadCfg : State := wBody.flashWr 0xE00080 (leBytes 4 1 ++ leBytes 4 4096 ++ leBytes 4 17)

theorem test_bad_body : wBadCfg.bodyCode 0xE00000 ≠ 0 := by
  have h : wBadCfg.cfgFormatBad 0xE00000 = true := by decide +kernel
  unfold State.bodyCode
  simp only [h]
  split <;> decide

theorem test_bank_select : (inPhase rdy 6).inPhase 6 = true ∧ (inPhase rdy 6).bankChoice = none := by decide +kernel

/-- A patch section of 8 bytes. -/
def wBadPatch : State := wBody.flashWr 0xE000C0 (leBytes 4 2 ++ leBytes 4 4096 ++ leBytes 4 8)

theorem test_patches : (inPhase wBody 8).inPhase 8 = true ∧ (after .patchApply (inPhase wBody 8)).boot.sealed = true ∧
    (wBadPatch.patchCheck 0xE00000).1 = 0x0E := by decide +kernel

theorem test_boot_ready : (inPhase rdy 9).inPhase 9 = true ∧ (after (.bootReady 8) (inPhase rdy 9)).boot.stage = .ready := by decide +kernel

/-- A boot in P1 whose DRAM is down. -/
def wDram : State := { inPhase rdy 1 with boot := { (inPhase rdy 1).boot with dramUp := false } }

theorem test_dram : wDram.rdB Reg.bootStatus 11 = false ∧ 1 ≤ wDram.phase ∧ (after (.dramTraining true) wDram).boot.dramUp = true ∧
    (after (.dramTraining false) wDram).rdF Reg.bootStatus 23 16 = 0x11 ∧
    (put wDram [(Reg.bootStatus, 0x810), (Reg.memStatus, 8)]).sref = true ∧
    (after .dramSelfRefreshExit (put wDram [(Reg.bootStatus, 0x810), (Reg.memStatus, 8)])).boot.dramUp = true := by decide +kernel

theorem test_rollback : rollbackCount (put { rdy with nvm := { rdy.nvm with rollback := 5 } } [(Reg.idPeat, 2)]).nvm.rollback = 1 ∧
    (after .rollbackBurn (put { rdy with nvm := { rdy.nvm with rollback := 5 } } [(Reg.idPeat, 2)])).nvm.rollback = 7 ∧
    (after .rollbackBurn (put rdy [(Reg.idPeat, 0)])).nvm.rollback = 0 := by decide +kernel

theorem test_image : (front wBody (cmd 12 0 0 0 0 256)).slotSize - 4096 = 0x21FF000 ∧ status (after (.image none) (front rdy (cmd 12 0 0 0 0 256))) = St.imageRejected ∧
    status (after (.image none) (front wBody (cmd 12 0 0 0 0 0x300000))) = St.imageRejected ∧ status (after (.image none) (front wBody (cmd 12 0 0 0 0 256))) = St.dmaError ∧
    status (after (.image none) { front wBody (cmd 12 0 0 0 0 256) with hst := { (front wBody (cmd 12 0 0 0 0 256)).hst with bg := [{ cmd := cmd 12 0 0 0 0 1, posted := 0 }] } }) = St.busy := by
  decide +kernel

theorem test_image_data : (after (.image (some (leBytes 16 7))) (front wBody (cmd 12 0 0 0 0 1))).flashAt 0x3000000 = 7 ∧
    wBody.rewriteTarget = 1 := by decide +kernel

/-- A rewrite of slot 0 under way, of a length that its header does not name. -/
def wRewrite : State := { wBody with hst := { wBody.hst with bg := [{ cmd := cmd 12 0 0 0 0 1, posted := 0 }] } }

theorem test_image_committed : wRewrite.imageCode 0xE00000 16 = 4 ∧ (after .imageCommitted wRewrite).rdF Reg.bootRewrite 15 8 = 4 := by decide +kernel

/-! ### Memories -/

theorem test_march : marchBad 0x05 = false ∧ marchMacros 0x05 ≠ [] ∧ (after .march (front rdy (cmd 11 0x05 0 0 0 0))).mem.march.isSome = true ∧
    marchBad 1 = true ∧ marchMacros 0x21 = [] ∧ (after .march (front rdy (cmd 11 0x21 0 0 0 0))).rdF Reg.memStatus 2 0 = 0 ∧
    status (after .march (front (put rdy [(Reg.sndStatus, 1)]) (cmd 11 0x20 0 0 0 0))) = St.busy := by decide +kernel

/-- A march of the queue macro 1089 alone; a preserving one while a plan runs. -/
def wMarch (p : Bool) : State :=
  put { rdy with mem := { rdy.mem with march := some { preserving := p, left := [1089], anySpared := false, anyRetired := false } } }
    (if p then [(Reg.plnState, 0x20000)] else [])

theorem test_march_window : (after (.marchWindow ⟨{ macroNo := 1089, rows := [4, 6], spares := [0] }, .clean, 0⟩) (wMarch false)).mem.march = none ∧
    ((after (.marchWindow ⟨{ macroNo := 1089, rows := [4, 6], spares := [0] }, .clean, 0⟩) (wMarch false)).macro 1089).used = [(1, 4), (2, 6)] ∧
    (wMarch true).planUses 1089 = true ∧ (wMarch false).planUses 1089 = false := by decide +kernel

/-- One window is held. -/
def wHeldRow : State := { rdy with mem := { rdy.mem with held := [(1089, 3)] } }

theorem test_held : wHeldRow.planBusy = false ∧ (after .heldRetire wHeldRow).mem.held = [] ∧ ((after .heldRetire wHeldRow).macro 1089).retired = [3] := by
  decide +kernel

theorem test_boot_march : (after (.bootMarch []) { inPhase rdy 1 with boot := { (inPhase rdy 1).boot with marched := false } }).boot.marched = true := by
  decide +kernel

theorem test_retention : rdy.cluAsleep 31 = true ∧ (after (.retentionEntry 31) (put rdy [(Reg.memRetEn, 0x80000000)])).rd Reg.memRetState = 0x80000000 ∧
    (after (.retentionWake 31) (put rdy [(Reg.memRetState, 0x80000001)])).rd Reg.memRetState = 1 := by decide +kernel

/-! ### Clauses at their limits: time, host, boot and memories -/

theorem test_optime_top : (after .optimeMs (after .optimeMs wOptime)).clk = (after .optimeMs wOptime).clk ∧
    (after .optimeCheckpoint { wOptime with nvm := { wOptime.nvm with noFlash := true } }).nvm.persist = 5 := by decide +kernel

theorem test_cut_off : (∀ op ∈ [6, 7, 13, 3, 5, 12], ({ cmd op 1 0 0 0 2 with dropped := true } : Cmd).cutOff = true ∧
      badFields { cmd op 1 0 0 0 2 with dropped := true } = false ∧
      (front rdy { cmd op 1 0 0 0 2 with dropped := true }).refusal { cmd op 1 0 0 0 2 with dropped := true } = none) ∧
    (after .read (front rdy { cmd 6 0 0 0 0 2 with dropped := true })).rd Reg.hstCplDrop = 1 ∧
    (after .read (front rdy { cmd 6 0 0 0 0 2 with dropped := true })).hst.fetched = [] := by decide +kernel

theorem test_bad_field_opcodes : ∀ op ∈ List.range 15, badFields { cmd op 0 0 0 0 0 with clean := false } = true ∧
    (front rdy { cmd op 0 0 0 0 0 with clean := false }).refusal { cmd op 0 0 0 0 0 with clean := false } = none := by decide +kernel

theorem test_fetch_memory :
    Tbl.getList (fun _ => (0 : Byte)) (after (.commandFetch (leBytes 64 0x0A00000001)) wRing).hst.hostMem (wRing.cmdAddr 3) 5 = [1, 0, 0, 0, 10] := by
  decide +kernel

/-- A RUN loads, a background command and a STREAM run, and one command waits. -/
def wBusyLink : State :=
  { rdy with plan := { rdy.plan with loading := some (cmd 1 5 0 0 0 0) },
             hst := { rdy.hst with fetched := [cmd 0 0 0 0 0 0], bg := [{ cmd := cmd 5 0 0 0 0 4096, posted := 1 }, { cmd := cmd 9 0 0 0 0 0, posted := 0 }], reserved := 4 } }

theorem test_link_reset : (after .pcieLinkReset wBusyLink).plan.loading.map (·.dropped) = some true ∧
    (after .pcieLinkReset wBusyLink).hst.fetched.map (·.dropped) = [true] ∧ (after .pcieLinkReset wBusyLink).hst.bg.map (·.cmd.opcode) = [9] ∧
    (after .pcieLinkReset wBusyLink).hst.reserved = 3 := by decide +kernel

theorem test_window_reads : rdy.reaches 0xC00008 = true ∧
    (after (.readClear 0xC00008#24 ⟨0, .lost⟩) rdy).hst.readData = 0xFFFFFFFF ∧ (after (.readClear 0xC00008#24 ⟨0, .lost⟩) rdy).failByte 8 = 255 ∧
    (after (.readClear 0xC00008#24 ⟨0, .lost⟩) rdy).rdB Reg.flSiteStatus 3 = true ∧
    (after (.readClear 0xC00008#24 ⟨0, .corrected⟩) rdy).rd Reg.memEccCnt = 1 := by decide +kernel

/-- Cluster 31 sleeps. -/
def wAsleep : State := put rdy [(Reg.memRetState, 0x80000000), (cluOff 31 Reg.acqFlags, 3)]

theorem test_retained_flags : wAsleep.retained (cluOff 31 Reg.acqFlags) = true ∧ wAsleep.reaches (cluOff 31 Reg.acqFlags) = true ∧
    (after (.flagClear (BitVec.ofNat 24 (cluOff 31 Reg.acqFlags)) 1 1) wAsleep).rd (cluOff 31 Reg.acqFlags) = 2 ∧
    (after (.readClear (BitVec.ofNat 24 (cluOff 31 Reg.acqFlags + 4)) ⟨1, .clean⟩) wAsleep).rd (cluOff 31 Reg.acqFlags + 4) = 0 := by decide +kernel

theorem test_open_record_stays : rdy.evr.openRec = none ∧ (after .openRecordTimeout { wOpen with clk := { wOpen.clk with optime := 1004 } }).evr.openRec = some wRec ∧
    (after .openRecordTimeout { wOpen with clk := { wOpen.clk with optime := 0xFFFFFFFFFF } }).evr.openRec = none := by decide +kernel

theorem test_power_down : (after .vinPowerDown wEpp).rd Reg.clkEppPeriod = 0 ∧ (after .vinPowerDown wOptime).clk.optime = 0 ∧
    wHeldRow.boot.stage ≠ .off ∧ (after .vinPowerDown wOptime).nvm.scanned = false := by decide +kernel

/-- Operating time runs before the persistent area has been scanned. -/
def wUnscanned : State := (inPhase { rdy with clk := { rdy.clk with optime := 77, pcycle := 2 } } 2).flashWr 64 (persistEntry 1 6 9)

theorem test_power_fail_early : wUnscanned.nvm.scanned = false ∧ wUnscanned.evr.started = false ∧ wUnscanned.entryIndex = 3 ∧
    (after .pfwNAssert wUnscanned).flashRd 96 32 = persistEntry 1 2 77 := by decide +kernel

theorem test_sfdp_density : densityOk 5 = false ∧ densityOk 6 = true ∧ densityOk 8 = true ∧ densityOk 9 = false ∧
    (after (.sfdpRead false (.ok 0xC2 0x1234 9 100000)) (inPhase rdy 1)).rdF Reg.bootStatus 23 16 = 2 ∧
    (after (.sfdpRead false .unsupported) (inPhase rdy 1)).nvm.noFlash = true ∧ (inPhase rdy 1).evr.started = false := by decide +kernel

theorem test_scan_restores : wScan.restoredOptime = 10 ∧ wScan.restoredPcycle = 7 ∧ wScan.lastCheckpoint = some 9 ∧ wScan.lastRecordOptime = none ∧
    (wScan.flashWr 64 (persistEntry 2 6 9)).restoredOptime = 0 ∧ (wScan.flashWr 64 (persistEntry 2 6 9)).lastCheckpoint = none ∧
    (inPhase rdy 3).latestEntry = none ∧ ((wScan.flashWr 0x600000 (blockHeader 1)).flashWr 0x600020 wRec.bytes).lastRecordOptime = some 5 ∧
    (wScan.flashWr 64 (persistEntry 1 6 0xFFFFFFFFFF)).restoredOptime = 0x10000000000 := by decide +kernel

theorem test_dram_failed : ∀ ok, (after (.dramTraining ok) { wDram with boot := { wDram.boot with stage := .failed } }).boot.dramUp = ok ∧
    (after (.dramTraining false) { wDram with boot := { wDram.boot with stage := .failed } }).rdF Reg.bootStatus 23 16 = 0 := by decide +kernel

theorem test_rollback_stays : (after .rollbackBurn { wPfw with nvm := { wPfw.nvm with rollback := 5 } }).nvm.rollback = 5 := by decide +kernel

/-- A march whose last macro is 1033, of the timing sets, or 1041, of the fail counters, or a sequencer's. -/
def wMarchOf (p : Bool) (m : Nat) : State :=
  let s : State := { rdy with mem := { rdy.mem with march := some { preserving := p, left := [m], anySpared := false, anyRetired := false },
                                                    timing := [(65536, 5)], failCnt := [(7, 5)] } }
  s

theorem test_march_ecc : (after (.marchWindow ⟨{ macroNo := 1033, rows := [], spares := [] }, .corrected, 0⟩) (wMarchOf true 1033)).rd Reg.memEccCnt = 1 ∧
    (after (.marchWindow ⟨{ macroNo := 1033, rows := [], spares := [] }, .lost, 6⟩) (wMarchOf true 1033)).rd Reg.memEccAddr = 0x04090006 ∧
    (after (.marchWindow ⟨{ macroNo := 1033, rows := [], spares := [] }, .clean, 0⟩) (wMarchOf false 1033)).mem.timing = [] ∧
    (after (.marchWindow ⟨{ macroNo := 1041, rows := [], spares := [] }, .clean, 0⟩) (wMarchOf false 1041)).mem.failCnt = [] := by decide +kernel

theorem test_held_march : (after .heldRetire (let s := wHeldRow; { s with mem := { s.mem with march := some { preserving := true, left := [], anySpared := false, anyRetired := false } } })).mem.march = none ∧
    (after (.bootMarch []) { inPhase (wMarchOf false 1033) 1 with boot := { (inPhase rdy 1).boot with marched := false } }).mem.timing = [] ∧
    (after (.bootMarch []) { inPhase (wMarchOf false 1033) 1 with boot := { (inPhase rdy 1).boot with marched := false } }).mem.failCnt = [] := by decide +kernel

theorem test_wake_lines : (after (.retentionWake 31) wAsleep).lineState 511 5 = 1 ∧ (after (.retentionWake 31) wAsleep).lineState 495 5 = 0 ∧
    ((after (.retentionWake 31) wAsleep).chan 511).width 5 0 = 4096 := by decide +kernel

/-! ### Sequencers -/

/-- Sequencer `q` runs `w`, which stands at 0x2100 of its control store. -/
def wWord (q : SeqId) (w : UWord) : State :=
  rdy.setSeq q { seqReset with st := 1, pos := .word 0x2100, store := [(0x2100, w)] }

theorem executes_of {s : State} {q : SeqId} {a opc n : Nat} {w : UWord}
    (h : s.canRun q = true ∧ s.curWord q = w ∧ w.opc = opc ∧ (s.seq q).pos = .word a ∧ s.fetchFault q .clean = none ∧
      (s.lane q).fill + postRoom w ≤ 1024 ∧ (s.lane q).ended = false ∧ s.sendRoom = true ∧ s.plan.abort = false ∧
      n = (s.seq q).left.getD ((s.seq q).executions w)) : Executes s q opc w n :=
  ⟨h.1, h.2.1, h.2.2.1, ⟨a, h.2.2.2.1⟩, h.2.2.2.2.1, fun _ => ⟨h.2.2.2.2.2.1, h.2.2.2.2.2.2.1⟩, fun _ => h.2.2.2.2.2.2.2.1,
    fun _ => h.2.2.2.2.2.2.2.2.1, h.2.2.2.2.2.2.2.2.2⟩

/-- Three executions of a word of class `opc` that loads the timer. -/
def wThree (opc : Nat) : UWord := uword [(0, 2), (6, 2), (23, opc), (131, 1)]

theorem test_word_again : ∀ opc ∈ [0x0, 0x1, 0x2, 0x3, 0x4, 0x5, 0x6, 0x7, 0x8, 0x9, 0xA, 0xD, 0xE, 0xF],
    Executes (wWord 32 (wThree opc)) 32 opc (wThree opc) 3 := by
  intro opc h
  apply executes_of (a := 0x2100)
  revert opc
  decide +kernel

theorem test_word_again_step : ((after (.next 32 .clean) (wWord 32 (wThree 0))).seq 32).left = some 2 ∧
    ((after (.next 32 .clean) (wWord 32 (wThree 0))).seq 32).cyc = 2 ∧ ((after (.next 32 .clean) (wWord 32 (wThree 0))).seq 32).timerOn = true := by
  decide +kernel

/-- A STREAM segment of two granules, played once. -/
def wSegm : Segm := { kind := 0, fin := true, pin := false, sluice := false, tset := 0, next := 0, rept := 1, map := 0, base := 0, len := 2, keepv := 0 }

/-- `s` with a lane 3 whose segment 0 is that one and whose ring holds its first granule. -/
def withGran (s : State) : State :=
  s.setLane 3 { laneReset with table := [wSegm], ring := [{ seg := 0, g := 0, addr := 0, data := [1, 2] }] }

theorem test_post_vectors : ∀ vop ∈ [0, 2, 3, 4], Executes (wWord 3 (uword [(0, 1), (76, vop), (86, 1)])) 3 0 (uword [(0, 1), (76, vop), (86, 1)]) 1 ∧
    ((after (.next 3 .clean) (wWord 3 (uword [(0, 1), (76, vop), (86, 1)]))).lane 3).queue.length = min vop 1 := by
  intro vop h
  refine ⟨executes_of (a := 0x2100) ?_, ?_⟩ <;> revert vop <;> decide +kernel

theorem test_marker : ((after (.next 3 .clean) (wWord 3 (uword [(0, 1), (120, 1)]))).lane 3).queue = [Item.marker true false 0] := by decide +kernel

/-- The post of one granule. -/
def wPost : UWord := uword [(0, 1), (76, 1), (86, 1)]

theorem test_stream : Executes (withGran (wWord 3 wPost)) 3 0 wPost 1 ∧ wPost.vcnt = 1 ∧
    ((withGran (wWord 3 wPost)).lane 3).cur.kind = 0 ∧ ((withGran (wWord 3 wPost)).lane 3).exhausted = false ∧
    ((withGran (wWord 3 wPost)).lane 3).resident = some [1, 2] ∧
    ((after (.next 3 .clean) (withGran (wWord 3 wPost))).lane 3).queue.length = 2 ∧
    ((after (.next 3 .clean) (withGran (wWord 3 wPost))).lane 3).place.g = 1 :=
  ⟨executes_of (a := 0x2100) (by decide +kernel), by decide +kernel⟩

/-- A word of class `opc` that goes on to 0x2345 under its condition, on a sequencer with a stack. -/
def goWord (opc cinv : Nat) : UWord := uword [(0, 1), (23, opc), (32, cinv), (33, 0x2345), (47, 1)]
def wGo (opc cinv : Nat) (l : List Frame) : State :=
  (wWord 32 (goWord opc cinv)).modSeq 32 (fun z => { z with stack := l, lc := [(1, 2)] })

/-- A frame of a wait. -/
def wFrame : Frame := { pos := .word 0x2222, left := some 4, waiting := true, line := none, waited := 1, arrived := none, released := false }

theorem test_go : ∀ opc ∈ [1, 2, 3, 4], ∀ l ∈ [[], [wFrame], List.replicate 16 wFrame],
    Executes (wGo opc 0 l) 32 opc (goWord opc 0) 1 ∧ Taken (wGo opc 0 l) 32 (goWord opc 0) true ∧
    Executes (wGo opc 1 l) 32 opc (goWord opc 1) 1 ∧ Taken (wGo opc 1 l) 32 (goWord opc 1) false := by
  intro opc h l k
  refine ⟨executes_of (a := 0x2100) ?_, .inr ?_, executes_of (a := 0x2100) ?_, .inr ?_⟩ <;> revert opc l <;> decide +kernel

theorem test_go_steps : ((after (.opcJump 32 .clean) (wGo 1 0 [])).seq 32).pos = .word 0x2345 ∧
    ((after (.opcJump 32 .clean) (wGo 1 1 [])).seq 32).pos = .word 0x2101 ∧
    ((after (.call 32 .clean) (wGo 2 0 [])).seq 32).stack.length = 1 ∧
    (after (.call 32 .clean) (wGo 2 0 (List.replicate 16 wFrame))).rd (seqOff 32 Reg.seqFault) = 0x03002100 ∧
    ((after (.ret 32 .clean) (wGo 3 0 [wFrame])).seq 32).pos = .word 0x2222 ∧ ((after (.ret 32 .clean) (wGo 3 0 [wFrame])).seq 32).st = 3 ∧
    (after (.ret 32 .clean) (wGo 3 0 [])).rd (seqOff 32 Reg.seqFault) = 0x04002100 ∧
    ((after (.loop 32 .clean) (wGo 4 0 [])).seq 32).pos = .word 0x2345 ∧ Tbl.get (fun _ => 0) ((after (.loop 32 .clean) (wGo 4 0 [])).seq 32).lc 1 = 1 ∧
    ((after (.loop 32 .clean) (after (.loop 32 .clean) ((wGo 4 0 []).modSeq 32 (fun z => { z with lc := [(1, 1)] })))).seq 32).pos = .word 0x2101 := by
  decide +kernel

/-- A WAIT or a SYNC of barrier 9 with a timeout of 20 cycles, met at once where `cinv` is 0. -/
def waitWord (opc cinv : Nat) : UWord := uword [(0, 1), (23, opc), (32, cinv), (33, 0x2345), (51, 20), (176, 9)]
def wWait (opc cinv : Nat) (released : Bool) : State :=
  (wWord 4 (waitWord opc cinv)).modSeq 4 (fun z => { z with st := 3, waiting := true, waited := 5, arrived := some 9, released := released })

theorem test_wait : (∀ opc ∈ [5, 10], Executes (wWord 4 (waitWord opc 0)) 4 opc (waitWord opc 0) 1) ∧
    ((after (.wait 4 .clean) (wWord 4 (waitWord 5 0))).seq 4).st = 3 ∧ ((after (.sync 4 .clean) (wWord 4 (waitWord 10 0))).seq 4).arrived = some 9 := by
  refine ⟨?_, by decide +kernel⟩
  intro opc h
  apply executes_of (a := 0x2100)
  revert opc
  decide +kernel

theorem test_wait_ends : (∀ opc ∈ [5, 10], (wWait opc 0 true).curWord 4 = waitWord opc 0 ∧ ((wWait opc 0 true).seq 4).st = 3) ∧
    State.cond (wWait 5 0 true) (wWait 5 0 true) 4 (waitWord 5 0) = true ∧ State.cond (wWait 5 1 true) (wWait 5 1 true) 4 (waitWord 5 1) = false ∧
    ((after (.waitConditionMet 4 8) (wWait 10 0 true)).seq 4).pos = .word 0x2101 ∧
    ((after (.waitTimeout 4) (wWait 10 0 false)).seq 4).pos = .word 0x2345 ∧
    ((after (.waitTimeout 4) (wWait 5 1 false)).seq 4).cyc = 15 := by decide +kernel

/-- A word of class `opc` with an immediate, a lane mask of lanes 1 and 5, and barrier 9. -/
def immWord (opc imm : Nat) : UWord := uword [(0, 1), (23, opc), (51, imm), (144, 0x22), (176, 9)]

theorem test_classes : ∀ q ∈ [(3 : SeqId), 32], ∀ w ∈ [(6, 0), (7, 0x5ABCDE), (8, 7), (9, 0xF7A), (0xC, 0), (0xC, 0x400), (0xD, 0), (0xE, 0), (0xF, 0x300012)],
    Executes (wWord q (immWord w.1 w.2)) q w.1 (immWord w.1 w.2) 1 := by
  intro q h w k
  apply executes_of (a := 0x2100)
  revert q w
  decide +kernel

theorem test_halt_and_set : ((after (.halt 32 .clean) (wWord 32 (immWord 6 0))).seq 32).st = 0 ∧
    ((after (.halt 3 .clean) (wWord 3 (immWord 6 0))).lane 3).ended = true ∧
    ((after (.setreg 3 .clean) (wWord 3 (immWord 7 0x50BCDE))).seq 3).gen.ystride = 0xBCDE ∧
    ((after (.seg 3 .clean) (wWord 3 (immWord 8 7))).lane 3).place.seg = 7 ∧
    (after (.rtbl 3 .clean) (wWord 3 (immWord 9 0x97A))).respEntry (chOff (16 * 3 + 10) Reg.tgScrStgLo) 7 = 9 := by decide +kernel

/-- LSTART in the master's store, in a plan part that has started lanes before. -/
def wLstart (imm : Nat) : State := let s := wWord 32 (immWord 0xC imm); { s with plan := { s.plan with started := true } }

theorem test_master_words : ((after (.lstart 32 .clean) (wLstart 0)).lane 5).due ≠ 0 ∧
    ((after (.lstart 32 .clean) (wLstart 0x400)).lane 5).armed = true ∧
    (after (.lstart 32 .clean) (wLstart 0x400)).plan.startDue = 1 ∧
    (after (.lstart 32 .clean) (put (wLstart 0x400) [(Reg.clkStatus, 4)])).cwy.sendQ.map (·.type) = [8] ∧
    ((after (.lstop 32 .clean) ((wWord 32 (immWord 0xD 0)).modSeq 5 (fun z => { z with st := 1 }))).seq 5).pend = 2 ∧
    ((after (.brel 32 .clean) ((wWord 32 (immWord 0xE 0)).modSeq 5 (fun z => { z with arrived := some 9 }))).seq 5).released = true ∧
    (after (.cwmsg 32 .clean) (wWord 32 (immWord 0xF 0x300012))).cwy.sendQ.map (·.payload) = [0x12] := by decide +kernel

/-- Sequencer 3 at a word of class `opc` in a retired row. -/
def wRetired (opc : Nat) : State :=
  let s := wWord 3 (immWord opc 0)
  { s with mem := { s.mem with macros := [(28, { macroReset with retired := [0x20] })] } }

theorem test_word_faults : (∀ opc ∈ List.range 16, ((wWord 3 (immWord opc 0)).curWord 3).opc = opc ∧ (wWord 3 (immWord opc 0)).canRun 3 = true ∧
      (wWord 3 (immWord opc 0)).rowRetired 3 0x2100 = false ∧ (wRetired opc).rowRetired 3 0x2100 = true ∧ ((wRetired opc).curWord 3).opc = opc) ∧
    (after (.trap 3 .clean) (wWord 3 (immWord 0xB 0))).rd (seqOff 3 Reg.seqFault) = 0x02002100 ∧
    (after (.halt 3 .clean) (wRetired 6)).rd (seqOff 3 Reg.seqFault) = 0x05002100 ∧
    (after (.halt 3 .double) (wWord 3 (immWord 6 0))).rd (seqOff 3 Reg.seqFault) = 0x01002100 := by decide +kernel

/-- A lane whose queue is full, and a sequencer with a jump that is due. -/
def wFull : State := (wWord 3 wPost).setLane 3 { laneReset with queue := List.replicate 961 (Item.vec (laneReset.keepVec false)) }
def wJump (l : List Frame) (h : List (Nat × Nat × Nat)) : State :=
  ((wWord 3 (immWord 0 0)).modSeq 3 (fun z => { z with stack := l, hooks := h })).setLane 3 { laneReset with jump := some 6, granted := true }

theorem test_timer_hold : ((after (.timerExpire 3) ((wWord 3 0).modSeq 3 (fun z => { z with timerOn := true, timer := 9 }))).seq 3).tmr = true ∧
    wFull.canRun 3 = true ∧ 1024 < (wFull.lane 3).fill + postRoom (wFull.curWord 3) ∧ wFull.fetchFault 3 .clean = none ∧
    ((after (.next 3 .clean) wFull).seq 3).holdWhy = .room ∧
    ((after (.holdRelease 3 6) ((wWord 3 0).modSeq 3 (fun z => { z with st := 2, holdWhy := .room }))).seq 3).cyc = 6 := by decide +kernel

theorem test_jump_grant : (∀ l ∈ [[], List.replicate 16 wFrame], (wJump l []).jumpDue 3 = true) ∧ ((wJump [] []).seq 3).hookOf 0x30 = none ∧
    ((wJump [] [(0, 0x30, 0x2500)]).seq 3).hookOf 0x30 = some 0x2500 ∧
    ((after (.jumpGrant ⟨3, 0⟩) (wJump [] [])).lane 3).place.seg = 6 ∧ ((after (.jumpGrant ⟨3, 0⟩) (wJump [] [(0, 0x30, 0x2500)])).seq 3).pos = .word 0x2500 ∧
    (after (.jumpGrant ⟨3, 0⟩) (wJump (List.replicate 16 wFrame) [])).rd (seqOff 3 Reg.seqFault) = 0x03002100 := by decide +kernel

/-- Sequencer `q` with an interrupt line pending. -/
def wLine (q : SeqId) (line : Nat) (l : List Frame) (h : List (Nat × Nat × Nat)) : State :=
  put ((wWord q (immWord 0 0)).modSeq q (fun z => { z with stack := l, hooks := h, pend := BitVec.ofNat 5 (2 ^ line) }))
    [(seqOff q Reg.seqIvec, 0x27002600)]

theorem test_lines : (∀ n ∈ [0, 1, 3, 4], ∀ l ∈ [[], List.replicate 16 wFrame], ((wLine 3 n l []).seq 3).dueLine = some n ∧ (wLine 3 n l []).jumpDue 3 = false) ∧
    ((wLine 3 0 [] []).seq 3).hookOf 0x10 = none ∧ ((wLine 3 1 [] []).seq 3).hookOf 0x20 = none ∧ ((wLine 3 0 [] []).seq 32).st ≠ 4 ∧
    ((wLine 3 0 [] [(0, 0x10, 0x2500)]).seq 3).hookOf 0x10 = some 0x2500 ∧ ((wLine 32 1 [] []).seq 32).dueLine = some 1 ∧
    ((wLine 3 1 [] [(0, 0x20, 0x2500)]).seq 3).hookOf 0x20 = some 0x2500 := by decide +kernel

theorem test_accept : (after (.interruptAccept ⟨3, 0⟩) (wLine 3 0 [] [])).plan.faulted = true ∧
    ((after (.interruptAccept ⟨3, 0⟩) (wLine 3 0 [] [(0, 0x10, 0x2500)])).seq 3).inFault = true ∧
    ((after (.interruptAccept ⟨3, 0⟩) (wLine 3 1 [] [])).lane 3).ended = true ∧ (after (.interruptAccept ⟨32, 0⟩) (wLine 32 1 [] [])).plan.stopped = true ∧
    ((after (.interruptAccept ⟨3, 0⟩) (wLine 3 1 [] [(0, 0x20, 0x2500)])).seq 3).stack.map (·.line) = [some 1] ∧
    ((after (.interruptAccept ⟨3, 0⟩) (wLine 3 3 [] [])).seq 3).pos = .word 0x2600 ∧ ((after (.interruptAccept ⟨3, 0⟩) (wLine 3 4 [] [])).seq 3).pos = .word 0x2700 ∧
    (after (.interruptAccept ⟨3, 0⟩) (wLine 3 4 (List.replicate 16 wFrame) [])).rd (seqOff 3 Reg.seqFault) = 0x03002100 := by decide +kernel

/-! ### Plans and lanes -/

/-- A plan of number 5 with the default master part and a part of one segment for lane 0, in the library. -/
def planBytes : List (Nat × List Byte) :=
  [(80, leBytes 4 0x100000 ++ leBytes 4 1656), (0x100000, leBytes 4 0x4E414C50 ++ leBytes 2 1 ++ leBytes 2 5 ++ leBytes 4 1656 ++ leBytes 4 1),
   (0x100040, leBytes 4 1088 ++ leBytes 4 568 ++ leBytes 2 1), (0x100000 + 1088 + 64, leBytes 24 (4 + 2 ^ 28 + 4 * 2 ^ 112)),
   (0x100000 + 1088 + 88, leBytes 8 1), (0x100000 + 1088 + 88 + 144, leBytes 4 4000)]

/-- The module with that plan and a vector region of 1 MiB. -/
def wPlan : State := put { rdy with mem := { rdy.mem with dram := planBytes.foldl (fun m e => Tbl.setList (fun _ => (0 : Byte)) m e.1 e.2) [] } } [(Reg.memVecSize, 1), (Reg.calStatus, 0)]

/-- The plan. -/
def plan5 : PlanRef := { base := 0x100000, len := 1656, slot := none }

/-- The state that RUN of plan 5 reads. -/
def wRun : State := ({ front wPlan (cmd 1 5 0 0 0 0) with hst := { (front wPlan (cmd 1 5 0 0 0 0)).hst with fetched := [] } } : State).wrF Reg.plnResult 25 16 5

theorem test_plan_found : wRun.planOf 5 = some plan5 ∧ wRun.planOf 6 = none ∧ wRun.planLanes plan5 = [0] := by decide +kernel

theorem test_plan_good : (wRun.loadCheck plan5).2 = 0 := by decide +kernel

theorem test_run : (∀ n ∈ [5, 6], (front wPlan (cmd 1 n 0 0 0 0)).fetches = true ∧ (front wPlan (cmd 1 n 0 0 0 0)).refusal (cmd 1 n 0 0 0 0) = none ∧
      badFields (cmd 1 n 0 0 0 0) = false) ∧
    status (after .run (front wPlan (cmd 1 6 0 0 0 0))) = 1 ∧ status (after .run (front (put wPlan [(Reg.calStatus, 0x10)]) (cmd 1 5 0 0 0 0))) = 5 := by
  decide +kernel

/-- Plan 5 loads, or runs in state `st`. -/
def wLoads : State := put { rdy with plan := { rdy.plan with loading := some (cmd 1 5 0 0 0 0), lanes := 1 }, hst := { rdy.hst with fg := some (cmd 1 5 0 0 0 0), reserved := 1 } } [(Reg.plnState, 0x20005)]
def wRuns (st : W32) (s : State) : State := put { s with plan := { s.plan with lanes := 1 } } [(Reg.plnState, st)]

theorem test_master_start : wLoads.plan.loading = some (cmd 1 5 0 0 0 0) ∧ (after (.masterStart 12) wLoads).plnState = 3 ∧
    ((after (.masterStart 12) wLoads).seq 32).pos = .dflt 0 ∧ status (after (.masterStart 12) wLoads) = St.ok := by decide +kernel

theorem test_stop : (front rdy (cmd 2 0 0 0 0 0)).planBusy = false ∧ (wRuns 0x60000 (front rdy (cmd 2 0 0 0 0 0))).planBusy = true ∧
    ((wRuns 0x60000 (front rdy (cmd 2 0 0 0 0 0))).seq 32).inPart = false ∧ (after .stop (wRuns 0x60000 (front rdy (cmd 2 0 0 0 0 0)))).plan.stopped = true ∧
    ((after .stop ((wRuns 0x60000 (front rdy (cmd 2 0 0 0 0 0))).setSeq 32 { seqReset with st := 1 })).seq 32).pend = 2 := by decide +kernel

/-- Lane 0 runs with one segment; JUMP to segment `n` is at the front. -/
def wJumpTo (n : Nat) : State := ((front rdy (cmd 4 1 n 0 0 0)).setSeq 0 { seqReset with st := 1 }).setLane 0 { laneReset with table := [wSegm] }

theorem test_jump : ((wJumpTo 0).seq 0).inPart = true ∧ ((after .jump (wJumpTo 0)).lane 0).jump = some 0 ∧
    (after .jump (wJumpTo 1)).rdB (cluOff 0 Reg.plnFlags) 2 = true ∧ ((after .jump (wJumpTo 1)).lane 0).jump = none := by decide +kernel

/-- STAGE into slot 2 of a plan of number 9 without lanes. -/
def stageData : List Byte := leBytes 1088 (0x4E414C50 + 2 ^ 32 + 9 * 2 ^ 48 + 1088 * 2 ^ 64)
def wStage (len : Nat) : State := front rdy (cmd 3 2 0 0 0 len)

theorem test_stage : status (after (.stage none) (wStage 0x40001)) = 3 ∧ status (after (.stage none) (wStage 0)) = St.ok ∧ status (after (.stage none) (wStage 5)) = St.dmaError ∧
    (wStage 5).slotRuns 2 = false ∧ (wRuns 0x70800 (wStage 5)).slotRuns 2 = true ∧ status (after (.stage none) (wRuns 0x70800 (wStage 5))) = St.busy ∧
    status (after (.stage (some (leBytes 16 0))) (wStage 1)) = 2 := by decide +kernel

theorem test_stage_plan : stageData.length = 16 * 68 ∧ status (after (.stage (some stageData)) (wStage 68)) = St.ok ∧
    (after (.stage (some stageData)) (wStage 68)).plan.slots = [(2, 10)] ∧
    status (after (.stage (some stageData)) (let s := wRuns 0x70C00 (wStage 68); { s with plan := { s.plan with slots := [(3, 10)] } })) = St.busy := by
  decide +kernel

/-- STREAM for lane 4 of `len` blocks, with a ring of `n` blocks. -/
def wStream (n len : Nat) : State := put (front rdy (cmd 5 4 0 0 0 len)) [(cluOff 4 Reg.plnSluiceSize, BitVec.ofNat 32 n), (cluOff 4 Reg.plnSluice, 0x20000)]

/-- A stream for lane 4 of one block is under way, with `credits`. -/
def wStreams (credits : Nat) : State :=
  put { rdy with hst := { rdy.hst with bg := [{ cmd := cmd 5 4 0 0 0 4096, posted := 0 }] } }
    [(cluOff 4 Reg.plnSluiceSize, 2), (cluOff 4 Reg.plnSluice, BitVec.ofNat 32 (credits * 2 ^ 16))]

theorem test_stream_command : status (after .stream (wStream 0 0)) = St.noRing ∧ status (after .stream (wStream 2 4)) = St.lengthAlign ∧
    (wStream 2 0).streaming 4 = false ∧ status (after .stream (wStream 2 0)) = St.ok ∧ (after .stream (wStream 2 4096)).streaming 4 = true ∧
    (wStreams 1).streaming 4 = true ∧ (wStreams 1).rdF (cluOff 4 Reg.plnSluice) 24 16 ≠ 0 ∧ (after (.streamBlockPost 4 none) (wStreams 1)).streaming 4 = false ∧
    (wStreams 0).rdF (cluOff 4 Reg.plnSluice) 24 16 = 0 ∧ (after (.creditTimeout 4) (wStreams 0)).streaming 4 = false := by decide +kernel

/-- A sluice ring of two blocks, one of them posted. -/
def wRing4 : State := put rdy [(cluOff 4 Reg.plnSluiceSize, 2), (cluOff 4 Reg.plnSluice, 0x10000), (cluOff 4 Reg.plnSluicePos, 1)]

theorem test_sluice : wRing4.reaches (cluOff 4 Reg.plnSluice) = true ∧ wRing4.streaming 4 = false ∧
    (after (.sluicePost 4 1) wRing4).rd (cluOff 4 Reg.plnSluice) = 0 ∧ (after (.sluicePost 4 1) wRing4).rdF (cluOff 4 Reg.plnSluicePos) 7 0 = 0 ∧
    (after (.sluicePost 4 2) wRing4).rdB (cluOff 4 Reg.plnFlags) 1 = true ∧
    (after (.sluiceCreditReturn 4) (wRing4.setLane 4 { laneReset with creditDue := 1 })).rdF (cluOff 4 Reg.plnSluice) 24 16 = 2 ∧
    (after (.plnSluiceConfigWrite 4 true 3) wRing4).rdF (cluOff 4 Reg.plnSluice) 24 16 = 3 ∧
    (after (.plnSluiceConfigWrite 0 false 3) (wRuns 0x60000 rdy)).rdB (cluOff 0 Reg.plnFlags) 3 = true := by decide +kernel

/-- Lane 0 at the start of a segment of two granules that are to be fetched. -/
def wRefill : State := rdy.setLane 0 { laneReset with table := [{ wSegm with len := 4 }], pred := some { seg := 0, plays := 0, g := 0 } }

theorem test_refill : (wRefill.refillBlock 0).isSome = true ∧ ((wRefill.lane 0).ringFill + 4 ≤ wRefill.ringSize 0) ∧
    ((after (.refillBlockRequest 0) wRefill).lane 0).inflight.length = 1 ∧
    ((after (.refillBlockArrive 0) (after (.refillBlockRequest 0) wRefill)).lane 0).ring.length = 4 := by decide +kernel

/-- Lane 31 is due to start. -/
def wStart : State := rdy.setLane 31 { laneReset with due := 1, entrySeg := 3 }

theorem test_lane_start : (wStart.lane 31).due = 1 ∧ (wStart.lane 31).formQ = [] ∧ (wStart.seq 31).st = 0 ∧ (wStart.lane 31).live = false ∧
    (wStart.lane 31).armed = false ∧ ((after (.laneStart 31 7) wStart).lane 31).place.seg = 3 ∧ ((after (.laneStart 31 7) wStart).seq 31).st = 1 ∧
    ((after (.laneStart 31 7) (wStart.setSeq 31 { seqReset with st := 1 })).lane 31).due = 0 := by decide +kernel

/-- Lane 9 is armed for an aligned start that is due. -/
def wArmed : State := let s := (wRuns 0x40000 rdy).setLane 9 { laneReset with armed := true }; { s with plan := { s.plan with startDue := 1 } }

theorem test_aligned : wArmed.plan.startDue = 1 ∧ (wArmed.lane 9).armed = true ∧ ((after (.alignedStart 64) wArmed).lane 9).live = true ∧
    (after (.alignedStart 64) wArmed).plnState = 3 ∧ (after .alignedStartTimeout wArmed).plan.stopped = true := by decide +kernel

theorem test_lane_idle : ((after (.laneIdle 31) (rdy.setLane 31 { laneReset with live := true, ended := true, issued := 64 })).lane 31).live = false ∧
    (wRuns 0x60000 rdy).planOver = true ∧ (after .planEnd (wRuns 0x60000 rdy)).plnState = 0 := by decide +kernel

/-- Lane 31 is live, with a queue. -/
def wIssue (l : List Item) : State := rdy.setLane 31 { laneReset with live := true, queue := l }

theorem test_issue : ((after (.vectorIssue 31 .clean) (wIssue [.vec (laneReset.keepVec false)])).lane 31).formQ.length = 1 ∧
    ((after (.vectorIssue 31 .clean) (wIssue [.vec (laneReset.keepVec false)])).lane 31).t = (wIssue []).period 31 0 ∧
    ((after (.vectorIssue 31 .clean) (wIssue [.marker true true 0, .vec (laneReset.keepVec false)])).lane 31).strobes = [0] ∧
    ((after (.vectorIssue 31 .clean) (wIssue [])).lane 31).fillLeft = 63 ∧ (after (.vectorIssue 31 .clean) (wIssue [])).plan.gapped = true ∧
    (after (.vectorIssue 31 (.tableDouble 3)) (wIssue [])).plan.faulted = true := by decide +kernel

/-! ### Clauses at their limits: words, plans and lanes -/

theorem test_delayed_fetch :
    (let s := wWord 3 (immWord 0 0)
     let m : State := { s with mem := { s.mem with march := some { preserving := true, left := [28], anySpared := false, anyRetired := false } } }
     m.windowLent 3 = true ∧ s.windowLent 3 = false ∧ m.fetchFault 3 .delayed = none ∧ ((after (.next 3 .delayed) m).seq 3).holdWhy = .fetch ∧
       ((after (.next 3 .delayed) s).seq 3).st = 1 ∧
       ((after (.holdRelease 3 2) (m.modSeq 3 (fun z => { z with st := 2, holdWhy := .fetch }))).seq 3).st = 1) := by decide +kernel

theorem test_message_once : (after (.cwmsg 32 .clean) ((wWord 32 (wThree 0xF)).modSeq 32 (fun z => { z with left := some 2 }))).cwy.sendQ = [] ∧
    (after (.cwmsg 32 .clean) (wWord 32 (wThree 0xF))).cwy.sendQ.length = 1 := by decide +kernel

/-- A lane with one DDS segment of one token, which a post plays. -/
def wDdsPost : State :=
  (wWord 3 (uword [(0, 1), (76, 4), (86, 1)])).setLane 3 { laneReset with table := [{ wSegm with kind := 2, len := 1 }] }

theorem test_dds_end : ((wDdsPost.lane 3).cur.kind = 2) ∧ (wDdsPost.lane 3).exhausted = false ∧
    (after (.next 3 .clean) wDdsPost).rdB (cluOff 3 Reg.ddsStatus) 24 = true ∧
    (after (.next 3 .clean) (wWord 3 (uword [(0, 1), (76, 4), (86, 1)]))).rdB (cluOff 3 Reg.ddsStatus) 24 = false := by decide +kernel

theorem test_start_queued : ((after (.lstart 32 .clean) (let s := put (wLstart 0x400) [(Reg.clkStatus, 4)]
      { s with cwy := { s.cwy with sendQ := List.replicate 16 startMsg } })).cwy.sendWait = [startMsg]) ∧
    ((after (.lstart 32 .clean) ((wLstart 0).setLane 5 { laneReset with live := true, due := 1 })).lane 5).due = 2 := by decide +kernel

theorem test_runner_fault : ((wWord 3 0).modSeq 3 (fun z => { z with pos := .runner })).fetchFault 3 .double = some 1 ∧
    ((after (.halt 3 .double) ((wWord 3 (immWord 6 0)).modSeq 3 (fun z => { z with latched := some 3 }))).seq 3).fault = none := by decide +kernel

theorem test_wait_interrupted : (let s := (wLine 3 3 [] []).modSeq 3 (fun z => { z with st := 3, waiting := true, waited := 5 })
    pauseCycles (s.seq 3) 9 = 4 ∧ ((after (.interruptAccept ⟨3, 9⟩) s).seq 3).stack.map (·.waited) = [9] ∧ ((after (.interruptAccept ⟨3, 9⟩) s).seq 3).cyc = 7 ∧
      ((after (.interruptAccept ⟨3, 9⟩) s).seq 3).latched = some 3) ∧
    pauseCycles { seqReset with st := 2 } 6 = 6 ∧ pauseCycles { seqReset with st := 1 } 6 = 0 ∧
    ((((wLine 3 3 [] []).modSeq 3 (fun z => { z with inFault := true })).seq 3).dueLine = none) := by decide +kernel

theorem test_stage_refused : (after (.stage (some (leBytes 16 0))) (wStage 1)).dramAt (slotBase 2) = 0 ∧
    (after (.stage (some (List.replicate 16 9))) (wStage 1)).dramAt (slotBase 2) = 0 := by decide +kernel

theorem test_master_start_entry : ((after (.masterStart 12) { wLoads with plan := { wLoads.plan with entry := some 0x2100 } }).seq 32).pos = .runner ∧
    ({ cmd 1 5 0 0 0 0 with flags := 1 } : Cmd).flags % 2 = 1 := by decide +kernel

theorem test_idle_keeps_due : ((after (.laneIdle 31) (rdy.setLane 31 { laneReset with live := true, ended := true, issued := 64, due := 1, jump := some 2 })).lane 31).jump = some 2 ∧
    (rdy.setLane 31 { laneReset with live := true, ended := true, issued := 64, due := 1 }).laneIdle 31 = false ∧
    ((after (.laneIdle 31) (rdy.setLane 31 { laneReset with live := true, ended := true, issued := 64, jump := some 2 })).lane 31).jump = none := by decide +kernel

/-- A plan ends, with three messages that wait to be sent, or sixteen. -/
def wPlanEnds (n : Nat) : State := let s := wRuns 0x60000 rdy; { s with cwy := { s.cwy with sendQ := List.replicate n startMsg } }

theorem test_summary_waits : (wPlanEnds 15).planOver = true ∧ (after .planEnd (wPlanEnds 15)).cwy.sendQ.length = 16 ∧
    (after .planEnd (wPlanEnds 15)).cwy.sendWait.length = 2 := by decide +kernel

/-- A STREAM of two blocks for lane 4, of which the second is to be posted, or of which none is. -/
def wStream2 (posted : Nat) : State := { wStreams 1 with hst := { (wStreams 1).hst with bg := [{ cmd := cmd 5 4 0 0 0 8192, posted := posted }] } }

theorem test_stream_ends : (∃ b ∈ (wStream2 1).hst.bg, b.cmd.opcode = 0x05 ∧ b.cmd.arg0 % 32 = 4 ∧ b.cmd.len / 4096 ≤ b.posted + 1) ∧
    (∀ b ∈ (wStream2 0).hst.bg, b.cmd.opcode = 0x05 → b.cmd.arg0 % 32 = 4 → b.posted + 1 < b.cmd.len / 4096) ∧ (wStream2 0).streaming 4 = true := by decide +kernel

theorem test_dram_order : (let s := after (.refillBlockRequest 0) wRefill
    s.mem.dramQ.length = 1 ∧ (after (.refillBlockArrive 0) s).mem.dramQ = [] ∧ s.oldestIs ((s.lane 0).inflight.head?.map (·.chan) |>.getD 9) 0 = true ∧
    ((after (.refillBlockArrive 0) { s with mem := { s.mem with dramQ := s.mem.dramQ.map (fun x => (x.1, 7)) ++ s.mem.dramQ } }).lane 0).inflight.length = 1) ∧
    (after (.refillBlockRequest 0) (wRefill.setLane 0 { wRefill.lane 0 with ring := List.replicate 99999 { seg := 0, g := 0, addr := 0, data := [] } })).mem.dramQ = [] := by decide +kernel

theorem test_gap_end : ((after (.vectorIssue 31 .clean) (rdy.setLane 31 { laneReset with live := true, fillLeft := 3, queue := [.vec (laneReset.keepVec false)] })).lane 31).fillLeft = 2 ∧
    ((after (.vectorIssue 31 .clean) (rdy.setLane 31 { laneReset with live := true, fillLeft := 3, ended := true })).lane 31).fillLeft = 2 ∧
    ((after (.vectorIssue 31 .clean) (rdy.setLane 31 { laneReset with live := true, ended := true, issued := 65 })).lane 31).issued = 66 ∧
    ((after (.vectorIssue 31 .clean) (rdy.setLane 31 { laneReset with live := true, ended := true, issued := 64 })).lane 31).issued = 64 ∧
    ((after (.vectorIssue 31 .clean) (wIssue [.vec { laneReset.keepVec false with codes := 5, map := 0xA, tset := 63 }])).lane 31).formQ.map (·.word) = [0x003F000A00000005] := by decide +kernel

theorem test_second_start : ((after (.laneStart 31 7) (wStart.setLane 31 { wStart.lane 31 with armed := true })).lane 31).live = false ∧
    ((after (.laneStart 31 7) (wStart.setLane 31 { wStart.lane 31 with armed := true })).lane 31).due = 0 ∧
    ((after (.alignedStart 64) (let s := wArmed; { s with plan := { s.plan with startDue := 2 } })).plan.startDue = 1) := by decide +kernel

/-! ### Registers -/

theorem test_host_reads : rdy.reaches (Reg.hstFlags + 4) = true ∧ recordWord0 (Reg.hstFlags + 4) = none ∧ (findRow (Reg.hstFlags + 4)).isSome = true ∧
    (after (.readClear (BitVec.ofNat 24 (Reg.hstFlags + 4)) ⟨0, .clean⟩) (put rdy [(Reg.hstFlags + 4, 0x305)])).hst.readData = 0x305 ∧
    (after (.readClear (BitVec.ofNat 24 (Reg.hstFlags + 4)) ⟨0, .clean⟩) (put rdy [(Reg.hstFlags + 4, 0x305)])).rd (Reg.hstFlags + 4) = 0 ∧
    (after (.readClear (BitVec.ofNat 24 (Reg.hstFlags + 4)) ⟨1, .clean⟩) rdy).rd Reg.hstFlags = 1 ∧
    rdy.reaches 0x2FFF0 = false ∧ (after (.readClear 0x2FFF0#24 ⟨0, .clean⟩) rdy).rd Reg.hstBadAddr = 0x2FFF0 := by decide +kernel

theorem test_lo_latch : rdy.reaches Reg.clkOptimeLo = true ∧ loPair Reg.clkOptimeLo = true ∧ (findRow Reg.clkOptimeLo).map (·.rc) = some 0 ∧
    (after (.loReadLatch (BitVec.ofNat 24 Reg.clkOptimeLo)) wOptime).hst.readData = 0xFFFFFFFE ∧
    (after .optimeMs (after (.loReadLatch (BitVec.ofNat 24 Reg.clkOptimeLo)) wOptime)).readReg Reg.clkOptimeHi = 0xFF := by decide +kernel

theorem test_slot_read : rdy.reaches (Reg.evrRing + 32 * 1023) = true ∧ rdy.reaches Reg.evrOpen = true ∧
    (after (.evrSlotWord0Read (some 1023)) rdy).evr.ringShadow = some (1023, none) ∧
    (after (.evrSlotWord0Read none) rdy).evr.openShadow = some none := by decide +kernel

theorem test_host_writes : rdy.reaches Reg.clkFlags = true ∧ (findRow Reg.clkFlags).map (fun r => r.w1c == 0) = some false ∧
    (after (.flagClear (BitVec.ofNat 24 Reg.clkFlags) 4 0) (put rdy [(Reg.clkFlags, 0xC)])).rd Reg.clkFlags = 8 ∧
    (after (.flagClear (BitVec.ofNat 24 Reg.clkFlags) 4 4) (put rdy [(Reg.clkFlags, 0xC)])).rd Reg.clkFlags = 0xC ∧
    rdy.reaches Reg.cwyJgroup = true ∧ plainReg Reg.cwyJgroup = true ∧ rdy.sealedDiffers Reg.cwyJgroup 7 = false ∧
    (after (.registerWrite (BitVec.ofNat 24 Reg.cwyJgroup) 7) rdy).rd Reg.cwyJgroup = 7 ∧
    (after (.registerWrite 0x2FFF0#24 0) rdy).rd Reg.hstBadAddr = 0x2FFF0 := by decide +kernel

theorem test_sealed : rdy.reaches Reg.clkAgeCoef = true ∧ plainReg Reg.clkAgeCoef = true ∧ rdy.sealedDiffers Reg.clkAgeCoef 7 = true ∧
    (after (.hostWriteSealed (BitVec.ofNat 24 Reg.clkAgeCoef) 7) rdy).rd Reg.clkAgeCoef = 0 ∧
    (after (.hostWriteSealed (BitVec.ofNat 24 Reg.clkAgeCoef) 7) rdy).rd Reg.bootSealedWrAddr = 0x1000C := by decide +kernel

theorem test_roles : rdy.reaches (cluOff 31 (Reg.seqRole0 + 12)) = true ∧ rolesBad 0x010203 = false ∧ rolesBad 0x30 = true ∧
    (after (.seqRoleWrite 31 3 0x010203) rdy).rd (cluOff 31 (Reg.seqRole0 + 12)) = 0x010203 := by decide +kernel

/-! ### Edges and strobes -/

/-- Vector 0 of a lane, with local channel 0 in a pin state. -/
def iv0 (pin : Nat) : IssVec :=
  { no := 0, word := 0, t := 5000, tset := 0, seg := 0, play := 0, pins := pin :: List.replicate 15 2, gen := none, masked := 0, tables := [], prev := [], pad := 0 }

/-- Channel 496 with a format that uses D0 and D1, strobes off, and a vector to form. -/
def wForm (fill : Nat) : State :=
  ((put rdy [(chOff 496 Reg.tgMode0, 1)]).setLane 31 { laneReset with formQ := [iv0 1] }).modChan 496 (fun k =>
    { k with queue := List.replicate fill { cell := 0, t := 0, q := 0, stage := 0, act := .open_, vec := iv0 1, pin := 1 } })

theorem test_formation : ((wForm 0).lane 31).formQ.find? (fun v => v.no == ((wForm 0).chan 496).formed) = some (iv0 1) ∧ (wForm 0).canForm 496 (iv0 1) = true ∧
    0 < ((after (.edgeFormation 496) (wForm 0)).chan 496).queue.length ∧
    ((after (.edgeFormation 496) (wForm 256)).chan 496).queue.length = 256 ∧ (after (.edgeFormation 496) (wForm 256)).rdB (chOff 496 Reg.tgFlags) 4 = true := by
  decide +kernel

/-- Channel 496 with one entry in its edge queue. -/
def wEdge (cell : Nat) (act : EdgeAct) (pin : Nat) : State :=
  rdy.modChan 496 (fun k => { k with queue := [{ cell := cell, t := 9, q := 9, stage := 0, act := act, vec := iv0 pin, pin := pin }] })

theorem test_placement : (takeFirst (fun e => decide (e.cell < 4)) ((wEdge 0 (.enable true none true) 1).chan 496).queue).isSome = true ∧
    ((after (.edgePlacement 496) (wEdge 0 (.enable true (some true) true) 1)).chan 496).drive = true ∧
    ((after (.edgePlacement 496) (wEdge 0 (.enable false none false) 2)).chan 496).drive = false ∧
    ((after (.edgePlacement 496) (wEdge 1 (.level true) 1)).chan 496).held = true ∧
    ((after (.edgePlacement 496) (wEdge 1 .open_ 12)).chan 496).queue.length = 1 := by decide +kernel

theorem test_strobe : (takeFirst (fun e => e.cell == 4) ((wEdge 4 (.strobe false) 4).chan 496).queue).isSome = true ∧
    (takeFirst (fun e => e.cell == 5) ((wEdge 5 (.strobe true) 4).chan 496).queue).isSome = true ∧ cmpHalf 4 ≠ .none ∧ cmpHalf 4 ≠ .capture ∧ cmpHalf 2 = .none ∧
    ((after (.strobe 496 false false []) (wEdge 4 (.strobe false) 4)).lane 31).results.length = 1 ∧
    ((after (.strobe 496 true false []) ((wEdge 5 (.strobe true) 4).modChan 496 (fun k => { k with watch := [({ cell := 5, t := 9, q := 9, stage := 0, act := .strobe true, vec := iv0 4, pin := 4 }, true)] }))).lane 31).results.map (·.word) = [2] ∧
    ((after (.strobe 496 true true []) (wEdge 5 (.strobe true) 4)).chan 496).watch.length = 1 ∧
    ((after (.strobe 496 false false []) (wEdge 4 (.strobe false) 2)).lane 31).results = [] := by decide +kernel

/-- Channel 496 with an SCR vector to answer, whose table gives a driven 1 at index 0. -/
def wScr : State := rdy.modChan 496 (fun k => { k with scrWait := [{ iv0 0xC with tables := List.replicate 16 0x2222222222222221#64, prev := List.replicate 16 2 }] })

theorem test_response : (wScr.scrSrc 496).map (wScr.senseOf (iv0 0xC)) = List.replicate 4 (some (false, false, none)) ∧
    ((after (.responseLookup 496) wScr).chan 496).scrWait = [] ∧ ((after (.responseLookup 496) wScr).chan 496).resp = 1 := by decide +kernel

/-! ### Pin electronics -/

/-- Cluster 31 with a host strobe that waits, or a marker's. -/
def wStrobe (host : Bool) : State := if host then rdy.modClu 31 (fun k => { k with hostStrobe := 1 }) else rdy.setLane 31 { laneReset with strobes := [4] }

theorem test_load_strobe : rdy.reaches (cluOff 31 Reg.peLdstb) = true ∧ (rdy.seq 31).st = 0 ∧ rdy.laneStarting 31 = false ∧
    ((after (.hostLoadStrobe 31 1) rdy).clu 31).hostStrobe = 1 ∧
    (after (.hostLoadStrobe 31 1) (rdy.setSeq 31 { seqReset with st := 1 })).rdB (cluOff 31 Reg.peClFlags) 0 = true ∧
    ((wStrobe true).clu 31).hostStrobe = 1 ∧ ((wStrobe false).clu 31).hostStrobe = 0 ∧ ((wStrobe false).lane 31).strobes ≠ [] := by decide +kernel

/-- Channel 511 in a range change, or with a ramp that has one step left. -/
def wRamp : State := (put rdy [(chOff 511 Reg.peStatus, 0xC), (chOff 511 Reg.peActRampSlope, 5)]).modChan 511 (fun k => { k with ramping := true, rampLeft := some 1 })

theorem test_ranging_ramp : wRamp.rdB (chOff 511 Reg.peStatus) 2 = true ∧ (after (.rangingEnd 511) wRamp).rdB (chOff 511 Reg.peStatus) 2 = false ∧
    (wRamp.chan 511).ramping = true ∧ ((after (.rampStep 511) wRamp).chan 511).acc = 5 ∧ ((after (.rampStep 511) wRamp).chan 511).ramping = false := by decide +kernel

theorem test_staging : rdy.reaches (chOff 511 (Reg.peVil + 36)) = true ∧ rdy.peLegal 511 Reg.peVil 0 = true ∧
    rdy.peLegal 511 Reg.peRampSlope 0x7FFFFFFF = false ∧ (after (.peStagingWrite 511 8 0x7FFFFFFF) rdy).rdB (chOff 511 Reg.peFlags) 0 = true := by decide +kernel

/-- Channel 511 with its window monitor enabled. -/
def wWmon : State := put rdy [(chOff 511 Reg.peWmon, 1), (chOff 511 Reg.peStatus, 0x30)]

theorem test_crossing : wWmon.secondary 511 = false ∧ (after (.comparatorCrossing 511 true .below true) wWmon).rd (chOff 511 Reg.peStatus) = 0x90 ∧
    (after (.comparatorCrossing 511 true .below true) wWmon).rdB (chOff 511 Reg.peWmon) 9 = true ∧
    (after (.comparatorCrossing 511 false .below true) wWmon).rd (chOff 511 Reg.peStatus) = 0x20 := by decide +kernel

/-- The converter of cluster 31 converts its last channel's VIH, with another START behind it, or in a scan. -/
def wMon (next : Option (Nat × Nat)) (scan : Bool) : State :=
  (put rdy [(cluOff 31 Reg.peMonCtl, if scan then 0x8800 else 0x8000)]).modClu 31 (fun k => { k with mon := some (1, 15), monNext := next, scanAt := some 112 })

theorem test_monitor : rdy.reaches (cluOff 31 Reg.peMonCtl) = true ∧ (rdy.clu 31).mon = none ∧
    ((after (.monitorStart 31 0x1102) rdy).clu 31).mon = some (1, 2) ∧ ((after (.monitorStart 31 0x0800) rdy).clu 31).scanAt = some 1 ∧
    ((after (.monitorStart 31 0x1102) (wMon none false)).clu 31).monNext = some (1, 2) ∧
    (after (.monitorConversionEnd 31 0x1234 false) (wMon none false)).rd (cluOff 31 Reg.peMonResult) = 0x801F1234 ∧
    (after (.monitorConversionEnd 31 0x1234 false) (wMon none false)).rdB (cluOff 31 Reg.peClFlags) 1 = true ∧
    ((after (.monitorConversionEnd 31 0 true) (wMon (some (0, 3)) false)).clu 31).mon = some (0, 3) ∧
    ((after (.monitorConversionEnd 31 0 true) (wMon none true)).clu 31).scanAt = some 0 := by decide +kernel

/-! ### Fail logic -/

/-- A result of channel 496, of site 63, and a fail-queue entry of it. -/
def res496 (word : Nat) : Result := { cycle := 5, ch := 496, s1 := false, win := false, vec := iv0 4, pin := 4, word := word }
def wResult (word : Nat) : State := (put rdy [(chOff 496 Reg.flChSite, 0x7F)]).setLane 31 { laneReset with results := [res496 word] }

theorem test_judge : (wResult 1).siteOf 496 = some 63 ∧ (after (.strobeResultJudge 31) (wResult 1)).rd (Reg.flSiteFail + 16 * 63) = 1 ∧
    ((after (.strobeResultJudge 31) (wResult 1)).lane 31).failQ.length = 1 ∧ ((after (.strobeResultJudge 31) (wResult 1)).lane 31).failLatch = true ∧
    (after (.strobeResultJudge 31) (wResult 2)).rd (Reg.flSiteIndet + 16 * 63) = 1 ∧ ((after (.strobeResultJudge 31) (wResult 0)).lane 31).results = [] ∧
    ((after (.strobeResultJudge 31) (wResult 3)).lane 31).results = [] := by decide +kernel

/-- A FAIL of site 0 on data pin 0 at address (1, 2, 0), to be written; the bitmap is on, with 1 MiB of records. -/
def wDrain (mib : Nat) : State :=
  (put rdy [(Reg.flRecSize, BitVec.ofNat 32 mib), (Reg.flBmpEnLo, 1), (Reg.flGeom, 0x00000404)]).setLane 31
    { laneReset with roles := 0xC0, failQ := [{ kind := 1, site := 0, res := { res496 1 with vec := { iv0 4 with gen := some { x := 1, y := 2, z := 0, d := 0 } } }, seq := 3 }] }

theorem test_drain : (wDrain 1).recMib = 1 ∧ ((wDrain 1).cellOf 31 { kind := 1, site := 0, res := { res496 1 with vec := { iv0 4 with gen := some { x := 1, y := 2, z := 0, d := 0 } } }, seq := 3 }).1.isSome = true ∧
    ((after (.failWriterDrain 31 .clean .clean) (wDrain 1)).lane 31).slot = 1 ∧
    (after (.failWriterDrain 31 .clean .clean) (wDrain 1)).failByte 1 = 1 ∧
    (after (.failWriterDrain 31 .clean .clean) (wDrain 0)).rdB (cluOff 31 Reg.flFlags) 0 = false := by decide +kernel

/-- Lane 31 has ended and lost two records. -/
def wLost : State := (put rdy [(Reg.flRecSize, 1), (cluOff 31 Reg.flRecLost, 2)]).setLane 31 { laneReset with issued := 64 }

theorem test_lost_record : wLost.laneDrained 31 = true ∧ (after (.lostRecordWrite 31) wLost).rd (cluOff 31 Reg.flRecWr) = 1 := by decide +kernel

/-- A clear of site 5 is under way. -/
def wClearing : State := let s := put rdy [(Reg.flClear, 0x40000000)]; { s with plan := { s.plan with clearing := [5] } }

theorem test_fail_writes : rdy.reaches Reg.flSiteMaskHi = true ∧ (after (.flSiteMaskWrite .hi 5) rdy).rd Reg.flSiteMaskHi = 5 ∧
    rdy.reaches Reg.flGeom = true ∧ rdy.plnState = 0 ∧ (after (.flConfigWrite .geom 0x10203) (put rdy [(Reg.memFailSize, 1)])).rd Reg.flGeom = 0x10203 ∧
    rdy.flRefused .geom 0xFFFFFFFF = true ∧ (after (.flConfigWrite .geom 1) (wRuns 0x60000 rdy)).rdB Reg.flDevFlags 0 = true ∧
    rdy.reaches Reg.flClear = true ∧ (after (.flClear 0x80000005) rdy).plan.clearing = [5] ∧ (after (.flClear 0x80000005) rdy).rdB Reg.flClear 30 = true ∧
    wClearing.plan.clearing ≠ [] := by decide +kernel

theorem test_counter_window : rdy.reaches (0xC00000 + 0xFFFFC) = true ∧ (after (.failCounterWindowWrite 0xFFFFC#20 0x04030201 none) rdy).failByte 0xFFFFE = 3 ∧
    (after (.failCounterWindowWrite 0#20 0x04030201 (some 31)) (wDrain 1)).failByte 1 = 1 ∧
    (after (.failCounterWindowWrite 0#20 0x04030201 (some 31)) (wDrain 1)).rd Reg.memCollide = 1 := by decide +kernel

/-! ### Time-interval analysers -/

/-- The TIA of channel 511 in a state and a mode, with what its measurement holds. -/
def wTia (st mode : Nat) (f : Tia → Tia) : State :=
  (put rdy [(chOff 511 Reg.tiaStatus, BitVec.ofNat 32 st), (chOff 511 Reg.tiaCfg, BitVec.ofNat 32 (mode + 15 * 2 ^ 8)), (chOff 511 Reg.tiaN, 2),
    (chOff 511 Reg.tiaGate, 4), (chOff 511 Reg.tiaTimeout, 5), (chOff 511 Reg.peStatus, 0)]).modChan 511 (fun k => { k with tia := f k.tia })

/-- An event at 700. -/
def tEvent (start stop lost : Bool) : TEvent := { ts := 700, start := start, stop := stop, low := false, rise := true, line := 0, lost := lost }

theorem test_tia_counts : rdy.reaches (chOff 511 Reg.tiaN) = true ∧ rdy.reaches (chOff 511 Reg.tiaGate) = true ∧ rdy.tiaFree 511 = true ∧
    (after (.tiaNWrite 511 false 0x1000000) rdy).rd (chOff 511 Reg.tiaN) = 0x1000000 ∧
    (after (.tiaNWrite 511 false 0x1000001) rdy).rdB (chOff 511 Reg.tiaFlags) 1 = true ∧ (after (.tiaNWrite 511 true 0) rdy).rdB (chOff 511 Reg.tiaFlags) 1 = true ∧
    (after (.tiaNWrite 511 true 0xFFFFFFFF) rdy).rd (chOff 511 Reg.tiaGate) = 0xFFFFFFFF := by decide +kernel

theorem test_tia_arm : (wTia 0 1 id).reaches (chOff 511 Reg.tiaCtl) = true ∧ (wTia 0 1 id).tiaFree 511 = true ∧ (wTia 0 1 id).tiaMode 511 ≠ 0 ∧
    (after (.tiaArm 511) (wTia 0 1 id)).tiaState 511 = 1 ∧ (after (.tiaArm 511) (wTia 2 1 id)).rdB (chOff 511 Reg.tiaFlags) 0 = true ∧
    (wTia 2 1 id).tiaOwned 511 = false ∧ (after (.tiaAbort ⟨511, 60⟩) (wTia 2 1 id)).rdF (chOff 511 Reg.tiaStatus) 6 4 = 4 ∧
    fieldOf ((wTia 1 1 id).tiaCfg 511) 6 5 = 0 ∧ (after (.tiaArmInstant 511 44) (wTia 1 1 (fun a => { a with armDue := true }))).tiaState 511 = 2 ∧
    (after (.tiaTimeout 511) (wTia 2 1 id)).rdF (chOff 511 Reg.tiaStatus) 6 4 = 2 ∧ (after (.tiaRangeEnd 511) (wTia 2 1 id)).tiaState 511 = 3 := by decide +kernel

theorem test_tia_config : rdy.reaches (chOff 511 Reg.tiaCfg) = true ∧ rdy.reaches (chOff 511 Reg.tiaTimeout) = true ∧
    (after (.tiaConfigWrite 511 false 5) rdy).rdB (chOff 511 Reg.tiaFlags) 0 = true ∧ (after (.tiaConfigWrite 511 false 4) rdy).rd (chOff 511 Reg.tiaCfg) = 4 ∧
    (after (.tiaConfigWrite 511 true 9) (wTia 2 1 id)).rdB (chOff 511 Reg.tiaFlags) 0 = true := by decide +kernel

theorem test_transition : (wTia 2 1 id).secondary 511 = false ∧ (wTia 2 1 id).tiaNames 511 511 = true ∧ (wTia 0 1 id).tiaNames 511 511 = false ∧
    ((after (.transitionTimestamp 511 false true 12 4 0) (wTia 2 1 id)).chan 511).tia.events.length = 1 ∧
    (wTia 2 1 id).strobeIn 511 4 100 = false := by decide +kernel

theorem test_tia_interval : ((after (.tiaEvent 511) (wTia 2 1 (fun a => { a with events := [tEvent true false false] }))).chan 511).tia.heldStart = some 700 ∧
    (after (.tiaEvent 511) (wTia 2 1 (fun a => { a with events := [tEvent false true false] }))).rdF (chOff 511 Reg.tiaSkip) 15 0 = 1 ∧
    (after (.tiaEvent 511) (wTia 2 1 (fun a => { a with events := [tEvent false true false], heldStart := some 600 }))).rd (chOff 511 Reg.tiaCount) = 1 ∧
    (after (.tiaEvent 511) (wTia 2 1 (fun a => { a with events := [tEvent true false true], heldStart := some 600 }))).rdF (chOff 511 Reg.tiaDiscard) 15 0 = 1 := by
  decide +kernel

theorem test_tia_signed : bitOf ((wTia 2 9 id).tiaCfg 511) 3 = true ∧ (wTia 2 9 id).tiaMode 511 = 1 ∧
    ((after (.tiaEvent 511) (wTia 2 9 (fun a => { a with events := [tEvent false true false] }))).chan 511).tia.heldStop = some 700 ∧
    ((after (.tiaEvent 511) (wTia 2 9 (fun a => { a with events := [tEvent true false false], heldStop := some 600 }))).chan 511).tia.sum = -409600 := by decide +kernel

theorem test_tia_period : (after (.tiaEvent 511) (wTia 2 2 (fun a => { a with events := [tEvent true false false] }))).rd (chOff 511 Reg.tiaCount) = 0 ∧
    ((after (.tiaEvent 511) (wTia 2 2 (fun a => { a with events := [tEvent true false false], prev := some 600 }))).chan 511).tia.sum = 409600 ∧
    (after (.tiaEvent 511) (put (wTia 2 2 (fun a => { a with events := [tEvent true false false], prev := some 600 })) [(chOff 511 Reg.tiaCount, 1)])).tiaState 511 = 3 := by
  decide +kernel

theorem test_tia_frequency : (wTia 2 3 id).gateOf 511 10239 = 0 ∧ (wTia 2 3 id).gateOf 511 10240 = 1 ∧
    ((after (.tiaEvent 511) (wTia 2 3 (fun a => { a with events := [tEvent true false false] }))).chan 511).tia.gateCount = 1 ∧
    (after (.frequencyGateEnd 511) (wTia 2 3 (fun a => { a with gateCount := 3, gateFirst := 10, gateLast := 30 }))).rd (chOff 511 Reg.tiaFcnt) = 3 ∧
    ((after (.frequencyGateEnd 511) (wTia 2 3 (fun a => { a with gateCount := 3, gateFirst := 10, gateLast := 30 }))).chan 511).tia.sum = 40960 := by decide +kernel

theorem test_tia_timestamps : (put (wTia 2 4 id) [(cluOff 31 Reg.acqStatus, 1)]).acqLive 31 = true ∧
    ((after (.tiaEvent 511) (put (wTia 2 4 (fun a => { a with events := [tEvent true false false] })) [(cluOff 31 Reg.acqStatus, 1)])).clu 31).acq.tia.length = 1 := by
  decide +kernel

theorem test_tia_lines : (put rdy [(chOff 511 Reg.tiaLine, 0x400)]).lineState 511 5 = 1 ∧
    (after (.lineLock 511 5) (put rdy [(chOff 511 Reg.tiaLine, 0x400)])).lineState 511 5 = 0 ∧
    (after (.lineUnlock 511 5) (put rdy [(chOff 511 Reg.tiaLine, 0)])).rdB (chOff 511 Reg.tiaFlags) 2 = true ∧
    (after (.lineAcquireTimeout 511 5) (put rdy [(chOff 511 Reg.tiaLine, 0x400)])).lineState 511 5 = 2 := by decide +kernel

theorem test_density : rdy.reaches (chOff 511 Reg.tiaCdCtl) = true ∧ rdy.laneIdle 31 = true ∧ rdy.tiaFree 511 = true ∧
    (after (.codeDensityStart 511 0x00211001) rdy).rdB (chOff 511 Reg.tiaCdCtl) 31 = true ∧ ((after (.codeDensityStart 511 0x00211001) rdy).chan 511).cdLeft = [0, 5] ∧
    (after (.codeDensityStart 511 0x00210F01) rdy).rdB (chOff 511 Reg.tiaFlags) 0 = true ∧
    (after (.codeDensityStart 511 0x00211001) (wTia 2 1 id)).rdB (chOff 511 Reg.tiaFlags) 0 = true := by decide +kernel

/-- A code-density test of line 5 of channel 511, alone or as the sounding pass starts it. -/
def wDensity (snd : Bool) : State := (put rdy (if snd then [(Reg.sndStatus, 0x20001)] else [(chOff 511 Reg.tiaCdCtl, 0x1000)])).modChan 511 (fun k => { k with cdLeft := [5] })

theorem test_density_end : (wDensity false).sounding = false ∧ (wDensity false).hitsLog2 511 = 16 ∧ densityFails (141 :: List.replicate 319 205) = false ∧ densityFails (65536 :: List.replicate 319 0) = true ∧
    (after (.codeDensityEnd 511 5 (141 :: List.replicate 319 205)) (wDensity false)).lineState 511 5 = 3 ∧
    (after (.codeDensityEnd 511 5 (65536 :: List.replicate 319 0)) (wDensity false)).rdF (chOff 511 Reg.tiaCdCtl) 25 24 = 2 ∧
    ((after (.codeDensityEnd 511 5 (List.replicate 320 205)) (wDensity false)).chan 511).cdLeft = [5] := by decide +kernel

theorem test_density_pass : (wDensity true).sounding = true ∧ (wDensity true).sndPhase = 2 ∧ (wDensity true).testedChans = [] := by decide +kernel

/-! ### Parametric units and synthesis -/

/-- The parametric unit of channel 511 is connected in FVMI, its chain live, and its window monitor on. -/
def wPmu (held : Bool) : State :=
  (put rdy [(chOff 511 Reg.pmuActCfg, 1), (chOff 511 Reg.pmuStatus, if held then 0x21 else 1), (chOff 511 Reg.peStatus, 0), (chOff 511 Reg.pmuWmon, 1),
    (chOff 511 Reg.pmuWinHi, 5), (chOff 511 Reg.pmuWinLo, 0xFFFFFB)]).modChan 511 (fun k => { k with pmu := { k.pmu with live := true, resets := 1 } })

theorem test_pmu_staging : rdy.reaches (chOff 511 (Reg.pmuForce + 16)) = true ∧ rdy.pmuLegal 511 Reg.pmuCfg 6 = false ∧ rdy.pmuLegal 511 Reg.pmuCfg 5 = true ∧
    (after (.pmuStagingWrite 511 3 6) rdy).rdB (chOff 511 Reg.pmuFlags) 0 = true ∧ (after (.pmuStagingWrite 511 3 5) rdy).rd (chOff 511 Reg.pmuCfg) = 5 := by decide +kernel

theorem test_pmu_sync : (wPmu false).reaches (cluOff 31 Reg.pmuSync) = true ∧ ((after (.pmuSyncWrite 31 0x8000) (wPmu false)).chan 511).pmu.resets = 2 ∧
    (wPmu false).pmuIssues 511 = true ∧ ((after (.syncReset 511 66) (wPmu false)).chan 511).pmu.resetAt = 66 ∧
    rdy.pmuIssues 511 = false := by decide +kernel

theorem test_pmu_word : ((wPmu false).wordParts 511 7).value = 7 ∧ (wPmu false).padHeld 511 = false ∧
    (after (.resultWord 511 7) (wPmu false)).rd (chOff 511 Reg.pmuWords) = 1 ∧ (after (.resultWord 511 7) (wPmu false)).rdB (chOff 511 Reg.pmuWmon) 8 = true ∧
    (after (.resultWord 511 (-7)) (wPmu false)).rdB (chOff 511 Reg.pmuWmon) 9 = true ∧ (after (.resultWord 511 7) (put (wPmu false) [(cluOff 31 Reg.acqStatus, 1)])).rd (chOff 511 Reg.pmuWords) = 1 ∧
    (wPmu true).padHeld 511 = true ∧ ((wPmu true).sndRes 511).words.length < 4 ∧ ((after (.resultWord 511 7) (wPmu true)).sndRes 511).words.length = 1 := by decide +kernel

theorem test_pmu_dcb : bitOf ((put (wPmu false) [(chOff 511 Reg.pmuActFilt, 0x2019)]).pmuFilt 511) 13 = true ∧
    ((put (wPmu false) [(chOff 511 Reg.pmuActFilt, 0x2019)]).wordParts 511 7).value = 0 ∧ rdy.reaches (chOff 511 Reg.pmuDcb) = true := by decide +kernel

theorem test_clamp : (wPmu false).clampable 511 = true ∧ (after (.clampEntry 511 9) (wPmu false)).rdB (chOff 511 Reg.pmuStatus) 1 = true ∧
    ((after (.clampExit 511 12) (after (.clampEntry 511 9) (wPmu false))).chan 511).pmu.clamps = [(9, some 12)] ∧
    (after (.modulatorOverload 511 9) (wPmu false)).rdB (chOff 511 Reg.pmuStatus) 3 = true := by decide +kernel

/-- A token at the front of the queue of lane 31, of entry 0 or of IDLE_CODE. -/
def wToken (e : Option Nat) : State :=
  (put rdy [(cluOff 31 Reg.ddsCtl, 0x155)]).setLane 31
    { laneReset with live := true, queue := [.token { keep := laneReset.keepVec false, named := some 0, entry := e, play := 0, g := 0, enter := true }] }

theorem test_token : ((after (.ddsTokenIssue 31) (wToken none)).clu 31).dds.out.map (·.codes) = [List.replicate 64 0x155] ∧
    ((after (.ddsTokenIssue 31) (wToken none)).lane 31).issued = 64 ∧ ((after (.ddsTokenIssue 31) (wToken (some 0))).clu 31).dds.out.map (·.named) = [some 0] := by decide +kernel

/-- Words of the data registers of the synthesis tables. -/
def wDds (d0 d1 : W32) : State := put rdy [(cluOff 31 Reg.ddsData0, d0), (cluOff 31 Reg.ddsData1, d1)]

theorem test_dds_tables : rdy.reaches (cluOff 31 Reg.ddsAddr) = true ∧ (wDds 5 1).tableEngaged 31 0 1 255 = false ∧ ddsIllegal 1 5 1 = false ∧ ddsIllegal 1 5 0x8000 = true ∧
    (after (.ddsEntryWrite ⟨31, 0⟩ 0x810000FF) (wDds 5 1)).tableGet 31 1 255 = 0x100000005 ∧ (after (.ddsEntryWrite ⟨31, 0⟩ 0x810000FF) (wDds 5 0x8000)).rdB (cluOff 31 Reg.ddsFlags) 1 = true ∧
    (after (.ddsEntryRead 31 0x410000FF) (after (.ddsEntryWrite ⟨31, 0⟩ 0x810000FF) (wDds 5 1))).rd (cluOff 31 Reg.ddsData1) = 1 := by decide +kernel

/-! ### Triggers and capture -/

/-- Cluster 31 in an acquisition state, with a ring of one MiB / 16, what its machine holds, and registers. -/
def wAcq (st : Nat) (f : Acq → Acq) (l : List (Nat × W32)) : State :=
  (put rdy ([(cluOff 31 Reg.acqStatus, BitVec.ofNat 32 st), (cluOff 31 Reg.acqSpillSize, 1), (cluOff 31 Reg.acqPost, 5)] ++ l)).modClu 31 (fun k => { k with acq := f k.acq })

theorem test_acq_arm : (wAcq 0 id []).reaches (cluOff 31 Reg.acqCtl) = true ∧ (wAcq 0 id []).acqFree 31 = true ∧ (wAcq 0 id []).spillSlots 31 ≠ 0 ∧
    (after (.acqArm 31) (wAcq 0 id [])).acqState 31 = 1 ∧ (after (.acqArm 31) (wAcq 1 id [])).rdB (cluOff 31 Reg.acqFlags) 0 = true ∧
    rdy.spillSlots 31 = 0 ∧ (after (.acqAbort 31) (wAcq 2 id [])).rd (cluOff 31 Reg.acqFrameCnt) = 1 ∧ (after (.acqAbort 31) (wAcq 2 id [])).acqState 31 = 4 ∧
    (wAcq 1 id []).acqLive 31 = true ∧ ((after (.acqForce 31) (wAcq 1 id [])).clu 31).acq.inputs = [plainIn 8] ∧
    ((after (.acqArmInstant 31 8) (wAcq 1 (fun a => { a with armDue := true }) [])).clu 31).acq.armAt = 8 := by decide +kernel

theorem test_rearm : (wAcq 3 id []).acqState 31 = 3 ∧ (after (.rearmEnd 31) (wAcq 3 id [])).acqState 31 = 1 ∧
    (after (.rearmEnd 31) (wAcq 3 id [(cluOff 31 Reg.acqFrames, 2), (cluOff 31 Reg.acqFrameCnt, 2)])).acqState 31 = 4 ∧
    (after (.rearmEnd 31) (wAcq 3 id [(cluOff 31 Reg.acqFrames, 2), (cluOff 31 Reg.acqFrameCnt, 1)])).acqState 31 = 1 := by decide +kernel

theorem test_spill_registers : (wAcq 0 id []).reaches (cluOff 31 Reg.acqSpillRd) = true ∧
    (after (.acqSpillRdWrite 31 7) (wAcq 0 id [(cluOff 31 Reg.acqSpillWr, 8)])).rd (cluOff 31 Reg.acqSpillRd) = 7 ∧
    (after (.acqSpillRdWrite 31 9) (wAcq 0 id [(cluOff 31 Reg.acqSpillWr, 8)])).rdB (cluOff 31 Reg.acqFlags) 0 = true ∧
    (after (.acqSpillRdWrite 31 4096) (wAcq 0 id [])).rdB (cluOff 31 Reg.acqFlags) 0 = true ∧
    (after (.acqSpillConfigWrite 31 false 15) (wAcq 0 id [(Reg.memSpillSize, 1)])).rd (cluOff 31 Reg.acqSpillBase) = 15 ∧
    (after (.acqSpillConfigWrite 31 false 16) (wAcq 0 id [(Reg.memSpillSize, 1)])).rdB (cluOff 31 Reg.acqFlags) 0 = true ∧
    acqConfigReg Reg.acqCfg = true ∧ rdy.reaches (cluOff 31 Reg.acqCfg) = true ∧ acqRefused Reg.acqCfg 2 = false ∧ acqRefused Reg.acqCond0 0x90000000 = true ∧
    (after (.acqConfigWrite 31 (BitVec.ofNat 12 Reg.acqCond0) 0x90000000) rdy).rdB (cluOff 31 Reg.acqFlags) 0 = true := by decide +kernel

/-- Condition 0 is FORCE; state 0 counts it once and takes the arc to `arc`. -/
def wArc (st arc : Nat) (l : List (Nat × W32)) : State :=
  wAcq st (fun a => { a with inputs := [plainIn 8], sample := 10, timer := 6 })
    ([(cluOff 31 Reg.acqCond0, 0x80000000), (acqSt 31 Reg.acqStCtl 0, 1), (acqSt 31 Reg.acqStCount 0, 1), (acqSt 31 Reg.acqStNext 0, BitVec.ofNat 32 arc)] ++ l)

theorem test_arcs : (wArc 1 3 []).metBits 31 = 1 ∧ (wArc 1 3 []).sampleRecords 31 10 = [] ∧ (after (.triggerSample 31) (wArc 1 3 [])).rdF (cluOff 31 Reg.acqStatus) 6 4 = 3 ∧
    (after (.triggerSample 31) (wArc 1 8 [])).acqState 31 = 2 ∧ ((after (.triggerSample 31) (wArc 1 8 [])).clu 31).acq.trigAt = some 12 ∧
    ((after (.triggerSample 31) (wArc 1 3 [(acqSt 31 Reg.acqStCount 0, 2)])).clu 31).acq.count = 1 ∧
    (wAcq 1 id []).metBits 31 = 0 ∧ ((after (.triggerSample 31) (wAcq 1 id [])).clu 31).acq.timer = 1 := by decide +kernel

/-- A sample that offers one capture record, with room for it or without. -/
def wRecord (full : Bool) : State :=
  wAcq 1 (fun a => { a with tia := [(3, 77)], spillQ := if full then List.replicate 16 (0, 0) else [] }) [(cluOff 31 Reg.acqCapSrc, 0xFFFFFFFF), (cluOff 31 Reg.acqPre, 16)]

theorem test_record : ((wRecord false).sampleRecords 31 0).length ≤ min 4 ((wRecord false).capRoom 31) ∧ ((wRecord false).sampleRecords 31 0).length = 1 ∧
    ((after (.triggerSample 31) (wRecord false)).clu 31).acq.pre.length = 1 := by decide +kernel

theorem test_state_timeout : (after (.stateTimeout 31) (wArc 1 3 [(acqSt 31 Reg.acqStTimer 0, 6), (acqSt 31 Reg.acqStCtl 0, 0x500)])).rdF (cluOff 31 Reg.acqStatus) 6 4 = 5 := by
  decide +kernel

theorem test_state_timeout_trigger : ∀ st ∈ [1, 2], (wArc st 3 [(acqSt 31 Reg.acqStTimer 0, 6), (acqSt 31 Reg.acqStCtl 0, 0xD00)]).acqLive 31 = true ∧
    (wArc st 3 [(acqSt 31 Reg.acqStTimer 0, 6), (acqSt 31 Reg.acqStCtl 0, 0xD00)]).acqState 31 = st ∧
    (wArc st 3 [(acqSt 31 Reg.acqStTimer 0, 6), (acqSt 31 Reg.acqStCtl 0, 0xD00)]).rd (cluOff 31 Reg.acqPost) ≠ 0 := by decide +kernel

/-- A record waits to be spilled at slot `wr`. -/
def wSpill (wr : Nat) : State := wAcq 1 (fun a => { a with spillQ := [(0, 0x1234)] }) [(cluOff 31 Reg.acqSpillWr, BitVec.ofNat 32 wr)]

theorem test_spill : (wSpill 0).dramServes = true ∧ (after (.spillRecord 31 .clean 0 0) (wSpill 0)).rd (cluOff 31 Reg.acqSpillWr) = 1 ∧
    (after (.spillRecord 31 .clean 0 0) (wSpill 0)).dramAt ((wSpill 0).spillAddr 31 0 + 1) = 0x12 ∧
    (after (.spillRecord 31 .clean 0 0) (wSpill 4095)).rdB (cluOff 31 Reg.acqFlags) 4 = true ∧
    (after (.spillRecord 31 .lost 0 0) (wSpill 0)).rd (cluOff 31 Reg.acqDrop) = 1 := by decide +kernel

/-! ### Clauses at their limits: pins, measurement and capture -/

theorem test_responses_placed : ((after (.responseLookup 496) (wScr.modChan 496 (fun k => { k with queue :=
      [{ cell := 0, t := 9, q := 9, stage := 0, act := .open_, vec := iv0 0xC, pin := 0xC }] }))).chan 496).queue.all (fun e => e.act != .open_) = true := by decide +kernel

/-- A strobe set of channel 496 that breaks a rule and asks for a reset of its chain. -/
def wSyncBad : State :=
  (put rdy [(chOff 496 Reg.pmuCfg, 0x102), (chOff 496 Reg.pmuActCfg, 2), (chOff 496 Reg.pmuStatus, 1), (chOff 496 Reg.peStatus, 0), (chOff 496 Reg.peTaps, 1)]).modClu 31 (fun k => { k with hostStrobe := 2 })

theorem test_strobe_sync : wSyncBad.setBad 496 (wSyncBad.capture 496 false).1 = true ∧ bitOf ((wSyncBad.capture 496 false).1.val Reg.pmuCfg) 8 = true ∧
    (wSyncBad.capture 496 false).2 = false ∧ wSyncBad.pmuIssues 496 = true ∧ wSyncBad.padHeld 496 = false ∧ wSyncBad.paired 496 = false ∧
    ((after (.loadStrobe ⟨31, false, 5⟩) wSyncBad).clu 31).hostStrobe = 1 ∧ ((after (.loadStrobe ⟨31, false, 5⟩) wSyncBad).chan 496).pmu.resets = 1 := by decide +kernel

theorem test_pulse_guards : (after (.clampEntry 511 9) rdy).rdB (chOff 511 Reg.pmuStatus) 1 = false ∧ rdy.clampable 511 = false ∧
    ((after (.syncReset 511 3) ((wPmu false).modChan 511 (fun k => { k with pmu := { k.pmu with resets := 1, clamps := [(1, some 2), (1, some 4), (2, none)] } }))).chan 511).pmu.clamps =
      [(1, some 4), (2, none)] ∧
    ((after (.syncReset 511 3) ((put (wPmu false) [(chOff 511 Reg.pmuDcb, 0x80000000)]).modChan 511 (fun k => { k with pmu := { k.pmu with resets := 1 } }))).chan 511).pmu.kept = true := by
  decide +kernel

theorem test_freeze_resume : (((put (wPmu false) [(chOff 511 Reg.pmuActFilt, 0x2019)]).modChan 511 (fun k => { k with pmu := { k.pmu with kept := true, s := 3, k := 0 } })).wordParts 511 7).value = 4 := by
  decide +kernel

theorem test_cleared_crossing : (let s := (wTia 2 1 id).modChan 511 (fun k => { k with crossHi := { cleared := true, latched := false } })
    ((after (.transitionTimestamp 511 false true 12 4 0) s).chan 511).tia.events = []) ∧
    (let s := (wTia 2 1 id).modChan 511 (fun k => { k with strobeAt := [(4, 101)] })
     s.strobeIn 511 4 100 = true ∧ (after (.transitionTimestamp 511 false true 12 4 0) s).rdF (chOff 511 Reg.tiaLost) 15 0 = 1) ∧
    (let s := after (.comparatorCrossing 511 false .above true) wWmon
     (s.chan 511).crossHi = { cleared := true, latched := true }) := by decide +kernel

/-- A running TIA with an event at 700, in a cut that comes after it or in its own cycle. -/
theorem test_tia_cut : (let s := wTia 2 1 (fun a => { a with events := [tEvent false true false], heldStart := some 600, n := 1 })
    let t := after (.tiaAbort ⟨511, 8⟩) (put s [(chOff 511 Reg.tiaCount, 1)])
    t.tiaState 511 = 3 ∧ t.rdF (chOff 511 Reg.tiaStatus) 6 4 = 1 ∧ t.rd (chOff 511 Reg.tiaCount) = 2) ∧
    (let s := wTia 2 1 (fun a => { a with events := [{ tEvent false true false with ts := 99999 }], heldStart := some 600 })
     (after (.tiaAbort ⟨511, 8⟩) s).rdF (chOff 511 Reg.tiaStatus) 6 4 = 4 ∧ (after (.tiaTimeout 511) (wTia 2 1 id)).rdF (chOff 511 Reg.tiaStatus) 6 4 = 2 ∧
     cutCode (wTia 2 1 id) 511 (5 * 2 ^ 20) 4 = 2) ∧
    ((after (.tiaAbort ⟨511, 8⟩) (wTia 1 1 id)).tiaState 511 = 3 ∧ (after (.tiaAbort ⟨511, 8⟩) (wTia 0 1 id)).tiaState 511 = 0) ∧
    fieldOf ((put (wTia 1 1 (fun a => { a with armDue := true })) [(chOff 511 Reg.tiaCfg, 0x21)]).tiaCfg 511) 6 5 = 1 := by decide +kernel

theorem test_dds_engaged : (let g : DdsGran := { named := some 0, cycle := 100, codes := [] }
    let s := (put rdy [(cluOff 31 Reg.ddsData1, 1)]).modClu 31 (fun k => { k with dds := { k.dds with out := [g] } })
    s.tableEngaged 31 164 0 0 = true ∧ s.tableEngaged 31 165 0 0 = false ∧
      (after (.ddsEntryWrite ⟨31, 164⟩ 0x80000000) s).rdB (cluOff 31 Reg.ddsFlags) 0 = true) ∧
    (after (.ddsEntryWrite ⟨31, 0⟩ 0xC10000FF) (wDds 5 1)).rd (cluOff 31 Reg.ddsData1) = 1 ∧
    (after (.ddsEntryWrite ⟨31, 0⟩ 0x010000FF) (wDds 5 1)).tableGet 31 1 255 = 0 := by decide +kernel

theorem test_acq_arm_source : (let s := (wAcq 1 (fun a => { a with armDue := true, armPad := 7 }) [(cluOff 31 Reg.acqCfg, 1)]).setLane 31 { laneReset with pad := 1600 }
    ((after (.acqArmInstant 31 1600) s).clu 31).acq.armAt = 1600 ∧ ((after (.acqArmInstant 31 1608) s).clu 31).acq.armDue = true) ∧
    rdy.preRefused 31 Reg.acqPre 0xFFFF = false ∧
    ({ rdy with mem := { rdy.mem with macros := [(520 + 16 * 31, { macroReset with retired := [3] })] } } : State).preRefused 31 Reg.acqPre 0xFFF8 = true := by
  decide +kernel

/-- The trigger finds the slot of its record taken by a record that has not been spilled; or a sample offers five records. -/
theorem test_full_capture : (let s := wArc 1 8 []
    let f := s.modClu 31 (fun k => { k with acq := { k.acq with place := 65536, spillQ := [(0, 9)] } })
    (f.clu 31).acq.slotFree (f.captureSlots 31) 0 = false ∧ ((after (.triggerSample 31) f).clu 31).acq.waits.length = 1 ∧
      ((after (.triggerSample 31) s).clu 31).acq.waits = [] ∧ ((after (.triggerSample 31) s).clu 31).acq.spillQ.length = 1) ∧
    (let s := (wAcq 1 (fun a => { a with tia := List.replicate 5 (3, 77) }) [(cluOff 31 Reg.acqCapSrc, 0xFFFFFFFF), (cluOff 31 Reg.acqPre, 16)])
     (s.sampleRecords 31 0).length = 5 ∧ ((after (.triggerSample 31) s).clu 31).acq.gap = some (0, 0, 1)) ∧
    (after (.triggerSample 31) (wAcq 0 id [])).rd (cluOff 31 Reg.acqStatus) = 0 ∧ (wAcq 0 id []).acqLive 31 = false := by decide +kernel

theorem test_judge_order : ((after (.strobe 496 false false []) ((wEdge 4 (.strobe false) 4).setLane 31 { laneReset with results := [{ res496 1 with cycle := 0, ch := 511 }] })).lane 31).results.map (·.ch) = [496, 511] ∧
    (after (.strobeResultJudge 31) ((wResult 1).setLane 31 { (wResult 1).lane 31 with failQ := List.replicate 1024 { kind := 1, site := 0, res := res496 1, seq := 0 } })).rd (cluOff 31 Reg.flRecLost) = 0 := by
  decide +kernel

/-! ### Sounding and calibration -/

/-- TD_N is enabled, with AUTO. -/
def wTouch (low : Bool) : State := let s := put rdy [(Reg.sndCfg, 3)]; { s with snd := { s.snd with tdLow := low } }

/-- A pass stands in a phase. -/
def wPass (phase : Nat) : State := put rdy [(Reg.sndStatus, BitVec.ofNat 32 (phase * 2 ^ 16 + 1))]

theorem test_touchdown : (wTouch false).boot.stage = .ready ∧ (wTouch false).rdB Reg.sndCfg 1 = true ∧ (wTouch false).rdB Reg.sndCfg 0 = true ∧
    (wTouch false).sounding = false ∧ (wTouch false).snd.tdLow = false ∧ (wTouch true).snd.tdLow = true ∧ rdy.reaches Reg.sndCtl = true ∧ rdy.snd.request = none ∧
    (after .sndClrMask (put rdy [(Reg.sndMaskLo, 9)])).rd Reg.sndMaskLo = 0 ∧ (after .sndClrMask (wPass 3)).rdB Reg.sndFlags 2 = true ∧
    (after .sndStart (wPass 3)).rdB Reg.sndFlags 2 = true := by decide +kernel

theorem test_sound_command : (front rdy (cmd 9 0 0 0 0 0)).fetches = true ∧ badFields (cmd 9 0 0 0 0 0) = false ∧ (front rdy (cmd 9 0 0 0 0 0)).refusal (cmd 9 0 0 0 0 0) = none ∧
    status (after .sound (front (wPass 3) (cmd 9 0 0 0 0 0))) = St.discarded := by decide +kernel

/-- A request waits. -/
def wRequest : State := { rdy with snd := { rdy.snd with request := some 2 } }

theorem test_pass_phases : wRequest.snd.request.isSome = true ∧ wRequest.plnState = 0 ∧ wRequest.calBusy = false ∧ wRequest.sounding = false ∧
    (∀ p ∈ [3, 4, 5, 6], (wPass p).sounding = true ∧ (wPass p).sndPhase = p) := by decide +kernel

/-- Channel 496 is the tested channel, with its four contact words. -/
def wContact : State :=
  let s := put (wPass 3) [(chOff 496 Reg.flChSite, 0x40)]
  { s with snd := { s.snd with res := [(496, { sndResNone with words := [1, 2, 3, 4] })] } }

theorem test_contact_words : wContact.tested 496 = true ∧ (wContact.sndRes 496).words.length = 4 := by decide +kernel

theorem test_tested_only : ∀ n ∈ wContact.testedChans, n = 496 := by
  intro n h
  simp only [State.testedChans, List.mem_filter, List.mem_range] at h
  obtain ⟨h1, h2⟩ := h
  revert n
  decide +kernel

/-- CALIBRATE of `arg`, and a calibration with items left. -/
def wCal (arg : Nat) (s : State) : State := front s (cmd 10 arg 0 0 0 0)
def wCalRun (arg : Nat) (left : List Nat) (applied : Bool) (step : Nat) : State :=
  { rdy with cal := { rdy.cal with run := some { arg := arg, left := left, partly := false, fresh := [], tables := [], half := false, disturbed := false, applied := applied }, storeStep := step } }

theorem test_calibrate : calBad 0 = true ∧ calBad 0x41 = false ∧ calItems 0x41 = [0] ∧ calStores 0x41 = true ∧ calClu 0x41 0 = true ∧ calClu 0x41 1 = false ∧
    (wCal 0x41 rdy).fetches = true ∧ badFields (cmd 10 0x41 0 0 0 0) = false ∧ (wCal 0x41 rdy).refusal (cmd 10 0x41 0 0 0 0) = none ∧
    status (after .calibrate (wCal 0 rdy)) = St.badField ∧ status (after .calibrate (wCal 0x41 (wPass 3))) = St.busy := by decide +kernel

theorem test_cal_steps : (∀ item ∈ [0, 1, 2, 3, 4, 5], (calItems 0x3F).contains item = true ∧ (wCalRun 0x3F [item] false 0).calForced { arg := 0x3F, left := [item], partly := false, fresh := [], tables := [], half := false, disturbed := false, applied := false } item = []) ∧
    ((after (.calStepEnd []) (wCalRun 0x3F [4, 5] false 0)).cal.run.map (·.left)) = some [5] ∧
    (after (.calStepEnd []) (wCalRun 0x3F [4, 5] false 0)).rdF Reg.calStatus 18 16 = 6 ∧ rdy.reaches Reg.calCtl = true := by decide +kernel

theorem test_cal_values : (after (.calStepEnd [.kpad 15 3 12 true]) (wCalRun 0x3F [4, 5] false 0)).cal.run.isSome = true ∧
    (after (.calStepEnd [.kpad 15 3 12 false]) (wCalRun 0x3F [4, 5] false 0)).rd (failReg 15) = 0x10 := by decide +kernel

theorem test_store : (after (.calStoreStep false 9) (wCalRun 0x40 [] true 1)).cal.run = none ∧ (wCalRun 0x40 [] true 5).cal.storeStep = 5 ∧
    (after (.calStoreStep true 9) (wCalRun 0x40 [] true 5)).cal.storeStep = 6 ∧ (wCalRun 0x40 [] true 5).targetBank = 0 := by decide +kernel

/-! ### The Causeway -/

/-- Port DN in a state, with credits and a message that waits. -/
def wPort (st : Nat) : State :=
  let s := (put rdy [(Reg.cwyCfg, 0x00070000)]).setPort .dn st
  { s with cwy := { s.cwy with dn := { s.cwy.dn with credits := 8 }, sendQ := [{ type := 1, payload := 0, ext := 0, seq := none, up := false, dn := false }] } }

/-- The module at the other end. -/
def peer (system : BitVec 16) : Peer := { serial := 0x55, systemId := system, priority := 1, port := .up, nodes := 3 }

theorem test_ports : rdy.cwyRuns = true ∧ (after (.portTrainRetry ⟨.dn, true⟩) (wPort 1)).portState .dn = 2 ∧ (after (.portTrained .dn) (wPort 2)).portState .dn = 3 ∧
    (after (.refusedRetry .dn) (wPort 6)).portState .dn = 1 ∧ (after (.identExchange .dn (peer 7)) (wPort 3)).portState .dn = 4 ∧
    (after (.identExchange .dn (peer 8)) (wPort 3)).portState .dn = 6 ∧ (after (.linkCalibration .dn 40 128) (wPort 4)).portState .dn = 5 ∧
    (after (.linkCalibration .dn 40 129) (wPort 4)).portState .dn = 6 ∧ (after (.linkLoss .dn) (wPort 5)).portState .dn = 1 ∧
    ((after (.creditReturn .dn 60) (wPort 5)).cwy.dn.credits) = 64 := by decide +kernel

/-- A chain of this module and one below it, or of `n` modules. -/
def chain (n : Nat) : Segment := { ring := false, modules := List.replicate n { serial := 0x10, priority := 1, lat := 3, delay := 30 }, self := 0, excess := none }

theorem test_election : (wPort 5).segFits (chain 2) = true ∧ (wPort 5).segFits (chain 65) = true ∧ rdy.segFits (chain 1) = true ∧
    (after (.electionSettle (chain 65)) (wPort 5)).rdB Reg.cwyStatus 23 = true ∧ (after .electionCell (wPort 5)).cwy.election.isSome = true ∧
    (after .phaseSlewEnd rdy).cwy.slewing = false := by decide +kernel

theorem test_send : rdy.reaches Reg.cwySend = true ∧ sendLegal 1 0 = true ∧ sendLegal 9 0 = false ∧ rdy.sendRoom = true ∧
    (after (.cwySendWrite 0x80100000) rdy).cwy.sendQ.length = 1 ∧ (after (.cwySendWrite 0x80900000) rdy).rdB Reg.cwyFlags 4 = true ∧
    (wPort 5).sendsOn .dn = true ∧ (wPort 5).sendsOn .up = false ∧ (after (.cellInject .dn) (wPort 5)).cwy.sendQ = [] ∧
    (after (.cellInject .dn) (wPort 5)).plan.ext = true := by decide +kernel

/-- A cell of a type from origin 2. -/
def cell (type payload : Nat) : Cell := mkCell type 2 0 9 payload 0xABCD

theorem test_arrivals : (∀ t ∈ [1, 2, 3, 4, 5, 8, 9], (cell t 3).ok = true ∧ (cell t 3).fld 3 0 = t) ∧ (wPort 5).portState .dn = 5 ∧
    (after (.cwTrig .dn (cell 1 0)) (wPort 5)).plan.ext = true ∧ (after (.cwUser .dn (cell 5 77)) (wPort 5)).rd Reg.cwyUser = 0x20004D ∧
    Tbl.get (fun _ => none) (after (.cwSummary .dn (cell 9 3)) (wPort 5)).cwy.lastSeq 2 = some 9 := by decide +kernel

/-- A follower that gets START from the master. -/
def wFollow : State := put (wPort 5) [(Reg.clkStatus, 0xA)]

theorem test_start_cell : wFollow.rdF Reg.clkStatus 3 2 = 2 ∧ wFollow.alignOk = true ∧ (mkCell 8 0 0 9 0 0).fld 9 4 = 0 ∧
    (after (.cwStart .dn (mkCell 8 0 0 9 0 0)) wFollow).plan.startDue = 1 ∧
    (after (.cwStart .dn (mkCell 8 0 0 9 0 0)) (put wFollow [(Reg.clkStatus, 8)])).rdB Reg.cwyFlags 3 = true := by decide +kernel

/-- Two parts of a SUMMARY of origin 2 have come. -/
def wParts : State :=
  let s := wPort 5
  { s with cwy := { s.cwy with parts := [(2, [{ seq := 7, plan := 3, part := 0, ext := 0x11 }, { seq := 8, plan := 3, part := 1, ext := 0x22 }])] } }

theorem test_summary : (cell 9 0x803).fld 35 34 = 2 ∧ (cell 9 0x803).fld 33 24 = 3 ∧ (after (.cwSummary .dn (cell 9 0x803)) wParts).rd (sumEntry 2) = 0x80000003 ∧
    (after (.cwSummary .dn (cell 9 0x803)) wParts).rd64 (sumEntry 2 + 12) = 0x22 := by decide +kernel

/-! ### Clauses at their limits: touchdown, calibration and the Causeway -/

theorem test_touch_in_step : (wCalRun 0x3F [5] false 0).tipStep = true ∧
    (after .tdNTouchdown (let s := put (wCalRun 0x3F [5] false 0) [(Reg.sndCfg, 3)]; { s with snd := { s.snd with tdLow := false } })).rdB Reg.calFlags 4 = true ∧
    (after .tdNTouchdown (put (wTouch false) [(Reg.cwyCfg, 4)])).cwy.sendQ.map (·.type) = [3] ∧
    (let s := put (wTouch true) [(Reg.cwyCfg, 4)]
     (after .tdNLiftoff { s with cwy := { s.cwy with sendQ := List.replicate 16 startMsg } }).cwy.sendWait.map (·.type) = [4]) ∧
    (after .tdNTouchdown (wTouch true)).snd.request = none ∧ (after .tdNLiftoff (wTouch false)).rd64 Reg.sndMaskLo = (wTouch false).rd64 Reg.sndMaskLo := by
  decide +kernel

/-- A SOUND command waits, with its request or in a pass. -/
def wSoundBg (s : State) : State := { s with hst := { s.hst with bg := [{ cmd := cmd 9 0 0 0 0 0, posted := 0 }], reserved := 1 } }

theorem test_pass_ends : (let t := after .tdNLiftoff (wSoundBg (let s := wTouch true; { s with snd := { s.snd with request := some 2 } }))
      t.hst.bg = [] ∧ status t = St.discarded) ∧
    (let t := after .soundingTimeout (wSoundBg (wPass 3))
     t.hst.bg = [] ∧ status t = St.ok ∧ t.rdB Reg.sndFlags 3 = true ∧ t.rdF Reg.sndStatus 5 4 = 3) ∧
    (after .soundingTimeout rdy).rdF Reg.sndStatus 5 4 = 0 := by decide +kernel

/-- The tested channel 496 in the TDR phases, with its TIA in a state. -/
def wTdr (phase st : Nat) : State :=
  let s := (put (wPass phase) [(chOff 496 Reg.flChSite, 0x40), (chOff 496 Reg.tiaStatus, BitVec.ofNat 32 st), (chOff 496 Reg.peStatus, 0x8000)])
  { s with snd := { s.snd with res := [(496, { sndResNone with contact := 1 })] } }

theorem test_tdr_half : (wTdr 4 1).inHalf false 496 = true ∧ (wTdr 4 1).inHalf true 496 = false ∧ (wTdr 4 3).inHalf false 496 = true ∧
    (after .tdrHalfEnd (wTdr 4 1)).sndPhase = 5 ∧ ((after .tdrHalfEnd (wTdr 4 1)).sndRes 496).deskew ≠ 1 ∧
    ((wTdr 4 2).chan 496).tia.events = [] := by decide +kernel

theorem test_pass_density : (wDensity true).hitsLog2 511 = 20 ∧ (put (wDensity true) [(chOff 511 Reg.pmuStatus, 0x20)]).hitsLog2 511 = 16 := by decide +kernel

theorem test_cal_phases : (let r : CalRun := { arg := 0x3F, left := [2], partly := false, fresh := [], tables := [], half := false, disturbed := false, applied := false }
    (put rdy [(failReg 7, 2)]).calForced r 2 = [7] ∧ (put rdy [(failReg 7, 0x10)]).calForced { r with left := [5] } 5 = [7]) ∧
    (let t := after (.calStepEnd []) (wCalRun 0x43 [0, 3] false 0); t.rdB (chOff 15 Reg.tiaCdCtl) 31 = true) := by decide +kernel

theorem test_cal_ends : (let s := wCalRun 0x3F [] true 0
    let t := after (.calAbort 9) { s with hst := { s.hst with bg := [{ cmd := cmd 10 0 0 0 0 0, posted := 0 }], reserved := 1 } }
    t.cal.run = none ∧ t.rdF Reg.calStatus 26 24 = 3 ∧ t.rd Reg.calTime = 9 ∧ t.hst.bg = []) ∧
    (after (.calDone 9) (wCalRun 0x3F [] false 0)).rdF Reg.calStatus 26 24 = 0 := by decide +kernel

theorem test_line_judged : (rdy.lineOk 15 3 = true) ∧ (put rdy [(chOff 15 Reg.tiaLine, 0x40)]).lineOk 15 3 = false ∧
    (after (.calStepEnd [.kpad 15 3 12 true]) (put (wCalRun 0x3F [4, 5] false 0) [(chOff 15 Reg.tiaLine, 0x40)])).rd (failReg 15) = 0x10 := by decide +kernel

theorem test_store_commit : (wCalRun 0x7F [] true 6).cal.storeStep = 6 ∧ (wCalRun 0x7F [] true 6).targetBank = 0 ∧
    (after (.calStoreCommit 9) (wCalRun 0x7F [] true 5)).cal.storeStep = 5 := by decide +kernel

theorem test_port_states : (after (.portTrainRetry ⟨.dn, false⟩) (wPort 2)).portState .dn = 1 ∧ (after (.portTrainRetry ⟨.dn, true⟩) (wPort 2)).portState .dn = 2 ∧
    ((after (.identExchange .dn (peer 7)) (wPort 3)).port .dn).sent.map (·.systemId) = some 7 ∧
    (after (.identExchange .dn { peer 7 with port := .dn }) (wPort 3)).rdF Reg.cwyRefuse 15 8 = 1 ∧
    (after (.identExchange .dn { peer 7 with nodes := 65 }) (wPort 3)).rdF Reg.cwyRefuse 15 8 = 3 ∧
    (after (.linkCalibration .dn 40 300) (wPort 4)).rdF Reg.cwyDnCal 31 24 = 255 ∧
    (after (.linkCalibration .dn 40 300) (wPort 4)).rdF Reg.cwyDnCal 15 0 = 40 := by decide +kernel

/-- A cell of the other port waits for a credit. -/
def wHeldCell : State :=
  let s := (wPort 5).setPort .up 5
  { s with cwy := { s.cwy with dn := { s.cwy.dn with credits := 0, queue := [mkCell 5 1 2 3 4 0] }, up := { s.cwy.up with held := 1 } } }

theorem test_credit : ((after (.creditReturn .dn 1) wHeldCell).port .dn).queue = [] ∧ ((after (.creditReturn .dn 1) wHeldCell).port .dn).credits = 0 ∧
    ((after (.creditReturn .dn 1) wHeldCell).port .up).held = 0 ∧ ((after (.creditReturn .dn 1) wHeldCell).port .up).back = 1 ∧
    ((after (.linkLoss .up) wHeldCell).port .up).held = 0 := by decide +kernel

theorem test_too_many : (wPort 5).segFits ((wPort 5).segOwn { chain 65 with excess := some .dn }) = true ∧
    64 < ((wPort 5).segOwn { chain 65 with excess := some .dn }).modules.length ∧ ((wPort 5).segOwn { chain 65 with excess := some .dn }).excess = some .dn := by
  decide +kernel

/-- A follower of the module above it, with a START whose instant is to come, whose path then is another. -/
def wMoved : State :=
  let s := (put (wPort 1) [(Reg.clkStatus, 0xA), (Reg.cwyPathDelay, 9)]).setPort .up 5
  { s with plan := { s.plan with startDue := 2 } }
def segMoved : Segment :=
  { ring := false, modules := [{ serial := 0x10, priority := 1, lat := 3, delay := 30 }, { serial := 0x20, priority := 2, lat := 0, delay := 0 }], self := 1, excess := none }

theorem test_path_moved : wMoved.segFits (wMoved.segOwn segMoved) = true ∧ segPosition (wMoved.segOwn segMoved) ≠ 0 ∧
    wMoved.pathChanged (wMoved.segOwn segMoved) = true ∧ wMoved.rdF Reg.clkStatus 3 2 = 2 ∧ (wMoved.segOwn segMoved).modules.length = 2 ∧
    wMoved.pathMoved.plan.startDue = 0 ∧ wMoved.pathMoved.rdB Reg.cwyFlags 3 = true := by decide +kernel

theorem test_inject_waits : (after (.cellInject .dn) (let s := wPort 5; { s with cwy := { s.cwy with dn := { s.cwy.dn with credits := 7 } } })).cwy.sendQ.length = 1 ∧
    (wPort 1).sendsOn .dn = false ∧ (wPort 1).sendsOn .up = false ∧ (after (.cellInject .dn) (wPort 1)).plan.ext = true ∧
    (after (.cellInject .up) (wPort 5)).cwy.sendQ.length = 1 ∧
    (let s := wPort 5
     (after (.cellInject .dn) { s with cwy := { s.cwy with sendWait := [startMsg] } }).cwy.sendQ = [startMsg]) := by decide +kernel

theorem test_bad_cells : (let t := after (.cwUser .dn (cell 5 77 ^^^ 0x1000000000000)) (wPort 5)
    (t.port .dn).back = 1 ∧ t.rd Reg.cwyUser = 0) ∧
    (let s := wPort 5
     let f : State := { s with cwy := { s.cwy with dn := { s.cwy.dn with held := 64 } } }
     (after (.cwUser .dn (cell 5 77)) f).rd Reg.cwyUser = 0 ∧ (after (.cwTrig .dn (cell 5 77)) s).plan.ext = false) := by decide +kernel

end Sys2Proof.Tests
end

/-! Every command keeps the canonical form: from the frames of the commands, with the footprint of the whole state. -/

namespace Sys2Proof.Machine

/-- A footprint that takes in every part of the state. -/
def wholeState : List Foot :=
  [.one .pending, .one .freeCtr, .allRegs, .one .shadows, .one .boot, .one .clk, .one .evr, .one .vectors, .one .rings,
    .one .hostMem, .one .msix, .one .reads, .flashes, .one .keys, .one .rollback, .one .flashPort, .one .macros, .one .march,
    .one .refills, .one .timing, .drams, .failCnts, .one .cal, .one .pwr, .seqs, .lanes, .clus, .chans, .one .plan, .one .snd,
    .one .cwy]

/-- The entry of `wholeState` that takes a part in. -/
def Part.entry : Part → Foot
  | .reg _ => .allRegs
  | .flash _ => .flashes
  | .dram _ => .drams
  | .failCnt _ => .failCnts
  | .seq _ => .seqs
  | .lane _ => .lanes
  | .clu _ => .clus
  | .chan _ => .chans
  | p => .one p

theorem Part.entry_mem (p : Part) : p.entry ∈ wholeState := by
  cases p <;> simp [Part.entry, wholeState]

theorem Part.entry_covers (p : Part) : p.entry.covers p = true := by
  cases p <;> rfl

/-- The whole state allows every entry of a footprint. -/
theorem allows_wholeState (k : Foot) : Allows wholeState k := fun p _ => ⟨p.entry, p.entry_mem, p.entry_covers⟩

/-- Every command evolves the state: it keeps the canonical form, whatever parts it changes. -/
theorem exec_evolves (i : Instr) {s t : State} (e : exec i s = .next t) : Evolves wholeState s t := by
  cases i with
  | vinPowerUp => apply execVinPowerUp_changes e <;> exact allows_wholeState _
  | pfwNAssert => apply execPfwNAssert_changes e <;> exact allows_wholeState _
  | pfwShedEnd => apply execPfwShedEnd_changes e <;> exact allows_wholeState _
  | pfwColdStart => apply execPfwColdStart_changes e <;> exact allows_wholeState _
  | vinPowerDown => apply execVinPowerDown_changes e <;> exact allows_wholeState _
  | rstNAssert => apply execRstNAssert_changes e <;> exact allows_wholeState _
  | perstAssert => apply execPerstAssert_changes e <;> exact allows_wholeState _
  | warmResetEnd => apply execWarmResetEnd_changes e <;> exact allows_wholeState _
  | deviceResetStart => apply execDeviceResetStart_changes e <;> exact allows_wholeState _
  | pcieLinkReset => apply execPcieLinkReset_changes e <;> exact allows_wholeState _
  | sfdpRead => apply execSfdpRead_changes _ _ e <;> exact allows_wholeState _
  | persistentAreaScan => apply execPersistentAreaScan_changes e <;> exact allows_wholeState _
  | slotSelect => apply execSlotSelect_changes e <;> exact allows_wholeState _
  | bodyStream => apply execBodyStream_changes e <;> exact allows_wholeState _
  | calBankSelect => apply execCalBankSelect_changes e <;> exact allows_wholeState _
  | configApply => apply execConfigApply_changes e <;> exact allows_wholeState _
  | patchApply => apply execPatchApply_changes e <;> exact allows_wholeState _
  | bootReady => apply execBootReady_changes _ e <;> exact allows_wholeState _
  | rollbackBurn => apply execRollbackBurn_changes e <;> exact allows_wholeState _
  | bootMarch => apply execBootMarch_changes _ e <;> exact allows_wholeState _
  | dramTraining => apply execDramTraining_changes _ e <;> exact allows_wholeState _
  | dramSelfRefreshExit => apply execDramSelfRefreshExit_changes e <;> exact allows_wholeState _
  | epochTick => apply execEpochTick_changes e <;> exact allows_wholeState _
  | optimeMs => apply execOptimeMs_changes e <;> exact allows_wholeState _
  | optimeCheckpoint => apply execOptimeCheckpoint_changes e <;> exact allows_wholeState _
  | ageingUpdate => apply execAgeingUpdate_changes e <;> exact allows_wholeState _
  | tempCorrectionUpdate => apply execTempCorrectionUpdate_changes e <;> exact allows_wholeState _
  | followerLock => apply execFollowerLock_changes _ e <;> exact allows_wholeState _
  | holdoverEntry => apply execHoldoverEntry_changes _ e <;> exact allows_wholeState _
  | holdoverReturn => exact execHoldoverReturn_changes e (allows_wholeState _)
  | clkEppPeriodWrite => apply execClkEppPeriodWrite_changes _ e <;> exact allows_wholeState _
  | clkEppWidthWrite => apply execClkEppWidthWrite_changes _ e <;> exact allows_wholeState _
  | clkEppOffsetWrite => apply execClkEppOffsetWrite_changes _ e <;> exact allows_wholeState _
  | commandFetch => apply execCommandFetch_changes _ e <;> exact allows_wholeState _
  | nop => exact execNop_changes e (allows_wholeState _)
  | run => apply execRun_changes e <;> exact allows_wholeState _
  | masterStart => apply execMasterStart_changes _ e <;> exact allows_wholeState _
  | stop => apply execStop_changes e <;> exact allows_wholeState _
  | stage => apply execStage_changes _ e <;> exact allows_wholeState _
  | jump => apply execJump_changes e <;> exact allows_wholeState _
  | stream => exact execStream_changes e (allows_wholeState _)
  | streamBlockPost => apply execStreamBlockPost_changes _ _ e <;> exact allows_wholeState _
  | creditTimeout => exact execCreditTimeout_changes _ e (allows_wholeState _)
  | read => exact execRead_changes e (allows_wholeState _)
  | write => apply execWrite_changes _ e <;> exact allows_wholeState _
  | epoch => apply execEpoch_changes e <;> exact allows_wholeState _
  | epochTakeEffect => apply execEpochTakeEffect_changes e <;> exact allows_wholeState _
  | sound => apply execSound_changes e <;> exact allows_wholeState _
  | calibrate => apply execCalibrate_changes e <;> exact allows_wholeState _
  | march => apply execMarch_changes e <;> exact allows_wholeState _
  | image => apply execImage_changes _ e <;> exact allows_wholeState _
  | imageCommitted => apply execImageCommitted_changes e <;> exact allows_wholeState _
  | logRead => exact execLogRead_changes e (allows_wholeState _)
  | deviceReset => apply execDeviceReset_changes e <;> exact allows_wholeState _
  | cplStall => apply execCplStall_changes e <;> exact allows_wholeState _
  | bar0BadAccess => exact execBar0BadAccess_changes _ _ e (allows_wholeState _)
  | bar0Unmapped => exact execBar0Unmapped_changes _ _ e (allows_wholeState _)
  | bar2Read => apply execBar2Read_changes _ _ e <;> exact allows_wholeState _
  | bar2Write => apply execBar2Write_changes _ _ e <;> exact allows_wholeState _
  | hstRingCtlWrite => apply execHstRingCtlWrite_changes _ e <;> exact allows_wholeState _
  | hstCmdTailWrite => apply execHstCmdTailWrite_changes _ e <;> exact allows_wholeState _
  | hstCplHeadWrite => apply execHstCplHeadWrite_changes _ e <;> exact allows_wholeState _
  | hstVecAckWrite => apply execHstVecAckWrite_changes _ _ _ e <;> exact allows_wholeState _
  | msixUnmask => apply execMsixUnmask_changes _ e <;> exact allows_wholeState _
  | flagClear => apply execFlagClear_changes _ _ _ e <;> exact allows_wholeState _
  | readClear => apply execReadClear_changes _ _ _ e <;> exact allows_wholeState _
  | loReadLatch => apply execLoReadLatch_changes _ e <;> exact allows_wholeState _
  | hostWriteSealed => apply execHostWriteSealed_changes _ _ e <;> exact allows_wholeState _
  | registerWrite => apply execRegisterWrite_changes _ _ e <;> exact allows_wholeState _
  | seqRoleWrite => apply execSeqRoleWrite_changes _ _ _ e <;> exact allows_wholeState _
  | openRecordTimeout => apply execOpenRecordTimeout_changes e <;> exact allows_wholeState _
  | logProgramDone => apply execLogProgramDone_changes _ e <;> exact allows_wholeState _
  | logBlockEraseDone => apply execLogBlockEraseDone_changes _ e <;> exact allows_wholeState _
  | evrSlotWord0Read => apply execEvrSlotWord0Read_changes _ e <;> exact allows_wholeState _
  | next => apply execNext_changes _ _ e <;> exact allows_wholeState _
  | opcJump => apply execOpcJump_changes _ _ e <;> exact allows_wholeState _
  | call => apply execCall_changes _ _ e <;> exact allows_wholeState _
  | ret => apply execRet_changes _ _ e <;> exact allows_wholeState _
  | loop => apply execLoop_changes _ _ e <;> exact allows_wholeState _
  | wait => apply execWait_changes _ _ e <;> exact allows_wholeState _
  | waitConditionMet => exact execWaitConditionMet_changes _ _ e (allows_wholeState _)
  | waitTimeout => apply execWaitTimeout_changes _ e <;> exact allows_wholeState _
  | halt => apply execHalt_changes _ _ e <;> exact allows_wholeState _
  | setreg => apply execSetreg_changes _ _ e <;> exact allows_wholeState _
  | seg => apply execSeg_changes _ _ e <;> exact allows_wholeState _
  | rtbl => apply execRtbl_changes _ _ e <;> exact allows_wholeState _
  | sync => apply execSync_changes _ _ e <;> exact allows_wholeState _
  | trap => apply execTrap_changes _ _ e <;> exact allows_wholeState _
  | lstart => apply execLstart_changes _ _ e <;> exact allows_wholeState _
  | lstop => apply execLstop_changes _ _ e <;> exact allows_wholeState _
  | brel => apply execBrel_changes _ _ e <;> exact allows_wholeState _
  | cwmsg => apply execCwmsg_changes _ _ e <;> exact allows_wholeState _
  | timerExpire => exact execTimerExpire_changes _ e (allows_wholeState _)
  | holdRelease => exact execHoldRelease_changes _ _ e (allows_wholeState _)
  | interruptAccept => apply execInterruptAccept_changes _ _ e <;> exact allows_wholeState _
  | mgtHeartbeat => exact execMgtHeartbeat_changes e (allows_wholeState _)
  | wedge => apply execWedge_changes _ _ _ e <;> exact allows_wholeState _
  | laneStart => apply execLaneStart_changes _ _ e <;> exact allows_wholeState _
  | vectorIssue => apply execVectorIssue_changes _ _ e <;> exact allows_wholeState _
  | edgeFormation => apply execEdgeFormation_changes _ e <;> exact allows_wholeState _
  | edgePlacement => exact execEdgePlacement_changes _ e (allows_wholeState _)
  | strobe => apply execStrobe_changes _ _ _ _ e <;> exact allows_wholeState _
  | responseLookup => apply execResponseLookup_changes _ e <;> exact allows_wholeState _
  | hostLoadStrobe => apply execHostLoadStrobe_changes _ _ e <;> exact allows_wholeState _
  | loadStrobe => apply execLoadStrobe_changes _ _ _ e <;> exact allows_wholeState _
  | rangingEnd => apply execRangingEnd_changes _ e <;> exact allows_wholeState _
  | rampStep => apply execRampStep_changes _ e <;> exact allows_wholeState _
  | peStagingWrite => apply execPeStagingWrite_changes _ _ _ e <;> exact allows_wholeState _
  | comparatorCrossing => apply execComparatorCrossing_changes _ _ _ _ e <;> exact allows_wholeState _
  | monitorStart => apply execMonitorStart_changes _ _ e <;> exact allows_wholeState _
  | monitorConversionEnd => apply execMonitorConversionEnd_changes _ _ _ e <;> exact allows_wholeState _
  | refillBlockRequest => apply execRefillBlockRequest_changes _ e <;> exact allows_wholeState _
  | refillBlockArrive => apply execRefillBlockArrive_changes _ e <;> exact allows_wholeState _
  | jumpGrant => apply execJumpGrant_changes _ _ e <;> exact allows_wholeState _
  | sluicePost => apply execSluicePost_changes _ _ e <;> exact allows_wholeState _
  | sluiceCreditReturn => apply execSluiceCreditReturn_changes _ e <;> exact allows_wholeState _
  | plnSluiceConfigWrite => apply execPlnSluiceConfigWrite_changes _ _ _ e <;> exact allows_wholeState _
  | laneIdle => apply execLaneIdle_changes _ e <;> exact allows_wholeState _
  | planEnd => apply execPlanEnd_changes e <;> exact allows_wholeState _
  | alignedStart => apply execAlignedStart_changes _ e <;> exact allows_wholeState _
  | alignedStartTimeout => apply execAlignedStartTimeout_changes e <;> exact allows_wholeState _
  | strobeResultJudge => apply execStrobeResultJudge_changes _ e <;> exact allows_wholeState _
  | failWriterDrain => apply execFailWriterDrain_changes _ _ _ e <;> exact allows_wholeState _
  | lostRecordWrite => apply execLostRecordWrite_changes _ e <;> exact allows_wholeState _
  | flSiteMaskWrite => apply execFlSiteMaskWrite_changes _ _ e <;> exact allows_wholeState _
  | flConfigWrite => apply execFlConfigWrite_changes _ _ e <;> exact allows_wholeState _
  | flClear => apply execFlClear_changes _ e <;> exact allows_wholeState _
  | flClearDone => apply execFlClearDone_changes e <;> exact allows_wholeState _
  | failCounterWindowWrite => apply execFailCounterWindowWrite_changes _ _ _ e <;> exact allows_wholeState _
  | tiaArm => apply execTiaArm_changes _ e <;> exact allows_wholeState _
  | tiaArmInstant => apply execTiaArmInstant_changes _ _ e <;> exact allows_wholeState _
  | tiaAbort => apply execTiaAbort_changes _ _ e <;> exact allows_wholeState _
  | tiaNWrite => apply execTiaNWrite_changes _ _ _ e <;> exact allows_wholeState _
  | tiaConfigWrite => apply execTiaConfigWrite_changes _ _ _ e <;> exact allows_wholeState _
  | transitionTimestamp => apply execTransitionTimestamp_changes _ _ _ _ _ _ e <;> exact allows_wholeState _
  | tiaEvent => apply execTiaEvent_changes _ e <;> exact allows_wholeState _
  | frequencyGateEnd => apply execFrequencyGateEnd_changes _ e <;> exact allows_wholeState _
  | tiaTimeout => apply execTiaTimeout_changes _ e <;> exact allows_wholeState _
  | tiaRangeEnd => apply execTiaRangeEnd_changes _ e <;> exact allows_wholeState _
  | codeDensityStart => apply execCodeDensityStart_changes _ _ e <;> exact allows_wholeState _
  | codeDensityEnd => apply execCodeDensityEnd_changes _ _ _ e <;> exact allows_wholeState _
  | lineLock => apply execLineLock_changes _ _ e <;> exact allows_wholeState _
  | lineUnlock => apply execLineUnlock_changes _ _ e <;> exact allows_wholeState _
  | lineAcquireTimeout => apply execLineAcquireTimeout_changes _ _ e <;> exact allows_wholeState _
  | pmuStagingWrite => apply execPmuStagingWrite_changes _ _ _ e <;> exact allows_wholeState _
  | pmuSyncWrite => apply execPmuSyncWrite_changes _ _ e <;> exact allows_wholeState _
  | syncReset => apply execSyncReset_changes _ _ e <;> exact allows_wholeState _
  | resultWord => apply execResultWord_changes _ _ e <;> exact allows_wholeState _
  | pmuDcbWrite => apply execPmuDcbWrite_changes _ _ e <;> exact allows_wholeState _
  | clampEntry => apply execClampEntry_changes _ _ e <;> exact allows_wholeState _
  | acqArm => apply execAcqArm_changes _ e <;> exact allows_wholeState _
  | acqArmInstant => exact execAcqArmInstant_changes _ _ e (allows_wholeState _)
  | acqAbort => apply execAcqAbort_changes _ e <;> exact allows_wholeState _
  | acqForce => apply execAcqForce_changes _ e <;> exact allows_wholeState _
  | triggerSample => apply execTriggerSample_changes _ e <;> exact allows_wholeState _
  | stateTimeout => apply execStateTimeout_changes _ e <;> exact allows_wholeState _
  | rearmEnd => apply execRearmEnd_changes _ e <;> exact allows_wholeState _
  | spillRecord => apply execSpillRecord_changes _ _ _ _ e <;> exact allows_wholeState _
  | acqSpillRdWrite => apply execAcqSpillRdWrite_changes _ _ e <;> exact allows_wholeState _
  | acqSpillConfigWrite => apply execAcqSpillConfigWrite_changes _ _ _ e <;> exact allows_wholeState _
  | acqConfigWrite => apply execAcqConfigWrite_changes _ _ _ e <;> exact allows_wholeState _
  | ddsTokenIssue => apply execDdsTokenIssue_changes _ e <;> exact allows_wholeState _
  | ddsEntryWrite => apply execDdsEntryWrite_changes _ _ _ e <;> exact allows_wholeState _
  | ddsEntryRead => apply execDdsEntryRead_changes _ _ e <;> exact allows_wholeState _
  | tdNTouchdown => apply execTdNTouchdown_changes e <;> exact allows_wholeState _
  | tdNLiftoff => apply execTdNLiftoff_changes e <;> exact allows_wholeState _
  | sndStart => apply execSndStart_changes e <;> exact allows_wholeState _
  | sndClrMask => apply execSndClrMask_changes e <;> exact allows_wholeState _
  | soundingPassStart => apply execSoundingPassStart_changes e <;> exact allows_wholeState _
  | contactJudge => apply execContactJudge_changes e <;> exact allows_wholeState _
  | tdrHalfEnd => apply execTdrHalfEnd_changes e <;> exact allows_wholeState _
  | soundingPassEnd => apply execSoundingPassEnd_changes _ e <;> exact allows_wholeState _
  | soundingTimeout => apply execSoundingTimeout_changes e <;> exact allows_wholeState _
  | calAbort => apply execCalAbort_changes _ e <;> exact allows_wholeState _
  | calStepEnd => apply execCalStepEnd_changes _ e <;> exact allows_wholeState _
  | calDone => apply execCalDone_changes _ e <;> exact allows_wholeState _
  | calStoreStep => apply execCalStoreStep_changes _ _ e <;> exact allows_wholeState _
  | calStoreCommit => apply execCalStoreCommit_changes _ e <;> exact allows_wholeState _
  | portTrainRetry => exact execPortTrainRetry_changes _ _ e (allows_wholeState _)
  | portTrained => exact execPortTrained_changes _ e (allows_wholeState _)
  | identExchange => apply execIdentExchange_changes _ _ e <;> exact allows_wholeState _
  | linkCalibration => apply execLinkCalibration_changes _ _ _ e <;> exact allows_wholeState _
  | refusedRetry => exact execRefusedRetry_changes _ e (allows_wholeState _)
  | electionCell => exact execElectionCell_changes e (allows_wholeState _)
  | electionSettle => apply execElectionSettle_changes _ e <;> exact allows_wholeState _
  | linkLoss => apply execLinkLoss_changes _ e <;> exact allows_wholeState _
  | creditReturn => exact execCreditReturn_changes _ _ e (allows_wholeState _)
  | cellInject => apply execCellInject_changes _ e <;> exact allows_wholeState _
  | cwySendWrite => apply execCwySendWrite_changes _ e <;> exact allows_wholeState _
  | cwTrig => apply execCwTrig_changes _ _ e <;> exact allows_wholeState _
  | cwJump => apply execCwJump_changes _ _ e <;> exact allows_wholeState _
  | cwTouch => apply execCwTouch_changes _ _ e <;> exact allows_wholeState _
  | cwLift => apply execCwLift_changes _ _ e <;> exact allows_wholeState _
  | cwUser => apply execCwUser_changes _ _ e <;> exact allows_wholeState _
  | cwStart => apply execCwStart_changes _ _ e <;> exact allows_wholeState _
  | cwSummary => apply execCwSummary_changes _ _ e <;> exact allows_wholeState _
  | marchWindow => apply execMarchWindow_changes _ _ _ e <;> exact allows_wholeState _
  | heldRetire => apply execHeldRetire_changes e <;> exact allows_wholeState _
  | retentionEntry => exact execRetentionEntry_changes _ e (allows_wholeState _)
  | retentionWake => apply execRetentionWake_changes _ e <;> exact allows_wholeState _
  | sensorRead => apply execSensorRead_changes _ _ e <;> exact allows_wholeState _
  | suppliesInRange => apply execSuppliesInRange_changes e <;> exact allows_wholeState _
  | pcieLinkUp => exact execPcieLinkUp_changes _ _ e (allows_wholeState _)
  | phaseSlewEnd => exact execPhaseSlewEnd_changes e (allows_wholeState _)
  | modulatorOverload => apply execModulatorOverload_changes _ _ e <;> exact allows_wholeState _
  | clampExit => apply execClampExit_changes _ _ e <;> exact allows_wholeState _

theorem exec_canonical {i : Instr} {s t : State} (hc : s.canonical = true) (e : exec i s = .next t) : t.canonical = true :=
  (exec_evolves i e).2 hc

/-- The queue is no table: taking its front command leaves the canonical form as it is. -/
theorem canonical_withPending (s : State) (l : List Instr) : ({ s with pending := l } : State).canonical = s.canonical := rfl

/-- A step idles on an empty queue, or runs the front command on the state with the queue's rest. -/
theorem step_cases {s t : State} (e : step s = .next t) :
    (s.pending = [] ∧ t = s) ∨ ∃ c rest, s.pending = c :: rest ∧ exec c { s with pending := rest } = .next t := by
  unfold step at e
  cases hp : s.pending with
  | nil =>
    rw [hp] at e
    exact .inl ⟨rfl, (Host.Outcome.next.inj e).symm⟩
  | cons c rest =>
    rw [hp] at e
    exact .inr ⟨c, rest, rfl, e⟩

/-- Settles O56: an idle step leaves the state, and every command evolves it in canonical form. -/
theorem stepKeepsTheCanonicalForm : Obligations.StepKeepsTheCanonicalForm := by
  intro s t hc e
  obtain ⟨-, rfl⟩ | ⟨c, rest, -, he⟩ := step_cases e
  · exact hc
  · exact exec_canonical ((canonical_withPending s rest).trans hc) he

end Sys2Proof.Machine

/-! What a host access needs: the bits of registers, the flags that are raised, and the places of the register map. -/

namespace Sys2Proof.Machine

/-! ### Bits of registers -/

theorem bitOf_or (v w : W32) (i : Nat) : bitOf (v ||| w) i = (bitOf v i || bitOf w i) := BitVec.getLsbD_or

theorem bitOf_and (v w : W32) (i : Nat) : bitOf (v &&& w) i = (bitOf v i && bitOf w i) := BitVec.getLsbD_and

theorem bitOf_not (v : W32) {i : Nat} (hi : i < 32) : bitOf (~~~ v) i = !bitOf v i := by
  change (~~~ v).getLsbD i = !v.getLsbD i
  simp [hi]

theorem bitOf_ofNat (m : Nat) {i : Nat} (hi : i < 32) : bitOf (BitVec.ofNat 32 m) i = m.testBit i := by
  change (BitVec.ofNat 32 m).getLsbD i = m.testBit i
  rw [BitVec.getLsbD_ofNat, decide_eq_true hi, Bool.true_and]

@[simp] theorem bitOf_zero (i : Nat) : bitOf 0#32 i = false := BitVec.getLsbD_zero

theorem bitOf_bit32 {b : Nat} (i : Nat) (hb : b < 32) : bitOf (bit32 b) i = decide (i = b) := by
  have h := bitOf_or_bit32 0#32 b i hb
  rwa [BitVec.zero_or, bitOf_zero, Bool.false_or] at h

/-- What each bit of a register holds after a plain write (R7, R8). -/
theorem bitOf_takeFields (r : RegRow) (old v : W32) {b : Nat} (hb : b < 32) :
    bitOf (takeFields r old v) b =
      ((if r.rw.testBit b then bitOf v b else bitOf old b) && !(r.w1c.testBit b && bitOf v b)) := by
  simp only [takeFields, bitOf_and, bitOf_or, bitOf_not _ hb, bitOf_ofNat _ hb]
  cases r.rw.testBit b <;> cases r.w1c.testBit b <;> simp

theorem mem_bitList {n x i : Nat} : i ∈ bitList n x ↔ i < n ∧ x.testBit i = true := by
  simp [bitList]

theorem bitList_two_pow {b : Nat} (hb : b < 32) : bitList 32 (2 ^ b) = [b] := by
  revert b; decide

/-- Of the flags that a mask takes, the set events of one flag alone are that flag. -/
theorem bitList_bit32_and (m : Nat) {b : Nat} (hb : b < 32) (hm : m.testBit b = true) :
    bitList 32 (bit32 b &&& BitVec.ofNat 32 m).toNat = [b] := by
  have hand : bit32 b &&& BitVec.ofNat 32 m = bit32 b := by
    refine BitVec.eq_of_getLsbD_eq (fun i hi => ?_)
    change bitOf (bit32 b &&& BitVec.ofNat 32 m) i = bitOf (bit32 b) i
    rw [bitOf_and, bitOf_bit32 i hb, bitOf_ofNat m hi]
    by_cases h : i = b <;> simp [h, hm]
  rw [hand, bit32, BitVec.toNat_ofNat, Nat.mod_eq_of_lt (Nat.pow_lt_pow_right (by decide) hb), bitList_two_pow hb]

/-! ### Registers outside a footprint -/

/-- An entry of a footprint is not needed where its register holds the same. -/
theorem ChangesOnly.drop_reg {K : List Foot} {s t : State} {o : Nat} (h : ChangesOnly (.one (.reg o) :: K) s t)
    (ho : t.rd o = s.rd o) : ChangesOnly K s t := by
  intro p hp
  by_cases hpo : p = .reg o
  · subst hpo; exact ho
  · refine h p (fun k hk => ?_)
    obtain rfl | hk := List.mem_cons.mp hk
    · simpa [Foot.covers] using Ne.symm hpo
    · exact hp k hk

/-- An event leaves every register but the recorder's and the pending bits. -/
theorem State.post_rd (s : State) (src code : Nat) (data : BitVec 128) {o : Nat} (h : Foot.covers .events (.reg o) = false) :
    (s.post src code data).rd o = s.rd o :=
  (State.post_changes src code data (Evolves.refl [.events] s) (Allows.mem List.mem_cons_self)).1 (.reg o) (by simpa using h)

/-! ### Flags that are raised -/

/-- Every bit of a register after one of its flags has been raised. -/
theorem State.raise_rdB_self (s : State) (o : Nat) {b : Nat} (i : Nat) (hr : s.retained o = false) (hb : b < 32) :
    (s.raise o b).rdB o i = (s.rdB o i || decide (i = b)) := by
  unfold State.raise State.countF
  rw [hr, if_neg (by decide), State.rdB_wrF_off _ (by omega)]
  unfold State.rdB
  rw [State.rd_wr_same, bitOf_or_bit32 _ _ _ hb]

/-- Whether a register's cluster is in retention does not hang on the registers of that cluster. -/
theorem State.retained_congr {s t : State} {o : Nat} (h : 0x800000 ≤ o → t.rd Reg.memRetState = s.rd Reg.memRetState) :
    t.retained o = s.retained o := by
  by_cases ho : 0x800000 ≤ o
  · simp only [State.retained, State.rdB, h ho]
  · rw [State.retained_device t (.inl (by omega)), State.retained_device s (.inl (by omega))]

theorem State.retained_wr (s : State) (o : Nat) (v : W32) : (s.wr o v).retained o = s.retained o :=
  State.retained_congr (fun h => State.rd_wr_ne s (by unfold Reg.memRetState; omega) v)

theorem State.retained_raise (s : State) (o b : Nat) : (s.raise o b).retained o = s.retained o :=
  State.retained_congr (fun h => State.raise_rd_ne s (by unfold Reg.memRetState; omega) (by unfold Reg.memRetState; omega))

/-- A run of set events leaves a register of a cluster in retention (R439). -/
theorem State.foldl_raise_retained (l : List Nat) {s : State} {o : Nat} (hr : s.retained o = true) :
    l.foldl (fun t b => t.raise o b) s = s := by
  induction l with
  | nil => rfl
  | cons b l ih => rw [List.foldl_cons, State.raise_retained s o b hr, ih]

/-- A run of set events sets the flags that it names, outside retention. -/
theorem State.foldl_raise_rdB (l : List Nat) (hl : ∀ b ∈ l, b < 32) {s : State} {o : Nat} (i : Nat) (hr : s.retained o = false) :
    (l.foldl (fun t b => t.raise o b) s).rdB o i = (s.rdB o i || decide (i ∈ l)) := by
  induction l generalizing s with
  | nil => simp
  | cons b l ih =>
    rw [List.foldl_cons, ih (fun c hc => hl c (List.mem_cons_of_mem b hc)) ((State.retained_raise s o b).trans hr),
      State.raise_rdB_self s o i hr (hl b List.mem_cons_self)]
    simp [Bool.or_assoc]

/-- The width of every flag's counter is positive. -/
theorem flagCounter_width_pos (o b : Nat) : 0 < (flagCounter o b).2 := by
  simp only [flagCounter]
  split_ifs <;> exact Nat.succ_pos _

/-- A flag that is raised counts once in its counter, which holds at its top (R439). -/
theorem State.raise_counter (s : State) (o b : Nat) (hr : s.retained o = false) {k : Nat × Nat} (hk : k = flagCounter o b)
    (hw : k.1 + k.2 ≤ 32) :
    (s.raise o b).rdF (o + 4) (k.1 + k.2 - 1) k.1 = satAdd (2 ^ k.2 - 1) (s.rdF (o + 4) (k.1 + k.2 - 1) k.1) 1 := by
  have hpos : 0 < k.2 := hk ▸ flagCounter_width_pos o b
  have hwidth : k.1 + k.2 - 1 + 1 - k.1 = k.2 := by omega
  have htop : ∀ x, satAdd (2 ^ k.2 - 1) x 1 % 2 ^ k.2 = satAdd (2 ^ k.2 - 1) x 1 := fun x => by
    have := Nat.two_pow_pos k.2
    exact Nat.mod_eq_of_lt (by unfold satAdd; omega)
  simp only [State.raise, hr, Bool.false_eq_true, if_false, ← hk, State.countF]
  rw [State.rdF_wrF_same _ _ _ (by omega) (by omega), hwidth, htop, State.rdF_wr_ne _ (by omega)]

/-- A run of bit stores to one register sets the bits that it names and the condition picks. -/
theorem State.foldl_wrB_rdB (p : Nat → Bool) (l : List Nat) (hl : ∀ b ∈ l, b < 32) (s : State) (o i : Nat) :
    (l.foldl (fun t b => if p b = true then t.wrB o b true else t) s).rdB o i = (s.rdB o i || (decide (i ∈ l) && p i)) := by
  induction l generalizing s with
  | nil => simp
  | cons b l ih =>
    rw [List.foldl_cons, ih (fun c hc => hl c (List.mem_cons_of_mem b hc))]
    have hb := hl b List.mem_cons_self
    by_cases hi : i = b
    · subst hi
      cases hp : p i <;> simp [State.rdB_wrB_same s o true hb]
    · cases hp : p b <;> simp [State.rdB_wrB_ne s o true hb hi, hi]

/-- A run of bit stores to one register leaves all else. -/
theorem State.foldl_wrB_changes (p : Nat → Bool) (l : List Nat) (s : State) (o : Nat) :
    Evolves [.one (.reg o)] s (l.foldl (fun t b => if p b = true then t.wrB o b true else t) s) :=
  Evolves.foldl (fun _ b ht => Evolves.ite (fun _ => State.wrB_changes o b true ht (Allows.mem List.mem_cons_self)) (fun _ => ht))
    (Evolves.refl _ s)

/-! ### The register map -/

/-- No register row lies in the fail counter window or above it (R281). -/
theorem findRow_window {o : Nat} (h : 0xC00000 ≤ o) : findRow o = none := by
  unfold findRow
  rw [if_neg (by omega), if_neg (by omega), if_neg (by omega), if_neg (by omega)]

theorem lt_window_of_findRow {o : Nat} {r : RegRow} (h : findRow o = some r) : o < 0xC00000 := by
  by_contra hge
  rw [findRow_window (by omega)] at h
  cases h

theorem recordWord0_window {o : Nat} (h : 0xC00000 ≤ o) : recordWord0 o = none := by
  unfold recordWord0
  rw [if_neg (by unfold Reg.evrOpen; omega), dif_neg (by omega)]

/-- The offset of word 0 of a ring slot, or of EVR_OPEN0 (R489). -/
def recordOffset : Option (Fin 1024) → Nat
  | some i => Reg.evrRing + 32 * i.val
  | none => Reg.evrOpen

theorem recordWord0_recordOffset (slot : Option (Fin 1024)) : recordWord0 (recordOffset slot) = some slot := by
  cases slot with
  | none => rfl
  | some i =>
    have hi := i.isLt
    change recordWord0 (0x58000 + 32 * i.val) = _
    unfold recordWord0
    rw [if_neg (by unfold Reg.evrOpen; omega), dif_pos (by omega)]
    congr 2
    exact Fin.ext (by simp only; omega)

/-- The mask of the sealed fields of the register at an offset. -/
def sealedFields (o : Nat) : Nat := match findRow o with | some r => r.sl | none => 0

theorem sealedDiffers_sealedFields {s : State} {o : Nat} {v : W32} (h : s.sealedDiffers o v = true) : sealedFields o ≠ 0 := by
  intro h0
  unfold State.sealedDiffers at h
  unfold sealedFields at h0
  split at h
  · rename_i r hr
    rw [hr] at h0
    simp only at h0
    simp [h0] at h
  · cases h

/-- The registers that an event or the record of a sealed write changes hold no sealed field. -/
theorem sealedFields_recorded {o : Nat} (h : Foot.covers .events (.reg o) = true ∨ o = Reg.bootSealedWrCnt ∨ o = Reg.bootSealedWrAddr) :
    sealedFields o = 0 := by
  have hall : ∀ k ∈ [Reg.hstVecPendLo, Reg.hstVecPendHi, Reg.evrStatus, Reg.evrFlags, Reg.evrFlags + 4, Reg.evrDrop, Reg.evrCommit,
      Reg.evrLog, Reg.evrLogBseq, Reg.bootSealedWrCnt, Reg.bootSealedWrAddr], sealedFields k = 0 := by decide +kernel
  refine hall o ?_
  simp only [Foot.covers, vectorReg, recorderReg, Bool.or_eq_true, beq_iff_eq, List.contains_iff_mem, List.mem_cons,
    List.not_mem_nil, or_false] at h ⊢
  tauto

end Sys2Proof.Machine

/-! The reads of BAR0 (R8, R76, R281, R424, R439, R442, R443, R489). -/

namespace Sys2Proof.Machine

/-! ### Accesses that reach nothing -/

/-- An access that reaches no register is flagged and its offset recorded (R424). -/
theorem State.unmapped_records (s : State) (off : BitVec 24) (isWrite : Bool) :
    (s.unmapped off.toNat isWrite).rdB Reg.hstFlags 1 = true ∧ (s.unmapped off.toNat isWrite).rd Reg.hstBadAddr = off.zeroExtend 32 := by
  have hregs : (s.unmapped off.toNat isWrite).rd = (s.badAddr 1 off.toNat).rd := by
    unfold State.unmapped; split <;> rfl
  have hoff : BitVec.ofNat 32 (off.toNat % 2 ^ 24) = off.zeroExtend 32 := by
    rw [Nat.mod_eq_of_lt off.isLt]
    exact BitVec.ofNat_toNat 32 off
  simp only [State.rdB, hregs]
  refine ⟨?_, ?_⟩
  · have h := State.raise_rdB s Reg.hstFlags (b := 1) (State.retained_device s (.inl (by decide))) (by decide)
    rwa [State.rdB, ← State.rd_wr_ne _ (by decide : Reg.hstFlags ≠ Reg.hstBadAddr)] at h
  · rw [State.badAddr, State.rd_wr_same, hoff]

/-- A write that reaches nothing is discarded: nothing changes but its record. -/
theorem State.unmapped_write_frame (s : State) (o : Nat) :
    ChangesOnly [.pair Reg.hstFlags, .one (.reg Reg.hstBadAddr)] s (s.unmapped o true) :=
  (State.wr_changes _ _ (State.raise_changes _ _ (Evolves.refl _ s) (Allows.mem (by decide))) (Allows.mem (by decide))).1

/-- A write that reaches nothing. -/
theorem State.onWrite_unreached {s : State} {o : Nat} (f : State → State) (hon : s.boot.stage ≠ .off) (h : s.reaches o = false) :
    s.onWrite o f = s.unmapped o true := by
  unfold State.onWrite
  rw [if_neg hon, if_neg (by simp [h])]

/-- A write that reaches a register runs its effect. -/
theorem State.onWrite_reached {s : State} {o : Nat} (f : State → State) (hon : s.boot.stage ≠ .off) (h : s.reaches o = true) :
    s.onWrite o f = f s := by
  unfold State.onWrite
  rw [if_neg hon, if_pos h]

/-! ### Where a BAR0 read goes -/

theorem State.busRead_unreached {s : State} {o : Nat} (inc : W32) (read : SramRead) (hon : s.boot.stage ≠ .off)
    (h : s.reaches o = false) : s.busRead o inc read = s.unmapped o false := by
  unfold State.busRead
  rw [if_neg hon, if_pos (by simp [h])]

theorem State.busRead_record {s : State} {o : Nat} {i : Option (Fin 1024)} (inc : W32) (read : SramRead)
    (hon : s.boot.stage ≠ .off) (h : s.reaches o = true) (hw : recordWord0 o = some i) : s.busRead o inc read = s.slotRead i := by
  unfold State.busRead
  rw [if_neg hon, if_neg (by simp [h]), hw]

theorem State.busRead_register {s : State} {o : Nat} {r : RegRow} (inc : W32) (read : SramRead) (hon : s.boot.stage ≠ .off)
    (h : s.reaches o = true) (hw : recordWord0 o = none) (hr : findRow o = some r) :
    s.busRead o inc read = (s.latchHi o).readClear o (s.readReg o) inc := by
  unfold State.busRead
  rw [if_neg hon, if_neg (by simp [h]), hw, hr]

theorem State.busRead_window {s : State} {o : Nat} (inc : W32) (read : SramRead) (hon : s.boot.stage ≠ .off)
    (h : s.reaches (0xC00000 + o) = true) : s.busRead (0xC00000 + o) inc read = s.windowRead o read := by
  unfold State.busRead
  rw [if_neg hon, if_neg (by simp [h]), recordWord0_window (by omega), findRow_window (by omega)]
  simp

/-! ### Registers with fields that a read clears (R8, R439) -/

/-- The increments that a read of register `o` sees in its cycle: none where its cluster is in retention (R439). -/
def State.incAt (s : State) (o : Nat) (incNow : W32) : W32 := if s.retained o then 0 else incNow

/-- The state between the clearing of the counters and the setting of the flags of the same cycle. -/
def State.cleared (s : State) (o : Nat) (r : RegRow) (shown inc : W32) : State :=
  (s.setRead shown).wr o ((s.rd o &&& ~~~ BitVec.ofNat 32 r.rc) ||| (inc &&& BitVec.ofNat 32 r.rc))

/-- The flags whose counters stand in the register at `o`. -/
def flagsBelow (o : Nat) : List Nat := match findRow (o - 4) with | some f => bitList 32 f.w1c | none => []

theorem lt_of_mem_flagsBelow {o b : Nat} (h : b ∈ flagsBelow o) : b < 32 := by
  unfold flagsBelow at h
  split at h
  · exact (mem_bitList.mp h).1
  · cases h

theorem mem_flagsBelow {o b : Nat} {f : RegRow} (hf : findRow (o - 4) = some f) (hb : b < 32) (hw : f.w1c.testBit b = true) :
    b ∈ flagsBelow o := by
  unfold flagsBelow
  rw [hf]
  exact mem_bitList.mpr ⟨hb, hw⟩

/-- The flags stand four bytes below their counters: no register holds both. -/
theorem sub_ne_of_mem_flagsBelow {o b : Nat} (h : b ∈ flagsBelow o) : o - 4 ≠ o := by
  have h0 : flagsBelow 0 = [] := by decide +kernel
  intro he
  have : o = 0 := by omega
  rw [this, h0] at h
  cases h

/-- A read-clear clears, and then sets the flags whose counters increment in its cycle. -/
theorem State.readClear_eq (s : State) {o : Nat} {r : RegRow} (shown incNow : W32) (hr : findRow o = some r) :
    s.readClear o shown incNow = (flagsBelow o).foldl
      (fun t b => if bitOf (s.incAt o incNow) (flagCounter (o - 4) b).1 = true then t.wrB (o - 4) b true else t)
      (s.cleared o r shown (s.incAt o incNow)) := by
  unfold State.readClear flagsBelow
  rw [hr]
  cases hf : findRow (o - 4) with
  | none => rfl
  | some f =>
    by_cases h0 : f.w1c = 0
    · simp [h0, bitList, State.cleared, State.incAt]
    · simp [h0, State.cleared, State.incAt]

/-- The RC fields clear, and a counter that increments in the same cycle is left at 1. -/
theorem State.readClear_rd (s : State) {o : Nat} {r : RegRow} (shown incNow : W32) (hr : findRow o = some r) :
    (s.readClear o shown incNow).rd o =
      (s.rd o &&& ~~~ BitVec.ofNat 32 r.rc) ||| (s.incAt o incNow &&& BitVec.ofNat 32 r.rc) := by
  rw [State.readClear_eq s shown incNow hr]
  cases hl : flagsBelow o with
  | nil => exact State.rd_wr_same _ _ _
  | cons b l =>
    have hne : o - 4 ≠ o := sub_ne_of_mem_flagsBelow (b := b) (by simp [hl])
    exact ((State.foldl_wrB_changes _ _ _ _).1 (.reg o) (by simp [Foot.covers, hne])).trans (State.rd_wr_same _ _ _)

/-- The flag of a counter that increments in the same cycle is set. -/
theorem State.readClear_flag (s : State) {o b : Nat} {r f : RegRow} (shown incNow : W32) (hr : findRow o = some r)
    (hf : findRow (o - 4) = some f) (hb : b < 32) (hw : f.w1c.testBit b = true) :
    (s.readClear o shown incNow).rdB (o - 4) b =
      (s.rdB (o - 4) b || bitOf (s.incAt o incNow) (flagCounter (o - 4) b).1) := by
  have hmem := mem_flagsBelow hf hb hw
  rw [State.readClear_eq s shown incNow hr,
    State.foldl_wrB_rdB (fun b => bitOf (s.incAt o incNow) (flagCounter (o - 4) b).1) _ (fun _ => lt_of_mem_flagsBelow)]
  simp only [hmem, decide_true, Bool.true_and, State.cleared]
  rw [State.rdB_wr_ne _ (sub_ne_of_mem_flagsBelow hmem)]
  rfl

/-- The read returns the value shown. -/
theorem State.readClear_reads (s : State) {o : Nat} {r : RegRow} (shown incNow : W32) (hr : findRow o = some r) :
    (s.readClear o shown incNow).hst.readData = shown ∧ (s.readClear o shown incNow).hst.ur = false := by
  rw [State.readClear_eq s shown incNow hr]
  obtain ⟨hdata, -, hur⟩ := (State.foldl_wrB_changes
    (fun b => bitOf (s.incAt o incNow) (flagCounter (o - 4) b).1) (flagsBelow o) (s.cleared o r shown (s.incAt o incNow)) (o - 4)).1
    .reads (by simp [Foot.covers])
  exact ⟨hdata, hur⟩

/-! ### Pairs of a LO and a HI register (R76) -/

@[simp] theorem State.latchHi_rd (s : State) (o i : Nat) : (s.latchHi o).rd i = s.rd i := by
  unfold State.latchHi; split <;> rfl

theorem State.latchHi_rdB (s : State) (o i b : Nat) : (s.latchHi o).rdB i b = s.rdB i b := by
  simp [State.rdB]

@[simp] theorem State.latchHi_incAt (s : State) (o i : Nat) (v : W32) : (s.latchHi o).incAt i v = s.incAt i v := by
  simp [State.incAt, State.retained, State.latchHi_rdB]

/-- What a read of a register with a row does: the shadow, the clearing and the flags. -/
theorem State.busRead_register_frame {s : State} {o : Nat} (inc : W32) :
    ChangesOnly [.one .reads, .one .shadows, .one (.reg o), .one (.reg (o - 4))] s ((s.latchHi o).readClear o (s.readReg o) inc) :=
  (State.readClear_changes _ _ _ (State.latchHi_changes _ (Evolves.refl _ s) (Allows.mem (by simp))) (Allows.mem (by simp))
    (Allows.mem (by simp)) (Allows.mem (by simp))).1

theorem loPair_cases {o : Nat} (h : loPair o = true) :
    (o < 0x30000 ∨ o = Reg.calLastOptLo ∨ o = 0xA0000 + Reg.seqCycLo) ∨ 0x800000 ≤ o := by
  simp only [loPair, Bool.or_eq_true, List.contains_iff_mem, List.mem_cons, List.not_mem_nil, or_false, Bool.and_eq_true,
    decide_eq_true_eq] at h
  obtain (rfl | rfl | rfl | rfl) | ⟨⟨h, -⟩, -⟩ := h
  · exact .inl (.inl (by decide))
  · exact .inl (.inl (by decide))
  · exact .inl (.inr (.inl rfl))
  · exact .inl (.inr (.inr rfl))
  · exact .inr h

/-- A LO register is no word of a record. -/
theorem recordWord0_loPair {o : Nat} (h : loPair o = true) : recordWord0 o = none := by
  have hc := loPair_cases h
  unfold recordWord0
  rw [if_neg, dif_neg]
  all_goals
    simp only [Reg.evrOpen, Reg.calLastOptLo, Reg.seqCycLo] at hc ⊢
    omega

/-- A HI register reads as its shadow, once a read of its LO register has made one. -/
theorem State.readReg_shadow {t : State} {m : Tbl (Option W32)} {o : Nat} {h : RegRow} {v : W32} (hlo : loPair o = true)
    (hh : findRow (o + 4) = some h) (hs : t.shadows = Tbl.set (fun _ => none) m (o + 4) (some v)) :
    t.readReg (o + 4) = v &&& ~~~ BitVec.ofNat 32 h.wo := by
  have hc := loPair_cases hlo
  have hlt := lt_window_of_findRow hh
  simp only [Reg.calLastOptLo, Reg.seqCycLo] at hc
  unfold State.readReg
  rw [if_neg (by omega), if_neg (by omega), if_neg (by omega), hh, hs]
  simp

/-- With no increment in its cycle a read-clear sets no flag. -/
theorem State.readClear_quiet (s : State) {o : Nat} {r : RegRow} (shown : W32) (hr : findRow o = some r) :
    s.readClear o shown 0 = s.cleared o r shown 0 := by
  have hinc : s.incAt o 0 = 0 := by simp [State.incAt]
  have hnone : ∀ (l : List Nat) (t : State),
      l.foldl (fun t b => if bitOf 0 (flagCounter (o - 4) b).1 = true then t.wrB (o - 4) b true else t) t = t := by
    intro l t
    induction l with
    | nil => rfl
    | cons b l ih => simp
  rw [State.readClear_eq s shown 0 hr, hinc, hnone]

/-- A register without RC fields keeps its value when it is read. -/
theorem State.cleared_rd_of_no_rc (s : State) {o : Nat} {r : RegRow} (shown inc : W32) (hrc : r.rc = 0) :
    (s.cleared o r shown inc).rd o = s.rd o := by
  have hall : ~~~ BitVec.ofNat 32 0 = BitVec.allOnes 32 := by decide
  rw [State.cleared, hrc, State.rd_wr_same, hall, BitVec.and_allOnes, BitVec.and_zero, BitVec.or_zero]

/-- A read of a register without RC fields leaves every register. -/
theorem State.cleared_frame (s : State) {o : Nat} {r : RegRow} (shown inc : W32) (hrc : r.rc = 0) :
    ChangesOnly [.one .reads, .one .shadows] s ((s.latchHi o).cleared o r shown inc) := by
  refine ChangesOnly.drop_reg (o := o) ?_ ?_
  · exact (State.wr_changes _ _ (State.setRead_changes _ (State.latchHi_changes _ (Evolves.refl _ s) (Allows.mem (by simp)))
      (Allows.mem (by simp))) (Allows.mem (by simp))).1
  · rw [State.cleared_rd_of_no_rc _ _ _ hrc, State.latchHi_rd]

/-! ### Reads of the fail counter window (R281, R442, R443) -/

@[simp] theorem State.setRead_rd (s : State) (v : W32) (o : Nat) : (s.setRead v).rd o = s.rd o := rfl

@[simp] theorem State.setRead_mem (s : State) (v : W32) : (s.setRead v).mem = s.mem := rfl

theorem State.setRead_rdB (s : State) (v : W32) (o b : Nat) : (s.setRead v).rdB o b = s.rdB o b := rfl

/-- The window shows nothing but the fail counter memory. -/
theorem State.windowWord_congr {s t : State} (h : t.mem.failCnt = s.mem.failCnt) (o : Nat) : t.windowWord o = s.windowWord o := by
  simp only [State.windowWord, h]

/-- Four counters of 255 read as all ones. -/
theorem State.windowWord_lost {s : State} {o : Nat} (h : ∀ i, i < 4 → Tbl.get (fun _ => (0 : Byte)) s.mem.failCnt (o + i) = 255) :
    s.windowWord o = 0xFFFFFFFF := by
  have hbytes : (List.range 4).map (fun i => Tbl.get (fun _ => (0 : Byte)) s.mem.failCnt (o + i)) = List.replicate 4 255 := by
    rw [List.eq_replicate_iff]
    refine ⟨by simp, fun b hb => ?_⟩
    obtain ⟨i, hi, rfl⟩ := List.mem_map.mp hb
    exact h i (List.mem_range.mp hi)
  rw [State.windowWord, hbytes]
  decide

/-- A store of one byte of the fail counter memory. -/
theorem State.setFailByte_at {K : List Foot} {s x : State} (a : Nat) (v : Byte) (h : Evolves K s x) (hk : Allows K (.failCnt a 1)) :
    Evolves K s (x.setFailByte a v) := by
  have hall := State.setFailByte_changes a v (Evolves.refl [.failCnts] x) (Allows.mem List.mem_cons_self)
  refine h.step hk (fun p hp => ?_) hall.2
  cases p with
  | failCnt b =>
    have hb : ¬ (a ≤ b ∧ b < a + 1) := by simpa [Foot.covers] using hp
    exact Tbl.get_set_ne _ (by omega) v x.mem.failCnt
  | _ => exact hall.1 _ (by simp [Foot.covers])

/-- The state whose `n` fail counters from `o` are rewritten as 255. -/
def State.loseCounters (s : State) (o n : Nat) : State :=
  (List.range n).foldl (fun (t : State) i => t.setFailByte (o + i) 255) s

theorem State.loseCounters_succ (s : State) (o n : Nat) : s.loseCounters o (n + 1) = (s.loseCounters o n).setFailByte (o + n) 255 := by
  simp [State.loseCounters, List.range_succ]

theorem State.loseCounters_get (s : State) (o n : Nat) {i : Nat} (hi : i < n) :
    Tbl.get (fun _ => (0 : Byte)) (s.loseCounters o n).mem.failCnt (o + i) = 255 := by
  induction n with
  | zero => omega
  | succ n ih =>
    rw [State.loseCounters_succ, State.setFailByte]
    by_cases hn : i = n
    · subst hn
      exact Tbl.get_set_same (fun _ => (0 : Byte)) (o + i) 255 (s.loseCounters o i).mem.failCnt
    · exact (Tbl.get_set_ne (fun _ => (0 : Byte)) (by omega) 255 (s.loseCounters o n).mem.failCnt).trans (ih (by omega))

theorem State.loseCounters_changes {K : List Foot} {s x : State} (o n : Nat) (h : Evolves K s x) (hk : Allows K (.failCnt o n)) :
    Evolves K s (x.loseCounters o n) :=
  Evolves.foldl_mem (fun _ i hi ht => State.setFailByte_at (o + i) 255 ht (hk.of (fun p hp => by
    have hi := List.mem_range.mp hi
    cases p <;> simp only [Foot.covers, decide_eq_true_eq, Bool.false_eq_true] at hp ⊢
    · omega))) h

@[simp] theorem State.loseCounters_rd (s : State) (o n i : Nat) : (s.loseCounters o n).rd i = s.rd i :=
  (State.loseCounters_changes o n (Evolves.refl [.failCnt o n] s) (Allows.mem List.mem_cons_self)).1 (.reg i) (by simp [Foot.covers])

/-- An uncorrectable error sets ECC_UNCORR and records its word (R442). -/
theorem State.eccUncorr_records (s : State) (m r : Nat) :
    (s.eccUncorr m r).rdB Reg.memFlags 0 = true ∧ (s.eccUncorr m r).rd Reg.memEccAddr = pack [(0, r), (16, m)] := by
  simp only [State.eccUncorr, State.rdB]
  rw [State.post_rd _ _ _ _ (by decide), State.post_rd _ _ _ _ (by decide), State.rd_wr_same, State.rd_wr_ne _ (by decide)]
  exact ⟨State.raise_rdB s Reg.memFlags (State.retained_device s (.inl (by decide))) (by decide), rfl⟩

/-- A word of the window that is lost. -/
theorem State.windowRead_lost_eq (s : State) (o : Nat) :
    s.windowRead o .lost =
      (((s.eccUncorr (1041 + o / 65536) (o % 65536 / 128)).loseCounters o 4).wrB (Reg.flSiteStatus + 16 * (o / 0x4000)) 3 true).setRead
        0xFFFFFFFF := by
  change State.setRead _ (State.windowWord _ o) = _
  rw [State.windowWord_lost]
  · rfl
  · exact fun i hi => State.loseCounters_get (s.eccUncorr (1041 + o / 65536) (o % 65536 / 128)) o 4 hi

theorem State.windowRead_lost_frame (s : State) (o : Nat) :
    ChangesOnly [.one .reads, .failCnt o 4, .events, .pair Reg.memFlags, .one (.reg Reg.memEccAddr),
      .one (.reg (Reg.flSiteStatus + 16 * (o / 0x4000)))] s (s.windowRead o .lost) := by
  rw [State.windowRead_lost_eq]
  exact (State.setRead_changes _ (State.wrB_changes _ _ _ (State.loseCounters_changes _ _ (State.eccUncorr_changes _ _ (Evolves.refl _ s)
    (Allows.mem (by simp)) (Allows.mem (by simp)) (Allows.mem (by simp))) (Allows.mem (by simp))) (Allows.mem (by simp)))
    (Allows.mem (by simp))).1

/-- A lost word reads as four counters of 255, its site is INCOMPLETE, and the error is recorded. -/
theorem State.windowRead_lost_post (s : State) (o : Nat) :
    let t := s.windowRead o .lost
    t.hst.readData = 0xFFFFFFFF ∧ (∀ i, i < 4 → Tbl.get (fun _ => (0 : Byte)) t.mem.failCnt (o + i) = 255) ∧
      t.rdB (Reg.flSiteStatus + 16 * (o / 0x4000)) 3 = true ∧ t.rdB Reg.memFlags 0 = true ∧
      t.rd Reg.memEccAddr = pack [(0, o % 65536 / 128), (16, 1041 + o / 65536)] := by
  obtain ⟨hflag, haddr⟩ := State.eccUncorr_records s (1041 + o / 65536) (o % 65536 / 128)
  have hne1 : Reg.memFlags ≠ Reg.flSiteStatus + 16 * (o / 0x4000) := by simp only [Reg.memFlags, Reg.flSiteStatus]; omega
  have hne2 : Reg.memEccAddr ≠ Reg.flSiteStatus + 16 * (o / 0x4000) := by simp only [Reg.memEccAddr, Reg.flSiteStatus]; omega
  intro t
  have ht : t = _ := State.windowRead_lost_eq s o
  refine ⟨?_, fun i hi => ?_, ?_, ?_, ?_⟩
  · rw [ht]; rfl
  · rw [ht, State.setRead_mem, State.wrB_mem]
    exact State.loseCounters_get _ o 4 hi
  · rw [ht, State.setRead_rdB, State.rdB_wrB_same _ _ true (by decide)]
  · rw [ht, State.setRead_rdB, State.rdB_wrB_off _ hne1, State.rdB, State.loseCounters_rd]
    exact hflag
  · rw [ht, State.setRead_rd, State.rd_wrB_ne _ hne2, State.loseCounters_rd]
    exact haddr

/-! ### The commands that read -/

theorem execReadClear_register {s : State} {off : BitVec 24} {r : RegRow} (incNow : W32) (read : SramRead) (hon : s.boot.stage ≠ .off)
    (hreach : s.reaches off.toNat = true) (hw : recordWord0 off.toNat = none) (hr : findRow off.toNat = some r) :
    Completes (.readClear off ⟨incNow, read⟩) s
      [.one .reads, .one .shadows, .one (.reg off.toNat), .one (.reg (off.toNat - 4))] (fun t =>
        t.hst.readData = s.readReg off.toNat ∧ t.hst.ur = false ∧
        t.rd off.toNat = (s.rd off.toNat &&& ~~~ BitVec.ofNat 32 r.rc) ||| (s.incAt off.toNat incNow &&& BitVec.ofNat 32 r.rc) ∧
        ∀ (f : RegRow) (b : Nat), findRow (off.toNat - 4) = some f → b < 32 → f.w1c.testBit b = true →
          t.rdB (off.toNat - 4) b =
            (s.rdB (off.toNat - 4) b || bitOf (s.incAt off.toNat incNow) (flagCounter (off.toNat - 4) b).1)) := by
  refine ⟨_, congrArg Host.Outcome.next (State.busRead_register incNow read hon hreach hw hr), ?_, State.busRead_register_frame incNow⟩
  obtain ⟨hdata, hur⟩ := State.readClear_reads (s.latchHi off.toNat) (s.readReg off.toNat) incNow hr
  refine ⟨hdata, hur, ?_, fun f b hf hb hfb => ?_⟩
  · simpa using State.readClear_rd (s.latchHi off.toNat) (s.readReg off.toNat) incNow hr
  · simpa [State.latchHi_rdB] using State.readClear_flag (s.latchHi off.toNat) (s.readReg off.toNat) incNow hr hf hb hfb

theorem execReadClear_window {s : State} {off : BitVec 24} {o : Nat} (incNow : W32) (read : SramRead) (hon : s.boot.stage ≠ .off)
    (hreach : s.reaches off.toNat = true) (ho : off.toNat = 0xC00000 + o) :
    exec (.readClear off ⟨incNow, read⟩) s = .next (s.windowRead o read) := by
  refine congrArg Host.Outcome.next ?_
  rw [ho] at hreach ⊢
  exact State.busRead_window incNow read hon hreach

theorem execReadClear_clean {s : State} {off : BitVec 24} {o : Nat} (incNow : W32) (hon : s.boot.stage ≠ .off)
    (hreach : s.reaches off.toNat = true) (ho : off.toNat = 0xC00000 + o) :
    Completes (.readClear off ⟨incNow, .clean⟩) s [.one .reads] (fun t => t.hst.readData = s.windowWord o ∧ t.hst.ur = false) :=
  ⟨_, execReadClear_window incNow .clean hon hreach ho, ⟨rfl, rfl⟩,
    (State.setRead_changes _ (Evolves.refl _ s) (Allows.mem List.mem_cons_self)).1⟩

theorem execReadClear_corrected {s : State} {off : BitVec 24} {o : Nat} (incNow : W32) (hon : s.boot.stage ≠ .off)
    (hreach : s.reaches off.toNat = true) (ho : off.toNat = 0xC00000 + o) :
    Completes (.readClear off ⟨incNow, .corrected⟩) s [.one .reads, .one (.reg Reg.memEccCnt)] (fun t =>
      t.hst.readData = s.windowWord o ∧ (t.rd Reg.memEccCnt).toNat = satAdd 0xFFFFFFFF (s.rd Reg.memEccCnt).toNat 1) := by
  refine ⟨_, execReadClear_window incNow .corrected hon hreach ho, ⟨?_, ?_⟩, ?_⟩
  · exact State.windowWord_congr rfl o
  · change (s.eccCorrected.rd Reg.memEccCnt).toNat = _
    rw [State.eccCorrected, State.count, State.rd_wr_same, BitVec.toNat_ofNat]
    exact Nat.mod_eq_of_lt (by unfold satAdd; omega)
  · exact (State.setRead_changes _ (State.eccCorrected_changes (Evolves.refl _ s) (Allows.mem (by simp))) (Allows.mem (by simp))).1

theorem execReadClear_lost {s : State} {off : BitVec 24} {o : Nat} (incNow : W32) (hon : s.boot.stage ≠ .off)
    (hreach : s.reaches off.toNat = true) (ho : off.toNat = 0xC00000 + o) :
    Completes (.readClear off ⟨incNow, .lost⟩) s [.one .reads, .failCnt o 4, .events, .pair Reg.memFlags, .one (.reg Reg.memEccAddr),
        .one (.reg (Reg.flSiteStatus + 16 * (o / 0x4000)))] (fun t =>
      t.hst.readData = 0xFFFFFFFF ∧ (∀ i, i < 4 → Tbl.get (fun _ => (0 : Byte)) t.mem.failCnt (o + i) = 255) ∧
      t.rdB (Reg.flSiteStatus + 16 * (o / 0x4000)) 3 = true ∧ t.rdB Reg.memFlags 0 = true ∧
      t.rd Reg.memEccAddr = pack [(0, o % 65536 / 128), (16, 1041 + o / 65536)]) :=
  ⟨_, execReadClear_window incNow .lost hon hreach ho, State.windowRead_lost_post s o, State.windowRead_lost_frame s o⟩

theorem execLoReadLatch_latches {s : State} {off : BitVec 24} {r : RegRow} (hon : s.boot.stage ≠ .off)
    (hreach : s.reaches off.toNat = true) (hlo : loPair off.toNat = true) (hr : findRow off.toNat = some r) (hrc : r.rc = 0) :
    Completes (.loReadLatch off) s [.one .reads, .one .shadows] (fun t =>
      t.hst.readData = s.readReg off.toNat ∧
      ∀ h : RegRow, findRow (off.toNat + 4) = some h →
        t.readReg (off.toNat + 4) = s.live (off.toNat + 4) &&& ~~~ BitVec.ofNat 32 h.wo) := by
  refine ⟨(s.latchHi off.toNat).cleared off.toNat r (s.readReg off.toNat) 0, congrArg Host.Outcome.next ?_, ⟨rfl, fun h hh => ?_⟩,
    State.cleared_frame s _ _ hrc⟩
  · rw [State.busRead_register 0 .clean hon hreach (recordWord0_loPair hlo) hr, State.readClear_quiet _ _ hr]
  · exact State.readReg_shadow (m := s.shadows) hlo hh (by simp [State.cleared, State.setRead, State.latchHi, hlo])

theorem execEvrSlotWord0Read_reads {s : State} (slot : Option (Fin 1024)) (hon : s.boot.stage ≠ .off)
    (hreach : s.reaches (recordOffset slot) = true) :
    exec (.evrSlotWord0Read slot) s = .next (s.slotRead slot) ∧ ChangesOnly [.one .reads, .one .evr] s (s.slotRead slot) := by
  have hread := State.busRead_record 0 .clean hon hreach (recordWord0_recordOffset slot)
  refine ⟨congrArg Host.Outcome.next ?_, ?_⟩
  · cases slot <;> exact hread
  · exact (State.slotRead_changes slot (Evolves.refl _ s) (Allows.mem (by simp)) (Allows.mem (by simp))).1

/-- Both reads of a host record an access that reaches nothing, and return 0 (R424). -/
theorem reads_unreached {s : State} {off : BitVec 24} (hon : s.boot.stage ≠ .off) (hreach : s.reaches off.toNat = false) (incNow : W32)
    (read : SramRead) : ∀ i ∈ [Instr.readClear off ⟨incNow, read⟩, .loReadLatch off],
      Completes i s [.hostError] (fun t =>
        t.hst.readData = 0 ∧ t.hst.ur = false ∧ t.rdB Reg.hstFlags 1 = true ∧ t.rd Reg.hstBadAddr = off.zeroExtend 32) := by
  intro i hi
  refine ⟨s.unmapped off.toNat false, ?_, ⟨rfl, rfl, State.unmapped_records s off false⟩,
    (State.unmapped_changes _ _ (Evolves.refl _ s) (Allows.mem List.mem_cons_self)).1⟩
  simp only [List.mem_cons, List.not_mem_nil, or_false] at hi
  obtain rfl | rfl := hi
  · exact congrArg Host.Outcome.next (State.busRead_unreached incNow read hon hreach)
  · exact congrArg Host.Outcome.next (State.busRead_unreached 0 .clean hon hreach)

/-- Settles O15: one lemma for each kind of access that a BAR0 read can be. -/
theorem hostReads : Obligations.HostReads := by
  intro s off hon
  refine ⟨?_, ?_, ?_, ?_, ?_, ?_⟩
  · intro incNow inc read r hreach hw hr hinc
    subst hinc
    exact execReadClear_register incNow read hon hreach hw hr
  · intro incNow o hreach ho
    exact ⟨execReadClear_clean incNow hon hreach ho, execReadClear_corrected incNow hon hreach ho,
      execReadClear_lost incNow hon hreach ho⟩
  · intro r hreach hlo hr hrc
    exact execLoReadLatch_latches hon hreach hlo hr hrc
  · intro i hreach
    obtain ⟨he, hframe⟩ := execEvrSlotWord0Read_reads (some i) hon hreach
    exact ⟨_, he, ⟨rfl, rfl⟩, hframe⟩
  · intro hreach
    obtain ⟨he, hframe⟩ := execEvrSlotWord0Read_reads none hon hreach
    exact ⟨_, he, ⟨rfl, fun w => rfl⟩, hframe⟩
  · intro hreach incNow read
    exact reads_unreached hon hreach incNow read

end Sys2Proof.Machine

/-! The writes of BAR0 (R7, R8, R110, R154, R424, R439). -/

namespace Sys2Proof.Machine

/-! ### Flags cleared by a write, with set events of the same cycle (R439) -/

theorem State.flagClear_eq (s : State) {o : Nat} {r : RegRow} (v setNow : W32) (hr : findRow o = some r) :
    s.flagClear o v setNow = (bitList 32 (setNow &&& BitVec.ofNat 32 r.w1c).toNat).foldl (fun t b => t.raise o b)
      (s.wr o (takeFields r (s.rd o) v)) := by
  unfold State.flagClear
  rw [hr]

/-- The flags whose set events fall in the cycle of the write. -/
theorem mem_setEvents {setNow : W32} {m i : Nat} (hi : i < 32) :
    i ∈ bitList 32 (setNow &&& BitVec.ofNat 32 m).toNat ↔ bitOf setNow i = true ∧ m.testBit i = true := by
  rw [mem_bitList]
  change i < 32 ∧ bitOf _ i = true ↔ _
  rw [bitOf_and, bitOf_ofNat m hi]
  simp [hi]

/-- Every bit of a register of flags after a write with its set events. -/
theorem State.flagClear_rdB (s : State) {o b : Nat} {r : RegRow} (v setNow : W32) (hr : findRow o = some r) (hb : b < 32) :
    (s.flagClear o v setNow).rdB o b =
      (bitOf (takeFields r (s.rd o) v) b || (!s.retained o && (bitOf setNow b && r.w1c.testBit b))) := by
  rw [State.flagClear_eq s v setNow hr]
  cases hret : s.retained o with
  | true =>
    rw [State.foldl_raise_retained _ ((State.retained_wr s o _).trans hret)]
    simp [State.rdB]
  | false =>
    rw [State.foldl_raise_rdB _ (fun c hc => (mem_bitList.mp hc).1) b ((State.retained_wr s o _).trans hret)]
    simp only [mem_setEvents hb, State.rdB, State.rd_wr_same, Bool.decide_and, Bool.decide_eq_true, Bool.not_false, Bool.true_and]

/-- With no set event, or in retention, the counters stay. -/
theorem State.flagClear_counters_stay (s : State) {o : Nat} {r : RegRow} (v setNow : W32) (hr : findRow o = some r)
    (h : setNow = 0 ∨ s.retained o = true) : (s.flagClear o v setNow).rd (o + 4) = s.rd (o + 4) := by
  have hnone : s.flagClear o v setNow = s.wr o (takeFields r (s.rd o) v) := by
    rw [State.flagClear_eq s v setNow hr]
    obtain rfl | hret := h
    · simp [bitList]
    · exact State.foldl_raise_retained _ ((State.retained_wr s o _).trans hret)
  rw [hnone, State.rd_wr_ne _ (by omega)]

/-- A set event of one flag counts once. -/
theorem State.flagClear_counts (s : State) {o b : Nat} {r : RegRow} (v : W32) (hr : findRow o = some r) (hb : b < 32)
    (hw : r.w1c.testBit b = true) (hret : s.retained o = false) {k : Nat × Nat} (hk : k = flagCounter o b) (hle : k.1 + k.2 ≤ 32) :
    (s.flagClear o v (bit32 b)).rdF (o + 4) (k.1 + k.2 - 1) k.1 =
      satAdd (2 ^ k.2 - 1) (s.rdF (o + 4) (k.1 + k.2 - 1) k.1) 1 := by
  rw [State.flagClear_eq s v _ hr, bitList_bit32_and _ hb hw]
  change ((s.wr o _).raise o b).rdF _ _ _ = _
  rw [State.raise_counter _ _ _ ((State.retained_wr s o _).trans hret) hk hle, State.rdF_wr_ne _ (by omega)]

/-! ### Plain writes and sealed fields (R7, R8, R110) -/

theorem State.plainWrite_eq (s : State) {o : Nat} {r : RegRow} (v : W32) (hr : findRow o = some r) :
    s.plainWrite o v = s.wr o (takeFields r (s.rd o) v) := by
  unfold State.plainWrite
  rw [hr]

theorem State.plainWrite_rdB (s : State) {o b : Nat} {r : RegRow} (v : W32) (hr : findRow o = some r) (hb : b < 32) :
    (s.plainWrite o v).rdB o b =
      ((if r.rw.testBit b then bitOf v b else s.rdB o b) && !(r.w1c.testBit b && bitOf v b)) := by
  rw [State.plainWrite_eq s v hr, State.rdB, State.rd_wr_same, bitOf_takeFields r _ v hb]
  rfl

theorem State.plainWrite_rd_ne (s : State) {o i : Nat} (v : W32) (h : i ≠ o) : (s.plainWrite o v).rd i = s.rd i := by
  unfold State.plainWrite
  split
  · exact State.rd_wr_ne s h _
  · rfl

theorem State.devWrite_plain (s : State) {o : Nat} (v : W32) (hlt : o < 0x800000) (hp : plainReg o = true) :
    s.devWrite o v = s.plainWrite o v := by
  unfold plainReg at hp
  rw [if_neg (by omega), if_pos hlt] at hp
  simp only [Bool.and_eq_true, Bool.not_eq_true', inRange, decide_eq_false_iff_not, List.contains_eq_mem, List.mem_cons,
    List.not_mem_nil, or_false, not_or] at hp
  obtain ⟨⟨⟨hnames, hbase⟩, hmsix⟩, hpba⟩ := hp
  have hmsix' : ¬ (0x38000 ≤ o ∧ o < 0x38400) := fun h => hmsix ⟨h.1, Nat.le_of_lt_succ h.2⟩
  have hpba' : ¬ (0x39000 ≤ o ∧ o < 0x39008) := fun h => hpba ⟨h.1, Nat.le_of_lt_succ h.2⟩
  simp only [State.devWrite, hnames, hbase, hmsix', hpba', if_false, or_self]

theorem State.cluWrite_plain (s : State) {o : Nat} (v : W32) (hge : 0x800000 ≤ o) (hlt : o < 0xC00000)
    (hrel : (o - 0x800000) % 0x20000 < 0x10000) (hp : plainReg o = true) :
    s.cluWrite ((o - 0x800000) / 0x20000) ((o - 0x800000) % 0x20000) v = s.plainWrite o v := by
  have hoff : cluOff ((o - 0x800000) / 0x20000) ((o - 0x800000) % 0x20000) = o := by unfold cluOff; omega
  unfold plainReg at hp
  rw [if_neg (by omega), if_neg (by omega)] at hp
  simp only [hrel, if_true, Bool.and_eq_true, Bool.not_eq_true', inRange, decide_eq_false_iff_not, List.contains_eq_mem, List.mem_cons,
    List.not_mem_nil, or_false, not_or] at hp
  obtain ⟨⟨hnames, hrole⟩, hacq⟩ := hp
  simp only [State.cluWrite, hoff, hnames, hrole, hacq, if_false, Bool.false_eq_true]

theorem State.chWrite_plain (s : State) {o : Nat} (v : W32) (hge : 0x800000 ≤ o) (hlt : o < 0xC00000)
    (hrel : ¬ (o - 0x800000) % 0x20000 < 0x10000) (hp : plainReg o = true) :
    s.chWrite (chanAt o) ((o - 0x800000) % 0x20000 % 0x1000) v = s.plainWrite o v := by
  have hoff : chOff (chanAt o) ((o - 0x800000) % 0x20000 % 0x1000) = o := by unfold chOff chanAt; omega
  unfold plainReg at hp
  rw [if_neg (by omega), if_neg (by omega)] at hp
  simp only [hrel, if_false, Bool.and_eq_true, Bool.not_eq_true', inRange, decide_eq_false_iff_not, List.contains_eq_mem, List.mem_cons,
    List.not_mem_nil, or_false, not_or] at hp
  obtain ⟨⟨hpe, hpmu⟩, hnames⟩ := hp
  simp only [State.chWrite, hoff, hnames, hpe, hpmu, or_self, if_false]

/-- A register with no behaviour of its own takes a plain write. -/
theorem State.regWrite_plain (s : State) {o : Nat} (v : W32) (hp : plainReg o = true) : s.regWrite o v = s.plainWrite o v := by
  have hlt : o < 0xC00000 := by
    by_contra hge
    unfold plainReg at hp
    rw [if_pos (by omega)] at hp
    cases hp
  unfold State.regWrite
  rw [if_neg (by omega)]
  by_cases hdev : o < 0x800000
  · rw [if_pos hdev]
    exact State.devWrite_plain s v hdev hp
  · rw [if_neg hdev]
    by_cases hrel : (o - 0x800000) % 0x20000 < 0x10000
    · rw [if_pos hrel]
      exact State.cluWrite_plain s v (by omega) hlt hrel hp
    · rw [if_neg hrel]
      exact State.chWrite_plain s v (by omega) hlt hrel hp

/-- The state that counts a write of other values to sealed fields, and holds its offset (R110). -/
def State.sealedNoted (s : State) (o : Nat) : State :=
  (s.countF Reg.bootSealedWrCnt 15 0 1).wr Reg.bootSealedWrAddr (BitVec.ofNat 32 o)

theorem State.sealedRecord_same {s : State} {o : Nat} {v : W32} (h : s.sealedDiffers o v = false) : s.sealedRecord o v = s := by
  unfold State.sealedRecord
  rw [if_neg (by simp [h])]

theorem State.sealedRecord_differs {s : State} {o : Nat} {v : W32} (h : s.sealedDiffers o v = true) :
    s.sealedRecord o v = (s.sealedNoted o).post 309 0x3D (BitVec.ofNat 128 o) := by
  unfold State.sealedRecord
  rw [if_pos h]
  rfl

theorem State.sealedNoted_frame (s : State) (o : Nat) :
    ChangesOnly [.one (.reg Reg.bootSealedWrCnt), .one (.reg Reg.bootSealedWrAddr)] s (s.sealedNoted o) :=
  (State.wr_changes _ _ (State.countF_changes _ _ _ _ (Evolves.refl _ s) (Allows.mem (by simp))) (Allows.mem (by simp))).1

theorem State.sealedNoted_cnt (s : State) (o : Nat) :
    (s.sealedNoted o).rdF Reg.bootSealedWrCnt 15 0 = satAdd 0xFFFF (s.rdF Reg.bootSealedWrCnt 15 0) 1 := by
  rw [State.sealedNoted, State.rdF_wr_ne _ (by decide), State.countF, State.rdF_wrF_same _ _ _ (by decide) (by decide)]
  exact Nat.mod_eq_of_lt (by unfold satAdd; omega)

/-- A register with sealed fields is not among those that the record of a sealed write changes. -/
theorem State.sealedRecord_rd {s : State} {o : Nat} {v : W32} (h : s.sealedDiffers o v = true) :
    (s.sealedRecord o v).rd o = s.rd o := by
  have hne := sealedDiffers_sealedFields h
  rw [State.sealedRecord_differs h, State.post_rd]
  · refine (s.sealedNoted_frame o) (.reg o) (fun k hk => ?_)
    simp only [List.mem_cons, List.not_mem_nil, or_false] at hk
    obtain rfl | rfl := hk
    · simpa [Foot.covers] using fun he : Reg.bootSealedWrCnt = o => hne (sealedFields_recorded (.inr (.inl he.symm)))
    · simpa [Foot.covers] using fun he : Reg.bootSealedWrAddr = o => hne (sealedFields_recorded (.inr (.inr he.symm)))
  · exact Bool.eq_false_iff.mpr (fun he => hne (sealedFields_recorded (.inl he)))

/-- Both commands of a host write run it. -/
theorem exec_hostWrite {i : Instr} {s : State} {off : BitVec 24} {v : W32}
    (hi : i ∈ [Instr.registerWrite off v, .hostWriteSealed off v]) : exec i s = .next (s.hostWrite off.toNat v) := by
  simp only [List.mem_cons, List.not_mem_nil, or_false] at hi
  obtain rfl | rfl := hi <;> rfl

/-- A host write of a plain register that it reaches. -/
theorem State.hostWrite_plain {s : State} {o : Nat} (v : W32) (hon : s.boot.stage ≠ .off) (hreach : s.reaches o = true)
    (hp : plainReg o = true) : s.hostWrite o v = (s.sealedRecord o v).plainWrite o v := by
  rw [State.hostWrite, State.onWrite_reached _ hon hreach, State.regWrite_plain _ v hp]

/-! ### The commands that write -/

theorem hasFlags_of_w1c {o : Nat} {r : RegRow} (hr : findRow o = some r) (hw : r.w1c ≠ 0) : hasFlags o = true := by
  unfold hasFlags
  rw [hr]
  simpa using hw

theorem execFlagClear_reached {s : State} {off : BitVec 24} {r : RegRow} (v setNow : W32) (hon : s.boot.stage ≠ .off)
    (hreach : s.reaches off.toNat = true) (hr : findRow off.toNat = some r) (hw : r.w1c ≠ 0) :
    exec (.flagClear off v setNow) s = .next (s.flagClear off.toNat v setNow) := by
  refine congrArg Host.Outcome.next ?_
  rw [if_pos (hasFlags_of_w1c hr hw), State.onWrite_reached _ hon hreach]

/-- Every command of a host write discards and records an access that reaches nothing (R424). -/
theorem writes_unreached {s : State} {off : BitVec 24} {v : W32} (hon : s.boot.stage ≠ .off) (hreach : s.reaches off.toNat = false)
    (setNow : W32) : ∀ i ∈ [Instr.flagClear off v setNow, .registerWrite off v, .hostWriteSealed off v],
      Completes i s [.pair Reg.hstFlags, .one (.reg Reg.hstBadAddr)] (fun t =>
        t.rdB Reg.hstFlags 1 = true ∧ t.rd Reg.hstBadAddr = off.zeroExtend 32) := by
  intro i hi
  have hhost : s.hostWrite off.toNat v = s.unmapped off.toNat true := State.onWrite_unreached _ hon hreach
  refine ⟨s.unmapped off.toNat true, ?_, State.unmapped_records s off true, State.unmapped_write_frame s off.toNat⟩
  obtain rfl | hi := List.mem_cons.mp hi
  · refine congrArg Host.Outcome.next ?_
    split
    · exact State.onWrite_unreached _ hon hreach
    · exact hhost
  · rw [exec_hostWrite hi, hhost]

theorem execFlagClear_completes {s : State} {off : BitVec 24} {r : RegRow} (v setNow : W32) (hon : s.boot.stage ≠ .off)
    (hreach : s.reaches off.toNat = true) (hr : findRow off.toNat = some r) (hw : r.w1c ≠ 0) :
    Completes (.flagClear off v setNow) s [.pair off.toNat] (fun t =>
      (∀ b, b < 32 → r.w1c.testBit b = true → r.rw.testBit b = false →
        t.rdB off.toNat b = ((bitOf setNow b && !s.retained off.toNat) || (s.rdB off.toNat b && !bitOf v b))) ∧
      (∀ b, b < 32 → r.w1c.testBit b = false → t.rdB off.toNat b = (if r.rw.testBit b then bitOf v b else s.rdB off.toNat b)) ∧
      (setNow = 0 ∨ s.retained off.toNat = true → t.rd (off.toNat + 4) = s.rd (off.toNat + 4)) ∧
      (∀ b, b < 32 → r.w1c.testBit b = true → setNow = bit32 b → s.retained off.toNat = false →
        ∀ k, k = flagCounter off.toNat b → k.1 + k.2 ≤ 32 →
        t.rdF (off.toNat + 4) (k.1 + k.2 - 1) k.1 = satAdd (2 ^ k.2 - 1) (s.rdF (off.toNat + 4) (k.1 + k.2 - 1) k.1) 1)) := by
  refine ⟨_, execFlagClear_reached v setNow hon hreach hr hw, ⟨?_, ?_, ?_, ?_⟩,
    (State.flagClear_changes _ _ _ (Evolves.refl _ s) (Allows.mem List.mem_cons_self)).1⟩
  · intro b hb hwb hrw
    rw [State.flagClear_rdB s v setNow hr hb, bitOf_takeFields r _ v hb]
    simp [hwb, hrw, State.rdB, Bool.or_comm, Bool.and_comm]
  · intro b hb hwb
    rw [State.flagClear_rdB s v setNow hr hb, bitOf_takeFields r _ v hb]
    simp [hwb, State.rdB]
  · exact State.flagClear_counters_stay s v setNow hr
  · rintro b hb hwb rfl hret k hk hle
    exact State.flagClear_counts s v hr hb hwb hret hk hle

theorem hostWrite_unsealed_completes {s : State} {off : BitVec 24} {r : RegRow} {v : W32} (hon : s.boot.stage ≠ .off)
    (hreach : s.reaches off.toNat = true) (hr : findRow off.toNat = some r) (hp : plainReg off.toNat = true)
    (hd : s.sealedDiffers off.toNat v = false) : ∀ i ∈ [Instr.registerWrite off v, .hostWriteSealed off v],
      Completes i s [.one (.reg off.toNat)] (fun t => ∀ b, b < 32 →
        t.rdB off.toNat b = ((if r.rw.testBit b then bitOf v b else s.rdB off.toNat b) && !(r.w1c.testBit b && bitOf v b))) := by
  intro i hi
  refine ⟨s.plainWrite off.toNat v, ?_, fun b hb => State.plainWrite_rdB s v hr hb,
    (State.plainWrite_changes _ _ (Evolves.refl _ s) (Allows.mem List.mem_cons_self)).1⟩
  rw [exec_hostWrite hi, State.hostWrite_plain v hon hreach hp, State.sealedRecord_same hd]

theorem hostWrite_sealed_completes {s : State} {off : BitVec 24} {r : RegRow} {v : W32} (hon : s.boot.stage ≠ .off)
    (hreach : s.reaches off.toNat = true) (hr : findRow off.toNat = some r) (hp : plainReg off.toNat = true)
    (hd : s.sealedDiffers off.toNat v = true) : ∀ i ∈ [Instr.registerWrite off v, .hostWriteSealed off v],
      Completes i s [.events, .one (.reg Reg.bootSealedWrCnt), .one (.reg Reg.bootSealedWrAddr), .one (.reg off.toNat)] (fun t =>
        t.rd Reg.bootSealedWrAddr = off.zeroExtend 32 ∧
        t.rdF Reg.bootSealedWrCnt 15 0 = satAdd 0xFFFF (s.rdF Reg.bootSealedWrCnt 15 0) 1 ∧
        (∀ b, b < 32 → r.sl.testBit b = true → r.rw.testBit b = false → r.w1c.testBit b = false →
          t.rdB off.toNat b = s.rdB off.toNat b) ∧
        (∀ b, b < 32 → r.rw.testBit b = true → r.w1c.testBit b = false → t.rdB off.toNat b = bitOf v b) ∧
        ∃ u : State, t = (u.post 309 0x3D (BitVec.ofNat 128 off.toNat)).plainWrite off.toNat v ∧
          ChangesOnly [.one (.reg Reg.bootSealedWrCnt), .one (.reg Reg.bootSealedWrAddr)] s u) := by
  intro i hi
  have hne := sealedDiffers_sealedFields hd
  have hcnt : Reg.bootSealedWrCnt ≠ off.toNat := fun he => hne (sealedFields_recorded (.inr (.inl he.symm)))
  have haddr : Reg.bootSealedWrAddr ≠ off.toNat := fun he => hne (sealedFields_recorded (.inr (.inr he.symm)))
  have hkept : (s.sealedRecord off.toNat v).rdB off.toNat = s.rdB off.toNat := by
    funext b
    rw [State.rdB, State.sealedRecord_rd hd]
    rfl
  refine ⟨(s.sealedRecord off.toNat v).plainWrite off.toNat v, ?_, ⟨?_, ?_, ?_, ?_, ?_⟩, ?_⟩
  · rw [exec_hostWrite hi, State.hostWrite_plain v hon hreach hp]
  · rw [State.plainWrite_rd_ne _ v haddr, State.sealedRecord_differs hd, State.post_rd _ _ _ _ (by decide), State.sealedNoted,
      State.rd_wr_same, BitVec.ofNat_toNat]
  · rw [State.rdF, State.plainWrite_rd_ne _ v hcnt, State.sealedRecord_differs hd, State.post_rd _ _ _ _ (by decide)]
    exact State.sealedNoted_cnt s off.toNat
  · intro b hb _ hrw hw
    rw [State.plainWrite_rdB _ v hr hb, hkept]
    simp [hrw, hw]
  · intro b hb hrw hw
    rw [State.plainWrite_rdB _ v hr hb]
    simp [hrw, hw]
  · exact ⟨s.sealedNoted off.toNat, by rw [State.sealedRecord_differs hd], s.sealedNoted_frame off.toNat⟩
  · exact (State.plainWrite_changes _ _ (State.sealedRecord_changes _ _ (Evolves.refl _ s) (Allows.mem (by simp)) (Allows.mem (by simp))
      (Allows.mem (by simp))) (Allows.mem (by simp))).1

/-- Settles O16: one lemma for each kind of access that a host write can be. -/
theorem hostWrites : Obligations.HostWrites := by
  intro s off v hon
  refine ⟨?_, ?_, ?_, ?_⟩
  · intro setNow r hreach hr hw
    exact execFlagClear_completes v setNow hon hreach hr hw
  · intro r hreach hr hp
    exact ⟨hostWrite_unsealed_completes hon hreach hr hp, hostWrite_sealed_completes hon hreach hr hp⟩
  · intro c i hreach
    have he : exec (.seqRoleWrite c i v) s = .next (s.roleWrite (cluOff c (Reg.seqRole0 + 4 * i)) v) :=
      congrArg Host.Outcome.next (State.onWrite_reached _ hon hreach)
    refine ⟨fun hok => ⟨_, he, ?_, ?_⟩, fun hbad => ⟨_, he, trivial, ?_⟩⟩
    · rw [State.roleWrite, if_neg (by simp [hok])]
      exact State.rd_wr_same _ _ _
    · exact (State.roleWrite_changes _ _ (Evolves.refl _ s) (Allows.mem List.mem_cons_self)).1
    · rw [State.roleWrite, if_pos hbad]
      exact ChangesOnly.refl _ s
  · intro hreach setNow
    exact writes_unreached hon hreach setNow

end Sys2Proof.Machine

/-! The registers after reset (R503). -/

namespace Sys2Proof.Machine

/-- After reset no register is listed: each reads its reset value. -/
@[simp] theorem State.reset_rd (o : Nat) : State.reset.rd o = resetWord o := rfl

theorem resetWord_idPart : resetWord Reg.idPart = 0x00005120 := by decide +kernel

theorem resetWord_idStepping : resetWord Reg.idStepping = 0x00004201 := by decide +kernel

/-- Settles O2: the two rows of the register map hold the values of R12 and R13. -/
theorem identityAfterReset : Obligations.IdentityAfterReset :=
  ⟨(State.reset_rd _).trans resetWord_idPart, (State.reset_rd _).trans resetWord_idStepping⟩

end Sys2Proof.Machine

/-! The time base (R43 to R45, R58 to R60, R64, R65, R68, R69, R72, R73): ticks, the epoch pulse, operating time, corrections. -/

namespace Sys2Proof.Machine

/-! ### Tables and bytes -/

/-- A run of values reads back as it was written. -/
theorem Tbl.getList_setList {α : Type} [DecidableEq α] (d : Nat → α) (l : List α) (k : Nat) (t : Tbl α) :
    Tbl.getList d (Tbl.setList d t k l) k l.length = l := by
  induction l generalizing t k with
  | nil => rfl
  | cons v l ih =>
    have hhead : Tbl.get d (Tbl.setList d (Tbl.set d t k v) (k + 1) l) k = v := by
      rw [Tbl.get_setList_ne _ _ _ _ _ (.inl (Nat.lt_succ_self k)), Tbl.get_set_same]
    have htail := ih (k + 1) (Tbl.set d t k v)
    simp only [Tbl.getList] at htail ⊢
    rw [List.length_cons, List.range_succ_eq_map, List.map_cons, List.map_map, Nat.add_zero]
    refine congrArg₂ List.cons hhead (Eq.trans (List.map_congr_left fun i _ => ?_) htail)
    simp only [Function.comp_apply, Nat.succ_eq_add_one, Tbl.setList]
    rw [show k + (i + 1) = k + 1 + i by omega]

theorem length_leBytes (n x : Nat) : (leBytes n x).length = n := by
  induction n generalizing x with
  | zero => rfl
  | succ n ih => rw [leBytes, List.length_cons, ih]

@[simp] theorem length_persistEntry (kind pcycle optime : Nat) : (persistEntry kind pcycle optime).length = 32 := by
  simp only [persistEntry, List.length_append, length_leBytes]

theorem State.flashRd_flashWr (s : State) (a : Nat) (bs : List Byte) : (s.flashWr a bs).flashRd a bs.length = bs :=
  Tbl.getList_setList _ bs a s.nvm.flash

/-- A program within an allowed span of the flash. -/
theorem State.flashWr_span {K : List Foot} {s x : State} {b n : Nat} (a : Nat) (bs : List Byte) (h : Evolves K s x)
    (hk : Allows K (.flash b n)) (ha : b ≤ a ∧ a + bs.length ≤ b + n) : Evolves K s (x.flashWr a bs) := by
  have hall := State.flashWr_changes a bs (Evolves.refl [.flashes] x) (Allows.mem List.mem_cons_self)
  refine h.step hk (fun p hp => ?_) hall.2
  cases p with
  | flash c =>
    have hc : ¬ (b ≤ c ∧ c < b + n) := by simpa [Foot.covers] using hp
    exact Tbl.get_setList_ne _ _ _ _ _ (by omega)
  | _ => exact hall.1 _ (by simp [Foot.covers])

/-- An erase of an allowed span of the flash. -/
theorem State.flashErase_span {K : List Foot} {s x : State} (a n : Nat) (h : Evolves K s x) (hk : Allows K (.flash a n)) :
    Evolves K s (x.flashErase a n) := by
  have hall := State.flashErase_changes a n (Evolves.refl [.flashes] x) (Allows.mem List.mem_cons_self)
  refine h.step hk (fun p hp => ?_) hall.2
  cases p with
  | flash c =>
    have hc : ¬ (a ≤ c ∧ c < a + n) := by simpa [Foot.covers] using hp
    exact Tbl.get_filter _ _ _ (fun _ => by simp; omega) _
  | _ => exact hall.1 _ (by simp [Foot.covers])

/-! ### The epoch and its pulse (R64, R65, R72, R73) -/

theorem eppPulse_iff (period offset width : W32) (epoch : BitVec 64) :
    eppPulse period offset width epoch = true ↔
      period ≠ 0 ∧ (epoch - offset.zeroExtend 64).toNat % period.toNat < width.toNat := by
  simp only [eppPulse, Bool.and_eq_true, decide_eq_true_eq]

/-- The end of an EPOCH command at the tick that brings its value (R73). -/
theorem State.epochTake_of_fg {s : State} {c : Cmd} (v : BitVec 64) (hc : s.hst.fg = some c) :
    ∃ u, u = (s.refTick v).post 305 0x39 (BitVec.ofNat 128 (s.epochNext.toNat + 2 ^ 64 * v.toNat)) ∧
      s.epochTake v = ({ u with hst := { u.hst with fg := none } } : State).complete c 0 0 (s.epochNext.toNat % 2 ^ 32) := by
  refine ⟨_, rfl, ?_⟩
  obtain ⟨-, hfg, -⟩ := (State.post_changes 305 0x39 (BitVec.ofNat 128 (s.epochNext.toNat + 2 ^ 64 * v.toNat))
    (Evolves.refl [.events] (s.refTick v)) (Allows.mem (by decide))).1 .rings (by decide)
  simp only [State.epochTake, hfg.trans hc]

/-- A completion leaves the commands that wait or run. -/
theorem State.complete_commands (s : State) (c : Cmd) (status detail result : Nat) :
    (s.complete c status detail result).hst.fg = s.hst.fg ∧ (s.complete c status detail result).hst.bg = s.hst.bg ∧
      (s.complete c status detail result).hst.fetched = s.hst.fetched := by
  simp only [State.complete]
  split
  · exact ⟨rfl, rfl, rfl⟩
  · obtain ⟨hfetched, hfg, hbg, -⟩ := (State.pendVector_changes _ (Evolves.refl [.vector] _) (Allows.mem (by decide))).1 .rings (by decide)
    exact ⟨hfg, hbg, hfetched⟩

/-- Commands that are refused by their opcode end without becoming the running one. -/
theorem State.settle_fg (n : Nat) {s : State} (h : s.hst.fg = none) : (s.settle n).hst.fg = none := by
  induction n generalizing s with
  | zero => exact h
  | succ n ih =>
    unfold State.settle
    split
    · split
      · exact ih ((State.complete_commands _ _ _ _ _).1.trans h)
      · exact h
    · exact h

theorem State.settleAll_fg {s : State} (h : s.hst.fg = none) : s.settleAll.hst.fg = none := State.settle_fg _ h

theorem State.settleAll_clk (s : State) : s.settleAll.clk = s.clk :=
  (State.settleAll_changes (Evolves.refl [.completion] s) (Allows.mem (by decide))).1 .clk (by decide)

theorem State.complete_clk (s : State) (c : Cmd) (status detail result : Nat) : (s.complete c status detail result).clk = s.clk :=
  (State.complete_changes c status detail result (Evolves.refl [.completion] s) (Allows.mem (by decide))).1 .clk (by decide)

theorem State.post_clk (s : State) (src code : Nat) (data : BitVec 128) : (s.post src code data).clk = s.clk :=
  (State.post_changes src code data (Evolves.refl [.events] s) (Allows.mem (by decide))).1 .clk (by decide)

/-- A tick with no EPOCH command waiting. -/
theorem exec_epochTick_free {s : State} (hp : s.powered = true) (h : s.clk.epochSet = none) :
    exec .epochTick s = .next (s.refTick s.epochNext) := by
  refine congrArg Host.Outcome.next ?_
  simp only [h, State.epochTick, hp, Option.isSome_none, Bool.false_eq_true, if_false, if_true]

/-- A tick that takes the value of an EPOCH command, by either of its rows. -/
theorem exec_epochTake {s : State} {v : BitVec 64} (hp : s.powered = true) (h : s.clk.epochSet = some v) :
    ∀ i ∈ [Instr.epochTick, Instr.epochTakeEffect], exec i s = .next (s.epochTake v).settleAll := by
  have htake : s.epochTakeEffect = (s.epochTake v).settleAll := by
    simp only [State.epochTakeEffect, h, hp, if_true]
  intro i hi
  simp only [List.mem_cons, List.not_mem_nil, or_false] at hi
  obtain rfl | rfl := hi
  · refine congrArg Host.Outcome.next ?_
    rw [h, Option.isSome_some, if_pos rfl, htake]
  · exact congrArg Host.Outcome.next htake

/-- Settles O6: a tick is `refTick` with the next value of the counter, or with the value of the command that waits. -/
theorem epochAdvances : Obligations.EpochAdvances := by
  intro s hp
  refine ⟨fun hset => ?_, ?_⟩
  · exact ⟨_, exec_epochTick_free hp hset, ⟨rfl, rfl, rfl, eppPulse_iff _ _ _ _, rfl, rfl⟩,
      (State.refTick_changes _ (Evolves.refl _ s) (Allows.mem (by decide))).1⟩
  · rintro v c _ hset hfg rfl i hi
    obtain ⟨u, hu, htake⟩ := State.epochTake_of_fg v hfg
    have hclk : (s.epochTake v).settleAll.clk = (s.refTick v).clk := by
      rw [State.settleAll_clk, htake, State.complete_clk, hu]
      exact State.post_clk _ _ _ _
    refine ⟨_, exec_epochTake hp hset i hi, ⟨?_, ?_, ?_, ?_, u, hu, congrArg State.settleAll htake⟩, ?_⟩
    · rw [hclk]; rfl
    · rw [hclk]; rfl
    · rw [hclk]; rfl
    · refine State.settleAll_fg ?_
      rw [htake, (State.complete_commands _ _ _ _ _).1]
    · exact (State.settleAll_changes (State.epochTake_changes v (Evolves.refl _ s) (Allows.mem (by decide)) (Allows.mem (by decide))
        (Allows.mem (by decide))) (Allows.mem (by decide))).1

/-- A write of PERIOD that would not stand above WIDTH is rejected (R65). -/
theorem State.eppPeriodWrite_rejected {s : State} {v : W32} (h0 : v ≠ 0) (h : v.toNat ≤ (s.rd Reg.clkEppWidth).toNat) :
    s.eppPeriodWrite v = s.raise Reg.clkFlags 3 := if_pos ⟨h0, h⟩

theorem State.eppPeriodWrite_taken {s : State} {v : W32} (h : v = 0 ∨ (s.rd Reg.clkEppWidth).toNat < v.toNat) :
    s.eppPeriodWrite v = s.wr Reg.clkEppPeriod v :=
  if_neg (fun hr => h.elim hr.1 (fun hlt => absurd hr.2 (by omega)))

/-- A write of WIDTH that is 0 or does not stand below PERIOD is rejected (R65). -/
theorem State.eppWidthWrite_rejected {s : State} {v : W32} (h : v = 0 ∨ (s.rd Reg.clkEppPeriod).toNat ≤ v.toNat) :
    s.eppWidthWrite v = s.raise Reg.clkFlags 3 := if_pos h

theorem State.eppWidthWrite_taken {s : State} {v : W32} (h0 : v ≠ 0) (h : v.toNat < (s.rd Reg.clkEppPeriod).toNat) :
    s.eppWidthWrite v = s.wr Reg.clkEppWidth v :=
  if_neg (fun hr => hr.elim h0 (fun hle => absurd hle (by omega)))

/-- A command that stores one register. -/
theorem Completes.of_wr {c : Instr} {s : State} {o : Nat} {v : W32} (h : exec c s = .next (s.wr o v)) :
    Completes c s [.one (.reg o)] (fun t => t.rd o = v) :=
  ⟨_, h, State.rd_wr_same _ _ _, (State.wr_changes o v (Evolves.refl _ s) (Allows.mem List.mem_cons_self)).1⟩

/-- A command that raises one flag of a device register. -/
theorem Completes.of_raise {c : Instr} {s : State} {o b : Nat} (ho : o < 0x800000) (hb : b < 32) (h : exec c s = .next (s.raise o b)) :
    Completes c s [.pair o] (fun t => t.rdB o b = true) :=
  ⟨_, h, State.raise_rdB s o (State.retained_device s (.inl ho)) hb,
    (State.raise_changes o b (Evolves.refl _ s) (Allows.mem List.mem_cons_self)).1⟩

/-- Settles O7: where the write reaches its register, the order of PERIOD and WIDTH decides between the store and the flag. -/
theorem epochPulseWrites : Obligations.EpochPulseWrites := by
  intro s v hon
  refine ⟨fun hr => ?_, fun hr => ?_, fun hr => ?_⟩
  · have he : exec (.clkEppPeriodWrite v) s = .next (s.eppPeriodWrite v) := congrArg Host.Outcome.next (State.onWrite_reached _ hon hr)
    refine ⟨fun h => .of_wr ?_, fun h0 h => .of_raise (by decide) (by decide) ?_⟩
    · rw [he, State.eppPeriodWrite_taken h]
    · rw [he, State.eppPeriodWrite_rejected h0 h]
  · have he : exec (.clkEppWidthWrite v) s = .next (s.eppWidthWrite v) := congrArg Host.Outcome.next (State.onWrite_reached _ hon hr)
    refine ⟨fun h0 h => .of_wr ?_, fun h => .of_raise (by decide) (by decide) ?_⟩
    · rw [he, State.eppWidthWrite_taken h0 h]
    · rw [he, State.eppWidthWrite_rejected h]
  · exact .of_wr (congrArg Host.Outcome.next (State.onWrite_reached _ hon hr))

/-! ### Operating time and its checkpoints (R68, R69, R79, R99) -/

@[simp] theorem State.mgtTick_clk (s : State) : s.mgtTick.clk = s.clk := by unfold State.mgtTick; split <;> rfl

@[simp] theorem State.mgtTick_powered (s : State) : s.mgtTick.powered = s.powered := by unfold State.mgtTick; split <;> rfl

/-- The state in which operating time has run for one more millisecond. -/
def State.optimeNext (s : State) : State := s.putClk { s.clk with optime := s.clk.optime + 1 }

theorem State.optimeMs_off {s : State} (hp : s.powered = false) : s.optimeMs = s.mgtTick := by
  simp only [State.optimeMs, State.mgtTick_powered, hp, Bool.false_eq_true, if_false]

/-- At its top operating time stands (R68). -/
theorem State.optimeMs_top {s : State} (h : s.clk.optime = 0xFFFFFFFFFF) : s.optimeMs = s.mgtTick := by
  simp only [State.optimeMs, State.mgtTick_clk, h, if_true, ite_self]

theorem State.optimeMs_below {s : State} (hp : s.powered = true) (h : s.clk.optime ≠ 0xFFFFFFFFFF) :
    s.optimeMs = s.mgtTick.optimeNext.raiseIf (s.clk.optime + 1 == 0xFFFFFFFFFF) Reg.clkFlags 2 := by
  have hp' : s.mgtTick.powered = true := (State.mgtTick_powered s).trans hp
  rw [← State.mgtTick_clk s] at h ⊢
  simp only [State.optimeMs, hp', h, if_true, if_false]
  rfl

theorem State.raiseIf_clk (s : State) (p : Bool) (o b : Nat) : (s.raiseIf p o b).clk = s.clk := by
  cases p
  · rfl
  · exact State.raise_clk s o b

theorem State.optimeNext_clk (s : State) : s.optimeNext.clk = { s.clk with optime := s.clk.optime + 1 } := rfl

/-- What counting a millisecond changes. -/
theorem State.optimeNext_changes {K : List Foot} {s x : State} (h : Evolves K s x) (hb : Allows K (.one .boot)) (hc : Allows K (.one .clk)) :
    Evolves K s x.mgtTick.optimeNext := State.putClk_changes _ (State.mgtTick_changes h hb) hc

/-- Below its top operating time counts without a carry. -/
theorem optime_succ {x : BitVec 40} (h : x ≠ 0xFFFFFFFFFF) : (x + 1).toNat = x.toNat + 1 := by
  have : x.toNat ≠ 0xFFFFFFFFFF := fun he => h (BitVec.eq_of_toNat_eq he)
  rw [BitVec.toNat_add, show (1 : BitVec 40).toNat = 1 from rfl]
  omega

/-- A write of the persistent area programs its next entry within one block, after an erase where the entry is the block's first (R99, R100). -/
theorem State.persistWrite_programs {s : State} (kind : Nat) (h : s.nvm.noFlash = false) :
    ∃ u : State, u.clk = s.clk ∧ Evolves [.flash (65536 * (s.entryIndex / 2048)) 65536, .one .flashPort] s u ∧
      s.persistWrite kind = (u.flashWr (32 * s.entryIndex) (persistEntry kind s.clk.pcycle.toNat s.clk.optime.toNat)).putNvm
        { (u.flashWr (32 * s.entryIndex) (persistEntry kind s.clk.pcycle.toNat s.clk.optime.toNat)).nvm with persist := s.entryIndex + 1 } := by
  by_cases hfirst : s.entryIndex % 2048 = 0
  · refine ⟨s.flashErase (32 * s.entryIndex) 65536, rfl, ?_, ?_⟩
    · rw [show 32 * s.entryIndex = 65536 * (s.entryIndex / 2048) by omega]
      exact State.flashErase_span _ _ (Evolves.refl _ s) (Allows.mem (by simp))
    · simp only [State.persistWrite, h, Bool.false_eq_true, not_false_eq_true, if_true, hfirst]
      rfl
  · refine ⟨s, rfl, Evolves.refl _ s, ?_⟩
    simp only [State.persistWrite, h, Bool.false_eq_true, not_false_eq_true, if_true, hfirst, if_false]
    rfl

/-- What a write of the persistent area leaves in the flash, and what it changes. -/
theorem State.persistWrite_entry {s : State} (kind : Nat) (h : s.nvm.noFlash = false) :
    (s.persistWrite kind).flashRd (32 * s.entryIndex) 32 = persistEntry kind s.clk.pcycle.toNat s.clk.optime.toNat ∧
      (s.persistWrite kind).nvm.persist = s.entryIndex + 1 ∧
      Evolves [.flash (65536 * (s.entryIndex / 2048)) 65536, .one .flashPort] s (s.persistWrite kind) := by
  obtain ⟨u, -, hu, he⟩ := State.persistWrite_programs kind h
  rw [he]
  refine ⟨?_, rfl, State.putNvm_port (State.flashWr_span _ _ hu (Allows.mem List.mem_cons_self) ?_) (Allows.mem (by simp))⟩
  · have hrd := State.flashRd_flashWr u (32 * s.entryIndex) (persistEntry kind s.clk.pcycle.toNat s.clk.optime.toNat)
    rwa [length_persistEntry] at hrd
  · rw [length_persistEntry]
    omega

theorem State.persistWrite_noFlash {s : State} (kind : Nat) (h : s.nvm.noFlash = true) : s.persistWrite kind = s := by
  simp only [State.persistWrite, h, not_true_eq_false, if_false]

theorem exec_optimeCheckpoint {s : State} (hp : s.powered = true) : exec .optimeCheckpoint s = .next (s.persistWrite 1) := by
  refine congrArg Host.Outcome.next ?_
  rw [State.checkpoint, if_pos hp]

/-- Settles O8: operating time counts below its top, and a checkpoint is a write of the persistent area. -/
theorem operatingTimeCounts : Obligations.OperatingTimeCounts := by
  intro s hp
  refine ⟨fun hlt => ?_, fun htop => ?_, fun htop => ?_, fun hflash => ?_, fun hflash => ?_⟩
  · have hne : s.clk.optime ≠ 0xFFFFFFFFFF := fun he => by rw [he] at hlt; exact absurd hlt (by decide)
    have hnext : (s.clk.optime + 1 == 0xFFFFFFFFFF) = false := by
      rw [beq_eq_false_iff_ne]
      intro he
      have := optime_succ hne
      rw [he] at this
      exact absurd (this ▸ hlt) (by decide)
    refine ⟨s.mgtTick.optimeNext, ?_, ⟨?_, ?_⟩, ?_⟩
    · refine congrArg Host.Outcome.next ?_
      rw [State.optimeMs_below hp hne, hnext]
      rfl
    · rw [State.optimeNext_clk, State.mgtTick_clk]
      exact optime_succ hne
    · rw [State.optimeNext_clk, State.mgtTick_clk]
    · exact (State.optimeNext_changes (Evolves.refl _ s) (Allows.mem (by decide)) (Allows.mem (by decide))).1
  · have hne : s.clk.optime ≠ 0xFFFFFFFFFF := fun he => by rw [he] at htop; exact absurd htop (by decide)
    have hnext : s.clk.optime + 1 = 0xFFFFFFFFFF := BitVec.eq_of_toNat_eq ((optime_succ hne).trans htop)
    refine ⟨s.mgtTick.optimeNext.raise Reg.clkFlags 2, ?_, ⟨?_, ?_⟩, ?_⟩
    · refine congrArg Host.Outcome.next ?_
      rw [State.optimeMs_below hp hne, hnext]
      rfl
    · rw [State.raise_clk, State.optimeNext_clk, State.mgtTick_clk]
      exact hnext
    · exact State.raise_rdB _ _ (State.retained_device _ (.inl (by decide))) (by decide)
    · exact (State.raise_changes _ _ (State.optimeNext_changes (Evolves.refl _ s) (Allows.mem (by decide)) (Allows.mem (by decide)))
        (Allows.mem (by decide))).1
  · exact ⟨_, congrArg Host.Outcome.next (State.optimeMs_top htop), State.mgtTick_clk s,
      (State.mgtTick_changes (Evolves.refl _ s) (Allows.mem (by decide))).1⟩
  · obtain ⟨hentry, hnext, hframe⟩ := State.persistWrite_entry 1 hflash
    exact ⟨_, exec_optimeCheckpoint hp, ⟨hentry, hnext⟩, hframe.1⟩
  · refine ⟨s, ?_, trivial, ChangesOnly.refl _ s⟩
    rw [exec_optimeCheckpoint hp, State.persistWrite_noFlash 1 hflash]

/-! ### Corrections (R42 to R45, R523) -/

/-- CLK_CORR follows its terms in FREE and HOLDOVER, and holds its value in ACQUIRE and LOCKED (R42, R59). -/
theorem State.corrUpdate_rd (s : State) :
    (s.timing = 0 → s.corrUpdate.rd Reg.clkCorr = s.rd Reg.clkCorrAge + s.rd Reg.clkCorrTemp) ∧
    (s.timing = 1 ∨ s.timing = 2 → s.corrUpdate.rd Reg.clkCorr = s.rd Reg.clkCorr) ∧
    (s.timing = 3 → s.corrUpdate.rd Reg.clkCorr = s.clk.holdBase + (s.rd Reg.clkCorrTemp - s.clk.holdTemp)) := by
  unfold State.corrUpdate
  refine ⟨fun h => ?_, fun h => ?_, fun h => ?_⟩
  · rw [if_pos h, State.rd_wr_same]
  · rw [if_neg (by omega), if_neg (by omega)]
  · rw [if_neg (by omega), if_pos h, State.rd_wr_same]

theorem State.corrUpdate_rd_ne (s : State) {o : Nat} (h : o ≠ Reg.clkCorr) : s.corrUpdate.rd o = s.rd o :=
  (State.corrUpdate_changes (Evolves.refl [.one (.reg Reg.clkCorr)] s) (Allows.mem (by decide))).1 (.reg o)
    (by simpa [Foot.covers] using h.symm)

theorem State.timing_wr (s : State) {o : Nat} (h : Reg.clkStatus ≠ o) (v : W32) : (s.wr o v).timing = s.timing :=
  State.rdF_wr_ne s h v 1 0

theorem exec_ageingUpdate {s : State} (hp : s.powered = true) : exec .ageingUpdate s = .next s.ageing :=
  congrArg Host.Outcome.next (if_pos hp)

theorem ageingUpdate_completes {s : State} (hp : s.powered = true) :
    Completes .ageingUpdate s [.one (.reg Reg.clkCorr), .one (.reg Reg.clkCorrAge)] (fun t =>
      t.rd Reg.clkCorrAge = BitVec.ofInt 32 (ageCorr (sext 16 (s.rdF Reg.clkAgeCoef 15 0)) s.clk.optime.toNat (s.calRd 0x28 5)) ∧
      (s.timing = 0 → t.rd Reg.clkCorr = t.rd Reg.clkCorrAge + s.rd Reg.clkCorrTemp) ∧
      (s.timing = 1 ∨ s.timing = 2 → t.rd Reg.clkCorr = s.rd Reg.clkCorr) ∧
      (s.timing = 3 → t.rd Reg.clkCorr = s.clk.holdBase + (s.rd Reg.clkCorrTemp - s.clk.holdTemp))) := by
  let age := BitVec.ofInt 32 (ageCorr (sext 16 (s.rdF Reg.clkAgeCoef 15 0)) s.clk.optime.toNat (s.calRd 0x28 5))
  have hage : s.ageing.rd Reg.clkCorrAge = age :=
    (State.corrUpdate_rd_ne _ (by decide)).trans (State.rd_wr_same s Reg.clkCorrAge age)
  have htiming : (s.wr Reg.clkCorrAge age).timing = s.timing := State.timing_wr s (by decide) age
  obtain ⟨hfree, hloop, hhold⟩ := State.corrUpdate_rd (s.wr Reg.clkCorrAge age)
  rw [htiming, State.rd_wr_same, State.rd_wr_ne s (by decide : Reg.clkCorrTemp ≠ Reg.clkCorrAge)] at hfree
  rw [htiming, State.rd_wr_ne s (by decide : Reg.clkCorr ≠ Reg.clkCorrAge)] at hloop
  rw [htiming, State.rd_wr_ne s (by decide : Reg.clkCorrTemp ≠ Reg.clkCorrAge)] at hhold
  refine ⟨_, exec_ageingUpdate hp, ⟨hage, fun h => ?_, hloop, hhold⟩, ?_⟩
  · rw [hage]
    exact hfree h
  · exact (State.ageing_changes (Evolves.refl _ s) (Allows.mem (by decide)) (Allows.mem (by decide))).1

/-- The sensors of the crystal that read validly (R44, R522). -/
def State.xtalSensors (s : State) : List Nat := (List.range 4).filter s.tempValid

/-- With no valid sensor the crystal's error holds its value (R523). -/
theorem State.xtalUpdate_none {s : State} (h : s.xtalSensors = []) : s.xtalUpdate = s := if_pos h

/-- CLK_XTAL_TEMP holds the mean of `n` valid readings of the sum `m`, and a mean outside the table's range is flagged (R44, R45). -/
def State.xtalMeasured (s : State) (n m mean : Int) : State :=
  (s.wr Reg.clkXtalTemp (BitVec.ofNat 32 (toField 16 mean))).raiseIf (decide (m < 0 ∨ 124 * 64 * n < m)) Reg.clkFlags 1

/-- What the crystal's sensors give: the sum `m` of the `n` valid readings, and their mean. -/
def State.xtalStore (s : State) (n m mean : Int) : State :=
  ((s.xtalMeasured n m mean).wr Reg.clkCorrTemp (BitVec.ofInt 32 (- tempError (s.xtalMeasured n m mean).xtalEntry m n))).corrUpdate

theorem State.xtalUpdate_some {s : State} (h : s.xtalSensors ≠ []) {n m : Int} (hn : s.xtalSensors.length = n)
    (hm : (s.xtalSensors.map s.temp).sum = m) :
    s.xtalUpdate = s.xtalStore n m (if m % n = 0 then m / n else if Config.xtalMeanUp m then m / n + 1 else m / n) := by
  subst hn hm
  exact if_neg h

/-- Where the sum is a multiple of the number of valid sensors, their mean is the quotient. -/
theorem State.xtalUpdate_whole {s : State} {n m : Int} (hn : s.xtalSensors.length = n) (hm : (s.xtalSensors.map s.temp).sum = m * n)
    (hpos : 0 < n) : s.xtalUpdate = s.xtalStore n (m * n) m := by
  have hne : s.xtalSensors ≠ [] := fun h => by
    rw [h] at hn
    exact absurd hn (by simpa using hpos.ne)
  rw [State.xtalUpdate_some hne hn hm, if_pos (Int.mul_emod_left m n), Int.mul_ediv_cancel m hpos.ne']

theorem State.raiseIf_rd_ne (s : State) (p : Bool) {o b i : Nat} (h : i ≠ o) (h' : i ≠ o + 4) : (s.raiseIf p o b).rd i = s.rd i := by
  cases p
  · rfl
  · exact State.raise_rd_ne s h h'

theorem State.xtalEntry_congr {s t : State} (h : t.cal = s.cal) : t.xtalEntry = s.xtalEntry := by
  funext i
  simp only [State.xtalEntry, State.calRd, h]

theorem State.raiseIf_cal (s : State) (p : Bool) (o b : Nat) : (s.raiseIf p o b).cal = s.cal := by
  cases p
  · rfl
  · exact State.raise_cal s o b

theorem State.xtalMeasured_xtalEntry (s : State) (n m mean : Int) : (s.xtalMeasured n m mean).xtalEntry = s.xtalEntry :=
  State.xtalEntry_congr (State.raiseIf_cal _ _ _ _)

theorem State.xtalMeasured_rd_ne (s : State) (n m mean : Int) {o : Nat} (h : o ≠ Reg.clkXtalTemp) (h' : o ≠ Reg.clkFlags)
    (h'' : o ≠ Reg.clkFlags + 4) : (s.xtalMeasured n m mean).rd o = s.rd o := by
  rw [State.xtalMeasured, State.raiseIf_rd_ne _ _ h' h'', State.rd_wr_ne _ h]

theorem State.xtalMeasured_mean (s : State) (n m mean : Int) :
    (s.xtalMeasured n m mean).rd Reg.clkXtalTemp = BitVec.ofNat 32 (toField 16 mean) := by
  rw [State.xtalMeasured, State.raiseIf_rd_ne _ _ (by decide) (by decide), State.rd_wr_same]

theorem State.xtalMeasured_flag (s : State) {n m : Int} (mean : Int) (h : m < 0 ∨ 124 * 64 * n < m) :
    (s.xtalMeasured n m mean).rdB Reg.clkFlags 1 = true := by
  rw [State.xtalMeasured, decide_eq_true h]
  exact State.raise_rdB (s.wr Reg.clkXtalTemp _) Reg.clkFlags (State.retained_device _ (.inl (by decide))) (by decide)

theorem State.xtalMeasured_timing (s : State) (n m mean : Int) : (s.xtalMeasured n m mean).timing = s.timing := by
  rw [State.timing, State.rdF, State.xtalMeasured_rd_ne _ _ _ _ (by decide) (by decide) (by decide)]
  rfl

theorem State.xtalStore_rd_ne (s : State) (n m mean : Int) {o : Nat} (h : o ≠ Reg.clkCorr) (h' : o ≠ Reg.clkCorrTemp) :
    (s.xtalStore n m mean).rd o = (s.xtalMeasured n m mean).rd o := by
  rw [State.xtalStore, State.corrUpdate_rd_ne _ h, State.rd_wr_ne _ h']

theorem State.xtalStore_corrTemp (s : State) (n m mean : Int) :
    (s.xtalStore n m mean).rd Reg.clkCorrTemp = BitVec.ofInt 32 (- tempError s.xtalEntry m n) := by
  rw [State.xtalStore, State.corrUpdate_rd_ne _ (by decide), State.rd_wr_same, State.xtalMeasured_xtalEntry]

theorem State.xtalStore_corr {s : State} (n m mean : Int) (h : s.timing = 0) :
    (s.xtalStore n m mean).rd Reg.clkCorr = s.rd Reg.clkCorrAge + (s.xtalStore n m mean).rd Reg.clkCorrTemp := by
  have hfree : ∀ v, ((s.xtalMeasured n m mean).wr Reg.clkCorrTemp v).timing = 0 := fun v =>
    (State.timing_wr _ (by decide) v).trans ((State.xtalMeasured_timing s n m mean).trans h)
  rw [State.xtalStore_corrTemp, State.xtalStore, (State.corrUpdate_rd _).1 (hfree _), State.rd_wr_same, State.rd_wr_ne _ (by decide),
    State.xtalMeasured_rd_ne _ _ _ _ (by decide) (by decide) (by decide), State.xtalMeasured_xtalEntry]

/-- The corrections of the cells change nothing else (R463). -/
theorem State.ktUpdate_frame (s : State) : ChangesOnly [.pair Reg.calFlags, .one .cal] s s.ktUpdate :=
  (State.ktUpdate_changes (Evolves.refl _ s) (Allows.mem (by simp)) (Allows.mem (by simp))).1

theorem exec_tempCorrectionUpdate {s : State} (hp : s.powered = true) : exec .tempCorrectionUpdate s = .next s.xtalUpdate.ktUpdate :=
  congrArg Host.Outcome.next (if_pos hp)

theorem tempCorrectionUpdate_completes {s : State} (hp : s.powered = true) {n m : Int} (hn : s.xtalSensors.length = n)
    (hm : (s.xtalSensors.map s.temp).sum = m * n) (hpos : 0 < n) :
    Completes .tempCorrectionUpdate s [.one (.reg Reg.clkCorr), .one (.reg Reg.clkCorrTemp), .one (.reg Reg.clkXtalTemp),
        .pair Reg.clkFlags, .pair Reg.calFlags, .one .cal] (fun t =>
      t.rd Reg.clkXtalTemp = BitVec.ofNat 32 (toField 16 m) ∧
      t.rd Reg.clkCorrTemp = BitVec.ofInt 32 (- tempError s.xtalEntry (m * n) n) ∧
      (m < 0 ∨ 124 * 64 < m → t.rdB Reg.clkFlags 1 = true) ∧
      (s.timing = 0 → t.rd Reg.clkCorr = s.rd Reg.clkCorrAge + t.rd Reg.clkCorrTemp)) := by
  have hkt : ∀ o ∈ [Reg.clkXtalTemp, Reg.clkCorrTemp, Reg.clkFlags, Reg.clkCorr], s.xtalUpdate.ktUpdate.rd o = s.xtalUpdate.rd o := by
    intro o ho
    refine (State.ktUpdate_frame s.xtalUpdate) (.reg o) ?_
    revert o
    decide
  have hx := State.xtalUpdate_whole hn hm hpos
  refine ⟨_, exec_tempCorrectionUpdate hp, ⟨?_, ?_, fun h => ?_, fun h => ?_⟩, ?_⟩
  · rw [hkt _ (by simp), hx, State.xtalStore_rd_ne _ _ _ _ (by decide) (by decide), State.xtalMeasured_mean]
  · rw [hkt _ (by simp), hx, State.xtalStore_corrTemp]
  · rw [State.rdB, hkt _ (by simp), hx, State.xtalStore_rd_ne _ _ _ _ (by decide) (by decide)]
    exact State.xtalMeasured_flag s m
      (h.imp (fun hlow => mul_neg_of_neg_of_pos hlow hpos) (fun hhigh => mul_lt_mul_of_pos_right hhigh hpos))
  · rw [hkt _ (by simp), hkt _ (by simp), hx]
    exact State.xtalStore_corr n (m * n) m h
  · exact (State.tempUpdate_changes (Evolves.refl _ s) (Allows.mem (by simp)) (Allows.mem (by simp)) (Allows.mem (by simp))
      (Allows.mem (by simp)) (Allows.mem (by simp)) (Allows.mem (by simp))).1

/-! ### The timing states of a follower (R58 to R60) -/

theorem followerLock_completes {s : State} (offset : W32) (h : s.timing = 1) :
    Completes (.followerLock offset) s [.one (.reg Reg.clkCorr), .one (.reg Reg.clkStatus), .one .cwy] (fun t =>
      t.timing = 2 ∧ t.rd Reg.clkCorr = offset ∧ t.cwy.slewing = false) := by
  have he : s.followerLock offset = ((s.putCwy { s.cwy with slewing := false }).wrF Reg.clkStatus 1 0 2).wr Reg.clkCorr offset := if_pos h
  refine ⟨s.followerLock offset, rfl, ?_, ?_⟩
  · rw [he]
    refine ⟨?_, State.rd_wr_same _ _ _, rfl⟩
    exact (State.timing_wr _ (by decide) offset).trans (State.rdF_wrF_same _ _ _ (by decide) (by decide))
  · exact (State.followerLock_changes offset (Evolves.refl _ s) (Allows.mem (by simp)) (Allows.mem (by simp)) (Allows.mem (by simp))).1

/-- The state of a follower in HOLDOVER, before its event (R59). -/
def State.heldOver (s : State) (offset : W32) : State :=
  (((s.putClk { s.clk with holdTemp := s.rd Reg.clkCorrTemp, holdBase := offset }).wrF Reg.clkStatus 1 0 3).wr Reg.clkCorr offset).raise
    Reg.clkFlags 0

theorem State.holdover_eq {s : State} (offset : W32) (h : s.timing = 1 ∨ s.timing = 2) :
    s.holdover offset = (s.heldOver offset).post 304 0x38 (BitVec.ofNat 128 s.timing) := if_pos h

theorem State.heldOver_frame (s : State) (offset : W32) :
    ChangesOnly [.pair Reg.clkFlags, .one (.reg Reg.clkCorr), .one (.reg Reg.clkStatus), .one .clk] s (s.heldOver offset) :=
  (State.raise_changes _ _ (State.wr_changes _ _ (State.wrF_changes _ _ _ _ (State.putClk_changes _ (Evolves.refl _ s) (Allows.mem (by simp)))
    (Allows.mem (by simp))) (Allows.mem (by simp))) (Allows.mem (by simp))).1

theorem State.heldOver_rd (s : State) (offset : W32) :
    (s.heldOver offset).timing = 3 ∧ (s.heldOver offset).rdB Reg.clkFlags 0 = true ∧ (s.heldOver offset).rd Reg.clkCorr = offset := by
  refine ⟨?_, State.raise_rdB _ _ (State.retained_device _ (.inl (by decide))) (by decide), ?_⟩
  · rw [State.timing, State.rdF, State.heldOver, State.raise_rd_ne _ (by decide) (by decide)]
    exact (State.timing_wr _ (by decide) offset).trans (State.rdF_wrF_same _ _ _ (by decide) (by decide))
  · rw [State.heldOver, State.raise_rd_ne _ (by decide) (by decide), State.rd_wr_same]

theorem holdoverEntry_completes {s : State} (offset : W32) (h : s.timing = 1 ∨ s.timing = 2) :
    Completes (.holdoverEntry offset) s [.events, .pair Reg.clkFlags, .one (.reg Reg.clkCorr), .one (.reg Reg.clkStatus), .one .clk] (fun t =>
      t.timing = 3 ∧ t.rdB Reg.clkFlags 0 = true ∧ t.rd Reg.clkCorr = offset ∧
      Posted s t [.pair Reg.clkFlags, .one (.reg Reg.clkCorr), .one (.reg Reg.clkStatus), .one .clk] 304 0x38 (BitVec.ofNat 128 s.timing)) := by
  obtain ⟨htiming, hflag, hcorr⟩ := State.heldOver_rd s offset
  refine ⟨s.holdover offset, rfl, ?_, ?_⟩
  · rw [State.holdover_eq offset h]
    refine ⟨?_, ?_, ?_, s.heldOver offset, rfl, State.heldOver_frame s offset⟩
    · rwa [State.timing, State.rdF, State.post_rd _ _ _ _ (by decide)]
    · rwa [State.rdB, State.post_rd _ _ _ _ (by decide)]
    · rwa [State.post_rd _ _ _ _ (by decide)]
  · exact (State.holdover_changes offset (Evolves.refl _ s) (Allows.mem (by simp)) (Allows.mem (by simp)) (Allows.mem (by simp))
      (Allows.mem (by simp)) (Allows.mem (by simp))).1

theorem holdoverReturn_completes {s : State} (h : s.timing = 3) :
    Completes .holdoverReturn s [.one (.reg Reg.clkStatus)] (fun t => t.timing = 1) := by
  refine ⟨s.holdoverReturn, rfl, ?_, (State.holdoverReturn_changes (Evolves.refl _ s) (Allows.mem (by simp))).1⟩
  rw [show s.holdoverReturn = s.wrF Reg.clkStatus 1 0 1 from if_pos h]
  exact State.rdF_wrF_same _ _ _ (by decide) (by decide)

/-- Settles O9: one lemma for each of the five commands. -/
theorem correctionsAndTimingStates : Obligations.CorrectionsAndTimingStates := by
  refine ⟨fun s hp => ⟨ageingUpdate_completes hp, fun n m hn hm hpos => tempCorrectionUpdate_completes hp hn hm hpos, fun hnone => ?_⟩,
    fun s offset => ⟨followerLock_completes offset, holdoverEntry_completes offset, holdoverReturn_completes⟩⟩
  refine ⟨s.ktUpdate, ?_, trivial, State.ktUpdate_frame s⟩
  rw [exec_tempCorrectionUpdate hp, State.xtalUpdate_none hnone]

end Sys2Proof.Machine

/-! Full resets, power failing and the supplies (R69, R108, R495, R501 to R503, R510, R515 to R517). -/

namespace Sys2Proof.Machine

/-! ### Parts outside a footprint -/

/-- An entry of a footprint is not needed where its part holds the same. -/
theorem ChangesOnly.drop_part {K : List Foot} {s t : State} {q : Part} (h : ChangesOnly (.one q :: K) s t) (hq : q.same s t) :
    ChangesOnly K s t := by
  intro p hp
  by_cases hpq : p = q
  · exact hpq ▸ hq
  · refine h p (fun k hk => ?_)
    obtain rfl | hk := List.mem_cons.mp hk
    · simpa [Foot.covers] using Ne.symm hpq
    · exact hp k hk

/-- The pending bits of the vectors are registers. -/
theorem Allows.vectorOfAll {K : List Foot} (hr : Allows K .allRegs) (hv : Allows K (.one .vectors)) : Allows K .vector := by
  intro p hp
  cases p with
  | reg o => exact hr (.reg o) rfl
  | vectors => exact hv .vectors rfl
  | _ => cases hp

theorem State.rdF_lt (s : State) (o m l : Nat) : s.rdF o m l < 2 ^ (m + 1 - l) := Nat.mod_lt _ (Nat.two_pow_pos _)

/-- What the recorder's flushes and records change is inside what an event can change (R477, R484). -/
theorem State.evrFlush_events {K : List Foot} {s x : State} (h : Evolves K s x) (hk : Allows K .events) : Evolves K s x.evrFlush :=
  State.evrFlush_changes h hk.evrLogOfEvents hk.logOfEvents hk.evrOfEvents hk.evrLogBseqOfEvents hk.evrCommitOfEvents hk.evrPairOfEvents
    hk.vectorOfEvents hk.evrStatusOfEvents hk.evrDropOfEvents

theorem State.evrPowerFail_events {K : List Foot} {s x : State} (h : Evolves K s x) (hk : Allows K .events) :
    Evolves K s x.evrPowerFail :=
  State.evrPowerFail_changes h hk.evrLogOfEvents hk.logOfEvents hk.evrOfEvents hk.evrLogBseqOfEvents hk.evrCommitOfEvents
    hk.evrPairOfEvents hk.vectorOfEvents hk.evrStatusOfEvents hk.evrDropOfEvents

/-! ### The state after a full reset (R501 to R503) -/

/-- A table without the entries of a key reads there as its default. -/
theorem Tbl.get_filter_none {α : Type} (d : Nat → α) (p : Nat × α → Bool) (k : Nat) (hp : ∀ v, p (k, v) = false) (t : Tbl α) :
    Tbl.get d (List.filter p t) k = d k := by
  induction t with
  | nil => rfl
  | cons e t ih =>
    cases hpe : p e with
    | false => rw [List.filter_cons_of_neg (by simp [hpe]), ih]
    | true =>
      have hne : e.1 ≠ k := fun he => by
        have := hp e.2
        rw [← he, hpe] at this
        cases this
      rw [List.filter_cons_of_pos hpe, Tbl.get, if_neg hne, ih]

/-- After a full reset a register reads its reset value, but HST_STATUS, PWR_STATUS and the lines that a warm reset keeps. -/
theorem State.volatileReset_rd (s : State) (warm link : Bool) {o : Nat} (hs : o ≠ Reg.hstStatus) (hp : o ≠ Reg.pwrStatus)
    (hk : warm = true → keptReg o = false) : (s.volatileReset warm link).rd o = resetWord o := by
  unfold State.volatileReset
  rw [State.rd_wrF_ne _ hp, State.rd_wrF_ne _ hs]
  cases warm with
  | false => rfl
  | true => exact Tbl.get_filter_none resetWord _ o (fun _ => hk rfl) s.regs

/-- The supplies' bits stand through a full reset. -/
theorem State.volatileReset_supplies (s : State) (warm link : Bool) :
    (s.volatileReset warm link).rdF Reg.pwrStatus 3 0 = s.rdF Reg.pwrStatus 3 0 := by
  unfold State.volatileReset
  rw [State.rdF_wrF_same _ _ _ (by decide) (by decide)]
  exact Nat.mod_eq_of_lt (State.rdF_lt s Reg.pwrStatus 3 0)

theorem State.volatileReset_clk (s : State) (warm link : Bool) :
    (s.volatileReset warm link).clk = { s.clk with epochSet := none, epochZero := true, holdTemp := 0, holdBase := 0 } := rfl

/-! ### The power-fail warning (R515, R516) -/

/-- The state whose recorder has written PWR_WARN and its queue, where it has started (R484). -/
def State.pwrWarned (s : State) : State := if s.evr.started then s.evrPowerFail else s

theorem State.pwrWarned_frame (s : State) : ChangesOnly [.events] s s.pwrWarned :=
  (Evolves.ite (fun _ => State.evrPowerFail_events (Evolves.refl _ s) (Allows.mem List.mem_cons_self)) (fun _ => Evolves.refl _ s)).1

/-- The state after the records and the checkpoint of R69. -/
def State.powerSaved (s : State) : State := s.pwrWarned.persistWrite 1

theorem State.powerSaved_frame (s : State) : ChangesOnly [.events, .flashes, .one .flashPort] s s.powerSaved :=
  (ChangesOnly.mono s.pwrWarned_frame (fun _ hk => Allows.mem (List.mem_cons.mpr (.inl (List.mem_singleton.mp hk))))).trans
    (State.persistWrite_changes 1 (Evolves.refl _ _) (Allows.mem (by simp)) (Allows.mem (by simp))).1

theorem State.powerSaved_clk (s : State) : s.powerSaved.clk = s.clk := s.powerSaved_frame .clk (by decide)

theorem State.powerSaved_supplies (s : State) : s.powerSaved.rdF Reg.pwrStatus 3 0 = s.rdF Reg.pwrStatus 3 0 :=
  congrArg (fun v => fieldOf v 3 0) (s.powerSaved_frame (.reg Reg.pwrStatus) (by decide))

/-- A place of the persistent area is outside what the recorder writes: once P3 has scanned it, only a write of the area moves its next
entry (R99, R100). -/
theorem State.pwrWarned_entryIndex {s : State} (h : s.nvm.scanned = true ∨ s.evr.started = false) :
    s.pwrWarned.entryIndex = s.entryIndex := by
  rcases h with h | h
  · obtain ⟨hpersist, -, hscanned, -⟩ := s.pwrWarned_frame .flashPort (by decide)
    simp only [State.entryIndex, hpersist, hscanned, h, if_true]
  · rw [State.pwrWarned, if_neg (by simp [h])]

/-- The checkpoint that a power failure leaves in the flash (R69). -/
theorem State.powerSaved_entry {s : State} (hflash : s.nvm.noFlash = false) (h : s.nvm.scanned = true ∨ s.evr.started = false) :
    s.powerSaved.flashRd (32 * s.entryIndex) 32 = persistEntry 1 s.clk.pcycle.toNat s.clk.optime.toNat := by
  obtain ⟨-, -, -, hno⟩ := s.pwrWarned_frame .flashPort (by decide)
  have hclk : s.pwrWarned.clk = s.clk := s.pwrWarned_frame .clk (by decide)
  have hentry := (State.persistWrite_entry (s := s.pwrWarned) 1 (hno.trans hflash)).1
  rwa [State.pwrWarned_entryIndex h, hclk] at hentry

/-- The registers of a failing module: all reset but the ball of PFW_N and the mark of self-refresh. -/
def State.powerFailed (s : State) : State :=
  ((s.powerSaved.volatileReset false false).wrB Reg.pwrStatus 4 true).wrB Reg.memStatus 3 true

theorem State.pfwAssert_eq {s : State} (hoff : s.boot.stage ≠ .off) (hpf : s.boot.stage ≠ .powerFail) :
    s.pfwAssert = (s.powerFailed.putBoot { s.powerFailed.boot with stage := .powerFail, cold := true }).putPwr
      { s.powerFailed.pwr with pfwLow := true } := if_neg (by simp [hoff, hpf])

theorem State.powerFailed_rd (s : State) {o : Nat} (hs : o ≠ Reg.hstStatus) (hp : o ≠ Reg.pwrStatus) (hm : o ≠ Reg.memStatus) :
    s.powerFailed.rd o = resetWord o := by
  rw [State.powerFailed, State.rd_wrB_ne _ hm, State.rd_wrB_ne _ hp, State.volatileReset_rd _ _ _ hs hp (by simp)]

theorem State.powerFailed_status (s : State) :
    s.powerFailed.rdB Reg.pwrStatus 4 = true ∧ s.powerFailed.rdF Reg.pwrStatus 3 0 = s.rdF Reg.pwrStatus 3 0 ∧
      s.powerFailed.rdB Reg.memStatus 3 = true := by
  refine ⟨?_, ?_, State.rdB_wrB_same _ _ _ (by decide)⟩
  · rw [State.powerFailed, State.rdB_wrB_off _ (by decide), State.rdB_wrB_same _ _ _ (by decide)]
  · rw [State.powerFailed, State.rdF_wrB_off _ (by decide), State.rdF_wrB_ne _ _ _ (by decide) (.inl (by decide)),
      State.volatileReset_supplies, State.powerSaved_supplies]

theorem State.powerFailed_clk (s : State) :
    s.powerFailed.clk = { s.clk with epochSet := none, epochZero := true, holdTemp := 0, holdBase := 0 } := by
  change (s.powerSaved.volatileReset false false).clk = _
  rw [State.volatileReset_clk, State.powerSaved_clk]

/-- Host memory is the host's own: a full reset leaves it. -/
theorem State.powerFailed_hostMem (s : State) : s.powerFailed.hst.hostMem = s.hst.hostMem :=
  s.powerSaved_frame .hostMem (by decide)

theorem State.pfwAssert_frame {s : State} (hoff : s.boot.stage ≠ .off) (hpf : s.boot.stage ≠ .powerFail) :
    ChangesOnly (.flashes :: volatileFoot) s s.pfwAssert := by
  have hall : Evolves (.one .hostMem :: .flashes :: volatileFoot) s s.pfwAssert := by
    apply execPfwNAssert_changes rfl
    case a26 => exact Allows.vectorOfAll (Allows.mem (by decide)) (Allows.mem (by decide))
    all_goals exact Allows.mem (by decide)
  refine hall.1.drop_part ?_
  rw [State.pfwAssert_eq hoff hpf]
  exact s.powerFailed_hostMem

theorem pfwNAssert_completes {s : State} (hoff : s.boot.stage ≠ .off) (hpf : s.boot.stage ≠ .powerFail) :
    Completes .pfwNAssert s (.flashes :: volatileFoot) (fun t =>
      t.boot.stage = .powerFail ∧ t.boot.cold = true ∧ t.pwr.pfwLow = true ∧ t.pwr.shedEnded = false ∧
      t.rdB Reg.pwrStatus 4 = true ∧ t.rdF Reg.pwrStatus 3 0 = s.rdF Reg.pwrStatus 3 0 ∧ t.rdB Reg.memStatus 3 = true ∧
      (∀ off, off ≠ Reg.hstStatus → off ≠ Reg.pwrStatus → off ≠ Reg.memStatus → t.rd off = resetWord off) ∧
      t.clk.optime = s.clk.optime ∧ t.clk.pcycle = s.clk.pcycle ∧ t.hst.fetched = [] ∧ t.hst.fg = none ∧ t.hst.bg = [] ∧
      t.seqs = [] ∧ t.lanes = [] ∧ t.clus = [] ∧ t.chans = [] ∧ t.plan = planReset ∧ t.snd = sndReset ∧ t.cwy = cwyReset ∧
      (s.nvm.noFlash = false → s.nvm.scanned = true ∨ s.evr.started = false →
        t.flashRd (32 * s.entryIndex) 32 = persistEntry 1 s.clk.pcycle.toNat s.clk.optime.toNat)) := by
  refine ⟨s.pfwAssert, rfl, ?_, State.pfwAssert_frame hoff hpf⟩
  obtain ⟨hpfw, hsupplies, hself⟩ := s.powerFailed_status
  rw [State.pfwAssert_eq hoff hpf]
  refine ⟨rfl, rfl, rfl, rfl, hpfw, hsupplies, hself, fun o hs hp hm => s.powerFailed_rd hs hp hm, ?_, ?_, rfl, rfl, rfl, rfl, rfl, rfl, rfl,
    rfl, rfl, rfl, fun hflash h => State.powerSaved_entry hflash h⟩
  · change s.powerFailed.clk.optime = _
    rw [State.powerFailed_clk]
  · change s.powerFailed.clk.pcycle = _
    rw [State.powerFailed_clk]

theorem pfwShedEnd_completes {s : State} (hpf : s.boot.stage = .powerFail) (hlow : s.pwr.pfwLow = true) :
    Completes .pfwShedEnd s [.one .pwr, .one (.reg Reg.pwrStatus)] (fun t =>
      t.pwr = { s.pwr with pfwLow := false, shedEnded := true } ∧ t.rdB Reg.pwrStatus 4 = false ∧
      ∀ b, b < 32 → b ≠ 4 → t.rdB Reg.pwrStatus b = s.rdB Reg.pwrStatus b) := by
  have he : s.pfwRelease = (s.putPwr { s.pwr with pfwLow := false, shedEnded := true }).wrB Reg.pwrStatus 4 false := if_pos ⟨hpf, hlow⟩
  refine ⟨s.pfwRelease, rfl, ?_, (execPfwShedEnd_changes rfl (Allows.mem (by decide)) (Allows.mem (by decide))).1⟩
  rw [he]
  exact ⟨rfl, State.rdB_wrB_same _ _ _ (by decide), fun b _ hb => State.rdB_wrB_ne _ _ _ (by decide) hb⟩

/-! ### The loss of power (R517) -/

theorem State.powerDown_rd (s : State) (o : Nat) : s.powerDown.rd o = resetWord o := rfl

theorem vinPowerDown_completes (s : State) :
    Completes .vinPowerDown s volatileFoot (fun t =>
      t.boot.stage = .off ∧ t.boot.cold = true ∧ t.boot.sealed = false ∧ (∀ off, t.rd off = resetWord off) ∧ (∀ a, t.dramAt a = 0) ∧
      t.clk.epoch = 0 ∧ t.clk.optime = 0 ∧ t.clk.pcycle = 0 ∧ t.evr = evrReset ∧ t.hst.fetched = [] ∧ t.hst.fg = none ∧ t.hst.bg = [] ∧
      t.seqs = [] ∧ t.lanes = [] ∧ t.clus = [] ∧ t.chans = [] ∧ t.plan = planReset ∧ t.snd = sndReset ∧ t.cwy = cwyReset ∧
      t.nvm.up = false ∧ t.nvm.scanned = false) := by
  have hall : Evolves (.one .hostMem :: volatileFoot) s s.powerDown := by
    apply execVinPowerDown_changes rfl <;> exact Allows.mem (by decide)
  exact ⟨s.powerDown, rfl, ⟨rfl, rfl, rfl, s.powerDown_rd, fun _ => rfl, rfl, rfl, rfl, rfl, rfl, rfl, rfl, rfl, rfl, rfl, rfl, rfl, rfl, rfl, rfl,
    rfl⟩, hall.1.drop_part rfl⟩

/-! ### Supplies and heartbeat (R495, R510) -/

theorem State.phase_wrF_pwrStatus (s : State) (m l x : Nat) : (s.wrF Reg.pwrStatus m l x).phase = s.phase :=
  State.rdF_wrF_off s (by decide) m l x 7 4

theorem State.suppliesOk_eq {s : State} (h : s.boot.stage = .booting) :
    s.suppliesOk = if s.phase = 0 then (s.wrF Reg.pwrStatus 3 1 7).setPhase 1 else s.wrF Reg.pwrStatus 3 1 7 := by
  rw [State.suppliesOk, if_pos h]
  simp only [State.phase_wrF_pwrStatus]

theorem suppliesInRange_completes {s : State} (h : s.boot.stage = .booting) :
    Completes .suppliesInRange s [.one (.reg Reg.pwrStatus), .one (.reg Reg.bootStatus)] (fun t =>
      t.rdF Reg.pwrStatus 3 1 = 7 ∧ t.phase = (if s.phase = 0 then 1 else s.phase)) := by
  have hok : (s.wrF Reg.pwrStatus 3 1 7).rdF Reg.pwrStatus 3 1 = 7 := State.rdF_wrF_same _ _ _ (by decide) (by decide)
  refine ⟨s.suppliesOk, rfl, ?_, (execSuppliesInRange_changes rfl (Allows.mem (by decide)) (Allows.mem (by decide))).1⟩
  rw [State.suppliesOk_eq h]
  split
  · exact ⟨(State.rdF_wrF_off _ (by decide) _ _ _ _ _).trans hok, State.rdF_wrF_same _ _ _ (by decide) (by decide)⟩
  · exact ⟨hok, State.phase_wrF_pwrStatus s 3 1 7⟩

theorem mgtHeartbeat_completes (s : State) : Completes .mgtHeartbeat s [.one .boot] (fun t => t.boot = { s.boot with mgtAge := 0 }) :=
  ⟨s.heartbeat, rfl, rfl, (execMgtHeartbeat_changes rfl (Allows.mem (by decide))).1⟩

end Sys2Proof.Machine

/-! The safe state: WEDGE (R146, R497 to R499). -/

namespace Sys2Proof.Machine

/-! ### The tables of lanes and clusters

What the recorder, the completions and the links do leaves these two tables as they are, and with them the form they are in. -/

/-- The lanes and the clusters of a state. -/
def State.engines (s : State) : Tbl Lane × Tbl Clu := (s.lanes, s.clus)

theorem foldl_engines {α : Type} (f : State → α → State) (hf : ∀ t a, (f t a).engines = t.engines) (l : List α) (s : State) :
    (l.foldl f s).engines = s.engines := by
  induction l generalizing s with
  | nil => rfl
  | cons a l ih => exact (ih (f s a)).trans (hf s a)

@[simp] theorem State.wr_engines (s : State) (o : Nat) (v : W32) : (s.wr o v).engines = s.engines := rfl

@[simp] theorem State.wrF_engines (s : State) (o m l v : Nat) : (s.wrF o m l v).engines = s.engines := rfl

@[simp] theorem State.wrB_engines (s : State) (o b : Nat) (v : Bool) : (s.wrB o b v).engines = s.engines := rfl

@[simp] theorem State.count_engines (s : State) (o n : Nat) : (s.count o n).engines = s.engines := rfl

@[simp] theorem State.raise_engines (s : State) (o b : Nat) : (s.raise o b).engines = s.engines := by
  unfold State.raise
  split <;> rfl

@[simp] theorem State.pendVector_engines (s : State) (v : Nat) : (s.pendVector v).engines = s.engines := by
  simp only [State.pendVector]
  split_ifs <;> rfl

@[simp] theorem State.route_engines (s : State) (src : Nat) : (s.route src).engines = s.engines := by
  simp only [State.route]
  split
  · exact s.pendVector_engines _
  · rfl

@[simp] theorem State.complete_engines (s : State) (c : Cmd) (status detail result : Nat) :
    (s.complete c status detail result).engines = s.engines := by
  simp only [State.complete]
  split
  · rfl
  · rw [State.pendVector_engines]; rfl

/-! #### The recorder -/

@[simp] theorem State.ringPut_engines (s : State) (r : EvRec) : (s.ringPut r).engines = s.engines := rfl

@[simp] theorem State.enqueueRec_engines (s : State) (r : EvRec) : (s.enqueueRec r).engines = s.engines := rfl

@[simp] theorem State.evrOpenBit_engines (s : State) : s.evrOpenBit.engines = s.engines := rfl

@[simp] theorem State.openBlock_engines (s : State) (b : Nat) : (s.openBlock b).engines = s.engines := rfl

/-- A place for the next record, with a new block where none is open. -/
theorem State.openIf_engines (s : State) (b : Nat) (p : Prop) [Decidable p] :
    (if p then s.openBlock b else s).engines = s.engines := by
  split <;> rfl

@[simp] theorem State.writeLog_engines (s : State) (r : EvRec) : (s.writeLog r).engines = s.engines := by
  simp only [State.writeLog]
  split
  · rfl
  · exact s.openIf_engines _ _

@[simp] theorem State.writerTake_engines (s : State) : s.writerTake.engines = s.engines := by
  simp only [State.writerTake]
  split_ifs
  · rfl
  · exact foldl_engines _ State.ringPut_engines _ _
  · rfl
  · exact foldl_engines _ State.ringPut_engines _ _
  · exact foldl_engines _ State.ringPut_engines _ _

@[simp] theorem State.overflowEnter_engines (s : State) : s.overflowEnter.engines = s.engines := by
  simp only [State.overflowEnter]
  split
  · rfl
  · exact (State.raise_engines _ _ _).trans (State.route_engines _ _)

@[simp] theorem State.pump_engines (s : State) : s.pump.engines = s.engines := by simp [State.pump]

@[simp] theorem State.closeInto_engines (s : State) (r : EvRec) : (s.closeInto r).engines = s.engines := by
  simp only [State.closeInto]
  split
  · simp
  · exact s.pump_engines

@[simp] theorem State.closeOpen_engines (s : State) : s.closeOpen.engines = s.engines := by
  simp only [State.closeOpen]
  split
  · rfl
  · exact State.closeInto_engines _ _

@[simp] theorem State.recordNow_engines (s : State) (src code : Nat) (data : BitVec 128) :
    (s.recordNow src code data).engines = s.engines := by
  simp only [State.recordNow]
  split
  · split_ifs
    · exact State.closeOpen_engines _
    · rfl
    · exact (State.closeInto_engines _ _).trans s.closeOpen_engines
    · exact s.closeOpen_engines
  · split
    · exact State.closeInto_engines _ _
    · rfl

@[simp] theorem State.post_engines (s : State) (src code : Nat) (data : BitVec 128) : (s.post src code data).engines = s.engines := by
  simp only [State.post]
  split_ifs
  · exact (State.recordNow_engines _ _ _ _).trans (s.route_engines src)
  · exact s.route_engines src
  · exact s.route_engines src
  · exact s.route_engines src

@[simp] theorem State.evrFlush_engines (s : State) : s.evrFlush.engines = s.engines :=
  calc s.evrFlush.engines = s.closeOpen.programEnd.overflowEnter.engines :=
        foldl_engines _ (fun t r => (State.writeLog_engines _ r).trans (t.ringPut_engines r)) _ _
    _ = s.closeOpen.programEnd.engines := State.overflowEnter_engines _
    _ = s.closeOpen.engines := foldl_engines _ State.writeLog_engines _ _
    _ = s.engines := s.closeOpen_engines

/-! #### Links and pads -/

@[simp] theorem State.modPort_engines (s : State) (p : Port) (f : PortSt → PortSt) : (s.modPort p f).engines = s.engines := by
  cases p <;> rfl

@[simp] theorem State.portDown_engines (s : State) (p : Port) : (s.portDown p).engines = s.engines := by
  change ((((s.setPort p 1).bufferFree _ _).modPort p _)).engines = s.engines
  simp [State.bufferFree, State.setPort]

@[simp] theorem State.modChan_engines (s : State) (n : Nat) (f : Chan → Chan) : (s.modChan n f).engines = s.engines := rfl

@[simp] theorem State.watchLost_engines (s : State) (n : Nat) : (s.watchLost n).engines = s.engines := by
  simp only [State.watchLost]
  split <;> rfl

@[simp] theorem State.parkPad_engines (s : State) (n : Nat) : (s.parkPad n).engines = s.engines := by
  simp [State.parkPad]

/-! ### The engines stop (R498) -/

/-- The state whose engines stand still, with their status registers as they were. -/
def State.halt (s : State) : State :=
  { s with
    seqs := s.seqs.filterMap (fun e => if e.2.halted = seqReset then none else some (e.1, e.2.halted)), lanes := [], clus := [],
    chans := s.chans.filterMap (fun e => if e.2.warm = chanReset then none else some (e.1, e.2.warm)),
    plan := { planReset with slots := s.plan.slots, lens := s.plan.lens },
    snd := sndReset, cwy := cwyReset, cal := { s.cal with run := none, storeStep := 0 }, mem := { s.mem with march := none, held := [] } }

/-- The status registers of engines that stand still. -/
def State.idleStatus (s : State) : State :=
  let s2 := ((((s.wrF Reg.plnState 19 17 0).wrB Reg.sndStatus 0 false).wrF Reg.sndStatus 18 16 0).wrF Reg.calStatus 18 16 0).wrF Reg.memStatus 2 0 0
  let s3 := (List.range 512).foldl (fun t n => (t.parkPad n).wrF (chOff n Reg.tiaStatus) 2 0 0) s2
  (List.range 32).foldl (fun t c => (t.wrF (cluOff c Reg.acqStatus) 2 0 0).wrB (cluOff c Reg.ddsStatus) 0 false) s3

theorem State.stopEngines_eq (s : State) : s.stopEngines = s.halt.idleStatus := rfl

def idleFoot : List Foot :=
  [.one (.reg Reg.plnState), .one (.reg Reg.sndStatus), .one (.reg Reg.calStatus), .one (.reg Reg.memStatus), .chans, .chReg Reg.pmuStatus,
    .chReg Reg.peStatus, .chReg Reg.tiaStatus, .cluReg Reg.acqStatus, .cluReg Reg.ddsStatus]

theorem State.idleStatus_frame (s : State) : ChangesOnly idleFoot s s.idleStatus := by
  have hall : ∀ k ∈ idleFoot, Allows idleFoot k := fun k hk => Allows.mem hk
  have hchan : ∀ n, Allows idleFoot (.one (.chan n)) := fun n => (hall .chans (by decide)).chanOf
  have hch : ∀ o n, Foot.chReg o ∈ idleFoot → o < 0x1000 → Allows idleFoot (.one (.reg (chOff n o))) :=
    fun o n hk ho => (hall _ hk).ofCh ho
  have hclu : ∀ o c, Foot.cluReg o ∈ idleFoot → o < 0x20000 → Allows idleFoot (.one (.reg (cluOff c o))) :=
    fun o c hk ho => (hall _ hk).ofClu ho
  refine (Evolves.foldl (fun t c h => ?_) (Evolves.foldl (fun t n h => ?_) ?_)).1
  · exact State.wrB_changes _ _ _ (State.wrF_changes _ _ _ _ h (hclu _ _ (by decide) (by decide))) (hclu _ _ (by decide) (by decide))
  · exact State.wrF_changes _ _ _ _ (State.parkPad_changes n h (hchan n) (hch _ _ (by decide) (by decide)) (hch _ _ (by decide) (by decide))
      (hchan (n + 1))) (hch _ _ (by decide) (by decide))
  · have h0 := Evolves.refl idleFoot s
    have h1 := State.wrF_changes Reg.plnState 19 17 0 h0 (hall _ (by decide))
    have h2 := State.wrB_changes Reg.sndStatus 0 false h1 (hall _ (by decide))
    have h3 := State.wrF_changes Reg.sndStatus 18 16 0 h2 (hall _ (by decide))
    have h4 := State.wrF_changes Reg.calStatus 18 16 0 h3 (hall _ (by decide))
    exact State.wrF_changes Reg.memStatus 2 0 0 h4 (hall _ (by decide))

theorem State.idleStatus_engines (s : State) : s.idleStatus.engines = s.engines := by
  simp only [State.idleStatus]
  rw [foldl_engines _ (fun t c => by simp), foldl_engines _ (fun t n => by simp)]
  simp

/-- A table that is canonical, with each entry passed through `f`, reads as `f` of what it read. -/
theorem Tbl.get_filterMap {α : Type} [DecidableEq α] (f : α → α) (d : α) (hf : f d = d) {t : Tbl α} (h : Tbl.wf (fun _ => d) t = true)
    (k : Nat) : Tbl.get (fun _ => d) (t.filterMap (fun e => if f e.2 = d then none else some (e.1, f e.2))) k =
      f (Tbl.get (fun _ => d) t k) := by
  induction t with
  | nil => exact hf.symm
  | cons e t ih =>
    obtain ⟨j, w⟩ := e
    simp only [Tbl.wf, Bool.and_eq_true, decide_eq_true_eq] at h
    obtain ⟨⟨-, habove⟩, hwf⟩ := h
    by_cases hw : f w = d
    · rw [List.filterMap_cons, if_pos hw, ih hwf]
      by_cases hjk : j = k
      · rw [Tbl.get_above (fun _ => d) habove hjk.ge, Tbl.get, if_pos hjk, hf, hw]
      · rw [Tbl.get, if_neg hjk]
    · rw [List.filterMap_cons, if_neg hw, Tbl.get, Tbl.get]
      split
      · rfl
      · exact ih hwf

/-- A sequencer that has stopped on a fault keeps what it shows; every other one is reset (R146). -/
theorem State.halt_seq {s : State} (h : Tbl.wf (fun _ => seqReset) s.seqs = true) (q : Nat) :
    s.halt.seq q = if (s.seq q).st = 4 then s.seq q else seqReset :=
  Tbl.get_filterMap Seq.halted seqReset rfl h q

theorem State.canonical_seqs {s : State} (h : s.canonical = true) : Tbl.wf (fun _ => seqReset) s.seqs = true := by
  simp only [State.canonical, Bool.and_eq_true] at h
  obtain ⟨⟨⟨⟨⟨-, hseqs⟩, -⟩, -⟩, -⟩, -⟩ := h
  exact hseqs

/-! ### The safe state (R498, R499) -/

/-- The links down, the module in the safe state and its commands completed with BUSY. -/
def State.secured (s : State) : State :=
  let s1 := s.wrF Reg.bootRewrite 1 0 0
  let s2 := [Port.up, Port.dn].foldl (fun t p => if t.portState p = 0 then t else t.portDown p) s1
  (s2.putBoot { s2.boot with stage := .safe }).busyAll

theorem State.safeState_eq (s : State) : s.safeState = (s.halt.idleStatus.wrB Reg.memStatus 3 true).secured := by
  rw [← State.stopEngines_eq]
  rfl

theorem State.busyAll_engines (s : State) : s.busyAll.engines = s.engines :=
  foldl_engines (fun t c => t.complete c St.busy 0 0) (fun t c => t.complete_engines c _ _ _) _ _

theorem State.secured_engines (s : State) : s.secured.engines = s.engines := by
  refine (State.busyAll_engines _).trans (foldl_engines _ (fun t p => ?_) _ (s.wrF Reg.bootRewrite 1 0 0))
  split
  · rfl
  · exact t.portDown_engines p

def securedFoot : List Foot :=
  [.one (.reg Reg.bootRewrite), .one .cwy, .one (.reg Reg.cwyStatus), .one .boot, .completion]

theorem State.secured_frame (s : State) : ChangesOnly securedFoot s s.secured := by
  have hall : ∀ k ∈ securedFoot, Allows securedFoot k := fun k hk => Allows.mem hk
  refine (State.busyAll_changes (State.putBoot_changes _ (Evolves.foldl (fun t p h => ?_) ?_) (hall _ (by decide))) (hall _ (by decide))).1
  · exact Evolves.ite (fun _ => h) (fun _ => State.portDown_changes p h (hall _ (by decide)) (hall _ (by decide)))
  · exact State.wrF_changes _ _ _ _ (Evolves.refl _ _) (hall _ (by decide))

theorem State.secured_stage (s : State) : s.secured.boot.stage = .safe :=
  congrArg Boot.stage ((State.busyAll_changes (Evolves.refl [.completion] _) (Allows.mem (by decide))).1 .boot (by decide))

/-- No command waits or runs after all have completed with BUSY. -/
theorem State.busyAll_commands (s : State) : s.busyAll.hst.fetched = [] ∧ s.busyAll.hst.fg = none ∧ s.busyAll.hst.bg = [] := by
  have hfold : ∀ (l : List Cmd) (t : State), t.hst.fetched = [] → t.hst.fg = none → t.hst.bg = [] →
      (l.foldl (fun t c => t.complete c St.busy 0 0) t).hst.fetched = [] ∧ (l.foldl (fun t c => t.complete c St.busy 0 0) t).hst.fg = none ∧
        (l.foldl (fun t c => t.complete c St.busy 0 0) t).hst.bg = [] := by
    intro l
    induction l with
    | nil => exact fun t hf hg hb => ⟨hf, hg, hb⟩
    | cons c l ih =>
      intro t hf hg hb
      obtain ⟨hfg, hbg, hfetched⟩ := t.complete_commands c St.busy 0 0
      exact ih _ (hfetched.trans hf) (hfg.trans hg) (hbg.trans hb)
  exact hfold _ _ rfl rfl rfl

/-- What stands in the safe state. -/
structure State.Stands (s t : State) : Prop where
  stage : t.boot.stage = .safe
  commands : t.hst.fetched = [] ∧ t.hst.fg = none ∧ t.hst.bg = []
  seqs : ∀ q : SeqId, t.seq q = s.halt.seq q
  engines : t.engines = ([], [])
  snd : t.snd = sndReset
  run : t.cal.run = none
  march : t.mem.march = none
  selfRefresh : t.rdB Reg.memStatus 3 = true

theorem State.safeState_stands (s : State) : s.Stands s.safeState := by
  have hidle : ChangesOnly idleFoot s.halt (s.halt.idleStatus.wrB Reg.memStatus 3 true) :=
    s.halt.idleStatus_frame.trans (State.wrB_changes _ _ _ (Evolves.refl idleFoot _) (Allows.mem (by decide))).1
  have hsafe := (s.halt.idleStatus.wrB Reg.memStatus 3 true).secured_frame
  rw [State.safeState_eq]
  refine ⟨State.secured_stage _, State.busyAll_commands _, fun q => ?_, ?_, ?_, ?_, ?_, ?_⟩
  · exact (hsafe (.seq q) (by simp [securedFoot, Foot.covers])).trans (hidle (.seq q) (by simp [idleFoot, Foot.covers]))
  · rw [State.secured_engines, State.wrB_engines, State.idleStatus_engines]
    rfl
  · exact (hsafe .snd (by decide)).trans (hidle .snd (by decide))
  · exact congrArg Cal.run ((hsafe .cal (by decide)).trans (hidle .cal (by decide)))
  · exact (hsafe .march (by decide)).1.trans (hidle .march (by decide)).1
  · have hset := State.rdB_wrB_same s.halt.idleStatus Reg.memStatus (n := 3) true (by decide)
    rwa [State.rdB, ← hsafe (.reg Reg.memStatus) (by decide)] at hset

/-! ### WEDGE -/

/-- The record of a wedge, written through; an EPOCH command no longer waits for its tick. -/
def State.wedgeRecorded (s : State) (data : BitVec 128) : State :=
  let s2 := (s.putClk { s.clk with epochSet := none }).post 314 0x42 data
  if s2.evr.started then s2.evrFlush else s2

/-- A read that hangs ends with 0 (R497). -/
def State.readEnds (s : State) (cause : Nat) : State := if cause = 5 then s.setRead 0 else s

theorem State.wedge_eq {s : State} {cause unit : Nat} (elapsed : Nat)
    (hstage : s.boot.stage = .ready ∨ s.boot.stage = .failed ∨ s.boot.stage = .booting) (hholds : s.wedgeHolds cause unit = true) :
    ∃ data, s.wedge cause unit elapsed =
      ((s.raiseIf (cause == 1) (seqOff unit Reg.seqFlags) 3).safeState.wedgeRecorded data).readEnds cause :=
  ⟨_, if_pos ⟨hstage, hholds⟩⟩

theorem State.wedgeRecorded_changes {K : List Foot} {s x : State} (data : BitVec 128) (h : Evolves K s x) (hev : Allows K .events)
    (hclk : Allows K (.one .clk)) : Evolves K s (x.wedgeRecorded data) := by
  have hpost := State.post_changes 314 0x42 data (State.putClk_changes { x.clk with epochSet := none } h hclk) hev
  exact Evolves.ite (fun _ => State.evrFlush_events hpost hev) (fun _ => hpost)

theorem State.readEnds_changes {K : List Foot} {s x : State} (cause : Nat) (h : Evolves K s x) (hr : Allows K (.one .reads)) :
    Evolves K s (x.readEnds cause) :=
  Evolves.ite (fun _ => State.setRead_changes 0 h hr) (fun _ => h)

theorem State.wedgeRecorded_clk (s : State) (data : BitVec 128) : (s.wedgeRecorded data).clk = { s.clk with epochSet := none } := by
  have hpost := Evolves.refl [.events] ((s.putClk { s.clk with epochSet := none }).post 314 0x42 data)
  have hflush : ∀ p : Prop, [Decidable p] → ChangesOnly [.events] _ (if p then _ else _) := fun p _ =>
    (Evolves.ite (c := p) (fun _ => State.evrFlush_events hpost (Allows.mem (by decide))) (fun _ => hpost)).1
  exact (hflush _ .clk (by decide)).trans (State.post_clk _ _ _ _)

theorem State.wedgeRecorded_engines (s : State) (data : BitVec 128) : (s.wedgeRecorded data).engines = s.engines := by
  have hpost := State.post_engines (s.putClk { s.clk with epochSet := none }) 314 0x42 data
  simp only [State.wedgeRecorded]
  split
  · exact (State.evrFlush_engines _).trans hpost
  · exact hpost

theorem State.readEnds_clk (s : State) (cause : Nat) : (s.readEnds cause).clk = s.clk := by
  unfold State.readEnds
  split <;> rfl

theorem State.readEnds_engines (s : State) (cause : Nat) : (s.readEnds cause).engines = s.engines := by
  unfold State.readEnds
  split <;> rfl

/-- The record leaves what stands in the safe state. -/
theorem State.Stands.recorded {s t : State} (h : s.Stands t) (data : BitVec 128) (cause : Nat) :
    s.Stands ((t.wedgeRecorded data).readEnds cause) := by
  obtain ⟨hstage, ⟨hfetched, hfg, hbg⟩, hseqs, hengines, hsnd, hrun, hmarch, hself⟩ := h
  have hf : ChangesOnly [.events, .one .clk, .one .reads] t ((t.wedgeRecorded data).readEnds cause) :=
    (State.readEnds_changes cause (State.wedgeRecorded_changes data (Evolves.refl _ t) (Allows.mem (by decide)) (Allows.mem (by decide)))
      (Allows.mem (by decide))).1
  obtain ⟨hfetched', hfg', hbg', -⟩ := hf .rings (by decide)
  refine ⟨(congrArg Boot.stage (hf .boot (by decide))).trans hstage, ⟨hfetched'.trans hfetched, hfg'.trans hfg, hbg'.trans hbg⟩,
    fun q => (hf (.seq q) (by simp [Foot.covers])).trans (hseqs q), ?_, (hf .snd (by decide)).trans hsnd,
    (congrArg Cal.run (hf .cal (by decide))).trans hrun, (hf .march (by decide)).1.trans hmarch, ?_⟩
  · rw [State.readEnds_engines, State.wedgeRecorded_engines, hengines]
  · rwa [State.rdB, hf (.reg Reg.memStatus) (by decide)]

/-- What a wedge can change beside the flag of its sequencer. -/
def wedgeFoot : List Foot :=
  [.events, .completion, .one .boot, .one .clk, .one .reads, .one (.reg Reg.cwyStatus), .one (.reg Reg.bootRewrite),
    .one (.reg Reg.memStatus), .cluReg Reg.ddsStatus, .cluReg Reg.acqStatus, .chReg Reg.tiaStatus, .chans, .chReg Reg.pmuStatus,
    .chReg Reg.peStatus, .one (.reg Reg.calStatus), .one (.reg Reg.sndStatus), .one (.reg Reg.plnState), .one .march, .one .cal, .seqs,
    .lanes, .clus, .one .plan, .one .snd, .one .cwy]

/-- The safe state and its record, after the flag of the sequencer. -/
theorem State.safeState_recorded_frame (s : State) (data : BitVec 128) (cause : Nat) :
    ChangesOnly wedgeFoot s ((s.safeState.wedgeRecorded data).readEnds cause) := by
  refine (State.readEnds_changes cause (State.wedgeRecorded_changes data ?_ (Allows.mem (by decide)) (Allows.mem (by decide)))
    (Allows.mem (by decide))).1
  apply State.safeState_changes (Evolves.refl wedgeFoot s) <;> exact Allows.mem (by decide)

theorem seqOff_seqFlags (unit : Nat) :
    seqOff unit Reg.seqFlags = 0xA0004 ∨ 0x800000 ≤ seqOff unit Reg.seqFlags ∧ (seqOff unit Reg.seqFlags - 0x800000) % 0x20000 = 4 := by
  unfold seqOff cluOff
  simp only [Reg.seqFlags]
  split <;> omega

theorem seqFlags_outside_wedgeFoot (unit : Nat) : ∀ k ∈ wedgeFoot, k.covers (.reg (seqOff unit Reg.seqFlags)) = false := by
  obtain h | ⟨hge, hmod⟩ := seqOff_seqFlags unit
  · rw [h]
    decide
  · generalize seqOff unit Reg.seqFlags = o at hge hmod
    have hne : ∀ n, n < 0x800000 → ¬ n = o := fun n hn => (hn.trans_le hge).ne
    have hne' : ∀ n, n < 0x800000 → ¬ o = n := fun n hn => (hn.trans_le hge).ne'
    simp [wedgeFoot, Foot.covers, isChReg, isCluReg, vectorReg, recorderReg, hmod, hge, hne, hne', Reg.hstVecPendLo, Reg.hstVecPendHi,
      Reg.evrStatus, Reg.evrFlags, Reg.evrDrop, Reg.evrCommit, Reg.evrLog, Reg.evrLogBseq, Reg.hstCplTail, Reg.hstCplDrop, Reg.cwyStatus,
      Reg.bootRewrite, Reg.memStatus, Reg.calStatus, Reg.sndStatus, Reg.plnState]

theorem State.raiseIf_seqs (s : State) (p : Bool) (o b : Nat) : (s.raiseIf p o b).seqs = s.seqs := by
  unfold State.raiseIf State.raise
  split_ifs <;> rfl

/-- The flag of the sequencer's fault is all that is raised before the safe state (R498). -/
theorem State.raiseIf_wedge_frame (s : State) (cause : BitVec 8) (o : Nat) :
    ChangesOnly (if cause = 1 then [.pair o] else []) s (s.raiseIf (cause.toNat == 1) o 3) := by
  by_cases hc : cause = 1
  · rw [if_pos hc, hc]
    exact (State.raise_changes o 3 (Evolves.refl [.pair o] s) (Allows.mem List.mem_cons_self)).1
  · have hn : (cause.toNat == 1) = false := by
      rw [beq_eq_false_iff_ne]
      exact fun h => hc (BitVec.eq_of_toNat_eq h)
    rw [if_neg hc, hn]
    exact (Evolves.refl _ s).1

theorem wedge_completes {s : State} (cause unit : BitVec 8) (us : W32)
    (hstage : s.boot.stage = .ready ∨ s.boot.stage = .failed ∨ s.boot.stage = .booting)
    (hholds : s.wedgeHolds cause.toNat unit.toNat = true) :
    Completes (.wedge cause unit us) s (wedgeFoot ++ (if cause = 1 then [.pair (seqOff unit.toNat Reg.seqFlags)] else [])) (fun t =>
      t.boot.stage = .safe ∧ t.hst.fetched = [] ∧ t.hst.fg = none ∧ t.hst.bg = [] ∧ t.clk.epochSet = none ∧
      (s.canonical = true → ∀ q : SeqId, t.seq q = if (s.seq q).st = 4 then s.seq q else seqReset) ∧
      t.lanes = [] ∧ t.clus = [] ∧ t.snd = sndReset ∧ t.cal.run = none ∧ t.mem.march = none ∧ t.rdB Reg.memStatus 3 = true ∧
      (cause = 1 → s.retained (seqOff unit.toNat Reg.seqFlags) = false → t.rdB (seqOff unit.toNat Reg.seqFlags) 3 = true) ∧
      (cause = 5 → t.hst.readData = 0)) := by
  obtain ⟨data, he⟩ := State.wedge_eq us.toNat hstage hholds
  have hend := State.safeState_recorded_frame (s.raiseIf (cause.toNat == 1) (seqOff unit.toNat Reg.seqFlags) 3) data cause.toNat
  have hstands := (State.safeState_stands (s.raiseIf (cause.toNat == 1) (seqOff unit.toNat Reg.seqFlags) 3)).recorded data cause.toNat
  obtain ⟨hstage', ⟨hfetched, hfg, hbg⟩, hseqs, hengines, hsnd, hrun, hmarch, hself⟩ := hstands
  refine ⟨s.wedge cause.toNat unit.toNat us.toNat, rfl, ?_, ?_⟩ <;> rw [he]
  · refine ⟨hstage', hfetched, hfg, hbg, ?_, fun hcan q => ?_, congrArg Prod.fst hengines, congrArg Prod.snd hengines, hsnd, hrun, hmarch,
      hself, fun hc hr => ?_, fun hc => ?_⟩
    · exact congrArg Clk.epochSet ((State.readEnds_clk _ _).trans (State.wedgeRecorded_clk _ _))
    · have hsame := s.raiseIf_seqs (cause.toNat == 1) (seqOff unit.toNat Reg.seqFlags) 3
      have hseq : (s.raiseIf (cause.toNat == 1) (seqOff unit.toNat Reg.seqFlags) 3).seq q = s.seq q := by rw [State.seq, hsame, State.seq]
      rw [hseqs q, State.halt_seq (hsame ▸ State.canonical_seqs hcan), hseq]
    · have hflag := State.raise_rdB s (seqOff unit.toNat Reg.seqFlags) (b := 3) hr (by decide)
      rw [State.rdB, hend (.reg _) (seqFlags_outside_wedgeFoot _), hc]
      exact hflag
    · rw [hc]
      rfl
  · exact (ChangesOnly.mono (s.raiseIf_wedge_frame cause _) (fun k hk => Allows.mem (List.mem_append_right _ hk))).trans
      (ChangesOnly.mono hend (fun k hk => Allows.mem (List.mem_append_left _ hk)))

/-- Settles O19: power failing and the supplies change what their rows say, and a wedge ends in the safe state. -/
theorem powerSuppliesAndWatchdogs : Obligations.PowerSuppliesAndWatchdogs :=
  ⟨fun s => ⟨fun hoff hpf => pfwNAssert_completes hoff hpf, fun hpf hlow => pfwShedEnd_completes hpf hlow, vinPowerDown_completes s⟩,
    fun s => ⟨fun h => suppliesInRange_completes h, mgtHeartbeat_completes s,
      fun cause unit us hstage hholds => wedge_completes cause unit us hstage hholds⟩⟩

end Sys2Proof.Machine

/-! Operating time and the order of PERIOD and WIDTH across every step (R65, R68, R70). -/

namespace Sys2Proof.Machine

/-! ### Footprints beside operating time and the pulse registers -/

/-- A footprint that takes in all but the clock's state, PERIOD and WIDTH. -/
def besideTime : List Foot :=
  [.one .pending, .one .freeCtr, .regs 0 Reg.clkEppPeriod, .regs (Reg.clkEppPeriod + 1) Reg.clkEppWidth,
    .regs (Reg.clkEppWidth + 1) 0x800000, .cluRegs 0 0x20000, .one .shadows, .one .boot, .one .evr, .one .vectors, .one .rings,
    .one .hostMem, .one .msix, .one .reads, .flashes, .one .keys, .one .rollback, .one .flashPort, .one .macros, .one .march,
    .one .refills, .one .timing, .drams, .failCnts, .one .cal, .one .pwr, .seqs, .lanes, .clus, .chans, .one .plan, .one .snd,
    .one .cwy]

/-- The entry takes in neither the clock's state nor PERIOD nor WIDTH. -/
def Foot.sparesTime (k : Foot) : Bool :=
  !k.covers .clk && !k.covers (.reg Reg.clkEppPeriod) && !k.covers (.reg Reg.clkEppWidth)

theorem besideTime_covers_reg {o : Nat} (hp : o ≠ Reg.clkEppPeriod) (hw : o ≠ Reg.clkEppWidth) :
    ∃ k ∈ besideTime, k.covers (.reg o) = true := by
  simp only [Reg.clkEppPeriod, Reg.clkEppWidth] at hp hw
  rcases Nat.lt_or_ge o 0x800000 with hlt | hge
  · by_cases h1 : o < 0x10044
    · exact ⟨.regs 0 0x10044, by simp [besideTime], by simp [Foot.covers, h1]⟩
    · by_cases h2 : o < 0x1004C
      · exact ⟨.regs 0x10045 0x1004C, by simp [besideTime], by simp only [Foot.covers, decide_eq_true_eq]; omega⟩
      · exact ⟨.regs 0x1004D 0x800000, by simp [besideTime], by simp only [Foot.covers, decide_eq_true_eq]; omega⟩
  · exact ⟨.cluRegs 0 0x20000, by simp [besideTime], by
      simp only [Foot.covers, inCluRegs, Bool.and_eq_true, decide_eq_true_eq]; omega⟩

theorem Part.entry_mem_besideTime {p : Part} (hclk : p ≠ .clk) (hreg : ∀ o, p ≠ .reg o) : p.entry ∈ besideTime := by
  cases p with
  | clk => exact absurd rfl hclk
  | reg o => exact absurd rfl (hreg o)
  | _ => simp [Part.entry, besideTime]

/-- What spares them is allowed beside them. -/
theorem Foot.allows_of_sparesTime {k : Foot} (h : k.sparesTime = true) : Allows besideTime k := by
  simp only [Foot.sparesTime, Bool.and_eq_true, Bool.not_eq_true'] at h
  obtain ⟨⟨hclk, hperiod⟩, hwidth⟩ := h
  intro p hp
  by_cases hreg : ∃ o, p = .reg o
  · obtain ⟨o, rfl⟩ := hreg
    refine besideTime_covers_reg (fun he => ?_) (fun he => ?_)
    · rw [he, hperiod] at hp
      cases hp
    · rw [he, hwidth] at hp
      cases hp
  · refine ⟨p.entry, Part.entry_mem_besideTime (fun he => ?_) (fun o he => hreg ⟨o, he⟩), p.entry_covers⟩
    rw [he, hclk] at hp
    cases hp

/-! #### Which entries spare them -/

theorem Foot.sparesTime_reg {o : Nat} : (Foot.one (.reg o)).sparesTime = true ↔ o ≠ Reg.clkEppPeriod ∧ o ≠ Reg.clkEppWidth := by
  simp [Foot.sparesTime, Foot.covers]

@[simp] theorem Foot.sparesTime_reg_above {o : Nat} (h : 0x10050 ≤ o) : (Foot.one (.reg o)).sparesTime = true :=
  Foot.sparesTime_reg.mpr (by simp only [Reg.clkEppPeriod, Reg.clkEppWidth]; omega)

@[simp] theorem Foot.sparesTime_pair_above {o : Nat} (h : 0x10050 ≤ o) : (Foot.pair o).sparesTime = true := by
  simp only [Foot.sparesTime, Foot.covers, Bool.and_eq_true, Bool.not_eq_true', Bool.or_eq_false_iff, beq_eq_false_iff_ne,
    Reg.clkEppPeriod, Reg.clkEppWidth, true_and]
  omega

@[simp] theorem Foot.sparesTime_regs_above {lo hi : Nat} (h : 0x10050 ≤ lo) : (Foot.regs lo hi).sparesTime = true := by
  simp only [Foot.sparesTime, Foot.covers, Bool.and_eq_true, Bool.not_eq_true', decide_eq_false_iff_not,
    Reg.clkEppPeriod, Reg.clkEppWidth, true_and]
  omega

@[simp] theorem Foot.sparesTime_seq (q : Nat) : (Foot.one (.seq q)).sparesTime = true := rfl
@[simp] theorem Foot.sparesTime_lane (c : Nat) : (Foot.one (.lane c)).sparesTime = true := rfl
@[simp] theorem Foot.sparesTime_clu (c : Nat) : (Foot.one (.clu c)).sparesTime = true := rfl
@[simp] theorem Foot.sparesTime_chan (n : Nat) : (Foot.one (.chan n)).sparesTime = true := rfl
@[simp] theorem Foot.sparesTime_dram (a n : Nat) : (Foot.dram a n).sparesTime = true := rfl

@[simp] theorem cluOff_above (c o : Nat) : 0x10050 ≤ cluOff c o := by unfold cluOff; omega
@[simp] theorem chOff_above (n o : Nat) : 0x10050 ≤ chOff n o := by unfold chOff; omega
@[simp] theorem seqOff_above (q o : Nat) : 0x10050 ≤ seqOff q o := by unfold seqOff cluOff; split <;> omega
@[simp] theorem sumEntry_above (p : Nat) : 0x10050 ≤ sumEntry p := by unfold sumEntry; simp only [Reg.cwySum0]; omega
@[simp] theorem flOff_above (r : FlReg) : 0x10050 ≤ flOff r := by cases r <;> decide
@[simp] theorem peerReg_above (p : Port) : 0x10050 ≤ peerReg p := by cases p <;> decide
@[simp] theorem calReg_above (p : Port) : 0x10050 ≤ calReg p := by cases p <;> decide

/-- An entry that spares them, by the rules above, is allowed beside them. -/
theorem Foot.beside (k : Foot) (h : k.sparesTime = true := by simp +decide) : Allows besideTime k := Foot.allows_of_sparesTime h

/-- The same beside PERIOD and WIDTH alone, with the clock's state taken in. -/
theorem Foot.besidePulse (k : Foot) (h : k.sparesTime = true := by simp +decide) : Allows (.one .clk :: besideTime) k := fun p hp => by
  obtain ⟨k', hk', hc⟩ := Foot.allows_of_sparesTime h p hp
  exact ⟨k', List.mem_cons_of_mem _ hk', hc⟩

/-! ### Steps that keep operating time and the order of the pulse registers -/

/-- A PERIOD that is not 0 stands above WIDTH (R65). -/
def State.eppOrdered (s : State) : Prop :=
  s.rd Reg.clkEppPeriod ≠ 0 → (s.rd Reg.clkEppWidth).toNat < (s.rd Reg.clkEppPeriod).toNat

/-- From `s` to `t` operating time stands and the order of PERIOD and WIDTH is kept. -/
structure TimeKept (s t : State) : Prop where
  optime : t.clk.optime = s.clk.optime
  order : s.eppOrdered → t.eppOrdered

theorem TimeKept.refl (s : State) : TimeKept s s := ⟨rfl, id⟩

theorem TimeKept.trans {s t u : State} (h : TimeKept s t) (h' : TimeKept t u) : TimeKept s u :=
  ⟨h'.optime.trans h.optime, fun ho => h'.order (h.order ho)⟩

theorem State.eppOrdered_of_same {s t : State} (hp : t.rd Reg.clkEppPeriod = s.rd Reg.clkEppPeriod)
    (hw : t.rd Reg.clkEppWidth = s.rd Reg.clkEppWidth) (h : s.eppOrdered) : t.eppOrdered := by
  unfold State.eppOrdered
  rwa [hp, hw]

/-- With PERIOD at 0, as every reset leaves it, the order holds. -/
theorem State.eppOrdered_of_reset {t : State} (h : t.rd Reg.clkEppPeriod = resetWord Reg.clkEppPeriod) : t.eppOrdered :=
  fun hne => absurd h hne

/-- What changes neither register of the pulse. -/
theorem State.eppOrdered_of_frame {s t : State} (h : ChangesOnly (.one .clk :: besideTime) s t) (ho : s.eppOrdered) : t.eppOrdered :=
  State.eppOrdered_of_same (h (.reg Reg.clkEppPeriod) (by decide)) (h (.reg Reg.clkEppWidth) (by decide)) ho

theorem TimeKept.of_changes {s t : State} (h : ChangesOnly besideTime s t) : TimeKept s t :=
  ⟨congrArg Clk.optime (h .clk (by decide)), State.eppOrdered_of_same (h (.reg Reg.clkEppPeriod) (by decide))
    (h (.reg Reg.clkEppWidth) (by decide))⟩

theorem TimeKept.of_beside {s t : State} (h : Evolves besideTime s t) : TimeKept s t := .of_changes h.1

theorem TimeKept.of_frame {s t : State} (hclk : t.clk.optime = s.clk.optime) (h : Evolves (.one .clk :: besideTime) s t) : TimeKept s t :=
  ⟨hclk, State.eppOrdered_of_frame h.1⟩

theorem TimeKept.of_reset {s t : State} (hclk : t.clk.optime = s.clk.optime)
    (h : t.rd Reg.clkEppPeriod = resetWord Reg.clkEppPeriod) : TimeKept s t :=
  ⟨hclk, fun _ => State.eppOrdered_of_reset h⟩

theorem TimeKept.ite {s a b : State} {p : Prop} [Decidable p] (ha : p → TimeKept s a) (hb : ¬ p → TimeKept s b) :
    TimeKept s (if p then a else b) := by
  split
  · exact ha ‹_›
  · exact hb ‹_›

/-! #### The clock's own commands (R59, R65, R72, R73) -/

theorem State.epochTake_optime (s : State) (v : BitVec 64) : (s.epochTake v).clk.optime = s.clk.optime := by
  have hpost : ((s.refTick v).post 305 0x39 (BitVec.ofNat 128 (s.epochNext.toNat + 2 ^ 64 * v.toNat))).clk.optime = s.clk.optime := by
    rw [State.post_clk]
    rfl
  simp only [State.epochTake]
  split
  · rw [State.complete_clk]
    exact hpost
  · exact hpost

theorem State.epochTakeEffect_optime (s : State) : s.epochTakeEffect.clk.optime = s.clk.optime := by
  simp only [State.epochTakeEffect]
  split
  · split
    · exact (congrArg Clk.optime (State.settleAll_clk _)).trans (State.epochTake_optime s _)
    · rfl
  · rfl

theorem State.epochTick_optime (s : State) : s.epochTick.clk.optime = s.clk.optime := by
  simp only [State.epochTick]
  split
  · split
    · exact State.epochTake_optime s _
    · rfl
  · rfl

theorem State.cmdEpoch_optime (s : State) : s.cmdEpoch.clk.optime = s.clk.optime := by
  simp only [State.cmdEpoch, State.runCmd]
  split
  · split
    · refine (congrArg Clk.optime (State.settleAll_clk _)).trans ?_
      split_ifs
      · exact congrArg Clk.optime (State.complete_clk _ _ _ _ _)
      · exact congrArg Clk.optime (State.complete_clk _ _ _ _ _)
      · rfl
    · rfl
  · rfl

theorem State.holdover_optime (s : State) (offset : W32) : (s.holdover offset).clk.optime = s.clk.optime := by
  by_cases h : s.timing = 1 ∨ s.timing = 2
  · rw [State.holdover_eq offset h, State.post_clk]
    rw [State.heldOver, State.raise_clk]
    rfl
  · rw [State.holdover, if_neg h]

theorem State.eppPeriodWrite_timeKept (s : State) (v : W32) : TimeKept s (s.eppPeriodWrite v) := by
  by_cases h : v = 0 ∨ (s.rd Reg.clkEppWidth).toNat < v.toNat
  · rw [State.eppPeriodWrite_taken h]
    refine ⟨rfl, fun _ hne => ?_⟩
    rw [State.rd_wr_same] at hne ⊢
    rw [State.rd_wr_ne _ (by decide)]
    exact h.resolve_left hne
  · obtain ⟨h0, hle⟩ := not_or.mp h
    rw [State.eppPeriodWrite_rejected h0 (Nat.le_of_not_lt hle)]
    exact .of_beside (State.raise_changes _ _ (Evolves.refl _ s) (Foot.beside _))

theorem State.eppWidthWrite_timeKept (s : State) (v : W32) : TimeKept s (s.eppWidthWrite v) := by
  by_cases h : v = 0 ∨ (s.rd Reg.clkEppPeriod).toNat ≤ v.toNat
  · rw [State.eppWidthWrite_rejected h]
    exact .of_beside (State.raise_changes _ _ (Evolves.refl _ s) (Foot.beside _))
  · obtain ⟨h0, hlt⟩ := not_or.mp h
    rw [State.eppWidthWrite_taken h0 (Nat.lt_of_not_le hlt)]
    refine ⟨rfl, fun _ _ => ?_⟩
    rw [State.rd_wr_same, State.rd_wr_ne _ (by decide)]
    exact Nat.lt_of_not_le hlt

/-! #### Host accesses (R7, R8, R439) -/

theorem State.unmapped_timeKept (s : State) (o : Nat) (w : Bool) : TimeKept s (s.unmapped o w) :=
  .of_beside (State.unmapped_changes o w (Evolves.refl _ s) (Foot.beside _))

/-- A write keeps them where its effect does. -/
theorem State.onWrite_timeKept {s : State} {o : Nat} {f : State → State} (h : TimeKept s (f s)) : TimeKept s (s.onWrite o f) :=
  .ite (fun _ => .refl s) (fun _ => .ite (fun _ => h) (fun _ => s.unmapped_timeKept o true))

/-- A write of any other register of the device. -/
theorem State.devWrite_beside (s : State) {o : Nat} (v : W32) (hp : o ≠ Reg.clkEppPeriod) (hw : o ≠ Reg.clkEppWidth) :
    Evolves besideTime s (s.devWrite o v) := by
  have h := Evolves.refl besideTime s
  have ho : Allows besideTime (.one (.reg o)) := Foot.allows_of_sparesTime (Foot.sparesTime_reg.mpr ⟨hp, hw⟩)
  unfold State.devWrite
  rw [if_neg hp, if_neg hw]
  repeat' with_reducible refine Evolves.ite (fun _ => ?_) (fun _ => ?_)
  · exact State.eppOffsetWrite_changes _ h (Foot.beside _)
  · apply State.ringCtl_changes _ h <;> exact Foot.beside _
  · exact State.ringBase_changes _ _ h (Foot.beside _) ho
  · exact State.ringIndex_changes _ _ h ho
  · exact State.vecAck_changes _ _ _ h (Foot.beside _)
  · exact State.vecAck_changes _ _ _ h (Foot.beside _)
  · exact State.msixWrite_changes _ _ h (Foot.beside _) (Foot.beside _)
  · exact h
  · exact State.sendWrite_changes _ h (Foot.beside _) (Foot.beside _)
  · apply State.calCtl_changes _ h <;> exact Foot.beside _
  · apply State.sndCtl_changes _ h <;> exact Foot.beside _
  · exact State.siteMaskWrite_changes _ _ h (Foot.beside _)
  · exact State.siteMaskWrite_changes _ _ h (Foot.beside _)
  · exact State.flConfig_changes _ _ h (Foot.beside _) (Foot.beside _)
  · exact State.flConfig_changes _ _ h (Foot.beside _) (Foot.beside _)
  · exact State.flConfig_changes _ _ h (Foot.beside _) (Foot.beside _)
  · exact State.flConfig_changes _ _ h (Foot.beside _) (Foot.beside _)
  · exact State.flConfig_changes _ _ h (Foot.beside _) (Foot.beside _)
  · apply State.flClear_changes _ h <;> exact Foot.beside _
  · exact State.plainWrite_changes _ _ h ho

/-- A write of a register, the pulse's own by its rule (R65). -/
theorem State.devWrite_timeKept (s : State) (o : Nat) (v : W32) : TimeKept s (s.devWrite o v) := by
  by_cases hp : o = Reg.clkEppPeriod
  · rw [State.devWrite, if_pos hp]
    exact s.eppPeriodWrite_timeKept v
  by_cases hw : o = Reg.clkEppWidth
  · rw [State.devWrite, if_neg hp, if_pos hw]
    exact s.eppWidthWrite_timeKept v
  · exact .of_beside (s.devWrite_beside v hp hw)

theorem State.regWrite_timeKept (s : State) (o : Nat) (v : W32) : TimeKept s (s.regWrite o v) := by
  have h := Evolves.refl besideTime s
  simp only [State.regWrite]
  refine .ite (fun _ => .of_beside ?_) fun _ => .ite (fun _ => s.devWrite_timeKept o v) fun _ =>
    .ite (fun _ => .of_beside ?_) fun _ => .of_beside ?_
  · apply State.windowWrite_changes _ _ _ h <;> exact Foot.beside _
  · apply State.cluWrite_changes _ _ _ h <;> exact Foot.beside _
  · apply State.chWrite_changes _ _ _ h <;> exact Foot.beside _

theorem State.hostWrite_timeKept (s : State) (o : Nat) (v : W32) : TimeKept s (s.hostWrite o v) := by
  refine State.onWrite_timeKept (TimeKept.trans ?_ ((s.sealedRecord o v).regWrite_timeKept o v))
  exact .of_beside (State.sealedRecord_changes o v (Evolves.refl _ s) (Foot.beside _) (Foot.beside _) (Foot.beside _))

/-- A clear of flags is no write of the pulse registers, which hold none. -/
theorem State.flagClear_timeKept (s : State) {o : Nat} (v setNow : W32) (h : hasFlags o = true) : TimeKept s (s.flagClear o v setNow) := by
  have hne : ∀ x ∈ [Reg.clkEppPeriod, Reg.clkEppWidth, Reg.clkEppPeriod - 4, Reg.clkEppWidth - 4], hasFlags x = false := by decide +kernel
  have hno : ∀ x ∈ [Reg.clkEppPeriod, Reg.clkEppWidth, Reg.clkEppPeriod - 4, Reg.clkEppWidth - 4], o ≠ x := fun x hx he => by
    have := hne x hx
    rw [← he, h] at this
    cases this
  refine .of_beside (State.flagClear_changes o v setNow (Evolves.refl _ s) (Foot.allows_of_sparesTime ?_))
  simp only [List.mem_cons, List.not_mem_nil, or_false, forall_eq_or_imp, forall_eq] at hno
  simp only [Foot.sparesTime, Foot.covers, Bool.and_eq_true, Bool.not_eq_true', Bool.or_eq_false_iff, beq_eq_false_iff_ne, true_and]
  omega

/-- The registers at which a read could reach PERIOD or WIDTH: it clears nothing there. -/
def pulseReads : List Nat := [Reg.clkEppPeriod, Reg.clkEppPeriod + 4, Reg.clkEppWidth, Reg.clkEppWidth + 4]

theorem pulseReads_quiet : ∀ o ∈ pulseReads, recordWord0 o = none ∧ (findRow o).map (fun r => r.rc) = some 0 ∧ flagsBelow o = [] := by
  decide +kernel

theorem State.busRead_timeKept (s : State) (o : Nat) (inc : W32) (read : SramRead) : TimeKept s (s.busRead o inc read) := by
  by_cases ho : o ∈ pulseReads
  · obtain ⟨hword, hrow, hbelow⟩ := pulseReads_quiet o ho
    obtain ⟨r, hr, hrc⟩ := Option.map_eq_some_iff.mp hrow
    rw [State.busRead]
    refine .ite (fun _ => .refl s) fun _ => .ite (fun _ => s.unmapped_timeKept o false) fun _ => ?_
    rw [hword, hr]
    simp only [State.readClear_eq _ _ _ hr, hbelow]
    refine .of_changes (ChangesOnly.mono (State.cleared_frame s _ _ hrc) (fun k hk => Foot.allows_of_sparesTime ?_))
    exact (by decide : ∀ k ∈ [Foot.one .reads, Foot.one .shadows], k.sparesTime = true) k hk
  · have hreg : ∀ x ∈ [o, o - 4], Allows besideTime (.one (.reg x)) := by
      simp only [pulseReads, Reg.clkEppPeriod, Reg.clkEppWidth, List.mem_cons, List.not_mem_nil, or_false, not_or] at ho
      intro x hx
      refine Foot.allows_of_sparesTime (Foot.sparesTime_reg.mpr ?_)
      simp only [List.mem_cons, List.not_mem_nil, or_false] at hx
      simp only [Reg.clkEppPeriod, Reg.clkEppWidth]
      omega
    refine .of_beside ?_
    apply State.busRead_changes o inc read (Evolves.refl _ s)
    case a1 => exact hreg o (by simp)
    case a2 => exact hreg (o - 4) (by simp)
    case a5 => exact Foot.beside _ (Foot.sparesTime_reg_above (le_add_right (by decide)))
    all_goals exact Foot.beside _

/-! #### Settings of the image (R94) -/

/-- A setting whose mask is empty stores what stood. -/
theorem cfgMix_zero (old v : W32) : cfgMix old 0 v = old := by
  unfold cfgMix
  exact (congrArg (_ ||| ·) BitVec.and_zero).trans (BitVec.or_zero.trans BitVec.and_allOnes)

/-- A setting that is taken stays inside the sealed fields of its register. -/
theorem State.entryCode_mask {s : State} {e : Nat × W32 × W32} (h : s.entryCode e = 0) (h0 : sealedFields e.1 = 0) : e.2.1 = 0 := by
  unfold State.entryCode at h
  unfold sealedFields at h0
  cases hr : findRow e.1 with
  | none =>
    rw [hr] at h
    cases h
  | some r =>
    rw [hr] at h h0
    by_contra hne
    have hout : e.2.1 &&& ~~~ BitVec.ofNat 32 r.sl ≠ 0 := by
      rw [show r.sl = 0 from h0, BitVec.ofNat_eq_ofNat, BitVec.not_zero, BitVec.and_allOnes]
      exact hne
    simp only [hout, ne_eq, not_false_eq_true, or_true, if_true] at h
    cases h

theorem pulse_sealedFields : ∀ o ∈ [Reg.clkEppPeriod, Reg.clkEppWidth], sealedFields o = 0 := by decide +kernel

/-- The settings leave a register that has no sealed field. -/
theorem State.cfgRun_rd (l : List (Nat × W32 × W32)) (s : State) {o : Nat} (ho : sealedFields o = 0) : (s.cfgRun l).2.rd o = s.rd o := by
  induction l generalizing s with
  | nil => rfl
  | cons e l ih =>
    unfold State.cfgRun
    split
    · rename_i hcode
      rw [ih]
      by_cases he : o = e.1
      · subst he
        rw [State.rd_wr_same, State.entryCode_mask hcode ho, cfgMix_zero]
      · exact State.rd_wr_ne _ he _
    · rfl

theorem State.clearSealed_rd (s : State) {o : Nat} (ho : sealedFields o = 0) : s.clearSealed.rd o = s.rd o := by
  unfold State.clearSealed
  generalize s.regs = l
  induction l generalizing s with
  | nil => rfl
  | cons e l ih =>
    refine (ih _).trans ?_
    dsimp only
    split
    · rename_i r hr
      split
      · rfl
      · rename_i hsl
        refine State.rd_wr_ne _ (fun he => hsl ?_) _
        rw [sealedFields, he, hr] at ho
        exact ho
    · rfl

theorem State.cfgCheck_rd (s : State) (b : Nat) {o : Nat} (ho : sealedFields o = 0) : (s.cfgCheck b).2.rd o = s.rd o := by
  have hrun : (s.clearSealed.cfgRun (s.cfgEntries b)).2.rd o = s.rd o := (State.cfgRun_rd _ _ ho).trans (s.clearSealed_rd ho)
  simp only [State.cfgCheck]
  split_ifs <;> exact hrun

theorem State.cfgCheck_timeKept (s : State) (b : Nat) : TimeKept s (s.cfgCheck b).2 :=
  ⟨congrArg Clk.optime ((State.cfgCheck_changes b (Evolves.refl [.allRegs] s) (Allows.mem (by decide))).1 .clk (by decide)),
    State.eppOrdered_of_same (s.cfgCheck_rd b (pulse_sealedFields _ (by simp))) (s.cfgCheck_rd b (pulse_sealedFields _ (by simp)))⟩

theorem State.configApply_timeKept (s : State) : TimeKept s s.configApply := by
  unfold State.configApply
  refine .ite (fun _ => ?_) (fun _ => .refl s)
  have hr := s.cfgCheck_timeKept (s.bodyBase s.slot)
  dsimp only
  generalize (s.cfgCheck (s.bodyBase s.slot)).2 = u at hr ⊢
  refine .ite (fun _ => hr.trans (.of_frame rfl ?_)) (fun _ => hr.trans (.of_beside ?_))
  · exact State.setPhase_changes 8 (State.putClk_changes { u.clk with outEn := u.rdF Reg.clkOutCtl 2 0 } (Evolves.refl _ u)
      (Allows.mem List.mem_cons_self)) (Foot.besidePulse _)
  · apply State.slotFail_changes _ (Evolves.refl _ u) <;> exact Foot.beside _

/-! #### Resets that keep operating time (R68, R108, R502) -/

theorem State.resetAsserted_timeKept (s : State) (link : Bool) : TimeKept s (s.resetAsserted link) := by
  have hflush : TimeKept s (if s.evr.started then s.evrFlush else s) :=
    .ite (fun _ => .of_beside (State.evrFlush_events (Evolves.refl _ s) (Foot.beside _))) (fun _ => .refl s)
  refine .ite (fun _ => .refl s) (fun _ => hflush.trans (.of_reset ?_ ?_))
  · change ((if s.evr.started then s.evrFlush else s).volatileReset true link).clk.optime = _
    rw [State.volatileReset_clk]
  · exact (State.rd_wrB_ne _ (by decide) _ _).trans (State.volatileReset_rd _ true link (by decide) (by decide) (fun _ => by decide))

theorem State.pfwAssert_timeKept (s : State) : TimeKept s s.pfwAssert := by
  by_cases h : s.boot.stage = .off ∨ s.boot.stage = .powerFail
  · rw [State.pfwAssert, if_pos h]
    exact .refl s
  · obtain ⟨hoff, hpf⟩ := not_or.mp h
    rw [State.pfwAssert_eq hoff hpf]
    refine .of_reset ?_ (s.powerFailed_rd (by decide) (by decide) (by decide))
    change s.powerFailed.clk.optime = _
    rw [State.powerFailed_clk]

/-! #### Commands that change the rest of the clock's state -/

theorem allows_clk : Allows (.one .clk :: besideTime) (.one .clk) := Allows.mem List.mem_cons_self

theorem State.epochTakeEffect_timeKept (s : State) : TimeKept s s.epochTakeEffect :=
  .of_frame s.epochTakeEffect_optime
    (State.epochTakeEffect_changes (Evolves.refl _ s) (Foot.besidePulse _) (Foot.besidePulse _) allows_clk)

theorem State.epochTick_timeKept (s : State) : TimeKept s s.epochTick :=
  .of_frame s.epochTick_optime (State.epochTick_changes (Evolves.refl _ s) (Foot.besidePulse _) allows_clk (Foot.besidePulse _))

theorem State.cmdEpoch_timeKept (s : State) : TimeKept s s.cmdEpoch :=
  .of_frame s.cmdEpoch_optime (State.cmdEpoch_changes (Evolves.refl _ s) (Foot.besidePulse _) allows_clk)

theorem State.holdover_timeKept (s : State) (offset : W32) : TimeKept s (s.holdover offset) :=
  .of_frame (s.holdover_optime offset) (State.holdover_changes offset (Evolves.refl _ s) (Foot.besidePulse _) (Foot.besidePulse _)
    (Foot.besidePulse _) (Foot.besidePulse _) allows_clk)

/-- A reset that ends warm (R502). -/
theorem State.warmEnd_timeKept {s : State} (h : s.boot.cold = false) : TimeKept s s.warmEnd := by
  unfold State.warmEnd
  refine .ite (fun _ => ?_) (fun _ => .refl s)
  rw [if_neg (by simp [h])]
  exact ⟨rfl, State.eppOrdered_of_same ((State.rd_wrF_ne _ (by decide) _ _ _).trans (State.rd_wrB_ne _ (by decide) _ _))
    ((State.rd_wrF_ne _ (by decide) _ _ _).trans (State.rd_wrB_ne _ (by decide) _ _))⟩

theorem State.safeState_timeKept (s : State) : TimeKept s s.safeState := by
  refine .of_beside ?_
  apply State.safeState_changes (Evolves.refl _ s) <;> exact Foot.beside _

theorem State.wedge_idle {s : State} {cause unit : Nat} (elapsed : Nat)
    (h : ¬ ((s.boot.stage = .ready ∨ s.boot.stage = .failed ∨ s.boot.stage = .booting) ∧ s.wedgeHolds cause unit = true)) :
    s.wedge cause unit elapsed = s := if_neg h

theorem State.wedgeRecorded_optime (s : State) (data : BitVec 128) : (s.wedgeRecorded data).clk.optime = s.clk.optime := by
  rw [State.wedgeRecorded_clk]

theorem State.wedge_optime (s : State) (cause unit elapsed : Nat) : (s.wedge cause unit elapsed).clk.optime = s.clk.optime := by
  by_cases h : (s.boot.stage = .ready ∨ s.boot.stage = .failed ∨ s.boot.stage = .booting) ∧ s.wedgeHolds cause unit = true
  · obtain ⟨data, he⟩ := State.wedge_eq elapsed h.1 h.2
    rw [he, State.readEnds_clk, State.wedgeRecorded_optime, (State.safeState_timeKept _).optime, State.raiseIf_clk]
  · rw [State.wedge_idle elapsed h]

theorem State.wedge_timeKept (s : State) (cause unit elapsed : Nat) : TimeKept s (s.wedge cause unit elapsed) := by
  refine .of_frame (s.wedge_optime cause unit elapsed) ?_
  apply State.wedge_changes cause unit elapsed (Evolves.refl _ s)
  case a2 => exact allows_clk
  all_goals exact Foot.besidePulse _

/-! #### Steps that set operating time (R68, R70, R517) -/

/-- After a cold start the pulse is off. -/
theorem State.coldStart_period (s : State) (supplies : Nat) :
    (s.coldStart supplies).rd Reg.clkEppPeriod = resetWord Reg.clkEppPeriod := by
  unfold State.coldStart
  generalize List.range 512 = l
  dsimp only
  have hlines : ∀ u : State, (l.foldl (fun t n => t.wr (chOff n Reg.tiaLine) 0x555) u).rd Reg.clkEppPeriod = u.rd Reg.clkEppPeriod := by
    induction l with
    | nil => exact fun _ => rfl
    | cons n l ih =>
      intro u
      rw [List.foldl_cons, ih, State.rd_wr_ne _ ((by decide : Reg.clkEppPeriod < 0x10050).trans_le (chOff_above n _)).ne]
  rw [hlines, State.rd_wrF_ne _ (by decide)]
  change (s.volatileReset false false).rd Reg.clkEppPeriod = _
  exact State.volatileReset_rd s false false (by decide) (by decide) (by simp)

/-- Where a cold start begins, where power is lost, where the boot restores operating time, and where it counts (R68, R70). -/
def setsOptime (s : State) : Instr → Bool
  | .vinPowerUp => true
  | .vinPowerDown => true
  | .pfwColdStart => true
  | .persistentAreaScan => true
  | .warmResetEnd => s.boot.cold
  | .optimeMs => true
  | _ => false

/-- Every other command keeps operating time and the order of the pulse registers: each by its footprint, or by its rule above. -/
theorem exec_timeKept (i : Instr) {s t : State} (h : setsOptime s i = false) (e : exec i s = .next t) : TimeKept s t := by
  cases i with
  | vinPowerUp => cases h
  | pfwNAssert => exact Host.Outcome.next.inj e ▸ s.pfwAssert_timeKept
  | pfwShedEnd => exact .of_beside (by apply execPfwShedEnd_changes e <;> exact Foot.beside _)
  | pfwColdStart => cases h
  | vinPowerDown => cases h
  | rstNAssert => exact Host.Outcome.next.inj e ▸ s.resetAsserted_timeKept true
  | perstAssert => exact Host.Outcome.next.inj e ▸ s.resetAsserted_timeKept false
  | warmResetEnd => exact Host.Outcome.next.inj e ▸ State.warmEnd_timeKept h
  | deviceResetStart => exact Host.Outcome.next.inj e ▸ TimeKept.ite (fun _ => s.resetAsserted_timeKept true) (fun _ => .refl s)
  | pcieLinkReset => exact .of_beside (by apply execPcieLinkReset_changes e <;> exact Foot.beside _)
  | sfdpRead => exact .of_beside (by apply execSfdpRead_changes _ _ e <;> exact Foot.beside _)
  | persistentAreaScan => cases h
  | slotSelect => exact .of_beside (by apply execSlotSelect_changes e <;> exact Foot.beside _)
  | bodyStream => exact .of_beside (by apply execBodyStream_changes e <;> exact Foot.beside _)
  | calBankSelect => exact .of_beside (by apply execCalBankSelect_changes e <;> exact Foot.beside _)
  | configApply => exact Host.Outcome.next.inj e ▸ s.configApply_timeKept
  | patchApply => exact .of_beside (by apply execPatchApply_changes e <;> exact Foot.beside _)
  | bootReady => exact .of_beside (by apply execBootReady_changes _ e <;> exact Foot.beside _)
  | rollbackBurn => exact .of_beside (by apply execRollbackBurn_changes e <;> exact Foot.beside _)
  | bootMarch => exact .of_beside (by apply execBootMarch_changes _ e <;> exact Foot.beside _)
  | dramTraining => exact .of_beside (by apply execDramTraining_changes _ e <;> exact Foot.beside _)
  | dramSelfRefreshExit => exact .of_beside (by apply execDramSelfRefreshExit_changes e <;> exact Foot.beside _)
  | epochTick => exact Host.Outcome.next.inj e ▸ TimeKept.ite (fun _ => s.epochTakeEffect_timeKept) (fun _ => s.epochTick_timeKept)
  | optimeMs => cases h
  | optimeCheckpoint => exact .of_beside (by apply execOptimeCheckpoint_changes e <;> exact Foot.beside _)
  | ageingUpdate => exact .of_beside (by apply execAgeingUpdate_changes e <;> exact Foot.beside _)
  | tempCorrectionUpdate => exact .of_beside (by apply execTempCorrectionUpdate_changes e <;> exact Foot.beside _)
  | followerLock => exact .of_beside (by apply execFollowerLock_changes _ e <;> exact Foot.beside _)
  | holdoverEntry => exact Host.Outcome.next.inj e ▸ s.holdover_timeKept _
  | holdoverReturn => exact .of_beside (by apply execHoldoverReturn_changes e; exact Foot.beside _)
  | clkEppPeriodWrite => exact Host.Outcome.next.inj e ▸ State.onWrite_timeKept (s.eppPeriodWrite_timeKept _)
  | clkEppWidthWrite => exact Host.Outcome.next.inj e ▸ State.onWrite_timeKept (s.eppWidthWrite_timeKept _)
  | clkEppOffsetWrite => exact .of_beside (by apply execClkEppOffsetWrite_changes _ e <;> exact Foot.beside _)
  | commandFetch => exact .of_beside (by apply execCommandFetch_changes _ e <;> exact Foot.beside _)
  | nop => exact .of_beside (by apply execNop_changes e; exact Foot.beside _)
  | run => exact .of_beside (by apply execRun_changes e <;> exact Foot.beside _)
  | masterStart => exact .of_beside (by apply execMasterStart_changes _ e <;> exact Foot.beside _)
  | stop => exact .of_beside (by apply execStop_changes e <;> exact Foot.beside _)
  | stage => exact .of_beside (by apply execStage_changes _ e <;> exact Foot.beside _)
  | jump => exact .of_beside (by apply execJump_changes e <;> exact Foot.beside _)
  | stream => exact .of_beside (by apply execStream_changes e; exact Foot.beside _)
  | streamBlockPost => exact .of_beside (by apply execStreamBlockPost_changes _ _ e <;> exact Foot.beside _)
  | creditTimeout => exact .of_beside (by apply execCreditTimeout_changes _ e; exact Foot.beside _)
  | read => exact .of_beside (by apply execRead_changes e; exact Foot.beside _)
  | write => exact .of_beside (by apply execWrite_changes _ e <;> exact Foot.beside _)
  | epoch => exact Host.Outcome.next.inj e ▸ s.cmdEpoch_timeKept
  | epochTakeEffect => exact Host.Outcome.next.inj e ▸ s.epochTakeEffect_timeKept
  | sound => exact .of_beside (by apply execSound_changes e <;> exact Foot.beside _)
  | calibrate => exact .of_beside (by apply execCalibrate_changes e <;> exact Foot.beside _)
  | march => exact .of_beside (by apply execMarch_changes e <;> exact Foot.beside _)
  | image => exact .of_beside (by apply execImage_changes _ e <;> exact Foot.beside _)
  | imageCommitted => exact .of_beside (by apply execImageCommitted_changes e <;> exact Foot.beside _)
  | logRead => exact .of_beside (by apply execLogRead_changes e; exact Foot.beside _)
  | deviceReset => exact .of_beside (by apply execDeviceReset_changes e <;> exact Foot.beside _)
  | cplStall => exact .of_beside (by apply execCplStall_changes e <;> exact Foot.beside _)
  | bar0BadAccess => exact .of_beside (by apply execBar0BadAccess_changes _ _ e; exact Foot.beside _)
  | bar0Unmapped => exact .of_beside (by apply execBar0Unmapped_changes _ _ e; exact Foot.beside _)
  | bar2Read => exact .of_beside (by apply execBar2Read_changes _ _ e <;> exact Foot.beside _)
  | bar2Write => exact .of_beside (by apply execBar2Write_changes _ _ e <;> exact Foot.beside _)
  | hstRingCtlWrite => exact .of_beside (by apply execHstRingCtlWrite_changes _ e <;> exact Foot.beside _)
  | hstCmdTailWrite => exact .of_beside (by apply execHstCmdTailWrite_changes _ e <;> exact Foot.beside _)
  | hstCplHeadWrite => exact .of_beside (by apply execHstCplHeadWrite_changes _ e <;> exact Foot.beside _)
  | hstVecAckWrite => exact .of_beside (by apply execHstVecAckWrite_changes _ _ _ e <;> exact Foot.beside _)
  | msixUnmask => exact .of_beside (by apply execMsixUnmask_changes _ e <;> exact Foot.beside _)
  | flagClear =>
    exact Host.Outcome.next.inj e ▸
      TimeKept.ite (fun hf => State.onWrite_timeKept (s.flagClear_timeKept _ _ hf)) (fun _ => s.hostWrite_timeKept _ _)
  | readClear => exact Host.Outcome.next.inj e ▸ s.busRead_timeKept _ _ _
  | loReadLatch => exact Host.Outcome.next.inj e ▸ s.busRead_timeKept _ _ _
  | hostWriteSealed => exact Host.Outcome.next.inj e ▸ s.hostWrite_timeKept _ _
  | registerWrite => exact Host.Outcome.next.inj e ▸ s.hostWrite_timeKept _ _
  | seqRoleWrite => exact .of_beside (by apply execSeqRoleWrite_changes _ _ _ e <;> exact Foot.beside _)
  | openRecordTimeout => exact .of_beside (by apply execOpenRecordTimeout_changes e <;> exact Foot.beside _)
  | logProgramDone => exact .of_beside (by apply execLogProgramDone_changes _ e <;> exact Foot.beside _)
  | logBlockEraseDone => exact .of_beside (by apply execLogBlockEraseDone_changes _ e <;> exact Foot.beside _)
  | evrSlotWord0Read => exact Host.Outcome.next.inj e ▸ s.busRead_timeKept _ _ _
  | next => exact .of_beside (by apply execNext_changes _ _ e <;> exact Foot.beside _)
  | opcJump => exact .of_beside (by apply execOpcJump_changes _ _ e <;> exact Foot.beside _)
  | call => exact .of_beside (by apply execCall_changes _ _ e <;> exact Foot.beside _)
  | ret => exact .of_beside (by apply execRet_changes _ _ e <;> exact Foot.beside _)
  | loop => exact .of_beside (by apply execLoop_changes _ _ e <;> exact Foot.beside _)
  | wait => exact .of_beside (by apply execWait_changes _ _ e <;> exact Foot.beside _)
  | waitConditionMet => exact .of_beside (by apply execWaitConditionMet_changes _ _ e; exact Foot.beside _)
  | waitTimeout => exact .of_beside (by apply execWaitTimeout_changes _ e <;> exact Foot.beside _)
  | halt => exact .of_beside (by apply execHalt_changes _ _ e <;> exact Foot.beside _)
  | setreg => exact .of_beside (by apply execSetreg_changes _ _ e <;> exact Foot.beside _)
  | seg => exact .of_beside (by apply execSeg_changes _ _ e <;> exact Foot.beside _)
  | rtbl => exact .of_beside (by apply execRtbl_changes _ _ e <;> exact Foot.beside _)
  | sync => exact .of_beside (by apply execSync_changes _ _ e <;> exact Foot.beside _)
  | trap => exact .of_beside (by apply execTrap_changes _ _ e <;> exact Foot.beside _)
  | lstart => exact .of_beside (by apply execLstart_changes _ _ e <;> exact Foot.beside _)
  | lstop => exact .of_beside (by apply execLstop_changes _ _ e <;> exact Foot.beside _)
  | brel => exact .of_beside (by apply execBrel_changes _ _ e <;> exact Foot.beside _)
  | cwmsg => exact .of_beside (by apply execCwmsg_changes _ _ e <;> exact Foot.beside _)
  | timerExpire => exact .of_beside (by apply execTimerExpire_changes _ e; exact Foot.beside _)
  | holdRelease => exact .of_beside (by apply execHoldRelease_changes _ _ e; exact Foot.beside _)
  | interruptAccept => exact .of_beside (by apply execInterruptAccept_changes _ _ e <;> exact Foot.beside _)
  | mgtHeartbeat => exact .of_beside (by apply execMgtHeartbeat_changes e; exact Foot.beside _)
  | wedge => exact Host.Outcome.next.inj e ▸ s.wedge_timeKept _ _ _
  | laneStart => exact .of_beside (by apply execLaneStart_changes _ _ e <;> exact Foot.beside _)
  | vectorIssue => exact .of_beside (by apply execVectorIssue_changes _ _ e <;> exact Foot.beside _)
  | edgeFormation => exact .of_beside (by apply execEdgeFormation_changes _ e <;> exact Foot.beside _)
  | edgePlacement => exact .of_beside (by apply execEdgePlacement_changes _ e; exact Foot.beside _)
  | strobe => exact .of_beside (by apply execStrobe_changes _ _ _ _ e <;> exact Foot.beside _)
  | responseLookup => exact .of_beside (by apply execResponseLookup_changes _ e <;> exact Foot.beside _)
  | hostLoadStrobe => exact .of_beside (by apply execHostLoadStrobe_changes _ _ e <;> exact Foot.beside _)
  | loadStrobe => exact .of_beside (by apply execLoadStrobe_changes _ _ _ e <;> exact Foot.beside _)
  | rangingEnd => exact .of_beside (by apply execRangingEnd_changes _ e <;> exact Foot.beside _)
  | rampStep => exact .of_beside (by apply execRampStep_changes _ e <;> exact Foot.beside _)
  | peStagingWrite => exact .of_beside (by apply execPeStagingWrite_changes _ _ _ e <;> exact Foot.beside _)
  | comparatorCrossing => exact .of_beside (by apply execComparatorCrossing_changes _ _ _ _ e <;> exact Foot.beside _)
  | monitorStart => exact .of_beside (by apply execMonitorStart_changes _ _ e <;> exact Foot.beside _)
  | monitorConversionEnd => exact .of_beside (by apply execMonitorConversionEnd_changes _ _ _ e <;> exact Foot.beside _)
  | refillBlockRequest => exact .of_beside (by apply execRefillBlockRequest_changes _ e <;> exact Foot.beside _)
  | refillBlockArrive => exact .of_beside (by apply execRefillBlockArrive_changes _ e <;> exact Foot.beside _)
  | jumpGrant => exact .of_beside (by apply execJumpGrant_changes _ _ e <;> exact Foot.beside _)
  | sluicePost => exact .of_beside (by apply execSluicePost_changes _ _ e <;> exact Foot.beside _)
  | sluiceCreditReturn => exact .of_beside (by apply execSluiceCreditReturn_changes _ e <;> exact Foot.beside _)
  | plnSluiceConfigWrite => exact .of_beside (by apply execPlnSluiceConfigWrite_changes _ _ _ e <;> exact Foot.beside _)
  | laneIdle => exact .of_beside (by apply execLaneIdle_changes _ e <;> exact Foot.beside _)
  | planEnd => exact .of_beside (by apply execPlanEnd_changes e <;> exact Foot.beside _)
  | alignedStart => exact .of_beside (by apply execAlignedStart_changes _ e <;> exact Foot.beside _)
  | alignedStartTimeout => exact .of_beside (by apply execAlignedStartTimeout_changes e <;> exact Foot.beside _)
  | strobeResultJudge => exact .of_beside (by apply execStrobeResultJudge_changes _ e <;> exact Foot.beside _)
  | failWriterDrain => exact .of_beside (by apply execFailWriterDrain_changes _ _ _ e <;> exact Foot.beside _)
  | lostRecordWrite => exact .of_beside (by apply execLostRecordWrite_changes _ e <;> exact Foot.beside _)
  | flSiteMaskWrite half v =>
    refine .of_beside ?_
    cases half with
    | lo => exact execFlSiteMaskWrite_changes .lo v (e : execFlSiteMaskWrite .lo v s = .next t) (Foot.beside _) (Foot.beside _)
    | hi => exact execFlSiteMaskWrite_changes .hi v (e : execFlSiteMaskWrite .hi v s = .next t) (Foot.beside _) (Foot.beside _)
  | flConfigWrite => exact .of_beside (by apply execFlConfigWrite_changes _ _ e <;> exact Foot.beside _)
  | flClear => exact .of_beside (by apply execFlClear_changes _ e <;> exact Foot.beside _)
  | flClearDone => exact .of_beside (by apply execFlClearDone_changes e <;> exact Foot.beside _)
  | failCounterWindowWrite => exact .of_beside (by apply execFailCounterWindowWrite_changes _ _ _ e <;> exact Foot.beside _)
  | tiaArm => exact .of_beside (by apply execTiaArm_changes _ e <;> exact Foot.beside _)
  | tiaArmInstant => exact .of_beside (by apply execTiaArmInstant_changes _ _ e <;> exact Foot.beside _)
  | tiaAbort => exact .of_beside (by apply execTiaAbort_changes _ _ e <;> exact Foot.beside _)
  | tiaNWrite => exact .of_beside (by apply execTiaNWrite_changes _ _ _ e <;> exact Foot.beside _)
  | tiaConfigWrite => exact .of_beside (by apply execTiaConfigWrite_changes _ _ _ e <;> exact Foot.beside _)
  | transitionTimestamp => exact .of_beside (by apply execTransitionTimestamp_changes _ _ _ _ _ _ e <;> exact Foot.beside _)
  | tiaEvent => exact .of_beside (by apply execTiaEvent_changes _ e <;> exact Foot.beside _)
  | frequencyGateEnd => exact .of_beside (by apply execFrequencyGateEnd_changes _ e <;> exact Foot.beside _)
  | tiaTimeout => exact .of_beside (by apply execTiaTimeout_changes _ e <;> exact Foot.beside _)
  | tiaRangeEnd => exact .of_beside (by apply execTiaRangeEnd_changes _ e <;> exact Foot.beside _)
  | codeDensityStart => exact .of_beside (by apply execCodeDensityStart_changes _ _ e <;> exact Foot.beside _)
  | codeDensityEnd => exact .of_beside (by apply execCodeDensityEnd_changes _ _ _ e <;> exact Foot.beside _)
  | lineLock => exact .of_beside (by apply execLineLock_changes _ _ e <;> exact Foot.beside _)
  | lineUnlock => exact .of_beside (by apply execLineUnlock_changes _ _ e <;> exact Foot.beside _)
  | lineAcquireTimeout => exact .of_beside (by apply execLineAcquireTimeout_changes _ _ e <;> exact Foot.beside _)
  | pmuStagingWrite => exact .of_beside (by apply execPmuStagingWrite_changes _ _ _ e <;> exact Foot.beside _)
  | pmuSyncWrite => exact .of_beside (by apply execPmuSyncWrite_changes _ _ e <;> exact Foot.beside _)
  | syncReset => exact .of_beside (by apply execSyncReset_changes _ _ e <;> exact Foot.beside _)
  | resultWord => exact .of_beside (by apply execResultWord_changes _ _ e <;> exact Foot.beside _)
  | pmuDcbWrite => exact .of_beside (by apply execPmuDcbWrite_changes _ _ e <;> exact Foot.beside _)
  | clampEntry => exact .of_beside (by apply execClampEntry_changes _ _ e <;> exact Foot.beside _)
  | acqArm => exact .of_beside (by apply execAcqArm_changes _ e <;> exact Foot.beside _)
  | acqArmInstant => exact .of_beside (by apply execAcqArmInstant_changes _ _ e; exact Foot.beside _)
  | acqAbort => exact .of_beside (by apply execAcqAbort_changes _ e <;> exact Foot.beside _)
  | acqForce => exact .of_beside (by apply execAcqForce_changes _ e <;> exact Foot.beside _)
  | triggerSample => exact .of_beside (by apply execTriggerSample_changes _ e <;> exact Foot.beside _)
  | stateTimeout => exact .of_beside (by apply execStateTimeout_changes _ e <;> exact Foot.beside _)
  | rearmEnd => exact .of_beside (by apply execRearmEnd_changes _ e <;> exact Foot.beside _)
  | spillRecord => exact .of_beside (by apply execSpillRecord_changes _ _ _ _ e <;> exact Foot.beside _)
  | acqSpillRdWrite => exact .of_beside (by apply execAcqSpillRdWrite_changes _ _ e <;> exact Foot.beside _)
  | acqSpillConfigWrite => exact .of_beside (by apply execAcqSpillConfigWrite_changes _ _ _ e <;> exact Foot.beside _)
  | acqConfigWrite => exact .of_beside (by apply execAcqConfigWrite_changes _ _ _ e <;> exact Foot.beside _)
  | ddsTokenIssue => exact .of_beside (by apply execDdsTokenIssue_changes _ e <;> exact Foot.beside _)
  | ddsEntryWrite => exact .of_beside (by apply execDdsEntryWrite_changes _ _ _ e <;> exact Foot.beside _)
  | ddsEntryRead => exact .of_beside (by apply execDdsEntryRead_changes _ _ e <;> exact Foot.beside _)
  | tdNTouchdown => exact .of_beside (by apply execTdNTouchdown_changes e <;> exact Foot.beside _)
  | tdNLiftoff => exact .of_beside (by apply execTdNLiftoff_changes e <;> exact Foot.beside _)
  | sndStart => exact .of_beside (by apply execSndStart_changes e <;> exact Foot.beside _)
  | sndClrMask => exact .of_beside (by apply execSndClrMask_changes e <;> exact Foot.beside _)
  | soundingPassStart => exact .of_beside (by apply execSoundingPassStart_changes e <;> exact Foot.beside _)
  | contactJudge => exact .of_beside (by apply execContactJudge_changes e <;> exact Foot.beside _)
  | tdrHalfEnd => exact .of_beside (by apply execTdrHalfEnd_changes e <;> exact Foot.beside _)
  | soundingPassEnd => exact .of_beside (by apply execSoundingPassEnd_changes _ e <;> exact Foot.beside _)
  | soundingTimeout => exact .of_beside (by apply execSoundingTimeout_changes e <;> exact Foot.beside _)
  | calAbort => exact .of_beside (by apply execCalAbort_changes _ e <;> exact Foot.beside _)
  | calStepEnd => exact .of_beside (by apply execCalStepEnd_changes _ e <;> exact Foot.beside _)
  | calDone => exact .of_beside (by apply execCalDone_changes _ e <;> exact Foot.beside _)
  | calStoreStep => exact .of_beside (by apply execCalStoreStep_changes _ _ e <;> exact Foot.beside _)
  | calStoreCommit => exact .of_beside (by apply execCalStoreCommit_changes _ e <;> exact Foot.beside _)
  | portTrainRetry => exact .of_beside (by apply execPortTrainRetry_changes _ _ e; exact Foot.beside _)
  | portTrained => exact .of_beside (by apply execPortTrained_changes _ e; exact Foot.beside _)
  | identExchange => exact .of_beside (by apply execIdentExchange_changes _ _ e <;> exact Foot.beside _)
  | linkCalibration => exact .of_beside (by apply execLinkCalibration_changes _ _ _ e <;> exact Foot.beside _)
  | refusedRetry => exact .of_beside (by apply execRefusedRetry_changes _ e; exact Foot.beside _)
  | electionCell => exact .of_beside (by apply execElectionCell_changes e; exact Foot.beside _)
  | electionSettle => exact .of_beside (by apply execElectionSettle_changes _ e <;> exact Foot.beside _)
  | linkLoss => exact .of_beside (by apply execLinkLoss_changes _ e <;> exact Foot.beside _)
  | creditReturn => exact .of_beside (by apply execCreditReturn_changes _ _ e; exact Foot.beside _)
  | cellInject => exact .of_beside (by apply execCellInject_changes _ e <;> exact Foot.beside _)
  | cwySendWrite => exact .of_beside (by apply execCwySendWrite_changes _ e <;> exact Foot.beside _)
  | cwTrig => exact .of_beside (by apply execCwTrig_changes _ _ e <;> exact Foot.beside _)
  | cwJump => exact .of_beside (by apply execCwJump_changes _ _ e <;> exact Foot.beside _)
  | cwTouch => exact .of_beside (by apply execCwTouch_changes _ _ e <;> exact Foot.beside _)
  | cwLift => exact .of_beside (by apply execCwLift_changes _ _ e <;> exact Foot.beside _)
  | cwUser => exact .of_beside (by apply execCwUser_changes _ _ e <;> exact Foot.beside _)
  | cwStart => exact .of_beside (by apply execCwStart_changes _ _ e <;> exact Foot.beside _)
  | cwSummary => exact .of_beside (by apply execCwSummary_changes _ _ e <;> exact Foot.beside _)
  | marchWindow => exact .of_beside (by apply execMarchWindow_changes _ _ _ e <;> exact Foot.beside _)
  | heldRetire => exact .of_beside (by apply execHeldRetire_changes e <;> exact Foot.beside _)
  | retentionEntry => exact .of_beside (by apply execRetentionEntry_changes _ e; exact Foot.beside _)
  | retentionWake => exact .of_beside (by apply execRetentionWake_changes _ e <;> exact Foot.beside _)
  | sensorRead => exact .of_beside (by apply execSensorRead_changes _ _ e <;> exact Foot.beside _)
  | suppliesInRange => exact .of_beside (by apply execSuppliesInRange_changes e <;> exact Foot.beside _)
  | pcieLinkUp => exact .of_beside (by apply execPcieLinkUp_changes _ _ e; exact Foot.beside _)
  | phaseSlewEnd => exact .of_beside (by apply execPhaseSlewEnd_changes e; exact Foot.beside _)
  | modulatorOverload => exact .of_beside (by apply execModulatorOverload_changes _ _ e <;> exact Foot.beside _)
  | clampExit => exact .of_beside (by apply execClampExit_changes _ _ e <;> exact Foot.beside _)

/-- A cold start begins only with the pulse off. -/
theorem State.coldStart_eppOrdered {s : State} (supplies : Nat) {p : Prop} [Decidable p] (h : s.eppOrdered) :
    (if p then s.coldStart supplies else s).eppOrdered := by
  split
  · exact State.eppOrdered_of_reset (s.coldStart_period supplies)
  · exact h

/-- Every command keeps the order of PERIOD and WIDTH (R65). -/
theorem exec_eppOrdered (i : Instr) {s t : State} (e : exec i s = .next t) (ho : s.eppOrdered) : t.eppOrdered := by
  by_cases h : setsOptime s i = false
  · exact (exec_timeKept i h e).order ho
  unfold setsOptime at h
  split at h
  · exact Host.Outcome.next.inj e ▸ State.coldStart_eppOrdered 1 ho
  · exact Host.Outcome.next.inj e ▸ State.eppOrdered_of_reset (s.powerDown_rd _)
  · exact Host.Outcome.next.inj e ▸ State.coldStart_eppOrdered 0xF ho
  · refine State.eppOrdered_of_frame (s := s) ?_ ho
    refine (?_ : Evolves (.one .clk :: besideTime) s t).1
    apply execPersistentAreaScan_changes e
    case a3 => exact allows_clk
    all_goals exact Foot.besidePulse _
  · have hcold : s.boot.cold = true := by simpa using h
    have he : t = s.warmEnd := (Host.Outcome.next.inj e).symm
    rw [he, State.warmEnd, if_pos hcold]
    exact State.coldStart_eppOrdered _ ho
  · refine State.eppOrdered_of_frame (s := s) ?_ ho
    refine (?_ : Evolves (.one .clk :: besideTime) s t).1
    apply execOptimeMs_changes e
    case a2 => exact allows_clk
    all_goals exact Foot.besidePulse _
  · exact absurd rfl h

/-- Settles O57: an idle step leaves the registers, and every command keeps their order. -/
theorem epochPulseKeepsItsOrder : Obligations.EpochPulseKeepsItsOrder := by
  intro s t ho e
  obtain ⟨-, rfl⟩ | ⟨c, rest, -, he⟩ := step_cases e
  · exact ho
  · exact exec_eppOrdered c he (s := { s with pending := rest }) ho

/-- A millisecond counts one, and nothing at the top or without power (R68). -/
theorem State.optimeMs_counts (s : State) :
    s.optimeMs.clk.optime.toNat = s.clk.optime.toNat ∨ s.optimeMs.clk.optime.toNat = s.clk.optime.toNat + 1 := by
  cases hp : s.powered with
  | false => exact .inl (by rw [State.optimeMs_off hp, State.mgtTick_clk])
  | true =>
    by_cases htop : s.clk.optime = 0xFFFFFFFFFF
    · exact .inl (by rw [State.optimeMs_top htop, State.mgtTick_clk])
    · refine .inr ?_
      rw [State.optimeMs_below hp htop, State.raiseIf_clk, State.optimeNext_clk, State.mgtTick_clk]
      exact optime_succ htop

theorem setsOptime_eq_false {s : State} {c : Instr} (hup : c ≠ .vinPowerUp) (hdown : c ≠ .vinPowerDown) (hcold : c ≠ .pfwColdStart)
    (hscan : c ≠ .persistentAreaScan) (hwarm : c = .warmResetEnd → s.boot.cold = false) (hms : c ≠ .optimeMs) : setsOptime s c = false := by
  unfold setsOptime
  split
  · exact absurd rfl hup
  · exact absurd rfl hdown
  · exact absurd rfl hcold
  · exact absurd rfl hscan
  · exact hwarm rfl
  · exact absurd rfl hms
  · rfl

/-- Settles O58: beside the millisecond and the rows that the statement names, every command keeps operating time. -/
theorem operatingTimeNeverFalls : Obligations.OperatingTimeNeverFalls := by
  intro s t c rest hpending e hup hdown hcold hscan hwarm
  have he : exec c { s with pending := rest } = .next t := by rwa [step, hpending] at e
  by_cases hms : c = .optimeMs
  · have ht : { s with pending := rest }.optimeMs = t := Host.Outcome.next.inj (hms ▸ he)
    have hcounts := ht ▸ State.optimeMs_counts { s with pending := rest }
    refine ⟨?_, ?_, fun h => absurd hms h⟩ <;> rcases hcounts with hc | hc <;> rw [hc] <;> simp
  · have hsets : setsOptime { s with pending := rest } c = false := setsOptime_eq_false hup hdown hcold hscan hwarm hms
    have hkept : t.clk.optime = s.clk.optime := (exec_timeKept c hsets he).optime
    rw [hkept]
    exact ⟨le_rfl, Nat.le_succ _, fun _ => rfl⟩

end Sys2Proof.Machine

/-! A host write leaves every sealed field (R8, R109, R110). -/

namespace Sys2Proof.Machine

/-! ### Where the sealed fields lie -/

/-- The offset of a register in the first cluster, or in its first channel page; a device register stands for itself (R11, R528). -/
def regSlot (o : Nat) : Nat := if o < 0x800000 then o else 0x800000 + localOff o

/-- The slots of the registers with sealed fields, beside the routing registers. -/
def sealedSlots : List Nat :=
  [Reg.idPeat, 0x1000C, Reg.clkOutCtl, 0x30004, Reg.cwyCfg, 0x40008, Reg.cwyTmo, Reg.memVecBase, Reg.memVecBase + 4, Reg.memFailBase,
    Reg.memFailBase + 4, Reg.memSpillBase, Reg.memSpillBase + 4, 0x80004, Reg.sndCtLim, Reg.pwrCfg, 0xA0000 + Reg.seqWdog,
    0x800000 + Reg.seqWdog, 0x810000 + Reg.tgPair, 0x810000 + Reg.peLimitV, 0x8101A4, 0x810200, 0x810000 + Reg.pmuLimitV,
    0x810000 + Reg.pmuLimitCfg]

/-- The slot of a register that can hold sealed fields. -/
def sealedSlot (o : Nat) : Bool := sealedSlots.contains o || inRange Reg.hstRoute (Reg.hstRoute + 319) o

/-- Every register of a row: those of an array lie one stride apart. -/
theorem RegRow.exists_of_hits {r : RegRow} {o : Nat} (h : r.hits o = true) : ∃ k < r.count, o = r.off + k * r.stride := by
  unfold RegRow.hits at h
  split at h
  next hc =>
    refine ⟨0, by omega, ?_⟩
    simpa using h
  next =>
    simp only [Bool.and_eq_true, decide_eq_true_eq, beq_iff_eq] at h
    obtain ⟨⟨hle, hmod⟩, hlt⟩ := h
    refine ⟨_, hlt, ?_⟩
    have := Nat.div_add_mod' (o - r.off) r.stride
    omega

/-- What holds of a row that is found holds of the register it is found for. -/
theorem of_find?_hits {rows : List RegRow} {r : RegRow} {o : Nat} {q : RegRow → Nat → Bool}
    (hall : rows.all (fun r => (List.range r.count).all (fun k => q r (r.off + k * r.stride))) = true)
    (h : rows.find? (fun r : RegRow => r.hits o) = some r) : q r o = true := by
  have hhit : r.hits o = true := List.find?_some (p := fun r : RegRow => r.hits o) h
  obtain ⟨k, hk, rfl⟩ := RegRow.exists_of_hits hhit
  exact List.all_eq_true.mp (List.all_eq_true.mp hall r (List.mem_of_find?_eq_some h)) k (List.mem_range.mpr hk)

/-- What a row asks of its register with regard to sealing: a sealed field lies at a sealed slot, and no bit of it is written or cleared. -/
def rowSealsAt (base : Nat) (r : RegRow) (o : Nat) : Bool :=
  r.sl == 0 || (sealedSlot (base + o) && (r.sl &&& (r.rw ||| r.w1c)) == 0)

theorem regSlot_of_lt {o : Nat} (h : o < 0x800000) : regSlot o = o := if_pos h

theorem regSlot_cluster {o : Nat} (h : 0x800000 ≤ o) (hrel : (o - 0x800000) % 0x20000 < 0x10000) :
    regSlot o = 0x800000 + (o - 0x800000) % 0x20000 := by
  simp only [regSlot, localOff, if_neg (Nat.not_lt.mpr h), hrel, if_true]

theorem regSlot_channel {o : Nat} (h : 0x800000 ≤ o) (hrel : ¬ (o - 0x800000) % 0x20000 < 0x10000) :
    regSlot o = 0x810000 + (o - 0x800000) % 0x20000 % 0x1000 := by
  simp only [regSlot, localOff, if_neg (Nat.not_lt.mpr h), hrel, if_false]
  omega

theorem rows_seal_device : (regRowsDevice ++ regRowsArray).all
    (fun r => (List.range r.count).all (fun k => rowSealsAt 0 r (r.off + k * r.stride))) = true := by decide +kernel

theorem rows_seal_master : regRowsCluster.all (fun r => (List.range r.count).all
    (fun k => !(r.scope == .seq) || rowSealsAt 0xA0000 r (r.off + k * r.stride))) = true := by decide +kernel

theorem rows_seal_cluster : regRowsCluster.all
    (fun r => (List.range r.count).all (fun k => rowSealsAt 0x800000 r (r.off + k * r.stride))) = true := by decide +kernel

theorem rows_seal_channel : regRowsChannel.all
    (fun r => (List.range r.count).all (fun k => rowSealsAt 0x810000 r (r.off + k * r.stride))) = true := by decide +kernel


theorem plainReg_regSlot {o : Nat} (h : o < 0xC00000) : plainReg (regSlot o) = plainReg o := by
  rcases Nat.lt_or_ge o 0x800000 with hlt | hge
  · rw [regSlot_of_lt hlt]
  have hnlt : ¬ o < 0x800000 := by omega
  have hnge : ¬ 0xC00000 ≤ o := by omega
  by_cases hrel : (o - 0x800000) % 0x20000 < 0x10000
  · rw [regSlot_cluster hge hrel]
    generalize hr : (o - 0x800000) % 0x20000 = rel at hrel
    have h1 : ¬ 0xC00000 ≤ 0x800000 + rel := by omega
    have h2 : ¬ 0x800000 + rel < 0x800000 := by omega
    have h3 : (0x800000 + rel - 0x800000) % 0x20000 = rel := by rw [Nat.add_sub_cancel_left]; omega
    simp only [plainReg, hnlt, hnge, h1, h2, h3, hr, hrel, if_true, if_false]
  · rw [regSlot_channel hge hrel]
    generalize hr : (o - 0x800000) % 0x20000 = rel at hrel
    have h1 : ¬ 0xC00000 ≤ 0x810000 + rel % 0x1000 := by omega
    have h2 : ¬ 0x810000 + rel % 0x1000 < 0x800000 := by omega
    have h3 : (0x810000 + rel % 0x1000 - 0x800000) % 0x20000 = 0x10000 + rel % 0x1000 := by
      rw [show 0x810000 + rel % 0x1000 = 0x800000 + (0x10000 + rel % 0x1000) by omega, Nat.add_sub_cancel_left]
      omega
    have h4 : ¬ 0x10000 + rel % 0x1000 < 0x10000 := by omega
    have h5 : (0x10000 + rel % 0x1000) % 0x1000 = rel % 0x1000 := by omega
    simp only [plainReg, hnlt, hnge, h1, h2, h3, h4, h5, hr, hrel, if_false]

theorem rowSealsAt_zero {base off slot : Nat} {r : RegRow} (he : slot = base + off) (h : rowSealsAt base r off = true) :
    rowSealsAt slot r 0 = true := by
  subst he
  simpa only [rowSealsAt, Nat.add_zero] using h

/-- The row of every register keeps to its slot. -/
theorem findRow_seals {o : Nat} {r : RegRow} (h : findRow o = some r) : rowSealsAt (regSlot o) r 0 = true := by
  have hdevice : o < 0x800000 → (regRowsDevice ++ regRowsArray).find? (fun r => r.hits o) = some r → rowSealsAt (regSlot o) r 0 = true :=
    fun hlt hf => rowSealsAt_zero (by rw [regSlot_of_lt hlt, Nat.zero_add]) (of_find?_hits (q := rowSealsAt 0) rows_seal_device hf)
  unfold findRow at h
  split_ifs at h with h1 h2 h3 h4
  · exact hdevice (by omega) h
  · have hfound := List.find?_some h
    simp only [Bool.and_eq_true] at hfound
    obtain ⟨k, hk, he⟩ := RegRow.exists_of_hits hfound.2
    have hrow := List.all_eq_true.mp (List.all_eq_true.mp rows_seal_master r (List.mem_of_find?_eq_some h)) k (List.mem_range.mpr hk)
    simp only [hfound.1, Bool.not_true, Bool.false_or, ← he] at hrow
    exact rowSealsAt_zero (by rw [regSlot_of_lt (by omega)]; omega) hrow
  · exact hdevice h3 h
  · by_cases hrel : (o - 0x800000) % 0x20000 < 0x10000
    · simp only [hrel, if_true] at h
      exact rowSealsAt_zero (regSlot_cluster (by omega) hrel) (of_find?_hits (q := rowSealsAt 0x800000) rows_seal_cluster h)
    · simp only [hrel, if_false] at h
      exact rowSealsAt_zero (regSlot_channel (by omega) hrel) (of_find?_hits (q := rowSealsAt 0x810000) rows_seal_channel h)

/-- A register with sealed fields lies at a sealed slot, and its sealed bits are neither written nor cleared. -/
theorem sealed_cases {o : Nat} {r : RegRow} (h : findRow o = some r) :
    r.sl = 0 ∨ (sealedSlot (regSlot o) = true ∧ r.sl &&& (r.rw ||| r.w1c) = 0) := by
  have hrow := findRow_seals h
  simpa only [rowSealsAt, Nat.add_zero, Bool.or_eq_true, Bool.and_eq_true, beq_iff_eq] using hrow

/-- At a sealed slot a host write has no behaviour of its own. -/
theorem plainReg_of_sealedSlot {o : Nat} (ho : o < 0xC00000) (h : sealedSlot (regSlot o) = true) : plainReg o = true := by
  have hnamed : ∀ i ∈ sealedSlots, plainReg i = true := by decide
  have hroute : ∀ k < 320, plainReg (Reg.hstRoute + k) = true := by decide +kernel
  rw [← plainReg_regSlot ho]
  simp only [sealedSlot, Bool.or_eq_true, List.contains_iff_mem, inRange, decide_eq_true_eq] at h
  obtain h | ⟨hlo, hhi⟩ := h
  · exact hnamed _ h
  · have := hroute (regSlot o - Reg.hstRoute) (by omega)
    rwa [Nat.add_sub_cancel' hlo] at this

/-! ### Footprints beside the sealed fields -/

/-- A footprint that takes in all but the registers with sealed fields. -/
def besideSealed : List Foot :=
  wholeState.erase .allRegs ++ ((List.range 0x800000).filter (fun o => !sealedSlot o)).map (fun o => .one (.reg o)) ++
    ((List.range 0x10000).filter (fun o => !sealedSlot (0x800000 + o))).map .cluReg ++
    ((List.range 0x1000).filter (fun o => !sealedSlot (0x810000 + o))).map .chReg


theorem besideSealed_other {k : Foot} (h : k ∈ wholeState.erase .allRegs) : k ∈ besideSealed := by
  simp only [besideSealed, List.mem_append]
  exact .inl (.inl (.inl h))

/-- No register outside the sealed slots is left out. -/
theorem besideSealed_covers_reg {o : Nat} (h : sealedSlot (regSlot o) = false) : ∃ k ∈ besideSealed, k.covers (.reg o) = true := by
  simp only [besideSealed, List.mem_append, List.mem_map, List.mem_filter, List.mem_range, Bool.not_eq_true']
  rcases Nat.lt_or_ge o 0x800000 with hlt | hge
  · rw [regSlot_of_lt hlt] at h
    exact ⟨.one (.reg o), .inl (.inl (.inr ⟨o, ⟨hlt, h⟩, rfl⟩)), by simp [Foot.covers]⟩
  by_cases hrel : (o - 0x800000) % 0x20000 < 0x10000
  · rw [regSlot_cluster hge hrel] at h
    exact ⟨.cluReg _, .inl (.inr ⟨_, ⟨hrel, h⟩, rfl⟩), by simp [Foot.covers, isCluReg, hge]⟩
  · rw [regSlot_channel hge hrel] at h
    refine ⟨.chReg _, .inr ⟨_, ⟨Nat.mod_lt _ (by decide), h⟩, rfl⟩, ?_⟩
    simp only [Foot.covers, isChReg, Bool.and_eq_true, decide_eq_true_eq]
    omega

/-- No register at a sealed slot is taken in. -/
theorem besideSealed_spares {o : Nat} (h : sealedSlot (regSlot o) = true) : ∀ k ∈ besideSealed, k.covers (.reg o) = false := by
  intro k hk
  rw [← Bool.not_eq_true]
  intro hc
  simp only [besideSealed, List.mem_append, List.mem_map, List.mem_filter, List.mem_range, Bool.not_eq_true'] at hk
  obtain ((hk | ⟨i, ⟨hi, hs⟩, rfl⟩) | ⟨i, ⟨hi, hs⟩, rfl⟩) | ⟨i, ⟨hi, hs⟩, rfl⟩ := hk
  · have hnone : (wholeState.erase .allRegs).all (fun k => !k.covers (.reg o)) = true := rfl
    have := List.all_eq_true.mp hnone k hk
    rw [hc] at this
    cases this
  · have : i = o := by simpa [Foot.covers] using hc
    subst this
    rw [regSlot_of_lt hi, hs] at h
    cases h
  · simp only [Foot.covers, isCluReg, Bool.and_eq_true, decide_eq_true_eq] at hc
    rw [regSlot_cluster hc.1 (by omega), hc.2, hs] at h
    cases h
  · simp only [Foot.covers, isChReg, Bool.and_eq_true, decide_eq_true_eq] at hc
    rw [regSlot_channel hc.1.1 (by omega), show (o - 0x800000) % 0x20000 % 0x1000 = i by omega, hs] at h
    cases h


/-- The entry takes in no register at a sealed slot. -/
def Foot.SparesSealed (k : Foot) : Prop := ∀ o, k.covers (.reg o) = true → sealedSlot (regSlot o) = false

theorem Foot.allows_of_sparesSealed {k : Foot} (h : k.SparesSealed) : Allows besideSealed k := by
  intro p hp
  by_cases hreg : ∃ o, p = .reg o
  · obtain ⟨o, rfl⟩ := hreg
    exact besideSealed_covers_reg (h o hp)
  · refine ⟨p.entry, besideSealed_other ?_, p.entry_covers⟩
    cases p with
    | reg o => exact absurd ⟨o, rfl⟩ hreg
    | _ => simp [Part.entry, wholeState]

/-! #### Which entries spare the sealed slots -/

theorem regSlot_cluOff (c : Nat) {r : Nat} (hr : r < 0x10000) : regSlot (cluOff c r) = 0x800000 + r := by
  have hrel : (cluOff c r - 0x800000) % 0x20000 = r := by unfold cluOff; omega
  have hge : 0x800000 ≤ cluOff c r := by unfold cluOff; omega
  rw [regSlot_cluster hge (by omega), hrel]

theorem regSlot_chOff (n : Nat) {r : Nat} (hr : r < 0x1000) : regSlot (chOff n r) = 0x810000 + r := by
  have hrel : (chOff n r - 0x800000) % 0x20000 = 0x10000 + n % 16 * 0x1000 + r := by unfold chOff; omega
  have hge : 0x800000 ≤ chOff n r := by unfold chOff; omega
  rw [regSlot_channel hge (by omega), hrel]
  omega

theorem regSlot_cluOff_next (c : Nat) {r : Nat} (hr : r + 4 < 0x10000) : regSlot (cluOff c r + 4) = 0x800000 + (r + 4) :=
  regSlot_cluOff c hr

theorem regSlot_chOff_next (n : Nat) {r : Nat} (hr : r + 4 < 0x1000) : regSlot (chOff n r + 4) = 0x810000 + (r + 4) :=
  regSlot_chOff n hr

theorem Foot.sparesSealed_reg {o : Nat} (h : sealedSlot (regSlot o) = false) : (Foot.one (.reg o)).SparesSealed := by
  intro i hi
  have : o = i := by simpa [Foot.covers] using hi
  exact this ▸ h

theorem Foot.sparesSealed_pair {o : Nat} (h : sealedSlot (regSlot o) = false) (h' : sealedSlot (regSlot (o + 4)) = false) :
    (Foot.pair o).SparesSealed := by
  intro i hi
  obtain rfl | rfl : i = o ∨ i = o + 4 := by simpa [Foot.covers] using hi
  · exact h
  · exact h'

theorem Foot.sparesSealed_chReg {r : Nat} (hr : r < 0x1000) (h : sealedSlot (0x810000 + r) = false) : (Foot.chReg r).SparesSealed := by
  intro i hi
  simp only [Foot.covers, isChReg, Bool.and_eq_true, decide_eq_true_eq] at hi
  rw [regSlot_channel hi.1.1 (by omega), show (i - 0x800000) % 0x20000 % 0x1000 = r by omega, h]

theorem Foot.sparesSealed_cluReg {r : Nat} (hr : r < 0x10000) (h : sealedSlot (0x800000 + r) = false) : (Foot.cluReg r).SparesSealed := by
  intro i hi
  simp only [Foot.covers, isCluReg, Bool.and_eq_true, decide_eq_true_eq] at hi
  rw [regSlot_cluster hi.1 (by omega), hi.2, h]

theorem Foot.sparesSealed_chPair {r : Nat} (hr : r + 4 < 0x1000) (h : sealedSlot (0x810000 + r) = false)
    (h' : sealedSlot (0x810000 + (r + 4)) = false) : (Foot.chPair r).SparesSealed := fun i hi =>
  (Bool.or_eq_true_iff.mp hi).elim (Foot.sparesSealed_chReg (by omega) h i) (Foot.sparesSealed_chReg hr h' i)

theorem Foot.sparesSealed_cluPair {r : Nat} (hr : r + 4 < 0x10000) (h : sealedSlot (0x800000 + r) = false)
    (h' : sealedSlot (0x800000 + (r + 4)) = false) : (Foot.cluPair r).SparesSealed := fun i hi =>
  (Bool.or_eq_true_iff.mp hi).elim (Foot.sparesSealed_cluReg (by omega) h i) (Foot.sparesSealed_cluReg hr h' i)

theorem Foot.sparesSealed_other {p : Part} (h : ∀ o, p ≠ .reg o) : (Foot.one p).SparesSealed := fun o hc =>
  absurd (of_decide_eq_true hc) (h o)

theorem Foot.sparesSealed_tables : ∀ k ∈ [Foot.failCnts, .drams, .chans, .clus, .lanes], k.SparesSealed := by
  simp [Foot.SparesSealed, Foot.covers]

/-- No sealed slot lies between the master's watchdog and the clusters. -/
theorem sealedSlot_above {o : Nat} (h : 0xA0069 ≤ o) (h' : o < 0x800000) : sealedSlot o = false := by
  have hmem : ∀ i ∈ sealedSlots, i < 0xA0069 ∨ 0x800000 ≤ i := by decide
  simp only [sealedSlot, Bool.or_eq_false_iff, inRange, decide_eq_false_iff_not, List.contains_eq_mem, Reg.hstRoute]
  refine ⟨fun hi => ?_, by omega⟩
  obtain hi | hi := hmem o hi <;> omega

theorem Foot.sparesSealed_regs {lo hi : Nat} (h : 0xA0069 ≤ lo) (h' : hi ≤ 0x800000) : (Foot.regs lo hi).SparesSealed := by
  intro o ho
  simp only [Foot.covers, decide_eq_true_eq] at ho
  rw [regSlot_of_lt (by omega)]
  exact sealedSlot_above (by omega) (by omega)

/-- The registers of events, completions and refused accesses. -/
theorem Foot.sparesSealed_shared : ∀ k ∈ [Foot.events, .completion, .hostError], k.SparesSealed := by
  have hall : ∀ o ∈ [Reg.hstVecPendLo, Reg.hstVecPendHi, Reg.evrStatus, Reg.evrFlags, Reg.evrFlags + 4, Reg.evrDrop, Reg.evrCommit,
      Reg.evrLog, Reg.evrLogBseq, Reg.hstCplTail, Reg.hstCplDrop, Reg.hstBadAddr, Reg.hstFlags, Reg.hstFlags + 4],
      sealedSlot (regSlot o) = false := by decide
  intro k hk o ho
  refine hall o ?_
  simp only [List.mem_cons, List.not_mem_nil, or_false] at hk
  obtain rfl | rfl | rfl := hk <;>
  · simp only [Foot.covers, vectorReg, recorderReg, Bool.or_eq_true, beq_iff_eq, List.contains_iff_mem, List.mem_cons, List.not_mem_nil,
      or_false] at ho ⊢
    tauto

/-- An entry that spares the sealed slots, by the rules above, is allowed beside them. -/
theorem Foot.allowedBesideSealed (k : Foot)
    (h : k.SparesSealed := by
      simp +decide [Foot.sparesSealed_reg, Foot.sparesSealed_pair, Foot.sparesSealed_chReg, Foot.sparesSealed_cluReg,
        Foot.sparesSealed_chPair, Foot.sparesSealed_cluPair, Foot.sparesSealed_other, Foot.sparesSealed_tables, Foot.sparesSealed_regs,
        Foot.sparesSealed_shared, regSlot_cluOff, regSlot_chOff, regSlot_cluOff_next, regSlot_chOff_next]) :
    Allows besideSealed k := Foot.allows_of_sparesSealed h

/-! ### Writes that keep the sealed fields (R8, R110) -/

/-- From `s` to `t` every sealed bit of every register stands. -/
def SealedKept (s t : State) : Prop :=
  ∀ o r, findRow o = some r → t.rd o &&& BitVec.ofNat 32 r.sl = s.rd o &&& BitVec.ofNat 32 r.sl

theorem SealedKept.refl (s : State) : SealedKept s s := fun _ _ _ => rfl

theorem SealedKept.trans {s t u : State} (h : SealedKept s t) (h' : SealedKept t u) : SealedKept s u :=
  fun o r hr => (h' o r hr).trans (h o r hr)

theorem SealedKept.of_beside {s t : State} (h : Evolves besideSealed s t) : SealedKept s t := by
  intro o r hr
  obtain h0 | ⟨hs, -⟩ := sealed_cases hr
  · rw [h0, BitVec.and_zero, BitVec.and_zero]
  · rw [h.1 (.reg o) (besideSealed_spares hs)]

/-- A plain write takes no value into sealed bits. -/
theorem takeFields_sealed {o : Nat} {r : RegRow} (hr : findRow o = some r) (old v : W32) :
    takeFields r old v &&& BitVec.ofNat 32 r.sl = old &&& BitVec.ofNat 32 r.sl := by
  obtain h0 | ⟨-, hdisj⟩ := sealed_cases hr
  · rw [h0, BitVec.and_zero, BitVec.and_zero]
  refine BitVec.eq_of_getLsbD_eq (fun i hi => ?_)
  change bitOf (takeFields r old v &&& BitVec.ofNat 32 r.sl) i = bitOf (old &&& BitVec.ofNat 32 r.sl) i
  rw [bitOf_and, bitOf_and, bitOf_takeFields r old v hi, bitOf_ofNat _ hi]
  have hbit : (r.sl.testBit i && (r.rw.testBit i || r.w1c.testBit i)) = false := by
    rw [← Nat.testBit_or, ← Nat.testBit_and, hdisj, Nat.zero_testBit]
  revert hbit
  cases r.sl.testBit i <;> cases r.rw.testBit i <;> cases r.w1c.testBit i <;> simp

theorem State.plainWrite_sealedKept (s : State) (o : Nat) (v : W32) : SealedKept s (s.plainWrite o v) := by
  intro i r hr
  by_cases hi : i = o
  · subst hi
    rw [State.plainWrite_eq s v hr, State.rd_wr_same, takeFields_sealed hr]
  · rw [State.plainWrite_rd_ne s v hi]

/-- A write to a slot without sealed fields changes none of another register. -/
theorem State.regWrite_beside (s : State) {o : Nat} (v : W32) (ho : o < 0xC00000 → sealedSlot (regSlot o) = false) :
    Evolves besideSealed s (s.regWrite o v) := by
  have h := Evolves.refl besideSealed s
  have hreg : o < 0xC00000 → Allows besideSealed (.one (.reg o)) := fun hlt =>
    Foot.allows_of_sparesSealed (Foot.sparesSealed_reg (ho hlt))
  simp only [State.regWrite]
  refine Evolves.ite (fun _ => ?_) fun hwin => Evolves.ite (fun _ => ?_) fun hdev => Evolves.ite (fun hrel => ?_) fun hrel => ?_
  · apply State.windowWrite_changes _ _ _ h <;> exact Foot.allowedBesideSealed _
  · apply State.devWrite_changes _ _ h
    case a11 => exact hreg (by omega)
    all_goals exact Foot.allowedBesideSealed _
  · have hoff : cluOff ((o - 0x800000) / 0x20000) ((o - 0x800000) % 0x20000) = o := by unfold cluOff; omega
    apply State.cluWrite_changes _ _ _ h
    case a0 =>
      rw [hoff]
      exact hreg (by omega)
    all_goals exact Foot.allowedBesideSealed _
  · have hoff : chOff (chanAt o) ((o - 0x800000) % 0x20000 % 0x1000) = o := by unfold chOff chanAt; omega
    apply State.chWrite_changes _ _ _ h
    case a0 =>
      rw [hoff]
      exact hreg (by omega)
    all_goals exact Foot.allowedBesideSealed _

theorem State.regWrite_sealedKept (s : State) (o : Nat) (v : W32) : SealedKept s (s.regWrite o v) := by
  by_cases ho : o < 0xC00000 ∧ sealedSlot (regSlot o) = true
  · rw [State.regWrite_plain s v (plainReg_of_sealedSlot ho.1 ho.2)]
    exact s.plainWrite_sealedKept o v
  · exact .of_beside (s.regWrite_beside v fun hlt => Bool.eq_false_iff.mpr fun hs => ho ⟨hlt, hs⟩)

theorem State.hostWrite_sealedKept (s : State) (o : Nat) (v : W32) : SealedKept s (s.hostWrite o v) := by
  unfold State.hostWrite State.onWrite
  split_ifs with hoff hreach
  · exact .refl s
  · refine SealedKept.trans (.of_beside ?_) ((s.sealedRecord o v).regWrite_sealedKept o v)
    apply State.sealedRecord_changes o v (Evolves.refl _ s) <;> exact Foot.allowedBesideSealed _
  · exact .of_beside (State.unmapped_changes o true (Evolves.refl _ s) (Foot.allowedBesideSealed _))

/-! #### What a host write can change at all -/

/-- The parts that a host write can change, by its register and its value. -/
def hostWriteFoot : List Foot :=
  [.allRegs, .events, .completion, .hostError, .failCnts, .drams, .one .msix, .one .cal, .one .plan, .one .snd, .one .cwy, .lanes, .clus,
    .chans, .one .freeCtr]

/-- The entry takes in registers alone. -/
def Foot.regsOnly : Foot → Bool
  | .one (.reg _) | .chReg _ | .cluReg _ | .pair _ | .chPair _ | .cluPair _ | .chRegs _ _ | .cluRegs _ _ | .regs _ _ | .allRegs => true
  | _ => false

theorem Foot.reg_of_regsOnly {k : Foot} {p : Part} (h : k.regsOnly = true) (hp : k.covers p = true) : ∃ o, p = .reg o := by
  cases p with
  | reg o => exact ⟨o, rfl⟩
  | _ =>
    unfold Foot.regsOnly at h
    split at h
    case h_11 => cases h
    all_goals simp [Foot.covers] at hp

/-- A footprint with every register allows its own entries and those that take in registers alone. -/
theorem Allows.inside {K : List Foot} {k : Foot} (hall : .allRegs ∈ K) (h : k.regsOnly = true ∨ k ∈ K) : Allows K k := by
  intro p hp
  obtain h | h := h
  · obtain ⟨o, rfl⟩ := Foot.reg_of_regsOnly h hp
    exact ⟨.allRegs, hall, rfl⟩
  · exact ⟨k, h, hp⟩

theorem State.hostWrite_frame (s : State) (o : Nat) (v : W32) : ChangesOnly hostWriteFoot s (s.hostWrite o v) := by
  have h : Evolves hostWriteFoot s (s.hostWrite o v) := by
    apply State.hostWrite_changes o v (Evolves.refl _ s)
    all_goals exact Allows.inside List.mem_cons_self (by simp [Foot.regsOnly, hostWriteFoot])
  exact h.1

/-- Settles O60: a write at a sealed slot is a plain one, which takes no value into sealed bits; any other goes beside those slots. -/
theorem hostWritesLeaveSealedBits : Obligations.HostWritesLeaveSealedBits := by
  intro s off v i hi
  exact ⟨_, exec_hostWrite hi, s.hostWrite_sealedKept off.toNat v, s.hostWrite_frame off.toNat v⟩

end Sys2Proof.Machine


/-! Cold starts and warm resets: VIN_POWER_UP, PFW_COLD_START, WARM_RESET_END, RST_N_ASSERT, PERST_ASSERT, DEVICE_RESET_START (R101, R501 to
R503, R517). -/

namespace Sys2Proof.Machine

/-! ### Cold starts (R101, R309) -/

/-- A write of one value to each of a list of registers leaves everything but the registers. -/
theorem State.foldl_wr_eq (f : Nat → Nat) (v : W32) (l : List Nat) (s : State) :
    l.foldl (fun t n => t.wr (f n) v) s = { s with regs := (l.foldl (fun t n => t.wr (f n) v) s).regs } := by
  induction l generalizing s with
  | nil => rfl
  | cons n l ih => exact ih (s.wr (f n) v)

/-- Each register of the list then holds the value, and every other register what it held. -/
theorem State.foldl_wr_rd (f : Nat → Nat) (v : W32) (l : List Nat) (s : State) (o : Nat) :
    (l.foldl (fun t n => t.wr (f n) v) s).rd o = if o ∈ l.map f then v else s.rd o := by
  induction l generalizing s with
  | nil => rfl
  | cons n l ih =>
    rw [List.foldl_cons, ih, State.rd_wr, List.map_cons]
    by_cases hl : o ∈ l.map f <;> by_cases hn : o = f n <;> simp [hl, hn]

/-- The state of a cold start before its lines acquire. -/
def State.coldBase (s : State) (supplies : Nat) : State :=
  let s1 := s.volatileReset false false
  ({ s1 with
    boot := { s1.boot with stage := .booting, cold := true },
    clk := { s1.clk with epoch := 0, ref10 := none, optime := 0, pcycle := 0, pulse := false, frac := 0, outEn := 0 },
    nvm := { s1.nvm with up := false, scanned := false, noFlash := false },
    mem := { s1.mem with dram := [] } } : State).wrF Reg.pwrStatus 3 0 supplies

theorem State.coldStart_eq (s : State) (supplies : Nat) :
    s.coldStart supplies = { s.coldBase supplies with regs := (s.coldStart supplies).regs } :=
  State.foldl_wr_eq _ _ _ (s.coldBase supplies)

theorem State.coldStart_rd (s : State) (supplies o : Nat) :
    (s.coldStart supplies).rd o =
      if o ∈ (List.range 512).map (fun n => chOff n Reg.tiaLine) then 0x555 else (s.coldBase supplies).rd o :=
  State.foldl_wr_rd _ _ _ (s.coldBase supplies) o

theorem State.coldStart_rd_line (s : State) (supplies : Nat) (n : Fin 512) : (s.coldStart supplies).rd (chOff n Reg.tiaLine) = 0x555 := by
  rw [State.coldStart_rd, if_pos]
  exact List.mem_map.mpr ⟨n, List.mem_range.mpr n.isLt, rfl⟩

theorem State.coldStart_rd_other (s : State) (supplies : Nat) {o : Nat} (ho : ∀ n : Fin 512, o ≠ chOff n Reg.tiaLine) :
    (s.coldStart supplies).rd o = (s.coldBase supplies).rd o := by
  rw [State.coldStart_rd, if_neg]
  intro hmem
  obtain ⟨n, hn, he⟩ := List.mem_map.mp hmem
  exact ho ⟨n, List.mem_range.mp hn⟩ he.symm

/-- No line of a channel is among the device's registers. -/
theorem ne_tiaLine_of_lt {o : Nat} (h : o < 0x800000) (n : Fin 512) : o ≠ chOff n Reg.tiaLine := by
  unfold chOff
  omega

/-- HST_STATUS keeps its link bits only with the link: a reset that loses it leaves the reset value. -/
theorem State.volatileReset_hstStatus (s : State) (warm link : Bool) :
    (s.volatileReset warm link).rd Reg.hstStatus =
      withField (resetWord Reg.hstStatus) 8 2 (if link then s.rdF Reg.hstStatus 8 2 else 0) := by
  unfold State.volatileReset
  rw [State.rd_wrF_ne _ (by decide), State.wrF, State.rd_wr_same]
  refine congrArg (fun v => withField v 8 2 _) ?_
  cases warm with
  | false => rfl
  | true => exact Tbl.get_filter_none resetWord _ _ (fun _ => rfl) s.regs

theorem State.coldBase_rd (s : State) (supplies : Nat) {o : Nat} (hp : o ≠ Reg.pwrStatus) : (s.coldBase supplies).rd o = resetWord o := by
  refine (State.rd_wrF_ne _ hp _ _ _).trans ?_
  change (s.volatileReset false false).rd o = _
  by_cases hs : o = Reg.hstStatus
  · rw [hs, State.volatileReset_hstStatus]
    exact (by decide +kernel : withField (resetWord Reg.hstStatus) 8 2 0 = resetWord Reg.hstStatus)
  · exact State.volatileReset_rd s false false hs hp (by simp)

theorem State.coldStart_coldStarted (s : State) {supplies : Nat} (h : supplies < 16) : ColdStarted (s.coldStart supplies) supplies := by
  have hrd : ∀ o, o ≠ Reg.pwrStatus → (∀ n : Fin 512, o ≠ chOff n Reg.tiaLine) → (s.coldStart supplies).rd o = resetWord o :=
    fun o hp ho => (s.coldStart_rd_other supplies ho).trans (s.coldBase_rd supplies hp)
  have hphase : (s.coldStart supplies).phase = 0 := by
    unfold State.phase State.rdF
    rw [hrd _ (by decide) (ne_tiaLine_of_lt (by decide))]
    decide +kernel
  have hsupplies : (s.coldStart supplies).rdF Reg.pwrStatus 3 0 = supplies := by
    unfold State.rdF
    rw [s.coldStart_rd_other supplies (ne_tiaLine_of_lt (by decide))]
    exact (State.rdF_wrF_same _ _ _ (by decide) (by decide)).trans (Nat.mod_eq_of_lt h)
  refine ⟨?_, ?_, ?_, hphase, hrd, hsupplies, s.coldStart_rd_line supplies, ?_⟩
  iterate 3 (rw [State.coldStart_eq]; rfl)
  rw [State.coldStart_eq]
  exact ⟨rfl, rfl, rfl, rfl, rfl, rfl, rfl, rfl, rfl⟩

/-- A cold start changes what is volatile: host memory is the host's own. -/
theorem State.coldStart_frame (s : State) (supplies : Nat) : ChangesOnly volatileFoot s (s.coldStart supplies) := by
  have hall : Evolves (.one .hostMem :: volatileFoot) s (s.coldStart supplies) := by
    apply State.coldStart_changes supplies (Evolves.refl _ s) <;> exact Allows.mem (by decide)
  refine hall.1.drop_part ?_
  rw [State.coldStart_eq]
  rfl

theorem completes_of_coldStart {i : Instr} {s : State} {supplies : Nat} (h : exec i s = .next (s.coldStart supplies))
    (hlt : supplies < 16) : Completes i s volatileFoot (fun t => ColdStarted t supplies) :=
  ⟨_, h, s.coldStart_coldStarted hlt, s.coldStart_frame supplies⟩

/-! ### Warm resets (R502, R503) -/

/-- The state whose recorder has written its queue, where it has started (R484). -/
def State.flushed (s : State) : State := if s.evr.started then s.evrFlush else s

theorem State.flushed_frame (s : State) : ChangesOnly [.events] s s.flushed :=
  (Evolves.ite (fun _ => State.evrFlush_events (Evolves.refl _ s) (Allows.mem List.mem_cons_self)) (fun _ => Evolves.refl _ s)).1

theorem State.flushed_rdF (s : State) (m l : Nat) {o : Nat} (h : Foot.covers .events (.reg o) = false) :
    s.flushed.rdF o m l = s.rdF o m l :=
  congrArg (fun v => fieldOf v m l) (s.flushed_frame (.reg o) (by simpa using h))

theorem keptReg_ge {o : Nat} (h : keptReg o = true) : 0x800000 ≤ o := by
  simp only [keptReg, Bool.and_eq_true, decide_eq_true_eq] at h
  exact h.1

/-- The recorder and the vectors have no register among the clusters. -/
theorem events_covers_cluster {o : Nat} (h : 0x800000 ≤ o) : Foot.covers .events (.reg o) = false := by
  simp only [Foot.covers, vectorReg, recorderReg, List.contains_cons, List.contains_nil, Bool.or_eq_false_iff, beq_eq_false_iff_ne, Reg.hstVecPendLo,
    Reg.hstVecPendHi, Reg.evrStatus, Reg.evrFlags, Reg.evrDrop, Reg.evrCommit, Reg.evrLog, Reg.evrLogBseq]
  refine ⟨⟨?_, ?_⟩, ?_, ?_, ?_, ?_, ?_, ?_, ?_, trivial⟩ <;> omega

theorem State.volatileReset_rd_kept (s : State) (link : Bool) {o : Nat} (h : keptReg o = true) : (s.volatileReset true link).rd o = s.rd o := by
  have hge := keptReg_ge h
  unfold State.volatileReset
  rw [State.rd_wrF_ne _ (by intro he; rw [he] at hge; revert hge; decide), State.rd_wrF_ne _ (by intro he; rw [he] at hge; revert hge; decide)]
  exact Tbl.get_filter resetWord _ o (fun _ => h) s.regs

theorem State.warmReset_eq (s : State) (link : Bool) :
    s.warmReset link = (s.flushed.volatileReset true link).wrB Reg.memStatus 3 true := rfl

theorem State.resetAsserted_eq {s : State} (link : Bool) (hoff : s.boot.stage ≠ .off) (hpf : s.boot.stage ≠ .powerFail) :
    s.resetAsserted link = s.warmReset link := if_neg (by simp [hoff, hpf])

theorem State.warmReset_rd_reset (s : State) (link : Bool) {o : Nat} (hs : o ≠ Reg.hstStatus) (hp : o ≠ Reg.pwrStatus) (hm : o ≠ Reg.memStatus)
    (hk : keptReg o = false) : (s.warmReset link).rd o = resetWord o :=
  (State.rd_wrB_ne _ hm 3 true).trans (State.volatileReset_rd _ true link hs hp (fun _ => hk))

theorem State.warmReset_rd_kept (s : State) (link : Bool) {o : Nat} (hk : keptReg o = true) : (s.warmReset link).rd o = s.rd o := by
  have hge := keptReg_ge hk
  calc (s.warmReset link).rd o = (s.flushed.volatileReset true link).rd o :=
        State.rd_wrB_ne _ (by intro he; rw [he] at hge; revert hge; decide) 3 true
    _ = s.flushed.rd o := State.volatileReset_rd_kept _ link hk
    _ = s.rd o := s.flushed_frame (.reg o) (by simpa using events_covers_cluster hge)

/-- The supplies and, with the link, its state stand in their registers. -/
theorem State.warmReset_status (s : State) (link : Bool) :
    (s.warmReset link).rdB Reg.memStatus 3 = true ∧ (s.warmReset link).rdF Reg.pwrStatus 3 0 = s.rdF Reg.pwrStatus 3 0 ∧
      (s.warmReset link).rdF Reg.hstStatus 8 2 = (if link then s.rdF Reg.hstStatus 8 2 else 0) := by
  refine ⟨State.rdB_wrB_same _ _ _ (by decide), ?_, ?_⟩
  · rw [State.warmReset_eq, State.rdF_wrB_off _ (by decide), State.volatileReset_supplies, State.flushed_rdF _ _ _ (by decide)]
  · rw [State.warmReset_eq, State.rdF_wrB_off _ (by decide), State.rdF, State.volatileReset_hstStatus,
      fieldOf_withField_same _ _ _ _ (by decide) (by decide), State.flushed_rdF _ _ _ (by decide)]
    cases link with
    | false => rfl
    | true => exact Nat.mod_eq_of_lt (State.rdF_lt s Reg.hstStatus 8 2)

/-- What a warm reset can change: beside the contents of the DRAM and the port of the flash, all that a full reset can. -/
def warmFoot : List Foot :=
  [.allRegs, .one .shadows, .one .boot, .one .clk, .one .evr, .one .vectors, .one .rings, .one .msix, .one .reads, .log,
    .one .macros, .one .march, .one .refills, .one .timing, .failCnts, .one .cal, .one .pwr, .seqs, .lanes, .clus, .chans, .one .plan, .one .snd,
    .one .cwy]

theorem State.warmReset_frame (s : State) (link : Bool) : ChangesOnly warmFoot s (s.warmReset link) := by
  have hall : Evolves (.one .hostMem :: warmFoot) s (s.warmReset link) := by
    apply State.warmReset_changes link (Evolves.refl _ s)
    case a25 => exact Allows.vectorOfAll (Allows.mem (by decide)) (Allows.mem (by decide))
    all_goals exact Allows.mem (by decide)
  exact hall.1.drop_part (s.flushed_frame .hostMem (by decide))

/-- The three commands that start a warm reset, each with whether it keeps the link, do so wherever the module has power. -/
theorem exec_warmReset {s : State} (hoff : s.boot.stage ≠ .off) (hpf : s.boot.stage ≠ .powerFail) {i : Instr × Bool}
    (hi : i ∈ [(Instr.rstNAssert, true), (.perstAssert, false)] ++ (if s.boot.resetDue then [(.deviceResetStart, true)] else [])) :
    exec i.1 s = .next (s.warmReset i.2) := by
  rw [← State.resetAsserted_eq i.2 hoff hpf]
  rcases List.mem_append.mp hi with h | h
  · simp only [List.mem_cons, List.not_mem_nil, or_false] at h
    rcases h with rfl | rfl <;> rfl
  · split at h
    next hdue =>
      rw [List.mem_singleton.mp h]
      exact congrArg Host.Outcome.next (if_pos hdue)
    next => cases h

theorem State.warmEnd_eq {s : State} (hheld : s.boot.stage = .resetHeld) (hcold : s.boot.cold = false) :
    s.warmEnd = (((s.putBoot { s.boot with stage := .booting }).putNvm { s.nvm with up := false, scanned := false, noFlash := false }).wrB
      Reg.bootStatus 11 true).setPhase 1 := by
  rw [State.warmEnd, if_pos hheld, if_neg (by simp [hcold])]
  rfl

theorem State.warmEnd_cold {s : State} (hheld : s.boot.stage = .resetHeld) (hcold : s.boot.cold = true) :
    s.warmEnd = s.coldStart (s.rdF Reg.pwrStatus 3 0) := by
  rw [State.warmEnd, if_pos hheld, if_pos hcold]
  rfl

theorem warmResetEnd_completes {s : State} (hheld : s.boot.stage = .resetHeld) (hcold : s.boot.cold = false) :
    Completes .warmResetEnd s [.one .boot, .one .flashPort, .one (.reg Reg.bootStatus)] (fun t =>
      t.boot.stage = .booting ∧ t.rdB Reg.bootStatus 11 = true ∧ t.phase = 1) := by
  refine ⟨s.warmEnd, rfl, ?_, ?_⟩
  · rw [State.warmEnd_eq hheld hcold]
    refine ⟨rfl, ?_, State.rdF_wrF_same _ _ _ (by decide) (by decide)⟩
    rw [State.setPhase, State.rdB_wrF _ _ _ _ (by decide) (by decide), if_neg (by decide)]
    exact State.rdB_wrB_same _ _ _ (by decide)
  · rw [State.warmEnd_eq hheld hcold]
    refine (State.setPhase_changes 1 (State.wrB_changes _ _ _ ?_ (Allows.mem (by decide))) (Allows.mem (by decide))).1
    exact State.putNvm_port (State.putBoot_changes _ (Evolves.refl _ s) (Allows.mem (by decide))) (Allows.mem (by decide))

/-- Settles O18: a cold start is one operation, whichever row brings it, and so is a warm reset. -/
theorem fullResets : Obligations.FullResets := by
  refine ⟨fun s => ⟨fun h => ?_, fun hpf hshed => ?_, fun hheld hcold => ?_⟩, fun s => ⟨fun hoff hpf i hi => ?_, warmResetEnd_completes⟩⟩
  · exact completes_of_coldStart (congrArg Host.Outcome.next (if_pos h)) (by decide)
  · exact completes_of_coldStart (congrArg Host.Outcome.next (if_pos ⟨hpf, hshed⟩)) (by decide)
  · exact completes_of_coldStart (congrArg Host.Outcome.next (State.warmEnd_cold hheld hcold)) (State.rdF_lt s Reg.pwrStatus 3 0)
  · obtain ⟨hmem, hpwr, hhst⟩ := s.warmReset_status i.2
    have hboot : s.flushed.boot = s.boot := s.flushed_frame .boot (by decide)
    have hclk : s.flushed.clk = s.clk := s.flushed_frame .clk (by decide)
    refine ⟨_, exec_warmReset hoff hpf hi, ⟨rfl, ?_, rfl, rfl, fun o hs hp hm hk => s.warmReset_rd_reset i.2 hs hp hm hk,
      fun o hk => s.warmReset_rd_kept i.2 hk, hmem, hpwr, ?_⟩, s.warmReset_frame i.2⟩
    · change (s.flushed.boot.cold || !true) = _
      rw [hboot, Bool.not_true, Bool.or_false]
    · change s.flushed.clk.epoch = _ ∧ true = true ∧ s.flushed.clk.optime = _ ∧ s.flushed.clk.pcycle = _ ∧ _
      rw [hclk]
      refine ⟨rfl, rfl, rfl, rfl, rfl, rfl, rfl, rfl, rfl, rfl, hhst, ?_⟩
      change (if i.2 then s.flushed.hst.msixTable else []) = _
      rw [show s.flushed.hst.msixTable = s.hst.msixTable from s.flushed_frame .msix (by decide)]

end Sys2Proof.Machine


/-! What a boot shares from phase to phase: how it stops, how a slot fails and the next is tried, what depends on the flash alone, and how the
recorder starts (R88, R89, R104, R107, R485). -/

namespace Sys2Proof.Machine

/-! ### Reads across a footprint -/

theorem ChangesOnly.rdF_eq {K : List Foot} {s t : State} (h : ChangesOnly K s t) (m l : Nat) {o : Nat}
    (ho : ∀ k ∈ K, k.covers (.reg o) = false) : t.rdF o m l = s.rdF o m l := congrArg (fun v => fieldOf v m l) (h (.reg o) ho)

theorem ChangesOnly.rdB_eq {K : List Foot} {s t : State} (h : ChangesOnly K s t) (b : Nat) {o : Nat}
    (ho : ∀ k ∈ K, k.covers (.reg o) = false) : t.rdB o b = s.rdB o b := congrArg (fun v => bitOf v b) (h (.reg o) ho)

/-- An event changes the recorder, its log and the vectors alone (R477). -/
theorem State.post_frame (s : State) (src code : Nat) (data : BitVec 128) : ChangesOnly [.events] s (s.post src code data) :=
  (State.post_changes src code data (Evolves.refl _ s) (Allows.mem List.mem_cons_self)).1

/-! ### The boot stops (R107) -/

/-- The registers of a boot that has stopped (R107). -/
def State.stopShown (s : State) (code : Nat) : State :=
  ((s.wrF Reg.bootStatus 2 0 4).wrF Reg.bootStatus 23 16 code).wrB Reg.hstStatus 1 true

/-- The state of a boot that has stopped, before its event. -/
def State.stopped (s : State) (code : Nat) : State := (s.stopShown code).putBoot { s.boot with stage := .failed }

theorem State.stopped_rd (s : State) (code o : Nat) : (s.stopped code).rd o = (s.stopShown code).rd o := rfl

theorem State.stopped_phase (s : State) (code : Nat) : (s.stopped code).phase = s.phase := by
  rw [State.phase, State.rdF, State.stopped_rd]
  change (s.stopShown code).rdF Reg.bootStatus 7 4 = _
  rw [State.stopShown, State.rdF_wrB_off _ (by decide), State.rdF_wrF_ne _ _ _ (by decide) (by decide) (by decide),
    State.rdF_wrF_ne _ _ _ (by decide) (by decide) (by decide)]
  rfl

theorem State.stopShown_bootStatus (s : State) (code : Nat) :
    (s.stopShown code).rdF Reg.bootStatus 2 0 = 4 ∧ (s.stopShown code).rdF Reg.bootStatus 23 16 = code % 256 := by
  constructor
  · rw [State.stopShown, State.rdF_wrB_off _ (by decide), State.rdF_wrF_ne _ _ _ (by decide) (by decide) (by decide),
      State.rdF_wrF_same _ _ _ (by decide) (by decide)]
    rfl
  · rw [State.stopShown, State.rdF_wrB_off _ (by decide), State.rdF_wrF_same _ _ _ (by decide) (by decide)]
    rfl

theorem State.stopped_bootStopped (s : State) (code : Nat) : BootStopped (s.stopped code) code :=
  have hshown : (s.stopShown code).rdB Reg.hstStatus 1 = true := State.rdB_wrB_same _ _ _ (by decide)
  ⟨rfl, (s.stopShown_bootStatus code).1, (s.stopShown_bootStatus code).2, hshown⟩

/-- A boot stays stopped through whatever leaves its stage and the two status registers. -/
theorem BootStopped.of_frame {K : List Foot} {s t : State} {code : Nat} (hs : BootStopped s code) (h : ChangesOnly K s t)
    (hboot : ∀ k ∈ K, k.covers .boot = false) (hst : ∀ k ∈ K, k.covers (.reg Reg.bootStatus) = false)
    (hhs : ∀ k ∈ K, k.covers (.reg Reg.hstStatus) = false) : BootStopped t code := by
  obtain ⟨hstage, hstate, hcode, hfail⟩ := hs
  refine ⟨?_, (h.rdF_eq 2 0 hst).trans hstate, (h.rdF_eq 23 16 hst).trans hcode, (h.rdB_eq 1 hhs).trans hfail⟩
  rw [show t.boot = s.boot from h .boot hboot, hstage]

theorem State.bootFail_stopped (s : State) (code : Nat) : BootStopped (s.bootFail code) code :=
  (s.stopped_bootStopped code).of_frame (State.post_frame _ _ _ _) (by decide) (by decide) (by decide)

theorem State.bootFail_boot (s : State) (code : Nat) : (s.bootFail code).boot = { s.boot with stage := .failed } :=
  State.post_frame (s.stopped code) _ _ _ .boot (by decide)

theorem State.bootFail_phase (s : State) (code : Nat) : (s.bootFail code).phase = s.phase :=
  ((State.post_frame (s.stopped code) _ _ _).rdF_eq 7 4 (by decide)).trans (s.stopped_phase code)

/-- What stopping a boot can change. -/
def stopFoot : List Foot := [.one (.reg Reg.bootStatus), .one (.reg Reg.hstStatus), .one .boot, .events]

theorem State.bootFail_frame (s : State) (code : Nat) : ChangesOnly stopFoot s (s.bootFail code) := by
  refine (State.bootFail_changes code (Evolves.refl _ s) ?_ ?_ ?_ ?_).1 <;> exact Allows.mem (by decide)

/-! ### Phases -/

theorem State.setPhase_phase (s : State) {n : Nat} (h : n < 16) : (s.setPhase n).phase = n :=
  (State.rdF_wrF_same _ _ _ (by decide) (by decide)).trans (Nat.mod_eq_of_lt h)

/-- A phase is a field of BOOT_STATUS: every other bit of it stands. -/
theorem State.setPhase_rdB (s : State) (n : Nat) {b : Nat} (hb : b < 4 ∨ 7 < b) : (s.setPhase n).rdB Reg.bootStatus b = s.rdB Reg.bootStatus b := by
  rw [State.setPhase, State.rdB_wrF _ _ _ _ (by decide) (by decide), if_neg (by omega)]

theorem State.setPhase_rdF (s : State) (n : Nat) {m l : Nat} (h : m < 4 ∨ 7 < l) :
    (s.setPhase n).rdF Reg.bootStatus m l = s.rdF Reg.bootStatus m l := State.rdF_wrF_ne _ _ _ (by decide) (by decide) h

theorem State.setPhase_rd (s : State) (n : Nat) {o : Nat} (ho : o ≠ Reg.bootStatus) : (s.setPhase n).rd o = s.rd o := State.rd_wrF_ne _ ho _ _ _

theorem State.inPhase_iff {s : State} {n : Nat} : s.inPhase n = true ↔ s.boot.stage = .booting ∧ s.phase = n := by
  simp [State.inPhase]

/-! ### What the flash alone says of the slots (R83 to R92, R104) -/

section
variable {s t : State}

theorem State.slotSize_congr (h : t.rd Reg.bootFlash = s.rd Reg.bootFlash) : t.slotSize = s.slotSize := by
  unfold State.slotSize State.rdF
  rw [h]

theorem State.flashRd_congr (hn : t.nvm = s.nvm) : t.flashRd = s.flashRd := by
  funext a n
  rw [State.flashRd, State.flashRd, hn]

theorem State.flashLe_congr (hn : t.nvm = s.nvm) : t.flashLe = s.flashLe := by
  funext a n
  rw [State.flashLe, State.flashLe, State.flashRd_congr hn]

theorem State.sect_congr (hn : t.nvm = s.nvm) : t.sect = s.sect := by
  funext b i
  rw [State.sect, State.sect, State.flashRd_congr hn, State.flashLe_congr hn]

theorem State.bodyBase_congr (h : t.slotSize = s.slotSize) (k : Nat) : t.bodyBase k = s.bodyBase k := by
  rw [State.bodyBase, State.bodyBase, h]

theorem State.trailer_congr (h : t.slotSize = s.slotSize) (k : Nat) : t.trailer k = s.trailer k := by
  unfold State.trailer
  rw [h, State.bodyBase_congr h]

theorem State.committed_congr (hn : t.nvm = s.nvm) (h : t.slotSize = s.slotSize) (k : Nat) : t.committed k = s.committed k := by
  unfold State.committed
  rw [State.trailer_congr h, State.bodyBase_congr h, State.flashRd_congr hn, State.flashLe_congr hn]

theorem State.imageSeq_congr (hn : t.nvm = s.nvm) (h : t.slotSize = s.slotSize) (k : Nat) : t.imageSeq k = s.imageSeq k := by
  unfold State.imageSeq
  rw [State.committed_congr hn h, State.trailer_congr h, State.flashLe_congr hn]

theorem State.slotsLeft_congr (hn : t.nvm = s.nvm) (h : t.slotSize = s.slotSize) (hb : t.boot = s.boot) : t.slotsLeft = s.slotsLeft := by
  unfold State.slotsLeft
  rw [funext (State.committed_congr hn h), funext (State.imageSeq_congr hn h), hb]

theorem State.headerBad_congr (hn : t.nvm = s.nvm) (h : t.slotSize = s.slotSize) (b : Nat) : t.headerBad b = s.headerBad b := by
  unfold State.headerBad
  rw [State.sect_congr hn, State.flashLe_congr hn, h]

theorem State.keyOk_congr (hn : t.nvm = s.nvm) (b : Nat) : t.keyOk b = s.keyOk b := by
  unfold State.keyOk
  rw [State.flashRd_congr hn, State.flashLe_congr hn, hn]

theorem State.headerCode_congr (hn : t.nvm = s.nvm) (h : t.slotSize = s.slotSize) (b : Nat) : t.headerCode b = s.headerCode b := by
  unfold State.headerCode
  rw [State.headerBad_congr hn h, State.keyOk_congr hn, State.flashRd_congr hn, State.flashLe_congr hn, hn]

end

/-- No slot is left where each committed one has been tried. -/
theorem State.slotsLeft_eq_nil {s : State} : s.slotsLeft = [] ↔ ∀ k, k < 2 → s.committed k = true → k ∈ s.boot.tried := by
  have hfilter : s.slotsLeft = [] ↔ [0, 1].filter (fun k => s.committed k && !s.boot.tried.contains k) = [] := by
    unfold State.slotsLeft
    dsimp only
    split
    next a b he =>
      rw [he]
      split <;> exact ⟨nofun, nofun⟩
    next => exact Iff.rfl
  rw [hfilter, List.filter_eq_nil_iff]
  constructor
  · intro h k hk hc
    have := h k (by simp only [List.mem_cons, List.not_mem_nil, or_false]; omega)
    simpa [hc] using this
  · intro h k hk
    have hlt : k < 2 := by simp only [List.mem_cons, List.not_mem_nil, or_false] at hk; omega
    by_cases hc : s.committed k = true
    · simp [hc, h k hlt hc]
    · simp [hc]

/-! ### A slot fails (R104) -/

/-- The state in which the slot that is tried counts as tried. -/
def State.slotTried (s : State) (code : Nat) : State :=
  s.putBoot { s.boot with tried := s.boot.tried ++ [s.slot], firstCode := if s.boot.tried = [] then code else s.boot.firstCode }

/-- The next slot is tried from P4 on. -/
def State.slotNext (s : State) (code : Nat) : State :=
  ((((s.slotTried code).wrB Reg.bootStatus 9 true).post 306 0x3A (evData [(0, s.slot), (8, code)])).wrF Reg.bootStatus 2 0 1).setPhase 4

theorem State.slotFail_eq (s : State) (code : Nat) :
    s.slotFail code = if (s.slotTried code).slotsLeft = [] then (s.slotTried code).bootFail (s.slotTried code).boot.firstCode
      else s.slotNext code := rfl

theorem State.slotNext_boot (s : State) (code : Nat) : (s.slotNext code).boot = (s.slotTried code).boot :=
  State.post_frame ((s.slotTried code).wrB Reg.bootStatus 9 true) _ _ _ .boot (by decide)

theorem State.slotNext_status (s : State) (code : Nat) :
    (s.slotNext code).phase = 4 ∧ (s.slotNext code).rdB Reg.bootStatus 9 = true ∧ (s.slotNext code).rdF Reg.bootStatus 2 0 = 1 := by
  refine ⟨State.setPhase_phase _ (by decide), ?_, ?_⟩
  · rw [State.slotNext, State.setPhase_rdB _ _ (.inr (by decide)), State.rdB_wrF _ _ _ _ (by decide) (by decide), if_neg (by decide),
      (State.post_frame _ _ _ _).rdB_eq 9 (by decide)]
    exact State.rdB_wrB_same _ _ _ (by decide)
  · rw [State.slotNext, State.setPhase_rdF _ _ (.inl (by decide))]
    exact State.rdF_wrF_same _ _ _ (by decide) (by decide)

theorem State.slotFail_slotFailed (s : State) (code : Nat) : SlotFailed s (s.slotFail code) code := by
  have hnil : (s.slotTried code).slotsLeft = [] ↔ ∀ k, k < 2 → s.committed k = true → k ∈ (s.slotTried code).boot.tried :=
    State.slotsLeft_eq_nil
  rw [State.slotFail_eq]
  by_cases hleft : (s.slotTried code).slotsLeft = []
  · rw [if_pos hleft]
    have hall := hnil.mp hleft
    have hboot := (s.slotTried code).bootFail_boot (s.slotTried code).boot.firstCode
    refine ⟨by rw [hboot]; rfl, by rw [hboot]; rfl, fun _ => ?_, fun ⟨k, hk, hc, hnot⟩ => absurd (hall k hk hc) ?_⟩
    · have hstop := (s.slotTried code).bootFail_stopped (s.slotTried code).boot.firstCode
      rwa [show ((s.slotTried code).bootFail (s.slotTried code).boot.firstCode).boot.firstCode = (s.slotTried code).boot.firstCode by rw [hboot]]
    · rwa [hboot] at hnot
  · rw [if_neg hleft]
    have hboot := s.slotNext_boot code
    obtain ⟨hphase, hfallback, hstate⟩ := s.slotNext_status code
    refine ⟨by rw [hboot]; rfl, by rw [hboot]; rfl, fun h => absurd (hnil.mpr ?_) hleft, fun _ => ⟨by rw [hboot]; rfl, hphase, hfallback, hstate⟩⟩
    rwa [hboot] at h

theorem State.slotFail_frame (s : State) (code : Nat) : ChangesOnly stopFoot s (s.slotFail code) := by
  refine (State.slotFail_changes code (Evolves.refl _ s) ?_ ?_ ?_ ?_).1 <;> exact Allows.mem (by decide)

/-! ### The recorder's mode (R484, R485, R488)

What an occurrence does to the recorder leaves whether it has started, and in which mode it writes. -/

/-- Whether the recorder has started, and whether it writes no log. -/
def State.mode (s : State) : Bool × Bool := (s.evr.started, s.logVolatile)

theorem State.mode_of_rd {s t : State} (he : t.evr.started = s.evr.started) (hr : t.rd Reg.evrStatus = s.rd Reg.evrStatus) : t.mode = s.mode := by
  simp only [State.mode, State.logVolatile, State.rdB, he, hr]

theorem State.wr_mode (s : State) {o : Nat} (v : W32) (h : Reg.evrStatus ≠ o) : (s.wr o v).mode = s.mode := State.mode_of_rd rfl (State.rd_wr_ne s h v)

theorem foldl_mode {α : Type} (f : State → α → State) (hf : ∀ t a, (f t a).mode = t.mode) (l : List α) (s : State) : (l.foldl f s).mode = s.mode := by
  induction l generalizing s with
  | nil => rfl
  | cons a l ih => exact (ih (f s a)).trans (hf s a)

theorem State.evrOpenBit_mode (s : State) : s.evrOpenBit.mode = s.mode :=
  Prod.ext rfl (State.rdB_wrB_ne s _ _ (by decide) (by decide))

theorem State.pendVector_mode (s : State) (v : Nat) : (s.pendVector v).mode = s.mode := by
  have hv : Reg.evrStatus ≠ vecReg v := by unfold vecReg; split <;> decide
  simp only [State.pendVector]
  split_ifs
  · rfl
  · exact s.wr_mode _ hv
  · exact s.wr_mode _ hv

theorem State.route_mode (s : State) (src : Nat) : (s.route src).mode = s.mode := by
  simp only [State.route]
  split
  · exact s.pendVector_mode _
  · rfl

theorem State.ringPut_mode (s : State) (r : EvRec) : (s.ringPut r).mode = s.mode :=
  State.mode_of_rd rfl (State.rd_wr_ne _ (by decide) _)

theorem State.openBlock_mode (s : State) (b : Nat) : (s.openBlock b).mode = s.mode := by
  refine State.mode_of_rd rfl ?_
  change ((((s.flashWr (logAddr b 0) (blockHeader ((s.rd Reg.evrLogBseq).toNat + 1))).wrF Reg.evrLog 22 16 b).wrF Reg.evrLog 10 0 1).wr
    Reg.evrLogBseq (BitVec.ofNat 32 ((s.rd Reg.evrLogBseq).toNat + 1))).rd Reg.evrStatus = _
  rw [State.rd_wr_ne _ (by decide), State.rd_wrF_ne _ (by decide), State.rd_wrF_ne _ (by decide)]
  rfl

theorem State.putEvr_mode (s : State) {e : Evr} (h : e.started = s.evr.started) : (s.putEvr e).mode = s.mode := Prod.ext h rfl

theorem State.openIf_mode (s : State) (b : Nat) (p : Prop) [Decidable p] : (if p then s.openBlock b else s).mode = s.mode := by
  split
  · exact s.openBlock_mode b
  · rfl

theorem State.writerTake_mode (s : State) : s.writerTake.mode = s.mode := by
  unfold State.writerTake
  split
  · rfl
  split
  · exact (foldl_mode _ State.ringPut_mode _ _).trans (s.putEvr_mode rfl)
  split
  · rfl
  · exact (foldl_mode _ State.ringPut_mode _ _).trans ((State.putEvr_mode _ rfl).trans (s.openIf_mode _ _))

theorem State.raise_mode (s : State) {o : Nat} (b : Nat) (h : Reg.evrStatus ≠ o) (h' : Reg.evrStatus ≠ o + 4) : (s.raise o b).mode = s.mode := by
  refine State.mode_of_rd ?_ (State.raise_rd_ne s h h')
  unfold State.raise
  split <;> rfl

theorem State.overflowEnter_mode (s : State) : s.overflowEnter.mode = s.mode := by
  simp only [State.overflowEnter]
  split
  · rfl
  · exact (State.raise_mode _ _ (by decide) (by decide)).trans (State.route_mode (s.enqueueRec s.overflowRec) 316)

theorem State.pump_mode (s : State) : s.pump.mode = s.mode :=
  calc s.pump.mode = s.writerTake.overflowEnter.mode := State.writerTake_mode _
    _ = s.writerTake.mode := State.overflowEnter_mode _
    _ = s.mode := s.writerTake_mode

theorem State.closeInto_mode (s : State) (r : EvRec) : (s.closeInto r).mode = s.mode := by
  simp only [State.closeInto]
  split
  · exact (State.pump_mode (s.pump.enqueueRec r)).trans s.pump_mode
  · exact (State.wr_mode s.pump _ (by decide)).trans s.pump_mode

theorem State.closeOpen_mode (s : State) : s.closeOpen.mode = s.mode := by
  simp only [State.closeOpen]
  split
  · rfl
  · exact (State.evrOpenBit_mode _).trans (State.closeInto_mode _ _)

theorem State.recordNow_mode (s : State) (src code : Nat) (data : BitVec 128) : (s.recordNow src code data).mode = s.mode := by
  simp only [State.recordNow]
  split
  · split_ifs
    · exact State.closeOpen_mode _
    · rfl
    · exact (State.closeInto_mode _ _).trans s.closeOpen_mode
    · exact (State.evrOpenBit_mode _).trans s.closeOpen_mode
  · split
    · exact State.closeInto_mode _ _
    · exact State.evrOpenBit_mode _

theorem State.post_mode (s : State) (src code : Nat) (data : BitVec 128) : (s.post src code data).mode = s.mode := by
  simp only [State.post]
  split_ifs
  · exact (State.recordNow_mode _ _ _ _).trans (s.route_mode src)
  · exact s.route_mode src
  · exact s.route_mode src
  · exact s.route_mode src

theorem State.drainStart_mode (s : State) : s.drainStart.mode = s.mode := by
  have hdrained := foldl_mode (fun t (o : Nat × Nat × BitVec 128) => t.recordNow o.1 o.2.1 o.2.2) (fun t _ => t.recordNow_mode _ _ _)
    s.evr.startBuf { s with evr := { s.evr with startBuf := [], startDrops := 0 } }
  simp only [State.drainStart]
  split
  · exact hdrained
  · exact (State.pump_mode _).trans ((State.wr_mode _ _ (by decide)).trans ((State.closeOpen_mode _).trans hdrained))

/-- The recorder's registers and its state of the last scan, before the held occurrences become records. -/
def State.evrReady (s : State) (noFlash : Bool) : State :=
  if noFlash then (s.wrB Reg.evrStatus 1 true).wrF Reg.evrStatus 15 8 32 else s.logScan

/-- The recorder has started, and the occurrences held have become records. -/
def State.evrDrained (s : State) (noFlash : Bool) : State :=
  ((s.evrReady noFlash).putEvr { (s.evrReady noFlash).evr with started := true, accepting := true }).drainStart

theorem State.evrStart_eq {s : State} (noFlash : Bool) (h : s.evr.started = false) :
    s.evrStart noFlash = if (s.evrDrained noFlash).logVolatile ∧ ¬ noFlash then
      (s.evrDrained noFlash).post 317 0x45 (evData [(0, (s.evrDrained noFlash).evr.badBlocks.length)]) else s.evrDrained noFlash :=
  if_neg (by simp [h])

theorem State.evrStart_mode {s : State} (noFlash : Bool) (h : s.evr.started = false) :
    (s.evrStart noFlash).mode = (true, (s.evrReady noFlash).logVolatile) := by
  have hdrained : (s.evrDrained noFlash).mode = (true, (s.evrReady noFlash).logVolatile) := State.drainStart_mode _
  rw [State.evrStart_eq noFlash h]
  split
  · exact (State.post_mode _ _ _ _).trans hdrained
  · exact hdrained

/-- Whatever the recorder was, it then runs. -/
theorem State.evrStart_started (s : State) (noFlash : Bool) : (s.evrStart noFlash).evr.started = true := by
  cases h : s.evr.started with
  | true => rwa [State.evrStart, if_pos h]
  | false => exact congrArg Prod.fst (State.evrStart_mode noFlash h)

/-- Without a flash the recorder starts in volatile mode. -/
theorem State.evrStart_volatile {s : State} (h : s.evr.started = false) : (s.evrStart true).logVolatile = true := by
  have hmode := congrArg Prod.snd (State.evrStart_mode true h)
  refine hmode.trans ?_
  change ((s.wrB Reg.evrStatus 1 true).wrF Reg.evrStatus 15 8 32).rdB Reg.evrStatus 1 = true
  rw [State.rdB_wrF _ _ _ _ (by decide) (by decide), if_neg (by decide)]
  exact State.rdB_wrB_same _ _ _ (by decide)

theorem State.evrStart_frame (s : State) (noFlash : Bool) : ChangesOnly [.events] s (s.evrStart noFlash) :=
  (State.evrStart_changes noFlash (Evolves.refl _ s) (Allows.mem List.mem_cons_self)).1

end Sys2Proof.Machine


/-! Phases P1 and P3: SFDP_READ and PERSISTENT_AREA_SCAN (R68 to R71, R77, R79, R88, R90, R99, R100, R483, R485). -/

namespace Sys2Proof.Machine

/-! ### Words put together from fields -/

/-- The bits of the values of a list of (lsb, value), each at its place. -/
def packBit (fs : List (Nat × Nat)) (i : Nat) : Bool := fs.any (fun f => decide (f.1 ≤ i) && f.2.testBit (i - f.1))

theorem bitOf_foldl_or (fs : List (Nat × Nat)) (v : W32) {i : Nat} (hi : i < 32) :
    bitOf (fs.foldl (fun acc f => acc ||| BitVec.ofNat 32 (f.2 <<< f.1)) v) i = (bitOf v i || packBit fs i) := by
  induction fs generalizing v with
  | nil => simp [packBit]
  | cons f fs ih => rw [List.foldl_cons, ih, bitOf_or, bitOf_ofNat _ hi, Nat.testBit_shiftLeft, packBit, packBit, List.any_cons, Bool.or_assoc]

theorem bitOf_pack (fs : List (Nat × Nat)) {i : Nat} (hi : i < 32) : bitOf (pack fs) i = packBit fs i := by
  rw [pack, bitOf_foldl_or fs _ hi, show bitOf (0 : W32) i = false from bitOf_zero i, Bool.false_or]

/-- A field of a word reads as the value whose bits stand there. -/
theorem fieldOf_pack {fs : List (Nat × Nat)} {m l x : Nat} (hm : m < 32) (hx : x < 2 ^ (m + 1 - l))
    (h : ∀ i, i < m + 1 - l → packBit fs (l + i) = x.testBit i) : fieldOf (pack fs) m l = x := by
  refine Nat.eq_of_testBit_eq (fun i => ?_)
  rw [testBit_fieldOf]
  by_cases hi : i < m + 1 - l
  · rw [decide_eq_true hi, Bool.true_and, bitOf_pack fs (by omega), h i hi]
  · rw [decide_eq_false hi, Bool.false_and]
    exact (Nat.testBit_eq_false_of_lt (hx.trans_le (Nat.pow_le_pow_right (by decide) (by omega)))).symm

/-- A value has no bit at or above its width. -/
theorem testBit_of_width {x w i : Nat} (hx : x < 2 ^ w) (hi : w ≤ i) : x.testBit i = false :=
  Nat.testBit_eq_false_of_lt (hx.trans_le (Nat.pow_le_pow_right (by decide) hi))

/-! ### The flash that SFDP shows (R79, R483) -/

/-- BOOT_FLASH of a flash (R79). -/
def flashWord (mfr size : BitVec 8) (dev : BitVec 16) : W32 := pack [(0, size.toNat), (8, dev.toNat), (24, mfr.toNat)]

theorem flashWord_fields (mfr size : BitVec 8) (dev : BitVec 16) :
    fieldOf (flashWord mfr size dev) 7 0 = size.toNat ∧ fieldOf (flashWord mfr size dev) 23 8 = dev.toNat ∧
      fieldOf (flashWord mfr size dev) 31 24 = mfr.toNat := by
  have hbits : ∀ i, packBit [(0, size.toNat), (8, dev.toNat), (24, mfr.toNat)] i =
      (size.toNat.testBit i || (decide (8 ≤ i) && dev.toNat.testBit (i - 8) || (decide (24 ≤ i) && mfr.toNat.testBit (i - 24)))) :=
    fun i => by simp [packBit]
  refine ⟨fieldOf_pack (by decide) size.isLt (fun i hi => ?_), fieldOf_pack (by decide) dev.isLt (fun i hi => ?_),
    fieldOf_pack (by decide) mfr.isLt (fun i hi => ?_)⟩
  · rw [hbits, decide_eq_false (by omega), decide_eq_false (by omega)]
    simp
  · rw [hbits, testBit_of_width size.isLt (by omega), decide_eq_true (by omega), decide_eq_false (by omega), Nat.add_sub_cancel_left]
    simp
  · rw [hbits, testBit_of_width size.isLt (by omega), testBit_of_width dev.isLt (by omega), decide_eq_true (by omega : 24 ≤ 24 + i),
      Nat.add_sub_cancel_left]
    simp

/-- The flash is up, and its registers show it. -/
def State.flashTaken (s : State) (mfr size : BitVec 8) (dev : BitVec 16) (tpp : Nat) : State :=
  ((s.putNvm { s.nvm with up := true }).wr Reg.bootFlash (flashWord mfr size dev)).setQdepth tpp

theorem State.sfdpTake_ok (s : State) (mfr : BitVec 8) {size : BitVec 8} (dev : BitVec 16) (tpp : Nat) (h : densityOk size = true) :
    s.sfdpTake (.ok mfr dev size tpp) =
      if (s.flashTaken mfr size dev tpp).boot.stage = .booting then (s.flashTaken mfr size dev tpp).setPhase 3
      else s.flashTaken mfr size dev tpp := if_neg (by simp [h])

theorem State.setQdepth_frame (s : State) (tpp : Nat) : ChangesOnly [.one (.reg Reg.evrStatus)] s (s.setQdepth tpp) :=
  (State.setQdepth_changes tpp (Evolves.refl _ s) (Allows.mem List.mem_cons_self)).1

theorem State.setQdepth_nvm (s : State) (tpp : Nat) : (s.setQdepth tpp).nvm = s.nvm := by
  unfold State.setQdepth
  split <;> rfl

theorem qdepthOf_lt {tpp q : Nat} (h : qdepthOf tpp = some q) : q < 33 := by
  have := List.mem_of_find?_eq_some h
  simpa using this

theorem State.setQdepth_some (s : State) {tpp q : Nat} (h : qdepthOf tpp = some q) : (s.setQdepth tpp).qdepth = q := by
  have hq := qdepthOf_lt h
  rw [State.setQdepth, h]
  exact (State.rdF_wrF_same _ _ _ (by decide) (by decide)).trans (Nat.mod_eq_of_lt (by omega))

theorem State.setQdepth_none (s : State) {tpp : Nat} (h : qdepthOf tpp = none) :
    (s.setQdepth tpp).qdepth = 32 ∧ (s.setQdepth tpp).rdB Reg.evrStatus 2 = true := by
  rw [State.setQdepth, h]
  refine ⟨?_, State.rdB_wrB_same _ _ _ (by decide)⟩
  rw [State.qdepth, State.rdF_wrB_ne _ _ _ (by decide) (by decide)]
  exact State.rdF_wrF_same _ _ _ (by decide) (by decide)

theorem State.flashTaken_rd (s : State) (mfr size : BitVec 8) (dev : BitVec 16) (tpp : Nat) :
    (s.flashTaken mfr size dev tpp).rd Reg.bootFlash = flashWord mfr size dev :=
  ((State.setQdepth_frame _ tpp) (.reg Reg.bootFlash) (by decide)).trans (State.rd_wr_same _ _ _)

theorem State.flashTaken_boot (s : State) (mfr size : BitVec 8) (dev : BitVec 16) (tpp : Nat) :
    (s.flashTaken mfr size dev tpp).boot = s.boot := State.setQdepth_frame _ tpp .boot (by decide)

theorem State.flashTaken_up (s : State) (mfr size : BitVec 8) (dev : BitVec 16) (tpp : Nat) :
    (s.flashTaken mfr size dev tpp).nvm.up = true := congrArg Nvm.up (State.setQdepth_nvm _ tpp)

theorem State.flashTaken_changes {K : List Foot} {s x : State} (mfr size : BitVec 8) (dev : BitVec 16) (tpp : Nat) (h : Evolves K s x)
    (hport : Allows K (.one .flashPort)) (hflash : Allows K (.one (.reg Reg.bootFlash))) (hstatus : Allows K (.one (.reg Reg.evrStatus))) :
    Evolves K s (x.flashTaken mfr size dev tpp) :=
  State.setQdepth_changes tpp (State.wr_changes _ _ (State.putNvm_port h hport) hflash) hstatus

theorem State.earlyPhase_of_inPhase {s : State} {n : Nat} (h : s.inPhase n = true) : s.earlyPhase n = true := by
  simp [State.earlyPhase, h]

theorem State.sfdpRead_eq {s : State} (found : Sfdp) (h : s.inPhase 1 = true) :
    s.sfdpRead false found = (s.wr Reg.bootFuse s.fuseWord).sfdpTake found ∧ s.sfdpRead true found = (s.bootFail 0x12).sfdpTake found := by
  constructor
  · rw [State.sfdpRead, if_pos (State.earlyPhase_of_inPhase h)]
    simp
  · rw [State.sfdpRead, if_pos (State.earlyPhase_of_inPhase h)]
    simp [(State.inPhase_iff.mp h).1]

theorem sfdpRead_ok_completes {s : State} (mfr : BitVec 8) {size : BitVec 8} (dev : BitVec 16) (tpp : Nat) (h : s.inPhase 1 = true)
    (hsize : densityOk size = true) :
    Completes (.sfdpRead false (.ok mfr dev size tpp)) s [.one (.reg Reg.bootFuse), .one (.reg Reg.bootFlash), .one .flashPort,
        .one (.reg Reg.evrStatus), .one (.reg Reg.bootStatus)] (fun t =>
      t.rd Reg.bootFuse = s.fuseWord ∧ t.rdF Reg.bootFlash 7 0 = size.toNat ∧ t.rdF Reg.bootFlash 23 8 = dev.toNat ∧
      t.rdF Reg.bootFlash 31 24 = mfr.toNat ∧ t.nvm.up = true ∧ t.phase = 3 ∧ (∀ q, qdepthOf tpp = some q → t.qdepth = q) ∧
      (qdepthOf tpp = none → t.qdepth = 32 ∧ t.rdB Reg.evrStatus 2 = true)) := by
  let u := (s.wr Reg.bootFuse s.fuseWord).flashTaken mfr size dev tpp
  have hstage : u.boot.stage = .booting := by
    rw [State.flashTaken_boot]
    exact (State.inPhase_iff.mp h).1
  have he : s.sfdpRead false (.ok mfr dev size tpp) = u.setPhase 3 := by
    rw [(State.sfdpRead_eq _ h).1, State.sfdpTake_ok _ _ _ _ hsize, if_pos hstage]
  have hflash : (u.setPhase 3).rd Reg.bootFlash = flashWord mfr size dev := (u.setPhase_rd 3 (by decide)).trans (State.flashTaken_rd _ _ _ _ _)
  have hfuse : u.rd Reg.bootFuse = s.fuseWord :=
    calc u.rd Reg.bootFuse = (s.wr Reg.bootFuse s.fuseWord).rd Reg.bootFuse :=
          (State.flashTaken_changes mfr size dev tpp (Evolves.refl [.one .flashPort, .one (.reg Reg.bootFlash), .one (.reg Reg.evrStatus)] _)
            (Allows.mem (by decide)) (Allows.mem (by decide)) (Allows.mem (by decide))).1 (.reg Reg.bootFuse) (by decide)
      _ = s.fuseWord := State.rd_wr_same _ _ _
  have hqdepth : (u.setPhase 3).qdepth = u.qdepth := State.rdF_wrF_off _ (by decide) _ _ _ _ _
  obtain ⟨hsz, hdev, hmfr⟩ := flashWord_fields mfr size dev
  refine ⟨u.setPhase 3, congrArg Host.Outcome.next he, ⟨(u.setPhase_rd 3 (by decide)).trans hfuse, ?_, ?_, ?_, State.flashTaken_up _ _ _ _ _,
    u.setPhase_phase (by decide), fun q hq => hqdepth.trans (State.setQdepth_some _ hq), fun hq => ?_⟩, ?_⟩
  · rw [State.rdF, hflash, hsz]
  · rw [State.rdF, hflash, hdev]
  · rw [State.rdF, hflash, hmfr]
  · obtain ⟨hdepth, hslow⟩ := State.setQdepth_none _ hq
    exact ⟨hqdepth.trans hdepth, (State.rdB_wrF_off _ (by decide) _ _ _ _).trans hslow⟩
  · exact (State.setPhase_changes 3 (State.flashTaken_changes _ _ _ _ (State.wr_changes _ _ (Evolves.refl _ s) (Allows.mem (by decide)))
      (Allows.mem (by decide)) (Allows.mem (by decide)) (Allows.mem (by decide))) (Allows.mem (by decide))).1

theorem sfdpRead_fuseError_completes {s : State} (mfr : BitVec 8) {size : BitVec 8} (dev : BitVec 16) (tpp : Nat) (h : s.inPhase 1 = true)
    (hsize : densityOk size = true) :
    Completes (.sfdpRead true (.ok mfr dev size tpp)) s [.one (.reg Reg.bootFlash), .one .flashPort, .one (.reg Reg.bootStatus),
        .one (.reg Reg.hstStatus), .one .boot, .events] (fun t => BootStopped t 0x12 ∧ t.nvm.up = true) := by
  let u := (s.bootFail 0x12).flashTaken mfr size dev tpp
  have he : s.sfdpRead true (.ok mfr dev size tpp) = u := by
    rw [(State.sfdpRead_eq _ h).2, State.sfdpTake_ok _ _ _ _ hsize, if_neg]
    rw [State.flashTaken_boot, State.bootFail_boot]
    nofun
  have hframe : ∀ {K : List Foot} {x : State}, Evolves K x (s.bootFail 0x12) → Allows K (.one .flashPort) → Allows K (.one (.reg Reg.bootFlash)) →
      Allows K (.one (.reg Reg.evrStatus)) → Evolves K x u := State.flashTaken_changes mfr size dev tpp
  refine ⟨u, congrArg Host.Outcome.next he, ⟨(s.bootFail_stopped 0x12).of_frame (hframe (Evolves.refl
    [.one .flashPort, .one (.reg Reg.bootFlash), .one (.reg Reg.evrStatus)] _) ?_ ?_ ?_).1 (by decide) (by decide) (by decide),
    State.flashTaken_up _ _ _ _ _⟩, (hframe (State.bootFail_changes 0x12 (Evolves.refl _ s) ?_ ?_ ?_ ?_) ?_ ?_ ?_).1⟩
  case refine_10 => exact (Allows.mem (by decide) : Allows _ .events).evrStatusOfEvents
  all_goals exact Allows.mem (by decide)

/-! ### No flash that the module supports (R79, R485) -/

/-- The module goes on without a flash: P2 fails. -/
def State.withoutFlash (s : State) (code : Nat) : State := ((s.putNvm { s.nvm with noFlash := true }).setPhase 2).bootFail code

theorem State.flashRefused_eq {s : State} (code : Nat) (h : s.boot.stage = .booting) : s.flashRefused code = (s.withoutFlash code).evrStart true :=
  congrArg (fun u => State.evrStart u true) (if_pos h)

theorem State.sfdpTake_refused (s : State) {found : Sfdp} {code : Nat}
    (h : (found = .absent ∧ code = 1) ∨ (found = .unsupported ∧ code = 2) ∨
      (∃ mfr dev size tpp, found = .ok mfr dev size tpp ∧ densityOk size = false ∧ code = 2)) : s.sfdpTake found = s.flashRefused code := by
  obtain ⟨rfl, rfl⟩ | ⟨rfl, rfl⟩ | ⟨mfr, dev, size, tpp, rfl, hsize, rfl⟩ := h
  · rfl
  · rfl
  · exact if_pos (by simp [hsize])

theorem State.withoutFlash_started {s : State} (code : Nat) (h : s.evr.started = false) : (s.withoutFlash code).evr.started = false :=
  (congrArg Prod.fst (State.post_mode _ _ _ _)).trans h

theorem State.withoutFlash_nvm (s : State) (code : Nat) : (s.withoutFlash code).nvm.noFlash = true :=
  (State.bootFail_frame ((s.putNvm { s.nvm with noFlash := true }).setPhase 2) code .flashPort (by decide)).2.2.2

theorem sfdpRead_refused_completes {s : State} {found : Sfdp} {code : Nat} (h : s.inPhase 1 = true) (hevr : s.evr.started = false)
    (hfound : (found = .absent ∧ code = 1) ∨ (found = .unsupported ∧ code = 2) ∨
      (∃ mfr dev size tpp, found = .ok mfr dev size tpp ∧ densityOk size = false ∧ code = 2)) :
    Completes (.sfdpRead false found) s [.one (.reg Reg.bootFuse), .one (.reg Reg.bootStatus), .one (.reg Reg.hstStatus), .one .boot,
        .one .flashPort, .events] (fun t =>
      BootStopped t code ∧ t.phase = 2 ∧ t.nvm.noFlash = true ∧ t.evr.started = true ∧ t.logVolatile = true) := by
  let u := (s.wr Reg.bootFuse s.fuseWord).withoutFlash code
  have he : s.sfdpRead false found = u.evrStart true := by
    rw [(State.sfdpRead_eq _ h).1, State.sfdpTake_refused _ hfound]
    exact State.flashRefused_eq code (State.inPhase_iff.mp h).1
  have hstart := u.evrStart_frame true
  have hu : u.evr.started = false := State.withoutFlash_started code hevr
  obtain ⟨-, -, -, hno⟩ := hstart .flashPort (by decide)
  refine ⟨u.evrStart true, congrArg Host.Outcome.next he, ⟨(State.bootFail_stopped _ code).of_frame hstart (by decide) (by decide) (by decide),
    ?_, hno.trans (State.withoutFlash_nvm _ code), u.evrStart_started true, State.evrStart_volatile hu⟩, ?_⟩
  · calc (u.evrStart true).phase = u.phase := hstart.rdF_eq 7 4 (by decide)
      _ = 2 := (State.bootFail_phase _ code).trans (State.setPhase_phase _ (by decide))
  · rw [← State.flashRefused_eq code (s := s.wr Reg.bootFuse s.fuseWord) (State.inPhase_iff.mp h).1]
    refine (State.flashRefused_changes code (State.wr_changes _ _ (Evolves.refl _ s) ?_) ?_ ?_ ?_ ?_ ?_).1 <;> exact Allows.mem (by decide)

/-! ### The scan of the persistent area (R68 to R71, R99, R100) -/

/-- The scan is done, and what follows continues from it. -/
def State.scanned (s : State) : State :=
  (s.putNvm { s.nvm with persist := s.nextEntry, scanned := true }).putBoot { s.boot with cold := false }

/-- The operating time of a cold start, saturated (R68, R70). -/
def State.coldOptime (s : State) : Nat := min s.restoredOptime 0xFFFFFFFFFF

/-- The clock of a cold start: operating time and power cycles go on (R70, R71). -/
def State.coldClk (s : State) : Clk :=
  { s.clk with optime := BitVec.ofNat 40 s.coldOptime, pcycle := BitVec.ofNat 24 s.restoredPcycle }

/-- The state whose clock goes on, with the flag of a saturated operating time. -/
def State.coldScanned (s : State) : State :=
  (s.scanned.putClk s.coldClk).raiseIf (s.coldOptime == 0xFFFFFFFFFF) Reg.clkFlags 2

/-- What P3 has restored before the recorder starts. -/
def State.restored (s : State) : State := if s.boot.cold then s.coldScanned.persistWrite 2 else s.scanned

/-- The end of P3. -/
def State.loading (s : State) : State := ((s.restored.evrStart false).setPhase 4).wrF Reg.bootStatus 2 0 1

theorem State.coldScanned_frame (s : State) :
    Evolves [.one .flashPort, .one .boot, .one .clk, .pair Reg.clkFlags] s s.coldScanned :=
  State.raiseIf_changes _ _ _ (State.putClk_changes _ (State.putBoot_changes _ (State.putNvm_port (Evolves.refl _ s) (Allows.mem (by decide)))
    (Allows.mem (by decide))) (Allows.mem (by decide))) (Allows.mem (by decide))

theorem State.coldScanned_clk (s : State) : s.coldScanned.clk = s.coldClk := State.raiseIf_clk _ _ _ _

theorem State.coldScanned_raised (s : State) :
    ChangesOnly [.pair Reg.clkFlags] (s.scanned.putClk s.coldClk) s.coldScanned :=
  (State.raiseIf_changes _ _ _ (Evolves.refl _ _) (Allows.mem List.mem_cons_self)).1

/-- The scan has found the place of the next entry: the one that the latest entry gives. -/
theorem State.coldScanned_port (s : State) :
    s.coldScanned.nvm.scanned = true ∧ s.coldScanned.nvm.noFlash = s.nvm.noFlash ∧ s.coldScanned.entryIndex = s.nextEntry % 65536 := by
  obtain ⟨hpersist, -, hscanned, hno⟩ := s.coldScanned_raised .flashPort (by decide)
  refine ⟨hscanned, hno, ?_⟩
  rw [State.entryIndex, show s.coldScanned.nvm.scanned = true from hscanned, if_pos rfl, hpersist]
  rfl

theorem State.coldScanned_boot (s : State) : s.coldScanned.boot = { s.boot with cold := false } := s.coldScanned_raised .boot (by decide)

/-- Operating time that stands at its top has its flag. -/
theorem State.coldScanned_flag {s : State} (h : s.coldOptime = 0xFFFFFFFFFF) : s.coldScanned.rdB Reg.clkFlags 2 = true := by
  rw [State.coldScanned, h, State.raiseIf, if_pos (by decide)]
  exact State.raise_rdB _ _ (retained_device _ (by decide)) (by decide)

/-- What P3 restores, and where it may stand, by the kind of start. -/
theorem State.restored_cold {s : State} (h : s.boot.cold = true) : s.restored = s.coldScanned.persistWrite 2 := if_pos h

theorem State.restored_warm {s : State} (h : s.boot.cold = false) : s.restored = s.scanned := if_neg (by simp [h])

/-- What the scan can change, by the kind of start (R70, R71, R99). -/
def State.scanFoot (s : State) : List Foot :=
  [.one .flashPort, .one .boot, .events, .one (.reg Reg.bootStatus)] ++
    (if s.boot.cold then [.one .clk, .pair Reg.clkFlags, .flash (32 * (s.nextEntry % 65536 / 2048 * 2048)) 65536] else [])

theorem State.restored_frame {s : State} (hno : s.nvm.noFlash = false) : ChangesOnly s.scanFoot s s.restored := by
  obtain ⟨-, hport, hindex⟩ := s.coldScanned_port
  cases h : s.boot.cold with
  | true =>
    have hwrite := (State.persistWrite_entry (s := s.coldScanned) 2 (hport.trans hno)).2.2
    rw [hindex, show 65536 * (s.nextEntry % 65536 / 2048) = 32 * (s.nextEntry % 65536 / 2048 * 2048) by omega] at hwrite
    rw [State.restored_cold h]
    refine (s.coldScanned_frame.1.mono (fun k hk => Allows.mem ?_)).trans (hwrite.1.mono (fun k hk => Allows.mem ?_))
    · simp only [State.scanFoot, h, if_true]
      simp only [List.mem_cons, List.not_mem_nil, or_false] at hk
      rcases hk with rfl | rfl | rfl | rfl <;> simp
    · simp only [State.scanFoot, h, if_true]
      simp only [List.mem_cons, List.not_mem_nil, or_false] at hk
      rcases hk with rfl | rfl <;> simp
  | false =>
    rw [State.restored_warm h]
    exact (State.putBoot_changes _ (State.putNvm_port (Evolves.refl _ s) (Allows.mem (by simp [State.scanFoot])))
      (Allows.mem (by simp [State.scanFoot]))).1

theorem State.persistWrite_scanned (s : State) (kind : Nat) : (s.persistWrite kind).nvm.scanned = s.nvm.scanned := by
  unfold State.persistWrite
  dsimp only
  split_ifs <;> rfl

theorem State.persistWrite_frame (s : State) (kind : Nat) : ChangesOnly [.one .flashPort, .flashes] s (s.persistWrite kind) :=
  (State.persistWrite_changes kind (Evolves.refl _ s) (Allows.mem (by decide)) (Allows.mem (by decide))).1

theorem State.restored_scanned (s : State) : s.restored.nvm.scanned = true := by
  cases h : s.boot.cold with
  | false => rw [State.restored_warm h]; rfl
  | true => rw [State.restored_cold h, State.persistWrite_scanned, s.coldScanned_port.1]

theorem State.restored_boot (s : State) : s.restored.boot = { s.boot with cold := false } := by
  cases h : s.boot.cold with
  | false => rw [State.restored_warm h]; rfl
  | true => rw [State.restored_cold h, State.persistWrite_frame _ 2 .boot (by decide), State.coldScanned_boot]

theorem State.restored_clk_cold {s : State} (h : s.boot.cold = true) : s.restored.clk = s.coldClk := by
  rw [State.restored_cold h, State.persistWrite_frame _ 2 .clk (by decide), State.coldScanned_clk]

theorem State.restored_clk_warm {s : State} (h : s.boot.cold = false) : s.restored.clk = s.clk := by
  rw [State.restored_warm h]
  rfl

/-- The entry of this power cycle stands in the flash (R71, R99). -/
theorem State.restored_entry {s : State} (h : s.boot.cold = true) (hno : s.nvm.noFlash = false) :
    s.restored.flashRd (32 * (s.nextEntry % 65536)) 32 = persistEntry 2 s.coldClk.pcycle.toNat s.coldClk.optime.toNat := by
  obtain ⟨-, hport, hindex⟩ := s.coldScanned_port
  rw [State.restored_cold h, ← hindex, (State.persistWrite_entry 2 (hport.trans hno)).1, State.coldScanned_clk]

theorem State.restored_flag {s : State} (h : s.boot.cold = true) (ho : s.coldOptime = 0xFFFFFFFFFF) : s.restored.rdB Reg.clkFlags 2 = true := by
  rw [State.restored_cold h, (State.persistWrite_frame _ 2).rdB_eq 2 (by decide), State.coldScanned_flag ho]

/-! #### The restored values (R70, R71, R82) -/

theorem State.coldClk_optime (s : State) : s.coldClk.optime.toNat = s.coldOptime := by
  refine (BitVec.toNat_ofNat _ _).trans (Nat.mod_eq_of_lt ?_)
  exact (Nat.min_le_right _ _).trans_lt (by decide)

theorem State.coldOptime_kept {s : State} {c r : Nat}
    (h : (s.lastCheckpoint = some c ∧ s.lastRecordOptime = some r) ∨ (s.lastCheckpoint = some c ∧ s.lastRecordOptime = none ∧ r = 0) ∨
      (s.lastCheckpoint = none ∧ s.lastRecordOptime = some r ∧ c = 0)) : s.coldOptime = min (max c r + 1) 0xFFFFFFFFFF := by
  unfold State.coldOptime State.restoredOptime
  obtain ⟨hc, hr⟩ | ⟨hc, hr, rfl⟩ | ⟨hc, hr, rfl⟩ := h <;> rw [hc, hr] <;> rfl

theorem State.coldOptime_new {s : State} (hc : s.lastCheckpoint = none) (hr : s.lastRecordOptime = none) : s.coldOptime = 0 := by
  unfold State.coldOptime State.restoredOptime
  rw [hc, hr]
  rfl

theorem State.coldClk_pcycle_kept {s : State} {i kind pcycle optime : Nat} (h : s.latestEntry = some (i, kind, pcycle, optime)) :
    s.coldClk.pcycle.toNat = min (pcycle + 1) 0xFFFFFF := by
  have hp : s.restoredPcycle = min (pcycle + 1) 0xFFFFFF := by
    rw [State.restoredPcycle, h]
    exact Nat.min_comm _ _
  refine (BitVec.toNat_ofNat _ _).trans ?_
  rw [hp]
  exact Nat.mod_eq_of_lt ((Nat.min_le_right _ _).trans_lt (by decide))

theorem State.coldClk_pcycle_new {s : State} (h : s.latestEntry = none) : s.coldClk.pcycle = 1 := by
  change BitVec.ofNat 24 s.restoredPcycle = 1
  rw [State.restoredPcycle, h]
  rfl

/-! #### The end of P3 -/

theorem ChangesOnly.flashRd_eq {K : List Foot} {s t : State} (h : ChangesOnly K s t) {a n : Nat}
    (hk : ∀ b, a ≤ b → b < a + n → ∀ k ∈ K, k.covers (.flash b) = false) : t.flashRd a n = s.flashRd a n := by
  refine List.map_congr_left (fun i hi => ?_)
  have hlt := List.mem_range.mp hi
  exact h (.flash (a + i)) (hk (a + i) (by omega) (by omega))

theorem State.persistentScan_eq {s : State} (h : s.inPhase 3 = true) : s.persistentScan = s.loading := by
  have hcold : s.persistentScan = if (s.restored.evrStart false).boot.stage = .booting then s.loading else s.restored.evrStart false := by
    rw [State.persistentScan, if_pos (State.earlyPhase_of_inPhase h)]
    unfold State.loading State.restored
    rfl
  have hboot : (s.restored.evrStart false).boot = s.restored.boot := State.evrStart_frame _ false .boot (by decide)
  rw [hcold, if_pos]
  rw [hboot, State.restored_boot]
  exact (State.inPhase_iff.mp h).1

theorem State.loading_frame (s : State) : ChangesOnly [.events, .one (.reg Reg.bootStatus)] s.restored s.loading :=
  (State.wrF_changes _ _ _ _ (State.setPhase_changes 4 (State.evrStart_changes false (Evolves.refl _ _) (Allows.mem (by decide)))
    (Allows.mem (by decide))) (Allows.mem (by decide))).1

theorem State.loading_phase (s : State) : s.loading.phase = 4 ∧ s.loading.rdF Reg.bootStatus 2 0 = 1 := by
  refine ⟨?_, State.rdF_wrF_same _ _ _ (by decide) (by decide)⟩
  rw [State.loading, State.phase, State.rdF_wrF_ne _ _ _ (by decide) (by decide) (by decide)]
  exact State.setPhase_phase _ (by decide)

theorem State.loading_started (s : State) : s.loading.evr.started = true := State.evrStart_started _ false

/-- The entry of the power cycle is below the log region: the recorder's start leaves it. -/
theorem State.loading_entry (s : State) :
    s.loading.flashRd (32 * (s.nextEntry % 65536)) 32 = s.restored.flashRd (32 * (s.nextEntry % 65536)) 32 := by
  refine s.loading_frame.flashRd_eq (fun b _ hb k hk => ?_)
  have hlt : b < 0x600000 := by omega
  simp only [List.mem_cons, List.not_mem_nil, or_false] at hk
  rcases hk with rfl | rfl
  · simp only [Foot.covers, decide_eq_false_iff_not]
    omega
  · rfl

theorem persistentScan_completes {s : State} (h : s.inPhase 3 = true) (hno : s.nvm.noFlash = false) :
    Completes .persistentAreaScan s s.scanFoot (fun t =>
      t.nvm.scanned = true ∧ t.boot.cold = false ∧ t.evr.started = true ∧ t.phase = 4 ∧ t.rdF Reg.bootStatus 2 0 = 1 ∧
      (s.boot.cold = true → ∀ i kind pcycle optime, s.latestEntry = some (i, kind, pcycle, optime) →
        t.clk.pcycle.toNat = min (pcycle + 1) 0xFFFFFF) ∧
      (s.boot.cold = true → s.latestEntry = none → t.clk.pcycle = 1) ∧
      (s.boot.cold = true → ∀ c r, (s.lastCheckpoint = some c ∧ s.lastRecordOptime = some r) ∨
          (s.lastCheckpoint = some c ∧ s.lastRecordOptime = none ∧ r = 0) ∨ (s.lastCheckpoint = none ∧ s.lastRecordOptime = some r ∧ c = 0) →
        t.clk.optime.toNat = min (max c r + 1) 0xFFFFFFFFFF) ∧
      (s.boot.cold = true → s.lastCheckpoint = none → s.lastRecordOptime = none → t.clk.optime = 0) ∧
      (s.boot.cold = true → t.clk.optime = 0xFFFFFFFFFF → t.rdB Reg.clkFlags 2 = true) ∧
      (s.boot.cold = true → t.flashRd (32 * (s.nextEntry % 65536)) 32 = persistEntry 2 t.clk.pcycle.toNat t.clk.optime.toNat) ∧
      (s.boot.cold = false → t.clk = s.clk)) := by
  have hframe := s.loading_frame
  have hclk : s.loading.clk = s.restored.clk := hframe .clk (by decide)
  have hboot : s.loading.boot = s.restored.boot := hframe .boot (by decide)
  obtain ⟨-, -, hscanned, -⟩ := hframe .flashPort (by decide)
  obtain ⟨hphase, hstate⟩ := s.loading_phase
  refine ⟨s.loading, congrArg Host.Outcome.next (State.persistentScan_eq h), ⟨hscanned.trans s.restored_scanned, ?_, s.loading_started, hphase,
    hstate, fun hc i kind pcycle optime he => ?_, fun hc he => ?_, fun hc c r hcr => ?_, fun hc he hr => ?_, fun hc ho => ?_, fun hc => ?_,
    fun hc => hclk.trans (State.restored_clk_warm hc)⟩, (State.restored_frame hno).trans (hframe.mono (fun k hk => Allows.mem ?_))⟩
  · rw [hboot, State.restored_boot]
  · rw [hclk, State.restored_clk_cold hc, State.coldClk_pcycle_kept he]
  · rw [hclk, State.restored_clk_cold hc, State.coldClk_pcycle_new he]
  · rw [hclk, State.restored_clk_cold hc, State.coldClk_optime, State.coldOptime_kept hcr]
  · rw [hclk, State.restored_clk_cold hc]
    refine BitVec.eq_of_toNat_eq ?_
    rw [State.coldClk_optime, State.coldOptime_new he hr]
    rfl
  · rw [hframe.rdB_eq 2 (by decide)]
    refine State.restored_flag hc ?_
    rw [hclk, State.restored_clk_cold hc] at ho
    rw [← State.coldClk_optime, ho]
    rfl
  · rw [State.loading_entry, State.restored_entry hc hno, hclk, State.restored_clk_cold hc]
  · simp only [List.mem_cons, List.not_mem_nil, or_false] at hk
    rcases hk with rfl | rfl <;> simp [State.scanFoot]

/-- Settles O21: P1 by what SFDP finds, and P3 by what its scan restores. -/
theorem bootReadsFlashAndTime : Obligations.BootReadsFlashAndTime :=
  ⟨fun _ h => ⟨fun mfr _ dev tpp hsize => ⟨sfdpRead_ok_completes mfr dev tpp h hsize, sfdpRead_fuseError_completes mfr dev tpp h hsize⟩,
    fun hevr _ _ hfound => sfdpRead_refused_completes h hevr hfound⟩, fun _ h hno => persistentScan_completes h hno⟩

end Sys2Proof.Machine


/-! Phases P4 to P6: SLOT_SELECT, BODY_STREAM, CAL_BANK_SELECT (R86 to R90, R98, R104, R105, R107, R455, R460, R474). -/

namespace Sys2Proof.Machine

/-! ### The slot to try (R104) -/

/-- The slots of a start are two. -/
theorem State.lt_two_of_slotsLeft {s : State} {k : Nat} {l : List Nat} (h : s.slotsLeft = k :: l) : k < 2 := by
  have hmem : ∀ i ∈ s.slotsLeft, i < 2 := by
    have hfilter : ∀ i ∈ [0, 1].filter (fun k => s.committed k && !s.boot.tried.contains k), i < 2 := fun i hi => by
      have := (List.mem_filter.mp hi).1
      simp only [List.mem_cons, List.not_mem_nil, or_false] at this
      omega
    unfold State.slotsLeft
    dsimp only
    split
    next a b he =>
      rw [he] at hfilter
      intro i hi
      refine hfilter i ?_
      split at hi
      · simpa [or_comm] using hi
      · rwa [he] at hi
    next => exact hfilter
  exact hmem k (by rw [h]; exact List.mem_cons_self)

/-- The two registers of the slots leave the flash, its size, and the boot as they are. -/
theorem State.slotSeqs_frame (s : State) : ChangesOnly [.one (.reg Reg.bootSlotSeq0), .one (.reg Reg.bootSlotSeq1)] s s.slotSeqs :=
  (State.slotSeqs_changes (Evolves.refl _ s) (Allows.mem (by decide)) (Allows.mem (by decide))).1

theorem State.slotSeqs_slotSize (s : State) : s.slotSeqs.slotSize = s.slotSize :=
  State.slotSize_congr (s.slotSeqs_frame (.reg Reg.bootFlash) (by decide))

theorem State.slotSeqs_nvm (s : State) : s.slotSeqs.nvm = s.nvm := by
  rw [State.slotSeqs, State.wr_nvm, State.wr_nvm]

theorem State.slotSeqs_boot (s : State) : s.slotSeqs.boot = s.boot := by
  rw [State.slotSeqs, State.wr_boot, State.wr_boot]

theorem State.slotSeqs_slotsLeft (s : State) : s.slotSeqs.slotsLeft = s.slotsLeft :=
  State.slotsLeft_congr s.slotSeqs_nvm s.slotSeqs_slotSize s.slotSeqs_boot

theorem State.slotSeqs_rd (s : State) :
    s.slotSeqs.rd Reg.bootSlotSeq0 = BitVec.ofNat 32 (s.imageSeq 0) ∧ s.slotSeqs.rd Reg.bootSlotSeq1 = BitVec.ofNat 32 (s.imageSeq 1) :=
  ⟨(State.rd_wr_ne _ (by decide) _).trans (State.rd_wr_same _ _ _), State.rd_wr_same _ _ _⟩

/-- Slot `k` is the one to try. -/
def State.slotChosen (s : State) (k : Nat) : State := s.slotSeqs.wrB Reg.bootStatus 8 (k == 1)

theorem State.slotChosen_slot (s : State) {k : Nat} (h : k < 2) : (s.slotChosen k).slot = k := by
  rw [State.slot, State.slotChosen, State.rdB_wrB_same _ _ _ (by decide)]
  obtain rfl | rfl : k = 0 ∨ k = 1 := by omega
  · rfl
  · rfl

theorem State.slotChosen_slotSize (s : State) (k : Nat) : (s.slotChosen k).slotSize = s.slotSize :=
  (State.slotSize_congr (State.rd_wrB_ne _ (by decide) _ _)).trans s.slotSeqs_slotSize

theorem State.slotChosen_nvm (s : State) (k : Nat) : (s.slotChosen k).nvm = s.nvm := by
  rw [State.slotChosen, State.wrB_nvm, State.slotSeqs_nvm]

theorem State.slotChosen_boot (s : State) (k : Nat) : (s.slotChosen k).boot = s.boot := by
  rw [State.slotChosen, State.wrB_boot, State.slotSeqs_boot]

theorem State.slotChosen_headerCode (s : State) (k : Nat) :
    (s.slotChosen k).headerCode ((s.slotChosen k).bodyBase k) = s.headerCode (s.bodyBase k) :=
  (State.headerCode_congr (s.slotChosen_nvm k) (s.slotChosen_slotSize k) _).trans
    (congrArg s.headerCode (State.bodyBase_congr (s.slotChosen_slotSize k) k))

theorem State.slotSelect_none {s : State} (h : s.inPhase 4 = true) (hl : s.slotsLeft = []) : s.slotSelect = s.slotSeqs.bootFail 3 := by
  rw [State.slotSelect, if_pos h]
  dsimp only
  rw [State.slotSeqs_slotsLeft, hl]

theorem State.slotSelect_some {s : State} {k : Nat} {l : List Nat} (h : s.inPhase 4 = true) (hl : s.slotsLeft = k :: l) :
    s.slotSelect = if s.headerCode (s.bodyBase k) = 0 then (s.slotChosen k).setPhase 5
      else (s.slotChosen k).slotFail (s.headerCode (s.bodyBase k)) := by
  rw [← State.slotChosen_headerCode, State.slotSelect, if_pos h]
  dsimp only
  rw [State.slotSeqs_slotsLeft, hl]
  rfl

/-- A failed slot is one of the state's own fields, its slot and the committed slots. -/
theorem SlotFailed.congr {s s' t : State} {code : Nat} (h : SlotFailed s' t code) (hb : s'.boot = s.boot) (hs : s'.slot = s.slot)
    (hc : ∀ k, s'.committed k = s.committed k) : SlotFailed s t code := by
  unfold SlotFailed at h ⊢
  simpa only [hb, hs, hc] using h

/-- What a slot that is chosen and then fails can change. -/
def selectFoot : List Foot := [.one (.reg Reg.bootSlotSeq0), .one (.reg Reg.bootSlotSeq1), .one (.reg Reg.bootStatus),
  .one (.reg Reg.hstStatus), .one .boot, .events]

theorem slotSelect_stops {s : State} (h : s.inPhase 4 = true) (hl : s.slotsLeft = []) :
    Completes .slotSelect s selectFoot (fun t => BootStopped t 3) := by
  refine ⟨_, congrArg Host.Outcome.next (State.slotSelect_none h hl), s.slotSeqs.bootFail_stopped 3, ?_⟩
  rw [← State.slotSelect_none h hl]
  refine (execSlotSelect_changes rfl ?_ ?_ ?_ ?_ ?_ ?_).1 <;> exact Allows.mem (by decide)

theorem slotSelect_takes {s : State} {k : Nat} {l : List Nat} (h : s.inPhase 4 = true) (hl : s.slotsLeft = k :: l)
    (hc : s.headerCode (s.bodyBase k) = 0) :
    Completes .slotSelect s [.one (.reg Reg.bootSlotSeq0), .one (.reg Reg.bootSlotSeq1), .one (.reg Reg.bootStatus)] (fun t =>
      t.phase = 5 ∧ t.slot = k ∧ t.rd Reg.bootSlotSeq0 = BitVec.ofNat 32 (s.imageSeq 0) ∧
      t.rd Reg.bootSlotSeq1 = BitVec.ofNat 32 (s.imageSeq 1)) := by
  have he : s.slotSelect = (s.slotChosen k).setPhase 5 := (State.slotSelect_some h hl).trans (if_pos hc)
  have hrd : ∀ o, o ≠ Reg.bootStatus → ((s.slotChosen k).setPhase 5).rd o = s.slotSeqs.rd o := fun o ho =>
    (State.setPhase_rd _ 5 ho).trans (State.rd_wrB_ne _ ho _ _)
  obtain ⟨h0, h1⟩ := s.slotSeqs_rd
  refine ⟨_, congrArg Host.Outcome.next he, ⟨State.setPhase_phase _ (by decide), ?_, (hrd _ (by decide)).trans h0, (hrd _ (by decide)).trans h1⟩, ?_⟩
  · rw [State.slot, State.setPhase_rdB _ _ (.inr (by decide))]
    exact s.slotChosen_slot (State.lt_two_of_slotsLeft hl)
  · refine (State.setPhase_changes 5 (State.wrB_changes _ _ _ (State.slotSeqs_changes (Evolves.refl _ s) ?_ ?_) ?_) ?_).1 <;>
      exact Allows.mem (by decide)

theorem slotSelect_fails {s : State} {k : Nat} {l : List Nat} (h : s.inPhase 4 = true) (hl : s.slotsLeft = k :: l)
    (hc : s.headerCode (s.bodyBase k) ≠ 0) :
    Completes .slotSelect s selectFoot (fun t => SlotFailed (s.wrB Reg.bootStatus 8 (k == 1)) t (s.headerCode (s.bodyBase k))) := by
  have he : s.slotSelect = (s.slotChosen k).slotFail (s.headerCode (s.bodyBase k)) := (State.slotSelect_some h hl).trans (if_neg hc)
  refine ⟨_, congrArg Host.Outcome.next he, SlotFailed.congr (s := s.wrB Reg.bootStatus 8 (k == 1))
    ((s.slotChosen k).slotFail_slotFailed _) (s.slotChosen_boot k) ?_ (fun i => ?_), ?_⟩
  · rw [State.slot, State.slot, State.slotChosen, State.rdB_wrB_same _ _ _ (by decide), State.rdB_wrB_same _ _ _ (by decide)]
  · have hsize : (s.wrB Reg.bootStatus 8 (k == 1)).slotSize = s.slotSize := State.slotSize_congr (State.rd_wrB_ne s (by decide) _ _)
    exact State.committed_congr (s := s.wrB Reg.bootStatus 8 (k == 1)) (s.slotChosen_nvm k) ((s.slotChosen_slotSize k).trans hsize.symm) i
  · rw [← he]
    refine (execSlotSelect_changes rfl ?_ ?_ ?_ ?_ ?_ ?_).1 <;> exact Allows.mem (by decide)

/-! ### The body and its plan library (R89, R98, R455) -/

/-- The plan region is empty. -/
def State.plansCleared (s : State) : State := s.putMem { s.mem with dram := s.mem.dram.filter (fun e => decide (320 * mib ≤ e.1)) }

theorem State.plansCleared_dramAt (s : State) {a : Nat} (h : a < 320 * mib) : s.plansCleared.dramAt a = 0 :=
  Tbl.get_filter_none _ _ _ (fun _ => decide_eq_false (by simpa using h)) _

theorem State.plansCleared_changes {K : List Foot} {s x : State} {n : Nat} (h : Evolves K s x) (hn : 320 * mib ≤ n) (hk : Allows K (.dram 0 n)) :
    Evolves K s x.plansCleared := by
  have hall : Evolves [.drams] x x.plansCleared := State.putMem_drams (Evolves.refl _ x) (Allows.mem List.mem_cons_self) (Tbl.wf_filter _ _)
  refine h.step hk (fun p hp => ?_) hall.2
  cases p with
  | dram a =>
    have ha : n ≤ a := by simpa [Foot.covers] using hp
    exact Tbl.get_filter _ _ _ (fun _ => decide_eq_true (hn.trans ha)) _
  | _ => exact hall.1 _ (List.forall_mem_singleton.mpr rfl)

theorem State.length_sectBytes (s : State) (b i : Nat) : (s.sectBytes b i).length = (s.sect b i).len := by
  simp [State.sectBytes, State.flashRd, Tbl.getList]

/-- The plan region is rebuilt from the library of the body at `b`. -/
def State.plansLoaded (s : State) (b : Nat) : State := s.plansCleared.dramWr 0 (s.sectBytes b 2)

theorem State.bodyStream_eq {s : State} (h : s.inPhase 5 = true) (hup : s.boot.dramUp = true) :
    s.bodyStream = if s.bodyCode (s.bodyBase s.slot) = 0 then (s.plansLoaded (s.bodyBase s.slot)).setPhase 6
      else s.slotFail (s.bodyCode (s.bodyBase s.slot)) := if_pos ⟨h, hup⟩

theorem State.plansLoaded_dramRd (s : State) (b : Nat) : (s.plansLoaded b).dramRd 0 (s.sect b 2).len = s.sectBytes b 2 := by
  rw [← State.length_sectBytes]
  exact Tbl.getList_setList _ _ 0 _

theorem State.plansLoaded_dramAt (s : State) (b : Nat) {a : Nat} (hlo : (s.sect b 2).len ≤ a) (hhi : a < 320 * mib) :
    (s.plansLoaded b).dramAt a = 0 := by
  rw [← State.length_sectBytes] at hlo
  exact (Tbl.get_setList_ne _ _ 0 a _ (.inr (by omega))).trans (s.plansCleared_dramAt hhi)

theorem bodyStream_takes {s : State} (h : s.inPhase 5 = true) (hup : s.boot.dramUp = true) (hc : s.bodyCode (s.bodyBase s.slot) = 0) :
    Completes .bodyStream s [.dram 0 (max (320 * mib) (s.sect (s.bodyBase s.slot) 2).len), .one (.reg Reg.bootStatus)] (fun t =>
      t.phase = 6 ∧ t.dramRd 0 (s.sect (s.bodyBase s.slot) 2).len = s.sectBytes (s.bodyBase s.slot) 2 ∧
      ∀ a, (s.sect (s.bodyBase s.slot) 2).len ≤ a → a < 320 * mib → t.dramAt a = 0) := by
  have hspan : Allows [.dram 0 (max (320 * mib) (s.sect (s.bodyBase s.slot) 2).len), .one (.reg Reg.bootStatus)]
      (.dram 0 (max (320 * mib) (s.sect (s.bodyBase s.slot) 2).len)) := Allows.mem List.mem_cons_self
  refine ⟨_, congrArg Host.Outcome.next ((State.bodyStream_eq h hup).trans (if_pos hc)), ⟨State.setPhase_phase _ (by decide),
    s.plansLoaded_dramRd _, fun a hlo hhi => s.plansLoaded_dramAt _ hlo hhi⟩, ?_⟩
  refine (State.setPhase_changes 6 (State.dramWr_changes 0 _ (State.plansCleared_changes (Evolves.refl _ s) (le_max_left _ _) hspan) ?_)
    (Allows.mem (by simp))).1
  rw [State.length_sectBytes]
  refine hspan.of (fun p hp => ?_)
  cases p with
  | dram a =>
    simp only [Foot.covers, decide_eq_true_eq] at hp ⊢
    omega
  | _ => simp [Foot.covers] at hp

theorem bodyStream_fails {s : State} (h : s.inPhase 5 = true) (hup : s.boot.dramUp = true) (hc : s.bodyCode (s.bodyBase s.slot) ≠ 0) :
    Completes .bodyStream s stopFoot (fun t => SlotFailed s t (s.bodyCode (s.bodyBase s.slot))) :=
  ⟨_, congrArg Host.Outcome.next ((State.bodyStream_eq h hup).trans (if_neg hc)), s.slotFail_slotFailed _, s.slotFail_frame _⟩

/-! ### The calibration bank (R105, R460, R474) -/

/-- Where the store's bytes came from stands through whatever keeps the mark. -/
theorem foldl_fromBank {α : Type} (f : State → α → State) (hf : ∀ t a, (f t a).cal.fromBank = t.cal.fromBank) (l : List α) (s : State) :
    (l.foldl f s).cal.fromBank = s.cal.fromBank := by
  induction l generalizing s with
  | nil => rfl
  | cons a l ih => exact (ih (f s a)).trans (hf s a)

theorem State.bankLoad_fromBank (s : State) (k o n : Nat) : (s.bankLoad k o n).cal.fromBank = s.cal.fromBank := rfl

theorem State.recordsLoad_fromBank (s : State) (k : Nat) : (s.recordsLoad k).cal.fromBank = s.cal.fromBank := by
  unfold State.recordsLoad
  generalize List.range 512 = l
  refine (foldl_fromBank _ (fun t n => ?_) l _).trans ((foldl_fromBank _ (fun t x => ?_) _ _).trans ?_)
  · rw [State.wr_cal]
  · rw [State.bankLoad_fromBank]
  · rw [State.bankLoad_fromBank, State.bankLoad_fromBank]

theorem State.factoryLoad_fromBank (s : State) : s.factoryLoad.cal.fromBank = s.cal.fromBank := by
  unfold State.factoryLoad
  generalize List.finRange 512 = l
  refine (foldl_fromBank _ ?_ l _).trans rfl
  exact fun _ _ => rfl

theorem State.setBases_fromBank (s : State) (n : Nat) (delta : Int) : (s.setBases n delta).cal.fromBank = s.cal.fromBank := by
  unfold State.setBases
  dsimp only
  rw [State.raiseIf_cal]

theorem State.allKref_fromBank (s : State) : s.allKref.cal.fromBank = s.cal.fromBank := by
  unfold State.allKref
  generalize List.range 512 = l
  exact foldl_fromBank _ (fun t n => t.setBases_fromBank n 0) l s

/-- A bank that is chosen is one of the two, and valid (R472, R474). -/
theorem State.bankChoice_valid {s : State} {k : Nat} (h : s.bankChoice = some k) : k < 2 ∧ s.bankValid k = true := by
  unfold State.bankChoice at h
  split at h
  next h0 => cases h; exact ⟨by decide, h0.1⟩
  next =>
    split at h
    next h1 => cases h; exact ⟨by decide, h1⟩
    next => cases h

/-- The SEQ of a valid bank is its header's: its MAGIC is right. -/
theorem State.bankSeq_of_valid {s : State} {k : Nat} (h : s.bankValid k = true) : s.bankSeq k = s.flashLe (bankBase k + 8) 4 := by
  refine if_pos ?_
  simp only [State.bankValid, State.bankHeadOk, Bool.and_eq_true, beq_iff_eq] at h
  exact h.1.1.1.1.1.1.1

/-- The store is empty, and both banks' counts and validity are shown. -/
def State.banksShown (s : State) : State :=
  let s0 := s.putCal { s.cal with bytes := [], fromBank := false, kb := [], kt := [] }
  let s1 := (s0.wr Reg.calSeqA (BitVec.ofNat 32 (s.bankSeq 0))).wr Reg.calSeqB (BitVec.ofNat 32 (s.bankSeq 1))
  (s1.wrB Reg.calStatus 2 (s.bankValid 0)).wrB Reg.calStatus 3 (s.bankValid 1)

/-- The records of the chosen bank, or the factory record in their place. -/
def State.bankChosen (s : State) : Option Nat → State
  | some k => (s.bankActive k).recordsLoad k
  | none => s.factoryLoad.wrB Reg.bootStatus 10 true

/-- The bank of R474 is loaded. -/
def State.bankTaken (s : State) : State := s.banksShown.bankChosen s.bankChoice

/-- SEQ of the active bank, 0 where there is none. -/
def State.activeSeq (s : State) : Nat := match s.bankChoice with | some k => s.bankSeq k | none => 0

/-- A torn bank that is newer is reported. -/
def State.bankNoted (s : State) : State :=
  if s.activeSeq < s.tornSeq then (s.bankTaken.raise Reg.calFlags 0).post 297 0x31 (evData [(0, s.tornSeq), (32, s.activeSeq)]) else s.bankTaken

theorem State.calSelect_eq {s : State} (h : s.inPhase 6 = true) : s.calSelect = (s.bankNoted.allKref.linesLoad).setPhase 7 := by
  rw [State.calSelect, if_pos h]
  unfold State.bankNoted State.bankTaken State.activeSeq
  cases s.bankChoice <;> rfl

/-- What the loading of a bank changes, once the two banks are shown. -/
def bankFoot : List Foot := [.one .cal, .one (.reg Reg.calLastPcycle), .pair Reg.calLastOptLo, .one (.reg Reg.calCount), .one (.reg Reg.bootStatus),
  .one (.reg Reg.calStatus), .regs Reg.calChFail (Reg.calChFail + 2048)]

/-- What follows the loading of a bank changes. -/
def bankEndFoot : List Foot := [.pair Reg.calFlags, .events, .one .cal, .chReg Reg.tiaLine, .chans, .one .snd, .one (.reg Reg.bootStatus)]

theorem State.bankNoted_frame (s : State) : ChangesOnly [.pair Reg.calFlags, .events] s.bankTaken s.bankNoted :=
  (Evolves.ite (fun _ => State.post_changes _ _ _ (State.raise_changes _ _ (Evolves.refl _ _) (Allows.mem (by decide))) (Allows.mem (by decide)))
    (fun _ => Evolves.refl _ _)).1

theorem State.calSelect_end (s : State) :
    ChangesOnly bankEndFoot s.bankTaken ((s.bankNoted.allKref.linesLoad).setPhase 7) := by
  refine (s.bankNoted_frame.mono (fun k hk => Allows.mem ?_)).trans (State.setPhase_changes 7 (State.linesLoad_changes
    (State.allKref_changes (Evolves.refl _ _) ?_ ?_) ?_ ?_ ?_) ?_).1
  · simp only [List.mem_cons, List.not_mem_nil, or_false] at hk
    rcases hk with rfl | rfl <;> decide
  all_goals exact Allows.mem (by decide)

theorem State.calSelect_fromBank (s : State) : ((s.bankNoted.allKref.linesLoad).setPhase 7).cal.fromBank = s.bankTaken.cal.fromBank :=
  calc ((s.bankNoted.allKref.linesLoad).setPhase 7).cal.fromBank = s.bankNoted.allKref.linesLoad.cal.fromBank :=
        congrArg Cal.fromBank (State.wrF_cal _ _ _ _ _)
    _ = s.bankNoted.allKref.cal.fromBank := congrArg Cal.fromBank ((State.linesLoad_changes (Evolves.refl [.chReg Reg.tiaLine, .chans, .one .snd] _)
        (Allows.mem (by decide)) (Allows.mem (by decide)) (Allows.mem (by decide))).1 .cal (by decide))
    _ = s.bankNoted.cal.fromBank := State.allKref_fromBank _
    _ = s.bankTaken.cal.fromBank := congrArg Cal.fromBank (s.bankNoted_frame .cal (by decide))

theorem State.bankTaken_some {s : State} {k : Nat} (h : s.bankChoice = some k) : s.bankTaken = (s.banksShown.bankActive k).recordsLoad k := by
  rw [State.bankTaken, h, State.bankChosen]

theorem State.bankTaken_none {s : State} (h : s.bankChoice = none) : s.bankTaken = s.banksShown.factoryLoad.wrB Reg.bootStatus 10 true := by
  rw [State.bankTaken, h, State.bankChosen]

theorem State.recordsLoad_frame (s : State) (k : Nat) :
    ChangesOnly [.one .cal, .regs Reg.calChFail (Reg.calChFail + 2048)] s (s.recordsLoad k) :=
  (State.recordsLoad_changes k (Evolves.refl _ s) (Allows.mem (by decide)) (Allows.mem (by decide))).1

theorem State.factoryLoad_frame (s : State) : ChangesOnly [.one .cal] s s.factoryLoad :=
  (State.factoryLoad_changes (Evolves.refl _ s) (Allows.mem (by decide))).1

theorem State.bankTaken_frame (s : State) : ChangesOnly bankFoot s.banksShown s.bankTaken := by
  cases h : s.bankChoice with
  | none =>
    rw [State.bankTaken_none h]
    exact (State.wrB_changes _ _ _ (State.factoryLoad_changes (Evolves.refl _ _) (Allows.mem (by decide))) (Allows.mem (by decide))).1
  | some k =>
    rw [State.bankTaken_some h]
    refine (State.recordsLoad_changes k (State.bankActive_changes k (Evolves.refl _ _) ?_ ?_ ?_ ?_ ?_ ?_) ?_ ?_).1 <;> exact Allows.mem (by decide)

/-! #### What the registers show of the banks -/

theorem State.banksShown_seqs (s : State) :
    s.banksShown.rd Reg.calSeqA = BitVec.ofNat 32 (s.bankSeq 0) ∧ s.banksShown.rd Reg.calSeqB = BitVec.ofNat 32 (s.bankSeq 1) := by
  constructor
  · rw [State.banksShown, State.rd_wrB_ne _ (by decide), State.rd_wrB_ne _ (by decide), State.rd_wr_ne _ (by decide), State.rd_wr_same]
  · rw [State.banksShown, State.rd_wrB_ne _ (by decide), State.rd_wrB_ne _ (by decide), State.rd_wr_same]

theorem State.banksShown_nvm (s : State) : s.banksShown.nvm = s.nvm := by
  rw [State.banksShown, State.wrB_nvm, State.wrB_nvm, State.wr_nvm, State.wr_nvm]
  rfl

theorem State.banksShown_valid (s : State) :
    s.banksShown.rdB Reg.calStatus 2 = s.bankValid 0 ∧ s.banksShown.rdB Reg.calStatus 3 = s.bankValid 1 := by
  constructor
  · rw [State.banksShown, State.rdB_wrB_ne _ _ _ (by decide) (by decide), State.rdB_wrB_same _ _ _ (by decide)]
  · rw [State.banksShown, State.rdB_wrB_same _ _ _ (by decide)]

/-- CAL_STATUS names the active bank. -/
def State.bankMarked (s : State) (b : Nat) : State :=
  ((s.wrF Reg.calStatus 1 0 (b + 1)).wrB Reg.calStatus 4 false).wrB Reg.calStatus (2 + b) true

/-- The mark of the factory record is gone, and CAL_COUNT takes the bank's SEQ. -/
def State.bankCounted (s : State) (b : Nat) : State :=
  ((s.bankMarked b).wrB Reg.bootStatus 10 false).wr Reg.calCount (BitVec.ofNat 32 (s.flashLe (bankBase b + 8) 4))

theorem State.bankActive_frame (s : State) (b : Nat) :
    ChangesOnly [.pair Reg.calLastOptLo, .one (.reg Reg.calLastPcycle), .one .cal] (s.bankCounted b) (s.bankActive b) :=
  (State.putCal_changes _ (State.wr_changes _ _ (State.wr64_changes _ _ (Evolves.refl _ (s.bankCounted b)) (Allows.mem (by decide)))
    (Allows.mem (by decide))) (Allows.mem (by decide))).1

/-- CAL_STATUS of a bank that becomes the active one: its number, its validity, and the other bank's as it was. -/
theorem State.bankMarked_status (s : State) {b : Nat} (hb : b < 2) :
    (s.bankMarked b).rdF Reg.calStatus 1 0 = b + 1 ∧ (s.bankMarked b).rdB Reg.calStatus (2 + b) = true ∧
      ∀ i, i = 2 ∨ i = 3 → i ≠ 2 + b → (s.bankMarked b).rdB Reg.calStatus i = s.rdB Reg.calStatus i := by
  refine ⟨?_, State.rdB_wrB_same _ _ _ (by omega), fun i hi hne => ?_⟩
  · rw [State.bankMarked, State.rdF_wrB_ne _ _ _ (by omega) (.inl (by omega)), State.rdF_wrB_ne _ _ _ (by decide) (by decide),
      State.rdF_wrF_same _ _ _ (by decide) (by decide)]
    exact Nat.mod_eq_of_lt (by omega)
  · rw [State.bankMarked, State.rdB_wrB_ne _ _ _ (by omega) hne, State.rdB_wrB_ne _ _ _ (by decide) (by omega),
      State.rdB_wrF _ _ _ _ (by decide) (by decide), if_neg (by omega)]

theorem State.bankCounted_rd (s : State) (b : Nat) : (s.bankCounted b).rd Reg.calStatus = (s.bankMarked b).rd Reg.calStatus := by
  rw [State.bankCounted, State.rd_wr_ne _ (by decide), State.rd_wrB_ne _ (by decide)]

theorem State.bankActive_status (s : State) {b : Nat} (hb : b < 2) :
    (s.bankActive b).rdF Reg.calStatus 1 0 = b + 1 ∧ (s.bankActive b).rdB Reg.calStatus (2 + b) = true ∧
      ∀ i, i = 2 ∨ i = 3 → i ≠ 2 + b → (s.bankActive b).rdB Reg.calStatus i = s.rdB Reg.calStatus i := by
  have hrd : (s.bankActive b).rd Reg.calStatus = (s.bankMarked b).rd Reg.calStatus :=
    (s.bankActive_frame b (.reg Reg.calStatus) (by decide)).trans (s.bankCounted_rd b)
  simpa only [State.rdF, State.rdB, hrd] using s.bankMarked_status hb

theorem State.bankActive_count (s : State) (b : Nat) : (s.bankActive b).rd Reg.calCount = BitVec.ofNat 32 (s.flashLe (bankBase b + 8) 4) :=
  (s.bankActive_frame b (.reg Reg.calCount) (by decide)).trans (State.rd_wr_same _ _ _)

theorem State.bankActive_bootStatus (s : State) (b : Nat) : (s.bankActive b).rdB Reg.bootStatus 10 = false := by
  rw [(s.bankActive_frame b).rdB_eq 10 (by decide), State.bankCounted, State.rdB_wr_ne _ (by decide)]
  exact State.rdB_wrB_same _ _ _ (by decide)

theorem State.bankActive_fromBank (s : State) (b : Nat) : (s.bankActive b).cal.fromBank = true := rfl

/-- Validity of both banks after either way to load the store. -/
theorem State.bankTaken_valid (s : State) : s.bankTaken.rdB Reg.calStatus 2 = s.bankValid 0 ∧ s.bankTaken.rdB Reg.calStatus 3 = s.bankValid 1 := by
  obtain ⟨h2, h3⟩ := s.banksShown_valid
  cases h : s.bankChoice with
  | none =>
    have hrd : ∀ i, s.bankTaken.rdB Reg.calStatus i = s.banksShown.rdB Reg.calStatus i := fun i => by
      rw [State.bankTaken_none h, State.rdB_wrB_off _ (by decide), s.banksShown.factoryLoad_frame.rdB_eq i (by decide)]
    exact ⟨(hrd 2).trans h2, (hrd 3).trans h3⟩
  | some k =>
    obtain ⟨hk, hvalid⟩ := State.bankChoice_valid h
    obtain ⟨-, hown, hother⟩ := s.banksShown.bankActive_status hk
    have hrd : ∀ i, s.bankTaken.rdB Reg.calStatus i = (s.banksShown.bankActive k).rdB Reg.calStatus i := fun i => by
      rw [State.bankTaken_some h, (State.recordsLoad_frame _ k).rdB_eq i (by decide)]
    rw [hrd, hrd]
    obtain rfl | rfl : k = 0 ∨ k = 1 := by omega
    · exact ⟨hown.trans hvalid.symm, (hother 3 (by decide) (by decide)).trans h3⟩
    · exact ⟨(hother 2 (by decide) (by decide)).trans h2, hown.trans hvalid.symm⟩

theorem State.bankTaken_active {s : State} {k : Nat} (h : s.bankChoice = some k) :
    s.bankTaken.rdF Reg.calStatus 1 0 = k + 1 ∧ s.bankTaken.rd Reg.calCount = BitVec.ofNat 32 (s.bankSeq k) ∧
      s.bankTaken.rdB Reg.bootStatus 10 = false ∧ s.bankTaken.cal.fromBank = true := by
  obtain ⟨hk, hvalid⟩ := State.bankChoice_valid h
  have hframe := (s.banksShown.bankActive k).recordsLoad_frame k
  rw [State.bankTaken_some h, hframe.rdF_eq 1 0 (by decide), hframe (.reg Reg.calCount) (by decide), hframe.rdB_eq 10 (by decide),
    State.recordsLoad_fromBank]
  refine ⟨(s.banksShown.bankActive_status hk).1, ?_, State.bankActive_bootStatus _ k, State.bankActive_fromBank _ k⟩
  rw [State.bankActive_count, State.flashLe_congr s.banksShown_nvm, State.bankSeq_of_valid hvalid]

theorem State.bankTaken_factory {s : State} (h : s.bankChoice = none) :
    s.bankTaken.rdB Reg.bootStatus 10 = true ∧ s.bankTaken.cal.fromBank = false := by
  rw [State.bankTaken_none h]
  refine ⟨State.rdB_wrB_same _ _ _ (by decide), ?_⟩
  rw [State.wrB_cal, State.factoryLoad_fromBank]
  rfl

/-- The last steps leave bit 10 of BOOT_STATUS, the mark of the factory record. -/
theorem State.calSelect_factoryBit (s : State) :
    ((s.bankNoted.allKref.linesLoad).setPhase 7).rdB Reg.bootStatus 10 = s.bankTaken.rdB Reg.bootStatus 10 := by
  rw [State.setPhase_rdB _ _ (.inr (by decide))]
  have hlines : ChangesOnly [.pair Reg.calFlags, .one .cal, .chReg Reg.tiaLine, .chans, .one .snd] s.bankNoted s.bankNoted.allKref.linesLoad := by
    refine (State.linesLoad_changes (State.allKref_changes (Evolves.refl _ _) ?_ ?_) ?_ ?_ ?_).1 <;> exact Allows.mem (by decide)
  rw [hlines.rdB_eq 10 (by decide), s.bankNoted_frame.rdB_eq 10 (by decide)]

theorem calBankSelect_completes {s : State} (h : s.inPhase 6 = true) :
    Completes .calBankSelect s [.one .cal, .one (.reg Reg.calSeqA), .one (.reg Reg.calSeqB), .one (.reg Reg.calStatus), .one (.reg Reg.calCount),
        .pair Reg.calLastOptLo, .one (.reg Reg.calLastPcycle), .regs Reg.calChFail (Reg.calChFail + 2048), .pair Reg.calFlags, .events,
        .one (.reg Reg.bootStatus), .chReg Reg.tiaLine, .chans, .one .snd] (fun t =>
      t.phase = 7 ∧ t.rd Reg.calSeqA = BitVec.ofNat 32 (s.bankSeq 0) ∧ t.rd Reg.calSeqB = BitVec.ofNat 32 (s.bankSeq 1) ∧
      t.rdB Reg.calStatus 2 = s.bankValid 0 ∧ t.rdB Reg.calStatus 3 = s.bankValid 1 ∧
      (∀ k, s.bankChoice = some k → t.rdF Reg.calStatus 1 0 = k + 1 ∧ t.rd Reg.calCount = BitVec.ofNat 32 (s.bankSeq k) ∧
        t.rdB Reg.bootStatus 10 = false ∧ t.cal.fromBank = true) ∧
      (s.bankChoice = none → t.rdB Reg.bootStatus 10 = true ∧ t.cal.fromBank = false)) := by
  have hend := s.calSelect_end
  have hbank := s.bankTaken_frame
  obtain ⟨ha, hb⟩ := s.banksShown_seqs
  obtain ⟨h2, h3⟩ := s.bankTaken_valid
  refine ⟨_, congrArg Host.Outcome.next (State.calSelect_eq h), ⟨State.setPhase_phase _ (by decide), ?_, ?_, ?_, ?_, fun k hk => ?_, fun hk => ?_⟩, ?_⟩
  · rw [hend (.reg Reg.calSeqA) (by decide), hbank (.reg Reg.calSeqA) (by decide), ha]
  · rw [hend (.reg Reg.calSeqB) (by decide), hbank (.reg Reg.calSeqB) (by decide), hb]
  · rw [hend.rdB_eq 2 (by decide), h2]
  · rw [hend.rdB_eq 3 (by decide), h3]
  · rw [hend.rdF_eq 1 0 (by decide), hend (.reg Reg.calCount) (by decide), s.calSelect_factoryBit, s.calSelect_fromBank]
    exact State.bankTaken_active hk
  · rw [s.calSelect_factoryBit, s.calSelect_fromBank]
    exact State.bankTaken_factory hk
  · rw [← State.calSelect_eq h]
    refine (execCalBankSelect_changes rfl ?_ ?_ ?_ ?_ ?_ ?_ ?_ ?_ ?_ ?_ ?_ ?_ ?_ ?_).1 <;> exact Allows.mem (by decide)

/-- Settles O22: P4 by the slots left and the header, P5 by the body, and P6 by the bank that is chosen. -/
theorem bootSelectsBodyAndBank : Obligations.BootSelectsBodyAndBank :=
  ⟨fun _ => ⟨fun h => ⟨slotSelect_stops h, fun _ _ hl => ⟨slotSelect_takes h hl, slotSelect_fails h hl⟩⟩,
    fun h hup => ⟨bodyStream_takes h hup, bodyStream_fails h hup⟩⟩, fun _ => calBankSelect_completes⟩

end Sys2Proof.Machine


/-! Phases P7 to P9: CONFIG_APPLY, PATCH_APPLY, BOOT_READY (R93, R94, R96, R101, R103, R104, R109, R153). -/

namespace Sys2Proof.Machine

/-! ### Settings stay inside the sealed fields (R93, R94) -/

/-- In canonical form an entry of a table is what its key reads. -/
theorem Tbl.get_of_mem {α : Type} [DecidableEq α] {d : Nat → α} {t : Tbl α} (h : Tbl.wf d t = true) {e : Nat × α} (he : e ∈ t) :
    Tbl.get d t e.1 = e.2 := by
  have hbelow : ∀ {n : Nat} {t : Tbl α}, Tbl.above n t = true → e ∈ t → n < e.1 := fun {n t} => by
    induction t with
    | nil => exact fun _ he => absurd he List.not_mem_nil
    | cons f t ih =>
      intro ha he
      simp only [Tbl.above, Bool.and_eq_true, decide_eq_true_eq] at ha
      rcases List.mem_cons.mp he with rfl | he
      · exact ha.1
      · exact ih ha.2 he
  induction t with
  | nil => exact absurd he List.not_mem_nil
  | cons f t ih =>
    simp only [Tbl.wf, Bool.and_eq_true] at h
    rcases List.mem_cons.mp he with rfl | he
    · exact if_pos rfl
    · exact (if_neg (hbelow h.1.2 he).ne).trans (ih h.2 he)

/-- A setting leaves the bits outside its mask. -/
theorem cfgMix_outside {mask m : W32} (old v : W32) (h : mask &&& ~~~ m = 0) : cfgMix old mask v &&& ~~~ m = old &&& ~~~ m := by
  refine BitVec.eq_of_getLsbD_eq (fun i hi => ?_)
  have hbit : (bitOf mask i && !bitOf m i) = false := by
    rw [← bitOf_not m hi, ← bitOf_and, h]
    exact bitOf_zero i
  change bitOf (cfgMix old mask v &&& ~~~ m) i = bitOf (old &&& ~~~ m) i
  rw [cfgMix, bitOf_and, bitOf_or, bitOf_and, bitOf_and, bitOf_and, bitOf_not mask hi, bitOf_not m hi]
  revert hbit
  cases bitOf mask i <;> cases bitOf m i <;> simp

theorem State.entryCode_inside {s : State} {e : Nat × W32 × W32} {r : RegRow} (h : s.entryCode e = 0) (hr : findRow e.1 = some r) :
    e.2.1 &&& ~~~ BitVec.ofNat 32 r.sl = 0 := by
  unfold State.entryCode at h
  rw [hr] at h
  by_contra hne
  simp only [hne, ne_eq, not_false_eq_true, or_true, if_true] at h
  cases h

/-- The settings leave every field of a register that is not sealed. -/
theorem State.cfgRun_outside (l : List (Nat × W32 × W32)) (s : State) {o : Nat} {r : RegRow} (hr : findRow o = some r) :
    (s.cfgRun l).2.rd o &&& ~~~ BitVec.ofNat 32 r.sl = s.rd o &&& ~~~ BitVec.ofNat 32 r.sl := by
  induction l generalizing s with
  | nil => rfl
  | cons e l ih =>
    unfold State.cfgRun
    split
    next hcode =>
      rw [ih]
      by_cases he : o = e.1
      · subst he
        rw [State.rd_wr_same, cfgMix_outside _ _ (State.entryCode_inside hcode hr)]
      · rw [State.rd_wr_ne _ he]
    next => rfl

/-- One step of `clearSealed`. -/
def State.clearOne (s : State) (e : Nat × W32) : State :=
  match findRow e.1 with
  | some r => if r.sl = 0 then s else s.wr e.1 (cfgMix e.2 (BitVec.ofNat 32 r.sl) (BitVec.ofNat 32 r.reset))
  | none => s

theorem State.clearSealed_eq (s : State) : s.clearSealed = s.regs.foldl State.clearOne s := rfl

/-- Where the entry is what the register held, the fields outside the sealed ones stand. -/
theorem State.clearOne_outside (s : State) (e : Nat × W32) {o : Nat} {r : RegRow} {v : W32} (hr : findRow o = some r)
    (he : e.1 = o → e.2 &&& ~~~ BitVec.ofNat 32 r.sl = v) (hs : s.rd o &&& ~~~ BitVec.ofNat 32 r.sl = v) :
    (s.clearOne e).rd o &&& ~~~ BitVec.ofNat 32 r.sl = v := by
  by_cases heo : e.1 = o
  · rw [State.clearOne, heo, hr]
    dsimp only
    split
    · exact hs
    · rw [State.rd_wr_same, cfgMix_outside _ _ (BitVec.and_not_self _)]
      exact he heo
  · unfold State.clearOne
    split
    · split
      · exact hs
      · rwa [State.rd_wr_ne _ (Ne.symm heo)]
    · exact hs

theorem State.clearSealed_outside {s : State} (hc : Tbl.wf resetWord s.regs = true) {o : Nat} {r : RegRow} (hr : findRow o = some r) :
    s.clearSealed.rd o &&& ~~~ BitVec.ofNat 32 r.sl = s.rd o &&& ~~~ BitVec.ofNat 32 r.sl := by
  have hfold : ∀ (l : Tbl W32) (t : State), (∀ e ∈ l, e.1 = o → e.2 &&& ~~~ BitVec.ofNat 32 r.sl = s.rd o &&& ~~~ BitVec.ofNat 32 r.sl) →
      t.rd o &&& ~~~ BitVec.ofNat 32 r.sl = s.rd o &&& ~~~ BitVec.ofNat 32 r.sl →
      (l.foldl State.clearOne t).rd o &&& ~~~ BitVec.ofNat 32 r.sl = s.rd o &&& ~~~ BitVec.ofNat 32 r.sl := by
    intro l
    induction l with
    | nil => exact fun t _ ht => ht
    | cons e l ih =>
      intro t hl ht
      exact ih (t.clearOne e) (fun f hf => hl f (List.mem_cons_of_mem e hf)) (t.clearOne_outside e hr (hl e List.mem_cons_self) ht)
  rw [State.clearSealed_eq]
  refine hfold s.regs s (fun e he heo => ?_) rfl
  rw [← Tbl.get_of_mem hc he, heo]
  rfl

theorem State.canonical_regs {s : State} (h : s.canonical = true) : Tbl.wf resetWord s.regs = true := by
  simp only [State.canonical, Bool.and_eq_true] at h
  exact h.1.1.1.1.1.1.1.1

theorem State.cfgCheck_outside {s : State} (hc : s.canonical = true) (b : Nat) {o : Nat} {r : RegRow} (hr : findRow o = some r) :
    (s.cfgCheck b).2.rd o &&& ~~~ BitVec.ofNat 32 r.sl = s.rd o &&& ~~~ BitVec.ofNat 32 r.sl := by
  have hrun := (State.cfgRun_outside (s.cfgEntries b) s.clearSealed hr).trans (State.clearSealed_outside (State.canonical_regs hc) hr)
  simp only [State.cfgCheck]
  split_ifs <;> exact hrun

/-- The settings are registers alone. -/
theorem State.cfgCheck_frame (s : State) (b : Nat) : ChangesOnly [.allRegs] s (s.cfgCheck b).2 :=
  (State.cfgCheck_changes b (Evolves.refl _ s) (Allows.mem List.mem_cons_self)).1

/-- The settings of the image that P7 applies. -/
def State.configured (s : State) : State := (s.cfgCheck (s.bodyBase s.slot)).2

theorem State.configured_frame (s : State) : ChangesOnly [.allRegs] s s.configured := s.cfgCheck_frame (s.bodyBase s.slot)

/-- The reference outputs follow their enables. -/
def State.outputsEnabled (u : State) : State := u.putClk { u.clk with outEn := u.rdF Reg.clkOutCtl 2 0 }

theorem State.outputsEnabled_rd (u : State) (o : Nat) : u.outputsEnabled.rd o = u.rd o := rfl

theorem State.outputsEnabled_clk (u : State) : u.outputsEnabled.clk = { u.clk with outEn := u.rdF Reg.clkOutCtl 2 0 } := rfl

/-- The end of P7. -/
def State.configTaken (s : State) : State := s.configured.outputsEnabled.setPhase 8

theorem State.configApply_eq {s : State} (h : s.inPhase 7 = true) (hm : s.boot.marched = true) :
    s.configApply = if (s.cfgCheck (s.bodyBase s.slot)).1 = 0 then s.configTaken
      else s.configured.slotFail (s.cfgCheck (s.bodyBase s.slot)).1 := by
  rw [State.configApply, if_pos ⟨h, hm⟩]
  unfold State.configTaken State.configured
  generalize s.cfgCheck (s.bodyBase s.slot) = r
  rfl

theorem State.configTaken_rd (s : State) {o : Nat} (ho : o ≠ Reg.bootStatus) : s.configTaken.rd o = s.configured.rd o := by
  rw [State.configTaken, State.setPhase_rd _ 8 ho, State.outputsEnabled_rd]

theorem State.configTaken_clk (s : State) : s.configTaken.clk = { s.clk with outEn := s.configTaken.rdF Reg.clkOutCtl 2 0 } := by
  have hclk : s.configured.clk = s.clk := s.configured_frame .clk (by decide)
  rw [State.rdF, s.configTaken_rd (by decide), State.configTaken, State.setPhase, State.wrF_clk, State.outputsEnabled_clk, hclk]
  rfl

theorem configApply_takes {s : State} (h : s.inPhase 7 = true) (hm : s.boot.marched = true) (h0 : (s.cfgCheck (s.bodyBase s.slot)).1 = 0)
    (hc : s.canonical = true) : Completes .configApply s [.allRegs, .one .clk] (fun t =>
      t.phase = 8 ∧ t.clk = { s.clk with outEn := t.rdF Reg.clkOutCtl 2 0 } ∧
      (∀ off, off ≠ Reg.bootStatus → t.rd off = (s.cfgCheck (s.bodyBase s.slot)).2.rd off) ∧
      (∀ off r, off ≠ Reg.bootStatus → findRow off = some r →
        t.rd off &&& ~~~ BitVec.ofNat 32 r.sl = s.rd off &&& ~~~ BitVec.ofNat 32 r.sl) ∧
      (∀ off, findRow off = none → t.rd off = s.rd off)) := by
  refine ⟨_, congrArg Host.Outcome.next ((State.configApply_eq h hm).trans (if_pos h0)), ⟨State.setPhase_phase _ (by decide), s.configTaken_clk,
    fun o ho => s.configTaken_rd ho, fun o r ho hr => ?_, fun o hn => ?_⟩, ?_⟩
  · rw [s.configTaken_rd ho]
    exact State.cfgCheck_outside hc _ hr
  · have hne : o ≠ Reg.bootStatus := fun he => by
      rw [he] at hn
      exact absurd hn (by decide +kernel)
    rw [s.configTaken_rd hne]
    exact s.cfgCheck_rd _ (by rw [sealedFields, hn])
  · exact (State.setPhase_changes 8 (State.putClk_changes _ (State.cfgCheck_changes _ (Evolves.refl _ s) (Allows.mem (by decide)))
      (Allows.mem (by decide))) (Allows.mem (by decide) : Allows _ .allRegs).regOfAll).1

theorem configApply_fails {s : State} (h : s.inPhase 7 = true) (hm : s.boot.marched = true) (h0 : (s.cfgCheck (s.bodyBase s.slot)).1 ≠ 0) :
    Completes .configApply s [.allRegs, .one .boot, .events] (fun t =>
      SlotFailed (s.cfgCheck (s.bodyBase s.slot)).2 t (s.cfgCheck (s.bodyBase s.slot)).1) := by
  have hall : Allows [.allRegs, .one .boot, .events] .allRegs := Allows.mem (by decide)
  refine ⟨_, congrArg Host.Outcome.next ((State.configApply_eq h hm).trans (if_neg h0)), s.configured.slotFail_slotFailed _, ?_⟩
  exact (State.slotFail_changes _ (State.cfgCheck_changes _ (Evolves.refl _ s) hall) (Allows.mem (by decide)) (Allows.mem (by decide)) hall.regOfAll
    hall.regOfAll).1

/-! ### The control stores (R96, R153) -/

/-- A sequencer with its control store filled and its patches in place. -/
def Seq.patched (z : Seq) (m : List PatchRec) : Seq := (m.foldl Seq.patch { z with store := [], hooks := [], latches := [] }).romLatches

theorem foldl_keeps {α β γ : Type} (g : β → γ) (f : β → α → β) (hf : ∀ y a, g (f y a) = g y) (l : List α) (y : β) : g (l.foldl f y) = g y := by
  induction l generalizing y with
  | nil => rfl
  | cons a l ih => exact (ih (f y a)).trans (hf y a)

/-- The latches of the handlers are loaded beside the store and the place. -/
theorem Seq.romLatches_keeps {γ : Type} (g : Seq → γ) (hg : ∀ y line w, g (Seq.loadLatch y line w) = g y) (z : Seq) : g z.romLatches = g z := by
  refine foldl_keeps g _ (fun y e => ?_) _ z
  split
  · rfl
  · exact hg _ _ _

theorem Seq.foldl_patch_store (m : List PatchRec) (z : Seq) :
    (m.foldl Seq.patch z).store = (m.filter (fun r => r.type == 1)).foldl (fun t r => Tbl.setList (fun _ => trapWord) t r.addr r.words) z.store := by
  induction m generalizing z with
  | nil => rfl
  | cons r m ih =>
    rw [List.foldl_cons, ih]
    by_cases h : r.type = 1
    · rw [List.filter_cons_of_pos (by simpa using h), List.foldl_cons, Seq.patch, if_pos h]
    · rw [List.filter_cons_of_neg (by simpa using h), Seq.patch, if_neg h]

theorem Seq.patch_pc (z : Seq) (r : PatchRec) : (z.patch r).pc = z.pc := by
  unfold Seq.patch
  split <;> rfl

theorem Seq.patched_pc (z : Seq) (m : List PatchRec) : (z.patched m).pc = z.pc :=
  (Seq.romLatches_keeps Seq.pc (fun _ _ _ => rfl) _).trans (foldl_keeps Seq.pc Seq.patch Seq.patch_pc m _)

theorem Seq.patched_store (z : Seq) (m : List PatchRec) :
    (z.patched m).store = (m.filter (fun r => r.type == 1)).foldl (fun t r => Tbl.setList (fun _ => trapWord) t r.addr r.words) [] :=
  (Seq.romLatches_keeps Seq.store (fun _ _ _ => rfl) _).trans (Seq.foldl_patch_store m _)

theorem State.patchSeq_seq (s : State) (l : List PatchRec) (q i : Nat) :
    (s.patchSeq l q).seq i = if i = q then (s.seq q).patched (l.filter (fun r => r.mask.testBit q)) else s.seq i :=
  Tbl.get_set _ s.seqs q _ i

/-- Each sequencer of a list is patched once. -/
theorem State.foldl_patchSeq_seq (recs : List PatchRec) (l : List Nat) (hl : l.Nodup) (s : State) (i : Nat) :
    (l.foldl (fun t q => t.patchSeq recs q) s).seq i =
      if i ∈ l then (s.seq i).patched (recs.filter (fun r => r.mask.testBit i)) else s.seq i := by
  induction l generalizing s with
  | nil => rfl
  | cons q l ih =>
    obtain ⟨hq, hl⟩ := List.nodup_cons.mp hl
    rw [List.foldl_cons, ih hl, State.patchSeq_seq]
    by_cases hiq : i = q
    · subst hiq
      rw [if_neg hq, if_pos rfl, if_pos List.mem_cons_self]
    · simp [hiq]

/-- The control stores with the patches of the image. -/
def State.patched (s : State) (recs : List PatchRec) : State := (List.range 33).foldl (fun t q => t.patchSeq recs q) s

theorem State.patched_seq (s : State) (recs : List PatchRec) {q : Nat} (hq : q < 33) :
    (s.patched recs).seq q = (s.seq q).patched (recs.filter (fun r => r.mask.testBit q)) := by
  rw [State.patched, State.foldl_patchSeq_seq _ _ List.nodup_range, if_pos (List.mem_range.mpr hq)]

theorem State.patched_changes {K : List Foot} {s x : State} (recs : List PatchRec) (h : Evolves K s x) (hs : Allows K .seqs)
    (hm : Allows K (.one (.reg (0xA0000 + Reg.seqPatch)))) (hc : Allows K (.cluReg Reg.seqPatch)) : Evolves K s (x.patched recs) :=
  Evolves.foldl (fun _ q ht => State.patchSeq_changes recs q ht (hm.seqRegOf hc (by decide)) hs.seqOf) h

/-! ### Sealing (R109) -/

/-- ID_PEAT and the sealed state. -/
def State.identified (s : State) (b : Nat) : State :=
  let s1 := s.wr Reg.idPeat (pack [(0, s.flashLe (b + 0x10) 2), (16, s.flashLe (b + 6) 2)])
  s1.putBoot { s1.boot with sealed := true }

theorem State.seal_eq (s : State) (b : Nat) :
    s.seal b = (((((s.identified b).portSealed .up 0).portSealed .dn 1).wrF Reg.bootStatus 2 0 2).setPhase 9) := rfl

theorem State.seal_frame (s : State) (b : Nat) :
    ChangesOnly [.one (.reg Reg.cwyStatus), .one (.reg Reg.bootStatus)] (s.identified b) (s.seal b) := by
  rw [State.seal_eq]
  refine (State.setPhase_changes 9 (State.wrF_changes _ _ _ _ (State.portSealed_changes _ _ (State.portSealed_changes _ _ (Evolves.refl _ _)
    ?_) ?_) ?_) ?_).1 <;> exact Allows.mem (by decide)

theorem State.seal_phase (s : State) (b : Nat) : (s.seal b).phase = 9 ∧ (s.seal b).rdF Reg.bootStatus 2 0 = 2 := by
  rw [State.seal_eq]
  refine ⟨State.setPhase_phase _ (by decide), ?_⟩
  rw [State.setPhase_rdF _ _ (.inl (by decide))]
  exact State.rdF_wrF_same _ _ _ (by decide) (by decide)

theorem State.seal_sealed (s : State) (b : Nat) : (s.seal b).boot.sealed = true :=
  congrArg Boot.sealed (s.seal_frame b .boot (by decide))

theorem State.seal_seq (s : State) (b q : Nat) : (s.seal b).seq q = s.seq q := by
  have h : (s.seal b).seq q = (s.identified b).seq q := s.seal_frame b (.seq q) (by simp [Foot.covers])
  exact h.trans rfl

theorem leNat_lt (l : List Byte) : leNat l < 256 ^ l.length := by
  induction l with
  | nil => decide
  | cons b l ih =>
    rw [List.length_cons, pow_succ, leNat]
    have := b.isLt
    omega

theorem State.flashLe_lt (s : State) (a n : Nat) : s.flashLe a n < 256 ^ n := by
  have h := leNat_lt (s.flashRd a n)
  rwa [show (s.flashRd a n).length = n by simp [State.flashRd, Tbl.getList]] at h

/-- A word of two halves reads each in its place. -/
theorem pack_halves {x y : Nat} (hx : x < 2 ^ 16) (hy : y < 2 ^ 16) :
    fieldOf (pack [(0, x), (16, y)]) 15 0 = x ∧ fieldOf (pack [(0, x), (16, y)]) 31 16 = y := by
  have hbits : ∀ i, packBit [(0, x), (16, y)] i = (x.testBit i || (decide (16 ≤ i) && y.testBit (i - 16))) := fun i => by simp [packBit]
  refine ⟨fieldOf_pack (by decide) hx (fun i hi => ?_), fieldOf_pack (by decide) hy (fun i hi => ?_)⟩
  · rw [hbits, decide_eq_false (by omega)]
    simp
  · rw [hbits, testBit_of_width hx (by omega), decide_eq_true (by omega), Nat.add_sub_cancel_left]
    simp

theorem State.seal_idPeat (s : State) (b : Nat) :
    (s.seal b).rdF Reg.idPeat 15 0 = s.flashLe (b + 0x10) 2 ∧ (s.seal b).rdF Reg.idPeat 31 16 = s.flashLe (b + 6) 2 := by
  have hrd : (s.seal b).rd Reg.idPeat = pack [(0, s.flashLe (b + 0x10) 2), (16, s.flashLe (b + 6) 2)] :=
    (s.seal_frame b (.reg Reg.idPeat) (by decide)).trans (State.rd_wr_same _ _ _)
  rw [State.rdF, State.rdF, hrd]
  exact pack_halves (s.flashLe_lt _ 2) (s.flashLe_lt _ 2)

theorem State.patchApply_eq {s : State} (h : s.inPhase 8 = true) :
    s.patchApply = if (s.patchCheck (s.bodyBase s.slot)).1 = 0 then
      (s.patched (s.patchCheck (s.bodyBase s.slot)).2).seal (s.bodyBase s.slot)
      else s.slotFail (s.patchCheck (s.bodyBase s.slot)).1 := if_pos h

theorem State.patchSeq_nvm (s : State) (recs : List PatchRec) (q : Nat) : (s.patchSeq recs q).nvm = s.nvm := by
  rw [State.patchSeq, State.wr_nvm, State.modSeq_nvm]

theorem State.patched_nvm (s : State) (recs : List PatchRec) : (s.patched recs).nvm = s.nvm := by
  unfold State.patched
  exact foldl_keeps State.nvm _ (fun t q => t.patchSeq_nvm recs q) _ s

theorem patchApply_seals {s : State} (h : s.inPhase 8 = true) (h0 : (s.patchCheck (s.bodyBase s.slot)).1 = 0) :
    Completes .patchApply s [.seqs, .one (.reg (0xA0000 + Reg.seqPatch)), .cluReg Reg.seqPatch, .one (.reg Reg.idPeat),
        .one (.reg Reg.cwyStatus), .one (.reg Reg.bootStatus), .one .boot] (fun t =>
      t.boot.sealed = true ∧ t.phase = 9 ∧ t.rdF Reg.bootStatus 2 0 = 2 ∧
      t.rdF Reg.idPeat 15 0 = s.flashLe (s.bodyBase s.slot + 0x10) 2 ∧ t.rdF Reg.idPeat 31 16 = s.flashLe (s.bodyBase s.slot + 6) 2 ∧
      ∀ q, q < 33 → (t.seq q).store = (((s.patchCheck (s.bodyBase s.slot)).2.filter (fun r => r.mask.testBit q && r.type == 1)).foldl
        (fun m r => Tbl.setList (fun _ => trapWord) m r.addr r.words) []) ∧ (t.seq q).pc = (s.seq q).pc) := by
  let u := s.patched (s.patchCheck (s.bodyBase s.slot)).2
  obtain ⟨hphase, hstate⟩ := u.seal_phase (s.bodyBase s.slot)
  obtain ⟨hsv, hver⟩ := u.seal_idPeat (s.bodyBase s.slot)
  rw [State.flashLe_congr (s.patched_nvm _)] at hsv hver
  refine ⟨_, congrArg Host.Outcome.next ((State.patchApply_eq h).trans (if_pos h0)), ⟨u.seal_sealed _, hphase, hstate, hsv, hver, fun q hq => ?_⟩, ?_⟩
  · have hseq := (u.seal_seq (s.bodyBase s.slot) q).trans (s.patched_seq (s.patchCheck (s.bodyBase s.slot)).2 hq)
    rw [hseq, Seq.patched_store, Seq.patched_pc, List.filter_filter]
    exact ⟨by simp only [Bool.and_comm], rfl⟩
  · refine (State.seal_changes _ (State.patched_changes _ (Evolves.refl _ s) ?_ ?_ ?_) ?_ ?_ ?_ ?_).1 <;> exact Allows.mem (by decide)

theorem patchApply_fails {s : State} (h : s.inPhase 8 = true) (h0 : (s.patchCheck (s.bodyBase s.slot)).1 ≠ 0) :
    Completes .patchApply s stopFoot (fun t => SlotFailed s t (s.patchCheck (s.bodyBase s.slot)).1) :=
  ⟨_, congrArg Host.Outcome.next ((State.patchApply_eq h).trans (if_neg h0)), s.slotFail_slotFailed _, s.slotFail_frame _⟩

/-! ### READY (R101, R103) -/

/-- The module is ready `us` from t = 0, before its event. -/
def State.readyAt (u : State) (us : W32) : State :=
  ((u.wr Reg.bootTime us).wrF Reg.bootStatus 2 0 3).putBoot { (u.wr Reg.bootTime us).boot with stage := .ready }

theorem State.readyAt_shown (u : State) (us : W32) :
    (u.readyAt us).boot.stage = .ready ∧ (u.readyAt us).rdF Reg.bootStatus 2 0 = 3 ∧ (u.readyAt us).rd Reg.bootTime = us := by
  have hstate : ((u.wr Reg.bootTime us).wrF Reg.bootStatus 2 0 3).rdF Reg.bootStatus 2 0 = 3 :=
    State.rdF_wrF_same _ _ _ (by decide) (by decide)
  have htime : ((u.wr Reg.bootTime us).wrF Reg.bootStatus 2 0 3).rd Reg.bootTime = us :=
    (State.rd_wrF_ne _ (by decide) 2 0 3).trans (State.rd_wr_same _ _ _)
  exact ⟨rfl, hstate, htime⟩

/-- The corrections are computed once more, and the module is ready. -/
def State.readied (s : State) (us : W32) : State := (s.ageing.xtalUpdate.ktUpdate).readyAt us

theorem State.bootReady_eq {s : State} (us : W32) (h : s.inPhase 9 = true) :
    s.bootReady us = (s.readied us).post 315 0x43 (evData [(0, (s.readied us).rdF Reg.bootStatus 11 11), (32, us.toNat)]) := by
  unfold State.readied State.bootReady
  rw [if_pos h]
  generalize s.ageing.xtalUpdate.ktUpdate = u
  exact congrArg (fun t : State => t.post 315 0x43 (evData [(0, t.rdF Reg.bootStatus 11 11), (32, us.toNat)])) (rfl : _ = u.readyAt us)

theorem bootReady_completes {s : State} (us : W32) (h : s.inPhase 9 = true) :
    Completes (.bootReady us) s [.one (.reg Reg.clkCorrAge), .one (.reg Reg.clkCorrTemp),
        .one (.reg Reg.clkXtalTemp), .one (.reg Reg.clkCorr), .pair Reg.clkFlags, .pair Reg.calFlags, .one .cal, .one (.reg Reg.bootTime),
        .one (.reg Reg.bootStatus), .one .boot, .events] (fun t =>
      t.boot.stage = .ready ∧ t.rdF Reg.bootStatus 2 0 = 3 ∧ t.rd Reg.bootTime = us) := by
  have hpost := (s.readied us).post_frame 315 0x43 (evData [(0, (s.readied us).rdF Reg.bootStatus 11 11), (32, us.toNat)])
  obtain ⟨hstage, hstate, htime⟩ := (s.ageing.xtalUpdate.ktUpdate).readyAt_shown us
  have hboot : ((s.readied us).post 315 0x43 (evData [(0, (s.readied us).rdF Reg.bootStatus 11 11), (32, us.toNat)])).boot = (s.readied us).boot :=
    hpost .boot (by decide)
  refine ⟨_, congrArg Host.Outcome.next (State.bootReady_eq us h), ⟨(congrArg Boot.stage hboot).trans hstage,
    (hpost.rdF_eq 2 0 (by decide)).trans hstate, (hpost (.reg Reg.bootTime) (by decide)).trans htime⟩, ?_⟩
  · rw [← State.bootReady_eq us h]
    refine (execBootReady_changes us rfl ?_ ?_ ?_ ?_ ?_ ?_ ?_ ?_ ?_ ?_ ?_).1 <;> exact Allows.mem (by decide)

/-- Settles O23: P7 by its settings, P8 by its patches, and P9. -/
theorem bootConfiguresSealsAndReadies : Obligations.BootConfiguresSealsAndReadies :=
  ⟨fun _ h hm => ⟨configApply_takes h hm, configApply_fails h hm⟩,
    fun _ => ⟨fun h => ⟨patchApply_seals h, patchApply_fails h⟩, bootReady_completes⟩⟩

end Sys2Proof.Machine


/-! The DRAM comes up, a fuse burns (R91, R102, R457). -/

namespace Sys2Proof.Machine

/-! ### The DRAM and the fuses -/

theorem dramTraining_completes {s : State} (hs : s.boot.stage = .booting ∨ s.boot.stage = .failed) (hw : s.rdB Reg.bootStatus 11 = false)
    (hd : s.boot.dramUp = false) (hp : 1 ≤ s.phase) :
    Completes (.dramTraining true) s [.one .boot] (fun t => t.boot = { s.boot with dramUp := true }) ∧
      (s.boot.stage = .booting →
        Completes (.dramTraining false) s [.one .boot, .one (.reg Reg.bootStatus), .one (.reg Reg.hstStatus), .events] (fun t =>
          BootStopped t 0x11 ∧ t.boot.dramUp = false)) ∧
      (s.boot.stage = .failed → Completes (.dramTraining false) s [] (fun _ => True)) := by
  have htrain : ∀ ok, s.dramTraining ok = if ok then s.putBoot { s.boot with dramUp := true }
      else if s.boot.stage = .booting then s.bootFail 0x11 else s := fun ok => if_pos ⟨hs, by simp [hw], by simp [hd], hp⟩
  refine ⟨⟨_, congrArg Host.Outcome.next (htrain true), rfl, ?_⟩, fun hb => ?_, fun hf => ?_⟩
  · exact (State.putBoot_changes _ (Evolves.refl _ s) (Allows.mem List.mem_cons_self)).1
  · have he : s.dramTraining false = s.bootFail 0x11 := (htrain false).trans ((if_neg (by decide)).trans (if_pos hb))
    refine ⟨_, congrArg Host.Outcome.next he, ⟨s.bootFail_stopped 0x11, ?_⟩, (s.bootFail_frame 0x11).mono (fun k hk => Allows.mem ?_)⟩
    · rw [State.bootFail_boot]
      exact hd
    · simp only [stopFoot, List.mem_cons, List.not_mem_nil, or_false] at hk
      rcases hk with rfl | rfl | rfl | rfl <;> decide
  · have he : s.dramTraining false = s := (htrain false).trans ((if_neg (by decide)).trans (if_neg (by simp [hf])))
    exact ⟨s, congrArg Host.Outcome.next he, trivial, ChangesOnly.refl _ s⟩

theorem dramSelfRefreshExit_completes {s : State} (hs : s.boot.stage = .booting ∨ s.boot.stage = .failed) (hw : s.rdB Reg.bootStatus 11 = true)
    (hr : s.sref = true) : Completes .dramSelfRefreshExit s [.one (.reg Reg.memStatus), .one .boot] (fun t =>
      t.sref = false ∧ t.boot = { s.boot with dramUp := true }) := by
  have he : s.srefExit = (s.wrB Reg.memStatus 3 false).putBoot { s.boot with dramUp := true } := if_pos ⟨hs, hw, hr⟩
  have hclear : (s.wrB Reg.memStatus 3 false).rdB Reg.memStatus 3 = false := State.rdB_wrB_same _ _ _ (by decide)
  exact ⟨_, congrArg Host.Outcome.next he, ⟨hclear, rfl⟩,
    (State.putBoot_changes _ (State.wrB_changes _ _ _ (Evolves.refl _ s) (Allows.mem (by decide))) (Allows.mem (by decide))).1⟩

theorem rollbackCount_le (x : BitVec 64) : rollbackCount x ≤ 64 :=
  (List.takeWhile_sublist x.getLsbD).length_le.trans_eq List.length_range

/-- The fuse bit above the thermometer is burnt. -/
def State.burnt (s : State) : State :=
  s.putNvm { s.nvm with rollback := s.nvm.rollback ||| BitVec.ofNat 64 (2 ^ rollbackCount s.nvm.rollback) }

theorem State.burnt_rollback (s : State) {i : Nat} (hi : i < 64) :
    s.burnt.nvm.rollback.getLsbD i = (s.nvm.rollback.getLsbD i || i == rollbackCount s.nvm.rollback) := by
  refine BitVec.getLsbD_or.trans (congrArg _ ?_)
  rw [BitVec.getLsbD_ofNat, decide_eq_true hi, Bool.true_and, Nat.testBit_two_pow]
  exact Bool.eq_iff_iff.mpr (by rw [decide_eq_true_iff, beq_iff_eq, eq_comm])

theorem rollbackBurn_burns {s : State} (hs : s.boot.stage = .ready) (hv : rollbackCount s.nvm.rollback < s.rdF Reg.idPeat 15 0) :
    Completes .rollbackBurn s [.one .rollback, .one (.reg Reg.bootFuse)] (fun t =>
      t.rdF Reg.bootFuse 6 0 = rollbackCount t.nvm.rollback ∧
      ∀ i, i < 64 → t.nvm.rollback.getLsbD i = (s.nvm.rollback.getLsbD i || i == rollbackCount s.nvm.rollback)) := by
  have he : s.rollbackBurn = s.burnt.wrF Reg.bootFuse 6 0 (rollbackCount s.burnt.nvm.rollback) := if_pos ⟨hs, hv⟩
  have hcount := rollbackCount_le s.burnt.nvm.rollback
  refine ⟨_, congrArg Host.Outcome.next he, ⟨?_, fun i hi => ?_⟩, ?_⟩
  · rw [State.rdF_wrF_same _ _ _ (by decide) (by decide), State.wrF_nvm]
    exact Nat.mod_eq_of_lt (by omega)
  · rw [State.wrF_nvm]
    exact s.burnt_rollback hi
  · exact (State.wrF_changes _ _ _ _ (State.putNvm_rollback (Evolves.refl _ s) (Allows.mem (by decide))) (Allows.mem (by decide))).1

theorem rollbackBurn_idles {s : State} (h : s.boot.stage ≠ .ready ∨ s.rdF Reg.idPeat 15 0 ≤ rollbackCount s.nvm.rollback) :
    Completes .rollbackBurn s [] (fun _ => True) := by
  have he : s.rollbackBurn = s := if_neg (fun ⟨hr, hv⟩ => h.elim (fun hn => hn hr) (fun hle => absurd hv hle.not_gt))
  exact ⟨s, congrArg Host.Outcome.next he, trivial, ChangesOnly.refl _ s⟩

end Sys2Proof.Machine

/-! Commands of the rings: a completion, the command at the front, and background commands (R422, R427 to R434, R438). -/

namespace Sys2Proof.Machine

/-! ### Completions (R427, R429, R431, R438) -/

/-- The pending bit of a vector, once it is set pending. -/
theorem State.pendVector_rdB (s : State) (v : Nat) : (s.pendVector v).rdB (vecReg v) (v % 32) = true := by
  have hlt : v % 32 < 32 := Nat.mod_lt _ (by decide)
  have hset : (s.wrB (vecReg v) (v % 32) true).rdB (vecReg v) (v % 32) = true := State.rdB_wrB_same _ _ _ hlt
  unfold State.pendVector
  split
  next h => exact h
  next =>
    dsimp only
    split
    · exact hset
    · exact hset

theorem State.pendVector_frame (s : State) (v : Nat) : ChangesOnly [.vector] s (s.pendVector v) :=
  (State.pendVector_changes v (Evolves.refl _ s) (Allows.mem List.mem_cons_self)).1

/-- The entry of a completion stands at CPL_TAIL, in the ring and in host memory, and its reserved slot is given up. -/
def State.cplPut (s : State) (c : Cmd) (status detail result : Nat) : State :=
  let e := cplEntry c status detail result (s.rdB Reg.hstCplTail 12)
  let k := s.rdF Reg.hstCplTail 11 0
  s.putHst { s.hst with reserved := s.hst.reserved - 1, cplRing := Tbl.set (fun _ => (0 : BitVec 128)) s.hst.cplRing k e,
                        hostMem := Tbl.setList (fun _ => (0 : Byte)) s.hst.hostMem (s.cplAddr k) (leBytes 16 e.toNat) }

/-- CPL_TAIL after a completion: the next index, with the phase turned on the wrap. -/
def State.nextTail (s : State) : W32 :=
  let k := (s.rdF Reg.hstCplTail 11 0 + 1) % 4096
  pack [(0, k), (12, b2n (if k = 0 then !s.rdB Reg.hstCplTail 12 else s.rdB Reg.hstCplTail 12))]

theorem State.complete_kept (s : State) {c : Cmd} (status detail result : Nat) (h : c.dropped = false) :
    s.complete c status detail result =
      ((s.cplPut c status detail result).wr Reg.hstCplTail s.nextTail).pendVector
        (((s.cplPut c status detail result).wr Reg.hstCplTail s.nextTail).rdF Reg.hstCfg 5 0) := by
  unfold State.complete
  rw [h]
  rfl

theorem State.complete_dropped (s : State) {c : Cmd} (status detail result : Nat) (h : c.dropped = true) :
    s.complete c status detail result = (s.putHst { s.hst with reserved := s.hst.reserved - 1 }).count Reg.hstCplDrop 1 := by
  unfold State.complete
  rw [h]
  rfl

theorem State.nextTail_fields (s : State) :
    fieldOf s.nextTail 11 0 = (s.rdF Reg.hstCplTail 11 0 + 1) % 4096 ∧
      bitOf s.nextTail 12 = (if s.rdF Reg.hstCplTail 11 0 = 4095 then !s.rdB Reg.hstCplTail 12 else s.rdB Reg.hstCplTail 12) := by
  have hk : s.rdF Reg.hstCplTail 11 0 < 4096 := s.rdF_lt Reg.hstCplTail 11 0
  have hwrap : (s.rdF Reg.hstCplTail 11 0 + 1) % 4096 = 0 ↔ s.rdF Reg.hstCplTail 11 0 = 4095 := by omega
  have hlt : (s.rdF Reg.hstCplTail 11 0 + 1) % 4096 < 2 ^ 12 := Nat.mod_lt _ (by decide)
  have hbits : ∀ x y i, packBit [(0, x), (12, y)] i = (x.testBit i || (decide (12 ≤ i) && y.testBit (i - 12))) := fun x y i => by simp [packBit]
  unfold State.nextTail
  refine ⟨fieldOf_pack (by decide) hlt (fun i hi => ?_), ?_⟩
  · rw [hbits, decide_eq_false (by omega)]
    simp
  · rw [bitOf_pack _ (by decide), hbits, testBit_of_width hlt (by decide), Bool.false_or, decide_eq_true (by decide), Bool.true_and, Nat.sub_self,
      testBit_b2n]
    simp only [hwrap]

/-- Every completion ends its command as R429 says. -/
theorem State.complete_ended (s : State) (c : Cmd) (status detail result : Nat) :
    Ended s (s.complete c status detail result) c status detail result := by
  cases h : c.dropped with
  | true =>
    rw [State.complete_dropped s _ _ _ h]
    exact ⟨rfl, fun _ => ⟨State.rd_wr_same _ _ _, rfl⟩, fun hf => absurd h (by simp [hf])⟩
  | false =>
    rw [State.complete_kept s _ _ _ h]
    generalize hu : (s.cplPut c status detail result).wr Reg.hstCplTail s.nextTail = u
    have hframe := u.pendVector_frame (u.rdF Reg.hstCfg 5 0)
    obtain ⟨-, -, -, hreserved, hring⟩ := hframe .rings (by decide)
    have hmem : (u.pendVector (u.rdF Reg.hstCfg 5 0)).hst.hostMem = u.hst.hostMem := hframe .hostMem (by decide)
    have htail : u.rd Reg.hstCplTail = s.nextTail := by
      rw [← hu, State.rd_wr_same]
    have hcfg : u.rdF Reg.hstCfg 5 0 = s.rdF Reg.hstCfg 5 0 := by
      rw [← hu, State.rdF_wr_ne _ (by decide)]
      rfl
    have hhst : u.hst = (s.cplPut c status detail result).hst := by
      rw [← hu, State.wr_hst]
    obtain ⟨hindex, hphase⟩ := s.nextTail_fields
    refine ⟨hreserved.trans (by rw [hhst]; rfl), fun ht => absurd ht (by simp [h]), fun _ => ⟨?_, ?_, ?_, ?_, ?_⟩⟩
    · rw [hring, hhst]
      exact Tbl.get_set_same _ _ _ _
    · rw [hmem, hhst]
      have hget := Tbl.getList_setList (fun _ => (0 : Byte)) (leBytes 16 (cplEntry c status detail result (s.rdB Reg.hstCplTail 12)).toNat)
        (s.cplAddr (s.rdF Reg.hstCplTail 11 0)) s.hst.hostMem
      rwa [length_leBytes] at hget
    · rw [hframe.rdF_eq 11 0 (by decide), State.rdF, htail, hindex]
    · rw [hframe.rdB_eq 12 (by decide), State.rdB, htail, hphase]
    · rw [← hcfg]
      exact u.pendVector_rdB _

/-- What an end of a command depends on: the rings and their registers. -/
structure RingsAlike (s x : State) : Prop where
  reserved : x.hst.reserved = s.hst.reserved
  cplRing : x.hst.cplRing = s.hst.cplRing
  rd : ∀ o ∈ [Reg.hstCplTail, Reg.hstCplDrop, Reg.hstCplBaseLo, Reg.hstCplBaseLo + 4, Reg.hstCfg], x.rd o = s.rd o

theorem Ended.of_alike {s x t : State} {c : Cmd} {status detail result : Nat} (h : Ended x t c status detail result) (ha : RingsAlike s x) :
    Ended s t c status detail result := by
  have htail : ∀ m l, x.rdF Reg.hstCplTail m l = s.rdF Reg.hstCplTail m l := fun m l =>
    congrArg (fun v => fieldOf v m l) (ha.rd Reg.hstCplTail (by simp))
  have hphase : x.rdB Reg.hstCplTail 12 = s.rdB Reg.hstCplTail 12 := congrArg (fun v => bitOf v 12) (ha.rd Reg.hstCplTail (by simp))
  have hcfg : x.rdF Reg.hstCfg 5 0 = s.rdF Reg.hstCfg 5 0 := congrArg (fun v => fieldOf v 5 0) (ha.rd Reg.hstCfg (by simp))
  have hbase : ∀ k, x.cplAddr k = s.cplAddr k := fun k => by
    rw [State.cplAddr, State.cplAddr, State.rd64, State.rd64, ha.rd Reg.hstCplBaseLo (by simp), ha.rd (Reg.hstCplBaseLo + 4) (by simp)]
  unfold Ended at h ⊢
  rwa [htail, hphase, hcfg, hbase, ha.rd Reg.hstCplDrop (by simp), ha.reserved, ha.cplRing] at h

theorem RingsAlike.of_frame {K : List Foot} {s x : State} (h : ChangesOnly K s x) (hr : ∀ k ∈ K, k.covers .rings = false)
    (hk : ∀ k ∈ K, ∀ o ∈ [Reg.hstCplTail, Reg.hstCplDrop, Reg.hstCplBaseLo, Reg.hstCplBaseLo + 4, Reg.hstCfg], k.covers (.reg o) = false) :
    RingsAlike s x := by
  obtain ⟨-, -, -, hreserved, hring⟩ := h .rings hr
  exact ⟨hreserved, hring, fun o ho => h (.reg o) (fun k hkK => hk k hkK o ho)⟩

theorem RingsAlike.trans {s x y : State} (h : RingsAlike s x) (h' : RingsAlike x y) : RingsAlike s y :=
  ⟨h'.reserved.trans h.reserved, h'.cplRing.trans h.cplRing, fun o ho => (h'.rd o ho).trans (h.rd o ho)⟩

/-! ### The command at the front (R434) -/

/-- The command at the front is taken off the list. -/
def State.popped (s : State) (rest : List Cmd) : State := s.putHst { s.hst with fetched := rest }

theorem State.popped_alike (s : State) (rest : List Cmd) : RingsAlike s (s.popped rest) := ⟨rfl, rfl, fun _ _ => rfl⟩

theorem State.runCmd_front {s : State} {op : Nat} {c : Cmd} {rest : List Cmd} (f : Cmd → State → State) (h : Front s op c rest) :
    s.runCmd op f = (if badFields c then (s.popped rest).complete c St.badField 0 0
      else if c.cutOff then (s.popped rest).complete c St.dmaError 0 0 else f c (s.popped rest)).settleAll := by
  obtain ⟨hfg, hfetched, hop, hfetches, hrefusal⟩ := h
  unfold State.runCmd
  rw [hfg, hfetched]
  exact if_pos ⟨hop, hfetches, hrefusal⟩

theorem State.settleAll_frame (s : State) : ChangesOnly [.completion] s s.settleAll :=
  (State.settleAll_changes (Evolves.refl _ s) (Allows.mem List.mem_cons_self)).1

theorem State.complete_frame (s : State) (c : Cmd) (status detail result : Nat) : ChangesOnly [.completion] s (s.complete c status detail result) :=
  (State.complete_changes c status detail result (Evolves.refl _ s) (Allows.mem List.mem_cons_self)).1

/-- A command that completes at once, on a state whose rings are those of `s` without it. -/
theorem Finishes.of_complete {s x : State} {c : Cmd} {rest : List Cmd} (status detail result : Nat) (ha : RingsAlike s x)
    (hfetched : x.hst.fetched = rest) (hfg : x.hst.fg = none) :
    Finishes s (x.complete c status detail result).settleAll c rest status detail result := by
  obtain ⟨hfg', -, hfetched'⟩ := x.complete_commands c status detail result
  exact ⟨_, rfl, (x.complete_ended c status detail result).of_alike ha, hfetched'.trans hfetched, hfg'.trans hfg⟩

/-! ### The end of a background command (R434) -/

theorem State.foldl_complete_bg (st detail : Nat) (l : List BgCmd) (s : State) :
    (l.foldl (fun t b => t.complete b.cmd st detail 0) s).hst.bg = s.hst.bg := by
  induction l generalizing s with
  | nil => rfl
  | cons b l ih => exact (ih _).trans (s.complete_commands _ _ _ _).2.1

/-- The background commands of an opcode are taken off the list. -/
def State.bgPopped (s : State) (op : Nat) : State := s.putHst { s.hst with bg := s.hst.bg.filter (fun b => b.cmd.opcode != op) }

theorem State.bgEnd_eq (s : State) (op st detail : Nat) :
    s.bgEnd op st detail = (s.hst.bg.filter (fun b => b.cmd.opcode == op)).foldl (fun t b => t.complete b.cmd st detail 0) (s.bgPopped op) := rfl

theorem State.bgEnd_bgEnded {s x : State} (op st detail : Nat) (ha : RingsAlike s x) (hbg : x.hst.bg = s.hst.bg) :
    BgEnded s (x.bgEnd op st detail) op st detail := by
  rw [State.bgEnd_eq]
  refine ⟨?_, fun g hg => ?_⟩
  · rw [State.foldl_complete_bg, ← hbg]
    rfl
  · rw [hbg, hg]
    have hpop : RingsAlike s (x.bgPopped op) := ha.trans ⟨rfl, rfl, fun _ _ => rfl⟩
    exact ((x.bgPopped op).complete_ended g.cmd st detail 0).of_alike hpop

theorem State.bgEnd_frame (s : State) (op st detail : Nat) : ChangesOnly [.completion] s (s.bgEnd op st detail) :=
  (State.bgEnd_changes op st detail (Evolves.refl _ s) (Allows.mem List.mem_cons_self)).1

end Sys2Proof.Machine


/-! The rewrite of the image: IMAGE and IMAGE_COMMITTED (R87, R111, R112, R433). -/

namespace Sys2Proof.Machine

/-! ### The target slot -/

theorem State.rewriteTarget_congr {s t : State} (hn : t.nvm = s.nvm) (hz : t.slotSize = s.slotSize) (hb : t.boot = s.boot) (hs : t.slot = s.slot) :
    t.rewriteTarget = s.rewriteTarget := by
  unfold State.rewriteTarget
  rw [hb, hs, State.committed_congr hn hz, State.committed_congr hn hz, State.imageSeq_congr hn hz, State.imageSeq_congr hn hz]

theorem State.slotSize_ge (s : State) : 0x1900000 ≤ s.slotSize := by
  unfold State.slotSize
  split
  · exact Nat.le_refl _
  · decide

/-- The trailer is the last 4 KiB of its slot. -/
theorem State.trailer_eq (s : State) (k : Nat) : s.trailer k + 4096 = s.bodyBase k + s.slotSize := by
  have := s.slotSize_ge
  unfold State.trailer
  omega

theorem State.log_lt_bodyBase (s : State) (k : Nat) : 0xE00000 ≤ s.bodyBase k := Nat.le_add_right _ _

/-- The trailer and the body of a slot read as erased flash. -/
def State.erased (s : State) (k : Nat) : State := (s.flashErase (s.trailer k) 4096).flashErase (s.bodyBase k) s.slotSize

theorem State.slotErase_eq (s : State) (k : Nat) : s.slotErase k = (s.erased k).slotSeqs := rfl

theorem State.flashErase_flashAt (s : State) {a n b : Nat} (hb : a ≤ b ∧ b < a + n) : (s.flashErase a n).flashAt b = 0xFF :=
  Tbl.get_filter_none _ _ _ (fun _ => decide_eq_false (by omega)) _

theorem State.slotErase_flashAt (s : State) (k : Nat) {b : Nat} (hb : s.bodyBase k ≤ b ∧ b < s.bodyBase k + s.slotSize) :
    (s.slotErase k).flashAt b = 0xFF := by
  rw [State.slotErase_eq, State.flashAt, State.slotSeqs_nvm]
  exact State.flashErase_flashAt _ hb

theorem State.slotErase_changes_span {K : List Foot} {s x : State} (k : Nat) (h : Evolves K s x) (hf : Allows K (.flash (x.bodyBase k) x.slotSize))
    (h0 : Allows K (.one (.reg Reg.bootSlotSeq0))) (h1 : Allows K (.one (.reg Reg.bootSlotSeq1))) : Evolves K s (x.slotErase k) := by
  have htrailer : Allows K (.flash (x.trailer k) 4096) := hf.of (fun p hp => by
    have heq := x.trailer_eq k
    have hge := x.slotSize_ge
    cases p with
    | flash a =>
      simp only [Foot.covers, decide_eq_true_eq] at hp ⊢
      omega
    | _ => simp [Foot.covers] at hp)
  exact State.slotSeqs_changes (State.flashErase_span _ _ (State.flashErase_span _ _ h htrailer) hf) h1 h0

/-- A slot whose trailer is erased is not committed (R87). -/
theorem State.committed_erased {s : State} {k : Nat} (h : ∀ i, i < 4 → s.flashAt (s.trailer k + i) = 0xFF) : s.committed k = false := by
  have hrd : s.flashRd (s.trailer k) 4 = (List.range 4).map (fun _ => (0xFF : Byte)) :=
    List.map_congr_left (fun i hi => h i (List.mem_range.mp hi))
  have hmagic : (s.flashLe (s.trailer k) 4 == 0x544F4C53) = false := by
    rw [State.flashLe, hrd]
    decide
  unfold State.committed
  dsimp only
  rw [hmagic, Bool.false_and, Bool.false_and]

theorem State.rewriteState_shown (s : State) {st : Nat} (k : Nat) (h : st < 4) :
    (s.rewriteState st k).rdF Reg.bootRewrite 1 0 = st ∧ (s.rewriteState st k).rdB Reg.bootRewrite 2 = (k == 1) := by
  refine ⟨?_, State.rdB_wrB_same _ _ _ (by decide)⟩
  rw [State.rewriteState, State.rdF_wrB_ne _ _ _ (by decide) (by decide), State.rdF_wrF_same _ _ _ (by decide) (by decide)]
  exact Nat.mod_eq_of_lt h

theorem State.rewriteState_frame (s : State) (st k : Nat) : ChangesOnly [.one (.reg Reg.bootRewrite)] s (s.rewriteState st k) :=
  (State.rewriteState_changes st k (Evolves.refl _ s) (Allows.mem List.mem_cons_self)).1

/-! ### IMAGE (R111, R112, R433) -/

/-- The command takes the flash: the target slot is erased, and holds what the host's memory gave. -/
def State.imageWrite (x : State) (c : Cmd) (k : Nat) : Option (List Byte) → State
  | none => ((x.slotErase k).rewriteState 0 k).complete c St.dmaError 0 0
  | some d => (((x.slotErase k).flashWr (x.bodyBase k) (d.take (16 * c.len))).rewriteState 2 k).bgStart c

/-- What IMAGE does where its fields are good and its data can be reached. -/
def State.imageRun (x : State) (c : Cmd) (data : Option (List Byte)) : State :=
  if x.hst.bg.any (fun g => g.cmd.opcode == 0x0C) then x.complete c St.busy 0 0
  else if ¬ x.nvm.up then (x.wrF Reg.bootRewrite 15 8 1).complete c St.imageRejected 1 0
  else if x.slotSize - 4096 < 16 * c.len then (x.wrF Reg.bootRewrite 15 8 4).complete c St.imageRejected 4 0
  else x.imageWrite c x.rewriteTarget data

theorem State.cmdImage_eq (s : State) (data : Option (List Byte)) : s.cmdImage data = s.runCmd 0x0C (fun c t => t.imageRun c data) := by
  unfold State.cmdImage
  refine congrArg (s.runCmd 0x0C) (funext fun c => funext fun t => ?_)
  unfold State.imageRun State.imageWrite
  cases data <;> rfl

section
variable {s : State} {c : Cmd} {rest : List Cmd}

theorem State.cmdImage_front (data : Option (List Byte)) (h : Front s 0x0C c rest) (hb : badFields c = false) (hc : c.cutOff = false) :
    s.cmdImage data = ((s.popped rest).imageRun c data).settleAll := by
  rw [State.cmdImage_eq, State.runCmd_front _ h, hb, hc, if_neg (by decide), if_neg (by decide)]

theorem State.cmdImage_cutOff (data : Option (List Byte)) (h : Front s 0x0C c rest) (hb : badFields c = false) (hc : c.cutOff = true) :
    s.cmdImage data = ((s.popped rest).complete c St.dmaError 0 0).settleAll := by
  rw [State.cmdImage_eq, State.runCmd_front _ h, hb, hc, if_neg (by decide), if_pos rfl]

theorem State.popped_slotSize (s : State) (rest : List Cmd) : (s.popped rest).slotSize = s.slotSize := State.slotSize_congr rfl

theorem State.popped_nvm (s : State) (rest : List Cmd) : (s.popped rest).nvm = s.nvm := rfl

theorem State.popped_boot (s : State) (rest : List Cmd) : (s.popped rest).boot = s.boot := rfl

theorem State.popped_slot (s : State) (rest : List Cmd) : (s.popped rest).slot = s.slot := rfl

theorem State.popped_target (s : State) (rest : List Cmd) : (s.popped rest).rewriteTarget = s.rewriteTarget :=
  State.rewriteTarget_congr (s.popped_nvm rest) (s.popped_slotSize rest) (s.popped_boot rest) (s.popped_slot rest)

theorem State.popped_frame (s : State) (rest : List Cmd) : Evolves [.one .rings] s (s.popped rest) :=
  State.putHst_rings (Evolves.refl _ s) (Allows.mem List.mem_cons_self)

/-- The command at the front is taken, its work is done, and completions follow. -/
theorem popped_completion_frame {L : List Foot} {y t : State} (hy : ChangesOnly L (s.popped rest) y) (ht : ChangesOnly [.completion] y t) :
    ChangesOnly (.completion :: L) s t := by
  have hall : Allows (.completion :: L) .completion := Allows.mem List.mem_cons_self
  refine ((s.popped_frame rest).1.mono fun k hk => ?_).trans ((hy.mono fun k hk => Allows.mem (List.mem_cons_of_mem _ hk)).trans
    (ht.mono fun k hk => ?_))
  · rw [List.mem_singleton.mp hk]
    exact hall.ringsOfCompletion
  · rw [List.mem_singleton.mp hk]
    exact hall

/-- IMAGE ends at once, from a state that its work has reached without the rings. -/
theorem image_finishes {L : List Foot} {y : State} {data : Option (List Byte)} {P : State → Prop} (status detail : Nat) (h : Front s 0x0C c rest)
    (hrun : s.cmdImage data = (y.complete c status detail 0).settleAll) (hy : ChangesOnly L (s.popped rest) y)
    (hr : ∀ k ∈ L, k.covers .rings = false)
    (hk : ∀ k ∈ L, ∀ o ∈ [Reg.hstCplTail, Reg.hstCplDrop, Reg.hstCplBaseLo, Reg.hstCplBaseLo + 4, Reg.hstCfg], k.covers (.reg o) = false)
    (hP : ∀ t, ChangesOnly [.completion] y t → P t) :
    Completes (.image data) s (.completion :: L) (fun t => Finishes s t c rest status detail 0 ∧ P t) := by
  obtain ⟨hfg, -⟩ := h
  obtain ⟨hfetched', hfg', -⟩ := hy .rings hr
  have hfront : ChangesOnly [.completion] y (y.complete c status detail 0).settleAll :=
    (y.complete_frame c status detail 0).trans (State.settleAll_frame _)
  refine ⟨_, congrArg Host.Outcome.next hrun, ⟨?_, hP _ hfront⟩, ?_⟩
  · exact Finishes.of_complete status detail 0 ((s.popped_alike rest).trans (RingsAlike.of_frame hy hr hk)) hfetched' (hfg'.trans hfg)
  · exact popped_completion_frame hy hfront

/-- IMAGE ends at once, and nothing else changes. -/
theorem image_refused {data : Option (List Byte)} (status : Nat) (h : Front s 0x0C c rest)
    (hrun : s.cmdImage data = ((s.popped rest).complete c status 0 0).settleAll) :
    Completes (.image data) s [.completion] (fun t => Finishes s t c rest status 0 0) := by
  obtain ⟨t, hexec, ⟨hfin, -⟩, hframe⟩ := image_finishes (P := fun _ => True) status 0 h hrun (ChangesOnly.refl [] _) (by simp) (by simp)
    (fun _ _ => trivial)
  exact ⟨t, hexec, hfin, hframe⟩

/-- IMAGE is rejected with a code, and REWRITE shows it (R112). -/
theorem image_rejected {data : Option (List Byte)} {code : Nat} (hcode : code < 256) (h : Front s 0x0C c rest)
    (hrun : s.cmdImage data = (((s.popped rest).wrF Reg.bootRewrite 15 8 code).complete c St.imageRejected code 0).settleAll) :
    Completes (.image data) s [.completion, .one (.reg Reg.bootRewrite)] (fun t =>
      Finishes s t c rest St.imageRejected code 0 ∧ t.rdF Reg.bootRewrite 15 8 = code) := by
  refine image_finishes St.imageRejected code h hrun
    (State.wrF_changes _ _ _ _ (Evolves.refl _ (s.popped rest)) (Allows.mem List.mem_cons_self)).1 (by decide) (by decide) (fun t ht => ?_)
  rw [ht.rdF_eq 15 8 (by decide), State.rdF_wrF_same _ _ _ (by decide) (by decide)]
  exact Nat.mod_eq_of_lt hcode

theorem image_cutOff (data : Option (List Byte)) (h : Front s 0x0C c rest) (hb : badFields c = false) (hc : c.cutOff = true) :
    Completes (.image data) s [.completion] (fun t => Finishes s t c rest St.dmaError 0 0) :=
  image_refused St.dmaError h (State.cmdImage_cutOff data h hb hc)

theorem State.popped_idle (rest : List Cmd) (hbg : ∀ g ∈ s.hst.bg, g.cmd.opcode ≠ 0x0C) :
    (s.popped rest).hst.bg.any (fun g => g.cmd.opcode == 0x0C) = false :=
  List.any_eq_false.mpr fun g hg => by
    rw [beq_iff_eq]
    exact hbg g hg

section
variable (data : Option (List Byte)) (h : Front s 0x0C c rest) (hb : badFields c = false) (hc : c.cutOff = false)
include h hb hc

theorem image_busy (hbg : ∃ g ∈ s.hst.bg, g.cmd.opcode = 0x0C) :
    Completes (.image data) s [.completion] (fun t => Finishes s t c rest St.busy 0 0) := by
  have hany : (s.popped rest).hst.bg.any (fun g => g.cmd.opcode == 0x0C) = true := by
    obtain ⟨g, hg, hop⟩ := hbg
    exact List.any_eq_true.mpr ⟨g, hg, beq_iff_eq.mpr hop⟩
  refine image_refused St.busy h ((State.cmdImage_front data h hb hc).trans (congrArg State.settleAll ?_))
  exact if_pos hany

variable (hbg : ∀ g ∈ s.hst.bg, g.cmd.opcode ≠ 0x0C)
include hbg

theorem image_noFlash (hup : s.nvm.up = false) :
    Completes (.image data) s [.completion, .one (.reg Reg.bootRewrite)] (fun t =>
      Finishes s t c rest St.imageRejected 1 0 ∧ t.rdF Reg.bootRewrite 15 8 = 1) := by
  refine image_rejected (by decide) h ((State.cmdImage_front data h hb hc).trans (congrArg State.settleAll ?_))
  rw [State.imageRun, State.popped_idle rest hbg, if_neg (by decide), State.popped_nvm, hup, if_pos (by decide)]

theorem image_tooLong (hup : s.nvm.up = true) (hn : s.slotSize - 4096 < 16 * c.len) :
    Completes (.image data) s [.completion, .one (.reg Reg.bootRewrite)] (fun t =>
      Finishes s t c rest St.imageRejected 4 0 ∧ t.rdF Reg.bootRewrite 15 8 = 4) := by
  refine image_rejected (by decide) h ((State.cmdImage_front data h hb hc).trans (congrArg State.settleAll ?_))
  rw [State.imageRun, State.popped_idle rest hbg, if_neg (by decide), State.popped_nvm, hup, if_neg (by decide), State.popped_slotSize, if_pos hn]

theorem State.cmdImage_writes (hup : s.nvm.up = true) (hn : 16 * c.len ≤ s.slotSize - 4096) :
    s.cmdImage data = ((s.popped rest).imageWrite c s.rewriteTarget data).settleAll := by
  rw [State.cmdImage_front data h hb hc, State.imageRun, State.popped_idle rest hbg, if_neg (by decide), State.popped_nvm, hup, if_neg (by decide),
    State.popped_slotSize, if_neg (by omega), State.popped_target]

end

/-! ### The target slot while it is rewritten -/

/-- The bytes of a slot's trailer that say whether it is committed read as erased (R87). -/
def State.trailerErased (s : State) (k : Nat) : Prop := ∀ i, i < 4 → s.flashAt (s.trailer k + i) = 0xFF

theorem State.slotErase_slotSize (s : State) (k : Nat) : (s.slotErase k).slotSize = s.slotSize := by
  rw [State.slotErase_eq, State.slotSeqs_slotSize]
  exact State.slotSize_congr rfl

theorem State.slotErase_trailerErased (s : State) (k : Nat) : (s.slotErase k).trailerErased k := fun i hi => by
  have heq := s.trailer_eq k
  rw [State.trailer_congr (s.slotErase_slotSize k)]
  exact s.slotErase_flashAt k (by have := s.slotSize_ge; omega)

theorem State.trailerErased_of_frame {L : List Foot} {x t : State} {k : Nat} (hx : x.trailerErased k) (h : ChangesOnly L x t)
    (hsize : ∀ j ∈ L, j.covers (.reg Reg.bootFlash) = false)
    (hl : ∀ b, x.trailer k ≤ b → b < x.trailer k + 4 → ∀ j ∈ L, j.covers (.flash b) = false) : t.trailerErased k := fun i hi => by
  rw [State.trailer_congr (State.slotSize_congr (h (.reg Reg.bootFlash) hsize))]
  exact (h (.flash (x.trailer k + i)) (hl _ (by omega) (by omega))).trans (hx i hi)

/-- A completion leaves the flash as it is. -/
theorem State.trailerErased_of_completion {x t : State} {k : Nat} (hx : x.trailerErased k) (h : ChangesOnly [.completion] x t) :
    t.trailerErased k :=
  State.trailerErased_of_frame hx h (by decide) (fun _ _ _ => by simp [Foot.covers])

/-- What the rewrite of slot `k` can change. -/
def State.imageFoot (s : State) (k : Nat) : List Foot :=
  [.one (.reg Reg.bootRewrite), .one (.reg Reg.bootSlotSeq0), .one (.reg Reg.bootSlotSeq1), .flash (s.bodyBase k) s.slotSize]

theorem State.slotErase_imageFoot (s : State) (k : Nat) : Evolves (s.imageFoot k) s (s.slotErase k) :=
  State.slotErase_changes_span k (Evolves.refl _ s) (Allows.mem (by simp [State.imageFoot])) (Allows.mem (by simp [State.imageFoot]))
    (Allows.mem (by simp [State.imageFoot]))

theorem State.popped_imageFoot (s : State) (rest : List Cmd) (k : Nat) : (s.popped rest).imageFoot k = s.imageFoot k := by
  have hsize := s.popped_slotSize rest
  rw [State.imageFoot, State.imageFoot, State.bodyBase_congr hsize, hsize]

theorem State.imageFoot_mem {s : State} {k : Nat} {j : Foot} (hj : j ∈ s.imageFoot k) :
    j.covers .rings = false ∧
      ∀ o ∈ [Reg.hstCplTail, Reg.hstCplDrop, Reg.hstCplBaseLo, Reg.hstCplBaseLo + 4, Reg.hstCfg], j.covers (.reg o) = false := by
  simp only [State.imageFoot, List.mem_cons, List.not_mem_nil, or_false] at hj
  rcases hj with rfl | rfl | rfl | rfl
  · decide
  · decide
  · decide
  · exact ⟨rfl, fun _ _ => rfl⟩

/-- The target slot is erased and holds the image (R111). -/
def State.imageStored (x : State) (c : Cmd) (k : Nat) (d : List Byte) : State :=
  ((x.slotErase k).flashWr (x.bodyBase k) (d.take (16 * c.len))).rewriteState 2 k

theorem State.imageStored_frame (x : State) (k : Nat) {d : List Byte} (hn : 16 * c.len ≤ x.slotSize - 4096) :
    ChangesOnly (x.imageFoot k) x (x.imageStored c k d) := by
  have hlen : (d.take (16 * c.len)).length ≤ 16 * c.len := List.length_take_le _ _
  exact (State.rewriteState_changes 2 k (State.flashWr_span (b := x.bodyBase k) (n := x.slotSize) _ _
    (x.slotErase_imageFoot k) (Allows.mem (by simp [State.imageFoot])) (by omega))
    (Allows.mem List.mem_cons_self)).1

theorem State.imageStored_shown (x : State) (c : Cmd) (k : Nat) (d : List Byte) :
    (x.imageStored c k d).rdF Reg.bootRewrite 1 0 = 2 ∧ (x.imageStored c k d).rdB Reg.bootRewrite 2 = (k == 1) :=
  State.rewriteState_shown _ k (by decide)

theorem State.imageStored_body (x : State) (k : Nat) {d : List Byte} (hd : d.length = 16 * c.len) :
    (x.imageStored c k d).flashRd (x.bodyBase k) (16 * c.len) = d := by
  have hget := Tbl.getList_setList (fun _ => (0xFF : Byte)) d (x.bodyBase k) (x.slotErase k).nvm.flash
  rw [State.imageStored, (State.rewriteState_frame _ 2 k).flashRd_eq (fun _ _ _ => by simp [Foot.covers]), ← hd, List.take_length]
  exact hget

theorem State.imageStored_trailerErased (x : State) (k : Nat) {d : List Byte} (hn : 16 * c.len ≤ x.slotSize - 4096) :
    (x.imageStored c k d).trailerErased k := by
  have heq := x.trailer_eq k
  have hge := x.slotSize_ge
  have hlen : (d.take (16 * c.len)).length ≤ 16 * c.len := List.length_take_le _ _
  have hsize := x.slotErase_slotSize k
  have hwrite : Evolves [.flash (x.bodyBase k) (16 * c.len)] (x.slotErase k) ((x.slotErase k).flashWr (x.bodyBase k) (d.take (16 * c.len))) :=
    State.flashWr_span _ _ (Evolves.refl _ _) (Allows.mem List.mem_cons_self) (by omega)
  refine State.trailerErased_of_frame (State.trailerErased_of_frame (x.slotErase_trailerErased k) hwrite.1 (by simp [Foot.covers]) ?_)
    (State.rewriteState_frame _ 2 k) (by decide) (fun _ _ _ => by simp [Foot.covers])
  intro b hlo _ j hj
  rw [State.trailer_congr hsize] at hlo
  rw [List.mem_singleton.mp hj]
  exact decide_eq_false (by omega)

theorem image_dmaError (h : Front s 0x0C c rest) (hb : badFields c = false) (hc : c.cutOff = false) (hbg : ∀ g ∈ s.hst.bg, g.cmd.opcode ≠ 0x0C)
    (hup : s.nvm.up = true) (hn : 16 * c.len ≤ s.slotSize - 4096) :
    Completes (.image none) s (.completion :: s.imageFoot s.rewriteTarget) (fun t =>
      Finishes s t c rest St.dmaError 0 0 ∧ t.committed s.rewriteTarget = false) := by
  generalize hk : s.rewriteTarget = k
  have hrun : s.cmdImage none = ((((s.popped rest).slotErase k).rewriteState 0 k).complete c St.dmaError 0 0).settleAll := by
    rw [State.cmdImage_writes none h hb hc hbg hup hn, hk]
    rfl
  have hframe := State.rewriteState_changes 0 k ((s.popped rest).slotErase_imageFoot k) (Allows.mem List.mem_cons_self)
  rw [State.popped_imageFoot] at hframe
  refine image_finishes St.dmaError 0 h hrun hframe.1 (fun j hj => (State.imageFoot_mem hj).1) (fun j hj => (State.imageFoot_mem hj).2) ?_
  intro t ht
  have herased := State.trailerErased_of_frame ((s.popped rest).slotErase_trailerErased k) (State.rewriteState_frame _ 0 k) (by decide)
    (fun _ _ _ => by simp [Foot.covers])
  exact State.committed_erased (State.trailerErased_of_completion herased ht)

theorem image_accepted {d : List Byte} (h : Front s 0x0C c rest) (hb : badFields c = false) (hc : c.cutOff = false)
    (hbg : ∀ g ∈ s.hst.bg, g.cmd.opcode ≠ 0x0C) (hup : s.nvm.up = true) (hn : 16 * c.len ≤ s.slotSize - 4096) (hd : d.length = 16 * c.len) :
    Completes (.image (some d)) s (.completion :: s.imageFoot s.rewriteTarget) (fun t =>
      Accepted s t c rest ∧ t.flashRd (s.bodyBase s.rewriteTarget) (16 * c.len) = d ∧ t.committed s.rewriteTarget = false ∧
        t.rdF Reg.bootRewrite 1 0 = 2 ∧ t.rdB Reg.bootRewrite 2 = (s.rewriteTarget == 1)) := by
  generalize hk : s.rewriteTarget = k
  obtain ⟨hfg, hfront⟩ := h
  have hsize := s.popped_slotSize rest
  have hbody := (s.popped rest).imageStored_body k hd
  have herased := (s.popped rest).imageStored_trailerErased k (d := d) (c := c) (by rwa [hsize])
  have hframe := (s.popped rest).imageStored_frame k (d := d) (c := c) (by rwa [hsize])
  obtain ⟨hstate, hslot⟩ := (s.popped rest).imageStored_shown c k d
  rw [State.popped_imageFoot] at hframe
  rw [State.bodyBase_congr hsize] at hbody
  have hrun : s.cmdImage (some d) = (((s.popped rest).imageStored c k d).bgStart c).settleAll := by
    rw [State.cmdImage_writes (some d) ⟨hfg, hfront⟩ hb hc hbg hup hn, hk]
    rfl
  generalize hx : (s.popped rest).imageStored c k d = x at hbody herased hframe hstate hslot hrun
  obtain ⟨hfetched', hfg', hbg', hreserved', hring'⟩ := hframe .rings (fun j hj => (State.imageFoot_mem hj).1)
  have hend : ChangesOnly [.completion] x (x.bgStart c).settleAll :=
    (State.bgStart_changes c (Evolves.refl _ x) (Allows.mem List.mem_cons_self).ringsOfCompletion).1.trans (State.settleAll_frame _)
  refine ⟨_, congrArg Host.Outcome.next hrun, ⟨⟨x.bgStart c, rfl, ?_, hfetched', hfg'.trans hfg, hreserved', hring'⟩, ?_, ?_, ?_, ?_⟩, ?_⟩
  · exact congrArg (· ++ [{ cmd := c, posted := 0 }]) hbg'
  · rw [hend.flashRd_eq (fun _ _ _ => by simp [Foot.covers]), hbody]
  · exact State.committed_erased (State.trailerErased_of_completion herased hend)
  · rw [hend.rdF_eq 1 0 (by decide), hstate]
  · rw [hend.rdB_eq 2 (by decide), hslot]
  · exact popped_completion_frame hframe hend

end

/-! ### IMAGE_COMMITTED (R87, R112) -/

section
variable {s : State} {g : BgCmd}

/-- The slot has failed its checks, and REWRITE shows the code. -/
def State.imageFailed (s : State) (k code : Nat) : State := (s.rewriteState 0 k).wrF Reg.bootRewrite 15 8 code

/-- The slot has its trailer, and REWRITE shows the end (R87). -/
def State.imagePassed (s : State) (k seq n : Nat) : State := ((s.flashWr (s.trailer k) (slotTrailer seq n)).slotSeqs).rewriteState 3 k

theorem State.imageDone_fails {k b code : Nat} (hg : s.hst.bg.find? (fun g => g.cmd.opcode == 0x0C) = some g)
    (hk : k = b2n (s.rdB Reg.bootRewrite 2)) (hb : b = s.bodyBase k) (hcode : code = s.imageCode b (16 * g.cmd.len)) (h : code ≠ 0) :
    s.imageDone = (s.imageFailed k code).bgEnd 0x0C St.imageRejected code := by
  subst hk hb hcode
  unfold State.imageDone
  rw [hg]
  exact if_pos h

theorem State.imageDone_passes {k b code : Nat} (hg : s.hst.bg.find? (fun g => g.cmd.opcode == 0x0C) = some g)
    (hk : k = b2n (s.rdB Reg.bootRewrite 2)) (hb : b = s.bodyBase k) (hcode : code = s.imageCode b (16 * g.cmd.len)) (h : code = 0) :
    s.imageDone = ((s.imagePassed k ((max (s.imageSeq 0) (s.imageSeq 1) + 1) % 2 ^ 32) (16 * g.cmd.len)).post 308 0x3C
      (evData [(0, k), (32, (max (s.imageSeq 0) (s.imageSeq 1) + 1) % 2 ^ 32)])).bgEnd 0x0C St.ok 0 := by
  subst hk hb hcode
  unfold State.imageDone
  rw [hg]
  exact if_neg (not_not_intro h)

/-- A background command ends after work that leaves the rings. -/
theorem bgEnd_after {L : List Foot} {x : State} (op status detail : Nat) (hx : ChangesOnly L s x) (hr : ∀ k ∈ L, k.covers .rings = false)
    (hk : ∀ k ∈ L, ∀ o ∈ [Reg.hstCplTail, Reg.hstCplDrop, Reg.hstCplBaseLo, Reg.hstCplBaseLo + 4, Reg.hstCfg], k.covers (.reg o) = false) :
    BgEnded s (x.bgEnd op status detail) op status detail ∧ ChangesOnly (.completion :: L) s (x.bgEnd op status detail) := by
  obtain ⟨-, -, hbg, -⟩ := hx .rings hr
  refine ⟨State.bgEnd_bgEnded op status detail (RingsAlike.of_frame hx hr hk) hbg, ?_⟩
  refine (hx.mono fun k hk => Allows.mem (List.mem_cons_of_mem _ hk)).trans ((x.bgEnd_frame op status detail).mono fun k hk => ?_)
  rw [List.mem_singleton.mp hk]
  exact Allows.mem List.mem_cons_self

theorem State.imageFailed_frame (s : State) (k code : Nat) : ChangesOnly [.one (.reg Reg.bootRewrite)] s (s.imageFailed k code) :=
  (State.wrF_changes _ _ _ _ (State.rewriteState_changes 0 k (Evolves.refl _ s) (Allows.mem List.mem_cons_self))
    (Allows.mem List.mem_cons_self)).1

theorem State.imageFailed_shown (s : State) (k code : Nat) :
    (s.imageFailed k code).rdF Reg.bootRewrite 1 0 = 0 ∧ (s.imageFailed k code).rdF Reg.bootRewrite 15 8 = code % 256 := by
  refine ⟨?_, State.rdF_wrF_same _ _ _ (by decide) (by decide)⟩
  rw [State.imageFailed, State.rdF_wrF_ne _ _ _ (by decide) (by decide) (by decide)]
  exact (s.rewriteState_shown k (by decide)).1

theorem imageCommitted_fails {k b code : Nat} (hg : s.hst.bg.find? (fun g => g.cmd.opcode == 0x0C) = some g)
    (hk : k = b2n (s.rdB Reg.bootRewrite 2)) (hb : b = s.bodyBase k) (hcode : code = s.imageCode b (16 * g.cmd.len)) (h : code ≠ 0) :
    Completes .imageCommitted s [.completion, .one (.reg Reg.bootRewrite)] (fun t =>
      t.rdF Reg.bootRewrite 1 0 = 0 ∧ t.rdF Reg.bootRewrite 15 8 = code % 256 ∧ BgEnded s t 0x0C St.imageRejected code) := by
  have hend := State.bgEnd_frame (s.imageFailed k code) 0x0C St.imageRejected code
  obtain ⟨hended, hframe⟩ := bgEnd_after 0x0C St.imageRejected code (s.imageFailed_frame k code) (by decide) (by decide)
  obtain ⟨hstate, hshown⟩ := s.imageFailed_shown k code
  refine ⟨_, congrArg Host.Outcome.next (State.imageDone_fails hg hk hb hcode h), ⟨?_, ?_, hended⟩, hframe⟩
  · rw [hend.rdF_eq 1 0 (by decide), hstate]
  · rw [hend.rdF_eq 15 8 (by decide), hshown]

theorem length_slotTrailer (seq n : Nat) : (slotTrailer seq n).length = 16 := by
  simp only [slotTrailer, List.length_append, length_leBytes]

/-- What the trailer of slot `k` and its registers can change. -/
def State.trailerFoot (s : State) (k : Nat) : List Foot :=
  [.one (.reg Reg.bootRewrite), .one (.reg Reg.bootSlotSeq0), .one (.reg Reg.bootSlotSeq1), .flash (s.trailer k) 16, .events]

theorem State.trailerFoot_mem {s : State} {k : Nat} {j : Foot} (hj : j ∈ s.trailerFoot k) :
    j.covers .rings = false ∧
      ∀ o ∈ [Reg.hstCplTail, Reg.hstCplDrop, Reg.hstCplBaseLo, Reg.hstCplBaseLo + 4, Reg.hstCfg], j.covers (.reg o) = false := by
  simp only [State.trailerFoot, List.mem_cons, List.not_mem_nil, or_false] at hj
  rcases hj with rfl | rfl | rfl | rfl | rfl
  · decide
  · decide
  · decide
  · exact ⟨rfl, fun _ _ => rfl⟩
  · decide

theorem State.imagePassed_frame (s : State) (k seq n : Nat) : Evolves (s.trailerFoot k) s (s.imagePassed k seq n) := by
  have hwrite : Evolves (s.trailerFoot k) s (s.flashWr (s.trailer k) (slotTrailer seq n)) :=
    State.flashWr_span (b := s.trailer k) (n := 16) _ _ (Evolves.refl _ s) (Allows.mem (by simp [State.trailerFoot]))
      ⟨Nat.le_refl _, by rw [length_slotTrailer]⟩
  exact State.rewriteState_changes 3 k (State.slotSeqs_changes hwrite (Allows.mem (by simp [State.trailerFoot]))
    (Allows.mem (by simp [State.trailerFoot]))) (Allows.mem (by simp [State.trailerFoot]))

theorem State.imagePassed_trailer (s : State) (k seq n : Nat) :
    (s.imagePassed k seq n).flashRd (s.trailer k) 16 = slotTrailer seq n ∧ (s.imagePassed k seq n).rdF Reg.bootRewrite 1 0 = 3 := by
  refine ⟨?_, (State.rewriteState_shown _ k (by decide)).1⟩
  have hget := Tbl.getList_setList (fun _ => (0xFF : Byte)) (slotTrailer seq n) (s.trailer k) s.nvm.flash
  rw [length_slotTrailer] at hget
  rw [State.imagePassed, (State.rewriteState_frame _ 3 k).flashRd_eq (fun _ _ _ => by simp [Foot.covers]),
    State.flashRd_congr (State.slotSeqs_nvm _)]
  exact hget

theorem imageCommitted_passes {k b code : Nat} (hg : s.hst.bg.find? (fun g => g.cmd.opcode == 0x0C) = some g)
    (hk : k = b2n (s.rdB Reg.bootRewrite 2)) (hb : b = s.bodyBase k) (hcode : code = s.imageCode b (16 * g.cmd.len)) (h : code = 0) :
    Completes .imageCommitted s (.completion :: s.trailerFoot k) (fun t =>
      t.flashRd (s.trailer k) 16 = slotTrailer ((max (s.imageSeq 0) (s.imageSeq 1) + 1) % 2 ^ 32) (16 * g.cmd.len) ∧
        t.rdF Reg.bootRewrite 1 0 = 3 ∧ BgEnded s t 0x0C St.ok 0) := by
  have hdone := State.imageDone_passes hg hk hb hcode h
  generalize (max (s.imageSeq 0) (s.imageSeq 1) + 1) % 2 ^ 32 = seq at hdone ⊢
  obtain ⟨htrailer, hstate⟩ := s.imagePassed_trailer k seq (16 * g.cmd.len)
  have hpassed := s.imagePassed_frame k seq (16 * g.cmd.len)
  generalize s.imagePassed k seq (16 * g.cmd.len) = x at hdone htrailer hstate hpassed
  have hposted := (State.post_changes 308 0x3C (evData [(0, k), (32, seq)]) hpassed (Allows.mem (by simp [State.trailerFoot]))).1
  have hpost := x.post_frame 308 0x3C (evData [(0, k), (32, seq)])
  have hend := State.bgEnd_frame (x.post 308 0x3C (evData [(0, k), (32, seq)])) 0x0C St.ok 0
  obtain ⟨hended, hframe⟩ := bgEnd_after 0x0C St.ok 0 hposted (fun j hj => (State.trailerFoot_mem hj).1) (fun j hj => (State.trailerFoot_mem hj).2)
  have habove : 0xE00000 ≤ s.trailer k := by
    have := s.trailer_eq k
    have := s.slotSize_ge
    have := s.log_lt_bodyBase k
    omega
  refine ⟨_, congrArg Host.Outcome.next hdone, ⟨?_, ?_, hended⟩, hframe⟩
  · rw [hend.flashRd_eq (fun _ _ _ => by simp [Foot.covers]), hpost.flashRd_eq, htrailer]
    intro a hlo _ j hj
    rw [List.mem_singleton.mp hj]
    exact decide_eq_false (by omega)
  · rw [hend.rdF_eq 1 0 (by decide), hpost.rdF_eq 1 0 (by decide), hstate]

end

/-- Settles O24. The DRAM and the fuse are one write each; the rewrite erases the whole slot first, so that its trailer stays erased, and the
slot uncommitted, until IMAGE_COMMITTED writes the trailer. -/
theorem dramFusesAndImages : Obligations.DramFusesAndImages := by
  unfold Obligations.DramFusesAndImages
  refine ⟨fun s => ⟨dramTraining_completes, dramSelfRefreshExit_completes, rollbackBurn_burns, rollbackBurn_idles⟩,
    fun s c rest d data => ⟨image_cutOff data, fun h hb hc => ⟨image_busy data h hb hc, fun hbg => ⟨image_noFlash data h hb hc hbg,
      image_tooLong data h hb hc hbg, fun hup hn => ⟨image_dmaError h hb hc hbg hup hn, image_accepted h hb hc hbg hup hn⟩⟩⟩, ?_⟩⟩
  exact fun g hg k b code hk hb hcode => ⟨imageCommitted_fails hg hk hb hcode, imageCommitted_passes hg hk hb hcode⟩

end Sys2Proof.Machine

/-! The engines: what each store reads as, and what a fold over engines does to each of them. -/

namespace Sys2Proof.Machine

theorem ChangesOnly.subset {K L : List Foot} {s t : State} (h : ChangesOnly K s t) (hl : K ⊆ L) : ChangesOnly L s t :=
  fun p hp => h p (fun k hk => hp k (hl hk))

/-- A sequencer that the footprint does not take in is as it was. -/
theorem ChangesOnly.seq_eq {K : List Foot} {s t : State} (h : ChangesOnly K s t) {q : Nat} (hq : ∀ k ∈ K, k.covers (.seq q) = false) :
    t.seq q = s.seq q := h (.seq q) hq

/-- A lane that the footprint does not take in is as it was. -/
theorem ChangesOnly.lane_eq {K : List Foot} {s t : State} (h : ChangesOnly K s t) {c : Nat} (hc : ∀ k ∈ K, k.covers (.lane c) = false) :
    t.lane c = s.lane c := h (.lane c) hc

/-- A register that the footprint does not take in is as it was. -/
theorem ChangesOnly.rd_eq {K : List Foot} {s t : State} (h : ChangesOnly K s t) {o : Nat} (ho : ∀ k ∈ K, k.covers (.reg o) = false) :
    t.rd o = s.rd o := h (.reg o) ho

/-! ### One engine -/

theorem State.seq_setSeq (s : State) (q : Nat) (v : Seq) (i : Nat) : (s.setSeq q v).seq i = if i = q then v else s.seq i :=
  Tbl.get_set _ _ _ _ _

theorem State.lane_setLane (s : State) (c : Nat) (v : Lane) (i : Nat) : (s.setLane c v).lane i = if i = c then v else s.lane i :=
  Tbl.get_set _ _ _ _ _

theorem State.seq_modSeq (s : State) (q : Nat) (f : Seq → Seq) (i : Nat) : (s.modSeq q f).seq i = if i = q then f (s.seq q) else s.seq i :=
  State.seq_setSeq _ _ _ _

theorem State.lane_modLane (s : State) (c : Nat) (f : Lane → Lane) (i : Nat) :
    (s.modLane c f).lane i = if i = c then f (s.lane c) else s.lane i := State.lane_setLane _ _ _ _

@[simp] theorem State.seq_setLane (s : State) (c : Nat) (v : Lane) (q : Nat) : (s.setLane c v).seq q = s.seq q := rfl
@[simp] theorem State.lane_setSeq (s : State) (q : Nat) (v : Seq) (c : Nat) : (s.setSeq q v).lane c = s.lane c := rfl
@[simp] theorem State.seq_modLane (s : State) (c : Nat) (f : Lane → Lane) (q : Nat) : (s.modLane c f).seq q = s.seq q := rfl
@[simp] theorem State.lane_modSeq (s : State) (q : Nat) (f : Seq → Seq) (c : Nat) : (s.modSeq q f).lane c = s.lane c := rfl
@[simp] theorem State.rd_setSeq (s : State) (q : Nat) (v : Seq) (o : Nat) : (s.setSeq q v).rd o = s.rd o := rfl
@[simp] theorem State.rd_setLane (s : State) (c : Nat) (v : Lane) (o : Nat) : (s.setLane c v).rd o = s.rd o := rfl
@[simp] theorem State.seq_wrF (s : State) (o m l x q : Nat) : (s.wrF o m l x).seq q = s.seq q := rfl
@[simp] theorem State.lane_wrF (s : State) (o m l x c : Nat) : (s.wrF o m l x).lane c = s.lane c := rfl
@[simp] theorem State.seq_wrB (s : State) (o n : Nat) (b : Bool) (q : Nat) : (s.wrB o n b).seq q = s.seq q := rfl
@[simp] theorem State.lane_wrB (s : State) (o n : Nat) (b : Bool) (c : Nat) : (s.wrB o n b).lane c = s.lane c := rfl
@[simp] theorem State.seq_countF (s : State) (o m l n q : Nat) : (s.countF o m l n).seq q = s.seq q := rfl
@[simp] theorem State.lane_countF (s : State) (o m l n c : Nat) : (s.countF o m l n).lane c = s.lane c := rfl

@[simp] theorem State.seq_raise (s : State) (o b q : Nat) : (s.raise o b).seq q = s.seq q :=
  congrArg (fun t => Tbl.get (fun _ => seqReset) t q) (s.raise_seqs o b)

@[simp] theorem State.lane_raise (s : State) (o b c : Nat) : (s.raise o b).lane c = s.lane c :=
  congrArg (fun t => Tbl.get (fun _ => laneReset) t c) (s.raise_lanes o b)

@[simp] theorem State.seq_post (s : State) (src code : Nat) (data : BitVec 128) (q : Nat) : (s.post src code data).seq q = s.seq q :=
  (s.post_frame src code data).seq_eq (by simp [Foot.covers])

@[simp] theorem State.lane_post (s : State) (src code : Nat) (data : BitVec 128) (c : Nat) : (s.post src code data).lane c = s.lane c :=
  (s.post_frame src code data).lane_eq (by simp [Foot.covers])

@[simp] theorem State.plan_post (s : State) (src code : Nat) (data : BitVec 128) : (s.post src code data).plan = s.plan :=
  s.post_frame src code data .plan (by simp [Foot.covers])

@[simp] theorem State.seq_complete (s : State) (c : Cmd) (status detail result q : Nat) : (s.complete c status detail result).seq q = s.seq q :=
  (s.complete_frame c status detail result).seq_eq (by simp [Foot.covers])

@[simp] theorem State.lane_complete (s : State) (c : Cmd) (status detail result k : Nat) :
    (s.complete c status detail result).lane k = s.lane k :=
  (s.complete_frame c status detail result).lane_eq (by simp [Foot.covers])

@[simp] theorem State.plan_complete (s : State) (c : Cmd) (status detail result : Nat) :
    (s.complete c status detail result).plan = s.plan :=
  s.complete_frame c status detail result .plan (by simp [Foot.covers])

@[simp] theorem State.seq_settleAll (s : State) (q : Nat) : s.settleAll.seq q = s.seq q :=
  s.settleAll_frame.seq_eq (by simp [Foot.covers])

@[simp] theorem State.lane_settleAll (s : State) (k : Nat) : s.settleAll.lane k = s.lane k :=
  s.settleAll_frame.lane_eq (by simp [Foot.covers])

@[simp] theorem State.plan_settleAll (s : State) : s.settleAll.plan = s.plan :=
  s.settleAll_frame .plan (by simp [Foot.covers])

/-! ### Folds over engines -/

/-- A fold over engines, each step of which changes what `get` shows of its own engine only, changes each engine of the list once. -/
theorem State.foldl_local {α : Type} (get : State → Nat → α) (op : State → Nat → State) (u : Nat → α → α)
    (hop : ∀ t c i, get (op t c) i = if i = c then u c (get t c) else get t i) (l : List Nat) (hl : l.Nodup) (s : State) (i : Nat) :
    get (l.foldl op s) i = if i ∈ l then u i (get s i) else get s i := by
  induction l generalizing s with
  | nil => simp
  | cons c l ih =>
    obtain ⟨hc, hl⟩ := List.nodup_cons.1 hl
    rw [List.foldl_cons, ih hl, hop]
    by_cases h : i = c
    · subst h; simp [hc]
    · simp [h]

/-- A fold whose steps leave what `get` shows as it is. -/
theorem State.foldl_keeps {α β : Type} (get : State → α) {op : State → β → State} (hop : ∀ t c, get (op t c) = get t) (l : List β)
    (s : State) : get (l.foldl op s) = get s := by
  induction l generalizing s with
  | nil => rfl
  | cons c l ih => exact (ih _).trans (hop s c)

theorem nodup_bitList (n x : Nat) : (bitList n x).Nodup := List.nodup_range.filter _

theorem nodup_lanesOf (m : Nat) : (lanesOf m).Nodup := nodup_bitList 32 m

theorem mem_lanesOf {m k : Nat} : k ∈ lanesOf m ↔ k < 32 ∧ m.testBit k = true := mem_bitList

/-- Lane `k` is in the LANEMASK of a plan. -/
theorem mem_lanesOf_plan {m : BitVec 32} {k : Nat} : k ∈ lanesOf m.toNat ↔ m.getLsbD k = true := by
  rw [mem_lanesOf, BitVec.testBit_toNat]
  exact ⟨And.right, fun h => ⟨BitVec.lt_of_getLsbD h, h⟩⟩

theorem State.foldl_modLane_lane (f : Lane → Lane) {l : List Nat} (hl : l.Nodup) (s : State) (i : Nat) :
    (l.foldl (fun t c => t.modLane c f) s).lane i = if i ∈ l then f (s.lane i) else s.lane i :=
  State.foldl_local State.lane _ (fun _ => f) (fun t c i => t.lane_modLane c f i) l hl s i

theorem State.foldl_modSeq_seq (f : Seq → Seq) {l : List Nat} (hl : l.Nodup) (s : State) (i : Nat) :
    (l.foldl (fun t c => t.modSeq c f) s).seq i = if i ∈ l then f (s.seq i) else s.seq i :=
  State.foldl_local State.seq _ (fun _ => f) (fun t c i => t.seq_modSeq c f i) l hl s i

/-! ### Requests and the ends of parts (R141, R173, R174) -/

/-- A sequencer that line `n` has been requested of. -/
def Seq.asked (z : Seq) (n : Nat) : Seq := if z.inPart then { z with pend := z.pend ||| BitVec.ofNat 5 (2 ^ n) } else z

theorem State.pendLine_seq (s : State) (q n i : Nat) : (s.pendLine q n).seq i = if i = q then (s.seq q).asked n else s.seq i := by
  unfold State.pendLine Seq.asked
  by_cases h : (s.seq q).inPart = true
  · rw [if_pos h, if_pos h]; exact s.seq_modSeq q _ i
  · rw [if_neg h, if_neg h]
    split
    next hi => rw [hi]
    next => rfl

theorem State.stopLanes_seq (s : State) (m i : Nat) : (s.stopLanes m).seq i = if i ∈ lanesOf m then (s.seq i).asked 1 else s.seq i :=
  State.foldl_local State.seq _ (fun _ z => z.asked 1) (fun t c i => t.pendLine_seq c 1 i) _ (nodup_lanesOf _) s i

theorem State.stopLanes_frame (s : State) (m : Nat) : ChangesOnly [.seqs] s (s.stopLanes m) :=
  (State.stopLanes_changes m (.refl _ s) (Allows.mem (by decide))).1

theorem State.planStop_frame (s : State) : ChangesOnly [.seqs, .one .plan, .lanes, .one (.reg Reg.plnState)] s s.planStop :=
  (State.planStop_changes (.refl _ s) (Allows.mem (by decide)) (Allows.mem (by decide)) (Allows.mem (by decide)) (Allows.mem (by decide))).1

/-- A lane that has given up its starts and its arming. -/
def Lane.givenUp (l : Lane) : Lane := { l with due := 0, armed := false }

/-- The lanes of the plan give up their starts and their arming. -/
def State.startsGivenUp (s : State) : State := (lanesOf s.plan.lanes.toNat).foldl (fun t c => t.modLane c Lane.givenUp) s

theorem State.startsGivenUp_lane (s : State) (i : Nat) :
    s.startsGivenUp.lane i = if s.plan.lanes.getLsbD i then (s.lane i).givenUp else s.lane i := by
  unfold State.startsGivenUp
  rw [State.foldl_modLane_lane _ (nodup_lanesOf _)]
  simp only [mem_lanesOf_plan]

theorem State.startsGivenUp_seq (s : State) (i : Nat) : s.startsGivenUp.seq i = s.seq i :=
  State.foldl_keeps (fun t => t.seq i) (fun t c => t.seq_modLane c Lane.givenUp i) _ s

theorem State.startsGivenUp_plan (s : State) : s.startsGivenUp.plan = s.plan :=
  State.foldl_keeps State.plan (fun t c => t.modLane_plan c Lane.givenUp) _ s

/-- A plan that is STARTING is RUNNING. -/
def State.leftStarting (s : State) : State := if s.plnState = 2 then s.wrF Reg.plnState 19 17 3 else s

theorem State.leftStarting_seq (s : State) (q : Nat) : s.leftStarting.seq q = s.seq q := by unfold State.leftStarting; split <;> rfl

theorem State.leftStarting_lane (s : State) (c : Nat) : s.leftStarting.lane c = s.lane c := by unfold State.leftStarting; split <;> rfl

theorem State.leftStarting_plan (s : State) : s.leftStarting.plan = s.plan := by unfold State.leftStarting; split <;> rfl

/-- The plan's lanes give up their starts, the plan leaves STARTING, and STOP is raised in the lanes. -/
theorem State.planStop_eq (s : State) :
    s.planStop = (s.startsGivenUp.leftStarting.putPlan { s.plan with startDue := 0 }).stopLanes s.plan.lanes.toNat := by
  have hp : s.startsGivenUp.leftStarting.plan = s.plan := s.startsGivenUp.leftStarting_plan.trans s.startsGivenUp_plan
  calc s.planStop = (s.startsGivenUp.leftStarting.putPlan { s.startsGivenUp.leftStarting.plan with startDue := 0 }).stopLanes
        s.startsGivenUp.leftStarting.plan.lanes.toNat := rfl
    _ = _ := by rw [hp]

theorem State.planStop_plan (s : State) : s.planStop.plan = { s.plan with startDue := 0 } := by
  rw [s.planStop_eq]
  exact State.stopLanes_frame _ _ .plan (by simp [Foot.covers])

theorem State.planStop_lane (s : State) (i : Nat) :
    s.planStop.lane i = if s.plan.lanes.getLsbD i then (s.lane i).givenUp else s.lane i := by
  rw [s.planStop_eq, (State.stopLanes_frame _ _).lane_eq (by simp [Foot.covers]), ← s.startsGivenUp_lane]
  exact s.startsGivenUp.leftStarting_lane i

theorem State.planStop_seq (s : State) (i : Nat) :
    s.planStop.seq i = if s.plan.lanes.getLsbD i then (s.seq i).asked 1 else s.seq i := by
  rw [s.planStop_eq, State.stopLanes_seq]
  have hz : (s.startsGivenUp.leftStarting.putPlan { s.plan with startDue := 0 }).seq i = s.seq i :=
    (s.startsGivenUp.leftStarting_seq i).trans (s.startsGivenUp_seq i)
  simp only [mem_lanesOf_plan, hz]

/-- The master's sequencer after its part's end. -/
def Seq.masterEnded (z : Seq) : Seq :=
  { z with st := if z.st = 4 then 4 else 0, holdWhy := .none, pend := 0, fault := none, inFault := false, stack := [],
           waiting := false, arrived := none, released := false }

theorem State.masterEnd_eq (s : State) : s.masterEnd = s.modSeq 32 Seq.masterEnded := rfl

theorem Seq.asked_st (z : Seq) (n : Nat) : (z.asked n).st = z.st := by unfold Seq.asked; split <;> rfl

/-- The master's part has ended, but where its sequencer stands in FAULT_STOP. -/
theorem State.masterEnd_st (s : State) (h : (s.seq 32).st ≠ 4) : (s.masterEnd.seq 32).st = 0 := by
  rw [s.masterEnd_eq, State.seq_modSeq_same]
  exact if_neg h

@[simp] theorem State.masterEnd_plan (s : State) : s.masterEnd.plan = s.plan := rfl

@[simp] theorem State.masterEnd_lane (s : State) (c : Nat) : s.masterEnd.lane c = s.lane c := rfl

@[simp] theorem State.masterEnd_rd (s : State) (o : Nat) : s.masterEnd.rd o = s.rd o := rfl

/-- A plan that is stopped and whose master's part ends. -/
theorem State.planStop_masterEnd_st (s : State) (h : (s.seq 32).st ≠ 4) : (s.planStop.masterEnd.seq 32).st = 0 := by
  refine s.planStop.masterEnd_st ?_
  rw [s.planStop_seq]
  split
  · rwa [Seq.asked_st]
  · exact h

end Sys2Proof.Machine

/-! Commands at the front that a plan's run serves, and the folds over clusters (R140, R175, R434). -/

namespace Sys2Proof.Machine

/-! ### Folds of which one engine is looked at -/

/-- Every part of a list is the same in two states. -/
def Keeps (L : List Part) (s t : State) : Prop := ∀ p ∈ L, p.same s t

theorem Keeps.refl (L : List Part) (s : State) : Keeps L s s := fun p _ => ChangesOnly.refl [] s p (by simp)

theorem Keeps.trans {L : List Part} {s t u : State} (h : Keeps L s t) (h' : Keeps L t u) : Keeps L s u :=
  fun p hp => Part.same_trans (h p hp) (h' p hp)

theorem Keeps.of_frame {L : List Part} {K : List Foot} {s t : State} (h : ChangesOnly K s t) (hk : ∀ p ∈ L, ∀ k ∈ K, k.covers p = false) :
    Keeps L s t := fun p hp => h p (hk p hp)

/-- A fold of which only the step of `k` changes the parts `L`: outside the list they stay, and in it that step acts on them once. -/
theorem foldl_at {L : List Part} {op : State → Nat → State} {k : Nat} (hop : ∀ t c, c ≠ k → Keeps L t (op t c)) {l : List Nat} (hl : l.Nodup)
    (s : State) : (k ∉ l → Keeps L s (l.foldl op s)) ∧ (k ∈ l → ∃ x, Keeps L s x ∧ Keeps L (op x k) (l.foldl op s)) := by
  induction l generalizing s with
  | nil => exact ⟨fun _ => Keeps.refl L s, fun h => absurd h List.not_mem_nil⟩
  | cons c l ih =>
    obtain ⟨hc, hl⟩ := List.nodup_cons.1 hl
    obtain ⟨hout, hin⟩ := ih hl (op s c)
    refine ⟨fun h => ?_, fun h => ?_⟩
    · obtain ⟨hk, hkl⟩ := List.ne_and_not_mem_of_not_mem_cons h
      exact (hop s c (Ne.symm hk)).trans (hout hkl)
    · by_cases hk : c = k
      · subst hk
        exact ⟨s, Keeps.refl L s, hout hc⟩
      · obtain ⟨x, hx, hxt⟩ := hin ((List.mem_cons.1 h).resolve_left (Ne.symm hk))
        exact ⟨x, (hop s c hk).trans hx, hxt⟩

theorem le_cluOff (c o : Nat) : 0x800000 ≤ cluOff c o := by unfold cluOff; omega

theorem le_chOff (n o : Nat) : 0x800000 ≤ chOff n o := by unfold chOff; omega

/-- The registers of completions are the device's. -/
theorem completion_covers_cluster {o : Nat} (h : 0x800000 ≤ o) : Foot.covers .completion (.reg o) = false := by
  simp only [Foot.covers, vectorReg, Reg.hstVecPendLo, Reg.hstVecPendHi, Reg.hstCplTail, Reg.hstCplDrop, Bool.or_eq_false_iff, beq_eq_false_iff_ne]
  omega

/-! ### Commands at the front -/

/-- A command at the front that needs no host memory is carried out. -/
theorem State.runCmd_taken {s : State} {op : Nat} {c : Cmd} {rest : List Cmd} (f : Cmd → State → State) (h : Front s op c rest)
    (hb : badFields c = false) (hu : usesHaddr op = false) : s.runCmd op f = (f c (s.popped rest)).settleAll := by
  obtain ⟨-, -, hop, -, -⟩ := id h
  have hc : c.cutOff = false := by simp [Cmd.cutOff, hop, hu]
  rw [State.runCmd_front f h, hb, hc, if_neg (by decide), if_neg (by decide)]

/-- A command at the front ends at once, from a state that its work has reached without the rings. -/
theorem front_finishes {L : List Foot} {s y : State} {c : Cmd} {rest : List Cmd} {i : Instr} {op : Nat} {P : State → Prop} (h : Front s op c rest)
    (hrun : exec i s = .next (y.complete c St.ok 0 0).settleAll) (hy : ChangesOnly L (s.popped rest) y)
    (hr : ∀ k ∈ L, k.covers .rings = false)
    (hk : ∀ k ∈ L, ∀ o ∈ [Reg.hstCplTail, Reg.hstCplDrop, Reg.hstCplBaseLo, Reg.hstCplBaseLo + 4, Reg.hstCfg], k.covers (.reg o) = false)
    (hP : ∀ t, ChangesOnly [.completion] y t → P t) :
    Completes i s (.completion :: L) (fun t => Finishes s t c rest St.ok 0 0 ∧ P t) := by
  obtain ⟨hfg, -⟩ := h
  obtain ⟨hfetched', hfg', -⟩ := hy .rings hr
  have hend : ChangesOnly [.completion] y (y.complete c St.ok 0 0).settleAll := (y.complete_frame c St.ok 0 0).trans (State.settleAll_frame _)
  refine ⟨_, hrun, ⟨?_, hP _ hend⟩, popped_completion_frame hy hend⟩
  exact Finishes.of_complete St.ok 0 0 ((s.popped_alike rest).trans (RingsAlike.of_frame hy hr hk)) hfetched' (hfg'.trans hfg)

/-! ### MASTER_START (R170, R434) -/

/-- The master's sequencer at the start of its part. -/
def Seq.masterStarted (z : Seq) (entry : Option Nat) : Seq := { z.fresh with st := 1, pos := if entry.isSome then .runner else .dflt 0 }

/-- The plan is RUNNING and no RUN loads. -/
def State.masterRuns (s : State) (us : W32) : State :=
  ((((s.wr Reg.plnLoadUs us).wrF Reg.plnState 19 17 3).modSeq 32 (fun z => z.masterStarted s.plan.entry)).putPlan
    { s.plan with loading := none }).putHst { s.hst with fg := none }

theorem State.masterStart_eq {s : State} {c : Cmd} (us : W32) (h : s.plan.loading = some c) :
    s.masterStart us = (if c.flags % 2 = 1 then (s.masterRuns us).bgStart c else (s.masterRuns us).complete c St.ok 0 0).settleAll := by
  unfold State.masterStart
  rw [h]
  rfl

theorem State.masterRuns_seq (s : State) (us : W32) : (s.masterRuns us).seq 32 = (s.seq 32).masterStarted s.plan.entry :=
  State.seq_modSeq_same ((s.wr Reg.plnLoadUs us).wrF Reg.plnState 19 17 3) 32 (fun z => z.masterStarted s.plan.entry)

theorem State.masterRuns_rd (s : State) (us : W32) (o : Nat) :
    (s.masterRuns us).rd o = ((s.wr Reg.plnLoadUs us).wrF Reg.plnState 19 17 3).rd o := rfl

theorem State.masterRuns_alike (s : State) (us : W32) : RingsAlike s (s.masterRuns us) := by
  refine ⟨rfl, rfl, fun o ho => ?_⟩
  have hne : o ≠ Reg.plnState ∧ o ≠ Reg.plnLoadUs := by
    revert o; decide
  exact (State.rd_wrF_ne _ hne.1 _ _ _).trans (State.rd_wr_ne _ hne.2 _)

theorem masterStart_completes {s : State} {c : Cmd} (us : W32) (h : s.plan.loading = some c) :
    Completes (.masterStart us) s [.completion, .one .plan, .one (.seq 32), .one (.reg Reg.plnState), .one (.reg Reg.plnLoadUs)] (fun t =>
      t.plnState = 3 ∧ t.rd Reg.plnLoadUs = us ∧ t.plan.loading = none ∧ (t.seq 32).st = 1 ∧
      (t.seq 32).pos = (if s.plan.entry.isSome then .runner else .dflt 0) ∧ (t.seq 32).store = (s.seq 32).store ∧
      (t.seq 32).latches = (s.seq 32).latches ∧
      (c.flags % 2 = 1 → Accepted s t c s.hst.fetched) ∧ (c.flags % 2 = 0 → Finishes s t c s.hst.fetched St.ok 0 0)) := by
  have hframe : ChangesOnly [.completion] (s.masterRuns us) (s.masterStart us) := by
    rw [State.masterStart_eq us h]
    refine (?_ : ChangesOnly _ _ _).trans (State.settleAll_frame _)
    split
    · exact (State.bgStart_changes c (Evolves.refl _ _) (Allows.mem List.mem_cons_self).ringsOfCompletion).1
    · exact State.complete_frame _ c _ _ _
  have hseq : (s.masterStart us).seq 32 = (s.seq 32).masterStarted s.plan.entry :=
    (hframe.seq_eq (by simp [Foot.covers])).trans (s.masterRuns_seq us)
  have hplan : (s.masterStart us).plan = { s.plan with loading := none } := hframe .plan (by simp [Foot.covers])
  refine ⟨_, rfl, ⟨?_, ?_, ?_, ?_, ?_, ?_, ?_, fun hbg => ?_, fun hfg => ?_⟩,
    (execMasterStart_changes us rfl (Allows.mem (by decide)) (Allows.mem (by decide)) (Allows.mem (by decide)) (Allows.mem (by decide))
      (Allows.mem (by decide))).1⟩
  · rw [State.plnState, hframe.rdF_eq 19 17 (by decide), State.rdF, State.masterRuns_rd]
    exact State.rdF_wrF_same _ Reg.plnState 3 (by decide) (by decide)
  · rw [hframe.rd_eq (by decide), State.masterRuns_rd, State.rd_wrF_ne _ (by decide), State.rd_wr_same]
  · rw [hplan]
  · rw [hseq]; rfl
  · rw [hseq]; rfl
  · rw [hseq]; rfl
  · rw [hseq]; rfl
  · rw [State.masterStart_eq us h, if_pos hbg]
    exact ⟨_, rfl, rfl, rfl, rfl, rfl, rfl⟩
  · rw [State.masterStart_eq us h, if_neg (by omega)]
    exact Finishes.of_complete St.ok 0 0 (s.masterRuns_alike us) rfl rfl

/-! ### STOP (R141, R174, R432) -/

/-- The host has stopped the plan. -/
def State.hostStopped (s : State) : State := s.putPlan { s.plan with stopped := true }

/-- What STOP does before its completion. -/
def State.stopWork (s : State) : State :=
  if ¬ s.planBusy then s else if (s.seq 32).inPart then s.pendLine 32 1 else s.hostStopped.planStop

theorem State.cmdStop_front {s : State} {c : Cmd} {rest : List Cmd} (h : Front s 0x02 c rest) (hb : badFields c = false) :
    s.cmdStop = ((s.popped rest).stopWork.complete c St.ok 0 0).settleAll := State.runCmd_taken _ h hb rfl

section
variable {s : State} {c : Cmd} {rest : List Cmd} (h : Front s 0x02 c rest) (hb : badFields c = false)
include h hb

theorem stop_idle_completes (hp : s.planBusy = false) : Completes .stop s [.completion] (fun t => Finishes s t c rest St.ok 0 0) := by
  have hwork : (s.popped rest).stopWork = s.popped rest := if_pos (by
    show ¬ s.planBusy = true
    simp [hp])
  obtain ⟨t, hrun, ⟨hfin, -⟩, hframe⟩ := front_finishes (i := .stop) (P := fun _ => True) h
    (congrArg Host.Outcome.next ((State.cmdStop_front h hb).trans (by rw [hwork]))) (ChangesOnly.refl [] _) (by simp) (by simp) (fun _ _ => trivial)
  exact ⟨t, hrun, hfin, hframe⟩

theorem stop_master_completes (hp : s.planBusy = true) (hz : (s.seq 32).inPart = true) :
    Completes .stop s [.completion, .one (.seq 32)] (fun t =>
      Finishes s t c rest St.ok 0 0 ∧ t.seq 32 = { s.seq 32 with pend := (s.seq 32).pend ||| 2 }) := by
  have hwork : (s.popped rest).stopWork = (s.popped rest).pendLine 32 1 :=
    (if_neg (not_not_intro hp)).trans (if_pos hz)
  refine front_finishes (i := .stop) h (congrArg Host.Outcome.next ((State.cmdStop_front h hb).trans (by rw [hwork])))
    (State.pendLine_changes 32 1 (Evolves.refl _ _) (Allows.mem List.mem_cons_self)).1 (by decide) (by decide) (fun t ht => ?_)
  rw [ht.seq_eq (by decide), State.pendLine_seq, if_pos rfl]
  exact if_pos hz

theorem stop_lanes_completes (hp : s.planBusy = true) (hz : (s.seq 32).inPart = false) :
    Completes .stop s [.completion, .seqs, .lanes, .one .plan, .one (.reg Reg.plnState)] (fun t =>
      Finishes s t c rest St.ok 0 0 ∧ t.plan.stopped = true ∧ t.plan.startDue = 0 ∧
      ∀ k : CluId, s.plan.lanes.getLsbD k.val = true →
        (t.lane k).due = 0 ∧ (t.lane k).armed = false ∧
        (t.seq k).pend = (if (s.seq k).inPart then (s.seq k).pend ||| 2 else (s.seq k).pend)) := by
  have hwork : (s.popped rest).stopWork = (s.popped rest).hostStopped.planStop :=
    (if_neg (not_not_intro hp)).trans (if_neg (by simp only [show (s.popped rest).seq 32 = s.seq 32 from rfl, hz]; decide))
  have hframe : ChangesOnly [.seqs, .lanes, .one .plan, .one (.reg Reg.plnState)] (s.popped rest) (s.popped rest).hostStopped.planStop := by
    refine (State.planStop_changes (State.putPlan_changes _ (Evolves.refl _ _) ?_) ?_ ?_ ?_ ?_).1 <;> exact Allows.mem (by decide)
  refine front_finishes (i := .stop) h (congrArg Host.Outcome.next ((State.cmdStop_front h hb).trans (by rw [hwork])))
    hframe (by decide) (by decide) (fun t ht => ?_)
  have hplan : t.plan = { s.plan with stopped := true, startDue := 0 } := by
    rw [ht .plan (by decide)]
    exact State.planStop_plan _
  refine ⟨by rw [hplan], by rw [hplan], fun k hk => ?_⟩
  have hlane : t.lane k = (s.lane k).givenUp := by
    rw [ht.lane_eq (by simp [Foot.covers]), State.planStop_lane]
    exact if_pos hk
  have hseq : t.seq k = (s.seq k).asked 1 := by
    rw [ht.seq_eq (by simp [Foot.covers]), State.planStop_seq]
    exact if_pos hk
  refine ⟨by rw [hlane]; rfl, by rw [hlane]; rfl, ?_⟩
  rw [hseq, Seq.asked, apply_ite Seq.pend]
  rfl

end

/-! ### JUMP (R175) -/

/-- The parts of cluster `k` that say what a jump request does there. -/
def jumpParts (k : Nat) : List Part := [.seq k, .lane k, .reg (cluOff k Reg.plnFlags), .reg Reg.memRetState]

theorem State.jumpRequest_frame (s : State) (c n : Nat) :
    ChangesOnly [.one (.lane c), .pair (cluOff c Reg.plnFlags), .one (.reg (cluOff c Reg.plnJump)), .one (.reg (cluOff c Reg.plnJumpCnt))] s
      (s.jumpRequest c n) := by
  refine (State.jumpRequest_changes c n (Evolves.refl _ s) ?_ ?_ ?_ ?_).1 <;> exact Allows.mem (by simp)

/-- A jump request leaves the other clusters alone. -/
theorem State.jumpRequest_keeps (s : State) {c k : Nat} (n : Nat) (h : c ≠ k) : Keeps (jumpParts k) s (s.jumpRequest c n) := by
  refine Keeps.of_frame (s.jumpRequest_frame c n) ?_
  simp only [jumpParts, List.forall_mem_cons, Foot.covers, decide_eq_false_iff_not, Bool.or_eq_false_iff, beq_eq_false_iff_ne, cluOff,
    Part.reg.injEq, Part.lane.injEq, Reg.memRetState, Reg.plnFlags, Reg.plnJump, Reg.plnJumpCnt]
  refine ⟨?_, ?_, ?_, ?_, ?_⟩ <;> simp <;> omega

/-- The request as it falls in one lane. -/
theorem State.jumpRequest_lane (s : State) (c n : Nat) :
    ((s.jumpRequest c n).lane c).jump = (if s.laneIdle c = false ∧ n < (s.lane c).table.length then some n else (s.lane c).jump) := by
  unfold State.jumpRequest
  by_cases hidle : s.laneIdle c = true
  · simp [hidle]
  · by_cases hlen : (s.lane c).table.length ≤ n
    · simp [hidle, hlen]
    · rw [if_neg hidle, if_neg hlen, State.lane_wrF, State.lane_modLane_same]
      exact (if_pos ⟨by simpa using hidle, Nat.lt_of_not_le hlen⟩).symm

theorem State.jumpRequest_flag (s : State) (c n : Nat) (hidle : s.laneIdle c = false) (hlen : (s.lane c).table.length ≤ n)
    (hr : s.retained (cluOff c Reg.plnFlags) = false) : (s.jumpRequest c n).rdB (cluOff c Reg.plnFlags) 2 = true := by
  unfold State.jumpRequest
  rw [if_neg (by simp [hidle]), if_pos hlen]
  exact s.raise_rdB _ hr (by decide)

/-- What depends on the jump parts only. -/
theorem jumpParts_alike {s x : State} {k : Nat} (h : Keeps (jumpParts k) s x) :
    x.lane k = s.lane k ∧ x.laneIdle k = s.laneIdle k ∧ x.rd (cluOff k Reg.plnFlags) = s.rd (cluOff k Reg.plnFlags) ∧
      x.retained (cluOff k Reg.plnFlags) = s.retained (cluOff k Reg.plnFlags) := by
  have hseq : x.seq k = s.seq k := h (.seq k) (by simp [jumpParts])
  have hlane : x.lane k = s.lane k := h (.lane k) (by simp [jumpParts])
  have hflags : x.rd (cluOff k Reg.plnFlags) = s.rd (cluOff k Reg.plnFlags) := h (.reg _) (by simp [jumpParts])
  have hret : x.rd Reg.memRetState = s.rd Reg.memRetState := h (.reg _) (by simp [jumpParts])
  exact ⟨hlane, by rw [State.laneIdle, State.laneIdle, hseq, hlane], hflags, State.retained_congr fun _ => hret⟩

/-- A jump request in every lane of a mask, as lane `k` sees it. -/
theorem State.jumpAll_at (s : State) (mask n : Nat) {k : Nat} (hk : k < 32) :
    ((s.jumpAll mask n).lane k).jump =
        (if mask.testBit k ∧ s.laneIdle k = false ∧ n < (s.lane k).table.length then some n else (s.lane k).jump) ∧
      (mask.testBit k = true → s.laneIdle k = false → (s.lane k).table.length ≤ n → s.retained (cluOff k Reg.plnFlags) = false →
        (s.jumpAll mask n).rdB (cluOff k Reg.plnFlags) 2 = true) := by
  obtain ⟨hout, hin⟩ := foldl_at (op := fun t c => t.jumpRequest c n) (fun t c h => t.jumpRequest_keeps n h) (nodup_lanesOf mask) s
  by_cases hm : mask.testBit k = true
  · obtain ⟨x, hx, hxt⟩ := hin (mem_lanesOf.2 ⟨hk, hm⟩)
    obtain ⟨hlane, hidle, hflags, hret⟩ := jumpParts_alike hx
    obtain ⟨hlane', -, hflags', -⟩ := jumpParts_alike hxt
    refine ⟨?_, fun _ hi hlen hr => ?_⟩
    · rw [State.jumpAll, hlane', State.jumpRequest_lane, hlane, hidle]
      simp [hm]
    · rw [State.jumpAll, State.rdB, hflags']
      exact x.jumpRequest_flag k n (hidle.trans hi) (by rwa [hlane]) (hret.trans hr)
  · obtain ⟨hlane, -⟩ := jumpParts_alike (hout (fun h => hm (mem_lanesOf.1 h).2))
    exact ⟨by rw [State.jumpAll, hlane]; simp [hm], fun h => absurd h hm⟩

theorem jump_completes {s : State} {c : Cmd} {rest : List Cmd} (h : Front s 0x04 c rest) (hb : badFields c = false) :
    Completes .jump s [.completion, .lanes, .cluPair Reg.plnFlags, .cluReg Reg.plnJump, .cluReg Reg.plnJumpCnt] (fun t =>
      Finishes s t c rest St.ok 0 0 ∧
      ∀ k : CluId,
        (t.lane k).jump = (if c.arg0.testBit k.val ∧ s.laneIdle k = false ∧ c.arg1 % 4096 < (s.lane k).table.length
          then some (c.arg1 % 4096) else (s.lane k).jump) ∧
        (c.arg0.testBit k.val = true → s.laneIdle k = false → (s.lane k).table.length ≤ c.arg1 % 4096 →
          s.retained (cluOff k Reg.plnFlags) = false → t.rdB (cluOff k Reg.plnFlags) 2 = true)) := by
  have hframe : ChangesOnly [.lanes, .cluPair Reg.plnFlags, .cluReg Reg.plnJump, .cluReg Reg.plnJumpCnt] (s.popped rest)
      ((s.popped rest).jumpAll c.arg0 (c.arg1 % 4096)) := by
    refine (State.jumpAll_changes _ _ (Evolves.refl _ _) ?_ ?_ ?_ ?_).1 <;> exact Allows.mem (by decide)
  refine front_finishes (i := .jump) h (congrArg Host.Outcome.next (State.runCmd_taken _ h hb rfl)) hframe (by decide) (by decide)
    (fun t ht k => ?_)
  obtain ⟨hjump, hflag⟩ := (s.popped rest).jumpAll_at c.arg0 (c.arg1 % 4096) k.isLt
  refine ⟨?_, fun hm hi hlen hr => ?_⟩
  · rw [ht.lane_eq (by simp [Foot.covers]), hjump]
    rfl
  · rw [ht.rdB_eq 2 (by simp [completion_covers_cluster (le_cluOff _ _)])]
    exact hflag hm hi hlen hr

end Sys2Proof.Machine

/-! The start of a lane (R132, R133, R140, R171). -/

namespace Sys2Proof.Machine

theorem mem_chansOf_iff {c n : Nat} : n ∈ chansOf c ↔ n / 16 = c := by
  simp only [chansOf, List.mem_map, List.mem_range]
  exact ⟨fun ⟨k, hk, hn⟩ => by omega, fun h => ⟨n % 16, by omega, by omega⟩⟩

theorem nodup_chansOf (c : Nat) : (chansOf c).Nodup := List.nodup_range.map fun a b h => by simpa using h

/-- Registers of two channels are different. -/
theorem chOff_ne {m n a b : Nat} (h : m ≠ n) (ha : a < 0x1000) (hb : b < 0x1000) : chOff m a ≠ chOff n b := by
  unfold chOff; omega

theorem chOff_inj (n : Nat) {a b : Nat} : chOff n a = chOff n b ↔ a = b := Nat.add_left_cancel_iff

theorem cluOff_inj (c : Nat) {a b : Nat} : cluOff c a = cluOff c b ↔ a = b := Nat.add_left_cancel_iff

/-- A register of a cluster's own is none of a channel page. -/
theorem cluOff_ne_chOff {c n a b : Nat} (ha : a < 0x10000) (hb : b < 0x1000) : cluOff c a ≠ chOff n b := by
  unfold cluOff chOff; omega

theorem inChRegs_cluOff (c : Nat) {o lo hi : Nat} (ho : o < 0x10000) : inChRegs lo hi (cluOff c o) = false := by
  have h : (cluOff c o - 0x800000) % 0x20000 = o := by unfold cluOff; omega
  simp [inChRegs, h, ho]

theorem isChReg_cluOff (c : Nat) {o r : Nat} (ho : o < 0x10000) : isChReg r (cluOff c o) = false := by
  have h : (cluOff c o - 0x800000) % 0x20000 = o := by unfold cluOff; omega
  simp [isChReg, h, ho]

/-! ### One channel -/

/-- What the start of a lane can change in channel `n`. -/
def chanStartFoot (n : Nat) : List Foot :=
  [.one (.chan n), .one (.reg (chOff n Reg.tgQueue)), .one (.reg (chOff n Reg.flChFail)), .one (.reg (chOff n Reg.tgScrActLo)),
    .one (.reg (chOff n Reg.tgScrActHi)), .one (.reg (chOff n Reg.tgScrStgLo)), .one (.reg (chOff n Reg.tgScrStgHi))]

theorem State.chanStart_evolves {K : List Foot} {s x : State} {n : Nat} (h : Evolves K s x) (hk : ∀ k ∈ chanStartFoot n, Allows K k) :
    Evolves K s (x.chanStart n) := by
  apply State.chanStart_changes n h <;> exact hk _ (by simp [chanStartFoot])

theorem State.chanStart_frame (s : State) (n : Nat) : ChangesOnly (chanStartFoot n) s (s.chanStart n) :=
  (State.chanStart_evolves (Evolves.refl _ s) fun _ hk => Allows.mem hk).1

theorem State.chanStart_rd (s : State) (n : Nat) :
    (s.chanStart n).rd (chOff n Reg.tgScrActLo) = 0x22222222 ∧ (s.chanStart n).rd (chOff n Reg.flChFail) = 0 := by
  unfold State.chanStart
  rw [State.rd_modChan, State.rd_modChan, State.foldl_wr_rd (chOff n), State.foldl_wr_rd (chOff n)]
  refine ⟨if_pos (List.mem_map_of_mem (by simp)), ?_⟩
  rw [if_neg (by simp [chOff_inj]), State.rd_wrF_ne _ ((chOff_inj n).not.2 (by decide)), State.rd_wr_same]

/-- The parts of channel `n` that say what a lane start does there. -/
def chanParts (n : Nat) : List Part := [.chan n, .reg (chOff n Reg.tgScrActLo), .reg (chOff n Reg.flChFail)]

theorem State.chanStart_keeps (s : State) {m n : Nat} (h : m ≠ n) : Keeps (chanParts n) s (s.chanStart m) := by
  refine Keeps.of_frame (s.chanStart_frame m) ?_
  simp only [chanParts, chanStartFoot, List.forall_mem_cons, Foot.covers, decide_eq_false_iff_not, Part.reg.injEq, Part.chan.injEq]
  have hne : ∀ {a b : Nat}, a < 0x1000 → b < 0x1000 → chOff m a ≠ chOff n b := chOff_ne h
  refine ⟨?_, ?_, ?_, ?_⟩
  · simp [h]
  · exact ⟨nofun, hne (by decide) (by decide), hne (by decide) (by decide), hne (by decide) (by decide), hne (by decide) (by decide),
      hne (by decide) (by decide), hne (by decide) (by decide), by simp⟩
  · exact ⟨nofun, hne (by decide) (by decide), hne (by decide) (by decide), hne (by decide) (by decide), hne (by decide) (by decide),
      hne (by decide) (by decide), hne (by decide) (by decide), by simp⟩
  · simp

/-! ### The whole lane -/

/-- What the start of lane `c` has reset before its sequencer starts. -/
def State.laneCleared (s : State) (c : Nat) : State :=
  (((chansOf c).foldl State.chanStart (s.laneRegsStart c)).wrB (cluOff c Reg.ddsStatus) 24 false).modDds c (fun d => { d with acc := 0 })

/-- The registers that a lane start clears. -/
def laneStartRegs : List Nat :=
  [Reg.plnGapCnt, Reg.plnGapFirstLo, Reg.plnGapFirstHi, Reg.plnGapLenLo, Reg.plnGapLenHi, Reg.flRecWr, Reg.flRecLost, Reg.flQueue,
    Reg.ddsMarkCnt, Reg.ddsGranLo, Reg.ddsGranHi]

theorem laneStartRegs_lt : ∀ o ∈ laneStartRegs, o < 0x10000 := by decide

theorem State.laneRegsStart_eq (s : State) (c : Nat) : s.laneRegsStart c = laneStartRegs.foldl (fun t o => t.wr (cluOff c o) 0) s := rfl

theorem State.laneRegsStart_rd (s : State) (c : Nat) {o : Nat} (ho : o ∈ laneStartRegs) : (s.laneRegsStart c).rd (cluOff c o) = 0 := by
  rw [s.laneRegsStart_eq, State.foldl_wr_rd (cluOff c)]
  exact if_pos (List.mem_map_of_mem ho)

theorem State.laneRegsStart_rd_ne (s : State) (c : Nat) {o : Nat} (ho : ∀ r ∈ laneStartRegs, o ≠ cluOff c r) :
    (s.laneRegsStart c).rd o = s.rd o := by
  rw [s.laneRegsStart_eq, State.foldl_wr_rd (cluOff c)]
  refine if_neg fun h => ?_
  obtain ⟨r, hr, hro⟩ := List.mem_map.1 h
  exact ho r hr hro.symm

theorem State.laneRegsStart_frame (s : State) (c : Nat) : ChangesOnly [.allRegs] s (s.laneRegsStart c) := by
  rw [s.laneRegsStart_eq]
  exact (Evolves.foldl (fun t o h => State.wr_changes _ _ h (Allows.mem List.mem_cons_self).regOfAll) (Evolves.refl _ s)).1

/-- The channels of a lane at its start. -/
def State.chansStarted (s : State) (c : Nat) : State := (chansOf c).foldl State.chanStart s

theorem State.chansStarted_frame (s : State) (c : Nat) : ChangesOnly [.chans, .chRegs 0 0x1000] s (s.chansStarted c) := by
  have hchan : Allows [.chans, .chRegs 0 0x1000] .chans := Allows.mem List.mem_cons_self
  have hregs : Allows [.chans, .chRegs 0 0x1000] (.chRegs 0 0x1000) := Allows.mem (by simp)
  refine (Evolves.foldl (fun t n h => State.chanStart_evolves h ?_) (Evolves.refl _ s)).1
  simp only [chanStartFoot, List.forall_mem_cons]
  refine ⟨hchan.chanOf, ?_, ?_, ?_, ?_, ?_, ?_, by simp⟩ <;> exact hregs.ofChRegs (by decide)

/-- A channel of the lane is started, and every other one is left alone. -/
theorem State.chansStarted_at (s : State) (c n : Nat) :
    (n / 16 ≠ c → Keeps (chanParts n) s (s.chansStarted c)) ∧
      (n / 16 = c → (s.chansStarted c).rd (chOff n Reg.tgScrActLo) = 0x22222222 ∧ (s.chansStarted c).rd (chOff n Reg.flChFail) = 0) := by
  obtain ⟨hout, hin⟩ := foldl_at (op := State.chanStart) (fun t m h => t.chanStart_keeps h) (nodup_chansOf c) s
  refine ⟨fun h => hout (fun hm => h (mem_chansOf_iff.1 hm)), fun h => ?_⟩
  obtain ⟨x, -, hx⟩ := hin (mem_chansOf_iff.2 h)
  obtain ⟨hact, hfail⟩ := x.chanStart_rd n
  exact ⟨(hx (.reg _) (by simp [chanParts])).trans hact, (hx (.reg _) (by simp [chanParts])).trans hfail⟩

theorem State.laneCleared_frame (s : State) (c : Nat) : ChangesOnly [.allRegs, .chans, .one (.clu c)] s (s.laneCleared c) := by
  have hall : Allows [.allRegs, .chans, .one (.clu c)] .allRegs := Allows.mem List.mem_cons_self
  have hstart : ChangesOnly [.allRegs, .chans, .one (.clu c)] s ((s.laneRegsStart c).chansStarted c) := by
    refine ((s.laneRegsStart_frame c).subset (by simp)).trans (((s.laneRegsStart c).chansStarted_frame c).mono ?_)
    simp only [List.forall_mem_cons]
    exact ⟨Allows.mem (by simp), hall.of (fun p h => by cases p <;> simp_all [Foot.covers]), by simp⟩
  exact hstart.trans (State.modDds_changes c _ (State.wrB_changes _ _ _ (Evolves.refl _ _) hall.regOfAll) (Allows.mem (by simp))).1

theorem State.laneCleared_rd_ne (s : State) (c : Nat) {o : Nat} (h : o ≠ cluOff c Reg.ddsStatus) :
    (s.laneCleared c).rd o = ((s.laneRegsStart c).chansStarted c).rd o := by
  unfold State.laneCleared State.modDds
  rw [State.rd_modClu, State.rd_wrB_ne _ h]
  rfl

theorem State.chan_modDds_wrB (s : State) (c o b n : Nat) (v : Bool) (f : Dds → Dds) : ((s.wrB o b v).modDds c f).chan n = s.chan n := rfl

theorem State.laneCleared_chan (s : State) (c n : Nat) : (s.laneCleared c).chan n = ((s.laneRegsStart c).chansStarted c).chan n :=
  State.chan_modDds_wrB _ _ _ _ _ _ _

/-- A register of the lane that its start clears is 0. -/
theorem State.laneCleared_rd (s : State) (c : Nat) {o : Nat} (ho : o ∈ laneStartRegs) (hd : o ≠ Reg.ddsStatus) :
    (s.laneCleared c).rd (cluOff c o) = 0 := by
  have hne : cluOff c o ≠ cluOff c Reg.ddsStatus := (cluOff_inj c).not.2 hd
  calc (s.laneCleared c).rd (cluOff c o) = ((s.laneRegsStart c).chansStarted c).rd (cluOff c o) := s.laneCleared_rd_ne c hne
    _ = (s.laneRegsStart c).rd (cluOff c o) := ((s.laneRegsStart c).chansStarted_frame c).rd_eq (by
        simp [Foot.covers, inChRegs_cluOff c (laneStartRegs_lt o ho)])
    _ = 0 := s.laneRegsStart_rd c ho

/-- What a lane start does in channel `n`. -/
theorem State.laneCleared_at (s : State) (c : Nat) (n : ChId) :
    (n.val / 16 = c → (s.laneCleared c).rd (chOff n Reg.tgScrActLo) = 0x22222222 ∧ (s.laneCleared c).rd (chOff n Reg.flChFail) = 0) ∧
      (n.val / 16 ≠ c → (s.laneCleared c).chan n = s.chan n ∧ (s.laneCleared c).rd (chOff n Reg.flChFail) = s.rd (chOff n Reg.flChFail)) := by
  obtain ⟨hout, hin⟩ := (s.laneRegsStart c).chansStarted_at c n
  have hrd : ∀ r, r < 0x1000 → (s.laneCleared c).rd (chOff n r) = ((s.laneRegsStart c).chansStarted c).rd (chOff n r) := fun r hr =>
    s.laneCleared_rd_ne c (cluOff_ne_chOff (by decide) hr).symm
  refine ⟨fun h => ?_, fun h => ⟨?_, ?_⟩⟩
  · rw [hrd _ (by decide), hrd _ (by decide)]
    exact hin h
  · rw [s.laneCleared_chan]
    exact (hout h (.chan n) (by simp [chanParts])).trans (s.laneRegsStart_frame c (.chan n) (by simp [Foot.covers]))
  · rw [hrd _ (by decide)]
    exact (hout h (.reg _) (by simp [chanParts])).trans (s.laneRegsStart_rd_ne c fun r hr =>
      (cluOff_ne_chOff (laneStartRegs_lt r hr) (by decide)).symm)

/-- The lane as its start leaves it. -/
def State.restarted (s : State) (c cycle : Nat) : Lane :=
  { (s.lane c).restart (s.rolesNow c) (s.rd (cluOff c Reg.flCtl)) (s.rd (cluOff c Reg.flMatch)) with pad := cycle + 1536 }

/-- A lane's sequencer as its start leaves it. -/
def Seq.laneStarted (z : Seq) : Seq := { z.fresh with st := 1, pos := .runner, gen := genReset }

theorem State.startLane_eq (s : State) (c cycle : Nat) :
    s.startLane c cycle = ((s.laneCleared c).setSeq c (s.seq c).laneStarted).setLane c (s.restarted c cycle) := by
  have hseq : (s.laneCleared c).seq c = s.seq c := (s.laneCleared_frame c).seq_eq (by simp [Foot.covers])
  have hlane : (s.laneCleared c).lane c = s.lane c := (s.laneCleared_frame c).lane_eq (by simp [Foot.covers])
  show ((s.laneCleared c).modSeq c Seq.laneStarted).modLane c (fun l =>
    { l.restart (s.rolesNow c) (s.rd (cluOff c Reg.flCtl)) (s.rd (cluOff c Reg.flMatch)) with pad := cycle + 1536 }) = _
  rw [State.modLane, State.lane_modSeq, hlane, State.modSeq, hseq, State.restarted]

theorem State.startLane_lane (s : State) (c cycle : Nat) : (s.startLane c cycle).lane c = s.restarted c cycle := by
  rw [s.startLane_eq, State.lane_setLane_same]

theorem State.startLane_seq (s : State) (c cycle : Nat) : (s.startLane c cycle).seq c = (s.seq c).laneStarted := by
  rw [s.startLane_eq, State.seq_setLane, State.seq_setSeq_same]

theorem State.startLane_rd (s : State) (c cycle o : Nat) : (s.startLane c cycle).rd o = (s.laneCleared c).rd o := by
  rw [s.startLane_eq, State.rd_setLane, State.rd_setSeq]

theorem State.startLane_chan (s : State) (c cycle n : Nat) : (s.startLane c cycle).chan n = (s.laneCleared c).chan n := by
  rw [s.startLane_eq]
  exact congrArg (fun t => Tbl.get (fun _ => chanReset) t n) ((State.setLane_chans _ _ _).trans (State.setSeq_chans _ _ _))

/-- A lane start leaves the other lanes, their sequencers and the registers of the device alone. -/
theorem State.startLane_frame (s : State) (c cycle : Nat) :
    ChangesOnly [.one (.lane c), .one (.seq c), .one (.clu c), .chans, .cluRegs 0 0x20000] s (s.startLane c cycle) := by
  have hclu : Allows [.one (.lane c), .one (.seq c), .one (.clu c), .chans, .cluRegs 0 0x20000] (.cluRegs 0 0x20000) := Allows.mem (by simp)
  have hch : ∀ r, Allows [.one (.lane c), .one (.seq c), .one (.clu c), .chans, .cluRegs 0 0x20000] (.chReg r) := fun r => hclu.of fun p h => by
    cases p <;> simp_all [Foot.covers, isChReg, inCluRegs, Nat.mod_lt]
  refine (State.startLane_changes c cycle (Evolves.refl _ s) ?_ ?_ ?_ ?_ ?_ ?_ ?_ ?_ ?_ ?_ ?_ ?_ ?_ ?_ ?_ ?_ ?_ ?_ ?_ ?_ ?_ ?_).1
  all_goals first
    | exact hch _
    | exact hclu.ofCluRegs (by decide)
    | exact Allows.mem (by simp)

end Sys2Proof.Machine

/-! Aligned starts, lanes that go idle, and the end of a plan (R173, R174, R284, R413 to R415). -/

namespace Sys2Proof.Machine

/-! ### ALIGNED_START (R414) -/

/-- A lane that is no longer armed. -/
def Lane.disarmed (l : Lane) : Lane := { l with armed := false }

/-- What the start instant does in an armed lane. -/
def State.armedStart (s : State) (cycle c : Nat) : State :=
  if (s.modLane c Lane.disarmed).canStart c then (s.modLane c Lane.disarmed).startLane c cycle else s.modLane c Lane.disarmed

/-- What the start instant can change in lane `c`. -/
def armedStartFoot (c : Nat) : List Foot := [.one (.lane c), .one (.seq c), .one (.clu c), .chans, .cluRegs 0 0x20000]

theorem State.armedStart_frame (s : State) (cycle c : Nat) : ChangesOnly (armedStartFoot c) s (s.armedStart cycle c) := by
  have hdisarm : ChangesOnly (armedStartFoot c) s (s.modLane c Lane.disarmed) :=
    (State.modLane_changes c _ (Evolves.refl _ s) (Allows.mem List.mem_cons_self)).1
  unfold State.armedStart
  split
  · exact hdisarm.trans (State.startLane_frame _ c cycle)
  · exact hdisarm

theorem State.armedStart_keeps (s : State) (cycle : Nat) {c k : Nat} (h : c ≠ k) : Keeps [.lane k, .seq k] s (s.armedStart cycle c) :=
  Keeps.of_frame (s.armedStart_frame cycle c) (by simp [armedStartFoot, Foot.covers, h])

theorem State.armedStart_armed (s : State) (cycle c : Nat) : ((s.armedStart cycle c).lane c).armed = false := by
  unfold State.armedStart
  split
  · rw [State.startLane_lane]; rfl
  · rw [State.lane_modLane_same]; rfl

theorem State.armedStart_starts (s : State) (cycle c : Nat) (hz : (s.seq c).st = 0) (hl : (s.lane c).live = false) :
    ((s.armedStart cycle c).lane c).live = true ∧ ((s.armedStart cycle c).lane c).pad = cycle + 1536 ∧
      ((s.armedStart cycle c).seq c).st = 1 ∧ ((s.armedStart cycle c).lane c).was = none := by
  have hcan : (s.modLane c Lane.disarmed).canStart c = true := by
    rw [State.canStart, State.seq_modLane, State.lane_modLane_same, hz, Lane.disarmed, hl]
    rfl
  rw [State.armedStart, if_pos hcan, State.startLane_lane, State.startLane_seq]
  exact ⟨rfl, rfl, rfl, rfl⟩

/-- The lanes that are armed. -/
def State.armedLanes (s : State) : List Nat := (List.range 32).filter (fun c => (s.lane c).armed)

theorem State.mem_armedLanes {s : State} {c : CluId} : c.val ∈ s.armedLanes ↔ (s.lane c).armed = true := by
  simp [State.armedLanes]

theorem State.nodup_armedLanes (s : State) : s.armedLanes.Nodup := List.nodup_range.filter _

/-- The start instant in every armed lane. -/
def State.armedStarts (s : State) (cycle : Nat) : State := s.armedLanes.foldl (fun t c => t.armedStart cycle c) s

theorem State.armedStarts_frame (s : State) (cycle : Nat) : ChangesOnly [.lanes, .seqs, .clus, .chans, .cluRegs 0 0x20000] s (s.armedStarts cycle) := by
  have hstep : ∀ (l : List Nat) (t : State), ChangesOnly [.lanes, .seqs, .clus, .chans, .cluRegs 0 0x20000] t
      (l.foldl (fun t c => t.armedStart cycle c) t) := by
    intro l
    induction l with
    | nil => exact fun t => ChangesOnly.refl _ t
    | cons c l ih =>
      refine fun t => ((t.armedStart_frame cycle c).mono ?_).trans (ih _)
      simp only [armedStartFoot, List.forall_mem_cons]
      exact ⟨(Allows.mem (by simp)).laneOf, (Allows.mem (by simp)).seqOf, (Allows.mem (by simp)).cluOf, Allows.mem (by simp), Allows.mem (by simp),
        by simp⟩
  exact hstep _ s

/-- A lane that is not armed stays as it is, and an armed one sees the start instant once. -/
theorem State.armedStarts_at (s : State) (cycle : Nat) (c : CluId) :
    ((s.lane c).armed = false → (s.armedStarts cycle).lane c = s.lane c ∧ (s.armedStarts cycle).seq c = s.seq c) ∧
      ((s.lane c).armed = true → ∃ x : State, x.lane c = s.lane c ∧ x.seq c = s.seq c ∧
        (s.armedStarts cycle).lane c = (x.armedStart cycle c).lane c ∧ (s.armedStarts cycle).seq c = (x.armedStart cycle c).seq c) := by
  obtain ⟨hout, hin⟩ := foldl_at (op := fun t c => t.armedStart cycle c) (fun t k h => t.armedStart_keeps cycle h) s.nodup_armedLanes s
  have hl : ∀ {x y : State}, Keeps [.lane c.val, .seq c.val] x y → y.lane c = x.lane c ∧ y.seq c = x.seq c := fun h =>
    ⟨h (.lane c) (by simp), h (.seq c) (by simp)⟩
  refine ⟨fun h => hl (hout fun hm => ?_), fun h => ?_⟩
  · rw [State.mem_armedLanes.1 hm] at h
    cases h
  · obtain ⟨x, hx, hxt⟩ := hin (State.mem_armedLanes.2 h)
    exact ⟨x, (hl hx).1, (hl hx).2, (hl hxt).1, (hl hxt).2⟩

theorem State.alignedStart_eq {s : State} (cycle : Nat) (hdue : s.plan.startDue ≠ 0) (hq : ∀ c : CluId, (s.lane c).armed = true → (s.lane c).formQ = []) :
    s.alignedStart cycle =
      ((s.armedStarts cycle).putPlan { (s.armedStarts cycle).plan with startDue := (s.armedStarts cycle).plan.startDue - 1 }).leftStarting := by
  have hall : s.armedLanes.all (fun c => (s.lane c).formQ.isEmpty) = true := by
    refine List.all_eq_true.2 fun c hc => ?_
    have hlt : c < 32 := List.mem_range.1 (List.mem_filter.1 hc).1
    rw [hq ⟨c, hlt⟩ (State.mem_armedLanes.1 hc)]
    rfl
  exact if_pos ⟨hdue, hall⟩

theorem alignedStart_completes {s : State} (cycle : Nat) (hdue : s.plan.startDue ≠ 0)
    (hq : ∀ c : CluId, (s.lane c).armed = true → (s.lane c).formQ = []) :
    Completes (.alignedStart cycle) s [.one .plan, .lanes, .seqs, .clus, .chans, .one (.reg Reg.plnState), .cluReg Reg.ddsStatus,
        .chReg Reg.tgQueue, .chReg Reg.flChFail, .chReg Reg.tgScrActLo, .chReg Reg.tgScrActHi, .chReg Reg.tgScrStgLo, .chReg Reg.tgScrStgHi,
        .cluReg Reg.plnGapCnt, .cluReg Reg.plnGapFirstLo, .cluReg Reg.plnGapFirstHi, .cluReg Reg.plnGapLenLo, .cluReg Reg.plnGapLenHi,
        .cluReg Reg.flRecWr, .cluReg Reg.flRecLost, .cluReg Reg.flQueue, .cluReg Reg.ddsMarkCnt, .cluReg Reg.ddsGranLo,
        .cluReg Reg.ddsGranHi] (fun t =>
      t.plan.startDue = s.plan.startDue - 1 ∧ (s.plnState = 2 → t.plnState = 3) ∧
      (∀ c : CluId, (t.lane c).armed = false) ∧
      (∀ c : CluId, (s.lane c).armed = true → (s.seq c).st = 0 → (s.lane c).live = false →
        (t.lane c).live = true ∧ (t.lane c).pad = cycle + 1536 ∧ (t.seq c).st = 1 ∧ (t.lane c).was = none) ∧
      (∀ c : CluId, (s.lane c).armed = false → t.lane c = s.lane c ∧ t.seq c = s.seq c)) := by
  have heq := State.alignedStart_eq cycle hdue hq
  have hplan : (s.armedStarts cycle).plan = s.plan := s.armedStarts_frame cycle .plan (by simp [Foot.covers])
  have hlane : ∀ k, (s.alignedStart cycle).lane k = (s.armedStarts cycle).lane k := fun k => by
    rw [heq, State.leftStarting_lane]; rfl
  have hseq : ∀ k, (s.alignedStart cycle).seq k = (s.armedStarts cycle).seq k := fun k => by
    rw [heq, State.leftStarting_seq]; rfl
  refine ⟨_, rfl, ⟨?_, fun hst => ?_, fun c => ?_, fun c ha hz hl => ?_, fun c ha => ?_⟩, ?_⟩
  · rw [heq, State.leftStarting_plan, hplan]; rfl
  · have hkeep : ((s.armedStarts cycle).putPlan { (s.armedStarts cycle).plan with startDue := (s.armedStarts cycle).plan.startDue - 1 }).plnState = 2 :=
      ((s.armedStarts_frame cycle).rdF_eq 19 17 (by decide)).trans hst
    rw [heq, State.leftStarting, if_pos hkeep]
    exact State.rdF_wrF_same _ _ _ (by decide) (by decide)
  · rw [hlane]
    cases ha : (s.lane c).armed with
    | false => rw [((s.armedStarts_at cycle c).1 ha).1, ha]
    | true =>
      obtain ⟨x, -, -, hx, -⟩ := (s.armedStarts_at cycle c).2 ha
      rw [hx, x.armedStart_armed]
  · obtain ⟨x, hxl, hxz, htl, htz⟩ := (s.armedStarts_at cycle c).2 ha
    rw [hlane, hseq, htl, htz]
    exact x.armedStart_starts cycle c (by rw [hxz, hz]) (by rw [hxl, hl])
  · rw [hlane, hseq]
    exact (s.armedStarts_at cycle c).1 ha
  · refine (execAlignedStart_changes cycle rfl ?_ ?_ ?_ ?_ ?_ ?_ ?_ ?_ ?_ ?_ ?_ ?_ ?_ ?_ ?_ ?_ ?_ ?_ ?_ ?_ ?_ ?_ ?_ ?_).1 <;>
      exact Allows.mem (by decide)

/-! ### ALIGNED_START_TIMEOUT (R415) -/

theorem alignedStartTimeout_completes {s : State} (h : ∃ c : CluId, (s.lane c).armed = true) :
    Completes .alignedStartTimeout s [.seqs, .lanes, .one .plan, .one (.reg Reg.plnState), .pair Reg.cwyFlags] (fun t =>
      t.plan.stopped = true ∧ t.plan.startDue = 0 ∧ t.rdB Reg.cwyFlags 3 = true ∧ ((s.seq 32).st ≠ 4 → (t.seq 32).st = 0) ∧
      ∀ c : CluId, s.plan.lanes.getLsbD c.val = true → (t.lane c).armed = false) := by
  obtain ⟨c, hc⟩ := h
  have heq : s.alignedTimeout = (s.hostStopped.raise Reg.cwyFlags 3).planStop.masterEnd :=
    if_pos ((List.any_eq_true (p := fun c => (s.lane c).armed)).2 ⟨c, List.mem_range.2 c.isLt, hc⟩)
  have hplan : s.alignedTimeout.plan = { s.plan with stopped := true, startDue := 0 } := by
    rw [heq, State.masterEnd_plan, State.planStop_plan, State.raise_plan]
    rfl
  refine ⟨_, rfl, ⟨by rw [hplan], by rw [hplan], ?_, fun hz => ?_, fun k hk => ?_⟩,
    (execAlignedStartTimeout_changes rfl (Allows.mem (by decide)) (Allows.mem (by decide)) (Allows.mem (by decide)) (Allows.mem (by decide))
      (Allows.mem (by decide))).1⟩
  · rw [heq, State.rdB, State.masterEnd_rd, ← State.rdB, (State.planStop_frame _).rdB_eq 3 (by decide)]
    exact State.raise_rdB _ _ (State.retained_device _ (by decide)) (by decide)
  · rw [heq]
    exact State.planStop_masterEnd_st _ (by rwa [State.seq_raise])
  · rw [heq, State.masterEnd_lane, State.planStop_lane, if_pos (by rwa [State.raise_plan])]
    rfl

/-! ### LANE_IDLE (R173) -/

/-- A lane that has gone idle. -/
def Lane.idled (l : Lane) : Lane := { l with live := false, queue := [], jump := if l.due = 0 then none else l.jump }

/-- The sequencer of a lane that has gone idle. -/
def Seq.idled (z : Seq) : Seq := { z with st := 0, holdWhy := .none }

theorem State.laneGoesIdle_eq {s : State} {c : Nat} (hl : (s.lane c).live = true) (he : (s.lane c).ended = true) (hf : (s.lane c).fill = 0)
    (hi : (s.lane c).issued % 64 = 0) (hz : (s.seq c).st ≠ 4) :
    s.laneGoesIdle c = ((s.wrB (cluOff c Reg.ddsStatus) 0 false).setLane c (s.lane c).idled).setSeq c (s.seq c).idled :=
  if_pos ⟨hl, he, hf, hi, hz⟩

theorem laneIdle_completes {s : State} {c : CluId} (hl : (s.lane c).live = true) (he : (s.lane c).ended = true) (hf : (s.lane c).fill = 0)
    (hi : (s.lane c).issued % 64 = 0) (hz : (s.seq c).st ≠ 4) :
    Completes (.laneIdle c) s [.one (.seq c), .one (.lane c), .one (.reg (cluOff c Reg.ddsStatus))] (fun t =>
      (t.lane c).live = false ∧ (t.lane c).queue = [] ∧ (t.seq c).st = 0 ∧ (t.seq c).holdWhy = .none ∧
      (t.lane c).due = (s.lane c).due ∧ (t.lane c).jump = (if (s.lane c).due = 0 then none else (s.lane c).jump)) := by
  have heq := State.laneGoesIdle_eq hl he hf hi hz
  have hlane : (s.laneGoesIdle c).lane c = (s.lane c).idled := by rw [heq, State.lane_setSeq, State.lane_setLane_same]
  have hseq : (s.laneGoesIdle c).seq c = (s.seq c).idled := by rw [heq, State.seq_setSeq_same]
  refine ⟨_, rfl, ⟨?_, ?_, ?_, ?_, ?_, ?_⟩, (execLaneIdle_changes c rfl (Allows.mem (by simp)) (Allows.mem (by simp)) (Allows.mem (by simp))).1⟩
  · rw [hlane]; rfl
  · rw [hlane]; rfl
  · rw [hseq]; rfl
  · rw [hseq]; rfl
  · rw [hlane]; rfl
  · rw [hlane]; rfl

/-! ### PLAN_END (R174, R284, R413) -/

/-- What a message shows of its order in the queues. -/
def Send.shown (m : Send) : Nat × Nat := (m.type, m.payload)

/-- The messages that are to be sent, in order. -/
def State.sends (s : State) : List Send := s.cwy.sendQ ++ s.cwy.sendWait

/-- A message goes behind all those that wait, and never makes the queue longer than 16 (R409). -/
theorem State.sendMsgQ_sends (s : State) (type payload : Nat) (ext : BitVec 64) :
    (s.sendMsgQ type payload ext).sends.map Send.shown = s.sends.map Send.shown ++ [(type, payload)] ∧
      (s.sendMsgQ type payload ext).cwy.sendQ.length ≤ max s.cwy.sendQ.length 16 := by
  cases h : s.sendRoom with
  | true =>
    have hroom := h
    simp only [State.sendRoom, Bool.and_eq_true, decide_eq_true_eq, List.isEmpty_iff] at hroom
    obtain ⟨hlt, hwait⟩ := hroom
    simp only [State.sendMsgQ, State.sends, h, if_true, hwait, List.append_nil, List.map_append, List.map_cons, List.map_nil, Send.shown,
      List.length_append, List.length_singleton]
    exact ⟨trivial, by omega⟩
  | false =>
    simp only [State.sendMsgQ, State.sends, h, Bool.false_eq_true, if_false, ← List.append_assoc, List.map_append, List.map_cons, List.map_nil,
      Send.shown]
    exact ⟨trivial, by omega⟩

theorem State.sendMsgQ_frame (s : State) (type payload : Nat) (ext : BitVec 64) : ChangesOnly [.one .cwy] s (s.sendMsgQ type payload ext) :=
  (State.sendMsgQ_changes type payload ext (Evolves.refl _ s) (Allows.mem List.mem_cons_self)).1

theorem State.sendSummary_eq (s : State) :
    s.sendSummary = ((s.sendMsgQ 9 s.plnNumber (BitVec.ofNat 64 (s.rd64 Reg.flSumFailLo))).sendMsgQ 9 (s.plnNumber + 1024)
      (BitVec.ofNat 64 (s.rd64 Reg.flSumUnrepLo))).sendMsgQ 9 (s.plnNumber + 2048) (BitVec.ofNat 64 (s.rd64 Reg.flSumIncLo)) := rfl

theorem State.sendSummary_sends (s : State) :
    s.sendSummary.sends.map Send.shown = s.sends.map Send.shown ++ [(9, s.plnNumber), (9, s.plnNumber + 1024), (9, s.plnNumber + 2048)] ∧
      s.sendSummary.cwy.sendQ.length ≤ max s.cwy.sendQ.length 16 := by
  rw [State.sendSummary_eq]
  obtain ⟨hm1, hl1⟩ := s.sendMsgQ_sends 9 s.plnNumber (BitVec.ofNat 64 (s.rd64 Reg.flSumFailLo))
  generalize s.sendMsgQ 9 s.plnNumber (BitVec.ofNat 64 (s.rd64 Reg.flSumFailLo)) = u at *
  obtain ⟨hm2, hl2⟩ := u.sendMsgQ_sends 9 (s.plnNumber + 1024) (BitVec.ofNat 64 (s.rd64 Reg.flSumUnrepLo))
  generalize u.sendMsgQ 9 (s.plnNumber + 1024) (BitVec.ofNat 64 (s.rd64 Reg.flSumUnrepLo)) = v at *
  obtain ⟨hm3, hl3⟩ := v.sendMsgQ_sends 9 (s.plnNumber + 2048) (BitVec.ofNat 64 (s.rd64 Reg.flSumIncLo))
  refine ⟨?_, by omega⟩
  rw [hm3, hm2, hm1]
  simp

theorem State.sendSummary_frame (s : State) : ChangesOnly [.one .cwy] s s.sendSummary :=
  ((s.sendMsgQ_frame _ _ _).trans (State.sendMsgQ_frame _ _ _ _)).trans (State.sendMsgQ_frame _ _ _ _)

theorem ofBits_lt {l : List Nat} {w : Nat} (h : ∀ i ∈ l, i < w) : ofBits l < 2 ^ w := by
  have hfold : ∀ a < 2 ^ w, l.foldl (fun a i => a ||| 2 ^ i) a < 2 ^ w := by
    induction l with
    | nil => exact fun _ ha => ha
    | cons _ l ih =>
      obtain ⟨hi, hl⟩ := List.forall_mem_cons.1 h
      exact fun a ha => ih hl _ (Nat.or_lt_two_pow ha (Nat.pow_lt_pow_right (by decide) hi))
  exact hfold 0 (Nat.two_pow_pos w)

theorem State.siteBits_lt (s : State) (f : Nat → Bool) : s.siteBits f < 2 ^ 64 :=
  ofBits_lt fun _ hi => List.mem_range.1 (List.mem_filter.1 hi).1

theorem State.rd64_wr64_same (s : State) (o x : Nat) : (s.wr64 o x).rd64 o = x % 2 ^ 64 := by
  unfold State.rd64 State.wr64
  rw [State.rd_wr_same, State.rd_wr_ne _ (by omega), State.rd_wr_same, BitVec.toNat_ofNat, BitVec.toNat_ofNat]
  omega

theorem State.rd64_wr64_ne (s : State) {o i : Nat} (x : Nat) (h : i + 4 < o ∨ o + 4 < i) : (s.wr64 o x).rd64 i = s.rd64 i := by
  unfold State.rd64 State.wr64
  rw [State.rd_wr_ne _ (by omega), State.rd_wr_ne _ (by omega), State.rd_wr_ne _ (by omega), State.rd_wr_ne _ (by omega)]

theorem ChangesOnly.rd64_eq {K : List Foot} {s t : State} (h : ChangesOnly K s t) {o : Nat} (h0 : ∀ k ∈ K, k.covers (.reg o) = false)
    (h4 : ∀ k ∈ K, k.covers (.reg (o + 4)) = false) : t.rd64 o = s.rd64 o := by
  rw [State.rd64, State.rd64, h.rd_eq h0, h.rd_eq h4]

/-- The summary of the sites stands in its registers. -/
theorem State.freezeSummary_rd (s : State) :
    s.freezeSummary.rd64 Reg.flSumFailLo = s.siteBits (fun k => decide (s.rd (Reg.flSiteFail + 16 * k) ≠ 0)) ∧
      s.freezeSummary.rd64 Reg.flSumUnrepLo = s.siteBits (fun k => s.rdB (Reg.flSiteStatus + 16 * k) 2) ∧
      s.freezeSummary.rd64 Reg.flSumIncLo = s.siteBits (fun k => s.rdB (Reg.flSiteStatus + 16 * k) 3) := by
  unfold State.freezeSummary
  refine ⟨?_, ?_, ?_⟩
  · rw [State.rd64_wr64_ne _ _ (by decide), State.rd64_wr64_ne _ _ (by decide), State.rd64_wr64_same, Nat.mod_eq_of_lt (s.siteBits_lt _)]
  · rw [State.rd64_wr64_ne _ _ (by decide), State.rd64_wr64_same, Nat.mod_eq_of_lt (s.siteBits_lt _)]
  · rw [State.rd64_wr64_same, Nat.mod_eq_of_lt (s.siteBits_lt _)]

/-- The sites' bits depend on the masks and the condition only. -/
theorem State.siteBits_congr {s t : State} {f g : Nat → Bool} (hm : t.siteMask = s.siteMask) (hf : ∀ k, f k = g k) :
    t.siteBits f = s.siteBits g := by
  unfold State.siteBits
  simp only [hm, hf]

theorem Plan.endStatus_lt (p : Plan) : p.endStatus < 16 := by
  unfold Plan.endStatus
  split_ifs <;> decide

/-- The plan is IDLE, with its end status shown. -/
def State.endShown (s : State) : State := (s.wrF Reg.plnResult 11 8 s.plan.endStatus).wrF Reg.plnState 19 17 0

theorem State.planEnd_eq {s : State} (h : s.planOver = true) :
    s.planEnd = s.endShown.freezeSummary.sendSummary.bgEnd 0x01 St.ok s.plan.endStatus := if_pos h

theorem State.endShown_rd (s : State) {o : Nat} (hr : o ≠ Reg.plnResult) (hs : o ≠ Reg.plnState) : s.endShown.rd o = s.rd o :=
  (State.rd_wrF_ne _ hs _ _ _).trans (State.rd_wrF_ne _ hr _ _ _)

theorem State.endShown_siteMask (s : State) : s.endShown.siteMask = s.siteMask := by
  unfold State.siteMask State.rd64
  rw [s.endShown_rd (by decide) (by decide), s.endShown_rd (by decide) (by decide), s.endShown_rd (by decide) (by decide),
    s.endShown_rd (by decide) (by decide)]

theorem State.endShown_site (s : State) (k : Nat) :
    s.endShown.rd (Reg.flSiteFail + 16 * k) = s.rd (Reg.flSiteFail + 16 * k) ∧
      s.endShown.rd (Reg.flSiteStatus + 16 * k) = s.rd (Reg.flSiteStatus + 16 * k) := by
  constructor <;> apply State.endShown_rd <;> simp only [Reg.flSiteFail, Reg.flSiteStatus, Reg.plnResult, Reg.plnState] <;> omega

/-- What the freeze and the messages of a plan's end can change. -/
def summaryFoot : List Foot := [.one .cwy, .pair Reg.flSumFailLo, .pair Reg.flSumUnrepLo, .pair Reg.flSumIncLo]

theorem State.summary_frame (s : State) : ChangesOnly summaryFoot s s.freezeSummary.sendSummary := by
  refine ChangesOnly.trans ?_ (s.freezeSummary.sendSummary_frame.subset (by simp [summaryFoot]))
  refine (State.wr64_changes _ _ (State.wr64_changes _ _ (State.wr64_changes _ _ (Evolves.refl _ s) ?_) ?_) ?_).1 <;> exact Allows.mem (by decide)

theorem State.endShown_frame (s : State) : ChangesOnly [.one (.reg Reg.plnState), .one (.reg Reg.plnResult)] s s.endShown := by
  refine (State.wrF_changes _ _ _ _ (State.wrF_changes _ _ _ _ (Evolves.refl _ s) ?_) ?_).1 <;> exact Allows.mem (by decide)

theorem planEnd_completes {s : State} (h : s.planOver = true) :
    Completes .planEnd s [.completion, .one .cwy, .one (.reg Reg.plnState), .one (.reg Reg.plnResult),
        .pair Reg.flSumFailLo, .pair Reg.flSumUnrepLo, .pair Reg.flSumIncLo] (fun t =>
      t.plnState = 0 ∧ t.rdF Reg.plnResult 11 8 = s.plan.endStatus ∧
      t.rd64 Reg.flSumFailLo = s.siteBits (fun k => decide (s.rd (Reg.flSiteFail + 16 * k) ≠ 0)) ∧
      t.rd64 Reg.flSumUnrepLo = s.siteBits (fun k => s.rdB (Reg.flSiteStatus + 16 * k) 2) ∧
      t.rd64 Reg.flSumIncLo = s.siteBits (fun k => s.rdB (Reg.flSiteStatus + 16 * k) 3) ∧
      BgEnded s t 0x01 St.ok s.plan.endStatus ∧ t.cwy.sendQ.length ≤ max s.cwy.sendQ.length 16 ∧
      (t.cwy.sendQ ++ t.cwy.sendWait).map (fun m => (m.type, m.payload)) = (s.cwy.sendQ ++ s.cwy.sendWait).map (fun m => (m.type, m.payload)) ++
        [(9, s.plnNumber), (9, s.plnNumber + 1024), (9, s.plnNumber + 2048)]) := by
  have hsum := s.endShown.summary_frame
  have hend := s.endShown.freezeSummary.sendSummary.bgEnd_frame 0x01 St.ok s.plan.endStatus
  have hboth : ChangesOnly (.completion :: summaryFoot) s.endShown s.planEnd := by
    rw [State.planEnd_eq h]
    exact (hsum.subset (by simp)).trans (hend.subset (by simp))
  have hsend : ChangesOnly [.completion, .one .cwy] s.endShown.freezeSummary s.planEnd := by
    rw [State.planEnd_eq h]
    exact (s.endShown.freezeSummary.sendSummary_frame.subset (by simp)).trans (hend.subset (by simp))
  obtain ⟨hfail, hunrep, hinc⟩ := s.endShown.freezeSummary_rd
  obtain ⟨hmsgs, hlen⟩ := s.endShown.freezeSummary.sendSummary_sends
  have hcwy : s.planEnd.cwy = s.endShown.freezeSummary.sendSummary.cwy := by
    rw [State.planEnd_eq h]
    exact hend .cwy (by decide)
  have hnum : s.endShown.freezeSummary.plnNumber = s.plnNumber := by
    have hz : s.endShown.freezeSummary.rd Reg.plnState = s.endShown.rd Reg.plnState :=
      (State.wr64_changes _ _ (State.wr64_changes _ _ (State.wr64_changes _ _ (Evolves.refl [.pair Reg.flSumFailLo, .pair Reg.flSumUnrepLo,
        .pair Reg.flSumIncLo] s.endShown) (Allows.mem (by decide))) (Allows.mem (by decide))) (Allows.mem (by decide))).1.rd_eq (by decide)
    rw [State.plnNumber, State.plnNumber, State.rdF, hz, ← State.rdF]
    exact (State.rdF_wrF_ne _ _ _ (by decide) (by decide) (by decide)).trans (State.rdF_wrF_off _ (by decide) _ _ _ _ _)
  obtain ⟨hbg, -⟩ := bgEnd_after 0x01 St.ok s.plan.endStatus ((s.endShown_frame.subset (L := [.one (.reg Reg.plnState), .one (.reg Reg.plnResult)]
    ++ summaryFoot) (by simp)).trans (hsum.subset (by simp))) (by decide) (by decide)
  refine ⟨_, rfl, ⟨?_, ?_, ?_, ?_, ?_, ?_, ?_, ?_⟩, ?_⟩
  · exact (hboth.rdF_eq 19 17 (by decide)).trans (State.rdF_wrF_same _ _ _ (by decide) (by decide))
  · refine (hboth.rdF_eq 11 8 (by decide)).trans ((State.rdF_wrF_off _ (by decide) _ _ _ _ _).trans ?_)
    rw [State.rdF_wrF_same _ _ _ (by decide) (by decide)]
    exact Nat.mod_eq_of_lt s.plan.endStatus_lt
  · rw [hsend.rd64_eq (by decide) (by decide), hfail]
    exact State.siteBits_congr s.endShown_siteMask fun k => by rw [(s.endShown_site k).1]
  · rw [hsend.rd64_eq (by decide) (by decide), hunrep]
    exact State.siteBits_congr s.endShown_siteMask fun k => by rw [State.rdB, (s.endShown_site k).2, ← State.rdB]
  · rw [hsend.rd64_eq (by decide) (by decide), hinc]
    exact State.siteBits_congr s.endShown_siteMask fun k => by rw [State.rdB, (s.endShown_site k).2, ← State.rdB]
  · rw [State.planEnd_eq h]
    exact hbg
  · rw [hcwy]
    exact hlen
  · rw [hcwy, ← hnum]
    exact hmsgs
  · refine (execPlanEnd_changes rfl ?_ ?_ ?_ ?_ ?_ ?_ ?_).1 <;> exact Allows.mem (by decide)

/-- Settles O33: each clause is the law of its command above. -/
theorem plansStartJumpStopAndEnd : Obligations.PlansStartJumpStopAndEnd :=
  ⟨fun _ _ _ => ⟨fun us hl => masterStart_completes us hl,
    fun h hb => ⟨stop_idle_completes h hb, stop_master_completes h hb, stop_lanes_completes h hb⟩, jump_completes⟩,
  fun _ => ⟨alignedStart_completes, alignedStartTimeout_completes, fun _ => laneIdle_completes, planEnd_completes⟩⟩

end Sys2Proof.Machine

/-! The start of a lane and the issue of vectors (R30, R124, R140, R167 to R171, R189 to R191, R196, R212, R442, R443). -/

namespace Sys2Proof.Machine

/-! ### LANE_START (R140, R171) -/

/-- A lane on which one start has fallen. -/
def Lane.startFallen (l : Lane) : Lane := { l with due := l.due - 1 }

theorem State.laneStart_starts {s : State} {c : Nat} (cycle : Nat) (hd : (s.lane c).due ≠ 0) (hq : (s.lane c).formQ = []) (hz : (s.seq c).st = 0)
    (hl : (s.lane c).live = false) (ha : (s.lane c).armed = false) :
    s.laneStart c cycle = (s.modLane c Lane.startFallen).startLane c cycle := by
  have hcan : (s.modLane c Lane.startFallen).canStart c = true := by
    rw [State.canStart, State.seq_modLane, State.lane_modLane_same, hz, Lane.startFallen, hl, ha]
    rfl
  calc s.laneStart c cycle = if (s.modLane c Lane.startFallen).canStart c then (s.modLane c Lane.startFallen).startLane c cycle
        else s.modLane c Lane.startFallen := if_pos ⟨hd, hq⟩
    _ = _ := if_pos hcan

theorem State.laneStart_ignored {s : State} {c : Nat} (cycle : Nat) (hd : (s.lane c).due ≠ 0) (hq : (s.lane c).formQ = [])
    (hbusy : (s.seq c).st ≠ 0 ∨ (s.lane c).live = true ∨ (s.lane c).armed = true) : s.laneStart c cycle = s.modLane c Lane.startFallen := by
  have hcan : ¬ (s.modLane c Lane.startFallen).canStart c = true := by
    rw [State.canStart, State.seq_modLane, State.lane_modLane_same, Lane.startFallen]
    rcases hbusy with h | h | h <;> simp [h]
  calc s.laneStart c cycle = if (s.modLane c Lane.startFallen).canStart c then (s.modLane c Lane.startFallen).startLane c cycle
        else s.modLane c Lane.startFallen := if_pos ⟨hd, hq⟩
    _ = _ := if_neg hcan

theorem laneStart_completes {s : State} {c : CluId} (cycle : Nat) (hd : (s.lane c).due ≠ 0) (hq : (s.lane c).formQ = []) (hz : (s.seq c).st = 0)
    (hl : (s.lane c).live = false) (ha : (s.lane c).armed = false) :
    Completes (.laneStart c cycle) s [.one (.lane c), .one (.seq c), .one (.clu c), .chans, .chReg Reg.tgQueue, .chReg Reg.flChFail,
        .chReg Reg.tgScrActLo, .chReg Reg.tgScrActHi, .chReg Reg.tgScrStgLo, .chReg Reg.tgScrStgHi,
        .one (.reg (cluOff c Reg.ddsStatus)), .one (.reg (cluOff c Reg.plnGapCnt)), .one (.reg (cluOff c Reg.plnGapFirstLo)),
        .one (.reg (cluOff c Reg.plnGapFirstHi)), .one (.reg (cluOff c Reg.plnGapLenLo)), .one (.reg (cluOff c Reg.plnGapLenHi)),
        .one (.reg (cluOff c Reg.flRecWr)), .one (.reg (cluOff c Reg.flRecLost)), .one (.reg (cluOff c Reg.flQueue)),
        .one (.reg (cluOff c Reg.ddsMarkCnt)), .one (.reg (cluOff c Reg.ddsGranLo)), .one (.reg (cluOff c Reg.ddsGranHi))] (fun t =>
      (t.lane c).live = true ∧ (t.lane c).due = (s.lane c).due - 1 ∧ (t.lane c).jump = (s.lane c).jump ∧ (t.lane c).was = none ∧
      (t.lane c).ended = false ∧ (t.lane c).issued = 0 ∧ (t.lane c).queue = [] ∧
      (t.lane c).place = { seg := (s.lane c).entrySeg, plays := 0, g := 0 } ∧ (t.lane c).pad = cycle + 1536 ∧
      (t.seq c).st = 1 ∧ (t.seq c).pos = .runner ∧ (t.seq c).gen = genReset ∧ (t.seq c).flags = 0 ∧ (t.seq c).stack = [] ∧
      (t.seq c).store = (s.seq c).store ∧
      t.rd (cluOff c Reg.flRecWr) = 0 ∧ t.rd (cluOff c Reg.plnGapCnt) = 0 ∧
      (∀ n : ChId, n.val / 16 = c.val → t.rd (chOff n Reg.tgScrActLo) = 0x22222222 ∧ t.rd (chOff n Reg.flChFail) = 0) ∧
      (∀ n : ChId, n.val / 16 ≠ c.val → t.chan n = s.chan n ∧ t.rd (chOff n Reg.flChFail) = s.rd (chOff n Reg.flChFail))) := by
  have heq := State.laneStart_starts cycle hd hq hz hl ha
  have hlane : (s.laneStart c cycle).lane c = (s.modLane c Lane.startFallen).restarted c cycle := by rw [heq, State.startLane_lane]
  have hfall : (s.modLane c Lane.startFallen).lane c = (s.lane c).startFallen := State.lane_modLane_same _ _ _
  rw [State.restarted, hfall] at hlane
  have hseq : (s.laneStart c cycle).seq c = (s.seq c).laneStarted := by rw [heq, State.startLane_seq, State.seq_modLane]
  refine ⟨s.laneStart c cycle, rfl, ⟨by rw [hlane]; rfl, by rw [hlane]; rfl, by rw [hlane]; rfl, by rw [hlane]; rfl, by rw [hlane]; rfl,
    by rw [hlane]; rfl, by rw [hlane]; rfl, by rw [hlane]; rfl, by rw [hlane], by rw [hseq]; rfl, by rw [hseq]; rfl, by rw [hseq]; rfl,
    by rw [hseq]; rfl, by rw [hseq]; rfl, by rw [hseq]; rfl, ?_, ?_, fun n hn => ?_, fun n hn => ?_⟩, ?_⟩
  · rw [heq, State.startLane_rd]
    exact State.laneCleared_rd _ c (by simp [laneStartRegs]) (by decide)
  · rw [heq, State.startLane_rd]
    exact State.laneCleared_rd _ c (by simp [laneStartRegs]) (by decide)
  · rw [heq, State.startLane_rd, State.startLane_rd]
    exact ((s.modLane c Lane.startFallen).laneCleared_at c n).1 hn
  · rw [heq, State.startLane_rd, State.startLane_chan]
    exact ((s.modLane c Lane.startFallen).laneCleared_at c n).2 hn
  · refine (execLaneStart_changes c cycle rfl ?_ ?_ ?_ ?_ ?_ ?_ ?_ ?_ ?_ ?_ ?_ ?_ ?_ ?_ ?_ ?_ ?_ ?_ ?_ ?_ ?_ ?_).1 <;> exact Allows.mem (by simp)

theorem laneStart_ignored_completes {s : State} {c : CluId} (cycle : Nat) (hd : (s.lane c).due ≠ 0) (hq : (s.lane c).formQ = [])
    (hbusy : (s.seq c).st ≠ 0 ∨ (s.lane c).live = true ∨ (s.lane c).armed = true) :
    Completes (.laneStart c cycle) s [.one (.lane c)] (fun t => t.lane c = { s.lane c with due := (s.lane c).due - 1 }) :=
  ⟨_, congrArg Host.Outcome.next (State.laneStart_ignored cycle hd hq hbusy), State.lane_modLane_same _ _ _,
    (State.modLane_changes c _ (Evolves.refl _ s) (Allows.mem List.mem_cons_self)).1⟩

theorem laneStart_none_completes {s : State} {c : CluId} (cycle : Nat) (hd : (s.lane c).due = 0) :
    Completes (.laneStart c cycle) s [] (fun _ => True) :=
  ⟨s, congrArg Host.Outcome.next (if_neg fun h => h.1 hd), trivial, ChangesOnly.refl [] s⟩

/-! ### The lane word (R30) -/

theorem laneWord_toNat (v : Vec) (m : Marks) :
    (laneWord v m).toNat = v.codes.toNat + 2 ^ 32 * (v.map % 65536) + 2 ^ 48 * (v.tset % 64) + 2 ^ 54 * b2n m.ldstb + 2 ^ 55 * b2n m.scrld +
      2 ^ 56 * (m.src % 4) := by
  have hcodes := v.codes.isLt
  have hb : ∀ b, b2n b ≤ 1 := by decide
  have hl := hb m.ldstb
  have hs := hb m.scrld
  rw [laneWord, BitVec.toNat_ofNat]
  omega

/-- The fields of a lane word. -/
theorem laneWord_fields (v : Vec) (m : Marks) :
    laneFld (laneWord v m) 31 0 = v.codes.toNat ∧ laneFld (laneWord v m) 47 32 = v.map % 65536 ∧ laneFld (laneWord v m) 53 48 = v.tset % 64 ∧
      laneFld (laneWord v m) 54 54 = b2n m.ldstb ∧ laneFld (laneWord v m) 55 55 = b2n m.scrld ∧ laneFld (laneWord v m) 57 56 = m.src % 4 ∧
      laneFld (laneWord v m) 63 58 = 0 := by
  have hcodes := v.codes.isLt
  have hb : ∀ b, b2n b ≤ 1 := by decide
  have hl := hb m.ldstb
  have hs := hb m.scrld
  simp only [laneFld, laneWord_toNat, Nat.shiftRight_eq_div_pow]
  refine ⟨?_, ?_, ?_, ?_, ?_, ?_, ?_⟩ <;> omega

/-- The code of channel `k` in a lane word. -/
theorem laneWord_code (v : Vec) (m : Marks) {k : Nat} (hk : k < 16) : laneFld (laneWord v m) (2 * k + 1) (2 * k) = codeOf v.codes k := by
  have hdvd : 2 ^ (2 * k) * 4 ∣ 2 ^ 32 := by
    rw [show (4 : Nat) = 2 ^ 2 from rfl, ← Nat.pow_add]
    exact Nat.pow_dvd_pow 2 (by omega)
  have hword : ∃ r, (laneWord v m).toNat = v.codes.toNat + 2 ^ 32 * r :=
    ⟨v.map % 65536 + 2 ^ 16 * (v.tset % 64) + 2 ^ 22 * b2n m.ldstb + 2 ^ 23 * b2n m.scrld + 2 ^ 24 * (m.src % 4), by
      rw [laneWord_toNat]; omega⟩
  obtain ⟨r, hr⟩ := hword
  rw [laneFld, codeOf, show 2 * k + 1 + 1 - 2 * k = 2 by omega, Nat.shiftRight_eq_div_pow, Nat.shiftRight_eq_div_pow,
    show (2 : Nat) ^ 2 = 4 from rfl, ← Nat.mod_mul_right_div_self, ← Nat.mod_mul_right_div_self, hr,
    Nat.add_mod, Nat.mod_eq_zero_of_dvd (hdvd.mul_right r), Nat.add_zero, Nat.mod_mod]

theorem mapPin_mod (map : Nat) {v : Nat} (hv : v < 4) : mapPin (map % 65536) v = mapPin map v := by
  have hdvd : 2 ^ (4 * v) * 16 ∣ 65536 := by
    rw [show (16 : Nat) = 2 ^ 4 from rfl, ← Nat.pow_add, show (65536 : Nat) = 2 ^ 16 from rfl]
    exact Nat.pow_dvd_pow 2 (by omega)
  rw [mapPin, mapPin, Nat.shiftRight_eq_div_pow, Nat.shiftRight_eq_div_pow, ← Nat.mod_mul_right_div_self, ← Nat.mod_mul_right_div_self,
    Nat.mod_mod_of_dvd _ hdvd]

theorem codeOf_lt (w : W32) (k : Nat) : codeOf w k < 4 := Nat.mod_lt _ (by decide)

/-- A pin state that is neither HOLD nor SCR is the one that the map gives (R169, R215). -/
theorem State.expandPin_plain (s : State) (c : Nat) (v : Vec) (m : Marks) (prev : List Nat) {k : Nat} (hk : k < 16)
    (hA : mapPin v.map (codeOf v.codes k) ≠ 0xA) (hC : mapPin v.map (codeOf v.codes k) ≠ 0xC) :
    (s.expandPin c (laneWord v m) prev k).1 = mapPin v.map (codeOf v.codes k) := by
  have hpin : mapPin (laneFld (laneWord v m) 47 32) (laneFld (laneWord v m) (2 * k + 1) (2 * k)) = mapPin v.map (codeOf v.codes k) := by
    obtain ⟨-, hmap, -⟩ := laneWord_fields v m
    rw [hmap, laneWord_code v m hk, mapPin_mod _ (codeOf_lt _ _)]
  simp only [State.expandPin, hpin, if_neg hA, if_neg hC]

/-! ### Markers (R124, R212) -/

/-- A word without a marker has no effect at its boundary. -/
theorem State.applyMarker_none (s : State) (c : Nat) (v : Vec) (start : Nat) : s.applyMarker c (laneWord v noMarks) start = s := by
  obtain ⟨-, -, -, hl, hs, hsrc, -⟩ := laneWord_fields v noMarks
  have hl' : laneFld (laneWord v noMarks) 54 54 = 0 := hl
  have hs' : laneFld (laneWord v noMarks) 55 55 = 0 := hs
  have hsrc' : laneFld (laneWord v noMarks) 57 56 = 0 := hsrc
  unfold State.applyMarker
  simp [hl', hs', hsrc']

/-- What a change of source can change. -/
def sourceFoot : List Foot := [.chPair Reg.tgCkmPeriodHi, .chReg Reg.peStatus, .chans]

/-- The sources that a marker selects. -/
def State.sourcesSelected (s : State) (c src start : Nat) : State :=
  (bitList 16 (s.rdF (cluOff c Reg.seqSrcMask) 15 0)).foldl (fun t k => t.selectSource (16 * c + k) (src - 1) (some start)) s

theorem State.sourcesSelected_frame (s : State) (c src start : Nat) : ChangesOnly sourceFoot s (s.sourcesSelected c src start) := by
  refine (Evolves.foldl (fun t k h => State.selectSource_changes _ _ _ h ?_ ?_ ?_) (Evolves.refl _ s)).1
  · exact (Allows.mem (k := .chPair Reg.tgCkmPeriodHi) (by simp [sourceFoot])).pairCh (by decide)
  · exact (Allows.mem (k := .chReg Reg.peStatus) (by simp [sourceFoot])).ofCh (by decide)
  · exact (Allows.mem (k := .chans) (by simp [sourceFoot])).chanOf

theorem State.scrCommit_frame (s : State) (c : Nat) : ChangesOnly [.chReg Reg.tgScrActHi, .chReg Reg.tgScrActLo] s (s.scrCommit c) :=
  (State.scrCommit_changes c (Evolves.refl _ s) (Allows.mem (by simp)) (Allows.mem (by simp))).1

/-- SCRLD gives each channel of the lane its staged response table (R212). -/
theorem State.scrCommit_rd (s : State) {c n : Nat} (h : n / 16 = c) :
    (s.scrCommit c).rd (chOff n Reg.tgScrActLo) = s.rd (chOff n Reg.tgScrStgLo) ∧
      (s.scrCommit c).rd (chOff n Reg.tgScrActHi) = s.rd (chOff n Reg.tgScrStgHi) := by
  have hne : ∀ {a b : Nat}, a ≠ b → chOff n a ≠ chOff n b := fun h => (chOff_inj n).not.2 h
  have hstep : ∀ (t : State) m, m ≠ n → Keeps [.reg (chOff n Reg.tgScrActLo), .reg (chOff n Reg.tgScrActHi), .reg (chOff n Reg.tgScrStgLo),
      .reg (chOff n Reg.tgScrStgHi)] t ((t.wr (chOff m Reg.tgScrActLo) (t.rd (chOff m Reg.tgScrStgLo))).wr (chOff m Reg.tgScrActHi)
        (t.rd (chOff m Reg.tgScrStgHi))) := by
    intro t m hm p hp
    have hrd : ∀ r, r < 0x1000 → ((t.wr (chOff m Reg.tgScrActLo) (t.rd (chOff m Reg.tgScrStgLo))).wr (chOff m Reg.tgScrActHi)
        (t.rd (chOff m Reg.tgScrStgHi))).rd (chOff n r) = t.rd (chOff n r) := fun r hr => by
      rw [State.rd_wr_ne _ (chOff_ne hm.symm hr (by decide)), State.rd_wr_ne _ (chOff_ne hm.symm hr (by decide))]
    simp only [List.mem_cons, List.not_mem_nil, or_false] at hp
    rcases hp with rfl | rfl | rfl | rfl
    · exact hrd Reg.tgScrActLo (by decide)
    · exact hrd Reg.tgScrActHi (by decide)
    · exact hrd Reg.tgScrStgLo (by decide)
    · exact hrd Reg.tgScrStgHi (by decide)
  obtain ⟨x, hx, hxt⟩ := (foldl_at hstep (nodup_chansOf c) s).2 (mem_chansOf_iff.2 h)
  have hlo : (s.scrCommit c).rd (chOff n Reg.tgScrActLo) = _ := hxt (.reg _) (by simp)
  have hhi : (s.scrCommit c).rd (chOff n Reg.tgScrActHi) = _ := hxt (.reg _) (by simp)
  have hslo : x.rd (chOff n Reg.tgScrStgLo) = s.rd (chOff n Reg.tgScrStgLo) := hx (.reg _) (by simp)
  have hshi : x.rd (chOff n Reg.tgScrStgHi) = s.rd (chOff n Reg.tgScrStgHi) := hx (.reg _) (by simp)
  rw [hlo, hhi, State.rd_wr_ne _ (hne (by decide)), State.rd_wr_same, State.rd_wr_same]
  exact ⟨hslo, hshi⟩

/-- The response tables at a vector boundary. -/
def State.tablesTaken (s : State) (c : Nat) (w : BitVec 64) : State := if laneFld w 55 55 = 1 then s.scrCommit c else s

/-- The sources at a vector boundary. -/
def State.sourcesTaken (s : State) (c : Nat) (w : BitVec 64) (start : Nat) : State :=
  if laneFld w 57 56 = 0 then s else s.sourcesSelected c (laneFld w 57 56) start

theorem State.applyMarker_eq (s : State) (c : Nat) (w : BitVec 64) (start : Nat) :
    s.applyMarker c w start = (if laneFld w 54 54 = 1 then ((s.tablesTaken c w).sourcesTaken c w start).modLane c (fun l => { l with ldstb := true })
      else (s.tablesTaken c w).sourcesTaken c w start) := rfl

theorem State.tablesTaken_frame (s : State) (c : Nat) (w : BitVec 64) :
    ChangesOnly [.chReg Reg.tgScrActHi, .chReg Reg.tgScrActLo] s (s.tablesTaken c w) := by
  unfold State.tablesTaken
  split
  · exact s.scrCommit_frame c
  · exact ChangesOnly.refl _ s

theorem State.sourcesTaken_frame (s : State) (c : Nat) (w : BitVec 64) (start : Nat) : ChangesOnly sourceFoot s (s.sourcesTaken c w start) := by
  unfold State.sourcesTaken
  split
  · exact ChangesOnly.refl _ s
  · exact s.sourcesSelected_frame c _ start

/-- What markers change besides the response tables. -/
theorem State.applyMarker_tables (s : State) (c : Nat) (w : BitVec 64) (start : Nat) :
    ChangesOnly (.one (.lane c) :: sourceFoot) (s.tablesTaken c w) (s.applyMarker c w start) := by
  have hsrc : ChangesOnly (.one (.lane c) :: sourceFoot) (s.tablesTaken c w) ((s.tablesTaken c w).sourcesTaken c w start) :=
    ((s.tablesTaken c w).sourcesTaken_frame c w start).subset (by simp)
  rw [s.applyMarker_eq]
  split
  · exact hsrc.trans (State.modLane_changes c _ (Evolves.refl _ _) (Allows.mem List.mem_cons_self)).1
  · exact hsrc

/-- What markers can change. -/
def markerFoot (c : Nat) : List Foot := [.one (.lane c), .chReg Reg.tgScrActLo, .chReg Reg.tgScrActHi, .chReg Reg.peStatus,
  .chPair Reg.tgCkmPeriodHi, .chans]

theorem State.applyMarker_frame (s : State) (c : Nat) (w : BitVec 64) (start : Nat) : ChangesOnly (markerFoot c) s (s.applyMarker c w start) :=
  ((s.tablesTaken_frame c w).subset (by simp [markerFoot])).trans ((s.applyMarker_tables c w start).subset (by simp [markerFoot, sourceFoot]))

theorem State.applyMarker_lane (s : State) (c : Nat) (w : BitVec 64) (start : Nat) :
    (s.applyMarker c w start).lane c = (if laneFld w 54 54 = 1 then { s.lane c with ldstb := true } else s.lane c) := by
  have hlane : ((s.tablesTaken c w).sourcesTaken c w start).lane c = s.lane c :=
    (((s.tablesTaken c w).sourcesTaken_frame c w start).lane_eq (by simp [sourceFoot, Foot.covers])).trans
      ((s.tablesTaken_frame c w).lane_eq (by simp [Foot.covers]))
  rw [s.applyMarker_eq]
  split
  · rw [State.lane_modLane_same, hlane]
  · exact hlane

/-! ### The gap account (R190) -/

@[simp] theorem State.rd_putPlan (s : State) (v : Plan) (o : Nat) : (s.putPlan v).rd o = s.rd o := rfl

@[simp] theorem State.lane_putPlan (s : State) (v : Plan) (c : Nat) : (s.putPlan v).lane c = s.lane c := rfl

/-- A lane that is in a gap or not. -/
def Lane.setGap (l : Lane) (g : Bool) : Lane := { l with inGap := g }

theorem State.gapAccount_full {s : State} (c : Nat) {v : Vec} (h : v.gap = false) :
    s.gapAccount c v = s.modLane c (fun k => k.setGap v.gap) := if_pos (by simp [h])

/-- The first gap of a lane's part is noted. -/
def State.gapFirst (s : State) (c issued : Nat) : State :=
  if (s.rd (cluOff c Reg.plnGapCnt)).toNat = 0 then s.wr64 (cluOff c Reg.plnGapFirstLo) (issued % 2 ^ 48) else s

/-- The plan has had a gap. -/
def State.gapped (s : State) : State := s.putPlan { s.plan with gapped := true }

/-- The account of a new gap before its vectors are counted. -/
def State.gapNoted (s : State) (c issued seg : Nat) : State :=
  (((s.gapFirst c issued).count (cluOff c Reg.plnGapCnt) 1).underrunMark c seg).gapped

theorem State.gapFirst_frame (s : State) (c issued : Nat) : ChangesOnly [.pair (cluOff c Reg.plnGapFirstLo)] s (s.gapFirst c issued) := by
  unfold State.gapFirst
  split
  · exact (State.wr64_changes _ _ (Evolves.refl _ s) (Allows.mem List.mem_cons_self)).1
  · exact ChangesOnly.refl _ s

/-- A vector of a gap is counted. -/
def State.gapCounted (s : State) (c : Nat) : State :=
  s.wr64 (cluOff c Reg.plnGapLenLo) ((s.rd64 (cluOff c Reg.plnGapLenLo) + 1) % 2 ^ 48)

/-- The start of a gap is noted, and nothing more inside one. -/
def State.gapEntered (s : State) (c : Nat) (v : Vec) : State :=
  if (s.lane c).inGap then s.modLane c (fun k => k.setGap v.gap)
  else (s.modLane c (fun k => k.setGap v.gap)).gapNoted c (s.lane c).issued v.seg

theorem State.gapAccount_gap {s : State} (c : Nat) {v : Vec} (h : v.gap = true) : s.gapAccount c v = (s.gapEntered c v).gapCounted c :=
  if_neg (by simp [h])

theorem State.gapAccount_frame (s : State) (c : CluId) (v : Vec) :
    ChangesOnly (.one (.lane c) :: if v.gap then gapFoot c else []) s (s.gapAccount c v) := by
  cases h : v.gap with
  | false =>
    rw [State.gapAccount_full c h]
    exact (State.modLane_changes c _ (Evolves.refl _ s) (Allows.mem List.mem_cons_self)).1
  | true => refine (State.gapAccount_changes c v (Evolves.refl _ s) ?_ ?_ ?_ ?_ ?_ ?_ ?_).1 <;> exact Allows.mem (by simp [gapFoot])

theorem State.gapNoted_frame (s : State) (c issued seg : Nat) :
    ChangesOnly [.one .plan, .one (.reg (cluOff c Reg.plnGapCnt)), .pair (cluOff c Reg.plnGapFirstLo), .pair (cluOff c Reg.plnFlags), .events] s
      (s.gapNoted c issued seg) := by
  refine ((s.gapFirst_frame c issued).subset (by simp)).trans
    (State.putPlan_changes _ (State.underrunMark_changes c seg (State.count_changes _ _ (Evolves.refl _ _) ?_) ?_ ?_) ?_).1 <;>
    exact Allows.mem (by simp)

theorem cluOff_add (c a b : Nat) : cluOff c a + b = cluOff c (a + b) := Nat.add_assoc _ _ _

theorem events_covers_cluOff (c a : Nat) : Foot.covers .events (.reg (cluOff c a)) = false := events_covers_cluster (le_cluOff c a)

theorem one_covers_cluOff (c a b : Nat) : Foot.covers (.one (.reg (cluOff c a))) (.reg (cluOff c b)) = decide (a = b) := by
  simp [Foot.covers, cluOff_inj]

theorem pair_covers_cluOff (c a b : Nat) : Foot.covers (.pair (cluOff c a)) (.reg (cluOff c b)) = (b == a || b == a + 4) := by
  have h : ∀ x y, (cluOff c x == cluOff c y) = (x == y) := fun x y => by rw [Bool.eq_iff_iff, beq_iff_eq, beq_iff_eq, cluOff_inj]
  simp only [Foot.covers, cluOff_add, h]

theorem memRetState_ne_cluOff (c a : Nat) : Reg.memRetState ≠ cluOff c a := by
  have := le_cluOff c a
  simp only [Reg.memRetState]
  omega

theorem State.gapEntered_lane (s : State) (c : Nat) (v : Vec) : (s.gapEntered c v).lane c = (s.lane c).setGap v.gap := by
  have hmod : (s.modLane c (fun k => k.setGap v.gap)).lane c = (s.lane c).setGap v.gap := State.lane_modLane_same _ _ _
  unfold State.gapEntered
  split
  · exact hmod
  · exact ((State.gapNoted_frame _ c _ _).lane_eq (by simp [Foot.covers])).trans hmod

theorem State.gapAccount_lane (s : State) (c : Nat) (v : Vec) : (s.gapAccount c v).lane c = (s.lane c).setGap v.gap := by
  cases h : v.gap with
  | false => rw [State.gapAccount_full c h, State.lane_modLane_same, h]
  | true => rw [State.gapAccount_gap c h, State.gapCounted, State.wr64, State.lane_wr, State.lane_wr, s.gapEntered_lane, h]

/-- The underrun at the start of a gap: its flag, and the registers of the gap. -/
theorem State.underrunMark_rd (s : State) (c seg : Nat) :
    (s.retained (cluOff c Reg.plnFlags) = false → (s.underrunMark c seg).rdB (cluOff c Reg.plnFlags) 0 = true) ∧
      ∀ a, a ≠ Reg.plnFlags → a ≠ Reg.plnFlags + 4 → (s.underrunMark c seg).rd (cluOff c a) = s.rd (cluOff c a) := by
  unfold State.underrunMark
  refine ⟨fun hr => ?_, fun a h0 h4 => ?_⟩
  · rw [State.rdB, State.post_rd _ _ _ _ (events_covers_cluOff c _)]
    exact s.raise_rdB _ hr (by decide)
  · rw [State.post_rd _ _ _ _ (events_covers_cluOff c _)]
    exact s.raise_rd_ne ((cluOff_inj c).not.2 h0) (by rw [cluOff_add]; exact (cluOff_inj c).not.2 h4)

/-- The start of a gap is flagged and counted (R190). -/
theorem State.gapNoted_facts (s : State) (c issued seg : Nat) :
    (s.gapNoted c issued seg).plan.gapped = true ∧
      (s.retained (cluOff c Reg.plnFlags) = false → (s.gapNoted c issued seg).rdB (cluOff c Reg.plnFlags) 0 = true) ∧
      ((s.gapNoted c issued seg).rd (cluOff c Reg.plnGapCnt)).toNat = min ((s.rd (cluOff c Reg.plnGapCnt)).toNat + 1) 0xFFFFFFFF := by
  have hfirst := s.gapFirst_frame c issued
  have hrd : ∀ o, (s.gapNoted c issued seg).rd o = (((s.gapFirst c issued).count (cluOff c Reg.plnGapCnt) 1).underrunMark c seg).rd o :=
    fun o => State.rd_putPlan _ _ o
  obtain ⟨hflag, hregs⟩ := ((s.gapFirst c issued).count (cluOff c Reg.plnGapCnt) 1).underrunMark_rd c seg
  have hcnt : (s.gapFirst c issued).rd (cluOff c Reg.plnGapCnt) = s.rd (cluOff c Reg.plnGapCnt) :=
    hfirst.rd_eq (by simp +decide [pair_covers_cluOff])
  have hret : ((s.gapFirst c issued).count (cluOff c Reg.plnGapCnt) 1).rd Reg.memRetState = s.rd Reg.memRetState :=
    (State.rd_wr_ne _ (memRetState_ne_cluOff c _) _).trans (hfirst.rd_eq (by simp [Foot.covers, cluOff_add, memRetState_ne_cluOff]))
  refine ⟨rfl, fun hr => ?_, ?_⟩
  · rw [State.rdB, hrd]
    exact hflag ((State.retained_congr fun _ => hret).trans hr)
  · rw [hrd, hregs _ (by decide) (by decide), State.count, State.rd_wr_same, hcnt, satAdd, BitVec.toNat_ofNat]
    omega

theorem State.gapCounted_rd (s : State) (c : Nat) :
    (s.gapCounted c).rd64 (cluOff c Reg.plnGapLenLo) = (s.rd64 (cluOff c Reg.plnGapLenLo) + 1) % 2 ^ 48 ∧
      ∀ a, a ≠ Reg.plnGapLenLo → a ≠ Reg.plnGapLenLo + 4 → (s.gapCounted c).rd (cluOff c a) = s.rd (cluOff c a) := by
  unfold State.gapCounted
  refine ⟨?_, fun a h0 h4 => ?_⟩
  · rw [State.rd64_wr64_same]
    omega
  · rw [State.wr64, State.rd_wr_ne _ (by rw [cluOff_add]; exact (cluOff_inj c).not.2 h4), State.rd_wr_ne _ ((cluOff_inj c).not.2 h0)]

theorem State.gapEntered_len (s : State) (c : Nat) (v : Vec) :
    (s.gapEntered c v).rd64 (cluOff c Reg.plnGapLenLo) = s.rd64 (cluOff c Reg.plnGapLenLo) := by
  unfold State.gapEntered
  split
  · rfl
  · refine ((s.modLane c _).gapNoted_frame c _ _).rd64_eq ?_ ?_
    · simp +decide only [List.forall_mem_cons, one_covers_cluOff, pair_covers_cluOff, events_covers_cluOff]
      simp [Foot.covers]
    · simp +decide only [List.forall_mem_cons, cluOff_add, one_covers_cluOff, pair_covers_cluOff, events_covers_cluOff]
      simp [Foot.covers]

/-- The gap account of a vector of a gap. -/
theorem State.gapAccount_facts (s : State) (c : Nat) {v : Vec} (h : v.gap = true) :
    (s.gapAccount c v).rd64 (cluOff c Reg.plnGapLenLo) = (s.rd64 (cluOff c Reg.plnGapLenLo) + 1) % 2 ^ 48 ∧
      ((s.lane c).inGap = false → (s.gapAccount c v).plan.gapped = true ∧
        (s.retained (cluOff c Reg.plnFlags) = false → (s.gapAccount c v).rdB (cluOff c Reg.plnFlags) 0 = true) ∧
        ((s.gapAccount c v).rd (cluOff c Reg.plnGapCnt)).toNat = min ((s.rd (cluOff c Reg.plnGapCnt)).toNat + 1) 0xFFFFFFFF) := by
  obtain ⟨hlen, hrd⟩ := (s.gapEntered c v).gapCounted_rd c
  rw [State.gapAccount_gap c h]
  refine ⟨by rw [hlen, s.gapEntered_len], fun hg => ?_⟩
  obtain ⟨hplan, hflag, hcnt⟩ := (s.modLane c (fun k => k.setGap v.gap)).gapNoted_facts c (s.lane c).issued v.seg
  have hent : s.gapEntered c v = (s.modLane c (fun k => k.setGap v.gap)).gapNoted c (s.lane c).issued v.seg := if_neg (by simp [hg])
  rw [State.rdB, hrd _ (by decide) (by decide), hrd _ (by decide) (by decide), hent]
  exact ⟨hplan, hflag, hcnt⟩

end Sys2Proof.Machine

/-! VECTOR_ISSUE (R30, R123, R124, R167 to R169, R173, R189, R190, R196, R442, R443). -/

namespace Sys2Proof.Machine

/-! ### The issue of one vector -/

/-- The expansion of a lane word to the pins. -/
def State.expanded (s : State) (c : Nat) (w : BitVec 64) : List (Nat × Bool) :=
  (List.range 16).map (s.expandPin c w (s.lane c).prevPins)

theorem State.expanded_getD (s : State) (c : Nat) (w : BitVec 64) {k : Nat} (hk : k < 16) :
    ((s.expanded c w).map (fun e => e.1)).getD k 2 = (s.expandPin c w (s.lane c).prevPins k).1 := by
  simp [State.expanded, List.getD, hk]

/-- The flags of the pins that could not answer. -/
def State.pinsFlagged (s : State) (c : Nat) (ex : List (Nat × Bool)) : State :=
  (List.range 16).foldl (fun t k => t.raiseIf ((ex.getD k (2, false)).2) (chOff (16 * c + k) Reg.tgFlags) 2) s

/-- The window monitors and the DDS status at a vector start. -/
def State.monitorsCleared (s : State) (c : Nat) : State := ((chansOf c).foldl State.wmonClear s).wrB (cluOff c Reg.ddsStatus) 0 false

/-- What a vector's issue can change besides its lane and the gap account. -/
def issueFoot (c : Nat) : List Foot := [.one (.reg (cluOff c Reg.ddsStatus)), .chReg Reg.peWmon, .chReg Reg.pmuWmon, .chPair Reg.tgFlags]

/-- The registers of a vector's issue. -/
def State.issueMarked (s : State) (c : Nat) (w : BitVec 64) : State := (s.pinsFlagged c (s.expanded c w)).monitorsCleared c

theorem State.issueMarked_frame (s : State) (c : Nat) (w : BitVec 64) : ChangesOnly (issueFoot c) s (s.issueMarked c w) := by
  refine (State.wrB_changes _ _ _ (Evolves.foldl (fun t n h => State.wmonClear_changes n h ?_ ?_)
    (Evolves.foldl (fun t k h => State.raiseIf_changes _ _ _ h ?_) (Evolves.refl _ s))) ?_).1
  · exact (Allows.mem (k := .chReg Reg.peWmon) (by simp [issueFoot])).ofCh (by decide)
  · exact (Allows.mem (k := .chReg Reg.pmuWmon) (by simp [issueFoot])).ofCh (by decide)
  · exact (Allows.mem (k := .chPair Reg.tgFlags) (by simp [issueFoot])).pairCh (by decide)
  · exact Allows.mem (by simp [issueFoot])

/-- The vector as the pins, the placement and the judgement see it: `a` after the markers, `b` after the gap account. -/
def issVecOf (a b : State) (c : Nat) (v : Vec) (w : BitVec 64) : IssVec :=
  { no := (b.lane c).issued, word := w, t := (b.lane c).t, tset := v.tset, seg := (b.lane c).place.seg, play := (b.lane c).place.plays,
    pins := (b.expanded c w).map (fun e => e.1), gen := v.gen, masked := a.siteMask,
    tables := if ((b.expanded c w).map (fun e => e.1)).contains 0xC then (chansOf c).map b.actTable else [],
    prev := if ((b.expanded c w).map (fun e => e.1)).contains 0xC then (b.lane c).prevPins else [], pad := (b.lane c).pad }

/-- The results that the strobes of a vector's match channels will bring. -/
def matchesOf (a b : State) (c : Nat) (v : Vec) (w : BitVec 64) : Nat :=
  a.matchCount c v.tset (if bitOf (b.lane c).flMatch 31 then (b.lane c).flMatch else 0) ((b.expanded c w).map (fun e => e.1))

/-- The lane `k` after a vector's issue, whose place and count are those of `l`. -/
def Lane.afterIssue (k l : Lane) (iv : IssVec) (period n : Nat) : Lane :=
  { k with issued := l.issued + 1, t := (l.t + period) % 2 ^ 64,
           prevPins := (List.range 16).map (fun i => let p := iv.pins.getD i 2; if p = 0xA then 0xC else p), formQ := k.formQ ++ [iv],
           strobes := if k.ldstb then k.strobes ++ [l.issued] else k.strobes, ldstb := false,
           verdicts := if n = 0 then k.verdicts else k.verdicts ++ [{ pad := l.pad, no := l.issued, left := n, any := false, pass := true }] }

theorem State.issueVec_eq {s a b : State} (c : Nat) (v : Vec) (m : Marks)
    (ha : a = s.applyMarker c (laneWord v m) (320 * (s.lane c).pad + (s.lane c).t)) (hb : b = a.gapAccount c v) :
    s.issueVec c v m = (b.issueMarked c (laneWord v m)).setLane c ((b.lane c).afterIssue (b.lane c) (issVecOf a b c v (laneWord v m))
      (a.period c v.tset) (matchesOf a b c v (laneWord v m))) := by
  have hlane : (b.issueMarked c (laneWord v m)).lane c = b.lane c :=
    (b.issueMarked_frame c _).lane_eq (by simp [issueFoot, Foot.covers])
  calc s.issueVec c v m = (b.issueMarked c (laneWord v m)).modLane c (fun k => k.afterIssue (b.lane c) (issVecOf a b c v (laneWord v m))
        (a.period c v.tset) (matchesOf a b c v (laneWord v m))) := by subst ha hb; rfl
    _ = _ := by rw [State.modLane, hlane]

/-- What the gap account of a vector can change besides its lane. -/
def gapPart (c : CluId) (v : Vec) : List Foot := if v.gap then gapFoot c else []

/-- What a vector's issue changes, with its markers. -/
theorem State.issueVec_frame {s a : State} (c : CluId) (v : Vec) (m : Marks) {K : List Foot}
    (ha : a = s.applyMarker c (laneWord v m) (320 * (s.lane c).pad + (s.lane c).t)) (hk : ChangesOnly (.one (.lane c) :: K) s a) :
    ChangesOnly (.one (.lane c) :: K ++ issueFoot c ++ gapPart c v) s (s.issueVec c v m) := by
  have hgap : ChangesOnly (.one (.lane c) :: gapPart c v) a (a.gapAccount c v) := a.gapAccount_frame c v
  have hmark := (a.gapAccount c v).issueMarked_frame c (laneWord v m)
  rw [State.issueVec_eq c v m ha rfl]
  refine (hk.subset ?_).trans ((hgap.subset ?_).trans ((hmark.subset ?_).trans
    (State.setLane_changes c _ (Evolves.refl _ _) (Allows.mem (by simp))).1))
  all_goals
    intro k hk
    simp only [List.mem_append, List.mem_cons] at hk ⊢
    tauto

/-- The issue of a vector without a marker. -/
theorem State.issueVec_plain (s : State) (c : CluId) (v : Vec) :
    (s.issueVec c v noMarks).lane c = ((s.lane c).setGap v.gap).afterIssue ((s.lane c).setGap v.gap)
      (issVecOf s (s.gapAccount c v) c v (laneWord v noMarks)) (s.period c v.tset)
      (matchesOf s (s.gapAccount c v) c v (laneWord v noMarks)) := by
  rw [State.issueVec_eq (s := s) c v noMarks (s.applyMarker_none c v _).symm rfl, State.lane_setLane_same, s.gapAccount_lane]

theorem State.issueVec_plain_frame (s : State) (c : CluId) (v : Vec) :
    ChangesOnly (.one (.lane c) :: issueFoot c ++ gapPart c v) s (s.issueVec c v noMarks) :=
  State.issueVec_frame (K := []) c v noMarks (s.applyMarker_none c v _).symm (ChangesOnly.refl _ s)

/-- What a gap vector's issue leaves of its gap account. -/
theorem State.issueVec_gap (s : State) (c : CluId) {v : Vec} (h : v.gap = true) :
    (s.issueVec c v noMarks).rd64 (cluOff c Reg.plnGapLenLo) = (s.rd64 (cluOff c Reg.plnGapLenLo) + 1) % 2 ^ 48 ∧
      ((s.lane c).inGap = false → (s.issueVec c v noMarks).plan.gapped = true ∧
        (s.retained (cluOff c Reg.plnFlags) = false → (s.issueVec c v noMarks).rdB (cluOff c Reg.plnFlags) 0 = true) ∧
        ((s.issueVec c v noMarks).rd (cluOff c Reg.plnGapCnt)).toNat = min ((s.rd (cluOff c Reg.plnGapCnt)).toNat + 1) 0xFFFFFFFF) := by
  have heq := State.issueVec_eq (s := s) c v noMarks (s.applyMarker_none c v _).symm rfl
  have hframe : ChangesOnly (.one (.lane c) :: issueFoot c) (s.gapAccount c v) (s.issueVec c v noMarks) := by
    rw [heq]
    exact (((s.gapAccount c v).issueMarked_frame c _).subset (by simp)).trans
      (State.setLane_changes c _ (Evolves.refl _ _) (Allows.mem List.mem_cons_self)).1
  have hspared : ∀ a, a < 0x10000 → a ≠ Reg.ddsStatus → ∀ k ∈ (.one (.lane c.val) : Foot) :: issueFoot c, k.covers (.reg (cluOff c a)) = false := by
    intro a ha hd
    simp only [issueFoot, List.forall_mem_cons, one_covers_cluOff, decide_eq_false (Ne.symm hd)]
    simp [Foot.covers, isChReg_cluOff c ha]
  obtain ⟨hlen, hnew⟩ := s.gapAccount_facts c h
  refine ⟨?_, fun hg => ?_⟩
  · rw [hframe.rd64_eq (hspared _ (by decide) (by decide)) (by rw [cluOff_add]; exact hspared _ (by decide) (by decide)), hlen]
  · obtain ⟨hplan, hflag, hcnt⟩ := hnew hg
    rw [hframe .plan (by simp [issueFoot, Foot.covers]), hframe.rdB_eq 0 (hspared _ (by decide) (by decide)),
      hframe.rd_eq (hspared _ (by decide) (by decide))]
    exact ⟨hplan, hflag, hcnt⟩

/-! ### Markers that ride in a vector -/

/-- A lane whose vector carries a load strobe, or not. -/
def Lane.setStrobe (l : Lane) (d : Bool) : Lane := { l with ldstb := d }

theorem b2n_eq_one {b : Bool} : b2n b = 1 ↔ b = true := by cases b <;> decide

/-- The issue of a vector with its markers. -/
theorem State.issueVec_marked (s : State) (c : CluId) (v : Vec) (m : Marks) :
    ∃ d iv p n, (s.issueVec c v m).lane c = (((s.lane c).setStrobe d).setGap v.gap).afterIssue (((s.lane c).setStrobe d).setGap v.gap) iv p n ∧
      iv.word = laneWord v m ∧ (m.ldstb = true → d = true) := by
  obtain ⟨-, -, -, hfl, -⟩ := laneWord_fields v m
  have hmark := s.applyMarker_lane c (laneWord v m) (320 * (s.lane c).pad + (s.lane c).t)
  generalize ha : s.applyMarker c (laneWord v m) (320 * (s.lane c).pad + (s.lane c).t) = a at hmark
  have hd : ∃ d, a.lane c = (s.lane c).setStrobe d ∧ (m.ldstb = true → d = true) := by
    rw [hmark, hfl]
    split
    next => exact ⟨true, rfl, fun _ => rfl⟩
    next h => exact ⟨_, rfl, fun hb => absurd (b2n_eq_one.2 hb) h⟩
  obtain ⟨d, hlane, hd⟩ := hd
  refine ⟨d, issVecOf a (a.gapAccount c v) c v (laneWord v m), a.period c v.tset, matchesOf a (a.gapAccount c v) c v (laneWord v m), ?_, rfl, hd⟩
  rw [State.issueVec_eq c v m ha.symm rfl, State.lane_setLane_same, State.gapAccount_lane, hlane]

theorem State.issueVec_marked_frame (s : State) (c : CluId) (v : Vec) (m : Marks) :
    ChangesOnly (markerFoot c ++ issueFoot c ++ gapPart c v) s (s.issueVec c v m) :=
  (State.issueVec_frame c v m rfl (K := markerFoot c) ((s.applyMarker_frame c _ _).subset (by simp))).subset (by
    intro k hk
    simp only [markerFoot, List.mem_append, List.mem_cons] at hk ⊢
    tauto)

theorem isChReg_chOff_eq (n : Nat) {o r : Nat} (ho : o < 0x1000) : isChReg r (chOff n o) = decide (o = r) := by
  have h1 : (chOff n o - 0x800000) % 0x1000 = o := by unfold chOff; omega
  have h2 : 0x10000 ≤ (chOff n o - 0x800000) % 0x20000 := by unfold chOff; omega
  simp [isChReg, h1, h2, le_chOff]

theorem tableRegs_ne : ∀ o ∈ [Reg.tgScrActLo, Reg.tgScrActHi], ∀ r ∈ [Reg.peStatus, Reg.peWmon, Reg.pmuWmon, Reg.tgCkmPeriodHi,
    Reg.tgCkmPeriodHi + 4, Reg.tgFlags, Reg.tgFlags + 4], o ≠ r := by decide

/-- Neither sources, issue nor the gap account touch the active response tables. -/
theorem besideTables (c : CluId) (v : Vec) (n : Nat) {o : Nat} (ho : o ∈ [Reg.tgScrActLo, Reg.tgScrActHi]) :
    ∀ k ∈ (.one (.lane c.val) : Foot) :: sourceFoot ++ issueFoot c ++ gapPart c v, k.covers (.reg (chOff n o)) = false := by
  have hlt : o < 0x1000 := by revert o; decide
  have hclu : ∀ a, a < 0x10000 → chOff n o ≠ cluOff c a := fun a ha => (cluOff_ne_chOff ha hlt).symm
  have hev : Foot.covers .events (.reg (chOff n o)) = false := events_covers_cluster (le_chOff _ _)
  have hone : ∀ a, a < 0x10000 → Foot.covers (.one (.reg (cluOff c a))) (.reg (chOff n o)) = false := fun a ha => by
    simp [Foot.covers, (hclu a ha).symm]
  have hpair : ∀ a, a + 4 < 0x10000 → Foot.covers (.pair (cluOff c a)) (.reg (chOff n o)) = false := fun a ha => by
    simp [Foot.covers, cluOff_add, hclu a (by omega), hclu (a + 4) ha]
  have hch : ∀ r ∈ [Reg.peStatus, Reg.peWmon, Reg.pmuWmon, Reg.tgCkmPeriodHi, Reg.tgCkmPeriodHi + 4, Reg.tgFlags, Reg.tgFlags + 4],
      isChReg r (chOff n o) = false := fun r hr => by
    rw [isChReg_chOff_eq n hlt]
    exact decide_eq_false (tableRegs_ne o ho r hr)
  have hgap : ∀ k ∈ gapPart c v, k.covers (.reg (chOff n o)) = false := by
    unfold gapPart gapFoot
    split
    · simp only [List.forall_mem_cons]
      exact ⟨rfl, hone _ (by decide), hpair _ (by decide), hpair _ (by decide), hpair _ (by decide), hev, by simp⟩
    · simp
  have hckm : Foot.covers (.chPair Reg.tgCkmPeriodHi) (.reg (chOff n o)) = false :=
    (Bool.or_eq_false_iff).2 ⟨hch _ (by simp), hch _ (by simp)⟩
  have hflags : Foot.covers (.chPair Reg.tgFlags) (.reg (chOff n o)) = false :=
    (Bool.or_eq_false_iff).2 ⟨hch _ (by simp), hch _ (by simp)⟩
  simp only [sourceFoot, issueFoot, List.forall_mem_append, List.forall_mem_cons]
  exact ⟨⟨⟨rfl, hckm, hch _ (by simp), rfl, by simp⟩, hone _ (by decide), hch _ (by simp), hch _ (by simp), hflags, by simp⟩, hgap⟩

/-- A vector with SCRLD takes the staged response tables (R212). -/
theorem State.issueVec_tables (s : State) (c : CluId) (v : Vec) {m : Marks} (h : m.scrld = true) {n : Nat} (hn : n / 16 = c.val) :
    (s.issueVec c v m).rd (chOff n Reg.tgScrActLo) = s.rd (chOff n Reg.tgScrStgLo) ∧
      (s.issueVec c v m).rd (chOff n Reg.tgScrActHi) = s.rd (chOff n Reg.tgScrStgHi) := by
  obtain ⟨-, -, -, -, hfs, -⟩ := laneWord_fields v m
  have htab : s.tablesTaken c (laneWord v m) = s.scrCommit c := if_pos (hfs.trans (b2n_eq_one.2 h))
  have hmark := s.applyMarker_tables c (laneWord v m) (320 * (s.lane c).pad + (s.lane c).t)
  rw [htab] at hmark
  generalize ha : s.applyMarker c (laneWord v m) (320 * (s.lane c).pad + (s.lane c).t) = a at hmark
  have hgap : ChangesOnly (.one (.lane c) :: gapPart c v) a (a.gapAccount c v) := a.gapAccount_frame c v
  have hrest : ChangesOnly ((.one (.lane c.val) : Foot) :: sourceFoot ++ issueFoot c ++ gapPart c v) (s.scrCommit c) (s.issueVec c v m) := by
    rw [State.issueVec_eq c v m ha.symm rfl]
    refine (hmark.subset ?_).trans ((hgap.subset ?_).trans ((((a.gapAccount c v).issueMarked_frame c _).subset ?_).trans
      (State.setLane_changes c _ (Evolves.refl _ _) (Allows.mem (by simp))).1))
    all_goals
      intro k hk
      simp only [List.mem_append, List.mem_cons] at hk ⊢
      tauto
  rw [hrest.rd_eq (besideTables c v n (by simp)), hrest.rd_eq (besideTables c v n (by simp))]
  exact s.scrCommit_rd hn

/-! ### The queue (R123, R124) -/

/-- A lane whose queue and whose count of a gap's vectors are set. -/
def Lane.putQueue (l : Lane) (rest : List Item) (left : Nat) : Lane := { l with queue := rest, fillLeft := left }

/-- Lane `c` with the rest of its queue. -/
def State.putQueue (s : State) (c : Nat) (rest : List Item) (left : Nat) : State := s.modLane c (fun k => k.putQueue rest left)

theorem State.putQueue_lane (s : State) (c : Nat) (rest : List Item) (left : Nat) :
    (s.putQueue c rest left).lane c = (s.lane c).putQueue rest left := State.lane_modLane_same _ _ _

theorem State.putQueue_frame (s : State) (c : Nat) (rest : List Item) (left : Nat) :
    ChangesOnly [.one (.lane c)] s (s.putQueue c rest left) :=
  (State.modLane_changes c _ (Evolves.refl _ s) (Allows.mem List.mem_cons_self)).1

/-- A queue that no marker leads. -/
def unmarked (q : List Item) : Prop := q = [] ∨ ∃ v rest, q = .vec v :: rest

theorem frontMarkers_unmarked {q : List Item} (h : unmarked q) : frontMarkers noMarks q = (noMarks, q) := by
  obtain rfl | ⟨v, rest, rfl⟩ := h <;> rfl

section
variable {s : State} {c : Nat} (hl : (s.lane c).live = true)
include hl

theorem State.vectorIssue_clean : s.vectorIssue c .clean = s.issueNext c := if_neg (not_not_intro hl)

theorem State.issueNext_fill (hq : unmarked (s.lane c).queue) (hf : (s.lane c).fillLeft ≠ 0) :
    s.issueNext c = (s.putQueue c (s.lane c).queue ((s.lane c).fillLeft - 1)).issueVec c ((s.lane c).keepVec true) noMarks := by
  unfold State.issueNext
  rw [if_neg (not_not_intro hl)]
  simp only [frontMarkers_unmarked hq, if_pos hf]
  rfl

theorem State.issueNext_vec {v : Vec} {rest : List Item} {m : Marks} (hq : frontMarkers noMarks (s.lane c).queue = (m, .vec v :: rest))
    (hf : (s.lane c).fillLeft = 0) : s.issueNext c = (s.putQueue c rest 0).issueVec c v m := by
  unfold State.issueNext
  rw [if_neg (not_not_intro hl)]
  simp only [hq, if_neg (not_not_intro hf)]
  rfl

theorem State.issueNext_empty (hq : (s.lane c).queue = []) (hf : (s.lane c).fillLeft = 0) :
    s.issueNext c =
      if (s.lane c).ended then (if (s.lane c).issued % 64 = 0 then s else (s.putQueue c [] 0).issueVec c ((s.lane c).keepVec false) noMarks)
      else if s.plan.abort then s.underrunAbort c
      else (s.putQueue c [] (63 - (s.lane c).issued % 64)).issueVec c ((s.lane c).keepVec true) noMarks := by
  unfold State.issueNext
  rw [if_neg (not_not_intro hl)]
  simp only [frontMarkers_unmarked (.inl hq), if_neg (not_not_intro hf)]
  rw [hq]
  rfl

end

/-! ### Vectors of the queue -/

/-- The footprint of a vector's issue as the obligation writes it. -/
theorem issue_frame {s t : State} (c : CluId) (rest : List Item) (left : Nat) (v : Vec)
    (h : t = (s.putQueue c rest left).issueVec c v noMarks) : ChangesOnly (.one (.lane c) :: issueFoot c ++ gapPart c v) s t := by
  rw [h]
  exact ((s.putQueue_frame c rest left).subset (by simp)).trans (State.issueVec_plain_frame _ c v)

section
variable {s : State} {c : CluId} (hl : (s.lane c).live = true)
include hl

theorem vectorIssue_vec_completes {v : Vec} {rest : List Item} (hq : (s.lane c).queue = .vec v :: rest) (hf : (s.lane c).fillLeft = 0) :
    Completes (.vectorIssue c .clean) s ([.one (.lane c), .one (.reg (cluOff c Reg.ddsStatus)), .chReg Reg.peWmon,
        .chReg Reg.pmuWmon, .chPair Reg.tgFlags] ++ (if v.gap then gapFoot c else [])) (fun t =>
      (t.lane c).queue = rest ∧ (t.lane c).issued = (s.lane c).issued + 1 ∧ (t.lane c).t = ((s.lane c).t + s.period c v.tset) % 2 ^ 64 ∧
      (t.lane c).inGap = v.gap ∧
      ∃ iv : IssVec, (t.lane c).formQ = (s.lane c).formQ ++ [iv] ∧ iv.no = (s.lane c).issued ∧ iv.t = (s.lane c).t ∧
        iv.tset = v.tset ∧ iv.seg = (s.lane c).place.seg ∧ iv.play = (s.lane c).place.plays ∧ iv.gen = v.gen ∧ iv.masked = s.siteMask ∧
        iv.pad = (s.lane c).pad ∧
        laneFld iv.word 31 0 = v.codes.toNat ∧ laneFld iv.word 47 32 = v.map % 65536 ∧ laneFld iv.word 53 48 = v.tset % 64 ∧
        laneFld iv.word 63 54 = 0 ∧
        ∀ k : Fin 16, mapPin v.map (codeOf v.codes k) ≠ 0xA → mapPin v.map (codeOf v.codes k) ≠ 0xC →
          iv.pins.getD k 2 = mapPin v.map (codeOf v.codes k)) := by
  have heq : s.vectorIssue c .clean = (s.putQueue c rest 0).issueVec c v noMarks :=
    (State.vectorIssue_clean hl).trans (State.issueNext_vec hl (by rw [hq]; rfl) hf)
  have hlane := (s.putQueue c rest 0).issueVec_plain c v
  rw [← heq, State.putQueue_lane] at hlane
  have hb : ((s.putQueue c rest 0).gapAccount c v).lane c = ((s.lane c).putQueue rest 0).setGap v.gap := by
    rw [State.gapAccount_lane, State.putQueue_lane]
  obtain ⟨h0, h1, h2, -⟩ := laneWord_fields v noMarks
  refine ⟨_, rfl, ⟨by rw [hlane]; rfl, by rw [hlane]; rfl, by rw [hlane]; rfl, by rw [hlane]; rfl, _, by rw [hlane]; rfl, ?_⟩,
    issue_frame c rest 0 v heq⟩
  refine ⟨?_, ?_, rfl, ?_, ?_, rfl, rfl, ?_, h0, h1, h2, ?_, fun k hA hC => ?_⟩
  · exact (congrArg Lane.issued hb :)
  · exact (congrArg Lane.t hb :)
  · exact (congrArg (fun l : Lane => l.place.seg) hb :)
  · exact (congrArg (fun l : Lane => l.place.plays) hb :)
  · exact (congrArg Lane.pad hb :)
  · have hcodes := v.codes.isLt
    have hnone : b2n noMarks.ldstb = 0 ∧ b2n noMarks.scrld = 0 ∧ noMarks.src = 0 := ⟨rfl, rfl, rfl⟩
    obtain ⟨e1, e2, e3⟩ := hnone
    simp only [issVecOf, laneFld, laneWord_toNat, Nat.shiftRight_eq_div_pow, e1, e2, e3]
    omega
  · exact (State.expanded_getD _ _ _ k.isLt).trans (State.expandPin_plain _ _ _ _ _ k.isLt hA hC)

/-- The markers of one word at the front of a queue. -/
def marksOf (ldstb scrld : Bool) (src : Nat) : Marks := { ldstb := ldstb, scrld := scrld, src := src }

theorem vectorIssue_marked_completes {v : Vec} {rest : List Item} {ldstb scrld : Bool} {src : Nat}
    (hq : (s.lane c).queue = .marker ldstb scrld src :: .vec v :: rest) (hf : (s.lane c).fillLeft = 0) :
    Completes (.vectorIssue c .clean) s ([.one (.lane c), .one (.reg (cluOff c Reg.ddsStatus)), .chReg Reg.peWmon,
        .chReg Reg.pmuWmon, .chPair Reg.tgFlags, .chReg Reg.tgScrActLo, .chReg Reg.tgScrActHi, .chReg Reg.peStatus,
        .chPair Reg.tgCkmPeriodHi, .chans] ++ (if v.gap then gapFoot c else [])) (fun t =>
      (t.lane c).queue = rest ∧ (t.lane c).issued = (s.lane c).issued + 1 ∧
      (∃ iv : IssVec, (t.lane c).formQ = (s.lane c).formQ ++ [iv] ∧ laneFld iv.word 54 54 = b2n ldstb ∧ laneFld iv.word 55 55 = b2n scrld ∧
        laneFld iv.word 57 56 = src % 4 ∧ laneFld iv.word 63 58 = 0) ∧
      (ldstb = true → (t.lane c).strobes = (s.lane c).strobes ++ [(s.lane c).issued]) ∧
      (scrld = true → ∀ n : ChId, n.val / 16 = c.val →
        t.rd (chOff n Reg.tgScrActLo) = s.rd (chOff n Reg.tgScrStgLo) ∧ t.rd (chOff n Reg.tgScrActHi) = s.rd (chOff n Reg.tgScrStgHi))) := by
  have hfront : frontMarkers noMarks (s.lane c).queue = (marksOf ldstb scrld src, .vec v :: rest) := by
    have hsrc : (if src = 0 then noMarks.src else src) = src := by
      split
      next h => exact h.symm
      next => rfl
    calc frontMarkers noMarks (s.lane c).queue
        = ({ ldstb := noMarks.ldstb || ldstb, scrld := noMarks.scrld || scrld, src := if src = 0 then noMarks.src else src }, .vec v :: rest) := by
          rw [hq]; rfl
      _ = _ := by rw [hsrc]; rfl
  have heq : s.vectorIssue c .clean = (s.putQueue c rest 0).issueVec c v (marksOf ldstb scrld src) :=
    (State.vectorIssue_clean hl).trans (State.issueNext_vec hl hfront hf)
  obtain ⟨-, -, -, hfl, hfs, hfd, hfz⟩ := laneWord_fields v (marksOf ldstb scrld src)
  obtain ⟨d, iv, p, n, hlane, hword, hd⟩ := (s.putQueue c rest 0).issueVec_marked c v (marksOf ldstb scrld src)
  rw [← heq, State.putQueue_lane] at hlane
  refine ⟨_, rfl, ⟨by rw [hlane]; rfl, by rw [hlane]; rfl, ⟨iv, by rw [hlane]; rfl, by rw [hword]; exact hfl, by rw [hword]; exact hfs,
    by rw [hword]; exact hfd, by rw [hword]; exact hfz⟩, fun hb => ?_, fun hb n hn => ?_⟩, ?_⟩
  · rw [hlane, hd hb]; rfl
  · rw [heq]
    exact (s.putQueue c rest 0).issueVec_tables c v hb hn
  · rw [heq]
    refine ((s.putQueue_frame c rest 0).subset (by simp)).trans ((State.issueVec_marked_frame _ c v _).subset fun k hk => ?_)
    simp only [markerFoot, issueFoot, gapPart, List.mem_append, List.mem_cons, List.not_mem_nil, or_false] at hk ⊢
    tauto

end

end Sys2Proof.Machine

/-! The end of a part, and VECTOR_ISSUE with an empty queue, in a gap, and with an error (R173, R189, R190, R442, R443). -/

namespace Sys2Proof.Machine

/-! ### The end of a part (R173, R443) -/

/-- A lane whose part has ended. -/
def Lane.partEnded (l : Lane) : Lane := { l with ended := true, jump := none, granted := false }

/-- The sequencer of a lane whose part has ended. -/
def Seq.partEnded (z : Seq) : Seq :=
  { z with st := if z.st = 4 then 4 else 2, holdWhy := .ended, pend := 0, fault := none, inFault := false, stack := [], waiting := false,
           arrived := none, released := false }

theorem State.partEnd_lane (s : State) (c i : Nat) : (s.partEnd c).lane i = if i = c then (s.lane c).partEnded else s.lane i :=
  State.lane_modLane _ _ _ _

theorem State.partEnd_seq (s : State) (c i : Nat) : (s.partEnd c).seq i = if i = c then (s.seq c).partEnded else s.seq i :=
  State.seq_modSeq s c Seq.partEnded i

@[simp] theorem State.partEnd_plan (s : State) (c : Nat) : (s.partEnd c).plan = s.plan := rfl

@[simp] theorem State.partEnd_rd (s : State) (c o : Nat) : (s.partEnd c).rd o = s.rd o := rfl

theorem State.anyEnd_lane (s : State) (c : CluId) : s.anyEnd c = s.partEnd c := if_neg (by omega)

/-- The plan is ended by a fault. -/
def State.planFaulted (s : State) : State := (s.putPlan { s.plan with faulted := true }).planStop.masterEnd

theorem State.planFaulted_plan (s : State) : s.planFaulted.plan = { s.plan with faulted := true, startDue := 0 } := by
  rw [State.planFaulted, State.masterEnd_plan, State.planStop_plan]
  rfl

theorem State.planFaulted_st (s : State) (h : (s.seq 32).st ≠ 4) : (s.planFaulted.seq 32).st = 0 := State.planStop_masterEnd_st _ h

theorem State.planFaulted_ended (s : State) {c : Nat} (h : (s.lane c).ended = true) : (s.planFaulted.lane c).ended = true := by
  rw [State.planFaulted, State.masterEnd_lane, State.planStop_lane]
  split <;> exact h

theorem State.planFaulted_frame (s : State) : ChangesOnly [.seqs, .one .plan, .lanes, .one (.reg Reg.plnState)] s s.planFaulted := by
  refine (State.masterEnd_changes (State.planStop_changes (State.putPlan_changes _ (Evolves.refl _ s) ?_) ?_ ?_ ?_ ?_) ?_).1
  rotate_right
  · exact (Allows.mem (k := .seqs) (by simp)).seqOf
  all_goals exact Allows.mem (by decide)

theorem State.tablesLost_eq (s : State) (c : CluId) (row : Nat) :
    s.tablesLost c row = ((s.eccUncorr (1057 + c) row).partEnd c).planFaulted := by
  have h : ¬ c.val = 32 := by omega
  unfold State.tablesLost
  rw [if_neg h, State.anyEnd_lane]
  rfl

theorem State.eccUncorr_frame (s : State) (m r : Nat) :
    ChangesOnly [.events, .one (.reg Reg.memEccAddr), .pair Reg.memFlags] s (s.eccUncorr m r) := by
  refine (State.eccUncorr_changes m r (Evolves.refl _ s) ?_ ?_ ?_).1 <;> exact Allows.mem (by decide)

/-! ### VECTOR_ISSUE without a vector in the queue -/

section
variable {s : State} {c : CluId} (hl : (s.lane c).live = true)
include hl

theorem vectorIssue_gap_completes (hq : (s.lane c).queue = []) (hf : (s.lane c).fillLeft = 0) (he : (s.lane c).ended = false)
    (ha : s.plan.abort = false) :
    Completes (.vectorIssue c .clean) s ([.one (.lane c), .one (.reg (cluOff c Reg.ddsStatus)), .chReg Reg.peWmon,
        .chReg Reg.pmuWmon, .chPair Reg.tgFlags] ++ gapFoot c) (fun t =>
      (t.lane c).issued = (s.lane c).issued + 1 ∧ (t.lane c).fillLeft = 63 - (s.lane c).issued % 64 ∧ (t.lane c).inGap = true ∧
      t.rd64 (cluOff c Reg.plnGapLenLo) = (s.rd64 (cluOff c Reg.plnGapLenLo) + 1) % 2 ^ 48 ∧
      ((s.lane c).inGap = false → t.plan.gapped = true ∧
        (s.retained (cluOff c Reg.plnFlags) = false → t.rdB (cluOff c Reg.plnFlags) 0 = true) ∧
        (t.rd (cluOff c Reg.plnGapCnt)).toNat = min ((s.rd (cluOff c Reg.plnGapCnt)).toNat + 1) 0xFFFFFFFF)) := by
  have heq : s.vectorIssue c .clean = (s.putQueue c [] (63 - (s.lane c).issued % 64)).issueVec c ((s.lane c).keepVec true) noMarks := by
    rw [State.vectorIssue_clean hl, State.issueNext_empty hl hq hf, if_neg (by simp [he]), if_neg (by simp [ha])]
  have hlane := (s.putQueue c [] (63 - (s.lane c).issued % 64)).issueVec_plain c ((s.lane c).keepVec true)
  rw [← heq, State.putQueue_lane] at hlane
  obtain ⟨hlen, hnew⟩ := (s.putQueue c [] (63 - (s.lane c).issued % 64)).issueVec_gap c (v := (s.lane c).keepVec true) rfl
  rw [← heq, State.putQueue_lane] at hnew
  rw [← heq] at hlen
  exact ⟨_, rfl, ⟨by rw [hlane]; rfl, by rw [hlane]; rfl, by rw [hlane]; rfl, hlen, hnew⟩, issue_frame c [] _ _ heq⟩

theorem vectorIssue_fill_completes (hf : (s.lane c).fillLeft ≠ 0) (hq : unmarked (s.lane c).queue) :
    Completes (.vectorIssue c .clean) s ([.one (.lane c), .one (.reg (cluOff c Reg.ddsStatus)), .chReg Reg.peWmon, .chReg Reg.pmuWmon,
        .chPair Reg.tgFlags] ++ gapFoot c) (fun t =>
      (t.lane c).issued = (s.lane c).issued + 1 ∧ (t.lane c).fillLeft = (s.lane c).fillLeft - 1 ∧ (t.lane c).queue = (s.lane c).queue ∧
      (t.lane c).inGap = true) := by
  have heq := (State.vectorIssue_clean hl).trans (State.issueNext_fill hl hq hf)
  have hlane := (s.putQueue c (s.lane c).queue ((s.lane c).fillLeft - 1)).issueVec_plain c ((s.lane c).keepVec true)
  rw [← heq, State.putQueue_lane] at hlane
  exact ⟨_, rfl, ⟨by rw [hlane]; rfl, by rw [hlane]; rfl, by rw [hlane]; rfl, by rw [hlane]; rfl⟩, issue_frame c _ _ _ heq⟩

theorem vectorIssue_drain_completes (hq : (s.lane c).queue = []) (hf : (s.lane c).fillLeft = 0) (he : (s.lane c).ended = true)
    (hi : (s.lane c).issued % 64 ≠ 0) :
    Completes (.vectorIssue c .clean) s [.one (.lane c), .one (.reg (cluOff c Reg.ddsStatus)), .chReg Reg.peWmon, .chReg Reg.pmuWmon,
        .chPair Reg.tgFlags] (fun t =>
      (t.lane c).issued = (s.lane c).issued + 1 ∧ (t.lane c).fillLeft = 0 ∧ (t.lane c).inGap = false) := by
  have heq : s.vectorIssue c .clean = (s.putQueue c [] 0).issueVec c ((s.lane c).keepVec false) noMarks := by
    rw [State.vectorIssue_clean hl, State.issueNext_empty hl hq hf, if_pos he, if_neg hi]
  have hlane := (s.putQueue c [] 0).issueVec_plain c ((s.lane c).keepVec false)
  rw [← heq, State.putQueue_lane] at hlane
  exact ⟨_, rfl, ⟨by rw [hlane]; rfl, by rw [hlane]; rfl, by rw [hlane]; rfl⟩, issue_frame c _ _ _ heq⟩

theorem vectorIssue_none_completes (hq : (s.lane c).queue = []) (hf : (s.lane c).fillLeft = 0) (he : (s.lane c).ended = true)
    (hi : (s.lane c).issued % 64 = 0) : Completes (.vectorIssue c .clean) s [] (fun _ => True) := by
  refine ⟨s, congrArg Host.Outcome.next ?_, trivial, ChangesOnly.refl [] s⟩
  rw [State.vectorIssue_clean hl, State.issueNext_empty hl hq hf, if_pos he, if_pos hi]

/-! ### VECTOR_ISSUE with an error in the lane's tables (R442, R443) -/

theorem vectorIssue_tableSingle : exec (.vectorIssue c .tableSingle) s = exec (.vectorIssue c .clean) (s.count Reg.memEccCnt 1) := by
  have h : s.vectorIssue c .tableSingle = (s.count Reg.memEccCnt 1).vectorIssue c .clean :=
    (if_neg (not_not_intro hl)).trans (State.vectorIssue_clean (s := s.count Reg.memEccCnt 1) hl).symm
  exact congrArg Host.Outcome.next h

theorem vectorIssue_tableDouble_completes (r : Fin 512) :
    Completes (.vectorIssue c (.tableDouble r)) s [.seqs, .lanes, .one .plan, .one (.reg Reg.plnState), .pair Reg.memFlags,
        .one (.reg Reg.memEccAddr), .events] (fun t =>
      t.plan.faulted = true ∧ (t.lane c).ended = true ∧ t.rdB Reg.memFlags 0 = true ∧ ((s.seq 32).st ≠ 4 → (t.seq 32).st = 0)) := by
  have heq : s.vectorIssue c (.tableDouble r) = ((s.eccUncorr (1057 + c) r).partEnd c).planFaulted :=
    (if_neg (not_not_intro hl)).trans (s.tablesLost_eq c r)
  refine ⟨s.vectorIssue c (.tableDouble r), rfl, ?_, ?_⟩
  · rw [heq]
    refine ⟨by rw [State.planFaulted_plan], State.planFaulted_ended _ ?_, ?_, fun hz => State.planFaulted_st _ ?_⟩
    · rw [State.partEnd_lane, if_pos rfl]; rfl
    · rw [(State.planFaulted_frame _).rdB_eq 0 (by decide), State.rdB, State.partEnd_rd]
      exact (s.eccUncorr_records _ _).1
    · rwa [State.partEnd_seq, if_neg (by omega), (s.eccUncorr_frame _ _).seq_eq (by simp [Foot.covers])]
  · rw [show s.vectorIssue c (.tableDouble r) = s.tablesLost c r from if_neg (not_not_intro hl)]
    refine (State.tablesLost_changes _ _ (Evolves.refl _ s) ?_ ?_ ?_ ?_ ?_ ?_ ?_).1 <;> exact Allows.mem (by decide)

end

/-- Settles O35: each clause is the law of its command above. -/
theorem lanesStartAndIssue : Obligations.LanesStartAndIssue :=
  ⟨fun _ _ cycle => ⟨laneStart_completes cycle, laneStart_ignored_completes cycle, laneStart_none_completes cycle⟩,
  fun _ _ hl => ⟨fun _ _ => vectorIssue_vec_completes hl, fun _ _ _ _ _ => vectorIssue_marked_completes hl, vectorIssue_gap_completes hl,
    vectorIssue_fill_completes hl, vectorIssue_drain_completes hl, vectorIssue_none_completes hl, vectorIssue_tableSingle hl,
    vectorIssue_tableDouble_completes hl⟩⟩

end Sys2Proof.Machine

/-! Timers, holds, faults and accepted requests of a sequencer (R122, R123, R131, R132, R141 to R146, R151, R177). -/

namespace Sys2Proof.Machine

/-! ### Cycles of a wait or a hold (R122, R142, R143) -/

/-- A sequencer whose SEQ_CYC has counted `n` cycles. -/
def Seq.counted (z : Seq) (n : Nat) : Seq := { z with cyc := z.cyc + BitVec.ofNat 64 n }

theorem State.addCyc_seq (s : State) (q n i : Nat) : (s.addCyc q n).seq i = if i = q then (s.seq q).counted n else s.seq i :=
  s.seq_modSeq q (fun z => z.counted n) i

theorem State.addCyc_seq_same (s : State) (q n : Nat) : (s.addCyc q n).seq q = (s.seq q).counted n := by
  rw [State.addCyc_seq, if_pos rfl]

theorem State.addCyc_frame (s : State) (q n : Nat) : ChangesOnly [.one (.seq q)] s (s.addCyc q n) :=
  (State.addCyc_changes q n (Evolves.refl _ s) (Allows.mem List.mem_cons_self)).1

theorem State.addCyc_rd (s : State) (q n o : Nat) : (s.addCyc q n).rd o = s.rd o := rfl

/-- A sequencer as a request finds it at its boundary: the wait keeps its count, and SEQ_CYC counts it. -/
def Seq.paused (z : Seq) (cycles : Nat) : Seq :=
  { z with waited := if z.waiting then max z.waited cycles else z.waited, cyc := z.cyc + BitVec.ofNat 64 (pauseCycles z cycles) }

theorem State.pause_seq (s : State) (q cycles : Nat) : (s.pause q cycles).seq q = (s.seq q).paused cycles := by
  unfold State.pause Seq.paused pauseCycles
  by_cases hw : (s.seq q).waiting = true
  · rw [if_pos hw, if_pos hw, if_pos hw, State.addCyc_seq_same, State.seq_setSeq_same]
    rfl
  · rw [if_neg hw, if_neg hw, if_neg hw]
    by_cases hs : (s.seq q).st = 2
    · rw [if_pos hs, if_pos hs, State.addCyc_seq_same]
      rfl
    · rw [if_neg hs, if_neg hs, show BitVec.ofNat 64 0 = 0#64 from rfl, BitVec.add_zero]

theorem State.pause_frame (s : State) (q cycles : Nat) : ChangesOnly [.one (.seq q)] s (s.pause q cycles) :=
  (State.pause_changes q cycles (Evolves.refl _ s) (Allows.mem List.mem_cons_self)).1

/-! ### Faults (R146) -/

theorem State.raiseFault_faulted {s x : State} {q : SeqId} {code pc : Nat} (hp : pc = (s.seq q).pc) (hi : (x.seq q).inFault = (s.seq q).inFault) :
    Faulted s (x.raiseFault q code pc) q code := by
  subst hp
  unfold State.raiseFault
  cases h : (s.seq q).inFault with
  | true =>
    simp only [hi, h, if_true]
    refine ⟨?_, fun hf => ?_, fun _ => ?_⟩
    · rw [State.rd_setSeq, State.rd_wr_same]
    · rw [h] at hf; cases hf
    · rw [State.seq_setSeq_same]
  | false =>
    simp only [hi, h, Bool.false_eq_true, if_false]
    refine ⟨?_, fun _ => ?_, fun hf => ?_⟩
    · rw [State.rd_setSeq, State.rd_wr_same]
    · rw [State.seq_setSeq_same]
      refine ⟨rfl, ?_⟩
      simp
    · rw [h] at hf; cases hf

theorem State.raiseFault_frame (s : State) (q code pc : Nat) :
    ChangesOnly [.one (.seq q), .one (.reg (seqOff q Reg.seqFault))] s (s.raiseFault q code pc) := by
  refine (State.raiseFault_changes q code pc (Evolves.refl _ s) ?_ ?_).1 <;> exact Allows.mem (by simp)

/-- A fault leaves the place of its sequencer. -/
theorem State.raiseFault_pos (s : State) (q code pc : Nat) : ((s.raiseFault q code pc).seq q).pos = (s.seq q).pos := by
  simp only [State.raiseFault]
  split <;> rw [State.seq_setSeq_same]

/-- A fault leaves the stack of its sequencer. -/
theorem State.raiseFault_stack (s : State) (q code pc : Nat) : ((s.raiseFault q code pc).seq q).stack = (s.seq q).stack := by
  simp only [State.raiseFault]
  split <;> rw [State.seq_setSeq_same]

/-! ### The branches before an execution (R119, R122, R123, R146) -/

section
variable {s : State} {q opc : Nat} (hrun : s.canRun q = true) (hopc : (s.curWord q).opc = opc)
include hrun hopc

/-- The fetch finds a fault. -/
theorem State.run1_fault {ecc : Ecc} {code : Nat} (h : s.fetchFault q ecc = some code) :
    s.run1 q opc ecc = (if code = 1 then s.eccLost q else s).raiseFault q code (s.seq q).pc := by
  unfold State.run1
  rw [if_neg (by simp [hrun, hopc])]
  simp only [h]

/-- TRAP. -/
theorem State.run1_trap (h : s.fetchFault q .clean = none) (ht : opc = 0xB) : s.run1 q opc .clean = s.raiseFault q 0x02 (s.seq q).pc := by
  unfold State.run1
  rw [if_neg (by simp [hrun, hopc])]
  simp only [h]
  exact if_pos ht

/-- The fetch is delayed by a borrowed window. -/
theorem State.run1_delayed (h : s.fetchFault q .delayed = none) (ht : opc ≠ 0xB) (hz : (s.seq q).fetches = true) (hl : s.windowLent q = true) :
    s.run1 q opc .delayed = s.hold q .fetch := by
  have hd : s.fetchDelayed q .delayed = true := by rw [State.fetchDelayed, hz, hl]; rfl
  unfold State.run1
  rw [if_neg (by simp [hrun, hopc])]
  simp only [h]
  exact (if_neg ht).trans (if_pos hd)

/-- The issue queue has no room. -/
theorem State.run1_room (h : s.fetchFault q .clean = none) (ht : opc ≠ 0xB) (hq : q < 32)
    (hfull : 1024 < (s.lane q).fill + postRoom (s.curWord q)) : s.run1 q opc .clean = s.hold q .room := by
  unfold State.run1
  rw [if_neg (by simp [hrun, hopc])]
  simp only [h]
  exact (if_neg ht).trans ((if_neg (by simp [State.fetchDelayed])).trans (if_pos ⟨hq, hfull⟩))

/-- The execution takes place. -/
theorem State.run1_execute (h : s.fetchFault q .clean = none) (ht : opc ≠ 0xB)
    (hroom : q < 32 → (s.lane q).fill + postRoom (s.curWord q) ≤ 1024) (hsend : opc = 0xF → s.sendRoom = true) :
    s.run1 q opc .clean = s.execute q (s.curWord q) none := by
  unfold State.run1
  rw [if_neg (by simp [hrun, hopc])]
  simp only [h]
  refine (if_neg ht).trans ((if_neg (by simp [State.fetchDelayed])).trans ((if_neg ?_).trans (if_neg ?_)))
  · exact fun ⟨hq, hlt⟩ => absurd (hroom hq) (Nat.not_le_of_lt hlt)
  · exact fun ⟨hF, _, hno⟩ => hno (hsend hF)

end

/-! ### Timers and holds (R122, R123, R132) -/

theorem timerExpire_completes {s : State} {q : SeqId} (h : (s.seq q).timerOn = true) :
    Completes (.timerExpire q) s [.one (.seq q)] (fun t =>
      (t.seq q).timer = 0 ∧ (t.seq q).timerOn = false ∧ (t.seq q).tmr = true ∧ (t.seq q).pos = (s.seq q).pos) := by
  have hseq : (s.timerExpire q).seq q = { s.seq q with timer := 0, timerOn := false, tmr := true } := by
    unfold State.timerExpire
    rw [if_pos h, State.seq_setSeq_same]
  exact ⟨_, rfl, ⟨by rw [hseq], by rw [hseq], by rw [hseq], by rw [hseq]⟩, (execTimerExpire_changes q rfl (Allows.mem (by simp))).1⟩

/-- A sequencer is held. -/
theorem hold_completes {i : Instr} {s : State} {q : SeqId} {why : HoldWhy} (h : exec i s = .next (s.hold q why)) :
    Completes i s [.one (.seq q)] (fun t => (t.seq q).st = 2 ∧ (t.seq q).holdWhy = why ∧ (t.seq q).pos = (s.seq q).pos) := by
  have hseq : (s.hold q why).seq q = { s.seq q with st := 2, holdWhy := why } := State.seq_modSeq_same _ _ _
  exact ⟨_, h, ⟨by rw [hseq], by rw [hseq], by rw [hseq]⟩, (State.hold_changes q why (Evolves.refl _ s) (Allows.mem (by simp))).1⟩

theorem next_room_completes {s : State} {q : SeqId} (hrun : s.canRun q = true) (hopc : (s.curWord q).opc = 0)
    (hf : s.fetchFault q .clean = none) (hq : q.val < 32) (hfull : 1024 < (s.lane q).fill + postRoom (s.curWord q)) :
    Completes (.next q .clean) s [.one (.seq q)] (fun t =>
      (t.seq q).st = 2 ∧ (t.seq q).holdWhy = .room ∧ (t.seq q).pos = (s.seq q).pos) :=
  hold_completes (congrArg Host.Outcome.next (State.run1_room hrun hopc hf (by decide) hq hfull))

theorem next_delayed_completes {s : State} {q : SeqId} (hrun : s.canRun q = true) (hopc : (s.curWord q).opc = 0)
    (hf : s.fetchFault q .delayed = none) (hleft : (s.seq q).left = none) (hlatch : (s.seq q).latched = none) (hl : s.windowLent q = true) :
    Completes (.next q .delayed) s [.one (.seq q)] (fun t =>
      (t.seq q).st = 2 ∧ (t.seq q).holdWhy = .fetch ∧ (t.seq q).pos = (s.seq q).pos) :=
  hold_completes (congrArg Host.Outcome.next (State.run1_delayed hrun hopc hf (by decide) (by simp [Seq.fetches, hleft, hlatch]) hl))

theorem State.holdRelease_eq {s : State} {q cycles : Nat} (hz : (s.seq q).st = 2) (h : (s.seq q).holdWhy = .fetch ∨
    ((s.seq q).holdWhy = .room ∧ (s.lane q).fill + postRoom (s.curWord q) ≤ 1024) ∨ ((s.seq q).holdWhy = .send ∧ s.sendRoom = true)) :
    s.holdRelease q cycles = (s.setSeq q { s.seq q with st := 1, holdWhy := .none }).addCyc q cycles := by
  unfold State.holdRelease
  obtain hw | ⟨hw, hroom⟩ | ⟨hw, hsend⟩ := h
  · simp only [hw]
    exact if_pos ⟨hz, trivial⟩
  · simp only [hw]
    exact if_pos ⟨hz, decide_eq_true hroom⟩
  · simp only [hw]
    exact if_pos ⟨hz, hsend⟩

theorem holdRelease_completes {s : State} {q : SeqId} (cycles : Nat) (hz : (s.seq q).st = 2) (h : (s.seq q).holdWhy = .fetch ∨
    ((s.seq q).holdWhy = .room ∧ (s.lane q).fill + postRoom (s.curWord q) ≤ 1024) ∨ ((s.seq q).holdWhy = .send ∧ s.sendRoom = true)) :
    Completes (.holdRelease q cycles) s [.one (.seq q)] (fun t =>
      (t.seq q).st = 1 ∧ (t.seq q).pos = (s.seq q).pos ∧ (t.seq q).cyc = (s.seq q).cyc + BitVec.ofNat 64 cycles) := by
  have hseq : (s.holdRelease q cycles).seq q = ({ s.seq q with st := 1, holdWhy := .none } : Seq).counted cycles := by
    rw [State.holdRelease_eq hz h, State.addCyc_seq_same, State.seq_setSeq_same]
  exact ⟨_, rfl, ⟨by rw [hseq]; rfl, by rw [hseq]; rfl, by rw [hseq]; rfl⟩, (execHoldRelease_changes q cycles rfl (Allows.mem (by simp))).1⟩

/-! ### Handlers (R142, R143, R151) -/

/-- A sequencer that has pushed a frame for line `n` and goes to its handler. -/
def Seq.entered (z : Seq) (n a : Nat) : Seq :=
  { ({ z with stack := z.frame (some n) z.pos z.left :: z.stack, st := 1, holdWhy := .none, waiting := false, waited := 0,
              arrived := none, released := false } : Seq).goto (.word a) with latched := some n }

theorem State.enterHandler_seq (s : State) (q n a : Nat) : (s.enterHandler q n a).seq q = (s.seq q).entered n a := State.seq_setSeq_same _ _ _

theorem State.enterHandler_lane (s : State) (q n a c : Nat) : (s.enterHandler q n a).lane c = s.lane c := rfl

theorem counted_add (z : Seq) (a b : Nat) : z.cyc + BitVec.ofNat 64 a + BitVec.ofNat 64 b = z.cyc + BitVec.ofNat 64 (a + b) := by
  rw [BitVec.add_assoc, ← BitVec.ofNat_add]

/-! ### JUMP_GRANT (R177) -/

section
variable {s : State} {c : CluId} {m cycles : Nat} (hj : (s.lane c).jump = some m) (hst : (s.seq c).st = 1 ∨ (s.seq c).st = 2 ∨ (s.seq c).st = 3)
  (hw : (s.seq c).holdWhy ≠ .ended) (hdue : s.jumpDue c = true)
include hj hst hw hdue

theorem State.jumpGrant_eq : s.jumpGrant c cycles = (s.pause c cycles).jumpTake c m := by
  unfold State.jumpGrant
  simp only [hj]
  exact if_pos ⟨hst, hw, hdue⟩

end

/-- What a granted jump can change where the stack has room. -/
theorem State.jumpTake_room (x : State) {c : Nat} (m : Nat) (h : (x.seq c).stack.length < 16) :
    x.jumpTake c m = match (x.seq c).hookOf 0x30 with
      | some a => (((x.countF (cluOff c Reg.plnJumpCnt) 31 16 1).addCyc c 3).enterHandler c 2 a).modLane c
          (fun k => { k with granted := false, jump := none })
      | none => ((x.countF (cluOff c Reg.plnJumpCnt) 31 16 1).addCyc c 3).setLane c
          { ((x.lane c).makeCurrent m).discard with jump := none, granted := false, ranSeg := false } := by
  unfold State.jumpTake
  exact if_neg (Nat.not_le_of_lt h)

end Sys2Proof.Machine

/-! JUMP_GRANT and INTERRUPT_ACCEPT (R131, R141 to R146, R151, R173, R174, R177). -/

namespace Sys2Proof.Machine

/-! ### JUMP_GRANT (R177) -/

/-- The jump is granted: its cycles are counted, and the jump itself. -/
def State.jumpCounted (s : State) (c : Nat) : State := (s.countF (cluOff c Reg.plnJumpCnt) 31 16 1).addCyc c 3

theorem State.jumpCounted_seq (s : State) (c : Nat) : (s.jumpCounted c).seq c = (s.seq c).counted 3 := by
  rw [State.jumpCounted, State.addCyc_seq_same, State.seq_countF]

/-- A lane that has gone to the target of its jump. -/
def Lane.jumped (l : Lane) (m : Nat) : Lane := { (l.makeCurrent m).discard with jump := none, granted := false, ranSeg := false }

section
variable {x : State} {c m : Nat} (h : (x.seq c).stack.length < 16)
include h

theorem State.jumpTake_plain (hk : (x.seq c).hookOf 0x30 = none) :
    x.jumpTake c m = (x.jumpCounted c).setLane c ((x.lane c).jumped m) := by
  rw [State.jumpTake_room x m h, hk]
  rfl

theorem State.jumpTake_hooked {a : Nat} (hk : (x.seq c).hookOf 0x30 = some a) :
    x.jumpTake c m = ((x.jumpCounted c).enterHandler c 2 a).modLane c (fun k => { k with granted := false, jump := none }) := by
  rw [State.jumpTake_room x m h, hk]
  rfl

end

theorem State.jumpCounted_frame (s : State) (c : Nat) :
    ChangesOnly [.one (.seq c), .one (.reg (cluOff c Reg.plnJumpCnt))] s (s.jumpCounted c) := by
  refine (State.addCyc_changes c 3 (State.countF_changes _ _ _ _ (Evolves.refl _ s) ?_) ?_).1 <;> exact Allows.mem (by simp)

/-- JUMP_CNT after a granted jump. -/
theorem State.jumpCounted_rdF (s : State) (c : Nat) :
    (s.jumpCounted c).rdF (cluOff c Reg.plnJumpCnt) 31 16 = min (s.rdF (cluOff c Reg.plnJumpCnt) 31 16 + 1) 65535 := by
  rw [State.jumpCounted, State.rdF, State.addCyc_rd, State.countF, ← State.rdF, State.rdF_wrF_same _ _ _ (by decide) (by decide)]
  simp only [satAdd]
  omega

section
variable {s : State} {q : SeqId} {c : CluId} {m cycles : Nat} (hcq : c.val = q.val) (hj : (s.lane c).jump = some m)
  (hst : (s.seq q).st = 1 ∨ (s.seq q).st = 2 ∨ (s.seq q).st = 3) (hw : (s.seq q).holdWhy ≠ .ended) (hdue : s.jumpDue c = true)
include hcq hj hst hw hdue

theorem jumpGrant_completes (hlen : (s.seq q).stack.length < 16) (hk : (s.seq q).hookOf 0x30 = none) :
    Completes (.jumpGrant ⟨c, cycles⟩) s [.one (.seq q), .one (.lane c), .one (.reg (cluOff c Reg.plnJumpCnt))] (fun t =>
      (t.lane c).place = { seg := m, plays := 0, g := 0 } ∧ (t.lane c).ring = [] ∧ (t.lane c).jump = none ∧
      (t.lane c).granted = false ∧ (t.seq q).cyc = (s.seq q).cyc + BitVec.ofNat 64 (pauseCycles (s.seq q) cycles + 3) ∧
      t.rdF (cluOff c Reg.plnJumpCnt) 31 16 = min (s.rdF (cluOff c Reg.plnJumpCnt) 31 16 + 1) 65535) := by
  rw [← hcq] at hst hw hlen hk ⊢
  have hp := s.pause_frame c cycles
  have heq : s.jumpGrant c cycles = ((s.pause c cycles).jumpCounted c).setLane c (((s.pause c cycles).lane c).jumped m) := by
    rw [State.jumpGrant_eq hj hst hw hdue]
    exact State.jumpTake_plain (by rwa [State.pause_seq]) (by rw [State.pause_seq]; exact hk)
  have hlane : (s.jumpGrant c cycles).lane c = ((s.pause c cycles).lane c).jumped m := by rw [heq, State.lane_setLane, if_pos rfl]
  refine ⟨_, rfl, ⟨by rw [hlane]; rfl, by rw [hlane]; rfl, by rw [hlane]; rfl, by rw [hlane]; rfl, ?_, ?_⟩, ?_⟩
  · rw [heq, State.seq_setLane, State.jumpCounted_seq, State.pause_seq]
    exact counted_add _ _ _
  · rw [heq, ← hp.rdF_eq 31 16 (by simp [Foot.covers])]
    rw [State.rdF, State.rd_setLane]
    exact (s.pause c cycles).jumpCounted_rdF c
  · rw [heq]
    refine (hp.subset (by simp)).trans (((State.jumpCounted_frame _ c).subset (by simp)).trans ?_)
    exact (State.setLane_changes c _ (Evolves.refl _ _) (Allows.mem (by simp))).1

theorem jumpGrant_hooked_completes {a : Nat} (hlen : (s.seq q).stack.length < 16) (hk : (s.seq q).hookOf 0x30 = some a) :
    Completes (.jumpGrant ⟨c, cycles⟩) s [.one (.seq q), .one (.lane c), .one (.reg (cluOff c Reg.plnJumpCnt))] (fun t =>
      (t.seq q).pos = .word a ∧ (t.lane c).jump = none ∧ (t.lane c).place = (s.lane c).place) := by
  rw [← hcq] at hst hw hlen hk ⊢
  have hp := s.pause_frame c cycles
  have heq : s.jumpGrant c cycles = (((s.pause c cycles).jumpCounted c).enterHandler c 2 a).modLane c
      (fun k => { k with granted := false, jump := none }) := by
    rw [State.jumpGrant_eq hj hst hw hdue]
    exact State.jumpTake_hooked (by rwa [State.pause_seq]) (by rw [State.pause_seq]; exact hk)
  have hlane : (s.jumpGrant c cycles).lane c = { s.lane c with granted := false, jump := none } := by
    rw [heq, State.lane_modLane, if_pos rfl, State.enterHandler_lane, (State.jumpCounted_frame _ c).lane_eq (by simp [Foot.covers]),
      hp.lane_eq (by simp [Foot.covers])]
  refine ⟨_, rfl, ⟨?_, by rw [hlane], by rw [hlane]⟩, ?_⟩
  · rw [heq, State.seq_modLane, State.enterHandler_seq]
    rfl
  · rw [heq]
    refine (hp.subset (by simp)).trans (((State.jumpCounted_frame _ c).subset (by simp)).trans ?_)
    exact (State.modLane_changes c _ (State.enterHandler_changes c 2 a (Evolves.refl _ _) (Allows.mem (by simp))) (Allows.mem (by simp))).1

theorem jumpGrant_full_completes (hlen : 16 ≤ (s.seq q).stack.length) :
    Completes (.jumpGrant ⟨c, cycles⟩) s [.one (.seq q), .one (.reg (seqOff q Reg.seqFault))] (fun t => Faulted s t q 0x03) := by
  have heq : s.jumpGrant c cycles = (s.pause q cycles).raiseFault q 0x03 (s.seq q).pc := by
    rw [State.jumpGrant_eq hj (hcq ▸ hst) (hcq ▸ hw) hdue, hcq]
    refine (if_pos ?_).trans ?_
    · rw [State.pause_seq]; exact hlen
    · rw [State.pause_seq]; rfl
  refine ⟨_, rfl, ?_, ?_⟩
  · rw [heq]
    exact State.raiseFault_faulted rfl (by rw [State.pause_seq]; rfl)
  · rw [heq]
    exact ((s.pause_frame q cycles).subset (by simp)).trans (State.raiseFault_frame _ _ _ _)

end

/-! ### INTERRUPT_ACCEPT (R141 to R146) -/

/-- A sequencer that has taken line `n`. -/
def Seq.taken (z : Seq) (n : Nat) : Seq := ({ z with pend := z.pend &&& ~~~ BitVec.ofNat 5 (2 ^ n) } : Seq).counted 3

/-- A sequencer that has taken a fault. -/
def Seq.faultTaken (z : Seq) : Seq := ({ z with pend := z.pend &&& 0x1E, waiting := false } : Seq).counted 3

/-- Line `n` is taken: the acceptance takes 3 cycles. -/
def State.lineTaken (x : State) (q n : Nat) : State :=
  (x.setSeq q { x.seq q with pend := (x.seq q).pend &&& ~~~ BitVec.ofNat 5 (2 ^ n) }).addCyc q 3

/-- FAULT is taken: the acceptance takes 3 cycles. -/
def State.faultTaken (x : State) (q : Nat) : State :=
  (x.setSeq q { x.seq q with pend := (x.seq q).pend &&& 0x1E, waiting := false }).addCyc q 3

theorem State.lineTaken_seq (x : State) (q n : Nat) : (x.lineTaken q n).seq q = (x.seq q).taken n := by
  rw [State.lineTaken, State.addCyc_seq_same, State.seq_setSeq_same]
  rfl

theorem State.faultTaken_seq (x : State) (q : Nat) : (x.faultTaken q).seq q = (x.seq q).faultTaken := by
  rw [State.faultTaken, State.addCyc_seq_same, State.seq_setSeq_same]
  rfl

theorem State.lineTaken_frame (x : State) (q n : Nat) : ChangesOnly [.one (.seq q)] x (x.lineTaken q n) :=
  (State.addCyc_changes q 3 (State.setSeq_changes q _ (Evolves.refl _ x) (Allows.mem (by simp))) (Allows.mem (by simp))).1

theorem State.faultTaken_frame (x : State) (q : Nat) : ChangesOnly [.one (.seq q)] x (x.faultTaken q) :=
  (State.addCyc_changes q 3 (State.setSeq_changes q _ (Evolves.refl _ x) (Allows.mem (by simp))) (Allows.mem (by simp))).1

/-- The sequencer of a hooked FAULT handler, which pushes no frame. -/
def Seq.faultEntered (z : Seq) (a : Nat) : Seq :=
  { z.goto (.word a) with st := 1, holdWhy := .none, inFault := true, latched := some 0, waited := 0, arrived := none, released := false }

/-- A STOP that a lane accepts takes its jump request. -/
def State.jumpDropped (x : State) (q : Nat) : State := if q = 32 then x else x.modLane q (fun l => { l with jump := none, granted := false })

section
variable {x : State} {q : Nat}

theorem State.acceptDue_fault (hd : (x.seq q).dueLine = some 0) :
    x.acceptDue q = match (x.seq q).hookOf 0x10 with
      | some a => (x.faultTaken q).modSeq q (fun y => y.faultEntered a)
      | none => (x.faultTaken q).faultHandler q := by
  unfold State.acceptDue
  simp only [hd]
  rfl

theorem State.acceptDue_stop (hd : (x.seq q).dueLine = some 1) (hlen : (x.seq q).stack.length < 16) :
    x.acceptDue q = match (x.seq q).hookOf 0x20 with
      | some a => ((x.lineTaken q 1).jumpDropped q).enterHandler q 1 a
      | none => ((x.lineTaken q 1).jumpDropped q).stopHandler q := by
  unfold State.acceptDue
  simp only [hd]
  exact if_neg (Nat.not_le_of_lt hlen)

/-- The vector of a line below STOP (R142). -/
def State.vectorOf (x : State) (q n : Nat) : Nat :=
  if n = 3 then fieldOf (x.rd (seqOff q Reg.seqIvec)) 13 0 else fieldOf (x.rd (seqOff q Reg.seqIvec)) 29 16

theorem State.acceptDue_line {n : Nat} (hd : (x.seq q).dueLine = some n) (hn : n = 3 ∨ n = 4) (hlen : (x.seq q).stack.length < 16) :
    x.acceptDue q = (x.lineTaken q n).enterHandler q n (x.vectorOf q n) := by
  unfold State.acceptDue
  obtain rfl | rfl := hn
  all_goals
    simp only [hd]
    exact if_neg (Nat.not_le_of_lt hlen)

theorem State.acceptDue_full {n : Nat} (hd : (x.seq q).dueLine = some n) (hn : n ≠ 0) (hlen : 16 ≤ (x.seq q).stack.length) :
    x.acceptDue q = x.raiseFault q 0x03 (x.seq q).pc := by
  unfold State.acceptDue
  obtain ⟨k, rfl⟩ := Nat.exists_eq_succ_of_ne_zero hn
  simp only [hd]
  exact if_pos hlen

end

section
variable {s : State} {q : SeqId} {cycles : Nat} (hst : (s.seq q).st = 1 ∨ (s.seq q).st = 2 ∨ (s.seq q).st = 3)
  (hw : (s.seq q).holdWhy ≠ .ended)
include hst hw

theorem State.accept_eq {n : Nat} (hd : (s.seq q).dueLine = some n) (hj : 2 < n → q.val < 32 → s.jumpDue q = false) :
    s.accept q cycles = (s.pause q cycles).acceptDue q := by
  refine if_pos ?_
  unfold State.canAccept
  have hdue : (!(decide (q.val < 32 ∧ 2 < n) && s.jumpDue q)) = true := by
    by_cases h : q.val < 32 ∧ 2 < n
    · rw [hj h.2 h.1, Bool.and_false]; rfl
    · rw [decide_eq_false h]; rfl
  simp only [hd, hdue, Bool.and_true]
  simpa [hw, or_assoc] using hst

theorem accept_line_completes {n : Nat} (hd : (s.seq q).dueLine = some n) (hn : n = 3 ∨ n = 4) (hj : q.val < 32 → s.jumpDue q = false)
    (hlen : (s.seq q).stack.length < 16) : Completes (.interruptAccept ⟨q, cycles⟩) s [.one (.seq q)] (fun t =>
      (t.seq q).st = 1 ∧ (t.seq q).pend.getLsbD n = false ∧ (t.seq q).latched = some n ∧
      (t.seq q).cyc = (s.seq q).cyc + BitVec.ofNat 64 (pauseCycles (s.seq q) cycles + 3) ∧
      (t.seq q).pos = .word (if n = 3 then fieldOf (s.rd (seqOff q Reg.seqIvec)) 13 0 else fieldOf (s.rd (seqOff q Reg.seqIvec)) 29 16) ∧
      ∃ f : Frame, (t.seq q).stack = f :: (s.seq q).stack ∧ f.line = some n ∧ f.pos = (s.seq q).pos ∧ f.left = (s.seq q).left ∧
        f.waiting = (s.seq q).waiting ∧ f.arrived = (s.seq q).arrived ∧
        f.waited = (if (s.seq q).waiting then max (s.seq q).waited cycles else (s.seq q).waited)) := by
  have hp := s.pause_frame q cycles
  have heq : s.accept q cycles = ((s.pause q cycles).lineTaken q n).enterHandler q n (s.vectorOf q n) := by
    rw [State.accept_eq hst hw hd (fun _ => hj), State.acceptDue_line (by rw [State.pause_seq]; exact hd) hn (by rwa [State.pause_seq]),
      State.vectorOf, hp.rd_eq (by simp [Foot.covers])]
    rfl
  have hseq : (s.accept q cycles).seq q = (((s.seq q).paused cycles).taken n).entered n (s.vectorOf q n) := by
    rw [heq, State.enterHandler_seq, State.lineTaken_seq, State.pause_seq]
  refine ⟨_, rfl, ⟨by rw [hseq]; rfl, ?_, by rw [hseq]; rfl, ?_, by rw [hseq]; rfl, ?_⟩, ?_⟩
  · rw [hseq]
    show ((s.seq q).pend &&& ~~~ BitVec.ofNat 5 (2 ^ n)).getLsbD n = false
    rw [BitVec.getLsbD_and]
    obtain rfl | rfl := hn <;> simp
  · rw [hseq]
    exact counted_add _ _ _
  · refine ⟨((s.seq q).paused cycles).frame (some n) (s.seq q).pos (s.seq q).left, by rw [hseq]; rfl, rfl, rfl, rfl, rfl, rfl, rfl⟩
  · rw [heq]
    refine hp.trans ((State.lineTaken_frame _ q n).trans ?_)
    exact (State.enterHandler_changes q n _ (Evolves.refl _ _) (Allows.mem (by simp))).1

theorem accept_full_completes {n : Nat} (hd : (s.seq q).dueLine = some n) (hn : n ≠ 0) (hj : 2 < n → q.val < 32 → s.jumpDue q = false)
    (hlen : 16 ≤ (s.seq q).stack.length) :
    Completes (.interruptAccept ⟨q, cycles⟩) s [.one (.seq q), .one (.reg (seqOff q Reg.seqFault))] (fun t => Faulted s t q 0x03) := by
  have heq : s.accept q cycles = (s.pause q cycles).raiseFault q 0x03 (s.seq q).pc := by
    rw [State.accept_eq hst hw hd hj, State.acceptDue_full (by rw [State.pause_seq]; exact hd) hn (by rwa [State.pause_seq]), State.pause_seq]
    rfl
  refine ⟨_, rfl, ?_, ?_⟩
  · rw [heq]
    exact State.raiseFault_faulted rfl (by rw [State.pause_seq]; rfl)
  · rw [heq]
    exact ((s.pause_frame q cycles).subset (by simp)).trans (State.raiseFault_frame _ _ _ _)

end

end Sys2Proof.Machine

/-! The acceptance of FAULT and STOP (R131, R141, R146, R151, R173, R174). -/

namespace Sys2Proof.Machine

/-! ### FAULT as it is taken -/

/-- The flag of a fault, with its event. -/
def State.faultNoted (x : State) (q : Nat) : State :=
  (x.raise (seqOff q Reg.seqFlags) 1).post (if q = 32 then 256 else evLane q 4) 0x06
    (evData [(0, ((x.seq q).fault.getD (0, 0)).1), (16, ((x.seq q).fault.getD (0, 0)).2)])

theorem State.faultHandler_eq (x : State) (q : Nat) : x.faultHandler q = ((x.faultNoted q).anyEnd q).planFaulted := rfl

/-- The registers of events are no sequencer's. -/
theorem events_covers_seqFlags (q : SeqId) : Foot.covers .events (.reg (seqOff q Reg.seqFlags)) = false := by
  unfold seqOff
  split
  · decide
  · exact events_covers_cluOff _ _

theorem plnState_ne_seqFlags (q : SeqId) : Reg.plnState ≠ seqOff q Reg.seqFlags := by
  have h := le_cluOff q Reg.seqFlags
  unfold seqOff
  split <;> simp only [Reg.plnState, Reg.seqFlags] at * <;> omega

theorem State.faultNoted_flag (x : State) (q : SeqId) (hr : x.retained (seqOff q Reg.seqFlags) = false) :
    (x.faultNoted q).rdB (seqOff q Reg.seqFlags) 1 = true := by
  rw [State.rdB, State.faultNoted, State.post_rd _ _ _ _ (events_covers_seqFlags q)]
  exact x.raise_rdB _ hr (by decide)

@[simp] theorem State.faultNoted_seq (x : State) (q i : Nat) : (x.faultNoted q).seq i = x.seq i := by
  rw [State.faultNoted, State.seq_post, State.seq_raise]

theorem State.anyEnd_rd (x : State) (q : SeqId) (o : Nat) : (x.anyEnd q).rd o = x.rd o := by
  unfold State.anyEnd
  split <;> rfl

/-- The end of a part leaves the master's sequencer idle, if it is the master's part, and otherwise as it is. -/
theorem State.anyEnd_master_ne (x : State) {q : SeqId} (h : (x.seq 32).st ≠ 4) : ((x.anyEnd q).seq 32).st ≠ 4 := by
  unfold State.anyEnd
  split
  next => rw [x.masterEnd_st h]; decide
  next hq => rw [State.partEnd_seq, if_neg (Ne.symm hq)]; exact h

theorem State.retained_eq_of_frame {s t : State} {K : List Foot} (h : ChangesOnly K s t) (hk : ∀ k ∈ K, k.covers (.reg Reg.memRetState) = false)
    (o : Nat) : t.retained o = s.retained o := by
  unfold State.retained
  rw [h.rdB_eq _ hk]

/-! ### STOP as it is taken -/

/-- The state in which an accepted STOP enters its handler. -/
def State.stopTaken (s : State) (q cycles : Nat) : State := ((s.pause q cycles).lineTaken q 1).jumpDropped q

theorem State.stopTaken_seq (s : State) (q cycles : Nat) : (s.stopTaken q cycles).seq q = ((s.seq q).paused cycles).taken 1 := by
  rw [← State.pause_seq, ← State.lineTaken_seq]
  unfold State.stopTaken State.jumpDropped
  split <;> rfl

theorem State.jumpDropped_frame (x : State) (q : Nat) : ChangesOnly [.one (.lane q)] x (x.jumpDropped q) := by
  unfold State.jumpDropped
  split
  next => exact ChangesOnly.refl _ x
  next => exact (State.modLane_changes q _ (Evolves.refl _ x) (Allows.mem (by simp))).1

theorem State.stopTaken_frame (s : State) (q cycles : Nat) : ChangesOnly [.one (.seq q), .one (.lane q)] s (s.stopTaken q cycles) :=
  (((s.pause_frame q cycles).trans (State.lineTaken_frame _ q 1)).subset (by simp)).trans ((State.jumpDropped_frame _ q).subset (by simp))

/-! ### The acceptance -/

section
variable {s : State} {q : SeqId} {cycles : Nat} (hst : (s.seq q).st = 1 ∨ (s.seq q).st = 2 ∨ (s.seq q).st = 3)
  (hw : (s.seq q).holdWhy ≠ .ended)
include hst hw

theorem accept_fault_completes (hd : (s.seq q).dueLine = some 0) (hk : (s.seq q).hookOf 0x10 = none) :
    Completes (.interruptAccept ⟨q, cycles⟩) s [.seqs, .lanes, .one .plan, .one (.reg Reg.plnState), .pair (seqOff q Reg.seqFlags), .events]
      (fun t => t.plan.faulted = true ∧ (s.retained (seqOff q Reg.seqFlags) = false → t.rdB (seqOff q Reg.seqFlags) 1 = true) ∧
        (q.val < 32 → (t.lane q).ended = true) ∧ (q.val = 32 ∨ (s.seq 32).st ≠ 4 → (t.seq 32).st = 0)) := by
  have hframe := (s.pause_frame q cycles).trans (State.faultTaken_frame _ q)
  have heq : s.accept q cycles = ((((s.pause q cycles).faultTaken q).faultNoted q).anyEnd q).planFaulted := by
    rw [State.accept_eq hst hw hd (fun h => absurd h (by decide)), State.acceptDue_fault (by rw [State.pause_seq]; exact hd),
      show ((s.pause q cycles).seq q).hookOf 0x10 = none by rw [State.pause_seq]; exact hk]
    rfl
  have hmaster : q.val = 32 ∨ (s.seq 32).st ≠ 4 → (((s.pause q cycles).faultTaken q).seq 32).st ≠ 4 := by
    intro h
    by_cases hq : q.val = 32
    · rw [← hq, State.faultTaken_seq, State.pause_seq]
      show (s.seq q).st ≠ 4
      omega
    · rw [hframe.seq_eq (by simpa [Foot.covers] using hq)]
      exact h.resolve_left hq
  refine ⟨_, rfl, ?_, ?_⟩
  · rw [heq]
    refine ⟨by rw [State.planFaulted_plan], fun hr => ?_, fun hq => ?_, fun h => ?_⟩
    · rw [(State.planFaulted_frame _).rdB_eq 1 (by simp [Foot.covers, plnState_ne_seqFlags]), State.rdB, State.anyEnd_rd]
      refine State.faultNoted_flag _ _ ?_
      rw [State.retained_eq_of_frame hframe (by simp [Foot.covers])]
      exact hr
    · refine State.planFaulted_ended _ ?_
      rw [State.anyEnd_lane _ ⟨q, hq⟩, State.partEnd_lane, if_pos rfl]
      rfl
    · refine State.planFaulted_st _ (State.anyEnd_master_ne _ ?_)
      rw [State.faultNoted_seq]
      exact hmaster h
  · rw [heq, ← State.faultHandler_eq]
    have hseq : Allows [.seqs, .lanes, .one .plan, .one (.reg Reg.plnState), .pair (seqOff q Reg.seqFlags), .events] (.one (.seq q)) :=
      (Allows.mem (k := .seqs) (by simp)).seqOf
    refine (State.faultHandler_changes q (State.addCyc_changes q 3 (State.setSeq_changes q _ (State.pause_changes q cycles (Evolves.refl _ s)
      hseq) hseq) hseq) ?_ ?_ ?_ ?_ ?_ ?_).1 <;> exact Allows.mem (by simp)

theorem accept_fault_hooked_completes {a : Nat} (hd : (s.seq q).dueLine = some 0) (hk : (s.seq q).hookOf 0x10 = some a) :
    Completes (.interruptAccept ⟨q, cycles⟩) s [.one (.seq q)] (fun t =>
      (t.seq q).pos = .word a ∧ (t.seq q).inFault = true ∧ (t.seq q).latched = some 0 ∧ (t.seq q).pend.getLsbD 0 = false ∧
      (t.seq q).stack = (s.seq q).stack) := by
  have heq : s.accept q cycles = ((s.pause q cycles).faultTaken q).modSeq q (fun y => y.faultEntered a) := by
    rw [State.accept_eq hst hw hd (fun h => absurd h (by decide)), State.acceptDue_fault (by rw [State.pause_seq]; exact hd),
      show ((s.pause q cycles).seq q).hookOf 0x10 = some a by rw [State.pause_seq]; exact hk]
  have hseq : (s.accept q cycles).seq q = ((s.seq q).paused cycles).faultTaken.faultEntered a := by
    rw [heq, State.seq_modSeq_same, State.faultTaken_seq, State.pause_seq]
  refine ⟨_, rfl, ⟨by rw [hseq]; rfl, by rw [hseq]; rfl, by rw [hseq]; rfl, ?_, by rw [hseq]; rfl⟩, ?_⟩
  · rw [hseq]
    show ((s.seq q).pend &&& 0x1E).getLsbD 0 = false
    rw [BitVec.getLsbD_and]
    simp
  · rw [heq]
    refine ((s.pause_frame q cycles).trans (State.faultTaken_frame _ q)).trans ?_
    exact (State.modSeq_changes q _ (Evolves.refl _ _) (Allows.mem (by simp))).1

theorem State.accept_stop (hd : (s.seq q).dueLine = some 1) (hlen : (s.seq q).stack.length < 16) :
    s.accept q cycles = match (s.seq q).hookOf 0x20 with
      | some a => (s.stopTaken q cycles).enterHandler q 1 a
      | none => (s.stopTaken q cycles).stopHandler q := by
  rw [State.accept_eq hst hw hd (fun h => absurd h (by decide)),
    State.acceptDue_stop (by rw [State.pause_seq]; exact hd) (by rwa [State.pause_seq]), State.pause_seq]
  rfl

theorem accept_stop_hooked_completes {a : Nat} (hd : (s.seq q).dueLine = some 1) (hlen : (s.seq q).stack.length < 16)
    (hk : (s.seq q).hookOf 0x20 = some a) : Completes (.interruptAccept ⟨q, cycles⟩) s [.one (.seq q), .one (.lane q)] (fun t =>
      (t.seq q).pos = .word a ∧ ∃ f : Frame, (t.seq q).stack = f :: (s.seq q).stack ∧ f.line = some 1 ∧ f.pos = (s.seq q).pos) := by
  have heq : s.accept q cycles = (s.stopTaken q cycles).enterHandler q 1 a := by rw [State.accept_stop hst hw hd hlen, hk]
  have hseq : (s.accept q cycles).seq q = (((s.seq q).paused cycles).taken 1).entered 1 a := by
    rw [heq, State.enterHandler_seq, State.stopTaken_seq]
  refine ⟨_, rfl, ⟨by rw [hseq]; rfl, ((s.seq q).paused cycles).frame (some 1) (s.seq q).pos (s.seq q).left, by rw [hseq]; rfl, rfl, rfl⟩, ?_⟩
  rw [heq]
  exact (s.stopTaken_frame q cycles).trans (State.enterHandler_changes q 1 a (Evolves.refl _ _) (Allows.mem (by simp))).1

/-- A lane's part ends at STOP; FAULT_STOP does not come to this, for it accepts nothing. -/
theorem accept_stop_lane_completes (hd : (s.seq q).dueLine = some 1) (hlen : (s.seq q).stack.length < 16)
    (hk : (s.seq q).hookOf 0x20 = none) (hq : q.val < 32) :
    Completes (.interruptAccept ⟨q, cycles⟩) s [.one (.seq q), .one (.lane q)] (fun t =>
      (t.lane q).ended = true ∧ (t.lane q).jump = none ∧ (t.seq q).st = 2 ∧ (t.seq q).holdWhy = .ended ∧ (t.seq q).pend = 0) := by
  have heq : s.accept q cycles = (s.stopTaken q cycles).partEnd q := by
    rw [State.accept_stop hst hw hd hlen, hk]
    exact if_neg (by omega)
  have hlane : (s.accept q cycles).lane q = ((s.stopTaken q cycles).lane q).partEnded := by rw [heq, State.partEnd_lane, if_pos rfl]
  have hseq : (s.accept q cycles).seq q = (((s.seq q).paused cycles).taken 1).partEnded := by
    rw [heq, State.partEnd_seq, if_pos rfl, State.stopTaken_seq]
  refine ⟨_, rfl, ⟨by rw [hlane]; rfl, by rw [hlane]; rfl, ?_, by rw [hseq]; rfl, by rw [hseq]; rfl⟩, ?_⟩
  · rw [hseq]
    refine if_neg (?_ : (s.seq q).st ≠ 4)
    omega
  · rw [heq]
    refine (s.stopTaken_frame q cycles).trans (State.partEnd_changes q (Evolves.refl _ _) ?_ ?_).1 <;> exact Allows.mem (by simp)

theorem accept_stop_master_completes (hd : (s.seq q).dueLine = some 1) (hlen : (s.seq q).stack.length < 16)
    (hk : (s.seq q).hookOf 0x20 = none) (hq : q.val = 32) :
    Completes (.interruptAccept ⟨q, cycles⟩) s [.seqs, .lanes, .one .plan, .one (.reg Reg.plnState)] (fun t =>
      t.plan.stopped = true ∧ (t.seq 32).st = 0) := by
  have heq : s.accept q cycles = (s.stopTaken q cycles).hostStopped.planStop.masterEnd := by
    rw [State.accept_stop hst hw hd hlen, hk]
    exact if_pos hq
  refine ⟨_, rfl, ?_, ?_⟩
  · rw [heq]
    refine ⟨by rw [State.masterEnd_plan, State.planStop_plan]; rfl, State.planStop_masterEnd_st _ ?_⟩
    show ((s.stopTaken q cycles).seq 32).st ≠ 4
    rw [← hq, State.stopTaken_seq]
    show (s.seq q).st ≠ 4
    omega
  · rw [heq]
    have hseq : Allows [.seqs, .lanes, .one .plan, .one (.reg Reg.plnState)] (.one (.seq q)) := (Allows.mem (k := .seqs) (by simp)).seqOf
    have hstop : s.stopTaken q cycles = (s.pause q cycles).lineTaken q 1 := if_pos hq
    rw [hstop]
    refine (State.stopHandler_changes 32 (State.addCyc_changes q 3 (State.setSeq_changes q _ (State.pause_changes q cycles (Evolves.refl _ s)
      hseq) hseq) hseq) ?_ ?_ ?_ ?_).1 <;> exact Allows.mem (by simp)

end

/-- Settles O31: each clause is the law of its command above. -/
theorem timersHoldsAndInterrupts : Obligations.TimersHoldsAndInterrupts := by
  refine ⟨fun s q => ⟨timerExpire_completes, next_room_completes, next_delayed_completes, fun cycles => holdRelease_completes cycles,
    fun c m cycles hcq hj hst hw hdue => ⟨jumpGrant_completes hcq hj hst hw hdue, fun _ => jumpGrant_hooked_completes hcq hj hst hw hdue,
      jumpGrant_full_completes hcq hj hst hw hdue⟩⟩,
    fun s q cycles hst hw => ⟨fun hd => ⟨accept_fault_completes hst hw hd, fun _ => accept_fault_hooked_completes hst hw hd⟩,
      fun hd hlen => ⟨fun hk => ⟨accept_stop_lane_completes hst hw hd hlen hk, accept_stop_master_completes hst hw hd hlen hk⟩,
        fun _ => accept_stop_hooked_completes hst hw hd hlen⟩,
      fun n hd hn hj => ⟨accept_line_completes hst hw hd hn hj, accept_full_completes hst hw hd (by omega) (fun _ => hj)⟩⟩⟩

end Sys2Proof.Machine

/-! What the operations of a microword beside its class do: its posts, its markers and its signals (R121, R124, R127, R136 to R139, R172). -/

namespace Sys2Proof.Machine

/-! ### Posts of a lane -/

/-- A sequencer with a data word (R136). -/
def Seq.withData (z : Seq) (d : Nat) : Seq := { z with gen := { z.gen with d := d } }

/-- A lane without what an execution moves: the queue, the ring, the place in the segment, and the fail latch. -/
def Lane.standing (l : Lane) : Lane := { l with queue := [], ring := [], place := { l.place with plays := 0, g := 0 }, failLatch := false }

/-- Posts of lane `c` lead from `s` to `t`. -/
structure Posts (c : Nat) (s t : State) : Prop where
  frame : ChangesOnly [.one (.seq c), .one (.lane c), .one (.reg (cluOff c Reg.ddsStatus))] s t
  seq : ∃ d, t.seq c = (s.seq c).withData d
  lane : (t.lane c).standing = (s.lane c).standing

theorem Seq.withData_self (z : Seq) : z.withData z.gen.d = z := rfl

theorem Posts.refl (c : Nat) (s : State) : Posts c s s := ⟨ChangesOnly.refl _ s, ⟨_, (Seq.withData_self _).symm⟩, rfl⟩

theorem Posts.trans {c : Nat} {s t u : State} (h : Posts c s t) (h' : Posts c t u) : Posts c s u := by
  obtain ⟨d, hd⟩ := h.seq
  obtain ⟨d', hd'⟩ := h'.seq
  exact ⟨h.frame.trans h'.frame, ⟨d', by rw [hd', hd]; rfl⟩, h'.lane.trans h.lane⟩

theorem Posts.plan {c : Nat} {s t : State} (h : Posts c s t) : t.plan = s.plan := h.frame .plan (by simp [Foot.covers])

/-- A lane that keeps all but its queue, its ring and its place. -/
theorem Posts.setLane (s : State) {c : Nat} {v : Lane} (h : v.standing = (s.lane c).standing) : Posts c s (s.setLane c v) :=
  ⟨(State.setLane_changes c v (Evolves.refl _ s) (Allows.mem (by simp))).1, ⟨_, (s.seq_setLane c v c).trans (Seq.withData_self _).symm⟩,
    by rw [State.lane_setLane, if_pos rfl, h]⟩

/-- DDS_STATUS moves. -/
theorem Posts.wrB (s : State) (c n : Nat) (b : Bool) : Posts c s (s.wrB (cluOff c Reg.ddsStatus) n b) :=
  ⟨(State.wrB_changes _ n b (Evolves.refl _ s) (Allows.mem (by simp))).1, ⟨_, (s.seq_wrB _ n b c).trans (Seq.withData_self _).symm⟩,
    by rw [State.lane_wrB]⟩

theorem Lane.advance_standing (l : Lane) : l.advance.standing = l.standing := by
  unfold Lane.advance
  dsimp only
  split <;> rfl

/-- A post of a stream granule, under HOLD. -/
theorem State.streamOne_posts {s : State} (c : Nat) (ha : s.plan.abort = false) : Posts c s (s.streamOne c none) := by
  unfold State.streamOne
  dsimp only
  split
  next => exact Posts.refl c s
  next =>
    split
    next => exact Posts.setLane s rfl
    next =>
      split
      next =>
        refine Posts.setLane s ((Lane.advance_standing _).trans ?_)
        split <;> rfl
      next h => cases h
      next =>
        rw [if_neg (by simp [ha])]
        exact Posts.setLane s rfl

/-- A post is repeated. -/
theorem State.times_posts {c : Nat} {f : State → State} {p : Plan} (hf : ∀ t, t.plan = p → Posts c t (f t)) (n : Nat) {s : State}
    (hs : s.plan = p) : Posts c s (State.times f n s) := by
  induction n generalizing s with
  | zero => exact Posts.refl c s
  | succ n ih => exact (hf s hs).trans (ih ((hf s hs).plan.trans hs))

/-- An address as GEN posts it. -/
def State.postAddr (s : State) (lo : Nat) (w : UWord) (x : Nat) : Nat := if w.ascr then s.scramble lo x else x

/-- The data word that GEN posts (R136). -/
def State.postData (s : State) (c : Nat) (w : UWord) : Nat :=
  dataWord (s.seq c).gen (s.postAddr (cluOff c Reg.seqXscr0) w (s.seq c).gen.x) (s.postAddr (cluOff c Reg.seqYscr0) w (s.seq c).gen.y)
    w.dsrc w.dinv

/-- The codes that GEN posts (R137). -/
def State.postCodes (s : State) (c : Nat) (w : UWord) : Nat :=
  (List.range 16).foldl (fun a k => a + roleCode (s.role c k) (s.postAddr (cluOff c Reg.seqXscr0) w (s.seq c).gen.x)
    (s.postAddr (cluOff c Reg.seqYscr0) w (s.seq c).gen.y) (s.seq c).gen.z (s.postData c w) w.dir * 4 ^ k) 0

/-- The vector that GEN posts (R136 to R138). -/
def State.genVec (s : State) (c : Nat) (w : UWord) : Vec :=
  { (s.lane c).keepVec false with
    codes := BitVec.ofNat 32 (s.postCodes c w), tset := w.tset
    gen := some { x := (s.seq c).gen.x, y := (s.seq c).gen.y, z := (s.seq c).gen.z, d := s.postData c w } }

theorem State.genPost_eq (s : State) (c : Nat) (w : UWord) : s.genPost c w =
    (s.setSeq c ((s.seq c).withData (s.postData c w))).setLane c ((s.lane c).pushVecs (List.replicate w.vcnt (s.genVec c w))) := rfl

theorem State.genPost_posts (s : State) (c : Nat) (w : UWord) : Posts c s (s.genPost c w) := by
  refine ⟨(State.genPost_changes c w (Evolves.refl _ s) ?_ ?_).1, ⟨s.postData c w, ?_⟩, ?_⟩
  · exact Allows.mem (by simp)
  · exact Allows.mem (by simp)
  · rw [s.genPost_eq, State.seq_setLane, State.seq_setSeq_same]
  · rw [s.genPost_eq, State.lane_setLane, if_pos rfl]
    rfl

/-- The token that DDSGO posts (R361, R364). -/
def State.nextToken (s : State) (c : Nat) : Token :=
  let l := s.lane c
  { keep := l.keepVec false, named := if l.cur.kind = 2 then some l.cur.base else none, entry := s.ddsEntry c, play := l.place.plays,
    g := l.place.g, enter := l.place.plays == 0 && l.place.g == 0 }

/-- A lane that has posted a token. -/
def Lane.tokenPosted (l : Lane) (k : Token) : Lane :=
  if l.cur.kind = 2 ∧ ¬ l.exhausted then ({ l with queue := l.queue ++ [Item.token k] } : Lane).advance
  else { l with queue := l.queue ++ [Item.token k] }

theorem Lane.tokenPosted_standing (l : Lane) (k : Token) : (l.tokenPosted k).standing = l.standing := by
  unfold Lane.tokenPosted
  split
  next => exact (Lane.advance_standing _).trans rfl
  next => rfl

theorem State.ddsOne_eq {s : State} {c : Nat} (he : ¬ (s.lane c).ended = true) :
    s.ddsOne c = if ((s.lane c).tokenPosted (s.nextToken c)).cur.kind = 2 ∧ ((s.lane c).tokenPosted (s.nextToken c)).exhausted = true ∧
        ¬ (s.lane c).exhausted = true
      then (s.setLane c ((s.lane c).tokenPosted (s.nextToken c))).wrB (cluOff c Reg.ddsStatus) 24 true
      else s.setLane c ((s.lane c).tokenPosted (s.nextToken c)) := by
  unfold State.ddsOne
  exact if_neg he

theorem State.ddsOne_posts (s : State) (c : Nat) : Posts c s (s.ddsOne c) := by
  by_cases he : (s.lane c).ended = true
  · rw [State.ddsOne, if_pos he]
    exact Posts.refl c s
  · have hset : Posts c s (s.setLane c ((s.lane c).tokenPosted (s.nextToken c))) := Posts.setLane s (Lane.tokenPosted_standing _ _)
    rw [State.ddsOne_eq he]
    split
    · exact hset.trans (Posts.wrB _ c 24 true)
    · exact hset

theorem State.ddsGoPost_posts (s : State) (c n : Nat) : Posts c s (s.ddsGoPost c n) := by
  unfold State.ddsGoPost
  split
  next => exact Posts.refl c s
  next => exact (Posts.wrB s c 24 false).trans (State.times_posts (fun t _ => t.ddsOne_posts c) n rfl)

/-- The vector operation of a word posts, where an underrun would not end the part. -/
theorem State.vopPost_posts {s : State} (c : Nat) {w : UWord} (ha : w.vop = 1 → s.plan.abort = false) : Posts c s (s.vopPost c w none) := by
  unfold State.vopPost
  split
  next hv =>
    have hone : ∀ t : State, t.plan = s.plan → Posts c t (t.streamOne c none) := fun t ht => t.streamOne_posts c (by rw [ht]; exact ha hv)
    exact (hone s rfl).trans (State.times_posts hone _ (hone s rfl).plan)
  next => exact s.genPost_posts c w
  next => exact Posts.setLane s rfl
  next => exact s.ddsGoPost_posts c w.vcnt
  next => exact Posts.refl c s

theorem State.markers_posts (s : State) (c : Nat) (w : UWord) : Posts c s (s.markers c w) := by
  unfold State.markers
  split
  next => exact Posts.setLane s rfl
  next => exact Posts.refl c s

/-! ### The first cycle (R121) -/

/-- The response-table register that RTBL names (R139). -/
def rtblReg (q : Nat) (w : UWord) : Nat := chOff (16 * q + w.imm % 16) Reg.tgScrStgLo + 4 * (w.imm / 16 % 16 / 8)

/-- What a word posts to its lane. The master has none. -/
def State.posted (s : State) (q : Nat) (w : UWord) : State := if q = 32 then s else ((s.rtblWrite q w).vopPost q w none).markers q w

/-- The event and the mark of a word (R139). -/
def State.signalled (s : State) (q pc : Nat) (w : UWord) : State :=
  if w.mark ∧ q ≠ 32 then (s.evpPost q pc w).acqIn q (plainIn 5) else s.evpPost q pc w

/-- The sequencer after the first-cycle operations of a word. -/
def Seq.begun (z : Seq) (w : UWord) : Seq :=
  let z1 := if w.lcop = 1 then { z with lc := Tbl.set (fun _ => 0) z.lc w.lcsel w.imm } else z
  timerOp { z1 with flags := flagOp z1.flags w.fop w.fsel } w.top

theorem State.firstCycle_eq (s : State) (q : Nat) (w : UWord) :
    s.firstCycle q w none = ((s.posted q w).signalled q (s.seq q).pc w).modSeq q (fun z => z.begun w) := by
  unfold State.firstCycle State.posted State.signalled
  by_cases hq : q = 32
  · simp only [hq, if_true]
    rfl
  · simp only [hq, if_false]
    rfl

theorem State.evpPost_frame (s : State) (q pc : Nat) (w : UWord) : ChangesOnly [.events] s (s.evpPost q pc w) :=
  (State.evpPost_changes q pc w (Evolves.refl _ s) (Allows.mem (by simp))).1

theorem State.signalled_frame (s : State) (q pc : Nat) (w : UWord) : ChangesOnly [.one (.clu q), .events] s (s.signalled q pc w) := by
  unfold State.signalled
  split
  · exact ((s.evpPost_frame q pc w).subset (by simp)).trans (State.acqIn_changes q _ (Evolves.refl _ _) (Allows.mem (by simp))).1
  · exact (s.evpPost_frame q pc w).subset (by simp)

@[simp] theorem State.signalled_seq (s : State) (q pc : Nat) (w : UWord) (i : Nat) : (s.signalled q pc w).seq i = s.seq i :=
  (s.signalled_frame q pc w).seq_eq (by simp [Foot.covers])

@[simp] theorem State.signalled_lane (s : State) (q pc : Nat) (w : UWord) (i : Nat) : (s.signalled q pc w).lane i = s.lane i :=
  (s.signalled_frame q pc w).lane_eq (by simp [Foot.covers])

/-- RTBL writes its register, and no other class does. -/
theorem State.rtblWrite_frame (s : State) (q : Nat) (w : UWord) :
    ChangesOnly (if w.opc = 9 then [.one (.reg (rtblReg q w))] else []) s (s.rtblWrite q w) := by
  unfold State.rtblWrite
  split
  next => exact (State.setRespEntry_changes _ _ _ (Evolves.refl _ s) (Allows.mem (by simp [rtblReg]))).1
  next => exact ChangesOnly.refl _ s

theorem State.rtblWrite_keeps (s : State) (q : Nat) (w : UWord) (i : Nat) :
    (s.rtblWrite q w).seq i = s.seq i ∧ (s.rtblWrite q w).lane i = s.lane i ∧ (s.rtblWrite q w).plan = s.plan := by
  have hf := s.rtblWrite_frame q w
  refine ⟨hf.seq_eq ?_, hf.lane_eq ?_, hf .plan ?_⟩ <;>
  · split <;> simp [Foot.covers]

section
variable {s : State} (q : SeqId) {w : UWord} (ha : w.vop = 1 → s.plan.abort = false)
include ha

theorem State.posted_posts (hq : q.val ≠ 32) : Posts q (s.rtblWrite q w) (s.posted q w) := by
  rw [State.posted, if_neg hq]
  exact (State.vopPost_posts (s := s.rtblWrite q w) q (fun h => by rw [(s.rtblWrite_keeps q w 0).2.2]; exact ha h)).trans
    (State.markers_posts _ q w)

theorem State.posted_seq : ∃ d, (s.posted q w).seq q = (s.seq q).withData d := by
  by_cases hq : q.val = 32
  · exact ⟨(s.seq q).gen.d, by rw [State.posted, if_pos hq]; rfl⟩
  · obtain ⟨d, hd⟩ := (State.posted_posts q ha hq).seq
    exact ⟨d, by rw [hd, (s.rtblWrite_keeps q w q).1]⟩

theorem State.posted_standing : ((s.posted q w).lane q).standing = (s.lane q).standing := by
  by_cases hq : q.val = 32
  · rw [State.posted, if_pos hq]
  · rw [(State.posted_posts q ha hq).lane, (s.rtblWrite_keeps q w q).2.1]

theorem State.posted_frame : ChangesOnly (wordFoot q ++ if w.opc = 9 then [.one (.reg (rtblReg q w))] else []) s (s.posted q w) := by
  by_cases hq : q.val = 32
  · rw [State.posted, if_pos hq]
    exact ChangesOnly.refl _ s
  · exact ((s.rtblWrite_frame q w).subset (List.subset_append_right _ _)).trans
      ((State.posted_posts q ha hq).frame.subset (fun k hk => List.mem_append_left _ (by simp [wordFoot] at hk ⊢; tauto)))

end

end Sys2Proof.Machine

/-! What LSTART, LSTOP and BREL do (R128, R140, R143, R263, R264, R414). -/

namespace Sys2Proof.Machine

/-! ### The plan start (R263, R264) -/

/-- A property that each step keeps holds after the fold. -/
theorem foldl_keeps_of {α β : Type} {P : α → Prop} {op : α → β → α} (hkeep : ∀ x b, P x → P (op x b)) (l : List β) {x : α} (h : P x) :
    P (l.foldl op x) := List.foldlRecOn l op h (fun y hy b _ => hkeep y b hy)

/-- A property that each step keeps, and that the step of one entry of the list gives, holds after the fold. -/
theorem foldl_gives {α β : Type} {P : α → Prop} {op : α → β → α} (hkeep : ∀ x b, P x → P (op x b)) {b : β} (hgives : ∀ x, P (op x b)) {l : List β}
    (hb : b ∈ l) (x : α) : P (l.foldl op x) := by
  obtain ⟨m, n, rfl⟩ := List.append_of_mem hb
  rw [List.foldl_append, List.foldl_cons]
  exact foldl_keeps_of hkeep n (hgives _)

theorem State.wr_zero {s : State} {a o : Nat} (h : s.rd o = 0) : (s.wr a 0).rd o = 0 := by
  rw [State.rd_wr]
  split
  · rfl
  · exact h

/-- A bit that is cleared leaves a register zero. -/
theorem State.wrB_false_zero {s : State} {a n o : Nat} (h : s.rd o = 0) : (s.wrB a n false).rd o = 0 := by
  unfold State.wrB State.wrF
  rw [State.rd_wr]
  split
  next hoa =>
    subst hoa
    rw [h]
    simp [withField, b2n]
  next => exact h

/-- Site `k` at the plan start: its counts and its first fail are cleared. -/
def State.siteCleared (t : State) (k : Nat) : State :=
  (List.range 8).foldl (fun u i => u.wr (Reg.flFirst + 32 * k + 4 * i) 0)
    (((t.wr (Reg.flSiteFail + 16 * k) 0).wr (Reg.flSiteIndet + 16 * k) 0).wrB (Reg.flSiteStatus + 16 * k) 1 false)

theorem State.planStart_eq {s : State} (h : s.plan.started = false) :
    s.planStart = (List.range 64).foldl State.siteCleared (s.putPlan { s.plan with started := true, unrep := 0 }) :=
  if_neg (by simp [h])

theorem State.firstCleared_zero {t : State} {k o : Nat} (h : t.rd o = 0) :
    ((List.range 8).foldl (fun u i => u.wr (Reg.flFirst + 32 * k + 4 * i) 0) t).rd o = 0 :=
  foldl_keeps_of (P := fun u : State => u.rd o = 0) (fun _ _ hu => State.wr_zero hu) _ h

/-- A register that is zero stays so when a site is cleared. -/
theorem State.siteCleared_zero {t : State} {o : Nat} (k : Nat) (h : t.rd o = 0) : (t.siteCleared k).rd o = 0 :=
  State.firstCleared_zero (State.wrB_false_zero (State.wr_zero (State.wr_zero h)))

theorem State.siteCleared_fail (t : State) (k : Nat) : (t.siteCleared k).rd (Reg.flSiteFail + 16 * k) = 0 :=
  State.firstCleared_zero (State.wrB_false_zero (State.wr_zero (State.rd_wr_same _ _ _)))

theorem State.siteCleared_indet (t : State) (k : Nat) : (t.siteCleared k).rd (Reg.flSiteIndet + 16 * k) = 0 :=
  State.firstCleared_zero (State.wrB_false_zero (State.rd_wr_same _ _ _))

theorem State.planStart_counts {s : State} (h : s.plan.started = false) (k : Fin 64) :
    s.planStart.rd (Reg.flSiteFail + 16 * k) = 0 ∧ s.planStart.rd (Reg.flSiteIndet + 16 * k) = 0 := by
  rw [State.planStart_eq h]
  exact ⟨foldl_gives (P := fun t : State => t.rd (Reg.flSiteFail + 16 * k) = 0) (fun t c => State.siteCleared_zero c)
      (fun t => t.siteCleared_fail k) (List.mem_range.2 k.isLt) _,
    foldl_gives (P := fun t : State => t.rd (Reg.flSiteIndet + 16 * k) = 0) (fun t c => State.siteCleared_zero c)
      (fun t => t.siteCleared_indet k) (List.mem_range.2 k.isLt) _⟩

theorem State.siteCleared_plan (t : State) (k : Nat) : (t.siteCleared k).plan = t.plan := by
  exact foldl_keeps_of (P := fun u : State => u.plan = t.plan) (op := fun u i => u.wr (Reg.flFirst + 32 * k + 4 * i) 0) (fun _ _ hu => hu) _ rfl

/-- The run has started. -/
def Plan.begun (p : Plan) : Plan := if p.started then p else { p with started := true, unrep := 0 }

theorem State.planStart_plan (s : State) : s.planStart.plan = s.plan.begun := by
  unfold Plan.begun
  by_cases h : s.plan.started = true
  · rw [if_pos h]
    exact congrArg State.plan (if_pos h)
  · rw [if_neg h, State.planStart_eq (by simpa using h), State.foldl_keeps State.plan State.siteCleared_plan]
    rfl

theorem State.planStart_frame (s : State) :
    ChangesOnly [.one .plan, .regs Reg.flSiteFail (Reg.flSiteFail + 1024), .regs Reg.flFirst (Reg.flFirst + 2048)] s s.planStart := by
  refine (State.planStart_changes (Evolves.refl _ s) ?_ ?_ ?_).1 <;> exact Allows.mem (by simp)

theorem Plan.begun_started (p : Plan) : p.begun.started = true := by
  unfold Plan.begun
  split
  next h => exact h
  next => rfl

theorem Plan.begun_startDue (p : Plan) : p.begun.startDue = p.startDue := by unfold Plan.begun; split <;> rfl

/-! ### LSTART (R140, R414) -/

/-- A lane with one more start to fall. -/
def Lane.moreDue (l : Lane) : Lane := { l with due := l.due + 1 }

/-- An armed lane. -/
def Lane.nowArmed (l : Lane) : Lane := { l with armed := true }

/-- The lanes of LSTART take a start. -/
def State.lanesDue (s : State) (m : Nat) : State := (lanesOf m).foldl (fun t c => t.modLane c Lane.moreDue) s

/-- The lanes of LSTART are armed, and the plan starts. -/
def State.lanesArmed (s : State) (m : Nat) : State := ((lanesOf m).foldl (fun t c => t.modLane c Lane.nowArmed) s).wrF Reg.plnState 19 17 2

/-- START goes out by the role of the Causeway: from a time master, from none, or at once. -/
def State.startSent (s : State) : State :=
  if s.rdF Reg.clkStatus 3 2 = 1 then s.sendMsgQ 8 0 0
  else if s.rdF Reg.clkStatus 3 2 = 2 then s
  else s.putPlan { s.plan with startDue := s.plan.startDue + 1 }

theorem State.lstart_plain {s : State} {w : UWord} (h : w.imm.testBit 10 = false) : s.lstart w = s.planStart.lanesDue w.lanemask :=
  if_neg (by simp [h])

theorem State.lstart_aligned {s : State} {w : UWord} (h : w.imm.testBit 10 = true) :
    s.lstart w = (s.planStart.lanesArmed w.lanemask).startSent := if_pos h

theorem State.lanesDue_lane (s : State) (m c : Nat) :
    (s.lanesDue m).lane c = if c ∈ lanesOf m then (s.lane c).moreDue else s.lane c := State.foldl_modLane_lane _ (nodup_lanesOf m) s c

theorem State.lanesArmed_lane (s : State) (m c : Nat) :
    (s.lanesArmed m).lane c = if c ∈ lanesOf m then (s.lane c).nowArmed else s.lane c := State.foldl_modLane_lane _ (nodup_lanesOf m) s c

theorem State.lanesDue_frame (s : State) (m : Nat) : ChangesOnly [.lanes] s (s.lanesDue m) :=
  List.foldlRecOn _ _ (ChangesOnly.refl _ s) (fun _ ht c _ => ht.trans
    (State.modLane_changes c _ (Evolves.refl _ _) (Allows.mem (k := .lanes) (by simp)).laneOf).1)

theorem State.lanesArmed_frame (s : State) (m : Nat) : ChangesOnly [.lanes, .one (.reg Reg.plnState)] s (s.lanesArmed m) :=
  (List.foldlRecOn _ _ (ChangesOnly.refl _ s) (fun _ ht c _ => ht.trans
    (State.modLane_changes c _ (Evolves.refl _ _) (Allows.mem (k := .lanes) (by simp)).laneOf).1)).trans
    (State.wrF_changes _ _ _ _ (Evolves.refl _ _) (Allows.mem (by simp))).1

theorem State.lanesArmed_plnState (s : State) (m : Nat) : (s.lanesArmed m).plnState = 2 := State.rdF_wrF_same _ _ 2 (by decide) (by decide)

theorem State.startSent_frame (s : State) : ChangesOnly [.one .cwy, .one .plan] s s.startSent := by
  unfold State.startSent
  split
  · exact (s.sendMsgQ_frame 8 0 0).subset (by simp)
  · split
    · exact ChangesOnly.refl _ s
    · exact (State.putPlan_changes _ (Evolves.refl _ s) (Allows.mem (by simp))).1

@[simp] theorem State.startSent_lane (s : State) (c : Nat) : s.startSent.lane c = s.lane c := s.startSent_frame.lane_eq (by simp [Foot.covers])

/-- A run that has started stays so when START goes out. -/
theorem State.startSent_started (s : State) : s.startSent.plan.started = s.plan.started := by
  unfold State.startSent
  split
  · rw [(s.sendMsgQ_frame 8 0 0) .plan (by simp [Foot.covers])]
  · split <;> rfl

theorem State.startSent_master {s : State} (h : s.rdF Reg.clkStatus 3 2 = 1) :
    s.startSent.cwy.sendQ = s.cwy.sendQ ++ (if s.sendRoom then [startMsg] else []) ∧
    s.startSent.cwy.sendWait = s.cwy.sendWait ++ (if s.sendRoom then [] else [startMsg]) := by
  rw [State.startSent, if_pos h]
  unfold State.sendMsgQ
  by_cases hr : s.sendRoom = true
  · rw [if_pos hr, if_pos hr, if_pos hr, List.append_nil]
    exact ⟨rfl, rfl⟩
  · rw [if_neg hr, if_neg hr, if_neg hr, List.append_nil]
    exact ⟨rfl, rfl⟩

theorem State.startSent_alone {s : State} (h : s.rdF Reg.clkStatus 3 2 = 0) :
    s.startSent = s.putPlan { s.plan with startDue := s.plan.startDue + 1 } := by
  rw [State.startSent, if_neg (by omega), if_neg (by omega)]

theorem State.lstart_frame (s : State) (w : UWord) :
    ChangesOnly [.lanes, .one .plan, .one (.reg Reg.plnState), .regs Reg.flSiteFail (Reg.flSiteFail + 1024),
      .regs Reg.flFirst (Reg.flFirst + 2048), .one .cwy] s (s.lstart w) := by
  refine (State.lstart_changes w (Evolves.refl _ s) ?_ ?_ ?_ ?_ ?_ ?_).1 <;> exact Allows.mem (by simp)

/-- The end of a lane's part is as it was. -/
theorem State.lstart_ended (s : State) (w : UWord) (c : Nat) : ((s.lstart w).lane c).ended = (s.lane c).ended := by
  have hstart : s.planStart.lane c = s.lane c := s.planStart_frame.lane_eq (by simp [Foot.covers])
  cases h : w.imm.testBit 10 with
  | false =>
    rw [State.lstart_plain h, State.lanesDue_lane, hstart]
    split <;> rfl
  | true =>
    rw [State.lstart_aligned h, State.startSent_lane, State.lanesArmed_lane, hstart]
    split <;> rfl

/-! ### BREL (R128, R143) -/

/-- A sequencer that a release of barrier `b` finds. -/
def Seq.barrierFreed (z : Seq) (b : Nat) : Seq :=
  let z1 := if z.arrived = some b then { z with released := true } else z
  { z1 with stack := z1.stack.map (fun f => if f.arrived = some b then { f with released := true } else f) }

theorem State.brel_seq (s : State) (w : UWord) (i : Nat) :
    (s.brel w).seq i = if i ∈ lanesOf w.lanemask then (s.seq i).barrierFreed w.barsel else s.seq i :=
  State.foldl_modSeq_seq (fun z => z.barrierFreed w.barsel) (nodup_lanesOf _) s i

theorem Seq.barrierFreed_place (z : Seq) (b : Nat) :
    (z.barrierFreed b).pos = z.pos ∧ (z.barrierFreed b).arrived = z.arrived ∧ (z.barrierFreed b).released = (z.released || z.arrived == some b) := by
  unfold Seq.barrierFreed
  by_cases h : z.arrived = some b
  · simp [h]
  · simp [h]

theorem State.brel_frame (s : State) (w : UWord) : ChangesOnly [.seqs] s (s.brel w) :=
  List.foldlRecOn _ _ (ChangesOnly.refl _ s) (fun _ ht c _ => ht.trans
    (State.modSeq_changes c _ (Evolves.refl _ _) (Allows.mem (k := .seqs) (by simp)).seqOf).1)

end Sys2Proof.Machine

/-! One execution of a word that has an address (R120, R121, R126, R129, R130, R133 to R135). -/

namespace Sys2Proof.Machine

/-! ### The sequencer through an execution -/

/-- A sequencer without what the operations of a word move: counters, flags, timer, generators, carries and SEQ_CYC. -/
def Seq.control (z : Seq) : Seq :=
  { z with lc := [], flags := 0, tload := 0, timer := 0, timerOn := false, tmr := false, xc := false, yc := false, zc := false,
           gen := seqReset.gen, cyc := 0 }

theorem Seq.counted_control (z : Seq) (n : Nat) : (z.counted n).control = z.control := rfl

theorem Seq.withData_control (z : Seq) (d : Nat) : (z.withData d).control = z.control := rfl

theorem timerOp_control (z : Seq) (top : Nat) : (timerOp z top).control = z.control := by unfold timerOp; split <;> rfl

theorem Seq.begun_control (z : Seq) (w : UWord) : (z.begun w).control = z.control := by
  unfold Seq.begun
  rw [timerOp_control]
  split <;> rfl

theorem setReg_control (z : Seq) (imm : Nat) : (setReg z imm).control = z.control := by unfold setReg; dsimp only; split <;> rfl

/-- The sequencer after the address, data and loop operations of the last cycle (R121, R133, R134). -/
def Seq.advanced (z : Seq) (w : UWord) : Seq :=
  let r := addrOps z.gen w
  let z1 := { z with gen := dataOp r.1 w.dop, xc := r.2.1, yc := r.2.2.1, zc := r.2.2.2 }
  if w.lcop = 2 then { z1 with lc := Tbl.mod (fun _ => 0) z1.lc w.lcsel (· - 1) } else z1

/-- The sequencer after the last cycle. -/
def Seq.closed (z : Seq) (w : UWord) : Seq := if w.opc = 7 then setReg (z.advanced w) w.imm else z.advanced w

theorem Seq.advanced_control (z : Seq) (w : UWord) : (z.advanced w).control = z.control := by unfold Seq.advanced; dsimp only; split <;> rfl

theorem Seq.closed_control (z : Seq) (w : UWord) : (z.closed w).control = z.control := by
  unfold Seq.closed
  split
  · rw [setReg_control, Seq.advanced_control]
  · exact z.advanced_control w

/-! ### Carries and loop counters -/

/-- The carries and the loop counters of a sequencer, which its conditions read (R129). -/
def Seq.carries (z : Seq) : Bool × Bool × Bool × Tbl Nat := (z.xc, z.yc, z.zc, z.lc)

theorem setReg_carries (z : Seq) (imm : Nat) : (setReg z imm).carries = z.carries := by unfold setReg; dsimp only; split <;> rfl

theorem timerOp_lc (z : Seq) (top : Nat) : (timerOp z top).lc = z.lc ∧ (timerOp z top).gen = z.gen := by unfold timerOp; split <;> exact ⟨rfl, rfl⟩

theorem Seq.begun_gen (z : Seq) (w : UWord) : (z.begun w).gen = z.gen := by
  unfold Seq.begun
  rw [(timerOp_lc _ _).2]
  split <;> rfl

theorem Seq.begun_lc (z : Seq) (w : UWord) : (z.begun w).lc = if w.lcop = 1 then Tbl.set (fun _ => 0) z.lc w.lcsel w.imm else z.lc := by
  unfold Seq.begun
  rw [(timerOp_lc _ _).1]
  split <;> rfl

/-- An execution leaves the carries and the loop counters of `carried`. -/
theorem Seq.closed_carries (z : Seq) (w : UWord) (n d : Nat) : ((((z.counted n).withData d).begun w).closed w).carries = (carried w z).carries := by
  have hadv : ((((z.counted n).withData d).begun w).advanced w).carries = (carried w z).carries := by
    have hlc : (((z.counted n).withData d).begun w).lc = if w.lcop = 1 then Tbl.set (fun _ => 0) z.lc w.lcsel w.imm else z.lc :=
      Seq.begun_lc _ w
    have hgen : (((z.counted n).withData d).begun w).gen = { z.gen with d := d } := Seq.begun_gen _ w
    unfold Seq.advanced carried Seq.carries
    dsimp only
    rw [hgen, hlc]
    split <;> rfl
  unfold Seq.closed
  split
  · rw [setReg_carries, hadv]
  · exact hadv

/-! ### Conditions -/

/-- A condition reads the carries and the loop counters of the state after the operations. -/
theorem State.cond_congr (e : State) {x y : State} {q : Nat} (w : UWord) (h : (x.seq q).carries = (y.seq q).carries) :
    State.cond e x q w = State.cond e y q w := by
  simp only [Seq.carries, Prod.mk.injEq] at h
  obtain ⟨hx, hy, hz, hl⟩ := h
  unfold State.cond
  simp only [hx, hy, hz, hl]

/-- What a condition reads of other sequencers does not depend on SEQ_CYC. -/
theorem State.atBarrier_addCyc (s : State) (q n c b : Nat) : (s.addCyc q n).atBarrier c b = s.atBarrier c b := by
  unfold State.atBarrier
  rw [State.addCyc_seq]
  split
  next h => subst h; rfl
  next => rfl

theorem State.laneIdle_addCyc (s : State) (q n c : Nat) : (s.addCyc q n).laneIdle c = s.laneIdle c := by
  unfold State.laneIdle
  rw [State.addCyc_seq]
  split
  next h => subst h; rfl
  next => rfl

theorem State.cond_addCyc (s x : State) (q n : Nat) (w : UWord) : State.cond (s.addCyc q n) x q w = State.cond s x q w := by
  have hb : ∀ c, (s.addCyc q n).atBarrier c w.barsel = s.atBarrier c w.barsel := fun c => s.atBarrier_addCyc q n c _
  have hi : (s.addCyc q n).lanesIdle w.lanemask = s.lanesIdle w.lanemask :=
    congrArg (fun f => (lanesOf w.lanemask).all f) (funext (s.laneIdle_addCyc q n))
  unfold State.cond
  simp only [hb, hi, State.addCyc_seq_same]
  rfl

/-- ALWAYS is met unless it is inverted. -/
theorem State.cond_always (e x : State) (q : Nat) {w : UWord} (h : w.cond = 0) : State.cond e x q w = !w.cinv := by
  unfold State.cond
  rw [h]
  cases w.cinv <;> rfl

/-! ### The states of an execution -/

/-- The state after the first-cycle operations. -/
def State.begun (s : State) (q : Nat) (w : UWord) : State := (s.addCyc q w.cl).firstCycle q w none

/-- LSTART acts, if it is the first execution of one (R140). -/
def State.lstartDone (s : State) (first : Bool) (w : UWord) : State := if first ∧ w.opc = 0xC then s.lstart w else s

/-- CWMSG sends, if it is the first execution of one (R409). -/
def State.cwmsgDone (s : State) (first : Bool) (w : UWord) : State :=
  if first ∧ w.opc = 0xF then s.sendMsgQ (w.imm / 2 ^ 20) (w.imm % 2 ^ 20) 0 else s

/-- The state after what LSTART and CWMSG do in the first execution. -/
def State.acted (s : State) (q : Nat) (w : UWord) : State :=
  ((s.begun q w).lstartDone (s.seq q).left.isNone w).cwmsgDone (s.seq q).left.isNone w

/-- The state after the last-cycle operations. -/
def State.worked (s : State) (q : Nat) (w : UWord) : State := (s.acted q w).lastCycle q w

/-- The state that a condition samples (R130). -/
def State.sampled (s : State) (q : Nat) (w : UWord) : State := if w.cl = 1 then s.addCyc q w.cl else s.acted q w

/-- LATCHCLR, where the word is one (R135). -/
def State.latched (s : State) (q : Nat) (w : UWord) : State := if w.opc = 7 ∧ w.imm / 2 ^ 20 = 0xB then s.latchClr q w.imm else s

theorem State.lastCycle_eq (s : State) (q : Nat) (w : UWord) : s.lastCycle q w = (s.modSeq q (fun z => z.closed w)).latched q w := rfl

theorem State.latched_frame (s : State) (q : Nat) (w : UWord) :
    ChangesOnly (if w.opc = 7 then [.one .plan, .one (.lane q)] else []) s (s.latched q w) := by
  unfold State.latched
  by_cases h : w.opc = 7 ∧ w.imm / 2 ^ 20 = 0xB
  · rw [if_pos h, if_pos h.1]
    refine (State.latchClr_changes q w.imm (Evolves.refl _ s) ?_ ?_).1 <;> exact Allows.mem (by simp)
  · rw [if_neg h]
    exact ChangesOnly.refl _ s

@[simp] theorem State.latched_seq (s : State) (q : Nat) (w : UWord) (i : Nat) : (s.latched q w).seq i = s.seq i :=
  (s.latched_frame q w).seq_eq (by split <;> simp [Foot.covers])

/-- LATCHCLR with bit 0 clears the fail latch of a lane (R135). -/
def State.failCleared (s : State) (q imm : Nat) : State := if imm.testBit 0 ∧ q ≠ 32 then s.modLane q (fun l => { l with failLatch := false }) else s

theorem State.failCleared_plan (s : State) (q imm : Nat) : (s.failCleared q imm).plan = s.plan := by unfold State.failCleared; split <;> rfl

theorem State.failCleared_lane (s : State) (q imm : Nat) :
    (s.failCleared q imm).lane q = if imm.testBit 0 ∧ q ≠ 32 then { s.lane q with failLatch := false } else s.lane q := by
  unfold State.failCleared
  split
  · rw [State.lane_modLane, if_pos rfl]
  · rfl

theorem State.latchClr_eq (s : State) (q imm : Nat) : s.latchClr q imm =
    if imm.testBit 1 then (s.failCleared q imm).putPlan { (s.failCleared q imm).plan with ext := false } else s.failCleared q imm := rfl

theorem State.latchClr_plan (s : State) (q imm : Nat) : (s.latchClr q imm).plan = { s.plan with ext := s.plan.ext && !imm.testBit 1 } := by
  rw [State.latchClr_eq]
  cases imm.testBit 1 with
  | true => simp [State.putPlan, State.failCleared_plan]
  | false => simp [State.failCleared_plan]

theorem State.latchClr_lane (s : State) (q imm : Nat) :
    (s.latchClr q imm).lane q = if imm.testBit 0 ∧ q ≠ 32 then { s.lane q with failLatch := false } else s.lane q := by
  rw [State.latchClr_eq, ← State.failCleared_lane]
  split <;> rfl

theorem State.latched_standing (s : State) (q : Nat) (w : UWord) : ((s.latched q w).lane q).standing = (s.lane q).standing := by
  unfold State.latched
  split
  next =>
    rw [State.latchClr_lane]
    split <;> rfl
  next => rfl

theorem Lane.ended_of_standing {l m : Lane} (h : l.standing = m.standing) : l.ended = m.ended :=
  show l.standing.ended = m.standing.ended by rw [h]

/-- What LSTART can change (R140, R263, R264, R414). -/
def lstartFoot : List Foot :=
  [.lanes, .one .plan, .one (.reg Reg.plnState), .regs Reg.flSiteFail (Reg.flSiteFail + 1024), .regs Reg.flFirst (Reg.flFirst + 2048), .one .cwy]

/-- What the class of a word can change in its cycles, beside the operations that every word has. -/
def classFoot (q : SeqId) (w : UWord) : List Foot :=
  (if w.opc = 7 then [.one .plan] else []) ++ (if w.opc = 9 then [.one (.reg (rtblReg q w))] else []) ++
  (if w.opc = 0xC then lstartFoot else []) ++ (if w.opc = 0xF then [.one .cwy] else [])

theorem rtbl_subset_classFoot (q : SeqId) (w : UWord) : (if w.opc = 9 then [.one (.reg (rtblReg q w))] else []) ⊆ classFoot q w := by
  intro k hk
  simp only [classFoot, List.mem_append]
  tauto

theorem lstart_subset_classFoot (q : SeqId) (w : UWord) : (if w.opc = 0xC then lstartFoot else []) ⊆ classFoot q w := by
  intro k hk
  simp only [classFoot, List.mem_append]
  tauto

theorem cwmsg_subset_classFoot (q : SeqId) (w : UWord) : (if w.opc = 0xF then [.one .cwy] else []) ⊆ classFoot q w :=
  List.subset_append_right _ _

theorem State.lstartDone_frame (s : State) (first : Bool) (w : UWord) :
    ChangesOnly (if w.opc = 0xC then lstartFoot else []) s (s.lstartDone first w) := by
  unfold State.lstartDone
  by_cases h : first = true ∧ w.opc = 0xC
  · rw [if_pos h, if_pos h.2]
    exact s.lstart_frame w
  · rw [if_neg h]
    exact ChangesOnly.refl _ s

theorem State.cwmsgDone_frame (s : State) (first : Bool) (w : UWord) :
    ChangesOnly (if w.opc = 0xF then [.one .cwy] else []) s (s.cwmsgDone first w) := by
  unfold State.cwmsgDone
  by_cases h : first = true ∧ w.opc = 0xF
  · rw [if_pos h, if_pos h.2]
    exact s.sendMsgQ_frame _ _ _
  · rw [if_neg h]
    exact ChangesOnly.refl _ s

@[simp] theorem State.lstartDone_seq (s : State) (first : Bool) (w : UWord) (i : Nat) : (s.lstartDone first w).seq i = s.seq i :=
  (s.lstartDone_frame first w).seq_eq (by split <;> simp [Foot.covers, lstartFoot])

@[simp] theorem State.cwmsgDone_seq (s : State) (first : Bool) (w : UWord) (i : Nat) : (s.cwmsgDone first w).seq i = s.seq i :=
  (s.cwmsgDone_frame first w).seq_eq (by split <;> simp [Foot.covers])

@[simp] theorem State.cwmsgDone_lane (s : State) (first : Bool) (w : UWord) (i : Nat) : (s.cwmsgDone first w).lane i = s.lane i :=
  (s.cwmsgDone_frame first w).lane_eq (by split <;> simp [Foot.covers])

theorem State.lstartDone_ended (s : State) (first : Bool) (w : UWord) (c : Nat) : ((s.lstartDone first w).lane c).ended = (s.lane c).ended := by
  unfold State.lstartDone
  split
  · exact s.lstart_ended w c
  · rfl

theorem State.acted_plain {s : State} {q : Nat} {w : UWord} (hC : w.opc ≠ 0xC) (hF : w.opc ≠ 0xF) : s.acted q w = s.begun q w := by
  unfold State.acted State.lstartDone State.cwmsgDone
  rw [if_neg (by simp [hF]), if_neg (by simp [hC])]

@[simp] theorem State.acted_seq (s : State) (q : Nat) (w : UWord) (i : Nat) : (s.acted q w).seq i = (s.begun q w).seq i := by
  rw [State.acted, State.cwmsgDone_seq, State.lstartDone_seq]

theorem State.acted_ended (s : State) (q : Nat) (w : UWord) (c : Nat) : ((s.acted q w).lane c).ended = ((s.begun q w).lane c).ended := by
  rw [State.acted, State.cwmsgDone_lane, State.lstartDone_ended]

theorem State.acted_frame (s : State) (q : SeqId) (w : UWord) : ChangesOnly (classFoot q w) (s.begun q w) (s.acted q w) :=
  ((State.lstartDone_frame _ _ w).subset (lstart_subset_classFoot q w)).trans ((State.cwmsgDone_frame _ _ w).subset (cwmsg_subset_classFoot q w))

section
variable {s : State} (q : SeqId) {w : UWord} (ha : w.vop = 1 → s.plan.abort = false)

theorem State.begun_eq (s : State) (q : SeqId) (w : UWord) : s.begun q w =
    (((s.addCyc q w.cl).posted q w).signalled q ((s.addCyc q w.cl).seq q).pc w).modSeq q (fun z => z.begun w) :=
  State.firstCycle_eq _ _ _

theorem State.begun_lane (s : State) (q : SeqId) (w : UWord) (c : Nat) : (s.begun q w).lane c = ((s.addCyc q w.cl).posted q w).lane c := by
  rw [State.begun_eq, State.lane_modSeq, State.signalled_lane]

include ha

theorem State.begun_seq : ∃ d, (s.begun q w).seq q = (((s.seq q).counted w.cl).withData d).begun w := by
  obtain ⟨d, hd⟩ := State.posted_seq (s := s.addCyc q w.cl) q ha
  exact ⟨d, by rw [State.begun_eq, State.seq_modSeq_same, State.signalled_seq, hd, State.addCyc_seq_same]⟩

theorem State.begun_standing : ((s.begun q w).lane q).standing = (s.lane q).standing := by
  rw [State.begun_lane]
  exact State.posted_standing (s := s.addCyc q w.cl) q ha

theorem State.begun_frame : ChangesOnly (wordFoot q ++ if w.opc = 9 then [.one (.reg (rtblReg q w))] else []) s (s.begun q w) := by
  rw [State.begun_eq]
  have hcyc := (s.addCyc_frame q w.cl).subset (L := wordFoot q ++ if w.opc = 9 then [.one (.reg (rtblReg q w))] else []) (by simp [wordFoot])
  have hsig := (((s.addCyc q w.cl).posted q w).signalled_frame q ((s.addCyc q w.cl).seq q).pc w).subset
    (L := wordFoot q ++ if w.opc = 9 then [.one (.reg (rtblReg q w))] else []) (by simp [wordFoot])
  exact hcyc.trans ((State.posted_frame (s := s.addCyc q w.cl) q ha).trans (hsig.trans
    (State.modSeq_changes q _ (Evolves.refl _ _) (Allows.mem (by simp [wordFoot]))).1))

/-! ### The end of an execution -/

theorem State.worked_seq : ∃ d, (s.worked q w).seq q = ((((s.seq q).counted w.cl).withData d).begun w).closed w := by
  obtain ⟨d, hd⟩ := State.begun_seq q ha
  exact ⟨d, by rw [State.worked, State.lastCycle_eq, State.latched_seq, State.seq_modSeq_same, State.acted_seq, hd]⟩

/-- An execution leaves the place of its sequencer, its stack and its state. -/
theorem State.worked_control : ((s.worked q w).seq q).control = (s.seq q).control := by
  obtain ⟨d, hd⟩ := State.worked_seq q ha
  rw [hd, Seq.closed_control, Seq.begun_control, Seq.withData_control, Seq.counted_control]

theorem State.worked_carries : ((s.worked q w).seq q).carries = (carried w (s.seq q)).carries := by
  obtain ⟨d, hd⟩ := State.worked_seq q ha
  rw [hd, Seq.closed_carries]

theorem State.worked_ended : ((s.worked q w).lane q).ended = (s.lane q).ended := by
  have h := Lane.ended_of_standing ((s.acted q w).modSeq q (fun z => z.closed w) |>.latched_standing q w)
  rw [State.worked, State.lastCycle_eq, h, State.lane_modSeq, State.acted_ended, Lane.ended_of_standing (State.begun_standing q ha)]

theorem State.worked_standing (hC : w.opc ≠ 0xC) (hF : w.opc ≠ 0xF) : ((s.worked q w).lane q).standing = (s.lane q).standing := by
  rw [State.worked, State.lastCycle_eq, State.latched_standing, State.lane_modSeq, State.acted_plain hC hF, State.begun_standing q ha]

theorem State.worked_frame : ChangesOnly (wordFoot q ++ classFoot q w) s (s.worked q w) := by
  have hbegun := (State.begun_frame q ha).subset (L := wordFoot q ++ classFoot q w)
    (List.append_subset.2 ⟨List.subset_append_left _ _, fun _ hk => List.mem_append_right _ (rtbl_subset_classFoot q w hk)⟩)
  refine hbegun.trans (((s.acted_frame q w).subset (by simp)).trans ?_)
  rw [State.worked, State.lastCycle_eq]
  refine (State.modSeq_changes q _ (Evolves.refl _ _) (Allows.mem (by simp [wordFoot]))).1.trans ((State.latched_frame _ q w).subset ?_)
  by_cases h : w.opc = 7 <;> simp [classFoot, wordFoot, h]

end

/-- An execution of a word at an address, which the lane's end does not cut off. -/
theorem State.execute_last {s : State} {q a : Nat} {w : UWord} (hpos : (s.seq q).pos = .word a) (hend : q < 32 → ((s.worked q w).lane q).ended = false)
    (hn : (s.seq q).left.getD ((s.seq q).executions w) ≤ 1) :
    s.execute q w none = State.classAct (s.sampled q w) (s.worked q w) q w := by
  have hr : ((s.seq q).pos == Pos.runner) = false := by rw [hpos]; rfl
  have hc : s.execCycles q w = (w.cl, s) := by unfold State.execCycles; rw [hpos]
  unfold State.execute
  simp only [hr, hc, Bool.false_eq_true, false_and, and_false, if_false]
  refine (if_neg ?_).trans (if_neg (Nat.not_lt_of_le hn))
  rintro ⟨hq, he⟩
  rw [← Bool.not_eq_true] at hend
  exact hend hq he

end Sys2Proof.Machine

/-! The class of a word after its last execution: going on, JUMP, CALL, RET and LOOP (R120, R128, R131, R143). -/

namespace Sys2Proof.Machine

/-- An execution with others to follow. -/
theorem State.execute_more {s : State} {q a : Nat} {w : UWord} (hpos : (s.seq q).pos = .word a) (hend : q < 32 → ((s.worked q w).lane q).ended = false)
    (hn : 1 < (s.seq q).left.getD ((s.seq q).executions w)) :
    s.execute q w none = (s.worked q w).modSeq q (fun y => { y with left := some ((s.seq q).left.getD ((s.seq q).executions w) - 1) }) := by
  have hr : ((s.seq q).pos == Pos.runner) = false := by rw [hpos]; rfl
  have hc : s.execCycles q w = (w.cl, s) := by unfold State.execCycles; rw [hpos]
  unfold State.execute
  simp only [hr, hc, Bool.false_eq_true, false_and, and_false, if_false]
  refine (if_neg ?_).trans (if_pos hn)
  rintro ⟨hq, he⟩
  rw [← Bool.not_eq_true] at hend
  exact hend hq he

section
variable {s : State} {q : SeqId} {opc n : Nat} {w : UWord} (h : Executes s q opc w n)
include h

theorem Executes.noUnderrun : w.vop = 1 → s.plan.abort = false := by
  obtain ⟨-, -, -, -, -, -, -, ha, -⟩ := h
  exact ha

theorem Executes.opc_eq : w.opc = opc := by
  obtain ⟨-, -, ho, -⟩ := h
  exact ho

theorem Executes.run1_eq (ht : opc ≠ 0xB) : s.run1 q opc .clean = s.execute q w none := by
  obtain ⟨hrun, rfl, hopc, -, hf, hlane, hsend, -, -⟩ := h
  exact State.run1_execute hrun hopc hf ht (fun hq => (hlane hq).1) hsend

/-- Nothing that an execution does before its class ends the lane's part. -/
theorem Executes.goesOn : q.val < 32 → ((s.worked q w).lane q).ended = false := by
  have ha := h.noUnderrun
  obtain ⟨-, -, -, -, -, hlane, -, -, -⟩ := h
  intro hq
  rw [State.worked_ended q ha, (hlane hq).2]

theorem Executes.last (ht : opc ≠ 0xB) (hn : n ≤ 1) : s.run1 q opc .clean = State.classAct (s.sampled q w) (s.worked q w) q w := by
  have hrun := h.run1_eq ht
  have hend := h.goesOn
  obtain ⟨-, -, -, ⟨a, hpos⟩, -, -, -, -, rfl⟩ := h
  rw [hrun, State.execute_last hpos hend hn]

theorem Executes.more (ht : opc ≠ 0xB) (hn : 1 < n) : s.run1 q opc .clean = (s.worked q w).modSeq q (fun y => { y with left := some (n - 1) }) := by
  have hrun := h.run1_eq ht
  have hend := h.goesOn
  obtain ⟨-, -, -, ⟨a, hpos⟩, -, -, -, -, rfl⟩ := h
  rw [hrun, State.execute_more hpos hend hn]

theorem Executes.frame : ChangesOnly (wordFoot q ++ classFoot q w) s (s.worked q w) := State.worked_frame q h.noUnderrun

/-- The condition of a word, where `Taken` says what it is. -/
theorem Executes.cond {b : Bool} (hb : Taken s q w b) : State.cond (s.sampled q w) (s.worked q w) q w = b := by
  rcases hb with ⟨hcl, rfl⟩ | ⟨hc, rfl⟩
  · rw [State.sampled, if_pos hcl, State.cond_addCyc]
    refine State.cond_congr s w ?_
    rw [State.worked_carries q h.noUnderrun, State.seq_modSeq_same]
  · exact State.cond_always _ _ _ hc

/-- The last execution of a word: what the class does to the state after the operations. -/
theorem Executes.completes {i : Instr} (ht : opc ≠ 0xB) (hn : n ≤ 1) (hi : exec i s = .next (s.run1 q opc .clean)) {L : List Foot} {P : State → Prop}
    {y : State} (hy : State.classAct (s.sampled q w) (s.worked q w) q w = y) (hframe : ChangesOnly L (s.worked q w) y)
    (hL : wordFoot q ++ classFoot q w ⊆ L) (hP : P y) : Completes i s L P := by
  subst hy
  rw [h.last ht hn] at hi
  exact ⟨_, hi, hP, (h.frame.subset hL).trans hframe⟩

end

/-! ### What an execution keeps of its sequencer -/

theorem Seq.of_control {y z : Seq} (h : y.control = z.control) : y.st = z.st ∧ y.pos = z.pos ∧ y.left = z.left ∧ y.stack = z.stack ∧
    y.inFault = z.inFault := by
  have hf : ∀ {α : Type} (f : Seq → α), f y.control = f z.control := fun f => congrArg f h
  exact ⟨hf Seq.st, hf Seq.pos, hf Seq.left, hf Seq.stack, hf Seq.inFault⟩

section
variable {s : State} {q : SeqId} {opc n : Nat} {w : UWord} (h : Executes s q opc w n)
include h

theorem Executes.pos_eq : ((s.worked q w).seq q).pos = (s.seq q).pos := by
  obtain ⟨-, hp, -⟩ := Seq.of_control (State.worked_control q h.noUnderrun)
  exact hp

theorem Executes.stack_eq : ((s.worked q w).seq q).stack = (s.seq q).stack := by
  obtain ⟨-, -, -, hs, -⟩ := Seq.of_control (State.worked_control q h.noUnderrun)
  exact hs

theorem Executes.inFault_eq : ((s.worked q w).seq q).inFault = (s.seq q).inFault := by
  obtain ⟨-, -, -, -, hf⟩ := Seq.of_control (State.worked_control q h.noUnderrun)
  exact hf

theorem Executes.nextPos_eq : ((s.worked q w).seq q).nextPos = (s.seq q).nextPos := by
  unfold Seq.nextPos
  rw [h.pos_eq]

theorem Executes.targetPos_eq : ((s.worked q w).seq q).targetPos w = .word w.target := by
  obtain ⟨a, ha⟩ : ∃ a, (s.seq q).pos = .word a := by
    obtain ⟨-, -, -, ha, -⟩ := h
    exact ha
  unfold Seq.targetPos
  rw [h.pos_eq, ha]

theorem Executes.pc_eq : ((s.worked q w).seq q).pc = (s.seq q).pc := by
  unfold Seq.pc
  rw [h.pos_eq]

end

theorem Seq.nextPos_word {z : Seq} {a : Nat} (h : z.pos = .word a) : z.nextPos = .word ((a + 1) % 16384) := by
  unfold Seq.nextPos
  rw [h]

/-- The classes that do nothing in their cycles beside what every word does. -/
theorem classFoot_plain {q : SeqId} {w : UWord} (h7 : w.opc ≠ 7) (h9 : w.opc ≠ 9) (hC : w.opc ≠ 0xC) (hF : w.opc ≠ 0xF) : classFoot q w = [] := by
  simp [classFoot, h7, h9, hC, hF]

/-! ### The classes -/

/-- The sequencer goes on to the next word. -/
def State.onward (x : State) (q : Nat) : State := x.setSeq q ((x.seq q).goto (x.seq q).nextPos)

theorem State.onward_seq (x : State) (q : Nat) : (x.onward q).seq q = (x.seq q).goto (x.seq q).nextPos := State.seq_setSeq_same _ _ _

@[simp] theorem State.onward_lane (x : State) (q c : Nat) : (x.onward q).lane c = x.lane c := rfl

theorem State.onward_frame (x : State) (q : Nat) : ChangesOnly [.one (.seq q)] x (x.onward q) :=
  (State.setSeq_changes q _ (Evolves.refl _ x) (Allows.mem (by simp))).1

theorem State.setSeq_frame (x : State) (q : Nat) (v : Seq) : ChangesOnly [.one (.seq q)] x (x.setSeq q v) :=
  (State.setSeq_changes q v (Evolves.refl _ x) (Allows.mem (by simp))).1

section
variable (e x : State) (q : Nat) {w : UWord}

theorem classAct_onward (h : w.opc = 0 ∨ w.opc = 7 ∨ w.opc = 9 ∨ w.opc = 0xC ∨ w.opc = 0xF) : State.classAct e x q w = x.onward q := by
  unfold State.classAct
  rcases h with h | h | h | h | h <;>
  · simp only [h]
    rfl

theorem classAct_jump (h : w.opc = 1) : State.classAct e x q w =
    x.setSeq q ((x.seq q).goto (if State.cond e x q w then (x.seq q).targetPos w else (x.seq q).nextPos)) := by
  unfold State.classAct
  simp only [h]
  split <;> rfl

theorem classAct_call (h : w.opc = 2) : State.classAct e x q w = if State.cond e x q w then x.callPush q w else x.onward q := by
  unfold State.classAct
  simp only [h]
  rfl

theorem classAct_ret (h : w.opc = 3) : State.classAct e x q w = if State.cond e x q w then x.retPop q else x.onward q := by
  unfold State.classAct
  simp only [h]
  rfl

/-- The sequencer of a LOOP (R128). -/
def Seq.looped (z : Seq) (w : UWord) : Seq :=
  ({ z with lc := Tbl.set (fun _ => 0) z.lc w.lcsel (Tbl.get (fun _ => 0) z.lc w.lcsel - 1) } : Seq).goto
    (if Tbl.get (fun _ => 0) z.lc w.lcsel - 1 ≠ 0 then z.targetPos w else z.nextPos)

theorem classAct_loop (h : w.opc = 4) : State.classAct e x q w = x.setSeq q ((x.seq q).looped w) := by
  unfold State.classAct
  simp only [h]
  rfl

theorem classAct_wait (h : w.opc = 5) : State.classAct e x q w = x.setSeq q { x.seq q with st := 3, waiting := true, waited := 0 } := by
  unfold State.classAct
  simp only [h]

theorem classAct_halt (h : w.opc = 6) : State.classAct e x q w = x.anyEnd q := by
  unfold State.classAct
  simp only [h]

theorem classAct_sync (h : w.opc = 0xA) : State.classAct e x q w =
    x.setSeq q { x.seq q with st := 3, waiting := true, waited := 0, arrived := some w.barsel, released := false } := by
  unfold State.classAct
  simp only [h]

theorem classAct_lstop (h : w.opc = 0xD) : State.classAct e x q w = (x.onward q).stopLanes w.lanemask := by
  unfold State.classAct
  simp only [h]
  rfl

theorem classAct_brel (h : w.opc = 0xE) : State.classAct e x q w = (x.onward q).brel w := by
  unfold State.classAct
  simp only [h]
  rfl

end

/-! ### CALL and RET (R131, R143) -/

/-- A sequencer that has pushed a call frame and goes to TARGET. -/
def Seq.pushed (z : Seq) (w : UWord) : Seq :=
  ({ z with stack := z.frame none z.nextPos none :: z.stack, called := z.called || z.pos == Pos.runner } : Seq).goto (.word w.target)

theorem State.callPush_room {x : State} {q a : Nat} (w : UWord) (hpos : (x.seq q).pos = .word a) (hlen : (x.seq q).stack.length < 16) :
    x.callPush q w = x.setSeq q ((x.seq q).pushed w) := by
  unfold State.callPush
  rw [if_neg (Nat.not_le_of_lt hlen)]
  exact if_neg (by simp [hpos])

theorem State.callPush_full {x : State} {q : Nat} (w : UWord) (hlen : 16 ≤ (x.seq q).stack.length) :
    x.callPush q w = x.raiseFault q 0x03 (x.seq q).pc := if_pos hlen

theorem State.retPop_empty {x : State} {q : Nat} (h : (x.seq q).stack = []) : x.retPop q = x.raiseFault q 0x04 (x.seq q).pc := by
  unfold State.retPop
  simp only [h]

/-- A sequencer that has popped a frame. -/
def Seq.popped (z : Seq) (f : Frame) (l : List Frame) : Seq :=
  { z with stack := l, pos := f.pos, left := f.left, latched := none, waiting := f.waiting, waited := f.waited, arrived := f.arrived,
           released := f.released, st := if f.waiting then 3 else 1 }

theorem State.retPop_seq {x : State} {q : Nat} {f : Frame} {l : List Frame} (h : (x.seq q).stack = f :: l) :
    (x.retPop q).seq q = (x.seq q).popped f l := by
  unfold State.retPop
  simp only [h]
  split
  · exact (State.seq_modLane _ _ _ _).trans ((State.seq_modLane _ _ _ _).trans (State.seq_setSeq_same _ _ _))
  · exact State.seq_setSeq_same _ _ _

theorem State.retPop_frame {x : State} {q : Nat} {f : Frame} {l : List Frame} (h : (x.seq q).stack = f :: l) :
    ChangesOnly [.one (.seq q), .one (.lane q)] x (x.retPop q) := by
  unfold State.retPop
  simp only [h]
  have hset := State.setSeq_changes (K := [.one (.seq q), .one (.lane q)]) q ((x.seq q).popped f l) (Evolves.refl _ x) (Allows.mem (by simp))
  split
  · exact (State.modLane_changes q _ (State.modLane_changes q _ hset (Allows.mem (by simp))) (Allows.mem (by simp))).1
  · exact hset.1

end Sys2Proof.Machine

/-! The last execution of JUMP, CALL, RET and LOOP (R128, R131, R143). -/

namespace Sys2Proof.Machine

/-- A class whose cycles change nothing beside what every word does, and that is no TRAP. -/
abbrev plainClass (opc : Nat) : Prop := opc ≠ 7 ∧ opc ≠ 9 ∧ opc ≠ 0xB ∧ opc ≠ 0xC ∧ opc ≠ 0xF

section
variable {s : State} {q : SeqId} {n a : Nat} {w : UWord}

theorem Executes.footprint {opc : Nat} (h : Executes s q opc w n) (hp : plainClass opc) : wordFoot q ++ classFoot q w ⊆ wordFoot q := by
  have ho := h.opc_eq
  obtain ⟨h7, h9, -, hC, hF⟩ := hp
  rw [classFoot_plain (by omega) (by omega) (by omega) (by omega), List.append_nil]
  exact List.Subset.refl _

theorem seq_subset_wordFoot (q : SeqId) : [.one (.seq q)] ⊆ wordFoot q := by simp [wordFoot]

/-- A word whose class does no more than to go on. -/
theorem onward_completes {i : Instr} {opc : Nat} {P : State → Prop} (h : Executes s q opc w n) (hn : n ≤ 1)
    (hi : exec i s = .next (s.run1 q opc .clean)) (hp : plainClass opc)
    (hy : State.classAct (s.sampled q w) (s.worked q w) q w = (s.worked q w).onward q) (hP : P ((s.worked q w).onward q)) :
    Completes i s (wordFoot q) P := by
  obtain ⟨-, -, hB, -, -⟩ := id hp
  exact h.completes hB hn hi hy ((State.onward_frame _ q).subset (seq_subset_wordFoot q)) (h.footprint hp) hP

theorem Executes.onward_pos {opc : Nat} (h : Executes s q opc w n) : (((s.worked q w).onward q).seq q).pos = (s.seq q).nextPos := by
  rw [State.onward_seq, ← h.nextPos_eq]
  rfl

theorem Executes.onward_stack {opc : Nat} (h : Executes s q opc w n) : (((s.worked q w).onward q).seq q).stack = (s.seq q).stack := by
  rw [State.onward_seq, ← h.stack_eq]
  rfl

/-- A word that faults at its class. -/
theorem classFault_completes {i : Instr} {opc code : Nat} {P : State → Prop} (h : Executes s q opc w n) (hn : n ≤ 1)
   
    (hi : exec i s = .next (s.run1 q opc .clean)) (hp : plainClass opc)
    (hy : State.classAct (s.sampled q w) (s.worked q w) q w = (s.worked q w).raiseFault q code ((s.worked q w).seq q).pc)
    (hP : ∀ t, Faulted s t q code → (t.seq q).stack = (s.seq q).stack → P t) :
    Completes i s (.one (.reg (seqOff q Reg.seqFault)) :: wordFoot q) P := by
  obtain ⟨-, -, hB, -, -⟩ := id hp
  refine h.completes hB hn hi hy ((State.raiseFault_frame _ q code _).subset (by simp [wordFoot])) ?_ (hP _ ?_ ?_)
  · exact List.subset_cons_of_subset _ (h.footprint hp)
  · exact State.raiseFault_faulted h.pc_eq h.inFault_eq
  · rw [State.raiseFault_stack, h.stack_eq]

theorem opcJump_completes {b : Bool} (hpos : (s.seq q).pos = .word a) (hn : n ≤ 1) (h : Executes s q 0x1 w n) (hb : Taken s q w b) :
    Completes (.opcJump q .clean) s (wordFoot q) (fun t =>
      (t.seq q).pos = .word (if b then w.target else (a + 1) % 16384) ∧ (t.seq q).left = none ∧ (t.seq q).stack = (s.seq q).stack) := by
  refine h.completes (by decide) hn rfl (classAct_jump _ _ _ h.opc_eq) ((State.setSeq_frame _ _ _).subset (seq_subset_wordFoot q))
    (h.footprint (by decide)) ⟨?_, ?_, ?_⟩
  · rw [State.seq_setSeq_same, h.cond hb, h.nextPos_eq, h.targetPos_eq, Seq.nextPos_word hpos]
    cases b <;> rfl
  · rw [State.seq_setSeq_same]
    rfl
  · rw [State.seq_setSeq_same, ← h.stack_eq]
    rfl

theorem call_completes (hpos : (s.seq q).pos = .word a) (hn : n ≤ 1) (h : Executes s q 0x2 w n) (hb : Taken s q w true)
    (hlen : (s.seq q).stack.length < 16) : Completes (.call q .clean) s (wordFoot q) (fun t =>
      (t.seq q).pos = .word w.target ∧ (t.seq q).left = none ∧
      ∃ f : Frame, (t.seq q).stack = f :: (s.seq q).stack ∧ f.line = none ∧ f.pos = .word ((a + 1) % 16384) ∧ f.left = none) := by
  have hy : State.classAct (s.sampled q w) (s.worked q w) q w = (s.worked q w).setSeq q (((s.worked q w).seq q).pushed w) := by
    rw [classAct_call _ _ _ h.opc_eq, if_pos (h.cond hb), State.callPush_room w (h.pos_eq.trans hpos) (by rwa [h.stack_eq])]
  refine h.completes (by decide) hn rfl hy ((State.setSeq_frame _ _ _).subset (seq_subset_wordFoot q))
    (h.footprint (by decide)) ?_
  rw [State.seq_setSeq_same]
  refine ⟨rfl, rfl, ((s.worked q w).seq q).frame none ((s.worked q w).seq q).nextPos none, ?_, rfl, ?_, rfl⟩
  · rw [← h.stack_eq]
    rfl
  · rw [← Seq.nextPos_word hpos, ← h.nextPos_eq]
    rfl

theorem call_full_completes (hn : n ≤ 1) (h : Executes s q 0x2 w n) (hb : Taken s q w true) (hlen : 16 ≤ (s.seq q).stack.length) :
    Completes (.call q .clean) s (.one (.reg (seqOff q Reg.seqFault)) :: wordFoot q) (fun t =>
      Faulted s t q 0x03 ∧ (t.seq q).stack = (s.seq q).stack) := by
  refine classFault_completes h hn rfl (by decide) ?_ (fun t hf hs => ⟨hf, hs⟩)
  rw [classAct_call _ _ _ h.opc_eq, if_pos (h.cond hb), State.callPush_full w (by rwa [h.stack_eq])]

theorem call_untaken_completes (hpos : (s.seq q).pos = .word a) (hn : n ≤ 1) (h : Executes s q 0x2 w n) (hb : Taken s q w false) :
    Completes (.call q .clean) s (wordFoot q) (fun t => (t.seq q).pos = .word ((a + 1) % 16384) ∧ (t.seq q).stack = (s.seq q).stack) := by
  refine onward_completes h hn rfl (by decide) ?_
    ⟨h.onward_pos.trans (Seq.nextPos_word hpos), h.onward_stack⟩
  rw [classAct_call _ _ _ h.opc_eq, h.cond hb, if_neg (by decide)]

theorem ret_completes {f : Frame} {l : List Frame} (hn : n ≤ 1) (h : Executes s q 0x3 w n) (hb : Taken s q w true) (hs : (s.seq q).stack = f :: l) :
    Completes (.ret q .clean) s (wordFoot q) (fun t =>
      (t.seq q).pos = f.pos ∧ (t.seq q).left = f.left ∧ (t.seq q).stack = l ∧ (t.seq q).arrived = f.arrived ∧
      (t.seq q).released = f.released ∧ (t.seq q).st = (if f.waiting then 3 else 1)) := by
  have hs' : ((s.worked q w).seq q).stack = f :: l := h.stack_eq.trans hs
  have hy : State.classAct (s.sampled q w) (s.worked q w) q w = (s.worked q w).retPop q := by
    rw [classAct_ret _ _ _ h.opc_eq, if_pos (h.cond hb)]
  refine h.completes (by decide) hn rfl hy ((State.retPop_frame hs').subset (by simp [wordFoot]))
    (h.footprint (by decide)) ?_
  rw [State.retPop_seq hs']
  exact ⟨rfl, rfl, rfl, rfl, rfl, rfl⟩

theorem ret_empty_completes (hn : n ≤ 1) (h : Executes s q 0x3 w n) (hb : Taken s q w true) (hs : (s.seq q).stack = []) :
    Completes (.ret q .clean) s (.one (.reg (seqOff q Reg.seqFault)) :: wordFoot q) (fun t => Faulted s t q 0x04) := by
  refine classFault_completes h hn rfl (by decide) ?_ (fun t hf _ => hf)
  rw [classAct_ret _ _ _ h.opc_eq, if_pos (h.cond hb), State.retPop_empty (h.stack_eq.trans hs)]

theorem ret_untaken_completes (hpos : (s.seq q).pos = .word a) (hn : n ≤ 1) (h : Executes s q 0x3 w n) (hb : Taken s q w false) :
    Completes (.ret q .clean) s (wordFoot q) (fun t => (t.seq q).pos = .word ((a + 1) % 16384) ∧ (t.seq q).stack = (s.seq q).stack) := by
  refine onward_completes h hn rfl (by decide) ?_
    ⟨h.onward_pos.trans (Seq.nextPos_word hpos), h.onward_stack⟩
  rw [classAct_ret _ _ _ h.opc_eq, h.cond hb, if_neg (by decide)]

theorem loop_completes (hpos : (s.seq q).pos = .word a) (hn : n ≤ 1) (h : Executes s q 0x4 w n) :
    Completes (.loop q .clean) s (wordFoot q) (fun t =>
      ∀ x, x = Tbl.get (fun _ => 0) (carried w (s.seq q)).lc w.lcsel - 1 →
        Tbl.get (fun _ => 0) (t.seq q).lc w.lcsel = x ∧
        (t.seq q).pos = .word (if x = 0 then (a + 1) % 16384 else w.target) ∧ (t.seq q).left = none) := by
  have hlc : ((s.worked q w).seq q).lc = (carried w (s.seq q)).lc :=
    congrArg (fun c : Bool × Bool × Bool × Tbl Nat => c.2.2.2) (State.worked_carries q h.noUnderrun)
  refine h.completes (by decide) hn rfl (classAct_loop _ _ _ h.opc_eq) ((State.setSeq_frame _ _ _).subset (seq_subset_wordFoot q))
    (h.footprint (by decide)) ?_
  rintro x rfl
  rw [State.seq_setSeq_same, ← hlc]
  refine ⟨Tbl.get_set_same _ _ _ _, ?_, rfl⟩
  unfold Seq.looped
  rw [h.targetPos_eq, h.nextPos_eq, Seq.nextPos_word hpos]
  split
  next => rfl
  next hz => rw [if_pos (not_not.1 hz)]; rfl

end

end Sys2Proof.Machine

/-! What NEXT posts to the issue queue of a lane (R123, R124, R127, R136 to R138, R172, R361, R371). -/

namespace Sys2Proof.Machine

/-! ### Codes of a posted vector (R137) -/

theorem roleCode_lt (role x y z d : Nat) (read : Bool) : roleCode role x y z d read < 4 := by
  have hb : ∀ b : Bool, b2n b < 2 := by decide
  have hx := hb (x.testBit (role % 32))
  have hy := hb (y.testBit (role % 32))
  have hz := hb (z.testBit (role % 32 - 16))
  have hd := hb (d.testBit (role % 32))
  have hr := hb read
  unfold roleCode
  dsimp only
  split
  · split <;> omega
  · omega
  · omega
  · split <;> omega

/-- The base-4 number of the digits `r` below `n`. -/
def base4 (r : Nat → Nat) (n : Nat) : Nat := (List.range n).foldl (fun a k => a + r k * 4 ^ k) 0

theorem base4_succ (r : Nat → Nat) (n : Nat) : base4 r (n + 1) = base4 r n + r n * 4 ^ n := by
  unfold base4
  rw [List.range_succ, List.foldl_append, List.foldl_cons, List.foldl_nil]

section
variable {r : Nat → Nat} (hr : ∀ k, r k < 4)
include hr

theorem base4_lt (n : Nat) : base4 r n < 4 ^ n := by
  induction n with
  | zero => exact Nat.one_pos
  | succ n ih =>
    have h := Nat.mul_le_mul_right (4 ^ n) (Nat.le_of_lt_succ (hr n))
    rw [base4_succ, pow_succ]
    omega

theorem base4_digit {n k : Nat} (hk : k < n) : base4 r n / 4 ^ k % 4 = r k := by
  induction n with
  | zero => omega
  | succ n ih =>
    rw [base4_succ]
    rcases Nat.lt_succ_iff_lt_or_eq.1 hk with hlt | rfl
    · obtain ⟨m, rfl⟩ := Nat.exists_eq_add_of_lt hlt
      have hpow : r (k + m + 1) * 4 ^ (k + m + 1) = 4 ^ k * (4 * (r (k + m + 1) * 4 ^ m)) := by ring
      rw [hpow, Nat.add_mul_div_left _ _ (by positivity), Nat.add_mul_mod_self_left, ih hlt]
    · rw [Nat.add_mul_div_right _ _ (by positivity), Nat.div_eq_of_lt (base4_lt hr k), Nat.zero_add, Nat.mod_eq_of_lt (hr k)]

/-- The code of a channel in a word of 16 codes. -/
theorem fieldOf_base4 (k : Fin 16) : fieldOf (BitVec.ofNat 32 (base4 r 16)) (2 * k.val + 1) (2 * k.val) = r k := by
  have hlt : base4 r 16 < 2 ^ 32 := base4_lt hr 16
  have hpow : 2 ^ (2 * k.val) = 4 ^ k.val := pow_mul 2 2 k
  have hw : 2 * k.val + 1 + 1 - 2 * k.val = 2 := by omega
  unfold fieldOf
  rw [BitVec.toNat_ofNat, Nat.mod_eq_of_lt hlt, Nat.shiftRight_eq_div_pow, hpow, hw]
  exact base4_digit hr k.isLt

end

/-! ### The queue behind a post -/

/-- The marker that a word posts behind its vectors, if it posts one (R124). -/
def UWord.marks (w : UWord) : List Item := if w.ldstb = true ∨ w.scrld = true ∨ w.srcsel ≠ 0 then [Item.marker w.ldstb w.scrld w.srcsel] else []

theorem State.markers_lane (x : State) (c : Nat) (w : UWord) :
    (x.markers c w).lane c = { x.lane c with queue := (x.lane c).queue ++ w.marks } := by
  unfold State.markers UWord.marks
  by_cases h : w.ldstb = true ∨ w.scrld = true ∨ w.srcsel ≠ 0
  · rw [if_pos h, if_pos h, State.lane_modLane, if_pos rfl]
  · rw [if_neg h, if_neg h, List.append_nil]

theorem State.markers_seq (x : State) (c : Nat) (w : UWord) (i : Nat) : (x.markers c w).seq i = x.seq i := by
  unfold State.markers
  split <;> rfl

theorem State.markers_rd (x : State) (c : Nat) (w : UWord) (o : Nat) : (x.markers c w).rd o = x.rd o := by
  unfold State.markers
  split <;> rfl

/-- The state after the vector operation of a word. -/
def State.vopped (s : State) (q : Nat) (w : UWord) : State := (s.addCyc q w.cl).vopPost q w none

theorem State.posted_next {s : State} {q : Nat} {w : UWord} (hq : q < 32) (ho : w.opc = 0) :
    (s.addCyc q w.cl).posted q w = (s.vopped q w).markers q w := by
  rw [State.posted, if_neg (by omega), State.rtblWrite, if_neg (by omega)]
  rfl

theorem dataOp_d (g : Gen) (dop : Nat) : (dataOp g dop).d = g.d := by unfold dataOp; split <;> rfl

theorem Seq.closed_d (z : Seq) {w : UWord} (h : w.opc ≠ 7) : (z.closed w).gen.d = z.gen.d := by
  rw [Seq.closed, if_neg h]
  unfold Seq.advanced
  dsimp only
  split <;> exact dataOp_d _ _

/-- NEXT leaves what its vector operation posts, with the marker behind it, and goes on or comes again. -/
theorem next_completes {s : State} {c : CluId} {q : SeqId} {w : UWord} {n : Nat} {P : State → Prop} (hq : q.val = c.val) (h : Executes s q 0 w n)
    (hP : ∀ t : State, t.lane c = { (s.vopped q w).lane q with queue := ((s.vopped q w).lane q).queue ++ w.marks } →
      (t.seq q).gen.d = ((s.vopped q w).seq q).gen.d → t.rdB (cluOff c Reg.ddsStatus) 24 = (s.vopped q w).rdB (cluOff c Reg.ddsStatus) 24 → P t) :
    Completes (.next q .clean) s (wordFoot q) P := by
  have ho := h.opc_eq
  have hact : s.acted q w = s.begun q w := State.acted_plain (by omega) (by omega)
  have hpost := State.posted_next (s := s) (q := q.val) (w := w) (by omega) ho
  have hworked : s.worked q w = (s.begun q w).modSeq q (fun z => z.closed w) := by
    rw [State.worked, State.lastCycle_eq, hact, State.latched, if_neg (by omega)]
  have hlane : (s.worked q w).lane q = { (s.vopped q w).lane q with queue := ((s.vopped q w).lane q).queue ++ w.marks } := by
    rw [hworked, State.lane_modSeq, State.begun_lane, hpost, State.markers_lane]
  have hd : ((s.worked q w).seq q).gen.d = ((s.vopped q w).seq q).gen.d := by
    rw [hworked, State.seq_modSeq_same, Seq.closed_d _ (by omega), State.begun_eq, State.seq_modSeq_same, Seq.begun_gen, State.signalled_seq, hpost,
      State.markers_seq]
  have hreg : (s.worked q w).rdB (cluOff c Reg.ddsStatus) 24 = (s.vopped q w).rdB (cluOff c Reg.ddsStatus) 24 := by
    have hsig := ((s.addCyc q w.cl).posted q w).signalled_frame q ((s.addCyc q w.cl).seq q).pc w
    have hb : (s.begun q w).rdB (cluOff c Reg.ddsStatus) 24 = ((s.addCyc q w.cl).posted q w).rdB (cluOff c Reg.ddsStatus) 24 := by
      rw [State.begun_eq]
      exact hsig.rdB_eq 24 (by simpa [Foot.covers] using events_covers_cluOff c Reg.ddsStatus)
    rw [hworked]
    refine hb.trans ?_
    rw [hpost, State.rdB, State.markers_rd]
    rfl
  by_cases hn : n ≤ 1
  · exact onward_completes h hn rfl (by decide) (classAct_onward _ _ _ (Or.inl ho))
      (hP _ (by rw [State.onward_lane, ← hq, hlane]) (by rw [State.onward_seq, ← hd]; rfl) hreg)
  · refine ⟨_, congrArg Host.Outcome.next (h.more (by decide) (by omega)), hP _ ?_ ?_ hreg, ?_⟩
    · rw [State.lane_modSeq, ← hq, hlane]
    · rw [State.seq_modSeq_same, ← hd]
    · exact (h.frame.subset (h.footprint (by decide))).trans
        (State.modSeq_changes q _ (Evolves.refl _ _) (Allows.mem (by simp [wordFoot]))).1

end Sys2Proof.Machine

/-! The vector operations of a lane's word, at NEXT (R123, R124, R127, R136 to R138, R172, R361, R371). -/

namespace Sys2Proof.Machine

/-! ### The place behind a post (R172) -/

/-- The place behind a posted granule depends on the place and the segment alone. -/
theorem Lane.advance_place (l : Lane) : l.advance.place =
    if l.place.g + 1 = l.cur.len then
      { l.place with g := 0, plays := if l.cur.rept = 0 then min 0xFFFFFF (l.place.plays + 1) else l.place.plays + 1 }
    else { l.place with g := l.place.g + 1 } := by
  unfold Lane.advance
  dsimp only
  split <;> rfl

theorem Lane.advance_queue (l : Lane) : l.advance.queue = l.queue := by
  unfold Lane.advance
  dsimp only
  split <;> rfl

theorem Lane.advance_cur (l : Lane) : l.advance.cur = l.cur := by
  unfold Lane.advance
  dsimp only
  split <;> rfl

/-- A lane that has posted a resident granule. -/
def Lane.streamed (l : Lane) (ws : List W32) : Lane :=
  let l1 := if l.cur.pin then l else { l with ring := l.ring.tail }
  (l1.pushVecs (l1.granVecs ws)).advance

theorem Lane.streamed_queue (l : Lane) (ws : List W32) :
    (l.streamed ws).queue = l.queue ++ ws.map (fun x => Item.vec { l.keepVec false with codes := x }) := by
  unfold Lane.streamed Lane.granVecs
  dsimp only
  rw [Lane.advance_queue]
  split
  · exact congrArg (l.queue ++ ·) (List.map_map ..)
  · exact congrArg (l.queue ++ ·) (List.map_map ..)

theorem Lane.streamed_place (l : Lane) (ws : List W32) : (l.streamed ws).place = l.advance.place := by
  unfold Lane.streamed
  dsimp only
  rw [Lane.advance_place, Lane.advance_place]
  split <;> rfl

theorem State.streamOne_resident {x : State} {c : Nat} {ws : List W32} (hl : (x.lane c).ended = false) (hk : (x.lane c).cur.kind = 0)
    (he : (x.lane c).exhausted = false) (hr : (x.lane c).resident = some ws) :
    x.streamOne c none = x.setLane c ((x.lane c).streamed ws) := by
  unfold State.streamOne
  dsimp only
  rw [if_neg (by simp [hl]), if_neg (by simp [hk, he])]
  simp only [hr]
  rfl

/-! ### Tokens (R361, R371) -/

theorem Lane.tokenPosted_queue (l : Lane) (k : Token) : (l.tokenPosted k).queue = l.queue ++ [Item.token k] := by
  unfold Lane.tokenPosted
  split
  · exact Lane.advance_queue _
  · rfl

/-- The last token of a segment is the one after which all plays are posted. -/
theorem Lane.tokenPosted_last (l : Lane) (k : Token) :
    ((l.tokenPosted k).cur.kind = 2 ∧ (l.tokenPosted k).exhausted = true ∧ ¬ l.exhausted = true) ↔
      (decide (l.cur.kind = 2) && !l.exhausted && l.advance.exhausted) = true := by
  have hadv : (({ l with queue := l.queue ++ [Item.token k] } : Lane).advance).exhausted = l.advance.exhausted := by
    unfold Lane.exhausted
    rw [Lane.advance_cur, Lane.advance_cur, Lane.advance_place, Lane.advance_place]
    rfl
  unfold Lane.tokenPosted
  by_cases hc : l.cur.kind = 2 ∧ ¬ l.exhausted = true
  · rw [if_pos hc, hadv, Lane.advance_cur]
    have hk : ({ l with queue := l.queue ++ [Item.token k] } : Lane).cur.kind = 2 := hc.1
    simp [hc, hk]
  · rw [if_neg hc]
    refine ⟨fun ⟨hk, _, hn⟩ => absurd ⟨hk, hn⟩ hc, fun hr => absurd ?_ hc⟩
    simp only [Bool.and_eq_true, decide_eq_true_eq, Bool.not_eq_true'] at hr
    obtain ⟨⟨hk, he⟩, -⟩ := hr
    exact ⟨hk, by simp [he]⟩

/-- One token is posted, and it sets DDS_END if it is the last. -/
theorem State.ddsOne_posted {x : State} {c : Nat} (hl : (x.lane c).ended = false) (hoff : x.rdB (cluOff c Reg.ddsStatus) 24 = false) :
    ((x.ddsOne c).lane c).queue = (x.lane c).queue ++ [Item.token (x.nextToken c)] ∧
    (x.ddsOne c).rdB (cluOff c Reg.ddsStatus) 24 =
      (decide ((x.lane c).cur.kind = 2) && !(x.lane c).exhausted && (x.lane c).advance.exhausted) := by
  have hqueue := (x.lane c).tokenPosted_queue (x.nextToken c)
  have hlast := (x.lane c).tokenPosted_last (x.nextToken c)
  rw [State.ddsOne_eq (by simp [hl])]
  split
  next hc =>
    rw [State.lane_wrB, State.lane_setLane, if_pos rfl, hlast.1 hc]
    exact ⟨hqueue, State.rdB_wrB_same _ _ true (by decide)⟩
  next hc =>
    rw [State.lane_setLane, if_pos rfl, Bool.eq_false_iff.2 (fun hr => hc (hlast.2 hr)), ← hoff]
    exact ⟨hqueue, rfl⟩

theorem State.ddsGoPost_one {x : State} {c : Nat} (hl : (x.lane c).ended = false) :
    x.ddsGoPost c 1 = (x.wrB (cluOff c Reg.ddsStatus) 24 false).ddsOne c := by
  unfold State.ddsGoPost
  rw [if_neg (by simp [hl])]
  rfl

theorem State.nextToken_wrB (x : State) (c o n : Nat) (b : Bool) : (x.wrB o n b).nextToken c = x.nextToken c := rfl

theorem State.addCyc_lane (x : State) (q n c : Nat) : (x.addCyc q n).lane c = x.lane c := rfl

theorem State.nextToken_addCyc (x : State) (c q n : Nat) : (x.addCyc q n).nextToken c = x.nextToken c := rfl

theorem State.postData_addCyc (s : State) (q n : Nat) (w : UWord) : (s.addCyc q n).postData q w = s.postData q w := by
  unfold State.postData
  rw [State.addCyc_seq_same]
  rfl

theorem State.genVec_addCyc (s : State) (q n : Nat) (w : UWord) : (s.addCyc q n).genVec q w = s.genVec q w := by
  unfold State.genVec State.postCodes
  rw [State.postData_addCyc, State.addCyc_seq_same]
  rfl

theorem Executes.live {s : State} {q : SeqId} {w : UWord} {n opc : Nat} (h : Executes s q opc w n) (hq : q.val < 32) : (s.lane q).ended = false := by
  obtain ⟨-, -, -, -, -, hlane, -, -, -⟩ := h
  exact (hlane hq).2

section
variable {s : State} {c : CluId} {q : SeqId} {w : UWord} {n : Nat} (hq : q.val = c.val) (h : Executes s q 0 w n)
include hq h

theorem next_none_completes (hv : w.vop = 0) :
    Completes (.next q .clean) s (wordFoot q) (fun t => (t.lane c).queue = (s.lane c).queue ++ w.marks) := by
  have hx : s.vopped q w = s.addCyc q w.cl := by
    unfold State.vopped State.vopPost
    simp only [hv]
  refine next_completes hq h (fun t hlane _ _ => ?_)
  rw [hlane, hx, ← hq]
  rfl

theorem next_keep_completes (hv : w.vop = 3) : Completes (.next q .clean) s (wordFoot q) (fun t =>
    (t.lane c).queue = (s.lane c).queue ++ List.replicate w.vcnt (Item.vec ((s.lane c).keepVec false)) ++ w.marks ∧
    (t.lane c).place = (s.lane c).place) := by
  have hx : (s.vopped q w).lane q = (s.lane q).pushVecs (List.replicate w.vcnt ((s.lane q).keepVec false)) := by
    unfold State.vopped State.vopPost
    simp only [hv]
    exact (State.lane_modLane _ _ _ _).trans (if_pos rfl)
  refine next_completes hq h (fun t hlane _ _ => ?_)
  rw [hlane, hx, ← hq]
  refine ⟨?_, rfl⟩
  rw [← List.map_replicate (f := Item.vec)]
  rfl

theorem next_stream_completes {ws : List W32} (hv : w.vop = 1) (hcnt : w.vcnt = 1) (hk : (s.lane c).cur.kind = 0) (he : (s.lane c).exhausted = false)
    (hr : (s.lane c).resident = some ws) : Completes (.next q .clean) s (wordFoot q) (fun t =>
      (t.lane c).queue = (s.lane c).queue ++ (ws.map (fun x => Item.vec { (s.lane c).keepVec false with codes := x })) ++ w.marks ∧
      (t.lane c).place = (s.lane c).advance.place) := by
  rw [← hq] at hk he hr ⊢
  have hx : s.vopped q w = (s.addCyc q w.cl).setLane q ((s.lane q).streamed ws) := by
    unfold State.vopped State.vopPost
    simp only [hv, hcnt]
    exact State.streamOne_resident (x := s.addCyc q w.cl) (h.live (by omega)) hk he hr
  refine next_completes hq h (fun t hlane _ _ => ?_)
  rw [← hq, hx, State.lane_setLane, if_pos rfl] at hlane
  rw [hlane]
  exact ⟨by rw [Lane.streamed_queue], Lane.streamed_place _ _⟩

theorem next_dds_completes (hv : w.vop = 4) (hcnt : w.vcnt = 1) : Completes (.next q .clean) s (wordFoot q) (fun t =>
    ∃ k : Token, (t.lane c).queue = (s.lane c).queue ++ [Item.token k] ++ w.marks ∧ k.entry = s.ddsEntry c ∧ k.keep = (s.lane c).keepVec false ∧
      t.rdB (cluOff c Reg.ddsStatus) 24 = (decide ((s.lane c).cur.kind = 2) && !(s.lane c).exhausted && (s.lane c).advance.exhausted)) := by
  have hlive := h.live (by omega)
  have hx : s.vopped q w = ((s.addCyc q w.cl).wrB (cluOff q Reg.ddsStatus) 24 false).ddsOne q := by
    unfold State.vopped State.vopPost
    simp only [hv, hcnt]
    exact State.ddsGoPost_one hlive
  obtain ⟨hqueue, hend⟩ := State.ddsOne_posted (x := (s.addCyc q w.cl).wrB (cluOff q Reg.ddsStatus) 24 false) (c := q)
    (by rw [State.lane_wrB]; exact hlive) (State.rdB_wrB_same _ _ false (by decide))
  refine next_completes hq h (fun t hlane _ hreg => ?_)
  rw [← hx] at hqueue hend
  rw [State.nextToken_wrB, State.nextToken_addCyc, State.lane_wrB, State.addCyc_lane] at hqueue
  rw [State.lane_wrB, State.addCyc_lane] at hend
  rw [hreg, hlane, ← hq]
  exact ⟨s.nextToken q, by rw [hqueue], rfl, rfl, hend⟩

theorem next_gen_completes (hv : w.vop = 2) : Completes (.next q .clean) s (wordFoot q) (fun t =>
    ∀ x y d, x = (if w.ascr then s.scramble (cluOff c Reg.seqXscr0) (s.seq q).gen.x else (s.seq q).gen.x) →
      y = (if w.ascr then s.scramble (cluOff c Reg.seqYscr0) (s.seq q).gen.y else (s.seq q).gen.y) →
      d = dataWord (s.seq q).gen x y w.dsrc w.dinv →
      (t.seq q).gen.d = d ∧
      ∃ v : Vec, (t.lane c).queue = (s.lane c).queue ++ List.replicate w.vcnt (Item.vec v) ++ w.marks ∧ v.tset = w.tset ∧
        v.gen = some { x := (s.seq q).gen.x, y := (s.seq q).gen.y, z := (s.seq q).gen.z, d := d } ∧
        ∀ k : Fin 16, fieldOf v.codes (2 * k.val + 1) (2 * k.val) = roleCode (s.role c k) x y (s.seq q).gen.z d w.dir) := by
  rw [← hq]
  have hx : s.vopped q w = (s.addCyc q w.cl).genPost q w := by
    unfold State.vopped State.vopPost
    simp only [hv]
  refine next_completes hq h (fun t hlane hd _ => ?_)
  rw [hx, State.genPost_eq, State.lane_setLane, if_pos rfl, State.genVec_addCyc] at hlane
  rw [hx, State.genPost_eq, State.seq_setLane, State.seq_setSeq_same, State.postData_addCyc] at hd
  rintro x y d rfl rfl rfl
  rw [← hq] at hlane
  refine ⟨hd, s.genVec q w, ?_, rfl, rfl, fun k => ?_⟩
  · rw [hlane, ← List.map_replicate (f := Item.vec)]
    rfl
  · exact fieldOf_base4 (fun i => roleCode_lt _ _ _ _ _ _) k

end

/-- Settles O28: each clause is the law of its word above. -/
theorem wordsPostVectorsAndGoOn : Obligations.WordsPostVectorsAndGoOn := by
  refine ⟨?_, ?_⟩
  · rintro s c w n q hq h m rfl
    exact ⟨next_none_completes hq h, next_keep_completes hq h, fun _ => next_stream_completes hq h, next_dds_completes hq h, next_gen_completes hq h⟩
  · intro s q w n a b hn hpos
    refine ⟨opcJump_completes hpos hn, fun h hb => ⟨?_, ?_, ?_⟩, fun h hb => ⟨?_, ?_, ?_⟩, loop_completes hpos hn⟩
    · rintro rfl hlen
      exact call_completes hpos hn h hb hlen
    · rintro rfl hlen
      exact call_full_completes hn h hb hlen
    · rintro rfl
      exact call_untaken_completes hpos hn h hb
    · rintro f l rfl hs
      exact ret_completes hn h hb hs
    · rintro rfl hs
      exact ret_empty_completes hn h hb hs
    · rintro rfl
      exact ret_untaken_completes hpos hn h hb

end Sys2Proof.Machine

/-! WAIT, SYNC, HALT, SETREG, SEG and RTBL, and the ends of a wait (R128, R130, R135, R139, R172, R173). -/

namespace Sys2Proof.Machine

section
variable {s : State} {q : SeqId} {w : UWord} {n : Nat}

/-! ### WAIT and SYNC (R128, R130) -/

theorem wait_completes (hn : n ≤ 1) (h : Executes s q 0x5 w n) : Completes (.wait q .clean) s (wordFoot q) (fun t =>
    (t.seq q).st = 3 ∧ (t.seq q).waiting = true ∧ (t.seq q).waited = 0 ∧ (t.seq q).pos = (s.seq q).pos) := by
  refine h.completes (by decide) hn rfl (classAct_wait _ _ _ h.opc_eq) ((State.setSeq_frame _ _ _).subset (seq_subset_wordFoot q))
    (h.footprint (by decide)) ?_
  rw [State.seq_setSeq_same]
  exact ⟨rfl, rfl, rfl, h.pos_eq⟩

theorem sync_completes (hn : n ≤ 1) (h : Executes s q 0xA w n) : Completes (.sync q .clean) s (wordFoot q) (fun t =>
    (t.seq q).st = 3 ∧ (t.seq q).waiting = true ∧ (t.seq q).arrived = some w.barsel ∧ (t.seq q).released = false ∧
    (t.seq q).pos = (s.seq q).pos) := by
  refine h.completes (by decide) hn rfl (classAct_sync _ _ _ h.opc_eq) ((State.setSeq_frame _ _ _).subset (seq_subset_wordFoot q))
    (h.footprint (by decide)) ?_
  rw [State.seq_setSeq_same]
  exact ⟨rfl, rfl, rfl, rfl, h.pos_eq⟩

/-- What a WAIT waits for, or a SYNC (R130). -/
def State.waitOver (s : State) (q : Nat) (w : UWord) : Bool := if w.opc = 0xA then (s.seq q).released else State.cond s s q w

theorem waitConditionMet_completes {cycles : Nat} (hst : (s.seq q).st = 3) (hw : (s.seq q).waiting = true) (hc : s.curWord q = w)
    (hover : s.waitOver q w = true) : Completes (.waitConditionMet q cycles) s [.one (.seq q)] (fun t =>
      (t.seq q).st = 1 ∧ (t.seq q).waiting = false ∧ (t.seq q).arrived = none ∧ (t.seq q).pos = (s.seq q).nextPos ∧
      (t.seq q).left = none ∧ (t.seq q).cyc = (s.seq q).cyc + BitVec.ofNat 64 (cycles - (s.seq q).waited)) := by
  subst hc
  have heq : s.condMet q cycles = (s.setSeq q ((s.seq q).endWait (s.seq q).nextPos)).addCyc q (cycles - (s.seq q).waited) := by
    unfold State.condMet
    exact if_pos ⟨hst, hw, hover⟩
  have hseq : (s.condMet q cycles).seq q = ((s.seq q).endWait (s.seq q).nextPos).counted (cycles - (s.seq q).waited) := by
    rw [heq, State.addCyc_seq_same, State.seq_setSeq_same]
  refine ⟨_, rfl, ⟨by rw [hseq]; rfl, by rw [hseq]; rfl, by rw [hseq]; rfl, by rw [hseq]; rfl, by rw [hseq]; rfl, by rw [hseq]; rfl⟩, ?_⟩
  · rw [heq]
    exact (s.setSeq_frame q _).trans (State.addCyc_frame _ _ _)

/-- A wait that its timeout ends, before the flag and the event. -/
def State.timedOut (s : State) (q : Nat) (w : UWord) : State :=
  (s.setSeq q ((s.seq q).endWait ((s.seq q).targetPos w))).addCyc q (w.imm - (s.seq q).waited)

theorem State.timedOut_seq (s : State) (q : Nat) (w : UWord) :
    (s.timedOut q w).seq q = ((s.seq q).endWait ((s.seq q).targetPos w)).counted (w.imm - (s.seq q).waited) := by
  rw [State.timedOut, State.addCyc_seq_same, State.seq_setSeq_same]

theorem State.timedOut_frame (s : State) (q : Nat) (w : UWord) : ChangesOnly [.one (.seq q)] s (s.timedOut q w) :=
  (s.setSeq_frame q _).trans (State.addCyc_frame _ _ _)

theorem waitTimeout_completes (hst : (s.seq q).st = 3) (hw : (s.seq q).waiting = true) (hc : s.curWord q = w) (hover : s.waitOver q w = false) :
    Completes (.waitTimeout q) s [.one (.seq q), .pair (seqOff q Reg.seqFlags), .events] (fun t =>
      (t.seq q).st = 1 ∧ (t.seq q).waiting = false ∧ (t.seq q).arrived = none ∧ (t.seq q).pos = (s.seq q).targetPos w ∧
      (t.seq q).cyc = (s.seq q).cyc + BitVec.ofNat 64 (w.imm - (s.seq q).waited) ∧
      (s.retained (seqOff q Reg.seqFlags) = false → t.rdB (seqOff q Reg.seqFlags) 0 = true) ∧
      Posted s t [.one (.seq q), .pair (seqOff q Reg.seqFlags)] (if q.val = 32 then 257 else evLane q 5) 0x07 (BitVec.ofNat 128 (s.seq q).pc)) := by
  subst hc
  have heq : s.waitTimeout q = ((s.timedOut q (s.curWord q)).raise (seqOff q Reg.seqFlags) 0).post (if q.val = 32 then 257 else evLane q 5) 0x07
      (BitVec.ofNat 128 (s.seq q).pc) := by
    unfold State.waitTimeout
    exact if_pos ⟨hst, hw, by rw [Bool.not_eq_true]; exact hover⟩
  have hraised : ChangesOnly [.one (.seq q), .pair (seqOff q Reg.seqFlags)] s ((s.timedOut q (s.curWord q)).raise (seqOff q Reg.seqFlags) 0) :=
    ((s.timedOut_frame q _).subset (by simp)).trans (State.raise_changes _ _ (Evolves.refl _ _) (Allows.mem (by simp))).1
  have hseq : (s.waitTimeout q).seq q = ((s.seq q).endWait ((s.seq q).targetPos (s.curWord q))).counted ((s.curWord q).imm - (s.seq q).waited) := by
    rw [heq, State.seq_post, State.seq_raise, State.timedOut_seq]
  refine ⟨_, rfl, ⟨by rw [hseq]; rfl, by rw [hseq]; rfl, by rw [hseq]; rfl, by rw [hseq]; rfl, by rw [hseq]; rfl, fun hr => ?_, ?_⟩, ?_⟩
  · rw [heq, State.rdB, State.post_rd _ _ _ _ (events_covers_seqFlags q)]
    refine State.raise_rdB _ _ ?_ (by decide)
    rw [State.retained_eq_of_frame (s.timedOut_frame q _) (by simp [Foot.covers])]
    exact hr
  · exact ⟨_, heq, hraised⟩
  · rw [heq]
    exact (hraised.subset (by simp)).trans ((State.post_frame _ _ _ _).subset (by simp))

/-! ### HALT (R128, R173) -/

theorem Executes.runs {opc : Nat} (h : Executes s q opc w n) : ((s.worked q w).seq q).st = 1 := by
  obtain ⟨hst, -⟩ := Seq.of_control (State.worked_control q h.noUnderrun)
  obtain ⟨hrun, -⟩ := h
  simp only [State.canRun, Bool.and_eq_true, beq_iff_eq] at hrun
  obtain ⟨⟨hone, -⟩, -⟩ := hrun
  rw [hst, hone]

/-- The end of a part changes its sequencer and its lane alone. -/
theorem State.anyEnd_frame (x : State) (q : SeqId) : ChangesOnly [.one (.seq q), .one (.lane q)] x (x.anyEnd q) := by
  by_cases hq : q.val = 32
  · rw [State.anyEnd, if_pos hq, hq]
    exact (State.masterEnd_changes (Evolves.refl _ x) (Allows.mem (by simp))).1
  · rw [State.anyEnd, if_neg hq]
    refine (State.partEnd_changes q (Evolves.refl _ x) ?_ ?_).1 <;> exact Allows.mem (by simp)

theorem halt_completes (hn : n ≤ 1) (h : Executes s q 0x6 w n) : Completes (.halt q .clean) s (wordFoot q) (fun t =>
    (t.seq q).pend = 0 ∧ (t.seq q).stack = [] ∧ (t.seq q).fault = none ∧
    (q.val = 32 → (t.seq q).st = 0) ∧
    (q.val < 32 → (t.seq q).st = 2 ∧ (t.seq q).holdWhy = .ended ∧ (t.lane q).ended = true ∧ (t.lane q).jump = none)) := by
  have hrun : ((s.worked q w).seq q).st ≠ 4 := by rw [h.runs]; decide
  refine h.completes (by decide) hn rfl (classAct_halt _ _ _ h.opc_eq) ((State.anyEnd_frame _ q).subset (by simp [wordFoot]))
    (h.footprint (by decide)) ?_
  by_cases hq : q.val = 32
  · have hseq : ((s.worked q w).anyEnd q).seq q = ((s.worked q w).seq q).masterEnded := by
      rw [State.anyEnd, if_pos hq, State.masterEnd_eq, hq, State.seq_modSeq_same]
    rw [hseq]
    exact ⟨rfl, rfl, rfl, fun _ => if_neg hrun, fun hlt => absurd hq (by omega)⟩
  · have hseq : ((s.worked q w).anyEnd q).seq q = ((s.worked q w).seq q).partEnded := by
      rw [State.anyEnd, if_neg hq, State.partEnd_seq, if_pos rfl]
    have hlane : ((s.worked q w).anyEnd q).lane q = ((s.worked q w).lane q).partEnded := by
      rw [State.anyEnd, if_neg hq, State.partEnd_lane, if_pos rfl]
    rw [hseq, hlane]
    exact ⟨rfl, rfl, rfl, fun he => absurd he hq, fun _ => ⟨if_neg hrun, rfl, rfl, rfl⟩⟩

/-! ### SETREG (R135) -/

theorem setReg_fields (z : Seq) (imm : Nat) :
    (imm / 2 ^ 20 = 0 → (setReg z imm).gen.xbase = imm % 65536) ∧ (imm / 2 ^ 20 = 1 → (setReg z imm).gen.xmax = imm % 65536) ∧
    (imm / 2 ^ 20 = 2 → (setReg z imm).gen.xstride = imm % 65536) ∧ (imm / 2 ^ 20 = 3 → (setReg z imm).gen.ybase = imm % 65536) ∧
    (imm / 2 ^ 20 = 4 → (setReg z imm).gen.ymax = imm % 65536) ∧ (imm / 2 ^ 20 = 5 → (setReg z imm).gen.ystride = imm % 65536) ∧
    (imm / 2 ^ 20 = 6 → (setReg z imm).gen.zbase = imm % 16) ∧ (imm / 2 ^ 20 = 7 → (setReg z imm).gen.zmax = imm % 16) ∧
    (imm / 2 ^ 20 = 8 → (setReg z imm).gen.bg = imm % 65536) ∧ (imm / 2 ^ 20 = 9 → (setReg z imm).gen.walk = imm % 65536) ∧
    (imm / 2 ^ 20 = 10 → (setReg z imm).tload = imm % 2 ^ 20) := by
  have hz : imm % 65536 % 16 = imm % 16 := by omega
  unfold setReg
  refine ⟨fun h => ?_, fun h => ?_, fun h => ?_, fun h => ?_, fun h => ?_, fun h => ?_, fun h => ?_, fun h => ?_, fun h => ?_, fun h => ?_, fun h => ?_⟩ <;>
    simp only [h, hz]

theorem setreg_completes (hn : n ≤ 1) (h : Executes s q 0x7 w n) : Completes (.setreg q .clean) s (.one .plan :: wordFoot q) (fun t =>
    (t.seq q).pos = (s.seq q).nextPos ∧
    (w.imm / 2 ^ 20 = 0 → (t.seq q).gen.xbase = w.imm % 65536) ∧ (w.imm / 2 ^ 20 = 1 → (t.seq q).gen.xmax = w.imm % 65536) ∧
    (w.imm / 2 ^ 20 = 2 → (t.seq q).gen.xstride = w.imm % 65536) ∧ (w.imm / 2 ^ 20 = 3 → (t.seq q).gen.ybase = w.imm % 65536) ∧
    (w.imm / 2 ^ 20 = 4 → (t.seq q).gen.ymax = w.imm % 65536) ∧ (w.imm / 2 ^ 20 = 5 → (t.seq q).gen.ystride = w.imm % 65536) ∧
    (w.imm / 2 ^ 20 = 6 → (t.seq q).gen.zbase = w.imm % 16) ∧ (w.imm / 2 ^ 20 = 7 → (t.seq q).gen.zmax = w.imm % 16) ∧
    (w.imm / 2 ^ 20 = 8 → (t.seq q).gen.bg = w.imm % 65536) ∧ (w.imm / 2 ^ 20 = 9 → (t.seq q).gen.walk = w.imm % 65536) ∧
    (w.imm / 2 ^ 20 = 10 → (t.seq q).tload = w.imm % 2 ^ 20) ∧
    (w.imm / 2 ^ 20 = 11 →
      (w.imm.testBit 0 = true → q.val < 32 → (t.lane q).failLatch = false) ∧ t.plan.ext = (s.plan.ext && !w.imm.testBit 1)) ∧
    (w.imm / 2 ^ 20 ≠ 11 → t.plan = s.plan)) := by
  have ho := h.opc_eq
  have ha := h.noUnderrun
  have hworked : s.worked q w = ((s.begun q w).modSeq q (fun z => z.closed w)).latched q w := by
    rw [State.worked, State.lastCycle_eq, State.acted_plain (by omega) (by omega)]
  have hplan : (s.begun q w).plan = s.plan := State.begun_frame q ha .plan (by
    rw [if_neg (by omega)]
    simp [wordFoot, Foot.covers])
  have hset : ∃ z, ((s.worked q w).onward q).seq q = (setReg z w.imm).goto ((s.worked q w).seq q).nextPos := by
    obtain ⟨d, hd⟩ := State.worked_seq (s := s) q ha
    exact ⟨_, by rw [State.onward_seq]; nth_rewrite 1 [hd]; rw [Seq.closed, if_pos ho]⟩
  obtain ⟨z, hz⟩ := hset
  refine h.completes (by decide) hn rfl (classAct_onward _ _ _ (by omega)) ((State.onward_frame _ q).subset (by simp [wordFoot])) ?_
    ⟨h.onward_pos, ?_⟩
  · simp [classFoot, ho, wordFoot]
  · obtain ⟨h0, h1, h2, h3, h4, h5, h6, h7, h8, h9, h10⟩ := setReg_fields z w.imm
    rw [hz]
    refine ⟨h0, h1, h2, h3, h4, h5, h6, h7, h8, h9, h10, fun h11 => ?_, fun h11 => ?_⟩
    · have hl : s.worked q w = ((s.begun q w).modSeq q (fun z => z.closed w)).latchClr q w.imm := by
        rw [hworked, State.latched, if_pos ⟨ho, h11⟩]
      refine ⟨fun hb hq => ?_, ?_⟩
      · rw [State.onward_lane, hl, State.latchClr_lane, if_pos ⟨hb, by omega⟩]
      · show (s.worked q w).plan.ext = _
        rw [hl, State.latchClr_plan, ← hplan]
        rfl
    · show (s.worked q w).plan = s.plan
      rw [hworked, State.latched, if_neg (fun hc => h11 hc.2), ← hplan]
      rfl

end

end Sys2Proof.Machine

/-! SEG and RTBL (R128, R139, R172). -/

namespace Sys2Proof.Machine

/-! ### Response tables (R139) -/

/-- An entry that is written shows the code, and the others are as they were. -/
theorem State.respEntry_setRespEntry (s : State) (off : Nat) {i j v : Nat} (hv : v < 16) :
    (s.setRespEntry off i v).respEntry off j = if j = i then v else s.respEntry off j := by
  have hfield : ∀ (t : State) (k : Nat), t.respEntry off k = t.rdF (off + 4 * (k / 8)) (4 * (k % 8) + 3) (4 * (k % 8)) := fun _ _ => rfl
  rw [hfield, hfield]
  unfold State.setRespEntry
  by_cases hij : j = i
  · subst hij
    rw [if_pos rfl, State.rdF_wrF_same _ _ _ (by omega) (by omega)]
    exact Nat.mod_eq_of_lt (by simpa [show 4 * (j % 8) + 3 + 1 - 4 * (j % 8) = 4 by omega] using hv)
  · rw [if_neg hij]
    by_cases hreg : j / 8 = i / 8
    · rw [hreg, State.rdF_wrF_ne _ _ _ (by omega) (by omega) (by omega)]
    · rw [State.rdF, State.rd_wrF_ne _ (by omega)]
      rfl

section
variable {s : State} {q : SeqId} {w : UWord} {n : Nat}

/-- The registers of channels are those of the state with RTBL's write. -/
theorem Executes.rtbl_rd {opc : Nat} (h : Executes s q opc w n) (hC : opc ≠ 0xC) (hF : opc ≠ 0xF) (h7 : opc ≠ 7) (hq : q.val < 32) (k o : Nat)
    (ho : o < 0x1000) : (s.worked q w).rd (chOff k o) = (s.rtblWrite q w).rd (chOff k o) := by
  have hopc := h.opc_eq
  have hworked : s.worked q w = (s.begun q w).modSeq q (fun z => z.closed w) := by
    rw [State.worked, State.lastCycle_eq, State.acted_plain (by omega) (by omega), State.latched, if_neg (by omega)]
  have hsig := ((s.addCyc q w.cl).posted q w).signalled_frame q ((s.addCyc q w.cl).seq q).pc w
  have hpost := (State.posted_posts (s := s.addCyc q w.cl) q (w := w) h.noUnderrun (by omega)).frame
  have hne : cluOff q Reg.ddsStatus ≠ chOff k o := cluOff_ne_chOff (by decide) ho
  calc (s.worked q w).rd (chOff k o)
      = (((s.addCyc q w.cl).posted q w).signalled q ((s.addCyc q w.cl).seq q).pc w).rd (chOff k o) := by rw [hworked, State.begun_eq]; rfl
    _ = ((s.addCyc q w.cl).posted q w).rd (chOff k o) := hsig.rd_eq (by simpa [Foot.covers] using events_covers_cluster (le_chOff k o))
    _ = ((s.addCyc q w.cl).rtblWrite q w).rd (chOff k o) := hpost.rd_eq (by simpa [Foot.covers] using hne)
    _ = (s.rtblWrite q w).rd (chOff k o) := by unfold State.rtblWrite; split <;> rfl

theorem rtbl_completes (hn : n ≤ 1) (h : Executes s q 0x9 w n) (hq : q.val < 32) :
    Completes (.rtbl q .clean) s (.one (.reg (chOff (16 * q + w.imm % 16) Reg.tgScrStgLo + 4 * (w.imm / 16 % 16 / 8))) :: wordFoot q) (fun t =>
      (t.seq q).pos = (s.seq q).nextPos ∧
      t.respEntry (chOff (16 * q + w.imm % 16) Reg.tgScrStgLo) (w.imm / 16 % 16) = w.imm / 256 % 16 ∧
      ∀ j, j < 16 → j ≠ w.imm / 16 % 16 →
        t.respEntry (chOff (16 * q + w.imm % 16) Reg.tgScrStgLo) j = s.respEntry (chOff (16 * q + w.imm % 16) Reg.tgScrStgLo) j) := by
  have ho := h.opc_eq
  have hentry : ∀ j < 16, ((s.worked q w).onward q).respEntry (chOff (16 * q + w.imm % 16) Reg.tgScrStgLo) j =
      if j = w.imm / 16 % 16 then w.imm / 256 % 16 else s.respEntry (chOff (16 * q + w.imm % 16) Reg.tgScrStgLo) j := by
    intro j hj
    rw [← State.respEntry_setRespEntry s _ (Nat.mod_lt (w.imm / 256) (by decide))]
    have hrd := h.rtbl_rd (by decide) (by decide) (by decide) hq (16 * q + w.imm % 16) (Reg.tgScrStgLo + 4 * (j / 8))
      (by have hlo : Reg.tgScrStgLo < 0x800 := by decide
          omega)
    have hadd : chOff (16 * q + w.imm % 16) (Reg.tgScrStgLo + 4 * (j / 8)) = chOff (16 * q + w.imm % 16) Reg.tgScrStgLo + 4 * (j / 8) :=
      (Nat.add_assoc _ _ _).symm
    rw [hadd, State.rtblWrite, if_pos ho] at hrd
    exact congrArg (fun v => fieldOf v (4 * (j % 8) + 3) (4 * (j % 8))) hrd
  refine h.completes (by decide) hn rfl (classAct_onward _ _ _ (by omega)) ((State.onward_frame _ q).subset (by simp [wordFoot])) ?_
    ⟨h.onward_pos, ?_, fun j hj hne => ?_⟩
  · simp [classFoot, ho, wordFoot, rtblReg]
  · rw [hentry _ (Nat.mod_lt _ (by decide)), if_pos rfl]
  · rw [hentry j hj, if_neg hne]

/-! ### SEG (R172) -/

theorem classAct_seg (e x : State) (q : Nat) {w : UWord} {a : Nat} (h : w.opc = 8) (hpos : (x.seq q).pos = .word a) : State.classAct e x q w =
    (x.onward q).setLane q { ((x.lane q).makeCurrent (if w.imm.testBit 12 then (x.lane q).cur.next else w.imm % 4096)).discard with ranSeg := true } := by
  unfold State.classAct
  simp only [h]
  rw [if_neg (by simp [hpos])]
  rfl

theorem seg_completes (hn : n ≤ 1) (h : Executes s q 0x8 w n) : Completes (.seg q .clean) s (wordFoot q) (fun t =>
    (t.seq q).pos = (s.seq q).nextPos ∧ (t.lane q).ring = [] ∧ (t.lane q).ranSeg = true ∧
    (t.lane q).place = { seg := if w.imm.testBit 12 then (s.lane q).cur.next else w.imm % 4096, plays := 0, g := 0 }) := by
  have ho := h.opc_eq
  have hstand : ((s.worked q w).lane q).standing = (s.lane q).standing := State.worked_standing q h.noUnderrun (by omega) (by omega)
  have hcur : ((s.worked q w).lane q).cur = (s.lane q).cur :=
    show ((s.worked q w).lane q).standing.cur = (s.lane q).standing.cur by rw [hstand]
  obtain ⟨a, hpos⟩ : ∃ a, (s.seq q).pos = .word a := by
    obtain ⟨-, -, -, ha, -⟩ := h
    exact ha
  refine h.completes (by decide) hn rfl (classAct_seg _ _ _ ho (h.pos_eq.trans hpos))
    (((State.onward_frame _ q).subset (by simp [wordFoot])).trans (State.setLane_changes q _ (Evolves.refl _ _) (Allows.mem (by simp [wordFoot]))).1)
    (h.footprint (by decide)) ⟨?_, ?_, ?_, ?_⟩
  · rw [State.seq_setLane]
    exact h.onward_pos
  all_goals rw [State.lane_setLane, if_pos rfl]
  · rfl
  · rw [← hcur]
    rfl

end

/-- Settles O29: each clause is the law of its word above. -/
theorem wordsWaitSetAndHalt : Obligations.WordsWaitSetAndHalt := by
  refine ⟨fun s q w n => ⟨wait_completes, sync_completes, fun hst hw hc => ⟨fun cycles hover => ?_, fun hover => ?_⟩⟩,
    fun s q w n hn => ⟨halt_completes hn, setreg_completes hn, fun h _ => seg_completes hn h, rtbl_completes hn⟩⟩
  · exact waitConditionMet_completes hst hw hc hover
  · exact waitTimeout_completes hst hw hc hover

end Sys2Proof.Machine

/-! LSTART, LSTOP, BREL, CWMSG, TRAP, and the faults of a fetch (R119, R128, R140, R143, R146, R263, R264, R409, R414, R442, R450). -/

namespace Sys2Proof.Machine

/-! ### What LSTART leaves (R140, R263, R264, R414) -/

theorem State.lstart_started (x : State) (w : UWord) : (x.lstart w).plan.started = true := by
  have hstart : x.planStart.plan.started = true := by rw [State.planStart_plan, Plan.begun_started]
  cases h : w.imm.testBit 10 with
  | false => rw [State.lstart_plain h, State.lanesDue_frame _ _ .plan (by simp [Foot.covers]), hstart]
  | true => rw [State.lstart_aligned h, State.startSent_started, State.lanesArmed_frame _ _ .plan (by simp [Foot.covers]), hstart]

/-- The registers of the sites are those of the plan start. -/
theorem State.lstart_rd (x : State) (w : UWord) {o : Nat} (ho : o ≠ Reg.plnState) : (x.lstart w).rd o = x.planStart.rd o := by
  cases h : w.imm.testBit 10 with
  | false => rw [State.lstart_plain h, (State.lanesDue_frame _ _).rd_eq (by simp [Foot.covers])]
  | true =>
    rw [State.lstart_aligned h, (State.startSent_frame _).rd_eq (by simp [Foot.covers]),
      (State.lanesArmed_frame _ _).rd_eq (by simpa [Foot.covers] using Ne.symm ho)]

theorem State.lstart_counts {x : State} (w : UWord) (h : x.plan.started = false) (k : Fin 64) :
    (x.lstart w).rd (Reg.flSiteFail + 16 * k) = 0 ∧ (x.lstart w).rd (Reg.flSiteIndet + 16 * k) = 0 := by
  rw [x.lstart_rd w (by simp only [Reg.flSiteFail, Reg.plnState]; omega), x.lstart_rd w (by simp only [Reg.flSiteIndet, Reg.plnState]; omega)]
  exact State.planStart_counts h k

@[simp] theorem State.planStart_lane (x : State) (c : Nat) : x.planStart.lane c = x.lane c := x.planStart_frame.lane_eq (by simp [Foot.covers])

theorem State.lstart_due {x : State} {w : UWord} (h : w.imm.testBit 10 = false) (c : Nat) :
    ((x.lstart w).lane c).due = (x.lane c).due + (if (lanesOf w.lanemask).contains c then 1 else 0) ∧
    ((x.lstart w).lane c).armed = (x.lane c).armed := by
  rw [State.lstart_plain h, State.lanesDue_lane, State.planStart_lane]
  by_cases hc : c ∈ lanesOf w.lanemask
  · rw [if_pos hc, if_pos (List.contains_iff_mem.2 hc)]
    exact ⟨rfl, rfl⟩
  · rw [if_neg hc, if_neg (fun h => hc (List.contains_iff_mem.1 h))]
    exact ⟨rfl, rfl⟩

theorem State.lstart_armed {x : State} {w : UWord} (h : w.imm.testBit 10 = true) (c : Nat) :
    ((x.lstart w).lane c).armed = ((x.lane c).armed || (lanesOf w.lanemask).contains c) := by
  rw [State.lstart_aligned h, State.startSent_lane, State.lanesArmed_lane, State.planStart_lane]
  by_cases hc : c ∈ lanesOf w.lanemask
  · rw [if_pos hc, List.contains_iff_mem.2 hc, Bool.or_true]
    rfl
  · rw [if_neg hc, Bool.eq_false_iff.2 (fun h => hc (List.contains_iff_mem.1 h)), Bool.or_false]

/-- The state from which START goes out. -/
theorem State.lanesArmed_keeps (x : State) (m : Nat) :
    (x.planStart.lanesArmed m).cwy = x.cwy ∧ (x.planStart.lanesArmed m).rdF Reg.clkStatus 3 2 = x.rdF Reg.clkStatus 3 2 ∧
    (x.planStart.lanesArmed m).plan = x.plan.begun := by
  have h := (x.planStart_frame.subset (L := [.lanes, .one (.reg Reg.plnState), .one .plan, .regs Reg.flSiteFail (Reg.flSiteFail + 1024),
    .regs Reg.flFirst (Reg.flFirst + 2048)]) (by simp)).trans ((x.planStart.lanesArmed_frame m).subset (by simp))
  refine ⟨h .cwy (by simp [Foot.covers]), h.rdF_eq 3 2 (by decide), ?_⟩
  rw [x.planStart.lanesArmed_frame m .plan (by simp [Foot.covers]), State.planStart_plan]

theorem State.lstart_plnState {x : State} {w : UWord} (h : w.imm.testBit 10 = true) : (x.lstart w).plnState = 2 := by
  rw [State.lstart_aligned h, State.plnState, (State.startSent_frame _).rdF_eq 19 17 (by simp [Foot.covers])]
  exact State.lanesArmed_plnState _ _

theorem State.lstart_master {x : State} {w : UWord} (h : w.imm.testBit 10 = true) (hr : x.rdF Reg.clkStatus 3 2 = 1) :
    (x.lstart w).cwy.sendQ = x.cwy.sendQ ++ (if x.sendRoom then [startMsg] else []) ∧
    (x.lstart w).cwy.sendWait = x.cwy.sendWait ++ (if x.sendRoom then [] else [startMsg]) := by
  obtain ⟨hcwy, hclk, -⟩ := x.lanesArmed_keeps w.lanemask
  obtain ⟨hq, hw⟩ := State.startSent_master (s := x.planStart.lanesArmed w.lanemask) (hclk.trans hr)
  have hroom : (x.planStart.lanesArmed w.lanemask).sendRoom = x.sendRoom := by unfold State.sendRoom; rw [hcwy]
  rw [hcwy, hroom] at hq hw
  rw [State.lstart_aligned h]
  exact ⟨hq, hw⟩

theorem State.lstart_alone {x : State} {w : UWord} (h : w.imm.testBit 10 = true) (hr : x.rdF Reg.clkStatus 3 2 = 0) :
    (x.lstart w).plan.startDue = x.plan.startDue + 1 ∧ (x.lstart w).cwy = x.cwy := by
  obtain ⟨hcwy, hclk, hplan⟩ := x.lanesArmed_keeps w.lanemask
  rw [State.lstart_aligned h, State.startSent_alone (hclk.trans hr)]
  refine ⟨?_, hcwy⟩
  show (x.planStart.lanesArmed w.lanemask).plan.startDue + 1 = _
  rw [hplan, Plan.begun_startDue]

section
variable {s : State} {q : SeqId} {w : UWord} {n : Nat}

theorem Lane.starts_of_standing {l m : Lane} (h : l.standing = m.standing) : l.due = m.due ∧ l.armed = m.armed :=
  show l.standing.due = m.standing.due ∧ l.standing.armed = m.standing.armed by rw [h]; exact ⟨rfl, rfl⟩

/-- What the operations of a word leave of the plan, the Causeway and the clocks. -/
theorem Executes.begun_keeps {opc : Nat} (h : Executes s q opc w n) (h9 : opc ≠ 9) :
    (s.begun q w).plan = s.plan ∧ (s.begun q w).cwy = s.cwy ∧ (s.begun q w).rdF Reg.clkStatus 3 2 = s.rdF Reg.clkStatus 3 2 := by
  have hf := State.begun_frame q h.noUnderrun
  rw [if_neg (by rw [h.opc_eq]; exact h9), List.append_nil] at hf
  have hdds : cluOff q Reg.ddsStatus ≠ Reg.clkStatus := by
    have := le_cluOff q Reg.ddsStatus
    simp only [Reg.clkStatus]
    omega
  have hevents : Foot.covers .events (.reg Reg.clkStatus) = false := by decide
  exact ⟨hf .plan (by simp [wordFoot, Foot.covers]), hf .cwy (by simp [wordFoot, Foot.covers]),
    hf.rdF_eq 3 2 (by simp [wordFoot, hevents]; simpa [Foot.covers] using hdds)⟩

/-- The starts of a lane are as they were before LSTART acts. -/
theorem Executes.begun_starts {opc : Nat} (h : Executes s q opc w n) (c : Nat) :
    ((s.begun q w).lane c).due = (s.lane c).due ∧ ((s.begun q w).lane c).armed = (s.lane c).armed := by
  by_cases hc : c = q.val
  · have hstand := State.begun_standing (s := s) q h.noUnderrun
    subst hc
    exact Lane.starts_of_standing hstand
  · rw [(State.begun_frame q h.noUnderrun).lane_eq (by split <;> simp [wordFoot, Foot.covers, Ne.symm hc])]
    exact ⟨rfl, rfl⟩

/-- What a sequencer does to itself leaves the rest. -/
theorem State.modSeq_onward_keeps (y : State) (q : Nat) (f : Seq → Seq) : ((y.modSeq q f).onward q).plan = y.plan ∧
    ((y.modSeq q f).onward q).cwy = y.cwy ∧ (∀ c, ((y.modSeq q f).onward q).lane c = y.lane c) ∧
    ∀ o, ((y.modSeq q f).onward q).rd o = y.rd o := ⟨rfl, rfl, fun _ => rfl, fun _ => rfl⟩

theorem lstart_completes (hn : n ≤ 1) (h : Executes s q 0xC w n) (hleft : (s.seq q).left = none) :
    Completes (.lstart q .clean) s (wordFoot q ++ [.lanes, .one .plan, .one (.reg Reg.plnState), .regs Reg.flSiteFail (Reg.flSiteFail + 1024),
        .regs Reg.flFirst (Reg.flFirst + 2048), .one .cwy]) (fun t =>
      (t.seq q).pos = (s.seq q).nextPos ∧ t.plan.started = true ∧
      (s.plan.started = false → ∀ k : Fin 64, t.rd (Reg.flSiteFail + 16 * k) = 0 ∧ t.rd (Reg.flSiteIndet + 16 * k) = 0) ∧
      (w.imm.testBit 10 = false → ∀ c : CluId,
        (t.lane c).due = (s.lane c).due + (if (lanesOf w.lanemask).contains c.val then 1 else 0) ∧ (t.lane c).armed = (s.lane c).armed) ∧
      (w.imm.testBit 10 = true →
        (∀ c : CluId, (t.lane c).armed = ((s.lane c).armed || (lanesOf w.lanemask).contains c.val)) ∧ t.plnState = 2 ∧
        (s.rdF Reg.clkStatus 3 2 = 1 →
          t.cwy.sendQ = s.cwy.sendQ ++ (if s.sendRoom then [startMsg] else []) ∧
          t.cwy.sendWait = s.cwy.sendWait ++ (if s.sendRoom then [] else [startMsg])) ∧
        (s.rdF Reg.clkStatus 3 2 = 0 → t.plan.startDue = s.plan.startDue + 1 ∧ t.cwy = s.cwy))) := by
  have ho := h.opc_eq
  have hworked : s.worked q w = ((s.begun q w).lstart w).modSeq q (fun z => z.closed w) := by
    rw [State.worked, State.lastCycle_eq, State.latched, if_neg (by omega), State.acted, State.cwmsgDone, if_neg (by omega), State.lstartDone,
      if_pos ⟨by rw [hleft]; rfl, ho⟩]
  obtain ⟨hplan, hcwy, hclk⟩ := h.begun_keeps (by decide)
  have hroom : (s.begun q w).sendRoom = s.sendRoom := by unfold State.sendRoom; rw [hcwy]
  refine h.completes (by decide) hn rfl (classAct_onward _ _ _ (by omega)) ((State.onward_frame _ q).subset (by simp [wordFoot])) ?_
    ⟨h.onward_pos, ?_⟩
  · simp [classFoot, ho, lstartFoot]
  · obtain ⟨hkplan, hkcwy, hklane, hkrd⟩ := ((s.begun q w).lstart w).modSeq_onward_keeps q (fun z => z.closed w)
    rw [← hworked] at hkplan hkcwy hklane hkrd
    refine ⟨?_, fun hs k => ?_, fun hb c => ?_, fun hb => ⟨fun c => ?_, ?_, fun hr => ?_, fun hr => ?_⟩⟩
    · rw [hkplan, State.lstart_started]
    · rw [hkrd, hkrd]
      exact State.lstart_counts w (by rw [hplan, hs]) k
    · obtain ⟨hd, ha⟩ := h.begun_starts c.val
      rw [hklane, ← hd, ← ha]
      exact State.lstart_due hb c
    · rw [hklane, ← (h.begun_starts c.val).2]
      exact State.lstart_armed hb c
    · rw [State.plnState, State.rdF, hkrd]
      exact State.lstart_plnState hb
    · rw [hkcwy, ← hcwy, ← hroom]
      exact State.lstart_master hb (hclk.trans hr)
    · rw [hkcwy, hkplan, ← hcwy, ← hplan]
      exact State.lstart_alone hb (hclk.trans hr)

/-! ### LSTOP and BREL (R128, R141, R143) -/

theorem Seq.asked_pos (z : Seq) (k : Nat) : (z.asked k).pos = z.pos := by unfold Seq.asked; split <;> rfl

/-- The sequencers of others are as they were before the class acts. -/
theorem Executes.others {opc : Nat} (h : Executes s q opc w n) (hp : plainClass opc) {c : Nat} (hc : c ≠ q.val) :
    ((s.worked q w).onward q).seq c = s.seq c := by
  have hw : (s.worked q w).seq c = s.seq c := (h.frame.subset (h.footprint hp)).seq_eq (by simp [wordFoot, Foot.covers, Ne.symm hc])
  rw [(State.onward_frame _ q).seq_eq (by simpa [Foot.covers] using Ne.symm hc), hw]

theorem lstop_completes (hn : n ≤ 1) (h : Executes s q 0xD w n) : Completes (.lstop q .clean) s (.seqs :: wordFoot q) (fun t =>
    (t.seq q).pos = (s.seq q).nextPos ∧
    ∀ c : CluId, c.val ≠ q.val → t.seq c = (if (lanesOf w.lanemask).contains c.val && (s.seq c).inPart
      then { s.seq c with pend := (s.seq c).pend ||| 2 } else s.seq c)) := by
  refine h.completes (by decide) hn rfl (classAct_lstop _ _ _ h.opc_eq) (((State.onward_frame _ q).subset (by simp [wordFoot])).trans
    ((State.stopLanes_frame _ _).subset (by simp))) (List.subset_cons_of_subset _ (h.footprint (by decide))) ⟨?_, fun c hc => ?_⟩
  · rw [State.stopLanes_seq]
    split
    · rw [Seq.asked_pos, h.onward_pos]
    · exact h.onward_pos
  · rw [State.stopLanes_seq, h.others (by decide) hc]
    unfold Seq.asked
    by_cases hm : c.val ∈ lanesOf w.lanemask
    · rw [if_pos hm, List.contains_iff_mem.2 hm, Bool.true_and]
      rfl
    · rw [if_neg hm, Bool.eq_false_iff.2 (fun h => hm (List.contains_iff_mem.1 h)), Bool.false_and]
      rfl

theorem brel_completes (hn : n ≤ 1) (h : Executes s q 0xE w n) : Completes (.brel q .clean) s (.seqs :: wordFoot q) (fun t =>
    (t.seq q).pos = (s.seq q).nextPos ∧
    ∀ c : CluId, c.val ≠ q.val →
      (t.seq c).released = ((s.seq c).released || ((lanesOf w.lanemask).contains c.val && (s.seq c).arrived == some w.barsel)) ∧
      (t.seq c).pos = (s.seq c).pos ∧ (t.seq c).arrived = (s.seq c).arrived) := by
  refine h.completes (by decide) hn rfl (classAct_brel _ _ _ h.opc_eq) (((State.onward_frame _ q).subset (by simp [wordFoot])).trans
    ((State.brel_frame _ _).subset (by simp))) (List.subset_cons_of_subset _ (h.footprint (by decide))) ⟨?_, fun c hc => ?_⟩
  · rw [State.brel_seq]
    split
    · rw [(Seq.barrierFreed_place _ _).1, h.onward_pos]
    · exact h.onward_pos
  · rw [State.brel_seq, h.others (by decide) hc]
    by_cases hm : c.val ∈ lanesOf w.lanemask
    · obtain ⟨hpos, harr, hrel⟩ := (s.seq c).barrierFreed_place w.barsel
      rw [if_pos hm, List.contains_iff_mem.2 hm, Bool.true_and]
      exact ⟨hrel, hpos, harr⟩
    · rw [if_neg hm, Bool.eq_false_iff.2 (fun h => hm (List.contains_iff_mem.1 h)), Bool.false_and, Bool.or_false]
      exact ⟨rfl, rfl, rfl⟩

/-! ### CWMSG (R409) -/

theorem cwmsg_completes (hn : n ≤ 1) (h : Executes s q 0xF w n) : Completes (.cwmsg q .clean) s (.one .cwy :: wordFoot q) (fun t =>
    (t.seq q).pos = (s.seq q).nextPos ∧ t.cwy = { s.cwy with sendQ := s.cwy.sendQ ++ (if (s.seq q).left = none then
      [{ type := w.imm / 2 ^ 20, payload := w.imm % 2 ^ 20, ext := 0, seq := none, up := false, dn := false }] else []) }) := by
  have ho := h.opc_eq
  have hworked : s.worked q w = ((s.begun q w).cwmsgDone (s.seq q).left.isNone w).modSeq q (fun z => z.closed w) := by
    rw [State.worked, State.lastCycle_eq, State.latched, if_neg (by omega), State.acted, State.lstartDone, if_neg (by omega)]
  obtain ⟨-, hcwy, -⟩ := h.begun_keeps (by decide)
  have hsend : s.sendRoom = true := by
    obtain ⟨-, -, -, -, -, -, hsend, -, -⟩ := h
    exact hsend rfl
  have hroom : (s.begun q w).sendRoom = true := by rw [← hsend]; unfold State.sendRoom; rw [hcwy]
  refine h.completes (by decide) hn rfl (classAct_onward _ _ _ (by omega)) ((State.onward_frame _ q).subset (by simp [wordFoot])) ?_
    ⟨h.onward_pos, ?_⟩
  · simp [classFoot, ho, wordFoot]
  · show (s.worked q w).cwy = _
    rw [hworked]
    show ((s.begun q w).cwmsgDone (s.seq q).left.isNone w).cwy = _
    by_cases hl : (s.seq q).left = none
    · rw [State.cwmsgDone, if_pos ⟨by rw [hl]; rfl, ho⟩, State.sendMsgQ, if_pos hroom, if_pos hl, hcwy]
    · rw [State.cwmsgDone, if_neg (by simp [hl]), if_neg hl, List.append_nil, hcwy]

/-! ### Faults (R119, R146, R442, R450) -/

theorem trap_completes (hrun : s.canRun q = true) (hopc : (s.curWord q).opc = 0xB) (hf : s.fetchFault q .clean = none) :
    Completes (.trap q .clean) s [.one (.seq q), .one (.reg (seqOff q Reg.seqFault))] (fun t => Faulted s t q 0x02 ∧ (t.seq q).pos = (s.seq q).pos) := by
  have heq : s.run1 q 0xB .clean = s.raiseFault q 0x02 (s.seq q).pc := State.run1_trap hrun hopc hf rfl
  refine ⟨_, congrArg Host.Outcome.next heq, ⟨State.raiseFault_faulted rfl rfl, State.raiseFault_pos _ _ _ _⟩, State.raiseFault_frame _ _ _ _⟩

theorem seqFault_ne_memFlags (q : SeqId) : seqOff q Reg.seqFault ≠ Reg.memFlags := by
  have h := le_cluOff q Reg.seqFault
  unfold seqOff
  split <;> simp only [Reg.memFlags, Reg.seqFault] at * <;> omega

section
variable {i : Instr} {opc : Nat} {ecc : Ecc} (hrun : s.canRun q = true) (hi : exec i s = .next (s.run1 q opc ecc))
  (hopc : (s.curWord q).opc = opc) (hleft : (s.seq q).left = none) (hlatch : (s.seq q).latched = none)
include hrun hi hopc hleft hlatch

/-- A fetch from a retired row (R450). -/
theorem fetch_retired_completes (hr : s.rowRetired q ((s.seq q).hooked (s.seq q).pc) = true) :
    Completes i s [.one (.seq q), .one (.reg (seqOff q Reg.seqFault))] (fun t => Faulted s t q 0x05) := by
  have hfault : s.fetchFault q ecc = some 5 := by simp [State.fetchFault, Seq.fetches, hleft, hlatch, hr]
  rw [State.run1_fault hrun hopc hfault, if_neg (by decide)] at hi
  exact ⟨_, hi, State.raiseFault_faulted rfl rfl, State.raiseFault_frame _ _ _ _⟩

/-- A fetch with an uncorrectable error (R119, R442). -/
theorem fetch_lost_completes (hr : s.rowRetired q ((s.seq q).hooked (s.seq q).pc) = false) (he : ecc = .double) :
    Completes i s [.one (.seq q), .one (.reg (seqOff q Reg.seqFault)), .pair Reg.memFlags, .one (.reg Reg.memEccAddr), .events] (fun t =>
      Faulted s t q 0x01 ∧ t.rdB Reg.memFlags 0 = true) := by
  subst he
  have hfault : s.fetchFault q .double = some 1 := by simp [State.fetchFault, Seq.fetches, hleft, hlatch, hr]
  have hlost : ChangesOnly [.events, .one (.reg Reg.memEccAddr), .pair Reg.memFlags] s (s.eccLost q) := s.eccUncorr_frame _ _
  have hflag : (s.eccLost q).rdB Reg.memFlags 0 = true := (s.eccUncorr_records _ _).1
  have hseq : (s.eccLost q).seq q = s.seq q := hlost.seq_eq (by simp [Foot.covers])
  rw [State.run1_fault hrun hopc hfault, if_pos rfl] at hi
  refine ⟨_, hi, ⟨State.raiseFault_faulted rfl (by rw [hseq]), ?_⟩, (hlost.subset (by simp)).trans ((State.raiseFault_frame _ _ _ _).subset (by simp))⟩
  rw [(State.raiseFault_frame _ _ _ _).rdB_eq 0 (by simpa [Foot.covers] using seqFault_ne_memFlags q), hflag]

end

end

/-- The words of the classes, each with its class. -/
def classWords (q : SeqId) (ecc : Ecc) : List (Instr × Nat) :=
  [(.next q ecc, 0x0), (.opcJump q ecc, 0x1), (.call q ecc, 0x2), (.ret q ecc, 0x3), (.loop q ecc, 0x4), (.wait q ecc, 0x5), (.halt q ecc, 0x6),
    (.setreg q ecc, 0x7), (.seg q ecc, 0x8), (.rtbl q ecc, 0x9), (.sync q ecc, 0xA), (.trap q ecc, 0xB), (.lstart q ecc, 0xC),
    (.lstop q ecc, 0xD), (.brel q ecc, 0xE), (.cwmsg q ecc, 0xF)]

/-- Every one of them is one execution of its class (R128). -/
theorem exec_classWords (s : State) (q : SeqId) (ecc : Ecc) : ∀ i ∈ classWords q ecc, exec i.1 s = .next (s.run1 q i.2 ecc) := by
  simp only [classWords, List.forall_mem_cons, List.not_mem_nil, false_implies, implies_true, and_true]
  exact ⟨rfl, rfl, rfl, rfl, rfl, rfl, rfl, rfl, rfl, rfl, rfl, rfl, rfl, rfl, rfl, rfl⟩

/-- Settles O30: each clause is the law of its word above. -/
theorem masterWordsAndFaults : Obligations.MasterWordsAndFaults := by
  refine ⟨fun s q w n hn => ⟨lstart_completes hn, lstop_completes hn, brel_completes hn, cwmsg_completes hn⟩,
    fun s q hrun => ⟨trap_completes hrun, fun ecc i hmem hopc hleft hlatch => ?_⟩⟩
  have hi := exec_classWords s q ecc i hmem
  exact ⟨fetch_retired_completes hrun hi hopc hleft hlatch, fetch_lost_completes hrun hi hopc hleft hlatch⟩

end Sys2Proof.Machine

/-! Commands at the front with any answer, and STAGE (R157, R158, R422, R433, R434). -/

namespace Sys2Proof.Machine

/-! ### Commands at the front, whatever their status (R434) -/

section
variable {s : State} {c : Cmd} {rest : List Cmd} {op : Nat} {i : Instr}

/-- A command at the front that can reach the host memory it needs is carried out. -/
theorem State.runCmd_reached (f : Cmd → State → State) (h : Front s op c rest) (hb : badFields c = false) (hc : c.cutOff = false) :
    s.runCmd op f = (f c (s.popped rest)).settleAll := by
  rw [State.runCmd_front f h, hb, hc, if_neg (by decide), if_neg (by decide)]

/-- A command at the front that a link reset has cut off from host memory (R422). -/
theorem State.runCmd_cutOff (f : Cmd → State → State) (h : Front s op c rest) (hb : badFields c = false) (hc : c.cutOff = true) :
    s.runCmd op f = ((s.popped rest).complete c St.dmaError 0 0).settleAll := by
  rw [State.runCmd_front f h, hb, hc, if_neg (by decide), if_pos rfl]

/-- A command at the front ends at once with a status, from a state that its work has reached without the rings. -/
theorem front_answers {L : List Foot} {y : State} {P : State → Prop} (status detail result : Nat) (h : Front s op c rest)
    (hrun : exec i s = .next (y.complete c status detail result).settleAll) (hy : ChangesOnly L (s.popped rest) y)
    (hr : ∀ k ∈ L, k.covers .rings = false)
    (hk : ∀ k ∈ L, ∀ o ∈ [Reg.hstCplTail, Reg.hstCplDrop, Reg.hstCplBaseLo, Reg.hstCplBaseLo + 4, Reg.hstCfg], k.covers (.reg o) = false)
    (hP : ∀ t, ChangesOnly [.completion] y t → P t) :
    Completes i s (.completion :: L) (fun t => Finishes s t c rest status detail result ∧ P t) := by
  obtain ⟨hfg, -⟩ := h
  obtain ⟨hfetched', hfg', -⟩ := hy .rings hr
  have hend : ChangesOnly [.completion] y (y.complete c status detail result).settleAll :=
    (y.complete_frame c status detail result).trans (State.settleAll_frame _)
  refine ⟨_, hrun, ⟨?_, hP _ hend⟩, popped_completion_frame hy hend⟩
  exact Finishes.of_complete status detail result ((s.popped_alike rest).trans (RingsAlike.of_frame hy hr hk)) hfetched' (hfg'.trans hfg)

/-- A command at the front ends at once with a status, and nothing else changes. -/
theorem front_refused (status : Nat) (h : Front s op c rest) (hrun : exec i s = .next ((s.popped rest).complete c status 0 0).settleAll) :
    Completes i s [.completion] (fun t => Finishes s t c rest status 0 0) := by
  obtain ⟨t, hexec, ⟨hfin, -⟩, hframe⟩ := front_answers (P := fun _ => True) status 0 0 h hrun (ChangesOnly.refl [] _) (by simp) (by simp)
    (fun _ _ => trivial)
  exact ⟨t, hexec, hfin, hframe⟩

end

/-! ### Volatile slots (R157, R158) -/

/-- The number that a slot holds, one higher; 0 where it is empty. -/
def State.slotNumber (s : State) (i : Nat) : Nat := Tbl.get (fun _ => 0) s.plan.slots i

theorem State.setSlot_slotNumber (s : State) (n : Nat) (x : Option Nat) (len i : Nat) :
    (s.setSlot n x len).slotNumber i = if i = n then (match x with | some p => p + 1 | none => 0) else s.slotNumber i :=
  Tbl.get_set _ _ _ _ _

theorem State.slotRegs_slotNumber (s : State) (i : Nat) : s.slotRegs.slotNumber i = s.slotNumber i := rfl

/-- The slots beside `n` that hold plan `x`. -/
def State.sameSlots (s : State) (n x : Nat) : List Nat := (List.range 64).filter (fun i => i != n && s.slotNumber i == x + 1)

theorem State.mem_sameSlots {s : State} {n x i : Nat} : i ∈ s.sameSlots n x ↔ i < 64 ∧ i ≠ n ∧ s.slotNumber i = x + 1 := by
  simp [State.sameSlots]

theorem State.nodup_sameSlots (s : State) (n x : Nat) : (s.sameSlots n x).Nodup := List.nodup_range.filter _

/-- A list of slots is emptied. -/
def State.slotsEmptied (s : State) (l : List Nat) : State := l.foldl (fun u i => u.setSlot i none 0) s

theorem State.slotsEmptied_slotNumber (s : State) {l : List Nat} (hl : l.Nodup) (i : Nat) :
    (s.slotsEmptied l).slotNumber i = if i ∈ l then 0 else s.slotNumber i :=
  State.foldl_local State.slotNumber _ (fun _ _ => 0) (fun t c i => t.setSlot_slotNumber c none 0 i) l hl s i

theorem State.slotsEmptied_mem (s : State) (l : List Nat) : (s.slotsEmptied l).mem = s.mem :=
  State.foldl_keeps (op := fun u i => u.setSlot i none 0) State.mem (fun _ _ => rfl) l s

/-- Slot `n` alone holds plan `x`, of `len` bytes. -/
def State.slotStored (s : State) (n x len : Nat) : State := ((s.slotsEmptied (s.sameSlots n x)).setSlot n (some x) len).slotRegs

theorem State.slotStored_slotNumber (s : State) (n x len : Nat) :
    (s.slotStored n x len).slotNumber n = x + 1 ∧
      ∀ i, i < 64 → i ≠ n → (s.slotStored n x len).slotNumber i = (if s.slotNumber i = x + 1 then 0 else s.slotNumber i) := by
  unfold State.slotStored
  refine ⟨?_, fun i hi hne => ?_⟩
  · rw [State.slotRegs_slotNumber, State.setSlot_slotNumber, if_pos rfl]
  · rw [State.slotRegs_slotNumber, State.setSlot_slotNumber, if_neg hne, State.slotsEmptied_slotNumber s (s.nodup_sameSlots n x)]
    simp only [State.mem_sameSlots, hi, hne, ne_eq, not_false_eq_true, true_and]

theorem State.slotStored_length (s : State) (n x len : Nat) : Tbl.get (fun _ => 0) (s.slotStored n x len).plan.lens n = len :=
  Tbl.get_set_same _ _ _ _

theorem State.slotStored_frame (s : State) (n x len : Nat) : ChangesOnly [.pair Reg.plnSlotLo, .one .plan] s (s.slotStored n x len) := by
  have hplan : Allows [.pair Reg.plnSlotLo, .one .plan] (.one .plan) := Allows.mem (by decide)
  exact (State.slotRegs_changes (State.setSlot_changes _ _ _ (Evolves.foldl (fun _ _ ht => State.setSlot_changes _ _ _ ht hplan) (Evolves.refl _ s)) hplan)
    (Allows.mem (by decide))).1

theorem State.slotEmptied_frame (s : State) (n : Nat) : ChangesOnly [.pair Reg.plnSlotLo, .one .plan] s (s.setSlot n none 0).slotRegs :=
  (State.slotRegs_changes (State.setSlot_changes _ _ _ (Evolves.refl _ s) (Allows.mem (by decide))) (Allows.mem (by decide))).1

/-! ### Bytes of the DRAM -/

theorem State.dramRd_dramWr (s : State) (a : Nat) (bs : List Byte) : (s.dramWr a bs).dramRd a bs.length = bs :=
  Tbl.getList_setList _ bs a s.mem.dram

theorem State.dramWr_frame (s : State) (a : Nat) (bs : List Byte) : ChangesOnly [.dram a bs.length] s (s.dramWr a bs) :=
  (State.dramWr_changes a bs (Evolves.refl _ s) (Allows.mem List.mem_cons_self)).1

/-- Bytes of the DRAM that the footprint does not take in are as they were. -/
theorem ChangesOnly.dramRd_eq {K : List Foot} {s t : State} (h : ChangesOnly K s t) (hk : ∀ b, ∀ k ∈ K, k.covers (.dram b) = false)
    (a n : Nat) : t.dramRd a n = s.dramRd a n := List.map_congr_left fun i _ => h (.dram (a + i)) (hk (a + i))

/-! ### STAGE (R157, R158, R433) -/

/-- The plan that STAGE puts into its slot. -/
def Cmd.stagedPlan (c : Cmd) : PlanRef := { base := slotBase (c.arg0 % 64), len := 16 * c.len, slot := some (c.arg0 % 64) }

/-- STAGE judges the bytes that lie in the slot in `y`, and refuses them in `x`, before they were written. -/
def State.stageJudged (x y : State) (c : Cmd) : State :=
  if y.planFormatBad c.stagedPlan ∨ (y.planLe c.stagedPlan 8 4 + 15) / 16 ≠ c.len then x.complete c 0x02 0 0
  else if (y.sameSlots (c.arg0 % 64) (y.planLe c.stagedPlan 6 2)).any y.slotRuns then x.complete c St.busy 0 0
  else (y.slotStored (c.arg0 % 64) (y.planLe c.stagedPlan 6 2) (16 * c.len)).complete c St.ok 0 0

section
variable {s : State} {c : Cmd} {rest : List Cmd} (h : Front s 0x03 c rest) (hb : badFields c = false)
include h hb

theorem stage_cutOff_completes (data : Option (List Byte)) (hc : c.cutOff = true) :
    Completes (.stage data) s [.completion] (fun t => Finishes s t c rest St.dmaError 0 0) :=
  front_refused _ h (congrArg Host.Outcome.next (State.runCmd_cutOff _ h hb hc))

variable (hc : c.cutOff = false)
include hc

theorem stage_tooLong_completes (data : Option (List Byte)) (hlen : 0x40000 < c.len) :
    Completes (.stage data) s [.completion] (fun t => Finishes s t c rest 0x03 0 0) :=
  front_refused _ h (congrArg Host.Outcome.next ((State.runCmd_reached _ h hb hc).trans (congrArg State.settleAll (if_pos hlen))))

variable (hlen : c.len ≤ 0x40000)
include hlen

theorem stage_running_completes (data : Option (List Byte)) (hrun : s.slotRuns (c.arg0 % 64) = true) :
    Completes (.stage data) s [.completion] (fun t => Finishes s t c rest St.busy 0 0) :=
  front_refused _ h (congrArg Host.Outcome.next ((State.runCmd_reached _ h hb hc).trans (congrArg State.settleAll
    ((if_neg (Nat.not_lt.2 hlen)).trans (if_pos hrun)))))

variable (hfree : s.slotRuns (c.arg0 % 64) = false)
include hfree

theorem stage_empty_completes (data : Option (List Byte)) (hzero : c.len = 0) :
    Completes (.stage data) s [.completion, .pair Reg.plnSlotLo, .one .plan] (fun t =>
      Finishes s t c rest St.ok 0 0 ∧ Tbl.get (fun _ => 0) t.plan.slots (c.arg0 % 64) = 0 ∧
      ∀ i, i ≠ c.arg0 % 64 → Tbl.get (fun _ => 0) t.plan.slots i = Tbl.get (fun _ => 0) s.plan.slots i) := by
  refine front_answers St.ok 0 0 h (congrArg Host.Outcome.next ((State.runCmd_reached _ h hb hc).trans (congrArg State.settleAll
    ((if_neg (Nat.not_lt.2 hlen)).trans ((if_neg (ne_true_of_eq_false hfree)).trans (if_pos hzero))))))
    ((s.popped rest).slotEmptied_frame _) (by decide) (by decide) (fun t ht => ?_)
  rw [show t.plan = _ from ht .plan (by decide)]
  have hslot := (s.popped rest).setSlot_slotNumber (c.arg0 % 64) none 0
  exact ⟨(hslot _).trans (if_pos rfl), fun i hi => (hslot i).trans (if_neg hi)⟩

variable (hsome : c.len ≠ 0)
include hsome

theorem stage_readError_completes : Completes (.stage none) s [.completion] (fun t => Finishes s t c rest St.dmaError 0 0) :=
  front_refused _ h (congrArg Host.Outcome.next ((State.runCmd_reached _ h hb hc).trans (congrArg State.settleAll
    ((if_neg (Nat.not_lt.2 hlen)).trans ((if_neg (ne_true_of_eq_false hfree)).trans (if_neg hsome))))))

variable {d : List Byte} (hd : d.length = 16 * c.len)
include hd

theorem State.cmdStage_bytes :
    s.cmdStage (some d) = ((s.popped rest).stageJudged ((s.popped rest).dramWr (slotBase (c.arg0 % 64)) d) c).settleAll := by
  have htake : d.take (16 * c.len) = d := List.take_of_length_le (Nat.le_of_eq hd)
  refine (State.runCmd_reached _ h hb hc).trans (congrArg State.settleAll
    ((if_neg (Nat.not_lt.2 hlen)).trans ((if_neg (ne_true_of_eq_false hfree)).trans ((if_neg hsome).trans ?_))))
  dsimp only
  rw [htake]
  rfl

variable {u : State} (hu : u = (s.popped rest).dramWr (slotBase (c.arg0 % 64)) d)
include hu

theorem stage_badFormat_completes (hbad : u.planFormatBad c.stagedPlan = true ∨ (u.planLe c.stagedPlan 8 4 + 15) / 16 ≠ c.len) :
    Completes (.stage (some d)) s [.completion] (fun t => Finishes s t c rest 0x02 0 0) := by
  subst hu
  exact front_refused _ h (congrArg Host.Outcome.next ((State.cmdStage_bytes h hb hc hlen hfree hsome hd).trans (congrArg State.settleAll (if_pos hbad))))

variable (hgood : u.planFormatBad c.stagedPlan = false) (hspan : (u.planLe c.stagedPlan 8 4 + 15) / 16 = c.len)
include hgood hspan

omit h hb hc hlen hfree hsome hd hu in
theorem stage_formatGood : ¬ (u.planFormatBad c.stagedPlan = true ∨ (u.planLe c.stagedPlan 8 4 + 15) / 16 ≠ c.len) := by
  simp [hgood, hspan]

theorem stage_numberRuns_completes (hruns : ∃ i, i < 64 ∧ i ≠ c.arg0 % 64 ∧ s.slotNumber i = u.planLe c.stagedPlan 6 2 + 1 ∧ s.slotRuns i = true) :
    Completes (.stage (some d)) s [.completion] (fun t => Finishes s t c rest St.busy 0 0) := by
  have hfmt := stage_formatGood hgood hspan
  subst hu
  obtain ⟨i, hi, hne, hnum, hrun⟩ := hruns
  have hany := List.any_eq_true.2 ⟨i, State.mem_sameSlots.2 ⟨hi, hne, hnum⟩, hrun⟩
  exact front_refused _ h (congrArg Host.Outcome.next ((State.cmdStage_bytes h hb hc hlen hfree hsome hd).trans (congrArg State.settleAll
    ((if_neg hfmt).trans (if_pos hany)))))

theorem stage_stored_completes (hidle : ∀ i, i < 64 → i ≠ c.arg0 % 64 → s.slotNumber i = u.planLe c.stagedPlan 6 2 + 1 → s.slotRuns i = false) :
    Completes (.stage (some d)) s [.completion, .pair Reg.plnSlotLo, .one .plan, .dram (slotBase (c.arg0 % 64)) (16 * c.len)] (fun t =>
      Finishes s t c rest St.ok 0 0 ∧ t.dramRd (slotBase (c.arg0 % 64)) (16 * c.len) = d ∧
      t.slotNumber (c.arg0 % 64) = u.planLe c.stagedPlan 6 2 + 1 ∧ Tbl.get (fun _ => 0) t.plan.lens (c.arg0 % 64) = 16 * c.len ∧
      ∀ i, i < 64 → i ≠ c.arg0 % 64 → t.slotNumber i =
        (if s.slotNumber i = u.planLe c.stagedPlan 6 2 + 1 then 0 else s.slotNumber i)) := by
  have hfmt := stage_formatGood hgood hspan
  have hany : (u.sameSlots (c.arg0 % 64) (u.planLe c.stagedPlan 6 2)).any u.slotRuns = false := by
    subst hu
    refine List.any_eq_false.2 fun i hi => ?_
    obtain ⟨hlt, hne, hnum⟩ := State.mem_sameSlots.1 hi
    exact ne_true_of_eq_false (hidle i hlt hne hnum)
  have hwrite : ChangesOnly [.dram (slotBase (c.arg0 % 64)) (16 * c.len)] (s.popped rest) u := by
    rw [hu, ← hd]
    exact State.dramWr_frame _ _ _
  have hstore := u.slotStored_frame (c.arg0 % 64) (u.planLe c.stagedPlan 6 2) (16 * c.len)
  obtain ⟨hnumber, hothers⟩ := u.slotStored_slotNumber (c.arg0 % 64) (u.planLe c.stagedPlan 6 2) (16 * c.len)
  refine front_answers St.ok 0 0 h (congrArg Host.Outcome.next ((State.cmdStage_bytes h hb hc hlen hfree hsome hd).trans (congrArg State.settleAll ?_)))
    ((hwrite.subset (by simp)).trans (hstore.subset (by simp))) (by simp [Foot.covers]) ?_ (fun t ht => ?_)
  · rw [← hu]
    exact (if_neg hfmt).trans (if_neg (ne_true_of_eq_false hany))
  · exact List.forall_mem_cons.2 ⟨by decide, List.forall_mem_cons.2 ⟨by decide, by simp [Foot.covers]⟩⟩
  · have hplan : t.plan = _ := ht .plan (by decide)
    have hslots : ∀ i, t.slotNumber i = (u.slotStored (c.arg0 % 64) (u.planLe c.stagedPlan 6 2) (16 * c.len)).slotNumber i := fun i => by
      rw [State.slotNumber, hplan]
      rfl
    refine ⟨?_, (hslots _).trans hnumber, ?_, fun i hi hne => (hslots i).trans ((hothers i hi hne).trans ?_)⟩
    · rw [ht.dramRd_eq (by simp [Foot.covers]), hstore.dramRd_eq (by simp [Foot.covers]), hu, ← hd]
      exact State.dramRd_dramWr _ _ _
    · rw [hplan]
      exact State.slotStored_length _ _ _ _
    · subst hu
      rfl

end

end Sys2Proof.Machine

/-! Loading a plan: what the loader reads of it, and what the load of each lane leaves (R156, R157, R170, R178, R192, R194, R453). -/

namespace Sys2Proof.Machine

/-! ### What the loader reads of a plan (R156, R157, R160) -/

/-- Two states whose DRAM holds the same bytes. -/
def SameDram (s t : State) : Prop := ∀ a, t.dramAt a = s.dramAt a

theorem SameDram.trans {s t u : State} (h : SameDram s t) (h' : SameDram t u) : SameDram s u := fun a => (h' a).trans (h a)

theorem SameDram.of_frame {K : List Foot} {s t : State} (h : ChangesOnly K s t) (hk : ∀ b, ∀ k ∈ K, k.covers (.dram b) = false) :
    SameDram s t := fun a => h (.dram a) (hk a)

theorem SameDram.planLe {s t : State} (h : SameDram s t) (p : PlanRef) (o n : Nat) : t.planLe p o n = s.planLe p o n :=
  congrArg leNat (List.map_congr_left fun i _ => h (p.base + o + i))

theorem SameDram.laneDir {s t : State} (h : SameDram s t) (p : PlanRef) (c o n : Nat) : t.laneDir p c o n = s.laneDir p c o n := h.planLe p _ n

/-- The segments of a lane part lie in the DRAM. -/
theorem SameDram.segs {s t : State} (h : SameDram s t) (p : PlanRef) (c : Nat) : t.segs p c = s.segs p c := by
  have hseg : t.planSeg p c = s.planSeg p c := funext fun i => by simp only [State.planSeg, State.lanePart, h.laneDir, h.planLe]
  rw [State.segs, State.segs, State.segWords, State.segWords, h.laneDir, hseg]

/-- The slot that a plan comes from is one of the 64. -/
theorem State.planOf_slot {s : State} {number : Nat} {p : PlanRef} (h : s.planOf number = some p) : p.slot.getD 0 < 64 := by
  unfold State.planOf at h
  split at h
  next n hn =>
    cases h
    exact List.mem_range.1 (List.mem_of_find?_eq_some hn)
  next =>
    dsimp only at h
    split at h
    · cases h
    · cases h
      exact Nat.zero_lt_succ _

/-! ### The checks (R182, R192, R217) -/

theorem State.loadCheck_frame (s : State) (p : PlanRef) : ChangesOnly [.one (.reg Reg.plnBw), .cluReg Reg.tgRefuse] s (s.loadCheck p).1 :=
  (State.loadCheck_changes p (Evolves.refl _ s) (Allows.mem (by decide)) (Allows.mem (by decide))).1

/-- A plan that passes has had its demand written to PLN_BW, and nothing else. -/
theorem State.loadCheck_passed {s : State} {p : PlanRef} (h : (s.loadCheck p).2 = 0) :
    (s.loadCheck p).1 = s.wrF Reg.plnBw 15 0 (demandUnits (s.demand p)) := by
  unfold State.loadCheck at h ⊢
  dsimp only at h ⊢
  split at h
  · contradiction
  next ha =>
    rw [if_neg ha]
    split at h
    · cases h
    · split at h
      · contradiction
      next hb =>
        rw [if_neg hb]
        split <;> rfl

/-! ### The course of a lane -/

/-- Where a lane stands in its segments: what a load sets and a refill leaves. -/
def Lane.course (l : Lane) : List Segm × Place × Option Nat × Nat × Option (Nat × Nat × Nat) := (l.table, l.place, l.jump, l.due, l.was)

theorem State.refillLand_course (s : State) (c : Nat) : ((s.refillLand c).lane c).course = (s.lane c).course := by
  unfold State.refillLand
  dsimp only
  split
  · rfl
  · rw [State.lane_setLane_same]
    rfl

/-- Granules that begin a request lie in a sluice ring (R185). -/
def Lane.sluiced (l : Lane) (gs : List Gran) : Bool := match gs with | g :: _ => (l.segm g.seg).sluice | [] => false

/-- The request of `gs` reads the last granules of a sluice block (R185). -/
def Lane.endsBlock (l : Lane) (gs : List Gran) : Bool := l.sluiced gs && decide (l.slIn + gs.length = 256)

/-- The refill that a request of `gs` makes (R40, R180, R185). -/
def Lane.refillOf (l : Lane) (gs : List Gran) : Refill :=
  { grans := gs, dropped := false, credits := b2n (l.endsBlock gs), chan := granuleChan ((gs.head?.map (fun g => g.addr)).getD 0) }

/-- The lane with a refill of `gs` under way. -/
def Lane.requested (l : Lane) (gs : List Gran) (p : Place) : Lane :=
  let l1 := { l with pred := some p, inflight := l.inflight ++ [l.refillOf gs] }
  if l.endsBlock gs then { l1 with slIn := 0, slBlocks := l1.slBlocks - 1 }
  else if l.sluiced gs then { l1 with slIn := l1.slIn + gs.length } else l1

theorem Lane.requested_course (l : Lane) (gs : List Gran) (p : Place) : (l.requested gs p).course = l.course := by
  unfold Lane.requested
  dsimp only
  split_ifs <;> rfl

theorem Lane.requested_refill (l : Lane) (gs : List Gran) (p : Place) :
    (l.requested gs p).pred = some p ∧ (l.requested gs p).inflight = l.inflight ++ [l.refillOf gs] := by
  unfold Lane.requested
  dsimp only
  split_ifs <;> exact ⟨rfl, rfl⟩

/-- The state with a refill of `gs` in the queue of its DRAM channel, before a sluice ring moves on. -/
def State.refillQueued (s : State) (c : Nat) (gs : List Gran) (p : Place) : State :=
  let s1 := s.setLane c ((s.lane c).requested gs p)
  s1.putMem { s1.mem with dramQ := s1.mem.dramQ ++ [(((s.lane c).refillOf gs).chan, c)] }

theorem State.refillRequest_eq {s : State} {c : Nat} {gs : List Gran} {p : Place} (h : s.refillBlock c = some (gs, p)) :
    s.refillRequest c =
      (if s.ringSize c < (s.lane c).ringFill + gs.length then s
      else if (s.lane c).endsBlock gs then
        (s.refillQueued c gs p).wrF (cluOff c Reg.plnSluicePos) 15 8
          (((s.refillQueued c gs p).rdF (cluOff c Reg.plnSluicePos) 15 8 + 1) % (s.refillQueued c gs p).rdF (cluOff c Reg.plnSluiceSize) 8 0)
      else s.refillQueued c gs p) := by
  unfold State.refillRequest
  rw [h]
  rfl

/-- A request that the ring has room for (R40, R180). -/
theorem State.refillRequest_taken {s : State} {c : Nat} {gs : List Gran} {p : Place} (h : s.refillBlock c = some (gs, p))
    (hroom : (s.lane c).ringFill + gs.length ≤ s.ringSize c) :
    (s.refillRequest c).lane c = (s.lane c).requested gs p ∧
      (s.refillRequest c).mem.dramQ = s.mem.dramQ ++ [(((s.lane c).refillOf gs).chan, c)] := by
  have hlane : (s.refillQueued c gs p).lane c = (s.lane c).requested gs p := State.lane_setLane_same s c _
  have hqueue : (s.refillQueued c gs p).mem.dramQ = s.mem.dramQ ++ [(((s.lane c).refillOf gs).chan, c)] := rfl
  rw [State.refillRequest_eq h, if_neg (Nat.not_lt.2 hroom)]
  split
  · rw [State.lane_wrF, State.wrF_mem]
    exact ⟨hlane, hqueue⟩
  · exact ⟨hlane, hqueue⟩

theorem State.refillRequest_full {s : State} {c : Nat} {gs : List Gran} {p : Place} (h : s.refillBlock c = some (gs, p))
    (hfull : s.ringSize c < (s.lane c).ringFill + gs.length) : s.refillRequest c = s := by
  rw [State.refillRequest_eq h, if_pos hfull]

theorem State.refillRequest_course (s : State) (c : Nat) : ((s.refillRequest c).lane c).course = (s.lane c).course := by
  cases h : s.refillBlock c with
  | none =>
    unfold State.refillRequest
    rw [h]
  | some b =>
    by_cases hroom : (s.lane c).ringFill + b.1.length ≤ s.ringSize c
    · rw [(State.refillRequest_taken h hroom).1, Lane.requested_course]
    · rw [State.refillRequest_full h (Nat.lt_of_not_le hroom)]

theorem State.prefill_course (s : State) (c n : Nat) : ((s.prefill c n).lane c).course = (s.lane c).course := by
  induction n generalizing s with
  | zero => rfl
  | succ n ih =>
    have hone : (((s.refillRequest c).refillLand c).lane c).course = (s.lane c).course :=
      (State.refillLand_course _ c).trans (s.refillRequest_course c)
    unfold State.prefill
    dsimp only
    split
    · exact hone
    · exact (ih _).trans hone

/-! ### The load of one lane (R142, R170, R202, R219, R453) -/

/-- The lane as its load leaves it, before its prefill (R170, R178, R194). -/
def Lane.loaded (l : Lane) (segs : List Segm) (entry : Nat) (pins : List (List W32)) : Lane :=
  { l with was := some l.segView, table := segs, entrySeg := entry, place := { seg := entry, plays := 0, g := 0 }, pinned := pins, ring := [],
           inflight := [], pred := some { seg := entry, plays := 0, g := 0 }, jump := none, granted := false, due := 0, armed := false }

/-- What the words, the registers and the timing sets of lane `c` can change as they load. -/
def lanePartFoot (c : Nat) : List Foot :=
  [.one (.seq c), .chans, .chReg Reg.tgScrSrc, .chReg Reg.tgWin, .pair (cluOff c Reg.tgScrmaskLo), .pair (cluOff c Reg.tgSetmaskLo), .one .timing,
    .regs (cluOff c Reg.tgPeriod) (cluOff c (Reg.tgPeriod + 256)), .chRegs Reg.tgMode0 (Reg.tgMode0 + 64), .one (.reg (cluOff c Reg.seqIvec)),
    .one (.reg (cluOff c Reg.seqSrcMask)), .regs (cluOff c Reg.seqRole0) (cluOff c (Reg.seqRole0 + 16)),
    .regs (cluOff c Reg.seqXscr0) (cluOff c (Reg.seqXscr0 + 16))]

/-- Four registers in a row of a cluster are written. -/
theorem Evolves.wrRow {K : List Foot} {s x : State} {c o : Nat} (h : Evolves K s x) (f : Nat → W32)
    (hk : Allows K (.regs (cluOff c o) (cluOff c (o + 16)))) :
    Evolves K s ((List.range 4).foldl (fun t i => t.wr (cluOff c (o + 4 * i)) (f i)) x) := by
  refine Evolves.foldl_mem (fun t i hi ht => State.wr_changes _ _ ht (hk.inRegs ?_)) h
  have hlt := List.mem_range.mp hi
  unfold cluOff
  omega

/-- A lane wakes, its part loads, the lane is set to its entry and its ring is filled (R170). -/
theorem State.loadLane_stages (s : State) (p : PlanRef) (c : Nat) :
    ∃ y pins v, ChangesOnly (lanePartFoot c) (s.wake c) y ∧
      s.loadLane p c = ((y.modLane c (fun l => l.loaded (s.segs p c) (s.laneDir p c 0xA 2) pins)).wr (cluOff c Reg.plnCache) v).prefill c 2048 := by
  unfold State.loadLane
  extract_lets segs entry s0 s1 r s2 s3 s4 pins start s5 s6
  refine ⟨s4, pins, _, ?_, rfl⟩
  have h1 : Evolves (lanePartFoot c) s0 s1 := State.loadWords_changes _ _ (Evolves.refl _ _) (Allows.mem (by simp [lanePartFoot]))
  have h2 : Evolves (lanePartFoot c) s0 s2 := h1.wrRow _ (Allows.mem (by simp [lanePartFoot]))
  have h3 : Evolves (lanePartFoot c) s0 s3 := h2.wrRow _ (Allows.mem (by simp [lanePartFoot]))
  refine (State.loadTiming_changes _ _ (State.loadLatches_changes _ (State.wr_changes _ _ (State.wr_changes _ _ h3 ?_) ?_) ?_)
    ?_ ?_ ?_ ?_ ?_ ?_ ?_ ?_).1 <;> exact Allows.mem (by simp [lanePartFoot])

/-- What the load of lane `c` can change. -/
def laneLoadFoot (c : Nat) : List Foot :=
  lanePartFoot c ++ [.one (.lane c), .one .refills, .one (.reg (cluOff c Reg.plnSluicePos)), .one (.reg (cluOff c Reg.plnCache)), .chReg Reg.tiaLine,
    .one (.reg Reg.memRetWakes), .one (.reg Reg.memRetState)]

theorem State.loadLane_frame (s : State) (p : PlanRef) (c : Nat) : ChangesOnly (laneLoadFoot c) s (s.loadLane p c) := by
  refine (State.loadLane_changes p c (Evolves.refl _ s) ?_ ?_ ?_ ?_ ?_ ?_ ?_ ?_ ?_ ?_ ?_ ?_ ?_ ?_ ?_ ?_ ?_ ?_ ?_ ?_).1 <;>
    exact Allows.mem (by simp [laneLoadFoot, lanePartFoot])

theorem State.wake_frame (s : State) (c : Nat) :
    ChangesOnly [.chReg Reg.tiaLine, .chans, .one (.reg Reg.memRetWakes), .one (.reg Reg.memRetState)] s (s.wake c) := by
  refine (State.wake_changes c (Evolves.refl _ s) ?_ ?_ ?_ ?_).1 <;> exact Allows.mem (by decide)

theorem State.prefill_frame (s : State) (c n : Nat) :
    ChangesOnly [.one (.lane c), .one .refills, .one (.reg (cluOff c Reg.plnSluicePos))] s (s.prefill c n) := by
  refine (State.prefill_changes c n (Evolves.refl _ s) ?_ ?_ ?_).1 <;> exact Allows.mem (by simp)

/-- A cluster that wakes leaves retention, and no cluster enters it (R453). -/
theorem State.wake_retained (s : State) {c i : Nat} (hc : c < 32) :
    (s.wake c).rdB Reg.memRetState i = (s.rdB Reg.memRetState i && decide (i ≠ c)) := by
  unfold State.wake
  by_cases hr : s.rdB Reg.memRetState c = true
  · have hlines : ∀ x : State, ChangesOnly [.chReg Reg.tiaLine, .chans] x ((chansOf c).foldl State.lineAcquire x) := fun x =>
      (Evolves.foldl (fun _ n ht => State.lineAcquire_changes n ht ((Allows.mem (by decide) : Allows _ (.chReg Reg.tiaLine)).ofCh (by decide))
        (Allows.mem (by decide))) (Evolves.refl _ x)).1
    rw [if_pos hr, (hlines _).rdB_eq i (by decide), State.count, State.rdB_wr_ne _ (by decide), State.wrB, State.rdB_wrF s _ _ _ hc (Nat.le_refl c)]
    by_cases hi : i = c
    · subst hi
      simp [b2n]
    · rw [if_neg (by omega), decide_eq_true hi, Bool.and_true]
  · rw [if_neg hr]
    by_cases hi : i = c
    · subst hi
      simp [Bool.eq_false_of_not_eq_true hr]
    · rw [decide_eq_true hi, Bool.and_true]

/-- A register of the device is none of a cluster's. -/
theorem lanePartFoot_device {o : Nat} (ho : o < 0x800000) (c : Nat) : ∀ k ∈ lanePartFoot c, k.covers (.reg o) = false := by
  have hle := le_cluOff c
  have hne : ∀ r, o ≠ cluOff c r := fun r he => by have := hle r; omega
  have hne4 : ∀ r, o ≠ cluOff c r + 4 := fun r he => by have := hle r; omega
  have hlt : ∀ r, ¬ cluOff c r ≤ o := fun r he => by have := hle r; omega
  simp [lanePartFoot, Foot.covers, isChReg, inChRegs, Nat.not_le.2 ho, hne, hne4, Ne.symm (hne _), hlt]

/-- Where a lane stands after its load (R170, R175, R194). -/
theorem State.loadLane_course (s : State) (p : PlanRef) (c : Nat) :
    ((s.loadLane p c).lane c).course =
      (s.segs p c, { seg := s.laneDir p c 0xA 2, plays := 0, g := 0 }, none, 0, some (s.lane c).segView) := by
  obtain ⟨y, pins, v, hy, heq⟩ := s.loadLane_stages p c
  have hlane : y.lane c = s.lane c := (hy.lane_eq (by simp [lanePartFoot, Foot.covers])).trans ((s.wake_frame c).lane_eq (by simp [Foot.covers]))
  rw [heq, State.prefill_course, State.lane_wr, State.lane_modLane_same, hlane]
  rfl

theorem State.loadLane_retained (s : State) (p : PlanRef) {c i : Nat} (hc : c < 32) :
    (s.loadLane p c).rdB Reg.memRetState i = (s.rdB Reg.memRetState i && decide (i ≠ c)) := by
  obtain ⟨y, pins, v, hy, heq⟩ := s.loadLane_stages p c
  have hne : ∀ r, Reg.memRetState ≠ cluOff c r := fun r he => by
    have := le_cluOff c r
    simp only [Reg.memRetState] at he
    omega
  have hfill : ∀ z : State, (z.prefill c 2048).rdB Reg.memRetState i = z.rdB Reg.memRetState i := fun z =>
    (z.prefill_frame c 2048).rdB_eq i (by simp [Foot.covers, (hne _).symm])
  rw [heq, hfill, State.rdB_wr_ne _ (hne _)]
  exact (hy.rdB_eq i (lanePartFoot_device (by decide) c)).trans (s.wake_retained hc)

/-! ### The load of the plan's lanes -/

/-- The load of one lane leaves the others. -/
theorem State.loadLane_keeps (s : State) (p : PlanRef) {c k : Nat} (h : c ≠ k) : Keeps [.lane k] s (s.loadLane p c) :=
  Keeps.of_frame (s.loadLane_frame p c) (by simp [laneLoadFoot, lanePartFoot, Foot.covers, h])

/-- No load changes the DRAM, where plans and vectors lie. -/
theorem State.loadLane_sameDram (s : State) (p : PlanRef) (c : Nat) : SameDram s (s.loadLane p c) :=
  .of_frame (s.loadLane_frame p c) (by simp [laneLoadFoot, lanePartFoot, Foot.covers])

theorem State.loadLanes_sameDram (p : PlanRef) (l : List Nat) (s : State) : SameDram s (l.foldl (fun t c => t.loadLane p c) s) := by
  induction l generalizing s with
  | nil => exact fun _ => rfl
  | cons c l ih =>
    rw [List.foldl_cons]
    exact (s.loadLane_sameDram p c).trans (ih _)

/-- Where lane `k` stands once a list of lanes with it has been loaded. -/
theorem State.loadLanes_course (s : State) (p : PlanRef) {l : List Nat} (hl : l.Nodup) {k : Nat} (hk : k ∈ l) :
    ((l.foldl (fun t c => t.loadLane p c) s).lane k).course =
      (s.segs p k, { seg := s.laneDir p k 0xA 2, plays := 0, g := 0 }, none, 0, some (s.lane k).segView) := by
  obtain ⟨l1, l2, rfl⟩ := List.append_of_mem hk
  obtain ⟨hl1, hl2, hdisj⟩ := List.nodup_append.1 hl
  obtain ⟨hk2, hl2⟩ := List.nodup_cons.1 hl2
  have hk1 : k ∉ l1 := fun h => hdisj k h k List.mem_cons_self rfl
  have hstep : ∀ (t : State) (c : Nat), c ≠ k → Keeps [.lane k] t (t.loadLane p c) := fun t _ h => t.loadLane_keeps p h
  rw [List.foldl_append, List.foldl_cons]
  have hbefore := (foldl_at (op := fun t c => t.loadLane p c) hstep hl1 s).1 hk1 (.lane k) (by simp)
  have hdram := State.loadLanes_sameDram p l1 s
  generalize l1.foldl (fun t c => t.loadLane p c) s = x at *
  have hafter := (foldl_at (op := fun t c => t.loadLane p c) hstep hl2 (x.loadLane p k)).1 hk2 (.lane k) (by simp)
  rw [show State.lane _ k = _ from hafter, x.loadLane_course p k, hdram.segs, hdram.laneDir, show x.lane k = s.lane k from hbefore]

theorem State.loadLanes_retained (p : PlanRef) {l : List Nat} (hl : ∀ c ∈ l, c < 32) (s : State) (i : Nat) :
    (l.foldl (fun t c => t.loadLane p c) s).rdB Reg.memRetState i = (s.rdB Reg.memRetState i && decide (i ∉ l)) := by
  induction l generalizing s with
  | nil => simp
  | cons c l ih =>
    obtain ⟨hc, hl⟩ := List.forall_mem_cons.1 hl
    rw [List.foldl_cons, ih hl, s.loadLane_retained p hc, Bool.and_assoc, ← Bool.decide_and]
    simp only [List.mem_cons, not_or, ne_eq]

end Sys2Proof.Machine

/-! RUN (R156, R157, R170, R192, R194). -/

namespace Sys2Proof.Machine

theorem State.wrF_frame (s : State) (o m l x : Nat) : ChangesOnly [.one (.reg o)] s (s.wrF o m l x) :=
  (State.wrF_changes o m l x (Evolves.refl _ s) (Allows.mem List.mem_cons_self)).1

/-! ### The plan that a load names (R170, R194) -/

/-- What the loader's acceptance writes to PLN_RESULT: no failed check, and whether a waiver was needed. -/
def State.resultPassed (s : State) (p : PlanRef) : State :=
  (s.wrF Reg.plnResult 7 0 0).wrB Reg.plnResult 12 ((s.planLe p 0x10 4).testBit 1 && overBudget (s.demand p))

/-- PLN_STATE of a plan that loads: its number, its slot and LOADING. -/
def PlanRef.loadingWord (p : PlanRef) (number : Nat) : W32 := pack [(0, number), (10, p.slot.getD 0), (16, b2n p.slot.isSome), (17, 1)]

/-- The plan's part of the state while it loads. -/
def State.planLoading (s : State) (p : PlanRef) (cmd : Cmd) : Plan :=
  { s.plan with lanes := BitVec.ofNat 32 (s.planLe p 0xC 4), abort := (s.planLe p 0x10 4).testBit 0, aligned := (s.planLe p 0x10 4).testBit 2,
                loading := some cmd, entry := if s.masterWords p = 0 then none else some (s.masterEntry p), faulted := false, stopped := false,
                underrun := false, gapped := false, started := false, startDue := 0 }

/-- The plan is accepted, and nothing of it is loaded yet. -/
def State.planNamed (s : State) (p : PlanRef) (number : Nat) (cmd : Cmd) : State :=
  (((s.resultPassed p).wr Reg.plnState (p.loadingWord number)).putPlan (s.planLoading p cmd)).putMem { s.mem with dramQ := [] }

theorem State.load_eq (s : State) (p : PlanRef) (number : Nat) (cmd : Cmd) :
    s.load p number cmd =
      (((s.planLanes p).foldl (fun t c => t.loadLane p c) (s.planNamed p number cmd)).loadWords 32 (s.words p 32)).loadLatches 32 := rfl

theorem State.planNamed_rd (s : State) (p : PlanRef) (number : Nat) (cmd : Cmd) :
    (s.planNamed p number cmd).rd Reg.plnState = p.loadingWord number ∧ (s.planNamed p number cmd).rdF Reg.plnResult 7 0 = 0 := by
  refine ⟨State.rd_wr_same _ _ _, (State.rdF_wr_ne _ (by decide) _ _ _).trans ?_⟩
  rw [State.resultPassed, State.rdF_wrB_ne _ _ _ (by decide) (by decide), State.rdF_wrF_same _ _ _ (by decide) (by decide)]
  rfl

/-- The fields of PLN_STATE while a plan loads. -/
theorem PlanRef.loadingWord_fields (p : PlanRef) {number : Nat} (hn : number < 1024) (hp : p.slot.getD 0 < 64) :
    fieldOf (p.loadingWord number) 9 0 = number ∧ bitOf (p.loadingWord number) 16 = p.slot.isSome ∧ fieldOf (p.loadingWord number) 19 17 = 1 := by
  have hbits : ∀ i, packBit [(0, number), (10, p.slot.getD 0), (16, b2n p.slot.isSome), (17, 1)] i =
      (number.testBit i || (decide (10 ≤ i) && (p.slot.getD 0).testBit (i - 10)) || (decide (16 ≤ i) && (b2n p.slot.isSome).testBit (i - 16)) ||
        (decide (17 ≤ i) && (1 : Nat).testBit (i - 17))) := fun i => by simp [packBit, Bool.or_assoc]
  have hnum : ∀ {i}, 10 ≤ i → number.testBit i = false := testBit_of_width (w := 10) hn
  have hslot : ∀ {i}, 6 ≤ i → (p.slot.getD 0).testBit i = false := testBit_of_width (w := 6) hp
  have hflag : ∀ {i}, 1 ≤ i → (b2n p.slot.isSome).testBit i = false := testBit_of_width (w := 1) (by cases p.slot.isSome <;> decide)
  refine ⟨fieldOf_pack (by decide) hn fun i hi => ?_, ?_, fieldOf_pack (by decide) (by decide) fun i hi => ?_⟩
  · rw [hbits, decide_eq_false (by omega : ¬ 10 ≤ 0 + i), decide_eq_false (by omega : ¬ 16 ≤ 0 + i), decide_eq_false (by omega : ¬ 17 ≤ 0 + i)]
    simp
  · rw [PlanRef.loadingWord, bitOf_pack _ (by decide), hbits, hnum (by decide), hslot (by decide), Nat.sub_self, testBit_b2n]
    simp
  · rw [hbits, hnum (by omega), hslot (by omega), hflag (by omega), decide_eq_true (by omega : 17 ≤ 17 + i), Nat.add_sub_cancel_left]
    simp

/-- What the load of a plan's words, lanes and timing sets can change. -/
def loadFoot : List Foot :=
  [.lanes, .one .refills, .cluReg Reg.plnSluicePos, .cluReg Reg.plnCache, .chans, .chReg Reg.tgScrSrc, .chReg Reg.tgWin, .cluPair Reg.tgScrmaskLo,
    .cluPair Reg.tgSetmaskLo, .one .timing, .cluRegs Reg.tgPeriod (Reg.tgPeriod + 256), .chRegs Reg.tgMode0 (Reg.tgMode0 + 64), .seqs,
    .cluReg Reg.seqIvec, .cluReg Reg.seqSrcMask, .chReg Reg.tiaLine, .one (.reg Reg.memRetWakes), .one (.reg Reg.memRetState),
    .cluRegs Reg.seqRole0 (Reg.seqRole0 + 16), .cluRegs Reg.seqXscr0 (Reg.seqXscr0 + 16)]

theorem State.load_frame (s : State) (p : PlanRef) (number : Nat) (cmd : Cmd) :
    ChangesOnly loadFoot (s.planNamed p number cmd) (s.load p number cmd) := by
  have hm : ∀ {k}, k ∈ loadFoot → Allows loadFoot k := Allows.mem
  have hseq : Allows loadFoot (.one (.seq 32)) := (hm (by decide)).seqOf
  have hlanes : Evolves loadFoot (s.planNamed p number cmd) ((s.planLanes p).foldl (fun t c => t.loadLane p c) (s.planNamed p number cmd)) :=
    Evolves.foldl (fun t c ht => State.loadLane_changes p c ht (hm (by decide)).laneOf (hm (by decide)) ((hm (by decide)).ofClu (by decide))
      ((hm (by decide)).ofClu (by decide)) (hm (by decide)) (hm (by decide)) (hm (by decide)) ((hm (by decide)).pairClu (by decide))
      ((hm (by decide)).pairClu (by decide)) (hm (by decide)) ((hm (by decide)).regsClu (by decide)) (hm (by decide)) (hm (by decide)).seqOf
      ((hm (by decide)).ofClu (by decide)) ((hm (by decide)).ofClu (by decide)) (hm (by decide)) (hm (by decide)) (hm (by decide))
      ((hm (by decide)).regsClu (by decide)) ((hm (by decide)).regsClu (by decide))) (Evolves.refl _ _)
  rw [State.load_eq]
  exact (State.loadLatches_changes _ (State.loadWords_changes _ _ hlanes hseq) hseq).1

/-- The loaded words and latches of the master leave the lanes' part of the state. -/
theorem State.load_lanes (s : State) (p : PlanRef) (number : Nat) (cmd : Cmd) :
    ChangesOnly [.one (.seq 32)] ((s.planLanes p).foldl (fun t c => t.loadLane p c) (s.planNamed p number cmd)) (s.load p number cmd) := by
  have hseq : Allows [.one (.seq 32)] (.one (.seq 32)) := Allows.mem (by decide)
  rw [State.load_eq]
  exact (State.loadLatches_changes _ (State.loadWords_changes _ _ (Evolves.refl _ _) hseq) hseq).1

/-- Where a lane of the plan stands once the plan is loaded (R170, R194). -/
theorem State.load_course (s : State) (p : PlanRef) (number : Nat) (cmd : Cmd) {k : Nat} (hk : k ∈ s.planLanes p) :
    ((s.load p number cmd).lane k).course =
      (s.segs p k, { seg := s.laneDir p k 0xA 2, plays := 0, g := 0 }, none, 0, some (s.lane k).segView) := by
  rw [(s.load_lanes p number cmd).lane_eq (by simp [Foot.covers])]
  exact (s.planNamed p number cmd).loadLanes_course p (nodup_lanesOf _) hk

/-- The lanes of the plan are out of retention (R453). -/
theorem State.load_retained (s : State) (p : PlanRef) (number : Nat) (cmd : Cmd) {k : Nat} (hk : k ∈ s.planLanes p) :
    (s.load p number cmd).rdB Reg.memRetState k = false := by
  have hlt : ∀ c ∈ s.planLanes p, c < 32 := fun _ hc => (mem_lanesOf.1 hc).1
  rw [(s.load_lanes p number cmd).rdB_eq k (by decide), State.loadLanes_retained p hlt, decide_eq_false (not_not_intro hk),
    Bool.and_false]

/-! ### RUN -/

theorem State.settleAll_running {s : State} {c : Cmd} (h : s.hst.fg = some c) : s.settleAll = s := by
  unfold State.settleAll
  cases s.hst.fetched.length with
  | zero => rfl
  | succ n =>
    unfold State.settle
    rw [h]

/-- What RUN changes when it loads. -/
def runFoot : List Foot :=
  [.completion, .one (.reg Reg.plnResult), .one (.reg Reg.plnBw), .one (.reg Reg.plnState), .one .plan, .lanes, .seqs, .chans,
    .cluReg Reg.plnSluicePos, .cluReg Reg.plnCache, .chReg Reg.tgScrSrc, .chReg Reg.tgWin, .cluPair Reg.tgScrmaskLo, .cluPair Reg.tgSetmaskLo,
    .cluRegs Reg.tgPeriod (Reg.tgPeriod + 256), .chRegs Reg.tgMode0 (Reg.tgMode0 + 64), .cluReg Reg.seqIvec, .cluReg Reg.seqSrcMask,
    .cluRegs Reg.seqRole0 (Reg.seqRole0 + 16), .cluRegs Reg.seqXscr0 (Reg.seqXscr0 + 16), .chReg Reg.tiaLine, .one (.reg Reg.memRetWakes),
    .one (.reg Reg.memRetState), .one .refills, .one .timing]

theorem State.loaded_frame (s : State) (rest : List Cmd) (number units : Nat) (p : PlanRef) (cmd : Cmd) :
    let x := ((s.popped rest).wrF Reg.plnResult 25 16 number).wrF Reg.plnBw 15 0 units
    ChangesOnly runFoot s ((x.load p number cmd).putHst { (x.load p number cmd).hst with fg := some cmd }) := by
  have hm : ∀ {k}, k ∈ runFoot → Allows runFoot k := Allows.mem
  have hrings : Allows runFoot (.one .rings) := (hm (by decide)).ringsOfCompletion
  have hasked : Evolves runFoot s (((s.popped rest).wrF Reg.plnResult 25 16 number).wrF Reg.plnBw 15 0 units) :=
    State.wrF_changes _ _ _ _ (State.wrF_changes _ _ _ _ (State.putHst_rings (Evolves.refl _ s) hrings) (hm (by decide))) (hm (by decide))
  exact (State.putHst_rings (State.load_changes p number cmd hasked (hm (by decide)) (hm (by decide)) (hm (by decide)) (hm (by decide))
    (hm (by decide)) (hm (by decide)) (hm (by decide)) (hm (by decide)) (hm (by decide)) (hm (by decide)) (hm (by decide)) (hm (by decide))
    (hm (by decide)) (hm (by decide)) (hm (by decide)) (hm (by decide)) (hm (by decide)) (hm (by decide)) (hm (by decide)) (hm (by decide))
    (hm (by decide)) (hm (by decide)) (hm (by decide))) hrings).1

section
variable {s : State} {c : Cmd} {rest : List Cmd} (h : Front s 0x01 c rest) (hb : badFields c = false) {u : State}
  (hu : u = (s.popped rest).wrF Reg.plnResult 25 16 (c.arg0 % 1024))
include h hb hu

omit h hb in
theorem run_asked_frame : ChangesOnly [.one (.reg Reg.plnResult)] (s.popped rest) u := by
  rw [hu]
  exact State.wrF_frame _ _ _ _ _

theorem run_unknown_completes (hnone : u.planOf (c.arg0 % 1024) = none) :
    Completes .run s [.completion, .one (.reg Reg.plnResult)] (fun t =>
      Finishes s t c rest 1 0 0 ∧ t.rdF Reg.plnResult 7 0 = 1 ∧ t.rdF Reg.plnResult 25 16 = c.arg0 % 1024) := by
  have hframe := (run_asked_frame hu).trans (u.wrF_frame Reg.plnResult 7 0 1)
  refine front_answers (y := u.wrF Reg.plnResult 7 0 1) 1 0 0 h (congrArg Host.Outcome.next ((State.runCmd_taken _ h hb rfl).trans
    (congrArg State.settleAll ?_)))
    hframe (by decide) (by decide) (fun t ht => ?_)
  · dsimp only
    rw [← hu, hnone]
  · rw [ht.rdF_eq 7 0 (by decide), ht.rdF_eq 25 16 (by decide), State.rdF_wrF_same _ _ _ (by decide) (by decide),
      State.rdF_wrF_ne _ _ _ (by decide) (by decide) (by decide), hu, State.rdF_wrF_same _ _ _ (by decide) (by decide)]
    exact ⟨rfl, Nat.mod_mod_of_dvd _ (by decide)⟩

variable {p : PlanRef} (hp : u.planOf (c.arg0 % 1024) = some p)
include hp

theorem run_refused_completes (hbad : (u.loadCheck p).2 ≠ 0) :
    Completes .run s [.completion, .one (.reg Reg.plnResult), .one (.reg Reg.plnBw), .cluReg Reg.tgRefuse] (fun t =>
      Finishes s t c rest (u.loadCheck p).2 0 0 ∧ t.rdF Reg.plnResult 7 0 = (u.loadCheck p).2 % 256) := by
  have hframe : ChangesOnly [.one (.reg Reg.plnResult), .one (.reg Reg.plnBw), .cluReg Reg.tgRefuse] (s.popped rest)
      ((u.loadCheck p).1.wrF Reg.plnResult 7 0 (u.loadCheck p).2) :=
    ((run_asked_frame hu).subset (by simp)).trans (((u.loadCheck_frame p).subset (by simp)).trans
      ((State.wrF_frame _ _ _ _ _).subset (by simp)))
  refine front_answers _ 0 0 h (congrArg Host.Outcome.next ((State.runCmd_taken _ h hb rfl).trans (congrArg State.settleAll ?_)))
    hframe (by decide) (by decide) (fun t ht => ?_)
  · dsimp only
    rw [← hu, hp]
    exact if_pos hbad
  · rw [ht.rdF_eq 7 0 (by decide), State.rdF_wrF_same _ _ _ (by decide) (by decide)]
    rfl

theorem run_loads_completes (hgood : (u.loadCheck p).2 = 0) :
    Completes .run s runFoot (fun t =>
      t.hst.fg = some c ∧ t.hst.fetched = rest ∧ t.plan.loading = some c ∧ t.plnState = 1 ∧ t.plnNumber = c.arg0 % 1024 ∧
      t.rdB Reg.plnState 16 = p.slot.isSome ∧ t.rdF Reg.plnResult 7 0 = 0 ∧
      t.plan.lanes = BitVec.ofNat 32 (u.planLe p 0xC 4) ∧ t.plan.abort = (u.planLe p 0x10 4).testBit 0 ∧ t.plan.faulted = false ∧
      t.plan.stopped = false ∧
      ∀ k ∈ u.planLanes p, (t.lane k).table = u.segs p k ∧ (t.lane k).place = { seg := u.laneDir p k 0xA 2, plays := 0, g := 0 } ∧
        (t.lane k).jump = none ∧ (t.lane k).due = 0 ∧ (t.lane k).was = some (s.lane k).segView ∧ t.rdB Reg.memRetState k = false) := by
  obtain ⟨x, hx⟩ : ∃ x, x = (u.loadCheck p).1 := ⟨_, rfl⟩
  have hbw : x = u.wrF Reg.plnBw 15 0 (demandUnits (u.demand p)) := hx.trans (State.loadCheck_passed hgood)
  have hn : c.arg0 % 1024 < 1024 := Nat.mod_lt _ (by decide)
  have hload := x.load_frame p (c.arg0 % 1024) c
  have hplan : (x.load p (c.arg0 % 1024) c).plan = x.planLoading p c := hload .plan (by decide)
  obtain ⟨hstate, hresult⟩ := x.planNamed_rd p (c.arg0 % 1024) c
  obtain ⟨hnumber, hslot, hloading⟩ := p.loadingWord_fields hn (State.planOf_slot hp)
  have hrd : (x.load p (c.arg0 % 1024) c).rd Reg.plnState = p.loadingWord (c.arg0 % 1024) := (hload.rd_eq (by decide)).trans hstate
  obtain ⟨hfetched, -⟩ := hload .rings (by decide)
  refine ⟨(x.load p (c.arg0 % 1024) c).putHst { (x.load p (c.arg0 % 1024) c).hst with fg := some c }, congrArg Host.Outcome.next ?_,
    ⟨rfl, ?_, congrArg Plan.loading hplan, ?_, ?_, ?_, (hload.rdF_eq 7 0 (by decide)).trans hresult, ?_, ?_, congrArg Plan.faulted hplan,
      congrArg Plan.stopped hplan, fun k hk => ?_⟩, ?_⟩
  · refine (State.runCmd_taken _ h hb rfl).trans (Eq.trans (congrArg State.settleAll ?_) (State.settleAll_running rfl))
    dsimp only
    rw [← hu, hp, hx]
    exact if_neg (not_not_intro hgood)
  · rw [hbw, hu] at hfetched
    rw [hbw, hu]
    exact hfetched
  · exact (congrArg (fieldOf · 19 17) hrd).trans hloading
  · exact (congrArg (fieldOf · 9 0) hrd).trans hnumber
  · exact (congrArg (bitOf · 16) hrd).trans hslot
  · exact (congrArg Plan.lanes hplan).trans (by rw [hbw]; rfl)
  · exact (congrArg Plan.abort hplan).trans (by rw [hbw]; rfl)
  · have hkx : k ∈ x.planLanes p := by rw [hbw]; exact hk
    have hcourse := x.load_course p (c.arg0 % 1024) c hkx
    simp only [Lane.course, Prod.mk.injEq] at hcourse
    obtain ⟨htable, hplace, hjump, hdue, hwas⟩ := hcourse
    exact ⟨htable.trans (by rw [hbw]; rfl), hplace.trans (by rw [hbw]; rfl), hjump, hdue, hwas.trans (by rw [hbw, hu]; rfl),
      x.load_retained p (c.arg0 % 1024) c hkx⟩
  · rw [hbw, hu]
    exact s.loaded_frame rest _ _ p c

end

/-- Settles O32: each clause is the law of its command above. -/
theorem plansAreStagedAndLoad : Obligations.PlansAreStagedAndLoad := by
  refine ⟨fun s c rest h hb u hu => ⟨run_unknown_completes h hb hu, fun p hp => ⟨run_refused_completes h hb hu hp, run_loads_completes h hb hu hp⟩⟩,
    fun s c rest data h hb => stage_cutOff_completes h hb data, fun s c rest data h hb hc => ⟨stage_tooLong_completes h hb hc data,
      fun hlen => stage_running_completes h hb hc hlen data, fun hlen hfree => ⟨stage_empty_completes h hb hc hlen hfree data,
        stage_readError_completes h hb hc hlen hfree, fun d hd hsome u p hu hp => ?_⟩⟩⟩
  subst hp
  exact ⟨stage_badFormat_completes h hb hc hlen hfree hsome hd hu, stage_numberRuns_completes h hb hc hlen hfree hsome hd hu,
    stage_stored_completes h hb hc hlen hfree hsome hd hu⟩

end Sys2Proof.Machine

/-! STREAM and the posts of its blocks (R184, R432, R433). -/

namespace Sys2Proof.Machine

/-! ### Blocks that are posted (R184) -/

theorem State.postBlocks_frame (s : State) (c n : Nat) :
    ChangesOnly [.one (.lane c), .one (.reg (cluOff c Reg.plnSluicePos)), .one (.reg (cluOff c Reg.plnSluice))] s (s.postBlocks c n) :=
  (State.postBlocks_changes c n (Evolves.refl _ s) (Allows.mem (by simp)) (Allows.mem (by simp)) (Allows.mem (by simp))).1

theorem State.rdF_modLane (s : State) (c : Nat) (f : Lane → Lane) (o m l : Nat) : (s.modLane c f).rdF o m l = s.rdF o m l := rfl

theorem State.postBlocks_credits (s : State) (c n : Nat) :
    (s.postBlocks c n).rdF (cluOff c Reg.plnSluice) 24 16 = s.rdF (cluOff c Reg.plnSluice) 24 16 - n := by
  have hlt : s.rdF (cluOff c Reg.plnSluice) 24 16 < 2 ^ 9 := State.rdF_lt _ _ _ _
  have hne : cluOff c Reg.plnSluice ≠ cluOff c Reg.plnSluicePos := mt (cluOff_inj c).1 (by decide)
  unfold State.postBlocks
  dsimp only
  rw [State.rdF_modLane, State.rdF_wrF_off _ hne, State.rdF_wrF_same _ _ _ (by decide) (by decide)]
  exact Nat.mod_eq_of_lt (by omega)

theorem State.postBlocks_pos (s : State) (c n : Nat) (hlow : 2 ≤ s.rdF (cluOff c Reg.plnSluiceSize) 8 0)
    (hhigh : s.rdF (cluOff c Reg.plnSluiceSize) 8 0 ≤ 256) :
    (s.postBlocks c n).rdF (cluOff c Reg.plnSluicePos) 7 0 =
      (s.rdF (cluOff c Reg.plnSluicePos) 7 0 + n) % s.rdF (cluOff c Reg.plnSluiceSize) 8 0 := by
  have hne : cluOff c Reg.plnSluicePos ≠ cluOff c Reg.plnSluice := mt (cluOff_inj c).1 (by decide)
  have hmod := Nat.mod_lt (s.rdF (cluOff c Reg.plnSluicePos) 7 0 + n) (y := s.rdF (cluOff c Reg.plnSluiceSize) 8 0) (by omega)
  unfold State.postBlocks
  dsimp only
  rw [State.rdF_modLane, State.rdF_wrF_same _ _ _ (by decide) (by decide), State.rdF_wrF_off _ hne]
  exact Nat.mod_eq_of_lt (lt_of_lt_of_le hmod hhigh)

theorem State.postBlocks_slBlocks (s : State) (c n : Nat) : ((s.postBlocks c n).lane c).slBlocks = (s.lane c).slBlocks + n := by
  unfold State.postBlocks
  dsimp only
  rw [State.lane_modLane_same]
  dsimp only
  rw [State.lane_wrF, State.lane_wrF]

theorem State.postBlocks_hst (s : State) (c n : Nat) : (s.postBlocks c n).hst = s.hst := by
  unfold State.postBlocks
  dsimp only
  rw [State.modLane_hst, State.wrF_hst, State.wrF_hst]

/-! ### The STREAM of a lane (R433, R434) -/

/-- The background command is the STREAM of lane `l`. -/
def BgCmd.streams (l : Nat) (b : BgCmd) : Bool := b.cmd.opcode == 0x05 && b.cmd.arg0 % 32 == l

theorem BgCmd.streams_iff {l : Nat} {b : BgCmd} : b.streams l = true ↔ b.cmd.opcode = 0x05 ∧ b.cmd.arg0 % 32 = l := by
  simp [BgCmd.streams]

theorem State.streaming_iff {s : State} {l : Nat} : s.streaming l = true ↔ ∃ b ∈ s.hst.bg, b.streams l = true := List.any_eq_true

/-- The background commands without the STREAM of lane `l`. -/
def State.streamDropped (s : State) (l : Nat) : State := s.putHst { s.hst with bg := s.hst.bg.filter (fun b => !b.streams l) }

theorem State.streamEnd_eq (s : State) (l st : Nat) :
    s.streamEnd l st = (s.hst.bg.filter (BgCmd.streams l)).foldl (fun t b => t.complete b.cmd st 0 b.posted) (s.streamDropped l) := rfl

theorem State.completes_bg (st : Nat) (l : List BgCmd) (s : State) :
    (l.foldl (fun t b => t.complete b.cmd st 0 b.posted) s).hst.bg = s.hst.bg := by
  induction l generalizing s with
  | nil => rfl
  | cons b l ih =>
    obtain ⟨-, hbg, -⟩ := s.complete_commands b.cmd st 0 b.posted
    exact (ih _).trans hbg

theorem State.streamEnd_stops (s : State) (l st : Nat) : (s.streamEnd l st).streaming l = false := by
  rw [State.streamEnd_eq, ← Bool.not_eq_true, State.streaming_iff, State.completes_bg]
  rintro ⟨b, hmem, hstreams⟩
  obtain ⟨-, hother⟩ := List.mem_filter.1 hmem
  simp [hstreams] at hother

/-- The STREAM ends with its completion, which counts the blocks posted. -/
theorem State.streamEnd_ended {s : State} {l : Nat} (st : Nat) {b : BgCmd} (h : s.hst.bg.filter (BgCmd.streams l) = [b]) :
    Ended s (s.streamEnd l st) b.cmd st 0 b.posted := by
  rw [State.streamEnd_eq, h]
  exact ((s.streamDropped l).complete_ended b.cmd st 0 b.posted).of_alike ⟨rfl, rfl, fun _ _ => rfl⟩

theorem State.streamEnd_streamEnded (s : State) (l st : Nat) : StreamEnded s (s.streamEnd l st) l st 0 :=
  ⟨s.streamEnd_stops l st, fun _ h => State.streamEnd_ended st h⟩

theorem State.streamEnd_frame (s : State) (l st : Nat) : ChangesOnly [.completion] s (s.streamEnd l st) :=
  (State.streamEnd_changes l st (Evolves.refl _ s) (Allows.mem List.mem_cons_self)).1

/-! ### A block of a STREAM (R433) -/

/-- The STREAM of lane `l` has one more block posted. -/
def BgCmd.posting (l : Nat) (b : BgCmd) : BgCmd := if b.streams l then { b with posted := b.posted + 1 } else b

theorem BgCmd.posting_streams (l : Nat) (b : BgCmd) : (b.posting l).streams l = b.streams l := by
  unfold BgCmd.posting
  split <;> rfl

theorem BgCmd.posting_of_streams {l : Nat} {b : BgCmd} (h : b.streams l = true) : b.posting l = { b with posted := b.posted + 1 } := if_pos h

/-- Where the next block of lane `l` goes. -/
def State.blockAddr (s : State) (l : Nat) : Nat :=
  s.rdF Reg.memVecBase 14 0 * mib + 256 * (s.rdF (cluOff l Reg.plnSluiceBase) 25 0 + 256 * s.rdF (cluOff l Reg.plnSluicePos) 7 0)

/-- The block `d` is in its slot and posted. -/
def State.blockStored (s : State) (l : Nat) (d : List Byte) : State := (s.dramWr (s.blockAddr l) d).postBlocks l 1

/-- The STREAM counts a block posted. -/
def State.blockCounted (s : State) (l : Nat) : State := s.putHst { s.hst with bg := s.hst.bg.map (BgCmd.posting l) }

/-- The block `d` is in its slot and posted, and the STREAM has counted it. -/
def State.blockPosted (s : State) (l : Nat) (d : List Byte) : State := (s.blockStored l d).blockCounted l

theorem State.blockCounted_dramRd (s : State) (l a n : Nat) : (s.blockCounted l).dramRd a n = s.dramRd a n := rfl
theorem State.blockCounted_rd (s : State) (l o : Nat) : (s.blockCounted l).rd o = s.rd o := rfl
theorem State.blockCounted_rdF (s : State) (l o m k : Nat) : (s.blockCounted l).rdF o m k = s.rdF o m k := rfl
theorem State.blockCounted_lane (s : State) (l c : Nat) : (s.blockCounted l).lane c = s.lane c := rfl
theorem State.dramWr_rd (s : State) (a : Nat) (bs : List Byte) (o : Nat) : (s.dramWr a bs).rd o = s.rd o := rfl
theorem State.dramWr_rdF (s : State) (a : Nat) (bs : List Byte) (o m k : Nat) : (s.dramWr a bs).rdF o m k = s.rdF o m k := rfl
theorem State.dramWr_lane (s : State) (a : Nat) (bs : List Byte) (c : Nat) : (s.dramWr a bs).lane c = s.lane c := rfl

theorem State.blockStored_hst (s : State) (l : Nat) (d : List Byte) : (s.blockStored l d).hst = s.hst := by
  rw [State.blockStored, State.postBlocks_hst, State.dramWr_hst]

/-- The STREAM of lane `l` has posted all its blocks. -/
def State.streamDone (s : State) (l : Nat) : Bool := s.hst.bg.any (fun b => b.streams l && decide (b.cmd.len / 4096 ≤ b.posted))

theorem State.streamPost_eq {s : State} {l : Nat} {d : List Byte} (hrun : s.streaming l = true)
    (hcredit : s.rdF (cluOff l Reg.plnSluice) 24 16 ≠ 0) (hd : d.length = 65536) :
    s.streamPost l (some d) = if (s.blockPosted l d).streamDone l then (s.blockPosted l d).streamEnd l St.ok else s.blockPosted l d := by
  have htake : d.take 65536 = d := List.take_of_length_le (Nat.le_of_eq hd)
  unfold State.streamPost
  rw [if_pos ⟨hrun, hcredit⟩]
  dsimp only
  rw [htake]
  rfl

theorem State.blockPosted_bg (s : State) (l : Nat) (d : List Byte) : (s.blockPosted l d).hst.bg = s.hst.bg.map (BgCmd.posting l) :=
  congrArg (fun x => x.bg.map (BgCmd.posting l)) (s.blockStored_hst l d)

theorem State.blockPosted_streams (s : State) (l : Nat) (d : List Byte) :
    (s.blockPosted l d).hst.bg.filter (BgCmd.streams l) = (s.hst.bg.filter (BgCmd.streams l)).map (BgCmd.posting l) := by
  rw [State.blockPosted_bg, List.filter_map]
  exact congrArg (fun p => (s.hst.bg.filter p).map (BgCmd.posting l)) (funext fun b => BgCmd.posting_streams l b)

theorem State.blockPosted_streaming (s : State) (l : Nat) (d : List Byte) : (s.blockPosted l d).streaming l = s.streaming l := by
  rw [Bool.eq_iff_iff, State.streaming_iff, State.streaming_iff, State.blockPosted_bg]
  simp [BgCmd.posting_streams]

theorem State.blockPosted_streamDone {s : State} {l : Nat} {d : List Byte} :
    (s.blockPosted l d).streamDone l = true ↔ ∃ b ∈ s.hst.bg, b.streams l = true ∧ b.cmd.len / 4096 ≤ b.posted + 1 := by
  have hdone : ∀ b : BgCmd, ((b.posting l).streams l && decide ((b.posting l).cmd.len / 4096 ≤ (b.posting l).posted)) = true ↔
      b.streams l = true ∧ b.cmd.len / 4096 ≤ b.posted + 1 := fun b => by
    rw [BgCmd.posting_streams, Bool.and_eq_true, decide_eq_true_iff]
    exact and_congr_right fun hb => by rw [BgCmd.posting_of_streams hb]
  rw [State.streamDone, State.blockPosted_bg, List.any_map, List.any_eq_true]
  simp only [Function.comp_apply, hdone]

/-- What a posted block changes, before a STREAM ends. -/
theorem State.blockPosted_frame (s : State) (l : Nat) {d : List Byte} (hd : d.length = 65536) :
    ChangesOnly [.one .rings, .one (.lane l), .one (.reg (cluOff l Reg.plnSluicePos)), .one (.reg (cluOff l Reg.plnSluice)),
      .dram (s.blockAddr l) 65536] s (s.blockPosted l d) := by
  have hwrite := State.dramWr_changes (K := [.one .rings, .one (.lane l), .one (.reg (cluOff l Reg.plnSluicePos)),
    .one (.reg (cluOff l Reg.plnSluice)), .dram (s.blockAddr l) 65536]) (s.blockAddr l) d (Evolves.refl _ s)
    (by rw [hd]; exact Allows.mem (by simp))
  exact (State.putHst_rings (State.postBlocks_changes l 1 hwrite (Allows.mem (by simp)) (Allows.mem (by simp)) (Allows.mem (by simp)))
    (Allows.mem (by simp))).1

theorem State.blockPosted_dramRd (s : State) (l : Nat) {d : List Byte} (hd : d.length = 65536) :
    (s.blockPosted l d).dramRd (s.blockAddr l) 65536 = d := by
  rw [State.blockPosted, State.blockCounted_dramRd, State.blockStored, (State.postBlocks_frame _ l 1).dramRd_eq (by simp [Foot.covers]), ← hd]
  exact State.dramRd_dramWr _ _ _

theorem State.blockPosted_credits (s : State) (l : Nat) (d : List Byte) :
    (s.blockPosted l d).rdF (cluOff l Reg.plnSluice) 24 16 = s.rdF (cluOff l Reg.plnSluice) 24 16 - 1 := by
  rw [State.blockPosted, State.blockCounted_rdF, State.blockStored, State.postBlocks_credits, State.dramWr_rdF]

theorem State.blockPosted_slBlocks (s : State) (l : Nat) (d : List Byte) : ((s.blockPosted l d).lane l).slBlocks = (s.lane l).slBlocks + 1 := by
  rw [State.blockPosted, State.blockCounted_lane, State.blockStored, State.postBlocks_slBlocks, State.dramWr_lane]

/-- The registers of the rings lie below those of the clusters. -/
theorem ringRegs_below : ∀ o ∈ [Reg.hstCplTail, Reg.hstCplDrop, Reg.hstCplBaseLo, Reg.hstCplBaseLo + 4, Reg.hstCfg], o < 0x800000 := by decide

theorem State.blockPosted_alike (s : State) (l : Nat) (d : List Byte) : RingsAlike s (s.blockPosted l d) := by
  have hhst : (s.blockPosted l d).hst = { s.hst with bg := s.hst.bg.map (BgCmd.posting l) } :=
    congrArg (fun x : Hst => { x with bg := x.bg.map (BgCmd.posting l) }) (s.blockStored_hst l d)
  refine ⟨by rw [hhst], by rw [hhst], fun o ho => ?_⟩
  have hne : ∀ r, o ≠ cluOff l r := fun r => ne_of_lt (lt_of_lt_of_le (ringRegs_below o ho) (le_cluOff l r))
  rw [State.blockPosted, State.blockCounted_rd, State.blockStored,
    (State.postBlocks_frame _ l 1).rd_eq (by simp [Foot.covers, Ne.symm (hne _)]), State.dramWr_rd]

theorem State.blockPosted_ended {s : State} {l : Nat} (d : List Byte) :
    StreamEnded s ((s.blockPosted l d).streamEnd l St.ok) l St.ok 1 := by
  refine ⟨State.streamEnd_stops _ _ _, fun b hb => ?_⟩
  have hstreams : b.streams l = true := (List.mem_filter.1 (hb ▸ List.mem_cons_self : b ∈ s.hst.bg.filter (BgCmd.streams l))).2
  have honly : (s.blockPosted l d).hst.bg.filter (BgCmd.streams l) = [{ b with posted := b.posted + 1 }] := by
    rw [State.blockPosted_streams, show s.hst.bg.filter (BgCmd.streams l) = [b] from hb, List.map_singleton, BgCmd.posting_of_streams hstreams]
  exact (State.streamEnd_ended St.ok honly).of_alike (s.blockPosted_alike l d)

/-! ### STREAM (R432, R433) -/

section
variable {s : State} {c : Cmd} {rest : List Cmd} {l : Nat} (h : Front s 0x05 c rest) (hb : badFields c = false)
include h hb

theorem stream_cutOff_completes (hc : c.cutOff = true) : Completes .stream s [.completion] (fun t => Finishes s t c rest St.dmaError 0 0) :=
  front_refused _ h (congrArg Host.Outcome.next (State.runCmd_cutOff _ h hb hc))

variable (hc : c.cutOff = false) (hl : c.arg0 % 32 = l)
include hc hl

theorem stream_noRing_completes (hring : s.rdF (cluOff l Reg.plnSluiceSize) 8 0 = 0) :
    Completes .stream s [.completion] (fun t => Finishes s t c rest St.noRing 0 0) := by
  subst hl
  exact front_refused _ h (congrArg Host.Outcome.next ((State.runCmd_reached _ h hb hc).trans (congrArg State.settleAll (if_pos hring))))

variable (hring : s.rdF (cluOff l Reg.plnSluiceSize) 8 0 ≠ 0)
include hring

theorem stream_misaligned_completes (hlen : c.len % 4096 ≠ 0) :
    Completes .stream s [.completion] (fun t => Finishes s t c rest St.lengthAlign 0 0) := by
  subst hl
  exact front_refused _ h (congrArg Host.Outcome.next ((State.runCmd_reached _ h hb hc).trans (congrArg State.settleAll
    ((if_neg hring).trans (if_pos hlen)))))

variable (hlen : c.len % 4096 = 0)
include hlen

theorem stream_busy_completes (hrun : s.streaming l = true) :
    Completes .stream s [.completion] (fun t => Finishes s t c rest St.busy 0 0) := by
  subst hl
  exact front_refused _ h (congrArg Host.Outcome.next ((State.runCmd_reached _ h hb hc).trans (congrArg State.settleAll
    ((if_neg hring).trans ((if_neg (not_not_intro hlen)).trans (if_pos hrun))))))

variable (hidle : s.streaming l = false)
include hidle

theorem stream_empty_completes (hzero : c.len = 0) :
    Completes .stream s [.completion] (fun t => Finishes s t c rest St.ok 0 0) := by
  subst hl
  exact front_refused _ h (congrArg Host.Outcome.next ((State.runCmd_reached _ h hb hc).trans (congrArg State.settleAll
    ((if_neg hring).trans ((if_neg (not_not_intro hlen)).trans ((if_neg (ne_true_of_eq_false hidle)).trans (if_pos hzero)))))))

theorem stream_accepted_completes (hsome : c.len ≠ 0) :
    Completes .stream s [.completion] (fun t => Accepted s t c rest) := by
  subst hl
  have hfg : s.hst.fg = none := h.1
  refine ⟨((s.popped rest).bgStart c).settleAll, congrArg Host.Outcome.next ((State.runCmd_reached _ h hb hc).trans (congrArg State.settleAll
    ((if_neg hring).trans ((if_neg (not_not_intro hlen)).trans ((if_neg (ne_true_of_eq_false hidle)).trans (if_neg hsome)))))),
    ⟨_, rfl, rfl, rfl, hfg, rfl, rfl⟩, ?_⟩
  have hrings : Allows [.completion] (.one .rings) := (Allows.mem List.mem_cons_self).ringsOfCompletion
  exact (State.bgStart_changes c (State.putHst_rings (Evolves.refl _ s) hrings) hrings).1.trans (State.settleAll_frame _)

end

/-! ### The blocks and the end of a STREAM (R184, R433) -/

section
variable {s : State} {l : CluId} (hrun : s.streaming l = true)
include hrun

section
variable (hcredit : s.rdF (cluOff l Reg.plnSluice) 24 16 ≠ 0)
include hcredit

theorem streamBlockPost_completes (d : List Byte) (hd : d.length = 65536) :
    Completes (.streamBlockPost l (some d)) s [.completion, .one (.lane l), .one (.reg (cluOff l Reg.plnSluicePos)),
      .one (.reg (cluOff l Reg.plnSluice)), .dram (s.blockAddr l) 65536] (fun t =>
        t.dramRd (s.blockAddr l) 65536 = d ∧ t.rdF (cluOff l Reg.plnSluice) 24 16 = s.rdF (cluOff l Reg.plnSluice) 24 16 - 1 ∧
        (t.lane l).slBlocks = (s.lane l).slBlocks + 1 ∧
        ((∃ b ∈ s.hst.bg, b.cmd.opcode = 0x05 ∧ b.cmd.arg0 % 32 = l.val ∧ b.cmd.len / 4096 ≤ b.posted + 1) → StreamEnded s t l St.ok 1) ∧
        ((∀ b ∈ s.hst.bg, b.cmd.opcode = 0x05 → b.cmd.arg0 % 32 = l.val → b.posted + 1 < b.cmd.len / 4096) → t.streaming l = true)) := by
  have hexec : exec (.streamBlockPost l (some d)) s = .next _ := congrArg Host.Outcome.next (State.streamPost_eq hrun hcredit hd)
  have hpost := (s.blockPosted_frame l hd).mono (L := [.completion, .one (.lane l), .one (.reg (cluOff l Reg.plnSluicePos)),
      .one (.reg (cluOff l Reg.plnSluice)), .dram (s.blockAddr l) 65536]) (List.forall_mem_cons.2
    ⟨(Allows.mem List.mem_cons_self).ringsOfCompletion, fun k hk => Allows.mem (List.mem_cons_of_mem _ hk)⟩)
  have hcredits := s.blockPosted_credits l d
  have hblocks := s.blockPosted_slBlocks l d
  by_cases hdone : (s.blockPosted l d).streamDone l = true
  · rw [if_pos hdone] at hexec
    have hend := (s.blockPosted l d).streamEnd_frame l St.ok
    refine ⟨_, hexec, ⟨(hend.dramRd_eq (by simp [Foot.covers]) _ _).trans (s.blockPosted_dramRd l hd),
      (hend.rdF_eq 24 16 (by simpa using completion_covers_cluster (le_cluOff _ _))).trans hcredits,
      (congrArg Lane.slBlocks (hend.lane_eq (by simp [Foot.covers]))).trans hblocks, fun _ => State.blockPosted_ended d, fun hmore => ?_⟩,
      hpost.trans (hend.subset (by simp))⟩
    obtain ⟨b, hmem, hstreams, hlast⟩ := State.blockPosted_streamDone.1 hdone
    obtain ⟨hop, harg⟩ := BgCmd.streams_iff.1 hstreams
    exact absurd (hmore b hmem hop harg) (Nat.not_lt.2 hlast)
  · rw [if_neg hdone] at hexec
    refine ⟨_, hexec, ⟨s.blockPosted_dramRd l hd, hcredits, hblocks, fun ⟨b, hmem, hop, harg, hlast⟩ => ?_,
      fun _ => (s.blockPosted_streaming l d).trans hrun⟩, hpost⟩
    exact absurd (State.blockPosted_streamDone.2 ⟨b, hmem, BgCmd.streams_iff.2 ⟨hop, harg⟩, hlast⟩) hdone

theorem streamBlockPost_failed_completes :
    Completes (.streamBlockPost l none) s [.completion] (fun t => StreamEnded s t l St.dmaError 0) :=
  ⟨_, congrArg Host.Outcome.next (if_pos ⟨hrun, hcredit⟩), s.streamEnd_streamEnded l _, s.streamEnd_frame l _⟩

end

theorem creditTimeout_completes (hcredit : s.rdF (cluOff l Reg.plnSluice) 24 16 = 0) :
    Completes (.creditTimeout l) s [.completion] (fun t => StreamEnded s t l St.creditTimeout 0) :=
  ⟨_, congrArg Host.Outcome.next (if_pos ⟨hrun, hcredit⟩), s.streamEnd_streamEnded l _, s.streamEnd_frame l _⟩

end

end Sys2Proof.Machine

/-! Sluice rings and the refill of a lane (R40, R180, R183 to R185). -/

namespace Sys2Proof.Machine

/-! ### Posts and credits (R184, R185) -/

section
variable {s : State} {c : CluId} {v : W32} (hon : s.boot.stage ≠ .off) (hreach : s.reaches (cluOff c Reg.plnSluice) = true)
include hon hreach

theorem sluicePost_completes (hsome : fieldOf v 8 0 ≠ 0) (hidle : s.streaming c = false)
    (hroom : fieldOf v 8 0 ≤ s.rdF (cluOff c Reg.plnSluice) 24 16) :
    Completes (.sluicePost c v) s [.one (.lane c), .one (.reg (cluOff c Reg.plnSluicePos)), .one (.reg (cluOff c Reg.plnSluice))] (fun t =>
      t.rdF (cluOff c Reg.plnSluice) 24 16 = s.rdF (cluOff c Reg.plnSluice) 24 16 - fieldOf v 8 0 ∧
      (t.lane c).slBlocks = (s.lane c).slBlocks + fieldOf v 8 0 ∧
      (2 ≤ s.rdF (cluOff c Reg.plnSluiceSize) 8 0 → s.rdF (cluOff c Reg.plnSluiceSize) 8 0 ≤ 256 →
        t.rdF (cluOff c Reg.plnSluicePos) 7 0 =
          (s.rdF (cluOff c Reg.plnSluicePos) 7 0 + fieldOf v 8 0) % s.rdF (cluOff c Reg.plnSluiceSize) 8 0)) := by
  have hfree : ¬ (s.streaming c = true ∨ s.rdF (cluOff c Reg.plnSluice) 24 16 < fieldOf v 8 0) := by
    rw [hidle]
    simpa using hroom
  exact ⟨_, congrArg Host.Outcome.next ((State.onWrite_reached _ hon hreach).trans ((if_neg hsome).trans (if_neg hfree))),
    ⟨s.postBlocks_credits c _, s.postBlocks_slBlocks c _, s.postBlocks_pos c _⟩, s.postBlocks_frame c _⟩

theorem sluicePost_flagged_completes (hsome : fieldOf v 8 0 ≠ 0)
    (hfull : s.streaming c = true ∨ s.rdF (cluOff c Reg.plnSluice) 24 16 < fieldOf v 8 0) :
    Completes (.sluicePost c v) s [.pair (cluOff c Reg.plnFlags)] (fun t =>
      s.retained (cluOff c Reg.plnFlags) = false → t.rdB (cluOff c Reg.plnFlags) 1 = true) :=
  ⟨_, congrArg Host.Outcome.next ((State.onWrite_reached _ hon hreach).trans ((if_neg hsome).trans (if_pos hfull))),
    fun hr => s.raise_rdB _ hr (by decide), (State.raise_changes _ 1 (Evolves.refl _ s) (Allows.mem List.mem_cons_self)).1⟩

theorem sluicePost_nothing_completes (hzero : fieldOf v 8 0 = 0) : Completes (.sluicePost c v) s [] (fun _ => True) :=
  ⟨s, congrArg Host.Outcome.next ((State.onWrite_reached _ hon hreach).trans (if_pos hzero)), trivial, ChangesOnly.refl _ s⟩

end

theorem creditReturn_completes {s : State} {c : CluId} (hdue : (s.lane c).creditDue ≠ 0) :
    Completes (.sluiceCreditReturn c) s [.one (.lane c), .one (.reg (cluOff c Reg.plnSluice))] (fun t =>
      (t.lane c).creditDue = (s.lane c).creditDue - 1 ∧
      t.rdF (cluOff c Reg.plnSluice) 24 16 = (s.rdF (cluOff c Reg.plnSluice) 24 16 + 1) % 512) := by
  refine ⟨_, congrArg Host.Outcome.next (if_neg hdue), ⟨?_, State.rdF_wrF_same _ _ _ (by decide) (by decide)⟩,
    (State.wrF_changes _ _ _ _ (State.setLane_changes _ _ (Evolves.refl _ s) (Allows.mem (by simp))) (Allows.mem (by simp))).1⟩
  rw [State.lane_wrF, State.lane_setLane_same]

/-! ### The base and the size of a ring (R183) -/

/-- The register of a sluice ring that a write of its configuration sets. -/
def sluiceReg (size : Bool) : Nat := if size then Reg.plnSluiceSize else Reg.plnSluiceBase

/-- The bits of that register that a write sets. -/
def sluiceMask (size : Bool) : W32 := if size then 0x1FF else 0x3FFFFFF

/-- A ring with a new base or size has all its credits, and nothing is posted. -/
def State.sluiceReset (s : State) (c : Nat) (size : Bool) (v : W32) : State :=
  let s1 := s.wr (cluOff c (sluiceReg size)) (v &&& sluiceMask size)
  ((s1.wrF (cluOff c Reg.plnSluice) 24 16 (s1.rdF (cluOff c Reg.plnSluiceSize) 8 0)).wr (cluOff c Reg.plnSluicePos) 0).modLane c
    (fun l => { l with slBlocks := 0, slIn := 0, creditDue := 0 })

theorem State.sluiceConfig_eq {s : State} {c : Nat} (size : Bool) (v : W32) (h : ¬ (s.planBusy = true ∧ s.plan.lanes.getLsbD c = true)) :
    s.sluiceConfig c size v = s.sluiceReset c size v := by
  unfold State.sluiceConfig
  rw [if_neg h]
  cases size <;> rfl

theorem State.sluiceReset_frame (s : State) (c : Nat) (size : Bool) (v : W32) :
    ChangesOnly [.one (.lane c), .one (.reg (cluOff c Reg.plnSluice)), .one (.reg (cluOff c Reg.plnSluicePos)),
      .one (.reg (cluOff c (sluiceReg size)))] s (s.sluiceReset c size v) :=
  (State.modLane_changes _ _ (State.wr_changes _ _ (State.wrF_changes _ _ _ _ (State.wr_changes _ _ (Evolves.refl _ s) (Allows.mem (by simp)))
    (Allows.mem (by simp))) (Allows.mem (by simp))) (Allows.mem (by simp))).1

theorem sluiceReg_ne (c : Nat) (size : Bool) :
    cluOff c (sluiceReg size) ≠ cluOff c Reg.plnSluice ∧ cluOff c (sluiceReg size) ≠ cluOff c Reg.plnSluicePos := by
  refine ⟨mt (cluOff_inj c).1 ?_, mt (cluOff_inj c).1 ?_⟩
  · cases size <;> decide
  · cases size <;> decide

theorem State.sluiceReset_config (s : State) (c : Nat) (size : Bool) (v : W32) :
    (s.sluiceReset c size v).rd (cluOff c (sluiceReg size)) = v &&& sluiceMask size := by
  obtain ⟨hsluice, hpos⟩ := sluiceReg_ne c size
  unfold State.sluiceReset
  dsimp only
  rw [State.rd_modLane, State.rd_wr_ne _ hpos, State.rd_wrF_ne _ hsluice, State.rd_wr_same]

theorem State.sluiceReset_credits (s : State) (c : Nat) (size : Bool) (v : W32) :
    (s.sluiceReset c size v).rdF (cluOff c Reg.plnSluice) 24 16 = (s.sluiceReset c size v).rdF (cluOff c Reg.plnSluiceSize) 8 0 := by
  have hpos : cluOff c Reg.plnSluice ≠ cluOff c Reg.plnSluicePos := mt (cluOff_inj c).1 (by decide)
  have hsize : cluOff c Reg.plnSluiceSize ≠ cluOff c Reg.plnSluicePos := mt (cluOff_inj c).1 (by decide)
  have hsize' : cluOff c Reg.plnSluiceSize ≠ cluOff c Reg.plnSluice := mt (cluOff_inj c).1 (by decide)
  unfold State.sluiceReset
  dsimp only
  rw [State.rdF_modLane, State.rdF_modLane, State.rdF_wr_ne _ hpos, State.rdF_wrF_same _ _ _ (by decide) (by decide),
    State.rdF_wr_ne _ hsize, State.rdF_wrF_off _ hsize']
  exact Nat.mod_eq_of_lt (State.rdF_lt _ _ 8 0)

theorem State.sluiceReset_pos (s : State) (c : Nat) (size : Bool) (v : W32) :
    (s.sluiceReset c size v).rd (cluOff c Reg.plnSluicePos) = 0 := by
  unfold State.sluiceReset
  dsimp only
  rw [State.rd_modLane, State.rd_wr_same]

theorem State.sluiceReset_lane (s : State) (c : Nat) (size : Bool) (v : W32) :
    (s.sluiceReset c size v).lane c = { s.lane c with slBlocks := 0, slIn := 0, creditDue := 0 } := by
  unfold State.sluiceReset
  dsimp only
  rw [State.lane_modLane_same, State.lane_wr, State.lane_wrF, State.lane_wr]

section
variable {s : State} {c : CluId} {v : W32} {size : Bool} (hon : s.boot.stage ≠ .off) (hreach : s.reaches (cluOff c (sluiceReg size)) = true)
include hon hreach

theorem sluiceConfig_flagged_completes (hbusy : s.planBusy = true) (hlane : s.plan.lanes.getLsbD c.val = true) :
    Completes (.plnSluiceConfigWrite c size v) s [.pair (cluOff c Reg.plnFlags)] (fun t =>
      s.retained (cluOff c Reg.plnFlags) = false → t.rdB (cluOff c Reg.plnFlags) 3 = true) :=
  ⟨_, congrArg Host.Outcome.next ((State.onWrite_reached _ hon hreach).trans (if_pos ⟨hbusy, hlane⟩)),
    fun hr => s.raise_rdB _ hr (by decide), (State.raise_changes _ 3 (Evolves.refl _ s) (Allows.mem List.mem_cons_self)).1⟩

theorem sluiceConfig_completes (hfree : s.planBusy = false ∨ s.plan.lanes.getLsbD c.val = false) :
    Completes (.plnSluiceConfigWrite c size v) s [.one (.lane c), .one (.reg (cluOff c Reg.plnSluice)), .one (.reg (cluOff c Reg.plnSluicePos)),
        .one (.reg (cluOff c (sluiceReg size)))] (fun t =>
      (size = true → t.rd (cluOff c Reg.plnSluiceSize) = v &&& 0x1FF) ∧ (size = false → t.rd (cluOff c Reg.plnSluiceBase) = v &&& 0x3FFFFFF) ∧
      t.rdF (cluOff c Reg.plnSluice) 24 16 = t.rdF (cluOff c Reg.plnSluiceSize) 8 0 ∧ t.rd (cluOff c Reg.plnSluicePos) = 0 ∧
      (t.lane c).slBlocks = 0 ∧ (t.lane c).creditDue = 0) := by
  have hno : ¬ (s.planBusy = true ∧ s.plan.lanes.getLsbD c = true) := by
    rintro ⟨hbusy, hlane⟩
    rcases hfree with h | h
    · exact absurd hbusy (ne_true_of_eq_false h)
    · exact absurd hlane (ne_true_of_eq_false h)
  have hconfig := s.sluiceReset_config c size v
  have hlane := s.sluiceReset_lane c size v
  refine ⟨_, congrArg Host.Outcome.next ((State.onWrite_reached _ hon hreach).trans (State.sluiceConfig_eq size v hno)),
    ⟨fun h => ?_, fun h => ?_, s.sluiceReset_credits c size v, s.sluiceReset_pos c size v, congrArg Lane.slBlocks hlane,
      congrArg Lane.creditDue hlane⟩, s.sluiceReset_frame c size v⟩
  · subst h
    exact hconfig
  · subst h
    exact hconfig

end

/-! ### The refill of a lane (R40, R180) -/

section
variable {s : State} {c : CluId}

theorem refillBlockRequest_completes {gs : List Gran} {p : Place} (h : s.refillBlock c = some (gs, p))
    (hroom : (s.lane c).ringFill + gs.length ≤ s.ringSize c) :
    Completes (.refillBlockRequest c) s [.one (.lane c), .one .refills, .one (.reg (cluOff c Reg.plnSluicePos))] (fun t =>
      (t.lane c).pred = some p ∧ ∃ r : Refill, (t.lane c).inflight = (s.lane c).inflight ++ [r] ∧ r.grans = gs ∧ r.dropped = false ∧
        r.chan = granuleChan ((gs.head?.map (fun g => g.addr)).getD 0) ∧ t.mem.dramQ = s.mem.dramQ ++ [(r.chan, c.val)]) := by
  obtain ⟨hlane, hqueue⟩ := State.refillRequest_taken h hroom
  obtain ⟨hpred, hinflight⟩ := (s.lane c).requested_refill gs p
  exact ⟨_, rfl, ⟨(congrArg Lane.pred hlane).trans hpred, _, (congrArg Lane.inflight hlane).trans hinflight, rfl, rfl, rfl, hqueue⟩,
    (State.refillRequest_changes _ (Evolves.refl _ s) (Allows.mem (by simp)) (Allows.mem (by simp)) (Allows.mem (by simp))).1⟩

theorem refillBlockRequest_full_completes {gs : List Gran} {p : Place} (h : s.refillBlock c = some (gs, p))
    (hfull : s.ringSize c < (s.lane c).ringFill + gs.length) : Completes (.refillBlockRequest c) s [] (fun _ => True) :=
  ⟨s, congrArg Host.Outcome.next (State.refillRequest_full h hfull), trivial, ChangesOnly.refl _ s⟩

variable {r : Refill} {l : List Refill} (h : (s.lane c).inflight = r :: l)
include h

theorem State.refillArrive_eq : s.refillArrive c = if s.oldestIs r.chan c then s.refillLand c else s := by
  unfold State.refillArrive
  rw [h]

theorem State.refillLand_lane : (s.refillLand c).lane c =
    { s.lane c with inflight := l, ring := (s.lane c).ring ++ (if r.dropped then [] else r.grans), creditDue := (s.lane c).creditDue + r.credits } := by
  unfold State.refillLand
  dsimp only
  rw [h]
  exact State.lane_setLane_same _ _ _

theorem State.refillLand_dramQ : (s.refillLand c).mem.dramQ = dropFirst (r.chan, c.val) s.mem.dramQ := by
  unfold State.refillLand
  dsimp only
  rw [h]
  rfl

theorem refillBlockArrive_completes (hold : s.oldestIs r.chan c = true) :
    Completes (.refillBlockArrive c) s [.one (.lane c), .one .refills] (fun t =>
      (t.lane c).inflight = l ∧ (t.lane c).creditDue = (s.lane c).creditDue + r.credits ∧ t.mem.dramQ = dropFirst (r.chan, c.val) s.mem.dramQ ∧
      (t.lane c).ring = (s.lane c).ring ++ (if r.dropped then [] else r.grans)) := by
  have hlane := State.refillLand_lane h
  exact ⟨_, congrArg Host.Outcome.next ((State.refillArrive_eq h).trans (if_pos hold)),
    ⟨congrArg Lane.inflight hlane, congrArg Lane.creditDue hlane, State.refillLand_dramQ h, congrArg Lane.ring hlane⟩,
    (State.refillLand_changes _ (Evolves.refl _ s) (Allows.mem (by simp)) (Allows.mem (by simp))).1⟩

theorem refillBlockArrive_waits_completes (hold : s.oldestIs r.chan c = false) : Completes (.refillBlockArrive c) s [] (fun _ => True) :=
  ⟨s, congrArg Host.Outcome.next ((State.refillArrive_eq h).trans (if_neg (ne_true_of_eq_false hold))), trivial, ChangesOnly.refl _ s⟩

end

/-- Settles O34: each clause is the law of its command above. -/
theorem streamsAndSluices : Obligations.StreamsAndSluices := by
  refine ⟨fun s c rest l => ⟨stream_cutOff_completes, fun h hb hc hl => ⟨stream_noRing_completes h hb hc hl, stream_misaligned_completes h hb hc hl,
      fun hring hlen => ⟨stream_busy_completes h hb hc hl hring hlen, stream_empty_completes h hb hc hl hring hlen,
        stream_accepted_completes h hb hc hl hring hlen⟩⟩,
      fun hrun hcredit => ⟨streamBlockPost_completes hrun hcredit, streamBlockPost_failed_completes hrun hcredit⟩, creditTimeout_completes⟩,
    fun s c v hon => ⟨fun hreach => ⟨sluicePost_completes hon hreach, sluicePost_flagged_completes hon hreach,
        sluicePost_nothing_completes hon hreach⟩, creditReturn_completes,
      fun size hreach => ⟨sluiceConfig_flagged_completes hon hreach, sluiceConfig_completes hon hreach⟩,
      fun gs p h => ⟨refillBlockRequest_completes h, refillBlockRequest_full_completes h⟩,
      fun r l h => ⟨refillBlockArrive_completes h, refillBlockArrive_waits_completes h⟩⟩⟩

end Sys2Proof.Machine
